-- ==== Sys2Proof/Word.lean ====
section
/-! DEFINITION. Word and table types of the module: bytes, words, sparse tables and the numbers of its units (R4, R8, R9). -/

namespace Sys2Proof

/-- A byte (R9). -/
abbrev Byte := BitVec 8
/-- A 32-bit word: an instruction, an accumulator word, an entry register of the seam endpoint. -/
abbrev W32 := BitVec 32
/-- A 64-bit word: a stack entry or a register. -/
abbrev W64 := BitVec 64
/-- A cap without its tag (R263). -/
abbrev W128 := BitVec 128

/-- A sparse table: pairs of a key and an entry, keys strictly rising. A key that is not listed reads as the
table's default, which the reader of the table names. -/
abbrev Tab (α : Type) := List (Nat × α)

/-- Cores 0 to 255 (R4) and the fitter's core, number 256 (R214). -/
abbrev CoreId := Fin 257
/-- Panels 0 to 3 (R4). -/
abbrev PanelId := Fin 4
/-- Spools 0 to 23 (R19). -/
abbrev SpoolId := Fin 24
/-- Shuttles 0 to 7 (R19). -/
abbrev ShuttleId := Fin 8
/-- Partitions p0 to p15 (R28). -/
abbrev PartId := Fin 16
/-- Host ports H0 and H1 (R19). -/
abbrev HostId := Fin 2
/-- Link ports P0 to P5 (R19). -/
abbrev PortId := Fin 6
/-- Links L0 to L35 (R19). -/
abbrev LinkId := Fin 36
/-- Entries of the stream table (R36). -/
abbrev StreamId := Fin 4096
/-- Entries of the group table (R473). -/
abbrev GroupId := Fin 4096
/-- Patches p0 to p15 of a matrix array (R81). -/
abbrev PatchId := Fin 16

/-- A lane that live tracking follows (R574): a spool lane, or the receive lane of a link. -/
inductive TrackLane where
  | spool (write : Bool) (s : SpoolId) (channel : BitVec 8) (pin : Fin 18)
  | link (l : LinkId) (lane : Fin 8)
deriving DecidableEq, Repr, Inhabited

/-- How a control message came (R445, R446): the symbols of its last codeword that were in error, whether the CRC-64 of every flit is good, and the
16-byte header of its last flit, by default one of KIND 2 that returns no credits. The payload's layout is not given (log 36). -/
structure CtrlWire where
  fec : Fin 545 := 0
  crc : Bool := true
  head : BitVec 128 := 0xF0000000_F0000000_00000000_80000000#128
deriving DecidableEq, Repr, Inhabited

/-- A soft error that has struck an array and that no access has met yet (R364): array 0 the L1 instruction cache of a core, 1 its L1 data, 2 its L2,
3 the panel cache, 4 scratch; the line; 1 a single bit, 2 uncorrectable data or parity, 3 an address tag. -/
structure Upset where
  array : Fin 5
  core : Fin 256
  la : BitVec 39
  kind : Fin 4
deriving DecidableEq, Repr, Inhabited

/-- What a HELLO of AUTH carries (R460); its byte layout is not given. -/
structure Hello where
  nonce : List Byte
  dev : BitVec 18
  port : Fin 6
  /-- half B -/
  half : Bool
  /-- link index within the group -/
  index : Fin 6
  topo : W64
  lp3 : Bool
  lp2 : Bool
  encOffered : Bool
  encRequired : Bool
deriving DecidableEq, Repr, Inhabited

end Sys2Proof
end

