-- ==== Sys2Proof/Syntax.lean ====
section
/-! DEFINITION. The commands (spec/opcode_table.json): one constructor for each row, with its operands.

A command that serves an entry of a queue names it by its position `k`. A command that a core's instruction word spells carries the word's 26 low
bits `f`; where the row is one function of a major, its function field is the row's (log 10). Measured values, received bytes and outcomes of
physical events are operands. -/

namespace Sys2Proof

/-- The symbols of a codeword that are in error; the code corrects up to 15 (R445). -/
abbrev FecOut := Fin 545

/-- Granules of a bolt by number, with the errors that have come into them: true for an error of more than one bit (R341). -/
abbrev BoltErrs := List (BitVec 18 × Bool)

/-- A core, and the errors that come into its bolt. -/
abbrev CoreErrs := CoreId × BoltErrs
/-- A shuttle, and the errors that come into the bolts that it reads. -/
abbrev ShuttleErrs := ShuttleId × BoltErrs
/-- A core, and the soft errors that strike before its access (R364). -/
abbrev CoreUpsets := CoreId × List Upset
/-- A core, and the word that it fetched next (R294). -/
abbrev CoreWord := CoreId × W32
/-- A vector of the fitter, and the word that its core fetched next. -/
abbrev VecWord := Fin 32 × W32
/-- A link, and what its wire brought of a CTRL flit beside the message (R446). -/
abbrev LinkWire := LinkId × CtrlWire

/-- A command. -/
inductive Instr where
  -- Seams
  /-- DATA_CHUNK (R38). -/
  | dataChunk (l : LinkId) (d : List Byte)
  /-- TRIM_CHUNK (R38). -/
  | trimChunk (l : LinkId) (d : List Byte)
  /-- CLOSE_CHUNK (R38). -/
  | closeChunk (l : LinkId) (d : List Byte)
  /-- WAITING_CHUNK_ADMIT (R42). -/
  | waitingChunkAdmit (n : StreamId)
  /-- PASS_FORWARD (R39). -/
  | passForward (n : StreamId)
  /-- PASS_LAST_BYTE (R39). -/
  | passLastByte (n : StreamId)
  /-- CHUNK_LANDED (R41). -/
  | chunkLanded (n : StreamId)
  /-- HANDLE_AT_NEXT (R43). -/
  | handleAtNext (n : StreamId)
  /-- SEM_SXREL (R44). -/
  | semSxrel (h : HostId) (n : StreamId) (count : BitVec 9)
  /-- SEND_DESCRIPTOR_POST (R48). -/
  | sendDescriptorPost (c : CoreId) (w : W64)
  /-- SEND_QUEUE_ROOM (R49). -/
  | sendQueueRoom (c : CoreId)
  /-- AUTO_FWD_SEND (R53). -/
  | autoFwdSend (n : StreamId)
  /-- SEM_SXCTL_RUN (R58). -/
  | semSxctlRun (h : HostId) (n : StreamId)
  /-- SEM_SXCTL_FENCE (R58). -/
  | semSxctlFence (h : HostId) (n : StreamId)
  /-- SEM_SXCTL_DOWN0 (R56). -/
  | semSxctlDown0 (h : HostId) (n : StreamId)
  /-- SEM_SXCTL_DOWN1 (R56). -/
  | semSxctlDown1 (h : HostId) (n : StreamId)
  /-- SEM_SXMARK (R62). -/
  | semSxmark (h : HostId) (n : StreamId) (seq : W32)
  -- Stitch monitor and sag
  /-- STITCH_MONITOR_WINDOW (R77). -/
  | stitchMonitorWindow (p : PanelId) (count : BitVec 20)
  /-- MONITOR_CLOCK_LOSS (R77). -/
  | monitorClockLoss (h : HostId)
  /-- CORE_RAIL_COLLAPSE (R79). -/
  | coreRailCollapse (p : PanelId) (v : BitVec 16)
  -- Matrix arrays
  /-- MCFG (R92). -/
  | mcfg (c : CoreId) (f : BitVec 26)
  /-- MSHAPE (R116). -/
  | mshape (c : CoreId) (f : BitVec 26)
  /-- MTILE (R94). -/
  | mtile (c : CoreId) (f : BitVec 26)
  /-- MPRE (R107). -/
  | mpre (c : CoreId) (f : BitVec 26)
  /-- MWAIT (R116). -/
  | mwait (c : CoreId) (f : BitVec 26)
  /-- MZERO (R116). -/
  | mzero (c : CoreId) (f : BitVec 26)
  /-- WEIGHT_PORT_GRANT (R103). -/
  | weightPortGrant (c : CoreErrs)
  /-- TILE_START (R105). -/
  | tileStart (c : CoreErrs) (p : PatchId)
  /-- TILE_ROWS_SUMMED (R106). -/
  | tileRowsSummed (c : CoreId) (p : PatchId)
  /-- BASTE_CHECK (R154). -/
  | basteCheck (c : CoreId)
  /-- MUPD (R146). -/
  | mupd (c : CoreId) (f : BitVec 26)
  -- Finishing engines
  /-- FLOAD (R175). -/
  | fload (c : CoreId) (f : BitVec 26)
  /-- FRUN (R178). -/
  | frun (c : CoreId) (f : BitVec 26)
  /-- FWAIT (R175). -/
  | fwait (c : CoreId) (f : BitVec 26)
  /-- FIN_PASS_START (R178). -/
  | finPassStart (c : CoreErrs)
  /-- FIN_PASS_COMPLETE (R179). -/
  | finPassComplete (c : CoreId)
  -- Long vectors
  /-- VSETVL (R209). -/
  | vsetvl (c : CoreId) (f : BitVec 26)
  /-- VGETVL (R209). -/
  | vgetvl (c : CoreId) (f : BitVec 26)
  /-- VBCASTS (R209). -/
  | vbcasts (c : CoreId) (f : BitVec 26)
  /-- VPUT (R209). -/
  | vput (c : CoreId) (f : BitVec 26)
  /-- VGET (R209). -/
  | vget (c : CoreId) (f : BitVec 26)
  /-- VMPOP (R209). -/
  | vmpop (c : CoreId) (f : BitVec 26)
  /-- VMFIRST (R209). -/
  | vmfirst (c : CoreId) (f : BitVec 26)
  /-- VMLD (R209). -/
  | vmld (c : CoreId) (f : BitVec 26)
  /-- VMST (R209). -/
  | vmst (c : CoreId) (f : BitVec 26)
  /-- VLD (R189). -/
  | vld (c : CoreId) (f : BitVec 26)
  /-- VST (R191). -/
  | vst (c : CoreId) (f : BitVec 26)
  /-- VARITH (R207). -/
  | varith (c : CoreId) (f : BitVec 26)
  /-- VFMA (R206). -/
  | vfma (c : CoreId) (f : BitVec 26)
  /-- VCMP (R206). -/
  | vcmp (c : CoreId) (f : BitVec 26)
  /-- VMLOG (R208). -/
  | vmlog (c : CoreId) (f : BitVec 26)
  /-- VRED (R203). -/
  | vred (c : CoreId) (f : BitVec 26)
  /-- VCVT (R204). -/
  | vcvt (c : CoreId) (f : BitVec 26)
  /-- VMOV (R209). -/
  | vmov (c : CoreId) (f : BitVec 26)
  /-- VBCAST (R209). -/
  | vbcast (c : CoreId) (f : BitVec 26)
  /-- VSLIDEUP (R209). -/
  | vslideup (c : CoreId) (f : BitVec 26)
  /-- VSLIDEDN (R209). -/
  | vslidedn (c : CoreId) (f : BitVec 26)
  /-- VCOMPRESS (R209). -/
  | vcompress (c : CoreId) (f : BitVec 26)
  /-- VECTOR_START (R196). -/
  | vectorStart (c : CoreErrs)
  -- Instructions
  /-- NOP (R230). -/
  | nop (c : CoreId) (f : BitVec 26)
  /-- SYNC (R291). -/
  | sync (c : CoreId) (f : BitVec 26)
  /-- SYNC_I (R293). -/
  | syncI (c : CoreId) (f : BitVec 26)
  /-- ERET (R279). -/
  | eret (c : CoreId) (f : BitVec 26)
  /-- TRAP (R230). -/
  | trap (c : CoreId) (f : BitVec 26)
  /-- LIT (R231). -/
  | lit (c : CoreId) (f : BitVec 26)
  /-- LITH (R231). -/
  | lith (c : CoreId) (f : BitVec 26)
  /-- ADDI (R232). -/
  | addi (c : CoreId) (f : BitVec 26)
  /-- ALU (R233). -/
  | alu (c : CoreId) (f : BitVec 26)
  /-- STK (R235). -/
  | stk (c : CoreId) (f : BitVec 26)
  /-- LD (R220). -/
  | ld (c : CoreId) (f : BitVec 26)
  /-- LOAD_VALUE_ARRIVES (R221). -/
  | loadValueArrives (c : CoreUpsets)
  /-- ST (R236). -/
  | st (c : CoreId) (f : BitVec 26)
  /-- LDC (R236). -/
  | ldc (c : CoreId) (f : BitVec 26)
  /-- STC (R236). -/
  | stc (c : CoreId) (f : BitVec 26)
  /-- CMOV (R238). -/
  | cmov (c : CoreId) (f : BitVec 26)
  /-- CGETBASE (R238). -/
  | cgetbase (c : CoreId) (f : BitVec 26)
  /-- CGETLEN (R238). -/
  | cgetlen (c : CoreId) (f : BitVec 26)
  /-- CGETPERM (R238). -/
  | cgetperm (c : CoreId) (f : BitVec 26)
  /-- CGETOTYPE (R238). -/
  | cgetotype (c : CoreId) (f : BitVec 26)
  /-- CGETTAG (R238). -/
  | cgettag (c : CoreId) (f : BitVec 26)
  /-- CBOUND (R238). -/
  | cbound (c : CoreId) (f : BitVec 26)
  /-- CPERM (R238). -/
  | cperm (c : CoreId) (f : BitVec 26)
  /-- CSEAL (R238). -/
  | cseal (c : CoreId) (f : BitVec 26)
  /-- CUNSEAL (R238). -/
  | cunseal (c : CoreId) (f : BitVec 26)
  /-- CCLR (R238). -/
  | cclr (c : CoreId) (f : BitVec 26)
  /-- CTEST (R238). -/
  | ctest (c : CoreId) (f : BitVec 26)
  /-- SWAPM (R239). -/
  | swapm (c : CoreId) (f : BitVec 26)
  /-- CAS (R239). -/
  | cas (c : CoreId) (f : BitVec 26)
  /-- XADD (R239). -/
  | xadd (c : CoreId) (f : BitVec 26)
  /-- MADD (R239). -/
  | madd (c : CoreId) (f : BitVec 26)
  /-- BR (R240). -/
  | br (c : CoreId) (f : BitVec 26)
  /-- BZ (R240). -/
  | bz (c : CoreId) (f : BitVec 26)
  /-- BNZ (R240). -/
  | bnz (c : CoreId) (f : BitVec 26)
  /-- CALL (R240). -/
  | call (c : CoreId) (f : BitVec 26)
  /-- RET (R241). -/
  | ret (c : CoreId) (f : BitVec 26)
  /-- JMPI (R241). -/
  | jmpi (c : CoreId) (f : BitVec 26)
  /-- CALLI (R241). -/
  | calli (c : CoreId) (f : BitVec 26)
  /-- PEND (R317). -/
  | pend (c : CoreId) (f : BitVec 26)
  /-- PWAIT (R330). -/
  | pwait (c : CoreId) (f : BitVec 26)
  /-- PFIRE (R318). -/
  | pfire (c : CoreId) (f : BitVec 26)
  /-- PID (R242). -/
  | pid (c : CoreId) (f : BitVec 26)
  /-- SHPOST (R243). -/
  | shpost (c : CoreId) (f : BitVec 26)
  /-- SHPOST_RESUME (R374). -/
  | shpostResume (c : CoreId) (f : BitVec 26)
  /-- LOOP (R245). -/
  | loop (c : CoreId) (f : BitVec 26)
  /-- CUST (R248). -/
  | cust (c : CoreId) (n : Fin 16) (f : BitVec 26)
  /-- STACK_SPILL (R217). -/
  | stackSpill (c : CoreId)
  /-- STACK_FILL (R217). -/
  | stackFill (c : CoreId)
  /-- RETURN_SPILL (R219). -/
  | returnSpill (c : CoreId)
  /-- RETURN_FILL (R219). -/
  | returnFill (c : CoreId)
  /-- STORE_BUFFER_DRAIN (R258). -/
  | storeBufferDrain (c : CoreUpsets)
  -- Exceptions
  /-- EXCEPTION_ENTRY (R276). -/
  | exceptionEntry (c : CoreId) (w : W32)
  /-- INTERRUPT_ENTRY (R288). -/
  | interruptEntry (c : CoreWord)
  /-- DOUBLE_FAULT (R282). -/
  | doubleFault (c : CoreId)
  /-- FITTER_EXCEPTION_ENTRY (R278). -/
  | fitterExceptionEntry (v : VecWord)
  /-- COR_XINT (R270). -/
  | corXint (h : Option HostId) (c : CoreId) (v : W64)
  -- Patterns
  /-- SUBMIT (R311). -/
  | submit (p : PartId)
  /-- ABORT (R312). -/
  | abort (p : PartId)
  /-- RRESET (R309). -/
  | rreset (h : HostId) (p : PartId)
  /-- PATTERN_COMPLETE (R313). -/
  | patternComplete (p : PartId) (s : Fin 64)
  /-- COMPLETION_RING_ROOM (R313). -/
  | completionRingRoom (p : PartId)
  /-- PAT_NFIRE (R319). -/
  | patNfire (h : HostId) (p : PartId) (v : W64)
  /-- NOTCH_DELIVERY (R320). -/
  | notchDelivery (k : Nat)
  /-- PIECE_COMPLETE (R316). -/
  | pieceComplete (k : Nat)
  /-- FANOUT_COMPLETE (R315). -/
  | fanoutComplete (k : Nat)
  /-- COUNT_DOWN (R322). -/
  | countDown (k : Nat)
  /-- POOL_SPACE_FREE (R324). -/
  | poolSpaceFree (n : PanelId)
  /-- DISPATCH (R325). -/
  | dispatch (c : CoreId)
  /-- SEAT_DELIVERY_RESUME (R331). -/
  | seatDeliveryResume (k : Nat)
  /-- SWITCH_OUT (R334). -/
  | switchOut (c : CoreId)
  /-- SAVE_COMPLETE (R335). -/
  | saveComplete (k : Nat)
  -- Coherence
  /-- GETS (R352). -/
  | gets (k : Nat) (e : Fin 4)
  /-- GETX (R352). -/
  | getx (k : Nat) (e : Fin 4)
  /-- UPG (R352). -/
  | upg (k : Nat) (e : Fin 4)
  /-- PUTM (R358). -/
  | putm (k : Nat) (e : Fin 4)
  /-- PUTC (R358). -/
  | putc (k : Nat) (e : Fin 4)
  /-- RD (R352). -/
  | rd (a : Fin 17) (la : Nat) (e : Fin 4)
  /-- WR (R352). -/
  | wr (a : Fin 17) (la : Nat) (off : Fin 128) (d : List Byte) (e : Fin 4)
  /-- DATA_S (R353). -/
  | dataS (k : Nat)
  /-- DATA_E (R353). -/
  | dataE (k : Nat)
  /-- DATA_M (R353). -/
  | dataM (k : Nat)
  /-- GRANT (R353). -/
  | grant (k : Nat)
  /-- NAK (R355). -/
  | nak (k : Nat)
  /-- NAK_RETRY (R355). -/
  | nakRetry (c : Fin 273) (la : Nat)
  /-- PUTACK (R357). -/
  | putack (k : Nat)
  /-- PUTDEC (R357). -/
  | putdec (k : Nat)
  /-- INV (R353). -/
  | inv (k : Nat) (e : Fin 4)
  /-- RECALL (R353). -/
  | recall (k : Nat) (e : Fin 4)
  /-- FWDS (R353). -/
  | fwds (k : Nat) (e : Fin 4)
  /-- FWDX (R353). -/
  | fwdx (k : Nat) (e : Fin 4)
  /-- FWDR (R353). -/
  | fwdr (k : Nat) (e : Fin 4)
  /-- ACK (R352). -/
  | ack (k : Nat) (e : Fin 4)
  /-- ACKD (R352). -/
  | ackd (k : Nat) (e : Fin 4)
  /-- GACK (R352). -/
  | gack (k : Nat)
  /-- OFFER_BUFFER_FREE (R357). -/
  | offerBufferFree (c : Fin 256)
  -- Shuttles
  /-- COPY (R372). -/
  | copy (s : ShuttleId)
  /-- STRIDE (R372). -/
  | stride (s : ShuttleId)
  /-- GATHER (R372). -/
  | gather (s : ShuttleId)
  /-- SCATTER (R372). -/
  | scatter (s : ShuttleId)
  /-- FILL (R372). -/
  | fill (s : ShuttleId)
  /-- REDADD (R372). -/
  | redadd (s : ShuttleId)
  /-- SHUTTLE_DESCRIPTOR_DONE (R378). -/
  | shuttleDescriptorDone (s : ShuttleErrs) (k : Nat) (d : List Byte)
  /-- SHUTTLE_DESCRIPTOR_FAIL (R376). -/
  | shuttleDescriptorFail (s : ShuttleId) (k : Nat) (hostErr : Bool)
  -- Spools
  /-- SPOOL_ADMISSION (R396). -/
  | spoolAdmission (s : SpoolId) (k : Nat)
  /-- CHANNEL_READ (R389). -/
  | channelRead (s : SpoolId) (k : Nat) (bad : List (Fin 72))
  /-- CHANNEL_WRITE (R390). -/
  | channelWrite (s : SpoolId) (k : Nat)
  /-- ROW_CLOSE (R386). -/
  | rowClose (s : SpoolId) (c : BitVec 8) (b : Fin 16)
  /-- REFRESH (R392). -/
  | refresh (s : SpoolId) (c : BitVec 8)
  /-- REFRESH_TEMP_SAMPLE (R392). -/
  | refreshTempSample (s : SpoolId) (raw : BitVec 16)
  /-- PATROL_SCRUB (R391). -/
  | patrolScrub (s : SpoolId) (c : BitVec 8) (bad : List (Fin 72))
  /-- SPOOL_ADD (R401). -/
  | spoolAdd (k : Nat) (bad : List (Fin 72))
  /-- ADDER_UNIT_CLOSE (R401). -/
  | adderUnitClose (s : SpoolId) (c : BitVec 8) (i : Fin 4)
  /-- SPL_MONSEL_START (R405). -/
  | splMonselStart (h : HostId) (s : SpoolId) (v : W64)
  /-- SPOOL_MONITOR_DONE (R405). -/
  | spoolMonitorDone (s : SpoolId) (diffs : W32)
  /-- TRAINING_PAIR (R577). -/
  | trainingPair (s : SpoolId) (c : BitVec 8)
  /-- TRACK_ROUND (R574). -/
  | trackRound (x : TrackLane) (d0 : W32) (d1 : W32) (d2 : W32) (d3 : W32)
  -- Translation
  /-- WALK (R417). -/
  | walk (c : CoreId)
  /-- FAULT_ARRIVAL (R428). -/
  | faultArrival (k : Nat)
  /-- FLQ_REPLY (R431). -/
  | flqReply (h : HostId) (p : PartId) (v : W64)
  /-- WAITERS_RELEASED (R423). -/
  | waitersReleased (k : Nat)
  /-- XLT_INV (R421). -/
  | xltInv (h : HostId) (p : PartId) (v : W64)
  /-- COR_XLTINV (R421). -/
  | corXltinv (c : CoreId) (v : W64)
  /-- SHOOT_DOWN_COMPLETE (R421). -/
  | shootDownComplete (k : Nat)
  -- Links
  /-- SIGNAL_DETECTED (R442). -/
  | signalDetected (l : LinkId)
  /-- TRAIN_CONVERGED (R442). -/
  | trainConverged (l : LinkId)
  /-- TRAIN_TIMEOUT (R444). -/
  | trainTimeout (l : LinkId)
  /-- LOCK_ACHIEVED (R442). -/
  | lockAchieved (l : LinkId)
  /-- LOCK_TIMEOUT (R444). -/
  | lockTimeout (l : LinkId)
  /-- AUTH_TIMEOUT (R444). -/
  | authTimeout (l : LinkId)
  /-- FAILED_RETRY (R442). -/
  | failedRetry (l : LinkId)
  /-- LINK_WATCHDOG (R444). -/
  | linkWatchdog (l : LinkId)
  /-- CREDIT_WATCHDOG (R456). -/
  | creditWatchdog (l : LinkId) (cls : Fin 12)
  /-- AUTH_HELLO (R460). -/
  | authHello (l : LinkWire) (x : Hello)
  /-- AUTH_KEYS (R460). -/
  | authKeys (l : LinkWire) (key : List Byte) (chain : List Byte)
  /-- AUTH_ENCAPSULATION (R460). -/
  | authEncapsulation (l : LinkWire) (d : List Byte)
  /-- AUTH_SIGNATURE (R461). -/
  | authSignature (l : LinkWire) (d : List Byte)
  /-- HANDOVER (R449). -/
  | handover (l : LinkWire) (lost : LinkId) (last : Fin 4096)
  /-- MARK (R469). -/
  | mark (l : LinkWire)
  /-- DATA_FLIT (R448). -/
  | dataFlit (l : LinkId) (fec : FecOut) (d : List Byte)
  /-- IDLE_FLIT (R446). -/
  | idleFlit (l : LinkId) (fec : FecOut) (d : List Byte)
  /-- CODEWORD_SLOT (R455). -/
  | codewordSlot (l : LinkId)
  /-- REMOTE_READ (R464). -/
  | remoteRead (src : BitVec 18) (vc5 : Bool) (d : List Byte)
  /-- REMOTE_WRITE (R464). -/
  | remoteWrite (src : BitVec 18) (vc5 : Bool) (d : List Byte)
  /-- REMOTE_ADD (R464). -/
  | remoteAdd (src : BitVec 18) (vc5 : Bool) (d : List Byte)
  /-- REMOTE_LINEADD (R464). -/
  | remoteLineadd (src : BitVec 18) (vc5 : Bool) (d : List Byte)
  /-- REMOTE_RESPONSE (R467). -/
  | remoteResponse (d : List Byte)
  /-- REARM (R442). -/
  | rearm (h : HostId) (l : LinkId)
  /-- RETRAIN (R442). -/
  | retrain (h : HostId) (l : LinkId)
  -- Collectives
  /-- CMQ_GPOST (R479). -/
  | cmqGpost (h : HostId) (g : GroupId) (v : W64)
  /-- COR_CMQPOST (R479). -/
  | corCmqpost (c : CoreId) (v : W64)
  /-- ALLREDUCE (R488). -/
  | allreduce (g : GroupId)
  /-- REDSCAT (R485). -/
  | redscat (g : GroupId)
  /-- ALLGATHER (R487). -/
  | allgather (g : GroupId)
  /-- BCAST (R489). -/
  | bcast (g : GroupId)
  /-- ALLTOALL (R501). -/
  | alltoall (g : GroupId)
  /-- BARRIER (R490). -/
  | barrier (g : GroupId)
  /-- COLL_DATA_CHUNK (R494). -/
  | collDataChunk (d : List Byte)
  /-- TOKEN_CHUNK (R496). -/
  | tokenChunk (d : List Byte)
  /-- TEAR_CHUNK (R503). -/
  | tearChunk (d : List Byte)
  /-- END_CHUNK (R489). -/
  | endChunk (d : List Byte)
  /-- OPERATION_COMPLETE (R483). -/
  | operationComplete (g : GroupId)
  /-- ENGINE_CONTEXT_FREE (R509). -/
  | engineContextFree (g : GroupId)
  /-- STALL_WATCHDOG (R508). -/
  | stallWatchdog (g : GroupId)
  /-- CMQ_RESET (R506). -/
  | cmqReset (h : HostId) (g : GroupId) (v : W64)
  -- Hosts and mailboxes
  /-- REGISTER_WRITE (R11). -/
  | registerWrite (h : HostId) (vf : Option (Fin 8)) (off : BitVec 26) (size : Fin 9) (v : W64)
  /-- STAGE_ITEM_WRITE (R537). -/
  | stageItemWrite (h : HostId) (vf : Option (Fin 8)) (off : BitVec 26) (v : W64)
  /-- BAR2_ACCESS (R519). -/
  | bar2Access (h : HostId) (vf : Option (Fin 8)) (x : BitVec 36) (n : Nat) (data : Option (List Byte))
  /-- PORT_LINK_DOWN (R515). -/
  | portLinkDown (h : HostId)
  /-- HOT_RESET (R515). -/
  | hotReset (h : HostId)
  /-- PF_FLR (R515). -/
  | pfFlr (h : HostId)
  /-- VF_FLR (R515). -/
  | vfFlr (h : HostId) (v : Fin 8)
  /-- COMPLETION_TIMEOUT (R514). -/
  | completionTimeout (s : ShuttleId) (k : Nat)
  /-- HELLO (R533). -/
  | hello
  /-- INFO (R534). -/
  | info
  /-- HEALTH (R534). -/
  | health
  /-- TIME_SET (R534). -/
  | timeSet
  /-- TIME_GET (R534). -/
  | timeGet
  /-- CFG_REG (R542). -/
  | cfgReg
  /-- PART_DEFINE (R522). -/
  | partDefine
  /-- PART_DESTROY (R523). -/
  | partDestroy
  /-- PART_ADOPT (R528). -/
  | partAdopt
  /-- STEWARD_KEY (R534). -/
  | stewardKey
  /-- CFG_STAGE (R538). -/
  | cfgStage
  /-- CFG_CHECK (R539). -/
  | cfgCheck
  /-- CFG_APPLY (R540). -/
  | cfgApply
  /-- APPLY_SWITCH (R540). -/
  | applySwitch (flashFails : Bool)
  /-- CFG_DISCARD (R534). -/
  | cfgDiscard
  /-- GLOVE_GRANT (R534). -/
  | gloveGrant
  /-- SNAPSHOT (R623). -/
  | snapshot
  /-- ATTEST (R565). -/
  | attest
  /-- FW_PUSH (R556). -/
  | fwPush (flashFails : Bool) (unblown : BitVec 7)
  /-- MOD_RESET (R535). -/
  | modReset
  /-- PRT_RUN (R525). -/
  | prtRun (h : HostId) (p : PartId)
  /-- PRT_STOP (R525). -/
  | prtStop (h : HostId) (p : PartId)
  /-- PRT_CRESET (R526). -/
  | prtCreset (h : HostId) (p : PartId) (v : W64)
  /-- PRT_IARM (R546). -/
  | prtIarm (h : HostId) (p : PartId) (v : W64)
  /-- CAL_MIARM (R592). -/
  | calMiarm (h : HostId) (v : W64)
  -- Boot
  /-- BOOT_ROM_START (R552). -/
  | bootRomStart (copyA : Bool) (copyB : Bool) (unblown : BitVec 7)
  /-- DOE_REQUEST (R566). -/
  | doeRequest (h : HostId) (d : List Byte)
  /-- DOE_ABORT (R566). -/
  | doeAbort (h : HostId)
  /-- SPOOL_TRAINING (R612). -/
  | spoolTraining
  /-- SPOOL_TRAINING_DONE (R586). -/
  | spoolTrainingDone (failed : BitVec 24)
  /-- SPOOL_ZEROING_DONE (R568). -/
  | spoolZeroingDone
  /-- BOOT_APPLY (R543). -/
  | bootApply (bad0 : Bool) (bad1 : Bool)
  /-- DIE_TO_DIE_LINK_FAILURE (R586). -/
  | dieToDieLinkFailure (a : PanelId) (b : PanelId)
  -- Calibration
  /-- CAL_LMSEL_START (R581). -/
  | calLmselStart (h : HostId) (v : W64)
  /-- LINK_MONITOR_DONE (R581). -/
  | linkMonitorDone (diffs : W32)
  /-- CAL_VSEL (R594). -/
  | calVsel (h : HostId) (v : W64)
  -- Power and sideband
  /-- CONVERTER_START (R612). -/
  | converterStart (volts : BitVec 16)
  /-- CONVERTER_STOP (R597). -/
  | converterStop (volts : BitVec 16)
  /-- ENABLE_HIGH (R612). -/
  | enableHigh (cool : Bool)
  /-- ENABLE_LOW (R614). -/
  | enableLow
  /-- RAIL_GROUP_GOOD (R612). -/
  | railGroupGood
  /-- RAIL_GOOD_TIMEOUT (R612). -/
  | railGoodTimeout (r : Fin 16)
  /-- RAIL_FAULT (R602). -/
  | railFault (r : Fin 16)
  /-- THERMAL_TRIP (R607). -/
  | thermalTrip (t : Fin 29) (raw : BitVec 16)
  /-- INPUT_CURRENT_LIMIT (R596). -/
  | inputCurrentLimit (volts : BitVec 16) (amps : BitVec 16) (v0 : BitVec 16) (v1 : BitVec 16) (v2 : BitVec 16) (v3 : BitVec 16)
  /-- RAIL_MOVE_STEP (R600). -/
  | railMoveStep (p : PanelId)
  /-- POWER_CAP_CHECK (R601). -/
  | powerCapCheck (watts : BitVec 16) (amps : BitVec 16)
  /-- THERMAL_STEP (R605). -/
  | thermalStep (t : Fin 29) (raw : BitVec 16)
  /-- MODULE_RESET (R614). -/
  | moduleReset
  /-- MODRST (R614). -/
  | modrst
  /-- DYNAMIC_ADDRESS_ASSIGN (R610). -/
  | dynamicAddressAssign (a : BitVec 7)
  /-- I3C_PRIVATE_WRITE (R610). -/
  | i3cPrivateWrite (d : List Byte)
  /-- SB_POWER_READ (R611). -/
  | sbPowerRead (n : BitVec 6)
  /-- HEARTBEAT (R611). -/
  | heartbeat
  -- Rows added at the end
  /-- REGULATOR_FILL (R396). -/
  | regulatorFill (s : SpoolId) (r : Nat)
  /-- PORT_LINK_UP (R512). -/
  | portLinkUp (h : HostId) (gen : Nat) (width : Nat)
  /-- REFERENCE_CLOCK_RETURN (R77). -/
  | referenceClockReturn (h : HostId)
  /-- STANDBY_GOOD (R612). -/
  | standbyGood
  /-- COLD_WAIT_END (R615). -/
  | coldWaitEnd
  /-- VECTOR_INSTRUCTION_DONE (R198). -/
  | vectorInstructionDone (c : CoreId) (s : Fin 8)
deriving DecidableEq, Repr

end Sys2Proof
end

