-- ==== Sys2Proof/Config.lean ====
section
/-! DEFINITION. What one implementation fixes and the spec leaves open: free values and uninterpreted functions. None has
a body, so that a statement holds whatever they are. -/

namespace Sys2Proof.Config

/-- A free 64-bit value: the counter of State picks a fresh one each time (log 6). -/
opaque freeWord : Nat → BitVec 64
/-- A free choice between two outcomes that a rule lists (log 6). -/
opaque freeBool : Nat → Bool
/-- What an engine finds in a state word that software has written: its own word and the word written to what it acts on (R16, R323; log 6). -/
opaque foreignState : BitVec 64 → BitVec 64 → BitVec 64
/-- Set of the panel's shared TLB that an entry uses: partition and page number to a number below 256 (R419 gives no
index; log 12). -/
opaque tlbSet : Nat → Nat → Nat
/-- Check symbol of a link's Reed-Solomon code (R445 gives neither its field polynomial nor its generator): data symbols and place to symbol (log 36). -/
opaque rsCheck : List Nat → Nat → BitVec 10
/-- ML-DSA-65 (R461, R551): a public key, a context, a message and a signature to the verdict (log 7). -/
opaque mldsaVerify : List (BitVec 8) → List (BitVec 8) → List (BitVec 8) → List (BitVec 8) → Bool
/-- ML-DSA-65 signing, hedged (R549, R564): a private seed, a context, 32 random bytes and a message to a signature (log 7). -/
opaque mldsaSign : List (BitVec 8) → List (BitVec 8) → List (BitVec 8) → List (BitVec 8) → List (BitVec 8)
/-- ML-DSA-65 key generation: a seed to a public key (log 7). -/
opaque mldsaPublic : List (BitVec 8) → List (BitVec 8)
/-- ML-KEM-768: a seed to an encapsulation key (log 7). -/
opaque mlkemKey : List (BitVec 8) → List (BitVec 8)
/-- ML-KEM-768 encapsulation: a key and a seed to ciphertext and shared secret (log 7). -/
opaque mlkemEncap : List (BitVec 8) → List (BitVec 8) → List (BitVec 8) × List (BitVec 8)
/-- ML-KEM-768 decapsulation: a seed and a ciphertext to the shared secret (log 7). -/
opaque mlkemDecap : List (BitVec 8) → List (BitVec 8) → List (BitVec 8)
/-- AES-256-GCM sealing: key, nonce and text to cipher text with its tag (log 7). -/
opaque gcmSeal : List (BitVec 8) → Nat → List (BitVec 8) → List (BitVec 8)
/-- AES-256-GCM opening: key, nonce and sealed text to the text, or none (log 7). -/
opaque gcmOpen : List (BitVec 8) → Nat → List (BitVec 8) → Option (List (BitVec 8))
/-- X.509 certificate chain: the chain's public key and its subject's device, or none where the chain does not lead to one of
the trusted digests (log 7). -/
opaque chainKey : List (BitVec 64) → List (BitVec 8) → Option (List (BitVec 8))
/-- X.509 certificate of a public key for a subject (log 7). -/
opaque certify : List (BitVec 8) → List (BitVec 8) → List (BitVec 8)
/-- The device's unique secret (R557; log 7). -/
opaque deviceSecret : List (BitVec 8)
/-- Random bytes of the module: a counter and a length (log 7). -/
opaque random : Nat → Nat → List (BitVec 8)
/-- Calibration fuses (R569, R571): the factory value of a quantity by its number; it is used clamped to its range (log 6). -/
opaque factory : Nat → Int
/-- Image keys 0 to 3 of the boot ROM (R548; log 7). -/
opaque imageKey : Nat → List (BitVec 8)
/-- M0, the digest of the boot ROM (R548; log 7). -/
opaque romDigest : List (BitVec 8)
/-- The DeviceID and manufacturing CA certificates of the factory area (R548; log 7). -/
opaque factoryChain : List (BitVec 8)
/-- What the boot ROM leaves in c0 to c7 of the fitter's core, with the tag in bit 128 (R552 states none of it; log 47). -/
opaque bootCap : Nat → BitVec 129
/-- What the boot ROM leaves in SP and RSP of the fitter's core (log 47). -/
opaque bootSp : Nat → BitVec 64
/-- The stepping that SB_IDENT reports (R611). -/
opaque stepping : BitVec 8
/-- The bytes of a HELLO (R460), of which the spec gives no layout: nonce and fields to bytes (log 7). -/
opaque helloBytes : List (BitVec 8) → List Nat → List (BitVec 8)

end Sys2Proof.Config
end

