-- ==== Sys2Proof/Machine/Bits.lean ====
section
/-! DEFINITION. Bit fields, sign extension and little-endian order (R8, R9, R10). -/

namespace Sys2Proof

/-- Bits `hi` to `lo` of a number, both included (R8). -/
def bitsN (w hi lo : Nat) : Nat := (w >>> lo) % 2 ^ (hi + 1 - lo)

/-- Bits `hi` to `lo` of a word as a number. -/
def fld {n : Nat} (w : BitVec n) (hi lo : Nat) : Nat := bitsN w.toNat hi lo

/-- Bit `i` of a word. -/
def bit {n : Nat} (w : BitVec n) (i : Nat) : Bool := w.getLsbD i

/-- The word of ones in bits `hi` to `lo`. -/
def maskB (n hi lo : Nat) : BitVec n := BitVec.ofNat n ((2 ^ (hi + 1 - lo) - 1) <<< lo)

/-- The word with bits `hi` to `lo` replaced. -/
def setFld {n : Nat} (w : BitVec n) (hi lo v : Nat) : BitVec n :=
  (w &&& ~~~ maskB n hi lo) ||| (BitVec.ofNat n (v <<< lo) &&& maskB n hi lo)

/-- One bit replaced. -/
def setBit {n : Nat} (w : BitVec n) (i : Nat) (b : Bool) : BitVec n := setFld w i i (if b then 1 else 0)

/-- The signed value of the low `w` bits of a number. -/
def sNat (w v : Nat) : Int :=
  let u := v % 2 ^ w
  if 2 * u < 2 ^ w then (u : Int) else (u : Int) - (2 ^ w : Nat)

/-- The low 64 bits of an integer. -/
def w64i (i : Int) : W64 := BitVec.ofInt 64 i

/-- A 64-bit word of a number. -/
abbrev w64 (v : Nat) : W64 := BitVec.ofNat 64 v

/-- The number that little-endian bytes spell (R9). -/
def ofLe : List Byte → Nat
  | [] => 0
  | b :: bs => b.toNat + 256 * ofLe bs

/-- The `k` little-endian bytes of a number (R9). -/
def toLe : Nat → Nat → List Byte
  | 0, _ => []
  | k + 1, v => BitVec.ofNat 8 v :: toLe k (v / 256)

/-- Truth as a number. -/
def b2n (b : Bool) : Nat := if b then 1 else 0

/-- The numbers below a bound, as a list; kept short by its callers. -/
def upto (n : Nat) : List Nat := List.range n

/-- The first position of a list that a test accepts. -/
def firstIx {α : Type} (f : α → Bool) (l : List α) : Option Nat := l.findIdx? f

/-- The list without its entry at a position. -/
def dropAt {α : Type} (l : List α) (k : Nat) : List α := l.eraseIdx k

/-- The number of set bits of a number, counted over `n` bits. -/
def popN (n v : Nat) : Nat := ((upto n).filter fun i => v.testBit i).length

/-- The lowest set bit of a number below `n`, or `n`. -/
def lowBit (n v : Nat) : Nat := ((upto n).find? fun i => v.testBit i).getD n

/-- The highest set bit of a number below `n`, if any. -/
def highBit (n v : Nat) : Option Nat := (upto n).reverse.find? fun i => v.testBit i

/-- Exclusive or of numbers. -/
def nxor (a b : Nat) : Nat := a ^^^ b

/-- Exclusive or of two byte lists, as long as the shorter. -/
def xorBytes (a b : List Byte) : List Byte := List.zipWith (fun x y => x ^^^ y) a b

/-- Bytes padded with zeros, or cut, to a length. -/
def padTo (n : Nat) (bs : List Byte) : List Byte := (bs ++ List.replicate n 0#8).take n

end Sys2Proof
end

