-- ==== Sys2Proof/Machine/Tab.lean ====
section
/-! DEFINITION. Operations on sparse tables: read, write, erase, and the canonical form of byte memories. -/

namespace Sys2Proof

/-- The entry of a key, if the table lists it. -/
def Tab.get? {α : Type} : Tab α → Nat → Option α
  | [], _ => none
  | (k, v) :: t, a => if k = a then some v else Tab.get? t a

/-- The entry of a key, or the table's default. -/
def Tab.get {α : Type} (d : α) (t : Tab α) (a : Nat) : α := (Tab.get? t a).getD d

/-- Write one entry, keeping the keys rising. -/
def Tab.put {α : Type} : Tab α → Nat → α → Tab α
  | [], a, v => [(a, v)]
  | (k, w) :: t, a, v =>
    if k = a then (a, v) :: t
    else if a < k then (a, v) :: (k, w) :: t
    else (k, w) :: Tab.put t a v

/-- Remove one key. -/
def Tab.del {α : Type} (t : Tab α) (a : Nat) : Tab α := t.filter fun p => p.1 != a

/-- Write one entry of a table whose unlisted keys read as `d`: writing `d` removes the key, so that equal
contents are equal lists. -/
def Tab.setD {α : Type} [DecidableEq α] (d : α) (t : Tab α) (a : Nat) (v : α) : Tab α :=
  if v = d then Tab.del t a else Tab.put t a v

/-- Change one entry. -/
def Tab.upd {α : Type} (d : α) (t : Tab α) (a : Nat) (f : α → α) : Tab α := Tab.put t a (f (Tab.get d t a))

/-- Remove every key of the range from `lo` up to, and without, `hi`. -/
def Tab.clear {α : Type} (t : Tab α) (lo hi : Nat) : Tab α := t.filter fun p => decide (p.1 < lo) || decide (hi ≤ p.1)

/-- Keep the keys that a test accepts. -/
def Tab.keep {α : Type} (t : Tab α) (f : Nat → α → Bool) : Tab α := t.filter fun p => f p.1 p.2

/-- Change every listed entry. -/
def Tab.mapV {α β : Type} (t : Tab α) (f : Nat → α → β) : Tab β := t.map fun p => (p.1, f p.1 p.2)

/-- The keys are strictly rising. -/
def Tab.sorted {α : Type} : Tab α → Bool
  | [] => true
  | (k, _) :: t => (t.all fun p => decide (k < p.1)) && Tab.sorted t

/-- The canonical form of a byte memory whose unlisted bytes read zero: keys strictly rising, no zero listed. -/
def Memory.wf (t : Tab Byte) : Bool := Tab.sorted t && t.all fun p => p.2 != 0#8

/-- One byte of a byte memory; a byte that nothing has written reads zero.
DESIGN CHOICE (log 4): the spec gives RAM no value before its first write. -/
def Memory.byte (t : Tab Byte) (a : Nat) : Byte := Tab.get 0#8 t a

/-- Write one byte. -/
def Memory.setByte (t : Tab Byte) (a : Nat) (v : Byte) : Tab Byte := Tab.setD 0#8 t a v

/-- `n` bytes from an address upward. -/
def Memory.bytes (t : Tab Byte) : Nat → Nat → List Byte
  | _, 0 => []
  | a, n + 1 => Memory.byte t a :: Memory.bytes t (a + 1) n

/-- Write bytes from an address upward. -/
def Memory.setBytes (t : Tab Byte) : Nat → List Byte → Tab Byte
  | _, [] => t
  | a, b :: bs => Memory.setBytes (Memory.setByte t a b) (a + 1) bs

end Sys2Proof
end

