-- ==== Sys2Proof/Machine/Regs.lean ====
section
/-! DEFINITION. Register tables: places, fields, access codes and reset values (R11, R12), and how a write acts. -/

namespace Sys2Proof.Machine

/-- The access codes of R11. -/
inductive AccCode where
  | rw | ro | wo | w1c | w1s | stg | lck
deriving DecidableEq, Repr, Inhabited

/-- One field: bits `hi` to `lo`, its access code, its reset value, and for a staged field the range its table gives
(R635); `top = 0` gives no range. -/
structure FieldD where
  hi : Nat
  lo : Nat
  acc : AccCode
  reset : Nat := 0
  least : Nat := 0
  top : Nat := 0
deriving DecidableEq, Repr, Inhabited

/-- A register, or `n1` rows of `n2` registers, at `base + s1 × i + s2 × j`, `width` bytes wide. -/
structure RegRow where
  base : Nat
  n1 : Nat := 1
  s1 : Nat := 0
  n2 : Nat := 1
  s2 : Nat := 0
  width : Nat := 8
  fields : List FieldD
deriving DecidableEq, Repr, Inhabited

/-- The row's register at an address, as the pair of its two numbers. -/
def RegRow.ix? (r : RegRow) (a : Nat) : Option (Nat × Nat) :=
  if a < r.base then none
  else
    let d := a - r.base
    let i := if r.s1 = 0 then 0 else d / r.s1
    let e := if r.s1 = 0 then d else d % r.s1
    let j := if r.s2 = 0 then 0 else e / r.s2
    let f := if r.s2 = 0 then e else e % r.s2
    if i < r.n1 ∧ j < r.n2 ∧ f = 0 then some (i, j) else none

/-- The row that holds an address. -/
def findRow (rows : List RegRow) (a : Nat) : Option RegRow := rows.find? fun r => (r.ix? a).isSome

/-- A row's value at reset. -/
def RegRow.reset (r : RegRow) : W64 :=
  BitVec.ofNat 64 (r.fields.foldl (fun v f => v + f.reset * 2 ^ f.lo) 0)

/-- The value at reset of the register at an address; 0 where there is none. -/
def resetAt (rows : List RegRow) (a : Nat) : W64 :=
  match findRow rows a with
  | some r => r.reset
  | none => 0

/-- What a register holds: the last value stored, or the reset value. -/
def regVal (rows : List RegRow) (t : Tab W64) (a : Nat) : W64 := (Tab.get? t a).getD (resetAt rows a)

/-- A write under the access codes of R11 and R12: RW fields take the bits written, W1C fields clear where a one is
written, every other field and every reserved bit keeps its value. -/
def FieldD.write (f : FieldD) (old new : W64) : W64 :=
  match f.acc with
  | .rw => setFld old f.hi f.lo (fld new f.hi f.lo)
  | .w1c => setFld old f.hi f.lo (fld (old &&& ~~~ new) f.hi f.lo)
  | _ => old

/-- A write of a whole register. -/
def RegRow.write (r : RegRow) (old new : W64) : W64 := r.fields.foldl (fun v f => f.write v new) old

/-- The staged fields of a register. -/
def RegRow.staged (r : RegRow) : List FieldD := r.fields.filter fun f => f.acc = .stg || f.acc = .lck

/-- The value with the staged fields replaced, as an apply point does. -/
def RegRow.apply (r : RegRow) (old new : W64) : W64 :=
  r.staged.foldl (fun v f => setFld v f.hi f.lo (fld new f.hi f.lo)) old

/-- Every staged field lies within the range its table gives (R635). -/
def RegRow.legal (r : RegRow) (v : W64) : Bool :=
  r.staged.all fun f => f.top = 0 || (decide (f.least ≤ fld v f.hi f.lo) && decide (fld v f.hi f.lo ≤ f.top))

/-- The registers of a compute core's control space (R267; R117, R143, R157, R181, R210, R253, R298, R337, R435, R511). -/
def ctlRows : List RegRow := [
  -- COR_EXC: HALT, DCAUSE, DEPTH, VEC
  { base := 0x000, fields := [⟨24, 24, .ro, 0, 0, 0⟩, ⟨20, 16, .ro, 0, 0, 0⟩, ⟨9, 8, .ro, 0, 0, 0⟩, ⟨4, 0, .ro, 0, 0, 0⟩] },
  -- COR_HTBASE
  { base := 0x008, fields := [⟨47, 10, .rw, 0, 0, 0⟩] },
  -- COR_IEN
  { base := 0x010, fields := [⟨17, 17, .ro, 1, 0, 0⟩, ⟨16, 16, .rw, 0, 0, 0⟩] },
  -- COR_IPEND
  { base := 0x018, fields := [⟨17, 17, .ro, 0, 0, 0⟩, ⟨16, 16, .w1c, 0, 0, 0⟩] },
  -- COR_XINT
  { base := 0x020, fields := [⟨0, 0, .w1s, 0, 0, 0⟩] },
  -- COR_EXCCNT
  { base := 0x040, n2 := 4, s2 := 8, fields := [⟨47, 0, .ro, 0, 0, 0⟩] },
  -- COR_SEAT
  { base := 0x0A0, fields := [⟨50, 49, .ro, 0, 0, 0⟩, ⟨48, 48, .ro, 0, 0, 0⟩, ⟨47, 32, .ro, 0, 0, 0⟩, ⟨31, 16, .ro, 0, 0, 0⟩, ⟨15, 0, .ro, 0, 0, 0⟩] },
  -- COR_CMQPOST
  { base := 0x0C0, fields := [⟨24, 16, .wo, 0, 0, 0⟩, ⟨11, 0, .wo, 0, 0, 0⟩] },
  -- COR_NANSTAT
  { base := 0x300, fields := [⟨4, 4, .w1c, 0, 0, 0⟩, ⟨3, 3, .ro, 0, 0, 0⟩, ⟨2, 1, .ro, 0, 0, 0⟩, ⟨0, 0, .w1c, 0, 0, 0⟩] },
  -- COR_NANPC
  { base := 0x308, fields := [⟨47, 0, .ro, 0, 0, 0⟩] },
  -- COR_NANPIECE
  { base := 0x310, fields := [⟨21, 16, .ro, 0, 0, 0⟩, ⟨15, 0, .ro, 0, 0, 0⟩] },
  -- COR_NANLOC
  { base := 0x318, fields := [⟨43, 0, .ro, 0, 0, 0⟩] },
  -- COR_NANORG
  { base := 0x320, fields := [⟨31, 0, .ro, 0, 0, 0⟩] },
  -- COR_NANCNT0, COR_NANCNT1
  { base := 0x328, n2 := 2, s2 := 8, fields := [⟨47, 0, .ro, 0, 0, 0⟩] },
  -- COR_SERR
  { base := 0x380, fields := [⟨63, 48, .ro, 0, 0, 0⟩, ⟨21, 16, .ro, 0, 0, 0⟩, ⟨13, 8, .ro, 0, 0, 0⟩, ⟨7, 0, .ro, 0, 0, 0⟩] },
  -- COR_CAPERR
  { base := 0x388, fields := [⟨19, 16, .ro, 0, 0, 0⟩, ⟨10, 8, .ro, 0, 0, 0⟩, ⟨7, 0, .ro, 0, 0, 0⟩] },
  -- COR_CAPADDR
  { base := 0x390, fields := [⟨59, 48, .ro, 0, 0, 0⟩, ⟨47, 0, .ro, 0, 0, 0⟩] },
  -- COR_UCSTAT
  { base := 0x398, fields := [⟨63, 48, .ro, 0, 0, 0⟩, ⟨47, 32, .ro, 0, 0, 0⟩, ⟨15, 0, .ro, 0, 0, 0⟩] },
  -- COR_XLTERR
  { base := 0x3A0, fields := [⟨19, 16, .ro, 0, 0, 0⟩, ⟨13, 12, .ro, 0, 0, 0⟩, ⟨10, 8, .ro, 0, 0, 0⟩, ⟨7, 0, .ro, 0, 0, 0⟩] },
  -- COR_XLTADDR
  { base := 0x3A8, fields := [⟨47, 0, .ro, 0, 0, 0⟩] },
  -- COR_XLTINV
  { base := 0x3B0, fields := [⟨63, 63, .ro, 0, 0, 0⟩, ⟨62, 62, .wo, 0, 0, 0⟩, ⟨49, 48, .wo, 0, 0, 0⟩, ⟨47, 16, .wo, 0, 0, 0⟩] },
  -- MAT_CTL
  { base := 0x1000, fields := [⟨8, 8, .rw, 0, 0, 0⟩, ⟨1, 0, .ro, 0, 0, 0⟩] },
  -- MAT_STAT
  { base := 0x1008, fields := [⟨31, 16, .ro, 0, 0, 0⟩, ⟨15, 0, .ro, 0, 0, 0⟩] },
  -- MAT_ERR
  { base := 0x1010, fields := [⟨22, 20, .ro, 0, 0, 0⟩, ⟨19, 16, .ro, 0, 0, 0⟩, ⟨13, 8, .ro, 0, 0, 0⟩, ⟨7, 0, .ro, 0, 0, 0⟩] },
  -- MAT_LIVE
  { base := 0x1018, fields := [⟨3, 0, .rw, 0xF, 0, 0⟩] },
  -- MAT_SHAPE
  { base := 0x1040, n2 := 8, s2 := 8, fields := [⟨46, 42, .rw, 0, 0, 0⟩, ⟨41, 40, .rw, 0, 0, 0⟩, ⟨39, 38, .rw, 0, 0, 0⟩, ⟨37, 34, .rw, 0, 0, 0⟩, ⟨33, 30, .rw, 0, 0, 0⟩, ⟨29, 20, .rw, 0, 0, 0⟩, ⟨19, 10, .rw, 0, 0, 0⟩, ⟨9, 0, .rw, 0, 0, 0⟩] },
  -- MAT_PROG
  { base := 0x1100, n2 := 16, s2 := 8, fields := [⟨35, 32, .ro, 0, 0, 0⟩, ⟨31, 16, .ro, 0, 0, 0⟩, ⟨15, 0, .ro, 0, 0, 0⟩] },
  -- MAT_BASTE
  { base := 0x1200, fields := [⟨51, 32, .rw, 0, 0, 0⟩, ⟨19, 16, .rw, 7, 0, 0⟩, ⟨8, 4, .rw, 12, 0, 0⟩, ⟨3, 3, .rw, 0, 0, 0⟩, ⟨2, 2, .rw, 0, 0, 0⟩, ⟨1, 1, .rw, 0, 0, 0⟩, ⟨0, 0, .rw, 0, 0, 0⟩] },
  -- MAT_BTOL
  { base := 0x1208, fields := [⟨20, 16, .rw, 16, 0, 0⟩, ⟨12, 8, .rw, 16, 0, 0⟩, ⟨4, 0, .rw, 16, 0, 0⟩] },
  -- MAT_BCNT
  { base := 0x1210, n2 := 4, s2 := 8, fields := [⟨47, 0, .ro, 0, 0, 0⟩] },
  -- MAT_BSTAT
  { base := 0x1230, fields := [⟨1, 1, .w1c, 0, 0, 0⟩, ⟨0, 0, .w1c, 0, 0, 0⟩] },
  -- MAT_BLOG0 to MAT_BLOG4
  { base := 0x1238, n2 := 5, s2 := 8, fields := [⟨63, 0, .ro, 0, 0, 0⟩] },
  -- VEC_CTL
  { base := 0x2000, fields := [⟨0, 0, .rw, 0, 0, 0⟩] },
  -- VEC_STAT
  { base := 0x2008, fields := [⟨19, 16, .ro, 0, 0, 0⟩, ⟨11, 0, .ro, 0, 0, 0⟩] },
  -- VEC_ERR
  { base := 0x2010, fields := [⟨20, 16, .ro, 0, 0, 0⟩, ⟨13, 8, .ro, 0, 0, 0⟩, ⟨7, 0, .ro, 0, 0, 0⟩] },
  -- VEC_LIVE
  { base := 0x2018, fields := [⟨39, 32, .rw, 0xFF, 0, 0⟩, ⟨31, 0, .rw, 0xFFFFFFFF, 0, 0⟩] },
  -- VEC_CNT
  { base := 0x2040, n2 := 4, s2 := 8, fields := [⟨47, 0, .ro, 0, 0, 0⟩] },
  -- FIN_STAT
  { base := 0x3000, fields := [⟨31, 16, .ro, 0, 0, 0⟩, ⟨3, 1, .ro, 0, 0, 0⟩, ⟨0, 0, .ro, 0, 0, 0⟩] },
  -- FIN_ERR
  { base := 0x3008, fields := [⟨23, 20, .ro, 0, 0, 0⟩, ⟨18, 16, .ro, 0, 0, 0⟩, ⟨13, 8, .ro, 0, 0, 0⟩, ⟨7, 0, .ro, 0, 0, 0⟩] },
  -- FIN_NANORG
  { base := 0x3010, fields := [⟨31, 31, .w1c, 0, 0, 0⟩, ⟨30, 30, .w1c, 0, 0, 0⟩, ⟨26, 24, .ro, 0, 0, 0⟩, ⟨23, 20, .ro, 0, 0, 0⟩, ⟨19, 0, .ro, 0, 0, 0⟩] },
  -- FIN_LIVE
  { base := 0x3018, fields := [⟨15, 0, .rw, 0xFFFF, 0, 0⟩] },
  -- FIN_PROG
  { base := 0x3020, fields := [⟨36, 33, .ro, 0, 0, 0⟩, ⟨32, 32, .ro, 0, 0, 0⟩, ⟨20, 0, .ro, 0, 0, 0⟩] },
  -- FIN_CNT
  { base := 0x3040, n2 := 4, s2 := 8, fields := [⟨47, 0, .ro, 0, 0, 0⟩] } ]

/-- The registers of the fitter's control space (R298), kept 0x7000 above their addresses, since COR_EXC keeps the fitter's
exception state at 0x000. -/
def ftrRows : List RegRow := [
  -- FTR_HTBASE
  { base := 0x7000, fields := [⟨47, 3, .rw, 0, 0, 0⟩] },
  -- FTR_DFSAVE
  { base := 0x7008, fields := [⟨21, 7, .rw, 0x3FF8, 0, 0⟩] } ]

/-- The control registers of either kind of core. -/
def coreRows : List RegRow := ctlRows ++ ftrRows
/-- What a write leaves in a register: the row's access codes, or nothing where there is no register (R11 to R13). -/
def rowWrite (rows : List RegRow) (a : Nat) (old new : W64) : W64 :=
  match findRow rows a with | some r => r.write old new | none => old

/-- The registers that need SYNC before the instructions they govern (R290). -/
def syncRegs : List Nat := [0x1000, 0x1018, 0x1200, 0x1208, 0x2000, 0x2018, 0x3018, 0x008, 0x010]

end Sys2Proof.Machine
end

