-- ==== Sys2Proof/Machine/BarRegs.lean ====
section
/-! DEFINITION. The registers of BAR0 (R516), block by block, with their fields, access codes, reset values and staged ranges. -/

namespace Sys2Proof.Machine

/-- MBX_ of each port, the second port's at `portStride`, and FTR_CFGSTAT (R529 to R544). -/
def mbxRows : List RegRow := [
  -- MBX_DB
  { base := 0x000000, n1 := 2, s1 := 0x4000000, fields := [⟨15, 0, .wo, 0, 0, 0⟩] },
  -- MBX_STAT
  { base := 0x000008, n1 := 2, s1 := 0x4000000, fields := [⟨47, 32, .ro, 0, 0, 0⟩, ⟨17, 16, .ro, 1, 0, 0⟩, ⟨1, 1, .ro, 1, 0, 0⟩, ⟨0, 0, .w1c, 0, 0, 0⟩] },
  -- MBX_APBASE
  { base := 0x000010, n1 := 2, s1 := 0x4000000, fields := [⟨45, 36, .rw, 0, 0, 0⟩] },
  -- MBX_VFMAP
  { base := 0x000018, n1 := 2, s1 := 0x4000000, fields := [⟨39, 0, .rw, 0, 0, 0⟩] },
  -- MBX_CNTi
  { base := 0x000040, n1 := 2, s1 := 0x4000000, n2 := 4, s2 := 0x8, fields := [⟨47, 0, .ro, 0, 0, 0⟩] },
  -- FTR_CFGSTAT
  { base := 0x010000, fields := [⟨63, 32, .ro, 0, 0, 0⟩, ⟨31, 16, .ro, 0, 0, 0⟩, ⟨15, 8, .ro, 0, 0, 0⟩, ⟨1, 0, .ro, 0, 0, 0⟩] } ]

/-- PWR_ (R76, R609). -/
def pwrRows : List RegRow := [
  -- PWR_STAT
  { base := 0x020000, fields := [⟨63, 48, .ro, 0, 0, 0⟩, ⟨47, 32, .ro, 0, 0, 0⟩, ⟨31, 16, .ro, 0, 0, 0⟩, ⟨3, 0, .ro, 0, 0, 0⟩] },
  -- PWR_VSETp
  { base := 0x020008, n1 := 4, s1 := 0x8, fields := [⟨7, 0, .stg, 120, 0, 200⟩] },
  -- PWR_CAP
  { base := 0x020028, fields := [⟨15, 0, .stg, 0, 0, 0⟩] },
  -- PWR_THM
  { base := 0x020030, fields := [⟨7, 0, .stg, 100, 80, 105⟩] },
  -- PWR_EVT
  { base := 0x020038, fields := [⟨4, 4, .w1c, 0, 0, 0⟩, ⟨3, 3, .w1c, 0, 0, 0⟩, ⟨2, 2, .w1c, 0, 0, 0⟩, ⟨1, 1, .w1c, 0, 0, 0⟩, ⟨0, 0, .w1c, 0, 0, 0⟩] },
  -- PWR_STMONn
  { base := 0x020040, n1 := 4, s1 := 0x8, fields := [⟨63, 32, .ro, 0, 0, 0⟩, ⟨31, 31, .ro, 0, 0, 0⟩, ⟨30, 29, .ro, 0, 0, 0⟩, ⟨19, 0, .ro, 0, 0, 0⟩] },
  -- PWR_CNTi
  { base := 0x020080, n1 := 5, s1 := 0x8, fields := [⟨47, 0, .ro, 0, 0, 0⟩] },
  -- PWR_RAILr
  { base := 0x020100, n1 := 16, s1 := 0x8, fields := [⟨47, 32, .ro, 0, 0, 0⟩, ⟨31, 16, .ro, 0, 0, 0⟩, ⟨15, 0, .ro, 0, 0, 0⟩] },
  -- PWR_TEMPt
  { base := 0x020200, n1 := 29, s1 := 0x8, fields := [⟨31, 16, .ro, 0, 0, 0⟩, ⟨15, 0, .ro, 0, 0, 0⟩] } ]

/-- CAL_ (R594); registers that each port has for itself stand twice. CAL_UTHM of t = 29 to 31, which R594's table calls reserved, is staged and
read back (DESIGN CHOICE, log 90). -/
def calRows : List RegRow := [
  -- CAL_STAT
  { base := 0x030000, fields := [⟨44, 32, .ro, 0, 0, 0⟩] },
  -- CAL_SCFG
  { base := 0x030008, fields := [⟨16, 16, .stg, 1, 0, 0⟩, ⟨8, 8, .stg, 1, 0, 0⟩, ⟨4, 0, .stg, 13, 0, 0⟩] },
  -- CAL_FPOL
  { base := 0x030010, fields := [⟨48, 48, .stg, 1, 0, 0⟩, ⟨47, 40, .stg, 16, 0, 0⟩, ⟨39, 32, .stg, 8, 0, 0⟩, ⟨31, 0, .stg, 65536, 0, 0⟩] },
  -- CAL_LMSEL
  { base := 0x030018, fields := [⟨31, 31, .w1s, 0, 0, 0⟩, ⟨30, 25, .rw, 0, 0, 0⟩, ⟨24, 22, .rw, 0, 0, 0⟩, ⟨21, 20, .rw, 1, 0, 0⟩, ⟨16, 12, .rw, 20, 0, 0⟩, ⟨11, 6, .rw, 0, 0, 0⟩, ⟨5, 0, .rw, 0, 0, 0⟩] },
  -- CAL_LMCNT
  { base := 0x030020, fields := [⟨63, 63, .ro, 0, 0, 0⟩, ⟨31, 0, .ro, 0, 0, 0⟩] },
  -- CAL_FENCE0 to CAL_FENCE3
  { base := 0x030040, n1 := 4, s1 := 0x8, fields := [⟨63, 0, .stg, 0, 0, 0⟩] },
  -- CAL_FENCE4
  { base := 0x030060, fields := [⟨27, 24, .stg, 0, 0, 0⟩, ⟨23, 0, .stg, 0, 0, 0⟩] },
  -- CAL_MEVT
  { base := 0x030080, fields := [⟨5, 5, .w1c, 0, 0, 0⟩, ⟨4, 4, .w1c, 0, 0, 0⟩, ⟨3, 3, .w1c, 0, 0, 0⟩, ⟨2, 2, .w1c, 0, 0, 0⟩, ⟨1, 1, .w1c, 0, 0, 0⟩, ⟨0, 0, .w1c, 0, 0, 0⟩] },
  -- CAL_CNTi
  { base := 0x0300C0, n1 := 8, s1 := 0x8, fields := [⟨47, 0, .ro, 0, 0, 0⟩] },
  -- CAL_MIEN
  { base := 0x030100, n1 := 2, s1 := 0x4000000, fields := [⟨5, 0, .rw, 0, 0, 0⟩] },
  -- CAL_MIARM
  { base := 0x030108, n1 := 2, s1 := 0x4000000, fields := [⟨0, 0, .w1s, 1, 0, 0⟩] },
  -- CAL_VSEL
  { base := 0x030110, n1 := 2, s1 := 0x4000000, fields := [⟨17, 0, .rw, 0, 0, 0⟩] },
  -- CAL_VALi
  { base := 0x030118, n1 := 2, s1 := 0x4000000, n2 := 5, s2 := 0x8, fields := [⟨63, 0, .ro, 0, 0, 0⟩] },
  -- CAL_UREGr
  { base := 0x030200, n1 := 16, s1 := 0x8, fields := [⟨4, 0, .stg, 0, 0, 0⟩] },
  -- CAL_UTHMt
  { base := 0x030300, n1 := 32, s1 := 0x8, fields := [⟨5, 0, .stg, 0, 0, 0⟩] },
  -- CAL_ULNK
  { base := 0x031000, n1 := 36, s1 := 0x40, n2 := 8, s2 := 0x8, fields := [⟨29, 24, .stg, 0, 0, 0⟩, ⟨19, 16, .stg, 0, 0, 0⟩, ⟨13, 8, .stg, 0, 0, 0⟩, ⟨5, 0, .stg, 0, 0, 0⟩] },
  -- CAL_USPL
  { base := 0x034000, n1 := 24, s1 := 0x800, n2 := 256, s2 := 0x8, fields := [⟨29, 24, .stg, 0, 0, 0⟩, ⟨21, 16, .stg, 0, 0, 0⟩, ⟨13, 8, .stg, 0, 0, 0⟩, ⟨5, 0, .stg, 0, 0, 0⟩] } ]

/-- PAT_ENG, PNC_, SHT_ and L2C_ (R336, R380). -/
def memRows : List RegRow := [
  -- PAT_ENGn
  { base := 0x040100, n1 := 4, s1 := 0x8, fields := [⟨44, 32, .ro, 0, 0, 0⟩, ⟨12, 0, .ro, 0, 0, 0⟩] },
  -- PNC_SCRATCH
  { base := 0x050000, n1 := 4, s1 := 0x1000, fields := [⟨3, 0, .stg, 0, 0, 8⟩] },
  -- PNC_STAT
  { base := 0x050008, n1 := 4, s1 := 0x1000, fields := [⟨8, 8, .ro, 0, 0, 0⟩, ⟨3, 0, .ro, 0, 0, 0⟩] },
  -- PNC_ERR
  { base := 0x050010, n1 := 4, s1 := 0x1000, fields := [⟨2, 2, .w1c, 0, 0, 0⟩, ⟨1, 1, .w1c, 0, 0, 0⟩, ⟨0, 0, .w1c, 0, 0, 0⟩] },
  -- PNC_ERRLOG
  { base := 0x050018, n1 := 4, s1 := 0x1000, fields := [⟨45, 7, .ro, 0, 0, 0⟩] },
  -- PNC_CNTi
  { base := 0x050040, n1 := 4, s1 := 0x1000, n2 := 8, s2 := 0x8, fields := [⟨47, 0, .ro, 0, 0, 0⟩] },
  -- SHT_STAT
  { base := 0x060000, n1 := 8, s1 := 0x100, fields := [⟨11, 8, .ro, 0, 0, 0⟩, ⟨6, 0, .ro, 0, 0, 0⟩] },
  -- SHT_CNTi
  { base := 0x060040, n1 := 8, s1 := 0x100, n2 := 6, s2 := 0x8, fields := [⟨47, 0, .ro, 0, 0, 0⟩] },
  -- L2C_PF
  { base := 0x070000, n1 := 256, s1 := 0x100, fields := [⟨8, 4, .rw, 4, 0, 0⟩, ⟨0, 0, .rw, 1, 0, 0⟩] },
  -- L2C_ERR
  { base := 0x070008, n1 := 256, s1 := 0x100, fields := [⟨3, 3, .w1c, 0, 0, 0⟩, ⟨2, 2, .w1c, 0, 0, 0⟩, ⟨1, 1, .w1c, 0, 0, 0⟩, ⟨0, 0, .w1c, 0, 0, 0⟩] },
  -- L2C_CNTi
  { base := 0x070040, n1 := 256, s1 := 0x100, n2 := 8, s2 := 0x8, fields := [⟨47, 0, .ro, 0, 0, 0⟩] } ]

/-- SPL_ (R406). -/
def splRows : List RegRow := [
  -- SPL_MAP
  { base := 0x080000, fields := [⟨28, 24, .ro, 24, 0, 0⟩, ⟨23, 0, .stg, 0xFFFFFF, 0, 0⟩] },
  -- SPL_STAT
  { base := 0x081000, n1 := 24, s1 := 0x1000, fields := [⟨31, 24, .ro, 0, 0, 0⟩, ⟨17, 16, .ro, 0, 0, 0⟩, ⟨9, 9, .ro, 0, 0, 0⟩, ⟨8, 8, .ro, 0, 0, 0⟩] },
  -- SPL_ERR
  { base := 0x081008, n1 := 24, s1 := 0x1000, fields := [⟨3, 3, .w1c, 0, 0, 0⟩, ⟨2, 2, .w1c, 0, 0, 0⟩, ⟨1, 1, .w1c, 0, 0, 0⟩, ⟨0, 0, .w1c, 0, 0, 0⟩] },
  -- SPL_ERRLOG
  { base := 0x081010, n1 := 24, s1 := 0x1000, fields := [⟨48, 48, .ro, 0, 0, 0⟩, ⟨47, 40, .ro, 0, 0, 0⟩, ⟨39, 36, .ro, 0, 0, 0⟩, ⟨35, 22, .ro, 0, 0, 0⟩, ⟨21, 19, .ro, 0, 0, 0⟩, ⟨17, 0, .ro, 0, 0, 0⟩] },
  -- SPL_SCRUB
  { base := 0x081018, n1 := 24, s1 := 0x1000, fields := [⟨15, 0, .stg, 24, 0, 0⟩] },
  -- SPL_CAL
  { base := 0x081020, n1 := 24, s1 := 0x1000, fields := [⟨63, 32, .ro, 0, 0, 0⟩, ⟨5, 0, .stg, 5, 0, 0⟩] },
  -- SPL_MONSEL
  { base := 0x081028, n1 := 24, s1 := 0x1000, fields := [⟨31, 31, .w1s, 0, 0, 0⟩, ⟨30, 30, .rw, 0, 0, 0⟩, ⟨29, 25, .rw, 0, 0, 0⟩, ⟨24, 17, .rw, 0, 0, 0⟩, ⟨16, 12, .rw, 20, 0, 0⟩, ⟨11, 6, .rw, 0, 0, 0⟩, ⟨5, 0, .rw, 0, 0, 0⟩] },
  -- SPL_MONCNT
  { base := 0x081030, n1 := 24, s1 := 0x1000, fields := [⟨63, 63, .ro, 0, 0, 0⟩, ⟨31, 0, .ro, 0, 0, 0⟩] },
  -- SPL_CNTi
  { base := 0x081040, n1 := 24, s1 := 0x1000, n2 := 8, s2 := 0x8, fields := [⟨47, 0, .ro, 0, 0, 0⟩] },
  -- SPL_REGp
  { base := 0x081100, n1 := 24, s1 := 0x1000, n2 := 16, s2 := 0x8, fields := [⟨32, 32, .stg, 0, 0, 0⟩, ⟨27, 16, .stg, 0, 0, 0⟩, ⟨9, 0, .stg, 0, 0, 0⟩] },
  -- SPL_BKTp
  { base := 0x081180, n1 := 24, s1 := 0x1000, n2 := 16, s2 := 0x8, fields := [⟨31, 0, .ro, 0, 0, 0⟩] },
  -- SPL_ERASEc
  { base := 0x081400, n1 := 24, s1 := 0x1000, n2 := 256, s2 := 0x8, fields := [⟨5, 5, .rw, 0, 0, 0⟩, ⟨4, 0, .rw, 0, 0, 0⟩] } ]

/-- LNK_ (R470). -/
def lnkRows : List RegRow := [
  -- LNK_ID
  { base := 0x0C0000, fields := [⟨17, 0, .lck, 0, 0, 0⟩] },
  -- LNK_TOPO
  { base := 0x0C0008, fields := [⟨41, 6, .lck, 0, 0, 0⟩, ⟨1, 0, .lck, 0, 0, 0⟩] },
  -- LNK_TRUSTi
  { base := 0x0C0040, n1 := 8, s1 := 0x8, fields := [⟨63, 0, .lck, 0, 0, 0⟩] },
  -- LNK_MDROP
  { base := 0x0C0080, fields := [⟨47, 0, .ro, 0, 0, 0⟩] },
  -- LNK_PCFG
  { base := 0x0C1000, n1 := 6, s1 := 0x1000, fields := [⟨63, 48, .stg, 100, 1, 65535⟩, ⟨47, 32, .stg, 8, 1, 65535⟩, ⟨25, 24, .stg, 2, 0, 2⟩, ⟨16, 16, .stg, 0, 0, 0⟩, ⟨5, 0, .stg, 0x3F, 0, 0⟩] },
  -- LNK_ARB
  { base := 0x0C1008, n1 := 6, s1 := 0x1000, fields := [⟨35, 30, .stg, 8, 0, 0⟩, ⟨29, 24, .stg, 8, 0, 0⟩, ⟨23, 18, .stg, 8, 0, 0⟩, ⟨17, 12, .stg, 16, 0, 0⟩, ⟨11, 6, .stg, 32, 0, 0⟩, ⟨5, 0, .stg, 4, 0, 0⟩] },
  -- LNK_CRED0
  { base := 0x0C1010, n1 := 6, s1 := 0x1000, fields := [⟨59, 50, .lck, 48, 0, 0⟩, ⟨49, 40, .lck, 48, 0, 0⟩, ⟨39, 30, .lck, 48, 0, 0⟩, ⟨29, 20, .lck, 48, 0, 0⟩, ⟨19, 10, .lck, 8, 0, 0⟩, ⟨9, 0, .lck, 8, 0, 0⟩] },
  -- LNK_CRED1
  { base := 0x0C1018, n1 := 6, s1 := 0x1000, fields := [⟨59, 50, .lck, 48, 0, 0⟩, ⟨49, 40, .lck, 48, 0, 0⟩, ⟨39, 30, .lck, 48, 0, 0⟩, ⟨29, 20, .lck, 48, 0, 0⟩, ⟨19, 10, .lck, 48, 0, 0⟩, ⟨9, 0, .lck, 48, 0, 0⟩] },
  -- LNK_PSTAT
  { base := 0x0C1020, n1 := 6, s1 := 0x1000, fields := [⟨5, 0, .ro, 0, 0, 0⟩] },
  -- LNK_PCNTi
  { base := 0x0C1040, n1 := 6, s1 := 0x1000, n2 := 8, s2 := 0x8, fields := [⟨47, 0, .ro, 0, 0, 0⟩] },
  -- LNK_LSTAT
  { base := 0x0C1100, n1 := 6, s1 := 0x1000, n2 := 6, s2 := 0x40, fields := [⟨50, 48, .ro, 0, 0, 0⟩, ⟨47, 45, .ro, 0, 0, 0⟩, ⟨41, 24, .ro, 0, 0, 0⟩, ⟨15, 8, .ro, 0, 0, 0⟩, ⟨6, 6, .ro, 0, 0, 0⟩, ⟨5, 4, .ro, 0, 0, 0⟩, ⟨3, 0, .ro, 0, 0, 0⟩] },
  -- LNK_LCTL
  { base := 0x0C1108, n1 := 6, s1 := 0x1000, n2 := 6, s2 := 0x40, fields := [⟨1, 1, .w1s, 0, 0, 0⟩, ⟨0, 0, .w1s, 0, 0, 0⟩] },
  -- LNK_LERR
  { base := 0x0C1110, n1 := 6, s1 := 0x1000, n2 := 6, s2 := 0x40, fields := [⟨3, 3, .w1c, 0, 0, 0⟩, ⟨2, 2, .w1c, 0, 0, 0⟩, ⟨1, 1, .w1c, 0, 0, 0⟩, ⟨0, 0, .w1c, 0, 0, 0⟩] },
  -- LNK_LCRD
  { base := 0x0C1118, n1 := 6, s1 := 0x1000, n2 := 6, s2 := 0x40, fields := [⟨51, 48, .rw, 0, 0, 0⟩, ⟨41, 32, .ro, 0, 0, 0⟩, ⟨9, 0, .ro, 0, 0, 0⟩] },
  -- LNK_LCNT0
  { base := 0x0C1120, n1 := 6, s1 := 0x1000, n2 := 6, s2 := 0x40, fields := [⟨47, 0, .ro, 0, 0, 0⟩] },
  -- LNK_LCNT1
  { base := 0x0C1128, n1 := 6, s1 := 0x1000, n2 := 6, s2 := 0x40, fields := [⟨47, 0, .ro, 0, 0, 0⟩] },
  -- LNK_LCNT2
  { base := 0x0C1130, n1 := 6, s1 := 0x1000, n2 := 6, s2 := 0x40, fields := [⟨47, 0, .ro, 0, 0, 0⟩] },
  -- LNK_LCNT3
  { base := 0x0C1138, n1 := 6, s1 := 0x1000, n2 := 6, s2 := 0x40, fields := [⟨47, 0, .ro, 0, 0, 0⟩] } ]

/-- PRT_ of a partition page (R518). -/
def prtRows : List RegRow := [
  -- PRT_STAT
  { base := 0x100000, n1 := 16, s1 := 0x10000, fields := [⟨24, 16, .ro, 0, 0, 0⟩, ⟨4, 4, .ro, 0, 0, 0⟩, ⟨1, 0, .ro, 0, 0, 0⟩] },
  -- PRT_CTL
  { base := 0x100008, n1 := 16, s1 := 0x10000, fields := [⟨1, 1, .w1s, 0, 0, 0⟩, ⟨0, 0, .w1s, 0, 0, 0⟩] },
  -- PRT_CRESET
  { base := 0x100010, n1 := 16, s1 := 0x10000, fields := [⟨8, 8, .w1s, 0, 0, 0⟩, ⟨7, 0, .wo, 0, 0, 0⟩] },
  -- PRT_IEN
  { base := 0x100018, n1 := 16, s1 := 0x10000, fields := [⟨8, 0, .rw, 0, 0, 0⟩] },
  -- PRT_EVT
  { base := 0x100020, n1 := 16, s1 := 0x10000, fields := [⟨8, 0, .ro, 0, 0, 0⟩] },
  -- PRT_IARM
  { base := 0x100028, n1 := 16, s1 := 0x10000, fields := [⟨0, 0, .w1s, 1, 0, 0⟩] },
  -- PRT_CORESk
  { base := 0x100040, n1 := 16, s1 := 0x10000, n2 := 4, s2 := 0x8, fields := [⟨63, 0, .ro, 0, 0, 0⟩] },
  -- PRT_DMAw base
  { base := 0x100100, n1 := 16, s1 := 0x10000, n2 := 8, s2 := 0x10, fields := [⟨63, 12, .stg, 0, 0, 0⟩] },
  -- PRT_DMAw length
  { base := 0x100108, n1 := 16, s1 := 0x10000, n2 := 8, s2 := 0x10, fields := [⟨39, 12, .stg, 0, 0, 0⟩] },
  -- PRT_APBASE
  { base := 0x100180, n1 := 16, s1 := 0x10000, fields := [⟨45, 36, .rw, 0, 0, 0⟩] } ]

/-- PAT_ of a partition page (R336). -/
def patRows : List RegRow := [
  -- PAT_RCFG
  { base := 0x101000, n1 := 16, s1 := 0x10000, fields := [⟨45, 12, .stg, 0, 0, 0⟩, ⟨3, 0, .stg, 4, 4, 12⟩] },
  -- PAT_CCFG, PAT_NBASE, PAT_CAPBASE
  { base := 0x101008, n1 := 16, s1 := 0x10000, n2 := 3, s2 := 0x8, fields := [⟨45, 12, .stg, 0, 0, 0⟩] },
  -- PAT_SAVE
  { base := 0x101020, n1 := 16, s1 := 0x10000, fields := [⟨63, 52, .stg, 0, 0, 0⟩, ⟨45, 12, .stg, 0, 0, 0⟩] },
  -- PAT_FNOTCH
  { base := 0x101028, n1 := 16, s1 := 0x10000, fields := [⟨15, 0, .stg, 0xFFFF, 0, 0⟩] },
  -- PAT_RTAIL
  { base := 0x101040, n1 := 16, s1 := 0x10000, fields := [⟨31, 0, .rw, 0, 0, 0⟩] },
  -- PAT_RHEAD
  { base := 0x101048, n1 := 16, s1 := 0x10000, fields := [⟨31, 0, .ro, 0, 0, 0⟩] },
  -- PAT_CTAIL
  { base := 0x101050, n1 := 16, s1 := 0x10000, fields := [⟨31, 0, .ro, 0, 0, 0⟩] },
  -- PAT_CHEAD
  { base := 0x101058, n1 := 16, s1 := 0x10000, fields := [⟨31, 0, .rw, 0, 0, 0⟩] },
  -- PAT_NFIRE
  { base := 0x101060, n1 := 16, s1 := 0x10000, fields := [⟨15, 0, .wo, 0, 0, 0⟩] },
  -- PAT_STAT
  { base := 0x101068, n1 := 16, s1 := 0x10000, fields := [⟨22, 16, .ro, 0, 0, 0⟩, ⟨2, 2, .w1c, 0, 0, 0⟩, ⟨1, 1, .w1c, 0, 0, 0⟩, ⟨0, 0, .ro, 0, 0, 0⟩] },
  -- PAT_RESET
  { base := 0x101070, n1 := 16, s1 := 0x10000, fields := [⟨0, 0, .w1s, 0, 0, 0⟩] },
  -- PAT_CNTi
  { base := 0x101080, n1 := 16, s1 := 0x10000, n2 := 9, s2 := 0x8, fields := [⟨47, 0, .ro, 0, 0, 0⟩] } ]

/-- XLT_, FLQ_, SHT_PERR and LNK_W of a partition page (R435, R380, R470). -/
def xltRows : List RegRow := [
  -- XLT_ROOT
  { base := 0x102000, n1 := 16, s1 := 0x10000, fields := [⟨45, 15, .stg, 0, 0, 0⟩] },
  -- XLT_INV
  { base := 0x102008, n1 := 16, s1 := 0x10000, fields := [⟨63, 63, .ro, 0, 0, 0⟩, ⟨62, 62, .wo, 0, 0, 0⟩, ⟨49, 48, .wo, 0, 0, 0⟩, ⟨47, 16, .wo, 0, 0, 0⟩] },
  -- XLT_CNTi
  { base := 0x102040, n1 := 16, s1 := 0x10000, n2 := 5, s2 := 0x8, fields := [⟨47, 0, .ro, 0, 0, 0⟩] },
  -- FLQ_CFG
  { base := 0x102080, n1 := 16, s1 := 0x10000, fields := [⟨63, 63, .stg, 0, 0, 0⟩, ⟨45, 16, .stg, 0, 0, 0⟩, ⟨15, 0, .stg, 0xFFFF, 0, 0⟩] },
  -- FLQ_PTAIL
  { base := 0x102088, n1 := 16, s1 := 0x10000, fields := [⟨31, 0, .ro, 0, 0, 0⟩] },
  -- FLQ_PHEAD
  { base := 0x102090, n1 := 16, s1 := 0x10000, fields := [⟨31, 0, .rw, 0, 0, 0⟩] },
  -- FLQ_REPLY
  { base := 0x102098, n1 := 16, s1 := 0x10000, fields := [⟨63, 62, .wo, 0, 0, 0⟩, ⟨41, 32, .wo, 0, 0, 0⟩, ⟨31, 0, .wo, 0, 0, 0⟩] },
  -- FLQ_STAT
  { base := 0x1020A0, n1 := 16, s1 := 0x10000, fields := [⟨26, 16, .ro, 0, 0, 0⟩, ⟨2, 2, .w1c, 0, 0, 0⟩, ⟨1, 1, .ro, 0, 0, 0⟩, ⟨0, 0, .w1c, 0, 0, 0⟩] },
  -- FLQ_WAIT
  { base := 0x1020A8, n1 := 16, s1 := 0x10000, fields := [⟨31, 0, .ro, 0, 0, 0⟩] },
  -- FLQ_CNTi
  { base := 0x1020C0, n1 := 16, s1 := 0x10000, n2 := 5, s2 := 0x8, fields := [⟨47, 0, .ro, 0, 0, 0⟩] },
  -- SHT_PERR0
  { base := 0x103000, n1 := 16, s1 := 0x10000, fields := [⟨63, 63, .w1c, 0, 0, 0⟩, ⟨58, 56, .ro, 0, 0, 0⟩, ⟨55, 48, .ro, 0, 0, 0⟩, ⟨47, 0, .ro, 0, 0, 0⟩] },
  -- SHT_PERR1
  { base := 0x103008, n1 := 16, s1 := 0x10000, fields := [⟨7, 0, .ro, 0, 0, 0⟩] },
  -- LNK_WTAB
  { base := 0x103100, n1 := 16, s1 := 0x10000, fields := [⟨63, 63, .stg, 0, 0, 0⟩, ⟨45, 13, .stg, 0, 0, 0⟩] },
  -- LNK_WCNTi
  { base := 0x103108, n1 := 16, s1 := 0x10000, n2 := 2, s2 := 0x8, fields := [⟨47, 0, .ro, 0, 0, 0⟩] } ]

/-- SEM_ (R630). -/
def semRows : List RegRow := [
  -- SEM_CNTi
  { base := 0x200100, n1 := 18, s1 := 0x8, fields := [⟨47, 0, .ro, 0, 0, 0⟩] },
  -- SEM_SxCFG
  { base := 0x210000, n1 := 4096, s1 := 0x80, width := 4, fields := [⟨31, 30, .stg, 0, 0, 2⟩, ⟨29, 29, .stg, 0, 0, 0⟩, ⟨28, 28, .stg, 0, 0, 0⟩, ⟨27, 27, .stg, 0, 0, 0⟩, ⟨26, 26, .stg, 0, 0, 0⟩, ⟨25, 25, .stg, 0, 0, 0⟩, ⟨23, 20, .stg, 0, 0, 0⟩, ⟨11, 0, .stg, 0, 0, 0⟩] },
  -- SEM_SxNEXT0
  { base := 0x210004, n1 := 4096, s1 := 0x80, width := 4, fields := [⟨31, 31, .stg, 0, 0, 0⟩, ⟨17, 0, .stg, 0, 0, 0⟩] },
  -- SEM_SxNEXT1
  { base := 0x210008, n1 := 4096, s1 := 0x80, width := 4, fields := [⟨31, 31, .stg, 0, 0, 0⟩, ⟨17, 0, .stg, 0, 0, 0⟩] },
  -- SEM_SxSRC0
  { base := 0x21000C, n1 := 4096, s1 := 0x80, width := 4, fields := [⟨31, 31, .stg, 0, 0, 0⟩, ⟨17, 0, .stg, 0, 0, 0⟩] },
  -- SEM_SxSRC1
  { base := 0x210010, n1 := 4096, s1 := 0x80, width := 4, fields := [⟨31, 31, .stg, 0, 0, 0⟩, ⟨17, 0, .stg, 0, 0, 0⟩] },
  -- SEM_SxLAND
  { base := 0x210014, n1 := 4096, s1 := 0x80, width := 4, fields := [⟨23, 16, .stg, 0, 0, 0⟩, ⟨15, 8, .stg, 0, 0, 0⟩, ⟨7, 0, .stg, 0, 0, 0⟩] },
  -- SEM_SxBUF
  { base := 0x210018, n1 := 4096, s1 := 0x80, width := 4, fields := [⟨31, 20, .stg, 0, 0, 0⟩, ⟨17, 0, .stg, 0, 0, 0⟩] },
  -- SEM_SxNOTCH
  { base := 0x21001C, n1 := 4096, s1 := 0x80, width := 4, fields := [⟨31, 16, .stg, 0, 0, 0⟩, ⟨15, 0, .stg, 0, 0, 0⟩] },
  -- SEM_SxFAULT
  { base := 0x210020, n1 := 4096, s1 := 0x80, width := 4, fields := [⟨15, 0, .stg, 0, 0, 0⟩] },
  -- SEM_SxCTL
  { base := 0x210024, n1 := 4096, s1 := 0x80, width := 4, fields := [⟨3, 3, .rw, 0, 0, 0⟩, ⟨2, 2, .rw, 0, 0, 0⟩, ⟨1, 1, .w1s, 0, 0, 0⟩, ⟨0, 0, .w1s, 0, 0, 0⟩] },
  -- SEM_SxSTAT
  { base := 0x210028, n1 := 4096, s1 := 0x80, width := 4, fields := [⟨14, 14, .w1c, 0, 0, 0⟩, ⟨13, 13, .w1c, 0, 0, 0⟩, ⟨12, 12, .w1c, 0, 0, 0⟩, ⟨11, 11, .w1c, 0, 0, 0⟩, ⟨10, 10, .w1c, 0, 0, 0⟩, ⟨9, 9, .w1c, 0, 0, 0⟩, ⟨8, 8, .w1c, 0, 0, 0⟩, ⟨2, 0, .ro, 0, 0, 0⟩] },
  -- SEM_SxINSEQ
  { base := 0x21002C, n1 := 4096, s1 := 0x80, width := 4, fields := [⟨31, 0, .stg, 0, 0, 0⟩] },
  -- SEM_SxOUTSEQ
  { base := 0x210030, n1 := 4096, s1 := 0x80, width := 4, fields := [⟨31, 0, .stg, 0, 0, 0⟩] },
  -- SEM_SxCOMMIT
  { base := 0x210034, n1 := 4096, s1 := 0x80, width := 4, fields := [⟨31, 0, .stg, 0, 0, 0⟩] },
  -- SEM_SxREL
  { base := 0x210038, n1 := 4096, s1 := 0x80, width := 4, fields := [⟨8, 0, .wo, 0, 0, 0⟩] },
  -- SEM_SxMARK
  { base := 0x21003C, n1 := 4096, s1 := 0x80, width := 4, fields := [⟨31, 0, .rw, 0, 0, 0⟩] },
  -- SEM_SxMARKOUT
  { base := 0x210040, n1 := 4096, s1 := 0x80, width := 4, fields := [⟨31, 0, .ro, 0, 0, 0⟩] },
  -- SEM_SxMARKCOM
  { base := 0x210044, n1 := 4096, s1 := 0x80, width := 4, fields := [⟨31, 0, .ro, 0, 0, 0⟩] },
  -- SEM_SxOCC
  { base := 0x210048, n1 := 4096, s1 := 0x80, width := 4, fields := [⟨30, 24, .ro, 0, 0, 0⟩, ⟨22, 16, .ro, 0, 0, 0⟩, ⟨8, 0, .ro, 0, 0, 0⟩] } ]

/-- GRP_ and CMQ_ (R510). -/
def grpRows : List RegRow := [
  -- GRP_CNTi
  { base := 0x300100, n1 := 8, s1 := 0x8, fields := [⟨47, 0, .ro, 0, 0, 0⟩] },
  -- GRP_gCFG
  { base := 0x310000, n1 := 4096, s1 := 0x40, fields := [⟨63, 63, .stg, 0, 0, 0⟩, ⟨59, 56, .stg, 0, 0, 0⟩, ⟨55, 48, .stg, 63, 0, 0⟩, ⟨47, 32, .stg, 0, 0, 0⟩, ⟨31, 16, .stg, 100, 0, 0⟩] },
  -- GRP_gLIST
  { base := 0x310008, n1 := 4096, s1 := 0x40, fields := [⟨63, 46, .stg, 0, 0, 0⟩, ⟨45, 0, .stg, 0, 0, 0⟩] },
  -- GRP_gQBASE
  { base := 0x310010, n1 := 4096, s1 := 0x40, fields := [⟨45, 14, .stg, 0, 0, 0⟩] },
  -- GRP_gGMAP
  { base := 0x310018, n1 := 4096, s1 := 0x40, fields := [⟨45, 12, .stg, 0, 0, 0⟩] },
  -- GRP_gSTAT
  { base := 0x310020, n1 := 4096, s1 := 0x40, fields := [⟨63, 46, .ro, 0, 0, 0⟩, ⟨45, 45, .ro, 0, 0, 0⟩, ⟨41, 6, .ro, 0, 0, 0⟩] },
  -- GRP_gKEY
  { base := 0x310028, n1 := 4096, s1 := 0x40, fields := [⟨31, 0, .ro, 0, 0, 0⟩] },
  -- CMQ_gPOST
  { base := 0x350000, n1 := 4096, s1 := 0x40, fields := [⟨8, 0, .wo, 0, 0, 0⟩] },
  -- CMQ_gCNT
  { base := 0x350008, n1 := 4096, s1 := 0x40, fields := [⟨63, 32, .ro, 0, 0, 0⟩, ⟨31, 0, .ro, 0, 0, 0⟩] },
  -- CMQ_gCTL
  { base := 0x350010, n1 := 4096, s1 := 0x40, fields := [⟨63, 63, .w1s, 0, 0, 0⟩, ⟨23, 0, .rw, 0, 0, 0⟩] },
  -- CMQ_gSTAT
  { base := 0x350018, n1 := 4096, s1 := 0x40, fields := [⟨39, 16, .ro, 0, 0, 0⟩, ⟨4, 4, .w1c, 0, 0, 0⟩, ⟨3, 3, .w1c, 0, 0, 0⟩, ⟨2, 2, .w1c, 0, 0, 0⟩, ⟨1, 1, .ro, 0, 0, 0⟩, ⟨0, 0, .ro, 0, 0, 0⟩] },
  -- CMQ_gTEAR
  { base := 0x350020, n1 := 4096, s1 := 0x40, fields := [⟨63, 56, .ro, 0, 0, 0⟩, ⟨55, 32, .ro, 0, 0, 0⟩, ⟨17, 0, .ro, 0, 0, 0⟩] } ]

/-- MON_ (R626). -/
def monRows : List RegRow := [
  -- MON_xSELi of a core
  { base := 0x400000, n1 := 256, s1 := 0x100, n2 := 8, s2 := 0x8, fields := [⟨63, 63, .w1c, 0, 0, 0⟩, ⟨47, 32, .ro, 0, 0, 0⟩, ⟨20, 20, .rw, 0, 0, 0⟩, ⟨19, 16, .rw, 0, 0, 0⟩, ⟨8, 8, .rw, 0, 0, 0⟩, ⟨7, 0, .rw, 0, 0, 0⟩] },
  -- MON_xCNTi of a core
  { base := 0x400040, n1 := 256, s1 := 0x100, n2 := 8, s2 := 0x8, fields := [⟨47, 0, .rw, 0, 0, 0⟩] },
  -- MON_xSNPi of a core
  { base := 0x400080, n1 := 256, s1 := 0x100, n2 := 8, s2 := 0x8, fields := [⟨47, 0, .ro, 0, 0, 0⟩] },
  -- MON_xSELi of a panel
  { base := 0x410000, n1 := 4, s1 := 0x400, n2 := 16, s2 := 0x8, fields := [⟨63, 63, .w1c, 0, 0, 0⟩, ⟨47, 32, .ro, 0, 0, 0⟩, ⟨20, 20, .rw, 0, 0, 0⟩, ⟨19, 16, .rw, 0, 0, 0⟩, ⟨8, 8, .rw, 0, 0, 0⟩, ⟨7, 0, .rw, 0, 0, 0⟩] },
  -- MON_xCNTi of a panel
  { base := 0x410080, n1 := 4, s1 := 0x400, n2 := 16, s2 := 0x8, fields := [⟨47, 0, .rw, 0, 0, 0⟩] },
  -- MON_xSNPi of a panel
  { base := 0x410100, n1 := 4, s1 := 0x400, n2 := 16, s2 := 0x8, fields := [⟨47, 0, .ro, 0, 0, 0⟩] },
  -- MON_xSELi of a spool
  { base := 0x420000, n1 := 24, s1 := 0x100, n2 := 4, s2 := 0x8, fields := [⟨63, 63, .w1c, 0, 0, 0⟩, ⟨47, 32, .ro, 0, 0, 0⟩, ⟨20, 20, .rw, 0, 0, 0⟩, ⟨19, 16, .rw, 0, 0, 0⟩, ⟨8, 8, .rw, 0, 0, 0⟩, ⟨7, 0, .rw, 0, 0, 0⟩] },
  -- MON_xCNTi of a spool
  { base := 0x420020, n1 := 24, s1 := 0x100, n2 := 4, s2 := 0x8, fields := [⟨47, 0, .rw, 0, 0, 0⟩] },
  -- MON_xSNPi of a spool
  { base := 0x420040, n1 := 24, s1 := 0x100, n2 := 4, s2 := 0x8, fields := [⟨47, 0, .ro, 0, 0, 0⟩] },
  -- MON_xSELi of a port
  { base := 0x422000, n1 := 6, s1 := 0x100, n2 := 4, s2 := 0x8, fields := [⟨63, 63, .w1c, 0, 0, 0⟩, ⟨47, 32, .ro, 0, 0, 0⟩, ⟨20, 20, .rw, 0, 0, 0⟩, ⟨19, 16, .rw, 0, 0, 0⟩, ⟨8, 8, .rw, 0, 0, 0⟩, ⟨7, 0, .rw, 0, 0, 0⟩] },
  -- MON_xCNTi of a port
  { base := 0x422020, n1 := 6, s1 := 0x100, n2 := 4, s2 := 0x8, fields := [⟨47, 0, .rw, 0, 0, 0⟩] },
  -- MON_xSNPi of a port
  { base := 0x422040, n1 := 6, s1 := 0x100, n2 := 4, s2 := 0x8, fields := [⟨47, 0, .ro, 0, 0, 0⟩] },
  -- MON_SNAPNO
  { base := 0x430000, fields := [⟨31, 0, .ro, 0, 0, 0⟩] } ]

/-- The block of BAR0 that holds an address: its rows. -/
def blockRows (a : Nat) : List RegRow :=
  let x := a % 0x4000000
  if x < 0x020000 then mbxRows
  else if x < 0x030000 then pwrRows
  else if x < 0x040000 then calRows
  else if x < 0x080000 then memRows
  else if x < 0x0C0000 then splRows
  else if x < 0x100000 then lnkRows
  else if x < 0x200000 then
    if x % 0x10000 < 0x1000 then prtRows else if x % 0x10000 < 0x2000 then patRows else xltRows
  else if x < 0x300000 then semRows
  else if x < 0x400000 then grpRows
  else monRows
/-- The row of the register at a BAR0 address. -/
def barRow (a : Nat) : Option RegRow := findRow (blockRows a) a
/-- What a BAR0 register holds: the last value stored, or the reset value. -/
def barVal (t : Tab W64) (a : Nat) : W64 := regVal (blockRows a) t a

end Sys2Proof.Machine
end

