-- ==== Sys2Proof/Machine/CoreState.lean ====
section
/-! DEFINITION. State of one Krymiord core and its units: banks, caps, store buffer, traps, microcode, caches, vector,
matrix and finishing units. Plain data. Values at reset that the spec does not give are zero or empty
(DESIGN CHOICE, log 5). -/

namespace Sys2Proof.Machine

/-- A cap: 128 bits and the hidden tag (R263). -/
structure Cap where
  bits : W128 := 0
  tag : Bool := false
deriving DecidableEq, Repr, Inhabited

/-- Where an access goes once translated (R267, R409, R424). -/
inductive Place where
  /-- a local physical address: spool or scratch -/
  | loc (pa : Nat)
  /-- a remote window of another module: device, window, offset -/
  | remote (dev win off : Nat)
  /-- a control address of the core that uses it -/
  | ctl (addr : Nat)
deriving DecidableEq, Repr, Inhabited

/-- The kinds of a translated access, as R427 names them, with the atomic kept apart (R417). -/
inductive Acc where
  | read | write | fetch | add | atomic
deriving DecidableEq, Repr, Inhabited

/-- One part of a load that crosses a 64 KiB granule (R224, R298). -/
structure LoadPart where
  place : Place := .loc 0
  size : Nat := 0
  /-- tag of its remote request -/
  tag : Option Nat := none
  /-- its bytes, once they have come, and whether they are poisoned -/
  got : Option (List Byte) := none
  poison : Bool := false
deriving DecidableEq, Repr, Inhabited

/-- The pending-load record of R222 and R273, with what an outstanding load still has to read. -/
structure LoadRec where
  /-- position p of R220 -/
  pos : Nat := 0
  value : W64 := 0
  arrived : Bool := false
  poison : Bool := false
  place : Place := .loc 0
  /-- bytes of the access -/
  size : Nat := 0
  signed : Bool := false
  /-- entries of the store buffer that are older than the load -/
  older : Nat := 0
  /-- tag of a remote request (R454) -/
  tag : Option Nat := none
  /-- the parts of a load that crosses a 64 KiB granule, in place of `place`, `size` and `tag` -/
  parts : List LoadPart := []
  /-- address of the LD, which a refused read reports (R425) -/
  pc : W64 := 0
deriving DecidableEq, Repr, Inhabited

/-- A running hardware loop (R245); END is START + 4 × LEN_M1. -/
structure LoopSt where
  start : Nat := 0
  lenM1 : Nat := 0
  cnt : W64 := 0
  done : W64 := 0
  rbase : Nat := 0
  /-- the outer loop's state lies on the return stack just below RBASE (log 15) -/
  saved : Bool := false
deriving DecidableEq, Repr, Inhabited

/-- The progress field (R286). -/
structure Progress where
  kind : Nat := 0
  mstop : Bool := false
  fstop : Bool := false
  gen : Nat := 0
  index : Nat := 0
deriving DecidableEq, Repr, Inhabited

/-- The active bank (R273). The stack caches are listed with the top entry first. -/
structure Bank where
  pc : W64 := 0
  sp : W64 := 0
  rsp : W64 := 0
  ops : List W64 := []
  rets : List W64 := []
  /-- operand-stack depth, memory entries included (R215) -/
  depth : Nat := 0
  load : Option LoadRec := none
  loop : Option LoopSt := none
  prog : Progress := {}
  vl : Nat := 0
  /-- vector of this entry (image offset 0x058) -/
  vec : Nat := 0
  caps : Tab Cap := []
deriving DecidableEq, Repr, Inhabited

/-- A bank image: 80 words of 8 bytes in the layout of R273, and the tags of its eight cap slots. -/
structure Image where
  words : Tab W64 := []
  tags : Tab Bool := []
deriving DecidableEq, Repr, Inhabited

/-- What a store-buffer entry does to the tags or how it acts (R226, R236, R239). -/
inductive SbKind where
  /-- a data store: clears the tags of the granules it writes -/
  | data
  /-- a cap store: sets its granule's tag -/
  | cap (tag : Bool)
  /-- a posted add of MADD, with its type -/
  | add (ty : Nat)
deriving DecidableEq, Repr, Inhabited

/-- One store-buffer entry (R258). A split store is two entries (R225). -/
structure SbEntry where
  place : Place := .loc 0
  data : List Byte := []
  kind : SbKind := .data
  /-- a request for its line was sent and is outstanding -/
  asked : Bool := false
deriving DecidableEq, Repr, Inhabited

/-- Why a core issues nothing for now. -/
inductive Wait where
  | none
  /-- a TLB miss: the walk of this address -/
  | walk (va : Nat) (acc : Acc)
  /-- a fault of the fault queue, at this address and level: its reply -/
  | fault (va : Nat) (acc : Acc) (level : Nat)
  /-- a remote read other than LD: its response -/
  | remote (tag : Nat)
  /-- PWAIT of a seated piece (R330) -/
  | pwait
  /-- an SHPOST at a full shuttle queue (R374) -/
  | shpost
deriving DecidableEq, Repr, Inhabited

/-- A piece: partition, pattern slot and index. -/
structure PieceId where
  part : Nat := 0
  slot : Nat := 0
  ix : Nat := 0
deriving DecidableEq, Repr, Inhabited

/-- What the core holds (R325, R328). -/
inductive RunSt where
  | free | running | seated
deriving DecidableEq, Repr, Inhabited

/-- One copy of the microcode store and dispatch table (R248, R249). -/
structure UcCopy where
  disp : Tab W32 := []
  ents : Tab (BitVec 34) := []
  gen : Nat := 0
deriving DecidableEq, Repr, Inhabited

/-- The microcode of a core: two copies, the copy its piece runs, and the staging window (R253, R267). -/
structure Microcode where
  cur : UcCopy := {}
  prev : UcCopy := {}
  useOld : Bool := false
  stage : Tab Byte := []
deriving DecidableEq, Repr, Inhabited

/-- One way of a cache, TLB or directory with its 2-bit AGE (R360). -/
structure Way (α : Type) where
  key : Nat := 0
  age : Nat := 0
  val : α
deriving DecidableEq, Repr, Inhabited

/-- The state of an L2 sub-block (R349). -/
inductive Mesi where
  | i | s | e | m
deriving DecidableEq, Repr, Inhabited

/-- The four sub-blocks of an L2 line, and their poison (R344, R364). -/
structure L2Line where
  sub : Tab Mesi := []
  poison : Tab Bool := []
deriving DecidableEq, Repr, Inhabited

/-- An offer of a replaced sub-block held in the writeback buffer (R357). -/
structure WbEntry where
  la : Nat := 0
  dirty : Bool := false
  poison : Bool := false
  /-- its PUTM or PUTC has been sent; a ninth offer waits with this false -/
  sent : Bool := false
  /-- NAKs received (R355) -/
  naks : Nat := 0
  /-- NAKed and waiting for its retry -/
  naked : Bool := false
deriving DecidableEq, Repr, Inhabited

/-- An outstanding miss of an L2 (R355). -/
structure Miss where
  la : Nat := 0
  /-- 0 GETS, 1 GETX, 2 UPG -/
  req : Nat := 0
  prefetch : Bool := false
  /-- NAKs received: AGE of R355 -/
  naks : Nat := 0
  /-- NAKed and waiting for its retry -/
  naked : Bool := false
deriving DecidableEq, Repr, Inhabited

/-- A stream of the stride table (R362). -/
structure Stream where
  pc : Nat := 0
  line : Nat := 0
  stride : Int := 0
  /-- the stride S that two successive equal ones confirmed -/
  conf : Option Int := none
  /-- lines requested so far -/
  asked : List Nat := []
deriving DecidableEq, Repr, Inhabited

/-- A TLB entry (R419): a leaf whose walk succeeded, tagged by partition. -/
structure Leaf where
  part : Nat := 0
  /-- page number: VA shifted right by the page bits -/
  vpn : Nat := 0
  /-- level of the leaf, 0 to 3 -/
  level : Nat := 0
  /-- the leaf's physical page address, device bits included -/
  pa : Nat := 0
  rmt : Bool := false
  pt : Bool := false
  x : Bool := false
  w : Bool := false
deriving DecidableEq, Repr, Inhabited

/-- The caches, buffers and TLB of a core (R344 to R363, R419). -/
structure CoreMem where
  l1i : Tab (Way Unit) := []
  l1d : Tab (Way Unit) := []
  l2 : Tab (Way L2Line) := []
  wb : List WbEntry := []
  misses : List Miss := []
  /-- most recently accessed first -/
  streams : List Stream := []
  tlb : Tab (Way Leaf) := []
  /-- a tag-parity error met a line held in M: its next FWD or RECALL is answered poisoned (R364) -/
  lostM : List Nat := []
deriving DecidableEq, Repr, Inhabited

/-- An instruction in a vector station (R195), with the operands it copied at issue (R255). -/
structure Station where
  /-- the instruction word -/
  word : W32 := 0
  seq : Nat := 0
  /-- scalar operands popped at issue, in the order of their stack effect -/
  args : List W64 := []
  vl : Nat := 0
  /-- pieces of physical range translated at issue: place and length -/
  ranges : List (Place × Nat) := []
  /-- first virtual address and length of that range, held against shoot-downs (R189) -/
  va : Nat := 0
  vlen : Nat := 0
  /-- local bolt range (BOLT = 1): offset -/
  bolt : Option Nat := none
  /-- a load has read its local bytes and sent its remote reads -/
  asked : Bool := false
  /-- bytes that a load has read, by place in its range -/
  data : Tab Byte := []
  /-- outstanding remote reads: tag and place in the range -/
  rwait : List (Nat × Nat) := []
  pc : Nat := 0
  /-- held since a handler entry until ERET (R285) -/
  held : Bool := false
  /-- the NaN trap may follow it, so that the next instruction waits for its end (R141, R281) -/
  gate : Bool := false
  /-- the bank before a load that may yet meet poison, and its poisoned positions, while nothing after it has issued (R365, log 66) -/
  undo : Option (Bank × List Nat) := none
  started : Bool := false
  /-- results computed at the start and written at its end; those of a store by place in its range -/
  writes : List (Nat × List Byte) := []
  stores : List (Nat × List Byte) := []
  maskWrites : List (Nat × Nat) := []
  /-- first NaN element, elements for which the NaN trap is raised (R139), NaNs written, overflows into unscaled formats -/
  nan : Option Nat := none
  trapped : Nat := 0
  nans : Nat := 0
  ovf : Nat := 0
deriving DecidableEq, Repr, Inhabited

/-- The long-vector unit (R182, R183, R195). -/
structure VecUnit where
  /-- v0 to v31: 2,048 bytes each at 2048 × register -/
  regs : Tab Byte := []
  /-- m0 to m7: 2,048 bits each -/
  masks : Tab Nat := []
  stations : List Station := []
deriving DecidableEq, Repr, Inhabited

/-- A matrix instruction in a patch queue: MTILE, MPRE or MZERO (R90, R107, R112), with the shape it copied (R93). -/
structure MatInstr where
  pre : Bool := false
  /-- MZERO: first accumulator word and count of the words it zeroes -/
  zero : Option (Nat × Nat) := none
  shape : W64 := 0
  slot : Nat := 0
  /-- how often the slot had been written when it was copied (R107) -/
  slotGen : Nat := 0
  wofs : Nat := 0
  aofs : Nat := 0
  acc : Bool := false
  asrc : Bool := false
  vreg : Nat := 0
  abase : Nat := 0
  pc : Nat := 0
  seq : Nat := 0
  /-- tiles started and tiles summed -/
  started : Nat := 0
  summed : Nat := 0
deriving DecidableEq, Repr, Inhabited

/-- A tile held in a weight set (R81): whose it is, its number and the bytes of its record. -/
structure Loaded where
  /-- number of the instruction that loads it -/
  seq : Nat := 0
  slot : Nat := 0
  slotGen : Nat := 0
  shape : W64 := 0
  wofs : Nat := 0
  tile : Nat := 0
  pre : Bool := false
  bytes : List Byte := []
deriving DecidableEq, Repr, Inhabited

/-- A tile whose rows multiply and are not all summed (R105, R106), with the values it captured. -/
structure TileRun where
  ins : MatInstr := {}
  tile : Nat := 0
  weights : List Byte := []
  /-- the tile's K_B elements of each activation row, row by row -/
  rows : List Byte := []
  /-- activation scale bytes (R100) -/
  scales : List Byte := []
deriving DecidableEq, Repr, Inhabited

/-- A patch (R90). -/
structure Patch where
  queue : List MatInstr := []
  shadow : Option Loaded := none
  active : Option Loaded := none
  runs : List TileRun := []
  /-- a load of the patch waits for or holds the port -/
  asked : Bool := false
  /-- stopped at a tile boundary by the NaN trap (R141) -/
  nanStop : Bool := false
deriving DecidableEq, Repr, Inhabited

/-- A request at the weight port (R103). -/
structure PortReq where
  patch : Nat := 0
  load : Loaded := {}
deriving DecidableEq, Repr, Inhabited

/-- The basting buffer, which holds one tile (R152), and what its check needs. -/
structure Basted where
  run : TileRun := {}
  /-- the patch mode in which the tile ran -/
  mode : Nat := 0
  patch : Nat := 0
  piece : Nat := 0
  /-- narrow values of the checked elements, row by row, as FP32 bits -/
  narrow : List W32 := []
deriving DecidableEq, Repr, Inhabited

/-- The matrix array (R81 to R107). Mode, shape slots and controls are registers of the control space. -/
structure MatUnit where
  patches : Tab Patch := []
  port : List PortReq := []
  acc : Tab W32 := []
  slotGen : Tab Nat := []
  baste : Option Basted := none
deriving DecidableEq, Repr, Inhabited

/-- What a pass makes of one element (R158 to R172). -/
structure ElemRes where
  /-- the element in the destination's format, and whether it overflowed -/
  out : Nat := 0
  ovf : Bool := false
  /-- FP32 value of the stage that a reduction taps -/
  tap : Nat := 0
  /-- first stage that produced a NaN, and NaNs produced -/
  nan : Option Nat := none
  nans : Nat := 0
deriving DecidableEq, Repr, Inhabited

/-- A queued or running finishing pass: FRUN's copy of its slot and operands (R175, R178). -/
structure FinPass where
  slot : Nat := 0
  desc : List Byte := []
  xbase : Nat := 0
  ybase : Nat := 0
  dbase : Nat := 0
  count : Nat := 0
  pc : Nat := 0
  seq : Nat := 0
  /-- physical pieces of a spool destination, translated at issue (R177) -/
  ranges : List (Place × Nat) := []
  /-- results of the elements whose group has been read, and the scale bytes used, by block -/
  res : List ElemRes := []
  scs : List Nat := []
  /-- elements that have been written: those of the groups before the last stop (R180) -/
  written : Nat := 0
deriving DecidableEq, Repr, Inhabited

/-- The finishing engine (R173 to R180). A slot never loaded is not listed. -/
structure FinUnit where
  slots : Tab (List Byte) := []
  queue : List FinPass := []
  running : Option FinPass := none
deriving DecidableEq, Repr, Inhabited

/-- A Krymiord core. -/
structure Core where
  bank : Bank := {}
  /-- the cap that fetch uses: the c0 in force since the last taken transfer (R227) -/
  fetchCap : Cap := {}
  shadow : Image := {}
  /-- positions of the operand stack that hold a poisoned value (R296) -/
  poison : List Nat := []
  shadowPoison : List Nat := []
  /-- bytes of remote memory that have come for the waiting instruction, by virtual address -/
  rbuf : Tab Byte := []
  /-- a load whose delay slot has completed before its value arrived (R221) -/
  due : Option LoadRec := none
  sb : List SbEntry := []
  /-- a precise exception of the next instruction, by vector -/
  trap : Option Nat := none
  /-- pending traps, by vector: NANT 6, BASTE 7, UERR 9 (R272) -/
  pend : List Nat := []
  /-- report of a refused remote read, raised once the reading instruction has completed (R425) -/
  refused : List (Nat × W64) := []
  /-- address of the instruction whose refused remote read XLTX pends for (R281, R425) -/
  late : Option W64 := none
  run : RunSt := .free
  piece : Option PieceId := none
  /-- seat notches SN0 to SN2 -/
  seats : List Nat := []
  wait : Wait := .none
  /-- it stands inside a microcode routine short of a step boundary (R252) -/
  mid : Bool := false
  /-- ERET has just resumed the code: an interrupt is taken before the resumed instruction issues (R288) -/
  resumed : Bool := false
  ctl : Tab W64 := []
  /-- what was last written to registers of R290 and is not yet in force -/
  ctlNew : Tab W64 := []
  /-- first 8 bytes written to the SEM_SEND window (R46) -/
  semWin : W64 := 0
  uc : Microcode := {}
  /-- the core's own stitch count (R76) -/
  stitches : Nat := 0
  bolt : Tab Byte := []
  /-- bolt granules with an error: 1 correctable, 2 uncorrectable (R341) -/
  boltErr : Tab Nat := []
  mem : CoreMem := {}
  vec : VecUnit := {}
  mat : MatUnit := {}
  fin : FinUnit := {}
  /-- number of unit instructions issued, for program order (R108): the model's own -/
  seq : Nat := 0
  /-- the patches and the finishing pass are stopped until ERET (R284) -/
  unitsHeld : Bool := false
  /-- the clockless logic has stopped below about 0.55 V (R79) -/
  stopped : Bool := false
deriving DecidableEq, Repr, Inhabited

end Sys2Proof.Machine
end

