-- ==== Sys2Proof/Machine/ModState.lean ====
section
/-! DEFINITION. State of the parts that the cores share: patterns, coherence, spools, translation, faults, shuttles.
Plain data. Values at reset that the spec does not give are zero or empty (DESIGN CHOICE, log 5). -/

namespace Sys2Proof.Machine

/-! ## Patterns (10) -/

/-- A pattern in flight (R311, R313). Its state words lie in memory. -/
structure PatSlot where
  tag : W64 := 0
  hdr : Nat := 0
  fmt : Nat := 1
  pieces : Nat := 0
  doneNotch : Nat := 0
  recBase : Nat := 0
  succBase : Nat := 0
  stateBase : Nat := 0
  ostk : Nat := 0
  rstk : Nat := 0
  stkx : Nat := 0
  /-- pieces not yet completed, cancelled or failed -/
  left : Nat := 0
  cancelled : Nat := 0
  aborted : Bool := false
  /-- successor lists that the engines fetched at dispatch, by piece (R337) -/
  lists : Tab (List Nat) := []
deriving DecidableEq, Repr, Inhabited

/-- A ready piece (R324, R325). -/
structure Ready where
  piece : PieceId := {}
  prio : Nat := 0
deriving DecidableEq, Repr, Inhabited

/-- The source of a fire (R319), which waits with a delivery that is held (R331): a core, a seam entry, a partition's lead engine, a group of the
collective engine, the host of a partition, or a unit whose fires wait for none. -/
inductive FireSrc where
  | unit
  | core (c : Nat)
  | entry (n : Nat)
  | lead (p : Nat)
  | group (g : Nat)
  | host (p : Nat)
  | shuttle (s : Nat)
  | queue (p : Nat)
deriving DecidableEq, Repr, Inhabited

/-- A fire in flight to the lead engine (R319). -/
structure Fire where
  part : Nat := 0
  notch : Nat := 0
  src : FireSrc := .unit
deriving DecidableEq, Repr, Inhabited

/-- A delivery held because the count of its seat, the one that a piece holds on a core, is full (R331). -/
structure HeldDelivery where
  core : Nat := 0
  seat : Nat := 0
  notch : Nat := 0
  src : FireSrc := .unit
  piece : PieceId := {}
deriving DecidableEq, Repr, Inhabited

/-- A count-down in flight from a completed piece to a listed successor (R316). -/
structure Down where
  src : PieceId := {}
  dst : PieceId := {}
deriving DecidableEq, Repr, Inhabited

/-- A completion entry waiting for its ring (R313). -/
structure CompEntry where
  part : Nat := 0
  slot : Nat := 0
  status : Nat := 0
  failIdx : Nat := 0
  cancelled : Nat := 0
  tag : W64 := 0
  /-- DONE_NOTCH to fire with it, if any -/
  notch : Option Nat := none
deriving DecidableEq, Repr, Inhabited

/-- What a switched-out piece keeps in the part of its save slot whose layout is the engine's own (R334, 0x0_0500). -/
structure SavedUnits where
  mat : MatUnit := {}
  fin : FinUnit := {}
  stations : List Station := []
  ctl : Tab W64 := []
  useOld : Bool := false
  fetchCap : Cap := {}
  mode : Nat := 0
  poison : List Nat := []
  /-- it stands inside a microcode routine short of a step boundary (R252) -/
  mid : Bool := false
  /-- number of the next unit instruction (R108): the model's own -/
  seq : Nat := 0
deriving DecidableEq, Repr, Inhabited

/-- A switched-out piece (R334, R335). -/
structure Saved where
  piece : PieceId := {}
  /-- save slot -/
  slot : Nat := 0
  panel : Nat := 0
  core : Nat := 0
  pin : Bool := false
  /-- its save is complete -/
  stored : Bool := false
  /-- the reply has arrived: some code of R431 -/
  reply : Option Nat := none
  /-- the faulting address and access, for a refused reply -/
  va : Nat := 0
  acc : Acc := .read
  level : Nat := 0
  units : SavedUnits := {}
deriving DecidableEq, Repr, Inhabited

/-- The pattern engines (R299 to R336). -/
structure PatState where
  /-- patterns in flight, at 64 × partition + slot -/
  slots : Tab PatSlot := []
  /-- ready pool of each panel, in the order in which its pieces became ready -/
  pools : Tab (List Ready) := []
  /-- ready pieces that wait in memory for pool space, in order (R324) -/
  poolWait : Tab (List Ready) := []
  /-- fan-out pieces whose count is 0 and that complete next (R315) -/
  fanouts : List PieceId := []
  /-- completed pieces whose successors are still to be counted down (R316) -/
  completed : List PieceId := []
  /-- count-downs in flight (R322) -/
  downs : List Down := []
  /-- the engines' own state words by address, against which a write by software shows (R323) -/
  words : Tab W64 := []
  fires : List Fire := []
  held : List HeldDelivery := []
  compWait : List CompEntry := []
  saved : List Saved := []
deriving DecidableEq, Repr, Inhabited

/-! ## Coherence (11) -/

/-- The messages of R351's table. -/
inductive CKind where
  | gets | getx | upg | putm | putc | rd | wr
  | dataS | dataE | dataM | grant | nak | putack | putdec
  | inv | recall | fwds | fwdx | fwdr | ack | ackd | gack
deriving DecidableEq, Repr, Inhabited

/-- A coherence message in flight. `agent` is the L2 or non-caching agent at its far end from the home slice. -/
structure CMsg where
  kind : CKind := .gets
  la : Nat := 0
  agent : Nat := 0
  starve : Bool := false
  prefetch : Bool := false
  /-- the data it carries is dirty, or poisoned -/
  dirty : Bool := false
  poison : Bool := false
  /-- an answer of a holder that no longer has the line, or gives it from its writeback buffer (R354) -/
  gone : Bool := false
  /-- the request the NAK answers -/
  req : Nat := 0
deriving DecidableEq, Repr, Inhabited

/-- The sharers of a line: up to four core numbers, or a vector of groups of eight (R350). -/
structure Sharers where
  ptrs : List Nat := []
  vec : Bool := false
  groups : Nat := 0
deriving DecidableEq, Repr, Inhabited

/-- A stable directory state (R350). -/
inductive DirSt where
  | u
  | s (sh : Sharers)
  | x (owner : Nat)
deriving DecidableEq, Repr, Inhabited

/-- A transaction of an entry in B (R350, R352). -/
structure DirTxn where
  req : CKind := .gets
  agent : Nat := 0
  /-- acknowledgements still awaited -/
  acks : Nat := 0
  /-- the line's data come from the home: the panel cache or its spool -/
  fill : Bool := false
  /-- an owner supplies the data -/
  fwd : Bool := false
  /-- the request is a prefetch (R363) -/
  pre : Bool := false
  /-- the grant has been sent and its GACK is awaited -/
  granted : Bool := false
  /-- the state after the transaction -/
  next : DirSt := .u
  /-- write of a non-caching agent: byte offset in the line and bytes -/
  wdata : List (Nat × Byte) := []
  /-- the entry is recalled for its victim way (R351) -/
  victim : Bool := false
deriving DecidableEq, Repr, Inhabited

/-- A directory entry (R350). -/
structure DirEntry where
  st : DirSt := .u
  txn : Option DirTxn := none
deriving DecidableEq, Repr, Inhabited

/-- A panel-cache line: its state; the data are the module's current values (log 9). -/
structure PncLine where
  dirty : Bool := false
  poison : Bool := false
deriving DecidableEq, Repr, Inhabited

/-- A starvation-queue entry (R355). -/
structure StarveReq where
  slice : Nat := 0
  agent : Nat := 0
  la : Nat := 0
  req : CKind := .gets
  /-- an offer's data are dirty, or poisoned; bytes of a non-caching write by place in the line -/
  dirty : Bool := false
  poison : Bool := false
  wdata : List (Nat × Byte) := []
deriving DecidableEq, Repr, Inhabited

/-- A request of a non-caching agent that a home slice has NAKed (R355). -/
structure NcAsk where
  agent : Nat := 0
  la : Nat := 0
  write : Bool := false
  /-- NAKs received -/
  naks : Nat := 0
  /-- the NAK is on its way, or the retry waits for its time -/
  idle : Bool := false
  naked : Bool := false
deriving DecidableEq, Repr, Inhabited

/-- The panel caches, directory and messages (R344 to R361). -/
structure CohState where
  pnc : Tab (Way PncLine) := []
  dir : Tab (Way DirEntry) := []
  msgs : List CMsg := []
  starve : List StarveReq := []
  asks : List NcAsk := []
  /-- soft errors that no access has met yet (R364) -/
  upsets : List Upset := []
deriving DecidableEq, Repr, Inhabited

/-! ## Spools (12) -/

/-- A request at a spool: from its selvedge to its channel (R394, R395). -/
structure SpoolReq where
  spool : Nat := 0
  pa : Nat := 0
  write : Bool := false
  /-- bursts it costs, k of R395 -/
  cost : Nat := 2
  /-- partition charged, 16 for the calibration bucket, 17 for none -/
  bucket : Nat := 17
  /-- the write of a part of one 64-byte burst: the burst is read, merged and written -/
  partialW : Bool := false
  /-- a training pair: one burst is read and written back (R577) -/
  train : Bool := false
  /-- bursts still to be moved -/
  left : Nat := 2
deriving DecidableEq, Repr, Inhabited

/-- One add on its way to a channel adder (R399, R400). -/
structure AddReq where
  /-- the core whose MADD it is, 257 for none -/
  core : Nat := 257
  pa : Nat := 0
  ty : Nat := 0
  /-- one element of MADD, or a 64-byte unit -/
  data : List Byte := []
  /-- an add of another module: the device and tag that its response goes to (R467) -/
  reply : Option (Nat × Nat) := none
deriving DecidableEq, Repr, Inhabited

/-- The spools (R381 to R405). -/
structure SplState where
  /-- requests waiting for admission, in order of arrival -/
  waiting : List SpoolReq := []
  /-- admitted requests, in admission order -/
  queued : List SpoolReq := []
  /-- open row of a bank, at (256 × spool + channel) × 16 + bank -/
  rows : Tab Nat := []
  /-- open units of a channel's adder by 64-byte unit address, the one used last first, at 256 × spool + channel -/
  units : Tab (List Nat) := []
  adds : List AddReq := []
  /-- next burst of the patrol scrub, and of the training pairs, of a channel, at 256 × spool + channel -/
  scrubPos : Tab Nat := []
  trainPos : Tab Nat := []
  /-- bursts that the patrol scrubber has marked (R391) -/
  marked : List Nat := []
  /-- a monitor count in progress, by spool -/
  monitor : List Nat := []
  /-- spools fenced (R385) -/
  fenced : List Nat := []
deriving DecidableEq, Repr, Inhabited

/-! ## Translation and faults (13) -/

/-- Who waits on a fault: a core, a switched-out piece, or a shuttle descriptor by number. -/
inductive FUnit where
  | core (n : Nat)
  /-- a switched-out piece, and the core on which it ran -/
  | saved (p : PieceId) (core : Nat)
  | shuttle (s desc : Nat)
deriving DecidableEq, Repr, Inhabited

/-- A fault on its way to the queue unit, or parked (R428, R430). -/
structure FaultReq where
  part : Nat := 0
  va : Nat := 0
  acc : Acc := .read
  /-- bit 0 NOTPRESENT, 1 BADPTE, 2 WRPROT -/
  cause : Nat := 0
  level : Nat := 0
  pte : Nat := 0
  unit : FUnit := .core 0
  piece : PieceId := {}
  /-- ACCESS bits of the engines that joined it while parked -/
  accs : Nat := 0
  /-- engines that joined it while parked -/
  joined : List FUnit := []
deriving DecidableEq, Repr, Inhabited

/-- An occupied fault-queue slot (R427). -/
structure FltSlot where
  va : Nat := 0
  seq : Nat := 0
  accs : Nat := 0
  causes : Nat := 0
  level : Nat := 0
  waiters : List FUnit := []
deriving DecidableEq, Repr, Inhabited

/-- Waiters of an accepted reply that are to be released (R423). -/
structure Release where
  part : Nat := 0
  code : Nat := 0
  waiters : List FUnit := []
deriving DecidableEq, Repr, Inhabited

/-- A shoot-down in progress (R421). -/
structure Shoot where
  part : Nat := 0
  all : Bool := false
  size : Nat := 0
  va : Nat := 0
  /-- the core whose COR_XLTINV started it, or none for the host -/
  core : Option Nat := none
deriving DecidableEq, Repr, Inhabited

/-- Translation and the fault queues. -/
structure XltState where
  /-- shared TLB of a panel: way at (panel × 256 + set) × 8 + way -/
  tlb : Tab (Way Leaf) := []
  flying : List FaultReq := []
  parked : List FaultReq := []
  /-- occupied slots, at 1,024 × partition + slot -/
  slots : Tab FltSlot := []
  releases : List Release := []
  shoots : List Shoot := []
deriving DecidableEq, Repr, Inhabited

/-! ## Shuttles (11) -/

/-- A posted descriptor with the caps it names (R371, R374). -/
structure ShtDesc where
  id : Nat := 0
  bytes : List Byte := []
  scap : Cap := {}
  dcap : Cap := {}
  icap : Cap := {}
  core : Nat := 0
  piece : PieceId := {}
  /-- virtual address of the descriptor -/
  addr : Nat := 0
  /-- the checks of R376 are done -/
  checked : Bool := false
  /-- the reads of an index list in remote memory are sent; index values read by the checks -/
  idxAsked : Bool := false
  idx : List Int := []
  /-- it waits for a fault reply at this page -/
  fault : Option Nat := none
  /-- a late status met while it ran (R376) -/
  late : Option Nat := none
  /-- its remote reads are sent; bytes that have come, by place in the source data -/
  asked : Bool := false
  rdata : Tab Byte := []
  /-- its bytes have been moved; only answers of remote modules or adders are awaited -/
  moved : Bool := false
deriving DecidableEq, Repr, Inhabited

/-- A shuttle (R374, R377). -/
structure Shuttle where
  queue : List ShtDesc := []
  running : List ShtDesc := []
deriving DecidableEq, Repr, Inhabited

end Sys2Proof.Machine
end

