-- ==== Sys2Proof/Machine/IoState.lean ====
section
/-! DEFINITION. State of the parts at the module's edges: seam endpoint, links, collectives, hosts, fitter, power. -/

namespace Sys2Proof.Machine

/-- The partition's ways to be (R525). -/
inductive PartSt where
  | free | stopped | running
deriving DecidableEq, Repr, Inhabited

/-- A partition in force (R522). Ranges are in GiB; scratch grants are first unit and count for each panel. -/
structure Part where
  st : PartSt := .free
  owner : Nat := 0
  cores : List Nat := []
  spools : List (Nat × Nat) := []
  scratch : List (Nat × Nat) := []
  digest : List Byte := []
deriving DecidableEq, Repr, Inhabited

/-! ## Links and remote requests (14) -/

/-- A message of a local unit or of a link (R437, R446, R451). -/
structure Msg where
  dest : Nat := 0
  src : Nat := 0
  vc : Nat := 0
  data : List Byte := []
deriving DecidableEq, Repr, Inhabited

/-- A message that has arrived, with what its buffer space returns (R451, R452). -/
structure InMsg where
  msg : Msg := {}
  link : Option Nat := none
  cls : Nat := 0
  flits : Nat := 0
deriving DecidableEq, Repr, Inhabited

/-- A message ready for a port group or being sent (R455). -/
structure OutMsg where
  msg : Msg := {}
  dl : Nat := 0
  /-- the link that its first flit has gone to (R437) -/
  link : Option Nat := none
  /-- payload bytes sent -/
  sent : Nat := 0
  /-- the seam entry and destination (0 or 1) whose queue holds it (R49) -/
  seam : Option (Nat × Nat) := none
  /-- a forwarded message still holds receive buffer -/
  held : Option InMsg := none
  /-- its last bytes have not come (R638) -/
  more : Bool := false
  /-- the link and class on which they come -/
  cut : Option (Nat × Nat) := none
deriving DecidableEq, Repr, Inhabited

/-- A DATA flit sent and not yet acknowledged (R448). -/
structure SentFlit where
  seq : Nat := 0
  vc : Nat := 0
  dl : Nat := 0
  som : Bool := false
  eom : Bool := false
  dest : Nat := 0
  src : Nat := 0
  /-- payload, and how many bytes of it are valid -/
  data : List Byte := []
  len : Nat := 0
  /-- times resent -/
  resent : Nat := 0
  /-- its count and key under R462 -/
  count : Nat := 0
  key : List Byte := []
  /-- with EOM, the whole message -/
  whole : Option OutMsg := none
deriving DecidableEq, Repr, Inhabited

/-- A control flit waiting to be sent (R449, R460, R469). -/
inductive Ctrl where
  | hello (h : Hello)
  | keys (key chain : List Byte)
  | encap (ct : List Byte)
  | signature (sig : List Byte)
  | handover (link : Nat) (last : Nat)
  | mark
deriving DecidableEq, Repr, Inhabited

/-- What a link has sent in a codeword slot (R445, R455). -/
inductive Slot where
  /-- a CTRL flit: its header, and the control message of which it is a part -/
  | ctrl (head : List Byte) (x : Ctrl)
  /-- the 640 bytes of an IDLE or DATA flit -/
  | flit (data : List Byte)
deriving DecidableEq, Repr, Inhabited

/-- A message of which not every flit has arrived (R638). -/
structure PartMsg where
  dest : Nat := 0
  src : Nat := 0
  data : List Byte := []
  /-- flits of it in the receive buffer -/
  flits : Nat := 0
  /-- its egress link or its PASS entry has it already, and takes each further flit as it comes -/
  out : Bool := false
deriving DecidableEq, Repr, Inhabited

/-- What the exchange of AUTH has gathered (R460, R461). -/
structure Auth where
  /-- steps received from the partner: 0 to 4 -/
  step : Nat := 0
  /-- every byte sent and received, step by step: own, partner's -/
  own : List (List Byte) := []
  partner : List (List Byte) := []
  /-- own key-exchange seed -/
  seed : List Byte := []
  /-- the partner's key and the secret encapsulated to the partner -/
  itsKey : List Byte := []
  itsSecret : List Byte := []
  /-- the secret encapsulated to this side -/
  mySecret : List Byte := []
  /-- the partner's identity key -/
  identity : List Byte := []
  /-- encryption is required by one side -/
  enc : Bool := false
deriving DecidableEq, Repr, Inhabited

/-- A session (R461, R462). -/
structure Session where
  txKey : List Byte := []
  rxKey : List Byte := []
  txSalt : List Byte := []
  rxSalt : List Byte := []
  txCount : Nat := 0
  rxCount : Nat := 0
deriving DecidableEq, Repr, Inhabited

/-- One link beside its registers (R442 to R456). -/
structure Link where
  /-- credits held as sender, by class 2 × VC + DL -/
  credits : Tab Nat := []
  /-- flits held in the receive buffer, by class -/
  occ : Tab Nat := []
  /-- credits to return, by class -/
  owed : Tab Nat := []
  /-- FSEQ of the next new DATA flit -/
  txSeq : Nat := 0
  replay : List SentFlit := []
  /-- position in the replay buffer of the next flit to resend -/
  resend : Option Nat := none
  /-- last FSEQ received in order -/
  rxSeq : Nat := 4095
  /-- NAK goes out in the next header -/
  nak : Bool := false
  /-- a NAK has been asked for since the last flit in order -/
  naked : Bool := false
  parts : Tab PartMsg := []
  ctrl : List Ctrl := []
  /-- flits sent of the first of them -/
  ctrlSent : Nat := 0
  /-- CTRL flits sent since a good flit came (R452; log 84) -/
  ctrlOut : Nat := 0
  auth : Auth := {}
  session : Session := {}
  /-- flits of the replay buffer that the lost link left to its group (R449) -/
  left : List SentFlit := []
  /-- it goes OFF once its MARK is sent (R469) -/
  closing : Bool := false
  /-- last FSEQ that the partner's HANDOVER reports delivered from it (R449) -/
  report : Option Nat := none
  /-- what it sent in its last slot -/
  last : Option Slot := none
deriving DecidableEq, Repr, Inhabited

/-- Who waits on a remote request (R454). -/
inductive RemUnit where
  /-- an LD -/
  | load
  /-- an instruction that waits for its bytes: the cap register that an LDC loads -/
  | buf (cr : Option Nat)
  /-- a VLD: station number and place in its range -/
  | vec (seq off : Nat)
  /-- a posted write or add -/
  | posted
  /-- a shuttle: descriptor and place in its data -/
  | shuttle (s desc off : Nat)
  /-- a write of a shuttle -/
  | shuttleW (s desc : Nat)
deriving DecidableEq, Repr, Inhabited

/-- An outstanding remote request (R467). -/
structure RemReq where
  unit : RemUnit := .posted
  core : Nat := 0
  part : Nat := 0
  va : Nat := 0
  len : Nat := 0
deriving DecidableEq, Repr, Inhabited

/-- The links. -/
structure LnkState where
  links : Tab Link := []
  /-- messages ready in each group, at 2 × port + half, in the order in which they became ready -/
  groups : Tab (List OutMsg) := []
  /-- flits sent in the round by each VC, at 8 × port + vc (R455) -/
  round : Tab Nat := []
  /-- messages that have arrived for this module, in order -/
  arrived : List InMsg := []
  /-- messages of vc0 that the fitter has taken (R451) -/
  fitIn : List Msg := []
  /-- the link reference clock runs (R74, R609; log 85) -/
  clock : Bool := true
  remotes : Tab RemReq := []
deriving DecidableEq, Repr, Inhabited

/-! ## The seam endpoint (02) -/

/-- A landing slot in use (R40, R43), by the SEQ of its chunk. -/
structure SemSlot where
  /-- header, payload and trailer as landed -/
  data : List Byte := []
  /-- handled under R43: software holds the slot -/
  handled : Bool := false
  /-- released by the endpoint itself -/
  released : Bool := false
  /-- compare mode: the second copy has been judged (R56) -/
  judged : Bool := false
deriving DecidableEq, Repr, Inhabited

/-- A chunk at an entry, with the message whose buffer space it returns. -/
structure SemIn where
  data : List Byte := []
  inMsg : Option InMsg := none
  /-- link on which it came -/
  link : Nat := 0
  /-- its last bytes have not come (R39, R638) -/
  more : Bool := false
  /-- the link and class on which they come -/
  cut : Option (Nat × Nat) := none
deriving DecidableEq, Repr, Inhabited

/-- A TRIM or CLOSE that AUTO_FWD is to send (R53). -/
structure SemFwd where
  /-- LAST DATA chunks notched when it was due -/
  count : Nat := 0
  /-- first 16 bytes of its header -/
  head : List Byte := []
deriving DecidableEq, Repr, Inhabited

/-- What an entry of the stream table holds beside its registers (R36 to R62). -/
structure SemEntry where
  /-- SEQ of the oldest unreleased slot -/
  rel : Nat := 0
  /-- no chunk has landed since the entry entered SHADOW -/
  fresh : Bool := false
  slots : Tab SemSlot := []
  /-- chunks that passed the checks and are landing -/
  landing : List SemIn := []
  /-- chunks that wait on their links for a slot (R42) -/
  waiting : List SemIn := []
  /-- SEQs of which one copy failed its check, in compare mode (R56) -/
  failed : List Nat := []
  /-- chunks that a PASS entry is to forward, and forwarded ones whose last byte has not passed -/
  passing : List SemIn := []
  passed : List SemIn := []
  /-- LAST DATA chunks notched, and sent (R53) -/
  lastIn : Nat := 0
  lastOut : Nat := 0
  fwd : List SemFwd := []
  /-- its CLOSE has been forwarded (R59) -/
  closeSent : Bool := false
  /-- SEM_SxMARK is armed (R62) -/
  armed : Bool := false
deriving DecidableEq, Repr, Inhabited

/-- The seam endpoint. -/
structure SemState where
  entries : Tab SemEntry := []
  /-- posts that wait because every destination queue is full: core and descriptor (R49) -/
  posts : List (Nat × List Byte) := []
deriving DecidableEq, Repr, Inhabited

/-! ## Collectives (15) -/

/-- A running collective operation (R480 to R503). -/
structure CollOp where
  /-- the 64 bytes of its queue entry -/
  entry : List Byte := []
  seq : Nat := 0
  /-- number of the phase it is in: an axis of R486 or R487, or the whole chain -/
  phase : Nat := 0
  /-- chunks of its own that it has still to send in the phase: first element and count -/
  own : List (Nat × Nat) := []
  /-- elements received in the phase -/
  got : Nat := 0
  /-- values of elements that the phases so far have left here -/
  vals : Tab Nat := []
  /-- axes whose predecessor has been granted tokens -/
  granted : List Nat := []
  /-- DATA chunks that wait in the receive buffer -/
  held : List (List Byte) := []
  /-- ENDs that it has sent or passed on (R489, R490) -/
  ends : Nat := 0
  /-- every byte is written or on its way to an adder -/
  done : Bool := false
  /-- the stall watchdog is armed (R508) -/
  armed : Bool := true
  /-- ALLTOALL: destinations served; rows of each source; sources whose LAST has come; MASK; IDX words of filled slots -/
  dest : Nat := 0
  rowsFrom : Tab Nat := []
  lastFrom : List Nat := []
  filled : Tab Nat := []
  dropped : Nat := 0
deriving DecidableEq, Repr, Inhabited

/-- What a group holds beside its registers. -/
structure CollGroup where
  run : Option CollOp := none
  /-- tokens held for sending, by axis (R496) -/
  tokens : Tab Nat := []
  /-- tokens granted for entries not yet taken: SEQ, axis and number (R496) -/
  early : List (Nat × Nat × Nat) := []
  /-- END chunks that came before its entry was taken -/
  ends : List (List Byte) := []
  /-- SEQ of a torn entry that is not yet taken (R503) -/
  tornSeq : Option Nat := none
  /-- its next entry waits for a context or buffer space (R509) -/
  waits : Bool := false
deriving DecidableEq, Repr, Inhabited

/-! ## Hosts and mailboxes (16) -/

/-- What the module sends to a host. -/
inductive HostOut where
  /-- a posted write of a shuttle to a bus address -/
  | write (bus : Nat) (data : List Byte)
  /-- a read of a shuttle of a bus address -/
  | read (bus len : Nat)
  /-- an MSI-X vector of the physical function -/
  | msix (vec : Nat)
  /-- the MSI-X vector of a virtual function -/
  | msixVf (vf : Nat)
  /-- the answer to a read of BAR2: none for Unsupported Request -/
  | answer (data : Option (List Byte))
  /-- a DOE response, in whole double words -/
  | doe (data : List Byte)
deriving DecidableEq, Repr, Inhabited

/-- A partition definition as PART_DEFINE carries it (R522, R534). -/
structure PartDef where
  owner : Nat := 0
  cores : Nat := 0
  spools : List (Nat × Nat) := []
  scratch : List (Nat × Nat) := []
  digest : List Byte := []
deriving DecidableEq, Repr, Inhabited

/-- An item of a stage set (R537, R538). -/
inductive StageItem where
  | reg (off : Nat) (v : W64)
  | define (p : Nat) (d : PartDef)
  | destroy (p : Nat)
  /-- the image, once flash holds it (R543); else it lies in the core's staging window -/
  | ucode (core mask : Nat) (img : Option (List Byte))
deriving DecidableEq, Repr, Inhabited

/-- A host port beside its registers. -/
structure HostPort where
  /-- the PCIe link is up, at a generation and width (R512) -/
  linked : Bool := false
  gen : Nat := 0
  width : Nat := 0
  /-- its reference clock runs (R74, R77) -/
  clock : Bool := false
  /-- Completion Timeout Value of Device Control 2, in ms (R514) -/
  cto : Nat := 50
  /-- what has been sent to the host, in order -/
  out : List HostOut := []
  /-- request and response buffer (R529) -/
  req : Tab Byte := []
  resp : Tab Byte := []
  /-- the stored response of R531 -/
  stored : Option (List Byte) := none
  set : List StageItem := []
  overfull : Bool := false
  /-- the report built last for the port (R565) -/
  report : Option (List Byte) := none
deriving DecidableEq, Repr, Inhabited

/-- A request that the fitter has accepted and not yet answered (R530, R532, R566). -/
inductive FitReq where
  /-- a doorbell: port, SEQ and the 4 KiB copied from the request buffer -/
  | mbx (port seq : Nat) (data : List Byte)
  /-- a DOE request: port and payload -/
  | doe (port : Nat) (data : List Byte)
deriving DecidableEq, Repr, Inhabited

/-- An apply between its acceptance and its switch (R540): the port that issued it, with its SEQ, version and PART, the set, and SAVE. -/
structure ApplyJob where
  port : Nat := 0
  seq : Nat := 0
  ver : Nat := 1
  part : Nat := 0
  set : List StageItem := []
  /-- the mailbox of the port has been reset meanwhile: no response (R515) -/
  mute : Bool := false
  save : Bool := false
deriving DecidableEq, Repr, Inhabited

/-- What the fitter runs (R552, R555, R613). -/
inductive FitPhase where
  /-- held in reset -/
  | off
  /-- reset released; the boot ROM starts -/
  | rom
  | recovery
  | running
deriving DecidableEq, Repr, Inhabited

/-- How far the start-up after boot has come (R612, R615, R568). -/
inductive BootStep where
  | none
  /-- firmware runs; training is due -/
  | booted
  /-- training waits for warmth -/
  | cold
  | training
  /-- trained; the spools are being zeroed -/
  | zeroing
  /-- zeroed; the boot apply follows -/
  | zeroed
  | applied
deriving DecidableEq, Repr, Inhabited

/-- The fitter's firmware (R527 to R565). -/
structure Fitter where
  phase : FitPhase := .off
  step : BootStep := .none
  /-- slot that booted: 0 A, 1 B, 2 SRAM after recovery; and what its header says -/
  slot : Nat := 0
  svn : Nat := 0
  version : Nat := 0
  m1 : List Byte := []
  steward : Nat := 0
  /-- the digest set by STEWARD_KEY -/
  stewardKey : List Byte := []
  /-- the wall-clock time set last, in ns -/
  time : Option Nat := none
  /-- requests accepted, in order -/
  queue : List FitReq := []
  job : Option ApplyJob := none
  /-- bytes of the push in progress received so far -/
  pushed : Nat := 0
  /-- MOD_RESET has been answered; the module reset is due (R535) -/
  resetDue : Bool := false
  measUc : List Byte := List.replicate 64 0
  measCfg : List Byte := List.replicate 64 0
  /-- event log, oldest first, and the entries overwritten (R560, R562) -/
  log : List (List Byte) := []
  lost : Nat := 0
  /-- registers whose LCK field has been set since reset (R11) -/
  locked : List Nat := []
  /-- vectors 18 to 23 whose events pend at the fitter's core (R270, R288) -/
  irq : List Nat := []
deriving DecidableEq, Repr, Inhabited

/-! ## Fuses and flash (17) -/

/-- Fuses and flash, which no reset changes (R548, R550, R614). -/
structure NonVol where
  /-- C, the number of SVN bits blown -/
  svn : Nat := 0
  /-- image keys revoked -/
  revoked : Nat := 0
  /-- image slots A and B by flash offset; a byte not listed is erased -/
  flash : Tab Byte := []
  /-- the saved set of a port (R543) -/
  saved : Tab (List StageItem) := []
deriving DecidableEq, Repr, Inhabited

/-! ## Calibration (18) -/

/-- Calibration beside its registers. -/
structure CalState where
  /-- live tracks, by the number of the tracked quantity (R569, R574) -/
  track : Tab Int := []
  /-- user offsets in force where the register holds newer ones not yet switched, by BAR0 address (R572) -/
  held : Tab W64 := []
  /-- channels (256 × spool + channel) and links that have not yet switched -/
  pendSpl : List Nat := []
  pendLnk : List Nat := []
  /-- a link monitor count is in progress -/
  lmon : Bool := false
deriving DecidableEq, Repr, Inhabited

/-! ## Power and the sideband (19) -/

/-- Power, sequencer and sideband, beside the PWR_ registers. -/
structure Power where
  /-- input in 10 mV -/
  input : Nat := 0
  converter : Bool := false
  standby : Bool := false
  enable : Bool := false
  /-- the enable input has gone low since FAULT or TRIP was entered (R602, R607) -/
  cycled : Bool := true
  /-- SB_SEQ.STATE: 0 STANDBY, 1 RAMPING, 2 BOOT, 3 RUN, 4 FAULT, 5 TRIP, 6 COLD -/
  seq : Nat := 0
  /-- SB_SEQ.RAIL -/
  rail : Nat := 0
  /-- rail groups of R612 that are good -/
  groups : Nat := 0
  /-- limits of the cap and of the throttle by core rail, in codes above 0.60 V (R600) -/
  capLim : Tab Nat := []
  thmLim : Tab Nat := []
  /-- ms for which the input power has been below 95 % of the cap; and of raising waits by rail (R601, R605) -/
  capLow : Nat := 0
  thmLow : Tab Nat := []
  /-- panels whose core rail has fallen so low that their clockless logic stopped (R79) -/
  dead : List Nat := []
  /-- lowest core-rail voltage since the last read of SB_POWER, in 1.25 mV -/
  lowest : Option Nat := none
  /-- words of the sideband that are stored: SB_EVT, SB_CTL, SB_BEAT, SB_CNT -/
  sb : Tab Nat := []
  /-- word index of the I3C target, and its dynamic address -/
  index : Nat := 0
  addr : Option Nat := none
  /-- an In-Band Interrupt has been raised and SB_EVT not yet cleared -/
  raised : Bool := false
  /-- In-Band Interrupts sent, by their mandatory byte -/
  ibi : List Nat := []
  /-- sideband words read out, in order -/
  out : List Nat := []
deriving DecidableEq, Repr, Inhabited

end Sys2Proof.Machine
end

