-- ==== Sys2Proof/Machine/State.lean ====
section
/-! DEFINITION. The state of the module as plain data, its faults and refusals, and the state right after reset. -/

namespace Sys2Proof.Machine

/-- Everything but the queue of commands. -/
structure Mod where
  /-- cores 0 to 255 and the fitter's core 256; a core not listed is as `Core` is at reset -/
  cores : Tab Core := []
  /-- BAR0 registers by BAR0 address; those that each port has for itself at 0x400_0000 × port beyond -/
  bar0 : Tab W64 := []
  /-- local physical memory, the current value of each byte (log 9) -/
  mem : Tab Byte := []
  /-- cap tags by 16-byte granule number (R266) -/
  tags : Tab Bool := []
  /-- poisoned 64-byte bursts by burst number (R365, R388) -/
  poison : Tab Bool := []
  /-- the fitter's private SRAM (R19) -/
  sram : Tab Byte := []
  parts : Tab Part := []
  pat : PatState := {}
  coh : CohState := {}
  spl : SplState := {}
  xlt : XltState := {}
  shuttles : Tab Shuttle := []
  lnk : LnkState := {}
  sem : SemState := {}
  /-- ports H0 and H1 -/
  hosts : Tab HostPort := []
  /-- groups of the collective engine -/
  coll : Tab CollGroup := []
  fit : Fitter := {}
  nv : NonVol := {}
  cal : CalState := {}
  pwr : Power := {}
  /-- next index of the free values of Config: the model's own (log 6) -/
  freeCtr : Nat := 0
  /-- next number of a shuttle descriptor or a remote request: the model's own names for them -/
  nextId : Nat := 0
deriving DecidableEq, Repr, Inhabited

/-- The machine: the queue of waiting commands, first in first out, and the rest. -/
structure State where
  pending : List Instr := []
  m : Mod := {}
deriving DecidableEq, Repr, Inhabited

/-- Why the machine stops with a fault: no command of the block does. -/
inductive Fault where
deriving DecidableEq, Repr

/-- Why a command has no meaning. -/
inductive Refusal where
  /-- A command that the model does not model. Safe. -/
  | notModelled (mnemonic : String)
deriving DecidableEq, Repr, Inhabited

/-- The machine right after reset. -/
def State.reset : State := {}

end Sys2Proof.Machine
end

