-- ==== Sys2Proof/Machine/Ops.lean ====
section
/-! DEFINITION. Named operations over the module: cores, registers, counters, free values, memory, tags, poison, maps. -/

namespace Sys2Proof.Machine

/-! ## Cores and registers -/

/-- Core `c`. -/
def Mod.core (m : Mod) (c : Nat) : Core := Tab.get {} m.cores c
/-- The module with core `c` replaced. -/
def Mod.setCore (m : Mod) (c : Nat) (k : Core) : Mod := { m with cores := Tab.put m.cores c k }
/-- The module with core `c` changed. -/
def Mod.updCore (m : Mod) (c : Nat) (f : Core → Core) : Mod := m.setCore c (f (m.core c))
/-- A BAR0 register. -/
def Mod.rd (m : Mod) (a : Nat) : W64 := barVal m.bar0 a
/-- Store a BAR0 register, outside the access codes. -/
def Mod.wr (m : Mod) (a : Nat) (v : W64) : Mod := { m with bar0 := Tab.put m.bar0 a v }
/-- Bits of a BAR0 register. -/
def Mod.rdf (m : Mod) (a hi lo : Nat) : Nat := fld (m.rd a) hi lo
/-- Replace bits of a BAR0 register. -/
def Mod.wrf (m : Mod) (a hi lo v : Nat) : Mod := m.wr a (setFld (m.rd a) hi lo v)
/-- Add to a 48-bit count in bits 47 to 0, wrapping at 2⁴⁸. -/
def Mod.incBy (m : Mod) (a n : Nat) : Mod := m.wrf a 47 0 (m.rdf a 47 0 + n)
/-- Add one to a 48-bit count. -/
def Mod.inc (m : Mod) (a : Nat) : Mod := m.incBy a 1
/-- An event of one of the fitter's vectors 18 to 23 pends at its core (R270). -/
def Mod.fitterIrq (m : Mod) (v : Nat) : Mod := { m with fit := { m.fit with irq := if m.fit.irq.contains v then m.fit.irq else v :: m.fit.irq } }
/-- Set one bit of a register. -/
def Mod.raise (m : Mod) (a i : Nat) : Mod := m.wrf a i i 1
/-- A register of a core's control space: the fitter has its own (R298). -/
def Core.creg (k : Core) (a : Nat) : W64 := regVal coreRows k.ctl a
/-- Bits of a control register. -/
def Core.cregf (k : Core) (a hi lo : Nat) : Nat := fld (k.creg a) hi lo
/-- Store a control register. -/
def Core.setCreg (k : Core) (a : Nat) (v : W64) : Core := { k with ctl := Tab.put k.ctl a v }
/-- Replace bits of a control register. -/
def Core.setCregf (k : Core) (a hi lo v : Nat) : Core := k.setCreg a (setFld (k.creg a) hi lo v)
/-- Add to a 48-bit count of the control space. -/
def Core.incCregBy (k : Core) (a n : Nat) : Core := k.setCregf a 47 0 (k.cregf a 47 0 + n)
/-- Partition `p`. -/
def Mod.part (m : Mod) (p : Nat) : Part := Tab.get {} m.parts p
/-- The module with partition `p` changed. -/
def Mod.updPart (m : Mod) (p : Nat) (f : Part → Part) : Mod := { m with parts := Tab.put m.parts p (f (m.part p)) }
/-- The partition that holds core `c`, if any. -/
def Mod.partOf (m : Mod) (c : Nat) : Option Nat :=
  (upto 16).find? fun p => (m.part p).st != .free && (m.part p).cores.contains c
/-- Host port `h`. -/
def Mod.host (m : Mod) (h : Nat) : HostPort := Tab.get {} m.hosts h
/-- Change host port `h`. -/
def Mod.updHost (m : Mod) (h : Nat) (f : HostPort → HostPort) : Mod := { m with hosts := Tab.put m.hosts h (f (m.host h)) }
/-- Send something to a host. -/
def Mod.toHost (m : Mod) (h : Nat) (x : HostOut) : Mod := m.updHost h fun p => { p with out := p.out ++ [x] }
/-- A core's panel (R5). -/
def panelOf (c : Nat) : Nat := c / 64

/-! ## BAR0 blocks (R516) -/

/-- Base of the PWR_ block. -/
def bPWR : Nat := 0x020000
/-- Base of the CAL_ block. -/
def bCAL : Nat := 0x030000
/-- Base of the module's PAT_ block. -/
def bPATM : Nat := 0x040000
/-- Base of panel `p`'s PNC_ block. -/
def bPNC (p : Nat) : Nat := 0x050000 + 0x1000 * p
/-- Base of shuttle `s`'s SHT_ block. -/
def bSHT (s : Nat) : Nat := 0x060000 + 0x100 * s
/-- Base of core `n`'s L2C_ block. -/
def bL2C (n : Nat) : Nat := 0x070000 + 0x100 * n
/-- SPL_MAP. -/
def bSPLMAP : Nat := 0x080000
/-- Base of spool `s`'s SPL_ registers. -/
def bSPL (s : Nat) : Nat := 0x080000 + 0x1000 * (s + 1)
/-- Base of the LNK_ block. -/
def bLNK : Nat := 0x0C0000
/-- Base of partition `p`'s page (R516, R518). -/
def bPRT (p : Nat) : Nat := 0x100000 + 0x10000 * p
/-- Base of partition `p`'s PAT_ block. -/
def bPAT (p : Nat) : Nat := bPRT p + 0x1000
/-- Base of partition `p`'s XLT_ and FLQ_ registers. -/
def bXLT (p : Nat) : Nat := bPRT p + 0x2000
/-- SHT_PERR0 of partition `p`. -/
def bPERR (p : Nat) : Nat := bPRT p + 0x3000
/-- Base of the SEM_ block. -/
def bSEM : Nat := 0x200000
/-- Base of the GRP_ and CMQ_ block. -/
def bGRP : Nat := 0x300000
/-- Base of the MON_ block. -/
def bMON : Nat := 0x400000
/-- Distance, beyond BAR0, of a register that each port has for itself. -/
def portStride : Nat := 0x4000000
/-- Base of port `h`'s MBX_ block. -/
def bMBX (h : Nat) : Nat := portStride * h
/-- FTR_CFGSTAT. -/
def bCFGSTAT : Nat := 0x010000

/-! ## Selectable event counters (20) -/

/-- Count `n` events of one code at one counter (R618, R620). -/
def Mod.ev1 (m : Mod) (sel cnt code n : Nat) (filt : Option Nat) : Mod :=
  let s := m.rd sel
  let pass := if fld s 20 20 = 1 then filt = some (fld s 19 16) else true
  if fld s 8 8 = 1 ∧ fld s 7 0 = code ∧ code ≠ 0 ∧ pass then
    let v := m.rdf cnt 47 0 + n
    let m1 := m.wrf cnt 47 0 v
    if v / 2 ^ 48 = 0 then m1
    else m1.wr sel (setFld (setFld s 47 32 (fld s 47 32 + v / 2 ^ 48)) 63 63 1)
  else m
/-- Count events at the counters of one place. -/
def Mod.evAt (m : Mod) (base num cntOff code n : Nat) (filt : Option Nat) : Mod :=
  (upto num).foldl (fun m i => m.ev1 (base + 8 * i) (base + cntOff + 8 * i) code n filt) m
/-- Events of core `c` (R622). -/
def Mod.evCore (m : Mod) (c code n : Nat) : Mod :=
  if c < 256 then m.evAt (bMON + 0x100 * c) 8 0x40 code n none else m
/-- Events of panel `p`, with the partition they belong to. -/
def Mod.evPanel (m : Mod) (p code n : Nat) (filt : Option Nat) : Mod := m.evAt (bMON + 0x10000 + 0x400 * p) 16 0x80 code n filt
/-- Events of spool `s`. -/
def Mod.evSpool (m : Mod) (s code n : Nat) (filt : Option Nat) : Mod := m.evAt (bMON + 0x20000 + 0x100 * s) 4 0x20 code n filt
/-- Events of link port `k`, with their virtual channel. -/
def Mod.evPort (m : Mod) (k code n : Nat) (filt : Option Nat) : Mod := m.evAt (bMON + 0x22000 + 0x100 * k) 4 0x20 code n filt

/-! ## Free values -/

/-- A fresh free word (log 6). -/
def Mod.freeW (m : Mod) : W64 × Mod := (Config.freeWord m.freeCtr, { m with freeCtr := m.freeCtr + 1 })
/-- A fresh free choice (log 6). -/
def Mod.freeB (m : Mod) : Bool × Mod := (Config.freeBool m.freeCtr, { m with freeCtr := m.freeCtr + 1 })
/-- `n` fresh free bytes (log 6). -/
def Mod.freeBytes (m : Mod) (n : Nat) : List Byte × Mod :=
  ((upto n).map fun i => (Config.freeWord (m.freeCtr + i)).setWidth 8, { m with freeCtr := m.freeCtr + n })

/-! ## The memory map -/

/-- Spools enabled in the map, ascending (R382). -/
def Mod.enabled (m : Mod) : List Nat := (upto 24).filter fun s => (m.rd bSPLMAP).getLsbD s
/-- How many spools the map holds. -/
def Mod.spoolN (m : Mod) : Nat := (Mod.enabled m).length
/-- A local physical address in spool memory (R382). -/
def Mod.isSpool (m : Mod) (pa : Nat) : Bool := decide (pa < m.spoolN * 2 ^ 36)
/-- First address of the scratch windows (R366). -/
def scratchBase : Nat := 0x3F0000000000
/-- A fence in force on a core, or on a panel (R586). -/
def Mod.coreFenced (m : Mod) (c : Nat) : Bool := decide (c < 256) && (m.rd (bCAL + 0x40 + 8 * (c / 64))).getLsbD (c % 64)
/-- A fence in force on a panel (R590). -/
def Mod.panelFenced (m : Mod) (p : Nat) : Bool := (m.rd (bCAL + 0x60)).getLsbD (24 + p)
/-- Scratch ways in force on a panel, none on a fenced one (R366, R590). -/
def Mod.ways (m : Mod) (p : Nat) : Nat := if m.panelFenced p then 0 else m.rdf (bPNC p) 3 0
/-- The units of a panel work: it is not fenced (R590), and its core rail has not fallen so low that its clockless logic stopped (R79, R634). -/
def Mod.panelUp (m : Mod) (p : Nat) : Bool := !m.panelFenced p && !m.pwr.dead.contains p
/-- A local physical address in scratch (R366). -/
def Mod.isScratch (m : Mod) (pa : Nat) : Bool :=
  decide (scratchBase ≤ pa ∧ (pa - scratchBase) / 0x4000000 < 4 ∧
    (pa - scratchBase) % 0x4000000 < m.ways ((pa - scratchBase) / 0x4000000) * (6 * 2 ^ 20))
/-- The place of a spool address (R383): spool, channel, bank, row, column, burst. -/
structure SpoolPlace where
  spool : Nat
  channel : Nat
  bank : Nat
  row : Nat
  col : Nat
  burst : Nat
deriving DecidableEq, Repr
/-- The map of R383. -/
def Mod.place (m : Mod) (pa : Nat) : SpoolPlace :=
  let e := m.enabled
  let q := bitsN pa 45 7
  let y := q / e.length
  let c := nxor (nxor (bitsN y 7 0) (bitsN y 15 8)) (bitsN y 23 16)
  let w := bitsN y 28 8
  { spool := e.getD (q % e.length) 0, channel := c, bank := nxor (bitsN w 6 3) (bitsN w 10 7),
    row := bitsN w 20 7, col := bitsN w 2 0, burst := bitsN pa 6 6 }
/-- The spool of a line is fenced (R385). -/
def Mod.lineFenced (m : Mod) (pa : Nat) : Bool := m.isSpool pa && m.spl.fenced.contains (m.place pa).spool

/-- A line that a range touches lies in a fenced spool. -/
def Mod.rangeFenced (m : Mod) (pa n : Nat) : Bool :=
  n ≠ 0 && (upto ((pa + n - 1) / 128 - pa / 128 + 1)).any fun i => m.lineFenced ((pa / 128 + i) * 128)

/-- Ranges of a partition's grants: first address and length (R522, R629). -/
def Part.grants (p : Part) : List (Nat × Nat) :=
  (p.spools.map fun r => (r.1 * 2 ^ 30, r.2 * 2 ^ 30)) ++
  (p.scratch.zipIdx.map fun r => (scratchBase + r.2 * 0x4000000 + r.1.1 * (6 * 2 ^ 20), r.1.2 * (6 * 2 ^ 20)))
/-- Every byte from `lo` up to `hi` lies in one of the ranges; a range may go on in one that adjoins it (R629). -/
def covered (rs : List (Nat × Nat)) : Nat → Nat → Nat → Bool
  | 0, lo, hi => decide (hi ≤ lo)
  | k + 1, lo, hi =>
    if hi ≤ lo then true
    else match rs.find? fun r => decide (r.1 ≤ lo ∧ lo < r.1 + r.2) with
      | some r => covered rs k (r.1 + r.2) hi
      | none => false
/-- A range lies within a partition's grants (R629). -/
def Part.holds (p : Part) (pa n : Nat) : Bool := covered p.grants (p.grants.length + 1) pa (pa + n)
/-- The partition whose spool grant holds an address (R394). -/
def Mod.grantOf (m : Mod) (pa : Nat) : Option Nat :=
  (upto 16).find? fun p => (m.part p).st != .free && (m.part p).spools.any fun r => decide (r.1 * 2 ^ 30 ≤ pa ∧ pa < (r.1 + r.2) * 2 ^ 30)

/-! ## Memory -/

/-- Bytes of local physical memory. -/
def Mod.rdMem (m : Mod) (pa n : Nat) : List Byte := Memory.bytes m.mem pa n
/-- A little-endian number of memory. -/
def Mod.rdLe (m : Mod) (pa n : Nat) : Nat := ofLe (m.rdMem pa n)
/-- The tag of the granule of an address (R266). -/
def Mod.tagAt (m : Mod) (pa : Nat) : Bool := Tab.get false m.tags (pa / 16)
/-- Clear the tags of every granule a range touches (R226). -/
def Mod.clearTags (m : Mod) (pa n : Nat) : Mod :=
  if n = 0 then m else { m with tags := Tab.clear m.tags (pa / 16) ((pa + n - 1) / 16 + 1) }
/-- Some byte of a range is poisoned, or lies in a fenced spool (R365, R385). -/
def Mod.poisoned (m : Mod) (pa n : Nat) : Bool :=
  n ≠ 0 && ((upto ((pa + n - 1) / 64 - pa / 64 + 1)).any fun i =>
    Tab.get false m.poison (pa / 64 + i) || m.lineFenced ((pa / 64 + i) * 64))
/-- Mark a whole line poisoned, or clean it. -/
def Mod.setPoison (m : Mod) (la : Nat) (b : Bool) : Mod :=
  { m with poison := Tab.setD false (Tab.setD false m.poison (2 * la) b) (2 * la + 1) b }
/-- Clear the poison of every line that a write covers whole (R365). -/
def Mod.cleanLines (m : Mod) (pa n : Nat) : Mod :=
  let lo := (pa + 127) / 128
  let hi := (pa + n) / 128
  if lo < hi then { m with poison := Tab.clear m.poison (2 * lo) (2 * hi) } else m
/-- A data write within one line: the bytes, the tags of the granules touched, the poison of whole lines (R226, R365).
A write to a line of a fenced spool is dropped (R385). -/
def Mod.wrLine (m : Mod) (pa : Nat) (bs : List Byte) : Mod :=
  if m.lineFenced pa then m.inc (bSPL (m.place pa).spool + 0x40 + 8 * 4)
  else ({ m with mem := Memory.setBytes m.mem pa bs }.clearTags pa bs.length).cleanLines pa bs.length
/-- A data write to local memory (R226, R365): where one of its lines lies in a fenced spool, line by line (R385). -/
def Mod.wrMem (m : Mod) (pa : Nat) (bs : List Byte) : Mod :=
  let n := bs.length
  if m.rangeFenced pa n then
    (upto ((pa + n - 1) / 128 - pa / 128 + 1)).foldl (fun (m : Mod) i =>
      let lo := max pa ((pa / 128 + i) * 128)
      m.wrLine lo ((bs.drop (lo - pa)).take (min (pa + n) ((pa / 128 + i + 1) * 128) - lo))) m
  else ({ m with mem := Memory.setBytes m.mem pa bs }.clearTags pa n).cleanLines pa n
/-- A cap of memory with its tag (R266); tags of such bits as R264 names are never set. -/
def Mod.rdCap (m : Mod) (pa : Nat) : Cap :=
  { bits := BitVec.ofNat 128 (m.rdLe pa 16), tag := m.tagAt pa }
/-- A cap write: 16 bytes and the granule's tag (R226). -/
def Mod.wrCap (m : Mod) (pa : Nat) (c : Cap) : Mod :=
  let m1 := m.wrMem pa (toLe 16 c.bits.toNat)
  { m1 with tags := Tab.setD false m1.tags (pa / 16) c.tag }

/-! ## Events to software -/

/-- Send a fire of an external notch from its source toward its lead engine; 0xFFFF means no notch (R299, R319). -/
def Mod.fire (m : Mod) (part notch : Nat) (src : FireSrc := .unit) : Mod :=
  if notch = 0xFFFF then m else { m with pat := { m.pat with fires := m.pat.fires ++ [{ part := part, notch := notch, src := src }] } }
/-- The module is HELD (R544). -/
def Mod.isHeld (m : Mod) : Bool := m.rdf bCFGSTAT 1 0 == 2
/-- Some BAR0 register of a kind holds one of the bits of a mask. -/
def Mod.anyReg (m : Mod) (base step last off mask : Nat) (own : Nat → Bool) : Bool :=
  m.bar0.any fun e => decide (base ≤ e.1) && decide (e.1 < last) && (e.1 - base) % step == off && e.2.toNat &&& mask != 0 && own ((e.1 - base) / step)
/-- PRT_EVT: the summary of a partition's events (R546). -/
def Mod.prtEvt (m : Mod) (p : Nat) : Nat :=
  let seam := m.anyReg (bSEM + 0x10000) 0x80 (bSEM + 0x90000) 0x28 0x7F00 fun n => m.rdf (bSEM + 0x10000 + 0x80 * n) 23 20 == p
  let cmq (mask : Nat) := m.anyReg (bGRP + 0x50000) 0x40 (bGRP + 0x90000) 0x18 mask fun g => m.rdf (bGRP + 0x10000 + 0x40 * g) 59 56 == p
  let halt := (m.part p).cores.any fun c => (m.core c).cregf 0x000 24 24 == 1
  m.rdf (bPAT p + 0x68) 1 1 + 2 * m.rdf (bPAT p + 0x68) 2 2 + 4 * m.rdf (bXLT p + 0xA0) 0 0 + 8 * m.rdf (bXLT p + 0xA0) 2 2 +
  16 * m.rdf (bPERR p) 63 63 + 32 * b2n (cmq 8) + 64 * b2n (cmq 4) + 128 * b2n halt + 256 * b2n seam
/-- The virtual functions of a port that a partition is mapped to (R513). -/
def Mod.vfsOf (m : Mod) (h p : Nat) : List Nat := (upto 8).filter fun v => m.rdf (bMBX h + 0x18) (5 * v + 4) (5 * v) == 16 + p
/-- The partition's vector is sent where an enabled event stands and it is armed; sending disarms it (R546). While HELD it is not
sent (R544). -/
def Mod.prtVector (m : Mod) (p : Nat) : Mod :=
  if (m.part p).st = .free ∨ m.isHeld ∨ m.rdf (bPRT p + 0x28) 0 0 = 0 ∨ m.prtEvt p &&& m.rdf (bPRT p + 0x18) 8 0 = 0 then m
  else
    let h := (m.part p).owner
    let m1 := (m.wrf (bPRT p + 0x28) 0 0 0).toHost h (.msix (1 + p))
    (m.vfsOf h p).foldl (fun (m : Mod) v => m.toHost h (.msixVf v)) m1
/-- Vector 0 of a port for the module events (R592). -/
def Mod.calVector (m : Mod) (h : Nat) : Mod :=
  if m.rdf (portStride * h + bCAL + 0x108) 0 0 = 0 ∨ m.rdf (bCAL + 0x80) 5 0 &&& m.rdf (portStride * h + bCAL + 0x100) 5 0 = 0 then m
  else (m.wrf (portStride * h + bCAL + 0x108) 0 0 0).toHost h (.msix 0)
/-- A module event (R592): its bit, its count, and the vectors. -/
def Mod.calEvent (m : Mod) (i : Nat) : Mod :=
  (((m.raise (bCAL + 0x80) i).inc (bCAL + 0xC0 + 8 * i)).calVector 0).calVector 1
/-- Fire the partition's fault notch (R327): FAULT and PAT_CNT7 with it. -/
def Mod.fireFault (m : Mod) (part : Nat) : Mod :=
  (((m.fire part (m.rdf (bPAT part + 0x28) 15 0)).raise (bPAT part + 0x68) 2).inc (bPAT part + 0x80 + 8 * 7)).prtVector part

/-! ## Ways with AGE (R360) -/

/-- The way of a set that holds a key. -/
def findWay {α : Type} (t : Tab (Way α)) (base n key : Nat) : Option (Nat × Way α) :=
  (upto n).findSome? fun i => match Tab.get? t (base + i) with
    | some w => if w.key = key then some (base + i, w) else none
    | none => none
/-- The way to replace, and the set with its ages raised until one is 3 (R360). -/
def pickWay {α : Type} (t : Tab (Way α)) (base n : Nat) : Nat × Tab (Way α) :=
  match (upto n).find? fun i => (Tab.get? t (base + i)).isNone with
  | some i => (base + i, t)
  | none =>
    let age := fun i => match Tab.get? t (base + i) with | some w => w.age | none => 0
    let top := (upto n).foldl (fun a i => max a (age i)) 0
    let t1 := t.map fun p => if base ≤ p.1 ∧ p.1 < base + n then (p.1, { p.2 with age := p.2.age + (3 - top) }) else p
    (base + ((upto n).find? fun i => age i = top).getD 0, t1)
/-- Insert a key, answering what it replaced. -/
def insWay {α : Type} (t : Tab (Way α)) (base n key age : Nat) (v : α) : Tab (Way α) × Option (Way α) :=
  let r := pickWay t base n
  (Tab.put r.2 r.1 { key := key, age := age, val := v }, Tab.get? r.2 r.1)
/-- A hit sets AGE to 0. -/
def hitWay {α : Type} (t : Tab (Way α)) (base n key : Nat) : Tab (Way α) :=
  match findWay t base n key with
  | some (i, w) => Tab.put t i { w with age := 0 }
  | none => t

end Sys2Proof.Machine
end

