-- ==== Sys2Proof/Machine/CohOps.lean ====
section
/-! DEFINITION. Operations of the caches and the directory (R344 to R361): where a line lives, states, installs,
evictions, and whole transactions in one step for agents whose messages the model does not hold in flight (log 9). -/

namespace Sys2Proof.Machine

/-- First way of the L2 set of a line (R344): index pa[15:9], eight ways. -/
def l2Base (la : Nat) : Nat := (la / 4 % 128) * 8
/-- First way of the L1 data set of a line: index pa[13:7], four ways. -/
def l1dBase (la : Nat) : Nat := (la % 128) * 4
/-- First way of the L1 instruction set of a line: index pa[12:7], four ways. -/
def l1iBase (la : Nat) : Nat := (la % 64) * 4
/-- The home panel of a line (R347). -/
def Mod.homePanel (m : Mod) (la : Nat) : Nat := (m.place (la * 128)).spool / 6
/-- The home slice of a line within its panel (R347). -/
def sliceOf (la : Nat) : Nat := nxor (nxor (bitsN la 3 0) (bitsN la 13 10)) (nxor (bitsN la 23 20) (bitsN la 33 30))
/-- The set of a line within its slice (R347). -/
def setOf (la : Nat) : Nat := (nxor (la >>> 4) (la >>> 19)) % 3072
/-- First way of the panel-cache set of a line. -/
def Mod.pncBase (m : Mod) (la : Nat) : Nat := ((m.homePanel la * 16 + sliceOf la) * 3072 + setOf la) * 16
/-- Ways of the panel cache of a line's home that hold lines (R366). -/
def Mod.pncWays (m : Mod) (la : Nat) : Nat := 16 - m.ways (m.homePanel la)
/-- First way of the directory set of a line (R351). -/
def Mod.dirBase (m : Mod) (la : Nat) : Nat := ((m.homePanel la * 16 + sliceOf la) * 2048 + setOf la % 2048) * 16

/-- State of a line in an L2 (R349). -/
def CoreMem.state (k : CoreMem) (la : Nat) : Mesi :=
  match findWay k.l2 (l2Base la) 8 (la / 4) with
  | some (_, w) => Tab.get .i w.val.sub (la % 4)
  | none => .i
/-- The L2 copy of a line is poisoned (R364). -/
def CoreMem.poisoned (k : CoreMem) (la : Nat) : Bool :=
  match findWay k.l2 (l2Base la) 8 (la / 4) with
  | some (_, w) => Tab.get false w.val.poison (la % 4)
  | none => false
/-- Drop a line of L1 data. -/
def CoreMem.dropL1 (k : CoreMem) (la : Nat) : CoreMem :=
  match findWay k.l1d (l1dBase la) 4 la with
  | some (i, _) => { k with l1d := Tab.del k.l1d i }
  | none => k
/-- Change the state of a sub-block the L2 holds; a sub-block that becomes invalid takes its L1 data line along (R346),
and a line without a valid sub-block frees its way. -/
def CoreMem.setState (k : CoreMem) (la : Nat) (st : Mesi) : CoreMem :=
  match findWay k.l2 (l2Base la) 8 (la / 4) with
  | none => k
  | some (i, w) =>
    if st = .i then
      let sub := Tab.del w.val.sub (la % 4)
      let k1 := k.dropL1 la
      if sub.isEmpty then { k1 with l2 := Tab.del k1.l2 i }
      else { k1 with l2 := Tab.put k1.l2 i { w with val := { sub := sub, poison := Tab.del w.val.poison (la % 4) } } }
    else { k with l2 := Tab.put k.l2 i { w with val := { w.val with sub := Tab.put w.val.sub (la % 4) st } } }
/-- Offers of a replaced L2 line: one for each valid sub-block (R357). -/
def offersOf (w : Way L2Line) : List WbEntry :=
  w.val.sub.map fun p => { la := w.key * 4 + p.1, dirty := p.2 == .m, poison := Tab.get false w.val.poison p.1 }
/-- Install a granted sub-block at an age; the victim line's sub-blocks leave for the writeback buffer (R353, R357, R360). -/
def CoreMem.install (k : CoreMem) (la : Nat) (st : Mesi) (age : Nat) : CoreMem :=
  match findWay k.l2 (l2Base la) 8 (la / 4) with
  | some (i, w) => { k with l2 := Tab.put k.l2 i { w with age := if age = 2 then w.age else 0, val := { w.val with sub := Tab.put w.val.sub (la % 4) st } } }
  | none =>
    let r := insWay k.l2 (l2Base la) 8 (la / 4) age { sub := [(la % 4, st)] }
    match r.2 with
    | none => { k with l2 := r.1 }
    | some v =>
      let k1 : CoreMem := v.val.sub.foldl (fun k p => k.dropL1 (v.key * 4 + p.1)) { k with l2 := r.1 }
      { k1 with wb := k1.wb ++ offersOf v }
/-- Fill a line of L1 data after a load (R346: it is in L2). -/
def CoreMem.fillL1 (k : CoreMem) (la : Nat) : CoreMem :=
  if k.state la = .i then k
  else match findWay k.l1d (l1dBase la) 4 la with
    | some _ => { k with l1d := hitWay k.l1d (l1dBase la) 4 la }
    | none => { k with l1d := (insWay k.l1d (l1dBase la) 4 la 1 ()).1 }

/-- A message is for its line's home; otherwise for its agent. -/
def CKind.toHome : CKind → Bool
  | .gets | .getx | .upg | .putm | .putc | .rd | .wr | .ack | .ackd | .gack => true
  | _ => false
/-- The panel on which an agent lies (R347): of the agents that cache nothing, the shuttles and the pattern engines lie on panels. -/
def agentPanel (a : Nat) : Option Nat :=
  if a < 256 then some (panelOf a) else if a < 264 then some ((a - 256) / 2) else if 266 ≤ a ∧ a < 270 then some (a - 266) else none
/-- A transfer from one panel to another over their die-to-die link is counted where it is sent (R622; log 89). -/
def Mod.crosses (m : Mod) (src dst part : Option Nat) : Mod :=
  match src, dst with
  | some a, some b => if a = b then m else m.evPanel a 0x0B 1 part
  | _, _ => m
/-- A coherence message crosses between its agent's panel and the line's home. -/
def Mod.cohCrosses (m : Mod) (agent la : Nat) (toHome : Bool) : Mod :=
  let h := some (m.homePanel la)
  let g := m.grantOf (la * 128)
  if toHome then m.crosses (agentPanel agent) h g else m.crosses h (agentPanel agent) g
/-- Send a coherence message. -/
def Mod.csend (m : Mod) (x : CMsg) : Mod :=
  ({ m with coh := { m.coh with msgs := m.coh.msgs ++ [x] } } : Mod).cohCrosses x.agent x.la x.kind.toHome
/-- Change the caches of a core. -/
def Mod.updMem (m : Mod) (c : Nat) (f : CoreMem → CoreMem) : Mod := m.updCore c fun k => { k with mem := f k.mem }
/-- Send the offers of a core that its writeback buffer of 8 holds and that are not yet sent (R357). -/
def Mod.sendOffers (m : Mod) (c : Nat) : Mod :=
  let wb := (m.core c).mem.wb
  let m1 := ((wb.take 8).filter fun e => !e.sent).foldl
    (fun m e => m.csend { kind := if e.dirty then .putm else .putc, la := e.la, agent := c, dirty := e.dirty, poison := e.poison }) m
  m1.updMem c fun k => { k with wb := (k.wb.take 8).map (fun e => { e with sent := true }) ++ k.wb.drop 8 }

/-- The directory entry of a line; a line without one is in U (R350). -/
def Mod.dirAt (m : Mod) (la : Nat) : DirEntry :=
  match findWay m.coh.dir (m.dirBase la) 16 la with
  | some (_, w) => w.val
  | none => {}
/-- Store a line's directory entry where it has a way; an idle entry in U frees its way. -/
def Mod.setDir (m : Mod) (la : Nat) (e : DirEntry) : Mod :=
  match findWay m.coh.dir (m.dirBase la) 16 la with
  | some (i, w) =>
    if e.st = .u ∧ e.txn = none then { m with coh := { m.coh with dir := Tab.del m.coh.dir i } }
    else { m with coh := { m.coh with dir := Tab.put m.coh.dir i { w with age := 0, val := e } } }
  | none =>
    if e.st = .u ∧ e.txn = none then m
    else { m with coh := { m.coh with dir := (insWay m.coh.dir (m.dirBase la) 16 la 1 e).1 } }
/-- The line is in B (R350). -/
def Mod.busy (m : Mod) (la : Nat) : Bool := (m.dirAt la).txn.isSome

/-- The cores that a sharer record stands for (R350). -/
def Sharers.cores (s : Sharers) : List Nat :=
  if s.vec then (upto 256).filter fun c => s.groups.testBit (c / 8) else s.ptrs
/-- Add a sharer: a fifth turns the record into a vector of groups (R350). -/
def Sharers.add (s : Sharers) (c : Nat) : Sharers :=
  if s.vec then { s with groups := s.groups ||| (1 <<< (c / 8)) }
  else if s.ptrs.contains c then s
  else if s.ptrs.length < 4 then { s with ptrs := s.ptrs ++ [c] }
  else { vec := true, groups := (s.ptrs ++ [c]).foldl (fun g k => g ||| (1 <<< (k / 8))) 0, ptrs := [] }
/-- Remove a sharer where the record names it alone; a group bit stays, since other cores of the group may share. -/
def Sharers.del (s : Sharers) (c : Nat) : Sharers := if s.vec then s else { s with ptrs := s.ptrs.filter (· != c) }
/-- The holders of a line that its directory entry records. -/
def DirSt.holders : DirSt → List Nat
  | .u => []
  | .s sh => sh.cores
  | .x o => [o]

/-- The panel cache holds a line. -/
def Mod.pncHas (m : Mod) (la : Nat) : Bool := (findWay m.coh.pnc (m.pncBase la) (m.pncWays la) la).isSome
/-- A request waits at its spool for admission (R394, R395). An access to a fenced spool is only counted (R385). -/
def Mod.askRange (m : Mod) (pa : Nat) (write partialW : Bool) (k : Nat) : Mod :=
  let s := (m.place pa).spool
  if m.spl.fenced.contains s then m.inc (bSPL s + 0x40 + 8 * 4)
  else
    let r : SpoolReq := { spool := s, pa := pa, write := write, partialW := partialW, cost := k, left := k, bucket := (m.grantOf pa).getD 17 }
    { m with spl := { m.spl with waiting := m.spl.waiting ++ [r] } }
/-- Ask a spool for the read or the write of a line: two bursts. -/
def Mod.askSpool (m : Mod) (la : Nat) (write : Bool) : Mod := m.askRange (la * 128) write false 2
/-- Ask a spool for a non-caching write of the bytes from `lo` up to `hi` of a line: both bursts, one whole burst, or parts (R390,
R395). -/
def Mod.askWrite (m : Mod) (la lo hi : Nat) : Mod :=
  if lo = 0 ∧ hi = 128 then m.askSpool la true
  else
    (upto 2).foldl (fun (m : Mod) b =>
      let a := max lo (64 * b)
      let e := min hi (64 * b + 64)
      if e ≤ a then m else if e - a = 64 then m.askRange (la * 128 + 64 * b) true false 1 else m.askRange (la * 128 + 64 * b) true true 2) m
/-- Put a line into its panel cache at an age; a dirty victim is written to its spool, a clean one is dropped (R359). -/
def Mod.pncPut (m : Mod) (la age : Nat) (dirty : Bool) : Mod :=
  let b := m.pncBase la
  let n := m.pncWays la
  match findWay m.coh.pnc b n la with
  | some (i, w) => { m with coh := { m.coh with pnc := Tab.put m.coh.pnc i { w with age := 0, val := { w.val with dirty := w.val.dirty || dirty } } } }
  | none =>
    let r := insWay m.coh.pnc b n la age ({ dirty := dirty } : PncLine)
    let m1 : Mod := { m with coh := { m.coh with pnc := r.1 } }
    match r.2 with
    | some v => if v.val.dirty then (m1.inc (bPNC (m.homePanel la) + 0x40 + 8 * 7)).askSpool v.key true else m1
    | none => m1
/-- Put an accepted offer into the panel cache at age 1, the line it holds too (R358, R360). -/
def Mod.pncOffer (m : Mod) (la : Nat) (dirty : Bool) : Mod :=
  let m1 := m.pncPut la 1 dirty
  match findWay m1.coh.pnc (m1.pncBase la) (m1.pncWays la) la with
  | some (i, w) => { m1 with coh := { m1.coh with pnc := Tab.put m1.coh.pnc i { w with age := 1 } } }
  | none => m1
/-- Drop a line from its panel cache. -/
def Mod.pncDrop (m : Mod) (la : Nat) : Mod :=
  match findWay m.coh.pnc (m.pncBase la) (m.pncWays la) la with
  | some (i, _) => { m with coh := { m.coh with pnc := Tab.del m.coh.pnc i } }
  | none => m
/-- A look-up of the panel cache: a hit sets AGE 0, and hits and misses are counted (R360, R622). -/
def Mod.pncLook (m : Mod) (la : Nat) : Mod :=
  let p := m.homePanel la
  let g := m.grantOf (la * 128)
  if m.pncHas la then
    { m with coh := { m.coh with pnc := hitWay m.coh.pnc (m.pncBase la) (m.pncWays la) la } }.evPanel p 0x04 1 g
  else m.evPanel p 0x05 1 g

/-! ## Errors of caches (R364, R365, R370) -/

/-- The panel of a line: its home's, or that of its scratch. -/
def Mod.linePanel (m : Mod) (la : Nat) : Nat := if scratchBase ≤ la * 128 then (la * 128 - scratchBase) / 0x4000000 % 4 else m.homePanel la
/-- A line is poisoned, and recorded as its panel's last (R365). -/
def Mod.poisonLine (m : Mod) (la : Nat) : Mod := (m.setPoison la true).wr (bPNC (m.linePanel la) + 0x18) (w64 (la * 128))
/-- Outcome of an access to a line: 0 sound, 1 a corrected bit, 2 uncorrectable data, 3 an address-tag parity error. -/
abbrev ErrCode := Fin 4
/-- A core's cache error: the bit of L2C_ERR and its count. -/
def Mod.l2cFlag (m : Mod) (c b : Nat) : Mod := (m.raise (bL2C c + 0x08) b).inc (bL2C c + 0x40 + 8 * b)
/-- A panel cache's error: the bit of PNC_ERR and its count. -/
def Mod.pncFlag (m : Mod) (p b : Nat) : Mod := (m.raise (bPNC p + 0x10) b).inc (bPNC p + 0x40 + 8 * b)
/-- The error of an access to an L2: a clean line is invalidated, to be fetched again; an M line is poisoned; a way whose tag failed is
invalidated, and what it held in M is lost. -/
def Mod.l2Error (m : Mod) (c la : Nat) (e : ErrCode) : Mod :=
  let k := (m.core c).mem
  if e.val = 0 ∨ k.state la = .i then m
  else if e.val = 1 then m.l2cFlag c 0
  else if e.val = 2 then
    if k.state la = .m then (m.l2cFlag c 1).poisonLine la else (m.l2cFlag c 0).updMem c fun q => q.setState la .i
  else
    let way := findWay k.l2 (l2Base la) 8 (la / 4)
    match way with
    | none => m
    | some (i, w) =>
      let lost := (w.val.sub.filter fun p => p.2 == .m).map fun p => 4 * w.key + p.1
      let m1 := m.updMem c fun k =>
        let k1 : CoreMem := w.val.sub.foldl (fun k p => k.dropL1 (4 * w.key + p.1)) k
        { k1 with l2 := Tab.del k1.l2 i, lostM := k1.lostM ++ lost }
      m1.l2cFlag c 2
/-- The error of an access to a line of L1 data, whose copy is always clean: corrected, or the line is invalidated and fetched again. -/
def Mod.l1dError (m : Mod) (c la : Nat) (e : ErrCode) : Mod :=
  if e.val = 0 ∨ (findWay (m.core c).mem.l1d (l1dBase la) 4 la).isNone then m
  else if e.val = 1 then m.l2cFlag c 0
  else (m.updMem c fun k => k.dropL1 la).l2cFlag c (if e.val = 2 then 0 else 2)
/-- A parity error of a line of L1 instruction: the line is invalidated and fetched again. -/
def Mod.l1iError (m : Mod) (c la : Nat) (e : ErrCode) : Mod :=
  match findWay (m.core c).mem.l1i (l1iBase la) 4 la with
  | none => m
  | some (i, _) => if e.val = 0 then m else (m.updMem c fun k => { k with l1i := Tab.del k.l1i i }).l2cFlag c (if e.val = 3 then 2 else 0)
/-- The error of an access to a panel-cache line. What a dirty way lost is not known: free values (log 6). -/
def Mod.pncError (m : Mod) (la : Nat) (e : ErrCode) : Mod :=
  let p := m.homePanel la
  match findWay m.coh.pnc (m.pncBase la) (m.pncWays la) la with
  | none => m
  | some (_, w) =>
    match e.val with
    | 0 => m
    | 1 => m.pncFlag p 0
    | 2 => if w.val.dirty then (m.pncFlag p 1).poisonLine la else (m.pncDrop la).pncFlag p 0
    | _ =>
      let m1 := (m.pncDrop la).pncFlag p 2
      if w.val.dirty ∧ (m.dirAt la).st.holders.isEmpty then
        let r := m1.freeBytes 128
        { r.2 with mem := Memory.setBytes r.2.mem (la * 128) r.1 }
      else m1
/-- The error of an access to a line of scratch: corrected, or the line is poisoned (R364, R370). Scratch has no address tag in use. -/
def Mod.scratchError (m : Mod) (la : Nat) (e : ErrCode) : Mod :=
  match e.val with
  | 1 => m.pncFlag (m.linePanel la) 0
  | 2 => (m.pncFlag (m.linePanel la) 1).poisonLine la
  | _ => m
/-- An access meets the errors that struck its line in one array. -/
def Mod.meetErr (m : Mod) (array c la : Nat) : Mod :=
  let mine (u : Upset) : Bool := u.array.val == array && (u.core.val == c || decide (3 ≤ array)) && u.la.toNat == la
  if m.coh.upsets.any mine then
    (m.coh.upsets.filter mine).foldl (fun m u => match array with
        | 0 => m.l1iError c la u.kind
        | 1 => m.l1dError c la u.kind
        | 2 => m.l2Error c la u.kind
        | 3 => m.pncError la u.kind
        | _ => m.scratchError la u.kind)
      { m with coh := { m.coh with upsets := m.coh.upsets.filter fun u => !mine u } }
  else m
/-- A load of core `c` meets the errors of the arrays that supply its line: scratch; or L1 data and, where that has no copy, L2. -/
def Mod.meetLoad (m : Mod) (c pa : Nat) : Mod :=
  if m.isScratch pa then m.meetErr 4 c (pa / 128)
  else
    let m1 := m.meetErr 1 c (pa / 128)
    if (findWay (m1.core c).mem.l1d (l1dBase (pa / 128)) 4 (pa / 128)).isSome then m1 else m1.meetErr 2 c (pa / 128)
/-- Errors strike arrays; the accesses that follow meet them (R364). -/
def Mod.strike (m : Mod) (us : List Upset) : Mod := { m with coh := { m.coh with upsets := m.coh.upsets ++ us } }

/-! ## Whole transactions -/

/-- A line that an L2 held in M was lost to a tag-parity error: what it supplies is marked poisoned (R364). -/
def Mod.lostLine (m : Mod) (c la : Nat) : Mod :=
  if (m.core c).mem.lostM.contains la then (m.updMem c fun k => { k with lostM := k.lostM.filter (· != la) }).poisonLine la else m
/-- An offer of a dirty line stands in a core's writeback buffer. -/
def CoreMem.wbDirty (k : CoreMem) (la : Nat) : Bool := k.wb.any fun w => w.la == la && w.dirty
/-- A copy leaves an L2 because its home takes it back; dirty data go to the panel cache (R352, R354). -/
def Mod.takeBack (m : Mod) (c la : Nat) : Mod :=
  let k := (m.core c).mem
  let m1 := (m.lostLine c la).updMem c fun k => k.setState la .i
  if k.state la = .m ∨ (k.state la = .i ∧ k.wbDirty la) then m1.pncPut la 1 true else m1
/-- Every copy of a line that its entry records is invalidated and the entry passes through U (R352, WR); nothing while the
entry is in B (log 9). -/
def Mod.dropCopies (m : Mod) (la : Nat) : Mod :=
  if m.busy la then m
  else ((m.dirAt la).st.holders.foldl (fun m c => m.takeBack c la) m).setDir la {}

/-- Make room for a new directory entry: a full set recalls its victim from every holder (R351). `none` while the victim
is in B. -/
def Mod.dirRoom (m : Mod) (la : Nat) : Option Mod :=
  match findWay m.coh.dir (m.dirBase la) 16 la with
  | some _ => some m
  | none =>
    let r := pickWay m.coh.dir (m.dirBase la) 16
    match Tab.get? r.2 r.1 with
    | none => some m
    | some v =>
      if v.val.txn.isSome then none
      else
        let m1 : Mod := { m with coh := { m.coh with dir := r.2 } }
        let p := m.homePanel la
        some (((m1.dropCopies v.key).inc (bPNC p + 0x40 + 8 * 6)).evPanel p 0x07 1 (m.grantOf (v.key * 128)))

/-- A whole read or ownership transaction of core `c` in one step (R352, R353): the L2 then holds the line, in M when
`excl`. `none` while the line or its directory victim is in B, while a request of the L2 for the line is outstanding, into which this one merges, or 16
requests are (R355), and while the home's panel stands still (R79). -/
def Mod.acquire (m : Mod) (c la : Nat) (excl : Bool) : Option Mod :=
  let m := m.meetErr 2 c la
  match (m.core c).mem.state la with
  | .m => some (m.updMem c fun k => (k.install la .m 1))
  | .e => some (m.updMem c fun k => (k.install la (if excl then .m else .e) 1))
  | st =>
    if st = .s ∧ !excl then some (m.updMem c fun k => (k.install la .s 1))
    else if m.busy la ∨ m.pwr.dead.contains (m.homePanel la) ∨ ((m.core c).mem.misses.any fun x => x.la == la) ∨ 16 ≤ (m.core c).mem.misses.length then none
    else
      let m := ((m.evCore c 0x05 1).cohCrosses c la true).cohCrosses c la false
      (m.dirRoom la).map fun m1 =>
        let m2 := m1.pncLook la
        let fill (m : Mod) : Mod := if m.pncHas la then m else (m.askSpool la false).pncPut la 1 false
        let inst (m : Mod) (ms : Mesi) (d : DirSt) : Mod :=
          ((m.setDir la { st := d }).updMem c fun k => k.install la ms 1).sendOffers c
        let has (o : Nat) : Bool := (m2.core o).mem.state la != .i
        let gives (o : Nat) : Bool := has o || (m2.core o).mem.lostM.contains la || ((m2.core o).mem.wb.any fun w => w.la == la)
        if excl then
          let m3 := match (m2.dirAt la).st with
            | .u => fill m2
            | .s sh => (sh.cores.filter (· != c)).foldl (fun m o => m.updMem o fun k => k.setState la .i) (if st = .s then m2 else fill m2)
            | .x o => (if gives o then m2.lostLine o la else fill m2).updMem o fun k => k.setState la .i
          inst m3 .m (.x c)
        else match (m2.dirAt la).st with
          | .u => inst (fill m2) .e (.x c)
          | .s sh => inst (fill m2) .s (.s (sh.add c))
          | .x o =>
            let d := decide ((m2.core o).mem.state la = .m) || (!has o && (m2.core o).mem.wbDirty la)
            let m3 := (m2.lostLine o la).updMem o fun k => if k.state la = .i then k else k.setState la .s
            let m4 := if d then m3.pncPut la 1 true else if gives o then m3 else fill m3
            inst m4 .s (.s ((if has o then ({} : Sharers).add o else {}).add c))

/-- The lines that a range of local addresses touches. -/
def linesOf (pa n : Nat) : List Nat := if n = 0 then [] else (upto ((pa + n - 1) / 128 - pa / 128 + 1)).map (pa / 128 + ·)
/-- A non-caching read by an agent other than an L2 (R348, R352, RD): the bytes; an owner's M copy becomes E and its data
go to the panel cache. A line that the panel cache lacks fills it at an age (R360, R361). -/
def Mod.ncRead (m : Mod) (pa n : Nat) (age : Nat := 1) : List Byte × Mod :=
  (m.rdMem pa n,
   if m.isSpool pa then
     (linesOf pa n).foldl (fun m la =>
       let m0 := (m.meetErr 3 0 la).pncLook la
       let m1 := if m0.busy la then m0
         else match (m0.dirAt la).st with
           | .x o =>
             let mo := m0.lostLine o la
             match (mo.core o).mem.state la with
             | .m => (mo.updMem o fun k => k.setState la .e).pncPut la 1 true
             | .i => (if (mo.core o).mem.wbDirty la then mo.pncPut la 1 true else mo).setDir la {}
             | _ => mo
           | _ => m0
       let lo := max pa (la * 128)
       if m1.pncHas la then m1
       else if lo % 64 = 0 ∧ min (pa + n) (la * 128 + 128) = lo + 64 then m1.askRange lo false false 1
       else (m1.askSpool la false).pncPut la age false) m
   else (linesOf pa n).foldl (fun m la => if m.isScratch (la * 128) then m.meetErr 4 0 la else m) m)
/-- A non-caching write (R348, R352, WR): every cached copy is invalidated, then the bytes are written and the tags of
the granules they touch are cleared. `alloc` allocates a way of the panel cache at age 1 (R361). -/
def Mod.ncWrite (m : Mod) (pa : Nat) (bs : List Byte) (alloc : Bool := true) : Mod :=
  if m.isSpool pa then
    let m1 := (linesOf pa bs.length).foldl (fun m la =>
      let m0 := m.dropCopies la
      if m0.lineFenced (la * 128) then m0
      else if m0.pncHas la || alloc then m0.pncPut la 1 true
      else m0.askWrite la (max pa (la * 128) - la * 128) (min (pa + bs.length) (la * 128 + 128) - la * 128)) m
    m1.wrMem pa bs
  else m.wrMem pa bs

/-- A non-caching agent reads and writes lines in one step: the fitter's atomic access. -/
def Mod.ncTake (m : Mod) (pa n : Nat) : Mod :=
  (linesOf pa n).foldl (fun (m : Mod) la => (m.dropCopies la).pncPut la 1 true) (m.ncRead pa n).2
/-- Acquire every spool line of a range; scratch is not cached (R345, R370). The fitter has no caches: it reads and writes as a non-caching agent
(R347, log 14). -/
def Mod.acquireAll (m : Mod) (c pa n : Nat) (excl : Bool) : Option Mod :=
  if !m.isSpool pa then some m
  else if c = 256 then some (if excl then m.ncTake pa n else (m.ncRead pa n).2)
  else (linesOf pa n).foldlM (fun m la => m.acquire c la excl) m

/-! ## Requests of an L2 (R353, R355) -/

/-- The L2 of core `c` asks for a line: a request outstanding for the line takes this one in; with 16 misses outstanding it
waits. -/
def Mod.l2Ask (m : Mod) (c la : Nat) (excl : Bool) : Mod :=
  let k := (m.core c).mem
  if k.misses.any fun x => x.la == la then
    m.updMem c fun k => { k with misses := k.misses.map fun x => if x.la = la then { x with prefetch := false } else x }
  else if 16 ≤ k.misses.length then m
  else
    let req := if !excl then 0 else if k.state la = .s then 2 else 1
    let m1 := m.updMem c fun k => { k with misses := k.misses ++ [{ la := la, req := req }] }
    (m1.csend { kind := match req with | 0 => .gets | 1 => .getx | _ => .upg, la := la, agent := c }).evCore c 0x05 1
/-- A prefetch of a line (R362, R363). -/
def Mod.l2Prefetch (m : Mod) (c la : Nat) : Mod :=
  let k := (m.core c).mem
  if k.state la ≠ .i ∨ (k.misses.any fun x => x.la == la) ∨ 16 ≤ k.misses.length then m
  else
    let m1 := m.updMem c fun k => { k with misses := k.misses ++ [{ la := la, prefetch := true }] }
    (m1.csend { kind := .gets, la := la, agent := c, prefetch := true }).inc (bL2C c + 0x40 + 8 * 7)
/-- The stride table of an L2 at an access at `pa` by the instruction at `pc` (R362). A confirmed stride stays until two successive equal ones
confirm another (log 86). -/
def Mod.stride (m : Mod) (c pc pa : Nat) : Mod :=
  let pf := m.rd (bL2C c)
  if fld pf 0 0 = 0 ∨ !m.isSpool pa then m
  else
    let depth := fld pf 8 4
    let line := pa / 128
    let k := (m.core c).mem
    match k.streams.find? fun s => s.pc == pc / 4 with
    | none => m.updMem c fun k => { k with streams := ({ pc := pc / 4, line := line } : Stream) :: k.streams.take 15 }
    | some s =>
      let d : Int := (line : Int) - (s.line : Int)
      let conf := if d = s.stride ∧ 1 ≤ d.natAbs ∧ d.natAbs ≤ 64 then some d else s.conf
      let want := match conf with
        | some q =>
          (upto (if depth ≤ 16 then depth else 0)).filterMap fun j =>
            let t := (line : Int) + q * ((j : Int) + 1)
            if 0 ≤ t ∧ t.toNat / 512 = line / 512 ∧ !s.asked.contains t.toNat then some t.toNat else none
        | none => []
      let s1 : Stream := { s with line := line, stride := d, conf := conf, asked := want ++ s.asked }
      let m1 := m.updMem c fun k => { k with streams := s1 :: k.streams.filter (·.pc != s.pc) }
      want.foldl (fun m la => m.l2Prefetch c la) m1

end Sys2Proof.Machine
end

