-- ==== Sys2Proof/Machine/LinkOps.lean ====
section
/-! DEFINITION. Operations of the links: coordinates, routing and datelines (R439, R457, R458), sending a message of a local
unit (R632, R450), remote requests and their tags (R454, R467). -/

namespace Sys2Proof.Machine

/-! ## Registers (R436, R446) -/

/-- Base of port `k`. -/
def bPort (k : Nat) : Nat := bLNK + 0x1000 * (k + 1)
/-- Base of link `l`. -/
def bLink (l : Nat) : Nat := bPort (l / 6) + 0x100 + 0x40 * (l % 6)
/-- STATE of a link. -/
def Mod.linkState (m : Mod) (l : Nat) : Nat := m.rdf (bLink l) 3 0
/-- Link `l`. -/
def Mod.link (m : Mod) (l : Nat) : Link := Tab.get {} m.lnk.links l
/-- Change a link. -/
def Mod.updLink (m : Mod) (l : Nat) (f : Link → Link) : Mod :=
  { m with lnk := { m.lnk with links := Tab.put m.lnk.links l (f (m.link l)) } }
/-- LNK_TOPO.MODE. -/
def Mod.topo (m : Mod) : Nat := m.rdf (bLNK + 0x008) 1 0
/-- The module's own device ID. -/
def Mod.dev (m : Mod) : Nat := m.rdf bLNK 17 0
/-- Dimensions of the topology (R439). -/
def Mod.dims (m : Mod) : Nat := if m.topo = 1 then 3 else if m.topo = 2 then 6 else 0
/-- Size of a dimension. -/
def Mod.sizeOf (m : Mod) (d : Nat) : Nat := m.rdf (bLNK + 0x008) (6 * d + 11) (6 * d + 6) + 1
/-- A coordinate of a device ID (R439). -/
def Mod.coord (m : Mod) (id d : Nat) : Nat := if m.topo = 2 then bitsN id (3 * d + 2) (3 * d) else bitsN id (6 * d + 5) (6 * d)
/-- Every coordinate of a device ID lies inside the sizes (R459). -/
def Mod.devOk (m : Mod) (id : Nat) : Bool :=
  ((upto m.dims).all fun d => decide (m.coord id d < m.sizeOf d))
/-- The group of a dimension and direction, as 2 × port + half (R439). -/
def Mod.groupOf (m : Mod) (d : Nat) (plus : Bool) : Nat :=
  if m.topo = 2 then 2 * d + (if plus then 0 else 1) else 2 * (2 * d + (if plus then 0 else 1))
/-- The links of a group (R436). -/
def Mod.groupLinks (m : Mod) (g : Nat) : List Nat :=
  if m.topo = 2 then (upto 3).map (6 * (g / 2) + 3 * (g % 2) + ·) else (upto 6).map (6 * (g / 2) + ·)
/-- The group of a link. -/
def Mod.groupOfLink (m : Mod) (l : Nat) : Nat := if m.topo = 2 then 2 * (l / 6) + l % 6 / 3 else 2 * (l / 6)
/-- The dimension that a group leads along. -/
def Mod.dimOf (m : Mod) (g : Nat) : Nat := if m.topo = 2 then g / 2 else g / 2 / 2
/-- The group leads in the + direction. -/
def Mod.plusOf (m : Mod) (g : Nat) : Bool := if m.topo = 2 then g % 2 == 0 else g / 2 % 2 == 0
/-- The links of a group that are UP. -/
def Mod.upLinks (m : Mod) (g : Nat) : List Nat := (m.groupLinks g).filter fun l => m.linkState l == 6
/-- The neighbour of a group (R440). -/
def Mod.neighbour (m : Mod) (g : Nat) : Nat :=
  let d := m.dimOf g
  let n := m.sizeOf d
  let c := m.coord m.dev d
  let c' := if m.plusOf g then (c + 1) % n else (c + n - 1) % n
  let w := if m.topo = 2 then 3 else 6
  m.dev - c * 2 ^ (w * d) + c' * 2 ^ (w * d)

/-! ## Routing (R457, R458) -/

/-- The group and dateline class of a message: `came` is the dimension and class it arrived with. -/
def Mod.route (m : Mod) (dest : Nat) (came : Option (Nat × Nat)) : Option (Nat × Nat) :=
  match (upto m.dims).find? fun d => m.coord dest d != m.coord m.dev d with
  | none => none
  | some d =>
    let n := m.sizeOf d
    let c := m.coord m.dev d
    let δ := (m.coord dest d + n - c) % n
    let plus := decide (2 * δ ≤ n)
    let before := match came with | some (d', dl) => if d' = d then dl else 0 | none => 0
    let line := if plus then decide (c = n - 1) else decide (c = 0)
    some (m.groupOf d plus, if line then 1 else before)

/-- Put a message into the group's queue. -/
def Mod.enqueue (m : Mod) (g : Nat) (x : OutMsg) : Mod :=
  { m with lnk := { m.lnk with groups := Tab.upd [] m.lnk.groups g (· ++ [x]) } }
/-- A message arrives at its consumer (R451). -/
def Mod.arrive (m : Mod) (x : InMsg) : Mod := { m with lnk := { m.lnk with arrived := m.lnk.arrived ++ [x] } }
/-- A message leaves its receive buffer: its credits are owed to the sender (R451, R452). -/
def Mod.freeMsg (m : Mod) (x : InMsg) : Mod :=
  match x.link with
  | some l => if x.flits = 0 then m else m.updLink l fun k => { k with occ := Tab.upd 0 k.occ x.cls (· - x.flits), owed := Tab.upd 0 k.owed x.cls (· + x.flits) }
  | none => m
/-- Take the first message of a virtual channel with these bytes from those that have arrived; its buffer space is still held.
A message that no flit brought is one that the command itself brings (log 2). -/
def Mod.takeMsg (m : Mod) (vc : Nat) (data : List Byte) : Option InMsg × Mod :=
  match firstIx (fun x => x.msg.vc == vc && x.msg.data == data) m.lnk.arrived with
  | some i => (m.lnk.arrived[i]?, { m with lnk := { m.lnk with arrived := dropAt m.lnk.arrived i } })
  | none => (none, m)
/-- The same, freeing its buffer space. -/
def Mod.consume (m : Mod) (vc : Nat) (data : List Byte) : Mod :=
  match m.takeMsg vc data with
  | (some x, m1) => m1.freeMsg x
  | (none, m1) => m1
/-- Count at LNK_PCNTi of a link's port. -/
def Mod.pcnt (m : Mod) (l i n : Nat) : Mod := m.incBy (bPort (l / 6) + 0x40 + 8 * i) n
/-- A message that breaks its format is dropped and counted at its link's port, or at the module where none brought it (R463, log 27). -/
def Mod.formatDrop (m : Mod) (x : Option InMsg) : Mod :=
  match x.bind (·.link) with
  | some l => m.pcnt l 5 1
  | none => m.inc (bLNK + 0x080)
/-- Further bytes of a message that is passed on as it comes, on a link and in a class (R447, R638): they follow at its egress link, where its flit is
held, and at PASS entries. -/
def Mod.cutMore (m : Mod) (l cls : Nat) (bs : List Byte) (last : Bool) : Mod :=
  let cut : Option (Nat × Nat) := if last then none else some (l, cls)
  let out (x : OutMsg) : OutMsg :=
    if x.cut = some (l, cls) then
      { x with msg := { x.msg with data := x.msg.data ++ bs }, more := !last, cut := cut, held := x.held.map fun h => { h with flits := h.flits + 1 } }
    else x
  let sem (x : SemIn) : SemIn := if x.cut = some (l, cls) then { x with data := x.data ++ bs, more := !last, cut := cut } else x
  { m with lnk := { m.lnk with groups := Tab.mapV m.lnk.groups fun _ q => q.map out }
           sem := { m.sem with entries := Tab.mapV m.sem.entries fun _ e => { e with passing := e.passing.map sem, passed := e.passed.map sem } } }
/-- A message that is passed on as it comes is discarded: its outgoing copies end without their last flits, and what they held is freed (R449, R638). -/
def Mod.cutDrop (m : Mod) (l cls : Nat) : Mod :=
  let hit (c : Option (Nat × Nat)) : Bool := c == some (l, cls)
  let held := (m.lnk.groups.flatMap fun g => (g.2.filter fun x => hit x.cut).filterMap (·.held)) ++
    (m.sem.entries.flatMap fun e => ((e.2.passing ++ e.2.passed).filter fun x => hit x.cut).filterMap (·.inMsg))
  let m1 : Mod := { m with
    lnk := { m.lnk with groups := Tab.mapV m.lnk.groups fun _ q => q.filter fun x => !hit x.cut }
    sem := { m.sem with entries := Tab.mapV m.sem.entries fun _ e =>
      { e with passing := e.passing.filter fun x => !hit x.cut, passed := e.passed.filter fun x => !hit x.cut } } }
  held.foldl Mod.freeMsg m1
/-- A response header (R467). -/
def respHdr (tag status : Nat) (poison : Bool) : List Byte := toLe 4 tag ++ toLe 4 (status + 2 ^ 8 * b2n poison) ++ toLe 8 0
/-- The answer UNREACH to a request's source (R450, R632). -/
def unreach (x : Msg) : Msg :=
  { dest := x.src, src := x.dest, vc := 4, data := respHdr (ofLe (x.data.take 4) % 2 ^ 24) 0x07 false }
/-- Send a message on from this module: to its consumer, to its group, or dropped where the group has no UP link (R450,
R457); a dropped request is answered UNREACH where a route to its source exists. -/
def Mod.forwardMsg (m : Mod) (x : Msg) (came : Option (Nat × Nat)) : Mod :=
  if x.dest = m.dev then m.arrive { msg := x }
  else match m.route x.dest came with
    | none => m
    | some (g, dl) =>
      if (m.upLinks g).isEmpty then
        let m1 := m.inc (bPort (g / 2) + 0x40 + 8 * 5)
        if x.vc = 3 ∨ x.vc = 5 then
          let r := unreach x
          if r.dest = m.dev then m1.arrive { msg := r }
          else match m1.route r.dest none with
            | some (g', dl') => if (m1.upLinks g').isEmpty then m1.inc (bPort (g' / 2) + 0x40 + 8 * 5) else m1.enqueue g' { msg := r, dl := dl' }
            | none => m1
        else m1
      else m.enqueue g { msg := x, dl := dl }
/-- Send a message of a local unit (R632). -/
def Mod.sendMsg (m : Mod) (x : Msg) : Mod :=
  if (m.topo = 0 ∧ x.dest ≠ m.dev) ∨ !m.devOk x.dest then
    let m1 := m.inc (bLNK + 0x080)
    if x.vc = 3 ∨ x.vc = 5 then m1.arrive { msg := unreach x } else m1
  else m.forwardMsg x none

/-! ## Remote requests (R454, R467) -/

/-- A request header. -/
def reqHdr (op rtype tag win off len : Nat) : List Byte :=
  toLe 4 (op % 16 * 2 ^ 28 + rtype % 16 * 2 ^ 24 + tag % 2 ^ 24) ++ toLe 4 (win % 2 ^ 12) ++ toLe 8 (off % 2 ^ 34) ++ toLe 4 (len % 2 ^ 13) ++ toLe 12 0
/-- Send a remote request and hold its tag: vc3 for cores, vc5 for shuttles (R424, R454). -/
def Mod.remoteSend (m : Mod) (r : RemReq) (vc op rtype dev win off : Nat) (data : List Byte) : Nat × Mod :=
  let tag := m.nextId % 2 ^ 24
  let m1 := { m with nextId := m.nextId + 1, lnk := { m.lnk with remotes := Tab.put m.lnk.remotes tag r } }
  (tag, m1.sendMsg { dest := dev, src := m.dev, vc := vc, data := reqHdr op rtype tag win off r.len ++ data })
/-- Core `c` has a posted remote write or add without its response (R468). -/
def Mod.postedOut (m : Mod) (c : Nat) : Bool := m.lnk.remotes.any fun p => p.2.core == c && p.2.unit == .posted

/-! ## The window table (R464 to R466) -/

/-- The window table of a partition, in use: its first address. -/
def Mod.wtab (m : Mod) (p : Nat) : Option Nat :=
  let w := m.rd (bPRT p + 0x3100)
  if bit w 63 then some (fld w 45 13 * 2 ^ 13) else none
/-- A range meets a partition's window table. -/
def Mod.inWtab (m : Mod) (p pa n : Nat) : Bool :=
  match m.wtab p with
  | some b => decide (pa < b + 0x2000) && decide (b < pa + n)
  | none => false

end Sys2Proof.Machine
end

