-- ==== Sys2Proof/Machine/PatOps.lean ====
section
/-! DEFINITION. Operations of the pattern engines that other units use: patterns in flight, records and state words (R302 to R305,
R323), ready pools (R324), pieces that fail (R327), seats (R328 to R331), undefined memory (R16). -/

namespace Sys2Proof.Machine

/-! ## Undefined bytes (R16) -/

/-- Local bytes that a rule calls undefined: each becomes a fresh free byte (log 6). -/
def Mod.scramble (m : Mod) (pa n : Nat) : Mod :=
  let r := m.freeBytes n
  r.2.ncWrite pa r.1

/-! ## Engines (R300, R590) -/

/-- The panel of a partition's lead engine (R300). -/
def Mod.leadPanel (m : Mod) (p : Nat) : Nat := (m.part p).cores.foldl (fun a c => min a (panelOf c)) 3
/-- A partition has a lead engine, and it works. -/
def Mod.leadUp (m : Mod) (p : Nat) : Bool := !(m.part p).cores.isEmpty && m.panelUp (m.leadPanel p)
/-- A source has a delivery that is held, and waits with it (R331). -/
def Mod.heldBack (m : Mod) (src : FireSrc) : Bool := src != .unit && m.pat.held.any fun h => h.src == src

/-! ## Patterns in flight -/

/-- Key of slot `s` of partition `p`. -/
def slotKey (p s : Nat) : Nat := 64 * p + s
/-- The pattern in flight in a slot. -/
def Mod.pat? (m : Mod) (p s : Nat) : Option PatSlot := Tab.get? m.pat.slots (slotKey p s)
/-- Change a pattern in flight. -/
def Mod.updPat (m : Mod) (p s : Nat) (f : PatSlot → PatSlot) : Mod :=
  match m.pat? p s with
  | some x => { m with pat := { m.pat with slots := Tab.put m.pat.slots (slotKey p s) (f x) } }
  | none => m
/-- Patterns in flight of a partition (PAT_STAT.INFLIGHT). -/
def Mod.inflight (m : Mod) (p : Nat) : Nat := (m.pat.slots.filter fun e => e.1 / 64 == p).length
/-- Count at PAT_CNTi. -/
def Mod.patCnt (m : Mod) (p i n : Nat) : Mod := m.incBy (bPAT p + 0x80 + 8 * i) n
/-- Size of a piece record. -/
def PatSlot.recSize (x : PatSlot) : Nat := if x.fmt = 2 then 64 else 32
/-- A field of 4 bytes of piece `i`'s record. -/
def Mod.recf (m : Mod) (x : PatSlot) (i off hi lo : Nat) : Nat := bitsN (m.rdLe (x.recBase + x.recSize * i + off) 4) hi lo
/-- PRIO of a piece. -/
def Mod.recPrio (m : Mod) (x : PatSlot) (i : Nat) : Nat := m.recf x i 4 18 16
/-- PANEL of a piece. -/
def Mod.recPanel (m : Mod) (x : PatSlot) (i : Nat) : Nat := m.recf x i 8 9 8
/-- FANOUT of a piece. -/
def Mod.recFan (m : Mod) (x : PatSlot) (i : Nat) : Bool := m.recf x i 4 20 20 == 1
/-- PIN of a piece. -/
def Mod.recPin (m : Mod) (x : PatSlot) (i : Nat) : Bool := m.recf x i 4 21 21 == 1
/-- SEAT of a piece. -/
def Mod.recSeat (m : Mod) (x : PatSlot) (i : Nat) : Bool := m.recf x i 4 19 19 == 1
/-- Listed successors of a piece (R305). -/
def Mod.succs (m : Mod) (x : PatSlot) (i : Nat) : List Nat :=
  (upto (m.recf x i 4 31 24)).map fun j => m.rdLe (x.succBase + 2 * (m.recf x i 0x10 23 0 + j)) 2

/-! ## State words (R323) -/

/-- The state word at an address as the engine finds it: where software has written it, it is undefined (R16, R323). -/
def Mod.stateWord (m : Mod) (a : Nat) : W64 :=
  let w := w64 (m.rdLe a 8)
  match Tab.get? m.pat.words a with
  | some own => if own = w then w else Config.foreignState own w
  | none => w
/-- Software has written the state area of a pattern in flight (R323). -/
def Mod.spoiled (m : Mod) (x : PatSlot) : Bool :=
  m.pat.words.any fun e => decide (x.stateBase ≤ e.1) && decide (e.1 < x.stateBase + 8 * x.pieces) && w64 (m.rdLe e.1 8) != e.2
/-- COUNT of a piece. -/
def Mod.pieceCount (m : Mod) (x : PatSlot) (i : Nat) : Nat := fld (m.stateWord (x.stateBase + 8 * i)) 15 0
/-- STATE of a piece. -/
def Mod.pieceState (m : Mod) (x : PatSlot) (i : Nat) : Nat := fld (m.stateWord (x.stateBase + 8 * i)) 18 16
/-- A state word as the engine writes it; it uses none of bits 63 to 24 (log 20). -/
def stateOf (state count : Nat) : Nat := state % 8 * 2 ^ 16 + count % 2 ^ 16
/-- Write a state word. -/
def Mod.setPiece (m : Mod) (x : PatSlot) (i state count : Nat) : Mod :=
  let a := x.stateBase + 8 * i
  let m1 := m.ncWrite a (toLe 8 (stateOf state count))
  { m1 with pat := { m1.pat with words := Tab.put m1.pat.words a (w64 (stateOf state count)) } }
/-- The state area of a pattern that is no longer in flight is the engine's no more (R323). -/
def Mod.dropWords (m : Mod) (x : PatSlot) : Mod :=
  { m with pat := { m.pat with words := Tab.clear m.pat.words x.stateBase (x.stateBase + 8 * x.pieces) } }
/-- Change STATE alone. -/
def Mod.setPieceState (m : Mod) (x : PatSlot) (i state : Nat) : Mod := m.setPiece x i state (m.pieceCount x i)

/-! ## Ready pools (R324) -/

/-- The pool of a panel. -/
def Mod.pool (m : Mod) (panel : Nat) : List Ready := Tab.get [] m.pat.pools panel
/-- A piece becomes ready: it enters its panel's pool, or waits in memory for pool space. -/
def Mod.ready (m : Mod) (panel : Nat) (r : Ready) : Mod :=
  if (m.pool panel).length < 4096 ∧ (Tab.get [] m.pat.poolWait panel).isEmpty then
    { m with pat := { m.pat with pools := Tab.upd [] m.pat.pools panel (· ++ [r]) } }
  else ({ m with pat := { m.pat with poolWait := Tab.upd [] m.pat.poolWait panel (· ++ [r]) } }).patCnt r.piece.part 6 1
/-- A piece of a pattern becomes ready, in STATE 1. -/
def Mod.readyPiece (m : Mod) (id : PieceId) (x : PatSlot) : Mod :=
  (m.setPieceState x id.ix 1).ready (m.recPanel x id.ix) { piece := id, prio := m.recPrio x id.ix }
/-- A switched-out piece returns to the pool of its panel at its priority, as newly ready (R335). -/
def Mod.readySaved (m : Mod) (s : Saved) : Mod :=
  match m.pat? s.piece.part s.piece.slot with
  | some x => (m.setPieceState x s.piece.ix 1).ready s.panel { piece := s.piece, prio := m.recPrio x s.piece.ix }
  | none => m
/-- Change the saved pieces. -/
def Mod.updSaved (m : Mod) (f : List Saved → List Saved) : Mod := { m with pat := { m.pat with saved := f m.pat.saved } }
/-- The reply to a switched-out piece's fault: it becomes ready, at once or when its save completes (R335). -/
def Mod.replySaved (m : Mod) (id : PieceId) (code : Nat) : Mod :=
  match m.pat.saved.find? fun s => s.piece == id && s.reply.isNone with
  | none => m
  | some s =>
    let m1 := m.updSaved fun l => l.map fun t => if t.piece = id then { t with reply := some code } else t
    if s.stored then m1.readySaved s else m1

/-! ## Failing (R327) -/

/-- A piece that does not start, or whose core has halted, fails: it counts down nothing, and it counts as failed. -/
def Mod.failPiece (m : Mod) (id : PieceId) : Mod :=
  match m.pat? id.part id.slot with
  | some x => (m.setPieceState x id.ix 7).updPat id.part id.slot fun y => { y with left := y.left - 1, cancelled := y.cancelled + 1, aborted := true }
  | none => m

/-! ## Seats (R328 to R331) -/

/-- Lowest seat count of a core that a notch names, if the core is seated. -/
def Core.seatFor (k : Core) (notch : Nat) : Option Nat := if k.run = .seated then firstIx (· == notch) k.seats else none
/-- A delivery of notch `n` to a seat count: held with its source where the count is full (R331). -/
def Mod.seatDeliver (m : Mod) (n : Nat) (src : FireSrc) (c i : Nat) : Mod :=
  let k := m.core c
  let v := k.cregf 0x0A0 (16 * i + 15) (16 * i)
  if v = 65535 then
    { m with pat := { m.pat with held := m.pat.held ++ [{ core := c, seat := i, notch := n, src := src, piece := k.piece.getD {} }] } }
  else m.setCore c (k.setCregf 0x0A0 (16 * i + 15) (16 * i) (v + 1))
/-- A seat is removed: its counts are discarded, each unit as SEATLOST (R330). -/
def Mod.unseat (m : Mod) (c : Nat) : Mod :=
  let k := m.core c
  if k.run ≠ .seated then m
  else
    let lost := k.cregf 0x0A0 15 0 + k.cregf 0x0A0 31 16 + k.cregf 0x0A0 47 32
    let m1 := m.setCore c { (k.setCregf 0x0A0 48 0 0) with seats := [] }
    match k.piece with
    | some id => m1.patCnt id.part 5 lost
    | none => m1

end Sys2Proof.Machine
end

