-- ==== Sys2Proof/Machine/XlatOps.lean ====
section
/-! DEFINITION. Caps and their checks (R223, R263 to R269), page-table walks and leaf checks (R408 to R425), TLB look-up. -/

namespace Sys2Proof.Machine

/-! ## Caps -/

/-- TYPE (R263). -/
def Cap.type (c : Cap) : Nat := fld c.bits 127 124
/-- PERMS. -/
def Cap.perms (c : Cap) : Nat := fld c.bits 123 112
/-- The cap is a glove (R268). -/
def Cap.isGlove (c : Cap) : Bool := c.type == 2
/-- OTYPE; a glove is never sealed (R268). -/
def Cap.otype (c : Cap) : Nat := if c.isGlove then 0 else fld c.bits 111 96
/-- LENGTH, of 34 bits in a glove. -/
def Cap.len (c : Cap) : Nat := if c.isGlove then fld c.bits 81 48 else fld c.bits 95 48
/-- BASE. -/
def Cap.base (c : Cap) : Nat := fld c.bits 47 0
/-- First address beyond the cap. -/
def Cap.top (c : Cap) : Nat := c.base + c.len
/-- DEV of a glove. -/
def Cap.dev (c : Cap) : Nat := fld c.bits 111 94
/-- WINDOW of a glove. -/
def Cap.win (c : Cap) : Nat := fld c.bits 93 82
/-- A tag may be set on these bits (R264). -/
def Cap.taggable (c : Cap) : Bool := decide (c.type ≤ 2) && decide (c.top ≤ 2 ^ 48)
/-- The cap holds every permission of a mask (R265). -/
def Cap.has (c : Cap) (need : Nat) : Bool := (c.perms &&& need) == need
/-- RD of R265. -/
def pRD : Nat := 1
/-- WR of R265. -/
def pWR : Nat := 2
/-- EX of R265. -/
def pEX : Nat := 4
/-- LC of R265. -/
def pLC : Nat := 8
/-- SC of R265. -/
def pSC : Nat := 16
/-- SEAL of R265. -/
def pSEAL : Nat := 32
/-- UNSEAL of R265. -/
def pUNSEAL : Nat := 64
/-- BOLT of R265. -/
def pBOLT : Nat := 128
/-- SYSREG of R265. -/
def pSYSREG : Nat := 256
/-- PGTAB of R265. -/
def pPGTAB : Nat := 512
/-- UCODE of R265. -/
def pUCODE : Nat := 1024
/-- GLOVE of R265. -/
def pGLOVE : Nat := 2048
/-- A memory cap of bits and tag. -/
def mkCap (type perms otype len base : Nat) (tag : Bool) : Cap :=
  { bits := BitVec.ofNat 128 (type * 2 ^ 124 + perms % 2 ^ 12 * 2 ^ 112 + otype % 2 ^ 16 * 2 ^ 96 + len % 2 ^ 48 * 2 ^ 48 + base % 2 ^ 48), tag := tag }

/-- The checks of R223 in their order: none, or the cause of R228. -/
def capFail (c : Cap) (need x n : Nat) : Option Nat :=
  if !c.tag then some 0x01
  else if c.otype ≠ 0 then some 0x02
  else if !c.has need then some 0x03
  else if x < c.base ∨ c.top < x + n then some 0x04
  else none

/-! ## How an instruction stops -/

/-- Why an instruction does not complete. -/
inductive Stop where
  /-- a precise exception: its vector, and the control registers that record it -/
  | trap (vec : Nat) (regs : List (Nat × W64))
  /-- it waits, and runs again after the wait -/
  | wait (w : Wait)
  /-- a fault that the fault queue serves (R428) -/
  | fault (f : FaultReq)
  /-- a remote read is sent and its response awaited (R260, R454) -/
  | send (unit : RemUnit) (dev win off va len : Nat)
  /-- it cannot issue yet; nothing changes -/
  | hold
deriving DecidableEq, Repr, Inhabited

/-- An effect, or the reason that it does not come about. -/
abbrev Ex (α : Type) := Except Stop α

/-- The cap exception (R228): cause, kind and cap in COR_CAPERR, range in COR_CAPADDR. -/
def capStop (cause kind cap addr len : Nat) : Stop :=
  .trap 1 [(0x388, w64 (kind * 2 ^ 16 + cap * 2 ^ 8 + cause)), (0x390, w64 (len % 2 ^ 12 * 2 ^ 48 + addr % 2 ^ 48))]
/-- Check a cap under R223, raising the cap exception. -/
def capCheck (c : Cap) (ix kind need x n : Nat) : Ex Unit :=
  match capFail c need x n with
  | some cause => .error (capStop cause kind ix x n)
  | none => .ok ()
/-- ACCESS of R427: read, write, fetch, add; an atomic reads and writes. -/
def accBits : Acc → Nat
  | .read => 1 | .write => 2 | .fetch => 4 | .add => 8 | .atomic => 3
/-- The translation exception XLTX: COR_XLTERR and COR_XLTADDR (R417, R435). -/
def xltStop (cause : Nat) (acc : Acc) (level walk va : Nat) : Stop :=
  .trap 2 [(0x3A0, w64 (accBits acc * 2 ^ 16 + level * 2 ^ 12 + walk * 2 ^ 8 + cause)), (0x3A8, w64 (va % 2 ^ 48))]
/-- The scalar issue exception (R229). -/
def serrStop (cause major func code : Nat) : Stop :=
  .trap 0 [(0x380, w64 (code * 2 ^ 48 + func * 2 ^ 16 + major * 2 ^ 8 + cause))]

/-! ## Walks -/

/-- Page bits of a level (R412). -/
def pageBits : Nat → Nat
  | 0 => 36 | 1 => 30 | 2 => 21 | _ => 16
/-- Entries of a level's table (R412). -/
def tableIx (level va : Nat) : Nat :=
  match level with
  | 0 => bitsN va 47 36 | 1 => bitsN va 35 30 | 2 => bitsN va 29 21 | _ => bitsN va 20 16
/-- What a walk ends with: a leaf, or NOTPRESENT (1) or BADPTE (2), with level and entry address. -/
inductive WalkRes where
  | leaf (l : Leaf) (pte : Nat)
  | fail (cause level pte : Nat)
deriving DecidableEq, Repr, Inhabited
/-- An entry that R415 calls bad, at a level. -/
def badPte (e level : Nat) : Bool :=
  if bitsN e 1 1 = 0 then
    bitsN e 63 46 != 0 || bitsN e 7 2 != 0 || level == 3 ||
    (level == 0 && bitsN e 8 8 != 0) || (level == 1 && bitsN e 11 8 != 0)
  else
    bitsN e 15 6 != 0 || (bitsN e 63 16 * 2 ^ 16) % 2 ^ pageBits level != 0 ||
    (bitsN e 5 5 == 0 && bitsN e 63 46 != 0) || (bitsN e 5 5 == 1 && (level == 0 || bitsN e 4 4 == 1))
/-- The walk from one level on (R412 to R416); `k` levels are left. -/
def walkFrom (m : Mod) (part va : Nat) : Nat → Nat → Nat → WalkRes
  | 0, level, table => .fail 2 level table
  | k + 1, level, table =>
    let pte := table + 8 * tableIx level va
    if !(m.part part).holds pte 8 then .fail 2 level pte
    else
      let e := m.rdLe pte 8
      if bitsN e 0 0 = 0 then .fail 1 level pte
      else if badPte e level then .fail 2 level pte
      else if bitsN e 1 1 = 1 then
        .leaf { part := part, vpn := va >>> pageBits level, level := level, pa := bitsN e 63 16 * 2 ^ 16, rmt := bitsN e 5 5 == 1, pt := bitsN e 4 4 == 1, x := bitsN e 3 3 == 1, w := bitsN e 2 2 == 1 } pte
      else walkFrom m part va k (level + 1) (bitsN e 45 8 * 2 ^ 8)
/-- The walk of a partition's tables from XLT_ROOT (R408, R412). -/
def Mod.walk (m : Mod) (part va : Nat) : WalkRes :=
  walkFrom m part va 4 0 (m.rdf (bXLT part) 45 15 * 2 ^ 15)

/-! ## Leaves -/

/-- The place a leaf gives an address (R409, R424). -/
def Leaf.place (l : Leaf) (va : Nat) : Place :=
  let a := l.pa + va % 2 ^ pageBits l.level
  if l.rmt then .remote (bitsN a 63 46) (bitsN a 45 34) (bitsN a 33 0) else .loc (bitsN a 45 0)
/-- Writing accesses: writes, atomics and adds (R417). -/
def Acc.writes : Acc → Bool
  | .write => true | .add => true | .atomic => true | _ => false
/-- The checks of R417 on a usable leaf, in their order. `pgtab` says that the cap holds PGTAB. -/
def leafCheck (m : Mod) (part : Nat) (l : Leaf) (pgtab : Bool) (acc : Acc) (va n : Nat) : Ex Place :=
  let unsup := match l.place va with
    | .loc pa => !(m.isSpool pa || m.isScratch pa) || (acc == Acc.add && !m.isSpool pa)
    | .remote .. => acc == Acc.atomic || acc == Acc.fetch
    | .ctl _ => true
  let grant := match l.place va with
    | .loc pa => !(m.part part).holds pa n
    | _ => false
  if unsup then .error (xltStop 0x03 acc l.level 0 va)
  else if grant then .error (xltStop 0x04 acc l.level 0 va)
  else if acc = .fetch ∧ !l.x then .error (xltStop 0x05 acc l.level 0 va)
  else if acc.writes ∧ l.pt ∧ !pgtab then .error (xltStop 0x06 acc l.level 0 va)
  else if acc.writes ∧ !l.w then
    let pte := match m.walk part va with | .leaf _ p => p | .fail _ _ p => p
    .error (.fault { part := part, va := va, acc := acc, cause := 4, level := l.level, pte := pte })
  else .ok (l.place va)

/-! ## TLBs (R419) -/

/-- The key of an entry. -/
def tlbKey (part level vpn : Nat) : Nat := (vpn * 4 + level) * 16 + part
/-- First way of the shared-TLB set of a page. -/
def stlbBase (panel part vpn : Nat) : Nat := (panel * 256 + Config.tlbSet part vpn % 256) * 8
/-- The L1 TLB's leaf for an address. -/
def l1Find (k : CoreMem) (part va : Nat) : Option Leaf :=
  [3, 2, 1, 0].findSome? fun l => (findWay k.tlb 0 64 (tlbKey part l (va >>> pageBits l))).map fun w => w.2.val
/-- The shared TLB's leaf for an address. -/
def Mod.stlbFind (m : Mod) (panel part va : Nat) : Option Leaf :=
  [3, 2, 1, 0].findSome? fun l =>
    (findWay m.xlt.tlb (stlbBase panel part (va >>> pageBits l)) 8 (tlbKey part l (va >>> pageBits l))).map fun w => w.2.val
/-- Install a leaf in a core's L1 TLB, at AGE 1, or mark the hit. -/
def Mod.l1Install (m : Mod) (c : Nat) (l : Leaf) : Mod :=
  m.updMem c fun k =>
    let key := tlbKey l.part l.level l.vpn
    match findWay k.tlb 0 64 key with
    | some _ => { k with tlb := hitWay k.tlb 0 64 key }
    | none => { k with tlb := (insWay k.tlb 0 64 key 1 l).1 }
/-- Install a leaf in a panel's shared TLB, at AGE 1, or mark the hit. -/
def Mod.stlbInstall (m : Mod) (panel : Nat) (l : Leaf) : Mod :=
  let key := tlbKey l.part l.level l.vpn
  let b := stlbBase panel l.part l.vpn
  match findWay m.xlt.tlb b 8 key with
  | some _ => { m with xlt := { m.xlt with tlb := hitWay m.xlt.tlb b 8 key } }
  | none => { m with xlt := { m.xlt with tlb := (insWay m.xlt.tlb b 8 key 1 l).1 } }

/-- The fitter's accesses (R382, R399, R410, R411): a local physical address, without translation; one that no memory answers, and an add to
scratch, raise UNSUP. It fetches from its private SRAM (log 14). -/
def Mod.fitterPlace (m : Mod) (acc : Acc) (va : Nat) : Ex Place :=
  let pa := va % 2 ^ 46
  if acc = .fetch then .ok (.loc pa)
  else if !(m.isSpool pa || m.isScratch pa) || (acc == .add && !m.isSpool pa) then .error (xltStop 0x03 acc 0 0 va)
  else .ok (.loc pa)
/-- Translate one address of a core (R411, R417, R419): a hit of either TLB, or a wait for the walk. The fitter never
translates. -/
def Mod.xlat (m : Mod) (c : Nat) (pgtab : Bool) (acc : Acc) (va n : Nat) : Ex (Place × Mod) :=
  if c = 256 then (m.fitterPlace acc va).map fun p => (p, m)
  else match m.partOf c with
    | none => .error .hold
    | some part =>
      match l1Find (m.core c).mem part va with
      | some l => do
        let p ← leafCheck m part l pgtab acc va n
        .ok (p, m.l1Install c l)
      | none =>
        match m.stlbFind (panelOf c) part va with
        | some l => do
          let p ← leafCheck m part l pgtab acc va n
          .ok (p, ((m.stlbInstall (panelOf c) l).l1Install c l).evCore c 0x06 1)
        | none => .error (.wait (.walk va acc))

/-- Addresses of the entries that a walk reads (R412, R416); `k` levels are left. -/
def walkReads (m : Mod) (part va : Nat) : Nat → Nat → Nat → List Nat
  | 0, _, _ => []
  | k + 1, level, table =>
    let pte := table + 8 * tableIx level va
    if !(m.part part).holds pte 8 then []
    else
      let e := m.rdLe pte 8
      if bitsN e 0 0 = 0 || badPte e level || bitsN e 1 1 = 1 then [pte]
      else pte :: walkReads m part va k (level + 1) (bitsN e 45 8 * 2 ^ 8)
/-- Perform a walk on a panel for a core, or for a shuttle: its reads of table lines, its counts (XLT_CNT0, XLT_CNT1, R622), and the
leaf it installs (R416, R419). -/
def Mod.walkDo (m : Mod) (panel part : Nat) (core : Option Nat) (va : Nat) : WalkRes × Mod :=
  let r := m.walk part va
  let reads := walkReads m part va 4 0 (m.rdf (bXLT part) 45 15 * 2 ^ 15)
  let m1 := if reads.isEmpty then m else (m.inc (bXLT part + 0x40)).evPanel panel 0x0A 1 (some part)
  let m2 := reads.foldl (fun (m : Mod) a => (m.ncRead a 8).2) m1
  let m3 := match core with | some c => (m2.evCore c 0x06 1).evCore c 0x07 1 | none => m2
  match r with
  | .leaf l _ =>
    let m4 := m3.stlbInstall panel l
    (r, match core with | some c => m4.l1Install c l | none => m4)
  | .fail .. => (r, m3.inc (bXLT part + 0x48))
/-- The entries of both TLBs for an address are dropped, so that it is walked anew (R431). -/
def Mod.tlbForget (m : Mod) (panel part : Nat) (core : Option Nat) (va : Nat) : Mod :=
  let hit (w : Way Leaf) : Bool := w.val.part == part && w.val.vpn == va >>> pageBits w.val.level
  let m1 : Mod := { m with xlt := { m.xlt with tlb := Tab.keep m.xlt.tlb fun i w => !(i / 2048 == panel && hit w) } }
  match core with
  | some c => m1.updMem c fun k => { k with tlb := Tab.keep k.tlb fun _ w => !hit w }
  | none => m1
/-- Translate one address at once, walking where both TLBs miss (R274). -/
def Mod.xlatNow (m : Mod) (c : Nat) (acc : Acc) (va n : Nat) : Ex (Place × Mod) :=
  match m.xlat c false acc va n with
  | .error (.wait (.walk ..)) =>
    match m.partOf c with
    | none => .error .hold
    | some part => ((m.walkDo (panelOf c) part (some c) va).2).xlat c false acc va n
  | r => r

/-- Translate a range: one piece, or two where it crosses a 64 KiB granule. -/
def Mod.xlatRange (m : Mod) (c : Nat) (pgtab : Bool) (acc : Acc) (va n : Nat) : Ex (List (Place × Nat) × Mod) :=
  let room := 2 ^ 16 - va % 2 ^ 16
  if n ≤ room then do
    let (p, m1) ← m.xlat c pgtab acc va n
    .ok ([(p, n)], m1)
  else do
    let (p, m1) ← m.xlat c pgtab acc va room
    let (q, m2) ← m1.xlat c pgtab acc (va + room) (n - room)
    .ok ([(p, room), (q, n - room)], m2)

end Sys2Proof.Machine
end

