-- ==== Sys2Proof/Machine/CoreOps.lean ====
section
/-! DEFINITION. Operations of a core: banks and images (R273), fetch checks (R211), memory access through caps and the store
buffer (R223 to R226, R258), the stacks with their spills and fills (R215 to R219), issue and retirement (R220, R245,
R254, R272), taking and returning from an exception (R273 to R283). -/

namespace Sys2Proof.Machine

/-! ## Registers, gating -/

/-- DEPTH of COR_EXC: 0 no handler, 1 handler, 2 double-fault handler. -/
def Core.excDepth (k : Core) : Nat := k.cregf 0x000 9 8
/-- Leave a trap pending (R272). -/
def Core.addPend (k : Core) (v : Nat) : Core := if k.pend.contains v then k else { k with pend := v :: k.pend }
/-- The core is halted (R277). -/
def Core.halted (k : Core) : Bool := k.cregf 0x000 24 24 == 1
/-- A register of R290 as an instruction uses it: before SYNC, the old value or the new one, freely (log 6). -/
def Mod.useCreg (m : Mod) (c a : Nat) : W64 :=
  let k := m.core c
  match Tab.get? k.ctlNew a with
  | some v => if Config.freeBool (2 ^ 40 + m.freeCtr * 2 ^ 16 + a) then rowWrite coreRows a (k.creg a) v else k.creg a
  | none => k.creg a
/-- Every control-register write takes effect (R291, R292): what a write of a register of R290 wrote goes into it. -/
def Core.settle (k : Core) : Core :=
  { k with ctl := k.ctlNew.foldl (fun t p => Tab.put t p.1 (rowWrite coreRows p.1 (regVal coreRows t p.1) p.2)) k.ctl, ctlNew := [] }
/-- The interrupt that the core takes at this boundary, if any (R272, R288). -/
def Mod.intNow (m : Mod) (c : Nat) : Option Nat :=
  let k := m.core c
  if k.excDepth ≠ 0 ∨ k.mid then none
  else if k.cregf 0x018 16 16 = 1 ∧ fld (m.useCreg c 0x010) 16 16 = 1 then some 16
  else if k.cregf 0x018 17 17 = 1 then some 17
  else none
/-- A load of a station has remote bytes to come. -/
def Station.awaitsRemote (s : Station) : Bool :=
  if s.asked then !s.rwait.isEmpty else s.ranges.any fun r => match r.1 with | .remote .. => true | _ => false
/-- A load of a station that has not read its local bytes finds poison among them. -/
def Mod.poisonAhead (m : Mod) (s : Station) : Bool :=
  !s.asked && s.ranges.any fun r => match r.1 with | .loc pa => m.poisoned pa r.2 | _ => false
/-- The next instruction waits for a vector instruction: the NaN trap may follow it (R141), or it is a load that may meet poison, for which
UERR is precise (R365, log 66). -/
def Mod.vecGate (m : Mod) (c : Nat) : Bool :=
  (m.core c).vec.stations.any fun s => !s.held && (s.gate || (s.undo.isSome && (s.awaitsRemote || m.poisonAhead s)))
/-- An instruction begins: no record is pending but its own, and the loads before it in stations can no longer be undone. -/
def Core.beginBody (k : Core) : Core :=
  { k with bank := { k.bank with load := none }
           vec := { k.vec with stations := k.vec.stations.map fun s => if s.held then s else { s with undo := none } } }
/-- The record that was pending when a load entered its station belongs to what is put back if it is undone. -/
def Core.stampUndo (k : Core) (old : Option LoadRec) : Core :=
  { k with vec := { k.vec with stations := k.vec.stations.map fun s =>
      if s.held then s else { s with undo := s.undo.map fun u => ({ u.1 with load := old }, u.2) } } }
/-- A core that may issue its next instruction: it runs a piece or a handler, nothing waits, no exception, trap or interrupt
stands at the boundary (R254, R272, R288), and no vector instruction (R141, R365) and no notch that it has fired holds it back (R331).
The fitter issues once its firmware runs. -/
def Mod.canIssue (m : Mod) (c : Nat) : Bool :=
  let k := m.core c
  (c == 256 && m.fit.phase == .running || c != 256 && k.run != .free) && !k.halted && !k.stopped && k.trap.isNone && k.pend.isEmpty && k.due.isNone &&
  (k.wait == .none || k.wait == .pwait) && (m.intNow c).isNone && !m.vecGate c && !m.heldBack (.core c)

/-! ## Banks and images (R273) -/

/-- A cap register. -/
def Bank.cap (b : Bank) (i : Nat) : Cap := Tab.get {} b.caps i
/-- Write a cap register. -/
def Bank.setCap (b : Bank) (i : Nat) (c : Cap) : Bank := { b with caps := Tab.put b.caps i c }
/-- A word of an image. -/
def Image.word (i : Image) (k : Nat) : W64 := Tab.get 0 i.words k
/-- Cap slot `k` of an image. -/
def Image.cap (i : Image) (k : Nat) : Cap :=
  { bits := BitVec.ofNat 128 ((i.word (0x10 + 2 * k)).toNat + (i.word (0x11 + 2 * k)).toNat * 2 ^ 64), tag := Tab.get false i.tags k }
/-- The return-stack depth: entries in memory, which RSP gives, and cached ones (R219). -/
def Bank.rdepth (b : Bank) : Nat := ((b.cap 3).top - b.rsp.toNat) / 8 + b.rets.length
/-- The image of a bank in the layout of R273. Bit 62 of the loop word says that an outer loop is saved (log 15). -/
def Bank.image (b : Bank) : Image :=
  let ld := b.load.getD {}
  let lp := b.loop.getD {}
  let words : List (Nat × W64) :=
    [(0, b.pc), (1, b.sp), (2, b.rsp),
     (3, w64 (b.depth % 2 ^ 32 * 2 ^ 32 + b.rets.length * 2 ^ 8 + b.ops.length)),
     (4, if b.load.isSome then w64 (2 ^ 63 + b2n ld.poison * 2 ^ 62 + b2n ld.arrived * 2 ^ 61 + ld.pos % 2 ^ 48) else 0),
     (5, ld.value),
     (6, if b.loop.isSome then w64 (2 ^ 63 + b2n lp.saved * 2 ^ 62 + lp.lenM1 % 256 * 2 ^ 48 + lp.start % 2 ^ 48) else 0),
     (7, lp.cnt), (8, lp.done), (9, w64 lp.rbase),
     (10, w64 (b.prog.kind % 4 * 2 ^ 62 + b2n b.prog.mstop * 2 ^ 61 + b2n b.prog.fstop * 2 ^ 60 + b.prog.gen % 2 ^ 16 * 2 ^ 12 + b.prog.index % 2 ^ 12)),
     (11, w64 (b.vec % 32 * 2 ^ 16 + b.vl % 2 ^ 12))] ++
    ((upto 8).flatMap fun i => [(0x10 + 2 * i, (b.cap i).bits.setWidth 64), (0x11 + 2 * i, ((b.cap i).bits >>> 64).setWidth 64)]) ++
    (b.ops.reverse.zipIdx.map fun p => (0x20 + p.2, p.1)) ++
    (b.rets.reverse.zipIdx.map fun p => (0x30 + p.2, p.1))
  { words := words, tags := (upto 8).map fun i => (i, (b.cap i).tag) }
/-- The bank that an image describes (R279). -/
def Image.bank (i : Image) : Bank :=
  let w3 := i.word 3
  let w4 := i.word 4
  let w6 := i.word 6
  let w10 := i.word 10
  { pc := i.word 0, sp := i.word 1, rsp := i.word 2, depth := fld w3 63 32
    ops := ((upto (min 16 (fld w3 4 0))).map fun k => i.word (0x20 + k)).reverse
    rets := ((upto (min 32 (fld w3 13 8))).map fun k => i.word (0x30 + k)).reverse
    load := if bit w4 63 then some { pos := fld w4 47 0, poison := bit w4 62, arrived := bit w4 61, value := i.word 5 } else none
    loop := if bit w6 63 then some { start := fld w6 47 0, lenM1 := fld w6 55 48, saved := bit w6 62, cnt := i.word 7, done := i.word 8, rbase := (i.word 9).toNat } else none
    prog := { kind := fld w10 63 62, mstop := bit w10 61, fstop := bit w10 60, gen := fld w10 27 12, index := fld w10 11 0 }
    vl := fld (i.word 11) 11 0, vec := fld (i.word 11) 20 16
    caps := (upto 8).map fun k => (k, i.cap k) }
/-- The bytes of an image, 640 of them. -/
def Image.bytes (i : Image) : List Byte := (upto 80).flatMap fun k => toLe 8 (i.word k).toNat

/-! ## The store buffer (R258) -/

/-- A place as one number: a local address, or beyond them a remote window and offset. -/
def Place.flat : Place → Option Nat
  | .loc pa => some pa
  | .remote dev win off => some (2 ^ 64 + dev * 2 ^ 46 + win * 2 ^ 34 + off)
  | .ctl _ => none
/-- Bytes of memory, local or remote, that a buffered entry writes. -/
def SbEntry.range (e : SbEntry) : Option (Nat × Nat) := e.place.flat.map fun a => (a, e.data.length)
/-- Two byte ranges meet. -/
def meet (a n b k : Nat) : Bool := decide (a < b + k) && decide (b < a + n)
/-- The value that the buffer gives one byte: the newest store of it. `none`: no entry; `some none`: an add. -/
def sbByte (sb : List SbEntry) (pa : Nat) : Option (Option Byte) :=
  (sb.reverse.find? fun e => match e.range with | some (a, n) => meet a n pa 1 | none => false).map fun e =>
    match e.kind, e.range with
    | .add _, _ => none
    | _, some (a, _) => some (e.data.getD (pa - a) 0)
    | _, none => none
/-- A load of local bytes against the buffer: all of them buffered, none of them, or a mixture that must drain first. -/
def sbLoad (sb : List SbEntry) (pa n : Nat) : Option (Option (List Byte)) :=
  let vs := (upto n).map fun i => sbByte sb (pa + i)
  if vs.all (·.isNone) then some none
  else if vs.all fun v => match v with | some (some _) => true | _ => false then
    some (some (vs.map fun v => match v with | some (some b) => b | _ => 0))
  else none
/-- Some entry of the buffer touches a local range. -/
def sbTouches (sb : List SbEntry) (pa n : Nat) : Bool :=
  sb.any fun e => match e.range with | some (a, k) => meet a k pa n | none => false
/-- Add an entry; a seventeenth waits at issue (R258). -/
def Mod.sbPush (m : Mod) (c : Nat) (e : SbEntry) : Ex Mod :=
  if (m.core c).sb.length < 16 then .ok (m.updCore c fun k => { k with sb := k.sb ++ [e] }) else .error .hold

/-! ## Access -/

/-- The places of an access through a cap that has passed R223: control space, remote window or translated (R267, R269). -/
def Mod.places (m : Mod) (c : Nat) (cap : Cap) (acc : Acc) (x n : Nat) : Ex (List (Place × Nat) × Mod) :=
  match cap.type with
  | 1 => .ok ([(.ctl x, n)], m)
  | 2 => .ok ([(.remote cap.dev cap.win (x % 2 ^ 34), n)], m)
  | _ => m.xlatRange c (cap.has pPGTAB) acc x n
/-- Read local bytes for an instruction that takes its value at once: its lines are acquired, the store buffer is looked
through, and poison raises UERR (R258, R365). -/
def Mod.readNow (m : Mod) (c pa n : Nat) : Ex (List Byte × Mod) :=
  match sbLoad (m.core c).sb pa n with
  | none => .error .hold
  | some (some bs) => .ok (bs, m)
  | some none =>
    match (m.meetLoad c pa).acquireAll c pa n false with
    | none => .error .hold
    | some m1 => if m1.poisoned pa n then .error (.trap 9 []) else .ok (m1.rdMem pa n, m1)
/-- Read the pieces of a translated range: local ones now, remote ones by a request whose bytes the instruction awaits
(R260, R425). `cr` is the cap register that an LDC loads. -/
def Mod.readPieces (m : Mod) (c : Nat) (cr : Option Nat) : Nat → List (Place × Nat) → Ex (List Byte × Mod)
  | _, [] => .ok ([], m)
  | va, (.loc pa, n) :: ps => do
    let (bs, m1) ← m.readNow c pa n
    let (cs, m2) ← m1.readPieces c cr (va + n) ps
    .ok (bs ++ cs, m2)
  | va, (.remote dev win off, n) :: ps =>
    let k := m.core c
    let here : Option (Option (List Byte)) :=
      if (upto n).all fun i => (Tab.get? k.rbuf (va + i)).isSome then some (some (Memory.bytes k.rbuf va n))
      else sbLoad k.sb ((Place.remote dev win off).flat.getD 0) n
    match here with
    | none => .error .hold
    | some none => .error (.send (.buf cr) dev win off va n)
    | some (some bs) => do
      let (cs, m2) ← m.readPieces c cr (va + n) ps
      .ok (bs ++ cs, m2)
  | va, (.ctl _, _) :: _ => .error (xltStop 0x03 .read 0 0 va)
/-- Write local bytes for an instruction that writes at once: its lines are acquired in M. -/
def Mod.writeNow (m : Mod) (c pa : Nat) (bs : List Byte) : Ex Mod :=
  if sbTouches (m.core c).sb pa bs.length then .error .hold
  else match m.acquireAll c pa bs.length true with
    | none => .error .hold
    | some m1 => .ok (m1.wrMem pa bs)

/-! ## Stacks (R215 to R219) -/

/-- What a stack is: its cap, its kinds and causes. -/
structure StackSel where
  cap : Nat
  spill : Nat
  fill : Nat
  ovr : Nat
  udr : Nat
/-- The operand stack, through c2 (R218). -/
def opStk : StackSel := { cap := 2, spill := 6, fill := 7, ovr := 7, udr := 8 }
/-- The return stack, through c3 (R219). -/
def retStk : StackSel := { cap := 3, spill := 8, fill := 9, ovr := 9, udr := 10 }
/-- The stack pointer of a stack. -/
def Bank.ptr (b : Bank) (s : StackSel) : Nat := if s.cap = 2 then b.sp.toNat else b.rsp.toNat
/-- Move the stack pointer. -/
def Bank.setPtr (b : Bank) (s : StackSel) (v : Nat) : Bank := if s.cap = 2 then { b with sp := w64 v } else { b with rsp := w64 v }
/-- The cached entries, top first. -/
def Bank.cache (b : Bank) (s : StackSel) : List W64 := if s.cap = 2 then b.ops else b.rets
/-- Replace the cached entries. -/
def Bank.setCache (b : Bank) (s : StackSel) (l : List W64) : Bank := if s.cap = 2 then { b with ops := l } else { b with rets := l }
/-- Change the active bank of a core. -/
def Mod.updBank (m : Mod) (c : Nat) (f : Bank → Bank) : Mod := m.updCore c fun k => { k with bank := f k.bank }
/-- The cap checks of a spill or fill (R218): TAG, SEALED and PERM first, PERM of a glove too (R269), then ALIGN, then the end of the
segment, then BOUND. -/
def stackCheck (cap : Cap) (s : StackSel) (spill : Bool) (x : Nat) (sp : Nat) : Ex Unit :=
  let kind := if spill then s.spill else s.fill
  match capFail cap (if spill then pWR else pRD) x 8 with
  | some 1 => .error (capStop 1 kind s.cap x 8)
  | some 2 => .error (capStop 2 kind s.cap x 8)
  | some 3 => .error (capStop 3 kind s.cap x 8)
  | r =>
    if cap.isGlove then .error (capStop 3 kind s.cap x 8)
    else if cap.top % 8 ≠ 0 then .error (capStop 5 kind s.cap x 8)
    else if spill ∧ (sp < cap.base + 8) then .error (capStop s.ovr kind s.cap x 8)
    else if !spill ∧ sp = cap.top then .error (capStop s.udr kind s.cap x 8)
    else match r with
      | some cause => .error (capStop cause kind s.cap x 8)
      | none => .ok ()
/-- A write meets the partition's window table, which only a cap with GLOVE may write (R466). -/
def Mod.wtabCheck (m : Mod) (c : Nat) (cap : Cap) (ix kind x n : Nat) (ps : List (Place × Nat)) : Ex Unit :=
  let hit := match m.partOf c with
    | some p => ps.any fun q => match q.1 with | .loc pa => m.inWtab p pa q.2 | _ => false
    | none => false
  if hit && !cap.has pGLOVE then .error (capStop 3 kind ix x n) else .ok ()
/-- Write the deepest cached entry to memory (R217); to a remote page by a posted write (R424). -/
def Mod.spill (m : Mod) (c : Nat) (s : StackSel) : Ex Mod := do
  let b := (m.core c).bank
  let cap := b.cap s.cap
  let sp := b.ptr s
  let x := sp - 8
  stackCheck cap s true x sp
  let (ps, m1) ← m.places c cap .write x 8
  m.wtabCheck c cap s.cap s.spill x 8 ps
  let v := (b.cache s).getLastD 0
  match ps with
  | [(.loc pa, _)] => do
    let m2 ← m1.writeNow c pa (toLe 8 v.toNat)
    .ok (m2.updBank c fun b => (b.setPtr s x).setCache s (b.cache s).dropLast)
  | [(.remote dev win off, _)] =>
    if sbTouches (m1.core c).sb ((Place.remote dev win off).flat.getD 0) 8 then .error .hold
    else
      let r := m1.remoteSend { unit := .posted, core := c, part := (m1.partOf c).getD 0, va := x, len := 8 } 3 2 0 dev win off (toLe 8 v.toNat)
      .ok (r.2.updBank c fun b => (b.setPtr s x).setCache s (b.cache s).dropLast)
  | _ => .error (xltStop 0x03 .write 0 0 x)
/-- Read the deepest memory entry back (R217), from a remote page by a request (R424). -/
def Mod.fill (m : Mod) (c : Nat) (s : StackSel) : Ex Mod := do
  let b := (m.core c).bank
  let cap := b.cap s.cap
  let sp := b.ptr s
  stackCheck cap s false sp sp
  let (ps, m1) ← m.places c cap .read sp 8
  let (bs, m2) ← m1.readPieces c none sp ps
  .ok (m2.updBank c fun b => (b.setPtr s (sp + 8)).setCache s (b.cache s ++ [w64 (ofLe bs)]))
/-- Fill until the cache holds `n` entries. -/
def Mod.fillTo (m : Mod) (c : Nat) (s : StackSel) (n : Nat) : Nat → Ex Mod
  | 0 => .ok m
  | k + 1 => if n ≤ ((m.core c).bank.cache s).length then .ok m else do
    let m1 ← m.fill c s
    m1.fillTo c s n k
/-- Spill until the cache holds at most `n` entries. -/
def Mod.spillTo (m : Mod) (c : Nat) (s : StackSel) (n : Nat) : Nat → Ex Mod
  | 0 => .ok m
  | k + 1 => if ((m.core c).bank.cache s).length ≤ n then .ok m else do
    let m1 ← m.spill c s
    m1.spillTo c s n k
/-- The top `n` entries of the operand stack, top first, filled where the cache holds too few; a poisoned position among those that the
instruction reads, counted from the top, raises UERR (R217, R296). -/
def Mod.peekAt (m : Mod) (c n : Nat) (reads : List Nat) : Ex (List W64 × Mod) := do
  let m1 ← m.fillTo c opStk n n
  let k := m1.core c
  if k.poison.any fun p => reads.any fun i => p + i + 1 == k.bank.depth then .error (.trap 9 [])
  else .ok (k.bank.ops.take n, m1)
/-- Operands at the top of the operand stack, all of which the instruction reads. -/
def Mod.peek (m : Mod) (c n : Nat) : Ex (List W64 × Mod) := do
  let m1 ← m.fillTo c opStk n n
  let k := m1.core c
  if k.poison.any fun p => decide (k.bank.depth ≤ p + n) && decide (p < k.bank.depth) then .error (.trap 9 [])
  else .ok (k.bank.ops.take n, m1)
/-- Replace the top `n` entries, which the cache holds, by others given top first; the deepest cached entries spill where
more than 16 would be cached (R217). Positions above the kept ones lose their poison. -/
def Mod.repl (m : Mod) (c n : Nat) (new : List W64) : Ex Mod :=
  let m1 := m.updCore c fun k =>
    let d := k.bank.depth - n
    { k with poison := k.poison.filter (· < d), bank := { k.bank with ops := new ++ k.bank.ops.drop n, depth := d + new.length } }
  m1.spillTo c opStk 16 16
/-- Pop `n` operands, top first. -/
def Mod.pop (m : Mod) (c n : Nat) : Ex (List W64 × Mod) := do
  let (vs, m1) ← m.peek c n
  let m2 ← m1.repl c n []
  .ok (vs, m2)
/-- Push one value. -/
def Mod.push (m : Mod) (c : Nat) (v : W64) : Ex Mod := m.repl c 0 [v]
/-- Push on the return stack; the deepest cached entry spills beyond 32 (R219). -/
def Mod.rpush (m : Mod) (c : Nat) (v : W64) : Ex Mod :=
  (m.updBank c fun b => { b with rets := v :: b.rets }).spillTo c retStk 32 32
/-- The top of the return stack, filled where the cache is empty. -/
def Mod.rpeek (m : Mod) (c : Nat) : Ex (W64 × Mod) := do
  let m1 ← m.fillTo c retStk 1 1
  .ok ((m1.core c).bank.rets.headD 0, m1)
/-- Pop the return stack, without the check of R247. -/
def Mod.rpop (m : Mod) (c : Nat) : Ex (W64 × Mod) := do
  let (v, m1) ← m.rpeek c
  .ok (v, m1.updBank c fun b => { b with rets := b.rets.drop 1 })
/-- A pop that would take the return-stack depth below a running loop's base raises LOOPRS (R247). -/
def loopCheck (b : Bank) (n major func : Nat) : Ex Unit :=
  match b.loop with
  | some l => if b.rdepth < l.rbase + n then .error (serrStop 0x04 major func 0) else .ok ()
  | none => .ok ()

/-! ## Retirement -/

/-- How control goes on after an instruction. -/
inductive Flow where
  | next
  /-- a taken transfer; `ends` for BR, BZ, BNZ and JMPI, which end a loop they leave (R246) -/
  | jump (t : W64) (ends : Bool)
  /-- the pc goes on elsewhere without a taken transfer: LOOP with a count of 0 (R245) -/
  | goto (t : W64)
  /-- the instruction stays: it has done part of its work and runs again (R244, R252) -/
  | again
  /-- the bank has been replaced: the pc is already set -/
  | set
deriving DecidableEq, Repr, Inhabited

/-- The address of the last instruction of a loop body. -/
def LoopSt.endAddr (l : LoopSt) : Nat := l.start + 4 * l.lenM1
/-- An address lies in the body. -/
def LoopSt.inside (l : LoopSt) (a : Nat) : Bool := decide (l.start ≤ a) && decide (a ≤ l.endAddr)
/-- The running loop ends: the outer loop's four entries are popped and it runs again (R245). -/
def Mod.loopEnd (m : Mod) (c : Nat) : Ex Mod :=
  match (m.core c).bank.loop with
  | none => .ok m
  | some l =>
    if !l.saved then .ok (m.updBank c fun b => { b with loop := none })
    else do
      let (w, m1) ← m.rpop c
      let (r, m2) ← m1.rpop c
      let (d, m3) ← m2.rpop c
      let (n, m4) ← m3.rpop c
      .ok (m4.updBank c fun b => { b with loop := some { start := fld w 47 0, lenM1 := fld w 55 48, saved := bit w 63, rbase := r.toNat, done := d, cnt := n } })
/-- Loops that a taken transfer leaves end, the innermost first (R246); each but the innermost has its four entries on the return stack. -/
def Mod.leaveLoops (m : Mod) (c pc t : Nat) : Nat → Ex Mod
  | 0 => .ok m
  | k + 1 =>
    match (m.core c).bank.loop with
    | some l => if l.inside pc ∧ !l.inside t then do
        let m1 ← m.loopEnd c
        m1.leaveLoops c pc t k
      else .ok m
    | none => .ok m
/-- Where the pc goes after the instruction at `pc` completes without a transfer (R245). -/
def Mod.stepPc (m : Mod) (c pc : Nat) : Ex Mod :=
  match (m.core c).bank.loop with
  | some l =>
    if pc = l.endAddr then
      if l.cnt = 1#64 then do
        let m1 ← m.loopEnd c
        .ok (m1.updBank c fun b => { b with pc := w64 (pc + 4) })
      else .ok (m.updBank c fun b => { b with pc := w64 l.start, loop := some { l with cnt := l.cnt - 1, done := l.done + 1 } })
    else .ok (m.updBank c fun b => { b with pc := w64 (pc + 4) })
  | none => .ok (m.updBank c fun b => { b with pc := w64 (pc + 4) })
/-- Apply a pending-load record whose delay slot has completed (R220, R296). -/
def Core.applyLoad (k : Core) (l : LoadRec) : Core :=
  if k.bank.depth ≤ l.pos then k
  else if !l.arrived then { k with due := some l }
  else
    let i := k.bank.depth - 1 - l.pos
    { k with bank := { k.bank with ops := k.bank.ops.set i l.value }, poison := if l.poison then l.pos :: k.poison.filter (· != l.pos) else k.poison.filter (· != l.pos) }
/-- The core's unarrived load of local memory, the one whose delay slot has completed first. -/
def Core.openLoad (k : Core) : Option LoadRec :=
  match k.due with
  | some l => some l
  | none => match k.bank.load with
    | some l => if l.arrived then none else some l
    | none => none
/-- Give the core's unarrived load its value: a record whose delay slot has completed is applied (R220, R221). -/
def Core.loadArrives (k : Core) (v : W64) (poison : Bool) : Core :=
  match k.due with
  | some l => { k with due := none }.applyLoad { l with value := v, arrived := true, poison := poison }
  | none => { k with bank := { k.bank with load := k.bank.load.map fun l => { l with value := v, arrived := true, poison := poison } } }
/-- Bring the position of a record into the cache, for a record below it. -/
def Mod.reach (m : Mod) (c : Nat) (l : LoadRec) : Ex Mod :=
  let b := (m.core c).bank
  if b.depth ≤ l.pos ∨ 16 ≤ b.depth - 1 - l.pos then .ok m
  else m.fillTo c opStk (b.depth - l.pos) 16
/-- Apply the record of the LD before the instruction that has just completed (R220). -/
def Mod.applyOld (m : Mod) (c : Nat) : Option LoadRec → Ex Mod
  | none => .ok m
  | some l => do
    let m1 ← m.reach c l
    .ok (m1.updCore c fun k => k.applyLoad l)
/-- An instruction completes: pc, loop, the record of the LD before it, counts (R220, R245, R246, R257). `old` is the
record that was pending when it issued. -/
def Mod.retire (m : Mod) (c : Nat) (old : Option LoadRec) (fl : Flow) (st : Nat) : Ex Mod := do
  let pc := (m.core c).bank.pc.toNat
  let m1 ← match fl with
    | .next => m.stepPc c pc
    | .jump t ends => do
      let m1 ← if ends then m.leaveLoops c pc t.toNat ((m.core c).bank.rdepth + 1) else .ok m
      .ok (m1.updCore c fun k => { k with bank := { k.bank with pc := t }, fetchCap := k.bank.cap 0 })
    | .goto t => .ok (m.updBank c fun b => { b with pc := t })
    | .again => .ok m
    | .set => .ok m
  let m2 ← match fl with
    | .next | .jump .. | .goto _ => m1.applyOld c old
    | .again => .ok (m1.updBank c fun b => { b with load := old })
    | .set => .ok m1
  let m3 := m2.updCore c fun k0 =>
    let k : Core := if k0.refused.isEmpty then k0 else { (k0.refused.foldl (fun (k : Core) r => k.setCreg r.1 r.2) k0).addPend 2 with refused := [], late := some (w64 pc) }
    { k with stitches := k.stitches + st, wait := .none, rbuf := [], mid := false, resumed := (fl = .set) }
  let m4 := if (m3.core c).ctlNew.isEmpty then m3 else { m3 with freeCtr := m3.freeCtr + 1 }
  .ok ((m4.evCore c 0x01 st).evCore c 0x02 (if fl = .again then 0 else 1))

/-! ## Stopping and issue -/

/-- Record an exception and leave its vector standing at the boundary (R228, R229, R272). -/
def Mod.setTrap (m : Mod) (c vec : Nat) (regs : List (Nat × W64)) : Mod :=
  m.updCore c fun k => { regs.foldl (fun k r => k.setCreg r.1 r.2) k with trap := some vec, wait := .none }
/-- An instruction stops (R271, R434): nothing of it has come about. -/
def Mod.stop (m : Mod) (c : Nat) : Stop → Mod
  | .trap vec regs => m.setTrap c vec regs
  | .wait w => m.updCore c fun k => { k with wait := w }
  | .hold => m
  | .send u dev win off va len =>
    let r := m.remoteSend { unit := u, core := c, part := (m.partOf c).getD 0, va := va, len := len } 3 1 0 dev win off []
    r.2.updCore c fun k => { k with wait := .remote r.1 }
  | .fault f =>
    let k := m.core c
    if m.rdf (bXLT f.part + 0x80) 63 63 = 0 ∨ k.excDepth ≠ 0 then
      match xltStop 0x0A f.acc f.level f.cause f.va with
      | .trap v r => m.setTrap c v r
      | _ => m
    else
      let m1 := m.updCore c fun k => { k with wait := .fault f.va f.acc f.level }
      { m1 with xlt := { m1.xlt with flying := m1.xlt.flying ++ [{ f with unit := .core c, piece := k.piece.getD {} }] } }
/-- Majors that the fitter implements (R214). -/
def fitterMajor (major : Nat) : Bool := major < 0x10 || major == 0x2A || major == 0x2B
/-- A fetch that misses L1 instruction and the panel cache reads its line from its spool (R394). -/
def Mod.fillFetch (m : Mod) (c la : Nat) : Mod :=
  if (findWay (m.core c).mem.l1i (l1iBase la) 4 la).isSome || !m.isSpool (la * 128) || m.pncHas la || m.lineFenced (la * 128) then m
  else { m with spl := { m.spl with waiting := m.spl.waiting ++
    [{ spool := (m.place (la * 128)).spool, pa := la * 128, bucket := (m.grantOf (la * 128)).getD 17 }] } }
/-- The fetch checks of an instruction word (R211, R223, R227, R267, R269, R345): through the c0 in force since the last taken transfer. -/
def Mod.fetch (m : Mod) (c : Nat) : Ex Mod := do
  let k := m.core c
  let pc := k.bank.pc.toNat
  capCheck k.fetchCap 0 0 pEX pc 4
  if k.fetchCap.isGlove then .error (capStop 3 0 0 pc 4)
  else if k.fetchCap.type = 1 then .error (xltStop 0x03 .fetch 0 0 pc)
  else do
    let (p, m1) ← m.xlat c false .fetch pc 4
    match p with
    | .loc pa =>
      let la := pa / 128
      .ok (((m1.meetErr 0 c la).fillFetch c la).updMem c fun q => match findWay q.l1i (l1iBase la) 4 la with
        | some _ => { q with l1i := hitWay q.l1i (l1iBase la) 4 la }
        | none => { q with l1i := (insWay q.l1i (l1iBase la) 4 la 1 ()).1 })
    | _ => .error (xltStop 0x03 .fetch 0 0 pc)
/-- What an instruction's meaning answers: the module, how control goes on, and its stitches (R257). -/
abbrev Body := Ex (Mod × Flow × Nat)
/-- Issue one instruction: fetch, body, retirement (R211, R214, R254, R256, R271). Not enabled, it changes nothing
(log 2). -/
def Mod.issue (m : Mod) (c major func : Nat) (body : Mod → Body) : Mod :=
  if !m.canIssue c then m
  else
    let old := (m.core c).bank.load
    let r : Ex Mod := do
      let m1 ← m.fetch c
      if c = 256 ∧ !fitterMajor major then .error (serrStop 0x01 major func 0)
      else do
        let (m2, fl, st) ← body (m1.updCore c Core.beginBody)
        (m2.updCore c fun k => k.stampUndo old).retire c old fl st
    match r with
    | .ok m' => m'
    | .error e => m.stop c e
/-- The scalar issue exception ILLEGAL (R213). -/
def illegal (major func : Nat) : Stop := serrStop 0x01 major func 0
/-- Require a condition of the encoding, else ILLEGAL (R213). -/
def legal (ok : Bool) (major func : Nat) : Ex Unit := if ok then .ok () else .error (illegal major func)

/-! ## Exceptions -/

/-- ERET's copy of the shadow bank into the active bank (R279, R284, R285, R292). -/
def Mod.leave (m : Mod) (c : Nat) : Mod :=
  m.updCore c fun k0 =>
    let k := k0.settle
    { (k.setCregf 0x000 9 8 0) with
      bank := k.shadow.bank, fetchCap := k.shadow.cap 0, poison := k.shadowPoison, unitsHeld := false, mid := false, resumed := true,
      vec := { k.vec with stations := k.vec.stations.map fun s => { s with held := false } }
      mat := { k.mat with patches := Tab.mapV k.mat.patches fun _ p => { p with nanStop := false } } }
/-- Raise XINT on a core (R270, R298). -/
def Mod.raiseXint (m : Mod) (c : Nat) : Mod :=
  m.updCore c fun k => (k.setCregf 0x018 16 16 1).incCregBy 0x058 1

end Sys2Proof.Machine
end

