-- ==== Sys2Proof/Machine/Float.lean ====
section
/-! DEFINITION. Number formats and arithmetic (R118 to R131): values as exact dyadic numbers, one rounding to nearest even. -/

namespace Sys2Proof.Machine

/-- A format of floating-point elements (R118): exponent bits, fraction bits, bias; `ieee` has infinities and NaNs at the
all-ones exponent; `e4m3` has NaN only at all ones; else the all-ones exponent is normal (R119). -/
structure Fmt where
  eb : Nat
  fb : Nat
  bias : Nat
  ieee : Bool := true
  e4m3 : Bool := false
deriving DecidableEq, Repr, Inhabited

/-- FP64 of R118. -/
def fp64 : Fmt := { eb := 11, fb := 52, bias := 1023 }
/-- FP32 of R118. -/
def fp32 : Fmt := { eb := 8, fb := 23, bias := 127 }
/-- BF16 of R118. -/
def bf16 : Fmt := { eb := 8, fb := 7, bias := 127 }
/-- FP16 of R118. -/
def fp16 : Fmt := { eb := 5, fb := 10, bias := 15 }
/-- FP8 E4M3 of R118. -/
def e4m3 : Fmt := { eb := 4, fb := 3, bias := 7, ieee := false, e4m3 := true }
/-- FP8 E5M2 of R118. -/
def e5m2 : Fmt := { eb := 5, fb := 2, bias := 15 }
/-- FP4 E2M1 of R118. -/
def e2m1 : Fmt := { eb := 2, fb := 1, bias := 1, ieee := false }

/-- Width of a format in bits. -/
def Fmt.width (f : Fmt) : Nat := 1 + f.eb + f.fb
/-- The least exponent of a fraction unit: 1 − bias − F. -/
def Fmt.emin (f : Fmt) : Int := 1 - (f.bias : Int) - (f.fb : Int)

/-- A value: NaN, an infinity, or a finite dyadic number (−1)ˢ × man × 2^exp. -/
inductive Fl where
  | nan
  | inf (neg : Bool)
  | fin (neg : Bool) (man : Nat) (exp : Int)
deriving DecidableEq, Repr, Inhabited

/-- Plus zero. -/
def Fl.zero : Fl := .fin false 0 0
/-- The value is NaN. -/
def Fl.isNan : Fl → Bool | .nan => true | _ => false
/-- The value is zero. -/
def Fl.isZero : Fl → Bool | .fin _ m _ => m == 0 | _ => false
/-- The value is infinite. -/
def Fl.isInf : Fl → Bool | .inf _ => true | _ => false
/-- The sign of a value that has one. -/
def Fl.neg : Fl → Bool | .nan => false | .inf s => s | .fin s _ _ => s
/-- Negation of the sign; a NaN stays NaN (R129). -/
def Fl.negate : Fl → Fl | .nan => .nan | .inf s => .inf (!s) | .fin s m e => .fin (!s) m e
/-- Magnitude. -/
def Fl.abs : Fl → Fl | .nan => .nan | .inf _ => .inf false | .fin _ m e => .fin false m e
/-- An integer as a value. -/
def Fl.ofInt (i : Int) : Fl := .fin (decide (i < 0)) i.natAbs 0
/-- 2^k. -/
def Fl.pow2 (k : Int) : Fl := .fin false 1 k

/-- The value of an element's bits (R119). -/
def Fmt.decode (f : Fmt) (b : Nat) : Fl :=
  let s := bitsN b (f.eb + f.fb) (f.eb + f.fb) == 1
  let e := bitsN b (f.eb + f.fb - 1) f.fb
  let m := bitsN b (f.fb - 1) 0
  let ones := 2 ^ f.eb - 1
  if e = 0 then .fin s m f.emin
  else if e = ones ∧ f.ieee then (if m = 0 then .inf s else .nan)
  else if e = ones ∧ f.e4m3 ∧ m = 2 ^ f.fb - 1 then .nan
  else .fin s (2 ^ f.fb + m) ((e : Int) - f.bias - f.fb)

/-- Bits of the canonical NaN (R129). -/
def Fmt.nanBits (f : Fmt) : Nat :=
  if f.e4m3 then 0x7F
  else if f = e5m2 then 0x7E
  else (2 ^ f.eb - 1) * 2 ^ f.fb + 2 ^ (f.fb - 1)
/-- Bits of an infinity, where the format has one. -/
def Fmt.infBits (f : Fmt) (s : Bool) : Nat := b2n s * 2 ^ (f.eb + f.fb) + (2 ^ f.eb - 1) * 2 ^ f.fb
/-- Magnitude bits of the largest finite value. -/
def Fmt.maxMag (f : Fmt) : Nat :=
  if f.e4m3 then 0x7E
  else if f.ieee then (2 ^ f.eb - 1) * 2 ^ f.fb - 1
  else 2 ^ (f.eb + f.fb) - 1
/-- Bits of the largest finite value with a sign. -/
def Fmt.maxBits (f : Fmt) (s : Bool) : Nat := b2n s * 2 ^ (f.eb + f.fb) + f.maxMag

/-- Shift a magnitude right by `k` with rounding to nearest, ties to even; `sticky` says that bits were lost before. -/
def rneShift (m k : Nat) (sticky : Bool) : Nat :=
  if k = 0 then m
  else
    let q := m >>> k
    let r := m % 2 ^ k
    let half := 2 ^ (k - 1)
    if r > half ∨ (r = half ∧ (sticky ∨ q % 2 = 1)) then q + 1 else q

/-- A finite nonzero magnitude man × 2^exp (with lost bits below when `sticky`) as a whole number of fraction units and the
exponent of the unit, rounded to nearest even in the format with an unbounded range above (R130). -/
def Fmt.roundMag (f : Fmt) (man : Nat) (exp : Int) (sticky : Bool) : Nat × Int :=
  if man = 0 then (0, f.emin)
  else
    let top : Int := exp + (Nat.log2 man : Int)
    let u : Int := max (top - f.fb) f.emin
    if exp ≥ u then (man * 2 ^ (exp - u).toNat, u)
    else
      let q := rneShift man (u - exp).toNat sticky
      if q = 2 ^ (f.fb + 1) then (2 ^ f.fb, u + 1) else (q, u)

/-- The largest finite value of the format as man × 2^exp. -/
def Fmt.maxVal (f : Fmt) : Nat × Int :=
  match f.decode f.maxMag with
  | .fin _ m e => (m, e)
  | _ => (0, 0)
/-- man × 2^exp exceeds the largest finite value. -/
def Fmt.exceeds (f : Fmt) (man : Nat) (exp : Int) : Bool :=
  let (m, e) := f.maxVal
  let k := min exp e
  decide (m * 2 ^ (e - k).toNat < man * 2 ^ (exp - k).toNat)
/-- Bits of a rounded magnitude that does not exceed the largest value. -/
def Fmt.pack (f : Fmt) (s : Bool) (q : Nat) (u : Int) : Nat :=
  let sg := b2n s * 2 ^ (f.eb + f.fb)
  if q = 0 then sg
  else if q < 2 ^ f.fb then sg + q
  else sg + (u - f.emin + 1).toNat * 2 ^ f.fb + (q - 2 ^ f.fb)

/-- Rounding of an arithmetic result (R130): overflow gives an infinity. -/
def Fmt.round (f : Fmt) (sticky : Bool) : Fl → Nat
  | .nan => f.nanBits
  | .inf s => f.infBits s
  | .fin s m e =>
    let (q, u) := f.roundMag m e sticky
    if f.exceeds q u then f.infBits s else f.pack s q u

/-- Conversion into a narrower floating-point format (R131): the bits, and whether it overflowed. -/
def Fmt.convert (f : Fmt) : Fl → Nat × Bool
  | .nan => (if f.ieee || f.e4m3 then f.nanBits else 0, false)
  | .inf s => (if f.ieee then f.infBits s else f.maxBits s, true)
  | .fin s m e =>
    let (q, u) := f.roundMag m e false
    (if f.exceeds q u then f.maxBits s else f.pack s q u, f.exceeds m e)

/-- Integer of a value rounded to nearest even. -/
def Fl.rint (s : Bool) (m : Nat) (e : Int) : Int :=
  let q : Nat := if e ≥ 0 then m * 2 ^ e.toNat else rneShift m (-e).toNat false
  if s then -(q : Int) else q
/-- Integer of a value truncated toward zero; an infinity counts as ±2,048 (R169). -/
def Fl.trunc : Fl → Int
  | .nan => 0
  | .inf s => if s then -2048 else 2048
  | .fin s m e =>
    let q : Nat := if e ≥ 0 then m * 2 ^ e.toNat else m >>> (-e).toNat
    if s then -(q : Int) else q
/-- The exact value, sign × man × 2^exp, lies above an integer. -/
def Fl.gtInt (s : Bool) (m : Nat) (e : Int) (i : Int) : Bool :=
  let v : Int := if s then -(m : Int) else m
  if e ≥ 0 then decide (i < v * (2 ^ e.toNat : Nat)) else decide (i * (2 ^ (-e).toNat : Nat) < v)
/-- The exact value lies below an integer. -/
def Fl.ltInt (s : Bool) (m : Nat) (e : Int) (i : Int) : Bool :=
  let v : Int := if s then -(m : Int) else m
  if e ≥ 0 then decide (v * (2 ^ e.toNat : Nat) < i) else decide (v < i * (2 ^ (-e).toNat : Nat))
/-- Conversion to a signed integer of `w` bits (R131): rounded, then clamped; the value and whether it overflowed. -/
def toIntSat (w : Nat) : Fl → Int × Bool
  | .nan => (0, false)
  | .inf s => (if s then -(2 ^ (w - 1) : Nat) else (2 ^ (w - 1) : Nat) - 1, true)
  | .fin s m e =>
    let lo : Int := -(2 ^ (w - 1) : Nat)
    let hi : Int := (2 ^ (w - 1) : Nat) - 1
    let r := Fl.rint s m e
    (max lo (min hi r), Fl.gtInt s m e hi || Fl.ltInt s m e lo)

/-! ## Exact arithmetic -/

/-- Signed integer of a finite value at an exponent not above its own. -/
def sAt (s : Bool) (m : Nat) (e k : Int) : Int :=
  let q : Int := (m * 2 ^ (e - k).toNat : Nat)
  if s then -q else q
/-- Exact sum; opposite infinities give NaN; a zero sum is +0 unless both are negative (IEEE 754 under nearest even). -/
def Fl.add : Fl → Fl → Fl
  | .nan, _ => .nan
  | _, .nan => .nan
  | .inf a, .inf b => if a = b then .inf a else .nan
  | .inf a, _ => .inf a
  | _, .inf b => .inf b
  | .fin a m e, .fin b n g =>
    let k := min e g
    let v := sAt a m e k + sAt b n g k
    if v = 0 then .fin (a && b) 0 k else .fin (decide (v < 0)) v.natAbs k
/-- Exact product. -/
def Fl.mul : Fl → Fl → Fl
  | .nan, _ => .nan
  | _, .nan => .nan
  | .inf a, .inf b => .inf (a != b)
  | .inf a, .fin b n _ => if n = 0 then .nan else .inf (a != b)
  | .fin a m _, .inf b => if m = 0 then .nan else .inf (a != b)
  | .fin a m e, .fin b n g => .fin (a != b) (m * n) (e + g)
/-- Exact a × b + c. -/
def Fl.fma (a b c : Fl) : Fl := Fl.add (Fl.mul a b) c
/-- Quotient rounded to a format (R201): bits. -/
def Fmt.div (f : Fmt) (x y : Fl) : Nat :=
  match x, y with
  | .nan, _ => f.nanBits
  | _, .nan => f.nanBits
  | .inf _, .inf _ => f.nanBits
  | .inf a, .fin b _ _ => f.infBits (a != b)
  | .fin a _ _, .inf b => f.pack (a != b) 0 f.emin
  | .fin a m e, .fin b n g =>
    if n = 0 then (if m = 0 then f.nanBits else f.infBits (a != b))
    else
      let k := 2 * f.fb + 8 + Nat.log2 n
      let q := m * 2 ^ k / n
      f.round (decide (m * 2 ^ k % n ≠ 0)) (.fin (a != b) (2 * q + b2n (decide (m * 2 ^ k % n ≠ 0))) (e - g - k - 1))
/-- Square root rounded to a format (R201): bits; −0 gives −0. -/
def Fmt.sqrt (f : Fmt) : Fl → Nat
  | .nan => f.nanBits
  | .inf s => if s then f.nanBits else f.infBits false
  | .fin s m e =>
    if m = 0 then f.pack s 0 f.emin
    else if s then f.nanBits
    else
      let k := 2 * (f.fb + 4) + (if e % 2 = 0 then 0 else 1)
      let v := m * 2 ^ k
      let r := Nat.sqrt v
      f.round (decide (r * r ≠ v)) (.fin false (2 * r + b2n (decide (r * r ≠ v))) ((e - k) / 2 - 1))

/-- x < y for values that are not NaN, −0 below +0 where `z` is set. -/
def Fl.lt (z : Bool) (x y : Fl) : Bool :=
  match x, y with
  | .nan, _ => false
  | _, .nan => false
  | .inf a, .inf b => a && !b
  | .inf a, .fin .. => a
  | .fin .., .inf b => !b
  | .fin a m e, .fin b n g =>
    let k := min e g
    let u := sAt a m e k
    let v := sAt b n g k
    decide (u < v) || (z && decide (u = 0) && decide (v = 0) && a && !b)
/-- Equality of values; zeros are equal, NaN equals nothing. -/
def Fl.eq (x y : Fl) : Bool := !x.isNan && !y.isNan && !Fl.lt false x y && !Fl.lt false y x
/-- MIN of R167. -/
def Fl.min2 (x y : Fl) : Fl := if x.isNan || y.isNan then .nan else if Fl.lt true y x then y else x
/-- MAX of R167. -/
def Fl.max2 (x y : Fl) : Fl := if x.isNan || y.isNan then .nan else if Fl.lt true x y then y else x
/-- SPLIT of R168: v and e. -/
def Fl.split (even : Bool) : Fl → Fl × Int
  | .nan => (.nan, 0)
  | .inf s => (.fin s 1 0, 1024)
  | .fin s m e =>
    if m = 0 then (.fin s 0 0, -1024)
    else
      let t : Int := e + (Nat.log2 m : Int)
      let t := if even ∧ t % 2 ≠ 0 then t - 1 else t
      (.fin s m (e - t), t)
/-- INS of R169: A × 2^n, exact. -/
def Fl.ins (half : Bool) (a b c : Fl) : Fl :=
  if a.isNan || b.isNan || c.isNan then .nan
  else
    let n := max (-2048) (min 2048 (b.trunc + c.trunc))
    let n := if half then Int.tdiv n 2 else n
    match a with
    | .fin s m e => .fin s m (e + n)
    | x => x

/-! ## Codes -/

/-- The format of a code of R85 that names a floating-point format. -/
def fmtOf : Nat → Option Fmt
  | 0 => some bf16 | 1 => some fp16 | 2 => some e4m3 | 3 => some e5m2 | 5 => some e2m1 | 8 => some fp32 | 9 => some fp64
  | _ => none
/-- Width in bits of a code of R85 or R205; 0 for a reserved code. -/
def codeBits : Nat → Nat
  | 0 => 16 | 1 => 16 | 2 => 8 | 3 => 8 | 4 => 8 | 5 => 4 | 6 => 4 | 8 => 32 | 9 => 64 | 10 => 32 | 11 => 64 | 12 => 16
  | _ => 0
/-- The value of an element of a code (R119): integers of 8, 4, 32, 64 or 16 bits are signed. -/
def codeVal (code b : Nat) : Fl :=
  match fmtOf code with
  | some f => f.decode b
  | none => Fl.ofInt (sNat (codeBits code) b)
/-- Conversion of a value to a code (R131): bits, and whether it overflowed. -/
def codeConv (code : Nat) (v : Fl) : Nat × Bool :=
  match fmtOf code with
  | some f => f.convert v
  | none =>
    let r := toIntSat (codeBits code) v
    ((r.1 % (2 ^ codeBits code : Nat)).toNat, r.2)
/-- Element `i` of bytes in a code, 4-bit elements two to a byte (R120). -/
def elemOf (code : Nat) (bs : List Byte) (i : Nat) : Nat :=
  if codeBits code = 4 then
    let b := (bs.getD (i / 2) 0).toNat
    if i % 2 = 0 then b % 16 else b / 16
  else ofLe ((bs.drop (i * (codeBits code / 8))).take (codeBits code / 8))
/-- Bytes of elements in a code, packed from byte 0 (R120); a lone 4-bit element leaves its upper half zero. -/
def packElems (code : Nat) : List Nat → List Byte
  | [] => []
  | [a] => if codeBits code = 4 then [BitVec.ofNat 8 (a % 16)] else toLe (codeBits code / 8) a
  | a :: b :: t =>
    if codeBits code = 4 then BitVec.ofNat 8 (a % 16 + b % 16 * 16) :: packElems code t
    else toLe (codeBits code / 8) a ++ packElems code (b :: t)

/-- The value of a scale byte (R122, R123): code 1 E8M0, code 2 E4M3, else 1. -/
def scaleVal (sc b : Nat) : Fl :=
  match sc with
  | 1 => if b = 0xFF then .nan else .fin false 1 ((b : Int) - 127)
  | 2 => e4m3.decode b
  | _ => .fin false 1 0
/-- Block size of a scale code (R124). -/
def blockOf (sc : Nat) : Nat := if sc = 1 then 32 else 16
/-- The scale that follows a flagged block's scale (R149). -/
def doubleScale (sc b : Nat) : Nat :=
  match sc with
  | 1 => if b = 0xFF then 0xFF else if b ≥ 0xFE then 0xFE else b + 1
  | _ => match e4m3.decode b with
    | .fin s m e => if m = 0 then b else if e4m3.exceeds m (e + 1) then e4m3.maxBits s else e4m3.round false (.fin s m (e + 1))
    | _ => b

/-! ## Group sums of the array (R125 to R128) -/

/-- floor(log2) of a nonzero finite magnitude. -/
def Fl.ilog : Fl → Int
  | .fin _ m e => e + (Nat.log2 m : Int)
  | _ => 0
/-- A product truncated toward zero to whole multiples of 2^k, as a signed count of them (R126). -/
def truncAt (k : Int) : Fl → Int
  | .fin s m e =>
    let q : Nat := if e ≥ k then m * 2 ^ (e - k).toNat else m >>> (k - e).toNat
    if s then -(q : Int) else q
  | _ => 0
/-- The group sum G of R125, with W of its class (26, or 50 under R127). A group whose products are all zero is +0.0 whatever its scales are, a NaN
among them too (DESIGN CHOICE, log 73). -/
def groupSum (w : Nat) (ps : List Fl) (sa sw : Fl) : Fl :=
  let pInf := ps.any fun p => p == .inf false
  let nInf := ps.any fun p => p == .inf true
  if ps.any Fl.isNan || (pInf && nInf) then .nan
  else if pInf || nInf then Fl.mul (Fl.mul (.inf nInf) sa) sw
  else
    let nz := ps.filter fun p => !p.isZero
    match nz with
    | [] => Fl.zero
    | p :: t =>
      let emax := t.foldl (fun a q => max a q.ilog) p.ilog
      let k := emax - (w : Int)
      let s : Int := ps.foldl (fun a q => a + truncAt k q) 0
      Fl.mul (Fl.mul (.fin (decide (s < 0)) s.natAbs k) sa) sw

end Sys2Proof.Machine
end

