-- ==== Sys2Proof/Machine/Convert.lean ====
section
/-! DEFINITION. Conversion after an exact division by a block scale (R131, R146, R162), stochastic rounding (R147, R148). -/

namespace Sys2Proof.Machine

/-- An exact quotient: NaN, an infinity, or (−1)ˢ × num / den. -/
inductive Rt where
  | nan
  | inf (neg : Bool)
  | rat (neg : Bool) (num den : Nat)
deriving DecidableEq, Repr, Inhabited

/-- x / c, exact (R146, R162); a division of a nonzero value by a zero scale is infinite, of zero by zero NaN. -/
def Rt.quot (x c : Fl) : Rt :=
  match x, c with
  | .nan, _ => .nan
  | _, .nan => .nan
  | .inf _, .inf _ => .nan
  | .inf a, .fin b _ _ => .inf (a != b)
  | .fin a _ _, .inf b => .rat (a != b) 0 1
  | .fin a m e, .fin b n g =>
    if n = 0 then (if m = 0 then .nan else .inf (a != b))
    else .rat (a != b) (m * 2 ^ (e - g).toNat) (n * 2 ^ (g - e).toNat)

/-- floor(log2(num / den)) of a positive quotient. -/
def ratLog (num den : Nat) : Int :=
  let t : Int := (Nat.log2 num : Int) - Nat.log2 den
  if num * 2 ^ (-t).toNat < den * 2 ^ t.toNat then t - 1 else t
/-- The quotient in units of 2^u: whole units, remainder and divisor. -/
def ratUnits (num den : Nat) (u : Int) : Nat × Nat × Nat :=
  let n := num * 2 ^ (-u).toNat
  let d := den * 2 ^ u.toNat
  (n / d, n % d, d)
/-- The exponent of the unit in which a format represents a quotient. -/
def Fmt.ratUnit (f : Fmt) (num den : Nat) : Int := if num = 0 then f.emin else max (ratLog num den - f.fb) f.emin
/-- num / den exceeds the format's largest finite value. -/
def Fmt.ratExceeds (f : Fmt) (num den : Nat) : Bool :=
  let (m, e) := f.maxVal
  decide (m * 2 ^ e.toNat * den < num * 2 ^ (-e).toNat)
/-- Bits of whole units of 2^u with a sign; a carry into the next binade is handled by the packing. -/
def Fmt.packUnits (f : Fmt) (s : Bool) (q : Nat) (u : Int) : Nat :=
  if q = 2 ^ (f.fb + 1) then f.pack s (2 ^ f.fb) (u + 1) else f.pack s q u

/-- Conversion of a quotient to a code (R131): bits, and whether it overflowed. -/
def convRt (code : Nat) (r : Rt) : Nat × Bool :=
  match r with
  | .nan => codeConv code .nan
  | .inf s => codeConv code (.inf s)
  | .rat s num den =>
    match fmtOf code with
    | some f =>
      let u := f.ratUnit num den
      let (q, rem, d) := ratUnits num den u
      let q' := if 2 * rem > d ∨ (2 * rem = d ∧ q % 2 = 1) then q + 1 else q
      if f.ratExceeds num den then (f.maxBits s, true) else (f.packUnits s q' u, false)
    | none =>
      let w := codeBits code
      let (q, rem, d) := ratUnits num den 0
      let q' := if 2 * rem > d ∨ (2 * rem = d ∧ q % 2 = 1) then q + 1 else q
      let top : Nat := if s then 2 ^ (w - 1) else 2 ^ (w - 1) - 1
      let v := min top q'
      ((if s then (2 ^ w - v) % 2 ^ w else v), decide (top * den < num))

/-- gen of R147: 16 bits of key, position and element. -/
def gen (key pos : Nat) (i : Nat) : Nat :=
  let mask := 2 ^ 64
  let c := bitsN pos 63 32 * 2 ^ 32 + (bitsN pos 31 0 + i) % 2 ^ 32
  let x := (key + c * 0x9E3779B97F4A7C15) % mask
  let x := (nxor x (x >>> 30) * 0xBF58476D1CE4E5B9) % mask
  let x := (nxor x (x >>> 27) * 0x94D049BB133111EB) % mask
  let x := nxor x (x >>> 31)
  x % 2 ^ 16

/-- sround of R148: bits, and whether the block is flagged. -/
def sround (code : Nat) (q : Rt) (r : Nat) : Nat × Bool :=
  match q with
  | .nan => (( codeConv code .nan).1, false)
  | .inf s => ((match fmtOf code with | some f => f.maxBits s | none => (codeConv code (.inf s)).1), true)
  | .rat s num den =>
    match fmtOf code with
    | some f =>
      if f.ratExceeds num den then (f.maxBits s, true)
      else
        let u := f.ratUnit num den
        let (lo, rem, d) := ratUnits num den u
        if rem = 0 then (f.packUnits s lo u, false)
        else (f.packUnits s (if r * d < rem * 2 ^ 16 then lo + 1 else lo) u, false)
    | none =>
      let w := codeBits code
      let top : Nat := if s then 2 ^ (w - 1) else 2 ^ (w - 1) - 1
      let (lo, rem, d) := ratUnits num den 0
      let v := if decide (top * den < num) then top else if rem = 0 then lo else if r * d < rem * 2 ^ 16 then lo + 1 else lo
      ((if s then (2 ^ w - v) % 2 ^ w else v), decide (top * den < num))

end Sys2Proof.Machine
end

