-- ==== Sys2Proof/Machine/VecArith.lean ====
section
/-! DEFINITION. Element arithmetic of the long-vector unit (R182 to R209) and MUPD (R144 to R149): what an instruction
writes, from the registers it reads. -/

namespace Sys2Proof.Machine

/-- Element bytes of a TYPE (R182). -/
def tyBytes : Nat → Nat
  | 0 => 8 | 1 => 4 | 2 => 2 | 3 => 2 | 4 => 8 | 5 => 4 | 6 => 2 | _ => 1
/-- Elements per register of a TYPE. -/
def tyCap (t : Nat) : Nat := 2048 / tyBytes t
/-- Elements per group of a TYPE. -/
def tyGroup (t : Nat) : Nat := 256 / tyBytes t
/-- The format of a floating-point TYPE. -/
def tyFmt : Nat → Option Fmt
  | 0 => some fp64 | 1 => some fp32 | 2 => some bf16 | 3 => some fp16 | _ => none
/-- Element `i` of register `r`, of `n` bytes. -/
def vGet (regs : Tab Byte) (r n i : Nat) : Nat := ofLe (Memory.bytes regs (2048 * r + n * i) n)

/-- What a vector instruction writes: register bytes by address in the 64 KiB space, masks, the first NaN element, and the
counts of elements that raise the NaN trap (R139), of NaNs written and of overflows. -/
structure VRes where
  writes : List (Nat × List Byte) := []
  masks : List (Nat × Nat) := []
  nan : Option Nat := none
  trapped : Nat := 0
  nans : Nat := 0
  ovf : Nat := 0
deriving DecidableEq, Repr, Inhabited

/-- Comparison of R167 and R201 on FP values. -/
def relFp (rel : Nat) (x y : Fl) : Bool :=
  match rel with
  | 0 => Fl.eq x y | 1 => !Fl.eq x y | 2 => Fl.lt false x y | 3 => Fl.lt false x y || Fl.eq x y | _ => x.isNan || y.isNan
/-- Comparison of signed integers; UNORD never holds. -/
def relInt (rel : Nat) (x y : Int) : Bool :=
  match rel with
  | 0 => x == y | 1 => x != y | 2 => decide (x < y) | 3 => decide (x ≤ y) | _ => false

/-- VARITH on a floating-point TYPE: bits of the result (R200, R201, R207). -/
def arithFp (f : Fmt) (fn a b : Nat) : Nat :=
  let x := f.decode a
  let y := f.decode b
  match fn with
  | 0x00 => f.round false (Fl.add x y)
  | 0x01 => f.round false (Fl.add x y.negate)
  | 0x02 => f.round false (Fl.mul x y)
  | 0x03 => f.div x y
  | 0x04 => f.sqrt x
  | 0x05 => f.round false (Fl.min2 x y)
  | 0x06 => f.round false (Fl.max2 x y)
  | 0x07 => f.round false x.abs
  | 0x08 => f.round false x.negate
  | 0x09 => f.round false (Fl.split false x).1
  | 0x0A => f.round false (Fl.ofInt (Fl.split false x).2)
  | _ => f.round false (Fl.ins false x y Fl.zero)
/-- VARITH on an integer TYPE of `w` bits. -/
def arithInt (w fn a b : Nat) : Nat :=
  let m := 2 ^ w
  let x := sNat w a
  let y := sNat w b
  let sh := b % w
  match fn with
  | 0x00 => (a + b) % m
  | 0x01 => (a + (m - b)) % m
  | 0x02 => (a * b) % m
  | 0x05 => if y < x then b else a
  | 0x06 => if x < y then b else a
  | 0x07 => if x < 0 then (m - a) % m else a
  | 0x08 => (m - a) % m
  | 0x10 => a &&& b
  | 0x11 => a ||| b
  | 0x12 => nxor a b
  | 0x13 => (a <<< sh) % m
  | 0x14 => a >>> sh
  | _ => (Int.toNat ((x >>> sh) % (m : Int)))
/-- The function is legal on the TYPE (R207). -/
def arithLegal (fn t : Nat) : Bool :=
  let fp := t < 4
  if fn ≤ 2 ∨ (5 ≤ fn ∧ fn ≤ 8) then true else if fn ≤ 0x0B then fp else !fp
/-- A defined VARITH FUNC. -/
def arithDefined (fn : Nat) : Bool := fn ≤ 0x0B || (0x10 ≤ fn && fn ≤ 0x15)

/-- Combine adjacent pairs until one value remains (R203); `n` halvings suffice. -/
def pairUp {α : Type} (op : α → α → α) : Nat → List α → List α
  | 0, l => l
  | k + 1, l =>
    let rec go : List α → List α
      | a :: b :: t => op a b :: go t
      | t => t
    pairUp op k (go l)
/-- VRED (R202, R203): the format or width the reduction is formed in, and its result bits. -/
def reduce (t rop : Nat) (elems : List (Option Nat)) : Nat × Nat :=
  let g := tyGroup t
  let groups : List (List (Option Nat)) := (upto ((elems.length + g - 1) / g)).map fun k =>
    let l := (elems.drop (k * g)).take g
    l ++ List.replicate (g - l.length) none
  match tyFmt t with
  | some f =>
    let out := if t = 0 then fp64 else fp32
    let val : Option Nat → Option Fl := fun e => e.map f.decode
    let rnd (v : Fl) : Fl := out.decode (out.round false v)
    let sum : Option Fl → Option Fl → Option Fl := fun a b => some (rnd (Fl.add (a.getD Fl.zero) (b.getD Fl.zero)))
    let pick (op : Fl → Fl → Fl) : Option Fl → Option Fl → Option Fl := fun a b =>
      match a, b with | none, b => b | a, none => a | some a, some b => some (op a b)
    let op := match rop with | 0 => sum | 1 => pick Fl.max2 | _ => pick Fl.min2
    let each := groups.map fun l => ((pairUp op 8 (l.map val)).headD none)
    let start : Option Fl := if rop = 0 then some Fl.zero else none
    let r := each.foldl op start
    let v := match r with | some v => v | none => if rop = 0 then Fl.zero else Fl.inf (rop == 1)
    (out.width / 8, out.round false v)
  | none =>
    let w := 8 * tyBytes t
    let ow := if t = 4 then 64 else 32
    let val : Option Nat → Option Int := fun e => e.map (sNat w)
    let sum : Option Int → Option Int → Option Int := fun a b => some (a.getD 0 + b.getD 0)
    let pick (op : Int → Int → Int) : Option Int → Option Int → Option Int := fun a b =>
      match a, b with | none, b => b | a, none => a | some a, some b => some (op a b)
    let op := match rop with | 0 => sum | 1 => pick max | _ => pick min
    let each := groups.map fun l => ((pairUp op 8 (l.map val)).headD none)
    let r := each.foldl op (if rop = 0 then some 0 else none)
    let v : Int := match r with
      | some v => v
      | none => if rop = 1 then -(2 ^ (ow - 1) : Nat) else (2 ^ (ow - 1) : Nat) - 1
    (ow / 8, (v % (2 ^ ow : Nat)).toNat)

/-- Active elements below VL under a MASK field (R186). -/
def activeIx (vl mask : Nat) (masks : Tab Nat) : List Nat :=
  (upto vl).filter fun i => mask = 0 || (Tab.get 0 masks mask).testBit i
/-- Element writes of a register. -/
def elemWrites (r n : Nat) (es : List (Nat × Nat)) : List (Nat × List Byte) :=
  es.map fun p => (2048 * r + n * p.1, toLe n p.2)
/-- The NaN record of written elements in a format (R139). -/
def nanOf (f : Option Fmt) (es : List (Nat × Nat)) : Option Nat × Nat :=
  match f with
  | none => (none, 0)
  | some f =>
    let l := es.filter fun p => (f.decode p.2).isNan
    (l.head?.map (·.1), l.length)

/-- VARITH (R206, R207). -/
def evalArith (regs : Tab Byte) (masks : Tab Nat) (vl vd va vb mask t fn : Nat) : VRes :=
  let n := tyBytes t
  let es := (activeIx vl mask masks).map fun i =>
    let a := vGet regs va n i
    let b := vGet regs vb n i
    (i, match tyFmt t with | some f => arithFp f fn a b | none => arithInt (8 * n) fn a b)
  let q := nanOf (tyFmt t) es
  { writes := elemWrites vd n es, nan := q.1, trapped := q.2, nans := q.2 }
/-- VFMA (R206): one rounding; NP negates the product. -/
def evalFma (regs : Tab Byte) (masks : Tab Nat) (vl vd va vb vc mask t np : Nat) : VRes :=
  let f := (tyFmt t).getD fp64
  let n := tyBytes t
  let es := (activeIx vl mask masks).map fun i =>
    let p := Fl.mul (f.decode (vGet regs va n i)) (f.decode (vGet regs vb n i))
    (i, f.round false (Fl.add (if np = 1 then p.negate else p) (f.decode (vGet regs vc n i))))
  let q := nanOf (some f) es
  { writes := elemWrites vd n es, nan := q.1, trapped := q.2, nans := q.2 }
/-- Replace bits of a mask. -/
def maskSet (old : Nat) (bs : List (Nat × Bool)) : Nat :=
  bs.foldl (fun m p => if p.2 then m ||| (1 <<< p.1) else if m.testBit p.1 then m - (1 <<< p.1) else m) old
/-- VCMP (R206). -/
def evalCmp (regs : Tab Byte) (masks : Tab Nat) (vl md va vb mask t rel : Nat) : VRes :=
  let n := tyBytes t
  let bs := (activeIx vl mask masks).map fun i =>
    let a := vGet regs va n i
    let b := vGet regs vb n i
    (i, match tyFmt t with | some f => relFp rel (f.decode a) (f.decode b) | none => relInt rel (sNat (8 * n) a) (sNat (8 * n) b))
  { masks := [(md, maskSet (Tab.get 0 masks md) bs)] }
/-- VMLOG (R208): bits 0 to VL − 1 of MD. -/
def evalMlog (masks : Tab Nat) (vl md ma mb fn : Nat) : VRes :=
  let a := Tab.get 0 masks ma
  let b := Tab.get 0 masks mb
  let v (i : Nat) : Bool := match fn with
    | 0 => a.testBit i && b.testBit i | 1 => a.testBit i || b.testBit i | 2 => a.testBit i != b.testBit i
    | 3 => a.testBit i && !b.testBit i | 4 => !a.testBit i | 5 => true | _ => false
  { masks := [(md, maskSet (Tab.get 0 masks md) ((upto vl).map fun i => (i, v i)))] }
/-- VRED (R202, R203). -/
def evalRed (regs : Tab Byte) (masks : Tab Nat) (vl vd va mask t rop : Nat) : VRes :=
  if vl = 0 then {}
  else
    let n := tyBytes t
    let act := activeIx vl mask masks
    let r := reduce t rop ((upto vl).map fun i => if act.contains i then some (vGet regs va n i) else none)
    let q := nanOf (if t < 4 then some (if t = 0 then fp64 else fp32) else none) [(0, r.2)]
    { writes := [(2048 * vd, toLe r.1 r.2)], nan := q.1, trapped := q.2, nans := q.2 }
/-- An element of a register in a code of R205. -/
def vCode (regs : Tab Byte) (r code i : Nat) : Nat :=
  if codeBits code = 4 then
    let b := (Memory.byte regs (2048 * r + i / 2)).toNat
    if i % 2 = 0 then b % 16 else b / 16
  else vGet regs r (codeBits code / 8) i
/-- Writes of elements in a code: 4-bit elements change half a byte (R120). -/
def codeWrites (regs : Tab Byte) (r code : Nat) (es : List (Nat × Nat)) : List (Nat × List Byte) :=
  if codeBits code = 4 then
    (upto 1024).filterMap fun k =>
      let lo := es.find? fun p => p.1 == 2 * k
      let hi := es.find? fun p => p.1 == 2 * k + 1
      if lo.isNone ∧ hi.isNone then none
      else
        let old := (Memory.byte regs (2048 * r + k)).toNat
        let l := match lo with | some p => p.2 % 16 | none => old % 16
        let h := match hi with | some p => p.2 % 16 | none => old / 16
        some (2048 * r + k, [BitVec.ofNat 8 (l + 16 * h)])
  else elemWrites r (codeBits code / 8) es
/-- Every value of the first format is one of the second: the conversion widens, or keeps the format (R204). -/
def Fmt.within (g f : Fmt) : Bool := f.ieee && decide (g.eb ≤ f.eb) && decide (g.fb ≤ f.fb)
/-- VCVT of one element (R204): bits and overflow. Widening is exact, so that it meets no overflow; every other conversion clamps
and flags an overflow under R131. -/
def cvtElem (sf df b : Nat) : Nat × Bool :=
  match fmtOf sf, fmtOf df with
  | some g, some f => if g.within f then (f.round false (g.decode b), false) else f.convert (g.decode b)
  | _, _ => codeConv df (codeVal sf b)
/-- VCVT (R204, R205). -/
def evalCvt (regs : Tab Byte) (masks : Tab Nat) (vl vd va mask df sf : Nat) : VRes :=
  let rs := (activeIx vl mask masks).map fun i => (i, cvtElem sf df (vCode regs va sf i))
  let es := rs.map fun p => (p.1, p.2.1)
  let q := nanOf (fmtOf df) es
  { writes := codeWrites regs vd df es, ovf := (rs.filter fun p => p.2.2).length, nan := q.1, trapped := q.2, nans := q.2 }
/-- VPERM (R209). -/
def evalPerm (regs : Tab Byte) (masks : Tab Nat) (vl vd va mask t sub : Nat) (arg : Nat) : VRes :=
  let n := tyBytes t
  let act := activeIx vl mask masks
  let es := match sub with
    | 0 => act.map fun i => (i, vGet regs va n i)
    | 1 => act.map fun i => (i, vGet regs va n arg)
    | 2 => (act.filter fun k => decide (arg ≤ k)).map fun k => (k, vGet regs va n (k - arg))
    | 3 => act.map fun k => (k, if k + arg < vl then vGet regs va n (k + arg) else 0)
    | _ => act.zipIdx.map fun p => (p.2, vGet regs va n p.1)
  { writes := elemWrites vd n es }
/-- MUPD (R146 to R149). -/
def evalMupd (regs : Tab Byte) (vl vd vs vsc mf fmt sc key pos : Nat) : VRes :=
  let s := blockOf sc
  let nb := if sc = 0 then 0 else vl / s
  let scByte (b : Nat) : Nat := (Memory.byte regs (2048 * vsc + b)).toNat
  let c (i : Nat) : Fl := if sc = 0 then .fin false 1 0 else scaleVal sc (scByte (i / s))
  let rs := (upto vl).map fun i =>
    (i, sround fmt (Rt.quot (fp32.decode (vGet regs vs 4 i)) (c i)) (gen key pos i))
  let flag (b : Nat) : Bool := rs.any fun p => p.1 / s == b && p.2.2
  let next := (upto nb).map fun b => (2048 * vsc + 32 + b, [BitVec.ofNat 8 (if flag b then doubleScale sc (scByte b) else scByte b)])
  let nanIn := (upto vl).filter fun i => (fp32.decode (vGet regs vs 4 i)).isNan || (c i).isNan
  { writes := codeWrites regs vd fmt (rs.map fun p => (p.1, p.2.1)) ++ next
    masks := [(mf, maskSet 0 ((upto nb).map fun b => (b, flag b)))]
    nan := nanIn.head?
    trapped := nanIn.length
    nans := (rs.filter fun p => match fmtOf fmt with | some f => (f.decode p.2.1).isNan | none => false).length
    ovf := if sc = 0 then (rs.filter fun p => p.2.2).length else 0 }

end Sys2Proof.Machine
end

