-- ==== Sys2Proof/Machine/UnitOps.lean ====
section
/-! DEFINITION. What the units of a core share: shapes and tile records (R85 to R101), what an unfinished instruction reads and
writes, program order among them (R108), bolt access (R341), the NaN report (R140 to R143). -/

namespace Sys2Proof.Machine

/-! ## Shapes (R85 to R101) -/

/-- A shape with its fields read (MAT_SHAPE). -/
structure Shape where
  m : Nat
  n : Nat
  k : Nat
  wf : Nat
  af : Nat
  ws : Nat
  as : Nat
  asv : Nat
deriving DecidableEq, Repr, Inhabited
/-- The fields of a shape word. -/
def shapeOf (w : W64) : Shape :=
  { m := fld w 9 0 + 1, n := fld w 19 10 + 1, k := fld w 29 20 + 1, wf := fld w 33 30, af := fld w 37 34
    ws := fld w 39 38, as := fld w 41 40, asv := fld w 46 42 }
/-- Format class: 0 narrow, 1 FP32, 2 FP64. -/
def Shape.cls (s : Shape) : Nat := if s.wf = 8 then 1 else if s.wf = 9 then 2 else 0
/-- K_B and N_B of a mode and class (R89). -/
def blockDims (mode cls : Nat) : Nat × Nat :=
  let d := 2 ^ cls
  match mode with
  | 0 => (128 / d, 128 / d) | 1 => (128 / d, 64 / d) | 2 => (64 / d, 64 / d) | _ => (32 / d, 32 / d)
/-- Patches of a mode. -/
def patchesOf (mode : Nat) : Nat := match mode with | 0 => 1 | 1 => 2 | 2 => 4 | _ => 16
/-- Divide, rounding up. -/
def cdiv (a b : Nat) : Nat := (a + b - 1) / b
/-- KB and NB (R94). -/
def Shape.tiles (s : Shape) (mode : Nat) : Nat × Nat :=
  let b := blockDims mode s.cls
  (cdiv s.k b.1, cdiv s.n b.2)
/-- K_pad (R94). -/
def Shape.kpad (s : Shape) (mode : Nat) : Nat := (s.tiles mode).1 * (blockDims mode s.cls).1
/-- N_pad. -/
def Shape.npad (s : Shape) (mode : Nat) : Nat := (s.tiles mode).2 * (blockDims mode s.cls).2
/-- Words per result (R97). -/
def Shape.e (s : Shape) : Nat := if s.cls = 2 then 2 else 1
/-- Element bytes of a tile record (R101). -/
def Shape.recElems (s : Shape) (mode : Nat) : Nat :=
  let b := blockDims mode s.cls
  b.1 * b.2 * codeBits s.wf / 8
/-- Bytes of a tile record that are read: elements and scales, without the padding (R101). -/
def Shape.recUsed (s : Shape) (mode : Nat) : Nat :=
  let b := blockDims mode s.cls
  s.recElems mode + (if s.ws = 0 then 0 else b.1 / blockOf s.ws * b.2)
/-- Size of a tile record (R101). -/
def Shape.recSize (s : Shape) (mode : Nat) : Nat := cdiv (s.recUsed mode) 128 * 128
/-- Bytes of the activation rows (R99). -/
def Shape.rowBytes (s : Shape) (mode : Nat) : Nat := s.m * s.kpad mode * (codeBits s.af / 8)
/-- Bytes of the activation scales (R100). -/
def Shape.scaleBytes (s : Shape) (mode : Nat) : Nat := if s.as = 0 then 0 else s.m * (s.kpad mode / blockOf s.as)

/-! ## Bolts (R338, R341) -/

/-- Bytes of the bolt. -/
def boltSize : Nat := 0x400000
/-- Errors come into granules of a bolt (R341). -/
def Mod.boltErrors (m : Mod) (c : Nat) (bad : BoltErrs) : Mod :=
  if bad.isEmpty then m
  else m.updCore c fun k =>
    { k with boltErr := bad.foldl (fun t p => Tab.put t p.1.toNat (max (Tab.get 0 t p.1.toNat) (if p.2 then 2 else 1))) k.boltErr }
/-- A granule is touched by one of the ranges (offset, length). -/
def touched (rs : List (Nat × Nat)) (g : Nat) : Bool := rs.any fun r => meet (16 * g) 16 r.1 r.2
/-- Ranges of the bolt are read: single-bit errors in them are corrected, and an uncorrectable granule is reported (R341). -/
def Mod.boltCheck (m : Mod) (c : Nat) (rs : List (Nat × Nat)) : Bool × Mod :=
  let errs := (m.core c).boltErr.filter fun p => touched rs p.1
  let one := (errs.filter fun p => p.2 == 1).length
  let two := (errs.filter fun p => p.2 != 1).length
  if errs.isEmpty then (false, m)
  else
    let m1 := m.updCore c fun k => { k with boltErr := k.boltErr.filter fun p => p.2 != 1 || !touched rs p.1 }
    let m2 := (m1.incBy (bL2C c + 0x40 + 8 * 3) one).incBy (bL2C c + 0x40 + 8 * 4) two
    (decide (0 < two), if 0 < two then m2.raise (bL2C c + 0x08) 3 else m2)
/-- Read one range of the bolt (R341). The contents of a fenced core's bolt are lost (R588): free bytes (log 6). -/
def Mod.boltRead (m : Mod) (c off n : Nat) : List Byte × Bool × Mod :=
  if m.coreFenced c then let r := m.freeBytes n; (r.1, false, r.2)
  else (Memory.bytes (m.core c).bolt off n, m.boltCheck c [(off, n)])
/-- Write the bolt: granules written whole are sound again. -/
def Core.boltWrite (k : Core) (off : Nat) (bs : List Byte) : Core :=
  { k with bolt := Memory.setBytes k.bolt off bs
           boltErr := k.boltErr.filter fun p => !(decide (off ≤ 16 * p.1) && decide (16 * p.1 + 16 ≤ off + bs.length)) }

/-! ## What an unfinished instruction reads and writes -/

/-- Places, as ranges (first, count) of one space: register bytes, masks from 0x10000, accumulator words from 0x20000, bolt
bytes from 0x40000. -/
structure Foot where
  reads : List (Nat × Nat) := []
  writes : List (Nat × Nat) := []
deriving DecidableEq, Repr, Inhabited
/-- A whole vector register. -/
def fReg (r : Nat) : Nat × Nat := (2048 * r, 2048)
/-- A mask register. -/
def fMask (j : Nat) : Nat × Nat := (0x10000 + j, 1)
/-- Accumulator words. -/
def fAcc (w n : Nat) : Nat × Nat := (0x20000 + w, n)
/-- Bolt bytes. -/
def fBolt (o n : Nat) : Nat × Nat := (0x40000 + o, n)
/-- Some range of one list meets some range of another. -/
def meets (a b : List (Nat × Nat)) : Bool := a.any fun p => b.any fun q => meet p.1 p.2 q.1 q.2
/-- A later instruction may not overtake an earlier one. -/
def Foot.conflict (early late : Foot) : Bool := meets early.writes late.reads || meets early.reads late.writes || meets early.writes late.writes
/-- A governing mask, m0 governing nothing (R186). -/
def maskRead (j : Nat) : List (Nat × Nat) := if j = 0 then [] else [fMask j]
/-- Reads and writes of a vector instruction by its word (R206 to R209, R144). -/
def vecFoot (w : W32) (bolt : Option Nat) (vlen : Nat) : Foot :=
  let rg (h l : Nat) := fReg (fld w h l)
  let b : List (Nat × Nat) := match bolt with | some o => [fBolt o vlen] | none => []
  match fld w 31 26 with
  | 0x20 =>
    match fld w 4 0 with
    | 2 => { reads := maskRead (fld w 20 18), writes := [rg 25 21] }
    | 3 => { writes := [rg 25 21] }
    | 7 => { writes := [fMask (fld w 20 18)] }
    | 8 => { reads := [fMask (fld w 20 18)] }
    | _ => {}
  | 0x21 => { reads := maskRead (fld w 20 18) ++ b, writes := [rg 25 21] }
  | 0x22 => { reads := rg 25 21 :: maskRead (fld w 20 18), writes := b }
  | 0x23 => { reads := rg 20 16 :: rg 15 11 :: maskRead (fld w 10 8), writes := [rg 25 21] }
  | 0x24 => { reads := rg 20 16 :: rg 15 11 :: rg 10 6 :: maskRead (fld w 5 3), writes := [rg 25 21] }
  | 0x25 => { reads := rg 22 18 :: rg 17 13 :: maskRead (fld w 12 10), writes := [fMask (fld w 25 23)] }
  | 0x26 => { reads := [fMask (fld w 22 20), fMask (fld w 19 17)], writes := [fMask (fld w 25 23)] }
  | 0x27 => { reads := rg 20 16 :: maskRead (fld w 15 13), writes := [rg 25 21] }
  | 0x28 => { reads := rg 20 16 :: maskRead (fld w 15 13), writes := [rg 25 21] }
  | 0x29 => { reads := rg 20 16 :: maskRead (fld w 15 13), writes := [rg 25 21] }
  | 0x36 => { reads := [rg 20 16, rg 15 11], writes := [rg 25 21, rg 15 11, fMask (fld w 10 8)] }
  | _ => {}
/-- What a station still reads and writes. -/
def Station.foot (s : Station) : Foot :=
  let f := vecFoot s.word s.bolt s.vlen
  if s.started then { f with reads := [] } else f
/-- The station moves data between a register and memory or the bolt. -/
def Station.isMem (s : Station) : Bool :=
  let mj := fld s.word 31 26
  mj == 0x21 || mj == 0x22 || (mj == 0x20 && (fld s.word 4 0 == 7 || fld s.word 4 0 == 8))
/-- The station stores to memory or the bolt. -/
def Station.isStore (s : Station) : Bool := fld s.word 31 26 == 0x22 || (fld s.word 31 26 == 0x20 && fld s.word 4 0 == 8)
/-- What an MTILE, MPRE or MZERO still reads and writes (R108). -/
def MatInstr.foot (x : MatInstr) (mode : Nat) : Foot :=
  let s := shapeOf x.shape
  let t := s.tiles mode
  match x.zero with
  | some r => { writes := [fAcc r.1 r.2] }
  | none =>
  if x.pre then { reads := [fBolt x.wofs (s.recSize mode)] }
  else
    let act := if x.asrc then fBolt x.aofs (s.rowBytes mode) else (2048 * x.vreg, s.rowBytes mode)
    let sc := if s.as = 0 then [] else [fReg s.asv]
    { reads := if x.started = t.1 * t.2 then [] else act :: fBolt x.wofs (t.1 * t.2 * s.recSize mode) :: sc
      writes := if x.summed = t.1 * t.2 then [] else [fAcc (128 * x.abase) (s.m * s.npad mode * s.e)] }
/-- A little-endian word of a descriptor. -/
def descW (d : List Byte) (off n : Nat) : Nat := ofLe ((d.drop off).take n)
/-- Bytes of one element of a finishing place, in bits: 32-bit words of the accumulator, else the format. -/
def finUnits (kind fmt base rows rowlen pitch count : Nat) : List (Nat × Nat) :=
  let last := (rows - 1) * pitch + (count - (rows - 1) * rowlen)
  let ext := if rows ≤ 1 then last else max last ((rows - 2) * pitch + rowlen)
  match kind with
  | 0 => [fAcc base (ext * (if fmt = 9 then 2 else 1))]
  | 1 => [(base, cdiv (ext * codeBits fmt) 8)]
  | 2 => [fBolt base (cdiv (ext * codeBits fmt) 8)]
  | _ => []
/-- What a pass reads and writes (R159, R162, R163). -/
def FinPass.foot (p : FinPass) : Foot :=
  let h := descW p.desc 0 4
  let k := descW p.desc 4 4
  let rl := bitsN (descW p.desc 8 4) 19 0 + 1
  let pt (v : Nat) := if v = 0 then rl else v
  let rows := cdiv p.count rl
  let xs := finUnits (bitsN k 31 30) (bitsN k 29 26) p.xbase rows rl (pt (descW p.desc 0xC 2)) p.count
  let ys := if bitsN k 25 24 = 3 then [] else finUnits (bitsN k 25 24) (bitsN k 23 20) p.ybase rows rl (pt (descW p.desc 0xE 2)) p.count
  let ds := if bitsN k 19 18 = 1 ∨ bitsN k 19 18 = 2 then finUnits (bitsN k 19 18) (bitsN k 17 14) p.dbase rows rl (pt (descW p.desc 0x10 2)) p.count else []
  let osv := if bitsN k 13 12 = 0 then [] else [fReg (bitsN k 11 7)]
  { reads := xs ++ ys ++ [fReg (bitsN h 15 11)] ++ osv
    writes := ds ++ osv ++ (if bitsN k 13 12 = 0 then [] else [fMask (bitsN k 6 4)]) ++ (if bitsN h 22 21 = 0 then [] else [fReg (bitsN h 20 16)]) }
/-- One unfinished instruction of the units. -/
structure Item where
  seq : Nat
  foot : Foot
  isMat : Bool
  isVec : Bool
  held : Bool
/-- Every unfinished instruction of a core's units. -/
def Core.items (k : Core) : List Item :=
  let mode := k.cregf 0x1000 1 0
  (k.vec.stations.map fun s => { seq := s.seq, foot := s.foot, isMat := false, isVec := true, held := s.held }) ++
  (k.mat.patches.flatMap fun p => p.2.queue.map fun x => { seq := x.seq, foot := x.foot mode, isMat := x.zero.isNone, isVec := false, held := false }) ++
  ((k.fin.queue ++ k.fin.running.toList).map fun p => { seq := p.seq, foot := (if k.fin.running = some p then { p.foot with reads := [] } else p.foot), isMat := false, isVec := false, held := false })
/-- An instruction of number `seq` must wait for an earlier one (R108, R109). While a handler runs, its vector instructions are
ordered among themselves only (R285). -/
def Core.blocked (k : Core) (seq : Nat) (f : Foot) (isMat : Bool) : Bool :=
  k.items.any fun it => decide (it.seq < seq) && !(isMat && it.isMat) && it.foot.conflict f && !(k.unitsHeld && (it.held || !it.isVec))

/-! ## The NaN report (R140 to R143) -/

/-- A NaN is reported: the first is held and raises the trap, a further one is counted. MORE falls by a written 1 alone (R11). -/
def Mod.nanReport (m : Mod) (c src pc loc : Nat) : Mod :=
  m.updCore c fun k =>
    if k.cregf 0x300 0 0 = 1 then (k.setCregf 0x300 4 4 1).incCregBy 0x330 1
    else
      let org := k.creg 0x3010
      let pid := k.piece.getD {}
      let k1 := (((k.setCregf 0x300 3 0 (1 + 2 * src + 8 * b2n (bit org 31))).setCreg 0x308 (w64 (pc % 2 ^ 48))).setCreg 0x310
        (w64 (pid.slot % 64 * 2 ^ 16 + pid.ix % 2 ^ 16))).setCreg 0x318 (w64 loc)
      ((k1.setCreg 0x320 (w64 (fld org 31 0))).incCregBy 0x328 1).addPend 6
/-- `n` NaNs of one instruction are reported, the first of them at `loc` (R140, R142). -/
def Mod.nanReports (m : Mod) (c src pc loc n : Nat) : Mod :=
  if n = 0 then m
  else
    let m1 := m.nanReport c src pc loc
    if n = 1 then m1 else m1.updCore c fun k => (k.setCregf 0x300 4 4 1).incCregBy 0x330 (n - 1)

/-! ## Program order (R108, R112) -/

/-- An MZERO of a patch queue that nothing earlier is in the way of, with its patch. -/
def Core.readyZero (k : Core) : Option (Nat × MatInstr) :=
  k.mat.patches.findSome? fun p =>
    if p.2.nanStop then none
    else (p.2.queue.find? fun x => x.zero.isSome && !k.blocked x.seq (x.foot 0) false).map fun x => (p.1, x)
/-- Every MZERO of the patch queues that need not wait zeroes its words and leaves its queue (R108, R112, log 51). -/
def Core.settleZeros (k : Core) : Nat → Core
  | 0 => k
  | n + 1 =>
    if k.unitsHeld then k
    else match k.readyZero with
      | some (p, x) =>
        let q := Tab.get {} k.mat.patches p
        let r := x.zero.getD (0, 0)
        Core.settleZeros { k with mat := { k.mat with patches := Tab.put k.mat.patches p { q with queue := q.queue.filter fun y => y.seq != x.seq }
                                                      acc := Tab.clear k.mat.acc r.1 (r.1 + r.2) } } n
      | none => k
/-- More MZEROs than the patch queues can hold. -/
def zeroMax : Nat := 129

end Sys2Proof.Machine
end

