-- ==== Sys2Proof/Machine/Shuttle.lean ====
section
/-! DEFINITION. The shuttles (R371 to R380, R418): a descriptor's checks, the start of each operation, its bytes moved when it is done,
and how it fails. -/

namespace Sys2Proof.Machine

/-! ## Descriptors (R371, R372) -/

/-- A field of 4 bytes of a descriptor. -/
def ShtDesc.f (d : ShtDesc) (off hi lo : Nat) : Nat := bitsN (descW d.bytes off 4) hi lo
/-- A field of 8 bytes of a descriptor. -/
def ShtDesc.w (d : ShtDesc) (off : Nat) : Nat := descW d.bytes off 8
/-- OP. -/
def ShtDesc.op (d : ShtDesc) : Nat := d.f 0 31 28
/-- STREAM. -/
def ShtDesc.stream (d : ShtDesc) : Bool := d.f 0 27 27 == 1
/-- FENCE. -/
def ShtDesc.fence (d : ShtDesc) : Bool := d.f 0 26 26 == 1
/-- SKIND. -/
def ShtDesc.skind (d : ShtDesc) : Nat := d.f 0 19 18
/-- DKIND. -/
def ShtDesc.dkind (d : ShtDesc) : Nat := d.f 0 17 16
/-- LEN. -/
def ShtDesc.len (d : ShtDesc) : Nat := d.f 0x18 31 0
/-- Rows. -/
def ShtDesc.rows (d : ShtDesc) : Nat := d.f 0x1C 19 0 + 1
/-- Source address of a row (R372). -/
def ShtDesc.rowS (d : ShtDesc) (r : Nat) : Int :=
  let a : Int := d.w 0x08
  match d.op with
  | 2 => a + r * sNat 64 (d.w 0x20)
  | 3 => a + d.idx.getD r 0 * sNat 64 (d.w 0x20)
  | 4 => a + r * sNat 64 (d.w 0x20)
  | _ => a
/-- Destination address of a row (R372). -/
def ShtDesc.rowD (d : ShtDesc) (r : Nat) : Int :=
  let a : Int := d.w 0x10
  match d.op with
  | 2 => a + r * sNat 64 (d.w 0x28)
  | 3 => a + r * sNat 64 (d.w 0x28)
  | 4 => a + d.idx.getD r 0 * sNat 64 (d.w 0x28)
  | _ => a
/-- The descriptor has a source in memory. -/
def ShtDesc.hasSrc (d : ShtDesc) : Bool := d.op != 5
/-- The descriptor has an index list. -/
def ShtDesc.hasIdx (d : ShtDesc) : Bool := d.op == 3 || d.op == 4
/-- Bytes of an index. -/
def ShtDesc.isize (d : ShtDesc) : Nat := if d.f 0x38 5 4 = 0 then 4 else 8

/-! ## Checks (R376) -/

/-- SHT_BADOP. -/
def ShtDesc.badop (d : ShtDesc) : Bool :=
  let op := d.op
  let stride := op == 2 || op == 3 || op == 4
  decide (op = 0) || decide (6 < op) || d.skind == 3 || d.dkind == 3 || d.f 0x1C 31 20 != 0 || d.f 0x38 31 6 != 0 || d.f 0x38 3 3 != 0 || d.f 0x3C 31 4 != 0 ||
  (d.hasIdx && decide (2 ≤ d.f 0x38 5 4)) || (op == 6 && decide (5 ≤ d.f 0x3C 3 0)) || (op != 6 && d.f 0x3C 3 0 != 0) ||
  (!d.hasIdx && (d.w 0x30 != 0 || d.f 0x38 5 0 != 0)) || (!stride && (d.w 0x20 != 0 || d.w 0x28 != 0)) ||
  (op == 5 && (d.skind != 0 || d.f 0 25 23 != 0)) || (d.skind != 1 && d.f 0 15 8 != 0) || (d.dkind != 1 && d.f 0 7 0 != 0) ||
  (d.skind == 2 && d.f 0 25 23 != 0) || (d.dkind == 2 && d.f 0 22 20 != 0)
/-- SHT_LEN. -/
def ShtDesc.badlen (d : ShtDesc) : Bool :=
  let l := d.len
  match d.op with
  | 2 => decide (l = 0) || decide (65536 < l)
  | 3 => decide (l = 0) || decide (65536 < l) || decide (4096 < d.rows)
  | 4 => decide (l = 0) || decide (65536 < l) || decide (4096 < d.rows)
  | _ => decide (l = 0) || d.rows != 1
/-- A cap of a descriptor lacks what its kind and use need. -/
def shtCapBad (c : Cap) (kind need : Nat) : Bool :=
  kind != 2 && (!c.tag || c.otype != 0 || c.type != 0 || !c.has (need + (if kind = 1 then pBOLT else 0)))
/-- SHT_CAP. -/
def ShtDesc.badcap (d : ShtDesc) : Bool :=
  (d.hasSrc && shtCapBad d.scap d.skind pRD) || shtCapBad d.dcap d.dkind pWR || (d.hasIdx && shtCapBad d.icap 0 pRD)
/-- A range is outside its cap, or a bolt range beyond the bolt. -/
def shtOut (c : Cap) (kind : Nat) (a : Int) (n : Nat) : Bool :=
  kind != 2 && (decide (a < (c.base : Int)) || decide ((c.top : Int) < a + n) || (kind == 1 && decide ((boltSize : Int) < a + n)))
/-- SHT_BOUND of the rows. -/
def ShtDesc.rowsOut (d : ShtDesc) : Bool :=
  (upto d.rows).any fun r => (d.hasSrc && shtOut d.scap d.skind (d.rowS r) d.len) || shtOut d.dcap d.dkind (d.rowD r) d.len
/-- A bus range lies within the partition's DMA windows (R373). -/
def Mod.inDma (m : Mod) (p : Nat) (a : Int) (n : Nat) : Bool :=
  let wins := (upto 8).map fun w => (m.rdf (bPRT p + 0x100 + 16 * w) 63 12 * 2 ^ 12, m.rdf (bPRT p + 0x108 + 16 * w) 39 12 * 2 ^ 12)
  decide (0 ≤ a) && covered wins 9 a.toNat (a.toNat + n)
/-- SHT_HOST. -/
def Mod.hostBad (m : Mod) (p : Nat) (d : ShtDesc) : Bool :=
  let h := (m.part p).owner
  let rng (f : Nat → Int) : Bool := (upto d.rows).any fun r => !m.inDma p (f r) d.len
  (d.skind == 2 && d.hasSrc && rng d.rowS) || (d.dkind == 2 && rng d.rowD) ||
  (((d.skind == 2 && d.hasSrc) || d.dkind == 2) && !(m.host h).linked) || (d.dkind == 2 && m.isHeld)
/-- The checks that come after the index list is known, in their order. -/
def Mod.shtFail2 (m : Mod) (p : Nat) (d : ShtDesc) : Option Nat :=
  let cs := (m.part p).cores
  if d.rowsOut then some 0x04
  else if (d.hasSrc && d.skind == 1 && !cs.contains (d.f 0 15 8)) || (d.dkind == 1 && !cs.contains (d.f 0 7 0)) then some 0x05
  else if m.hostBad p d then some 0x06
  else if d.op = 6 ∧ (d.w 0x10 % 64 ≠ 0 ∨ d.len % 64 ≠ 0) then some 0x07
  else if d.op = 6 ∧ d.dkind ≠ 0 then some 0x08
  else none
/-- The checks that come before the index list is read. -/
def ShtDesc.fail1 (d : ShtDesc) : Option Nat :=
  if d.badop then some 0x01 else if d.badlen then some 0x02 else if d.badcap then some 0x03
  else if d.hasIdx && shtOut d.icap 0 (d.w 0x30) (d.isize * d.rows) then some 0x04
  else none

/-! ## Translation (R373, R411, R418) -/

/-- The walk of a shuttle's address where the panel's shared TLB misses, in the same step (log 1). -/
def Mod.shtWarm (m : Mod) (s part va : Nat) : Mod :=
  match m.stlbFind (s / 2) part va with
  | some _ => m
  | none => (m.walkDo (s / 2) part none va).2
/-- Translate an address of a shuttle. -/
def Mod.shtXlat (m0 : Mod) (s part : Nat) (pgtab : Bool) (acc : Acc) (va n : Nat) : Ex (Place × Mod) :=
  let panel := s / 2
  let m := m0.shtWarm s part va
  match m.stlbFind panel part va with
  | some l => do
    let p ← leafCheck m part l pgtab acc va n
    .ok (p, m.stlbInstall panel l)
  | none =>
    match m.walk part va with
    | .leaf l _ => do
      let p ← leafCheck m part l pgtab acc va n
      .ok (p, m)
    | .fail cause level pte => .error (.fault { part := part, va := va, acc := acc, cause := cause, level := level, pte := pte })
/-- Translate a range page by page: places with their lengths. -/
def Mod.shtPages (m : Mod) (s part : Nat) (pgtab : Bool) (acc : Acc) : Nat → Nat → Nat → Ex (List (Place × Nat) × Mod)
  | 0, _, _ => .ok ([], m)
  | k + 1, va, n =>
    if n = 0 then .ok ([], m)
    else do
      let q := min n (2 ^ 16 - va % 2 ^ 16)
      let (p, m1) ← m.shtXlat s part pgtab acc va q
      let (ps, m2) ← m1.shtPages s part pgtab acc k (va + q) (n - q)
      .ok ((p, q) :: ps, m2)
/-- Translate a whole range. -/
def Mod.shtRange (m : Mod) (s part : Nat) (cap : Cap) (acc : Acc) (va n : Nat) : Ex (List (Place × Nat) × Mod) :=
  m.shtPages s part (cap.has pPGTAB) acc (n / 2 ^ 16 + 2) va n
/-- The late status of a stop that no fault queue serves (R418). -/
def stopStatus : Stop → Nat
  | .trap 2 regs => match regs with
    | (_, v) :: _ => if fld v 7 0 = 0x06 then 0x03 else if fld v 7 0 = 0x08 then 0x11 else if fld v 7 0 = 0x0A then 0x12 else 0x08
    | [] => 0x08
  | _ => 0x10

/-! ## Queues -/

/-- Shuttle `s`. -/
def Mod.sht (m : Mod) (s : Nat) : Shuttle := Tab.get {} m.shuttles s
/-- Change shuttle `s`. -/
def Mod.updSht (m : Mod) (s : Nat) (f : Shuttle → Shuttle) : Mod := { m with shuttles := Tab.put m.shuttles s (f (m.sht s)) }
/-- Change a running descriptor. -/
def Mod.updDesc (m : Mod) (s id : Nat) (f : ShtDesc → ShtDesc) : Mod :=
  m.updSht s fun q => { q with running := q.running.map fun d => if d.id = id then f d else d }
/-- Count at SHT_CNTi. -/
def Mod.shtCnt (m : Mod) (s i n : Nat) : Mod := m.incBy (bSHT s + 0x40 + 8 * i) n
/-- A descriptor ends with a failure (R376): ERR_NOTCH, SHT_CNT1, and SHT_PERR0 and SHT_PERR1 where they hold none. -/
def Mod.shtEnd (m : Mod) (s : Nat) (d : ShtDesc) (status : Nat) : Mod :=
  let p := d.piece.part
  let m1 := m.updSht s fun q => { q with running := q.running.filter (·.id != d.id) }
  let m2 := (m1.fire p (d.f 4 15 0) (.shuttle s)).shtCnt s 1 1
  if m2.rdf (bPERR p) 63 63 = 1 then m2
  else (m2.wr (bPERR p) (w64 (2 ^ 63 + s * 2 ^ 56 + status * 2 ^ 48 + d.addr % 2 ^ 48))).wr (bPERR p + 8) (w64 d.core) |>.prtVector p
/-- The pages of a destination that translate, each by itself (R418). -/
def Mod.shtReached (m : Mod) (s part : Nat) (cap : Cap) : Nat → Nat → Nat → List (Place × Nat)
  | 0, _, _ => []
  | k + 1, va, n =>
    if n = 0 then []
    else
      let q := min n (2 ^ 16 - va % 2 ^ 16)
      (match m.shtXlat s part (cap.has pPGTAB) .write va q with
        | .ok (p, _) => [(p, q)]
        | .error _ => []) ++ m.shtReached s part cap k (va + q) (n - q)
/-- Destination ranges that are undefined after a late failure (R376, R418): bolt bytes and local bytes of the pages that translate. -/
def Mod.scrambleDst (m : Mod) (s : Nat) (d : ShtDesc) : Mod :=
  (upto d.rows).foldl (fun (m : Mod) r =>
    let a := (d.rowD r).toNat
    match d.dkind with
    | 1 =>
      let x := m.freeBytes d.len
      x.2.updCore (d.f 0 7 0) fun k => k.boltWrite a x.1
    | 0 =>
      (m.shtReached s d.piece.part d.dcap (d.len / 2 ^ 16 + 2) a d.len).foldl (fun (m : Mod) p => match p.1 with | .loc pa => m.scramble pa p.2 | _ => m) m
    | _ => m) m
/-- A stop of a descriptor: a fault of the queue sends it there and it waits at its page, else it fails (R377, R418, R434). -/
def Mod.shtStop (m0 : Mod) (s : Nat) (d : ShtDesc) (bytesMoved : Bool) : Stop → Mod
  | .fault f =>
    let m := m0.shtWarm s f.part f.va
    if m.rdf (bXLT f.part + 0x80) 63 63 = 0 then (if bytesMoved then m.scrambleDst s d else m).shtEnd s d 0x12
    else
      let m1 := (m.updDesc s d.id fun x => { x with fault := some f.va }).shtCnt s 3 1
      { m1 with xlt := { m1.xlt with flying := m1.xlt.flying ++ [{ f with unit := .shuttle s d.id, piece := d.piece }] } }
  | e => (if bytesMoved then m0.scrambleDst s d else m0).shtEnd s d (stopStatus e)

/-! ## Start (R374, R376, R377) -/

/-- Cut remote bytes into aligned requests of at most 4,096 bytes (R467): place in the range, and length. -/
def cutRemote (off n : Nat) : List (Nat × Nat) :=
  ((upto (n / 4096 + 2)).foldl (fun (a : List (Nat × Nat) × Nat) _ =>
    if n ≤ a.2 then a
    else
      let q := min (n - a.2) (4096 - (off + a.2) % 4096)
      (a.1 ++ [(a.2, q)], a.2 + q)) ([], 0)).1
/-- Answers of far modules or adders are still awaited. -/
def Mod.shtAwaits (m : Mod) (s : Nat) (d : ShtDesc) : Bool :=
  (m.lnk.remotes.any fun x => match x.2.unit with | .shuttle t i _ => t == s && i == d.id | .shuttleW t i => t == s && i == d.id | _ => false) ||
  (m.spl.adds.any fun a => a.core == 5000 + d.id)
/-- Send the reads of remote pieces of a range, for bytes from `off` on in what the descriptor gathers (R424, R467). -/
def Mod.askPieces (m : Mod) (s : Nat) (d : ShtDesc) (off : Nat) (ps : List (Place × Nat)) : Mod :=
  (ps.foldl (fun (a : Mod × Nat) p => match p.1 with
    | .remote dev win o =>
      ((cutRemote o p.2).foldl (fun (m : Mod) c =>
        (m.remoteSend { unit := .shuttle s d.id (off + a.2 + c.1), part := d.piece.part, len := c.2, core := d.core } 5 1 0 dev win (o + c.1) []).2) a.1, a.2 + p.2)
    | _ => (a.1, a.2 + p.2)) (m, 0)).1
/-- Bytes of translated pieces, from local memory or from what has come of remote memory, and whether poison was read. -/
def Mod.gatherPieces (m : Mod) (d : ShtDesc) (off : Nat) (ps : List (Place × Nat)) : List Byte × Bool × Mod :=
  ps.foldl (fun (a : List Byte × Bool × Mod) p => match p.1 with
    | .loc pa => let q := a.2.2.ncRead pa p.2 (if d.stream then 3 else 1); (a.1 ++ q.1, a.2.1 || a.2.2.poisoned pa p.2, q.2)
    | _ => (a.1 ++ Memory.bytes d.rdata (off + a.1.length) p.2, a.2.1, a.2.2)) (([] : List Byte), false, m)
/-- A list of places names remote memory. -/
def anyFar (ps : List (Place × Nat)) : Bool := ps.any fun p => match p.1 with | .remote .. => true | _ => false
/-- The index list that the bytes spell (R372). -/
def ShtDesc.indices (d : ShtDesc) (bs : List Byte) : List Int := (upto d.rows).map fun i => sNat (8 * d.isize) (ofLe ((bs.drop (i * d.isize)).take d.isize))
/-- The checks of a running descriptor, up to the first that fails; a fault of the index list leaves it waiting, and so do its remote parts, which are
read over vc5 first (R373, R376). -/
def Mod.shtCheck (m : Mod) (s : Nat) (d : ShtDesc) : Mod :=
  match d.fail1 with
  | some st => m.shtEnd s d st
  | none =>
    let go (m : Mod) (d : ShtDesc) : Mod :=
      match m.shtFail2 d.piece.part d with
      | some st => m.shtEnd s d st
      | none => m.updDesc s d.id fun _ => { d with checked := true }
    if !d.hasIdx then go m d
    else match m.shtRange s d.piece.part d.icap .read (d.w 0x30) (d.isize * d.rows) with
      | .error e => m.shtStop s d false e
      | .ok (ps, m1) =>
        if anyFar ps ∧ !d.idxAsked then (m1.updDesc s d.id fun x => { x with idxAsked := true }).askPieces s d 0 ps
        else if m1.shtAwaits s d then m1
        else
          let r := m1.gatherPieces d 0 ps
          if r.2.1 then r.2.2.shtEnd s d 0x10 else go r.2.2 { d with idx := d.indices r.1, rdata := [] }
/-- A shuttle starts the descriptor at the head of its queue, where its OP is of the kind named and the shuttle has room; FENCE waits for
every earlier one. -/
def Mod.shtStart (m : Mod) (s : Nat) (ops : Nat → Bool) : Mod :=
  let q := m.sht s
  match q.queue with
  | [] => m
  | d :: rest =>
    if !ops d.op ∨ 8 ≤ q.running.length ∨ (d.fence ∧ !q.running.isEmpty) ∨ m.heldBack (.shuttle s) then m
    else (m.updSht s fun q => { q with queue := rest, running := q.running ++ [d] }).shtCheck s d
/-- COPY; the home of reserved codes of OP (log 11). -/
def Mod.shtCopy (m : Mod) (s : ShuttleId) : Mod := m.shtStart s.val fun op => op == 1 || op == 0 || decide (6 < op)
/-- STRIDE. -/
def Mod.shtStride (m : Mod) (s : ShuttleId) : Mod := m.shtStart s.val (· == 2)
/-- GATHER. -/
def Mod.shtGather (m : Mod) (s : ShuttleId) : Mod := m.shtStart s.val (· == 3)
/-- SCATTER. -/
def Mod.shtScatter (m : Mod) (s : ShuttleId) : Mod := m.shtStart s.val (· == 4)
/-- FILL. -/
def Mod.shtFill (m : Mod) (s : ShuttleId) : Mod := m.shtStart s.val (· == 5)
/-- REDADD. -/
def Mod.shtRedadd (m : Mod) (s : ShuttleId) : Mod := m.shtStart s.val (· == 6)

/-! ## Moving the bytes (R372, R377 to R379) -/

/-- The source of a row as it lies: pieces. -/
def Mod.srcPieces (m : Mod) (s : Nat) (d : ShtDesc) (r : Nat) : Ex (List (Place × Nat) × Mod) :=
  if d.hasSrc && d.skind == 0 then m.shtRange s d.piece.part d.scap .read (d.rowS r).toNat d.len else .ok ([], m)
/-- The destination of a row. A write into the partition's window table ends the descriptor with SHT_CAP (R466). -/
def Mod.dstPieces (m : Mod) (s : Nat) (d : ShtDesc) (r : Nat) : Ex (List (Place × Nat) × Mod) :=
  if d.dkind = 0 then do
    let (ps, m1) ← m.shtRange s d.piece.part d.dcap (if d.op = 6 then .add else .write) (d.rowD r).toNat d.len
    if ps.any fun p => match p.1 with | .loc pa => m.inWtab d.piece.part pa p.2 | _ => false then .error (xltStop 0x06 .write 0 0 (d.rowD r).toNat)
    else .ok (ps, m1)
  else .ok ([], m)
/-- Every row's pieces. -/
def Mod.allPieces (m : Mod) (s : Nat) (d : ShtDesc) : Nat → Ex (List (List (Place × Nat) × List (Place × Nat)) × Mod)
  | 0 => .ok ([], m)
  | k + 1 => do
    let r := d.rows - (k + 1)
    let (a, m1) ← m.srcPieces s d r
    let (b, m2) ← m1.dstPieces s d r
    let (rest, m3) ← m2.allPieces s d k
    .ok ((a, b) :: rest, m3)
/-- Send the remote reads of a descriptor. -/
def Mod.askRemote (m : Mod) (s : Nat) (d : ShtDesc) (rows : List (List (Place × Nat) × List (Place × Nat))) : Mod :=
  rows.zipIdx.foldl (fun (m : Mod) x => m.askPieces s d (x.2 * d.len) x.1.1) m
/-- Bytes of a row's source, and whether a poisoned or uncorrectable byte was read. -/
def Mod.rowBytes (m : Mod) (d : ShtDesc) (r : Nat) (src : List (Place × Nat)) (host : List Byte) : List Byte × Bool × Mod :=
  if d.op = 5 then ((upto d.len).map fun i => (toLe 8 (d.w 0x08)).getD (i % 8) 0, false, m)
  else match d.skind with
    | 1 => m.boltRead (d.f 0 15 8) (d.rowS r).toNat d.len
    | 2 => ((host.drop (r * d.len)).take d.len, false, m)
    | _ => m.gatherPieces d (r * d.len) src
/-- Tags are copied with the data of this descriptor (R379). -/
def ShtDesc.copiesTags (d : ShtDesc) : Bool :=
  (d.op == 1 || d.op == 2) && d.skind == 0 && d.dkind == 0 && d.scap.has pLC && d.dcap.has pSC && d.w 0x08 % 16 == d.w 0x10 % 16 &&
  d.w 0x20 % 16 == 0 && d.w 0x28 % 16 == 0
/-- Tags of a row's source granules, by place in the row of each whole granule. -/
def Mod.rowTags (m : Mod) (d : ShtDesc) (r : Nat) (src : List (Place × Nat)) : List Nat :=
  let a := (d.rowS r).toNat
  let z := src.foldl (fun (x : List Nat × Nat) p => match p.1 with
    | .loc pa => (x.1 ++ ((upto (p.2 / 16 + 1)).filterMap fun i =>
        let q := (16 - (a + x.2) % 16) % 16 + 16 * i
        if q + 16 ≤ p.2 ∧ m.tagAt (pa + q) then some (x.2 + q) else none), x.2 + p.2)
    | _ => (x.1, x.2 + p.2)) (([] : List Nat), 0)
  z.1
/-- Write a row. -/
def Mod.putRow (m : Mod) (s : Nat) (d : ShtDesc) (r : Nat) (dst : List (Place × Nat)) (bs : List Byte) (tags : List Nat) : Mod :=
  let p := d.piece.part
  match d.dkind with
  | 1 => m.updCore (d.f 0 7 0) fun k => k.boltWrite (d.rowD r).toNat bs
  | 2 => m.toHost (m.part p).owner (.write (d.rowD r).toNat bs)
  | _ =>
    (dst.foldl (fun (a : Mod × Nat) q =>
      let part := (bs.drop a.2).take q.2
      match q.1 with
      | .loc pa =>
        if d.op = 6 then
          let reqs : List AddReq := (upto (q.2 / 64)).map fun i => { core := 5000 + d.id, pa := pa + 64 * i, ty := d.f 0x3C 3 0, data := (part.drop (64 * i)).take 64 }
          ({ a.1 with spl := { a.1.spl with adds := a.1.spl.adds ++ reqs } }, a.2 + q.2)
        else
          let m1 := a.1.ncWrite pa part (!d.stream)
          let hit := tags.filter fun t => decide (a.2 ≤ t) && decide (t + 16 ≤ a.2 + q.2)
          (hit.foldl (fun (m : Mod) t => { m with tags := Tab.setD false m.tags ((pa + t - a.2) / 16) true }) m1, a.2 + q.2)
      | .remote dev win off =>
        ((cutRemote off q.2).foldl (fun (m : Mod) c =>
          (m.remoteSend { unit := .shuttleW s d.id, part := p, len := c.2, core := d.core } 5 (if d.op = 6 then 4 else 2) (d.f 0x3C 3 0) dev win (off + c.1) ((part.drop c.1).take c.2)).2) a.1,
         a.2 + q.2)
      | .ctl _ => (a.1, a.2 + q.2)) (m, 0)).1
/-- Lines of a row that lie in spools of another panel than the shuttle's: each is asked for and answered over a die-to-die link (R622). -/
def Mod.rowCrosses (m : Mod) (s part : Nat) (l : List (Place × Nat)) : Mod :=
  l.foldl (fun (m : Mod) p => match p.1 with
    | .loc pa => if m.isSpool pa then (linesOf pa p.2).foldl (fun (m : Mod) la =>
        let h := some (m.homePanel la)
        (m.crosses (some (s / 2)) h (some part)).crosses h (some (s / 2)) (some part)) m else m
    | _ => m) m
/-- Move every row. A poisoned source ends the descriptor (R376). -/
def Mod.moveRows (m : Mod) (s : Nat) (d : ShtDesc) (host : List Byte) : List (List (Place × Nat) × List (Place × Nat)) → Nat → Option Mod
  | [], _ => some m
  | (src, dst) :: rest, r =>
    let b := m.rowBytes d r src host
    if b.2.1 then none
    else
      let tags := if d.copiesTags then m.rowTags d r src else []
      (((b.2.2.putRow s d r dst b.1 tags).rowCrosses s d.piece.part (src ++ dst)).shtCnt s 4 tags.length).moveRows s d host rest (r + 1)
/-- Every byte of a descriptor is visible: DONE_NOTCH and SHT_CNT0 (R378). -/
def Mod.shtComplete (m : Mod) (s : Nat) (d : ShtDesc) : Mod :=
  let lines := d.rows * cdiv d.len 128
  let m1 := m.updSht s fun q => { q with running := q.running.filter (·.id != d.id) }
  (((m1.fire d.piece.part (d.f 4 31 16) (.shuttle s)).shtCnt s 0 1).shtCnt s 2 lines).evPanel (s / 2) 0x09 lines (some d.piece.part)
/-- The `k`-th running descriptor of a shuttle gets on: its checks where they are still open, its remote reads, its bytes, and then
its completion. `host` is what the host's memory holds in the source ranges of a descriptor that reads it (R373); `bad` is the errors that have come
into the bolt it reads (R341). -/
def Mod.shtDone (m0 : Mod) (s : ShuttleId) (k : Nat) (host : List Byte) (bad : BoltErrs) : Mod :=
  match (m0.sht s.val).running[k]? with
  | none => m0
  | some d =>
    let m := if d.skind = 1 then m0.boltErrors (d.f 0 15 8) bad else m0
    if d.fault.isSome ∨ d.late.isSome ∨ m.heldBack (.shuttle s.val) then m
    else if !d.checked then m.shtCheck s.val d
    else if d.moved then (if m.shtAwaits s.val d then m else m.shtComplete s.val d)
    else match m.allPieces s.val d d.rows with
      | .error e => m.shtStop s.val d true e
      | .ok (rows, m1) =>
        if d.op = 6 ∧ (rows.any fun x => x.2.any fun p => match p.1 with | .loc pa => !m1.isSpool pa | _ => false) then m1.shtEnd s.val d 0x08
        else
          let far := rows.any fun x => anyFar x.1
          if far ∧ !d.asked then (m1.updDesc s.val d.id fun x => { x with asked := true }).askRemote s.val d rows
          else if m1.shtAwaits s.val d then m1
          else match m1.moveRows s.val d host rows 0 with
            | none => (m1.scrambleDst s.val d).shtEnd s.val d 0x10
            | some m2 =>
              if m2.shtAwaits s.val d then m2.updDesc s.val d.id fun x => { x with moved := true } else m2.shtComplete s.val d
/-- The `k`-th running descriptor ends with the late status it has met, or with SHT_HOSTERR where its host port failed it (R376). -/
def Mod.shtFailed (m : Mod) (s : ShuttleId) (k : Nat) (hostErr : Bool) : Mod :=
  match (m.sht s.val).running[k]? with
  | none => m
  | some d =>
    match d.late with
    | some st => (m.scrambleDst s.val d).shtEnd s.val d st
    | none => if hostErr ∧ d.checked ∧ (d.skind = 2 ∨ d.dkind = 2) then (m.scrambleDst s.val d).shtEnd s.val d 0x13 else m
/-- The answer to a shuttle's page fault (R431): it walks again, or ends. -/
def Mod.shtReply (m : Mod) (s id code : Nat) : Mod :=
  match (m.sht s).running.find? fun d => d.id == id && d.fault.isSome with
  | none => m
  | some d =>
    let m1 := m.updDesc s id fun x => { x with fault := none }
    if code = 0 then m1 else (if d.checked then m1.scrambleDst s d else m1).shtEnd s d 0x12
/-- A partition is stopped: its running descriptors end (R434, R525). -/
def Mod.shtStopPart (m : Mod) (p : Nat) : Mod :=
  (upto 8).foldl (fun (m : Mod) s =>
    ((m.sht s).running.filter fun d => d.piece.part == p).foldl (fun (m : Mod) d => (m.scrambleDst s d).shtEnd s d 0x14) m) m

end Sys2Proof.Machine
end

