-- ==== Sys2Proof/Machine/Xlate.lean ====
section
/-! DEFINITION. Walks, the fault queue and shoot-downs as commands (R408 to R435). -/

namespace Sys2Proof.Machine

/-- Cores of a panel that wait for a walk of the 64 KiB granule of an address in a partition: their walks merge (R422). -/
def Mod.walkers (m : Mod) (panel part va : Nat) : List (Nat × Nat × Acc) :=
  ((upto 64).map (64 * panel + ·)).filterMap fun c =>
    match (m.core c).wait with
    | .walk va' acc => if va' / 2 ^ 16 = va / 2 ^ 16 ∧ m.partOf c = some part then some (c, va', acc) else none
    | _ => none
/-- A walk ends for one core that waits for it: its instruction may run again, or the failure is served (R428, R434). -/
def Mod.walkEnds (m : Mod) (r : WalkRes) (part : Nat) (w : Nat × Nat × Acc) : Mod :=
  match r with
  | .leaf .. => m.updCore w.1 fun k => { k with wait := .none }
  | .fail cause level pte => m.stop w.1 (.fault { part := part, va := w.2.1, acc := w.2.2, cause := cause, level := level, pte := pte })
/-- The page-table walk that a core waits for (R412 to R417, R419): the leaf is installed and the instruction may run again, or the
failure is served. Other cores of the panel that wait for a walk of the granule share it (R422). -/
def Mod.walkCore (m : Mod) (c : CoreId) : Mod :=
  match (m.core c.val).wait, m.partOf c.val with
  | .walk va _, some part =>
    let r := m.walkDo (panelOf c.val) part (some c.val) va
    (m.walkers (panelOf c.val) part va).foldl (fun (m : Mod) w => m.walkEnds r.1 part w) r.2
  | _, _ => m

/-! ## The queue (R426 to R430) -/

/-- Count at FLQ_CNTi. -/
def Mod.flqCnt (m : Mod) (p i : Nat) : Mod := m.inc (bXLT p + 0xC0 + 8 * i)
/-- The queue's first address. -/
def Mod.flqBase (m : Mod) (p : Nat) : Nat := m.rdf (bXLT p + 0x80) 45 16 * 2 ^ 16
/-- The occupied slots of a partition, by slot number. -/
def Mod.flqSlots (m : Mod) (p : Nat) : List (Nat × FltSlot) :=
  (m.xlt.slots.filter fun e => e.1 / 1024 == p).map fun e => (e.1 % 1024, e.2)
/-- Bytes 0x0C to 0x0F of a slot (R427). -/
def FltSlot.word0C (x : FltSlot) : Nat := x.waiters.length % 2 ^ 16 * 2 ^ 16 + x.level % 8 * 2 ^ 8 + x.accs % 16 * 2 ^ 4 + x.causes % 8
/-- Bytes 0x10 to 0x13 of a slot: its first waiter (R427). -/
def FaultReq.word10 (f : FaultReq) : Nat :=
  let pc := f.piece.slot % 64 * 2 ^ 16 + f.piece.ix % 2 ^ 16
  match f.unit with
  | .core n => pc * 2 ^ 8 + n % 256
  | .saved _ n => pc * 2 ^ 8 + n % 256
  | .shuttle s _ => 2 ^ 30 + pc * 2 ^ 8 + s % 8
/-- A slot is free and the ring has room; the lowest free slot (R428). -/
def Mod.flqRoom (m : Mod) (p : Nat) : Option Nat :=
  let used := (m.flqSlots p).map (·.1)
  let tail := m.rdf (bXLT p + 0x88) 31 0
  let head := m.rdf (bXLT p + 0x90) 31 0
  if (tail + 2 ^ 32 - head) % 2 ^ 32 < 1024 ∧ used.length < 1024 then (upto 1024).find? fun i => !used.contains i else none
/-- Post a fault, with those that joined it, in a slot (R427, R429). SEQ is the number of posts before it (DEDUCED, log 21). -/
def Mod.flqPost (m : Mod) (f : FaultReq) (slot : Nat) : Mod :=
  let p := f.part
  let tail := m.rdf (bXLT p + 0x88) 31 0
  let x : FltSlot := { va := f.va, seq := tail, accs := accBits f.acc ||| f.accs, causes := f.cause, level := f.level, waiters := f.unit :: f.joined }
  let bytes := toLe 8 (f.va % 2 ^ 48) ++ toLe 4 tail ++ toLe 4 x.word0C ++ toLe 4 f.word10 ++ toLe 4 0 ++ toLe 8 (f.pte % 2 ^ 46)
  let m1 : Mod := { m with xlt := { m.xlt with slots := Tab.put m.xlt.slots (1024 * p + slot) x } }
  let m2 := (m1.ncWrite (m1.flqBase p + 32 * slot) bytes).ncWrite (m1.flqBase p + 0x8000 + 4 * (tail % 1024)) (toLe 4 (slot + tail % 2 ^ 22 * 2 ^ 10))
  (((m2.wrf (bXLT p + 0x88) 31 0 (tail + 1)).fire p (m2.rdf (bXLT p + 0x80) 15 0) (.queue p)).raise (bXLT p + 0xA0) 0).flqCnt p 0 |>.prtVector p
/-- While a slot is free and the ring has room, the oldest parked fault of a partition is posted (R430). -/
def Mod.flqUnpark (m : Mod) (p : Nat) : Nat → Mod
  | 0 => m
  | k + 1 =>
    match firstIx (fun f => f.part == p) m.xlt.parked, m.flqRoom p with
    | some i, some slot =>
      let m1 : Mod := { m with xlt := { m.xlt with parked := dropAt m.xlt.parked i } }
      (m1.flqPost (m.xlt.parked.getD i {}) slot).flqUnpark p k
    | _, _ => m
/-- A failed walk reaches the queue unit (R428): the `k`-th fault on its way. -/
def Mod.faultArrival (m : Mod) (k : Nat) : Mod :=
  match m.xlt.flying[k]? with
  | none => m
  | some f =>
    let p := f.part
    let m0 : Mod := { m with xlt := { m.xlt with flying := dropAt m.xlt.flying k } }
    match (m0.flqSlots p).find? fun e => e.2.va / 2 ^ 16 == f.va / 2 ^ 16 with
    | some (i, x) =>
      let y : FltSlot := { x with accs := x.accs ||| accBits f.acc, causes := x.causes ||| f.cause, waiters := x.waiters ++ [f.unit] }
      let m1 : Mod := { m0 with xlt := { m0.xlt with slots := Tab.put m0.xlt.slots (1024 * p + i) y } }
      (m1.ncWrite (m1.flqBase p + 32 * i + 0x0C) (toLe 4 y.word0C)).flqCnt p 1
    | none =>
      match firstIx (fun g => g.part == p && g.va / 2 ^ 16 == f.va / 2 ^ 16) m0.xlt.parked with
      | some i =>
        let g := m0.xlt.parked.getD i {}
        let h : FaultReq := { g with accs := g.accs ||| accBits f.acc, cause := g.cause ||| f.cause, joined := g.joined ++ [f.unit] }
        ({ m0 with xlt := { m0.xlt with parked := m0.xlt.parked.set i h } }).flqCnt p 1
      | none =>
        match m0.flqRoom p with
        | some slot => if m0.heldBack (.queue p) then m else m0.flqPost f slot
        | none => ({ m0 with xlt := { m0.xlt with parked := m0.xlt.parked ++ [f] } }).flqCnt p 2

/-! ## Replies (R431 to R433) -/

/-- A write of FLQ_REPLY (R431, R432). -/
def Mod.flqReply (m : Mod) (p : Nat) (v : W64) : Mod :=
  let slot := fld v 41 32
  let bad := ((m.raise (bXLT p + 0xA0) 2).flqCnt p 3).prtVector p
  match Tab.get? m.xlt.slots (1024 * p + slot) with
  | none => bad
  | some x =>
    if x.seq ≠ fld v 31 0 ∨ 2 ≤ fld v 63 62 then bad
    else
      let m1 : Mod := { m with xlt := { m.xlt with slots := Tab.del m.xlt.slots (1024 * p + slot), releases := m.xlt.releases ++ [{ part := p, code := fld v 63 62, waiters := x.waiters }] } }
      (m1.flqCnt p 4).flqUnpark p 1024
/-- A write of FLQ_PHEAD makes room in the ring (R429, R430). -/
def Mod.flqHead (m : Mod) (p : Nat) (v : W64) : Mod := (m.wr (bXLT p + 0x90) (w64 (fld v 31 0))).flqUnpark p 1024
/-- Release one waiter with a code (R431): after RETRY it walks anew from level 0. -/
def Mod.releaseUnit (m : Mod) (code : Nat) : FUnit → Mod
  | .core c =>
    match (m.core c).wait with
    | .fault va acc level =>
      if code = 0 then (m.tlbForget (panelOf c) ((m.partOf c).getD 0) (some c) va).updCore c fun k => { k with wait := .none }
      else m.stop c (xltStop 0x09 acc level 0 va)
    | _ => m
  | .saved id _ => m.replySaved id code
  | .shuttle s id => m.shtReply s id code
/-- The waiters of the `k`-th accepted reply are released (R423, R431). -/
def Mod.waitersReleased (m : Mod) (k : Nat) : Mod :=
  match m.xlt.releases[k]? with
  | none => m
  | some r =>
    let m0 : Mod := { m with xlt := { m.xlt with releases := dropAt m.xlt.releases k } }
    r.waiters.foldl (fun (m : Mod) u => m.releaseUnit r.code u) m0
/-- A partition is stopped (R434): every slot and every parked fault of it is released as by REFUSE, at once. -/
def Mod.flqStop (m : Mod) (p : Nat) : Mod :=
  let us := ((m.flqSlots p).flatMap fun e => e.2.waiters) ++ ((m.xlt.parked ++ m.xlt.flying).filter fun f => f.part == p).flatMap fun f => f.unit :: f.joined
  let m0 : Mod := { m with xlt := { m.xlt with
    slots := Tab.keep m.xlt.slots fun i _ => i / 1024 != p
    parked := m.xlt.parked.filter fun f => f.part != p
    flying := m.xlt.flying.filter fun f => f.part != p } }
  us.foldl (fun (m : Mod) u => match u with | .shuttle .. => m | u => m.releaseUnit 1 u) m0

/-! ## Shoot-downs (R420, R421) -/

/-- Start a shoot-down; a write while the register's own shoot-down is in progress is ignored (R421). -/
def Mod.shootStart (m : Mod) (p : Nat) (core : Option Nat) (v : W64) : Mod :=
  if m.xlt.shoots.any fun s => s.part == p && s.core == core then m.inc (bXLT p + 0x40 + 8 * 3)
  else { m with xlt := { m.xlt with shoots := m.xlt.shoots ++ [{ part := p, all := bit v 62, size := fld v 49 48, va := fld v 47 16 * 2 ^ 16, core := core }] } }
/-- BUSY of XLT_INV or of a core's COR_XLTINV. -/
def Mod.shootBusy (m : Mod) (p : Nat) (core : Option Nat) : Bool := m.xlt.shoots.any fun s => s.part == p && s.core == core
/-- Page bits of SIZE. -/
def shootBits : Nat → Nat
  | 0 => 16 | 1 => 21 | 2 => 30 | _ => 36
/-- The aligned range of a shoot-down: first address and length. -/
def Shoot.range (s : Shoot) : Nat × Nat :=
  if s.all then (0, 2 ^ 48) else (s.va / 2 ^ shootBits s.size * 2 ^ shootBits s.size, 2 ^ shootBits s.size)
/-- A TLB entry that a shoot-down drops. -/
def Shoot.drops (s : Shoot) (l : Leaf) : Bool :=
  l.part == s.part && meet (l.vpn * 2 ^ pageBits l.level) (2 ^ pageBits l.level) s.range.1 s.range.2
/-- Some vector instruction or finishing pass, on a core or switched out, holds translations of bytes of a range (R177, R189). -/
def unitsHold (sts : List Station) (f : FinUnit) (lo n : Nat) : Bool :=
  (sts.any fun s => !s.ranges.isEmpty && meet s.va s.vlen lo n) ||
  ((f.queue ++ f.running.toList).any fun p => !p.ranges.isEmpty && meet p.dbase ((p.ranges.map (·.2)).sum) lo n)
/-- An access of a core still holds a translation that the shoot-down drops: a vector instruction or a finishing pass by its bytes,
buffered stores, loads and awaited remote reads of the partition in any case (DEDUCED, log 22). -/
def Core.holdsRange (k : Core) (lo n : Nat) : Bool :=
  !k.sb.isEmpty || k.due.isSome || (match k.bank.load with | some l => !l.arrived | none => false) ||
  (match k.wait with | .remote _ => true | _ => false) || unitsHold k.vec.stations k.fin lo n
/-- A shuttle's rows in flight in a partition. -/
def Mod.rowsInFlight (m : Mod) (p : Nat) : Bool :=
  (upto 8).any fun s => (m.sht s).running.any fun d => d.piece.part == p && (d.asked || d.moved)
/-- The `k`-th shoot-down in progress completes: no access holds such a translation, and every such entry is dropped (R421). -/
def Mod.shootComplete (m : Mod) (k : Nat) : Mod :=
  match m.xlt.shoots[k]? with
  | none => m
  | some s =>
    let cs := (m.part s.part).cores
    if (cs.any fun c => (m.core c).holdsRange s.range.1 s.range.2 || m.postedOut c || m.spl.adds.any (·.core == c)) || m.rowsInFlight s.part ||
        (m.pat.saved.any fun t => t.piece.part == s.part && unitsHold t.units.stations t.units.fin s.range.1 s.range.2) then m
    else
      let keep (t : Tab (Way Leaf)) : Tab (Way Leaf) := Tab.keep t fun _ w => !s.drops w.val
      let m1 : Mod := { m with xlt := { m.xlt with shoots := dropAt m.xlt.shoots k, tlb := keep m.xlt.tlb } }
      let m2 : Mod := { m1 with cores := Tab.mapV m1.cores fun _ c => { c with mem := { c.mem with tlb := keep c.mem.tlb } } }
      m2.inc (bXLT s.part + 0x40 + 8 * 2)

end Sys2Proof.Machine
end

