-- ==== Sys2Proof/Machine/Fence.lean ====
section
/-! DEFINITION. Stopping: partitions (R525), cores that halt (R277), fences and the policy that places them (R585 to R590). -/

namespace Sys2Proof.Machine

/-- A partition stops (R525): PSTOP on its cores (log 64), its faults and running descriptors end; dispatch and collectives hold by its
state. -/
def Mod.stopPart (m : Mod) (p : Nat) : Mod :=
  if (m.part p).st ≠ .running then m
  else
    let m1 := m.updPart p fun q => { q with st := .stopped }
    let m2 := (m1.part p).cores.foldl (fun (m : Mod) c => m.updCore c fun k => k.setCregf 0x018 17 17 1) m1
    (m2.flqStop p).shtStopPart p

/-- A core is halted: HALT in COR_EXC, its seat is removed, and its piece fails (R277, R327). -/
def Mod.stopCore (m : Mod) (c : Nat) : Mod :=
  let m1 := m.updCore c fun k => { k.setCregf 0x000 24 24 1 with trap := none }
  let m2 := match (m.core c).piece with
    | some id => (m1.unseat c).failPiece id
    | none => m1
  m2.updCore c fun k => { k with piece := none, run := .free }
/-- The fence of a core itself (R588): always halted; its running piece fails, and the fault notch of its partition fires with it. -/
def Mod.fenceOne (m : Mod) (c : Nat) : Mod :=
  if m.coreFenced c then m
  else
    let ran := (m.core c).piece.isSome
    let m1 := (m.stopCore c).wr (bCAL + 0x40 + 8 * (c / 64)) (setBit (m.rd (bCAL + 0x40 + 8 * (c / 64))) (c % 64) true)
    let m2 := match m1.partOf c with
      | some p => if ran then m1.fireFault p else m1.prtVector p
      | none => m1
    m2.calEvent 1
/-- The fence of a spool (R385, R589). -/
def Mod.fenceSpool (m : Mod) (s : Nat) : Mod :=
  if m.spl.fenced.contains s then m
  else
    let m1 : Mod := { m with spl := { m.spl with fenced := m.spl.fenced ++ [s] } }
    (((m1.wrf (bSPL s) 8 8 1).raise (bCAL + 0x60) s)).calEvent 1
/-- The fence of a panel (R590): its cores, spools and shuttles; partitions whose lead engine lies there stop. -/
def Mod.fencePanel (m : Mod) (p : Nat) : Mod :=
  if m.panelFenced p then m
  else
    let m1 := (m.raise (bCAL + 0x60) (24 + p)).calEvent 1
    let m2 := (upto 64).foldl (fun (m : Mod) i => m.fenceOne (64 * p + i)) m1
    let m3 := (upto 6).foldl (fun (m : Mod) i => m.fenceSpool (6 * p + i)) m2
    (upto 16).foldl (fun (m : Mod) q => if (m.part q).st = .running ∧ m.leadPanel q = p then m.stopPart q else m) m3
/-- Fenced cores of a panel. -/
def Mod.fencedCores (m : Mod) (p : Nat) : Nat := popN 64 (m.rd (bCAL + 0x40 + 8 * p)).toNat
/-- A core is fenced, and its panel with it once PCORE of its cores are (R586). -/
def Mod.fenceCore (m : Mod) (c : Nat) : Mod :=
  let m1 := m.fenceOne c
  let lim := m1.rdf (bCAL + 0x10) 47 40
  if lim ≠ 0 ∧ lim ≤ m1.fencedCores (panelOf c) then m1.fencePanel (panelOf c) else m1
/-- The policy on a core's uncorrectable events (R586): L2C_CNT1 plus L2C_CNT4 against CUE. -/
def Mod.judgeCore (m : Mod) (c : Nat) : Mod :=
  let lim := m.rdf (bCAL + 0x10) 39 32
  if c < 256 ∧ lim ≠ 0 ∧ lim ≤ m.rdf (bL2C c + 0x48) 47 0 + m.rdf (bL2C c + 0x60) 47 0 then m.fenceCore c else m
/-- The policy on a spool's uncorrectable bursts (R586): SPL_CNT1 against SUE. -/
def Mod.judgeSpool (m : Mod) (s : Nat) : Mod :=
  let lim := m.rdf (bCAL + 0x10) 31 0
  if lim ≠ 0 ∧ lim ≤ m.rdf (bSPL s + 0x48) 47 0 then m.fenceSpool s else m
/-- A core halts (R277, R283): the fault notch of its partition fires, the module event is raised, and under HALTF the fitter fences it
(R586, R592). -/
def Mod.halt (m : Mod) (c : Nat) : Mod :=
  let m1 := m.stopCore c
  let m2 := match m1.partOf c with
    | some p => m1.fireFault p
    | none => m1
  let m3 := m2.calEvent 0
  if c < 256 ∧ m3.rdf (bCAL + 0x10) 48 48 = 1 then m3.fenceCore c else m3
/-- A die-to-die link fails (R586): the higher-numbered panel of the pair is fenced. -/
def Mod.dieLinkFails (m : Mod) (a b : PanelId) : Mod := if a = b then m else m.fencePanel (max a.val b.val)

end Sys2Proof.Machine
end

