-- ==== Sys2Proof/Machine/Hash.lean ====
section
/-! DEFINITION. Check values and digests: CRC-32C (R34), the flits' CRC-64 (R446), SHAKE256 (R551). -/

namespace Sys2Proof

/-- One bit of a reflected CRC: the register shifts right, and the reversed polynomial is added where a one left. -/
def crcBit (poly r : Nat) : Nat := if r % 2 = 1 then nxor (r / 2) poly else r / 2
/-- One byte of a reflected CRC. -/
def crcByte (poly r : Nat) (b : Byte) : Nat :=
  (upto 8).foldl (fun r _ => crcBit poly r) (nxor r b.toNat)
/-- CRC-32C (R34): polynomial 0x1EDC_6F41 reflected, initial value and final XOR of all ones. -/
def crc32c (bs : List Byte) : Nat := nxor (bs.foldl (crcByte 0x82F63B78) 0xFFFFFFFF) 0xFFFFFFFF
/-- CRC-64 of a flit (R446): polynomial 0x42F0_E1EB_A9EA_3693 reflected, initial value and final XOR of all ones. -/
def crc64 (bs : List Byte) : Nat := nxor (bs.foldl (crcByte 0xC96C5795D7870F42) 0xFFFFFFFFFFFFFFFF) 0xFFFFFFFFFFFFFFFF

/-! ## SHAKE256 of FIPS 202, which the spec names (R551; PRESUMED, log 8) -/

/-- The state of Keccak-f[1600]: 25 lanes, lane (x, y) at 5y + x. -/
abbrev Lanes := List W64
/-- A lane. -/
def lane (s : Lanes) (x y : Nat) : W64 := s.getD (5 * (y % 5) + x % 5) 0
/-- Build a state lane by lane. -/
def lanes (f : Nat → Nat → W64) : Lanes := (upto 25).map fun i => f (i % 5) (i / 5)
/-- Rotations of step ρ, at 5y + x. -/
def rhoOff : List Nat := [0, 1, 62, 28, 27, 36, 44, 6, 55, 20, 3, 10, 43, 25, 39, 41, 45, 15, 21, 8, 18, 2, 61, 56, 14]
/-- Round constants of step ι. -/
def iotaRC : List W64 :=
  [0x0000000000000001, 0x0000000000008082, 0x800000000000808A, 0x8000000080008000, 0x000000000000808B, 0x0000000080000001,
   0x8000000080008081, 0x8000000000008009, 0x000000000000008A, 0x0000000000000088, 0x0000000080008009, 0x000000008000000A] ++
  [0x000000008000808B, 0x800000000000008B, 0x8000000000008089, 0x8000000000008003, 0x8000000000008002, 0x8000000000000080,
   0x000000000000800A, 0x800000008000000A, 0x8000000080008081, 0x8000000000008080, 0x0000000080000001, 0x8000000080008008]
/-- One round. -/
def keccakRound (s : Lanes) (rc : W64) : Lanes :=
  let c := (upto 5).map fun x => lane s x 0 ^^^ lane s x 1 ^^^ lane s x 2 ^^^ lane s x 3 ^^^ lane s x 4
  let d := (upto 5).map fun x => c.getD ((x + 4) % 5) 0 ^^^ (c.getD ((x + 1) % 5) 0).rotateLeft 1
  let t := lanes fun x y => lane s x y ^^^ d.getD x 0
  let b := lanes fun x y =>
    let x0 := (x + 3 * y) % 5
    (lane t x0 x).rotateLeft (rhoOff.getD (5 * x + x0) 0)
  let e := lanes fun x y => lane b x y ^^^ (~~~ lane b (x + 1) y &&& lane b (x + 2) y)
  e.set 0 (lane e 0 0 ^^^ rc)
/-- Keccak-f[1600]. -/
def keccakF (s : Lanes) : Lanes := iotaRC.foldl keccakRound s
/-- Absorb one block of 136 bytes. -/
def absorb (s : Lanes) (blk : List Byte) : Lanes :=
  keccakF (lanes fun x y => lane s x y ^^^ w64 (ofLe ((blk.drop (8 * (5 * y + x))).take 8)))
/-- Absorb padded blocks. -/
def absorbAll : Nat → Lanes → List Byte → Lanes
  | 0, s, _ => s
  | n + 1, s, bs => absorbAll n (absorb s (bs.take 136)) (bs.drop 136)
/-- Squeeze blocks. -/
def squeeze : Nat → Lanes → List Byte
  | 0, _ => []
  | n + 1, s => (s.flatMap fun l => toLe 8 l.toNat).take 136 ++ squeeze n (keccakF s)
/-- SHAKE256 with `n` bytes of output. -/
def shake256 (bs : List Byte) (n : Nat) : List Byte :=
  let blocks := bs.length / 136 + 1
  let z := 136 * blocks - bs.length
  let pad : List Byte := if z = 1 then [0x9F#8] else 0x1F#8 :: (List.replicate (z - 2) 0#8 ++ [0x80#8])
  (squeeze ((n + 135) / 136) (absorbAll blocks (List.replicate 25 0) (bs ++ pad))).take n
/-- The bytes of an ASCII label (R557). -/
def ascii (s : String) : List Byte := s.toList.map fun c => BitVec.ofNat 8 c.toNat

end Sys2Proof
end

