-- ==== Sys2Proof/Machine/Seam.lean ====
section
/-! DEFINITION. The seam endpoint (02): chunks arriving, landing, passing and handled at NEXT (R38 to R43, R633, R637), slots
released (R44), sends (R46 to R49), TRIM and CLOSE forwards (R51, R53), lined pairs (R54 to R57), states and marks (R58 to
R62). -/

namespace Sys2Proof.Machine

/-! ## Registers of an entry -/

/-- Base of entry `n`. -/
def bSx (n : Nat) : Nat := bSEM + 0x10000 + 0x80 * n
/-- The stream entry `n`. -/
def Mod.sx (m : Mod) (n : Nat) : SemEntry := Tab.get {} m.sem.entries n
/-- Change the stream entry `n`. -/
def Mod.updSx (m : Mod) (n : Nat) (f : SemEntry → SemEntry) : Mod :=
  { m with sem := { m.sem with entries := Tab.put m.sem.entries n (f (m.sx n)) } }
/-- Bits of a register of an entry. -/
def Mod.sxf (m : Mod) (n off hi lo : Nat) : Nat := m.rdf (bSx n + off) hi lo
/-- STATE of an entry as its register holds it. -/
def Mod.sxRaw (m : Mod) (n : Nat) : Nat := m.sxf n 0x28 2 0
/-- The state an entry acts by: while HELD every entry acts as IDLE (R60, R544). -/
def Mod.sxState (m : Mod) (n : Nat) : Nat := if m.isHeld then 0 else m.sxRaw n
/-- Move an entry to a state. -/
def Mod.sxGo (m : Mod) (n st : Nat) : Mod := m.wrf (bSx n + 0x28) 2 0 st
/-- The entry is a STAGE entry, when it is not IDLE (R36). -/
def Mod.sxStage (m : Mod) (n : Nat) : Bool := m.sxf n 0x00 31 30 == 1
/-- Partition of an entry. -/
def Mod.sxPart (m : Mod) (n : Nat) : Nat := m.sxf n 0x00 23 20
/-- SLOTS. -/
def Mod.sxSlots (m : Mod) (n : Nat) : Nat := m.sxf n 0x14 23 16 + 1
/-- NEXT, OUTSEQ, COMMIT, by the register that reads each. -/
def Mod.sxNext (m : Mod) (n : Nat) : Nat := m.sxf n 0x2C 31 0
/-- COMMIT. -/
def Mod.sxCommit (m : Mod) (n : Nat) : Nat := m.sxf n 0x34 31 0
/-- Count at SEM_CNTi. -/
def Mod.semCnt (m : Mod) (i : Nat) : Mod := m.inc (bSEM + 0x100 + 8 * i)
/-- Set a sticky bit of SEM_SxSTAT with its count (R545). -/
def Mod.sxFlag (m : Mod) (n b i : Nat) : Mod := ((m.raise (bSx n + 0x28) b).semCnt i).prtVector (m.sxPart n)
/-- Fire a notch of the entry's partition. -/
def Mod.sxFire (m : Mod) (n notch : Nat) : Mod := m.fire (m.sxPart n) notch (.entry n)
/-- The notch of a landed chunk: the seats of the landing group's cores that bind it are served at landing, and only where none
does goes the fire to the lead engine (R329). -/
def Mod.sxNotch (m : Mod) (n notch : Nat) : Mod :=
  let first := m.sxf n 0x14 7 0
  let hits := ((upto (m.sxf n 0x14 15 8 + 1 - first)).filterMap fun i => ((m.core (first + i)).seatFor notch).map fun s => (first + i, s))
  if notch = 0xFFFF ∨ hits.isEmpty then m.sxFire n notch else hits.foldl (fun (m : Mod) h => m.seatDeliver notch (.entry n) h.1 h.2) m
/-- Fire FAULT_NOTCH. -/
def Mod.sxFault (m : Mod) (n : Nat) : Mod := m.sxFire n (m.sxf n 0x20 15 0)

/-! ## Chunk headers (R33) -/

/-- A little-endian field of 4 bytes of a chunk, its bits `hi` to `lo`. -/
def chf (d : List Byte) (off hi lo : Nat) : Nat := bitsN (ofLe ((d.drop off).take 4)) hi lo
/-- KIND. -/
def chKind (d : List Byte) : Nat := chf d 0 31 28
/-- LEN. -/
def chLen (d : List Byte) : Nat := chf d 0 23 12
/-- STREAM. -/
def chStream (d : List Byte) : Nat := chf d 0 11 0
/-- LAST. -/
def chLast (d : List Byte) : Bool := chf d 0 26 26 == 1
/-- TENT. -/
def chTent (d : List Byte) : Bool := chf d 0 27 27 == 1
/-- GEND. -/
def chGend (d : List Byte) : Bool := chf d 0 25 25 == 1
/-- SEQ. -/
def chSeq (d : List Byte) : Nat := chf d 4 31 0
/-- POSITION. -/
def chPos (d : List Byte) : Nat := chf d 8 31 0
/-- ORIGIN. -/
def chOrigin (d : List Byte) : Nat := chf d 16 17 0
/-- The chunk with another STREAM. -/
def setStream (d : List Byte) (v : Nat) : List Byte := toLe 4 (ofLe (d.take 4) / 4096 * 4096 + v % 4096) ++ d.drop 4
/-- CHECK of a header and payload, STREAM counting as zero (R34). -/
def chCheck (d : List Byte) : Nat := crc32c ((setStream d 0).take (0x20 + 16 * chLen d))
/-- The chunk's length is 32 + 16 × LEN + 16 bytes (R633). -/
def chLenOk (d : List Byte) : Bool := d.length == 0x20 + 16 * chLen d + 16
/-- The trailer's CHECK is good. -/
def chOk (d : List Byte) : Bool := ofLe ((d.drop (0x20 + 16 * chLen d)).take 4) == chCheck d
/-- LEN is legal for KIND. -/
def lenLegal (kind len : Nat) : Bool := if kind = 1 then decide (1 ≤ len) && decide (len ≤ 2048) else len == 0
/-- Reserved bits of the header are zero, KIND is not reserved, and TRIM and CLOSE carry LAST (R38, check 2). -/
def chForm (d : List Byte) : Bool :=
  decide (1 ≤ chKind d) && decide (chKind d ≤ 3) && chf d 0 24 24 == 0 && chf d 12 31 16 == 0 && chf d 16 31 18 == 0 &&
  ((d.drop 0x14).take 12).all (· == 0) && (chKind d == 1 || chLast d)
/-- `a − b` as a signed 32-bit value (R42). -/
def seqDiff (a b : Nat) : Int := sNat 32 (a % 2 ^ 32 + 2 ^ 32 - b % 2 ^ 32)
/-- `a − b` modulo 2³². -/
def seqUp (a b : Nat) : Nat := (a % 2 ^ 32 + 2 ^ 32 - b % 2 ^ 32) % 2 ^ 32

/-! ## Arrival (R38, R42, R633) -/

/-- The first check of R38 that fails, as its counter's number. -/
def Mod.chunkFail (m : Mod) (d : List Byte) : Option Nat :=
  let n := chStream d
  let st := m.sxState n
  let stage := m.sxStage n
  let src (off : Nat) := m.sxf n off 31 31 = 1 ∧ m.sxf n off 17 0 = chOrigin d
  if st = 0 then some 0
  else if !chForm d then some 1
  else if !lenLegal (chKind d) (chLen d) || (stage && decide (m.sxf n 0x18 31 20 < 3 + chLen d)) then some 2
  else if m.sxf n 0x0C 31 31 = 1 ∧ ¬ src 0x0C ∧ ¬ src 0x10 then some 4
  else if st = 3 ∨ (!stage ∧ st = 2) ∨ (st = 4 ∧ chKind d = 1) then some 10
  else none
/-- A chunk is dropped at an entry that is not IDLE: its own count, and DROPPED (R38, R630). -/
def Mod.chunkDrop (m : Mod) (n i : Nat) : Mod := (m.semCnt i).sxFlag n 13 17
/-- A chunk leaves its link: the buffer space it held is returned. -/
def Mod.semFree (m : Mod) (x : SemIn) : Mod := match x.inMsg with | some y => m.freeMsg y | none => m
/-- A copy of this SEQ is landed; in compare mode one that is still to be judged does not count (R56). -/
def Mod.chunkDup (m : Mod) (n seq : Nat) : Bool :=
  match Tab.get? (m.sx n).slots seq with
  | some s => !(m.sxf n 0x00 28 28 == 1 && !s.handled && !s.judged && !s.released)
  | none => false
/-- The twin of the module that sent a first copy, the sender of its second copy, is marked down (R56). -/
def Mod.twinDown (m : Mod) (n : Nat) (d : List Byte) : Bool :=
  if m.sxf n 0x0C 31 31 = 1 ∧ m.sxf n 0x0C 17 0 = chOrigin d then m.sxf n 0x24 3 3 == 1 else m.sxf n 0x24 2 2 == 1
/-- The first copy of a SEQ is landed, and its twin is marked down: a second copy is a duplicate then (R57). -/
def Mod.secondDown (m : Mod) (n seq : Nat) : Bool :=
  match Tab.get? (m.sx n).slots seq with
  | some s => m.twinDown n s.data
  | none => false
/-- The panels of an entry's landing group take bytes into their bolts (R79). -/
def Mod.landUp (m : Mod) (n : Nat) : Bool :=
  let first := m.sxf n 0x14 7 0
  m.pwr.dead.all fun p => !((upto (m.sxf n 0x14 15 8 + 1 - first)).any fun i => panelOf (first + i) == p)
/-- What becomes of a chunk at a STAGE entry (R42). -/
inductive ChunkFate where
  | dup | far | land | wait
deriving DecidableEq, Repr
/-- The first chunk at an entry in SHADOW sets NEXT and REL to its SEQ (R58). -/
def Mod.chunkFirst (m : Mod) (n seq : Nat) : Mod :=
  if m.sxState n = 2 ∧ (m.sx n).fresh then (m.wrf (bSx n + 0x2C) 31 0 seq).updSx n fun e => { e with rel := seq, fresh := false } else m
/-- The table of R42, with compare mode's duplicates (R57). -/
def Mod.chunkFate (m : Mod) (n seq : Nat) : ChunkFate :=
  let d := seqDiff seq (m.sxNext n)
  if d < 0 ∨ m.chunkDup n seq ∨ m.secondDown n seq then .dup
  else if 4096 ≤ d then .far
  else if seqUp seq (m.sx n).rel < m.sxSlots n ∧ m.landUp n then .land
  else .wait
/-- A chunk that passed the checks comes to a STAGE entry: landed, discarded, held waiting or dropped (R42, R58). -/
def Mod.chunkStage (m : Mod) (n : Nat) (x : SemIn) : Mod :=
  let m0 := m.chunkFirst n (chSeq x.data)
  match m0.chunkFate n (chSeq x.data) with
  | .dup => (m0.semCnt 5).semFree x
  | .far => ((m0.chunkDrop n 9).sxGo n 3).semFree x
  | .land => (m0.updSx n fun e => { e with landing := e.landing ++ [x] }).semFree x
  | .wait => m0.updSx n fun e => { e with waiting := e.waiting ++ [x] }
/-- A chunk waits on link `l`: all virtual-channel-1 traffic behind it there is held back (R42). -/
def Mod.vc1Held (m : Mod) (l : Nat) : Bool := m.sem.entries.any fun e => e.2.waiting.any fun x => x.link == l
/-- The bytes that have come of a virtual-channel-1 message for this module, up to its header at least, where a PASS entry takes them before the
rest (R39): its class, and what is held of it. -/
def Mod.passPart (m : Mod) (l : Nat) (d : List Byte) : Option (Nat × PartMsg) :=
  if 32 ≤ d.length ∧ (m.chunkFail d).isNone ∧ !m.sxStage (chStream d) then
    (m.link l).parts.find? fun p => p.1 / 2 == 1 && p.2.dest == m.dev && !p.2.out && p.2.data == d
  else none
/-- Take a chunk's message: a whole one that has arrived, or one that a PASS entry takes as it comes. -/
def Mod.takeChunk (m : Mod) (l : Nat) (d : List Byte) : SemIn × Mod :=
  match m.passPart l d with
  | some (cls, p) =>
    ({ data := d, inMsg := some { link := some l, cls := cls, flits := p.flits }, link := l, more := true, cut := some (l, cls) },
     m.updLink l fun k => { k with parts := Tab.put k.parts cls { p with flits := 0, out := true } })
  | none => let r := m.takeMsg 1 d; ({ data := d, inMsg := r.1, link := l }, r.2)
/-- A chunk of a virtual-channel-1 message arrives (R38, R633). -/
def Mod.chunkArrives (m : Mod) (l : Nat) (d : List Byte) : Mod :=
  if m.vc1Held l then m
  else
    let (x, m1) := m.takeChunk l d
    if d.length < 32 then (m1.semFree x).inc (bPort (l / 6) + 0x40 + 8 * 5)
    else
      let n := chStream d
      match m1.chunkFail d with
      | some 0 => (m1.semCnt 0).semFree x
      | some i => (m1.chunkDrop n i).semFree x
      | none =>
        if m1.sxStage n then m1.chunkStage n x
        else m1.updSx n fun e => { e with passing := e.passing ++ [x] }
/-- A DATA chunk arrives; the home of chunks whose KIND is reserved, and of messages too short for a header (log 11). -/
def Mod.dataChunk (m : Mod) (l : LinkId) (d : List Byte) : Mod :=
  if d.length < 32 ∨ (chKind d ≠ 2 ∧ chKind d ≠ 3) then m.chunkArrives l.val d else m
/-- A TRIM chunk arrives. -/
def Mod.trimChunk (m : Mod) (l : LinkId) (d : List Byte) : Mod :=
  if 32 ≤ d.length ∧ chKind d = 2 then m.chunkArrives l.val d else m
/-- A CLOSE chunk arrives. -/
def Mod.closeChunk (m : Mod) (l : LinkId) (d : List Byte) : Mod :=
  if 32 ≤ d.length ∧ chKind d = 3 then m.chunkArrives l.val d else m
/-- A waiting chunk of entry `n` is looked at again: it lands once a slot is free; at an entry that no longer takes chunks it is
dropped at the check that says so (R42, R637). -/
def Mod.waitingAdmit (m : Mod) (n : Nat) : Mod :=
  match (m.sx n).waiting with
  | [] => m
  | x :: rest =>
    let m1 := m.updSx n fun e => { e with waiting := rest }
    match m.chunkFail x.data with
    | some 0 => (m1.semCnt 0).semFree x
    | some i => (m1.chunkDrop n i).semFree x
    | none =>
      let m2 := m1.chunkStage n x
      if (m2.sx n).waiting.length = (m.sx n).waiting.length then m else m2

/-! ## PASS entries (R36, R39) -/

/-- Depth of a destination's queue of an entry (R49). -/
def Mod.semDepth (m : Mod) (n k : Nat) : Nat :=
  m.lnk.groups.foldl (fun a g => a + (g.2.filter fun x => x.seam == some (n, k)).length) 0
/-- A destination of an entry, if valid. -/
def Mod.semDest (m : Mod) (n k : Nat) : Option Nat :=
  if m.sxf n (0x04 + 4 * k) 31 31 = 1 then some (m.sxf n (0x04 + 4 * k) 17 0) else none
/-- Where a seam's message to a device would wait: a group with its dateline class. None where it takes no link. -/
def Mod.semRoute (m : Mod) (dest : Nat) : Option (Nat × Nat) :=
  if (m.topo = 0 ∧ dest ≠ m.dev) ∨ !m.devOk dest ∨ dest = m.dev then none
  else match m.route dest none with
    | none => none
    | some (g, dl) => if (m.upLinks g).isEmpty then none else some (g, dl)
/-- Send a message and mark it as held by a seam queue; `cut` names where the rest of it comes, if not all has come. -/
def Mod.semSendTo (m : Mod) (n k dest : Nat) (d : List Byte) (cut : Option (Nat × Nat) := none) : Mod :=
  let x : Msg := { dest := dest, src := m.dev, vc := 1, data := d }
  match m.semRoute dest with
  | none => m.sendMsg x
  | some (g, dl) => m.enqueue g { msg := x, dl := dl, seam := some (n, k), more := cut.isSome, cut := cut }
/-- Every valid destination queue of an entry is full. -/
def Mod.semFull (m : Mod) (n : Nat) : Bool :=
  let v := [0, 1].filter fun k => (m.semDest n k).isSome
  !v.isEmpty && v.all fun k => decide (64 ≤ m.semDepth n k)
/-- The first link toward a device runs LP2 (R472). -/
def Mod.firstLp2 (m : Mod) (dest : Nat) : Bool :=
  match m.route dest none with
  | some (g, _) => (m.upLinks g).any fun l => m.rdf (bLink l) 5 4 == 2
  | none => false
/-- Queue one copy for each valid destination; a copy for a full queue is dropped (R48, R49), and a copy for NEXT1 whose first link is
LP2 (R472). -/
def Mod.semCopies (m : Mod) (n : Nat) (d : List Byte) (cut : Option (Nat × Nat) := none) : Mod :=
  [0, 1].foldl (fun (m : Mod) k =>
    match m.semDest n k with
    | none => m
    | some dest => if 64 ≤ m.semDepth n k ∨ (k = 1 ∧ m.firstLp2 dest) then m.sxFlag n (10 + k) 13 else m.semSendTo n k dest d cut) m
/-- Every valid destination of an entry is reached by a link, so that a chunk can be passed on as it comes. -/
def Mod.passCuts (m : Mod) (n : Nat) : Bool :=
  [0, 1].all fun k => match m.semDest n k with
    | some dest => (m.semRoute dest).isSome
    | none => true
/-- A PASS entry emits a chunk (R36, R39), also before its last byte has come (R638). -/
def Mod.passForward (m : Mod) (n : Nat) : Mod :=
  match (m.sx n).passing with
  | [] => m
  | x :: rest =>
    if m.semFull n ∨ (x.more ∧ !m.passCuts n) then m
    else
      let m1 := m.updSx n fun e => { e with passing := rest, passed := e.passed ++ [x] }
      m1.semCopies n (setStream x.data (m1.sxf n 0x00 11 0)) x.cut
/-- The last byte of a chunk has passed (R39, R633). -/
def Mod.passLastByte (m : Mod) (n : Nat) : Mod :=
  match (m.sx n).passed with
  | [] => m
  | x :: rest =>
    if x.more then m else
    let m1 := (m.updSx n fun e => { e with passed := rest }).semFree x
    if !chLenOk x.data then m1.semCnt 2 else if !chOk x.data then m1.semCnt 15 else m1

/-! ## Landing (R40, R41, R56, R637) -/

/-- Write a chunk into its slot of every bolt of the landing group, STREAM set to the local index (R40). -/
def Mod.semLand (m : Mod) (n : Nat) (d : List Byte) : Mod :=
  let off := (m.sxf n 0x18 17 0 + chSeq d % m.sxSlots n * m.sxf n 0x18 31 20) * 16
  let first := m.sxf n 0x14 7 0
  let bs := (setStream d n).take (0x30 + 16 * chLen d)
  (upto (m.sxf n 0x14 15 8 + 1 - first)).foldl (fun (m : Mod) i => m.updCore (first + i) fun k => k.boltWrite off bs) m
/-- The bytes that a chunk which was landing from a partial message wrote to its slot are undefined (R16, R449; log 6). -/
def Mod.undoLanding (m : Mod) (d : List Byte) : Mod :=
  let n := chStream d
  if d.length < 32 ∨ (m.chunkFail d).isSome ∨ !m.sxStage n ∨ (m.chunkFirst n (chSeq d)).chunkFate n (chSeq d) ≠ .land then m
  else
    let off := (m.sxf n 0x18 17 0 + chSeq d % m.sxSlots n * m.sxf n 0x18 31 20) * 16
    let first := m.sxf n 0x14 7 0
    (upto (m.sxf n 0x14 15 8 + 1 - first)).foldl (fun (m : Mod) i =>
      let r := m.freeBytes d.length
      r.2.updCore (first + i) fun k => k.boltWrite off r.1) m
/-- The seam endpoint takes the flits of a chunk as they come: it drops the chunk, or its slot or its PASS entry has room (R42, R452). -/
def Mod.chunkTakes (m : Mod) (l : Nat) (d : List Byte) : Bool :=
  let n := chStream d
  !m.vc1Held l && (decide (d.length < 32) || (m.chunkFail d).isSome || !m.sxStage n || (m.chunkFirst n (chSeq d)).chunkFate n (chSeq d) != .wait)
/-- What compare mode compares: header and payload without STREAM and ORIGIN, in which twins differ (R48, R54; log 18). -/
def chBody (d : List Byte) : List Byte :=
  let e := (setStream d 0).take (0x20 + 16 * chLen d)
  e.take 16 ++ e.drop 20
/-- A chunk with a bad CHECK or length is dropped (R41, R633, R56). FAULT_NOTCH fires at an entry in SHADOW too (DEDUCED, log 79). -/
def Mod.landBad (m : Mod) (n : Nat) (d : List Byte) : Mod :=
  let m1 := if chLenOk d then (m.sxFlag n 8 3).sxFlag n 13 17 else m.chunkDrop n 2
  if m.sxf n 0x10 31 31 = 0 then (m1.sxGo n 3).sxFault n
  else if m.sxf n 0x00 28 28 = 1 then
    match Tab.get? (m1.sx n).slots (chSeq d) with
    | some s => (m1.updSx n fun e => { e with slots := Tab.put e.slots (chSeq d) { s with judged := true } }).semCnt 12
    | none => m1.updSx n fun e => { e with failed := chSeq d :: e.failed.filter (· != chSeq d) }
  else m1
/-- A good chunk: landed as its SEQ's first copy, or judged against it (R55, R56). FAULT_NOTCH of a mismatch fires at an entry in SHADOW too
(DEDUCED, log 79). -/
def Mod.landGood (m : Mod) (n : Nat) (d : List Byte) : Mod :=
  let seq := chSeq d
  match Tab.get? (m.sx n).slots seq with
  | none =>
    let single := (m.sx n).failed.contains seq
    let m1 := (m.semLand n d).updSx n fun e =>
      { e with slots := Tab.put e.slots seq { data := setStream d n, judged := single }, failed := e.failed.filter (· != seq) }
    if single then m1.semCnt 12 else m1
  | some s =>
    if m.chunkDup n seq ∨ m.secondDown n seq then m.semCnt 5
    else
      let m1 := m.updSx n fun e => { e with slots := Tab.put e.slots seq { s with judged := true } }
      if chBody d = chBody s.data then m1
      else
        let m2 := (m1.sxFlag n 9 11).sxFault n
        if m.sxf n 0x00 27 27 = 1 then m2.sxGo n 3 else m2
/-- The oldest landing chunk of entry `n` is held in full: its length and CHECK are verified, unless the entry has become FENCED or
IDLE (R41, R637). A chunk whose SEQ has meanwhile fallen below NEXT is a duplicate before its CHECK is judged (DEDUCED, log 80). It stays where it
is while a panel of the landing group stands still (R79), or a notch of the entry waits (R331). -/
def Mod.chunkLanded (m : Mod) (n : Nat) : Mod :=
  match (m.sx n).landing with
  | [] => m
  | x :: rest =>
    if !m.landUp n ∨ m.heldBack (.entry n) then m else
    let m1 := m.updSx n fun e => { e with landing := rest }
    if m.sxState n = 0 ∨ m.sxState n = 3 then m1.semLand n x.data
    else if seqDiff (chSeq x.data) (m.sxNext n) < 0 then m1.semCnt 5
    else if chLenOk x.data && chOk x.data then m1.landGood n x.data
    else m1.landBad n x.data

/-! ## Slots and handling (R43, R44, R51, R59, R61) -/

/-- REL moves over the slots that the endpoint has released. -/
def semRel (e : SemEntry) : Nat → SemEntry
  | 0 => e
  | k + 1 =>
    match Tab.get? e.slots e.rel with
    | some s => if s.released then semRel { e with rel := (e.rel + 1) % 2 ^ 32, slots := Tab.del e.slots e.rel } k else e
    | none => e
/-- A CLOSING entry becomes IDLE when it is done (R59). -/
def Mod.semIdle (m : Mod) (n : Nat) : Mod :=
  let e := m.sx n
  if m.sxState n = 4 ∧ (e.closeSent ∨ m.sxf n 0x00 25 25 = 0) ∧ e.slots.isEmpty then m.sxGo n 0 else m
/-- Handle the chunk at NEXT, once it is landed, verified and, in compare mode, judged or without its twin (R43, R56); not while a notch of the entry
waits (R331). DATA that landed before its entry became CLOSING counts as dropped there, as DATA that arrives does (DEDUCED, log 78). A TRIM handled
in CLOSING is not forwarded (R58). -/
def Mod.handleNext (m : Mod) (n : Nat) : Mod :=
  let seq := m.sxNext n
  let st := m.sxState n
  match Tab.get? (m.sx n).slots seq with
  | none => m
  | some s =>
    if !(st = 1 ∨ st = 4) ∨ m.heldBack (.entry n) ∨ s.handled ∨ s.released ∨ (m.sxf n 0x00 28 28 = 1 ∧ !s.judged ∧ !m.twinDown n s.data) then m
    else
      let d := s.data
      let pos := chPos d
      let com := m.sxCommit n
      -- the mark (R61, step 4): OUTSEQ and COMMIT as they stand when the notch fires
      let m0 := if (m.sx n).armed ∧ m.sxf n 0x3C 31 0 = seq then
          (((m.updSx n fun e => { e with armed := false }).wrf (bSx n + 0x40) 31 0 (m.sxf n 0x30 31 0)).wrf (bSx n + 0x44) 31 0 com).sxFlag n 14 16
        else m
      let adv (m : Mod) (gone : Bool) : Mod :=
        (m.wrf (bSx n + 0x2C) 31 0 (seq + 1)).updSx n fun e =>
          semRel { e with slots := Tab.put e.slots seq { s with handled := !gone, released := gone } } (e.slots.length + 1)
      let fwd (m : Mod) : Mod :=
        if m.sxf n 0x00 25 25 = 1 then m.updSx n fun e => { e with fwd := e.fwd ++ [{ count := e.lastIn, head := d.take 16 }] } else m
      let r :=
        if chKind d = 1 then
          if st = 4 then adv (m0.chunkDrop n 10) true
          else if pos < com then adv (m0.semCnt 6) true
          else if chTent d ∧ com + 16 ≤ pos then adv (m0.semCnt 7) true
          else
            let m1 := if chLast d then m0.updSx n fun e => { e with lastIn := e.lastIn + 1 } else m0
            let m2 := if chLast d ∧ (m.sxf n 0x00 26 26 = 0 ∨ chGend d) then m1.sxNotch n (m.sxf n 0x1C 15 0) else m1
            let m3 := if chLast d ∧ !chTent d then m2.wrf (bSx n + 0x34) 31 0 (max com (pos + 1)) else m2
            adv m3 false
        else if chKind d = 2 then
          if pos < com then adv (m0.semCnt 8) true
          else adv (((if st = 4 then m0 else fwd m0).wrf (bSx n + 0x34) 31 0 pos).sxNotch n (m.sxf n 0x1C 31 16)) false
        else adv ((fwd m0).sxGo n 4) false
      r.semIdle n
/-- Slots of an entry in use (SEM_SxOCC.SLOTS_USED): landed and not released. -/
def Mod.slotsUsed (m : Mod) (n : Nat) : Nat := ((m.sx n).slots.filter fun p => !p.2.released).length
/-- Release the oldest `k` slots that software holds (R44). -/
def semRelease (e : SemEntry) : Nat → SemEntry
  | 0 => e
  | k + 1 =>
    match Tab.get? e.slots e.rel with
    | some s => if s.handled then
        let e1 : SemEntry := { e with rel := (e.rel + 1) % 2 ^ 32, slots := Tab.del e.slots e.rel }
        semRelease (semRel e1 (e1.slots.length + 1)) k
      else e
    | none => e
/-- A write of a count to SEM_SxREL (R44). -/
def Mod.semSxrel (m : Mod) (n : Nat) (count : Nat) : Mod :=
  let k := count % 512
  let held := ((m.sx n).slots.filter fun p => p.2.handled).length
  if k = 0 ∨ 256 < k then m.sxFlag n 12 14
  else
    let m1 := if held < k then m.sxFlag n 12 14 else m
    (m1.updSx n fun e => semRelease e k).semIdle n

/-! ## Sending (R46 to R49, R53) -/

/-- Bits of a send descriptor. -/
def sdf (d : List Byte) (off hi lo : Nat) : Nat := bitsN (ofLe ((d.drop off).take 4)) hi lo
/-- The endpoint accepts a descriptor of core `c` (R47, R58). -/
def Mod.sendOk (m : Mod) (c : Nat) (d : List Byte) : Bool :=
  let n := sdf d 0 11 0
  let st := m.sxState n
  let kind := sdf d 0 31 28
  let len := sdf d 0 23 12
  (st == 1 || (st == 4 && kind == 3)) && m.sxStage n && m.partOf c == some (m.sxPart n) &&
  decide (1 ≤ kind) && decide (kind ≤ 3) && sdf d 0 24 24 == 0 && sdf d 8 31 18 == 0 && sdf d 12 31 16 == 0 &&
  (kind == 1 || sdf d 0 26 26 == 1) && lenLegal kind len && decide (sdf d 8 17 0 + len ≤ 0x40000)
/-- A chunk with its check value: header without STREAM, payload, and the stream to name. -/
def buildChunk (w0 seq pos slice origin stream : Nat) (payload : List Byte) : List Byte :=
  let h := toLe 4 (w0 / 4096 * 4096) ++ toLe 4 seq ++ toLe 4 pos ++ toLe 4 (slice % 2 ^ 16) ++ toLe 4 origin ++ toLe 12 0
  let body := h ++ payload
  setStream body stream ++ toLe 4 (crc32c body) ++ toLe 12 0
/-- Send an accepted descriptor (R48, R49). A CLOSE that software sends counts as the entry's forwarded CLOSE, also with AUTO_FWD set (DEDUCED,
log 81). -/
def Mod.sendChunk (m : Mod) (c : Nat) (d : List Byte) : Mod :=
  let n := sdf d 0 11 0
  let len := sdf d 0 23 12
  let (bs, _, m1) := if len = 0 then (([] : List Byte), false, m) else m.boltRead c (16 * sdf d 8 17 0) (16 * len)
  let ch := buildChunk (ofLe (d.take 4)) (m.sxf n 0x30 31 0) (sdf d 4 31 0) (sdf d 12 15 0) m.dev (m.sxf n 0x00 11 0) bs
  let m2 := m1.wrf (bSx n + 0x30) 31 0 (m.sxf n 0x30 31 0 + 1)
  let m3 := if sdf d 0 31 28 = 1 ∧ sdf d 0 26 26 = 1 then m2.updSx n fun e => { e with lastOut := e.lastOut + 1 } else m2
  let m4 := if sdf d 0 31 28 = 3 then m3.updSx n fun e => { e with closeSent := true } else m3
  (m4.semCopies n ch).semIdle n
/-- A descriptor is posted: rejected, sent, or, with every queue full, not yet taken (R47 to R49). -/
def Mod.semPost (m : Mod) (c : Nat) (d : List Byte) : Option Mod :=
  let n := sdf d 0 11 0
  if !m.sendOk c d then some (m.sxFlag n 12 14)
  else if m.semFull n then none
  else some (m.sendChunk c d)
/-- A write of bytes 8 to 15 of the SEM_SEND window by core `c`; bytes 0 to 7 are those last written (R46). With every queue full
the write waits (R49). -/
def Mod.sendDescriptorPost (m : Mod) (c : CoreId) (w : W64) : Mod :=
  if m.sem.posts.any (·.1 == c.val) then m
  else
    let d := toLe 8 (m.core c.val).semWin.toNat ++ toLe 8 w.toNat
    match m.semPost c.val d with
    | some m1 => m1
    | none => { m with sem := { m.sem with posts := m.sem.posts ++ [(c.val, d)] } }
/-- A waiting post of core `c` completes once a queue has room (R49). -/
def Mod.sendQueueRoom (m : Mod) (c : CoreId) : Mod :=
  match m.sem.posts.find? (·.1 == c.val) with
  | none => m
  | some p =>
    match m.semPost c.val p.2 with
    | some m1 => { m1 with sem := { m1.sem with posts := m1.sem.posts.filter (·.1 != c.val) } }
    | none => m
/-- AUTO_FWD sends the oldest pending TRIM or CLOSE once the stage has sent the recorded number of LAST DATA chunks (R53). In CLOSING only CLOSE is
sent: TRIMs that still wait are not (R58). -/
def Mod.autoFwdSend (m : Mod) (n : Nat) : Mod :=
  match (m.sx n).fwd.filter fun x => m.sxState n != 4 || chKind x.head == 3 with
  | [] => m
  | x :: rest =>
    if (m.sxState n ≠ 1 ∧ m.sxState n ≠ 4) ∨ m.heldBack (.entry n) ∨ (m.sx n).lastOut < x.count ∨ m.semFull n then m
    else
      let ch := buildChunk (ofLe (x.head.take 4)) (m.sxf n 0x30 31 0) (ofLe ((x.head.drop 8).take 4)) (ofLe ((x.head.drop 12).take 4)) m.dev (m.sxf n 0x00 11 0) []
      let m1 := (m.updSx n fun e => { e with fwd := rest, closeSent := e.closeSent || chKind x.head == 3 }).wrf (bSx n + 0x30) 31 0 (m.sxf n 0x30 31 0 + 1)
      (m1.semCopies n ch).semIdle n

/-! ## Control writes (R56 to R58, R62) -/

/-- A write of RUN (R58). -/
def Mod.semRun (m : Mod) (n : Nat) : Mod := if m.sxState n = 2 then m.sxGo n 1 else m
/-- A write of FENCE (R58); an IDLE entry has nothing to fence. -/
def Mod.semFence (m : Mod) (n : Nat) : Mod := if m.sxState n = 0 then m else m.sxGo n 3
/-- A write of DOWN0 (R56, R57). -/
def Mod.semDown0 (m : Mod) (n : Nat) : Mod := m.raise (bSx n + 0x24) 2
/-- A write of DOWN1. -/
def Mod.semDown1 (m : Mod) (n : Nat) : Mod := m.raise (bSx n + 0x24) 3
/-- A write of SEM_SxMARK (R62): a write arms the mark again. -/
def Mod.semMark (m : Mod) (n : Nat) (seq : Nat) : Mod := (m.wrf (bSx n + 0x3C) 31 0 seq).updSx n fun e => { e with armed := true }

end Sys2Proof.Machine
end

