-- ==== Sys2Proof/Machine/Coll.lean ====
section
/-! DEFINITION. The collective engine (15): groups (R473 to R477), queues and posts (R478 to R483), rings, chains and phases (R484
to R492), chunks and tokens (R493 to R497), all-to-all (R498 to R501), tears and resets (R502 to R506), stalls (R508, R509). -/

namespace Sys2Proof.Machine

/-! ## Registers -/

/-- Base of group `g`'s entry. -/
def bG (g : Nat) : Nat := bGRP + 0x10000 + 0x40 * g
/-- Base of group `g`'s queue registers. -/
def bQ (g : Nat) : Nat := bGRP + 0x50000 + 0x40 * g
/-- Group `g`. -/
def Mod.grp (m : Mod) (g : Nat) : CollGroup := Tab.get {} m.coll g
/-- Change group `g`. -/
def Mod.updGrp (m : Mod) (g : Nat) (f : CollGroup → CollGroup) : Mod := { m with coll := Tab.put m.coll g (f (m.grp g)) }
/-- Change the running operation of group `g`. -/
def Mod.updOp (m : Mod) (g : Nat) (f : CollOp → CollOp) : Mod := m.updGrp g fun k => { k with run := k.run.map f }
/-- Count at GRP_CNTi. -/
def Mod.grpCnt (m : Mod) (i n : Nat) : Mod := m.incBy (bGRP + 0x100 + 8 * i) n
/-- Set a W1C bit of CMQ_gSTAT with its count (R545). -/
def Mod.cmqFlag (m : Mod) (g b i : Nat) : Mod := ((m.raise (bQ g + 0x18) b).grpCnt i 1).prtVector (m.rdf (bG g) 59 56)
/-- The entry is valid. -/
def Mod.grpValid (m : Mod) (g : Nat) : Bool := m.rdf (bG g) 63 63 == 1
/-- Its partition. -/
def Mod.grpPart (m : Mod) (g : Nat) : Nat := m.rdf (bG g) 59 56
/-- WIN (R496). -/
def Mod.grpWin (m : Mod) (g : Nat) : Nat := m.rdf (bG g) 55 48 + 1
/-- Members. -/
def Mod.grpN (m : Mod) (g : Nat) : Nat := m.rdf (bG g + 0x08) 63 46 + 1
/-- Own member index. -/
def Mod.grpSelf (m : Mod) (g : Nat) : Nat := m.rdf (bG g + 0x20) 63 46
/-- Device ID of a member (R474). -/
def Mod.member (m : Mod) (g i : Nat) : Nat := bitsN (m.rdLe (m.rdf (bG g + 0x08) 45 0 + 4 * i) 4) 17 0
/-- HEAD and TAIL. -/
def Mod.qHead (m : Mod) (g : Nat) : Nat := m.rdf (bQ g + 0x08) 31 0
/-- TAIL. -/
def Mod.qTail (m : Mod) (g : Nat) : Nat := m.rdf (bQ g + 0x08) 63 32
/-- Entries posted and not completed. -/
def Mod.qDepth (m : Mod) (g : Nat) : Nat := (m.qTail g + 2 ^ 32 - m.qHead g) % 2 ^ 32
/-- The queue is halted. -/
def Mod.qHalted (m : Mod) (g : Nat) : Bool := m.rdf (bQ g + 0x18) 1 1 == 1
/-- CURSEQ. -/
def Mod.curSeq (m : Mod) (g : Nat) : Nat := m.rdf (bQ g + 0x18) 39 16
/-- Address of the queue entry at HEAD + `k`. -/
def Mod.qAddr (m : Mod) (g k : Nat) : Nat := m.rdf (bG g + 0x10) 45 14 * 2 ^ 14 + 64 * ((m.qHead g + k) % 256)

/-! ## Values computed at the apply point (R476, R477) -/

/-- Digits of a member index along the sizes of a box. -/
def digits : List Nat → Nat → List Nat
  | [], _ => []
  | b :: bs, i => i % b :: digits bs (i / b)
/-- The sizes of the box that a list forms, if any: along each dimension in turn, the run of members that differ from member 0
there alone (R477). -/
def Mod.boxOf (m : Mod) (ids : List Nat) : Option (List Nat) :=
  let n := ids.length
  let c0 := ids.headD 0
  let want (d k : Nat) := (m.coord c0 d + k) % m.sizeOf d
  let run (d stride : Nat) : Nat :=
    ((upto (m.sizeOf d)).takeWhile fun k =>
      match ids[k * stride]? with
      | some id => (upto m.dims).all fun e => if e = d then m.coord id e == want d k else m.coord id e == m.coord c0 e
      | none => false).length
  let sizes := ((upto m.dims).foldl (fun (a : List Nat × Nat) d => let b := max 1 (run d a.2); (a.1 ++ [b], a.2 * b)) ([], 1)).1
  if sizes.prod = n ∧ (ids.zipIdx.all fun p => ((digits sizes p.2).zipIdx.all fun q => m.coord p.1 q.2 == want q.2 q.1)) then some sizes
  else none
/-- Read the list and compute GKEY, SELF, BOX and BDIM of group `g` (R476); the entry starts empty. -/
def Mod.grpApply (m : Mod) (g : Nat) : Mod :=
  let n := m.grpN g
  let base := m.rdf (bG g + 0x08) 45 0
  let bytes := m.rdMem base (4 * n)
  let ids := (upto n).map fun i => m.member g i
  let key := crc32c (bytes ++ toLe 2 (m.rdf (bG g) 47 32))
  let self := (firstIx (· == m.dev) ids).getD 0
  let box := m.boxOf ids
  let bdim := match box with | some l => (l.zipIdx.map fun p => (p.1 - 1) * 2 ^ (6 + 6 * p.2)).sum | none => 0
  ((m.wr (bG g + 0x28) (w64 key)).wr (bG g + 0x20) (w64 (self * 2 ^ 46 + b2n box.isSome * 2 ^ 45 + bdim))).updGrp g fun _ => {}

/-! ## Entries (R478, R481) -/

/-- A little-endian field of an entry. -/
def CollOp.w (o : CollOp) (off n : Nat) : Nat := descW o.entry off n
/-- OP. -/
def CollOp.op (o : CollOp) : Nat := bitsN (o.w 0 4) 31 28
/-- TYPE. -/
def CollOp.ty (o : CollOp) : Nat := bitsN (o.w 0 4) 27 24
/-- ROP. -/
def CollOp.rop (o : CollOp) : Nat := bitsN (o.w 0 4) 23 22
/-- ACCUM. -/
def CollOp.accum (o : CollOp) : Bool := bitsN (o.w 0 4) 21 21 == 1
/-- SKIND: the source lies in a bolt. -/
def CollOp.sbolt (o : CollOp) : Bool := bitsN (o.w 0 4) 20 20 == 1
/-- DKIND: the destination lies in a bolt. -/
def CollOp.dbolt (o : CollOp) : Bool := bitsN (o.w 0 4) 19 19 == 1
/-- COUNT. -/
def CollOp.count (o : CollOp) : Nat := o.w 0x18 4
/-- ARG. -/
def CollOp.arg (o : CollOp) : Nat := o.w 0x1C 4
/-- Element bytes. -/
def CollOp.eb (o : CollOp) : Nat := codeBits o.ty / 8
/-- The format in which partials travel: FP8 sums travel as FP32 (R491). -/
def CollOp.pty (o : CollOp) : Nat := if o.op ≤ 2 ∧ o.rop = 0 ∧ (o.ty = 2 ∨ o.ty = 3) then 8 else o.ty
/-- The ticket (R480). -/
def CollOp.ticket (o : CollOp) : List Byte := toLe 4 (o.op * 2 ^ 28 + o.ty * 2 ^ 24 + o.seq % 2 ^ 24) ++ toLe 4 o.count ++ toLe 4 o.arg ++ toLe 4 0
/-- TYPE is one of R481. -/
def collTy (t : Nat) : Bool := [0, 2, 3, 8, 9, 10].contains t
/-- S of R484. -/
def CollOp.seg (o : CollOp) (n : Nat) : Nat := cdiv o.count n
/-- Bytes of a source row of ALLTOALL. -/
def CollOp.rowLen (o : CollOp) : Nat := o.count * o.eb
/-- First element of segment `j`. -/
def CollOp.segAt (o : CollOp) (n j : Nat) : Nat := min o.count (j * o.seg n)
/-- First element and count of what SRC holds: the own segment for ALLGATHER, every element otherwise (log 19). -/
def CollOp.srcSpan (o : CollOp) (n self : Nat) : Nat × Nat :=
  if o.op = 3 then (o.segAt n self, o.segAt n (self + 1) - o.segAt n self) else (0, o.count)
/-- The same of DST: the own segment for REDSCAT (log 19). -/
def CollOp.dstSpan (o : CollOp) (n self : Nat) : Nat × Nat :=
  if o.op = 2 then (o.segAt n self, o.segAt n (self + 1) - o.segAt n self) else (0, o.count)
/-- Bytes of the source and destination ranges. -/
def CollOp.sizes (o : CollOp) (n self : Nat) : Nat × Nat :=
  if o.op = 5 then (o.w 0x30 4 * o.rowLen, n * o.arg * o.rowLen) else ((o.srcSpan n self).2 * o.eb, (o.dstSpan n self).2 * o.eb)
/-- Bytes of MASK in a receive record (R500). -/
def maskBytes (n cap : Nat) : Nat := cdiv (n * cap) 64 * 8
/-- Bytes of a receive record. -/
def recBytes (n cap : Nat) : Nat := 4 * (n * cap) + maskBytes n cap + 4 * n
/-- A range of an entry is wholly where it may be (R478, R482). -/
def Mod.collRange (m : Mod) (g : Nat) (bolt : Bool) (core addr n align : Nat) : Bool :=
  let p := m.part (m.grpPart g)
  addr % align == 0 &&
  (if bolt then p.cores.contains core && decide (addr + n ≤ boltSize) else decide (addr < 2 ^ 46) && p.holds addr n)
/-- The first failing check of R482, as the STATUS. -/
def Mod.collFail (m : Mod) (g : Nat) (o : CollOp) : Option Nat :=
  let n := m.grpN g
  let self := m.grpSelf g
  let sz := o.sizes n self
  let src := o.w 0x08 8
  let dst := o.w 0x10 8
  let sc := bitsN (o.w 4 4) 15 8
  let dc := bitsN (o.w 4 4) 7 0
  let badop :=
    o.op = 0 ∨ 6 < o.op ∨ bitsN (o.w 0 4) 18 0 ≠ 0 ∨ o.w 0x34 4 ≠ 0 ∨ o.rop = 3 ∨ (o.op ≠ 6 ∧ !collTy o.ty) ∨
    (2 < o.op ∧ (o.rop ≠ 0 ∨ o.accum)) ∨ (o.accum ∧ (o.rop ≠ 0 ∨ o.ty = 2 ∨ o.ty = 3)) ∨ (o.op ≠ 4 ∧ o.op ≠ 5 ∧ o.arg ≠ 0) ∨
    (o.op = 6 ∧ (o.ty ≠ 0 ∨ o.count ≠ 0))
  if badop then some 0x10
  else if o.op = 6 then none
  else if o.count = 0 ∨ (o.op = 5 ∧ (o.arg = 0 ∨ o.w 0x30 4 = 0 ∨ 2 ^ 20 < o.w 0x30 4)) ∨ 2 ^ 32 < sz.1 ∨ 2 ^ 32 < sz.2 ∨
      (o.op = 5 ∧ 2 ^ 32 < recBytes n o.arg) then some 0x11
  else if !m.collRange g o.sbolt sc src sz.1 o.eb || !m.collRange g o.dbolt dc dst sz.2 o.eb ||
      (o.op == 5 && !(m.collRange g false 0 (o.w 0x20 8) (4 * o.w 0x30 4) 4 && m.collRange g false 0 (o.w 0x28 8) (recBytes n o.arg) 4)) then some 0x12
  else if o.sbolt = o.dbolt ∧ (!o.sbolt ∨ sc = dc) ∧ meet src sz.1 dst sz.2 then some 0x13
  else if o.op = 4 ∧ n ≤ o.arg then some 0x14
  else if o.accum ∧ (o.dbolt ∨ !m.isSpool dst ∨ dst % 64 ≠ 0 ∨ sz.2 % 64 ≠ 0) then some 0x15
  else if o.op = 5 ∧ ((upto (o.w 0x30 4)).any fun q => let d := m.rdLe (o.w 0x20 8 + 4 * q) 4; d != 0xFFFFFFFF && decide (n ≤ d)) then some 0x16
  else none

/-! ## Elements -/

/-- Bytes of the source from byte `off` of its range. -/
def Mod.collRead (m : Mod) (o : CollOp) (off k : Nat) : List Byte × Mod :=
  let a := o.w 0x08 8 + off
  if o.sbolt then let r := m.boltRead (bitsN (o.w 4 4) 15 8) a k; (r.1, r.2.2) else m.ncRead a k
/-- Write bytes at byte `off` of the destination range. -/
def Mod.collWrite (m : Mod) (o : CollOp) (off : Nat) (bs : List Byte) : Mod :=
  let a := o.w 0x10 8 + off
  if bs.isEmpty then m
  else if o.dbolt then m.updCore (bitsN (o.w 4 4) 7 0) fun k => k.boltWrite a bs else m.ncWrite a bs
/-- Add or compare two elements in the format of the partials: partial, then own (R485, R491). -/
def collComb (ty rop a b : Nat) : Nat :=
  match fmtOf ty with
  | some f => f.round false ((match rop with | 0 => Fl.add | 1 => Fl.max2 | _ => Fl.min2) (f.decode a) (f.decode b))
  | none =>
    let le := decide (sNat 32 a ≤ sNat 32 b)
    match rop with | 0 => (a + b) % 2 ^ 32 | 1 => if le then b else a | _ => if le then a else b
/-- A source element in the format of the partials: FP8 widens exactly (R491). -/
def CollOp.widen (o : CollOp) (b : Nat) : Nat := if o.pty = o.ty then b else fp32.round false (codeVal o.ty b)
/-- A final value in TYPE, and whether it overflowed (R131, R491). -/
def CollOp.final (o : CollOp) (b : Nat) : Nat × Bool := if o.pty = o.ty then (b, false) else codeConv o.ty (fp32.decode b)
/-- Own elements from `a`, `k` of them, as the phases so far have left them. -/
def Mod.ownElems (m : Mod) (g : Nat) (o : CollOp) (a k : Nat) : List Nat × Mod :=
  let s := (o.srcSpan (m.grpN g) (m.grpSelf g)).1
  let r := if (upto k).all fun i => (Tab.get? o.vals (a + i)).isSome then (([] : List Byte), m) else m.collRead o ((a - s) * o.eb) (k * o.eb)
  ((upto k).map fun i => match Tab.get? o.vals (a + i) with | some v => v | none => o.widen (elemOf o.ty r.1 i), r.2)
/-- Write final elements, in TYPE, at their places; with ACCUM they are kept until all are known (R492). -/
def Mod.putFinal (m : Mod) (g : Nat) (o : CollOp) (a : Nat) (vs : List Nat) : Mod :=
  let m1 := m.updOp g fun q => { q with vals := vs.zipIdx.foldl (fun t p => Tab.put t (a + p.2) p.1) q.vals }
  if o.accum then m1 else m1.collWrite o ((a - (o.dstSpan (m.grpN g) (m.grpSelf g)).1) * o.eb) (packElems o.ty vs)

/-! ## Phases (R484 to R490) -/

/-- One phase: a ring of `b` members along an axis, own digit `k`, first segment and segments to a part. -/
structure Phase where
  axis : Nat := 7
  gath : Bool := false
  b : Nat := 1
  k : Nat := 0
  lo : Nat := 0
  stride : Nat := 1
deriving DecidableEq, Repr, Inhabited
/-- The rings of a group: the axes of its box that have more than one member, or the flat ring (R485, R486). -/
def Mod.rings (m : Mod) (g : Nat) : List Phase :=
  let st := m.rd (bG g + 0x20)
  let n := m.grpN g
  let self := m.grpSelf g
  if n ≤ 1 then []
  else if bit st 45 then
    let bs := (upto m.dims).map fun d => fld st (6 * d + 11) (6 * d + 6) + 1
    ((upto m.dims).foldl (fun (a : List Phase × Nat) d =>
      let b := bs.getD d 1
      (if b ≤ 1 then a.1 else a.1 ++ [{ axis := d, b := b, k := self / a.2 % b, lo := self / (a.2 * b) * (a.2 * b), stride := a.2 }], a.2 * b)) ([], 1)).1
  else [{ b := n, k := self }]
/-- The phases of an operation: reduce-scatter from the last axis down, gather from the first up (R486 to R488). -/
def Mod.phases (m : Mod) (g op : Nat) : List Phase :=
  let rs := (m.rings g).reverse
  let ag := (m.rings g).map fun p => { p with gath := true }
  match op with | 1 => rs ++ ag | 2 => rs | 3 => ag | _ => []
/-- The member next to this one along a phase's ring. -/
def Mod.ringNext (m : Mod) (g : Nat) (p : Phase) (fwd : Bool) : Nat :=
  m.grpSelf g - p.k * p.stride + (if fwd then (p.k + 1) % p.b else (p.k + p.b - 1) % p.b) * p.stride
/-- Elements of a part of a phase: first, and first beyond. -/
def CollOp.partSpan (o : CollOp) (n : Nat) (p : Phase) (j : Nat) : Nat × Nat :=
  (o.segAt n (p.lo + j * p.stride), o.segAt n (p.lo + (j + 1) * p.stride))
/-- The part in which an element lies. -/
def CollOp.partOf (o : CollOp) (n : Nat) (p : Phase) (e : Nat) : Option Nat :=
  (upto p.b).find? fun j => decide ((o.partSpan n p j).1 ≤ e ∧ e < (o.partSpan n p j).2)
/-- Bytes of an element on the way in a phase. -/
def CollOp.wayBytes (o : CollOp) (p : Phase) : Nat := (if p.gath then codeBits o.ty else codeBits o.pty) / 8
/-- Cut elements `a` up to `b` into chunks of at most 4,096 bytes. -/
def cutChunks (eb : Nat) (a b : Nat) : List (Nat × Nat) :=
  let s := 4096 / eb
  (upto (cdiv (b - a) s)).map fun i => (a + i * s, min s (b - a - i * s))
/-- Elements that this member receives in a phase. -/
def CollOp.expect (o : CollOp) (n : Nat) (p : Phase) : Nat :=
  let own := if p.gath then p.k else (p.k + p.b - 1) % p.b
  (((upto p.b).filter (· != own)).map fun j => (o.partSpan n p j).2 - (o.partSpan n p j).1).sum

/-! ## Chunks (R493, R494) -/

/-- A field of 4 bytes of a collective chunk. -/
def ccf (d : List Byte) (off hi lo : Nat) : Nat := chf d off hi lo
/-- CHECK of a collective chunk: header with CHECK zero, and payload. -/
def ccCheck (d : List Byte) : Nat := crc32c (d.take 0x24 ++ toLe 4 0 ++ d.drop 0x28)
/-- Build a chunk. -/
def Mod.collChunk (m : Mod) (g kind axis : Nat) (gath : Bool) (ticket : List Byte) (offset last srow src : Nat) (payload : List Byte) : List Byte :=
  let len := cdiv payload.length 8
  let pl := payload ++ List.replicate (8 * len - payload.length) 0#8
  let h1 := toLe 4 (kind * 2 ^ 28 + axis * 2 ^ 25 + b2n gath * 2 ^ 24 + g * 2 ^ 12 + len) ++ toLe 4 (m.rdf (bG g + 0x28) 31 0) ++ ticket ++ toLe 4 offset ++
    toLe 4 (last * 2 ^ 31 + src) ++ toLe 4 srow
  let h2 := toLe 8 0
  h1 ++ toLe 4 (crc32c (h1 ++ toLe 4 0 ++ h2 ++ pl)) ++ h2 ++ pl
/-- Send a chunk to a member on vc2. -/
def Mod.collSend (m : Mod) (g i : Nat) (d : List Byte) : Mod := m.sendMsg { dest := m.member g i, src := m.dev, vc := 2, data := d }
/-- Progress re-arms the watchdog (R508). -/
def Mod.collProgress (m : Mod) (g : Nat) : Mod := m.updOp g fun o => { o with armed := true }
/-- Tokens to a predecessor (R496). -/
def Mod.sendTokens (m : Mod) (g : Nat) (o : CollOp) (p : Phase) (k : Nat) : Mod :=
  m.collSend g (m.ringNext g p false) (m.collChunk g 2 p.axis p.gath o.ticket k 0 0 (m.grpSelf g) [])
/-- The elements that a chunk carries, from its first. -/
def chunkElems (code : Nat) (d : List Byte) (k : Nat) : List Nat := (upto k).map fun i => elemOf code (d.drop 0x30) i

/-! ## Completion and tears (R483, R503) -/

/-- Write STATUS and DROPPED, fire NOTCH, advance the head (R483); the tokens left over are discarded (R497). -/
def Mod.collFinish (m : Mod) (g status : Nat) (entry : List Byte) (dropped : Nat) : Mod :=
  let m1 := m.ncWrite (m.qAddr g 0 + 0x38) (toLe 4 status ++ toLe 4 dropped)
  let m2 := m1.fire (m.grpPart g) (bitsN (descW entry 4 4) 31 16) (.group g)
  let m3 := (m2.wrf (bQ g + 0x08) 31 0 (m2.qHead g + 1)).wrf (bQ g + 0x18) 0 0 0
  m3.updGrp g fun k => { k with run := none, tokens := [] }
/-- What a torn operation may have touched is undefined (R505): its destination, and the record of an all-to-all. Its adds that no unit has taken stop
with it (R503). One that was rejected has moved no byte. -/
def Mod.tornDst (m : Mod) (g : Nat) (o : CollOp) : Mod :=
  let n := m.grpN g
  let k := (o.sizes n (m.grpSelf g)).2
  let a := o.w 0x10 8
  let m0 : Mod := { m with spl := { m.spl with adds := m.spl.adds.filter fun a => a.core != 1000 + g } }
  let m1 := if o.op = 6 then m0
    else if o.dbolt then
      let r := m0.freeBytes k
      r.2.updCore (bitsN (o.w 4 4) 7 0) fun q => q.boltWrite a r.1
    else m0.scramble a k
  if o.op = 5 then m1.scramble (o.w 0x28 8) (recBytes n o.arg) else m1
/-- The first tear is recorded, TORN set and the queue halted (R503). -/
def Mod.recordTear (m : Mod) (g seq reason origin : Nat) (halt : Bool) : Mod :=
  let m1 := if m.rd (bQ g + 0x20) = 0 then m.wr (bQ g + 0x20) (w64 (reason * 2 ^ 56 + seq % 2 ^ 24 * 2 ^ 32 + origin)) else m
  let m2 := m1.cmqFlag g 2 1
  if halt then m2.raise (bQ g + 0x18) 1 else m2
/-- This member tears its running operation: a TEAR goes to the flat-ring successor, and the operation completes (R503). -/
def Mod.collTear (m : Mod) (g reason status : Nat) : Mod :=
  match (m.grp g).run with
  | none => m
  | some o =>
    let self := m.grpSelf g
    let m1 := m.collSend g ((self + 1) % m.grpN g) (m.collChunk g 3 7 false o.ticket reason 0 0 self [])
    let m2 := if reason = 0x02 then m1 else m1.tornDst g o
    (m2.recordTear g o.seq reason self true).collFinish g status o.entry o.dropped

/-! ## Running (R485 to R492, R496, R501) -/

/-- The operation has nothing left to do: with ACCUM its elements go to the adders, one 64-byte unit to an add (R492). -/
def Mod.collDone (m : Mod) (g : Nat) (o : CollOp) : Mod :=
  let m1 := m.updOp g fun q => { q with done := true }
  if !o.accum then m1
  else
    let span := o.dstSpan (m.grpN g) (m.grpSelf g)
    let per := 64 / o.eb
    let ty := match o.ty with | 8 => 2 | 9 => 3 | 0 => 4 | _ => 0
    let q := match (m1.grp g).run with | some q => q | none => o
    let reqs : List AddReq := (upto (cdiv span.2 per)).map fun u =>
      { core := 1000 + g, pa := o.w 0x10 8 + 64 * u, ty := ty, data := packElems o.ty ((upto per).map fun i => Tab.get 0 q.vals (span.1 + per * u + i)) }
    { m1 with spl := { m1.spl with adds := m1.spl.adds ++ reqs } }
/-- Convert own partials of a range to final elements and write them; overflows count (R491). -/
def Mod.collFinal (m : Mod) (g : Nat) (o : CollOp) (a : Nat) (vs : List Nat) : Mod :=
  let fs := vs.map o.final
  (m.grpCnt 3 (fs.filter (·.2)).length).putFinal g o a (fs.map (·.1))
/-- Enter a phase: own chunks are listed. -/
def Mod.enterPhase (m : Mod) (g : Nat) (o : CollOp) (ph : List Phase) (i : Nat) : Mod :=
  let n := m.grpN g
  match ph[i]? with
  | none => m.collDone g o
  | some p =>
    let j := if p.gath then p.k else (p.k + p.b - 1) % p.b
    let sp := o.partSpan n p j
    m.updOp g fun q => { q with phase := i, own := cutChunks (o.wayBytes p) sp.1 sp.2, got := 0 }
/-- When the entry is taken, the predecessor on each ring gets its tokens (R496). -/
def Mod.grantTokens (m : Mod) (g : Nat) (o : CollOp) (ps : List Phase) : Mod :=
  ps.foldl (fun (m : Mod) p => (m.updOp g fun q => { q with granted := p.axis :: q.granted }).sendTokens g o p (m.grpWin g)) m
/-- `a` is `b` or comes after it among 2²⁴ SEQs. -/
def seqFrom (a b : Nat) : Bool := decide (0 ≤ sNat 24 ((a + 2 ^ 24 - b % 2 ^ 24) % 2 ^ 24))
/-- Before the first gather phase, or at the end of a reduce-scatter, the own part is final: it is written (R483, R491). -/
def Mod.afterScatter (m : Mod) (g : Nat) (o : CollOp) : Mod :=
  let n := m.grpN g
  let self := m.grpSelf g
  let a := o.segAt n self
  let k := o.segAt n (self + 1) - a
  let r := m.ownElems g o a k
  r.2.collFinal g o a r.1
/-- One step of a ring operation: none where nothing can move. -/
def Mod.ringStep (m : Mod) (g : Nat) (o : CollOp) : Option Mod :=
  let n := m.grpN g
  let ph := m.phases g o.op
  match ph[o.phase]? with
  | none => none
  | some p =>
    let k := m.grp g
    let tok := Tab.get 0 k.tokens p.axis
    let code := if p.gath then o.ty else o.pty
    let spend (m : Mod) : Mod := (m.updGrp g fun k => { k with tokens := Tab.put k.tokens p.axis (tok - 1) }).collProgress g
    let send (m : Mod) (a : Nat) (vs : List Nat) : Mod :=
      (spend m).collSend g (m.ringNext g p true) (m.collChunk g 1 p.axis p.gath o.ticket a 0 0 (m.grpSelf g) (packElems code vs))
    match o.own with
    | (a, c) :: rest =>
      if tok = 0 then none
      else
        let r := m.ownElems g o a c
        some (send (r.2.updOp g fun q => { q with own := rest }) a r.1)
    | [] =>
      if o.got = o.expect n p then
        let next := o.phase + 1
        let m1 := if !p.gath && (match ph[next]? with | some q => q.gath | none => true) then m.afterScatter g o else m
        let o1 := match (m1.grp g).run with | some q => q | none => o
        some (m1.enterPhase g o1 ph next)
      else
        match o.held.find? fun d => ccf d 0 27 25 == p.axis && ccf d 0 24 24 == b2n p.gath with
        | none => none
        | some d =>
          let a := ccf d 0x18 31 0
          match o.partOf n p a with
          | none => some (m.updOp g fun q => { q with held := q.held.erase d })
          | some j =>
            let c := min (8 * ccf d 0 11 0 / (codeBits code / 8)) ((o.partSpan n p j).2 - a)
            let onward := if p.gath then j != (p.k + 1) % p.b else j != p.k
            if onward ∧ tok = 0 then none
            else
              let vs := chunkElems code d c
              let m1 := (m.updOp g fun q => { q with held := q.held.erase d, got := q.got + c }).collProgress g
              let m2 := m1.sendTokens g o p 1
              if p.gath then
                let m3 := m2.putFinal g o a vs
                some (if onward then send m3 a vs else m3)
              else
                let r := m2.ownElems g o a c
                let ws := List.zipWith (fun x y => collComb o.pty o.rop x y) vs r.1
                if onward then some (send r.2 a ws)
                else some (r.2.updOp g fun q => { q with vals := ws.zipIdx.foldl (fun t x => Tab.put t (a + x.2) x.1) q.vals })
/-- An END of the running operation. -/
def Mod.sendEnd (m : Mod) (g : Nat) (o : CollOp) : Mod :=
  (m.collSend g ((m.grpSelf g + 1) % m.grpN g) (m.collChunk g 4 7 false o.ticket 0 0 0 (m.grpSelf g) [])).updOp g fun q =>
    { q with ends := q.ends + 1, armed := true }
/-- The chain of a broadcast, as a phase of the flat ring. -/
def Mod.chain (m : Mod) (g : Nat) : Phase := { gath := true, b := m.grpN g, k := m.grpSelf g }
/-- One step of a broadcast (R489). -/
def Mod.bcastStep (m : Mod) (g : Nat) (o : CollOp) : Option Mod :=
  let n := m.grpN g
  let self := m.grpSelf g
  let root := o.arg
  let p := m.chain g
  let tok := Tab.get 0 (m.grp g).tokens 7
  let send (m : Mod) (a : Nat) (vs : List Nat) : Mod :=
    ((m.updGrp g fun k => { k with tokens := Tab.put k.tokens 7 (tok - 1) }).collProgress g).collSend g ((self + 1) % n)
      (m.collChunk g 1 7 true o.ticket a 0 0 self (packElems o.ty vs))
  let isLast := decide ((self + 1) % n = root)
  match o.own with
  | (a, c) :: rest =>
    if tok = 0 ∧ n ≠ 1 then none
    else
      let r := m.ownElems g o a c
      let m1 := (r.2.updOp g fun q => { q with own := rest, got := q.got + c }).putFinal g o a r.1
      some (if n = 1 then m1 else send m1 a r.1)
  | [] =>
    if o.got = o.count then
      if o.ends = 0 ∧ isLast ∧ n ≠ 1 then some (m.sendEnd g o)
      else if n = 1 ∨ o.ends ≠ 0 then some (m.collDone g o)
      else none
    else match o.held with
      | [] => none
      | d :: rest =>
        if !isLast ∧ tok = 0 then none
        else
          let a := ccf d 0x18 31 0
          let c := min (8 * ccf d 0 11 0 / o.eb) (o.count - a)
          let vs := chunkElems o.ty d c
          let m1 := ((m.updOp g fun q => { q with held := rest, got := q.got + c }).collProgress g).sendTokens g o p 1
          let m2 := m1.putFinal g o a vs
          some (if isLast then m2 else send m2 a vs)
/-- Rows of an all-to-all that go to member `j`, ascending (R499). -/
def Mod.rowsTo (m : Mod) (o : CollOp) (j : Nat) : List Nat := (upto (o.w 0x30 4)).filter fun q => m.rdLe (o.w 0x20 8 + 4 * q) 4 == j
/-- A bit of the grant map (R501). -/
def Mod.grantBit (m : Mod) (g j : Nat) : Bool :=
  ((Memory.byte m.mem (m.rdf (bG g + 0x18) 45 12 * 2 ^ 12 + j / 8)).toNat).testBit (j % 8)
/-- Write a bit of the grant map. -/
def Mod.setGrant (m : Mod) (g j : Nat) (b : Bool) : Mod :=
  let a := m.rdf (bG g + 0x18) 45 12 * 2 ^ 12 + j / 8
  m.ncWrite a [setBit (Memory.byte m.mem a) (j % 8) b]
/-- A DATA chunk of an all-to-all: a row, or a part of one, goes to its slot (R500). -/
def Mod.a2aData (m : Mod) (g : Nat) (o : CollOp) (d : List Byte) : Mod :=
  let s := ccf d 0x1C 17 0
  let k := Tab.get 0 o.rowsFrom s
  let len := min (8 * ccf d 0 11 0) (o.rowLen - ccf d 0x18 31 0 * o.eb)
  let fits := decide (s < m.grpN g) && decide (k < o.arg) && decide (ccf d 0 11 0 ≠ 0)
  let slot := s * o.arg + k
  let m1 := if fits then m.collWrite o (slot * o.rowLen + ccf d 0x18 31 0 * o.eb) ((d.drop 0x30).take len) else m
  let full := fits && decide (o.rowLen ≤ ccf d 0x18 31 0 * o.eb + len)
  m1.updOp g fun q =>
    { q with armed := true
             rowsFrom := if full then Tab.put q.rowsFrom s (k + 1) else q.rowsFrom
             filled := if full then Tab.put q.filled slot (ccf d 0x20 31 0) else q.filled
             lastFrom := if ccf d 0x1C 31 31 = 1 ∧ !q.lastFrom.contains s then s :: q.lastFrom else q.lastFrom }
/-- One step of an all-to-all: the next destination's rows once it has granted; the slots once every source is done
(R498 to R501). -/
def Mod.a2aSend (m : Mod) (g : Nat) (o : CollOp) : Option Mod :=
  let n := m.grpN g
  let self := m.grpSelf g
  let recA := o.w 0x28 8
  if o.dest < n then
    let j := (self + 1 + o.dest) % n
    if !m.grantBit g j then none
    else
      let rows := m.rowsTo o j
      let sent := rows.take o.arg
      let drops := rows.length - sent.length
      let chunks : List (Nat × Nat × Nat) := sent.flatMap fun q => (cutChunks o.eb 0 o.count).map fun c => (q, c.1, c.2)
      let m1 := (m.setGrant g j false).ncWrite (recA + 4 * (n * o.arg) + maskBytes n o.arg + 4 * j) (toLe 4 drops)
      let m2 := (m1.grpCnt 5 drops).updOp g fun q => { q with dest := q.dest + 1, dropped := q.dropped + drops }
      let m3 := if chunks.isEmpty then m2.collSend g j (m2.collChunk g 1 7 false o.ticket 0 1 0 self [])
        else chunks.zipIdx.foldl (fun (m : Mod) x =>
          let r := m.collRead o (x.1.1 * o.rowLen + x.1.2.1 * o.eb) (x.1.2.2 * o.eb)
          r.2.collSend g j (r.2.collChunk g 1 7 false o.ticket x.1.2.1 (b2n (x.2 + 1 == chunks.length)) x.1.1 self r.1)) m2
      some (m3.collProgress g)
  else if o.lastFrom.length = n then
    let slots := upto (n * o.arg)
    let m1 := slots.foldl (fun (m : Mod) s => match Tab.get? o.filled s with
      | some _ => m
      | none => m.collWrite o (s * o.rowLen) (List.replicate o.rowLen 0#8)) m
    let m2 := m1.ncWrite recA (slots.flatMap fun s => toLe 4 (Tab.get 0xFFFFFFFF o.filled s))
    let mask := (slots.map fun s => if (Tab.get? o.filled s).isSome then 2 ^ s else 0).sum
    some ((m2.ncWrite (recA + 4 * (n * o.arg)) (toLe (maskBytes n o.arg) mask)).collDone g o)
  else none
/-- One step of an all-to-all: a chunk that has come, or the next rows out. -/
def Mod.a2aStep (m : Mod) (g : Nat) (o : CollOp) : Option Mod :=
  match o.held with
  | d :: rest => some ((m.updOp g fun q => { q with held := rest }).a2aData g { o with held := rest } d)
  | [] => m.a2aSend g o
/-- CHECK of a chunk is verified before any byte is used (R494). -/
def Mod.collVerified (m : Mod) (g : Nat) (d : List Byte) (f : Mod → Mod) : Mod :=
  if ccf d 0x24 31 0 ≠ ccCheck d then (m.grpCnt 3 1).collTear g 0x03 0x17 else f m
/-- CHECK, and TICKET against that of the running operation (R494, R502). -/
def Mod.collChecked (m : Mod) (g : Nat) (o : CollOp) (d : List Byte) (f : Mod → Mod) : Mod :=
  m.collVerified g d fun m =>
  if (d.drop 8).take 16 ≠ o.ticket then m.collTear g 0x01 0x01
  else f m
/-- The END chunk that came first is consumed (R489, R502): it passes this member of a broadcast, or stops at ROOT − 2. One of a later entry waits
for it. -/
def Mod.endStep (m : Mod) (g : Nat) (o : CollOp) : Option Mod :=
  match (m.grp g).ends with
  | [] => none
  | d :: rest =>
    if ccf d 8 23 0 ≠ o.seq ∧ seqFrom (ccf d 8 23 0) o.seq then none
    else some ((m.updGrp g fun k => { k with ends := rest }).collChecked g o d fun m =>
      let m1 := m.collProgress g
      if (m.grpSelf g + 2) % m.grpN g = o.arg then m1.updOp g fun q => { q with ends := q.ends + 1 } else m1.sendEnd g o)
/-- One step of a barrier (R490): none where it waits. -/
def Mod.barrierStep (m : Mod) (g : Nat) (o : CollOp) : Option Mod :=
  let k := m.grp g
  if m.grpN g = 1 then some (m.collDone g o)
  else if m.grpSelf g = 0 ∧ o.ends = 0 then some (m.sendEnd g o)
  else match k.ends with
    | [] => none
    | d :: rest =>
      some (((m.updGrp g fun k => { k with ends := rest }).collProgress g).collChecked g o d fun m =>
        if m.grpSelf g = 0 ∧ o.ends = 2 then m.collDone g o
        else
          let m1 := m.sendEnd g o
          if m.grpSelf g ≠ 0 ∧ o.ends = 1 then m1.collDone g o else m1)
/-- Move the running operation on as far as it goes; a stopped partition holds it (R507). -/
def Mod.collPump (m : Mod) (g : Nat) : Nat → Mod
  | 0 => m
  | fuel + 1 =>
    match (m.grp g).run with
    | none => m
    | some o =>
      if o.done ∨ (m.part (m.grpPart g)).st ≠ .running then m
      else
        let r := match o.op with
          | 4 => (m.endStep g o).or (m.bcastStep g o)
          | 5 => (m.endStep g o).or (m.a2aStep g o)
          | 6 => m.barrierStep g o
          | _ => (m.endStep g o).or (m.ringStep g o)
        match r with
        | some m1 => m1.collPump g fuel
        | none => m
/-- Steps that an operation may take at one event: more than the chunks it can hold and send. -/
def CollOp.fuel (o : CollOp) : Nat := o.count + o.w 0x30 4 + 2 ^ 19
/-- The running operation moves on. -/
def Mod.collRun (m : Mod) (g : Nat) : Mod :=
  match (m.grp g).run with
  | some o => m.collPump g o.fuel
  | none => m

/-! ## Taking an entry (R480, R482, R501, R509) -/

/-- A running operation of any group may be joined by another (R509). -/
def Mod.collRoom (m : Mod) (g : Nat) : Bool :=
  let rs := m.coll.filter fun p => p.2.run.isSome
  decide (rs.length < 64) && decide (((rs.map fun p => m.grpWin p.1).sum + m.grpWin g) * 4096 ≤ 16 * 2 ^ 20)
/-- The queue may take its next entry, contexts apart. -/
def Mod.collReady (m : Mod) (g : Nat) : Bool :=
  m.grpValid g && !m.qHalted g && !m.heldBack (.group g) && (m.grp g).run.isNone && decide (0 < m.qDepth g) && (m.part (m.grpPart g)).st == .running
/-- The entry at the head. -/
def Mod.headEntry (m : Mod) (g : Nat) : List Byte := (m.ncRead (m.qAddr g 0) 64).1
/-- The engine takes the entry at the head: it is checked, and it starts (R480, R482). -/
def Mod.collTake (m : Mod) (g : Nat) : Mod :=
  if !m.collReady g then m
  else if !m.collRoom g then m.updGrp g fun k => { k with waits := true }
  else
    let r := m.ncRead (m.qAddr g 0) 64
    let o : CollOp := { entry := r.1, seq := m.curSeq g }
    let m1 := ((r.2.wrf (bQ g + 0x18) 39 16 (o.seq + 1)).raise (bQ g + 0x18) 0).updGrp g fun k =>
      { k with run := some o, waits := false
               tokens := (k.early.filter fun e => e.1 == o.seq).foldl (fun t e => Tab.upd 0 t e.2.1 (· + e.2.2)) k.tokens
               early := k.early.filter fun e => e.1 != o.seq }
    if (m.grp g).tornSeq = some o.seq then
      ((m1.collFinish g 0x01 o.entry 0).raise (bQ g + 0x18) 1).updGrp g fun k => { k with tornSeq := none }
    else match m1.collFail g o with
      | some st => m1.collTear g 0x02 st
      | none =>
        let n := m.grpN g
        let self := m.grpSelf g
        let m2 := match o.op with
          | 4 =>
            if self = o.arg then m1.updOp g fun q => { q with own := cutChunks o.eb 0 o.count }
            else m1.grantTokens g o [m1.chain g]
          | 5 => (upto n).foldl (fun m j => m.collSend g j (m.collChunk g 2 7 false o.ticket 0 0 0 self [])) m1
          | 6 => m1
          | _ =>
            let m1 := m1.grantTokens g o (m1.rings g)
            let m2 := if n = 1 ∨ o.op = 3 then m1.afterScatter g o else m1
            m2.enterPhase g (match (m2.grp g).run with | some q => q | none => o) (m2.phases g o.op) 0
        m2.collRun g
/-- An END chunk (R489, R490, R502): the running operation consumes it, or it waits for its entry. -/
def Mod.endIn (m : Mod) (g : Nat) (d : List Byte) : Mod := (m.updGrp g fun k => { k with ends := k.ends ++ [d] }).collRun g
/-- The engine takes an entry of one operation. -/
def Mod.collTakeOp (m : Mod) (g op : Nat) : Mod :=
  if m.collReady g ∧ bitsN (descW (m.headEntry g) 0 4) 31 28 = op then m.collTake g else m
/-- ALLREDUCE; the home of reserved codes of OP (log 11). -/
def Mod.takeAllreduce (m : Mod) (g : GroupId) : Mod :=
  let op := bitsN (descW (m.headEntry g.val) 0 4) 31 28
  if op = 0 ∨ 6 < op then m.collTakeOp g.val op else m.collTakeOp g.val 1
/-- A group that waited for a context obtains one (R509). -/
def Mod.collContext (m : Mod) (g : GroupId) : Mod := if (m.grp g.val).waits ∧ m.collRoom g.val then m.collTake g.val else m

/-! ## Chunks arriving (R494 to R496, R501 to R503) -/

/-- The chunk's entry is valid and its GKEY is the entry's, else it is dropped and counted (R495). -/
def Mod.collKnown (m : Mod) (d : List Byte) : Bool :=
  let g := ccf d 0 23 12
  m.grpValid g && ccf d 4 31 0 == m.rdf (bG g + 0x28) 31 0
/-- A chunk keeps its format (R463, R493): a KIND and an AXIS of the table, its payload as long as LEN says, and zero in what is reserved. -/
def ccSound (d : List Byte) : Bool :=
  let kind := ccf d 0 31 28
  decide (1 ≤ kind) && decide (kind ≤ 4) && ccf d 0 27 25 != 6 && decide (ccf d 0 11 0 ≤ 512) && d.length == 48 + 8 * ccf d 0 11 0 &&
  ccf d 0x1C 30 18 == 0 && ofLe ((d.drop 0x28).take 8) == 0
/-- Take a chunk of vc2 that has arrived, of one kind; one that breaks its format is dropped (R463). -/
def Mod.collArrive (m : Mod) (d : List Byte) (f : Nat → Mod → Mod) : Mod :=
  let x := m.takeMsg 2 d
  let m1 := match x.1 with | some y => x.2.freeMsg y | none => x.2
  if !ccSound d then m1.formatDrop x.1
  else if !m1.collKnown d then m1.grpCnt 4 1 else f (ccf d 0 23 12) m1
/-- A collective DATA chunk arrives (R494, R502); the home of reserved KINDs (R463, log 11). -/
def Mod.collData (m : Mod) (d : List Byte) : Mod :=
  m.collArrive d fun g m =>
    match (m.grp g).run with
    | none => m
    | some o =>
      if ccf d 0 31 28 ≠ 1 then m
      else m.collChecked g o d fun m =>
        (m.updOp g fun q => { q with held := q.held ++ [d] }).collRun g
/-- A TOKEN chunk (R496, R501): tokens held for sending, kept for an entry that is not yet taken, or left over from one that has completed (R497); or an
all-to-all grant. -/
def Mod.collToken (m : Mod) (d : List Byte) : Mod :=
  if ccf d 0 31 28 ≠ 2 then m
  else m.collArrive d fun g m => m.collVerified g d fun m =>
    let k := ccf d 0x18 31 0
    let seq := ccf d 8 23 0
    let early := match (m.grp g).run with
      | some o => seq != o.seq
      | none => true
    let m1 := if k = 0 then (if ccf d 0x1C 17 0 < m.grpN g then m.setGrant g (ccf d 0x1C 17 0) true else m)
      else if !early then m.updGrp g fun q => { q with tokens := Tab.upd 0 q.tokens (ccf d 0 27 25) (· + k) }
      else if seqFrom seq (m.curSeq g) then m.updGrp g fun q => { q with early := q.early ++ [(seq, ccf d 0 27 25, k)] }
      else m
    (m1.collProgress g).collRun g
/-- A TEAR chunk (R503). -/
def Mod.collTearChunk (m : Mod) (d : List Byte) : Mod :=
  if ccf d 0 31 28 ≠ 3 then m
  else m.collArrive d fun g m => m.collVerified g d fun m =>
    let self := m.grpSelf g
    let org := ccf d 0x1C 17 0
    let s := ccf d 8 23 0
    if org = self then m
    else
      let m1 := (m.collSend g ((self + 1) % m.grpN g) d).grpCnt 2 1
      let reason := ccf d 0x18 7 0
      match (m1.grp g).run with
      | some o =>
        if sNat 24 (o.seq + 2 ^ 24 - s) ≥ 0 then ((m1.tornDst g o).recordTear g s reason org true).collFinish g 0x01 o.entry o.dropped
        else (m1.recordTear g s reason org false).updGrp g fun k => { k with tornSeq := some s }
      | none =>
        if sNat 24 (m1.curSeq g + 2 ^ 24 - s) > 0 then m1.recordTear g s reason org true
        else (m1.recordTear g s reason org false).updGrp g fun k => { k with tornSeq := some s }
/-- An END chunk (R489, R490). -/
def Mod.collEnd (m : Mod) (d : List Byte) : Mod :=
  if ccf d 0 31 28 ≠ 4 then m else m.collArrive d fun g m => m.endIn g d

/-! ## Posts, completion, watchdog, reset (R479, R483, R506, R508) -/

/-- Add `k` entries to the tail, or ignore the post (R479). -/
def Mod.collPost (m : Mod) (g k : Nat) : Mod :=
  if 256 < m.qDepth g + k then m.cmqFlag g 4 7 else m.wrf (bQ g + 0x08) 63 32 (m.qTail g + k)
/-- A host's post. -/
def Mod.cmqGpost (m : Mod) (h : HostId) (g : GroupId) (v : W64) : Mod :=
  let p := m.part (m.grpPart g.val)
  if m.grpValid g.val ∧ p.st ≠ .free ∧ p.owner = h.val then m.collPost g.val (fld v 8 0) else m.grpCnt 7 1
/-- A piece's post, once the core's earlier stores are visible. -/
def Mod.corCmqpost (m : Mod) (c : Nat) (v : W64) : Mod :=
  let g := fld v 11 0
  if m.grpValid g ∧ m.partOf c = some (m.grpPart g) then m.collPost g (fld v 24 16) else m.grpCnt 7 1
/-- The running operation completes at this member: every byte it writes is visible (R483). -/
def Mod.collComplete (m : Mod) (g : GroupId) : Mod :=
  match (m.grp g.val).run with
  | some o =>
    if o.done ∧ !(m.spl.adds.any fun a => a.core == 1000 + g.val) then (m.collFinish g.val 0x00 o.entry o.dropped).grpCnt 0 1
    else m.collRun g.val
  | none => m
/-- The stall watchdog expires (R508), counted on the link reference clock (R74). -/
def Mod.collStall (m : Mod) (g : GroupId) : Mod :=
  match (m.grp g.val).run with
  | some o => if m.lnk.clock ∧ o.armed ∧ m.rdf (bG g.val) 31 16 ≠ 0 then (m.cmqFlag g.val 3 6).updOp g.val fun q => { q with armed := false } else m
  | none => m
/-- Flush the untaken entries (R506). -/
def Mod.collFlush (m : Mod) (g : Nat) : Nat → Mod
  | 0 => m
  | k + 1 => if m.qDepth g = 0 then m else (m.collFinish g 0x02 (m.headEntry g) 0).collFlush g k
/-- A write of CMQ_gCTL (R506): SEQ, and RESET where it is one. -/
def Mod.cmqReset (m : Mod) (g : GroupId) (v : W64) : Mod :=
  let m0 := m.wrf (bQ g.val + 0x10) 23 0 (fld v 23 0)
  if bit v 63 then
    let m1 := m0.collTear g.val 0x04 0x01
    let m2 := m1.collFlush g.val 256
    let m3 := ((m2.wrf (bQ g.val + 0x18) 39 16 (fld v 23 0)).wrf (bQ g.val + 0x18) 1 1 0).wr (bQ g.val + 0x20) 0
    m3.updGrp g.val fun k => { k with tornSeq := none, early := [], ends := [], waits := false }
  else m0

end Sys2Proof.Machine
end

