-- ==== Sys2Proof/Machine/Vector.lean ====
section
/-! DEFINITION. The long-vector unit (07): issue checks, stations, starts and ends of vector instructions, and MUPD (R144 to R149).
Each instruction is given by its field [25:0]. -/

namespace Sys2Proof.Machine

/-- The instruction word of a major and its field [25:0] (R212). -/
def wordOf (major : Nat) (f : BitVec 26) : W32 := BitVec.ofNat 32 (major * 2 ^ 26 + f.toNat)
/-- FUNC or SUB of a vector instruction, 0 where it has none. -/
def vecSub (w : W32) : Nat :=
  match fld w 31 26 with
  | 0x20 => fld w 4 0 | 0x23 => fld w 4 0 | 0x29 => fld w 4 0 | 0x26 => fld w 16 14 | _ => 0
/-- The vector issue exception (R210): VEC_ERR. -/
def vecStop (cause : Nat) (w : W32) : Stop := .trap 4 [(0x2010, w64 (vecSub w * 2 ^ 16 + fld w 31 26 * 2 ^ 8 + cause))]
/-- Stack entries that a vector instruction pops (R206, R209, R144). -/
def vecPops (w : W32) : Nat :=
  match fld w 31 26 with
  | 0x20 => (match fld w 4 0 with | 0 => 1 | 2 => 1 | 3 => 2 | 4 => 1 | 7 => 1 | 8 => 1 | _ => 0)
  | 0x21 => 1
  | 0x22 => 1
  | 0x29 => (match fld w 4 0 with | 1 => 1 | 2 => 1 | 3 => 1 | _ => 0)
  | 0x36 => 2
  | _ => 0
/-- Elements per register of the types a vector instruction uses, the least of them (R185, R205). -/
def vecCap (w : W32) : Nat :=
  match fld w 31 26 with
  | 0x20 => if 2 ≤ fld w 4 0 ∧ fld w 4 0 ≤ 4 then tyCap (fld w 17 15) else 2048
  | 0x21 => 2048 / 2 ^ fld w 17 16
  | 0x22 => 2048 / 2 ^ fld w 17 16
  | 0x23 => tyCap (fld w 7 5)
  | 0x24 => tyCap (fld w 2 1)
  | 0x25 => tyCap (fld w 9 7)
  | 0x27 => tyCap (fld w 12 10)
  | 0x28 => min 2048 (2048 * 8 / max (codeBits (fld w 12 9)) (codeBits (fld w 8 5)))
  | 0x29 => tyCap (fld w 12 10)
  | _ => 2048
/-- The function, its relation or its code is reserved, or a reserved or unused field is not zero (R206 to R209, R213). -/
def vecBadFunc (w : W32) : Bool :=
  match fld w 31 26 with
  | 0x20 =>
    let vr := fld w 25 21
    let mm := fld w 20 18
    let ty := fld w 17 15
    fld w 14 5 != 0 ||
    (match fld w 4 0 with
     | 0 => vr != 0 || mm != 0 || ty != 0
     | 1 => vr != 0 || mm != 0 || ty != 0
     | 2 => false
     | 3 => mm != 0
     | 4 => mm != 0
     | 5 => vr != 0 || ty != 0
     | 6 => vr != 0 || ty != 0
     | 7 => vr != 0 || ty != 0
     | 8 => vr != 0 || ty != 0
     | _ => true)
  | 0x21 => fld w 10 0 != 0
  | 0x22 => fld w 10 0 != 0
  | 0x23 => !arithDefined (fld w 4 0) || (([4, 7, 8, 9, 10].contains (fld w 4 0)) && fld w 15 11 != 0)
  | 0x25 => decide (4 < fld w 6 4) || fld w 3 0 != 0
  | 0x26 =>
    fld w 13 0 != 0 ||
    (match fld w 16 14 with
     | 4 => fld w 19 17 != 0
     | 5 => fld w 22 20 != 0 || fld w 19 17 != 0
     | 6 => fld w 22 20 != 0 || fld w 19 17 != 0
     | 7 => true
     | _ => false)
  | 0x27 => fld w 9 8 == 3 || fld w 7 0 != 0
  | 0x28 => fld w 4 0 != 0
  | 0x29 => decide (4 < fld w 4 0) || fld w 9 5 != 0
  | 0x36 => fld w 1 0 != 0
  | _ => false
/-- A conversion code that R205 reserves. -/
def badCvtCode (c : Nat) : Bool := c == 7 || decide (0xD ≤ c)
/-- The causes of R210 and R145 that the word and VL decide, in ascending order. -/
def vecWordFail (w : W32) (vl : Nat) : Option Nat :=
  let mj := fld w 31 26
  let fmt := fld w 7 4
  let sc := fld w 3 2
  let causes : List (Bool × Nat) :=
    [(mj == 0x23 && arithDefined (fld w 4 0) && !arithLegal (fld w 4 0) (fld w 7 5), 1),
     (mj != 0x36 && !(mj == 0x28 && (badCvtCode (fld w 12 9) || badCvtCode (fld w 8 5))) && decide (vecCap w < vl), 2),
     (vecBadFunc w, 3),
     (mj == 0x36 && (decide (6 < fmt) || sc == 3 || (sc != 0 && decide (fmt < 2))), 7),
     (mj == 0x36 && (vl == 0 || decide (512 < vl) || ((sc == 1 || sc == 2) && vl % blockOf sc != 0)), 8),
     (mj == 0x28 && (badCvtCode (fld w 12 9) || badCvtCode (fld w 8 5)), 9),
     (mj == 0x22 && bit w 11, 0xA)]
  (causes.find? (·.1)).map (·.2)
/-- The causes that the popped operands decide: BRANGE, BADVL, ELEM. -/
def vecArgFail (w : W32) (vl : Nat) (args : List W64) : Option Nat :=
  let top := (args.headD 0).toNat
  match fld w 31 26 with
  | 0x20 =>
    (match fld w 4 0 with
     | 0 => if 2048 < top then some 5 else none
     | 3 => if tyCap (fld w 17 15) ≤ top then some 6 else none
     | 4 => if tyCap (fld w 17 15) ≤ top then some 6 else none
     | _ => none)
  | 0x21 => if bit w 15 ∧ (top % 16 ≠ 0 ∨ boltSize < top + vl * 2 ^ fld w 17 16) then some 4 else none
  | 0x22 => if bit w 15 ∧ (top % 16 ≠ 0 ∨ boltSize < top + vl * 2 ^ fld w 17 16) then some 4 else none
  | 0x29 => if fld w 4 0 = 1 ∧ tyCap (fld w 12 10) ≤ top then some 6 else none
  | _ => none
/-- The instruction acts on elements below VL only, so that VL = 0 leaves it nothing to do (R183). -/
def vecByVl (w : W32) : Bool := !(fld w 31 26 == 0x20 && fld w 4 0 != 2 && fld w 4 0 != 3) && fld w 31 26 != 0x36
/-- The NaN trap may follow the instruction (R139). -/
def vecMayTrap (w : W32) : Bool :=
  let mj := fld w 31 26
  (mj == 0x23 && decide (fld w 7 5 < 4)) || mj == 0x24 || (mj == 0x27 && decide (fld w 12 10 < 4)) || mj == 0x28 || mj == 0x36

/-! ## Memory of a vector instruction -/

/-- Runs of adjacent active elements, in bytes: place in the range and length. -/
def runsOf (n : Nat) (act : List Nat) : List (Nat × Nat) :=
  (act.foldl (fun rs i => match rs with
    | (o, l) :: t => if o + l = n * i then (o, l + n) :: t else (n * i, n) :: rs
    | [] => [(n * i, n)]) []).reverse
/-- Cut runs at the borders of the pieces of a translated range: the place and the place in the range of each cut. -/
def cutRuns (ps : List (Place × Nat)) (runs : List (Nat × Nat)) : List (Place × Nat × Nat × Nat) :=
  let starts := (ps.foldl (fun (acc : Nat × List (Nat × Place × Nat)) p => (acc.1 + p.2, acc.2 ++ [(acc.1, p.1, p.2)])) (0, [])).2
  runs.flatMap fun r => starts.filterMap fun p =>
    let lo := max r.1 p.1
    let hi := min (r.1 + r.2) (p.1 + p.2.2)
    if lo < hi then some (p.2.1, lo - p.1, lo, hi - lo) else none
/-- Cut a remote run at 128-byte lines: offset and length. -/
def remoteCuts : Nat → Nat → Nat → List (Nat × Nat)
  | 0, _, _ => []
  | k + 1, off, n =>
    if n = 0 then []
    else
      let l := min n (128 - off % 128)
      (off, l) :: remoteCuts k (off + l) (n - l)
/-- Read the active bytes of a load: local bytes now, remote ones by requests (R365, R425). Poison stops the read, or with `keep` is read as it
lies. -/
def Mod.vecRead (m : Mod) (c seq va : Nat) (keep : Bool) : List (Place × Nat × Nat × Nat) → Ex (Tab Byte × List (Nat × Nat) × Mod)
  | [] => .ok ([], [], m)
  | (.loc pa, o, lo, n) :: t => do
    let (bs, m1) ← match m.readNow c (pa + o) n with
      | .error (.trap v r) => if keep then .ok (m.rdMem (pa + o) n, m) else .error (.trap v r)
      | r => r
    let (d, w, m2) ← m1.vecRead c seq va keep t
    .ok ((upto n).map (fun i => (lo + i, bs.getD i 0)) ++ d, w, m2)
  | (.remote dev win off, o, lo, n) :: t => do
    let r := (remoteCuts 17 (off + o) n).foldl (fun (acc : List (Nat × Nat) × Mod) p =>
      let at' := lo + (p.1 - (off + o))
      let q := acc.2.remoteSend { unit := .vec seq at', core := c, part := (m.partOf c).getD 0, va := va + at', len := p.2 } 3 1 0 dev win p.1 []
      (acc.1 ++ [(q.1, at')], q.2)) ([], m)
    let (d, w, m2) ← r.2.vecRead c seq va keep t
    .ok (d, r.1 ++ w, m2)
  | (.ctl _, _, _, _) :: t => m.vecRead c seq va keep t
/-- Some local byte of two translated ranges is the same. -/
def placesMeet (a b : List (Place × Nat)) : Bool :=
  a.any fun p => b.any fun q =>
    match p.1, q.1 with
    | .loc x, .loc y => meet x p.2 y q.2
    | .remote d w x, .remote e v y => d == e && w == v && meet x p.2 y q.2
    | _, _ => false
/-- The checks and translations of a vector access at issue (R188 to R190): a memory range, with every page translated;
`glove` says that the instruction accepts a glove (R269). -/
def Mod.vecRange (m : Mod) (c ix : Nat) (store glove : Bool) (x n : Nat) : Ex (List (Place × Nat) × Mod) := do
  let cap := (m.core c).bank.cap ix
  capCheck cap ix 12 (if store then pWR else pRD) x n
  if cap.type = 2 ∧ !glove then .error (capStop 3 12 ix x n)
  else if cap.type = 1 then .error (xltStop 0x03 (if store then .write else .read) 0 0 x)
  else do
    let (ps, m1) ← m.places c cap (if store then .write else .read) x n
    if store then m.wtabCheck c cap ix 12 x n ps else .ok ()
    .ok (ps, m1)

/-! ## Issue -/

/-- The station loads from memory. -/
def Station.isLoad (s : Station) : Bool := s.isMem && !s.isStore && s.bolt.isNone
/-- Bytes per element that a load or store moves. -/
def Station.width (s : Station) : Nat := if fld s.word 31 26 = 0x20 then 1 else 2 ^ fld s.word 17 16
/-- Elements that a load or store moves: the active ones (R192), or the 256 bytes of a mask. -/
def Station.moved (s : Station) (masks : Tab Nat) : List Nat :=
  if fld s.word 31 26 = 0x20 then upto 256 else activeIx s.vl (fld s.word 20 18) masks
/-- A load in a station may read memory: its governing mask is written, and no earlier store to its bytes is unfinished (R186, R197). -/
def Core.mayRead (k : Core) (s : Station) : Bool :=
  !k.blocked s.seq s.foot false &&
  !(k.vec.stations.any fun t => t.isStore && !t.held && decide (t.seq < s.seq) && placesMeet t.ranges s.ranges)
/-- A load in a station reads its local bytes and sends its remote reads (R192, R255). -/
def Mod.readStation (m : Mod) (c : Nat) (s : Station) (keep : Bool) : Ex (Station × Mod) := do
  let (d, rw, m1) ← m.vecRead c s.seq s.va keep (cutRuns s.ranges (runsOf s.width (s.moved (m.core c).vec.masks)))
  .ok ({ s with asked := true, data := d, rwait := rw }, m1)
/-- What a load that waits in a station has read is dropped: it reads again later (R285, R199). -/
def Station.unread (s : Station) : Station := if s.isLoad && !s.started then { s with asked := false, data := [], rwait := [] } else s
/-- Put an instruction into a station (R195). -/
def Mod.intoStation (m : Mod) (c : Nat) (s : Station) : Mod :=
  m.updCore c fun k => { k with seq := k.seq + 1, vec := { k.vec with stations := k.vec.stations ++ [s] } }
/-- An instruction of the unit completes without a station: VEC_CNT0. -/
def Mod.vecCount (m : Mod) (c : Nat) : Mod := m.updCore c fun k => k.incCregBy 0x2040 1
/-- The body of every instruction that enters a station (R184, R195, R210, R255). A load reads memory as it enters where nothing earlier is in
its way, and else from its station. With VL = 0 it enters, starts and writes nothing (R183, R196). -/
def Mod.stationBody (m : Mod) (c : Nat) (w : W32) : Body := do
  let k0 := m.core c
  let vl := k0.bank.vl
  match vecWordFail w vl with
  | some cause => .error (vecStop cause w)
  | none => do
    let (args, m1) ← m.peek c (vecPops w)
    match vecArgFail w vl args with
    | some cause => .error (vecStop cause w)
    | none =>
      let k := m1.core c
      let mj := fld w 31 26
      let seq := k.seq
      let st : Station := { word := w, seq := seq, args := args, vl := vl, pc := k.bank.pc.toNat, gate := vecMayTrap w && bit (m1.useCreg c 0x2000) 0 }
      if 8 ≤ k.vec.stations.length then .error .hold
      else
        let mask := mj == 0x20
        let store := mj == 0x22 || (mask && fld w 4 0 == 8)
        let isMem := mj == 0x21 || mj == 0x22 || (mask && (fld w 4 0 == 7 || fld w 4 0 == 8))
        if !isMem ∨ (vl = 0 ∧ vecByVl w) then do
          let m2 ← m1.repl c (vecPops w) []
          .ok (m2.intoStation c st, .next, 1)
        else do
          let x := (args.headD 0).toNat
          let n := if mask then 256 else vl * 2 ^ fld w 17 16
          let ix := if mask then 1 else fld w 14 12
          if mj != 0x20 && bit w 15 then do
            capCheck (k.bank.cap ix) ix 12 ((if store then pWR else pRD) + pBOLT) x n
            let m2 ← m1.repl c 1 []
            .ok (m2.intoStation c { st with bolt := some x, vlen := n }, .next, 1)
          else do
            let (ps, m2) ← m1.vecRange c ix store (!mask) x n
            let st := { st with ranges := ps, va := x, vlen := n }
            if store then do
              let m3 ← m2.repl c 1 []
              .ok (m3.intoStation c st, .next, 1)
            else do
              let st := { st with undo := some (k0.bank, k0.poison) }
              let (st1, m3) ← if (m2.core c).mayRead st then (match m2.readStation c st false with
                  | .error .hold => .ok (st, m2)
                  | r => r)
                else .ok (st, m2)
              let m4 ← m3.repl c 1 []
              let m5 := match ps with | (.loc pa, _) :: _ => if mask then m4 else m4.stride c st.pc pa | _ => m4
              .ok (m5.intoStation c { st1 with undo := if st1.asked ∧ st1.rwait.isEmpty then none else st1.undo }, .next, 1)
/-- Issue an instruction that enters a station. -/
def Mod.issueVec (m : Mod) (c major : Nat) (f : BitVec 26) : Mod :=
  m.issue c major (vecSub (wordOf major f)) fun m => m.stationBody c (wordOf major f)
/-- A VSET instruction that completes at issue: its checks, its operands, then its effect (R195, R209). -/
def Mod.vsetBody (m : Mod) (c sub : Nat) (f : BitVec 26) (act : Mod → List W64 → Ex Mod) : Body := do
  let w := setFld (wordOf 0x20 f) 4 0 sub
  let vl := (m.core c).bank.vl
  match vecWordFail w vl with
  | some cause => .error (vecStop cause w)
  | none => do
    let (args, m1) ← m.peek c (vecPops w)
    match vecArgFail w vl args with
    | some cause => .error (vecStop cause w)
    | none => do
      let m2 ← act m1 args
      .ok (m2.vecCount c, .next, 1)

/-- VSETVL (R209). -/
def bodyVsetvl (c : Nat) (f : BitVec 26) (m : Mod) : Body :=
  m.vsetBody c 0 f fun m a => do
    let m1 ← m.repl c 1 []
    .ok (m1.updBank c fun b => { b with vl := (a.headD 0).toNat })
/-- The command of `bodyVsetvl`. -/
def rowVsetvl (c : CoreId) (f : BitVec 26) (m : Mod) : Mod := m.issue c.val 0x20 0 (bodyVsetvl c.val f)
/-- VGETVL. -/
def bodyVgetvl (c : Nat) (f : BitVec 26) (m : Mod) : Body :=
  m.vsetBody c 1 f fun m _ => m.push c (w64 (m.core c).bank.vl)
/-- The command of `bodyVgetvl`. -/
def rowVgetvl (c : CoreId) (f : BitVec 26) (m : Mod) : Mod := m.issue c.val 0x20 1 (bodyVgetvl c.val f)
/-- The field with its SUB or FUNC bits set: the command names the function. -/
def withSub (f : BitVec 26) (sub : Nat) : BitVec 26 := setFld f 4 0 sub
/-- VBCASTS. -/
def rowVbcasts (c : CoreId) (f : BitVec 26) (m : Mod) : Mod := m.issueVec c.val 0x20 (withSub f 2)
/-- VPUT. -/
def rowVput (c : CoreId) (f : BitVec 26) (m : Mod) : Mod := m.issueVec c.val 0x20 (withSub f 3)
/-- VGET: integers sign-extended, floating-point bits zero-extended. -/
def bodyVget (c : Nat) (f : BitVec 26) (m : Mod) : Body :=
  m.vsetBody c 4 f fun m a =>
    let k := m.core c
    let vr := fld f 25 21
    let t := fld f 17 15
    if k.blocked k.seq { reads := [fReg vr] } false then .error .hold
    else
      let v := vGet k.vec.regs vr (tyBytes t) (a.headD 0).toNat
      m.repl c 1 [if t < 4 then w64 v else w64i (sNat (8 * tyBytes t) v)]
/-- The command of `bodyVget`. -/
def rowVget (c : CoreId) (f : BitVec 26) (m : Mod) : Mod := m.issue c.val 0x20 4 (bodyVget c.val f)
/-- VMPOP. -/
def bodyVmpop (c : Nat) (f : BitVec 26) (m : Mod) : Body :=
  m.vsetBody c 5 f fun m _ =>
    let k := m.core c
    if k.blocked k.seq { reads := [fMask (fld f 20 18)] } false then .error .hold
    else m.push c (w64 (popN k.bank.vl (Tab.get 0 k.vec.masks (fld f 20 18))))
/-- The command of `bodyVmpop`. -/
def rowVmpop (c : CoreId) (f : BitVec 26) (m : Mod) : Mod := m.issue c.val 0x20 5 (bodyVmpop c.val f)
/-- VMFIRST. -/
def bodyVmfirst (c : Nat) (f : BitVec 26) (m : Mod) : Body :=
  m.vsetBody c 6 f fun m _ =>
    let k := m.core c
    if k.blocked k.seq { reads := [fMask (fld f 20 18)] } false then .error .hold
    else m.push c (w64 (lowBit k.bank.vl (Tab.get 0 k.vec.masks (fld f 20 18))))
/-- The command of `bodyVmfirst`. -/
def rowVmfirst (c : CoreId) (f : BitVec 26) (m : Mod) : Mod := m.issue c.val 0x20 6 (bodyVmfirst c.val f)
/-- VMLD. -/
def rowVmld (c : CoreId) (f : BitVec 26) (m : Mod) : Mod := m.issueVec c.val 0x20 (withSub f 7)
/-- VMST. -/
def rowVmst (c : CoreId) (f : BitVec 26) (m : Mod) : Mod := m.issueVec c.val 0x20 (withSub f 8)
/-- VLD (R187 to R193). -/
def rowVld (c : CoreId) (f : BitVec 26) (m : Mod) : Mod := m.issueVec c.val 0x21 f
/-- VST (R187 to R193). -/
def rowVst (c : CoreId) (f : BitVec 26) (m : Mod) : Mod := m.issueVec c.val 0x22 f
/-- VARITH (R207). -/
def rowVarith (c : CoreId) (f : BitVec 26) (m : Mod) : Mod := m.issueVec c.val 0x23 f
/-- VFMA (R206). -/
def rowVfma (c : CoreId) (f : BitVec 26) (m : Mod) : Mod := m.issueVec c.val 0x24 f
/-- VCMP (R206). -/
def rowVcmp (c : CoreId) (f : BitVec 26) (m : Mod) : Mod := m.issueVec c.val 0x25 f
/-- VMLOG (R208). -/
def rowVmlog (c : CoreId) (f : BitVec 26) (m : Mod) : Mod := m.issueVec c.val 0x26 f
/-- VRED (R202, R203). -/
def rowVred (c : CoreId) (f : BitVec 26) (m : Mod) : Mod := m.issueVec c.val 0x27 f
/-- VCVT (R204, R205). -/
def rowVcvt (c : CoreId) (f : BitVec 26) (m : Mod) : Mod := m.issueVec c.val 0x28 f
/-- VMOV (R209). -/
def rowVmov (c : CoreId) (f : BitVec 26) (m : Mod) : Mod := m.issueVec c.val 0x29 (withSub f 0)
/-- VBCAST. -/
def rowVbcast (c : CoreId) (f : BitVec 26) (m : Mod) : Mod := m.issueVec c.val 0x29 (withSub f 1)
/-- VSLIDEUP. -/
def rowVslideup (c : CoreId) (f : BitVec 26) (m : Mod) : Mod := m.issueVec c.val 0x29 (withSub f 2)
/-- VSLIDEDN. -/
def rowVslidedn (c : CoreId) (f : BitVec 26) (m : Mod) : Mod := m.issueVec c.val 0x29 (withSub f 3)
/-- VCOMPRESS. -/
def rowVcompress (c : CoreId) (f : BitVec 26) (m : Mod) : Mod := m.issueVec c.val 0x29 (withSub f 4)
/-- MUPD (R144 to R149). -/
def rowMupd (c : CoreId) (f : BitVec 26) (m : Mod) : Mod := m.issueVec c.val 0x36 f

/-! ## Starts and ends -/

/-- What a station writes: registers and masks, and the bytes a store writes, by place in its range. -/
def evalStation (regs : Tab Byte) (masks : Tab Nat) (data : Nat → Byte) (s : Station) : VRes × List (Nat × List Byte) :=
  let w := s.word
  let g (h l : Nat) := fld w h l
  let top := (s.args.headD 0).toNat
  match g 31 26 with
  | 0x20 =>
    let vr := g 25 21
    let t := g 17 15
    let n := tyBytes t
    match g 4 0 with
    | 2 => ({ writes := elemWrites vr n ((activeIx s.vl (g 20 18) masks).map fun i => (i, top % 2 ^ (8 * n))) }, [])
    | 3 => ({ writes := if top < s.vl then elemWrites vr n [(top, (s.args.getD 1 0).toNat % 2 ^ (8 * n))] else [] }, [])
    | 7 => ({ masks := [(g 20 18, ofLe ((upto 256).map data))] }, [])
    | _ => ({}, [(0, toLe 256 (Tab.get 0 masks (g 20 18)))])
  | 0x21 =>
    let n := 2 ^ g 17 16
    let act := activeIx s.vl (g 20 18) masks
    let es := (upto s.vl).filterMap fun i =>
      if act.contains i then some (2048 * g 25 21 + n * i, (upto n).map fun j => data (n * i + j))
      else if bit w 11 then some (2048 * g 25 21 + n * i, List.replicate n 0#8) else none
    ({ writes := es }, [])
  | 0x22 =>
    let n := 2 ^ g 17 16
    let act := activeIx s.vl (g 20 18) masks
    ({}, (runsOf n act).map fun r => (r.1, Memory.bytes regs (2048 * g 25 21 + r.1) r.2))
  | 0x23 => (evalArith regs masks s.vl (g 25 21) (g 20 16) (g 15 11) (g 10 8) (g 7 5) (g 4 0), [])
  | 0x24 => (evalFma regs masks s.vl (g 25 21) (g 20 16) (g 15 11) (g 10 6) (g 5 3) (g 2 1) (g 0 0), [])
  | 0x25 => (evalCmp regs masks s.vl (g 25 23) (g 22 18) (g 17 13) (g 12 10) (g 9 7) (g 6 4), [])
  | 0x26 => (evalMlog masks s.vl (g 25 23) (g 22 20) (g 19 17) (g 16 14), [])
  | 0x27 => (evalRed regs masks s.vl (g 25 21) (g 20 16) (g 15 13) (g 12 10) (g 9 8), [])
  | 0x28 => (evalCvt regs masks s.vl (g 25 21) (g 20 16) (g 15 13) (g 12 9) (g 8 5), [])
  | 0x29 => (evalPerm regs masks s.vl (g 25 21) (g 20 16) (g 15 13) (g 12 10) (g 4 0) top, [])
  | _ => (evalMupd regs s.vl (g 25 21) (g 20 16) (g 15 11) (g 10 8) (g 7 4) (g 3 2) (s.args.getD 1 0).toNat top, [])
/-- Elements per group of an instruction (R182), for the count of groups read. -/
def vecGroup (w : W32) : Nat :=
  match fld w 31 26 with
  | 0x20 => 256 / tyBytes (fld w 17 15)
  | 0x21 => 256 / 2 ^ fld w 17 16
  | 0x22 => 256 / 2 ^ fld w 17 16
  | 0x24 => tyGroup (fld w 2 1)
  | 0x25 => tyGroup (fld w 9 7)
  | 0x26 => 2048
  | 0x27 => tyGroup (fld w 12 10)
  | 0x28 => max 1 (256 * 8 / max 8 (max (codeBits (fld w 12 9)) (codeBits (fld w 8 5))))
  | 0x29 => tyGroup (fld w 12 10)
  | 0x36 => 32
  | _ => tyGroup (fld w 7 5)
/-- The oldest instruction that may go on: one that may start, its sources ready and nothing earlier in its way, or a load that may read
memory (R196, R197). -/
def Core.readyStation (k : Core) : Option Station :=
  k.vec.stations.find? fun s => !s.started && !s.held && s.rwait.isEmpty && (if s.isLoad && !s.asked then k.mayRead s else !k.blocked s.seq s.foot false)
/-- Replace the station of a number. -/
def VecUnit.put (u : VecUnit) (s : Station) : VecUnit := { u with stations := u.stations.map fun t => if t.seq = s.seq then s else t }
/-- Bytes of the bolt that a load of a station reads: those of its active elements alone (R192). -/
def Station.boltRuns (s : Station) (masks : Tab Nat) : List (Nat × Nat) :=
  match s.bolt with
  | some o => if s.isStore then [] else (runsOf s.width (s.moved masks)).map fun r => (o + r.1, r.2)
  | none => []
/-- A station's instruction starts and reads its groups (R196). -/
def Mod.startStation (m : Mod) (c : Nat) (s : Station) : Mod :=
  let k := m.core c
  let b := m.boltCheck c (s.boltRuns k.vec.masks)
  let data (i : Nat) : Byte := match s.bolt with | some o => Memory.byte k.bolt (o + i) | none => Tab.get 0 s.data i
  let r := evalStation k.vec.regs k.vec.masks data s
  let groups := max 1 (cdiv s.vl (vecGroup s.word))
  let m1 := b.2.updCore c fun k =>
    let k1 := { k with vec := k.vec.put { s with started := true, undo := none, writes := r.1.writes, maskWrites := r.1.masks, stores := r.2
                                                 nan := r.1.nan, trapped := r.1.trapped, nans := r.1.nans, ovf := r.1.ovf } }
    (if b.1 then k1.addPend 9 else k1).incCregBy 0x2048 groups
  if s.isMem then m1 else m1.evCore c 0x0A groups
/-- A load in a station meets poison. Where nothing after it has issued, it leaves its station with nothing done: the bank before it comes
back, and UERR stands at it (R281, R365). Else it keeps the bytes that came, and UERR is pending (log 66). -/
def Mod.poisonStation (m : Mod) (c : Nat) (s : Station) : Mod :=
  let k := m.core c
  match s.undo with
  | some (b, ps) =>
    let l : Option LoadRec := b.load.bind fun l =>
      let i := k.bank.depth - 1 - l.pos
      if k.bank.depth ≤ l.pos then some { l with arrived := true }
      else if i < k.bank.ops.length then some { l with arrived := true, value := k.bank.ops.getD i 0, poison := k.poison.contains l.pos }
      else none
    (m.setTrap c 9 []).updCore c fun k =>
      { k with bank := { b with load := l }, poison := ps, vec := { k.vec with stations := k.vec.stations.filter fun t => t.seq != s.seq } }
  | none =>
    match m.readStation c s true with
    | .ok (s1, m1) => m1.updCore c fun k => { k with vec := k.vec.put s1 }.addPend 9
    | .error _ => m
/-- VECTOR_START: the oldest ready vector instruction starts and reads its groups (R196); a load that has not read memory reads it first. Errors
may have come into granules of the bolt before the read (R341). -/
def rowVectorStart (c : CoreId) (bad : BoltErrs) (m : Mod) : Mod :=
  let m := m.boltErrors c.val bad
  let k := m.core c.val
  match k.readyStation with
  | none => m
  | some s =>
    if s.isLoad && !s.asked then
      match m.readStation c.val s false with
      | .ok (s1, m1) =>
        if s1.rwait.isEmpty then m1.startStation c.val s1 else m1.updCore c.val fun k => { k with vec := k.vec.put s1 }
      | .error (.trap ..) => if k.due.isSome then m else m.poisonStation c.val s
      | .error _ => m
    else m.startStation c.val s
/-- Send or write the bytes of a store. -/
def Mod.vecStore (m : Mod) (c part va : Nat) : List ((Place × Nat × Nat × Nat) × List Byte) → Ex Mod
  | [] => .ok m
  | ((.loc pa, o, _, _), bs) :: t => do
    let m1 ← m.writeNow c (pa + o) bs
    m1.vecStore c part va t
  | ((.remote dev win off, o, lo, n), bs) :: t =>
    let m1 := (remoteCuts 17 (off + o) n).foldl (fun m p =>
      (m.remoteSend { unit := .posted, core := c, part := part, va := va + lo + (p.1 - (off + o)), len := p.2 } 3 2 0 dev win p.1 ((bs.drop (p.1 - (off + o))).take p.2)).2) m
    m1.vecStore c part va t
  | ((.ctl _, _, _, _), _) :: t => m.vecStore c part va t
/-- VECTOR_INSTRUCTION_DONE: a started instruction's last group is written (R198): registers, masks, memory; counts and the NaN
trap (R139 to R142). -/
def rowVectorInstructionDone (c : CoreId) (s : Fin 8) (m : Mod) : Mod :=
  let k := m.core c.val
  match k.vec.stations[s.val]? with
  | none => m
  | some st =>
    if !st.started || (st.isStore && k.vec.stations.any fun t => t.isStore && decide (t.seq < st.seq) && !t.held) then m
    else
      let cuts := st.stores.flatMap fun r => (cutRuns st.ranges [(r.1, r.2.length)]).map fun p => (p, (r.2.drop (p.2.2.1 - r.1)).take p.2.2.2)
      match m.vecStore c.val ((m.partOf c.val).getD 0) st.va cuts with
      | .error _ => m
      | .ok m1 =>
        let m2 := m1.updCore c.val fun k =>
          let k1 := match st.bolt with
            | some o => st.stores.foldl (fun (k : Core) (p : Nat × List Byte) => k.boltWrite (o + p.1) p.2) k
            | none => k
          let regs := st.writes.foldl (fun t p => Memory.setBytes t p.1 p.2) k1.vec.regs
          let masks := st.maskWrites.foldl (fun t p => Tab.put t p.1 p.2) k1.vec.masks
          let k2 := { k1 with vec := { regs := regs, masks := masks, stations := k1.vec.stations.filter fun t => t.seq != st.seq } }
          ((k2.incCregBy 0x2040 1).incCregBy 0x2050 st.ovf).incCregBy 0x2058 st.nans
        match st.nan with
        | some e => if st.gate then m2.nanReports c.val (if fld st.word 31 26 = 0x36 then 2 else 1) st.pc e st.trapped else m2
        | none => m2

end Sys2Proof.Machine
end

