-- ==== Sys2Proof/Machine/Matrix.lean ====
section
/-! DEFINITION. The matrix array (04), its sums (R125 to R128, R138) and basting (R151 to R157). -/

namespace Sys2Proof.Machine

/-- The matrix issue exception (R117): MAT_ERR. -/
def matStop (cause major patch slot : Nat) : Stop := .trap 3 [(0x1010, w64 (slot * 2 ^ 20 + patch * 2 ^ 16 + major * 2 ^ 8 + cause))]
/-- The current patch mode. -/
def Core.mode (k : Core) : Nat := k.cregf 0x1000 1 0
/-- Patch `p`. -/
def Core.patch (k : Core) (p : Nat) : Patch := Tab.get {} k.mat.patches p
/-- Replace a patch. -/
def Core.setPatch (k : Core) (p : Nat) (x : Patch) : Core := { k with mat := { k.mat with patches := Tab.put k.mat.patches p x } }
/-- A patch has an instruction queued or a row unsummed. -/
def Patch.busy (p : Patch) : Bool := !p.queue.isEmpty || !p.runs.isEmpty
/-- Tiles of an instruction. -/
def MatInstr.total (x : MatInstr) (mode : Nat) : Nat := let t := (shapeOf x.shape).tiles mode; t.1 * t.2

/-- The codes of a shape are legal (R85 to R87). -/
def Shape.fmtOk (s : Shape) : Bool :=
  let narrowW := decide (s.wf ≤ 6)
  let narrowA := decide (s.af ≤ 4)
  let pair := (narrowW && narrowA) || (s.wf == 8 && s.af == 8) || (s.wf == 9 && s.af == 9)
  let scaled (f : Nat) := f == 2 || f == 3 || f == 4 || f == 5 || f == 6
  pair && s.ws != 3 && s.as != 3 && (s.ws == 0 || scaled s.wf) && (s.as == 0 || scaled s.af)
/-- The causes of R117 that a tile load decides. -/
def loadFail (mode patch : Nat) (s : Shape) (wofs : Nat) : Option Nat :=
  let t := s.tiles mode
  if patchesOf mode ≤ patch then some 1
  else if !s.fmtOk then some 2
  else if s.cls ≠ 0 ∧ mode = 3 then some 3
  else if wofs % 128 ≠ 0 ∨ boltSize < wofs + t.1 * t.2 * s.recSize mode then some 4
  else none
/-- The causes of R117 for MTILE. Where several hold, the lowest number is recorded (DESIGN CHOICE, log 67). -/
def tileFail (mode patch : Nat) (s : Shape) (x : MatInstr) : Option Nat :=
  match loadFail mode patch s x.wofs with
  | some c => some c
  | none =>
    let win := 65536 / patchesOf mode
    let lo := 128 * x.abase
    if (if x.asrc then decide (x.aofs % 16 ≠ 0 ∨ boltSize < x.aofs + s.rowBytes mode) else decide (65536 < 2048 * x.vreg + s.rowBytes mode)) then some 5
    else if 2048 < s.scaleBytes mode then some 6
    else if lo < patch * win ∨ (patch + 1) * win < lo + s.m * s.npad mode * s.e then some 7
    else none

/-! ## Loads (R81, R103, R107) -/

/-- The next tile that a queue needs. -/
def nextLoad (mode : Nat) : List MatInstr → Option (MatInstr × Nat)
  | [] => none
  | x :: t => if x.zero.isSome then nextLoad mode t else if x.pre then some (x, 0) else if x.started < x.total mode then some (x, x.started) else nextLoad mode t
/-- A preloaded tile is the first tile of an MTILE (R107). -/
def Loaded.serves (l : Loaded) (x : MatInstr) (j : Nat) : Bool :=
  if l.pre then j == 0 && l.slot == x.slot && l.wofs == x.wofs && l.slotGen == x.slotGen else l.seq == x.seq && l.tile == j
/-- A patch whose shadow set is free asks the port for its next tile; a preloaded tile that the next MTILE does not use is
discarded, and a later MPRE replaces it (R103, R107). -/
def Core.askLoad (k : Core) (p : Nat) : Core :=
  let x := k.patch p
  if x.asked then k
  else match nextLoad k.mode x.queue with
    | none => k
    | some (i, j) =>
      let need := match x.shadow with
        | none => true
        | some l => l.pre && (i.pre || !l.serves i j)
      if !need then k
      else
        let k1 := k.setPatch p { x with asked := true, shadow := if i.pre then x.shadow else none }
        let l : Loaded := { seq := i.seq, slot := i.slot, slotGen := i.slotGen, shape := i.shape, wofs := i.wofs, tile := j, pre := i.pre }
        { k1 with mat := { k1.mat with port := k1.mat.port ++ [{ patch := p, load := l }] } }

/-! ## Instructions (R116, R117) -/

/-- How often a slot has been written. -/
def Core.slotGen (k : Core) (s : Nat) : Nat := Tab.get 0 k.mat.slotGen s
/-- A slot is written: by MSHAPE or through the control space. A write of the value that it holds counts too (DESIGN CHOICE, log 68). -/
def Core.bumpSlot (k : Core) (s : Nat) : Core := { k with mat := { k.mat with slotGen := Tab.put k.mat.slotGen s (k.slotGen s + 1) } }
/-- MCFG (R92). -/
def bodyMcfg (c : Nat) (f : BitVec 26) (m : Mod) : Body := do
  legal (fld f 23 0 == 0) 0x30 0
  let k := m.core c
  if k.unitsHeld || k.mat.patches.any (fun p => p.2.busy) then .error .hold
  else
    let md := fld f 25 24
    .ok (m.updCore c fun k =>
      { (k.setCregf 0x1000 1 0 md) with
        mat := { k.mat with patches := Tab.mapV k.mat.patches fun _ p => { p with shadow := none } } }, .next, 1)
/-- The command of `bodyMcfg`. -/
def rowMcfg (c : CoreId) (f : BitVec 26) (m : Mod) : Mod := m.issue c.val 0x30 0 (bodyMcfg c.val f)
/-- MSHAPE (R93): the slot takes the fields of the popped value. -/
def bodyMshape (c : Nat) (f : BitVec 26) (m : Mod) : Body := do
  legal (fld f 25 22 == 0 && fld f 18 0 == 0) 0x31 0
  if (m.core c).unitsHeld then .error .hold
  else do
    let (a, m1) ← m.pop c 1
    let s := fld f 21 19
    .ok (m1.updCore c fun k => (k.setCreg (0x1040 + 8 * s) ((a.headD 0) &&& maskB 64 46 0)).bumpSlot s, .next, 1)
/-- The command of `bodyMshape`. -/
def rowMshape (c : CoreId) (f : BitVec 26) (m : Mod) : Mod := m.issue c.val 0x31 0 (bodyMshape c.val f)
/-- Enter a patch queue (R90, R112). -/
def Mod.enqueueMat (m : Mod) (c p : Nat) (x : MatInstr) : Mod :=
  m.updCore c fun k =>
    let q := k.patch p
    ({ (k.setPatch p { q with queue := q.queue ++ [x] }) with seq := k.seq + 1 }).askLoad p
/-- MTILE (R93 to R101, R112). -/
def bodyMtile (c : Nat) (f : BitVec 26) (m : Mod) : Body := do
  legal (fld f 2 0 == 0) 0x32 0
  let (a, m1) ← m.peek c 2
  let k := m1.core c
  let p := fld f 25 22
  let s := fld f 21 19
  let x : MatInstr :=
    { shape := k.creg (0x1040 + 8 * s), slot := s, slotGen := k.slotGen s, wofs := (a.getD 1 0).toNat, aofs := (a.headD 0).toNat
      acc := bit f 18, asrc := bit f 17, vreg := fld f 16 12, abase := fld f 11 3, pc := k.bank.pc.toNat, seq := k.seq }
  match tileFail k.mode p (shapeOf x.shape) x with
  | some cause => .error (matStop cause 0x32 p s)
  | none =>
    if k.unitsHeld || decide (8 ≤ (k.patch p).queue.length) then .error .hold
    else do
      let m2 ← m1.repl c 2 []
      .ok (m2.enqueueMat c p x, .next, 1)
/-- The command of `bodyMtile`. -/
def rowMtile (c : CoreId) (f : BitVec 26) (m : Mod) : Mod := m.issue c.val 0x32 0 (bodyMtile c.val f)
/-- MPRE (R107). -/
def bodyMpre (c : Nat) (f : BitVec 26) (m : Mod) : Body := do
  legal (fld f 18 0 == 0) 0x33 0
  let (a, m1) ← m.peek c 1
  let k := m1.core c
  let p := fld f 25 22
  let s := fld f 21 19
  let x : MatInstr := { pre := true, shape := k.creg (0x1040 + 8 * s), slot := s, slotGen := k.slotGen s, wofs := (a.headD 0).toNat, pc := k.bank.pc.toNat, seq := k.seq }
  match loadFail k.mode p (shapeOf x.shape) x.wofs with
  | some cause => .error (matStop cause 0x33 p s)
  | none =>
    if k.unitsHeld || decide (8 ≤ (k.patch p).queue.length) then .error .hold
    else do
      let m2 ← m1.repl c 1 []
      .ok (m2.enqueueMat c p x, .next, 1)
/-- The command of `bodyMpre`. -/
def rowMpre (c : CoreId) (f : BitVec 26) (m : Mod) : Mod := m.issue c.val 0x33 0 (bodyMpre c.val f)
/-- MWAIT: waits until the named patches are idle. A patch that the mode lacks is idle, and naming it raises nothing (DESIGN CHOICE, log 69). -/
def bodyMwait (c : Nat) (f : BitVec 26) (m : Mod) : Body := do
  legal (fld f 9 0 == 0) 0x34 0
  let k := m.core c
  if k.unitsHeld || k.mat.patches.any (fun p => bit f (10 + p.1) && p.2.busy) then .error .hold
  else .ok (m, .next, 1)
/-- The command of `bodyMwait`. -/
def rowMwait (c : CoreId) (f : BitVec 26) (m : Mod) : Mod := m.issue c.val 0x34 0 (bodyMwait c.val f)
/-- The patch whose accumulator window holds a word (R91). -/
def windowOf (mode w : Nat) : Nat := w / (65536 / patchesOf mode)
/-- MZERO: +0.0 into COUNT + 1 rows of a bank. It completes on reaching a patch queue, that of the patch whose window holds its first
row, and zeroes the rows after every earlier instruction that reads or writes them (R108, R112, R116, log 51). ZRANGE records 0 as PATCH
and SLOT, which MZERO does not name (DESIGN CHOICE, log 70). -/
def bodyMzero (c : Nat) (f : BitVec 26) (m : Mod) : Body := do
  legal (fld f 9 0 == 0) 0x35 0
  let k := m.core c
  let row := fld f 23 17
  let n := fld f 16 10 + 1
  if 128 < row + n then .error (matStop 8 0x35 0 0)
  else
    let lo := 16384 * fld f 25 24 + 128 * row
    let p := windowOf k.mode lo
    if k.unitsHeld || decide (8 ≤ (k.patch p).queue.length) then .error .hold
    else
      let m1 := m.enqueueMat c p { zero := some (lo, 128 * n), pc := k.bank.pc.toNat, seq := k.seq }
      .ok (m1.updCore c fun k => k.settleZeros zeroMax, .next, 1)
/-- The command of `bodyMzero`. -/
def rowMzero (c : CoreId) (f : BitVec 26) (m : Mod) : Mod := m.issue c.val 0x35 0 (bodyMzero c.val f)

/-! ## Sums (R95 to R101, R125 to R128) -/

/-- Element (m, k) of the captured rows of a tile. -/
def TileRun.act (r : TileRun) (s : Shape) (kB m k : Nat) : Fl := codeVal s.af (elemOf s.af r.rows (m * kB + k))
/-- Element (k, n) of the tile's weights (R101). -/
def TileRun.weight (r : TileRun) (s : Shape) (nB k n : Nat) : Fl := codeVal s.wf (elemOf s.wf r.weights (k * nB + n))
/-- Scale of row m at k of the tile. -/
def TileRun.actScale (r : TileRun) (s : Shape) (kB m k : Nat) : Fl :=
  if s.as = 0 then .fin false 1 0
  else scaleVal s.as (r.scales.getD (m * (kB / blockOf s.as) + k / blockOf s.as) 0).toNat
/-- Scale of column n at k of the tile (R101). -/
def TileRun.wScale (r : TileRun) (s : Shape) (elems nB k n : Nat) : Fl :=
  if s.ws = 0 then .fin false 1 0
  else scaleVal s.ws (r.weights.getD (elems + (k / blockOf s.ws) * nB + n) 0).toNat
/-- The FP32 value of an element after the tile's groups (R125 to R127, R95): from a start value. -/
def TileRun.sum32 (r : TileRun) (s : Shape) (mode m n : Nat) (start : Nat) : Nat :=
  let b := blockDims mode s.cls
  let kb := r.tile / (s.tiles mode).2
  let w := if s.cls = 1 then 50 else 26
  (upto (b.1 / 16)).foldl (fun acc g =>
    let k0 := kb * b.1 + 16 * g
    if s.k ≤ k0 then acc
    else
      let ps := (upto 16).map fun i =>
        if s.k ≤ k0 + i then Fl.zero else Fl.mul (r.act s b.1 m (16 * g + i)) (r.weight s b.2 (16 * g + i) n)
      let gs := groupSum w ps (r.actScale s b.1 m (16 * g)) (r.wScale s (s.recElems mode) b.2 (16 * g) n)
      fp32.round false (Fl.add (fp32.decode acc) gs)) start
/-- The FP64 value of an element after the tile's products (R128). -/
def TileRun.sum64 (r : TileRun) (s : Shape) (mode m n : Nat) (start : Nat) : Nat :=
  let b := blockDims mode s.cls
  let kb := r.tile / (s.tiles mode).2
  (upto b.1).foldl (fun acc k =>
    if s.k ≤ kb * b.1 + k then acc
    else fp64.round false (Fl.fma (r.act s b.1 m k) (r.weight s b.2 k n) (fp64.decode acc))) start
/-- A word of the accumulator space. -/
def accWord (t : Tab W32) (w : Nat) : Nat := (Tab.get 0 t w).toNat
/-- Write a word of the accumulator space; zero is not listed. -/
def accPut (t : Tab W32) (w v : Nat) : Tab W32 := Tab.setD 0 t w (BitVec.ofNat 32 v)
/-- Every element of the tile: new accumulator space, and the elements that became NaN, in the order of R140. -/
def TileRun.apply (r : TileRun) (mode : Nat) (acc : Tab W32) : Tab W32 × List (Nat × Nat) :=
  let s := shapeOf r.ins.shape
  let b := blockDims mode s.cls
  let nb := r.tile % (s.tiles mode).2
  let kb := r.tile / (s.tiles mode).2
  let np := s.npad mode
  let cols := (upto b.2).filter fun n => decide (nb * b.2 + n < s.n)
  (upto s.m).foldl (fun a m => cols.foldl (fun (a : Tab W32 × List (Nat × Nat)) n =>
    let col := nb * b.2 + n
    let w := 128 * r.ins.abase + (m * np + col) * s.e
    if s.cls = 2 then
      let old := accWord a.1 w + accWord a.1 (w + 1) * 2 ^ 32
      let start := if kb = 0 ∧ !r.ins.acc then 0 else old
      let v := r.sum64 s mode m n start
      (accPut (accPut a.1 w v) (w + 1) (v / 2 ^ 32), if (fp64.decode v).isNan && !(fp64.decode start).isNan then a.2 ++ [(m, col)] else a.2)
    else
      let start := if kb = 0 ∧ !r.ins.acc then 0 else accWord a.1 w
      let v := r.sum32 s mode m n start
      (accPut a.1 w v, if (fp32.decode v).isNan && !(fp32.decode start).isNan then a.2 ++ [(m, col)] else a.2)) a) (acc, [])

/-! ## Events of the array -/

/-- WEIGHT_PORT_GRANT: the port loads the elements and scales of the oldest request's record into its patch's shadow set (R101, R103); an
uncorrectable granule leaves UERR pending and stops the patch (R341). Errors may have come into granules of the bolt before the read. While a
handler runs nothing is loaded, as the passes that write weights are stopped too (R108, R284). -/
def rowWeightPortGrant (c : CoreId) (bad : BoltErrs) (m : Mod) : Mod :=
  let m := m.boltErrors c.val bad
  let k := m.core c.val
  match k.mat.port with
  | [] => m
  | r :: t =>
    let s := shapeOf r.load.shape
    let sz := s.recUsed k.mode
    let off := r.load.wofs + r.load.tile * s.recSize k.mode
    if k.unitsHeld || k.blocked r.load.seq { reads := [fBolt off sz] } true then m
    else
      let (bs, bad, m1) := m.boltRead c.val off sz
      m1.updCore c.val fun k =>
        let p := k.patch r.patch
        let q := if r.load.pre then p.queue.filter fun x => x.seq != r.load.seq else p.queue
        let k1 := (k.setPatch r.patch { p with asked := false, shadow := some { r.load with bytes := bs }, queue := q, nanStop := p.nanStop || bad })
        let k2 := { k1 with mat := { k1.mat with port := t } }
        (if bad then k2.addPend 9 else k2).askLoad r.patch
/-- A tile is to be basted (R151): its count, and MAT_BASTE. -/
def basteSelected (baste : W64) (count : Nat) : Bool :=
  bit baste 0 && count % 2 ^ fld baste 8 4 == fld baste 51 32 % 2 ^ fld baste 8 4
/-- Checked rows of a tile (R152). -/
def checkedRows (baste : W64) (s : Shape) : Nat := min s.m (fld baste 19 16 + 1)
/-- Checked columns of a tile, counted within it. -/
def TileRun.checkedCols (r : TileRun) (s : Shape) (mode : Nat) : List Nat :=
  let b := blockDims mode s.cls
  (upto b.2).filter fun n => decide (r.tile % (s.tiles mode).2 * b.2 + n < s.n)
/-- TILE_START (R81, R105, R108, R109, R151): the shadow set becomes active, the rows and scales are read. Errors may have come into granules
of the bolt before the read (R341). The count that selects a tile for basting has counted the tile itself (DESIGN CHOICE, log 71). -/
def rowTileStart (c : CoreId) (p : PatchId) (bad : BoltErrs) (m : Mod) : Mod :=
  let m := m.boltErrors c.val bad
  let k := m.core c.val
  let pa := k.patch p.val
  match nextLoad k.mode pa.queue, pa.shadow with
  | some (x, j), some l =>
    if x.pre || !l.serves x j || k.unitsHeld || pa.nanStop || k.blocked x.seq (x.foot k.mode) true then m
    else
      let s := shapeOf x.shape
      let b := blockDims k.mode s.cls
      let kb := j / (s.tiles k.mode).2
      let ab := codeBits s.af / 8
      let pitch := s.kpad k.mode * ab
      let rd (m : Mod) (i : Nat) : List Byte × Bool × Mod :=
        let off := i * pitch + kb * b.1 * ab
        if x.asrc then m.boltRead c.val (x.aofs + off) (b.1 * ab) else (Memory.bytes k.vec.regs (2048 * x.vreg + off) (b.1 * ab), false, m)
      let (rows, bad, m1) := (upto s.m).foldl (fun (a : List Byte × Bool × Mod) i =>
        let r := rd a.2.2 i
        (a.1 ++ r.1, a.2.1 || r.2.1, r.2.2)) ([], false, m)
      let sb := if s.as = 0 then 0 else b.1 / blockOf s.as
      let spitch := if s.as = 0 then 0 else s.kpad k.mode / blockOf s.as
      let scales := (upto s.m).flatMap fun i => Memory.bytes k.vec.regs (2048 * s.asv + i * spitch + kb * sb) sb
      let run : TileRun := { ins := x, tile := j, weights := l.bytes, rows := rows, scales := scales }
      let baste := m.useCreg c.val 0x1200
      let count := (k.cregf 0x1228 47 0 + 1) % 2 ^ 48
      let sel := decide (s.cls = 0) && basteSelected baste count
      if sel && k.mat.baste.isSome && bit baste 1 then m
      else
        let m2 := m1.updCore c.val fun k =>
          let pa := k.patch p.val
          let q := pa.queue.map fun y => if y.seq = x.seq then { y with started := y.started + 1 } else y
          let k1 := (k.setPatch p.val { pa with active := some l, shadow := none, queue := q, runs := pa.runs ++ [run], nanStop := pa.nanStop || bad }).askLoad p.val
          let k2 := if bad then k1.addPend 9 else k1
          let k3 := if s.cls = 0 then k2.incCregBy 0x1228 1 else k2
          if !sel then k3
          else if k3.mat.baste.isSome then k3.incCregBy 0x1218 1
          else
            let md := k3.mode
            let nar := (upto (checkedRows baste s)).flatMap fun r => (run.checkedCols s md).map fun n => BitVec.ofNat 32 (run.sum32 s md r n 0)
            ({ k3 with mat := { k3.mat with baste := some { run := run, mode := md, patch := p.val, piece := (k3.piece.getD {}).ix, narrow := nar } } }).incCregBy 0x1210 1
        m2.evCore c.val 0x09 1
  | _, _ => m
/-- TILE_ROWS_SUMMED: the oldest tile of a patch is summed into the accumulator (R106, R125 to R128), with the NaN trap of the array
(R138, R140 to R142). The MTILE leaves its queue, and QUEUED, with its last row summed (DESIGN CHOICE, log 72). -/
def rowTileRowsSummed (c : CoreId) (p : PatchId) (m : Mod) : Mod :=
  let k := m.core c.val
  let pa := k.patch p.val
  match pa.runs with
  | [] => m
  | r :: t =>
    let (acc, nans) := r.apply k.mode k.mat.acc
    let trap := bit (m.useCreg c.val 0x1000) 8 && !nans.isEmpty
    let tl := (shapeOf r.ins.shape).tiles k.mode
    let m1 := m.updCore c.val fun k =>
      let q := (pa.queue.map fun y => if y.seq = r.ins.seq then { y with summed := y.summed + 1 } else y).filter
        fun y => y.pre || y.zero.isSome || decide (y.summed < y.total k.mode)
      ((({ k with mat := { k.mat with acc := acc } }).setPatch p.val { pa with runs := t, queue := q, nanStop := pa.nanStop || trap }).askLoad p.val).settleZeros zeroMax
    let m2 := m1.evCore c.val 0x08 (shapeOf r.ins.shape).m
    if trap then nans.foldl (fun m e => m.nanReport c.val 0 r.ins.pc
      (p.val * 2 ^ 40 + r.tile / tl.2 * 2 ^ 30 + r.tile % tl.2 * 2 ^ 20 + e.1 * 2 ^ 10 + e.2)) m2
    else m2

/-- The reference and the magnitude sum of one element (R153): bits in the reference format. -/
def TileRun.reference (r : TileRun) (f : Fmt) (s : Shape) (mode m n : Nat) : Nat × Nat :=
  let b := blockDims mode s.cls
  let kb := r.tile / (s.tiles mode).2
  (upto b.1).foldl (fun a k =>
    if s.k ≤ kb * b.1 + k then a
    else
      let x := f.decode (f.round false (Fl.mul (r.act s b.1 m k) (r.actScale s b.1 m k)))
      let y := f.decode (f.round false (Fl.mul (r.weight s b.2 k n) (r.wScale s (s.recElems mode) b.2 k n)))
      (f.round false (Fl.fma x y (f.decode a.1)), f.round false (Fl.fma x.abs y.abs (f.decode a.2)))) (0, 0)
/-- The element disagrees (R154). -/
def disagrees (f : Fmt) (tol : Nat) (nar ref mag : Fl) : Bool :=
  if nar.isNan || ref.isNan then nar.isNan != ref.isNan
  else if nar.isInf && ref.isInf then nar.neg != ref.neg
  else
    let d := f.decode (f.round false (Fl.add nar ref.negate).abs)
    let t := f.decode (f.round false (Fl.mul (Fl.pow2 (-(tol : Int))) mag))
    Fl.lt false t d
/-- BASTE_CHECK: the unit has finished the reference of the basted tile (R152 to R156). -/
def rowBasteCheck (c : CoreId) (m : Mod) : Mod :=
  let k := m.core c.val
  match k.mat.baste with
  | none => m
  | some bt =>
    let r := bt.run
    let s := shapeOf r.ins.shape
    let mode := bt.mode
    let cfg := m.useCreg c.val 0x1200
    let btol := m.useCreg c.val 0x1208
    let tol := match codeBits s.wf with | 4 => fld btol 4 0 | 8 => fld btol 12 8 | _ => fld btol 20 16
    let f := if bit cfg 2 then fp64 else fp32
    let cols := r.checkedCols s mode
    let rowsN := if cols.isEmpty then 0 else bt.narrow.length / cols.length
    let tl := (s.tiles mode).2
    let nB := (blockDims mode s.cls).2
    let kB := (blockDims mode s.cls).1
    let bad : List (Nat × Nat × Nat × Nat × Nat) := (upto rowsN).flatMap fun row => cols.zipIdx.filterMap fun cn =>
      let nar := (bt.narrow.getD (row * cols.length + cn.2) 0).toNat
      let rf := r.reference f s mode row cn.1
      if disagrees f tol (fp32.decode nar) (f.decode rf.1) (f.decode rf.2) then some (row, cn.1, nar, rf.1, rf.2) else none
    let kn := min kB (s.k - r.tile / tl * kB)
    let cost := cdiv (2 * rowsN * cols.length * kn) (if bit cfg 2 then 32 else 64)
    let m1 := m.updCore c.val fun k =>
      let k1 := { k with mat := { k.mat with baste := none } }
      match bad with
      | [] => k1
      | (row, n, nar, ref, mag) :: t =>
        let k2 := k1.incCregBy 0x1220 bad.length
        let up (f : Fmt) (b : Nat) : W64 := w64 (fp64.round false (f.decode b))
        let k3 := if k2.cregf 0x1230 0 0 = 1 then k2.setCregf 0x1230 1 1 1
          else
            let place := bt.patch * 2 ^ 40 + r.tile / tl * 2 ^ 30 + r.tile % tl * 2 ^ 20 + row * 2 ^ 10 + (r.tile % tl * nB + n)
            let k3 := ((((k2.setCreg 0x1238 (w64 (bt.piece % 2 ^ 16 * 2 ^ 48 + r.ins.pc % 2 ^ 48))).setCreg 0x1240 (w64 place)).setCreg 0x1248 (up fp32 nar)).setCreg 0x1250 (up f ref)).setCreg 0x1258 (up f mag)
            let k4 := k3.setCregf 0x1230 0 0 1
            if t.isEmpty then k4 else k4.setCregf 0x1230 1 1 1
        if bit cfg 3 then k3.addPend 7 else k3
    m1.evCore c.val 0x0B cost

end Sys2Proof.Machine
end

