-- ==== Sys2Proof/Machine/Finish.lean ====
section
/-! DEFINITION. The finishing engine (06): descriptors, FLOAD, FRUN and FWAIT, and the passes. -/

namespace Sys2Proof.Machine

/-! ## Descriptors (R173, R174) -/

/-- A chain descriptor with its fields read. -/
structure Chain where
  nstg : Nat
  out : Nat
  rtap : Nat
  rop : Nat
  rv : Nat
  pv : Nat
  prec : Bool
  xkind : Nat
  xfmt : Nat
  ykind : Nat
  yfmt : Nat
  dkind : Nat
  dfmt : Nat
  dsc : Nat
  osv : Nat
  omf : Nat
  rowlen : Nat
  xpitch : Nat
  ypitch : Nat
  dpitch : Nat
  stages : List W64
  consts : List Nat
deriving DecidableEq, Repr, Inhabited
/-- The fields of a descriptor. -/
def chainOf (d : List Byte) : Chain :=
  let h := descW d 0 4
  let k := descW d 4 4
  { nstg := bitsN h 31 29 + 1, out := bitsN h 28 26, rtap := bitsN h 25 23, rop := bitsN h 22 21, rv := bitsN h 20 16
    pv := bitsN h 15 11, prec := h.testBit 10, xkind := bitsN k 31 30, xfmt := bitsN k 29 26, ykind := bitsN k 25 24
    yfmt := bitsN k 23 20, dkind := bitsN k 19 18, dfmt := bitsN k 17 14, dsc := bitsN k 13 12, osv := bitsN k 11 7
    omf := bitsN k 6 4, rowlen := bitsN (descW d 8 4) 19 0 + 1, xpitch := descW d 0xC 2, ypitch := descW d 0xE 2
    dpitch := descW d 0x10 2, stages := (upto 8).map fun i => w64 (descW d (0x18 + 8 * i) 8)
    consts := (upto 10).map fun j => descW d (0x58 + 4 * j) 4 }
/-- Operand bytes A, B and C of a stage. -/
def stageOps (w : W64) : List Nat := [fld w 31 24, fld w 23 16, fld w 15 8]
/-- Operands that an operation uses (R165). -/
def opArity (op : Nat) : Nat := match op with | 0 => 1 | 8 => 1 | 3 => 3 | 7 => 3 | 9 => 3 | _ => 2
/-- A selector code that R170 lists. -/
def selDefined (s : Nat) : Bool := decide (s ≤ 3) || (decide (8 ≤ s) && decide (s ≤ 0x17)) || (decide (0x20 ≤ s) && decide (s ≤ 0x29))
/-- A stage breaks BADOP (R176). -/
def stageBadOp (w : W64) : Bool :=
  let op := fld w 63 60
  let sub := fld w 57 55
  decide (9 < op) || (match op with | 6 => decide (3 < sub) | 8 => decide (1 < sub) | 9 => decide (1 < sub) | _ => sub != 0) ||
  (fld w 59 58 != 0 && !(op == 1 || op == 2 || op == 3)) || fld w 54 32 != 0 || fld w 7 0 != 0 ||
  (stageOps w).any fun b => !selDefined (b % 64)
/-- A stage breaks BADSEL (R170, R176). Rows could exceed 512 where the largest COUNT, 2²⁰, makes more of them (DEDUCED, log 53). -/
def Chain.stageBadSel (c : Chain) (i : Nat) (w : W64) : Bool :=
  let n := opArity (fld w 63 60)
  ((stageOps w).take n).any (fun b =>
    let s := b % 64
    (decide (8 ≤ s) && decide (s ≤ 0xF) && decide (i ≤ s - 8)) ||
    (decide (0x10 ≤ s) && decide (s ≤ 0x17) && (decide (i ≤ s - 0x10) || fld (c.stages.getD (s - 0x10) 0) 63 60 != 8)) ||
    (s == 1 && c.ykind == 3) || (s == 2 && decide (512 < cdiv (2 ^ 20) c.rowlen))) || ((stageOps w).drop n).any (· != 0)
/-- The descriptor is an FP64 move (R161). -/
def Chain.isMove (c : Chain) : Bool :=
  c.xfmt == 9 && decide (c.xkind ≤ 2) && c.ykind == 3 && decide (1 ≤ c.dkind) && c.dfmt == 9 && c.dsc == 0 && c.rop == 0 && !c.prec &&
  c.nstg == 1 && c.out == 0 && fld (c.stages.getD 0 0) 63 60 == 0 && fld (c.stages.getD 0 0) 31 24 == 0
/-- A source kind and format that R159 allows outside a move. -/
def srcOk (kind fmt : Nat) : Bool := match kind with | 0 => fmt == 8 | 1 => decide (fmt ≤ 4) || fmt == 8 | 2 => decide (fmt ≤ 4) || fmt == 8 | _ => false
/-- A descriptor breaks BADFMT (R159, R161, R87). -/
def Chain.badFmt (c : Chain) : Bool :=
  if c.xfmt == 9 || c.yfmt == 9 || c.dfmt == 9 then !c.isMove
  else
    !srcOk c.xkind c.xfmt || (c.ykind != 3 && !srcOk c.ykind c.yfmt) || (c.dkind != 0 && !(decide (c.dfmt ≤ 6) || c.dfmt == 8)) ||
    c.dsc == 3 || (c.dsc != 0 && !(decide (2 ≤ c.dfmt) && decide (c.dfmt ≤ 6)))
/-- The descriptor's cause and stage under the checks of FLOAD (R176). -/
def chainFail (d : List Byte) : Option (Nat × Nat) :=
  let c := chainOf d
  let live := c.stages.take c.nstg
  let reserved := descW d 0 4 % 2 ^ 10 != 0 || descW d 4 4 % 16 != 0 || bitsN (descW d 8 4) 31 20 != 0 || descW d 0x12 2 != 0 || descW d 0x14 4 != 0 || (c.stages.drop c.nstg).any (· != 0)
  let pitchBad (p : Nat) : Bool := p != 0 && decide (p < c.rowlen)
  match firstIx stageBadOp live with
  | some i => some (2, i)
  | none =>
    if reserved then some (2, 0)
    else match (live.zipIdx.find? fun p => c.stageBadSel p.2 p.1) with
      | some p => some (3, p.2)
      | none =>
        if c.badFmt then some (4, 0)
        else if c.nstg ≤ c.out ∨ c.nstg ≤ c.rtap ∨ (c.rop = 0 ∧ c.dkind = 0) ∨ pitchBad c.xpitch ∨ pitchBad c.ypitch ∨ pitchBad c.dpitch then some (5, 0)
        else none
/-- The chain names the row parameter. -/
def Chain.namesP (c : Chain) : Bool := (c.stages.take c.nstg).any fun w => ((stageOps w).take (opArity (fld w 63 60))).any fun b => b % 64 == 2

/-! ## Instructions (R175, R176) -/

/-- The finishing issue exception: FIN_ERR. -/
def finStop (cause major slot stage : Nat) : Stop := .trap 5 [(0x3008, w64 (slot * 2 ^ 20 + stage * 2 ^ 16 + major * 2 ^ 8 + cause))]
/-- FLOAD. -/
def bodyFload (c : Nat) (f : BitVec 26) (m : Mod) : Body := do
  legal (fld f 21 0 == 0) 0x37 0
  let (a, m1) ← m.peek c 1
  let x := (a.headD 0).toNat
  let slot := fld f 25 22
  if (m1.core c).unitsHeld then .error .hold
  else if x % 128 ≠ 0 then .error (finStop 0x0B 0x37 slot 0)
  else do
    let cap := (m1.core c).bank.cap 1
    capCheck cap 1 1 pRD x 128
    if cap.type = 2 then .error (capStop 3 1 1 x 128)
    else do
      let (ps, m2) ← m1.places c cap .read x 128
      let (bs, m3) ← m2.readPieces c none x ps
      match chainFail bs with
      | some (cause, stage) => .error (finStop cause 0x37 slot stage)
      | none => do
        let m4 ← m3.repl c 1 []
        .ok (m4.updCore c fun k => { k with fin := { k.fin with slots := Tab.put k.fin.slots slot bs } }, .next, 1)
/-- The command of `bodyFload`. -/
def rowFload (c : CoreId) (f : BitVec 26) (m : Mod) : Mod := m.issue c.val 0x37 0 (bodyFload c.val f)
/-- Elements up to the last position of a place, and one beyond it. -/
def extent (rows rowlen pitch count : Nat) : Nat :=
  let last := (rows - 1) * pitch + (count - (rows - 1) * rowlen)
  if rows ≤ 1 then last else max last ((rows - 2) * pitch + rowlen)
/-- A place's positions leave its space, or its base is misaligned (SRANGE, DRANGE). -/
def placeBad (kind fmt base ext : Nat) : Bool :=
  let unit := max 1 (codeBits fmt / 8)
  match kind with
  | 0 => decide (65536 < base + ext * (if fmt = 9 then 2 else 1)) || (fmt == 9 && base % 2 != 0)
  | 1 => base % unit != 0 || decide (65536 < base + cdiv (ext * codeBits fmt) 8)
  | 2 => base % unit != 0 || decide (boltSize < base + cdiv (ext * codeBits fmt) 8)
  | _ => base % unit != 0 || decide (2 ^ 48 < base + cdiv (ext * codeBits fmt) 8)
/-- The pitch in force. -/
def Chain.pitch (c : Chain) (p : Nat) : Nat := if p = 0 then c.rowlen else p
/-- The causes of FRUN (R176). -/
def runFail (c : Chain) (xb yb db n : Nat) : Option Nat :=
  let rows := cdiv n c.rowlen
  let e (p : Nat) := extent rows c.rowlen (c.pitch p) n
  if n = 0 ∨ 2 ^ 20 < n ∨ (c.dsc ≠ 0 ∧ n % blockOf c.dsc ≠ 0) then some 6
  else if placeBad c.xkind c.xfmt xb (e c.xpitch) ∨ (c.ykind ≠ 3 ∧ placeBad c.ykind c.yfmt yb (e c.ypitch)) then some 7
  else if c.dkind ≠ 0 ∧ placeBad c.dkind c.dfmt db (e c.dpitch) then some 8
  else if 512 < rows ∧ (c.rop ≠ 0 ∨ c.namesP) then some 9
  else if c.dsc ≠ 0 ∧ 1024 < n / blockOf c.dsc then some 0xA
  else none
/-- Check and translate every page of a range, granule by granule (R177). -/
def Mod.pagesOf (m : Mod) (c : Nat) (pgtab : Bool) : Nat → Nat → Nat → Ex (List (Place × Nat) × Mod)
  | 0, _, _ => .ok ([], m)
  | k + 1, va, n =>
    if n = 0 then .ok ([], m)
    else do
      let l := min n (2 ^ 16 - va % 2 ^ 16)
      let (p, m1) ← m.xlat c pgtab .write va l
      match p with
      | .loc _ => do
        let (ps, m2) ← m1.pagesOf c pgtab k (va + l) (n - l)
        .ok ((p, l) :: ps, m2)
      | _ => .error (xltStop 0x03 .write 0 0 va)
/-- FRUN (R175 to R178): a spool destination through a glove raises PERM (R269), and through a control cap the translation exception of an access
that the space does not allow (R267). -/
def bodyFrun (c : Nat) (f : BitVec 26) (m : Mod) : Body := do
  legal (fld f 21 0 == 0) 0x38 0
  let (a, m1) ← m.peek c 4
  let k := m1.core c
  let slot := fld f 25 22
  let n := (a.getD 0 0).toNat
  let db := (a.getD 1 0).toNat
  let yb := (a.getD 2 0).toNat
  let xb := (a.getD 3 0).toNat
  match Tab.get? k.fin.slots slot with
  | none => .error (finStop 1 0x38 slot 0)
  | some d =>
    let ch := chainOf d
    match runFail ch xb yb db n with
    | some cause => .error (finStop cause 0x38 slot 0)
    | none =>
      if k.unitsHeld || decide (4 ≤ k.fin.queue.length) then .error .hold
      else do
        let len := cdiv (extent (cdiv n ch.rowlen) ch.rowlen (ch.pitch ch.dpitch) n * codeBits ch.dfmt) 8
        let (ps, m2) ← if ch.dkind = 3 then do
            let cap := k.bank.cap 1
            capCheck cap 1 13 pWR db len
            if cap.type = 2 then .error (capStop 3 13 1 db len)
            else if cap.type = 1 then .error (xltStop 0x03 .write 0 0 db)
            else do
              let (ps, m2) ← m1.pagesOf c (cap.has pPGTAB) (len / 2 ^ 16 + 2) db len
              m2.wtabCheck c cap 1 13 db len ps
              .ok (ps, m2)
          else .ok ([], m1)
        let m3 ← m2.repl c 4 []
        let p : FinPass := { slot := slot, desc := d, xbase := xb, ybase := yb, dbase := db, count := n, pc := k.bank.pc.toNat, seq := k.seq, ranges := ps }
        .ok (m3.updCore c fun k => { k with seq := k.seq + 1, fin := { k.fin with queue := k.fin.queue ++ [p] } }, .next, 1)
/-- The command of `bodyFrun`. -/
def rowFrun (c : CoreId) (f : BitVec 26) (m : Mod) : Mod := m.issue c.val 0x38 0 (bodyFrun c.val f)
/-- FWAIT: waits until every earlier FRUN is complete. -/
def bodyFwait (c : Nat) (f : BitVec 26) (m : Mod) : Body := do
  legal (fld f 25 0 == 0) 0x39 0
  let k := m.core c
  if k.unitsHeld || !k.fin.queue.isEmpty || k.fin.running.isSome then .error .hold else .ok (m, .next, 1)
/-- The command of `bodyFwait`. -/
def rowFwait (c : CoreId) (f : BitVec 26) (m : Mod) : Mod := m.issue c.val 0x39 0 (bodyFwait c.val f)

/-! ## Passes (R158 to R172) -/

/-- Bits of the element at a position of a source. -/
def srcBits (k : Core) (bolt : Tab Byte) (kind fmt base pos : Nat) : Nat :=
  let n := codeBits fmt / 8
  match kind with
  | 0 => if fmt = 9 then accWord k.mat.acc (base + 2 * pos) + accWord k.mat.acc (base + 2 * pos + 1) * 2 ^ 32 else accWord k.mat.acc (base + pos)
  | 1 => ofLe (Memory.bytes k.vec.regs (base + n * pos) n)
  | _ => ofLe (Memory.bytes bolt (base + n * pos) n)
/-- FP32 bits of an element (R160): FP32 keeps its bits. -/
def widen (fmt b : Nat) : Nat := if fmt = 8 then b else fp32.round false (codeVal fmt b)
/-- FP32 bits of a value rounded as a stage does: to FP32, or to BF16 (R160). -/
def stageRound (prec : Bool) (v : Fl) : Nat := if prec then bf16.round false v * 2 ^ 16 else fp32.round false v
/-- Bits that a stage copies: as they are, or rounded to BF16. -/
def stageCopy (prec : Bool) (b : Nat) : Nat := if prec then stageRound true (fp32.decode b) else b
/-- ABS and NEG of an operand byte (R170). A NaN that negation produces is canonical (R129). -/
def modBits (op b : Nat) : Nat :=
  let b1 := if op.testBit 6 then b % 2 ^ 31 else b
  if op.testBit 7 then (if (fp32.decode b1).isNan then fp32.nanBits else nxor b1 (2 ^ 31)) else b1
/-- Results and E outputs of the stages before, the element's own values and the constants: the value of an operand byte. -/
def operand (x y p : Nat) (res es consts : List Nat) (op : Nat) : Nat :=
  let s := op % 64
  modBits op (match s with
    | 0 => x | 1 => y | 2 => p | 3 => 0
    | _ => if s < 0x10 then res.getD (s - 8) 0 else if s < 0x18 then es.getD (s - 0x10) 0 else consts.getD (s - 0x20) 0)
/-- The scaling of R166. -/
def sclVal (scl : Nat) (v : Fl) : Fl := Fl.mul v (match scl with | 1 => Fl.pow2 (-1) | 2 => Fl.pow2 1 | 3 => Fl.pow2 (-2) | _ => Fl.pow2 0)
/-- One stage (R165 to R169): result, E output, and whether it produced a NaN (R171). -/
def stage (prec : Bool) (w : W64) (val : Nat → Nat) : Nat × Nat × Bool :=
  let op := fld w 63 60
  let sub := fld w 57 55
  let a := val (fld w 31 24)
  let b := val (fld w 23 16)
  let c := val (fld w 15 8)
  let va := fp32.decode a
  let vb := fp32.decode b
  let vc := fp32.decode c
  let rnd (v : Fl) := stageRound prec v
  let r := match op with
    | 0 => stageCopy prec a
    | 1 => rnd (sclVal (fld w 59 58) (Fl.add va vb))
    | 2 => rnd (sclVal (fld w 59 58) (Fl.mul va vb))
    | 3 => rnd (sclVal (fld w 59 58) (Fl.fma va vb vc))
    | 4 => rnd (Fl.min2 va vb)
    | 5 => rnd (Fl.max2 va vb)
    | 6 => rnd (if relFp (match sub with | 0 => 0 | 1 => 2 | 2 => 3 | _ => 4) va vb then .fin false 1 0 else Fl.zero)
    | 7 => stageCopy prec (if va.isNan || va.isZero then c else b)
    | 8 => rnd (Fl.split (sub == 1) va).1
    | _ => rnd (Fl.ins (sub == 1) va vb vc)
  let e := if op = 8 then fp32.round false (Fl.ofInt (Fl.split (sub == 1) va).2) else 0
  let used := [va, vb, vc].take (opArity op)
  (r, e, (fp32.decode r).isNan && !used.any Fl.isNan)
/-- All stages of one element: results, and the first stage that produced a NaN with how many did. -/
def runStages (c : Chain) (consts : List Nat) (x y p : Nat) : List Nat × Option Nat × Nat :=
  let r := (c.stages.take c.nstg).zipIdx.foldl (fun (a : List Nat × List Nat × Option Nat × Nat) w =>
    let q := stage c.prec w.1 (operand x y p a.1 a.2.1 consts)
    (a.1 ++ [q.1], a.2.1 ++ [q.2.1], (if q.2.2 ∧ a.2.2.1 = none then some w.2 else a.2.2.1), a.2.2.2 + b2n q.2.2)) ([], [], none, 0)
  (r.1, r.2.2.1, r.2.2.2)
/-- The reduction of a row (R164): FP32 bits. -/
def reduceRow (rop : Nat) (vs : List Nat) : Nat :=
  let groups : List (List (Option Fl)) := (upto (cdiv vs.length 64)).map fun g =>
    let l := ((vs.drop (64 * g)).take 64).map fun v => some (fp32.decode v)
    l ++ List.replicate (64 - l.length) none
  let rnd (v : Fl) : Fl := fp32.decode (fp32.round false v)
  let sum : Option Fl → Option Fl → Option Fl := fun a b => some (rnd (Fl.add (a.getD Fl.zero) (b.getD Fl.zero)))
  let pick (op : Fl → Fl → Fl) : Option Fl → Option Fl → Option Fl := fun a b =>
    match a, b with | none, b => b | a, none => a | some a, some b => some (op a b)
  let op := match rop with | 1 => sum | 2 => pick Fl.max2 | _ => pick Fl.min2
  let r := (groups.map fun l => (pairUp op 6 l).headD none).foldl op (if rop = 1 then some Fl.zero else none)
  fp32.round false (r.getD Fl.zero)
/-- Elements per group of a pass (R161, R178). -/
def Chain.group (c : Chain) : Nat := if c.isMove then 32 else if c.prec then 128 else 64
/-- Blocks of a pass with output scales. -/
def FinPass.blocks (p : FinPass) (c : Chain) : Nat := if c.dsc = 0 then 0 else p.count / blockOf c.dsc
/-- One element of a pass (R158 to R172); `sc` is the scale byte of its block. -/
def evalElem (k : Core) (c : Chain) (consts : List Nat) (p : FinPass) (sc i : Nat) : ElemRes :=
  let r := i / c.rowlen
  let x := srcBits k k.bolt c.xkind c.xfmt p.xbase (r * c.pitch c.xpitch + i % c.rowlen)
  if c.isMove then { out := x }
  else
    let y := if c.ykind = 3 then 0 else widen c.yfmt (srcBits k k.bolt c.ykind c.yfmt p.ybase (r * c.pitch c.ypitch + i % c.rowlen))
    let q := runStages c consts (widen c.xfmt x) y (vGet k.vec.regs c.pv 4 r)
    let o := q.1.getD c.out 0
    let v := if c.dsc = 0 then (if c.dfmt = 8 then (o, false) else codeConv c.dfmt (fp32.decode o))
      else convRt c.dfmt (Rt.quot (fp32.decode o) (scaleVal c.dsc sc))
    { out := v.1, ovf := v.2, tap := q.1.getD c.rtap 0, nan := q.2.1, nans := q.2.2 }
/-- The elements of a pass whose groups have not been read are read and computed; the scale byte of a block is read with its first element. -/
def Core.evalRest (k : Core) (p : FinPass) : FinPass :=
  let c := chainOf p.desc
  let consts := c.consts.map fun v => if c.prec then stageRound true (fp32.decode v) else v
  let s := max 1 (blockOf c.dsc)
  let scs := (upto (p.blocks c)).map fun b =>
    if b * s < p.res.length then p.scs.getD b 0 else (Memory.byte k.vec.regs (2048 * c.osv + b)).toNat
  { p with scs := scs, res := p.res ++ ((upto p.count).drop p.res.length).map fun i => evalElem k c consts p (scs.getD (i / s) 0) i }
/-- Byte ranges, row by row, of the elements from `lo` to `count` of a place (R158): columns between the rows are no part of them. -/
def rowRuns (fmt base rowlen pitch lo count : Nat) : List (Nat × Nat) :=
  (upto (cdiv count rowlen)).filterMap fun r =>
    let a := max lo (r * rowlen)
    let e := min count ((r + 1) * rowlen)
    if e ≤ a then none
    else
      let x := (r * pitch + (a - r * rowlen)) * codeBits fmt
      let y := (r * pitch + (e - r * rowlen)) * codeBits fmt
      some (base + x / 8, cdiv y 8 - x / 8)
/-- Bolt ranges that the unread elements of a pass read. -/
def FinPass.boltRuns (p : FinPass) : List (Nat × Nat) :=
  let c := chainOf p.desc
  (if c.xkind = 2 then rowRuns c.xfmt p.xbase c.rowlen (c.pitch c.xpitch) p.res.length p.count else []) ++
  (if c.ykind = 2 then rowRuns c.yfmt p.ybase c.rowlen (c.pitch c.ypitch) p.res.length p.count else [])
/-- Two ascending lists of ranges meet. -/
def runsMeet : Nat → List (Nat × Nat) → List (Nat × Nat) → Bool
  | 0, _, _ => false
  | _ + 1, [], _ => false
  | _ + 1, _, [] => false
  | n + 1, a :: s, b :: t => meet a.1 a.2 b.1 b.2 || (if a.1 + a.2 ≤ b.1 + b.2 then runsMeet n s (b :: t) else runsMeet n (a :: s) t)
/-- The destination overlaps a source otherwise than with the same base, pitch and element width (R179). -/
def FinPass.overlaps (p : FinPass) : Bool :=
  let c := chainOf p.desc
  let ds := rowRuns c.dfmt p.dbase c.rowlen (c.pitch c.dpitch) 0 p.count
  let src (kind fmt base pitch : Nat) : Bool :=
    (kind == 1 || kind == 2) && kind == c.dkind &&
    !(base == p.dbase && c.pitch pitch == c.pitch c.dpitch && codeBits fmt == codeBits c.dfmt) &&
    (let ss := rowRuns fmt base c.rowlen (c.pitch pitch) 0 p.count
     runsMeet (ss.length + ds.length) ss ds)
  src c.xkind c.xfmt p.xbase c.xpitch || src c.ykind c.yfmt p.ybase c.ypitch
/-- A pass reads the rest of its elements. Destination values that R179 leaves undefined are free (log 6). -/
def Mod.readPass (m : Mod) (c : Nat) (p : FinPass) : FinPass × Mod :=
  let q := (m.core c).evalRest p
  if p.overlaps then
    ({ q with res := q.res.zipIdx.map fun e =>
        if e.2 < p.res.length then e.1 else { e.1 with out := (Config.freeWord (m.freeCtr + e.2)).toNat % 2 ^ codeBits (chainOf p.desc).dfmt } },
     { m with freeCtr := m.freeCtr + p.count })
  else (q, m)
/-- A pass begins or goes on: it reads the rest of its elements, and an uncorrectable granule of the bolt leaves UERR pending (R341). -/
def Mod.runPass (m : Mod) (c : Nat) (p : FinPass) : Mod :=
  let r := m.boltCheck c p.boltRuns
  let q := r.2.readPass c p
  q.2.updCore c fun k =>
    let k1 := { k with fin := { k.fin with running := some q.1 } }
    if r.1 then k1.addPend 9 else k1
/-- FIN_PASS_START: the oldest queued pass reads its sources once they are ready (R106, R108, R178). Errors may have come into granules of the
bolt before the read (R341). -/
def rowFinPassStart (c : CoreId) (bad : BoltErrs) (m : Mod) : Mod :=
  let m := m.boltErrors c.val bad
  let k := m.core c.val
  match k.fin.queue, k.fin.running with
  | p :: t, none =>
    if k.unitsHeld || k.blocked p.seq p.foot false then m
    else
      let m1 := (m.updCore c.val fun k => { k with fin := { k.fin with queue := t } }).runPass c.val p
      (m1.updCore c.val fun k => k.settleZeros zeroMax).evCore c.val 0x0C (cdiv p.count (chainOf p.desc).group)
  | _, _ => m
/-- Bytes of elements by position, in a code: offset from the base and byte; a lone half keeps its other half (R120). -/
def placeBytes (code : Nat) (old : Nat → Byte) (es : List (Nat × Nat)) : Tab Byte :=
  if codeBits code = 4 then
    es.foldl (fun t e =>
      let b := ((Tab.get? t (e.1 / 2)).getD (old (e.1 / 2))).toNat
      Tab.put t (e.1 / 2) (BitVec.ofNat 8 (if e.1 % 2 = 0 then b / 16 * 16 + e.2 % 16 else b % 16 + e.2 % 16 * 16))) []
  else es.flatMap fun e => (toLe (codeBits code / 8) e.2).zipIdx.map fun b => (e.1 * (codeBits code / 8) + b.2, b.1)
/-- Write single bytes of a range of memory through a shuttle (R159, R179). -/
def Mod.finStore (m : Mod) (ps : List (Place × Nat)) (bs : Tab Byte) : Mod :=
  let runs := runsOf 1 (bs.map (·.1))
  (cutRuns ps runs).foldl (fun m p => match p.1 with
    | .loc pa => m.ncWrite (pa + p.2.1) ((upto p.2.2.2).map fun i => Tab.get 0 bs (p.2.2.1 + i))
    | _ => m) m
/-- The elements from `lo` to `hi` of a pass are written to its destination (R159, R162, R179). -/
def Mod.writeElems (m : Mod) (c : Nat) (p : FinPass) (lo hi : Nat) : Mod :=
  let k := m.core c
  let ch := chainOf p.desc
  let dpos (i : Nat) := i / ch.rowlen * ch.pitch ch.dpitch + i % ch.rowlen
  let es := ((p.res.take hi).zipIdx.drop lo).map fun e => (dpos e.2, e.1.out)
  let memOld (o : Nat) : Byte :=
    match (cutRuns p.ranges [(o, 1)]).head? with
    | some (.loc pa, d, _, _) => Memory.byte m.mem (pa + d)
    | _ => 0
  let bs := placeBytes ch.dfmt (fun o => match ch.dkind with
    | 1 => Memory.byte k.vec.regs (p.dbase + o) | 2 => Memory.byte k.bolt (p.dbase + o) | _ => memOld o) es
  match ch.dkind with
  | 0 => m
  | 1 => m.updCore c fun k => { k with vec := { k.vec with regs := bs.foldl (fun t b => Memory.setByte t (p.dbase + b.1) b.2) k.vec.regs } }
  | 2 => m.updCore c fun k => (runsOf 1 (bs.map (·.1))).foldl (fun (k : Core) (r : Nat × Nat) =>
      k.boltWrite (p.dbase + r.1) ((upto r.2).map fun i => Tab.get 0 bs (r.1 + i))) k
  | _ => m.finStore p.ranges bs
/-- Row results, next scales and overflow flags of a pass (R162 to R164). -/
def Core.writeRows (k : Core) (p : FinPass) : Core :=
  let ch := chainOf p.desc
  let taps := p.res.map (·.tap)
  let rows := if ch.rop = 0 then [] else (upto (cdiv p.count ch.rowlen)).map fun r => (r, reduceRow ch.rop ((taps.drop (r * ch.rowlen)).take ch.rowlen))
  let flag (b : Nat) : Bool := ((p.res.drop (b * blockOf ch.dsc)).take (blockOf ch.dsc)).any (·.ovf)
  let next := p.scs.zipIdx.map fun b => if flag b.2 then doubleScale ch.dsc b.1 else b.1
  let regs := rows.foldl (fun t r => Memory.setBytes t (2048 * ch.rv + 4 * r.1) (toLe 4 r.2)) k.vec.regs
  let masks := if ch.dsc = 0 then k.vec.masks
    else Tab.put k.vec.masks ch.omf (maskSet (Tab.get 0 k.vec.masks ch.omf) ((upto (p.blocks ch)).map fun b => (b, flag b)))
  { k with vec := { k.vec with regs := Memory.setBytes regs (2048 * ch.osv + 1024) (next.map (BitVec.ofNat 8)), masks := masks } }
/-- The produced NaNs of a pass: FIN_CNT3 and FIN_NANORG, whose MORE falls by a written 1 alone (R11, R171, R172). -/
def Core.passNans (k : Core) (p : FinPass) : Core :=
  let n := (p.res.map (·.nans)).sum
  let k1 := k.incCregBy 0x3058 n
  match p.res.zipIdx.findSome? fun e => e.1.nan.map fun st => (e.2, st) with
  | none => k1
  | some (i, st) =>
    if k1.cregf 0x3010 31 31 = 1 then k1.setCregf 0x3010 30 30 1
    else
      let k2 := (k1.setCregf 0x3010 31 31 1).setCregf 0x3010 26 0 (st * 2 ^ 24 + p.slot * 2 ^ 20 + i % 2 ^ 20)
      if 1 < n then k2.setCregf 0x3010 30 30 1 else k2
/-- FIN_PASS_COMPLETE: everything of the pass that is not yet written is written (R162, R163, R172, R179). -/
def rowFinPassComplete (c : CoreId) (m : Mod) : Mod :=
  let k := m.core c.val
  match k.fin.running with
  | none => m
  | some p =>
    if k.unitsHeld then m
    else
      let ch := chainOf p.desc
      let ovf := if ch.dsc = 0 ∧ ch.dkind ≠ 0 then (p.res.filter (·.ovf)).length else 0
      (m.writeElems c.val p p.written p.count).updCore c.val fun k =>
        let k1 := { k.writeRows p with fin := { k.fin with running := none } }
        (((k1.incCregBy 0x3040 1).incCregBy 0x3048 p.count).incCregBy 0x3050 ovf).passNans p |>.settleZeros zeroMax

/-! ## Stopping and going on (R180, R284) -/

/-- The progress field says which units hold stopped work (R286). -/
def Core.progNow (k : Core) : Progress :=
  { k.bank.prog with mstop := (k.mat.patches.any fun p => !p.2.queue.isEmpty), fstop := k.fin.running.isSome }
/-- The running pass stops at a group boundary, at its beginning, its end or between: which one is timing, a free choice (log 6). The groups
before it are written, and what they gave to the row results stays with the pass. -/
def Mod.stopPass (m : Mod) (c : Nat) : Mod :=
  match (m.core c).fin.running with
  | none => m
  | some p =>
    if (m.core c).unitsHeld then m
    else
      let g := (chainOf p.desc).group
      let lo := p.written / g
      let (w, m1) := m.freeW
      let n := min p.count ((lo + w.toNat % (cdiv p.count g - lo + 1)) * g)
      (m1.writeElems c p p.written n).updCore c fun k =>
        { k with fin := { k.fin with running := some { p with res := p.res.take n, written := max p.written n } } }
/-- The units go on once they are no longer held: a stopped pass resumes at its next group, and every MZERO that need not wait acts (R180, R285). -/
def Mod.resumeUnits (m : Mod) (c : Nat) : Mod :=
  let m1 := match (m.core c).fin.running with
    | none => m
    | some p => if p.res.length < p.count then m.runPass c p else m
  m1.updCore c fun k => k.settleZeros zeroMax

end Sys2Proof.Machine
end

