-- ==== Sys2Proof/Machine/Scalar.lean ====
section
/-! DEFINITION. Scalar instructions without memory access: SYS, LIT, LITH, ADDI, ALU, STK, CAP, control transfer and loops (R230 to
R235, R238, R240, R241, R245; R257 for their stitches). Each is given by its field [25:0]. -/

namespace Sys2Proof.Machine

/-- Issue an instruction whose row names its FUNC: the field with those bits set. -/
def withFunc (f : BitVec 26) (fn : Nat) : BitVec 26 := setFld f 5 0 fn

/-! ## SYS (R230, R279, R291 to R293) -/

/-- NOP. -/
def bodyNop (_c : Nat) (f : BitVec 26) (m : Mod) : Body := do
  legal (fld f 25 6 == 0) 0x00 0
  .ok (m, .next, 1)
/-- The command of `bodyNop`. -/
def rowNop (c : CoreId) (f : BitVec 26) (m : Mod) : Mod := m.issue c.val 0x00 0x00 (bodyNop c.val f)
/-- TRAP (R229, R230). -/
def bodyTrap (_c : Nat) (f : BitVec 26) (_m : Mod) : Body := do
  legal (fld f 9 6 == 0) 0x00 4
  .error (serrStop 0x06 0x00 0x04 (fld f 25 10))
/-- The command of `bodyTrap`. -/
def rowTrap (c : CoreId) (f : BitVec 26) (m : Mod) : Mod := m.issue c.val 0x00 0x04 (bodyTrap c.val f)
/-- Every earlier store, MADD and SHPOST of the core is visible and every earlier load has its value (R291, R375, R403, R468). -/
def Mod.drained (m : Mod) (c : Nat) : Bool :=
  let k := m.core c
  k.sb.isEmpty && k.due.isNone && !m.postedOut c && !(k.vec.stations.any fun s => s.isStore && !s.held) &&
  !(k.vec.stations.any fun s => s.isLoad && !s.held) && !(m.spl.adds.any fun a => a.core == c) &&
  (match k.bank.load with | some l => l.arrived | none => true)
/-- SYNC and SYNC.I: after the drain every control-register write has taken effect and the piece runs the current microcode copy
(R253, R291); SYNC.I also empties the L1 instruction cache (R293). -/
def bodySync (instr : Bool) (c : Nat) (f : BitVec 26) (m : Mod) : Body := do
  legal (fld f 25 6 == 0) 0x00 (if instr then 2 else 1)
  .ok (m.updCore c fun k0 =>
    let k := k0.settle
    let k1 := { k with uc := { k.uc with useOld := false } }
    if instr then { k1 with mem := { k1.mem with l1i := [] } } else k1, .next, if instr then 24 else 6)
/-- SYNC. -/
def rowSync (c : CoreId) (f : BitVec 26) (m : Mod) : Mod :=
  if m.drained c.val then m.issue c.val 0x00 0x01 (bodySync false c.val f) else m
/-- SYNC.I. -/
def rowSyncI (c : CoreId) (f : BitVec 26) (m : Mod) : Mod :=
  if m.drained c.val then m.issue c.val 0x00 0x02 (bodySync true c.val f) else m
/-- ERET (R279): with no handler active it is ILLEGAL. -/
def bodyEret (c : Nat) (f : BitVec 26) (m : Mod) : Body := do
  legal (fld f 25 6 == 0 && (m.core c).excDepth != 0) 0x00 3
  .ok ((m.leave c).resumeUnits c, .set, 5)
/-- The command of `bodyEret`. -/
def rowEret (c : CoreId) (f : BitVec 26) (m : Mod) : Mod := m.issue c.val 0x00 0x03 (bodyEret c.val f)

/-! ## LIT, LITH, ADDI (R231, R232) -/

/-- LIT. -/
def bodyLit (c : Nat) (f : BitVec 26) (m : Mod) : Body := do
  legal (fld f 25 24 == 0) 0x01 0
  let m1 ← m.push c (w64i (sNat 24 (fld f 23 0)))
  .ok (m1, .next, 1)
/-- The command of `bodyLit`. -/
def rowLit (c : CoreId) (f : BitVec 26) (m : Mod) : Mod := m.issue c.val 0x01 0 (bodyLit c.val f)
/-- The value of LITH. -/
def lithVal (p imm : Nat) (x : W64) : W64 :=
  if p = 0 then w64i (sNat 24 imm * 2 ^ 24 + (fld x 23 0 : Int)) else setFld x 63 48 imm
/-- LITH. -/
def bodyLith (c : Nat) (f : BitVec 26) (m : Mod) : Body := do
  legal (fld f 25 24 == 0 || (fld f 25 24 == 1 && fld f 23 16 == 0)) 0x02 0
  let (a, m1) ← m.peek c 1
  let m2 ← m1.repl c 1 [lithVal (fld f 25 24) (fld f 23 0) (a.headD 0)]
  .ok (m2, .next, 1)
/-- The command of `bodyLith`. -/
def rowLith (c : CoreId) (f : BitVec 26) (m : Mod) : Mod := m.issue c.val 0x02 0 (bodyLith c.val f)
/-- ADDI. -/
def bodyAddi (c : Nat) (f : BitVec 26) (m : Mod) : Body := do
  let (a, m1) ← m.peek c 1
  let m2 ← m1.repl c 1 [a.headD 0 + w64i (sNat 26 f.toNat)]
  .ok (m2, .next, 1)
/-- The command of `bodyAddi`. -/
def rowAddi (c : CoreId) (f : BitVec 26) (m : Mod) : Mod := m.issue c.val 0x04 0 (bodyAddi c.val f)

/-! ## ALU (R233, R234) -/

/-- A flag. -/
def flag64 (b : Bool) : W64 := if b then 1 else 0
/-- Functions of one operand and SH. -/
def alu1 (fn sh : Nat) (a : W64) : Option W64 :=
  match fn with
  | 0x0C => some (~~~ a)
  | 0x0D => some (0 - a)
  | 0x11 => some (a <<< sh)
  | 0x12 => some (a >>> sh)
  | 0x13 => some (a.sshiftRight sh)
  | 0x1E => some (w64i (sNat (sh + 1) a.toNat))
  | 0x1F => some (w64 (a.toNat % 2 ^ (sh + 1)))
  | 0x20 => some (match highBit 64 a.toNat with | some i => w64 (63 - i) | none => 64)
  | 0x21 => some (w64 (lowBit 64 a.toNat))
  | 0x22 => some (w64 (popN 64 a.toNat))
  | _ => none
/-- Functions of two operands, a below b. -/
def alu2 (fn : Nat) (a b : W64) : Option W64 :=
  let sh := b.toNat % 64
  match fn with
  | 0x00 => some (a + b)
  | 0x01 => some (a - b)
  | 0x02 => some (a * b)
  | 0x03 => some (w64i (a.toInt * b.toInt / 2 ^ 64))
  | 0x04 => some (w64 (a.toNat * b.toNat / 2 ^ 64))
  | 0x05 => some (if b = 0 then BitVec.allOnes 64 else w64i (a.toInt.tdiv b.toInt))
  | 0x06 => some (if b = 0 then BitVec.allOnes 64 else w64 (a.toNat / b.toNat))
  | 0x07 => some (if b = 0 then a else w64i (a.toInt.tmod b.toInt))
  | 0x08 => some (if b = 0 then a else w64 (a.toNat % b.toNat))
  | 0x09 => some (a &&& b)
  | 0x0A => some (a ||| b)
  | 0x0B => some (a ^^^ b)
  | 0x0E => some (a <<< sh)
  | 0x0F => some (a >>> sh)
  | 0x10 => some (a.sshiftRight sh)
  | 0x14 => some (flag64 (a == b))
  | 0x15 => some (flag64 (a != b))
  | 0x16 => some (flag64 (a.slt b))
  | 0x17 => some (flag64 (a.ult b))
  | 0x18 => some (flag64 (a.sle b))
  | 0x19 => some (flag64 (a.ule b))
  | 0x1A => some (if b.slt a then b else a)
  | 0x1B => some (if a.slt b then b else a)
  | 0x1C => some (if b.ult a then b else a)
  | 0x1D => some (if a.ult b then b else a)
  | _ => none
/-- Operands of an ALU function; none where the code is reserved. -/
def aluArity (fn : Nat) : Option Nat :=
  if fn = 0x23 then some 3 else if (alu1 fn 0 0).isSome then some 1 else if (alu2 fn 0 0).isSome then some 2 else none
/-- The function uses SH. -/
def aluUsesSh (fn : Nat) : Bool := [0x11, 0x12, 0x13, 0x1E, 0x1F].contains fn
/-- The result of an ALU function on its operands, top first. -/
def aluVal (fn sh : Nat) (a : List W64) : W64 :=
  match aluArity fn with
  | some 1 => (alu1 fn sh (a.headD 0)).getD 0
  | some 2 => (alu2 fn (a.getD 1 0) (a.headD 0)).getD 0
  | _ => if a.headD 0 = 0 then a.getD 1 0 else a.getD 2 0
/-- Stitches of an ALU function. -/
def aluSt (fn : Nat) : Nat := if 5 ≤ fn ∧ fn ≤ 8 then 34 else 1
/-- ALU. -/
def bodyAlu (c : Nat) (f : BitVec 26) (m : Mod) : Body := do
  let fn := fld f 5 0
  legal (fld f 25 12 == 0 && (aluArity fn).isSome && (aluUsesSh fn || fld f 11 6 == 0)) 0x03 fn
  let n := (aluArity fn).getD 0
  let (a, m1) ← m.peek c n
  let m2 ← m1.repl c n [aluVal fn (fld f 11 6) a]
  .ok (m2, .next, aluSt fn)
/-- The command of `bodyAlu`. -/
def rowAlu (c : CoreId) (f : BitVec 26) (m : Mod) : Mod := m.issue c.val 0x03 (fld f 5 0) (bodyAlu c.val f)

/-! ## STK (R235) -/

/-- A stack function on the operand stack alone (R235): entries that must be there, positions from the top that it reads (R296), entries that
it takes off, and what it puts there, top first. -/
structure StkFn where
  need : Nat
  reads : List Nat
  drop : Nat
  puts : List W64 → List W64
/-- The stack functions by code; `n` is PICK's. -/
def stkPure (fn n : Nat) : Option StkFn :=
  let g (a : List W64) (i : Nat) : W64 := a.getD i 0
  match fn with
  | 0x00 => some { need := 1, reads := [0], drop := 0, puts := fun a => [g a 0] }
  | 0x01 => some { need := 1, reads := [], drop := 1, puts := fun _ => [] }
  | 0x02 => some { need := 2, reads := [0, 1], drop := 2, puts := fun a => [g a 1, g a 0] }
  | 0x03 => some { need := 2, reads := [1], drop := 0, puts := fun a => [g a 1] }
  | 0x04 => some { need := 3, reads := [0, 1, 2], drop := 3, puts := fun a => [g a 2, g a 0, g a 1] }
  | 0x05 => some { need := 2, reads := [0], drop := 2, puts := fun a => [g a 0] }
  | 0x06 => some { need := 2, reads := [0, 1], drop := 2, puts := fun a => [g a 0, g a 1, g a 0] }
  | 0x07 => some { need := n + 1, reads := [n], drop := 0, puts := fun a => [g a n] }
  | 0x08 => some { need := 2, reads := [0, 1], drop := 0, puts := fun a => [g a 0, g a 1] }
  | 0x09 => some { need := 2, reads := [], drop := 2, puts := fun _ => [] }
  | _ => none
/-- STK. -/
def bodyStk (c : Nat) (f : BitVec 26) (m : Mod) : Body := do
  let fn := fld f 5 0
  legal (fld f 25 10 == 0 && (fn == 7 || fld f 9 6 == 0) && decide (fn ≤ 0x11)) 0x05 fn
  match stkPure fn (fld f 9 6) with
  | some g => do
    let (a, m1) ← m.peekAt c g.need g.reads
    let m2 ← m1.repl c g.drop (g.puts a)
    .ok (m2, .next, 1)
  | none =>
    let b := (m.core c).bank
    match fn with
    | 0x0A => do
      let (a, m1) ← m.pop c 1
      let m2 ← m1.rpush c (a.headD 0)
      .ok (m2, .next, 1)
    | 0x0B => do
      loopCheck b 1 0x05 fn
      let (v, m1) ← m.rpop c
      let m2 ← m1.push c v
      .ok (m2, .next, 1)
    | 0x0C => do
      let (v, m1) ← m.rpeek c
      let m2 ← m1.push c v
      .ok (m2, .next, 1)
    | 0x0D => do
      let m1 ← m.push c (w64 b.depth)
      .ok (m1, .next, 1)
    | 0x0E => do
      let m1 ← m.push c (w64 b.rdepth)
      .ok (m1, .next, 1)
    | 0x0F => do
      let m1 ← m.push c (match b.loop with | some l => l.cnt | none => 0)
      .ok (m1, .next, 1)
    | 0x10 => do
      let m1 ← m.push c (match b.loop with | some l => l.done | none => 0)
      .ok (m1, .next, 1)
    | _ => do
      let m1 ← m.push c b.pc
      .ok (m1, .next, 1)
/-- The command of `bodyStk`. -/
def rowStk (c : CoreId) (f : BitVec 26) (m : Mod) : Mod := m.issue c.val 0x05 (fld f 5 0) (bodyStk c.val f)

/-! ## CAP (R228, R238, R264, R268) -/

/-- Fields CD, CS and CK of a CAP instruction are zero where it does not use them. -/
def capFields (fn : Nat) (f : BitVec 26) : Bool :=
  let d := fld f 25 23 == 0
  let s := fld f 22 20 == 0
  let k := fld f 19 17 == 0
  fld f 16 6 == 0 &&
  (match fn with
   | 0x00 => k
   | 0x06 => k
   | 0x07 => k
   | 0x08 => true
   | 0x09 => true
   | 0x0A => s && k
   | _ => decide (fn ≤ 0x0B) && d && k)
/-- A failure of a cap instruction (R228). -/
def capInstr (cause ix addr : Nat) : Stop := capStop cause 10 ix addr 0
/-- The tag and seal checks of a cap instruction. -/
def capUsable (cp : Cap) (ix addr : Nat) (sealOk : Bool) : Ex Unit :=
  if !cp.tag then .error (capInstr 1 ix addr) else if cp.otype ≠ 0 ∧ !sealOk then .error (capInstr 2 ix addr) else .ok ()
/-- A cap with another range. -/
def Cap.setRange (c : Cap) (base len : Nat) : Cap :=
  if c.isGlove then { c with bits := setFld (setFld c.bits 81 48 len) 47 0 base } else { c with bits := setFld (setFld c.bits 95 48 len) 47 0 base }
/-- CAP: one function of R238. -/
def bodyCap (fn : Nat) (c : Nat) (f : BitVec 26) (m : Mod) : Body := do
  legal (capFields fn f) 0x0A fn
  let b := (m.core c).bank
  let cd := fld f 25 23
  let cs := fld f 22 20
  let ck := fld f 19 17
  let s := b.cap cs
  let put (m : Mod) (x : Cap) : Mod := m.updBank c fun b => b.setCap cd x
  let get (v : Nat) : Body := do
    let m1 ← m.push c (w64 v)
    .ok (m1, .next, 1)
  match fn with
  | 0x00 => .ok (put m s, .next, 1)
  | 0x01 => get s.base
  | 0x02 => get s.len
  | 0x03 => get s.perms
  | 0x04 => get s.otype
  | 0x05 => get (b2n s.tag)
  | 0x06 => do
    let (a, m1) ← m.peek c 2
    let base := (a.getD 1 0).toNat
    let len := (a.headD 0).toNat
    capUsable s cs base false
    if base < s.base ∨ s.top < base + len then .error (capInstr 4 cs base)
    else do
      let m2 ← m1.repl c 2 []
      .ok (put m2 (s.setRange base len), .next, 1)
  | 0x07 => do
    let (a, m1) ← m.peek c 1
    capUsable s cs 0 false
    let m2 ← m1.repl c 1 []
    .ok (put m2 { s with bits := setFld s.bits 123 112 (s.perms &&& (a.headD 0).toNat) }, .next, 1)
  | 0x08 => do
    let k := b.cap ck
    capUsable s cs 0 false
    capUsable k ck 0 false
    if !k.has pSEAL then .error (capInstr 3 ck 0)
    else if s.isGlove ∨ k.isGlove ∨ k.base = 0 ∨ 65535 < k.base then .error (capInstr 6 ck 0)
    else .ok (put m { s with bits := setFld s.bits 111 96 k.base }, .next, 1)
  | 0x09 => do
    let k := b.cap ck
    capUsable s cs 0 true
    capUsable k ck 0 false
    if !k.has pUNSEAL then .error (capInstr 3 ck 0)
    else if s.isGlove ∨ k.isGlove ∨ s.otype = 0 ∨ k.base ≠ s.otype then .error (capInstr 6 ck 0)
    else .ok (put m { s with bits := setFld s.bits 111 96 0 }, .next, 1)
  | 0x0A => .ok (put m { b.cap cd with tag := false }, .next, 1)
  | _ => do
    let (a, m1) ← m.peek c 2
    let x := (a.getD 1 0).toNat
    let n := (a.headD 0).toNat
    let m2 ← m1.repl c 2 [flag64 (s.tag && s.otype == 0 && decide (s.base ≤ x) && decide (x + n ≤ s.top))]
    .ok (m2, .next, 1)
/-- CMOV. -/
def rowCmov (c : CoreId) (f : BitVec 26) (m : Mod) : Mod := m.issue c.val 0x0A 0x00 (bodyCap 0x00 c.val (withFunc f 0x00))
/-- CGETBASE. -/
def rowCgetbase (c : CoreId) (f : BitVec 26) (m : Mod) : Mod := m.issue c.val 0x0A 0x01 (bodyCap 0x01 c.val (withFunc f 0x01))
/-- CGETLEN. -/
def rowCgetlen (c : CoreId) (f : BitVec 26) (m : Mod) : Mod := m.issue c.val 0x0A 0x02 (bodyCap 0x02 c.val (withFunc f 0x02))
/-- CGETPERM. -/
def rowCgetperm (c : CoreId) (f : BitVec 26) (m : Mod) : Mod := m.issue c.val 0x0A 0x03 (bodyCap 0x03 c.val (withFunc f 0x03))
/-- CGETOTYPE. -/
def rowCgetotype (c : CoreId) (f : BitVec 26) (m : Mod) : Mod := m.issue c.val 0x0A 0x04 (bodyCap 0x04 c.val (withFunc f 0x04))
/-- CGETTAG. -/
def rowCgettag (c : CoreId) (f : BitVec 26) (m : Mod) : Mod := m.issue c.val 0x0A 0x05 (bodyCap 0x05 c.val (withFunc f 0x05))
/-- CBOUND. -/
def rowCbound (c : CoreId) (f : BitVec 26) (m : Mod) : Mod := m.issue c.val 0x0A 0x06 (bodyCap 0x06 c.val (withFunc f 0x06))
/-- CPERM. -/
def rowCperm (c : CoreId) (f : BitVec 26) (m : Mod) : Mod := m.issue c.val 0x0A 0x07 (bodyCap 0x07 c.val (withFunc f 0x07))
/-- CSEAL. -/
def rowCseal (c : CoreId) (f : BitVec 26) (m : Mod) : Mod := m.issue c.val 0x0A 0x08 (bodyCap 0x08 c.val (withFunc f 0x08))
/-- CUNSEAL. -/
def rowCunseal (c : CoreId) (f : BitVec 26) (m : Mod) : Mod := m.issue c.val 0x0A 0x09 (bodyCap 0x09 c.val (withFunc f 0x09))
/-- CCLR. -/
def rowCclr (c : CoreId) (f : BitVec 26) (m : Mod) : Mod := m.issue c.val 0x0A 0x0A (bodyCap 0x0A c.val (withFunc f 0x0A))
/-- CTEST. -/
def rowCtest (c : CoreId) (f : BitVec 26) (m : Mod) : Mod := m.issue c.val 0x0A 0x0B (bodyCap 0x0B c.val (withFunc f 0x0B))

/-! ## Control transfer and loops (R240, R241, R245 to R247) -/

/-- The target of a branch: the instruction's own address plus 4 × offset. -/
def brTarget (pc : W64) (f : BitVec 26) : W64 := pc + w64i (4 * sNat 26 f.toNat)
/-- BR. -/
def bodyBr (c : Nat) (f : BitVec 26) (m : Mod) : Body := .ok (m, .jump (brTarget (m.core c).bank.pc f) true, 3)
/-- The command of `bodyBr`. -/
def rowBr (c : CoreId) (f : BitVec 26) (m : Mod) : Mod := m.issue c.val 0x0C 0 (bodyBr c.val f)
/-- BZ and BNZ: the branch is taken when the popped value is, or is not, zero. -/
def bodyBcond (zero : Bool) (c : Nat) (f : BitVec 26) (m : Mod) : Body := do
  let (a, m1) ← m.pop c 1
  if (a.headD 0 == 0) = zero then .ok (m1, .jump (brTarget (m.core c).bank.pc f) true, 3) else .ok (m1, .next, 1)
/-- BZ. -/
def rowBz (c : CoreId) (f : BitVec 26) (m : Mod) : Mod := m.issue c.val 0x0D 0 (bodyBcond true c.val f)
/-- BNZ. -/
def rowBnz (c : CoreId) (f : BitVec 26) (m : Mod) : Mod := m.issue c.val 0x0E 0 (bodyBcond false c.val f)
/-- CALL. -/
def bodyCall (c : Nat) (f : BitVec 26) (m : Mod) : Body := do
  let pc := (m.core c).bank.pc
  let m1 ← m.rpush c (pc + 4)
  .ok (m1, .jump (brTarget pc f) false, 3)
/-- The command of `bodyCall`. -/
def rowCall (c : CoreId) (f : BitVec 26) (m : Mod) : Mod := m.issue c.val 0x0F 0 (bodyCall c.val f)
/-- RET. -/
def bodyRet (c : Nat) (f : BitVec 26) (m : Mod) : Body := do
  legal (fld f 25 6 == 0) 0x2A 0
  loopCheck (m.core c).bank 1 0x2A 0
  let (t, m1) ← m.rpeek c
  if t.toNat % 4 ≠ 0 then .error (serrStop 0x03 0x2A 0 0)
  else do
    let (_, m2) ← m1.rpop c
    .ok (m2, .jump t false, 3)
/-- The command of `bodyRet`. -/
def rowRet (c : CoreId) (f : BitVec 26) (m : Mod) : Mod := m.issue c.val 0x2A 0x00 (bodyRet c.val (withFunc f 0))
/-- JMPI and CALLI. -/
def bodyJmp (call : Bool) (c : Nat) (f : BitVec 26) (m : Mod) : Body := do
  let fn := if call then 2 else 1
  legal (fld f 25 6 == 0) 0x2A fn
  let pc := (m.core c).bank.pc
  let (a, m1) ← m.peek c 1
  let t := a.headD 0
  if t.toNat % 4 ≠ 0 then .error (serrStop 0x03 0x2A fn 0)
  else do
    let m2 ← m1.repl c 1 []
    if call then do
      let m3 ← m2.rpush c (pc + 4)
      .ok (m3, .jump t false, 3)
    else .ok (m2, .jump t true, 3)
/-- JMPI. -/
def rowJmpi (c : CoreId) (f : BitVec 26) (m : Mod) : Mod := m.issue c.val 0x2A 0x01 (bodyJmp false c.val (withFunc f 1))
/-- CALLI. -/
def rowCalli (c : CoreId) (f : BitVec 26) (m : Mod) : Mod := m.issue c.val 0x2A 0x02 (bodyJmp true c.val (withFunc f 2))
/-- LOOP (R245). Bit 63 of the packed entry says that the outer loop itself had saved an outer one (log 15). -/
def bodyLoop (c : Nat) (f : BitVec 26) (m : Mod) : Body := do
  legal (fld f 17 0 == 0) 0x2B 0
  let pc := (m.core c).bank.pc.toNat
  let len := fld f 25 18
  let (a, m1) ← m.pop c 1
  let n := a.headD 0
  if n = 0 then .ok (m1, .goto (w64 (pc + 4 + 4 * len + 4)), 2)
  else do
    let m2 ← match (m1.core c).bank.loop with
      | none => .ok m1
      | some o => do
        let m2 ← m1.rpush c o.cnt
        let m3 ← m2.rpush c o.done
        let m4 ← m3.rpush c (w64 o.rbase)
        m4.rpush c (w64 (b2n o.saved * 2 ^ 63 + o.lenM1 % 256 * 2 ^ 48 + o.start % 2 ^ 48))
    let m3 := m2.updBank c fun b => { b with loop := some { start := pc + 4, lenM1 := len, cnt := n, done := 0, rbase := b.rdepth, saved := b.loop.isSome } }
    .ok (m3, .next, 2)
/-- The command of `bodyLoop`. -/
def rowLoop (c : CoreId) (f : BitVec 26) (m : Mod) : Mod := m.issue c.val 0x2B 0 (bodyLoop c.val f)

end Sys2Proof.Machine
end

