-- ==== Sys2Proof/Machine/Control.lean ====
section
/-! DEFINITION. The control space of a core (R267): what a read answers and what a write does; the shadow bank window (R280); writes
of event counters (R618, R626). -/

namespace Sys2Proof.Machine

/-! ## Event counters (R617, R618, R626) -/

/-- The last event code of the place that holds a MON_ offset, and the largest FVAL it allows. -/
def monPlace (o : Nat) : Nat × Nat :=
  if o < 0x10000 then (0x10, 0) else if o < 0x20000 then (0x0B, 15) else if o < 0x22000 then (0x08, 15) else (0x06, 5)
/-- What a write leaves in a MON_ register at offset `o` of the block: a reserved code, or a filter value that the place does not
allow, stores EVENT 0. -/
def Mod.monWrite (m : Mod) (o : Nat) (v : W64) : Mod :=
  let a := bMON + o
  let n := rowWrite (blockRows a) a (m.rd a) v
  let sel := match barRow a with | some r => r.fields.any (fun f => f.hi = 20) | none => false
  if sel && (decide ((monPlace o).1 < fld n 7 0) || decide ((monPlace o).2 < fld n 19 16)) then m.wr a (setFld n 7 0 0) else m.wr a n

/-! ## Views -/

/-- A patch has an instruction queued or a row unsummed (MAT_STAT.BUSY). -/
def Patch.statBusy (p : Patch) : Bool := !p.queue.isEmpty || !p.runs.isEmpty
/-- The bits of the patches that a test accepts. -/
def Core.patchBits (k : Core) (f : Patch → Bool) : Nat := (k.mat.patches.map fun p => if f p.2 then 2 ^ p.1 else 0).sum
/-- MAT_STAT. -/
def Core.matStat (k : Core) : Nat :=
  k.patchBits (fun p => match p.shadow with | some s => s.pre | none => false) * 2 ^ 16 + k.patchBits Patch.statBusy
/-- MAT_PROGp. -/
def Core.matProg (k : Core) (p : Nat) : Nat :=
  let x := Tab.get {} k.mat.patches p
  let run := x.queue.find? fun i => !i.pre && decide (0 < i.started)
  match run with
  | some i =>
    let t := (shapeOf i.shape).tiles (k.cregf 0x1000 1 0)
    x.queue.length * 2 ^ 32 + t.1 * t.2 % 2 ^ 16 * 2 ^ 16 + i.summed % 2 ^ 16
  | none => x.queue.length * 2 ^ 32
/-- FIN_PROG: the elements of the running pass whose groups have been read (R180; log 1). -/
def Core.finProg (k : Core) : Nat :=
  match k.fin.running with
  | some p => p.slot % 16 * 2 ^ 33 + 2 ^ 32 + p.res.length % 2 ^ 21
  | none => 0
/-- COR_UCSTAT (R249, R253): OLDUSE counts the core's pieces that run the previous copy, `out` of them switched out. -/
def Core.ucStat (k : Core) (out : Nat) : Nat :=
  k.uc.cur.gen % 2 ^ 16 * 2 ^ 48 + (b2n (k.uc.useOld && k.run != .free) + out) * 2 ^ 32 + (k.uc.cur.disp.map fun p => if bit p.2 31 then 2 ^ p.1 else 0).sum
/-- What a read of a core's register answers. -/
def Mod.ctlView (m : Mod) (c a : Nat) : W64 :=
  let k := m.core c
  if a = 0x1008 then w64 k.matStat
  else if 0x1100 ≤ a ∧ a < 0x1180 then w64 (k.matProg ((a - 0x1100) / 8))
  else if a = 0x2008 then w64 (k.vec.stations.length * 2 ^ 16 + k.bank.vl)
  else if a = 0x3000 then w64 ((k.fin.slots.map fun p => 2 ^ p.1).sum * 2 ^ 16 + k.fin.queue.length * 2 + b2n k.fin.running.isSome)
  else if a = 0x3020 then w64 k.finProg
  else if a = 0x398 then w64 (k.ucStat (m.pat.saved.filter fun s => s.core == c && s.units.useOld).length)
  else if a = 0x3B0 then w64 (b2n (m.shootBusy ((m.partOf c).getD 0) (some c)) * 2 ^ 63)
  else if (findRow coreRows a).isSome then m.useCreg c a
  else 0

/-! ## The shadow bank window (R280) -/

/-- Change the image in the window: nothing while no handler runs. -/
def Core.shbWrite (k : Core) (o : Nat) (v : W64) : Core :=
  if k.excDepth = 0 then k
  else
    let i := k.shadow
    let tags := if 0x80 ≤ o ∧ o < 0x100 then Tab.put i.tags ((o - 0x80) / 16) false else i.tags
    { k with shadow := { words := Tab.put i.words (o / 8) v, tags := tags } }
/-- A cap written into the window keeps its tag in a cap slot. -/
def Core.shbCap (k : Core) (o : Nat) (x : Cap) : Core :=
  let k1 := (k.shbWrite o (x.bits.setWidth 64)).shbWrite (o + 8) ((x.bits >>> 64).setWidth 64)
  if k.excDepth ≠ 0 ∧ 0x80 ≤ o ∧ o < 0x100 then { k1 with shadow := { k1.shadow with tags := Tab.put k1.shadow.tags ((o - 0x80) / 16) x.tag } } else k1

/-! ## Accesses -/

/-- The permissions that an address of the control space needs for a read or a write; none outside its blocks (R267). The fitter has
its own two registers (R298). -/
def ctlNeeds (fitter write : Bool) (a : Nat) : Option Nat :=
  if fitter then (if a < 0x10 then some (if write then pWR + pSYSREG else pRD) else none)
  else if a < 0x4000 then some (if write then pWR + pSYSREG else pRD)
  else if a < 0x4010 then some (if write then pWR else 0)
  else if 0x8000 ≤ a ∧ a < 0x10000 then some (if write then pWR + pUCODE else pRD)
  else none
/-- An aligned 8-byte read of the control space. -/
def Mod.ctlRead (m : Mod) (c a : Nat) : W64 :=
  if c = 256 then (m.core c).creg (0x7000 + a)
  else if 0x600 ≤ a ∧ a < 0x6C0 then m.rd (bMON + 0x100 * c + (a - 0x600))
  else if 0x800 ≤ a ∧ a < 0xA80 then (if (m.core c).excDepth = 0 then 0 else (m.core c).shadow.word ((a - 0x800) / 8))
  else if 0x4000 ≤ a ∧ a < 0x4010 then 0
  else if 0x8000 ≤ a then w64 (ofLe (Memory.bytes (m.core c).uc.stage (a - 0x8000) 8))
  else m.ctlView c a
/-- An aligned 8-byte write of the control space. A post that finds no room, or earlier stores that are not yet visible, holds the
store (R49, R291). -/
def Mod.ctlWrite (m : Mod) (c a : Nat) (v : W64) : Ex Mod :=
  if c = 256 then .ok (m.updCore c fun k => { k with ctlNew := Tab.put k.ctlNew (0x7000 + a) v })
  else if 0x600 ≤ a ∧ a < 0x6C0 then .ok (m.monWrite (0x100 * c + (a - 0x600)) v)
  else if 0x800 ≤ a ∧ a < 0xA80 then .ok (m.updCore c fun k => k.shbWrite (a - 0x800) v)
  else if a = 0x4000 then .ok (m.updCore c fun k => { k with semWin := v })
  else if a = 0x4008 then
    match m.semPost c (toLe 8 (m.core c).semWin.toNat ++ toLe 8 v.toNat) with
    | some m1 => .ok m1
    | none => .error .hold
  else if 0x8000 ≤ a then .ok (m.updCore c fun k => { k with uc := { k.uc with stage := Memory.setBytes k.uc.stage (a - 0x8000) (toLe 8 v.toNat) } })
  else if syncRegs.contains a then .ok (m.updCore c fun k => { k with ctlNew := Tab.put k.ctlNew a v })
  else if a = 0x020 then .ok (if bit v 0 then m.raiseXint c else m)
  else if a = 0x0C0 then (if m.drained c then .ok (m.corCmqpost c v) else .error .hold)
  else if a = 0x3B0 then
    match m.partOf c with
    | some p => .ok (m.shootStart p (some c) v)
    | none => .error .hold
  else
    let m1 := m.updCore c fun k => k.setCreg a (rowWrite coreRows a (k.creg a) v)
    if (findRow coreRows a).isNone then .ok m
    else if 0x1040 ≤ a ∧ a < 0x1080 then .ok (m1.updCore c fun k => k.bumpSlot ((a - 0x1040) / 8)) else .ok m1
/-- The checks of R267 on an access of `n` bytes at a control address that has passed R223. -/
def ctlCheck (c ix kind : Nat) (cap : Cap) (write : Bool) (a n : Nat) : Ex Unit :=
  let acc : Acc := if write then .write else .read
  match ctlNeeds (c == 256) write a with
  | none => .error (xltStop 0x03 acc 0 0 a)
  | some need =>
    if n ≠ 8 ∨ a % 8 ≠ 0 then .error (xltStop 0x03 acc 0 0 a)
    else if !cap.has need then .error (capStop 3 kind ix a n)
    else .ok ()

end Sys2Proof.Machine
end

