-- ==== Sys2Proof/Machine/Access.lean ====
section
/-! DEFINITION. Scalar instructions that reach memory or the control space (R220 to R226, R236 to R239, R243, R244, R258, R260), the arrival of
a load, the drain of the store buffer, early spills and fills, and the PIECE instructions (R242, R317, R318, R330). -/

namespace Sys2Proof.Machine

/-! ## Operands -/

/-- CAP of a scalar access. -/
def fCap (f : BitVec 26) : Nat := fld f 25 23
/-- CR of LDC and STC. -/
def fCr (f : BitVec 26) : Nat := fld f 22 20
/-- The address: the popped address plus OFS, modulo 2⁶⁴ (R236). -/
def addrOfs (a : W64) (f : BitVec 26) : Nat := (a + w64i (sNat 20 (fld f 19 0))).toNat
/-- The permissions an access needs: those of its instruction, or, in a block of the control space, those of the block (R223, R267). -/
def needOf (c : Nat) (cap : Cap) (need : Nat) (write : Bool) (x : Nat) : Nat :=
  if cap.type = 1 then (ctlNeeds (c == 256) write x).getD need else need
/-- The part of a range up to the end of its 128-byte line. -/
def lineRoom (x : Nat) : Nat := 128 - x % 128
/-- Cut a translated range, with its bytes, at the line boundary (R224). -/
def cutLine (x : Nat) (ps : List (Place × Nat)) (bs : List Byte) : List (Place × List Byte) :=
  match ps with
  | [(p, n)] =>
    if n ≤ lineRoom x then [(p, bs)]
    else
      let q : Place := match p with | .loc pa => .loc (pa + lineRoom x) | .remote d w o => .remote d w (o + lineRoom x) | .ctl a => .ctl a
      [(p, bs.take (lineRoom x)), (q, bs.drop (lineRoom x))]
  | (p, n) :: rest => (p, bs.take n) :: cutLine (x + n) rest (bs.drop n)
  | [] => []
/-- A loaded value of some bytes, sign-extended where SX is set (R236). -/
def loadVal (sx : Bool) (bs : List Byte) : W64 := if sx then w64i (sNat (8 * bs.length) (ofLe bs)) else w64 (ofLe bs)

/-! ## LD (R220, R221, R224, R258) -/

/-- A load of a range of one line: its bytes, whether they are poisoned, and the caches after it, where they are at hand: in the store
buffer's `older` oldest entries, in scratch, or in a line that the L2 holds. -/
def Mod.loadNow (m : Mod) (c pa n older : Nat) : Option (List Byte × Bool × Mod) :=
  let k := m.core c
  match sbLoad (k.sb.take older) pa n with
  | none => none
  | some (some bs) => some (bs, false, m)
  | some none =>
    if c = 256 ∨ !m.isSpool pa then some (m.rdMem pa n, m.poisoned pa n, m)
    else if k.mem.state (pa / 128) = .i then none
    else some (m.rdMem pa n, m.poisoned pa n, m.updMem c fun q =>
      if (findWay q.l1d (l1dBase (pa / 128)) 4 (pa / 128)).isSome then q.fillL1 (pa / 128) else (q.install (pa / 128) (q.state (pa / 128)) 0).fillL1 (pa / 128))
/-- A part of a load at its issue: remote bytes come from the store buffer where it holds them all (R258), else by a request; local bytes
come later. -/
def Mod.loadPart (m : Mod) (c va : Nat) : Place × Nat → Ex (LoadPart × Mod)
  | (.loc pa, n) => .ok ({ place := .loc pa, size := n }, m)
  | (.remote dev win off, n) =>
    let p : LoadPart := { place := .remote dev win off, size := n }
    match sbLoad (m.core c).sb (p.place.flat.getD 0) n with
    | none => .error .hold
    | some (some bs) => .ok ({ p with got := some bs }, m)
    | some none =>
      let r := m.remoteSend { unit := .load, core := c, part := (m.partOf c).getD 0, va := va, len := n } 3 1 0 dev win off []
      .ok ({ p with tag := some r.1 }, r.2)
  | (.ctl a, _) => .error (xltStop 0x03 .read 0 0 a)
/-- The parts of a load that crosses a 64 KiB granule. -/
def Mod.loadParts (m : Mod) (c va : Nat) : List (Place × Nat) → Ex (List LoadPart × Mod)
  | [] => .ok ([], m)
  | p :: ps => do
    let (q, m1) ← m.loadPart c va p
    let (qs, m2) ← m1.loadParts c (va + p.2) ps
    .ok (q :: qs, m2)
/-- A load in parts has arrived once all of them have; any poison poisons it (R296). -/
def LoadRec.join (l : LoadRec) : LoadRec :=
  if !l.parts.isEmpty && l.parts.all (·.got.isSome) then
    { l with value := loadVal l.signed (l.parts.flatMap fun p => p.got.getD []), arrived := true, poison := l.parts.any (·.poison) }
  else l
/-- The local parts of a load that are at hand take their bytes; lines that the L2 lacks are asked for. -/
def Mod.gather (m : Mod) (c older : Nat) : List LoadPart → List LoadPart × Mod
  | [] => ([], m)
  | p :: ps =>
    let r : LoadPart × Mod :=
      match p.got, p.place with
      | none, .loc pa =>
        let m := m.meetLoad c pa
        match m.loadNow c pa p.size older with
        | some (bs, poi, m1) => ({ p with got := some bs, poison := poi }, m1)
        | none => (p, if m.isSpool pa ∧ (m.core c).mem.state (pa / 128) = .i then m.l2Ask c (pa / 128) false else m)
      | _, _ => (p, m)
    let q := r.2.gather c older ps
    (r.1 :: q.1, q.2)
/-- A load that does not find its line in L1 data (R622). -/
def Mod.l1Miss (m : Mod) (c pa : Nat) : Mod :=
  if !m.isSpool pa ∨ (findWay (m.core c).mem.l1d (l1dBase (pa / 128)) 4 (pa / 128)).isSome then m else m.evCore c 0x04 1
/-- LD. -/
def bodyLd (c : Nat) (f : BitVec 26) (m : Mod) : Body := do
  legal (!(fld f 20 20 == 1 && fld f 22 21 == 3)) 0x06 0
  let (a, m1) ← m.peek c 1
  let x := addrOfs (a.headD 0) f
  let n := 2 ^ fld f 22 21
  let sx := fld f 20 20 == 1
  let b := (m1.core c).bank
  let cap := b.cap (fCap f)
  capCheck cap (fCap f) 1 (needOf c cap pRD false x) x n
  let rec0 : LoadRec := { pos := b.depth - 1, size := n, signed := sx, pc := b.pc }
  let fin (m : Mod) (r : LoadRec) : Mod × Flow × Nat := (m.updBank c fun b => { b with load := some r }, .next, 1)
  if cap.type = 1 then do
    ctlCheck c (fCap f) 1 cap false x n
    .ok (fin m1 { rec0 with value := m1.ctlRead c x, arrived := true })
  else do
    let (ps, m2) ← m1.places c cap .read x n
    match ps with
    | [(.loc pa, _)] =>
      let m3 := ((m2.stride c b.pc.toNat pa).meetLoad c pa).l1Miss c pa
      let older := (m3.core c).sb.length
      if n ≤ lineRoom pa then
        match m3.loadNow c pa n older with
        | some (bs, poi, m4) => .ok (fin m4 { rec0 with value := loadVal sx bs, arrived := true, poison := poi, place := .loc pa })
        | none =>
          let k := (m3.core c).mem
          if k.state (pa / 128) = .i ∧ 16 ≤ k.misses.length ∧ !(k.misses.any fun q => q.la == pa / 128) then .error .hold
          else .ok (fin (if k.state (pa / 128) = .i then m3.l2Ask c (pa / 128) false else m3) { rec0 with place := .loc pa, older := older })
      else
        match sbLoad (m3.core c).sb pa n with
        | none => .error .hold
        | some (some bs) => .ok (fin m3 { rec0 with value := loadVal sx bs, arrived := true })
        | some none =>
          match m3.acquireAll c pa n false with
          | none => .error .hold
          | some m4 => .ok (fin m4 { rec0 with value := loadVal sx (m4.rdMem pa n), arrived := true, poison := m4.poisoned pa n })
    | [(.remote dev win off, _)] => do
      let (p, m3) ← m2.loadPart c x (.remote dev win off, n)
      match p.got with
      | some bs => .ok (fin m3 { rec0 with value := loadVal sx bs, arrived := true })
      | none => .ok (fin m3 { rec0 with place := .remote dev win off, tag := p.tag })
    | ps => do
      let (parts, m3) ← m2.loadParts c x ps
      .ok (fin m3 ({ rec0 with parts := parts, older := (m3.core c).sb.length }).join)
/-- The command of `bodyLd`. -/
def rowLd (c : CoreId) (f : BitVec 26) (m : Mod) : Mod := m.issue c.val 0x06 0 (bodyLd c.val f)
/-- Parts of the core's unarrived load have come: once all have, it arrives (R298). -/
def Core.loadJoins (k : Core) (ps : List LoadPart) : Core :=
  match k.openLoad with
  | none => k
  | some l =>
    let l1 := ({ l with parts := ps }).join
    if l1.arrived then k.loadArrives l1.value l1.poison
    else if k.due.isSome then { k with due := some l1 } else { k with bank := { k.bank with load := some l1 } }
/-- The value of a load that went beyond L1 arrives (R221); errors strike before it (R364). A line that has left the L2 meanwhile is asked for again. -/
def Mod.loadValueArrives (m : Mod) (c : CoreId) (us : List Upset) : Mod :=
  let m := m.strike us
  match (m.core c.val).openLoad with
  | none => m
  | some l =>
    if !l.parts.isEmpty then
      let r := m.gather c.val l.older l.parts
      r.2.updCore c.val fun k => k.loadJoins r.1
    else match l.place with
    | .loc pa =>
      let m := m.meetLoad c.val pa
      match m.loadNow c.val pa l.size l.older with
      | some (bs, poi, m1) => m1.updCore c.val fun k => k.loadArrives (loadVal l.signed bs) poi
      | none => if m.isSpool pa ∧ (m.core c.val).mem.state (pa / 128) = .i then m.l2Ask c.val (pa / 128) false else m
    | _ => m

/-! ## ST, LDC, STC (R226, R236 to R238) -/

/-- Put the parts of a store into the buffer (R225, R258). -/
def Mod.sbPushAll (m : Mod) (c : Nat) (kind : SbKind) : List (Place × List Byte) → Ex Mod
  | [] => .ok m
  | (p, bs) :: rest => do
    let m1 ← m.sbPush c { place := p, data := bs, kind := kind }
    m1.sbPushAll c kind rest
/-- ST. A store to the control space acts at issue. -/
def bodySt (c : Nat) (f : BitVec 26) (m : Mod) : Body := do
  legal (fld f 20 20 == 0) 0x07 0
  let (a, m1) ← m.peek c 2
  let x := addrOfs (a.headD 0) f
  let n := 2 ^ fld f 22 21
  let v := a.getD 1 0
  let cap := (m1.core c).bank.cap (fCap f)
  capCheck cap (fCap f) 2 (needOf c cap pWR true x) x n
  if cap.type = 1 then do
    ctlCheck c (fCap f) 2 cap true x n
    let m2 ← m1.ctlWrite c x v
    let m3 ← m2.repl c 2 []
    .ok (m3, .next, 1)
  else do
    let (ps, m2) ← m1.places c cap .write x n
    m2.wtabCheck c cap (fCap f) 2 x n ps
    let m3 ← m2.sbPushAll c .data (cutLine x ps (toLe n v.toNat))
    let m4 ← m3.repl c 2 []
    .ok (m4, .next, 1)
/-- The command of `bodySt`. -/
def rowSt (c : CoreId) (f : BitVec 26) (m : Mod) : Mod := m.issue c.val 0x07 0 (bodySt c.val f)
/-- The tag that the store buffer gives a granule: its newest entry that touches it. -/
def sbTag (sb : List SbEntry) (pa : Nat) : Option Bool :=
  (sb.reverse.find? fun e => match e.range with | some (a, n) => meet a n pa 16 | none => false).map fun e =>
    match e.kind with | .cap t => t | _ => false
/-- LDC (R237, R238, R260, R264). -/
def bodyLdc (c : Nat) (f : BitVec 26) (m : Mod) : Body := do
  let (a, m1) ← m.peek c 1
  let x := addrOfs (a.headD 0) f
  let b := (m1.core c).bank
  let cap := b.cap (fCap f)
  capCheck cap (fCap f) 4 (needOf c cap pRD false x) x 16
  if x % 16 ≠ 0 then .error (capStop 5 4 (fCap f) x 16)
  else if cap.type = 1 then .error (xltStop 0x03 .read 0 0 x)
  else do
    let (ps, m2) ← m1.places c cap .read x 16
    let m2 := match ps with | (.loc pa, _) :: _ => m2.stride c b.pc.toNat pa | _ => m2
    let (bs, m3) ← m2.readPieces c (some (fCr f)) x ps
    let tag := match ps with
      | (.loc pa, _) :: _ => (sbTag (m3.core c).sb pa).getD (m3.tagAt pa) && cap.has pLC
      | _ => false
    let v : Cap := { bits := BitVec.ofNat 128 (ofLe bs) }
    let m4 ← m3.repl c 1 []
    .ok (m4.updBank c fun b => b.setCap (fCr f) { v with tag := tag && v.taggable }, .next, 1)
/-- The command of `bodyLdc`. -/
def rowLdc (c : CoreId) (f : BitVec 26) (m : Mod) : Mod := m.issue c.val 0x08 0 (bodyLdc c.val f)
/-- STC. In the control space only the shadow bank window takes it (R280). -/
def bodyStc (c : Nat) (f : BitVec 26) (m : Mod) : Body := do
  let (a, m1) ← m.peek c 1
  let x := addrOfs (a.headD 0) f
  let b := (m1.core c).bank
  let cap := b.cap (fCap f)
  let v := b.cap (fCr f)
  capCheck cap (fCap f) 5 (if cap.type = 1 then needOf c cap pWR true x ||| pSC else pWR + pSC) x 16
  if x % 16 ≠ 0 then .error (capStop 5 5 (fCap f) x 16)
  else if cap.type = 2 then .error (capStop 3 5 (fCap f) x 16)
  else if cap.type = 1 then
    if c ≠ 256 ∧ 0x800 ≤ x ∧ x < 0xA80 then do
      let m2 ← m1.repl c 1 []
      .ok (m2.updCore c fun k => k.shbCap (x - 0x800) v, .next, 1)
    else .error (xltStop 0x03 .write 0 0 x)
  else do
    let (ps, m2) ← m1.places c cap .write x 16
    m2.wtabCheck c cap (fCap f) 5 x 16 ps
    let m3 ← m2.sbPushAll c (.cap v.tag) (cutLine x ps (toLe 16 v.bits.toNat))
    let m4 ← m3.repl c 1 []
    .ok (m4, .next, 1)
/-- The command of `bodyStc`. -/
def rowStc (c : CoreId) (f : BitVec 26) (m : Mod) : Mod := m.issue c.val 0x09 0 (bodyStc c.val f)

/-! ## AMO (R239, R260, R400) -/

/-- Fields of SWAPM, CAS and XADD. -/
def amoLegal (f : BitVec 26) : Bool := decide (2 ≤ fld f 22 21) && fld f 20 18 == 0 && fld f 17 6 == 0
/-- SWAPM, CAS and XADD: `pops` operands, and what the old value and the operands, top first, make of memory. -/
def amoBody (c fn pops : Nat) (g : Nat → List W64 → Option Nat) (f : BitVec 26) (m : Mod) : Body := do
  legal (amoLegal f) 0x0B fn
  let (a, m1) ← m.peek c pops
  let x := (a.getD (pops - 1) 0).toNat
  let n := 2 ^ fld f 22 21
  let cap := (m1.core c).bank.cap (fCap f)
  capCheck cap (fCap f) 3 (pRD + pWR) x n
  if x % n ≠ 0 then .error (capStop 5 3 (fCap f) x n)
  else if cap.type = 2 then .error (capStop 3 3 (fCap f) x n)
  else if cap.type = 1 then .error (xltStop 0x03 .atomic 0 0 x)
  else do
    let (ps, m2) ← m1.places c cap .atomic x n
    m2.wtabCheck c cap (fCap f) 3 x n ps
    match ps with
    | [(.loc pa, _)] =>
      if sbTouches (m2.core c).sb pa n then .error .hold
      else
        match m2.acquireAll c pa n true with
        | none => .error .hold
        | some m3 =>
          if m3.poisoned pa n then .error (.trap 9 [])
          else
            let old := m3.rdLe pa n
            let m4 := match g old a with
              | some v => m3.wrMem pa (toLe n v)
              | none => m3
            do
              let m5 ← m4.repl c pops [w64 old]
              .ok (m5, .next, 1)
    | _ => .error (xltStop 0x03 .atomic 0 0 x)
/-- SWAPM ( addr x -- old ). -/
def bodySwapm (c : Nat) (f : BitVec 26) (m : Mod) : Body := amoBody c 0 2 (fun _ a => some (a.headD 0).toNat) f m
/-- The command of `bodySwapm`. -/
def rowSwapm (c : CoreId) (f : BitVec 26) (m : Mod) : Mod := m.issue c.val 0x0B 0 (bodySwapm c.val (withFunc f 0))
/-- CAS ( addr exp new -- old ): the low WIDTH bytes of exp are compared. -/
def bodyCas (c : Nat) (f : BitVec 26) (m : Mod) : Body :=
  amoBody c 1 3 (fun old a => if old = (a.getD 1 0).toNat % 2 ^ (8 * 2 ^ fld f 22 21) then some (a.headD 0).toNat else none) f m
/-- The command of `bodyCas`. -/
def rowCas (c : CoreId) (f : BitVec 26) (m : Mod) : Mod := m.issue c.val 0x0B 1 (bodyCas c.val (withFunc f 1))
/-- XADD ( addr x -- old ). -/
def bodyXadd (c : Nat) (f : BitVec 26) (m : Mod) : Body := amoBody c 2 2 (fun old a => some (old + (a.headD 0).toNat)) f m
/-- The command of `bodyXadd`. -/
def rowXadd (c : CoreId) (f : BitVec 26) (m : Mod) : Mod := m.issue c.val 0x0B 2 (bodyXadd c.val (withFunc f 2))
/-- Bytes of an element of MADD (R400). -/
def maddSize (ty : Nat) : Nat := if ty = 1 ∨ ty = 3 then 8 else 4
/-- MADD ( addr x -- ): a posted add. -/
def bodyMadd (c : Nat) (f : BitVec 26) (m : Mod) : Body := do
  legal (fld f 22 21 == 0 && decide (fld f 20 18 ≤ 4) && fld f 17 6 == 0) 0x0B 3
  let (a, m1) ← m.peek c 2
  let x := (a.getD 1 0).toNat
  let ty := fld f 20 18
  let n := maddSize ty
  let cap := (m1.core c).bank.cap (fCap f)
  capCheck cap (fCap f) 3 pWR x n
  if x % n ≠ 0 then .error (capStop 5 3 (fCap f) x n)
  else if cap.type = 1 then .error (xltStop 0x03 .add 0 0 x)
  else do
    let (ps, m2) ← m1.places c cap .add x n
    m2.wtabCheck c cap (fCap f) 3 x n ps
    let m3 ← m2.sbPushAll c (.add ty) (cutLine x ps (toLe n (a.headD 0).toNat))
    let m4 ← m3.repl c 2 []
    .ok (m4, .next, 1)
/-- The command of `bodyMadd`. -/
def rowMadd (c : CoreId) (f : BitVec 26) (m : Mod) : Mod := m.issue c.val 0x0B 3 (bodyMadd c.val (withFunc f 3))

/-! ## The store buffer (R258) -/

/-- The oldest entry has drained. -/
def Core.sbPop (k : Core) : Core :=
  let d (l : LoadRec) : LoadRec := { l with older := l.older - 1 }
  { k with sb := k.sb.drop 1, due := k.due.map d, bank := { k.bank with load := k.bank.load.map d } }
/-- What an entry does to local memory. -/
def Mod.sbWrite (m : Mod) (pa : Nat) (e : SbEntry) : Mod :=
  match e.kind with
  | .cap t => m.wrCap pa { bits := BitVec.ofNat 128 (ofLe e.data), tag := t }
  | _ => m.wrMem pa e.data
/-- The oldest entry drains, once errors have struck (R364), where its line is held for writing; else the line is asked for (R258, R353). An entry younger than a local
load without its value stays. -/
def Mod.storeBufferDrain (m : Mod) (c : CoreId) (us : List Upset) : Mod :=
  let m := m.strike us
  let k := m.core c.val
  let young := match k.openLoad with
    | some l => l.older = 0 && (!l.parts.isEmpty || (match l.place with | .loc _ => true | _ => false))
    | none => false
  match k.sb with
  | [] => m
  | e :: _ =>
    if young then m
    else
      let pop (m : Mod) : Mod := m.updCore c.val Core.sbPop
      match e.place with
      | .loc pa =>
        match e.kind with
        | .add ty => pop { m with spl := { m.spl with adds := m.spl.adds ++ [{ core := c.val, pa := pa, ty := ty, data := e.data }] } }
        | _ =>
          if !m.isSpool pa then pop ((if m.isScratch pa then m.meetErr 4 0 (pa / 128) else m).sbWrite pa e)
          else if c.val = 256 then pop (((m.dropCopies (pa / 128)).pncPut (pa / 128) 1 true).sbWrite pa e)
          else
            let m := m.meetErr 2 c.val (pa / 128)
            match (m.core c.val).mem.state (pa / 128) with
            | .m => pop ((m.updMem c.val fun q => q.install (pa / 128) .m 0).sbWrite pa e)
            | .e => pop ((m.updMem c.val fun q => q.install (pa / 128) .m 0).sbWrite pa e)
            | _ => m.l2Ask c.val (pa / 128) true
      | .remote dev win off =>
        let op := match e.kind with | .add _ => 3 | _ => 2
        let ty := match e.kind with | .add t => t | _ => 0
        pop (m.remoteSend { unit := .posted, core := c.val, part := (m.partOf c.val).getD 0, len := e.data.length } 3 op ty dev win off e.data).2
      | .ctl _ => pop m

/-! ## Early spills and fills (R217, R219) -/

/-- A core whose stacks may be moved ahead of need: it runs, and no load waits to enter its stack. -/
def Mod.stacksIdle (m : Mod) (c : Nat) : Bool :=
  let k := m.core c
  (c == 256 || k.run != .free) && !k.halted && k.due.isNone && k.bank.load.isNone
/-- Spill one entry ahead of need; an attempt that fails has no effect. -/
def Mod.earlySpill (m : Mod) (c : Nat) (s : StackSel) : Mod :=
  if m.stacksIdle c ∧ !((m.core c).bank.cache s).isEmpty then
    match m.spill c s with
    | .ok m1 => m1
    | .error _ => m
  else m
/-- Fill one entry ahead of need; an attempt that fails has no effect. -/
def Mod.earlyFill (m : Mod) (c : Nat) (s : StackSel) (room : Nat) : Mod :=
  if m.stacksIdle c ∧ ((m.core c).bank.cache s).length < room then
    match m.fill c s with
    | .ok m1 => m1
    | .error _ => m
  else m

/-! ## PIECE (R242, R317, R318, R330) -/

/-- Every earlier store, MADD and SHPOST is visible. -/
def Mod.storesVisible (m : Mod) (c : Nat) : Bool :=
  let k := m.core c
  k.sb.isEmpty && !m.postedOut c && !(k.vec.stations.any fun s => s.isStore && !s.held) && !(m.spl.adds.any fun a => a.core == c)
/-- The units of a core hold no work of its piece (R317). -/
def Core.unitsIdle (k : Core) : Bool :=
  (k.mat.patches.all fun p => p.2.queue.isEmpty && p.2.runs.isEmpty) && k.fin.queue.isEmpty && k.fin.running.isNone && k.vec.stations.isEmpty
/-- PEND: the piece completes, and its core is free (R317, R325, R330). -/
def bodyPend (c : Nat) (f : BitVec 26) (m : Mod) : Body := do
  legal (fld f 25 6 == 0) 0x2C 0
  if !m.storesVisible c || !(m.core c).unitsIdle then .error .hold
  else
    let m1 := m.unseat c
    match (m.core c).piece with
    | none => .ok (m1.updCore c fun k => { k with run := .free }, .next, 1)
    | some id =>
      let m2 := m1.updCore c fun k => { k with run := .free, piece := none, pend := [] }
      .ok ({ m2 with pat := { m2.pat with completed := m2.pat.completed ++ [id] } }, .next, 1)
/-- The command of `bodyPend`. -/
def rowPend (c : CoreId) (f : BitVec 26) (m : Mod) : Mod :=
  if (m.core c.val).openLoad.isSome then m else m.issue c.val 0x2C 0 (bodyPend c.val (withFunc f 0))
/-- A delivery that waited for a full seat count is made (R331). -/
def Mod.seatRoom (m : Mod) (c i : Nat) : Mod :=
  match firstIx (fun (h : HeldDelivery) => h.core == c && h.seat == i && (m.core c).piece == some h.piece && m.leadUp h.piece.part) m.pat.held with
  | some j =>
    let h := m.pat.held[j]?.getD {}
    ({ m with pat := { m.pat with held := dropAt m.pat.held j } }).seatDeliver h.notch h.src c i
  | none => m
/-- PWAIT. -/
def bodyPwait (c : Nat) (f : BitVec 26) (m : Mod) : Body := do
  legal (fld f 25 6 == 0) 0x2C 1
  let k := m.core c
  if k.run ≠ .seated then .ok (m, .next, 1)
  else
    match (upto 3).find? fun i => k.cregf 0x0A0 (16 * i + 15) (16 * i) != 0 with
    | none => .error (.wait .pwait)
    | some i =>
      let k1 := (k.setCregf 0x0A0 (16 * i + 15) (16 * i) (k.cregf 0x0A0 (16 * i + 15) (16 * i) - 1)).setCregf 0x0A0 50 49 i
      .ok ((m.setCore c k1).seatRoom c i, .next, 1)
/-- The command of `bodyPwait`. -/
def rowPwait (c : CoreId) (f : BitVec 26) (m : Mod) : Mod := m.issue c.val 0x2C 1 (bodyPwait c.val (withFunc f 1))
/-- PFIRE. -/
def bodyPfire (c : Nat) (f : BitVec 26) (m : Mod) : Body := do
  legal (fld f 25 6 == 0) 0x2C 2
  if !m.storesVisible c then .error .hold
  else do
    let (a, m1) ← m.pop c 1
    .ok (m1.fire ((m1.partOf c).getD 0) (fld (a.headD 0) 15 0) (.core c), .next, 1)
/-- The command of `bodyPfire`. -/
def rowPfire (c : CoreId) (f : BitVec 26) (m : Mod) : Mod := m.issue c.val 0x2C 2 (bodyPfire c.val (withFunc f 2))
/-- PID. -/
def bodyPid (c : Nat) (f : BitVec 26) (m : Mod) : Body := do
  legal (fld f 25 6 == 0) 0x2C 3
  let id := (m.core c).piece.getD {}
  let m1 ← m.push c (w64 (id.slot * 2 ^ 16 + id.ix))
  .ok (m1, .next, 1)
/-- The command of `bodyPid`. -/
def rowPid (c : CoreId) (f : BitVec 26) (m : Mod) : Mod := m.issue c.val 0x2C 3 (bodyPid c.val (withFunc f 3))

/-! ## SHPOST (R243, R244, R374) -/

/-- The shuttle that takes the core's next descriptor, if it has a free entry: SHUT where PIN is one, else the one with more free entries. -/
def Mod.shtPick (m : Mod) (c : Nat) (f : BitVec 26) : Option Nat :=
  let p := panelOf c
  let n0 := (m.sht (2 * p)).queue.length
  let n1 := (m.sht (2 * p + 1)).queue.length
  let s := if fld f 22 22 = 1 then 2 * p + fld f 21 21 else if n1 < n0 then 2 * p + 1 else 2 * p
  if (m.sht s).queue.length < 64 then some s else none
/-- One descriptor of SHPOST: it is read and posted, and the progress field counts it. -/
def bodyShpost (c : Nat) (f : BitVec 26) (m : Mod) : Body := do
  legal (fld f 20 0 == 0) 0x2D 0
  let (a, m1) ← m.peek c 2
  let n := (a.headD 0).toNat
  if n = 0 ∨ 4096 < n then .error (serrStop 0x05 0x2D 0 0)
  else do
    let b := (m1.core c).bank
    let j := if b.prog.kind = 1 then b.prog.index else 0
    let x := (a.getD 1 0 + w64 (64 * j)).toNat
    let cap := b.cap (fCap f)
    capCheck cap (fCap f) 11 pRD x 64
    if cap.type = 2 then .error (capStop 3 11 (fCap f) x 64)
    else if cap.type = 1 then .error (xltStop 0x03 .read 0 0 x)
    else do
      let (ps, m2) ← m1.places c cap .read x 64
      let (bs, m3) ← m2.readPieces c none x ps
      match m3.shtPick c f with
      | none => .error (.wait .shpost)
      | some s =>
        let w0 := ofLe (bs.take 4)
        let id := ((m.core c).piece).getD { part := (m.partOf c).getD 0 }
        let d : ShtDesc := { id := m3.nextId, bytes := bs, core := c, piece := id, addr := x
                             scap := b.cap (bitsN w0 25 23), dcap := b.cap (bitsN w0 22 20), icap := b.cap (bitsN (descW bs 0x38 4) 2 0) }
        let m4 := ({ m3 with nextId := m3.nextId + 1 }).updSht s fun q => { q with queue := q.queue ++ [d] }
        if j + 1 < n then .ok (m4.updBank c fun b => { b with prog := { kind := 1, index := j + 1 } }, .again, 4)
        else do
          let m5 ← m4.repl c 2 []
          .ok (m5.updBank c fun b => { b with prog := {} }, .next, 4)
/-- The descriptors of an SHPOST one after another, until they are all posted or it must stop. -/
def Mod.shpostLoop (m : Mod) (c : Nat) (f : BitVec 26) : Nat → Mod
  | 0 => m
  | k + 1 =>
    let before := (m.core c).bank.prog.index
    let m1 := m.issue c 0x2D 0 (bodyShpost c f)
    if (m1.core c).bank.prog.kind = 1 ∧ (m1.core c).bank.prog.index ≠ before ∧ m1.canIssue c then m1.shpostLoop c f k else m1
/-- SHPOST. -/
def rowShpost (c : CoreId) (f : BitVec 26) (m : Mod) : Mod := m.shpostLoop c.val f 4096
/-- An SHPOST that waits at a full queue posts once an entry frees (R374); the command spells its word again (log 10). -/
def rowShpostResume (c : CoreId) (f : BitVec 26) (m : Mod) : Mod :=
  if (m.core c.val).wait = .shpost ∧ (m.shtPick c.val f).isSome then
    (m.updCore c.val fun k => { k with wait := .none }).shpostLoop c.val f 4096
  else m

end Sys2Proof.Machine
end

