-- ==== Sys2Proof/Machine/Microcode.lean ====
section
/-! DEFINITION. The body that an instruction word has, and customer instructions with their microcode routines (R212, R248 to R253). -/

namespace Sys2Proof.Machine

/-- The body of an instruction word (R212, R213). SHPOST, CUST and reserved words of the scalar majors have none here and raise ILLEGAL. -/
def bodyOf (c : Nat) (w : W32) (m : Mod) : Body :=
  let f : BitVec 26 := w.setWidth 26
  let fn := fld w 5 0
  let ill : Body := .error (illegal (fld w 31 26) fn)
  match fld w 31 26 with
  | 0x00 => match fn with | 0 => bodyNop c f m | 1 => bodySync false c f m | 2 => bodySync true c f m | 3 => bodyEret c f m | 4 => bodyTrap c f m | _ => ill
  | 0x01 => bodyLit c f m
  | 0x02 => bodyLith c f m
  | 0x03 => bodyAlu c f m
  | 0x04 => bodyAddi c f m
  | 0x05 => bodyStk c f m
  | 0x06 => bodyLd c f m
  | 0x07 => bodySt c f m
  | 0x08 => bodyLdc c f m
  | 0x09 => bodyStc c f m
  | 0x0A => bodyCap fn c f m
  | 0x0B => match fn with | 0 => bodySwapm c f m | 1 => bodyCas c f m | 2 => bodyXadd c f m | 3 => bodyMadd c f m | _ => ill
  | 0x0C => bodyBr c f m
  | 0x0D => bodyBcond true c f m
  | 0x0E => bodyBcond false c f m
  | 0x0F => bodyCall c f m
  | 0x20 => match fld w 4 0 with
    | 0 => bodyVsetvl c f m | 1 => bodyVgetvl c f m | 4 => bodyVget c f m | 5 => bodyVmpop c f m | 6 => bodyVmfirst c f m
    | _ => m.stationBody c w
  | 0x21 => m.stationBody c w
  | 0x22 => m.stationBody c w
  | 0x23 => m.stationBody c w
  | 0x24 => m.stationBody c w
  | 0x25 => m.stationBody c w
  | 0x26 => m.stationBody c w
  | 0x27 => m.stationBody c w
  | 0x28 => m.stationBody c w
  | 0x29 => m.stationBody c w
  | 0x2A => match fn with | 0 => bodyRet c f m | 1 => bodyJmp false c f m | 2 => bodyJmp true c f m | _ => ill
  | 0x2B => bodyLoop c f m
  | 0x2C => match fn with | 0 => bodyPend c f m | 1 => bodyPwait c f m | 2 => bodyPfire c f m | 3 => bodyPid c f m | _ => ill
  | 0x2D => bodyShpost c f m
  | 0x30 => bodyMcfg c f m
  | 0x31 => bodyMshape c f m
  | 0x32 => bodyMtile c f m
  | 0x33 => bodyMpre c f m
  | 0x34 => bodyMwait c f m
  | 0x35 => bodyMzero c f m
  | 0x36 => m.stationBody c w
  | 0x37 => bodyFload c f m
  | 0x38 => bodyFrun c f m
  | 0x39 => bodyFwait c f m
  | _ => .error (illegal (fld w 31 26) 0)
/-- A word that no row of the opcode table names: a reserved major, or a reserved FUNC or SUB code (R213; log 11). -/
def noRow (w : W32) : Bool :=
  let fn := fld w 5 0
  match fld w 31 26 with
  | 0x00 => decide (4 < fn)
  | 0x0A => decide (0x0B < fn)
  | 0x0B => decide (3 < fn)
  | 0x20 => decide (8 < fld w 4 0)
  | 0x29 => decide (4 < fld w 4 0)
  | 0x2A => decide (2 < fn)
  | 0x2C => decide (3 < fn)
  | 0x2E => true
  | 0x2F => true
  | mj => decide (0x39 < mj)
/-- A word with a reserved major or a reserved code of an operation, function, type or format (R213, R251). -/
def reservedWord (w : W32) : Bool :=
  let fn := fld w 5 0
  noRow w ||
  (match fld w 31 26 with
   | 0x02 => decide (1 < fld w 25 24)
   | 0x03 => (aluArity fn).isNone
   | 0x05 => decide (0x11 < fn)
   | 0x0B => fn == 3 && decide (4 < fld w 20 18)
   | 0x23 => !arithDefined (fld w 4 0)
   | 0x25 => decide (4 < fld w 6 4)
   | 0x26 => fld w 16 14 == 7
   | 0x27 => fld w 9 8 == 3
   | 0x28 => badCvtCode (fld w 12 9) || badCvtCode (fld w 8 5)
   | 0x36 => decide (6 < fld w 7 4) || fld w 3 2 == 3
   | _ => false)
/-- A word that a routine may not hold (R251). -/
def notMicro (w : W32) : Bool :=
  let mj := fld w 31 26
  let fn := fld w 5 0
  reservedWord w || (mj == 0x00 && (fn == 1 || fn == 2 || fn == 3)) || mj == 0x0F || (decide (0x10 ≤ mj) && decide (mj ≤ 0x1F)) ||
  (decide (0x2A ≤ mj) && decide (mj ≤ 0x2F))

/-! ## Micro-ops (R250, R252) -/

/-- The pieces of a load read at once: local ones with their poison, remote ones by a request whose bytes the instruction awaits. -/
def Mod.readNowPoison (m : Mod) (c : Nat) : Nat → List (Place × Nat) → Ex (List Byte × Bool × Mod)
  | _, [] => .ok ([], false, m)
  | va, (.loc pa, n) :: ps =>
    match (m.acquireAll c pa n false).bind fun m1 => m1.loadNow c pa n (m1.core c).sb.length with
    | none => .error .hold
    | some (bs, poi, m1) => do
      let (cs, q, m2) ← m1.readNowPoison c (va + n) ps
      .ok (bs ++ cs, poi || q, m2)
  | va, p :: ps => do
    let (bs, m1) ← m.readPieces c none va [p]
    let (cs, q, m2) ← m1.readNowPoison c (va + p.2) ps
    .ok (bs ++ cs, q, m2)
/-- LD as a micro-op: it waits for its value, so that a routine stops at step boundaries only (log 23). -/
def bodyLdNow (c : Nat) (f : BitVec 26) (m : Mod) : Body := do
  let r ← bodyLd c f m
  match (r.1.core c).bank.load with
  | some l =>
    if l.arrived then .ok r
    else do
      let x := addrOfs ((r.1.core c).bank.ops.headD 0) f
      let ps := if l.parts.isEmpty then [(l.place, l.size)] else l.parts.map fun p => (p.place, p.size)
      let (bs, poi, m1) ← m.readNowPoison c x ps
      let (_, m2) ← m1.peek c 1
      .ok (m2.updBank c fun b => { b with load := some { pos := l.pos, signed := l.signed, pc := l.pc, value := loadVal l.signed bs, arrived := true, poison := poi } }, .next, 1)
  | none => .ok r
/-- The body of a micro-op. -/
def microBody (c : Nat) (w : W32) (m : Mod) : Body :=
  if notMicro w then .error (illegal (fld w 31 26) (fld w 5 0))
  else if fld w 31 26 = 0x06 then bodyLdNow c (w.setWidth 26) m
  else bodyOf c w m
/-- The copy that the core's routine runs (R253, R287). -/
def Core.routineCopy (k : Core) : UcCopy :=
  if k.bank.prog.kind = 2 then (if k.uc.cur.gen % 2 ^ 16 = k.bank.prog.gen then k.uc.cur else k.uc.prev)
  else if k.uc.useOld then k.uc.prev else k.uc.cur
/-- The exception of a micro-op: COR_SERR names the customer instruction (R250). -/
def Stop.ofCust (n : Nat) : Stop → Stop
  | .trap 0 regs => .trap 0 (regs.map fun r => if r.1 = 0x380 then (r.1, setFld (setFld r.2 21 16 0) 13 8 (0x10 + n)) else r)
  | s => s
/-- Set the progress field to the next entry of a routine. -/
def Mod.ucProg (m : Mod) (c gen i : Nat) (mid : Bool) : Mod :=
  m.updCore c fun k => { k with mid := mid, bank := { k.bank with prog := { kind := 2, gen := gen % 2 ^ 16, index := i } } }
/-- Micro-ops of CUSTn from entry `i` on, to the next step boundary, the end of the routine or a stop (R250, R252). The record of an LD is applied
after the next micro-op (R220; log 23). -/
def Mod.microLoop (m : Mod) (c n : Nat) (copy : UcCopy) : Nat → Nat → Mod
  | 0, i => m.ucProg c copy.gen i true
  | k + 1, i =>
    let e := Tab.get 0 copy.ents i
    let old := (m.core c).bank.load
    let r : Body := do
      let (m1, fl, st) ← microBody c (e.setWidth 32) (m.updCore c Core.beginBody)
      let m2 ← (m1.updCore c fun k => k.stampUndo old).applyOld c old
      .ok (m2, fl, st)
    match r with
    | .error x => (m.ucProg c copy.gen i true).stop c (x.ofCust n)
    | .ok (m2, fl, st) =>
      let m3 := (m2.updCore c fun k => { k with stitches := k.stitches + st, rbuf := [], wait := .none }).evCore c 0x01 st
      let pc := (m.core c).bank.pc
      let taken := match fl with | .jump .. => true | _ => false
      let next := match fl with | .jump t _ => (((i : Int) + (t - pc).toInt / 4).toNat) | _ => i + 1
      if bit e 33 && !taken then
        match (m3.updBank c fun b => { b with prog := {} }).retire c none .next 1 with
        | .ok m4 => m4
        | .error x => (m.ucProg c copy.gen i true).stop c (x.ofCust n)
      else if bit e 32 then m3.ucProg c copy.gen next false
      else
        let m4 := m3.ucProg c copy.gen next true
        let q := m4.core c
        if q.due.isSome || !q.pend.isEmpty || m4.vecGate c then m4
        else m4.microLoop c n copy k next
/-- CUSTn begins, or goes on where its routine stands (R248, R252): the copy it runs and the entry. -/
def Mod.custBegin (m : Mod) (c n : Nat) (f : BitVec 26) : Ex (Mod × UcCopy × Nat) := do
  let m1 ← m.fetch c
  let k := m1.core c
  let copy := k.routineCopy
  if c = 256 then .error (illegal (0x10 + n) 0)
  else if k.bank.prog.kind = 2 then .ok (m1, copy, k.bank.prog.index)
  else
    let d := Tab.get 0 copy.disp n
    if !bit d 31 then .error (serrStop 0x02 (0x10 + n) 0 0)
    else do
      let m2 ← if bit d 30 then m1.push c (w64 f.toNat) else .ok m1
      .ok (m2, copy, fld d 10 0)
/-- CUSTn (R248). A routine that a command has not finished goes on with the next one. -/
def rowCust (c : CoreId) (n : Fin 16) (f : BitVec 26) (m : Mod) : Mod :=
  if !m.canIssue c.val then m
  else
    match m.custBegin c.val n.val f with
    | .error e => m.stop c.val e
    | .ok (m1, copy, i) => m1.microLoop c.val n.val copy 2048 i
/-- The exception of an instruction word that is the next to issue, found before it has any effect (R272). -/
def Mod.probe (m : Mod) (c : Nat) (w : W32) : Option (Nat × List (Nat × W64)) :=
  let mj := fld w 31 26
  let r : Ex Unit :=
    if c = 256 ∧ !fitterMajor mj then .error (illegal mj (fld w 5 0))
    else if 0x10 ≤ mj ∧ mj < 0x20 then do
      let (m1, copy, i) ← m.custBegin c (mj - 0x10) (w.setWidth 26)
      match microBody c ((Tab.get 0 copy.ents i).setWidth 32) (m1.updCore c Core.beginBody) with
      | .error x => .error (x.ofCust (mj - 0x10))
      | .ok _ => .ok ()
    else do
      let m1 ← m.fetch c
      let _ ← bodyOf c w (m1.updCore c Core.beginBody)
      .ok ()
  match r with
  | .error (.trap v regs) => some (v, regs)
  | _ => none

end Sys2Proof.Machine
end

