-- ==== Sys2Proof/Machine/Exceptions.lean ====
section
/-! DEFINITION. Exceptions and interrupts at an instruction boundary (R270 to R278, R282, R283, R288, R295, R298). -/

namespace Sys2Proof.Machine

/-! ## Entering a handler (R273 to R278) -/

/-- Read a cap of the handler's descriptor or receive block by virtual address, with its tag (R274). -/
def Mod.excCap (m : Mod) (c va : Nat) : Option (Cap × Mod) :=
  match m.xlatNow c .read va 16 with
  | .ok (.loc pa, m1) => if m1.poisoned pa 16 then none else some (m1.rdCap pa, m1)
  | _ => none
/-- The handler's bank (R275, R276). -/
def handlerBank (entry stack : Cap) (recv : List Cap) (vl vec : Nat) : Bank :=
  let top := stack.top
  { pc := w64 entry.base, rsp := w64 (top - 0x2D0), sp := w64 (top - 0x6D0), vl := vl, vec := vec
    caps := [(0, entry), (1, recv.getD 0 {}),
      (2, mkCap 0 stack.perms 0 (top - 0x6D0 - stack.base) stack.base stack.tag),
      (3, mkCap 0 stack.perms 0 0x400 (top - 0x6D0) stack.tag),
      (4, recv.getD 1 {}), (5, recv.getD 2 {}), (6, recv.getD 3 {}), (7, recv.getD 4 {})] }
/-- The descriptor of a vector: ENTRY and STACK, checked under R275 and R277. -/
def Mod.handler (m : Mod) (c vec : Nat) : Option (Cap × Cap × Mod) :=
  let a := (m.core c).cregf 0x008 47 10 * 2 ^ 10 + 32 * vec
  match m.excCap c a with
  | none => none
  | some (e, m1) =>
    match m1.excCap c (a + 16) with
    | none => none
    | some (s, m2) =>
      if e.tag ∧ e.has pEX ∧ s.tag ∧ s.has (pRD + pWR) ∧ 0x6D0 ≤ s.len ∧ s.top % 128 = 0 then some (e, s, m2) else none
/-- The five caps of the receive block (R275). -/
def Mod.recvCaps (m : Mod) (c top : Nat) : Option (List Cap) :=
  (upto 5).mapM fun i => (m.excCap c (top - 0x2D0 + 16 * i)).map (·.1)
/-- What entering a handler does before its descriptor is read (R273, R276, R284, R285, R292, R297): the active bank is copied to the shadow bank,
COR_EXC records the vector and the depth, and units that have not started are held; a load among them reads memory after ERET. -/
def Mod.saveBank (m : Mod) (c vec depth : Nat) : Mod :=
  let m0 := m.updCore c Core.settle
  let k0 := m0.core c
  let m1 := m0.updCore c fun k => { (((k.setCregf 0x000 4 0 vec).setCregf 0x000 9 8 depth).incCregBy 0x040 1) with
      shadow := { k.bank with vec := vec, prog := k0.progNow }.image, shadowPoison := k.poison, poison := [], trap := none, wait := .none, rbuf := [], mid := false, resumed := false, unitsHeld := true,
      vec := { k.vec with stations := k.vec.stations.map fun s => if s.started then s else { s.unread with held := true } } }
  m1.evCore c 0x0E 1
/-- Enter a handler (R273 to R277): the running finishing pass stops at a group boundary, the bank is saved and the handler's bank set from its descriptor; a core whose handler is not usable halts.
A compute core only. -/
def Mod.enter (m : Mod) (c vec depth : Nat) : Mod :=
  let m2 := (m.stopPass c).saveBank c vec depth
  match m2.handler c vec with
  | none => m2.halt c
  | some (e, s, m3) =>
    match m3.recvCaps c s.top with
    | none => m3.halt c
    | some caps => m3.updCore c fun k => { k with bank := handlerBank e s caps k.bank.vl vec, fetchCap := e }
/-- Enter a handler of the fitter (R278): the pc comes from the table at FTR_HTBASE in private SRAM (log 14); the caps, SP, RSP and
the loop stay, both caches go to the shadow bank. COR_EXC's fields are kept for the fitter as for a compute core. -/
def Mod.enterFitter (m0 : Mod) (vec depth : Nat) : Mod :=
  let m := m0.updCore 256 Core.settle
  let a := (m.core 256).cregf 0x7000 47 3 * 8 + 8 * vec
  let t := ofLe (Memory.bytes m.sram a 8)
  m.updCore 256 fun k =>
    { ((k.setCregf 0x000 4 0 vec).setCregf 0x000 9 8 depth) with
      shadow := { k.bank with vec := vec }.image, shadowPoison := k.poison, poison := [], trap := none, wait := .none, rbuf := [], mid := false, resumed := false
      bank := { k.bank with pc := w64 t, depth := k.bank.depth - k.bank.ops.length, ops := [], rets := [], load := none, prog := {}, vec := vec } }

/-! ## What is taken at a boundary -/

/-- The core stands at a boundary at which it may take a vector: it runs, it is not inside an instruction, and its load has its value
(R288, R295). -/
def Core.atBoundary (k : Core) (fitter : Bool) : Bool :=
  (fitter || k.run != .free) && !k.halted && !k.stopped && k.openLoad.isNone && (k.wait == .none || k.wait == .pwait || k.wait == .shpost)
/-- The exception or trap that the core takes at this boundary, precise first, then the lowest vector (R272). -/
def Core.nextTrap (k : Core) : Option Nat :=
  match k.trap with
  | some v => some v
  | none => if k.pend.isEmpty then none else some (k.pend.foldl min 31)
/-- Take a vector off what pends. XLTX of a refused remote read saves the address of the instruction that read (R281, R425). -/
def Core.tookTrap (k : Core) (v : Nat) : Core :=
  if k.trap.isSome then { k with trap := none }
  else
    let k1 := { k with pend := k.pend.filter (· != v) }
    if v = 2 then { k1 with bank := { k1.bank with pc := k1.late.getD k1.bank.pc }, late := none } else k1
/-- A word that is reserved, and so has no row of its own, issues and raises its exception (R213; log 11). -/
def Mod.issueReserved (m : Mod) (c : Nat) (w : W32) : Mod :=
  if noRow w then m.issue c (fld w 31 26) (fld w 5 0) (bodyOf c w) else m

/-- EXCEPTION_ENTRY of a compute core: the exception of the next instruction, whose word is `w`, or the lowest pending trap, enters its handler
(R272, R276). Where nothing stands, a reserved word issues first. -/
def Mod.exceptionEntry (m : Mod) (c : CoreId) (w : W32) : Mod :=
  let m0 := if (m.core c.val).nextTrap.isSome then m else m.issueReserved c.val w
  let k := m0.core c.val
  match k.nextTrap with
  | none => m0
  | some v =>
    if c.val = 256 ∨ !k.atBoundary false ∨ k.excDepth ≠ 0 then m0
    else match (if k.trap.isSome then none else m0.probe c.val w) with
      | some (t, regs) => ((m0.setTrap c.val t regs).updCore c.val fun k => k.tookTrap t).enter c.val t 1
      | none => (m0.updCore c.val fun k => k.tookTrap v).enter c.val v 1
/-- INTERRUPT_ENTRY: a pending interrupt is taken once every started vector instruction has completed (R199, R288). The precise exception of the
next instruction, whose word is `w`, comes first, except right after ERET (R272, R288). -/
def Mod.interruptEntry (m : Mod) (c : CoreId) (w : W32) : Mod :=
  let k := m.core c.val
  match m.intNow c.val with
  | none => m
  | some v =>
    if c.val = 256 ∨ !k.atBoundary false ∨ k.nextTrap.isSome ∨ (k.vec.stations.any fun s => s.started && !s.held) then m
    else match if k.resumed then none else m.probe c.val w with
      | some (t, regs) => m.setTrap c.val t regs
      | none =>
        let m1 := m.updCore c.val fun k => (if v = 17 then k.setCregf 0x018 17 17 0 else k).incCregBy 0x050 1
        m1.enter c.val v 1

/-! ## Double faults (R282, R283) -/

/-- Write one granule of an image through a stack cap, as STC does: none where it fails; `some none` while a line is not to be had. -/
def Mod.saveGranule (m : Mod) (c : Nat) (va : Nat) (bs : List Byte) (tag : Bool) (pgtab : Bool) : Option (Option Mod) :=
  let m0 := match m.partOf c with
    | some p => match m.xlat c pgtab .write va 16 with
      | .error (.wait (.walk ..)) => (m.walkDo (panelOf c) p (some c) va).2
      | _ => m
    | none => m
  match m0.xlat c pgtab .write va 16 with
  | .ok (.loc pa, m1) =>
    if sbTouches (m1.core c).sb pa 16 then some none
    else match m1.acquireAll c pa 16 true with
      | none => some none
      | some m2 => some (some (m2.wrCap pa { bits := BitVec.ofNat 128 (ofLe bs), tag := tag }))
  | _ => none
/-- Write an image of 40 granules. -/
def Mod.saveImage (m : Mod) (c base : Nat) (i : Image) (pgtab : Bool) : Nat → Option (Option Mod)
  | 0 => some (some m)
  | k + 1 =>
    let g := 39 - k
    let tag := if 8 ≤ g ∧ g < 16 then Tab.get false i.tags (g - 8) else false
    match m.saveGranule c (base + 16 * g) (toLe 8 (i.word (2 * g)).toNat ++ toLe 8 (i.word (2 * g + 1)).toNat) tag pgtab with
    | some (some m1) => m1.saveImage c base i pgtab k
    | r => r
/-- The stack cap of vector 8's descriptor, where it may hold the save area. -/
def Mod.saveCap (m : Mod) (c : Nat) : Option (Cap × Mod) :=
  match m.excCap c ((m.core c).cregf 0x008 47 10 * 2 ^ 10 + 32 * 8 + 16) with
  | some (s, m1) => if s.tag ∧ s.otype = 0 ∧ s.type = 0 ∧ s.has (pWR + pSC) ∧ 0x280 ≤ s.len then some (s, m1) else none
  | none => none
/-- DOUBLE_FAULT: an exception while the shadow bank is in use (R282, R283). -/
def Mod.doubleFault (m : Mod) (c : CoreId) : Mod :=
  let k := m.core c.val
  match k.nextTrap with
  | none => m
  | some v =>
    if c.val = 256 ∨ !k.atBoundary false ∨ k.excDepth = 0 then m
    else if k.excDepth = 2 then m.halt c.val
    else
      let m0 := m.updCore c.val Core.settle
      match m0.saveCap c.val with
      | none => m0.halt c.val
      | some (s, m1) =>
        match m1.saveImage c.val (s.top - 0x280) (m1.core c.val).shadow (s.has pPGTAB) 40 with
        | none => m1.halt c.val
        | some none => m
        | some (some m2) =>
          (m2.updCore c.val fun k => ((k.tookTrap v).setCregf 0x000 20 16 v).incCregBy 0x048 1).enter c.val 8 2

/-! ## The fitter (R278, R282, R283) -/

/-- The fitter's vectors of its own (R270). -/
def fitterVec (v : Nat) : Bool := decide (18 ≤ v) && decide (v ≤ 23)
/-- The event of vector `v` can come: the firmware timer, vector 20, stands still without a PCIe reference clock (R74). -/
def Mod.fitterEvent (m : Mod) (v : Nat) : Bool := fitterVec v && (v != 20 || (m.host 0).clock || (m.host 1).clock)
/-- An exception of the fitter enters its handler; one while its shadow bank is in use writes the image to private SRAM and enters vector 8
(R278, R282, R283). -/
def Mod.fitterTrap (m : Mod) (t : Nat) : Mod :=
  let k := m.core 256
  if k.excDepth = 0 then (m.updCore 256 fun k => k.tookTrap t).enterFitter t 1
  else if k.excDepth = 2 then m.halt 256
  else
    let k1 := k.settle
    let a := k1.cregf 0x7008 21 7 * 2 ^ 7
    let m1 : Mod := { m with sram := Memory.setBytes m.sram a k.shadow.bytes }
    (m1.updCore 256 fun k => (k.tookTrap t).setCregf 0x000 20 16 t).enterFitter 8 2
/-- The interrupt that the fitter takes at this boundary, the lowest vector first (R272, R288). -/
def Mod.fitterInt (m : Mod) : Option Nat :=
  match m.intNow 256 with
  | some v => some v
  | none => if m.fit.irq.isEmpty ∨ (m.core 256).excDepth ≠ 0 then none else some (m.fit.irq.foldl min 31)
/-- FITTER_EXCEPTION_ENTRY: the exception of the fitter's next instruction, whose word is `w`, a pending trap, or a pending interrupt enters its
handler (R270, R272, R278, R288). An event of vector `v`, where it is one of 18 to 23, comes to pend first. -/
def Mod.fitterEntry (m0 : Mod) (v : Fin 32) (w : W32) : Mod :=
  let m := if m0.fitterEvent v.val then m0.fitterIrq v.val else m0
  let k := m.core 256
  if !k.atBoundary true then m
  else match k.trap with
    | some t => m.fitterTrap t
    | none =>
      if k.pend.isEmpty ∧ m.fitterInt.isNone then m
      else match if k.resumed ∧ k.pend.isEmpty then none else m.probe 256 w with
        | some (t, regs) => (m.setTrap 256 t regs).fitterTrap t
        | none =>
          match k.nextTrap, m.fitterInt with
          | some t, _ => m.fitterTrap t
          | none, some t =>
            let m1 := if t = 17 then m.updCore 256 fun k => k.setCregf 0x018 17 17 0 else m
            ({ m1 with fit := { m1.fit with irq := m1.fit.irq.filter (· != t) } }).enterFitter t 1
          | none, none => m
/-- COR_XINT: a write of RAISE (R270). -/
def Mod.corXint (m : Mod) (c : CoreId) (v : W64) : Mod := if bit v 0 then m.raiseXint c.val else m

end Sys2Proof.Machine
end

