-- ==== Sys2Proof/Machine/Ident.lean ====
section
/-! DEFINITION. Identity keys of the module (R557 to R559): compound device identifiers, the alias key and the identity chain. -/

namespace Sys2Proof.Machine

/-- CDI0 (R557). -/
def cdi0 : List Byte := shake256 (ascii "CDI0" ++ Config.deviceSecret ++ Config.romDigest) 64
/-- Seed of the DeviceID key pair. -/
def deviceSeed : List Byte := shake256 (ascii "DEVID" ++ cdi0) 32
/-- Seed of the alias key pair of an image with digest M1. -/
def aliasSeed (m1 : List Byte) : List Byte := shake256 (ascii "ALIAS" ++ shake256 (ascii "CDI1" ++ cdi0 ++ m1) 64) 32
/-- Public alias key. -/
def aliasKey (m1 : List Byte) : List Byte := Config.mldsaPublic (aliasSeed m1)
/-- The identity chain (R558): the alias certificate, which binds the key and carries M1, SVN, VERSION and C, then the factory's two. -/
def Mod.identChain (m : Mod) : List Byte :=
  Config.certify deviceSeed (aliasKey m.fit.m1 ++ m.fit.m1 ++ toLe 4 m.fit.svn ++ toLe 4 m.fit.version ++ toLe 4 m.nv.svn) ++ Config.factoryChain
/-- `n` random bytes (R549). -/
def Mod.drbg (m : Mod) (n : Nat) : List Byte × Mod := (Config.random m.freeCtr n, { m with freeCtr := m.freeCtr + 1 })

end Sys2Proof.Machine
end

