-- ==== Sys2Proof/Machine/CalOps.lean ====
section
/-! DEFINITION. Calibrated values (R569 to R573) and power events (R611, R616): effective values, readings of the sensor groups,
PWR_EVT, SB_EVT and the In-Band Interrupt. -/

namespace Sys2Proof.Machine

/-- The calibrated quantities (R569). -/
inductive CalQ where
  | spool (write volt : Bool) (s channel pin : Nat)
  /-- 0 pre-cursor, 1 post-cursor, 2 CTLE, 3 receive phase -/
  | link (q l lane : Nat)
  | rail (r : Nat)
  | therm (t : Nat)
deriving DecidableEq, Repr

/-- Factory and effective range (R569). -/
def CalQ.range : CalQ → Int × Int
  | .link 0 .. => (0, 31)
  | .link 1 .. => (0, 31)
  | .link 2 .. => (0, 15)
  | .rail _ => (-40, 40)
  | _ => (-31, 31)
/-- User limit (R569). -/
def CalQ.userLim : CalQ → Int
  | .spool _ v .. => if v then 6 else 8
  | .link 2 .. => 3
  | .link 3 .. => 8
  | .link .. => 4
  | _ => 8
/-- Track limit; 0 where the quantity is not tracked (R569). -/
def CalQ.trackLim : CalQ → Int
  | .spool _ v .. => if v then 8 else 12
  | .link 3 .. => 12
  | _ => 0
/-- A number for each quantity. -/
def CalQ.key : CalQ → Nat
  | .spool w v s c p => ((((2 * s + b2n w) * 256 + c) * 18 + p) * 2 + b2n v) * 4
  | .link q l n => ((8 * l + n) * 4 + q) * 4 + 1
  | .rail r => 4 * r + 2
  | .therm t => 4 * t + 3
/-- A value brought into a range. -/
def clampI (lo hi v : Int) : Int := if v < lo then lo else if hi < v then hi else v
/-- The factory value F: fixed in fuses, unknown, within its range (R571; log 6). -/
def CalQ.factory (q : CalQ) : Int := clampI q.range.1 q.range.2 (Config.factory q.key)
/-- The register of the user offset, its field and the field's width. -/
def CalQ.user : CalQ → Nat × Nat × Nat
  | .spool w v s c _ => (bCAL + 0x4000 + 0x800 * s + 8 * c, (if w then 16 else 0) + (if v then 8 else 0), 6)
  | .link q l n => (bCAL + 0x1000 + 0x40 * l + 8 * n, [0, 8, 16, 24].getD q 0, if q = 2 then 4 else 6)
  | .rail r => (bCAL + 0x200 + 8 * r, 0, 5)
  | .therm t => (bCAL + 0x300 + 8 * t, 0, 6)
/-- The user offset U in force: the register's, or what was in force before an apply that has not yet switched it (R572). -/
def Mod.userOfs (m : Mod) (q : CalQ) : Int :=
  let a := q.user.1
  let v := (Tab.get? m.cal.held a).getD (m.rd a)
  sNat q.user.2.2 (fld v (q.user.2.1 + q.user.2.2 - 1) q.user.2.1)
/-- The live track T. -/
def Mod.trackOf (m : Mod) (q : CalQ) : Int := Tab.get 0 m.cal.track q.key
/-- The effective value (R570). -/
def Mod.effective (m : Mod) (q : CalQ) : Int :=
  clampI q.range.1 q.range.2 (q.factory + clampI (-q.userLim) q.userLim (m.userOfs q) + m.trackOf q)
/-- A link's live tracks are set to 0 as it enters TRAIN (R573). -/
def Mod.clearTracks (m : Mod) (l : Nat) : Mod :=
  { m with cal := { m.cal with track := (upto 8).foldl (fun t n => Tab.del t (CalQ.link 3 l n).key) m.cal.track } }
/-- A channel's new user offsets take effect (R572). -/
def Mod.switchChannel (m : Mod) (s c : Nat) : Mod :=
  if m.cal.pendSpl.contains (256 * s + c) then
    { m with cal := { m.cal with pendSpl := m.cal.pendSpl.filter (· != 256 * s + c), held := Tab.del m.cal.held (bCAL + 0x4000 + 0x800 * s + 8 * c) } }
  else m
/-- A link's new user offsets take effect (R572). -/
def Mod.switchLink (m : Mod) (l : Nat) : Mod :=
  if m.cal.pendLnk.contains l then
    { m with cal := { m.cal with pendLnk := m.cal.pendLnk.filter (· != l), held := Tab.clear m.cal.held (bCAL + 0x1000 + 0x40 * l) (bCAL + 0x1000 + 0x40 * l + 0x40) } }
  else m

/-! ## Power events -/

/-- Set a bit of PWR_EVT with its count (R616). -/
def Mod.pwrEvent (m : Mod) (i : Nat) : Mod := ((m.raise (bPWR + 0x38) i).inc (bPWR + 0x80 + 8 * i)).fitterIrq 23
/-- A stored word of the sideband. -/
def Mod.sbWord (m : Mod) (i : Nat) : Nat := Tab.get 0 m.pwr.sb i
/-- Store a word of the sideband. -/
def Mod.setSb (m : Mod) (i v : Nat) : Mod := { m with pwr := { m.pwr with sb := Tab.put m.pwr.sb i (v % 2 ^ 32) } }
/-- The In-Band Interrupt (R610): raised while SB_EVT AND IEN is not 0, and again only after SB_EVT has been cleared. -/
def Mod.ibi (m : Mod) : Mod :=
  let e := m.sbWord 2
  if e = 0 then { m with pwr := { m.pwr with raised := false } }
  else if m.pwr.raised ∨ e &&& bitsN (m.sbWord 3) 12 8 = 0 then m
  else { m with pwr := { m.pwr with raised := true, ibi := m.pwr.ibi ++ [e % 256] } }
/-- Set a bit of SB_EVT with its count (R545, R611). -/
def Mod.sbEvent (m : Mod) (i : Nat) : Mod := ((m.setSb 2 (m.sbWord 2 ||| 2 ^ i)).setSb (8 + i) (m.sbWord (8 + i) + 1)).ibi
/-- A sensor group's reading in quarter degrees, its offset included (R570, R604). -/
def Mod.reading (m : Mod) (t : Nat) (raw : BitVec 16) : Int := raw.toInt + m.effective (.therm t)
/-- A new reading of a sensor group: TEMP, and PEAK where it is the highest since reset. -/
def Mod.sense (m : Mod) (t : Nat) (raw : BitVec 16) : Mod :=
  let a := bPWR + 0x200 + 8 * t
  let v := m.reading t raw
  let top := match Tab.get? m.bar0 a with
    | some w => max v (sNat 16 (fld w 31 16))
    | none => v
  m.wr a (w64 ((BitVec.ofInt 16 top).toNat * 2 ^ 16 + (BitVec.ofInt 16 v).toNat))

/-! ## Rail targets (R600) -/

/-- Target of a core rail in codes above 0.60 V: the least of its set point, the cap's limit and the throttle's. A limit not yet lowered stands at
0.85 V (DESIGN CHOICE, log 44); without a cap there is none of the cap. -/
def Mod.railCode (m : Mod) (p : Nat) : Nat :=
  let cap := if m.rdf (bPWR + 0x28) 15 0 = 0 then 200 else Tab.get 200 m.pwr.capLim p
  min (m.rdf (bPWR + 8 + 8 * p) 7 0) (min cap (Tab.get 200 m.pwr.thmLim p))
/-- Target of a rail in 1.25 mV (R599). -/
def Mod.railTarget (m : Mod) (r : Nat) : Nat :=
  if r < 4 then 480 + m.railCode r else [600, 600, 840, 840, 840, 840, 360, 720, 960, 720, 1440, 640].getD (r - 4) 0
/-- The targets in force of the core rails, as PWR_RAIL shows them. -/
def Mod.setTargets (m : Mod) : Mod := (upto 4).foldl (fun (m : Mod) p => m.wrf (bPWR + 0x100 + 8 * p) 47 32 (m.railTarget p)) m
/-- A rail's measured voltage, in 1.25 mV. -/
def Mod.railVolt (m : Mod) (r : Nat) : Nat := m.rdf (bPWR + 0x100 + 8 * r) 15 0
/-- The lowest measured voltage of the core rails. -/
def Mod.lowNow (m : Mod) : Nat := (upto 4).foldl (fun a p => min a (m.railVolt p)) (m.railVolt 0)
/-- A new measured voltage of a rail; the lowest of the core rails is kept for SB_POWER (R611). -/
def Mod.setVolt (m : Mod) (r v : Nat) : Mod :=
  let old := m.pwr.lowest.getD m.lowNow
  let m1 := m.wrf (bPWR + 0x100 + 8 * r) 15 0 v
  if r < 4 then { m1 with pwr := { m1.pwr with lowest := some (min old m1.lowNow) } } else m1
/-- A new trim of rail `r` moves its output at once (R572, R599): by the change of its effective value from that of register value `old`. -/
def Mod.trimRail (m : Mod) (r : Nat) (old : W64) : Mod :=
  let d := m.effective (.rail r) - (m.wr (CalQ.rail r).user.1 old).effective (.rail r)
  if d = 0 then m else m.setVolt r ((m.railVolt r : Int) + d).toNat
/-- The measured current of a rail, which no command brings: a free value (log 60). -/
def Mod.railAmps (m : Mod) (r : Nat) : Nat := fld (Config.freeWord (2 ^ 41 + m.freeCtr * 16 + r)) 15 0

end Sys2Proof.Machine
end

