-- ==== Sys2Proof/Machine/Link.lean ====
section
/-! DEFINITION. Links (14): states and failures (R442 to R444), authentication (R460, R461), flits (R445, R446), retry and handover (R448
to R450, R638), credits and arbitration (R452 to R456), forwarding (R457 to R459), sealing (R462), MARK (R469). -/

namespace Sys2Proof.Machine

/-! ## Registers and states -/

/-- A bit of LNK_LERR with its count. -/
def Mod.lerr (m : Mod) (l b cnt n : Nat) : Mod := ((m.raise (bLink l + 0x10) b).incBy (bLink l + 0x20 + 8 * cnt) n).fitterIrq 21
/-- Put a link into a state. -/
def Mod.linkGo (m : Mod) (l st : Nat) : Mod := m.wrf (bLink l) 3 0 st
/-- The link is enabled: EN, a topology, and a dimension of more than one module (R439, R440). -/
def Mod.linkEnabled (m : Mod) (l : Nat) : Bool :=
  (m.rd (bPort (l / 6))).getLsbD (l % 6) && (m.topo == 1 || m.topo == 2) && decide (m.dimOf (m.groupOfLink l) < m.dims) &&
  decide (1 < m.sizeOf (m.dimOf (m.groupOfLink l)))
/-- An OFF link that is enabled enters DETECT. -/
def Mod.linkDetect (m : Mod) (l : Nat) : Mod := if m.linkState l = 0 ∧ m.linkEnabled l then m.linkGo l 1 else m
/-- The module starts its outputs (R443): a good configuration is applied and MODE is not 0. -/
def Mod.outputsOk (m : Mod) : Bool := m.rdf bCFGSTAT 1 0 == 1 && m.topo != 0
/-- Allocation of a class, as the port's registers give it (R452). -/
def Mod.credAlloc (m : Mod) (l cls : Nat) : Nat := m.rdf (bPort (l / 6) + 0x10 + 8 * (cls / 6)) (10 * (cls % 6) + 9) (10 * (cls % 6))
/-- A link reaches UP: sequence numbers start anew, and its full allocation is advertised (R453). -/
def Mod.linkUp (m : Mod) (l : Nat) : Mod :=
  (m.updLink l fun k => { k with
    occ := [], owed := (upto 12).map fun c => (c, m.credAlloc l c), txSeq := 0, rxSeq := 4095, replay := [], resend := none, nak := false, naked := false,
    left := [], report := none, closing := false }).linkGo l 6
/-- A HELD link goes UP once the outputs are started. -/
def Mod.linkStart (m : Mod) (l : Nat) : Mod := if m.linkState l = 5 ∧ m.outputsOk then m.linkUp l else m

/-! ## Leaving UP (R449, R450) -/

/-- Put messages at the front of a group's queue, whole and unsent. -/
def Mod.requeue (m : Mod) (g : Nat) (xs : List OutMsg) : Mod :=
  { m with lnk := { m.lnk with groups := Tab.upd [] m.lnk.groups g ((xs.map fun x => { x with link := none, sent := 0 }) ++ ·) } }
/-- `a` comes after `b` among 4,096 sequence numbers. -/
def fseqAfter (a b : Nat) : Bool := decide (0 < (a + 4096 - b % 4096) % 4096) && decide ((a + 4096 - b % 4096) % 4096 ≤ 2048)
/-- Messages among flits whose EOM flit lies after a sequence number. -/
def wholesAfter (fs : List SentFlit) (last : Nat) : List OutMsg := fs.filterMap fun f => if fseqAfter f.seq last then f.whole else none
/-- The messages of a lost link that the partner has not had delivered are resent whole on the survivors (R449). -/
def Mod.handOver (m : Mod) (l : Nat) : Mod :=
  match (m.link l).report with
  | none => m
  | some last =>
    let xs := wholesAfter (m.link l).left last
    let m1 := (m.updLink l fun k => { k with left := [], report := none }).requeue (m.groupOfLink l) xs
    if xs.isEmpty then m1 else m1.lerr l 3 3 xs.length
/-- A message that is lost or dropped: a request is answered UNREACH where a route to its source exists (R450). -/
def Mod.answerUnreach (m : Mod) (x : Msg) : Mod :=
  if x.vc = 3 ∨ x.vc = 5 then
    let r := unreach x
    if r.dest = m.dev then m.arrive { msg := r }
    else match m.route r.dest none with
      | some (g, dl) => if (m.upLinks g).isEmpty then m.inc (bPort (g / 2) + 0x40 + 8 * 5) else m.enqueue g { msg := r, dl := dl }
      | none => m
  else m
/-- Messages of replay buffers that no link of the group can resend are lost (R450). -/
def Mod.loseLeft (m : Mod) (g : Nat) : Mod :=
  (m.groupLinks g).foldl (fun (m : Mod) l =>
    let xs := (m.link l).left.filterMap (·.whole)
    xs.foldl (fun (m : Mod) x => (m.pcnt l 6 1).answerUnreach x.msg) (m.updLink l fun k => { k with left := [] })) m
/-- Messages that were partly sent on a lost link, and whose group has no other: lost too, and what they held of a receive buffer is freed. -/
def Mod.losePartial (m : Mod) (g l : Nat) : Mod :=
  let xs := (Tab.get [] m.lnk.groups g).filter fun x => x.link == some l
  let m1 : Mod := { m with lnk := { m.lnk with groups := Tab.upd [] m.lnk.groups g fun q => q.filter fun x => x.link != some l } }
  xs.foldl (fun (m : Mod) x =>
    let m1 := (m.pcnt l 6 1).answerUnreach x.msg
    match x.held with
    | some h => m1.freeMsg h
    | none => m1) m1
/-- The incomplete message of a class is discarded (R449, R638): its buffer is freed, an outgoing copy of it is abandoned, and what it wrote of a
landing slot is undefined. -/
def Mod.dropPart (m : Mod) (l cls : Nat) : Mod :=
  match Tab.get? (m.link l).parts cls with
  | none => m
  | some x =>
    let m1 := (m.updLink l fun k => { k with parts := Tab.del k.parts cls }).freeMsg { link := some l, cls := cls, flits := x.flits }
    if x.out then m1.cutDrop l cls else if cls / 2 = 1 ∧ x.dest = m.dev then m1.undoLanding x.data else m1
/-- Every incomplete message of a link is discarded. -/
def Mod.dropParts (m : Mod) (l : Nat) : Mod := (m.link l).parts.foldl (fun (m : Mod) p => m.dropPart l p.1) m
/-- Messages that came on a link owe it no credits any more, since the link advertises its full allocation anew (R453). -/
def Mod.forgetLink (m : Mod) (l : Nat) : Mod :=
  let f (x : InMsg) : InMsg := if x.link = some l then { x with link := none } else x
  let s (x : SemIn) : SemIn := { x with inMsg := x.inMsg.map f }
  { m with lnk := { m.lnk with arrived := m.lnk.arrived.map f, groups := Tab.mapV m.lnk.groups fun _ q => q.map fun x => { x with held := x.held.map f } }
           sem := { m.sem with entries := Tab.mapV m.sem.entries fun _ e =>
             { e with landing := e.landing.map s, waiting := e.waiting.map s, passing := e.passing.map s, passed := e.passed.map s } } }
/-- A control flit names a lost link. -/
def Ctrl.names : Ctrl → Bool
  | .handover .. => true
  | _ => false
/-- A link leaves UP for another state: partial messages are discarded, the replay buffer and the messages that are partly sent are handed over,
credits are discarded; a HANDOVER that still waited on it goes on the link that is left (R449, R450, R453). -/
def Mod.leaveUp (m0 : Mod) (l st : Nat) : Mod :=
  let m := (m0.dropParts l).forgetLink l
  let g := m.groupOfLink l
  let k := m.link l
  let m1 := ((m.updLink l fun k => { k with
    left := k.replay, replay := [], resend := none, credits := [], owed := [], ctrl := [], ctrlSent := 0, ctrlOut := 0, nak := false, closing := false,
    session := {}, auth := {} }).linkGo l st).wrf (bLink l) 6 4 0
  let m2 := (m1.calEvent 3).switchLink l
  match (m2.upLinks g).head? with
  | some o =>
    let n := ((Tab.get [] m2.lnk.groups g).filter fun x => x.link == some l).length
    let m3 : Mod := { m2 with lnk := { m2.lnk with groups := Tab.upd [] m2.lnk.groups g fun q => q.map fun x => if x.link = some l then { x with link := none, sent := 0 } else x } }
    let m4 := if n = 0 then m3 else m3.lerr l 3 3 n
    (m4.updLink o fun q => { q with ctrl := q.ctrl ++ .handover l k.rxSeq :: k.ctrl.filter Ctrl.names }).handOver l
  | none => (m2.loseLeft g).losePartial g l
/-- A link fails or is fenced, with its reason (R444). -/
def Mod.linkFail (m : Mod) (l reason : Nat) : Mod :=
  let st := if 0x10 ≤ reason then 8 else 7
  let m1 := if m.linkState l = 6 then m.leaveUp l st
    else ((m.updLink l fun k => { k with ctrl := [], ctrlSent := 0, ctrlOut := 0, session := {}, auth := {} }).linkGo l st).wrf (bLink l) 6 4 0
  let m2 := m1.wrf (bLink l) 15 8 reason
  if st = 8 then m2.lerr l 1 1 1 else m2.lerr l 0 0 1
/-- A link whose EN an apply has cleared goes OFF with reason DISABLED, neither bit set (R444, R469). -/
def Mod.linkDisable (m : Mod) (l : Nat) : Mod :=
  let m1 := if m.linkState l = 6 then m.leaveUp l 0 else (m.updLink l fun k => { k with ctrl := [], ctrlSent := 0, ctrlOut := 0, session := {}, auth := {} }).linkGo l 0
  m1.wrf (bLink l) 15 8 0x06

/-! ## Reaching LOCK (R442) -/

/-- SIGNAL_DETECTED: DETECT to TRAIN; live tracks start at 0 and new user offsets are taken (R572, R573). -/
def Mod.signalDetected (m : Mod) (l : LinkId) : Mod := if m.linkState l.val = 1 then ((m.linkGo l.val 2).clearTracks l.val).switchLink l.val else m
/-- TRAIN_CONVERGED: TRAIN to LOCK. -/
def Mod.trainConverged (m : Mod) (l : LinkId) : Mod := if m.linkState l.val = 2 then m.linkGo l.val 3 else m
/-- TRAIN_TIMEOUT; like every time that a link counts, on the link reference clock (R74). -/
def Mod.trainTimeout (m : Mod) (l : LinkId) : Mod := if m.lnk.clock ∧ m.linkState l.val = 2 then m.linkFail l.val 0x01 else m
/-- LOCK_TIMEOUT. -/
def Mod.lockTimeout (m : Mod) (l : LinkId) : Mod := if m.lnk.clock ∧ m.linkState l.val = 3 then m.linkFail l.val 0x02 else m
/-- AUTH_TIMEOUT. -/
def Mod.authTimeout (m : Mod) (l : LinkId) : Mod := if m.lnk.clock ∧ m.linkState l.val = 4 then m.linkFail l.val 0x03 else m
/-- FAILED_RETRY: 1 ms after it failed, a link looks for its partner again. -/
def Mod.failedRetry (m : Mod) (l : LinkId) : Mod := if m.lnk.clock ∧ m.linkState l.val = 7 then m.linkGo l.val 1 else m
/-- LINK_WATCHDOG. -/
def Mod.linkWatchdog (m : Mod) (l : LinkId) : Mod := if m.lnk.clock ∧ m.linkState l.val = 6 then m.linkFail l.val 0x04 else m
/-- REARM: FENCED, FAILED or OFF to OFF, then at once to DETECT where enabled. -/
def Mod.linkRearm (m : Mod) (l : LinkId) : Mod :=
  if m.linkState l.val = 8 ∨ m.linkState l.val = 7 ∨ m.linkState l.val = 0 then (m.linkGo l.val 0).linkDetect l.val else m
/-- RETRAIN. -/
def Mod.linkRetrain (m : Mod) (l : LinkId) : Mod := if m.linkState l.val = 6 then m.linkFail l.val 0x07 else m
/-- A flit of a class waits for link `l` and has no credit (R456). -/
def Mod.classStalled (m : Mod) (l cls : Nat) : Bool :=
  Tab.get 0 (m.link l).credits cls == 0 &&
  (Tab.get [] m.lnk.groups (m.groupOfLink l)).any fun x => 2 * x.msg.vc + x.dl == cls && (x.link.isNone || x.link == some l)
/-- CREDIT_WATCHDOG: a class has waited without credits for CWDOG. -/
def Mod.creditWatchdog (m : Mod) (l : LinkId) (cls : Fin 12) : Mod :=
  if m.lnk.clock ∧ m.linkState l.val = 6 ∧ m.classStalled l.val cls.val then m.lerr l.val 2 2 1 else m

/-! ## Flits (R445, R446, R462) -/

/-- The flits of a link are sealed. -/
def Mod.sealed (m : Mod) (l : Nat) : Bool := m.rdf (bLink l) 6 6 == 1
/-- Payload bytes of a flit. -/
def Mod.payload (m : Mod) (l : Nat) : Nat := if m.sealed l then 600 else 616
/-- A flit header (R446). -/
structure FlitHdr where
  kind : Nat := 0
  vc : Nat := 0
  dl : Nat := 0
  som : Bool := false
  eom : Bool := false
  fseq : Nat := 0
  ack : Nat := 0
  nak : Bool := false
  len : Nat := 0
  dest : Nat := 0
  c0 : Nat := 15
  n0 : Nat := 0
  src : Nat := 0
  c1 : Nat := 15
  n1 : Nat := 0
  /-- bits [23:18] of 0x04 and [17:0] of 0x0C -/
  rsvd : Nat := 0
deriving DecidableEq, Repr
/-- Its 16 bytes. -/
def FlitHdr.bytes (h : FlitHdr) : List Byte :=
  toLe 4 (h.kind * 2 ^ 30 + h.vc * 2 ^ 27 + h.dl * 2 ^ 26 + b2n h.som * 2 ^ 25 + b2n h.eom * 2 ^ 24 + h.fseq % 4096 * 2 ^ 12 + h.ack % 4096) ++
  toLe 4 (b2n h.nak * 2 ^ 31 + h.len * 2 ^ 24 + h.dest) ++ toLe 4 (h.c0 * 2 ^ 28 + h.n0 * 2 ^ 18 + h.src) ++ toLe 4 (h.c1 * 2 ^ 28 + h.n1 * 2 ^ 18)
/-- The header of 16 bytes. -/
def readHdr (bs : List Byte) : FlitHdr :=
  let w (i : Nat) : Nat := ofLe ((bs.drop (4 * i)).take 4)
  { kind := bitsN (w 0) 31 30, vc := bitsN (w 0) 29 27, dl := bitsN (w 0) 26 26, som := bitsN (w 0) 25 25 == 1, eom := bitsN (w 0) 24 24 == 1,
    fseq := bitsN (w 0) 23 12, ack := bitsN (w 0) 11 0, nak := bitsN (w 1) 31 31 == 1, len := bitsN (w 1) 30 24, dest := bitsN (w 1) 17 0,
    c0 := bitsN (w 2) 31 28, n0 := bitsN (w 2) 27 18, src := bitsN (w 2) 17 0, c1 := bitsN (w 3) 31 28, n1 := bitsN (w 3) 27 18,
    rsvd := bitsN (w 1) 23 18 + bitsN (w 3) 17 0 }
/-- The data symbols of a codeword (R445): the alignment marker, then the 640 bytes of a flit, their bits in order of significance (log 36). -/
def codewordData (flit : List Byte) : List Nat := [0x2B5, 0x14A] ++ (upto 512).map fun i => ofLe flit / 2 ^ (10 * i) % 1024
/-- A codeword: 514 data symbols and 30 check symbols, of a code whose polynomials the spec does not give (log 36). -/
def codeword (flit : List Byte) : List Nat := codewordData flit ++ (upto 30).map fun i => (Config.rsCheck (codewordData flit) i).toNat
/-- The symbols that lane `j` of the eight carries: symbol `i` goes on lane `i` modulo 8 (R445). -/
def laneSymbols (flit : List Byte) (j : Nat) : List Nat := ((codeword flit).zipIdx.filter fun p => p.2 % 8 == j).map (·.1)
/-- A whole flit: header, payload of 616 bytes, CRC-64. -/
def flitBytes (h : FlitHdr) (pay : List Byte) : List Byte :=
  let b := h.bytes ++ padTo 616 pay
  b ++ toLe 8 (crc64 b)
/-- ACK, NAK and credits of a good header. -/
def Mod.takeHeader (m : Mod) (l : Nat) (h : FlitHdr) : Mod :=
  m.updLink l fun k =>
    let rep := k.replay.filter fun f => fseqAfter f.seq h.ack
    let cut := k.replay.length - rep.length
    let back (t : Tab Nat) (c n : Nat) : Tab Nat := if c < 12 then Tab.setD 0 t c (Tab.get 0 t c + n) else t
    { k with ctrlOut := 0, replay := rep, credits := back (back k.credits h.c0 h.n0) h.c1 h.n1,
             resend := if h.nak then (if rep.isEmpty then none else some 0) else k.resend.bind fun i => if i < cut then (if rep.isEmpty then none else some 0) else some (i - cut) }
/-- The reserved fields of a DATA header are sound (R446). -/
def FlitHdr.sound (h : FlitHdr) (most : Nat) : Bool :=
  h.rsvd == 0 && decide (h.vc < 6) && decide (8 * h.len ≤ most) && (h.c0 == 15 || decide (h.c0 < 12)) && (h.c1 == 15 || decide (h.c1 < 12))
/-- A flit arrives in a codeword with `fec` symbols in error (R445, R448): where it cannot be corrected, or its CRC is bad, it is discarded and the next
header carries NAK; otherwise its header is taken. -/
def Mod.flitGood (m : Mod) (l : Nat) (fec : FecOut) (good : Bool) (h : FlitHdr) : Option FlitHdr × Mod :=
  let m1 := m.pcnt l 1 1
  if 15 < fec.val ∨ !good then (none, (m1.pcnt l 3 1).updLink l fun k => { k with nak := true, naked := true })
  else
    let m2 := if 0 < fec.val then (m1.pcnt l 2 1).evPort (l / 6) 0x04 1 none else m1
    (some h, m2.takeHeader l h)
/-- The same of the 640 bytes of an IDLE or DATA flit. -/
def Mod.flitCheck (m : Mod) (l : Nat) (fec : FecOut) (bs : List Byte) : Option FlitHdr × Mod :=
  m.flitGood l fec (bs.length == 640 && ofLe (bs.drop 632) == crc64 (bs.take 632)) (readHdr bs)
/-- A control message arrives in CTRL flits (R444, R446): one that is malformed, by its header or otherwise, fences the link with BADCTRL. -/
def Mod.ctrlIn (m : Mod) (l : Nat) (w : CtrlWire) (formed : Bool) (f : Mod → Mod) : Mod :=
  let st := m.linkState l
  if st < 4 ∨ 6 < st then m
  else match m.flitGood l w.fec w.crc (readHdr (toLe 16 w.head.toNat)) with
    | (none, m1) => m1
    | (some h, m1) => if h.kind = 2 ∧ h.sound 616 ∧ formed then f m1 else m1.linkFail l 0x16

/-! ## Authentication (R460, R461) -/

/-- This side's HELLO on a link. -/
def Mod.ownHello (m : Mod) (l : Nat) (nonce : List Byte) : Hello :=
  let lp := m.rdf (bPort (l / 6)) 25 24
  { nonce := nonce, dev := BitVec.ofNat 18 m.dev, port := Fin.ofNat 6 (l / 6), half := decide (3 ≤ l % 6),
    index := Fin.ofNat 6 (if m.topo = 2 then l % 3 else l % 6), topo := m.rd (bLNK + 0x008), lp3 := lp != 1, lp2 := lp != 0,
    encOffered := lp != 1, encRequired := m.rdf (bPort (l / 6)) 16 16 == 1 }
/-- Bytes of a HELLO (log 7). -/
def helloRaw (h : Hello) : List Byte :=
  Config.helloBytes h.nonce [h.dev.toNat, h.port.val, b2n h.half, h.index.val, h.topo.toNat, b2n h.lp3, b2n h.lp2, b2n h.encOffered, b2n h.encRequired]
/-- LOCK_ACHIEVED: LOCK to AUTH; this side's HELLO is sent. -/
def Mod.lockAchieved (m : Mod) (l : LinkId) : Mod :=
  if m.linkState l.val ≠ 3 then m
  else
    let r := m.drbg 32
    let h := r.2.ownHello l.val r.1
    ((r.2.updLink l.val fun k => { k with auth := { own := [helloRaw h] }, ctrl := [.hello h], ctrlSent := 0, ctrlOut := 0, credits := [] }).linkGo l.val 4)
/-- The wiring check (R441). -/
def Mod.wired (m : Mod) (l : Nat) (h : Hello) : Bool :=
  h.dev.toNat == m.neighbour (m.groupOfLink l) && h.topo == m.rd (bLNK + 0x008) &&
  (if m.topo = 2 then h.port.val == l / 6 && h.half != decide (3 ≤ l % 6) else h.port.val == nxor (l / 6) 1)
/-- The protocol of a link: LP3 where both sides allow it, else LP2 where both do (DEDUCED, log 26). -/
def Mod.protocol (m : Mod) (l : Nat) (h : Hello) : Option Nat :=
  let lp := m.rdf (bPort (l / 6)) 25 24
  let want := if lp ≠ 1 ∧ h.lp3 then some 3 else if lp ≠ 0 ∧ h.lp2 then some 2 else none
  match want with
  | some v =>
    if ((upto 6).map (6 * (l / 6) + ·)).any fun o => o != l && m.linkState o == 6 && m.rdf (bLink o) 5 4 != v then none else some v
  | none => none
/-- A control flit of AUTH comes at its step; anywhere else it is unexpected (R444). -/
def Mod.authStep (m : Mod) (l step : Nat) (w : CtrlWire) (formed : Bool) (f : Mod → Mod) : Mod :=
  m.ctrlIn l w formed fun m => if m.linkState l = 4 ∧ (m.link l).auth.step = step then f m else m.linkFail l 0x16
/-- The partner's HELLO: wiring, protocol, encryption in this order (R460). -/
def Mod.takeHello (m : Mod) (l : LinkId) (h : Hello) : Mod :=
  if !m.wired l.val h then m.linkFail l.val 0x10
  else match m.protocol l.val h with
    | none => m.linkFail l.val 0x13
    | some v =>
      let need := m.rdf (bPort (l.val / 6)) 16 16 == 1
      if (need || h.encRequired) && (v == 2 || !h.encOffered) then m.linkFail l.val 0x12
      else
        let r := m.drbg 64
        let key := Config.mlkemKey r.1
        let chain := r.2.identChain ++ aliasKey r.2.fit.m1
        let enc := need || h.encRequired
        let plink := h.index.val + (if m.topo = 2 ∧ h.half then 3 else 0)
        let stat := setFld (setFld (setFld (setFld (setFld (m.rd (bLink l.val)) 50 48 h.port.val) 47 45 plink) 41 24 h.dev.toNat) 5 4 v) 6 6 (b2n enc)
        (r.2.updLink l.val fun k => { k with
          auth := { k.auth with step := 1, partner := [helloRaw h], own := k.auth.own ++ [key ++ chain], seed := r.1, enc := enc }
          ctrl := k.ctrl ++ [.keys key chain] }).wr (bLink l.val) stat
/-- AUTH_HELLO: the partner's HELLO arrives. -/
def Mod.authHello (m : Mod) (l : LinkId) (w : CtrlWire) (h : Hello) : Mod := m.authStep l.val 0 w true fun m => m.takeHello l h
/-- AUTH_KEYS: the partner's encapsulation key and identity chain. -/
def Mod.authKeys (m : Mod) (l : LinkId) (w : CtrlWire) (key chain : List Byte) : Mod :=
  m.authStep l.val 1 w (key.length == 1184) fun m =>
    match Config.chainKey ((upto 8).map fun i => m.rd (bLNK + 0x040 + 8 * i)) chain with
    | none => m.linkFail l.val 0x11
    | some ident =>
      let r := m.drbg 32
      let e := Config.mlkemEncap key r.1
      r.2.updLink l.val fun k => { k with
        auth := { k.auth with step := 2, partner := k.auth.partner ++ [key ++ chain], own := k.auth.own ++ [e.1], itsKey := key, itsSecret := e.2, identity := ident }
        ctrl := k.ctrl ++ [.encap e.1] }
/-- This module is side A of a link: the lower device ID. -/
def Mod.sideA (m : Mod) (l : Nat) : Bool := decide (m.dev < m.rdf (bLink l) 41 24)
/-- The digest of steps 1 to 3, A's first at each step (R460). -/
def Mod.authDigest (m : Mod) (l : Nat) : List Byte :=
  let a := (m.link l).auth
  let one := if m.sideA l then a.own else a.partner
  let two := if m.sideA l then a.partner else a.own
  shake256 ((upto 3).flatMap fun i => one.getD i [] ++ two.getD i []) 64
/-- AUTH_ENCAPSULATION: the partner's ciphertext; this side signs. -/
def Mod.authEncap (m : Mod) (l : LinkId) (w : CtrlWire) (ct : List Byte) : Mod :=
  m.authStep l.val 2 w (ct.length == 1088) fun m =>
    let m1 := m.updLink l.val fun k => { k with auth := { k.auth with step := 3, partner := k.auth.partner ++ [ct], mySecret := Config.mlkemDecap k.auth.seed ct } }
    let (rnd, m2) := m1.drbg 32
    m2.updLink l.val fun k => { k with ctrl := k.ctrl ++ [.signature (Config.mldsaSign (aliasSeed m1.fit.m1) [] rnd (m1.authDigest l.val))] }
/-- AUTH_SIGNATURE: verified, the session keys are derived and the link is HELD, or UP (R443, R461). -/
def Mod.authSignature (m : Mod) (l : LinkId) (w : CtrlWire) (sig : List Byte) : Mod :=
  m.authStep l.val 3 w (sig.length == 3309) fun m =>
    let a := (m.link l.val).auth
    let h := m.authDigest l.val
    if !Config.mldsaVerify a.identity [] h sig then m.linkFail l.val 0x11
    else
      let isA := m.sideA l.val
      let s := shake256 ((if isA then a.mySecret ++ a.itsSecret else a.itsSecret ++ a.mySecret) ++ h) 72
      let ab := s.take 32
      let ba := (s.drop 32).take 32
      let sab := (s.drop 64).take 4
      let sba := (s.drop 68).take 4
      let ses : Session := if isA then { txKey := ab, rxKey := ba, txSalt := sab, rxSalt := sba } else { txKey := ba, rxKey := ab, txSalt := sba, rxSalt := sab }
      (((m.updLink l.val fun k => { k with session := ses, auth := { k.auth with step := 4 } }).linkGo l.val 5).linkStart l.val)

/-! ## Sealed flits (R462) -/

/-- The IV of R462: the salt, then the count, as a number of 96 bits. -/
def gcmNonce (salt : List Byte) (count : Nat) : Nat := ofLe (salt ++ toLe 8 count)
/-- The key after a flit: replaced after every 2³² flits (R462). -/
def nextKey (key : List Byte) (count : Nat) : List Byte := if count % 2 ^ 32 = 0 then shake256 (key ++ toLe 8 count) 32 else key
/-- The header fields that every flit of a link carries: ACK, NAK, which stands in the one header after a discard (R448), and up to two classes of
credits to return. -/
def Mod.stamp (m : Mod) (l : Nat) (h : FlitHdr) : FlitHdr × Mod :=
  let k := m.link l
  let cs := (k.owed.filter fun p => p.2 != 0).take 2
  let c := fun (i : Nat) => (cs[i]?).map fun p => (p.1, min p.2 1023)
  let m1 := m.updLink l fun k => { k with owed := cs.foldl (fun t p => Tab.setD 0 t p.1 (p.2 - min p.2 1023)) k.owed, nak := false }
  ({ h with ack := k.rxSeq, nak := k.nak, c0 := ((c 0).map (·.1)).getD 15, n0 := ((c 0).map (·.2)).getD 0, c1 := ((c 1).map (·.1)).getD 15, n1 := ((c 1).map (·.2)).getD 0 }, m1)
/-- Put a flit of the replay buffer on the line. -/
def Mod.putFlit (m : Mod) (l : Nat) (f : SentFlit) : Mod :=
  let r := m.stamp l { kind := 1, vc := f.vc, dl := f.dl, som := f.som, eom := f.eom, fseq := f.seq, len := f.len / 8, dest := f.dest, src := f.src }
  let pay := if m.sealed l then Config.gcmSeal f.key (gcmNonce (m.link l).session.txSalt f.count) (r.1.bytes ++ padTo 600 f.data) else f.data
  (r.2.updLink l fun k => { k with last := some (.flit (flitBytes r.1 pay)) }).pcnt l 0 1

/-! ## Arbitration (R455) -/

/-- The UP link of a group that holds the most credits for a class, the lowest number among equals. -/
def Mod.pinFor (m : Mod) (g cls : Nat) : Option Nat :=
  (m.upLinks g).foldl (fun (a : Option Nat) l =>
    match a with
    | none => some l
    | some b => if Tab.get 0 (m.link b).credits cls < Tab.get 0 (m.link l).credits cls then some l else a) none
/-- The position in its group's queue of the message of virtual channel `v` whose next flit may go on link `l`: one that is pinned there, or the
first one not started, where its link would be `l` and no message of its class is being sent there. Its class needs a credit, and the flit its bytes
where the message is passed on as it comes. -/
def Mod.readyOn (m : Mod) (l v : Nat) : Option Nat :=
  let g := m.groupOfLink l
  let q := Tab.get [] m.lnk.groups g
  let cls (x : OutMsg) : Nat := 2 * v + x.dl
  let credit (x : OutMsg) : Bool := decide (0 < Tab.get 0 (m.link l).credits (cls x)) && (!x.more || decide (x.sent + m.payload l ≤ x.msg.data.length))
  match firstIx (fun x => x.msg.vc == v && x.link == some l && credit x) q with
  | some i => some i
  | none =>
    match firstIx (fun x => x.msg.vc == v && x.link.isNone) q with
    | none => none
    | some i =>
      let x := q.getD i {}
      if m.pinFor g (cls x) = some l ∧ credit x ∧ !(q.any fun y => y.msg.vc == v && y.dl == x.dl && y.link == some l) then some i else none
/-- Some link of a port may send a flit of a virtual channel. -/
def Mod.portReady (m : Mod) (p v : Nat) : Bool := (upto 6).any fun j => m.linkState (6 * p + j) == 6 && (m.readyOn (6 * p + j) v).isSome
/-- Flits that a virtual channel has sent in the port's round; at its weight, or skipped, it waits for the next round. -/
def Mod.sentInRound (m : Mod) (p v : Nat) : Nat := Tab.get 0 m.lnk.round (8 * p + v)
/-- The virtual channel that a round gives link `l`, with the round's record; a round whose channels have all sent or been skipped ends. -/
def Mod.roundPick (m : Mod) (l : Nat) : Option Nat × Tab Nat :=
  let p := l / 6
  let w (v : Nat) : Nat := m.rdf (bPort p + 0x08) (6 * v + 5) (6 * v)
  let skip (t : Tab Nat) : Tab Nat := (upto 6).foldl (fun t v => if Tab.get 0 t (8 * p + v) < w v ∧ !m.portReady p v then Tab.put t (8 * p + v) 64 else t) t
  let pick (t : Tab Nat) : Option Nat := (upto 6).find? fun v => decide (Tab.get 0 t (8 * p + v) < w v) && (m.readyOn l v).isSome
  let t1 := skip m.lnk.round
  if (upto 6).all fun v => decide (w v ≤ Tab.get 0 t1 (8 * p + v)) then
    let t2 := skip (Tab.clear m.lnk.round (8 * p) (8 * p + 8))
    (pick t2, t2)
  else (pick t1, t1)
/-- Send the next flit of the message at position `i` of the link's group. -/
def Mod.sendNext (m : Mod) (l i : Nat) : Mod :=
  let g := m.groupOfLink l
  let q := Tab.get [] m.lnk.groups g
  let x := q.getD i {}
  let k := m.link l
  let n := m.payload l
  let part := (x.msg.data.drop x.sent).take n
  let last := !x.more && decide (x.msg.data.length ≤ x.sent + n)
  let cls := 2 * x.msg.vc + x.dl
  let f : SentFlit := { seq := k.txSeq, vc := x.msg.vc, dl := x.dl, som := x.sent == 0, eom := last, dest := x.msg.dest, src := x.msg.src, data := part,
                        len := (part.length + 7) / 8 * 8, count := k.session.txCount, key := k.session.txKey,
                        whole := if last then some { x with held := none, seam := none } else none }
  let one : Option InMsg := x.held.map fun h => { h with flits := if last then h.flits else min 1 h.flits }
  let x1 : OutMsg := { x with link := some l, sent := x.sent + n, held := x.held.map fun h => { h with flits := h.flits - 1 } }
  let m1 : Mod := { m with lnk := { m.lnk with groups := Tab.put m.lnk.groups g (if last then dropAt q i else q.set i x1) } }
  let m2 := m1.updLink l fun k => { k with
    txSeq := (k.txSeq + 1) % 4096, replay := k.replay ++ [f], credits := Tab.setD 0 k.credits cls (Tab.get 0 k.credits cls - 1)
    session := { k.session with txCount := k.session.txCount + 1, txKey := nextKey k.session.txKey (k.session.txCount + 1) } }
  let m3 := match one with | some h => m2.freeMsg h | none => m2
  (m3.putFlit l f).evPort (l / 6) 0x01 1 (some x.msg.vc)
/-- The flits that a control message takes (log 36). -/
def Ctrl.flits : Ctrl → Nat
  | .keys key chain => max 1 (cdiv (key.length + chain.length) 616)
  | .encap ct => max 1 (cdiv ct.length 616)
  | .signature sig => max 1 (cdiv sig.length 616)
  | _ => 1
/-- Send an IDLE flit. -/
def Mod.sendIdle (m : Mod) (l : Nat) : Mod :=
  let r := m.stamp l {}
  (r.2.updLink l fun k => { k with last := some (.flit (flitBytes r.1 [])) }).pcnt l 0 1
/-- Send the next CTRL flit of the first control message; a MARK takes the new settings with it, and may close the link (R469). -/
def Mod.sendCtrl (m : Mod) (l : Nat) (c : Ctrl) (rest : List Ctrl) : Mod :=
  let closing := (m.link l).closing
  let r := m.stamp l { kind := 2 }
  let m1 := (r.2.updLink l fun k =>
    let n := k.ctrlSent + 1
    { k with last := some (.ctrl r.1.bytes c), ctrlOut := k.ctrlOut + 1, ctrl := if n < c.flits then k.ctrl else rest, ctrlSent := if n < c.flits then n else 0 }).pcnt l 0 1
  if c = .mark then
    let m2 := (m1.pcnt l 7 1).switchLink l
    if closing then m2.linkDisable l else m2
  else m1
/-- Resend a flit of the replay buffer; a flit resent 8 times takes the link to FAILED (R448). -/
def Mod.sendAgain (m : Mod) (l i : Nat) (f : SentFlit) : Mod :=
  let f1 : SentFlit := { f with resent := f.resent + 1 }
  let m1 := m.updLink l fun k => { k with replay := k.replay.set i f1, resend := if i + 1 < k.replay.length then some (i + 1) else none }
  let m2 := ((m1.putFlit l f1).pcnt l 4 1).evPort (l / 6) 0x03 1 (some f.vc)
  if 8 ≤ f1.resent then m2.linkFail l 0x05 else m2
/-- Send a new flit, the one that the port's round gives the link, else IDLE (R455). -/
def Mod.sendNew (m : Mod) (l : Nat) : Mod :=
  let r := m.roundPick l
  let m1 : Mod := { m with lnk := { m.lnk with round := r.2 } }
  match r.1 with
  | none => m1.sendIdle l
  | some v =>
    match m1.readyOn l v with
    | none => m1.sendIdle l
    | some i => ({ m1 with lnk := { m1.lnk with round := Tab.upd 0 m1.lnk.round (8 * (l / 6) + v) (· + 1) } } : Mod).sendNext l i

/-! ## Receive buffers (R451, R452, R457 to R459, R638) -/

/-- A message in a link's receive buffer for another module, whole or as much of it as has come: routed to its egress link, which takes its flits
as they come, or dropped (R447, R450, R457). -/
def Mod.transit (m : Mod) (l vc dl : Nat) (x : PartMsg) (eom : Bool) : Mod :=
  let cls := 2 * vc + dl
  let im : InMsg := { msg := { dest := x.dest, src := x.src, vc := vc, data := x.data }, link := some l, cls := cls, flits := x.flits }
  let m1 := m.updLink l fun k => { k with parts := if eom then Tab.del k.parts cls else Tab.put k.parts cls { x with out := true, flits := 0 } }
  match m.route x.dest (some (m.dimOf (m.groupOfLink l), dl)) with
  | none => m1.freeMsg im
  | some (g, dl') =>
    if (m.upLinks g).isEmpty then (((m1.inc (bPort (g / 2) + 0x40 + 8 * 5)).answerUnreach im.msg).freeMsg im)
    else (m1.enqueue g { msg := im.msg, dl := dl', held := some im, more := !eom, cut := if eom then none else some (l, cls) }).evPort (l / 6) 0x06 1 (some vc)
/-- What has come of a message stays in the receive buffer; a whole one has arrived at its consumer, or, for another module, waits behind a chunk
that waits (R42). What the fitter has taken of vc0 is in its hands (R451). -/
def Mod.stays (m : Mod) (l vc dl : Nat) (x : PartMsg) (eom : Bool) : Mod :=
  let cls := 2 * vc + dl
  let msg : Msg := { dest := x.dest, src := x.src, vc := vc, data := x.data }
  if !eom then m.updLink l fun k => { k with parts := Tab.put k.parts cls x }
  else
    let m1 := m.updLink l fun k => { k with parts := Tab.del k.parts cls }
    if vc = 0 ∧ x.dest = m.dev then { m1 with lnk := { m1.lnk with fitIn := m1.lnk.fitIn ++ [msg] } }
    else m1.arrive { msg := msg, link := some l, cls := cls, flits := x.flits }
/-- What has come of a message that no one has taken yet: forwarded, dropped, or taken by its consumer, unless a waiting chunk holds it back or, of
vc1, the endpoint has no room for it (R42, R451, R452, R459). -/
def Mod.partIn (m : Mod) (l vc dl : Nat) (x : PartMsg) (eom : Bool) : Mod :=
  let taken : InMsg := { link := some l, cls := 2 * vc + dl, flits := x.flits }
  if !m.devOk x.dest then
    let m1 := m.freeMsg taken
    if eom then (m1.pcnt l 5 1).updLink l fun k => { k with parts := Tab.del k.parts (2 * vc + dl) } else m1.stays l vc dl { x with flits := 0 } false
  else if x.dest ≠ m.dev then if vc = 1 ∧ m.vc1Held l then m.stays l vc dl x eom else m.transit l vc dl x eom
  else if vc = 1 ∧ !m.chunkTakes l x.data then m.stays l vc dl x eom
  else (m.stays l vc dl { x with flits := 0 } eom).freeMsg taken
/-- A message for another module that has waited behind a chunk is forwarded once the chunk has gone (R42). -/
def Mod.forwardHeld (m : Mod) : Mod :=
  match firstIx (fun (x : InMsg) => x.msg.dest != m.dev && match x.link with | some l => !m.vc1Held l | none => true) m.lnk.arrived with
  | none => m
  | some i =>
    let x := m.lnk.arrived[i]?.getD {}
    let m1 : Mod := { m with lnk := { m.lnk with arrived := dropAt m.lnk.arrived i } }
    m1.transit (x.link.getD 0) x.msg.vc (x.cls % 2) { dest := x.msg.dest, src := x.msg.src, data := x.msg.data, flits := x.flits } true
/-- Before a link sends, what has become free in its receive buffer is taken, so that its credits travel in the next header (R452). -/
def Mod.serveBuffers (m : Mod) (l : Nat) : Mod :=
  let m1 := (upto m.lnk.arrived.length).foldl (fun (m : Mod) _ => m.forwardHeld) m
  ((m1.link l).parts.filter fun p => !p.2.out && p.2.flits != 0).foldl (fun (m : Mod) p => m.partIn l (p.1 / 2) (p.1 % 2) p.2 false) m1
/-- CODEWORD_SLOT: a link sends its next flit: control flits first, at most four without an answer (R452), then what is to be resent, then what the round
gives it, else IDLE (R448, R455). -/
def Mod.codewordSlot (m0 : Mod) (l : LinkId) : Mod :=
  let st := m0.linkState l.val
  if st < 4 ∨ 6 < st then m0
  else
    let m := m0.serveBuffers l.val
    let k := m.link l.val
    match (if k.ctrlOut < 4 then k.ctrl else []) with
    | c :: rest => m.sendCtrl l.val c rest
    | [] =>
      if st ≠ 6 then m.sendIdle l.val
      else match k.resend with
        | some i =>
          match k.replay[i]? with
          | none => (m.updLink l.val fun k => { k with resend := none }).sendIdle l.val
          | some f => m.sendAgain l.val i f
        | none => if 128 ≤ k.replay.length then m.sendIdle l.val else m.sendNew l.val

/-! ## Receiving (R448, R452, R459, R638) -/

/-- A DATA flit in order, with the text of its payload (R638). -/
def Mod.flitIn (m : Mod) (l : Nat) (h : FlitHdr) (pay : List Byte) : Mod :=
  let cls := 2 * h.vc + h.dl
  let data := pay.take (8 * h.len)
  let one : InMsg := { link := some l, cls := cls, flits := 1 }
  if h.som then (m.dropPart l cls).partIn l h.vc h.dl { dest := h.dest, src := h.src, data := data, flits := 1 } h.eom
  else match Tab.get? (m.link l).parts cls with
    | none => (m.pcnt l 5 1).freeMsg one
    | some x =>
      if x.out then
        let onward := m.lnk.groups.any fun g => g.2.any fun y => y.cut == some (l, cls) && y.held.isSome
        let m1 := m.cutMore l cls data h.eom
        let m2 := if h.eom then m1.updLink l fun k => { k with parts := Tab.del k.parts cls } else m1.updLink l fun k =>
          { k with parts := Tab.put k.parts cls { x with data := x.data ++ data } }
        if onward then m2 else m2.freeMsg one
      else m.partIn l h.vc h.dl { x with data := x.data ++ data, flits := x.flits + 1 } h.eom
/-- DATA_FLIT (R448): in order it is delivered; out of order it is discarded, with one NAK for each gap (log 83); the home of the reserved KIND
(log 11), and of CTRL flits that are none of the six messages: BADCTRL (R444). A flit beyond the credits that this side has returned is CREDOVER. -/
def Mod.dataFlit (m : Mod) (l : LinkId) (fec : FecOut) (bs : List Byte) : Mod :=
  let st := m.linkState l.val
  if st < 4 ∨ 6 < st then m
  else match m.flitCheck l.val fec bs with
    | (none, m1) => m1
    | (some h, m1) =>
      if h.kind ≠ 1 then (if h.kind = 0 then m1 else if h.kind = 2 then m1.linkFail l.val 0x16 else m1.pcnt l.val 5 1)
      else if st ≠ 6 then m1.pcnt l.val 5 1
      else
        let k := m1.link l.val
        let cls := 2 * h.vc + h.dl
        let m2 := m1.evPort (l.val / 6) 0x02 1 (some h.vc)
        if h.fseq ≠ (k.rxSeq + 1) % 4096 then (if fseqAfter h.fseq k.rxSeq ∧ !k.naked then m2.updLink l.val fun k => { k with nak := true, naked := true } else m2)
        else if h.vc < 6 ∧ m1.credAlloc l.val cls ≤ Tab.get 0 k.occ cls + Tab.get 0 k.owed cls then m2.linkFail l.val 0x14
        else
          let raw := (bs.drop 16).take 616
          let text : Option (List Byte) := if m1.sealed l.val then Config.gcmOpen k.session.rxKey (gcmNonce k.session.rxSalt k.session.rxCount) (h.bytes ++ raw) else some raw
          match text with
          | none => m2.linkFail l.val 0x15
          | some pay =>
            let m3 := m2.updLink l.val fun k => { k with
              rxSeq := h.fseq, naked := false, occ := if h.vc < 6 then Tab.upd 0 k.occ cls (· + 1) else k.occ
              session := { k.session with rxCount := k.session.rxCount + 1, rxKey := nextKey k.session.rxKey (k.session.rxCount + 1) } }
            if h.sound (m1.payload l.val) then m3.flitIn l.val h pay
            else if h.vc < 6 then (m3.pcnt l.val 5 1).freeMsg { link := some l.val, cls := cls, flits := 1 } else m3.pcnt l.val 5 1
/-- IDLE_FLIT: acknowledgements and credits alone (R446). -/
def Mod.idleFlit (m : Mod) (l : LinkId) (fec : FecOut) (bs : List Byte) : Mod :=
  let st := m.linkState l.val
  if st < 4 ∨ 6 < st then m else (m.flitCheck l.val fec bs).2
/-- HANDOVER: the partner names the lost link, by this side's number, and the last FSEQ it had delivered from it (R449). -/
def Mod.handover (m : Mod) (l : LinkId) (w : CtrlWire) (lost : LinkId) (last : Fin 4096) : Mod :=
  m.ctrlIn l.val w true fun m =>
    if m.linkState l.val ≠ 6 ∨ m.groupOfLink lost.val ≠ m.groupOfLink l.val ∨ lost = l then m.linkFail l.val 0x16
    else
      let m1 := (m.dropParts lost.val).updLink lost.val fun k => { k with report := some last.val }
      if m1.linkState lost.val = 6 then m1 else m1.handOver lost.val
/-- MARK: flits after it were arbitrated under the partner's new settings (R469); nothing of this side changes. -/
def Mod.markFlit (m : Mod) (l : LinkId) (w : CtrlWire) : Mod :=
  m.ctrlIn l.val w true fun m => if m.linkState l.val ≠ 6 then m.linkFail l.val 0x16 else m
/-- An apply point at the links (R469): each UP link sends MARK, and closes after it where it is no longer enabled; other links that are not enabled
go OFF, and OFF links that are enabled look for their partners; HELD links go UP once the outputs are started (R443). -/
def Mod.linkApply (m : Mod) : Mod :=
  (upto 36).foldl (fun (m : Mod) l =>
    let st := m.linkState l
    let on := m.linkEnabled l
    if st = 6 then m.updLink l fun k => { k with ctrl := k.ctrl ++ [.mark], closing := !on }
    else if st = 0 then m.linkDetect l
    else if !on then m.linkDisable l
    else m.linkStart l) m

end Sys2Proof.Machine
end

