-- ==== Sys2Proof/Machine/Pattern.lean ====
section
/-! DEFINITION. The pattern engines (10): rings (R308 to R314), notches and count-downs (R315 to R322), dispatch (R324 to R327), seats
(R328 to R331), switching out and restoring (R333 to R336). -/

namespace Sys2Proof.Machine

/-! ## Rings (R308, R309, R313, R314) -/

/-- 2^RLOG. -/
def Mod.ringLen (m : Mod) (p : Nat) : Nat := 2 ^ m.rdf (bPAT p) 3 0
/-- Ring entries posted and not taken. -/
def Mod.ringFill (m : Mod) (p : Nat) : Nat := (m.rdf (bPAT p + 0x40) 31 0 + 2 ^ 32 - m.rdf (bPAT p + 0x48) 31 0) % 2 ^ 32
/-- Where the entry at the head of the submission ring lies. -/
def Mod.ringPlace (m : Mod) (p : Nat) : Nat := m.rdf (bPAT p) 45 12 * 2 ^ 12 + 32 * (m.rdf (bPAT p + 0x48) 31 0 % m.ringLen p)
/-- The entry at the head of the submission ring. -/
def Mod.ringEntry (m : Mod) (p : Nat) : List Byte := (m.ncRead (m.ringPlace p) 32).1
/-- Completion entries not yet read by the host. -/
def Mod.compFill (m : Mod) (p : Nat) : Nat := (m.rdf (bPAT p + 0x50) 31 0 + 2 ^ 32 - m.rdf (bPAT p + 0x58) 31 0) % 2 ^ 32
/-- Write a completion entry into the ring, which has room: CDONE with PAT_CNT1, DONE_NOTCH, and the slot of a pattern that
completed is free (R313). An entry whose place lies outside the partition's memory is not written (log 62). -/
def Mod.putCompletion (m : Mod) (e : CompEntry) : Mod :=
  let p := e.part
  let t := m.rdf (bPAT p + 0x50) 31 0
  let bytes := toLe 4 (e.failIdx % 2 ^ 16 * 2 ^ 16 + e.slot % 64 * 2 ^ 8 + e.status) ++ toLe 4 e.cancelled ++ toLe 8 e.tag.toNat
  let a := m.rdf (bPAT p + 0x08) 45 12 * 2 ^ 12 + 16 * (t % m.ringLen p)
  let m1 := if (m.part p).holds a 16 then m.ncWrite a bytes else m
  let m2 := ((m1.wrf (bPAT p + 0x50) 31 0 (t + 1)).raise (bPAT p + 0x68) 1).patCnt p 1 1 |>.prtVector p
  match e.notch with
  | some n =>
    let m3 := match m2.pat? p e.slot with
      | some x => m2.dropWords x
      | none => m2
    { m3 with pat := { m3.pat with slots := Tab.del m3.pat.slots (slotKey p e.slot) } }.fire p n (.lead p)
  | none => m2
/-- Write a completion entry, or let it wait for room (R313). -/
def Mod.complete (m : Mod) (e : CompEntry) : Mod :=
  if m.compFill e.part < m.ringLen e.part ∧ !(m.pat.compWait.any fun w => w.part == e.part) then m.putCompletion e
  else { m with pat := { m.pat with compWait := m.pat.compWait ++ [e] } }
/-- A waiting completion entry is written once the ring has room. -/
def Mod.completionRoom (m : Mod) (p : PartId) : Mod :=
  match m.pat.compWait.find? fun e => e.part == p.val with
  | none => m
  | some e =>
    if m.leadUp p.val ∧ m.compFill p.val < m.ringLen p.val then { m with pat := { m.pat with compWait := m.pat.compWait.erase e } }.putCompletion e else m
/-- A ring entry has reserved bits set (R308). -/
def ringReserved (e : List Byte) : Bool := bitsN (descW e 0 4) 31 14 != 0 || descW e 4 4 != 0 || descW e 0x18 8 != 0
/-- SLOT of a ring entry. -/
def ringSlot (e : List Byte) : Nat := bitsN (descW e 0 4) 13 8
/-- A rejected ring entry (R313). -/
def Mod.rejectEntry (m : Mod) (p : Nat) (e : List Byte) (status failIdx : Nat) : Mod :=
  m.complete { part := p, slot := ringSlot e, status := status, failIdx := failIdx, tag := w64 (descW e 0x10 8) }
/-- The lead engine looks at its ring (R309): it takes no entry while the ring is overrun or empty, or while an entry waits to be
written. STOP holds dispatch alone (R525, log 63). An entry outside the partition's memory fails with PAT_RANGE (R301), and what was read of it is a free
value (log 62). -/
def Mod.ringTake (m : Mod) (p : Nat) (ops : Nat → Bool) (f : List Byte → Mod → Mod) : Mod :=
  if (m.part p).st = .free ∨ m.rdf (bPAT p + 0x68) 0 0 = 1 ∨ m.ringFill p = 0 ∨ (m.pat.compWait.any fun w => w.part == p) then m
  else if m.ringLen p < m.ringFill p then m.raise (bPAT p + 0x68) 0
  else
    let m1 := m.wrf (bPAT p + 0x48) 31 0 (m.rdf (bPAT p + 0x48) 31 0 + 1)
    if !(m.part p).holds (m.ringPlace p) 32 then
      if ops 1 then (m1.freeBytes 32).2.rejectEntry p (m1.freeBytes 32).1 0x13 0 else m
    else if ops (bitsN (descW (m.ringEntry p) 0 4) 7 0) then f (m.ringEntry p) m1 else m

/-! ## SUBMIT (R300 to R306, R310, R311, R314) -/

/-- A structure's address is a local physical one, aligned, and its bytes lie in the partition's memory (R301). -/
def Mod.patRange (m : Mod) (p a align n : Nat) : Bool := decide (a < 2 ^ 46) && a % align == 0 && (n == 0 || (m.part p).holds a n)
/-- The structures that a partition's PAT_ registers name: both rings, the binding table, the cap table and the save slots. -/
def Mod.patSpans (m : Mod) (p : Nat) : List (Nat × Nat) :=
  let base (o : Nat) : Nat := m.rdf (bPAT p + o) 45 12 * 2 ^ 12
  [(base 0, 32 * m.ringLen p), (base 0x08, 16 * m.ringLen p), (base 0x10, 0x80000), (base 0x18, 0x1000), (base 0x20, 0x52000 * m.rdf (bPAT p + 0x20) 63 52)]
/-- The pattern that a header describes. -/
def Mod.readHeader (m : Mod) (hdr : Nat) (tag : W64) : PatSlot :=
  let r (o n : Nat) := m.rdLe (hdr + o) n
  { tag := tag, hdr := hdr, fmt := bitsN (r 0 4) 7 0, pieces := bitsN (r 0 4) 31 16 + 1, doneNotch := bitsN (r 4 4) 15 0
    recBase := r 8 8, succBase := r 0x10 8, stateBase := r 0x18 8, ostk := bitsN (r 0x20 4) 31 16, rstk := bitsN (r 0x24 4) 15 0
    stkx := bitsN (r 0x20 4) 7 0, left := bitsN (r 0 4) 31 16 + 1 }
/-- Reserved bits of a header, or a reserved FORMAT. -/
def Mod.headerBad (m : Mod) (hdr : Nat) (x : PatSlot) : Bool :=
  let r (o : Nat) := m.rdLe (hdr + o) 4
  (x.fmt != 1 && x.fmt != 2) || bitsN (r 0) 15 8 != 0 || bitsN (r 4) 31 16 != 0 || bitsN (r 0x20) 15 8 != 0 || bitsN (r 0x24) 31 16 != 0 ||
  (m.rdMem (hdr + 0x28) 0x18).any (· != 0)
/-- A record breaks a rule of PAT_BADPIECE. -/
def Mod.pieceBad (m : Mod) (p : Nat) (x : PatSlot) (i : Nat) : Bool :=
  let f := m.recf x i
  let cs := (m.part p).cores
  let panel := m.recPanel x i
  f 4 23 22 != 0 || f 8 15 10 != 0 || f 0x10 31 24 != 0 || (x.fmt == 2 && (f 8 31 24 != 0 || f 0xC 7 0 != 0)) || f 0 31 0 % 4 != 0 ||
  (m.recSeat x i && !m.recPin x i) || (m.recFan x i && (m.recSeat x i || m.recPin x i)) ||
  (m.recPin x i && (!cs.contains (f 8 7 0) || panelOf (f 8 7 0) != panel)) || !(cs.any fun c => panelOf c == panel)
/-- A successor list breaks a rule of PAT_BADSUCC. -/
def Mod.succBad (m : Mod) (p : Nat) (x : PatSlot) (i : Nat) : Bool :=
  let n := m.recf x i 4 31 24
  n != 0 && (!(m.part p).holds (x.succBase + 2 * m.recf x i 0x10 23 0) (2 * n) || (m.succs x i).any fun s => decide (x.pieces ≤ s))
/-- Entry `i` of the partition's cap table (R306). -/
def Mod.capEntry (m : Mod) (p i : Nat) : Cap := m.rdCap (m.rdf (bPAT p + 0x18) 45 12 * 2 ^ 12 + 16 * i)
/-- The caps that a record names for c0, c1, c4 and c5 (R326). -/
def Mod.recCaps (m : Mod) (p : Nat) (x : PatSlot) (i : Nat) : List Cap :=
  let inl (o : Nat) := m.rdCap (x.recBase + x.recSize * i + o)
  [m.capEntry p (m.recf x i 8 23 16),
   if x.fmt = 2 then inl 0x20 else m.capEntry p (m.recf x i 8 31 24),
   if x.fmt = 2 then inl 0x30 else m.capEntry p (m.recf x i 0xC 7 0),
   m.capEntry p (m.recf x i 0xC 15 8)]
/-- Some cap that a record names is untagged or sealed, or c0 lacks EX (R314, R327). -/
def Mod.capsBad (m : Mod) (p : Nat) (x : PatSlot) (i : Nat) : Bool :=
  let cs := m.recCaps p x i
  cs.any (fun c => !c.tag || c.otype != 0) || !(cs.headD {}).has pEX
/-- The stack pool cap is untagged or sealed, or lacks RD or WR. -/
def Mod.poolCapBad (m : Mod) (p : Nat) (x : PatSlot) : Bool :=
  let c := m.capEntry p x.stkx
  !c.tag || c.otype != 0 || !c.has (pRD + pWR)
/-- Bytes of a core's slice of the stack pool. -/
def PatSlot.slice (x : PatSlot) : Nat := 128 * (x.ostk + x.rstk)
/-- The checks of a SUBMIT in the order of R314: STATUS and FAILIDX of the first that fails. -/
def Mod.submitFail (m : Mod) (p : Nat) (e : List Byte) (x : PatSlot) : Option (Nat × Nat) :=
  let hdr := descW e 8 8
  let op := bitsN (descW e 0 4) 7 0
  let first (f : Nat → Bool) : Option Nat := (upto x.pieces).find? f
  let cap := m.capEntry p x.stkx
  let top := (m.part p).cores.foldl max 0
  if (op ≠ 1 ∧ op ≠ 2) ∨ ringReserved e then some (0x10, 0)
  else if (m.pat? p (ringSlot e)).isSome then some (0x11, 0)
  else if !m.patRange p hdr 64 64 || !m.patRange p x.recBase x.recSize (x.recSize * x.pieces) || !m.patRange p x.succBase 2 0 ||
      !m.patRange p x.stateBase 128 (8 * x.pieces) || ((upto x.pieces).any fun i => m.recf x i 4 31 24 != 0) && !m.patRange p x.succBase 2 2 || (m.patSpans p).any (fun r => !m.patRange p r.1 1 r.2) then some (0x13, 0)
  else if m.headerBad hdr x then some (0x14, 0)
  else match first (m.pieceBad p x) with
    | some i => some (0x15, i)
    | none => match first (m.succBad p x) with
      | some i => some (0x16, i)
      | none =>
        if m.poolCapBad p x then some (0x17, 0)
        else match first (m.capsBad p x) with
          | some i => some (0x17, i)
          | none => if cap.top < cap.base + (top + 1) * x.slice then some (0x18, 0) else none
/-- An accepted SUBMIT (R311). -/
def Mod.acceptPattern (m : Mod) (p s : Nat) (x : PatSlot) : Mod :=
  let m1 := { m with pat := { m.pat with slots := Tab.put m.pat.slots (slotKey p s) x } }.patCnt p 0 1
  (upto x.pieces).foldl (fun (m : Mod) i =>
    let n := m.recf x i 4 15 0
    let id : PieceId := { part := p, slot := s, ix := i }
    let m1 := m.setPiece x i 0 n
    if n ≠ 0 then m1
    else if m.recFan x i then { m1 with pat := { m1.pat with fanouts := m1.pat.fanouts ++ [id] } }
    else m1.readyPiece id x) m1
/-- SUBMIT; the home of reserved codes of OP (log 11). -/
def Mod.submit (m : Mod) (p : PartId) : Mod :=
  m.ringTake p.val (fun op => op != 2) fun e m =>
    let x := m.readHeader (descW e 8 8) (w64 (descW e 0x10 8))
    match m.submitFail p.val e x with
    | some (st, i) => m.rejectEntry p.val e st i
    | none => m.acceptPattern p.val (ringSlot e) x
/-- ABORT (R312): the waiting and ready pieces of the slot are cancelled; a switched-out piece that is ready again is one of them, and its save slot
is free (DEDUCED, log 77). -/
def Mod.abort (m : Mod) (p : PartId) : Mod :=
  m.ringTake p.val (fun op => op == 2) fun e m =>
    let s := ringSlot e
    if ringReserved e then m.rejectEntry p.val e 0x10 0
    else match m.pat? p.val s with
      | none => m.rejectEntry p.val e 0x12 0
      | some x =>
        let gone := (upto x.pieces).filter fun i => decide (m.pieceState x i ≤ 1)
        let m1 := gone.foldl (fun m i => m.setPieceState x i 6) m
        let hit (id : PieceId) : Bool := id.part == p.val && id.slot == s && gone.contains id.ix
        let m2 := m1.updPat p.val s fun y => { y with left := y.left - gone.length, cancelled := y.cancelled + gone.length, aborted := true }
        { m2 with pat := { m2.pat with
            pools := Tab.mapV m2.pat.pools fun _ l => l.filter fun r => !hit r.piece
            poolWait := Tab.mapV m2.pat.poolWait fun _ l => l.filter fun r => !hit r.piece
            fanouts := m2.pat.fanouts.filter fun id => !hit id
            saved := m2.pat.saved.filter fun s => !hit s.piece } }
/-- A write of PAT_RESET.RRESET (R309). -/
def Mod.rreset (m : Mod) (p : PartId) : Mod :=
  (m.wrf (bPAT p.val + 0x48) 31 0 (m.rdf (bPAT p.val + 0x40) 31 0)).wrf (bPAT p.val + 0x68) 0 0 0
/-- A pattern of which every piece has ended completes (R313). -/
def Mod.patternComplete (m : Mod) (p : PartId) (s : Fin 64) : Mod :=
  match m.pat? p.val s.val with
  | some x =>
    if x.left = 0 ∧ m.leadUp p.val ∧ !m.heldBack (.lead p.val) ∧
        !(m.pat.compWait.any fun e => e.part == p.val && e.slot == s.val && e.notch.isSome) then
      m.complete { part := p.val, slot := s.val, status := if x.aborted then 1 else 0, cancelled := x.cancelled, tag := x.tag, notch := some x.doneNotch }
    else m
  | none => m

/-! ## Notches (R315 to R322) -/

/-- One unit is taken from a waiting piece's count; a count that reaches 0 makes the piece ready, or completes a fan-out. A piece that waits no
more, or a slot not in flight, makes the delivery STRAY (R320); a cancelled piece whose count is above 0 too (DEDUCED, log 76). -/
def Mod.countDown (m : Mod) (id : PieceId) : Mod :=
  match m.pat? id.part id.slot with
  | none => m.patCnt id.part 4 1
  | some x =>
    if x.pieces ≤ id.ix then m.patCnt id.part 4 1
    else
      let n := m.pieceCount x id.ix
      if n = 0 ∨ m.pieceState x id.ix ≠ 0 then m.patCnt id.part 4 1
      else
        let m1 := m.setPiece x id.ix 0 (n - 1)
        if n ≠ 1 then m1
        else if m.recFan x id.ix then { m1 with pat := { m1.pat with fanouts := m1.pat.fanouts ++ [id] } }
        else m1.readyPiece id x
/-- The successors that a piece's engine counts down: the list fetched at its dispatch, or, where it had none, the list in memory (R316, R337). -/
def Mod.succsOf (m : Mod) (x : PatSlot) (i : Nat) : List Nat := (Tab.get? x.lists i).getD (m.succs x i)
/-- A piece's successor list is fetched as it is dispatched (R337). -/
def Mod.fetchList (m : Mod) (id : PieceId) (x : PatSlot) : Mod :=
  m.updPat id.part id.slot fun y => { y with lists := Tab.put y.lists id.ix (m.succs x id.ix) }
/-- A completed piece at its home engine: STATE 4, PAT_CNT2, and its listed successors are to be counted down (R316). -/
def Mod.pieceEnds (m : Mod) (id : PieceId) : Mod :=
  match m.pat? id.part id.slot with
  | none => m
  | some x =>
    let m1 := ((m.setPieceState x id.ix 4).patCnt id.part 2 1).updPat id.part id.slot fun y => { y with left := y.left - 1 }
    { m1 with pat := { m1.pat with downs := m1.pat.downs ++ (m.succsOf x id.ix).map fun s => { src := id, dst := { id with ix := s } } } }
/-- The home panel of a piece; one of a slot not in flight is the lead engine's. -/
def Mod.homeOf (m : Mod) (id : PieceId) : Nat :=
  match m.pat? id.part id.slot with
  | some x => m.recPanel x id.ix
  | none => m.leadPanel id.part
/-- The `k`-th completed piece reaches its home engine. -/
def Mod.pieceComplete (m : Mod) (k : Nat) : Mod :=
  match m.pat.completed[k]? with
  | some id => if m.panelUp (m.homeOf id) then { m with pat := { m.pat with completed := dropAt m.pat.completed k } }.pieceEnds id else m
  | none => m
/-- The `k`-th fan-out piece whose count is 0 completes (R315). -/
def Mod.fanoutComplete (m : Mod) (k : Nat) : Mod :=
  match m.pat.fanouts[k]? with
  | some id => if m.panelUp (m.homeOf id) then { m with pat := { m.pat with fanouts := dropAt m.pat.fanouts k } }.pieceEnds id else m
  | none => m
/-- A count-down reaches its state word (R316, R322): of those in flight from the piece of the `k`-th to the panel where it goes, the first in list
order. -/
def Mod.countDownArrives (m : Mod) (k : Nat) : Mod :=
  match m.pat.downs[k]? with
  | some d =>
    let home := m.homeOf d.dst
    match firstIx (fun (e : Down) => e.src == d.src && m.homeOf e.dst == home) m.pat.downs with
    | some i =>
      match m.pat.downs[i]? with
      | some e =>
        if m.panelUp home then
          (({ m with pat := { m.pat with downs := dropAt m.pat.downs i } } : Mod).crosses (some (m.homeOf e.src)) (some home) (some e.dst.part)).countDown e.dst
        else m
      | none => m
    | none => m
  | none => m
/-- Binding entry `n` (R307); one outside the partition's memory is a free value (R301, log 62). -/
def Mod.bindEntry (m : Mod) (p n : Nat) : Nat × Mod :=
  let a := m.rdf (bPAT p + 0x10) 45 12 * 2 ^ 12 + 8 * n
  if (m.part p).holds a 8 then (m.rdLe a 8, m) else (ofLe (m.freeBytes 8).1, (m.freeBytes 8).2)
/-- Notch `n` at the binding table: the piece of a VALID entry is counted down; without one it is UNBOUND where no seat took it (R319, R320). -/
def Mod.bound (m : Mod) (p n : Nat) (seated : Bool) : Mod :=
  let e := m.bindEntry p n
  if bitsN e.1 63 63 = 1 then e.2.countDown { part := p, slot := bitsN e.1 45 40, ix := bitsN e.1 15 0 }
  else if seated then e.2 else e.2.patCnt p 3 1
/-- A fire of external notch `n` at the lead engine (R319, R320): every seat that binds it, and the piece of a VALID binding
entry; with neither it is UNBOUND. -/
def Mod.deliver (m : Mod) (p n : Nat) (src : FireSrc) : Mod :=
  let seats := (m.part p).cores.filterMap fun c => ((m.core c).seatFor n).map fun i => (c, i)
  (seats.foldl (fun m s => m.seatDeliver n src s.1 s.2) m).bound p n (!seats.isEmpty)
/-- The panel from which a notch is fired, where its source lies on one. -/
def FireSrc.panel : FireSrc → Option Nat
  | .core c => if c < 256 then some (panelOf c) else none
  | .shuttle s => some (s / 2)
  | _ => none
/-- A notch goes from one panel to another over their die-to-die link: it is counted where it is sent and where it is received (R622). -/
def Mod.notchCrosses (m : Mod) (src : Option Nat) (dst part : Nat) : Mod :=
  match src with
  | some a => if a = dst then m else (m.crosses src (some dst) (some part)).evPanel dst 0x03 1 (some part)
  | none => m
/-- The `k`-th fire in flight reaches its lead engine; it waits behind a delivery of its source that is held (R331). -/
def Mod.notchDelivery (m : Mod) (k : Nat) : Mod :=
  match m.pat.fires[k]? with
  | some f =>
    if !m.leadUp f.part ∨ m.heldBack f.src then m
    else (({ m with pat := { m.pat with fires := dropAt m.pat.fires k } } : Mod).notchCrosses f.src.panel (m.leadPanel f.part) f.part).deliver f.part f.notch f.src
  | none => m
/-- A host's write of PAT_NFIRE. -/
def Mod.patNfire (m : Mod) (p : PartId) (v : W64) : Mod := m.fire p.val (fld v 15 0) (.host p.val)
/-- A ready piece that waits in memory enters its panel's pool (R324). -/
def Mod.poolSpace (m : Mod) (panel : PanelId) : Mod :=
  match Tab.get [] m.pat.poolWait panel.val with
  | [] => m
  | r :: rest =>
    if (m.pool panel.val).length < 4096 then
      { m with pat := { m.pat with pools := Tab.upd [] m.pat.pools panel.val (· ++ [r]), poolWait := Tab.put m.pat.poolWait panel.val rest } }
    else m
/-- The `k`-th held delivery is applied once its seat count has room; where the seat is gone it goes to the binding table, or is UNBOUND
(R330, R331). -/
def Mod.seatResume (m : Mod) (k : Nat) : Mod :=
  match m.pat.held[k]? with
  | none => m
  | some d =>
    let q := m.core d.core
    let m1 := { m with pat := { m.pat with held := dropAt m.pat.held k } }
    if !m.leadUp d.piece.part then m
    else if q.run ≠ .seated ∨ q.piece ≠ some d.piece then m1.bound d.piece.part d.notch false
    else if q.cregf 0x0A0 (16 * d.seat + 15) (16 * d.seat) = 65535 then m else m1.seatDeliver d.notch d.src d.core d.seat

/-! ## The save area (R334) -/

/-- Base of a save slot. -/
def Mod.saveBase (m : Mod) (p slot : Nat) : Nat := m.rdf (bPAT p + 0x20) 45 12 * 2 ^ 12 + 0x52000 * slot
/-- The lowest free save slot of a partition. -/
def Mod.freeSave (m : Mod) (p : Nat) : Option Nat :=
  (upto (m.rdf (bPAT p + 0x20) 63 52)).find? fun s => !(m.pat.saved.any fun t => t.piece.part == p && t.slot == s)
/-- Write an image with the tags of its caps. -/
def Mod.putImage (m : Mod) (a : Nat) (i : Image) : Mod :=
  let m1 := m.ncWrite a i.bytes
  (upto 8).foldl (fun (m : Mod) k => if (i.cap k).tag then { m with tags := Tab.setD false m.tags ((a + 0x80 + 16 * k) / 16) true } else m) m1
/-- Read an image with the tags of its caps. -/
def Mod.getImage (m : Mod) (a : Nat) : Image :=
  { words := (upto 80).map fun k => (k, w64 (m.rdLe (a + 8 * k) 8)), tags := (upto 8).map fun k => (k, m.tagAt (a + 0x80 + 16 * k)) }
/-- Accumulator words as bytes. -/
def accBytes (t : Tab W32) (first n : Nat) : List Byte := (upto n).flatMap fun i => toLe 4 (Tab.get 0 t (first + i)).toNat
/-- Write the marked parts of a core's units into a save slot. -/
def Mod.saveUnits (m : Mod) (c a : Nat) : Mod :=
  let k := m.core c
  let masks := (upto 8).foldl (fun (m : Mod) j => if (k.creg 0x2018).getLsbD (32 + j) then m.ncWrite (a + 0x1000 + 256 * j) (toLe 256 (Tab.get 0 k.vec.masks j)) else m) m
  let chains := (upto 16).foldl (fun (m : Mod) j => if (k.creg 0x3018).getLsbD j then m.ncWrite (a + 0x1800 + 128 * j) (padTo 128 (Tab.get [] k.fin.slots j)) else m) masks
  let vregs := (upto 32).foldl (fun (m : Mod) r => if (k.creg 0x2018).getLsbD r then m.ncWrite (a + 0x2000 + 2048 * r) (Memory.bytes k.vec.regs (2048 * r) 2048) else m) chains
  (upto 4).foldl (fun (m : Mod) b => if (k.creg 0x1018).getLsbD b then m.ncWrite (a + 0x12000 + 65536 * b) (accBytes k.mat.acc (16384 * b) 16384) else m) vregs
/-- Read the marked parts back; what is not marked holds undefined contents (R114, R180, R199): fresh free values. `loaded` lists the chain
slots that held a descriptor when the piece left; a marked slot that was never loaded is as it was. -/
def Mod.loadUnits (m : Mod) (c a : Nat) (loaded : List Nat) : Mod :=
  let k := m.core c
  let get (live : Bool) (m : Mod) (off n : Nat) : List Byte × Mod := if live then (m.rdMem (a + off) n, m) else m.freeBytes n
  let m1 := (upto 8).foldl (fun (m : Mod) j =>
    let r := get ((k.creg 0x2018).getLsbD (32 + j)) m (0x1000 + 256 * j) 256
    r.2.updCore c fun q => { q with vec := { q.vec with masks := Tab.put q.vec.masks j (ofLe r.1) } }) m
  let m2 := (upto 16).foldl (fun (m : Mod) j =>
    if (k.creg 0x3018).getLsbD j && !loaded.contains j then m.updCore c fun q => { q with fin := { q.fin with slots := Tab.del q.fin.slots j } } else
    let r := get ((k.creg 0x3018).getLsbD j) m (0x1800 + 128 * j) 128
    r.2.updCore c fun q => { q with fin := { q.fin with slots := Tab.put q.fin.slots j r.1 } }) m1
  let m3 := (upto 32).foldl (fun (m : Mod) v =>
    let r := get ((k.creg 0x2018).getLsbD v) m (0x2000 + 2048 * v) 2048
    r.2.updCore c fun q => { q with vec := { q.vec with regs := Memory.setBytes q.vec.regs (2048 * v) r.1 } }) m2
  (upto 4).foldl (fun (m : Mod) b =>
    let r := get ((k.creg 0x1018).getLsbD b) m (0x12000 + 65536 * b) 65536
    let put (t : Tab W32) : Tab W32 := (upto 16384).foldl (fun t i => accPut t (16384 * b + i) (ofLe ((r.1.drop (4 * i)).take 4))) t
    r.2.updCore c fun q => { q with mat := { q.mat with acc := put q.mat.acc } }) m3
/-- Control registers that travel with a piece: the shape slots and what marks the live parts (R334). -/
def pieceRegs : List Nat := [0x1018, 0x2018, 0x3018] ++ (upto 8).map fun s => 0x1040 + 8 * s
/-- What the engine keeps of a core's units in the part of the slot that it alone uses. The loads of its stations that have not started read
memory again when the piece is back (log 20). -/
def Core.saveState (k : Core) : SavedUnits :=
  { mat := { k.mat with acc := [] }, fin := { k.fin with slots := k.fin.slots.map fun p => (p.1, []) }, stations := k.vec.stations.map Station.unread
    ctl := pieceRegs.map fun a => (a, k.creg a), useOld := k.uc.useOld, fetchCap := k.fetchCap
    mode := k.cregf 0x1000 1 0, poison := k.poison, mid := k.mid, seq := k.seq }
/-- Replace the waiter of a core's fault by its switched-out piece. -/
def moveWaiter (c : Nat) (id : PieceId) (u : FUnit) : FUnit := if u = .core c then .saved id c else u
/-- The waiter of a fault everywhere. -/
def Mod.moveWaiters (m : Mod) (c : Nat) (id : PieceId) : Mod :=
  let f := moveWaiter c id
  let g (r : FaultReq) : FaultReq := { r with unit := f r.unit, joined := r.joined.map f }
  { m with xlt := { m.xlt with
      flying := m.xlt.flying.map g, parked := m.xlt.parked.map g
      slots := Tab.mapV m.xlt.slots fun _ s => { s with waiters := s.waiters.map f }
      releases := m.xlt.releases.map fun r => { r with waiters := r.waiters.map f } } }

/-! ## Switching out (R333, R334) -/

/-- A ready piece of partition `p` may run on core `c` (R325). -/
def Mod.allows (m : Mod) (p c : Nat) (r : Ready) : Bool :=
  r.piece.part == p &&
  (match m.pat? p r.piece.slot with
   | some x => !m.recPin x r.piece.ix || m.recf x r.piece.ix 8 7 0 == c
   | none => false)
/-- The piece on core `c` is switched out, where R333 allows it, once its units have stopped and its load has its value (R295, R334). The units'
part of the slot has a layout of the engine's own, so that what it holds for a reader is free (log 20). -/
def Mod.switchOut (m : Mod) (c : CoreId) : Mod :=
  let k := m.core c.val
  match k.wait, k.piece with
  | .fault va acc level, some id =>
    match m.pat? id.part id.slot, m.freeSave id.part with
    | some x, some slot =>
      let pin := m.recPin x id.ix
      let other := (m.pool (panelOf c.val)).any (m.allows id.part c.val)
      let stopped := !(k.vec.stations.any fun s => s.started && !s.held) && !(k.mat.patches.any fun p => !p.2.runs.isEmpty)
      if k.run ≠ .running ∨ (pin ∧ !other) ∨ !stopped ∨ k.openLoad.isSome ∨ !m.panelUp (panelOf c.val) then m
      else
        let a := m.saveBase id.part slot
        let m0 := m.stopPass c.val
        let k := m0.core c.val
        let m1 := (m0.putImage a { k.bank with prog := k.progNow }.image).scramble (a + 0x500) 0xB00
        let m2 := m1.saveUnits c.val a
        let s : Saved := { piece := id, slot := slot, panel := panelOf c.val, core := c.val, pin := pin, va := va, acc := acc, level := level, units := k.saveState }
        let m3 := m2.updCore c.val fun k =>
          { k with run := .free, piece := none, wait := .none, due := none, rbuf := [], mat := { k.mat with patches := [], port := [], baste := none }
                   fin := { k.fin with queue := [], running := none }, vec := { k.vec with stations := [] } }
        let m4 := ((m3.setPieceState x id.ix 3).updSaved (· ++ [s])).moveWaiters c.val id
        (m4.patCnt id.part 8 1).evCore c.val 0x10 1
    | _, _ => m
  | _, _ => m
/-- The `k`-th save completes: a reply that has already come makes the piece ready (R335). -/
def Mod.saveComplete (m : Mod) (k : Nat) : Mod :=
  match m.pat.saved[k]? with
  | none => m
  | some s =>
    if s.stored ∨ !m.panelUp s.panel then m
    else
      let m1 := m.updSaved fun l => l.set k { s with stored := true }
      if s.reply.isSome then m1.readySaved s else m1

/-! ## Dispatch (R325 to R328, R335) -/

/-- The best ready piece for a core: highest priority, then the first that became ready (R325). -/
def Mod.best (m : Mod) (p c : Nat) : Option Ready :=
  ((m.pool (panelOf c)).filter (m.allows p c)).foldl (fun (b : Option Ready) r => match b with
    | none => some r
    | some q => if q.prio < r.prio then some r else b) none
/-- The bank with which a piece starts on core `c` (R326). -/
def Mod.startBank (m : Mod) (p c : Nat) (x : PatSlot) (i vl : Nat) : Bank :=
  let cs := m.recCaps p x i
  let c0 := cs.headD {}
  let pool := m.capEntry p x.stkx
  let base := pool.base + c * x.slice
  let stk (lo n : Nat) := mkCap 0 (pRD + pWR) 0 n lo true
  { pc := w64 (c0.base + m.recf x i 0 31 0), sp := w64 (base + 128 * x.ostk), rsp := w64 (base + x.slice)
    ops := [w64 (m.rdLe (x.recBase + x.recSize * i + 0x18) 8)], depth := 1, vl := vl
    caps := [(0, c0), (1, cs.getD 1 {}), (2, stk base (128 * x.ostk)), (3, stk (base + 128 * x.ostk) (128 * x.rstk)),
      (4, cs.getD 2 {}), (5, cs.getD 3 {}), (6, {}), (7, {})] }
/-- Start a piece on a core (R326, R328). -/
def Mod.startPiece (m : Mod) (id : PieceId) (x : PatSlot) (c : Nat) : Mod :=
  let seat := m.recSeat x id.ix
  let sn := [m.recf x id.ix 0xC 31 16, m.recf x id.ix 0x14 15 0, m.recf x id.ix 0x14 31 16]
  let m1 := m.setPieceState x id.ix (if seat then 5 else 2)
  m1.updCore c fun k0 =>
    let k := if seat then { k0.setCreg 0x0A0 (w64 (2 ^ 48)) with seats := sn } else k0
    let b := m.startBank id.part c x id.ix k.bank.vl
    { k with bank := b, fetchCap := b.cap 0, poison := [], shadowPoison := [], run := if seat then .seated else .running, piece := some id
             wait := .none, trap := none, pend := [], late := none, due := none, rbuf := [], mid := false, uc := { k.uc with useOld := false } }
/-- Restore a switched-out piece on a core: the slot is freed, its units go on in program order, and it goes on at the faulting instruction, which
walks anew from level 0, or with XLTX REFUSED where its fault was refused (R108, R335, R431). -/
def Mod.restorePiece (m : Mod) (s : Saved) (x : PatSlot) (c : Nat) : Mod :=
  let a := m.saveBase s.piece.part s.slot
  let img := m.getImage a
  let u := s.units
  let m1 := (m.setPieceState x s.piece.ix 2).updSaved fun l => l.erase s
  let m2 := m1.updCore c fun k =>
    { k with bank := img.bank, fetchCap := u.fetchCap, poison := u.poison, run := .running, piece := some s.piece, wait := .none, trap := none, due := none, rbuf := []
             mid := u.mid, seq := max k.seq u.seq
             ctl := (u.ctl.foldl (fun q p => q.setCreg p.1 p.2) (k.setCregf 0x1000 1 0 u.mode)).ctl, uc := { k.uc with useOld := u.useOld }
             mat := { u.mat with acc := k.mat.acc }, fin := { u.fin with slots := k.fin.slots }, vec := { k.vec with stations := u.stations } }
  let m3 := ((m2.loadUnits c a (u.fin.slots.map (·.1))).resumeUnits c).tlbForget (panelOf c) s.piece.part (some c) s.va
  if s.reply = some 1 then
    match xltStop 0x09 s.acc s.level 0 s.va with
    | .trap v r => m3.setTrap c v r
    | _ => m3
  else m3
/-- Core `c` is free, and a ready piece of its partition `p` may run on it (R325). -/
def Mod.takes (m : Mod) (p c : Nat) : Bool :=
  m.partOf c == some p && (m.core c).run == .free && !(m.core c).halted && !(m.core c).stopped && (m.best p c).isSome
/-- The best ready piece for core `c` is of a pattern whose state area software has written (R323). -/
def Mod.wild (m : Mod) (p c : Nat) : Bool :=
  match m.best p c with
  | some r => match m.pat? p r.piece.slot with
    | some x => m.spoiled x
    | none => false
  | none => false
/-- Core `c`, being free, is given the best ready piece of its partition, once no lower-numbered core of the panel is to take one (R325, R327).
A pattern whose state area software has written is dispatched or not as a free choice has it (R323; log 6). -/
def Mod.dispatch (m0 : Mod) (c : CoreId) : Mod :=
  match m0.partOf c.val with
  | none => m0
  | some p =>
    let (no, m) := if m0.wild p c.val then m0.freeB else (false, m0)
    if no ∨ !m.takes p c.val ∨ ((upto (c.val % 64)).any fun i => m.takes p (64 * panelOf c.val + i)) ∨ (m.part p).st ≠ .running then m
    else match m.best p c.val with
      | none => m
      | some r =>
        match m.pat? p r.piece.slot with
        | none => m
        | some x =>
          let m1 := { m with pat := { m.pat with pools := Tab.upd [] m.pat.pools (panelOf c.val) (·.erase r) } }
          match m.pat.saved.find? fun s => s.piece == r.piece with
          | some s => ((m1.restorePiece s x c.val).fetchList r.piece x).evPanel (panelOf c.val) 0x01 1 (some p)
          | none =>
            if m.capsBad p x r.piece.ix then (m1.failPiece r.piece).fireFault p
            else ((m1.startPiece r.piece x c.val).fetchList r.piece x).evPanel (panelOf c.val) 0x01 1 (some p)

end Sys2Proof.Machine
end

