-- ==== Sys2Proof/Machine/Spool.lean ====
section
/-! DEFINITION. Spools (12): admission by the regulators (R394 to R398), channels with rows and ECC (R386 to R391), refresh (R392,
R393), memory-side adders (R399 to R403), monitor samplers (R404, R405), training pairs and live tracking (R574 to R579). -/

namespace Sys2Proof.Machine

/-! ## Regulators -/

/-- Key of a channel. -/
def chKey (s c : Nat) : Nat := 256 * s + c
/-- LEVEL of bucket `b` of a spool: partitions 0 to 15, the calibration bucket 16. -/
def Mod.level (m : Mod) (s b : Nat) : Int := sNat 32 (if b = 16 then m.rdf (bSPL s + 0x20) 63 32 else m.rdf (bSPL s + 0x180 + 8 * b) 31 0)
/-- Store a LEVEL. -/
def Mod.setLevel (m : Mod) (s b : Nat) (v : Int) : Mod :=
  let u := (BitVec.ofInt 32 v).toNat
  if b = 16 then m.wrf (bSPL s + 0x20) 63 32 u else m.wrf (bSPL s + 0x180 + 8 * b) 31 0 u
/-- DEPTH in bursts. -/
def Mod.bktDepth (m : Mod) (s b : Nat) : Nat := if b = 16 then 64 else m.rdf (bSPL s + 0x100 + 8 * b) 27 16 + 1
/-- SHARE. -/
def Mod.bktShare (m : Mod) (s b : Nat) : Nat := if b = 16 then m.rdf (bSPL s + 0x20) 5 0 else m.rdf (bSPL s + 0x100 + 8 * b) 9 0
/-- BORROW: the calibration bucket never borrows; an address in no grant is admitted by borrowing alone (R394, R396). -/
def Mod.mayBorrow (m : Mod) (s b : Nat) : Bool := if b = 16 then false else b == 17 || m.rdf (bSPL s + 0x100 + 8 * b) 32 32 == 1
/-- The partition of a bucket's events: none of the calibration bucket, and of an address in no grant (R618). -/
def bktPart (b : Nat) : Option Nat := if b < 16 then some b else none
/-- The bucket exists: that of calibration, and that of each partition that is defined (R397). -/
def Mod.hasBucket (m : Mod) (b : Nat) : Bool := b == 16 || (m.part b).st != .free
/-- REGULATOR_FILL: one channel clock of a spool's regulators, with `r` of its channels refreshing, at most as many as its step allows
(R393, R396). Each request that waits is held for that clock (R622). -/
def Mod.regulatorFill (m : Mod) (s : SpoolId) (r : Nat) : Mod :=
  if [8, 16, 32].getD (m.rdf (bSPL s.val) 17 16) 32 < r then m
  else
    let m1 := (upto 17).foldl (fun (m : Mod) b =>
      if !m.hasBucket b ∨ (m.bktShare s.val b = 0 ∧ m.level s.val b = 0) then m
      else m.setLevel s.val b (min (m.level s.val b + (((256 - r) * m.bktShare s.val b : Nat) : Int)) ((m.bktDepth s.val b * 16000 : Nat) : Int))) m
    m.spl.waiting.foldl (fun (m : Mod) r => if r.spool = s.val then m.evSpool s.val 0x06 1 (bktPart r.bucket) else m) m1
/-- Tokens for `k` bursts stand in a bucket. -/
def Mod.hasTokens (m : Mod) (s b k : Nat) : Bool := b != 17 && decide (((16000 * k : Nat) : Int) ≤ m.level s b)
/-- The adder of a channel has a unit open. -/
def Mod.unitOpen (m : Mod) (pa : Nat) : Bool :=
  let p := m.place pa
  (Tab.get [] m.spl.units (chKey p.spool p.channel)).contains (pa / 64)
/-- A request that its bucket can pay for waits at the spool: an access, or an add that would open a unit (R396; log 24). -/
def Mod.chargedWaits (m : Mod) (s : Nat) : Bool :=
  (m.spl.waiting.any fun r => r.spool == s && m.hasTokens s r.bucket r.cost) ||
  m.spl.adds.any fun a => m.isSpool a.pa && (m.place a.pa).spool == s && !m.unitOpen a.pa && m.hasTokens s ((m.grantOf a.pa).getD 17) 1
/-- Admit `k` bursts for a bucket toward a channel: charged, or borrowed; none where the request waits (R396). -/
def Mod.admitBursts (m : Mod) (s b k c : Nat) : Option Mod :=
  if m.hasTokens s b k then some (m.setLevel s b (m.level s b - ((16000 * k : Nat) : Int)))
  else if m.mayBorrow s b && !m.chargedWaits s && !(m.spl.queued.any fun r => r.spool == s && (m.place r.pa).channel == c) then
    some ((m.incBy (bSPL s + 0x40 + 8 * 5) k).evSpool s 0x05 k (bktPart b))
  else none
/-- Position in a list of the `k`-th request of a spool. -/
def splIx (l : List SpoolReq) (s k : Nat) : Option Nat := ((l.zipIdx.filter fun p => p.1.spool == s)[k]?).map (·.2)
/-- SPOOL_ADMISSION: the `k`-th request that waits at a spool is judged; admitted, it joins its channel's queue (R396). -/
def Mod.spoolAdmission (m : Mod) (s : SpoolId) (k : Nat) : Mod :=
  match splIx m.spl.waiting s.val k with
  | none => m
  | some i =>
    let r := m.spl.waiting.getD i {}
    match m.admitBursts s.val r.bucket r.cost (m.place r.pa).channel with
    | none => m
    | some m1 =>
      let m2 : Mod := { m1 with spl := { m1.spl with waiting := dropAt m1.spl.waiting i, queued := m1.spl.queued ++ [r] } }
      if r.train then (m2.inc (bCAL + 0xC0 + 8 * 6)).incBy (bSPL s.val + 0x40 + 8 * 6) 2 else m2

/-! ## Rows and ECC -/

/-- Key of a bank. -/
def bankKey (p : SpoolPlace) : Nat := (256 * p.spool + p.channel) * 16 + p.bank
/-- An access of partition `g` opens its row, or hits the open one (R386, R622). -/
def Mod.openRow (m : Mod) (pa : Nat) (g : Option Nat) : Mod :=
  let p := m.place pa
  if Tab.get? m.spl.rows (bankKey p) = some p.row then m.evSpool p.spool 0x03 1 g
  else ({ m with spl := { m.spl with rows := Tab.put m.spl.rows (bankKey p) p.row } } : Mod).evSpool p.spool 0x04 1 g
/-- A burst of a request: the first opens its row or hits it, the second opens it where it has been closed meanwhile (R386). -/
def Mod.openFor (m : Mod) (pa : Nat) (first : Bool) (g : Option Nat) : Mod :=
  let p := m.place pa
  if !first && Tab.get? m.spl.rows (bankKey p) == some p.row then m else m.openRow pa g
/-- Multiplication by α in GF(2⁸), of field polynomial x⁸ + x⁴ + x³ + x² + 1 (R388). -/
def gfX (a : Nat) : Nat := if 256 ≤ 2 * a then nxor (2 * a) 0x11D else 2 * a
/-- Product in GF(2⁸): `n` bits of `b` are left. -/
def gfMul (a b : Nat) : Nat → Nat
  | 0 => 0
  | n + 1 => nxor (if b % 2 = 1 then a else 0) (gfMul (gfX a) (b / 2) n)
/-- αᵏ. -/
def gfPow : Nat → Nat
  | 0 => 1
  | k + 1 => gfX (gfPow k)
/-- The generator polynomial of roots α⁰ to αᵏ⁻¹, without its leading 1, highest power first. -/
def rsGen : Nat → List Nat
  | 0 => []
  | k + 1 => List.zipWith nxor (rsGen k ++ [0]) ((1 :: rsGen k).map fun c => gfMul c (gfPow k) 8)
/-- The seven check symbols of information symbols, the first the highest power (R388; log 88). -/
def rsChecks (info : List Nat) : List Nat :=
  info.foldl (fun r s => List.zipWith nxor (r.drop 1 ++ [0]) ((rsGen 7).map fun g => gfMul g (nxor s (r.headD 0)) 8)) [0, 0, 0, 0, 0, 0, 0]
/-- Symbol `4p + j` of data (R388): bit `k` is what data pin `p` carries on beat `8j + k`, which is bit `16(8j + k) + p` of the burst. -/
def pinSymbol (bs : List Byte) (i : Nat) : Nat :=
  ((upto 8).map fun k => let b := 16 * (8 * (i % 4) + k) + i / 4; bitsN (bs.getD (b / 8) 0).toNat (b % 8) (b % 8) * 2 ^ k).sum
/-- The 72 symbols of a burst on its pins: data, tags and POISON, check symbols (R388). -/
def Mod.burstSymbols (m : Mod) (pa : Nat) : List Nat :=
  let a := pa / 64 * 64
  let info := (upto 64).map (pinSymbol (m.rdMem a 64)) ++ [((upto 4).map fun j => b2n (m.tagAt (a + 16 * j)) * 2 ^ j).sum + 16 * b2n (m.poisoned a 64)]
  info ++ rsChecks info
/-- The syndromes of 72 symbols: all are 0 in a codeword. -/
def rsSyndromes (word : List Nat) : List Nat := (upto 7).map fun j => word.foldl (fun s c => nxor (gfMul s (gfPow j) 8) c) 0
/-- What decoding a burst gives (R389). -/
inductive EccOut where
  | clean | fixed | pin (p : Nat) | lost
deriving DecidableEq, Repr
/-- The decoder (R389), on the symbol positions in error: an erased pin covers its own four and one further symbol; without one, three
symbols are corrected, or all the errors of a single pin (log 25). -/
def eccDecode (erased : Option Nat) (bad : List Nat) : EccOut :=
  let b := bad.dedup
  if b.isEmpty then .clean
  else match erased with
    | some p => if (b.filter fun x => x / 4 != p).length ≤ 1 then .fixed else .lost
    | none => if b.length ≤ 3 then .fixed else match (b.map (· / 4)).dedup with | [p] => .pin p | _ => .lost
/-- The pin that SPL_ERASEc names; a reserved PIN names none. -/
def Mod.erasedPin (m : Mod) (s c : Nat) : Option Nat :=
  let w := m.rd (bSPL s + 0x400 + 8 * c)
  if bit w 5 ∧ fld w 4 0 < 18 then some (fld w 4 0) else none
/-- Set a bit of SPL_ERR with its count: a spool event of the fitter (R270, log 74). -/
def Mod.splErr (m : Mod) (s bit' cnt : Nat) : Mod := ((m.raise (bSPL s + 0x08) bit').inc (bSPL s + 0x40 + 8 * cnt)).fitterIrq 22
/-- SPL_ERRLOG of an uncorrectable burst; no pin is identified. -/
def Mod.splLog (m : Mod) (pa : Nat) : Mod :=
  let p := m.place pa
  m.wr (bSPL p.spool + 0x10) (w64 (p.burst * 2 ^ 48 + p.channel * 2 ^ 40 + p.bank * 2 ^ 36 + p.row * 2 ^ 22 + p.col * 2 ^ 19))
/-- A burst is poisoned, and its line recorded as its panel's last (R365). -/
def Mod.poisonBurst (m : Mod) (pa : Nat) : Mod :=
  ({ m with poison := Tab.put m.poison (pa / 64) true } : Mod).wr (bPNC (m.homePanel (pa / 128)) + 0x18) (w64 (pa / 128 * 128))
/-- A burst at `pa` is read for partition `g`: decoding and its reports (R389, R391). -/
def Mod.readBurst (m : Mod) (pa : Nat) (bad : List Nat) (g : Option Nat) : EccOut × Mod :=
  let p := m.place pa
  let s := p.spool
  let m1 := m.evSpool s 0x01 1 g
  let o := if m.spl.marked.contains (pa / 64) then .lost else eccDecode (m.erasedPin s p.channel) bad
  (o, match o with
    | .clean => m1
    | .fixed => m1.splErr s 0 0
    | .pin q => ((m1.splErr s 0 0).splErr s 2 2).wr (bSPL s + 0x400 + 8 * p.channel) (w64 (32 + q))
    | .lost => (((m1.splErr s 1 1).splLog pa).calEvent 2))
/-- An open unit becomes the one used last. -/
def Mod.touchUnit (m : Mod) (pa : Nat) : Mod :=
  let p := m.place pa
  { m with spl := { m.spl with units := Tab.upd [] m.spl.units (chKey p.spool p.channel) fun l => pa / 64 :: l.filter (· != pa / 64) } }
/-- First address of the burst that a request moves next. -/
def SpoolReq.burst (r : SpoolReq) : Nat := if r.partialW || r.train then r.pa / 64 * 64 else r.pa / 64 * 64 + 64 * (r.cost - r.left)
/-- The request's next burst is a read. -/
def SpoolReq.reads (r : SpoolReq) : Bool := if r.partialW || r.train then r.left == 2 else !r.write
/-- The request touches a 64-byte unit. -/
def SpoolReq.touches (r : SpoolReq) (u : Nat) : Bool :=
  if r.partialW || r.train || r.cost == 1 then r.pa / 64 == u else r.pa / 128 == u / 2
/-- An earlier admitted request stands before the `i`-th for one of its units (R387). -/
def Mod.queuedBefore (m : Mod) (i : Nat) (r : SpoolReq) : Bool :=
  (m.spl.queued.take i).any fun q => q.touches (r.pa / 64) || (!(r.partialW || r.train || r.cost == 1) && q.touches (r.pa / 128 * 2 + 1))
/-- A request has moved one burst. -/
def Mod.burstMoved (m : Mod) (i : Nat) (r : SpoolReq) : Mod :=
  { m with spl := { m.spl with queued := if r.left ≤ 1 then dropAt m.spl.queued i else m.spl.queued.set i { r with left := r.left - 1 } } }
/-- A request of a spool that has been fenced meanwhile leaves its channel, counted (R385). -/
def Mod.fencedReq (m : Mod) (s i : Nat) : Mod := ({ m with spl := { m.spl with queued := dropAt m.spl.queued i } } : Mod).inc (bSPL s + 0x40 + 8 * 4)
/-- CHANNEL_READ: the `k`-th admitted request of a spool reads its next burst, with errors in the symbols `bad` (R387, R389). A read of a
unit that the adder has open takes the buffer (R401). -/
def Mod.channelRead (m : Mod) (s : SpoolId) (k : Nat) (bad : List (Fin 72)) : Mod :=
  match splIx m.spl.queued s.val k with
  | none => m
  | some i =>
    let r := m.spl.queued.getD i {}
    if !r.reads ∨ m.queuedBefore i r then m
    else if m.spl.fenced.contains s.val then m.fencedReq s.val i
    else if m.unitOpen r.burst then (m.touchUnit r.burst).burstMoved i r
    else
      let m1 := m.openFor r.burst (r.left == r.cost) (bktPart r.bucket)
      let q := m1.readBurst r.burst (bad.map (·.val)) (bktPart r.bucket)
      let m2 := match q.1 with
        | .lost => (q.2.poisonBurst r.burst).judgeSpool s.val
        | _ => q.2
      m2.burstMoved i r
/-- CHANNEL_WRITE: the `k`-th admitted request of a spool writes its next burst (R390). A write to an open unit merges into the buffer (R401). -/
def Mod.channelWrite (m : Mod) (s : SpoolId) (k : Nat) : Mod :=
  match splIx m.spl.queued s.val k with
  | none => m
  | some i =>
    let r := m.spl.queued.getD i {}
    if r.reads ∨ m.queuedBefore i r then m
    else if m.spl.fenced.contains s.val then m.fencedReq s.val i
    else if m.unitOpen r.burst then (m.touchUnit r.burst).burstMoved i r
    else
      let m1 := m.openFor r.burst (r.left == r.cost) (bktPart r.bucket)
      let m2 : Mod := if r.partialW || r.train then m1 else { m1 with spl := { m1.spl with marked := m1.spl.marked.filter (· != r.burst / 64) } }
      (m2.evSpool s.val 0x02 1 (bktPart r.bucket)).burstMoved i r
/-- ROW_CLOSE: a bank closes its open row (R386). -/
def Mod.rowClose (m : Mod) (s : SpoolId) (c : BitVec 8) (b : Fin 16) : Mod :=
  { m with spl := { m.spl with rows := Tab.del m.spl.rows ((256 * s.val + c.toNat) * 16 + b.val) } }

/-! ## Refresh -/

/-- REFRESH: a channel closes its rows, refreshes its banks for 480 channel clocks, and takes its new user offsets (R386, R392, R572). -/
def Mod.refresh (m : Mod) (s : SpoolId) (c : BitVec 8) : Mod :=
  let k := chKey s.val c.toNat
  (({ m with spl := { m.spl with rows := Tab.clear m.spl.rows (16 * k) (16 * k + 16) } } : Mod).evSpool s.val 0x08 480 none).switchChannel s.val c.toNat
/-- The refresh step that follows a sample, in quarter degrees (R392). -/
def nextStep (step : Nat) (t : Int) : Nat :=
  if 380 < t then 2
  else match step with
    | 2 => if t ≤ 372 then 1 else 2
    | 1 => if t ≤ 332 then 0 else 1
    | _ => if 340 < t then 1 else 0
/-- REFRESH_TEMP_SAMPLE: the highest reading of a spool's dies, before its offset, in quarter degrees (R392, R393, R606). -/
def Mod.tempSample (m : Mod) (s : SpoolId) (raw : BitVec 16) : Mod :=
  let t := m.reading (4 + s.val) raw
  let hot := decide (420 < t)
  let was := m.rdf (bSPL s.val) 9 9 == 1
  let m1 := (((m.sense (4 + s.val) raw).wrf (bSPL s.val) 31 24 (BitVec.ofInt 8 (t / 4)).toNat).wrf (bSPL s.val) 17 16
    (nextStep (m.rdf (bSPL s.val) 17 16) t)).wrf (bSPL s.val) 9 9 (b2n hot)
  if hot ∧ !was then (m1.pwrEvent 2).sbEvent 2 else m1

/-! ## Patrol scrub and training -/

/-- The local physical address of burst `b` of a channel (R383, inverted): its line within the channel is b / 2. -/
def Mod.burstAddr (m : Mod) (s c b : Nat) : Option Nat :=
  (firstIx (· == s) m.enabled).map fun i =>
    let w := b / 2
    let y := w * 256 + nxor c (nxor (w % 256) (w / 256 % 256))
    (y * m.spoolN + i) * 128 + 64 * (b % 2)
/-- A copy of a line stands above its spool: in an L2, in its writeback buffer, or in the panel cache. -/
def Mod.cachedAbove (m : Mod) (la : Nat) : Bool :=
  m.pncHas la || (m.dirAt la).st.holders.any fun o => (m.core o).mem.state la != .i || (m.core o).mem.wb.any fun w => w.la == la
/-- PATROL_SCRUB: the scrubber of a channel reads its next burst, with errors in the symbols `bad`, and writes back what it corrects or
marks (R391). The bursts are charged to the calibration bucket (R394); HOURS 0 stops it. A burst that the adder has open is passed over, since its
value lies in the buffer (R401); one with a request queued comes after that (R387). -/
def Mod.patrolScrub (m : Mod) (s : SpoolId) (c : BitVec 8) (bad : List (Fin 72)) : Mod :=
  let key := chKey s.val c.toNat
  let b := Tab.get 0 m.spl.scrubPos key
  match m.burstAddr s.val c.toNat b with
  | none => m
  | some pa =>
    if m.unitOpen pa then { m with spl := { m.spl with scrubPos := Tab.put m.spl.scrubPos key ((b + 1) % 2 ^ 22) } }
    else if m.spl.queued.any fun r => r.touches (pa / 64) then m
    else
    let q := (m.openRow pa none).readBurst pa (bad.map (·.val)) none
    let k := if q.1 = .clean then 1 else 2
    if m.rdf (bSPL s.val + 0x18) 15 0 = 0 ∨ !m.hasTokens s.val 16 k then m
    else
      let m1 := if q.1 = .clean then q.2 else q.2.evSpool s.val 0x02 1 none
      let m2 : Mod := if q.1 = .lost then { m1 with spl := { m1.spl with marked := pa / 64 :: m1.spl.marked.filter (· != pa / 64) } } else m1
      let m3 := if q.1 = .lost ∧ !m.cachedAbove (pa / 128) then m2.poisonBurst pa else m2
      let m4 := (m3.setLevel s.val 16 (m3.level s.val 16 - ((16000 * k : Nat) : Int))).incBy (bSPL s.val + 0x40 + 8 * 6) k
      ({ m4 with spl := { m4.spl with scrubPos := Tab.put m4.spl.scrubPos key ((b + 1) % 2 ^ 22) } } : Mod).judgeSpool s.val
/-- The next burst of a channel's training: units that the adder has open or that have a request queued are skipped (R577). -/
def Mod.trainBurst (m : Mod) (s c : Nat) : Nat → Nat → Option (Nat × Nat)
  | 0, _ => none
  | n + 1, b =>
    match m.burstAddr s c (b % 2 ^ 22) with
    | none => none
    | some pa => if m.unitOpen pa ∨ (m.spl.queued ++ m.spl.waiting).any (fun r => r.spool == s && r.touches (pa / 64)) then m.trainBurst s c n (b + 1) else some (pa, b % 2 ^ 22)
/-- TRAINING_PAIR: a channel falls due. A pair that still waits for tokens is dropped, and the new one waits (R577, R578). -/
def Mod.trainingPair (m : Mod) (s : SpoolId) (c : BitVec 8) : Mod :=
  let mine (r : SpoolReq) : Bool := r.train && r.spool == s.val && (m.place r.pa).channel == c.toNat
  let m1 : Mod := if m.spl.waiting.any mine then
      ({ m with spl := { m.spl with waiting := m.spl.waiting.filter fun r => !mine r } } : Mod).inc (bCAL + 0xC0 + 8 * 7) else m
  let key := chKey s.val c.toNat
  match m1.trainBurst s.val c.toNat 512 (Tab.get 0 m1.spl.trainPos key) with
  | none => m1
  | some (pa, b) =>
    { m1 with spl := { m1.spl with
        waiting := m1.spl.waiting ++ [{ spool := s.val, pa := pa, bucket := 16, train := true }]
        trainPos := Tab.put m1.spl.trainPos key ((b + 1) % 2 ^ 22) } }

/-! ## Adders -/

/-- One element of an add (R400). -/
def addElem (ty v x : Nat) : Nat :=
  let f (fmt : Fmt) (a b : Nat) : Nat := fmt.round false (Fl.add (fmt.decode a) (fmt.decode b))
  match ty with
  | 0 => (v + x) % 2 ^ 32
  | 1 => (v + x) % 2 ^ 64
  | 2 => f fp32 v x
  | 3 => f fp64 v x
  | _ => f bf16 (v / 2 ^ 16) (x / 2 ^ 16) * 2 ^ 16 + f bf16 (v % 2 ^ 16) (x % 2 ^ 16)
/-- The adder on bytes, element by element (R400). -/
def addBytes (ty : Nat) : Nat → List Byte → List Byte → List Byte
  | 0, _, _ => []
  | n + 1, v, x =>
    let w := if ty = 1 ∨ ty = 3 then 8 else 4
    toLe w (addElem ty (ofLe (v.take w)) (ofLe (x.take w))) ++ addBytes ty n (v.drop w) (x.drop w)
/-- A unit closes: its burst is written, charged when the write occurs (R395, R401). -/
def Mod.closeUnit (m : Mod) (s c u : Nat) : Mod :=
  let m1 : Mod := { m with spl := { m.spl with units := Tab.upd [] m.spl.units (chKey s c) fun l => l.filter (· != u) } }
  let b := (m.grantOf (64 * u)).getD 17
  let m2 := if b = 17 then m1 else m1.setLevel s b (m1.level s b - 16000)
  let m3 : Mod := if Tab.get false m2.poison u then m2 else { m2 with spl := { m2.spl with marked := m2.spl.marked.filter (· != u) } }
  (m3.openRow (64 * u) (bktPart b)).evSpool s 0x02 1 (bktPart b)
/-- ADDER_UNIT_CLOSE: the unit of a channel used at place `i`, the last used first, closes after 256 idle channel clocks (R401). -/
def Mod.adderClose (m : Mod) (s : SpoolId) (c : BitVec 8) (i : Fin 4) : Mod :=
  match (Tab.get [] m.spl.units (chKey s.val c.toNat))[i.val]? with
  | some u => m.closeUnit s.val c.toNat u
  | none => m
/-- The add leaves the list; the last add of a remote request answers it (R467, R468). -/
def Mod.addDone (m : Mod) (k : Nat) (a : AddReq) : Mod :=
  let m1 : Mod := { m with spl := { m.spl with adds := dropAt m.spl.adds k } }
  match a.reply with
  | some (dev, tag) =>
    if m1.spl.adds.any fun x => x.reply == a.reply then m1
    else m1.sendMsg { dest := dev, src := m1.dev, vc := 4, data := respHdr tag 0x00 false }
  | none => m1
/-- A shuttle's reduce-add met a poisoned burst: its descriptor is to end with SHT_UERR (R376, R400). -/
def Mod.addLate (m : Mod) (a : AddReq) : Mod :=
  if a.core < 5000 then m
  else (upto 8).foldl (fun (m : Mod) s => if (m.sht s).running.any fun d => d.id == a.core - 5000 then m.updDesc s (a.core - 5000) fun d => { d with late := some 0x10 } else m) m
/-- SPOOL_ADD: the `k`-th add on its way reaches its home slice and its channel's adder (R399 to R403). An add to a unit that is not open reads
its burst, with errors in the symbols `bad`, once it is admitted; a fifth unit closes the one used longest ago. -/
def Mod.spoolAdd (m : Mod) (k : Nat) (bad : List (Fin 72)) : Mod :=
  match m.spl.adds[k]? with
  | none => m
  | some a =>
    let u := a.pa / 64
    if (m.spl.adds.take k |>.any fun x => x.pa / 64 == u) || m.spl.queued.any fun r => r.touches u then m
    else if !m.isSpool a.pa then m.addDone k a
    else if m.lineFenced a.pa then (m.inc (bSPL (m.place a.pa).spool + 0x40 + 8 * 4)).addDone k a
    else if m.busy (a.pa / 128) then m
    else
      let p := m.place a.pa
      let s := p.spool
      let m0 := m.dropCopies (a.pa / 128)
      let m1 := match findWay m0.coh.pnc (m0.pncBase (a.pa / 128)) (m0.pncWays (a.pa / 128)) (a.pa / 128) with
        | some (_, w) => (if w.val.dirty then m0.askSpool (a.pa / 128) true else m0).pncDrop (a.pa / 128)
        | none => m0
      let opened : Option Mod :=
        if m1.unitOpen a.pa then some (m1.touchUnit a.pa)
        else (m1.admitBursts s ((m1.grantOf a.pa).getD 17) 1 p.channel).map fun m2 =>
          let us := Tab.get [] m2.spl.units (chKey s p.channel)
          let m3 := if 4 ≤ us.length then m2.closeUnit s p.channel (us.getLastD 0) else m2
          let q := (m3.openRow a.pa (m.grantOf a.pa)).readBurst (64 * u) (bad.map (·.val)) (m.grantOf a.pa)
          let m4 := match q.1 with | .lost => (q.2.poisonBurst (64 * u)).judgeSpool s | _ => q.2
          m4.touchUnit a.pa
      match opened with
      | none => m
      | some m2 =>
        if m2.poisoned a.pa a.data.length then ((m2.splErr s 3 3).addLate a).addDone k a
        else
          let w := if a.ty = 1 ∨ a.ty = 3 then 8 else 4
          let m3 := m2.wrMem a.pa (addBytes a.ty (a.data.length / w) (m2.rdMem a.pa a.data.length) a.data)
          ((m3.inc (bSPL s + 0x40 + 8 * 7)).evSpool s 0x07 1 (m.grantOf a.pa)).addDone k a

/-! ## Monitor samplers and live tracking -/

/-- SPL_MONSEL_START: a write of SPL_MONSEL; START ends any count in progress and begins one (R405, R582). -/
def Mod.monselWrite (m : Mod) (s : SpoolId) (v : W64) : Mod :=
  let a := bSPL s.val + 0x28
  let m1 := m.wr a (rowWrite splRows a (m.rd a) v)
  if bit v 31 then ({ m1 with spl := { m1.spl with monitor := s.val :: m1.spl.monitor.filter (· != s.val) } } : Mod).wr (bSPL s.val + 0x30) 0 else m1
/-- SPOOL_MONITOR_DONE: a count completes with the differences it found (R405). -/
def Mod.monitorDone (m : Mod) (s : SpoolId) (diffs : W32) : Mod :=
  if m.spl.monitor.contains s.val then
    ({ m with spl := { m.spl with monitor := m.spl.monitor.filter (· != s.val) } } : Mod).wr (bSPL s.val + 0x30) (w64 (2 ^ 63 + diffs.toNat))
  else m
/-- CAL_LMSEL_START: a write of CAL_LMSEL (R581, R582). -/
def Mod.lmselWrite (m : Mod) (v : W64) : Mod :=
  let a := bCAL + 0x18
  let m1 := m.wr a (rowWrite calRows a (m.rd a) v)
  if bit v 31 then ({ m1 with cal := { m1.cal with lmon := true } } : Mod).wr (bCAL + 0x20) 0 else m1
/-- LINK_MONITOR_DONE (R581). -/
def Mod.lmonDone (m : Mod) (diffs : W32) : Mod :=
  if m.cal.lmon then ({ m with cal := { m.cal with lmon := false } } : Mod).wr (bCAL + 0x20) (w64 (2 ^ 63 + diffs.toNat)) else m
/-- One track after its two windows: T moves a step toward the side with the smaller D where the larger exceeds it by more than 1, and stays
at its limit, which is reported (R574, R575). -/
def Mod.trackMove (m : Mod) (q : CalQ) (up down : Nat) : Mod :=
  if max up down ≤ min up down + 1 then m
  else
    let t := m.trackOf q + (if up < down then 1 else -1)
    if q.trackLim < t ∨ t < -q.trackLim then m.calEvent 4
    else { m with cal := { m.cal with track := Tab.setD 0 m.cal.track q.key t } }
/-- TRACK_ROUND: a lane completes its four windows: phase +8, phase −8, voltage +6, voltage −6 (R574). Tracking is off where CAL_SCFG says
so, and pauses on a lane that a margin scan selects (R576); link lanes track the phase alone (R569). -/
def Mod.trackRound (m : Mod) (x : TrackLane) (d : Fin 4 → Nat) : Mod :=
  match x with
  | .spool w s c p =>
    let sel := m.rd (bSPL s.val + 0x28)
    let paused := m.spl.monitor.contains s.val && fld sel 30 30 == b2n w && fld sel 29 25 == p.val && fld sel 24 17 == c.toNat
    if m.rdf (bCAL + 0x08) 8 8 = 0 ∨ paused then m
    else (m.trackMove (.spool w false s.val c.toNat p.val) (d 0) (d 1)).trackMove (.spool w true s.val c.toNat p.val) (d 2) (d 3)
  | .link l n =>
    let sel := m.rd (bCAL + 0x18)
    let paused := m.cal.lmon && fld sel 30 25 == l.val && fld sel 24 22 == n.val
    if m.rdf (bCAL + 0x08) 16 16 = 0 ∨ paused ∨ m.linkState l.val ≠ 6 then m
    else m.trackMove (.link 3 l.val n.val) (d 0) (d 1)
/-- CAL_VSEL: a write selects and captures values into CAL_VAL of the port (R594). A reserved selection captures free values (log 6). -/
def Mod.calVsel (m : Mod) (h : HostId) (v : W64) : Mod :=
  let b := portStride * h.val + bCAL
  let m1 := m.wr (b + 0x110) (rowWrite calRows (b + 0x110) (m.rd (b + 0x110)) v)
  let n := fld v 13 8
  let kind := fld v 15 14
  let val (q : CalQ) : Int := match fld v 17 16 with
    | 0 => q.factory
    | 1 => m.userOfs q
    | 2 => m.trackOf q
    | _ => m.effective q
  let six (q : CalQ) (w : Nat) : Nat := (BitVec.ofInt w (val q)).toNat
  let words : List Nat :=
    if kind < 2 then (upto 5).map fun i => ((upto 4).map fun j =>
      if 4 * i + j < 18 then (six (.spool (kind == 1) true n (fld v 7 0) (4 * i + j)) 6 * 2 ^ 8 + six (.spool (kind == 1) false n (fld v 7 0) (4 * i + j)) 6) * 2 ^ (16 * j) else 0).sum
    else (upto 4).map fun i => ((upto 2).map fun j =>
      (six (.link 3 n (2 * i + j)) 6 * 2 ^ 24 + six (.link 2 n (2 * i + j)) 4 * 2 ^ 16 + six (.link 1 n (2 * i + j)) 6 * 2 ^ 8 + six (.link 0 n (2 * i + j)) 6) * 2 ^ (32 * j)).sum
  if kind = 3 ∨ (kind < 2 ∧ 24 ≤ n) ∨ (kind = 2 ∧ 36 ≤ n) then
    (upto 5).foldl (fun (m : Mod) i => let r := m.freeW; r.2.wr (b + 0x118 + 8 * i) r.1) m1
  else (upto 5).foldl (fun (m : Mod) i => m.wr (b + 0x118 + 8 * i) (w64 (words.getD i 0))) m1

end Sys2Proof.Machine
end

