-- ==== Sys2Proof/Machine/Host.lean ====
section
/-! DEFINITION. Host ports (16): functions and their reach, writes to BAR0, stage sets, BAR2, port resets, partition control. -/

namespace Sys2Proof.Machine

/-! ## Functions and their reach (R513, R516 to R518) -/

/-- Port `h` owns partition `p`. -/
def Mod.owns (m : Mod) (h p : Nat) : Bool := (m.part p).st != .free && (m.part p).owner == h
/-- The partition that a virtual function is mapped to; a field that names one not owned is ignored. -/
def Mod.vfPart (m : Mod) (h v : Nat) : Option Nat :=
  let f := m.rdf (bMBX h + 0x18) (5 * v + 4) (5 * v)
  if 16 ≤ f ∧ m.owns h (f % 16) then some (f % 16) else none
/-- The BAR0 address that a function reaches at an offset: the registers that each port has for itself are its own port's. -/
def Mod.barAddr (m : Mod) (h : Nat) (vf : Option (Fin 8)) (off : Nat) : Option Nat :=
  match vf with
  | none =>
    if off < 0x10000 ∨ (0x30100 ≤ off ∧ off < 0x30140) then some (portStride * h + off) else if off < portStride then some off else none
  | some v => if off < 0x10000 then (m.vfPart h v.val).map fun p => bPRT p + off else none

/-! ## Stage sets (R537) -/

/-- Two items stand for the same register or the same partition. -/
def StageItem.same : StageItem → StageItem → Bool
  | .reg a _, .reg b _ => a == b
  | .define p _, .define q _ => p == q
  | .define p _, .destroy q => p == q
  | .destroy p, .define q _ => p == q
  | .destroy p, .destroy q => p == q
  | _, _ => false
/-- A set with an item added at its end, or put in the place of the item it replaces. -/
def putItem (set : List StageItem) (x : StageItem) : List StageItem :=
  if set.any x.same then set.map fun y => if x.same y then x else y else set ++ [x]
/-- The value that a set holds for a register. -/
def stagedVal (set : List StageItem) (a : Nat) : Option W64 :=
  set.findSome? fun x => match x with | .reg b v => if b = a then some v else none | _ => none
/-- A host adds an item; one that would be the 4,097th is not added and marks the set overfull. -/
def Mod.stage (m : Mod) (h : Nat) (x : StageItem) : Mod :=
  m.updHost h fun k =>
    if k.set.any x.same ∨ k.set.length < 4096 then { k with set := putItem k.set x } else { k with overfull := true }

/-! ## Rights of a host's write (R406, R473, R511, R517, R594, R616, R626, R630) -/

/-- The partition that `PART` of a seam entry names once a set is in force. -/
def sxPartIn (set : List StageItem) (n : Nat) : Option Nat := (stagedVal set (bSx n)).map fun v => fld v 23 20
/-- A host may write or stage seam entry `n` (R630), given its set with what it writes. -/
def Mod.mayEntry (m : Mod) (h : Nat) (set : List StageItem) (n : Nat) : Bool :=
  m.owns h (m.sxPart n) || (m.sxRaw n == 0 && match sxPartIn set n with | some p => m.owns h p | none => false)
/-- The same of group entry `g` (R473): one that is not VALID is taken by staging its PART (DEDUCED, log 40). -/
def Mod.mayGroup (m : Mod) (h : Nat) (set : List StageItem) (g : Nat) : Bool :=
  m.owns h (m.grpPart g) ||
    (!m.grpValid g && match (stagedVal set (bG g)).map fun v => fld v 59 56 with | some p => m.owns h p | none => false)
/-- The seam entry, group or partition whose register lies at an address. -/
inductive Scope where
  | entry (n : Nat)
  | group (g : Nat)
  | part (p : Nat)
  | core (c : Nat)
  | own
  | all
deriving DecidableEq, Repr
/-- Whose register lies at an address. -/
def scopeOf (a : Nat) : Scope :=
  let x := a % portStride
  if x < 0x10000 ∨ (0x30100 ≤ x ∧ x < 0x30140) then .own
  else if 0x70000 ≤ x ∧ x < 0x80000 then .core ((x - 0x70000) / 0x100)
  else if 0x81000 ≤ x ∧ x < 0x99000 ∧ 0x100 ≤ x % 0x1000 ∧ x % 0x1000 < 0x180 then .part (x % 0x1000 / 8 - 0x20)
  else if 0x100000 ≤ x ∧ x < 0x200000 then .part ((x - 0x100000) / 0x10000)
  else if 0x210000 ≤ x ∧ x < 0x290000 then .entry ((x - 0x210000) / 0x80)
  else if 0x310000 ≤ x ∧ x < 0x350000 then .group ((x - 0x310000) / 0x40)
  else if 0x350000 ≤ x ∧ x < 0x390000 then .group ((x - 0x350000) / 0x40)
  else if 0x400000 ≤ x ∧ x < 0x410000 then .core ((x - 0x400000) / 0x100)
  else .all
/-- Host `h` reaches the register by a write of `v` to BAR0. -/
def Mod.mayWrite (m : Mod) (h a : Nat) (v : W64) : Bool :=
  let set := putItem (m.host h).set (.reg a v)
  match scopeOf a with
  | .own => true
  | .all => decide (a < 0x410000) || m.fit.steward == h
  | .part p => m.owns h p
  | .entry n => m.mayEntry h set n
  | .group g => m.mayGroup h set g
  | .core c => match m.partOf c with | some p => m.owns h p | none => false
/-- Registers whose staged fields a host's BAR0 write does not stage, because the write needs the fitter: the module's SPL_ registers
(R406). -/
def needsFitter (a : Nat) : Bool := decide (0x80000 ≤ a) && decide (a < 0xC0000) && (match scopeOf a with | .part _ => false | _ => true)
/-- Plain fields that only the fitter writes: SPL_ERASE, and CLSEL of LNK_LCRD (R406, the LNK_ block). -/
def fitterOnly (a : Nat) : Bool := decide (0x80000 ≤ a) && decide (a < 0x100000)

/-! ## Partition control (R525, R526, R546, R590) -/

/-- PRT_RUN: STOPPED to RUNNING; a partition whose lead engine is fenced stays stopped (R590). -/
def Mod.prtRun (m : Mod) (p : Nat) : Mod :=
  if (m.part p).st = .stopped ∧ !m.panelFenced (m.leadPanel p) then m.updPart p fun q => { q with st := .running } else m
/-- PRT_STOP: RUNNING to STOPPED, with what a stop ends (R525). -/
def Mod.prtStop (m : Mod) (p : Nat) : Mod := m.stopPart p
/-- A write of PRT_CTL; STOP wins. -/
def Mod.prtCtl (m : Mod) (p : Nat) (v : W64) : Mod := if bit v 0 then m.prtStop p else if bit v 1 then m.prtRun p else m
/-- A core as PRT_CRESET leaves it (R526): both banks, stations, matrix and finishing queues and COR_EXC cleared. -/
def Core.reset (k : Core) : Core :=
  { (k.settle.setCreg 0x000 0) with
    bank := {}, fetchCap := {}, shadow := {}, poison := [], shadowPoison := [], rbuf := [], due := none, trap := none, pend := [],
    refused := [], run := .free, piece := none, seats := [], wait := .none, mid := false, resumed := false, unitsHeld := false, late := none,
    vec := { k.vec with stations := [] }
    mat := { k.mat with patches := [], port := [], baste := none }
    fin := { k.fin with queue := [], running := none } }
/-- PRT_CRESET (R526): a core of the partition that is halted, or whose partition is STOPPED; a fenced core stays as it is (R588). A
piece that it held fails (DESIGN CHOICE, log 41). -/
def Mod.prtCreset (m : Mod) (p : Nat) (v : W64) : Mod :=
  let c := fld v 7 0
  if !bit v 8 ∨ !(m.part p).cores.contains c ∨ m.coreFenced c ∨ !((m.core c).halted ∨ (m.part p).st = .stopped) then m
  else
    let m1 := match (m.core c).piece with
      | some id => (m.unseat c).failPiece id
      | none => m
    m1.updCore c Core.reset
/-- PRT_IARM: the vector is armed, and sent again where an event still stands (R546). -/
def Mod.prtIarm (m : Mod) (p : Nat) (v : W64) : Mod := if bit v 0 then (m.wrf (bPRT p + 0x28) 0 0 1).prtVector p else m
/-- CAL_MIARM of a port (R592). -/
def Mod.calMiarm (m : Mod) (h : HostId) (v : W64) : Mod :=
  if bit v 0 then (m.wrf (portStride * h.val + bCAL + 0x108) 0 0 1).calVector h.val else m

/-! ## Mailbox doorbells (R530) -/

/-- A doorbell: the fitter copies the request and is busy; while it is busy the doorbell is ignored and counted. -/
def Mod.doorbell (m : Mod) (h seq : Nat) : Mod :=
  if m.rdf (bMBX h + 8) 1 1 = 1 then m.inc (bMBX h + 0x40 + 8 * 3)
  else
    let m1 := (m.wrf (bMBX h + 8) 1 1 1).fitterIrq (18 + h)
    { m1 with fit := { m1.fit with queue := m1.fit.queue ++ [.mbx h seq (Memory.bytes (m.host h).req 0 4096)] } }

/-! ## Writes to BAR0 (R11 to R13, R517, R518, R521, R627) -/

/-- A write of a register of a partition page that acts. -/
def Mod.pageWrite (m : Mod) (p off : Nat) (v : W64) : Mod :=
  let a := bPRT p + off
  let m1 := m.wr a (rowWrite (blockRows a) a (m.rd a) v)
  if off = 0x0008 then m.prtCtl p v
  else if off = 0x0010 then m.prtCreset p v
  else if off = 0x0018 then m1.prtVector p
  else if off = 0x0028 then m.prtIarm p v
  else if off = 0x1060 then (if h : p < 16 then m.patNfire ⟨p, h⟩ v else m)
  else if off = 0x1070 then (if h : p < 16 then (if bit v 0 then m.rreset ⟨p, h⟩ else m) else m)
  else if off = 0x2008 then m.shootStart p none v
  else if off = 0x2090 then m.flqHead p v
  else if off = 0x2098 then m.flqReply p v
  else m1
/-- A write of a register of a seam entry that acts. -/
def Mod.entryWrite (m : Mod) (n off : Nat) (v : W64) : Mod :=
  let a := bSx n + off
  let m1 := m.wr a (rowWrite (blockRows a) a (m.rd a) v)
  if off = 0x38 then m.semSxrel n (fld v 8 0)
  else if off = 0x3C then m.semMark n (fld v 31 0)
  else if off = 0x24 then
    let m2 := if bit v 0 then m1.semRun n else m1
    if bit v 1 then m2.semFence n else m2
  else m1
/-- A write of an event counter, by a host that may write it (R626). -/
def Mod.barPlain (m : Mod) (h : HostId) (a : Nat) (v : W64) : Mod :=
  let m1 := m.wr a (rowWrite (blockRows a) a (m.rd a) v)
  match scopeOf a with
  | .own =>
    let o := a % portStride
    if o = 0 then m.doorbell h.val (fld v 15 0)
    else if o = 0x30100 then m1.calVector h.val
    else if o = 0x30108 then m.calMiarm h v
    else if o = 0x30110 then m.calVsel h v
    else m1
  | .part p => if a < bPRT 0 then m else m.pageWrite p (a - bPRT p) v
  | .entry n => m.entryWrite n (a - bSx n) v
  | .group g =>
    if hg : g < 4096 then
      if a = bQ g then m.cmqGpost h ⟨g, hg⟩ v else if a = bQ g + 0x10 then m.cmqReset ⟨g, hg⟩ v else m1
    else m
  | .core _ => if bMON ≤ a then m.monWrite (a - bMON) v else m1
  | .all =>
    if bMON ≤ a then m.monWrite (a - bMON) v
    else if a = bCAL + 0x18 then m.lmselWrite v
    else if 0x81000 ≤ a ∧ a < 0x99000 ∧ a % 0x1000 = 0x28 then
      (if hs : (a - 0x81000) / 0x1000 < 24 then m.monselWrite ⟨(a - 0x81000) / 0x1000, hs⟩ v else m)
    else if 0xC1000 ≤ a ∧ a < 0xC7000 ∧ 0x100 ≤ a % 0x1000 ∧ a % 0x40 = 0x08 then
      let l := (a - 0xC1000) / 0x1000 * 6 + (a % 0x1000 - 0x100) / 0x40
      if hl : l < 36 then
        let m2 := if bit v 0 then m.linkRetrain ⟨l, hl⟩ else m
        if bit v 1 then m2.linkRearm ⟨l, hl⟩ else m2
      else m
    else if fitterOnly a then
      match barRow a with
      | some r => m.wr a (r.fields.foldl (fun w f => if f.acc = .w1c then f.write w v else w) (m.rd a))
      | none => m
    else m1
/-- A post to a queue is judged where it is counted (R479). -/
def judgedLater (a : Nat) : Bool := match scopeOf a with | .group g => a == bQ g | _ => false
/-- A write of one whole register by a host: its staged fields become an item, its others act (R11, R537). -/
def Mod.regWrite (m : Mod) (h : HostId) (a : Nat) (v : W64) : Mod :=
  match barRow a with
  | none => m
  | some r =>
    if !judgedLater a && !m.mayWrite h.val a v then m
    else if !r.staged.isEmpty then (if needsFitter a then m else m.stage h.val (.reg a v))
    else m.barPlain h a v
/-- The 8 bytes that a 4-byte write of one half stands for (R627). -/
def Mod.otherHalf (m : Mod) (h : Nat) (r : RegRow) (a : Nat) (high : Bool) (v : W64) : W64 :=
  let base := r.fields.foldl (fun w f =>
    match f.acc with
    | .rw => setFld w f.hi f.lo (m.rdf a f.hi f.lo)
    | .stg => setFld w f.hi f.lo (fld ((stagedVal (m.host h).set a).getD (m.rd a)) f.hi f.lo)
    | .lck => setFld w f.hi f.lo (fld ((stagedVal (m.host h).set a).getD (m.rd a)) f.hi f.lo)
    | _ => w) (0 : W64)
  if high then setFld base 63 32 (fld v 31 0) else setFld base 31 0 (fld v 31 0)
/-- A register that acts on a write, not on its value, is not written by a write of the half that holds none of its bits (DEDUCED,
log 42). -/
def RegRow.idleHalf (r : RegRow) (high : Bool) : Bool :=
  (r.fields.any fun f => f.acc = .wo || f.acc = .w1s) && !(r.fields.any fun f => (f.acc = .wo || f.acc = .w1s || f.acc = .rw || f.acc = .w1c) &&
    (if high then decide (32 ≤ f.hi) else decide (f.lo < 32)))
/-- A 4-byte write. -/
def Mod.word4 (m : Mod) (h : HostId) (a : Nat) (v : W64) : Mod :=
  match barRow a with
  | some r =>
    if r.width = 4 then m.regWrite h a (w64 (fld v 31 0))
    else if r.idleHalf false then m else m.regWrite h a (m.otherHalf h.val r a false v)
  | none =>
    if a % 8 = 4 then
      match barRow (a - 4) with
      | some r => if r.width = 4 ∨ r.idleHalf true then m else m.regWrite h (a - 4) (m.otherHalf h.val r (a - 4) true v)
      | none => m
    else m
/-- An 8-byte write: one register, or the two of 32 bits that it covers, the lower first (DEDUCED, log 42). -/
def Mod.word8 (m : Mod) (h : HostId) (a : Nat) (v : W64) : Mod :=
  match barRow a with
  | some r => if r.width = 4 then (m.word4 h a v).word4 h (a + 4) (v >>> 32) else m.regWrite h a v
  | none => m.word4 h (a + 4) (v >>> 32)
/-- REGISTER_WRITE: a write of `size` bytes by a function of port `h` (R517): aligned, of 4 or 8 bytes, or without effect. The request
buffer takes bytes; COR_XINT of the partition's cores stands in its page (R518). -/
def Mod.barWrite (m : Mod) (h : HostId) (vf : Option (Fin 8)) (off size : Nat) (v : W64) : Mod :=
  if !(m.host h.val).linked ∨ !(size = 4 ∨ size = 8) ∨ off % size ≠ 0 then m
  else
    match m.barAddr h.val vf off with
    | none => m
    | some a =>
      let x := a % portStride
      if 0x1000 ≤ x ∧ x < 0x2000 then m.updHost h.val fun k => { k with req := Memory.setBytes k.req (x - 0x1000) (toLe size v.toNat) }
      else if 0x100000 ≤ x ∧ x < 0x200000 ∧ 0x4000 ≤ x % 0x10000 ∧ x % 0x10000 < 0x4800 then
        let p := (x - 0x100000) / 0x10000
        let c := (x % 0x10000 - 0x4000) / 8
        if m.owns h.val p ∧ (m.part p).cores.contains c ∧ x % 8 = 0 ∧ bit v 0 then m.raiseXint c else m
      else if size = 8 then m.word8 h a v else m.word4 h a v
/-- STAGE_ITEM_WRITE: a host's 8-byte or, for a register of 32 bits, 4-byte write of a register with staged fields (R537). -/
def Mod.stageItemWrite (m : Mod) (h : HostId) (vf : Option (Fin 8)) (off : Nat) (v : W64) : Mod :=
  match m.barAddr h.val vf off with
  | none => m
  | some a =>
    match barRow a with
    | some r => if r.staged.isEmpty then m else m.barWrite h vf off r.width v
    | none => m

/-! ## BAR2 (R519, R520) -/

/-- A range that a function reaches: every byte lies in a grant of a partition that the port owns, or of the mapped one (R519, R629). -/
def Mod.bar2Reach (m : Mod) (h : Nat) (vf : Option (Fin 8)) (pa n : Nat) : Bool :=
  let ps := match vf with
    | none => (upto 16).filter fun p => m.owns h p
    | some v => (m.vfPart h v.val).toList
  let rs := ps.flatMap fun p => (m.part p).grants
  covered rs (rs.length + 1) pa (pa + n)
/-- The local physical address of a BAR2 offset. -/
def Mod.bar2Addr (m : Mod) (h : Nat) (vf : Option (Fin 8)) (x : Nat) : Option Nat :=
  match vf with
  | none => some (m.rdf (bMBX h + 0x10) 45 36 * 2 ^ 36 + x)
  | some v => (m.vfPart h v.val).map fun p => m.rdf (bPRT p + 0x180) 45 36 * 2 ^ 36 + x
/-- BAR2_ACCESS: a request to BAR2: a read of `n` bytes, or a write of given bytes. Each is judged alone; a refused read is answered
Unsupported Request, a refused write dropped, and both are counted. No write is served while HELD (R544). -/
def Mod.bar2Access (m : Mod) (h : HostId) (vf : Option (Fin 8)) (x n : Nat) (data : Option (List Byte)) : Mod :=
  let k := match data with | some bs => bs.length | none => n
  if !(m.host h.val).linked ∨ k = 0 ∨ 4096 < k ∨ (data.isSome ∧ 512 < k) ∨ 2 ^ 36 < x + k then m
  else
    let refused : Mod :=
      let m1 := m.inc (bMBX h.val + 0x40 + 8 * 2)
      if data.isSome then m1 else m1.toHost h.val (.answer none)
    match m.bar2Addr h.val vf x with
    | none => refused
    | some pa =>
      if !m.bar2Reach h.val vf pa k ∨ (m.isHeld ∧ data.isSome) then refused
      else match data with
        | some bs => m.ncWrite pa bs
        | none => (m.ncRead pa k).2.toHost h.val (.answer (some (m.ncRead pa k).1))

/-! ## Port resets (R515) and DMA time-outs (R514) -/

/-- A port's mailbox returns to version 1 with EXPSEQ 0, its waiting command is discarded, and its stage set is emptied; a command that
executes goes on without a response. -/
def Mod.portReset (m : Mod) (h : Nat) : Mod :=
  let waits := m.fit.queue.any fun q => match q with | .mbx p .. => p == h | .doe .. => false
  let m1 := (m.wrf (bMBX h + 8) 47 32 0).wrf (bMBX h + 8) 17 16 1
  let m2 := if waits then m1.wrf (bMBX h + 8) 1 1 0 else m1
  let m3 := m2.updHost h fun k => { k with set := [], overfull := false, stored := none, report := none }
  { m3 with fit := { m3.fit with
    queue := m3.fit.queue.filter fun q => match q with | .mbx p .. => p != h | .doe .. => true
    job := m3.fit.job.map fun j => if j.port = h then { j with mute := true } else j } }
/-- Running host-kind descriptors that a test accepts end with SHT_HOST. -/
def Mod.endHostKind (m : Mod) (f : ShtDesc → Bool) : Mod :=
  (upto 8).foldl (fun (m : Mod) s =>
    ((m.sht s).running.filter f).foldl (fun (m : Mod) d => (m.scrambleDst s d).shtEnd s d 0x06) m) m
/-- PORT_LINK_DOWN. -/
def Mod.portLinkDown (m : Mod) (h : HostId) : Mod :=
  if !(m.host h.val).linked then m
  else
    ((m.portReset h.val).updHost h.val fun k => { k with linked := false }).endHostKind fun d =>
      m.owns h.val d.piece.part && ((d.skind == 2 && d.hasSrc) || d.dkind == 2)
/-- HOT_RESET. -/
def Mod.hotReset (m : Mod) (h : HostId) : Mod := if (m.host h.val).linked then m.portReset h.val else m
/-- PF_FLR. -/
def Mod.pfFlr (m : Mod) (h : HostId) : Mod := if (m.host h.val).linked then m.portReset h.val else m
/-- VF_FLR: PRT_APBASE and PRT_IEN of the mapped partition are cleared. -/
def Mod.vfFlr (m : Mod) (h : HostId) (v : Fin 8) : Mod :=
  if !(m.host h.val).linked then m
  else match m.vfPart h.val v.val with
    | some p => (m.wr (bPRT p + 0x180) 0).wr (bPRT p + 0x18) 0
    | none => m
/-- COMPLETION_TIMEOUT: a DMA read of the module times out, counted on its port's reference clock (R74): the `k`-th running descriptor of the shuttle ends with SHT_HOSTERR (R514). -/
def Mod.completionTimeout (m : Mod) (s : ShuttleId) (k : Nat) : Mod :=
  match (m.sht s.val).running[k]? with
  | some d => if (m.host (m.part d.piece.part).owner).clock ∧ d.checked ∧ d.skind = 2 ∧ d.hasSrc ∧ !d.moved then (m.scrambleDst s.val d).shtEnd s.val d 0x13 else m
  | none => m
/-- PORT_LINK_UP: the port's link trains to a generation and width of R512, on its reference clock, once VPCI is good (R612). -/
def Mod.portLinkUp (m : Mod) (h : HostId) (gen width : Nat) : Mod :=
  let k := m.host h.val
  if k.linked ∨ !k.clock ∨ m.pwr.groups < 3 ∨ !(3 ≤ gen ∧ gen ≤ 6) ∨ !([1, 2, 4, 8].contains width) then m
  else m.updHost h.val fun k => { k with linked := true, gen := gen, width := width }

end Sys2Proof.Machine
end

