-- ==== Sys2Proof/Machine/Stage.lean ====
section
/-! DEFINITION. The checks of a stage set (R539, R628, R635): items, partition definitions, and the checks of each owning chapter, in
their order, on the set together with the values in force. -/

namespace Sys2Proof.Machine

/-! ## The set together with the values in force -/

/-- A register as it would stand once the set is in force. -/
def Mod.after (m : Mod) (set : List StageItem) (a : Nat) : W64 :=
  match stagedVal set a, barRow a with
  | some v, some r => r.apply (m.rd a) v
  | _, _ => m.rd a
/-- Bits of it. -/
def Mod.afterf (m : Mod) (set : List StageItem) (a hi lo : Nat) : Nat := fld (m.after set a) hi lo
/-- The set holds an item for a register. -/
def stagedAt (set : List StageItem) (a : Nat) : Bool := (stagedVal set a).isSome
/-- The set changes a register. -/
def Mod.changes (m : Mod) (set : List StageItem) (a : Nat) : Bool := m.after set a != m.rd a
/-- The cores of a mask. -/
def maskCores (mask : Nat) : List Nat := (upto 256).filter fun c => mask.testBit c
/-- A partition as a definition makes it: STOPPED (R523). -/
def PartDef.part (d : PartDef) : Part :=
  { st := .stopped, owner := d.owner, cores := maskCores d.cores, spools := d.spools.filter fun r => r.2 != 0
    scratch := d.scratch, digest := d.digest }
/-- What the set makes of partition `p`: none where it does not name it. -/
def stagedPart (set : List StageItem) (p : Nat) : Option Part :=
  set.findSome? fun x => match x with
    | .define q d => if q = p then some d.part else none
    | .destroy q => if q = p then some {} else none
    | _ => none
/-- Partition `p` once the set is in force. -/
def Mod.partAfter (m : Mod) (set : List StageItem) (p : Nat) : Part := (stagedPart set p).getD (m.part p)
/-- A failed check: status, index of the item reported, and its offset (R628). -/
abbrev Fail := Nat × Nat × Nat
/-- The offset that an item is reported with. -/
def StageItem.off : StageItem → Nat
  | .reg a _ => a
  | _ => 0
/-- The item is for a register that a test accepts. -/
def StageItem.regIs (f : Nat → Bool) : StageItem → Bool
  | .reg a _ => f a
  | _ => false
/-- The item defines or destroys a partition that a test accepts. -/
def StageItem.partIs (f : Nat → Bool) : StageItem → Bool
  | .define p _ => f p
  | .destroy p => f p
  | _ => false
/-- The report of a failure: the item latest in staging order among those involved; with none, index 0xFFFF and offset 0. -/
def blame (set : List StageItem) (status : Nat) (f : StageItem → Bool) : Fail :=
  match (set.zipIdx.filter fun p => f p.1).getLast? with
  | some (x, i) => (status, i, x.off)
  | none => (status, 0xFFFF, 0)
/-- The first failure of a list of checks. -/
def firstFail {α : Type} (l : List α) (f : α → Option Fail) : Option Fail := l.findSome? f
/-- A failure where a condition holds. -/
def failIf (b : Bool) (x : Fail) : Option Fail := if b then some x else none

/-! ## Items (R527, R536, R630, R635) -/

/-- The fitter itself as an issuer: it stages the saved sets (R543). -/
def fitterIssuer : Nat := 2
/-- Host `h` may stage a register: the steward any, as the fitter, and an owner its own. -/
def Mod.mayStage (m : Mod) (h : Nat) (set : List StageItem) (a : Nat) : Bool :=
  m.fit.steward == h || h == fitterIssuer ||
    match scopeOf a with
    | .part p => m.owns h p
    | .entry n => m.mayEntry h set n
    | .group g => m.mayGroup h set g
    | .core c => (match m.partOf c with | some p => m.owns h p | none => false)
    | _ => false
/-- A host other than the steward stages microcode for cores of its own partitions only (DEDUCED, log 43). -/
def Mod.mayUcode (m : Mod) (h core mask : Nat) : Bool :=
  let mine (c : Nat) : Bool := match m.partOf c with | some p => m.owns h p | none => false
  m.fit.steward == h || h == fitterIssuer || (mine core && (maskCores mask).all mine)
/-- CFG_ADDR, CFG_VERSION and CFG_VALUE of one item. -/
def Mod.itemFail (m : Mod) (h ver : Nat) (set : List StageItem) (x : StageItem) : Option Nat :=
  match x with
  | .reg a v =>
    match (if a < portStride then barRow a else none) with
    | none => some 0x0201
    | some r =>
      if r.staged.isEmpty || m.fit.locked.contains a || !m.mayStage h set a then some 0x0201
      else if decide (ver < 3) && ((decide (bSEM ≤ a) && decide (a < bGRP)) || (decide (bPRT 0 ≤ a) && decide (a < bSEM) && a % 0x10000 == 0x3100)) then some 0x0203
      else if !r.legal v then some 0x0205
      else none
  | .ucode c mask _ => if m.mayUcode h c mask then none else some 0x0201
  | _ => none
/-- Step 1. -/
def Mod.checkItems (m : Mod) (h ver : Nat) (set : List StageItem) : Option Fail :=
  firstFail set.zipIdx fun p => (m.itemFail h ver set p.1).map fun st => (st, p.2, p.1.off)

/-! ## Partition definitions (R522, R523) -/

/-- Partition `p` may not be redefined or destroyed (R523). -/
def Mod.partBusy (m : Mod) (p : Nat) : Bool :=
  (m.part p).st == .running || m.inflight p != 0 || !(m.flqSlots p).isEmpty ||
  (m.bar0.any fun e => decide (bG 0 ≤ e.1) && decide (e.1 < bQ 0) && (e.1 - bG 0) % 0x40 == 0 && bit e.2 63 && fld e.2 59 56 == p) ||
  (m.bar0.any fun e => decide (bSx 0 ≤ e.1) && decide (e.1 < bSx 4096) && (e.1 - bSx 0) % 0x80 == 0x28 && fld e.2 2 0 != 0 &&
    m.sxPart ((e.1 - bSx 0) / 0x80) == p)
/-- Two ranges, first and length, share a unit. -/
def overlap (a b : Nat × Nat) : Bool := meet a.1 a.2 b.1 b.2
/-- Some two ranges of a list overlap. -/
def selfOverlap : List (Nat × Nat) → Bool
  | [] => false
  | r :: rs => rs.any (overlap r) || selfOverlap rs
/-- Scratch grants as ranges of units, panel by panel. -/
def Part.units (p : Part) : List (Nat × Nat) := (p.scratch.zipIdx.map fun r => (16 * r.2 + r.1.1, r.1.2)).filter fun r => r.2 != 0
/-- The checks of one definition. -/
def Mod.checkPart (m : Mod) (set : List StageItem) (p : Nat) (x : Part) : Option Fail :=
  let me := StageItem.partIs (· == p)
  let others := (upto 16).filter fun q => q != p && (m.partAfter set q).st != .free
  let hit (f : Part → Bool) : List Nat := others.filter fun q => f (m.partAfter set q)
  let bad (l : List Nat) (status : Nat) : Fail := blame set status (StageItem.partIs fun q => q == p || l.contains q)
  if (m.part p).st = .free ∧ x.st = .free then some (blame set 0x0101 me)
  else if (m.part p).st ≠ .free ∧ m.partBusy p then some (blame set 0x0104 me)
  else if x.st = .free then none
  else
    let c := hit fun q => q.cores.any x.cores.contains
    let top := 64 * popN 24 (m.afterf set bSPLMAP 23 0)
    let s := hit fun q => q.spools.any fun r => x.spools.any (overlap r)
    let w := hit fun q => q.units.any fun r => x.units.any (overlap r)
    let wide := (upto 4).filter fun n => match x.scratch[n]? with
      | some r => r.2 != 0 && decide (m.afterf set (bPNC n) 3 0 < r.1 + r.2)
      | none => false
    if x.cores.any m.coreFenced then some (blame set 0x0102 me)
    else if !c.isEmpty then some (bad c 0x0102)
    else if x.spools.any (fun r => decide (top < r.1 + r.2)) then some (blame set 0x0103 fun i => me i || i.regIs (· == bSPLMAP))
    else if selfOverlap x.spools || !s.isEmpty then some (bad s 0x0103)
    else if !wide.isEmpty then some (blame set 0x0103 fun i => me i || i.regIs fun a => wide.any fun n => bPNC n == a)
    else if !w.isEmpty then some (bad w 0x0103)
    else none
/-- Step 2: the definitions in staging order. -/
def Mod.checkParts (m : Mod) (set : List StageItem) : Option Fail :=
  firstFail set fun x => match x with
    | .define p d => m.checkPart set p d.part
    | .destroy p => m.checkPart set p {}
    | _ => none

/-! ## PNC_ and SPL_ (R369, R384, R407) -/

/-- Step 3: a staged WAYS that would remove granted scratch. -/
def Mod.checkPnc (m : Mod) (set : List StageItem) : Option Fail :=
  firstFail (upto 4) fun n =>
    let w := m.afterf set (bPNC n) 3 0
    let ps := (upto 16).filter fun p => (m.partAfter set p).st != .free && (match (m.partAfter set p).scratch[n]? with
      | some r => r.2 != 0 && decide (w < r.1 + r.2)
      | none => false)
    failIf (stagedAt set (bPNC n) && !ps.isEmpty) (blame set 0x0217 fun i => i.regIs (· == bPNC n) || i.partIs ps.contains)
/-- The shares of a spool once a set is in force: those of the partitions that are defined, and the calibration share (R407). -/
def Mod.shareSum (m : Mod) (set : List StageItem) (s : Nat) : Nat :=
  if !(m.afterf set bSPLMAP 23 0).testBit s then 0
  else (((upto 16).filter fun p => (m.partAfter set p).st != .free).map fun p => m.afterf set (bSPL s + 0x100 + 8 * p) 9 0).sum +
    m.afterf set (bSPL s + 0x20) 5 0
/-- Step 4, in the order of the table of R407. -/
def Mod.checkSpl (m : Mod) (set : List StageItem) : Option Fail :=
  let en := m.afterf set bSPLMAP 23 0
  let onS := (upto 24).filter fun s => en.testBit s
  let parts := (upto 16).filter fun p => (m.partAfter set p).st != .free
  let holders := parts.filter fun p => !(m.partAfter set p).spools.isEmpty
  let share (s p : Nat) : Nat := m.afterf set (bSPL s + 0x100 + 8 * p) 9 0
  let cal (s : Nat) : Nat := m.afterf set (bSPL s + 0x20) 5 0
  let mapI := StageItem.regIs (· == bSPLMAP)
  if en = 0 then some (blame set 0x0218 mapI)
  else if m.changes set bSPLMAP ∧ !holders.isEmpty then some (blame set 0x0218 fun i => mapI i || i.partIs holders.contains)
  else
    (firstFail onS fun s =>
      let sum := m.shareSum set s
      failIf (decide (1000 < sum)) (blame set 0x0219 fun i => m.shareSum (set.filter (· != i)) s != sum)).or <|
    (firstFail (upto 24) fun s =>
      (failIf (decide (cal s < 2) || decide (50 < cal s)) (blame set 0x021A (StageItem.regIs (· == bSPL s + 0x20)))).or <|
      firstFail (upto 16) fun p => failIf (decide (1000 < share s p)) (blame set 0x021A (StageItem.regIs (· == bSPL s + 0x100 + 8 * p)))).or <|
    firstFail onS fun s => firstFail holders fun p =>
      failIf (share s p == 0 && m.afterf set (bSPL s + 0x100 + 8 * p) 32 32 == 0)
        (blame set 0x021B fun i => mapI i || i.partIs (· == p) || i.regIs (· == bSPL s + 0x100 + 8 * p))

/-! ## XLT_, FLQ_, PAT_ and LNK_ (R426, R435, R336, R470) -/

/-- Step 5. -/
def Mod.checkXlt (m : Mod) (set : List StageItem) : Option Fail :=
  (firstFail (upto 16) fun p =>
    let ch := [bXLT p, bXLT p + 0x80].filter (m.changes set)
    failIf (!ch.isEmpty && (m.inflight p != 0 || !(m.flqSlots p).isEmpty)) (blame set 0x021C (StageItem.regIs ch.contains))).or <|
  firstFail (upto 16) fun p =>
    let a := bXLT p + 0x80
    failIf (m.afterf set a 63 63 == 1 && !(m.partAfter set p).holds (m.afterf set a 45 16 * 2 ^ 16) 0x9000)
      (blame set 0x021D fun i => i.regIs (· == a) || i.partIs (· == p))
/-- Step 6. -/
def Mod.checkPat (m : Mod) (set : List StageItem) : Option Fail :=
  firstFail (upto 16) fun p =>
    let ch := ((upto 5).map fun i => bPAT p + 8 * i).filter (m.changes set)
    failIf (!ch.isEmpty && m.inflight p != 0) (blame set 0x0216 (StageItem.regIs ch.contains))
/-- Step 7, in the order of the table of R470. -/
def Mod.checkLnk (m : Mod) (set : List StageItem) : Option Fail :=
  let top := m.after set (bLNK + 0x008)
  let id := m.afterf set bLNK 17 0
  let mode := fld top 1 0
  let size (d : Nat) : Nat := fld top (6 * d + 11) (6 * d + 6) + 1
  let at' (d : Nat) : Nat := if mode = 2 then bitsN id (3 * d + 2) (3 * d) else bitsN id (6 * d + 5) (6 * d)
  let bad := mode == 3 || (mode == 2 && (upto 6).any fun d => decide (8 < size d)) ||
    ((upto (if mode = 1 then 3 else if mode = 2 then 6 else 0)).any fun d => decide (size d ≤ at' d))
  (failIf bad (blame set 0x021E (StageItem.regIs fun a => a == bLNK || a == bLNK + 0x008))).or <|
  (firstFail (upto 6) fun k => failIf ((upto 6).any fun v => m.afterf set (bPort k + 0x08) (6 * v + 5) (6 * v) == 0)
    (blame set 0x021F (StageItem.regIs (· == bPort k + 0x08)))).or <|
  (firstFail (upto 6) fun k =>
    let al := (upto 12).map fun c => m.afterf set (bPort k + 0x10 + 8 * (c / 6)) (10 * (c % 6) + 9) (10 * (c % 6))
    failIf (al.any (fun x => decide (x < 2)) || decide (512 < al.sum))
      (blame set 0x0220 (StageItem.regIs fun a => a == bPort k + 0x10 || a == bPort k + 0x18))).or <|
  firstFail (upto 16) fun p =>
    let a := bPRT p + 0x3100
    failIf (m.afterf set a 63 63 == 1 && !(m.partAfter set p).holds (m.afterf set a 45 13 * 2 ^ 13) 0x2000)
      (blame set 0x0221 fun i => i.regIs (· == a) || i.partIs (· == p))

/-! ## GRP_ (R475) -/

/-- Numbers of a family of places that the set names, in staging order. -/
def named (set : List StageItem) (base step last : Nat) : List Nat :=
  (set.filterMap fun x => match x with | .reg a _ => if base ≤ a ∧ a < last then some ((a - base) / step) else none | _ => none).dedup
/-- A device ID appears twice in a sorted list. -/
def twice : List Nat → Bool
  | a :: b :: l => a == b || twice (b :: l)
  | _ => false
/-- Step 8: entries in staging order, each in the order of the table. -/
def Mod.checkGrp (m : Mod) (set : List StageItem) : Option Fail :=
  firstFail (named set (bG 0) 0x40 (bQ 0)) fun g =>
    let f (off hi lo : Nat) := m.afterf set (bG g + off) hi lo
    let mine := StageItem.regIs fun a => decide (bG g ≤ a) && decide (a < bG g + 0x40)
    let part := f 0 59 56
    let pt := m.partAfter set part
    let n := f 8 63 46 + 1
    let list := f 8 45 0
    let words := (upto n).map fun i => m.rdLe (list + 4 * i) 4
    let ids := words.map fun w => w % 2 ^ 18
    let self := m.afterf set bLNK 17 0
    let busy := (upto 4).any (fun i => m.changes set (bG g + 8 * i)) && (m.qDepth g != 0 || (m.grp g).run.isSome)
    let withPart := fun i => mine i || i.partIs (· == part)
    if f 0 63 63 = 0 then failIf busy (blame set 0x0226 mine)
    else if !(list % 64 == 0 && pt.holds list (4 * n) && pt.holds (f 0x10 45 14 * 2 ^ 14) 0x4000 && pt.holds (f 0x18 45 12 * 2 ^ 12) (cdiv n 8)) then
      some (blame set 0x0222 withPart)
    else if f 0 55 48 < 7 ∨ words.any (fun w => decide (2 ^ 18 ≤ w)) then some (blame set 0x0223 mine)
    else if !ids.contains self then some (blame set 0x0224 fun i => mine i || i.regIs (· == bLNK))
    else if twice (ids.mergeSort) then some (blame set 0x0225 mine)
    else failIf busy (blame set 0x0226 mine)

/-! ## SEM_ (R60, R61) -/

/-- The landing group of a STAGE entry is out of order, outside the partition, or outside the bolt (R61). -/
def Mod.landBadCfg (m : Mod) (set : List StageItem) (n : Nat) : Bool :=
  let f (off hi lo : Nat) := m.afterf set (bSx n + off) hi lo
  let first := f 0x14 7 0
  let last := f 0x14 15 8
  let cs := (m.partAfter set (f 0 23 20)).cores
  decide (last < first) || !((upto (last + 1 - first)).all fun i => cs.contains (first + i)) ||
  decide (f 0x18 31 20 < 4) || decide (2051 < f 0x18 31 20) || decide (262144 < f 0x18 17 0 + (f 0x14 23 16 + 1) * f 0x18 31 20)
/-- Step 9: entries in staging order. -/
def Mod.checkSem (m : Mod) (set : List StageItem) : Option Fail :=
  firstFail (named set (bSx 0) 0x80 (bSx 4096)) fun n =>
    let st := m.sxRaw n
    let free := if st = 1 then [0x04, 0x08, 0x0C, 0x10] else if st = 2 then [0x04, 0x08, 0x0C, 0x10, 0x2C, 0x30, 0x34] else []
    let ch := (set.filterMap fun x => match x with
      | .reg a _ => if bSx n ≤ a ∧ a < bSx n + 0x80 ∧ m.changes set a ∧ !free.contains (a - bSx n) then some a else none
      | _ => none)
    if (st = 1 ∨ st = 2) ∧ !ch.isEmpty then some (blame set 0x0210 (StageItem.regIs ch.contains))
    else failIf (m.afterf set (bSx n) 31 30 == 1 && m.landBadCfg set n)
      (blame set 0x0227 fun i => i.partIs (· == m.afterf set (bSx n) 23 20) ||
        i.regIs fun a => a == bSx n || a == bSx n + 0x14 || a == bSx n + 0x18)

/-! ## Microcode (R249 to R253, R287) -/

/-- Entry `i` of an image. -/
def ucEntry (img : List Byte) (i : Nat) : Nat := ofLe ((img.drop (0x50 + 8 * i)).take 8)
/-- DISPATCH of CUST `n`. -/
def ucDisp (img : List Byte) (n : Nat) : Nat := ofLe ((img.drop (0x10 + 4 * n)).take 4)
/-- COUNT of an image. -/
def ucCount (img : List Byte) : Nat := ofLe ((img.drop 4).take 2)
/-- The image of a UCODE item: the one it brings from flash, or what its core's staging window holds. -/
def Mod.ucImage (m : Mod) (c : Nat) (img : Option (List Byte)) : List Byte := img.getD (Memory.bytes (m.core c).uc.stage 0 0x4050)
/-- First and last entry of a routine, if it has a LAST. -/
def ucSpan (img : List Byte) (start : Nat) : Option (Nat × Nat) :=
  ((upto (ucCount img - start)).find? fun k => (ucEntry img (start + k)).testBit 33).map fun k => (start, start + k)
/-- A relative branch of a micro-op: its offset in entries. -/
def ucBranch (w : Nat) : Option Int :=
  let mj := bitsN w 31 26
  if mj = 0x0C ∨ mj = 0x0D ∨ mj = 0x0E then some (sNat 26 (bitsN w 25 0)) else none
/-- Longest run of entries with neither STEP nor LAST. -/
def ucRun (img : List Byte) : Nat → Nat → Nat → Nat → Nat
  | 0, _, _, best => best
  | k + 1, i, cur, best =>
    let c := if (ucEntry img i).testBit 32 || (ucEntry img i).testBit 33 then 0 else cur + 1
    ucRun img k (i + 1) c (max best c)
/-- The status of an image, before UC_BUSY. -/
def ucFail (img : List Byte) : Option Nat :=
  let count := ucCount img
  let es := (upto count).map (ucEntry img)
  let disp := (upto 16).map (ucDisp img)
  if ofLe (img.take 4) ≠ 1 ∨ count = 0 ∨ 2048 < count ∨ ofLe ((img.drop 6).take 10) ≠ 0 ∨ disp.any (fun d => bitsN d 29 11 != 0) ∨
      es.any (fun e => decide (2 ^ 34 ≤ e)) then some 0x0211
  else
    let starts := (disp.filter fun d => d.testBit 31).map fun d => bitsN d 10 0
    let spans := starts.map fun s => if s < count then ucSpan img s else none
    let rs := spans.filterMap id
    let ents (r : Nat × Nat) : List Nat := (upto (r.2 + 1 - r.1)).map (r.1 + ·)
    let outside (r : Nat × Nat) (i : Nat) : Bool := match ucBranch (ucEntry img i) with
      | some o => decide ((i : Int) + o < r.1) || decide ((r.2 : Int) < i + o)
      | none => false
    let backs (i : Nat) : Bool := match ucBranch (ucEntry img i) with
      | some o => decide (o ≤ 0) && !(ucEntry img i).testBit 32
      | none => false
    if spans.any (·.isNone) ∨ rs.any (fun r => (ents r).any (outside r)) then some 0x0212
    else if rs.any (fun r => (ents r).any fun i => notMicro (BitVec.ofNat 32 (ucEntry img i))) then some 0x0213
    else if rs.any (fun r => (ents r).any backs || decide (64 ≤ ucRun img (r.2 + 1 - r.1) r.1 0 0)) then some 0x0214
    else none
/-- A progress field of KIND 2 that runs a core's previous copy (R287). -/
def progOld (k : Core) (w : W64) : Bool := fld w 63 62 == 2 && fld w 27 12 == k.uc.prev.gen % 2 ^ 16 && fld w 27 12 != k.uc.cur.gen % 2 ^ 16
/-- A piece of core `c` runs the previous copy (R253, R287). -/
def Mod.ucBusy (m : Mod) (c : Nat) : Bool :=
  let k := m.core c
  (k.uc.useOld && k.run != .free) || progOld k (w64 (if k.bank.prog.kind = 2 then 2 * 2 ^ 62 + k.bank.prog.gen * 2 ^ 12 else 0)) ||
  (k.excDepth != 0 && progOld k (k.shadow.word 10)) || (m.pat.saved.any fun s => s.core == c && (s.units.useOld || progOld k ((m.getImage (m.saveBase s.piece.part s.slot)).word 10)))
/-- Step 10: the items in staging order. -/
def Mod.checkUc (m : Mod) (set : List StageItem) : Option Fail :=
  firstFail set.zipIdx fun p => match p.1 with
    | .ucode c mask img =>
      match ucFail (m.ucImage c img) with
      | some st => some (st, p.2, 0)
      | none => failIf ((maskCores mask).any m.ucBusy) (0x0215, p.2, 0)
    | _ => none

/-- The check of a set (R539): none where it passes. -/
def Mod.checkSet (m : Mod) (h ver : Nat) (set : List StageItem) : Option Fail :=
  (m.checkItems h ver set).or <| (m.checkParts set).or <| (m.checkPnc set).or <| (m.checkSpl set).or <| (m.checkXlt set).or <|
  (m.checkPat set).or <| (m.checkLnk set).or <| (m.checkGrp set).or <| (m.checkSem set).or (m.checkUc set)

end Sys2Proof.Machine
end

