-- ==== Sys2Proof/Machine/Apply.lean ====
section
/-! DEFINITION. The apply point (R524, R540 to R544, R561, R572, R579): the drains before it, and what the switch puts into force. -/

namespace Sys2Proof.Machine

/-! ## Drains (R368, R384, R637) -/

/-- Every byte of spool memory is written zero, with tags clear and no poison (R384, R568). Caches hold no line of it any more, since the lines'
homes change with the map (DEDUCED, log 45). -/
def Mod.zeroSpools (m : Mod) : Mod :=
  { m with
    mem := Tab.clear m.mem 0 scratchBase, tags := Tab.clear m.tags 0 (scratchBase / 16), poison := Tab.clear m.poison 0 (scratchBase / 64)
    coh := {}
    cores := Tab.mapV m.cores fun _ k => { k with mem := { k.mem with l1i := [], l1d := [], l2 := [], wb := [], misses := [], lostM := [] } }
    spl := { m.spl with waiting := [], queued := [], rows := [], units := [], marked := [] } }
/-- The lines of a panel's ways from `16 - w` up are written back and invalidated (R368). -/
def Mod.drainPanel (m : Mod) (n w : Nat) : Mod :=
  let gone (i : Nat) : Bool := i / (16 * 3072 * 16) == n && decide (16 - w ≤ i % 16)
  let m1 := (m.coh.pnc.filter fun e => gone e.1 && e.2.val.dirty).foldl (fun (m : Mod) e => m.askSpool e.2.key true) m
  { m1 with coh := { m1.coh with pnc := Tab.keep m1.coh.pnc fun i _ => !gone i } }
/-- Entries of a table between two keys move by a distance; those that leave the range are lost. -/
def moveKeys {α : Type} (t : Tab α) (lo hi top : Nat) (d : Int) : Tab α :=
  t.filterMap fun e =>
    if lo ≤ e.1 ∧ e.1 < hi then
      let k := (e.1 : Int) + d
      if (lo : Int) ≤ k ∧ k < (top : Int) then some (k.toNat, e.2) else none
    else some e
/-- Scratch of a panel goes from `w0` ways to `w1`: each way keeps its contents, so that they move in the window (R367); new scratch reads zero,
with tags clear (R368). -/
def Mod.moveScratch (m : Mod) (n w0 w1 : Nat) : Mod :=
  let unit := 6 * 2 ^ 20
  let lo := scratchBase + n * 0x4000000
  let d : Int := ((w1 : Int) - (w0 : Int)) * (unit : Nat)
  { m with
    mem := moveKeys m.mem lo (lo + 0x4000000) (lo + w1 * unit) d
    tags := moveKeys m.tags (lo / 16) ((lo + 0x4000000) / 16) ((lo + w1 * unit) / 16) (d / 16)
    poison := moveKeys m.poison (lo / 64) ((lo + 0x4000000) / 64) ((lo + w1 * unit) / 64) (d / 64) }
/-- Chunks that are landing at entries that the set makes IDLE, gives a role, or whose partition it redefines land whole (R637). -/
def Mod.finishLandings (m : Mod) (set : List StageItem) : Mod :=
  let own := (m.sem.entries.filter fun e => !e.2.landing.isEmpty && (stagedPart set (m.sxPart e.1)).isSome).map (·.1)
  (named set (bSx 0) 0x80 (bSx 4096) ++ own).dedup.foldl (fun (m : Mod) n =>
    if m.sxRaw n = 1 ∨ m.sxRaw n = 2 then m
    else ((m.sx n).landing.foldl (fun (m : Mod) x => m.semLand n x.data) m).updSx n fun e => { e with landing := [] }) m
/-- The drains that come before the hold (R540). -/
def Mod.drains (m : Mod) (set : List StageItem) : Mod :=
  let m1 := (upto 4).foldl (fun (m : Mod) n =>
    let w := m.afterf set (bPNC n) 3 0
    if w = m.rdf (bPNC n) 3 0 then m else (m.drainPanel n w).wrf (bPNC n + 8) 8 8 1) m
  let m2 := if m1.changes set bSPLMAP then m1.zeroSpools else m1
  m2.finishLandings set

/-! ## What the switch does, unit by unit -/

/-- CAL_UREG, CAL_UTHM, CAL_ULNK and CAL_USPL: the fields of a user offset register, as place, width and limit (R569, R594). -/
def userFields (a : Nat) : List (Nat × Nat × Int) :=
  if bCAL + 0x200 ≤ a ∧ a < bCAL + 0x280 then [(0, 5, 8)]
  else if bCAL + 0x300 ≤ a ∧ a < bCAL + 0x400 then [(0, 6, 8)]
  else if bCAL + 0x1000 ≤ a ∧ a < bCAL + 0x1900 then [(0, 6, 4), (8, 6, 4), (16, 4, 3), (24, 6, 8)]
  else if bCAL + 0x4000 ≤ a ∧ a < bCAL + 0x10000 then [(0, 6, 8), (8, 6, 6), (16, 6, 8), (24, 6, 6)]
  else []
/-- A user offset beyond its limit sets CLAMP (R570); lanes go on with the old offset until they switch (R572). -/
def Mod.applyUser (m : Mod) (a : Nat) (old new : W64) : Mod :=
  let m1 := (userFields a).foldl (fun (m : Mod) f =>
    let u := sNat f.2.1 (fld new (f.1 + f.2.1 - 1) f.1)
    if u < -f.2.2 ∨ f.2.2 < u then m.calEvent 5 else m) m
  if a < bCAL + 0x280 then m1.trimRail ((a - bCAL - 0x200) / 8) old
  else if a < bCAL + 0x1000 ∨ old = new then m1
  else
    let held := if (Tab.get? m1.cal.held a).isSome then m1.cal.held else Tab.put m1.cal.held a old
    if a < bCAL + 0x4000 then { m1 with cal := { m1.cal with held := held, pendLnk := (m1.cal.pendLnk ++ [(a - bCAL - 0x1000) / 0x40]).dedup } }
    else { m1 with cal := { m1.cal with held := held, pendSpl := (m1.cal.pendSpl ++ [(a - bCAL - 0x4000) / 8]).dedup } }
/-- A register item goes into force. -/
def Mod.applyReg (m : Mod) (a : Nat) (v : W64) : Mod :=
  match barRow a with
  | none => m
  | some r =>
    let old := m.rd a
    let new := r.apply old v
    if bCAL + 0x40 ≤ a ∧ a ≤ bCAL + 0x60 then m
    else
      let m1 := m.wr a new
      let m2 : Mod := if r.staged.any fun f => f.acc = .lck then { m1 with fit := { m1.fit with locked := (a :: m1.fit.locked).dedup } } else m1
      if a = bSPLMAP then m2.wrf a 28 24 (popN 24 (fld new 23 0))
      else if a = bCAL + 0x08 then
        (if fld new 4 0 < 12 then (m2.wrf a 4 0 12).calEvent 5 else if 24 < fld new 4 0 then (m2.wrf a 4 0 24).calEvent 5 else m2)
      else if (userFields a) ≠ [] then m2.applyUser a old new
      else m2
/-- Fences that a CAL_FENCE item adds (R586). -/
def Mod.applyFence (m : Mod) (a : Nat) (v : W64) : Mod :=
  if bCAL + 0x40 ≤ a ∧ a < bCAL + 0x60 then
    (upto 64).foldl (fun (m : Mod) i => if bit v i then m.fenceCore (8 * (a - bCAL - 0x40) + i) else m) m
  else if a = bCAL + 0x60 then
    let m1 := (upto 24).foldl (fun (m : Mod) i => if bit v i then m.fenceSpool i else m) m
    (upto 4).foldl (fun (m : Mod) i => if bit v (24 + i) then m.fencePanel i else m) m1
  else m
/-- A partition definition goes into force: STOPPED; the bolts of added cores are zero (R343, R523); buckets of partitions that come or go
are 0 (R397). -/
def Mod.applyPart (m : Mod) (p : Nat) (new : Part) : Mod :=
  let old := m.part p
  let added := new.cores.filter fun c => !old.cores.contains c
  let m1 := added.foldl (fun (m : Mod) c => m.updCore c fun k => { k with bolt := [], boltErr := [] }) (m.updPart p fun _ => new)
  if old.st = .free ∨ new.st = .free then (upto 24).foldl (fun (m : Mod) s => m.setLevel s p 0) m1 else m1
/-- Spool buckets never stand above their new depth (R397). -/
def Mod.clampLevel (m : Mod) (s b : Nat) : Mod := m.setLevel s b (min (m.level s b) ((16000 * m.bktDepth s b : Nat) : Int))
/-- Chunks that an entry still holds as it becomes IDLE or takes a role: those that wait or have not been passed on are dropped as NOSTREAM, and the
last bytes of the others pass; the buffer space of all is returned (R38, R39, R637). -/
def Mod.dropHeld (m : Mod) (n : Nat) : Mod :=
  let e := m.sx n
  let m1 := (e.waiting ++ e.passing).foldl (fun (m : Mod) x => (m.semCnt 0).semFree x) m
  e.passed.foldl (fun (m : Mod) _ => m.passLastByte n) m1
/-- Seam entry `n` at an apply point that names it (R58 to R61): a role opens an IDLE entry; none makes it IDLE; staged sequence numbers move NEXT,
and the chunks below it are released without notches. -/
def Mod.applyEntry (m : Mod) (set : List StageItem) (n : Nat) : Mod :=
  let role := m.sxf n 0x00 31 30
  let named' := stagedAt set (bSx n)
  let st := m.sxRaw n
  let m1 := if stagedAt set (bSx n + 0x2C) then
      m.updSx n fun e => { e with rel := m.sxNext n, fresh := false, slots := Tab.keep e.slots fun q _ => decide (0 ≤ seqDiff q (m.sxNext n)) }
    else m
  if !named' then m1
  else if role = 0 then (((m1.dropHeld n).sxGo n 0).updSx n fun _ => {})
  else if st = 0 then
    let shadow := m.sxf n 0x00 29 29 = 1
    ((m1.dropHeld n).sxGo n (if shadow then 2 else 1)).updSx n fun _ => { rel := m.sxNext n, fresh := shadow }
  else m1
/-- A UCODE item goes into force (R253): the image becomes the current copy of each named core; pieces there keep the previous one. -/
def Mod.applyUcode (m : Mod) (core mask : Nat) (data : Option (List Byte)) : Mod :=
  let img := m.ucImage core data
  let disp : Tab W32 := (upto 16).map fun n => (n, BitVec.ofNat 32 (ucDisp img n))
  let ents : Tab (BitVec 34) := (upto (ucCount img)).map fun i => (i, BitVec.ofNat 34 (ucEntry img i))
  let m1 := (maskCores mask).foldl (fun (m : Mod) c => m.updCore c fun k =>
    { k with uc := { k.uc with prev := k.uc.cur, cur := { disp := disp, ents := ents, gen := (k.uc.cur.gen + 1) % 2 ^ 16 }, useOld := k.run != .free } }) m
  m1.updSaved fun l => l.map fun s => if mask.testBit s.core then { s with units := { s.units with useOld := true } } else s
/-- The cores that the UCODE items of a set name. -/
def ucMasks : List StageItem → Nat
  | [] => 0
  | .ucode _ mask _ :: l => mask ||| ucMasks l
  | _ :: l => ucMasks l
/-- The UCODE items of a set go into force: each core's copies shift once (R253), and a core that several items name runs the last
(DEDUCED, log 75). -/
def Mod.applyUcodes (m : Mod) : List StageItem → Mod
  | [] => m
  | .ucode c mask img :: l => (m.applyUcode c (mask - (mask &&& ucMasks l)) img).applyUcodes l
  | _ :: l => m.applyUcodes l
/-- A group entry that a set names (R476): its values are computed anew, unless it is at work, when the set has left it as it was (R475). -/
def Mod.grpNamed (m : Mod) (g : Nat) : Mod :=
  if (m.grp g).run.isSome ∨ m.qDepth g ≠ 0 then m else if m.grpValid g then m.grpApply g else m.updGrp g fun _ => {}
/-- The root caps of a partition (R524). -/
def Mod.rootCaps (m : Mod) (p : Nat) : Mod :=
  let base := m.rdf (bPAT p + 0x18) 45 12 * 2 ^ 12
  if (m.part p).st = .free ∨ !(m.part p).holds base 4096 then m
  else
    let c0 := mkCap 0 (pRD + pWR + pEX + pLC + pSC + pBOLT + pPGTAB + pGLOVE) 0 (2 ^ 48 - 1) 0 true
    let c1 := mkCap 1 (pRD + pWR + pSYSREG + pUCODE) 0 0x10000 0 true
    let c2 := mkCap 0 (pSEAL + pUNSEAL) 0 65535 1 true
    ((m.wrCap base c0).wrCap (base + 16) c1).wrCap (base + 32) c2

/-! ## Measurement (R560 to R562) -/

/-- Write a log entry and extend the register of its kind. -/
def Mod.logEvent (m : Mod) (kind src : Nat) (count : Nat) (digest : List Byte) : Mod :=
  let e := toLe 1 kind ++ toLe 1 src ++ toLe 2 0 ++ toLe 4 (m.rdf bCFGSTAT 63 32) ++ toLe 8 count ++ digest
  let log := m.fit.log ++ [e]
  let f : Fitter := { m.fit with log := log.drop (log.length - 1024), lost := m.fit.lost + (log.length - 1024) }
  { m with fit := if kind = 1 then { f with measUc := shake256 (f.measUc ++ e) 64 } else { f with measCfg := shake256 (f.measCfg ++ e) 64 } }
/-- The entries of an apply point, in their order (R561). -/
def Mod.logApply (m : Mod) (set : List StageItem) (src : Nat) : Mod :=
  let m1 := set.foldl (fun (m : Mod) x => match x with
    | .ucode c mask data =>
      let img := m.ucImage c data
      m.logEvent 1 src (ucCount img) (shake256 (toLe 32 mask ++ img.take (0x50 + 8 * ucCount img)) 64)
    | _ => m) m
  let regs := set.filterMap fun x => match x with | .reg a v => some (toLe 4 a ++ toLe 8 v.toNat) | _ => none
  if regs.isEmpty then m1 else m1.logEvent 2 src regs.length (shake256 regs.flatten 64)

/-! ## The switch (R540) -/

/-- Every vector that waits because of HELD is sent where it is due (R544, R546). -/
def Mod.allVectors (m : Mod) : Mod := (upto 16).foldl (fun (m : Mod) p => m.prtVector p) m
/-- A set goes into force at one instant. `leave` says that the apply leaves HELD. -/
def Mod.applySet (m : Mod) (set : List StageItem) (src : Nat) (leave : Bool) : Mod :=
  let base := m.finishLandings set
  let held := base.isHeld
  let ways := (upto 4).map fun n => base.rdf (bPNC n) 3 0
  let parts := (upto 16).filter fun p => (stagedPart set p).isSome
  -- definitions, then registers
  let m1 := parts.foldl (fun (m : Mod) p => m.applyPart p (m.partAfter set p)) base
  let m2 := set.foldl (fun (m : Mod) x => match x with | .reg a v => m.applyReg a v | _ => m) m1
  let m3 := m2.applyUcodes set
  -- scratch, spools, seams
  let m4 := (upto 4).foldl (fun (m : Mod) n =>
    let w := m.rdf (bPNC n) 3 0
    if w = ways.getD n 0 then m
    else ((m.drainPanel n w).moveScratch n (ways.getD n 0) w).wr (bPNC n + 8) (w64 w)) m3
  let m5 := (upto 24).foldl (fun (m : Mod) s => (upto 16).foldl (fun (m : Mod) p =>
    if stagedAt set (bSPL s + 0x100 + 8 * p) then m.clampLevel s p else m) m) m4
  let m6 := (named set (bSx 0) 0x80 (bSx 4096)).foldl (fun (m : Mod) n => m.applyEntry set n) m5
  -- the apply point is counted, and HELD is left
  let m7 := m6.wrf bCFGSTAT 63 32 (m6.rdf bCFGSTAT 63 32 + 1)
  let m8 := if held && !leave then m7 else m7.wrf bCFGSTAT 31 0 1
  -- groups and links see the new settings
  let m9 := (named set (bG 0) 0x40 (bQ 0)).foldl (fun (m : Mod) g => m.grpNamed g) m8
  let m10 := m9.linkApply
  let m11 := (upto 16).foldl (fun (m : Mod) p =>
    if parts.contains p ∨ m.rdf (bPAT p + 0x18) 45 12 ≠ base.rdf (bPAT p + 0x18) 45 12 then m.rootCaps p else m) m10
  let m12 := set.foldl (fun (m : Mod) x => match x with | .reg a v => m.applyFence a v | _ => m) m11
  let m13 := (m12.setTargets).logApply set src
  if held && leave then m13.allVectors else m13
/-- The drains are over without a switch: PNC_STAT shows none. -/
def Mod.drainEnds (m : Mod) : Mod := (upto 4).foldl (fun (m : Mod) n => m.wrf (bPNC n + 8) 8 8 0) m
/-- A set is checked, drained and applied in one step: CFG_REG and the boot apply. -/
def Mod.applyNow (m : Mod) (h ver : Nat) (set : List StageItem) (src : Nat) (leave : Bool) : Fail ⊕ Mod :=
  match m.checkSet h ver set with
  | some f => .inl f
  | none => .inr ((m.drains set).applySet set src leave).drainEnds
/-- The module enters HELD (R544): its reason, and host-kind writes end. -/
def Mod.enterHeld (m : Mod) (status reason : Nat) : Mod :=
  (m.wrf bCFGSTAT 31 0 (status % 2 ^ 16 * 2 ^ 16 + reason * 2 ^ 8 + 2)).endHostKind fun d => d.dkind == 2

end Sys2Proof.Machine
end

