-- ==== Sys2Proof/Machine/Mailbox.lean ====
section
/-! DEFINITION. Images and flash (R550, R551), mailboxes (R527 to R536, R555, R556, R631, R636), reports (R563 to R566), snapshots
(R623). -/

namespace Sys2Proof.Machine

/-! ## Flash and images (R550, R551) -/

/-- A byte of flash; one that nothing has written is erased (PRESUMED, log 46). -/
def NonVol.byte (v : NonVol) (a : Nat) : Byte := Tab.get 0xFF#8 v.flash a
/-- Bytes of flash. -/
def NonVol.bytes (v : NonVol) (a n : Nat) : List Byte := (upto n).map fun i => v.byte (a + i)
/-- Write bytes of flash. -/
def NonVol.put (v : NonVol) (a : Nat) : List Byte → NonVol
  | [] => v
  | b :: bs => { v with flash := Tab.setD 0xFF#8 v.flash a b }.put (a + 1) bs
/-- Flash offset of slot A or B. -/
def slotBase (s : Nat) : Nat := 0x400000 * s
/-- Where an image lies: a reader of its bytes, and how many there are. -/
structure Image0 where
  hdr : List Byte
  body : List Byte
  len : Nat
deriving DecidableEq, Repr
/-- A header field. -/
def Image0.f (x : Image0) (off n : Nat) : Nat := ofLe ((x.hdr.drop off).take n)
/-- BODYLEN. -/
def Image0.bodyLen (x : Image0) : Nat := x.f 0x10 4
/-- SVN. -/
def Image0.svn (x : Image0) : Nat := x.f 0x08 4
/-- VERSION. -/
def Image0.version (x : Image0) : Nat := x.f 0x0C 4
/-- M1 (R551). -/
def Image0.m1 (x : Image0) : List Byte := shake256 (x.hdr.take 0x40 ++ x.body) 64
/-- Bytes as an image. -/
def imageOf (rd : Nat → Nat → List Byte) (len : Nat) : Image0 :=
  let hdr := rd 0 0x1000
  { hdr := hdr, body := rd 0x1000 (min (ofLe ((hdr.drop 0x10).take 4)) 0x300000), len := len }
/-- The image of a flash slot. -/
def NonVol.image (v : NonVol) (s : Nat) : Image0 := imageOf (fun a n => v.bytes (slotBase s + a) n) 0x400000
/-- An image is acceptable (R551): the fields, the ranges, the key, the security version, the signature. -/
def NonVol.accepts (v : NonVol) (x : Image0) : Bool :=
  let len := x.bodyLen
  x.f 0 4 == 0x31575846 && x.f 4 2 == 1 && x.f 7 1 == 0 && x.f 0x18 40 == 0 && x.f 0xD2D 723 == 0 &&
  len % 128 == 0 && decide (128 ≤ len) && decide (len ≤ 0x300000) && x.f 0x14 4 % 4 == 0 && decide (x.f 0x14 4 < len) && decide (4096 + len ≤ x.len) &&
  decide (x.f 6 1 < 4) && !v.revoked.testBit (x.f 6 1) && decide (x.svn ≤ 64) && decide (v.svn ≤ x.svn) &&
  Config.mldsaVerify (Config.imageKey (x.f 6 1)) (ascii "UXC-FW") x.m1 ((x.hdr.drop 0x40).take 3309)

/-! ## Who serves -/

/-- The fitter serves mailboxes: firmware, or the boot ROM in recovery, runs, and no apply is in progress (R532, R555, R613). -/
def Mod.serves (m : Mod) : Bool :=
  (m.fit.phase == .running || m.fit.phase == .recovery) && !(m.core 256).halted && m.fit.job.isNone
/-- A command as the fitter has copied it (R529). -/
structure Cmd where
  port : Nat := 0
  seq : Nat := 0
  ver : Nat := 1
  code : Nat := 0
  part : Nat := 0
  /-- its fields, without the padding of version 1 -/
  pay : List Byte := []
deriving DecidableEq, Repr
/-- A little-endian field of a payload. -/
def Cmd.f (c : Cmd) (off n : Nat) : Nat := ofLe ((c.pay.drop off).take n)
/-- How a command ends: at once with a status and a payload, or later. -/
inductive Reply where
  | now (status : Nat) (pay : List Byte) (m : Mod)
  | later (m : Mod)
/-- A command: its code, the versions it exists in, the lengths of its payload, and whether only the steward issues it (R534, R631). -/
structure CmdRow where
  code : Nat
  least : Nat
  most : Nat := 3
  len : Nat
  /-- the payload goes on with data to 4,080 bytes -/
  open' : Bool := false
  steward : Bool := false
  resp : Nat
deriving DecidableEq, Repr
/-- The commands (R534, R631). -/
def cmdRows : List CmdRow := [
  { code := 0x01, least := 1, len := 8, resp := 8 }, { code := 0x02, least := 1, len := 0, resp := 16 },
  { code := 0x03, least := 1, len := 0, resp := 40 }, { code := 0x04, least := 1, len := 8, resp := 0 },
  { code := 0x05, least := 1, len := 0, resp := 16 }, { code := 0x06, least := 1, len := 16, resp := 8 },
  { code := 0x10, least := 2, len := 112, resp := 0, steward := true }, { code := 0x11, least := 2, len := 8, resp := 0, steward := true },
  { code := 0x12, least := 3, len := 72, resp := 8 }, { code := 0x13, least := 3, len := 32, resp := 0, steward := true },
  { code := 0x20, least := 2, len := 16, open' := true, resp := 8 }, { code := 0x21, least := 2, len := 0, resp := 16 },
  { code := 0x22, least := 2, len := 8, resp := 16 }, { code := 0x23, least := 2, len := 0, resp := 0 },
  { code := 0x30, least := 3, len := 24, resp := 0 }, { code := 0x40, least := 1, len := 0, resp := 8 },
  { code := 0x50, least := 2, len := 40, resp := 4 }, { code := 0x51, least := 2, len := 8, open' := true, resp := 8, steward := true },
  { code := 0x52, least := 2, len := 0, resp := 0, steward := true } ]
/-- The row of a code. -/
def cmdRow (code : Nat) : Option CmdRow := cmdRows.find? fun r => r.code == code

/-! ## Responses (R529, R531, R631) -/

/-- The bytes of a response: the header repeats SEQ, CODE and PART. -/
def respBytes (seq code ver part status : Nat) (pay : List Byte) : List Byte :=
  let body := if 1 ≤ status ∧ status ≤ 6 then [] else pay
  let body := if ver = 1 then padTo 48 body else body
  toLe 4 (seq * 2 ^ 16 + code) ++ toLe 4 body.length ++ toLe 4 part ++ toLe 4 status ++ body
/-- A response is written: BUSY clears, DONE sets with its count, commands not OK are counted, and vector 0 is sent. -/
def Mod.writeResp (m : Mod) (h : Nat) (r : List Byte) : Mod :=
  let m1 := m.updHost h fun k => { k with resp := Memory.setBytes k.resp 0 r }
  let m2 := (((m1.wrf (bMBX h + 8) 1 1 0).raise (bMBX h + 8) 0).inc (bMBX h + 0x40))
  let m3 := if ofLe ((r.drop 12).take 2) = 0 then m2 else m2.inc (bMBX h + 0x48)
  m3.toHost h (.msix 0)
/-- A command that was executed is answered: its response is stored and EXPSEQ counts it. -/
def Mod.answerCmd (m : Mod) (c : Cmd) (status : Nat) (pay : List Byte) : Mod :=
  let r := respBytes c.seq c.code c.ver c.part status pay
  let m1 := m.wrf (bMBX c.port + 8) 47 32 (m.rdf (bMBX c.port + 8) 47 32 + 1)
  (m1.updHost c.port fun k => { k with stored := some r }).writeResp c.port r
/-- The items of a CFG_STAGE: none where they are not a whole number (MBX_LEN). -/
def cutItems : Nat → List Byte → Option (List (List Byte))
  | 0, _ => none
  | _, [] => some []
  | k + 1, bs =>
    let n := if (bs.headD 0).toNat = 2 then 48 else 16
    if bs.length < n then none else (cutItems k (bs.drop n)).map fun l => bs.take n :: l
/-- The header and payload that a request's bytes spell, or the status of the first check that fails (R636). In recovery the boot ROM knows three
commands (R555). -/
def Mod.readCmd (m : Mod) (h seq : Nat) (d : List Byte) : Cmd × Option Nat :=
  let w (off : Nat) : Nat := ofLe ((d.drop off).take 4)
  let ver := m.rdf (bMBX h + 8) 17 16
  let code := w 0 % 256
  let len := w 4 % 2 ^ 13
  let c : Cmd := { port := h, seq := seq, ver := ver, code := code, part := w 8 % 16 }
  let recov := m.fit.phase == .recovery
  match (if recov && !([1, 2, 0x51].contains code) then none else cmdRow code) with
  | none => (c, some 0x0001)
  | some r =>
    if ver < r.least ∨ r.most < ver then (c, some 0x0002)
    else if 4080 < len ∨ (ver = 1 ∧ len ≠ 48) ∨ (ver ≠ 1 ∧ !r.open' ∧ len ≠ r.len) ∨ (r.open' ∧ len < r.len) ∨
        (code = 0x20 ∧ (cutItems 257 ((d.drop 16).take len)).isNone) then (c, some 0x0003)
    else
      let pay := (d.drop 16).take len
      let rest := pay.drop r.len
      let form := bitsN (w 0) 15 8 = 0 ∧ bitsN (w 4) 31 13 = 0 ∧ bitsN (w 8) 31 4 = 0 ∧ w 12 = 0 ∧ (ver ≠ 1 ∨ rest.all (· == 0))
      ({ c with pay := if ver = 1 then pay.take r.len else pay }, if form then none else some 0x0006)
/-- The host `h` is the steward; in recovery either port may push (R555). -/
def Mod.mayIssue (m : Mod) (c : Cmd) : Bool :=
  match cmdRow c.code with
  | some r => !r.steward || m.fit.steward == c.port || m.fit.phase == .recovery
  | none => false
/-- A reserved field or value of a command's payload (R534, R538). -/
def allZero (c : Cmd) (off n : Nat) : Bool := ((c.pay.drop off).take n).all (· == 0)

/-! ## Reports (R563 to R566) -/

/-- The addresses of a row's registers. -/
def RegRow.addrs (r : RegRow) : List Nat := (upto r.n1).flatMap fun i => (upto r.n2).map fun j => r.base + r.s1 * i + r.s2 * j
/-- Every register that has an STG field, in ascending offset. -/
def stagedAddrs : List Nat :=
  (([mbxRows, pwrRows, calRows, memRows, splRows, lnkRows, prtRows, patRows, xltRows, semRows, grpRows].flatten.filter fun r =>
    r.fields.any fun f => f.acc = .stg).flatMap RegRow.addrs).mergeSort
/-- The staged fields of a register in force. -/
def Mod.inForce (m : Mod) (a : Nat) : W64 :=
  match barRow a with
  | some r => r.apply 0 (m.rd a)
  | none => 0
/-- CFGNOW (R563). -/
def Mod.cfgNow (m : Mod) : List Byte := shake256 (stagedAddrs.flatMap fun a => toLe 4 a ++ toLe 8 (m.inForce a).toNat) 64
/-- A report with its signature (R564). -/
def Mod.report (m : Mod) (nonce : List Byte) : List Byte × Mod :=
  let f := m.fit
  let chain := m.identChain
  let total := 0x190 + 80 * f.log.length + chain.length + 3309
  let head := toLe 4 0x54525846 ++ toLe 2 1 ++ toLe 2 0 ++ toLe 4 total ++ toLe 4 (m.rdf bLNK 17 0) ++ padTo 32 nonce ++
    toLe 8 (m.rd bCFGSTAT).toNat ++ toLe 4 m.nv.svn ++ toLe 4 f.version ++ padTo 64 Config.romDigest ++ padTo 64 f.m1 ++
    f.measUc ++ f.measCfg ++ m.cfgNow ++ toLe 4 f.log.length ++ toLe 4 f.lost ++ toLe 4 chain.length ++ toLe 4 (f.svn % 256 + f.slot * 2 ^ 8)
  let body := head ++ f.log.flatten ++ chain
  let (rnd, m1) := m.drbg 32
  (body ++ padTo 3309 (Config.mldsaSign (aliasSeed f.m1) (ascii "UXC-ATT") rnd (shake256 body 64)), m1)
/-- DOE requests at the head of the queue are served in their turn (R566): a payload of another length than 32 bytes has an empty answer. -/
def Mod.doePump (m : Mod) : Nat → Mod
  | 0 => m
  | k + 1 =>
    match m.fit.queue with
    | .doe h d :: rest =>
      if !m.serves ∨ m.fit.phase ≠ .running then m
      else
        let m0 : Mod := { m with fit := { m.fit with queue := rest } }
        if d.length ≠ 32 then (m0.toHost h (.doe [])).doePump k
        else
          let (r, m1) := m0.report d
          (m1.toHost h (.doe (padTo (cdiv r.length 4 * 4) r))).doePump k
    | _ => m
/-- DOE requests that wait are served. -/
def Mod.doeAll (m : Mod) : Mod := m.doePump (m.fit.queue.length + 1)

/-! ## Serving (R531, R532, R636) -/

/-- The fitter takes the command at the head of its queue, where its code is one of the row's: repeats and doorbells out of order are answered
without executing anything; the checks come in the order of R636; `form` holds the fields' own rules, `f` the command, whose effect leaves
the queue. -/
def Mod.mbxServe (m : Mod) (mine : Nat → Bool) (form : Cmd → Bool) (f : Cmd → Mod → Reply) : Mod :=
  match m.fit.queue with
  | .mbx h seq d :: rest =>
    if !m.serves ∨ !mine ((d.headD 0).toNat) then m
    else
      let m0 : Mod := { m with fit := { m.fit with queue := rest } }
      let exp := m0.rdf (bMBX h + 8) 47 32
      let (c, bad) := m0.readCmd h seq d
      if seq ≠ exp then
        match (if (seq + 1) % 2 ^ 16 = exp then (m0.host h).stored else none) with
        | some r => (m0.writeResp h r).doeAll
        | none => (m0.writeResp h (respBytes seq c.code c.ver c.part 0x0004 [])).doeAll
      else
        match bad with
        | some st => (m0.answerCmd c st []).doeAll
        | none =>
          if !form c then (m0.answerCmd c 0x0006 []).doeAll
          else if !m0.mayIssue c then (m0.answerCmd c 0x0005 []).doeAll
          else
            match f c m0 with
            | .now st pay m1 => (({ m1 with fit := { m1.fit with queue := rest } } : Mod).answerCmd c st pay).doeAll
            | .later m1 => m1
  | _ => m
/-- APPLYGEN as four bytes. -/
def Mod.genBytes (m : Mod) : List Byte := toLe 4 (m.rdf bCFGSTAT 63 32)
/-- No rule of its own on the fields. -/
def anyForm (_ : Cmd) : Bool := true
/-- Partitions that a port owns, as a mask. -/
def Mod.ownedMask (m : Mod) (h : Nat) : Nat := ((upto 16).map fun p => b2n (m.owns h p) * 2 ^ p).sum

/-- HELLO (R533); the row serves reserved codes too (log 11). -/
def Mod.mbxHello (m : Mod) : Mod :=
  m.mbxServe (fun c => c == 1 || (cmdRow c).isNone) (fun c => allZero c 2 6) fun c m =>
    let recov := m.fit.phase == .recovery
    let v := min (c.f 1 1) (if recov then 2 else 3)
    if v < c.f 0 1 ∨ c.f 0 1 = 0 then .now 0x0002 [] m
    else .now 0 (toLe 1 v ++ toLe 1 (if recov then 0xFF else m.fit.steward) ++ toLe 2 (if recov then 0 else m.ownedMask c.port) ++ toLe 4 0)
      (m.wrf (bMBX c.port + 8) 17 16 v)
/-- INFO (R534, R555, R631). -/
def Mod.mbxInfo (m : Mod) : Mod :=
  m.mbxServe (· == 2) anyForm fun _ m =>
    .now 0 (if m.fit.phase = .recovery then List.replicate 16 0 else toLe 4 (m.rdf bLNK 17 0) ++ toLe 4 m.fit.version ++ toLe 8 (m.rd bCFGSTAT).toNat) m
/-- HEALTH (R534, R587). -/
def Mod.mbxHealth (m : Mod) : Mod :=
  m.mbxServe (· == 3) anyForm fun _ m => .now 0 (((upto 4).flatMap fun i => toLe 8 (m.rd (bCAL + 0x40 + 8 * i)).toNat) ++ toLe 8 (m.rdf (bCAL + 0x60) 27 0)) m
/-- TIME_SET. -/
def Mod.mbxTimeSet (m : Mod) : Mod :=
  m.mbxServe (· == 4) anyForm fun c m => .now 0 [] { m with fit := { m.fit with time := some (c.f 0 8) } }
/-- Which reference clock the fitter's timers count: 1 that of H0, 2 that of H1, 0 none (R74). -/
def Mod.clockSrc (m : Mod) : Nat := if (m.host 0).clock then 1 else if (m.host 1).clock then 2 else 0
/-- TIME_GET: the time set plus what has passed since, a free value (log 6). -/
def Mod.mbxTimeGet (m : Mod) : Mod :=
  m.mbxServe (· == 5) anyForm fun _ m =>
    match m.fit.time with
    | none => .now 0 (toLe 8 0 ++ toLe 8 0) m
    | some t =>
      let (w, m1) := m.freeW
      .now 0 (toLe 8 (t + w.toNat) ++ toLe 8 m.clockSrc) m1
/-- CFG_REG: a set of one item, checked and applied at once (R542). -/
def Mod.mbxCfgReg (m : Mod) : Mod :=
  m.mbxServe (· == 6) (fun c => decide (c.f 0 4 < 2 ^ 26) && allZero c 4 4) fun c m =>
    match m.applyNow c.port c.ver [.reg (c.f 0 4) (w64 (c.f 8 8))] c.port false with
    | .inl f => .now f.1 (m.genBytes ++ toLe 4 0) m
    | .inr m1 => .now 0 (m1.genBytes ++ toLe 4 0) m1

/-! ## Partitions (R522, R523, R528) -/

/-- The definition that a PART_DEFINE carries. -/
def Cmd.partDef (c : Cmd) : PartDef :=
  { owner := c.f 1 1, cores := c.f 8 32, spools := (upto 8).map fun i => (c.f (0x28 + 4 * i) 2, c.f (0x2A + 4 * i) 2)
    scratch := (upto 4).map fun i => (c.f (0x48 + i) 1 % 16, c.f (0x48 + i) 1 / 16), digest := (c.pay.drop 0x50).take 32 }
/-- The forms of R522. -/
def Cmd.partForm (c : Cmd) : Bool :=
  decide (c.f 0 1 < 16) && decide (c.f 1 1 < 2) && allZero c 2 6 && allZero c 0x4C 4 &&
  (c.partDef.spools.all fun r => r.2 != 0 || r.1 == 0) &&
  (c.partDef.scratch.all fun r => decide (r.1 ≤ 7) && decide (r.2 ≤ 8) && (r.2 != 0 || r.1 == 0))
/-- Stage an item for a command, or CFG_FULL. -/
def Mod.stageFor (m : Mod) (h : Nat) (x : StageItem) : Nat × Mod :=
  let set := (m.host h).set
  if set.any x.same ∨ set.length < 4096 then (0, m.stage h x) else (0x0202, m)
/-- PART_DEFINE. -/
def Mod.mbxPartDefine (m : Mod) : Mod :=
  m.mbxServe (· == 0x10) Cmd.partForm fun c m =>
    let r := m.stageFor c.port (.define (c.f 0 1) c.partDef)
    .now r.1 [] r.2
/-- PART_DESTROY. -/
def Mod.mbxPartDestroy (m : Mod) : Mod :=
  m.mbxServe (· == 0x11) (fun c => decide (c.f 0 1 < 16) && allZero c 1 7) fun c m =>
    if (m.part (c.f 0 1)).st = .free then .now 0x0101 [] m
    else
      let r := m.stageFor c.port (.destroy (c.f 0 1))
      .now r.1 [] r.2
/-- An item of a set is for partition `p`. -/
def Mod.itemOf (m : Mod) (set : List StageItem) (p : Nat) : StageItem → Bool
  | .reg a _ => match scopeOf a with
    | .part q => q == p
    | .entry n => m.sxPart n == p || sxPartIn set n == some p
    | .group g => m.grpPart g == p || ((stagedVal set (bG g)).map fun v => fld v 59 56) == some p
    | .core c => m.partOf c == some p
    | _ => false
  | .define q _ => q == p
  | .destroy q => q == p
  | .ucode _ mask _ => (maskCores mask).any fun c => m.partOf c == some p
/-- Ownership of a partition moves (R528). -/
def Mod.adopt (m : Mod) (h p : Nat) (digest : List Byte) : Mod :=
  let former := (m.part p).owner
  let m1 := m.updPart p fun q => { q with owner := h, digest := digest }
  let m2 := (upto 16).foldl (fun (m : Mod) i => m.wr (bPRT p + 0x100 + 8 * i) 0) m1
  let m3 := (upto 2).foldl (fun (m : Mod) q => (upto 8).foldl (fun (m : Mod) v =>
    if m.rdf (bMBX q + 0x18) (5 * v + 4) (5 * v) = 16 + p then m.wrf (bMBX q + 0x18) (5 * v + 4) (5 * v) 0 else m) m) m2
  let set := (m3.host former).set
  (m3.updHost former fun k => { k with set := set.filter fun x => !m3.itemOf set p x }).prtVector p
/-- PART_ADOPT (R528): its checks, then an apply point of its own. -/
def Mod.mbxPartAdopt (m : Mod) : Mod :=
  m.mbxServe (· == 0x12) (fun c => (decide (c.f 0 1 < 16) || c.f 0 1 == 0xFF) && allZero c 1 7) fun c m =>
    let p := c.f 0 1
    let secret := (c.pay.drop 8).take 32
    let new := (c.pay.drop 0x28).take 32
    let digest := if p = 0xFF then padTo 32 m.fit.stewardKey else padTo 32 (m.part p).digest
    let fail (st : Nat) : Reply := .now st (if st < 0x100 then [] else m.genBytes ++ toLe 4 0) m
    if (if p = 0xFF then m.fit.steward == c.port else m.owns c.port p) then fail 0x0005
    else if p ≠ 0xFF ∧ (m.part p).st = .free then fail 0x0101
    else if digest.all (· == 0) ∨ shake256 secret 32 ≠ digest then fail 0x0105
    else
      let m1 := m.applySet [] c.port false
      let m2 : Mod := if p = 0xFF then { m1 with fit := { m1.fit with steward := c.port, stewardKey := new } } else m1.adopt c.port p new
      .now 0 (m2.genBytes ++ toLe 4 0) m2
/-- STEWARD_KEY. -/
def Mod.mbxStewardKey (m : Mod) : Mod :=
  m.mbxServe (· == 0x13) anyForm fun c m => .now 0 [] { m with fit := { m.fit with stewardKey := c.pay.take 32 } }

/-! ## Stage sets (R537 to R543) -/

/-- One item: none where it is malformed (MBX_FORM). -/
def readItem (bs : List Byte) : Option StageItem :=
  let w (off n : Nat) : Nat := ofLe ((bs.drop off).take n)
  if w 2 2 ≠ 0 then none
  else if w 0 2 = 0x0101 then (if w 4 4 < 2 ^ 26 then some (.reg (w 4 4) (w64 (w 8 8))) else none)
  else if w 0 2 = 0x0302 then (if w 4 4 < 256 ∧ w 8 8 = 0 then some (.ucode (w 4 4) (w 16 32) none) else none)
  else none
/-- CFG_STAGE (R537, R538). -/
def Mod.mbxCfgStage (m : Mod) : Mod :=
  m.mbxServe (· == 0x20) (fun c => ((cutItems 257 c.pay).getD []).all fun b => (readItem b).isSome) fun c m =>
    let set := (m.host c.port).set
    let new := (((cutItems 257 c.pay).getD []).filterMap readItem).foldl putItem set
    if 4096 < new.length then .now 0x0202 (toLe 8 set.length) m
    else .now 0 (toLe 8 new.length) (m.updHost c.port fun k => { k with set := new })
/-- The failing item as CFG_CHECK gives it. -/
def failBytes (f : Fail) : List Byte := toLe 8 (f.2.1 % 2 ^ 16) ++ toLe 8 f.2.2
/-- The check of a host's own set: an overfull one fails as such (R537). -/
def Mod.checkHost (m : Mod) (c : Cmd) : Option Fail :=
  if (m.host c.port).overfull then some (0x0202, 0xFFFF, 0) else m.checkSet c.port c.ver (m.host c.port).set
/-- CFG_CHECK. -/
def Mod.mbxCfgCheck (m : Mod) : Mod :=
  m.mbxServe (· == 0x21) anyForm fun c m =>
    match m.checkHost c with
    | some f => .now f.1 (failBytes f) m
    | none => .now 0 (List.replicate 16 0) m
/-- The payload of a CFG_APPLY's response. -/
def Mod.applyBytes (m : Mod) (f : Option Fail) : List Byte :=
  match f with
  | some f => m.genBytes ++ toLe 4 (f.2.1 % 2 ^ 16) ++ toLe 8 f.2.2
  | none => m.genBytes ++ List.replicate 12 0
/-- CFG_APPLY: the set is checked, its drains run, and every unit is held until APPLY_SWITCH (R540). -/
def Mod.mbxCfgApply (m : Mod) : Mod :=
  m.mbxServe (· == 0x22) (fun c => decide (c.f 0 4 < 2) && allZero c 4 4) fun c m =>
    match m.checkHost c with
    | some f => .now f.1 (m.applyBytes (some f)) m
    | none =>
      let set := (m.host c.port).set
      let m1 := (m.drains set).updHost c.port fun k => { k with set := [], overfull := false }
      .later { m1 with fit := { m1.fit with job := some { port := c.port, seq := c.seq, ver := c.ver, part := c.part, set := set, save := c.f 0 1 == 1 } } }
/-- What flash keeps of applied settings (R543): each item in the place of the one it replaces; a destroyed partition is not kept. Microcode is kept
with its image. -/
def Mod.mergeSaved (m : Mod) (old set : List StageItem) : List StageItem :=
  set.foldl (fun l x => match x with
    | .destroy p => l.filter fun y => !(StageItem.same (.destroy p) y)
    | .ucode c mask img => l ++ [.ucode c mask (some (m.ucImage c img))]
    | x => putItem l x) old
/-- The switch of the job in progress: the set is checked a second time; it goes into force, or is kept and the failure answered (R540). -/
def Mod.switchJob (m : Mod) (flashFails : Bool) : Mod :=
  match m.fit.job with
  | none => m
  | some j =>
    if (m.core 256).halted then m
    else
      let c : Cmd := { port := j.port, seq := j.seq, ver := j.ver, code := 0x22, part := j.part }
      let m0 : Mod := { m with fit := { m.fit with job := none } }
      let done (st : Nat) (pay : List Byte) (r : Mod) : Mod :=
        let r : Mod := { r with fit := { r.fit with queue := m.fit.queue } }
        (if j.mute then (r.wrf (bMBX j.port + 8) 1 1 0) else r.answerCmd c st pay).doeAll
      match m0.checkSet j.port j.ver j.set with
      | some f =>
        let m1 := m0.drainEnds
        let m2 := if j.mute then m1 else m1.updHost j.port fun k => { k with set := k.set.foldl putItem j.set }
        done f.1 (m2.applyBytes (some f)) m2
      | none =>
        let m1 := (m0.applySet j.set j.port true).drainEnds
        done (if j.save && flashFails then 0x0204 else 0) (m1.applyBytes none) m1
/-- The saved sets after the switch: SAVE keeps what went into force, unless the flash write fails (R543). -/
def Mod.savedBy (m : Mod) (flashFails : Bool) : Tab (List StageItem) :=
  match m.fit.job with
  | some j =>
    let m0 : Mod := { m with fit := { m.fit with job := none } }
    if j.save && !flashFails && !(m.core 256).halted && (m0.checkSet j.port j.ver j.set).isNone then
      Tab.put m.nv.saved j.port (m.mergeSaved (Tab.get [] m.nv.saved j.port) j.set)
    else m.nv.saved
  | none => m.nv.saved
/-- APPLY_SWITCH (R540). `flashFails` says that the flash write of SAVE fails (CFG_SAVE). Of what no reset changes only the saved sets are written, and
power is not touched. -/
def Mod.applySwitch (m : Mod) (flashFails : Bool) : Mod :=
  { m.switchJob flashFails with nv := { m.nv with saved := m.savedBy flashFails }, pwr := m.pwr }
/-- CFG_DISCARD. -/
def Mod.mbxCfgDiscard (m : Mod) : Mod :=
  m.mbxServe (· == 0x23) anyForm fun c m => .now 0 [] (m.updHost c.port fun k => { k with set := [], overfull := false })

/-! ## Gloves, snapshots, reports, images (R534, R565, R623) -/

/-- GLOVE_GRANT: a tagged glove in the partition's cap table. -/
def Mod.mbxGloveGrant (m : Mod) : Mod :=
  m.mbxServe (· == 0x30) (fun c => decide (c.f 1 1 < 8) && allZero c 2 2 && decide (c.f 4 4 < 2 ^ 30) && decide (c.f 8 8 < 2 ^ 48)) fun c m =>
    let p := c.part
    let base := m.rdf (bPAT p + 0x18) 45 12 * 2 ^ 12
    let len := c.f 0x10 8
    if !m.owns c.port p then .now 0x0005 [] m
    else if c.f 0 1 < 3 ∨ len = 0 ∨ 2 ^ 34 ≤ len ∨ !(m.part p).holds base 4096 then .now 0x0106 [] m
    else
      let r := c.f 1 1
      let perms := (if r.testBit 0 then pRD else 0) + (if r.testBit 1 then pWR else 0) + (if r.testBit 2 then pLC else 0)
      let bits := 2 * 2 ^ 124 + perms * 2 ^ 112 + bitsN (c.f 4 4) 17 0 * 2 ^ 94 + bitsN (c.f 4 4) 29 18 * 2 ^ 82 + len * 2 ^ 48 + c.f 8 8
      let x : Cap := { bits := BitVec.ofNat 128 bits }
      .now 0 [] (m.wrCap (base + 16 * c.f 0 1) { x with tag := x.taggable })
/-- Where a counter of the MON_ block is captured: its SNP register, if the address is a counter's. -/
def snapOf (a : Nat) : Option Nat :=
  let o := a - bMON
  if a < bMON then none
  else if o < 0x10000 then (if 0x40 ≤ o % 0x100 ∧ o % 0x100 < 0x80 then some (a + 0x40) else none)
  else if o < 0x20000 then (if 0x80 ≤ o % 0x400 ∧ o % 0x400 < 0x100 then some (a + 0x80) else none)
  else if o < 0x30000 then (if 0x20 ≤ o % 0x100 ∧ o % 0x100 < 0x40 then some (a + 0x20) else none)
  else none
/-- SNAPSHOT: every counter into its SNP register at one instant (R623). -/
def Mod.snapshot (m : Mod) : Mod :=
  let m1 := m.bar0.foldl (fun (m : Mod) e => match snapOf e.1 with | some s => m.wr s e.2 | none => m) m
  m1.wrf (bMON + 0x30000) 31 0 (m1.rdf (bMON + 0x30000) 31 0 + 1)
/-- The mailbox command SNAPSHOT. -/
def Mod.mbxSnapshot (m : Mod) : Mod :=
  m.mbxServe (· == 0x40) anyForm fun _ m => .now 0 (toLe 8 (m.snapshot.rdf (bMON + 0x30000) 31 0)) m.snapshot
/-- ATTEST (R565). -/
def Mod.mbxAttest (m : Mod) : Mod :=
  m.mbxServe (· == 0x50) (fun c => allZero c 0x24 4) fun c m =>
    let off := c.f 0x20 4
    let part (r : List Byte) : List Byte := toLe 4 r.length ++ (r.drop off).take 4076
    if off = 0 then
      let (r, m1) := m.report (c.pay.take 32)
      .now 0 (part r) (m1.updHost c.port fun k => { k with report := some r })
    else
      match (m.host c.port).report with
      | some r => if off < r.length then .now 0 (part r) m else .now 0x0304 (toLe 4 0) m
      | none => .now 0x0304 (toLe 4 0) m
/-- MOD_RESET: answered first; the module reset is then due (R535). -/
def Mod.mbxModReset (m : Mod) : Mod :=
  m.mbxServe (· == 0x52) anyForm fun _ m => .now 0 [] { m with fit := { m.fit with resetDue := true } }

/-! ## DOE (R566) -/

/-- DOE_REQUEST: it joins the single order of the fitter's commands. -/
def Mod.doeRequest (m : Mod) (h : HostId) (d : List Byte) : Mod :=
  if !(m.host h.val).linked ∨ m.fit.phase ≠ .running then m
  else ({ m with fit := { m.fit with queue := m.fit.queue ++ [.doe h.val d] } } : Mod).doeAll
/-- DOE_ABORT: the response in progress is discarded. -/
def Mod.doeAbort (m : Mod) (h : HostId) : Mod :=
  { m with fit := { m.fit with queue := m.fit.queue.filter fun q => match q with | .doe p _ => p != h.val | .mbx .. => true } }

end Sys2Proof.Machine
end

