-- ==== Sys2Proof/Machine/Boot.lean ====
section
/-! DEFINITION. Boot (R552 to R559), recovery (R555), pushed images (R556), and the start-up that follows (R612, R615). -/

namespace Sys2Proof.Machine

/-- The sequencer's state, as SB_SEQ and PWR_STAT show it (R611, R616). -/
def Mod.setSeq (m : Mod) (s : Nat) : Mod := ({ m with pwr := { m.pwr with seq := s } } : Mod).wrf bPWR 3 0 s
/-- The fitter serves both mailboxes from now on (R613): BUSY of both reads 0. -/
def Mod.openMailboxes (m : Mod) : Mod := (m.wrf (bMBX 0 + 8) 1 1 0).wrf (bMBX 1 + 8) 1 1 0
/-- The fitter's firmware and its core run: timers, heartbeat, steps of power. -/
def Mod.firmwareRuns (m : Mod) : Bool := m.fit.phase == .running && !(m.core 256).halted
/-- The fitter's core as the boot ROM leaves it: PC at ENTRY; what its other registers hold the spec does not state (log 47). -/
def Core.bootAt (k : Core) (entry : Nat) : Core :=
  let caps : Tab Cap := (upto 8).map fun i => (i, { bits := (Config.bootCap i).truncate 128, tag := (Config.bootCap i).getLsbD 128 })
  let b : Bank := { k.bank with pc := w64 entry, sp := Config.bootSp 0, rsp := Config.bootSp 1, caps := caps }
  { k with bank := b, fetchCap := b.cap 0 }
/-- Steps 5 to 8 of R552 for an image whose body goes to SRAM: `unblown` SVN bits fail to blow (R553). The firmware then runs; the steward is H0's host if its link is up (R527). -/
def Mod.bootImage (m : Mod) (x : Image0) (slot unblown : Nat) : Mod :=
  let c := m.nv.svn
  let m1 : Mod := { m with
    sram := Memory.setBytes [] 0 x.body
    nv := { m.nv with svn := max c (x.svn - unblown) }
    fit := { m.fit with
      phase := .running, step := .booted, slot := slot, svn := x.svn, version := x.version, m1 := x.m1, pushed := 0
      steward := if (m.host 0).linked then 0 else 1 } }
  (m1.updCore 256 fun k => k.bootAt (x.f 0x14 4)).setSeq 3
/-- The slot that step 3 of R552 chooses among those acceptable: the higher SVN, then the higher VERSION, then slot A. -/
def chooseSlot (a b : Image0) (okA okB : Bool) : Option Nat :=
  match okA, okB with
  | false, false => none
  | true, false => some 0
  | false, true => some 1
  | true, true => if b.svn < a.svn ∨ (b.svn = a.svn ∧ b.version ≤ a.version) then some 0 else some 1
/-- BOOT_ROM_START: the fitter is released at the sequencer's BOOT. `copyA` and `copyB` say that the copy of the slot in SRAM has the digest that was
verified; a copy that has not makes its slot unacceptable. With no slot left the boot ROM enters recovery and serves the
mailboxes (R555, R613). -/
def Mod.bootRomStart (m : Mod) (copyA copyB : Bool) (unblown : BitVec 7) : Mod :=
  if m.fit.phase ≠ .rom ∨ m.pwr.seq ≠ 2 then m
  else
    let a := m.nv.image 0
    let b := m.nv.image 1
    match chooseSlot a b (m.nv.accepts a && copyA) (m.nv.accepts b && copyB) with
    | some s => (m.bootImage (if s = 0 then a else b) s unblown.toNat).openMailboxes
    | none => ({ m with fit := { m.fit with phase := .recovery } } : Mod).openMailboxes

/-! ## Pushed images (R555, R556) -/

/-- The slot that did not boot; slot A holds the image that ran from SRAM (DEDUCED, log 48). -/
def Mod.otherSlot (m : Mod) : Nat := if m.fit.slot = 1 then 0 else 1
/-- FW_PUSH under running firmware: the bytes go to flash as they come, unless the write fails. -/
def Mod.pushFlash (m : Mod) (flashFails : Bool) (off : Nat) (last : Bool) (data : List Byte) : Reply :=
  let base := slotBase m.otherSlot
  let m0 : Mod := if off = 0 then
      { m with nv := { m.nv with flash := Tab.clear m.nv.flash base (base + 0x1000) }, fit := { m.fit with pushed := 0 } }
    else m
  let got (m : Mod) : List Byte := toLe 8 m.fit.pushed
  if off ≠ m0.fit.pushed then .now 0x0301 (got m0) m0
  else if 0x400000 < off + data.length then .now 0x0302 (got m0) m0
  else
    let m1 : Mod := { m0 with nv := if flashFails then m0.nv else m0.nv.put (base + off) data, fit := { m0.fit with pushed := off + data.length } }
    .now (if last && !m1.nv.accepts (m1.nv.image m1.otherSlot) then 0x0303 else 0) (got m1) m1
/-- FW_PUSH in recovery: the bytes go to SRAM; at LAST an image that passes is written to slot A, unless the write fails, and the boot goes on with
it. -/
def Mod.pushSram (m : Mod) (flashFails : Bool) (unblown off : Nat) (last : Bool) (data : List Byte) : Reply :=
  let m0 : Mod := if off = 0 then { m with sram := [], fit := { m.fit with pushed := 0 } } else m
  let got (m : Mod) : List Byte := toLe 8 m.fit.pushed
  if off ≠ m0.fit.pushed then .now 0x0301 (got m0) m0
  else if 0x400000 < off + data.length then .now 0x0302 (got m0) m0
  else
    let n := off + data.length
    let m1 : Mod := { m0 with sram := Memory.setBytes m0.sram off data, fit := { m0.fit with pushed := n } }
    if !last then .now 0 (got m1) m1
    else
      let x := imageOf (fun a k => Memory.bytes m1.sram a k) n
      if !m1.nv.accepts x then .now 0x0303 (got m1) m1
      else
        let nv1 := if flashFails then m1.nv else m1.nv.put (slotBase 0) (Memory.bytes m1.sram 0 n)
        .now 0 (got m1) (({ m1 with nv := nv1 } : Mod).bootImage x 2 unblown)
/-- FW_PUSH. -/
def Mod.mbxFwPush (m : Mod) (flashFails : Bool) (unblown : BitVec 7) : Mod :=
  m.mbxServe (· == 0x51) (fun c => decide (c.f 4 4 < 2)) fun c m =>
    let data := c.pay.drop 8
    let last := c.f 4 4 == 1
    if m.fit.phase = .recovery then m.pushSram flashFails unblown.toNat (c.f 0 4) last data else m.pushFlash flashFails (c.f 0 4) last data

/-! ## Start-up after boot (R612, R615, R568, R543) -/

/-- Every spool group reads 0 °C or above. -/
def Mod.spoolsWarm (m : Mod) : Bool := (upto 24).all fun s => !bit (m.rd (bPWR + 0x200 + 8 * (4 + s))) 15
/-- SPOOL_TRAINING: training starts, or waits for warmth. -/
def Mod.spoolTraining (m : Mod) : Mod :=
  if !m.firmwareRuns ∨ m.fit.step ≠ .booted then m
  else if m.spoolsWarm then { m with fit := { m.fit with step := .training } }
  else ((({ m with fit := { m.fit with step := .cold } } : Mod).setSeq 6).pwrEvent 4).sbEvent 4
/-- COLD_WAIT_END. -/
def Mod.coldWaitEnd (m : Mod) : Mod :=
  if !m.firmwareRuns ∨ m.fit.step ≠ .cold ∨ !m.spoolsWarm then m else ({ m with fit := { m.fit with step := .training } } : Mod).setSeq 3
/-- SPOOL_TRAINING_DONE: the spools that failed are fenced (R586). -/
def Mod.spoolTrainingDone (m : Mod) (failed : BitVec 24) : Mod :=
  if !m.firmwareRuns ∨ m.fit.step ≠ .training then m
  else (upto 24).foldl (fun (m : Mod) s => if bit failed s then m.fenceSpool s else m) { m with fit := { m.fit with step := .zeroing } }
/-- SPOOL_ZEROING_DONE (R568). -/
def Mod.spoolZeroingDone (m : Mod) : Mod :=
  if !m.firmwareRuns ∨ m.fit.step ≠ .zeroing then m else ({ m with fit := { m.fit with step := .zeroed } } : Mod).zeroSpools
/-- BOOT_APPLY (R543, R544): the saved sets of H0 and H1 in one apply; `bad0` and `bad1` say that the set's digest fails. The boot apply does not leave a
HELD state that stands (DEDUCED, log 49). -/
def Mod.bootApply (m : Mod) (bad0 bad1 : Bool) : Mod :=
  if !m.firmwareRuns ∨ m.fit.step ≠ .zeroed ∨ m.fit.job.isSome then m
  else
    let m0 : Mod := { m with fit := { m.fit with step := .applied } }
    let set (h : Nat) : List StageItem := Tab.get [] m.nv.saved h
    let has (h : Nat) : Bool := (Tab.get? m.nv.saved h).isSome
    if (bad0 && has 0) || (bad1 && has 1) then m0.enterHeld 0 1
    else
      match m0.applyNow fitterIssuer 3 ((set 1).foldl putItem (set 0)) 2 false with
      | .inl f => m0.enterHeld f.1 2
      | .inr m1 => m1

end Sys2Proof.Machine
end

