-- ==== Sys2Proof/Machine/Power.lean ====
section
/-! DEFINITION. Power, sequencer, resets and sideband (R595 to R616), and the stitch monitor (R77). -/

namespace Sys2Proof.Machine

/-! ## The stitch monitor (R77) -/

/-- The monitors count a clock that first runs, returns or stops: SRC shows it, and without one VALID clears. They run once the fitter's reset is
released. -/
def Mod.monSource (m : Mod) : Mod :=
  if m.fit.phase = .off then m
  else (upto 4).foldl (fun (m : Mod) n =>
    let a := bPWR + 0x40 + 8 * n
    let m1 := m.wrf a 30 29 m.clockSrc
    if m.clockSrc = 0 then m1.wrf a 31 31 0 else m1) m
/-- STITCH_MONITOR_WINDOW: a window of panel `p` completes with a count. -/
def Mod.stitchWindow (m : Mod) (p : PanelId) (count : BitVec 20) : Mod :=
  let a := bPWR + 0x40 + 8 * p.val
  if m.fit.phase = .off ∨ m.clockSrc = 0 then m
  else (((m.wrf a 63 32 (m.rdf a 63 32 + 1)).wrf a 31 31 1).wrf a 30 29 m.clockSrc).wrf a 19 0 count.toNat
/-- MONITOR_CLOCK_LOSS: the reference clock of a port stops; where it was the counted one, VALID clears, and another clock that runs is counted
(DEDUCED, log 50). -/
def Mod.clockLoss (m : Mod) (h : HostId) : Mod :=
  if !(m.host h.val).clock then m
  else
    let was := m.clockSrc
    let m1 := m.updHost h.val fun k => { k with clock := false }
    if m1.clockSrc = was then m1
    else
      let m2 := (upto 4).foldl (fun (m : Mod) n => m.wrf (bPWR + 0x40 + 8 * n) 31 31 0) m1
      m2.monSource
/-- REFERENCE_CLOCK_RETURN: the reference clock of a port first runs or returns. -/
def Mod.clockReturn (m : Mod) (h : HostId) : Mod :=
  if (m.host h.val).clock then m else (m.updHost h.val fun k => { k with clock := true }).monSource

/-! ## Rails -/

/-- The rails that ramp in each step of R612. -/
def rampGroups : List (List Nat) := [[14], [5, 4], [13, 12], [6, 7, 8, 9, 10], [11], [0, 1, 2, 3]]
/-- The voltage that a rail settles at, in 1.25 mV: its target plus its trim (R599). -/
def Mod.railGoal (m : Mod) (r : Nat) : Nat := ((m.railTarget r : Int) + m.effective (.rail r)).toNat
/-- SB_SEQ.RAIL. -/
def Mod.setRail (m : Mod) (r : Nat) : Mod := { m with pwr := { m.pwr with rail := r } }
/-- What is left once every rail but VSTBY has fallen: fuses and flash, the standby logic, and what stands at the ports' other ends. -/
def Mod.railsDown (m : Mod) (seq : Nat) : Mod :=
  ({ nv := m.nv, freeCtr := m.freeCtr, nextId := m.nextId
     hosts := Tab.mapV m.hosts fun _ k => { clock := k.clock, out := k.out }
     pwr := { m.pwr with groups := 0, rail := 0, capLim := [], thmLim := [], capLow := 0, thmLow := [], dead := [] } } : Mod).setSeq seq
/-- The registers of VSTBY, which the sequencer keeps up (R599). -/
def Mod.standbyRail (m : Mod) : Mod := (m.wrf (bPWR + 0x100 + 8 * 15) 47 32 (m.railTarget 15)).wrf (bPWR + 0x100 + 8 * 15) 15 0 (m.railGoal 15)
/-- The fitter's reset is released and the boot ROM is to start (R612). -/
def Mod.release (m : Mod) : Mod :=
  (((({ m with fit := { phase := .rom } } : Mod).setSeq 2).wrf bPWR 31 16 m.pwr.input).standbyRail).setTargets.monSource
/-- The ramp of group `g` starts: RAIL shows its first rail (R611). -/
def Mod.ramp (m : Mod) (g : Nat) : Mod := (m.setSeq 1).setRail ((rampGroups.getD g []).headD 0)
/-- Whether the converter starts: from 34.00 V on (R597); above the absolute maximum of R595, 60.00 V, a free choice (log 65). -/
def Mod.converterRuns (m : Mod) (volts : BitVec 16) : Bool × Mod := if volts.toNat ≤ 6000 then (true, m) else m.freeB
/-- CONVERTER_START: the input rises to 34.00 V (R595, R612). -/
def Mod.converterStart (m : Mod) (volts : BitVec 16) : Mod :=
  if m.pwr.converter ∨ volts.toNat < 3400 then m
  else
    let (on, m1) := m.converterRuns volts
    let m2 : Mod := { m1 with pwr := { m1.pwr with converter := on, input := volts.toNat } }
    if on then m2.wrf bPWR 31 16 volts.toNat else m2
/-- CONVERTER_STOP: the input falls below 28.00 V; every rail falls, VSTBY too (R597). -/
def Mod.converterStop (m : Mod) (volts : BitVec 16) : Mod :=
  if !m.pwr.converter ∨ 2800 ≤ volts.toNat then m
  else { m.railsDown 0 with pwr := { input := volts.toNat, enable := m.pwr.enable, ibi := m.pwr.ibi, out := m.pwr.out } }
/-- STANDBY_GOOD: VSTBY is good; with the enable input already high the ramp starts at once (R612). -/
def Mod.standbyGood (m : Mod) : Mod :=
  if !m.pwr.converter ∨ m.pwr.standby then m
  else
    let m1 := ({ m with pwr := { m.pwr with standby := true } } : Mod).setSeq 0
    if m1.pwr.enable then m1.ramp 0 else m1
/-- ENABLE_HIGH: out of STANDBY, or after an enable cycle out of FAULT, or out of TRIP where every group reads below 105 °C
(R602, R607). -/
def Mod.enableHigh (m : Mod) (cool : Bool) : Mod :=
  if m.pwr.enable then m
  else
    let m1 : Mod := { m with pwr := { m.pwr with enable := true } }
    let p := m.pwr
    if p.standby && (p.seq == 0 || (p.cycled && (p.seq == 4 || (p.seq == 5 && cool)))) then m1.ramp 0 else m1
/-- ENABLE_LOW: every rail but VSTBY falls (R614); in FAULT and TRIP they have fallen already. -/
def Mod.enableLow (m : Mod) : Mod :=
  if !m.pwr.enable then m
  else
    let m1 : Mod := { m with pwr := { m.pwr with enable := false, cycled := true } }
    if m.pwr.seq = 4 ∨ m.pwr.seq = 5 ∨ !m.pwr.standby then m1 else m1.railsDown 0
/-- RAIL_GROUP_GOOD: the group that ramps is good; the next one ramps, or the fitter is released (R612). -/
def Mod.railGroupGood (m : Mod) : Mod :=
  if m.pwr.seq ≠ 1 then m
  else
    let g := m.pwr.groups
    let m1 := (rampGroups.getD g []).foldl (fun (m : Mod) r =>
      (m.wrf (bPWR + 0x100 + 8 * r) 47 32 (m.railTarget r)).setVolt r (m.railGoal r)) m
    let m2 : Mod := { m1 with pwr := { m1.pwr with groups := g + 1 } }
    if g + 1 < 6 then m2.ramp (g + 1) else (m2.setRail 0).release
/-- The sequencer removes the rails and enters FAULT with the rail recorded (R602). -/
def Mod.enterFault (m : Mod) (r : Nat) : Mod :=
  let m1 := (m.railsDown 4).setRail r
  ({ m1 with pwr := { m1.pwr with cycled := false } } : Mod).sbEvent 0
/-- RAIL_GOOD_TIMEOUT: a rail of the group that ramps is not good within 2 ms. -/
def Mod.railGoodTimeout (m : Mod) (r : Fin 16) : Mod :=
  if m.pwr.seq ≠ 1 ∨ !(rampGroups.getD m.pwr.groups []).contains r.val then m else m.enterFault r.val
/-- RAIL_FAULT: after start-up a rail draws too much for too long or rises too high (R602). -/
def Mod.railFault (m : Mod) (r : Fin 16) : Mod :=
  if m.pwr.seq = 2 ∨ m.pwr.seq = 3 ∨ m.pwr.seq = 6 then m.enterFault r.val else m
/-- THERMAL_TRIP: a group reads 115 °C or above (R607). The sensors need VAUX. -/
def Mod.thermalTrip (m : Mod) (t : Fin 29) (raw : BitVec 16) : Mod :=
  if m.pwr.groups = 0 ∨ m.reading t.val raw < 460 then m
  else
    let m1 := m.railsDown 5
    ({ m1 with pwr := { m1.pwr with cycled := false } } : Mod).sbEvent 1
/-- INPUT_CURRENT_LIMIT: the converter limits the input, and the core rails fall to the given voltages (R596). -/
def Mod.inputLimit (m : Mod) (volts amps v0 v1 v2 v3 : BitVec 16) : Mod :=
  if m.pwr.groups < 6 then m
  else
    let m1 : Mod := { m with pwr := { m.pwr with input := volts.toNat } }
    let m2 := (m1.wrf bPWR 31 16 volts.toNat).wrf bPWR 47 32 amps.toNat
    let m3 := (((m2.setVolt 0 v0.toNat).setVolt 1 v1.toNat).setVolt 2 v2.toNat).setVolt 3 v3.toNat
    (m3.pwrEvent 3).sbEvent 3
/-- The fitter's firmware times its steps: it runs, on a clock of R74. -/
def Mod.timed (m : Mod) : Bool := m.firmwareRuns && m.clockSrc != 0
/-- RAIL_MOVE_STEP: a core rail moves one code toward where its target puts it (R600). -/
def Mod.railMove (m : Mod) (p : PanelId) : Mod :=
  let v := m.railVolt p.val
  let g := m.railGoal p.val
  if !m.timed then m else if v < g then m.setVolt p.val (v + 1) else if g < v then m.setVolt p.val (v - 1) else m
/-- POWER_CAP_CHECK: the 1 ms comparison with the input power and current (R601). -/
def Mod.capCheck (m : Mod) (watts amps : BitVec 16) : Mod :=
  if !m.timed then m
  else
    let m1 := (m.wrf bPWR 63 48 watts.toNat).wrf bPWR 47 32 amps.toNat
    let cap := m1.rdf (bPWR + 0x28) 15 0
    let lim (p : Nat) : Nat := Tab.get 200 m1.pwr.capLim p
    let set (f : Nat → Nat) : Tab Nat := (upto 4).map fun p => (p, f p)
    if cap = 0 then ({ m1 with pwr := { m1.pwr with capLim := [], capLow := 0 } } : Mod).setTargets
    else if cap < watts.toNat then
      let m2 : Mod := { m1 with pwr := { m1.pwr with capLow := 0 } }
      if (upto 4).all fun p => m2.railCode p == 0 then m2.pwrEvent 1
      else ({ m2 with pwr := { m2.pwr with capLim := set fun p => lim p - 10 } } : Mod).setTargets
    else if watts.toNat * 100 < 95 * cap then
      if m1.pwr.capLow + 1 < 10 then { m1 with pwr := { m1.pwr with capLow := m1.pwr.capLow + 1 } }
      else ({ m1 with pwr := { m1.pwr with capLow := 0, capLim := set fun p => min 200 (lim p + 10) } } : Mod).setTargets
    else { m1 with pwr := { m1.pwr with capLow := 0 } }
/-- THERMAL_STEP: the 1 ms reading of a sensor group; for a panel's group the throttle lowers its limit at once, and raises it after 10 such readings
below TLIM − 3 °C (R605). -/
def Mod.thermalStep (m : Mod) (t : Fin 29) (raw : BitVec 16) : Mod :=
  if !m.timed ∨ (4 ≤ t.val ∧ t.val < 28) then m
  else
    let p := t.val
    let m1 := m.sense p raw
    let v := m.reading p raw
    let tlim : Int := (4 * m1.rdf (bPWR + 0x30) 7 0 : Nat)
    let lim := Tab.get 200 m1.pwr.thmLim p
    let n := Tab.get 0 m1.pwr.thmLow p
    let low (m : Mod) (k : Nat) : Mod := { m with pwr := { m.pwr with thmLow := Tab.put m.pwr.thmLow p k } }
    let limit (m : Mod) (k : Nat) : Mod := ({ m with pwr := { m.pwr with thmLim := Tab.put m.pwr.thmLim p k } } : Mod).setTargets
    if 28 ≤ p then m1
    else if tlim ≤ v then ((limit (low m1 0) (lim - 10)).pwrEvent 0)
    else if v < tlim - 12 then (if n + 1 < 10 then low m1 (n + 1) else limit (low m1 0) (min 200 (lim + 10)))
    else low m1 0
/-- CORE_RAIL_COLLAPSE: a panel's core rail falls below about 0.55 V; the clockless logic of its cores, caches, shuttles and pattern engine stops,
and every transfer there that has not completed stays where it is (R79, R634). -/
def Mod.railCollapse (m : Mod) (p : PanelId) (v : BitVec 16) : Mod :=
  if m.pwr.groups < 6 then m
  else
    let m1 := (upto 64).foldl (fun (m : Mod) i => m.updCore (64 * p.val + i) fun k => { k with stopped := true }) (m.setVolt p.val v.toNat)
    { m1 with pwr := { m1.pwr with dead := p.val :: m1.pwr.dead.filter (· != p.val) } }

/-! ## Module reset (R535, R614) -/

/-- The module reset: rails, sideband, flash and the ports' links stay, all else returns to reset, and the start-up goes on at E + 6 ms. An apply between
its hold and its release leaves the module HELD (R544). -/
def Mod.moduleReset (m : Mod) : Mod :=
  if m.pwr.groups < 6 then m
  else
    let m1 : Mod := {
      nv := m.nv, freeCtr := m.freeCtr, nextId := m.nextId
      hosts := Tab.mapV m.hosts fun _ k => { linked := k.linked, gen := k.gen, width := k.width, clock := k.clock, cto := k.cto, out := k.out }
      pwr := { m.pwr with rail := 0, capLim := [], thmLim := [], capLow := 0, thmLow := [], dead := [] } }
    let m2 := (upto 16).foldl (fun (x : Mod) r =>
      if r = 15 then x else (x.wrf (bPWR + 0x100 + 8 * r) 47 32 (x.railTarget r)).wrf (bPWR + 0x100 + 8 * r) 15 0 (m.railVolt r)) m1
    (if m.fit.job.isSome then m2.enterHeld 0 3 else m2).release
/-- MODULE_RESET: the fitter starts the reset that MOD_RESET announced. -/
def Mod.dueReset (m : Mod) : Mod := if m.fit.resetDue then m.moduleReset else m
/-- A halt of the fitter between a hold and its release leaves the module HELD (R544). -/
def Mod.fitterHalts (m : Mod) : Mod :=
  if (m.core 256).halted ∧ m.fit.job.isSome then ({ m with fit := { m.fit with job := none } } : Mod).enterHeld 0 3 else m

/-! ## The sideband (R610, R611) -/

/-- The hottest sensor group and its reading. -/
def Mod.hottest (m : Mod) : Nat × Nat :=
  let t (g : Nat) : Nat := m.rdf (bPWR + 0x200 + 8 * g) 15 0
  let g := (upto 29).foldl (fun b g => if sNat 16 (t b) < sNat 16 (t g) then g else b) 0
  (g, t g)
/-- A word that the sideband serves: those not marked standby read all ones until the sequencer enters RUN. -/
def Mod.sbRead (m : Mod) (i : Nat) : Nat :=
  let p := m.pwr
  let run (v : Nat) : Nat := if p.seq = 3 ∨ p.seq = 6 then v % 2 ^ 32 else 2 ^ 32 - 1
  if i = 0x00 then 0x3624 * 2 ^ 16 + Config.stepping.toNat * 2 ^ 8 + 0x40
  else if i = 0x01 then p.rail * 2 ^ 24 + b2n p.enable * 2 ^ 8 + p.seq
  else if i = 0x04 then p.input * 2 ^ 16 + m.rdf bPWR 47 32
  else if i = 0x05 then p.lowest.getD m.lowNow * 2 ^ 16 + m.rdf bPWR 63 48
  else if i = 0x06 then m.hottest.1 * 2 ^ 16 + m.hottest.2
  else if i = 0x07 then run (m.sbWord 7)
  else if 0x10 ≤ i ∧ i < 0x20 then run (m.railAmps (i - 0x10) * 2 ^ 16 + m.railVolt (i - 0x10))
  else if 0x20 ≤ i ∧ i < 0x3D then run (m.rdf (bPWR + 0x200 + 8 * (i - 0x20)) 31 0)
  else m.sbWord i
/-- SB_POWER_READ: a private read of `n` words from the word index upward; one that reads SB_POWER resets the lowest value. -/
def Mod.sbPowerRead (m : Mod) (n : BitVec 6) : Mod :=
  let p := m.pwr
  if !p.standby then m
  else
    let words := (upto n.toNat).map fun k => m.sbRead (p.index + k)
    let low := if p.index ≤ 5 ∧ 5 < p.index + n.toNat then none else p.lowest
    { m with freeCtr := m.freeCtr + 1, pwr := { p with out := p.out ++ words, lowest := low } }
/-- A write of one sideband word: the W1C bits of SB_EVT, IEN and MODRST of SB_CTL. -/
def Mod.bandWrite (m : Mod) (i v : Nat) : Mod :=
  if i = 2 then (m.setSb 2 (m.sbWord 2 &&& (0x1F - bitsN v 4 0))).ibi
  else if i = 3 then
    let m1 := (m.setSb 3 (bitsN v 12 8 * 2 ^ 8)).ibi
    if v % 2 = 1 then m1.moduleReset else m1
  else m
/-- MODRST: a sideband write of SB_CTL.MODRST. -/
def Mod.sbModrst (m : Mod) : Mod := if m.pwr.standby then m.moduleReset else m
/-- Whole words written from an index upward. -/
def Mod.bandWrites (m : Mod) (i : Nat) : List Byte → Mod
  | a :: b :: c :: d :: rest => (m.bandWrite i (ofLe [a, b, c, d])).bandWrites (i + 1) rest
  | _ => m
/-- I3C_PRIVATE_WRITE: the first byte sets the word index, the others write words (R610). -/
def Mod.i3cWrite (m : Mod) (bytes : List Byte) : Mod :=
  match bytes with
  | [] => m
  | b :: rest =>
    if !m.pwr.standby then m
    else ({ m with pwr := { m.pwr with index := b.toNat } } : Mod).bandWrites b.toNat rest
/-- DYNAMIC_ADDRESS_ASSIGN: ENTDAA or SETDASA (R610). -/
def Mod.dynAddr (m : Mod) (a : BitVec 7) : Mod := if m.pwr.standby then { m with pwr := { m.pwr with addr := some a.toNat } } else m
/-- HEARTBEAT (R611). -/
def Mod.heartbeat (m : Mod) : Mod := if m.timed then m.setSb 7 (m.sbWord 7 + 1) else m

end Sys2Proof.Machine
end

