-- ==== Sys2Proof/Machine/Run.lean ====
section
/-! DEFINITION. How a command runs: powered, at the module's edge, from a host, on a panel; and the fences that follow. -/

namespace Sys2Proof.Machine

/-- The outcome of a command. -/
abbrev Out := Host.Outcome State Fault Refusal
/-- Every rail is good (R612): only then do the module's units run. -/
def Mod.powered (m : Mod) : Bool := decide (6 ≤ m.pwr.groups)
/-- The policy on cores' uncorrectable events after a command that may have counted one (R586). -/
def Mod.judge (m : Mod) : Mod :=
  if m.rdf (bCAL + 0x10) 39 32 = 0 then m else (upto 256).foldl (fun (m : Mod) c => m.judgeCore c) m
/-- What a unit of the module and a host cannot reach: fuses and flash, and the sequencer with its sideband (R548, R602, R614). -/
def Mod.within (m : Mod) (f : Mod → Mod) : Mod := { f m with nv := m.nv, pwr := m.pwr }
/-- A command of a unit inside the module: without power it does nothing. -/
def State.run (st : State) (f : Mod → Mod) : Out := .next { st with m := if st.m.powered then st.m.within f else st.m }
/-- A command of a unit that may count uncorrectable events of cores. -/
def State.judged (st : State) (f : Mod → Mod) : Out := st.run fun m => (f m).judge
/-- A command of the fitter that writes fuses or flash, or steps the start-up, or shows on the sideband. -/
def State.wide (st : State) (f : Mod → Mod) : Out := .next { st with m := if st.m.powered then f st.m else st.m }
/-- A command that comes from a host or a host's clock: what of it has power is judged by the port. -/
def State.host (st : State) (f : Mod → Mod) : Out := .next { st with m := st.m.within f }
/-- A command of the converter, the sequencer, the sideband or the rails. -/
def State.edge (st : State) (f : Mod → Mod) : Out := .next { st with m := f st.m }
/-- An access of a host whose link is up. -/
def Mod.fromHost (m : Mod) (h : HostId) (f : Mod → Mod) : Mod := if (m.host h.val).linked then f m else m
/-- A host's write of the register at an address, where it reaches it; otherwise the write is ignored (R13, R517). -/
def Mod.hostReg (m : Mod) (h : HostId) (a : Nat) (f : Mod → Mod) : Mod := m.fromHost h fun m => if m.mayWrite h.val a 0 then f m else m
/-- A unit of a panel: on a fenced panel, or one whose core rail is too low, it stands still (R79, R590). -/
def Mod.onPanel (m : Mod) (n : Nat) (f : Mod → Mod) : Mod := if m.panelUp n then f m else m
/-- COR_CMQPOST: a piece's post, once the core's earlier stores are visible (R479). -/
def Mod.corPost (m : Mod) (c : CoreId) (v : W64) : Mod := if c.val < 256 ∧ m.drained c.val then m.corCmqpost c.val v else m
/-- COR_XLTINV: a piece's shoot-down in its partition (R421). -/
def Mod.corShoot (m : Mod) (c : CoreId) (v : W64) : Mod :=
  match m.partOf c.val with
  | some p => if c.val < 256 then m.shootStart p (some c.val) v else m
  | none => m
/-- COR_XINT: written by software on the core, or by the host that owns the core's partition (R270, R518). -/
def Mod.xintWrite (m : Mod) (h : Option HostId) (c : CoreId) (v : W64) : Mod :=
  match h with
  | none => m.corXint c v
  | some h =>
    match m.partOf c.val with
    | some p => m.fromHost h fun m => if m.owns h.val p then m.corXint c v else m
    | none => m

end Sys2Proof.Machine
end

