-- ==== Sys2Proof/Machine/ExecCore.lean ====
section
/-! DEFINITION. Cores: the meanings of instructions, of their units and of exceptions. -/

namespace Sys2Proof.Machine

/-! ## Matrix arrays -/

/-- MCFG (R92): waits until every patch is idle, then sets the patch mode and discards every shadow set. -/
def execMcfg (c : CoreId) (f : BitVec 26) (st : State) : Out := st.run fun m => rowMcfg c f m
/-- MSHAPE (R116): pops a shape and writes it into a shape slot. -/
def execMshape (c : CoreId) (f : BitVec 26) (st : State) : Out := st.run fun m => rowMshape c f m
/-- MTILE (R94): copies its slot and queues a folded matrix product on a patch. -/
def execMtile (c : CoreId) (f : BitVec 26) (st : State) : Out := st.run fun m => rowMtile c f m
/-- MPRE (R107): queues a preload of tile 0 of a slot on a patch. -/
def execMpre (c : CoreId) (f : BitVec 26) (st : State) : Out := st.run fun m => rowMpre c f m
/-- MWAIT (R116): waits until the named patches have no instruction queued and no row unsummed. -/
def execMwait (c : CoreId) (f : BitVec 26) (st : State) : Out := st.run fun m => rowMwait c f m
/-- MZERO (R116): writes +0.0 into rows of an accumulator bank, after every earlier MTILE that writes them. -/
def execMzero (c : CoreId) (f : BitVec 26) (st : State) : Out := st.run fun m => rowMzero c f m
/-- WEIGHT_PORT_GRANT (R103): the bolt weight port grants a patch's tile load, in request order. -/
def execWeightPortGrant (c : CoreErrs) (st : State) : Out := st.judged fun m => rowWeightPortGrant c.1 c.2 m
/-- TILE_START (R105): A tile becomes active at its first-multiply stitch and its rows begin to multiply. The tile may be selected for basting here.
-/
def execTileStart (c : CoreErrs) (p : PatchId) (st : State) : Out := st.judged fun m => rowTileStart c.1 p c.2 m
/-- TILE_ROWS_SUMMED (R106): the last row of a tile is summed into the accumulator. An accumulator word that becomes NaN may raise the NaN trap. -/
def execTileRowsSummed (c : CoreId) (p : PatchId) (st : State) : Out := st.run fun m => rowTileRowsSummed c p m
/-- BASTE_CHECK (R154): the long-vector unit finishes the reference for a basted tile and compares it; a disagreement is counted, logged and may trap.
-/
def execBasteCheck (c : CoreId) (st : State) : Out := st.run fun m => rowBasteCheck c m
/-- MUPD (R146): stochastically rounds FP32 master weights to a stored format, and writes block flags and next scales. -/
def execMupd (c : CoreId) (f : BitVec 26) (st : State) : Out := st.run fun m => rowMupd c f m

/-! ## Finishing engines -/

/-- FLOAD (R175): reads a 128-byte chain descriptor through c1 into a chain slot, after the issue checks. -/
def execFload (c : CoreId) (f : BitVec 26) (st : State) : Out := st.run fun m => rowFload c f m
/-- FRUN (R178): copies a chain slot and queues a finishing pass. -/
def execFrun (c : CoreId) (f : BitVec 26) (st : State) : Out := st.run fun m => rowFrun c f m
/-- FWAIT (R175): waits until every earlier FRUN is complete. -/
def execFwait (c : CoreId) (f : BitVec 26) (st : State) : Out := st.run fun m => rowFwait c f m
/-- FIN_PASS_START (R178): A queued finishing pass reads its first group once its sources are ready and the engine is free. -/
def execFinPassStart (c : CoreErrs) (st : State) : Out := st.judged fun m => rowFinPassStart c.1 c.2 m
/-- FIN_PASS_COMPLETE (R179): the last group of a pass is written, or a shuttle reports every byte of a spool destination accepted. -/
def execFinPassComplete (c : CoreId) (st : State) : Out := st.run fun m => rowFinPassComplete c m

/-! ## Long vectors -/

/-- VSETVL (R209): sets VL from the popped value. -/
def execVsetvl (c : CoreId) (f : BitVec 26) (st : State) : Out := st.run fun m => rowVsetvl c f m
/-- VGETVL (R209): pushes VL. -/
def execVgetvl (c : CoreId) (f : BitVec 26) (st : State) : Out := st.run fun m => rowVgetvl c f m
/-- VBCASTS (R209): writes a scalar into the active elements of a register. -/
def execVbcasts (c : CoreId) (f : BitVec 26) (st : State) : Out := st.run fun m => rowVbcasts c f m
/-- VPUT (R209): writes a scalar into one element of a register. -/
def execVput (c : CoreId) (f : BitVec 26) (st : State) : Out := st.run fun m => rowVput c f m
/-- VGET (R209): pushes one element of a register. -/
def execVget (c : CoreId) (f : BitVec 26) (st : State) : Out := st.run fun m => rowVget c f m
/-- VMPOP (R209): pushes the number of set bits of a mask below VL. -/
def execVmpop (c : CoreId) (f : BitVec 26) (st : State) : Out := st.run fun m => rowVmpop c f m
/-- VMFIRST (R209): pushes the lowest set bit index of a mask below VL. -/
def execVmfirst (c : CoreId) (f : BitVec 26) (st : State) : Out := st.run fun m => rowVmfirst c f m
/-- VMLD (R209): loads 256 bytes through c1 into a mask register. -/
def execVmld (c : CoreId) (f : BitVec 26) (st : State) : Out := st.run fun m => rowVmld c f m
/-- VMST (R209): stores a mask register to 256 bytes through c1. -/
def execVmst (c : CoreId) (f : BitVec 26) (st : State) : Out := st.run fun m => rowVmst c f m
/-- VLD (R189): vector load of VL elements from memory or the bolt, after translating and cap-checking the whole range. -/
def execVld (c : CoreId) (f : BitVec 26) (st : State) : Out := st.run fun m => rowVld c f m
/-- VST (R191): vector store of the active elements to memory or the bolt. -/
def execVst (c : CoreId) (f : BitVec 26) (st : State) : Out := st.run fun m => rowVst c f m
/-- VARITH (R207): element-wise arithmetic, logical or shift function selected by FUNC. -/
def execVarith (c : CoreId) (f : BitVec 26) (st : State) : Out := st.run fun m => rowVarith c f m
/-- VFMA (R206): element-wise fused multiply-add with one rounding. -/
def execVfma (c : CoreId) (f : BitVec 26) (st : State) : Out := st.run fun m => rowVfma c f m
/-- VCMP (R206): element-wise comparison that writes mask bits. -/
def execVcmp (c : CoreId) (f : BitVec 26) (st : State) : Out := st.run fun m => rowVcmp c f m
/-- VMLOG (R208): logical function on mask registers. -/
def execVmlog (c : CoreId) (f : BitVec 26) (st : State) : Out := st.run fun m => rowVmlog c f m
/-- VRED (R203): reduces the active elements in a fixed order into element 0 of the destination. -/
def execVred (c : CoreId) (f : BitVec 26) (st : State) : Out := st.run fun m => rowVred c f m
/-- VCVT (R204): converts elements between formats. -/
def execVcvt (c : CoreId) (f : BitVec 26) (st : State) : Out := st.run fun m => rowVcvt c f m
/-- VMOV (R209): copies one vector register to another. -/
def execVmov (c : CoreId) (f : BitVec 26) (st : State) : Out := st.run fun m => rowVmov c f m
/-- VBCAST (R209): broadcasts one element to the active elements of a register. -/
def execVbcast (c : CoreId) (f : BitVec 26) (st : State) : Out := st.run fun m => rowVbcast c f m
/-- VSLIDEUP (R209): slides elements up by n. -/
def execVslideup (c : CoreId) (f : BitVec 26) (st : State) : Out := st.run fun m => rowVslideup c f m
/-- VSLIDEDN (R209): slides elements down by n. -/
def execVslidedn (c : CoreId) (f : BitVec 26) (st : State) : Out := st.run fun m => rowVslidedn c f m
/-- VCOMPRESS (R209): packs the active elements into the low elements of the destination. -/
def execVcompress (c : CoreId) (f : BitVec 26) (st : State) : Out := st.run fun m => rowVcompress c f m
/-- VECTOR_START (R196): the oldest ready vector instruction in a station starts reading groups once its sources are ready and the lanes are free. -/
def execVectorStart (c : CoreErrs) (st : State) : Out := st.judged fun m => rowVectorStart c.1 c.2 m

/-! ## Instructions -/

/-- NOP (R230): does nothing. -/
def execNop (c : CoreId) (f : BitVec 26) (st : State) : Out := st.run fun m => rowNop c f m
/-- SYNC (R291): fence: waits for control-register writes, loads and stores, and switches to the current microcode copy. -/
def execSync (c : CoreId) (f : BitVec 26) (st : State) : Out := st.run fun m => rowSync c f m
/-- SYNC_I (R293): acts as SYNC, then brings the instruction cache into agreement with memory and restarts fetch. -/
def execSyncI (c : CoreId) (f : BitVec 26) (st : State) : Out := st.run fun m => rowSyncI c f m
/-- ERET (R279): copies the shadow bank into the active bank and resumes. -/
def execEret (c : CoreId) (f : BitVec 26) (st : State) : Out := st.run fun m => rowEret c f m
/-- TRAP (R230): raises the scalar issue exception with cause TRAP and a code. -/
def execTrap (c : CoreId) (f : BitVec 26) (st : State) : Out := st.run fun m => rowTrap c f m
/-- LIT (R231): pushes a sign-extended immediate. -/
def execLit (c : CoreId) (f : BitVec 26) (st : State) : Out := st.run fun m => rowLit c f m
/-- LITH (R231): replaces the upper bits of the top entry with an immediate. -/
def execLith (c : CoreId) (f : BitVec 26) (st : State) : Out := st.run fun m => rowLith c f m
/-- ADDI (R232): adds an immediate to the top entry. -/
def execAddi (c : CoreId) (f : BitVec 26) (st : State) : Out := st.run fun m => rowAddi c f m
/-- ALU (R233): scalar integer operation selected by FUNC. -/
def execAlu (c : CoreId) (f : BitVec 26) (st : State) : Out := st.run fun m => rowAlu c f m
/-- STK (R235): stack operation selected by FUNC, return-stack moves included. -/
def execStk (c : CoreId) (f : BitVec 26) (st : State) : Out := st.run fun m => rowStk c f m
/-- LD (R220): scalar load through a cap, placed at position p after the delay slot. -/
def execLd (c : CoreId) (f : BitVec 26) (st : State) : Out := st.run fun m => rowLd c f m
/-- LOAD_VALUE_ARRIVES (R221): the value of a load that went beyond L1 arrives and releases the waiting instruction. -/
def execLoadValueArrives (c : CoreUpsets) (st : State) : Out := st.judged fun m => m.loadValueArrives c.1 c.2
/-- ST (R236): scalar store through a cap into the store buffer; clears cap tags. -/
def execSt (c : CoreId) (f : BitVec 26) (st : State) : Out := st.run fun m => rowSt c f m
/-- LDC (R236): loads a cap with its tag into a cap register. -/
def execLdc (c : CoreId) (f : BitVec 26) (st : State) : Out := st.run fun m => rowLdc c f m
/-- STC (R236): stores a cap register with its tag. -/
def execStc (c : CoreId) (f : BitVec 26) (st : State) : Out := st.run fun m => rowStc c f m
/-- CMOV (R238): copies one cap register to another. -/
def execCmov (c : CoreId) (f : BitVec 26) (st : State) : Out := st.run fun m => rowCmov c f m
/-- CGETBASE (R238): pushes the base of a cap. -/
def execCgetbase (c : CoreId) (f : BitVec 26) (st : State) : Out := st.run fun m => rowCgetbase c f m
/-- CGETLEN (R238): pushes the length of a cap. -/
def execCgetlen (c : CoreId) (f : BitVec 26) (st : State) : Out := st.run fun m => rowCgetlen c f m
/-- CGETPERM (R238): pushes the permissions of a cap. -/
def execCgetperm (c : CoreId) (f : BitVec 26) (st : State) : Out := st.run fun m => rowCgetperm c f m
/-- CGETOTYPE (R238): pushes the object type of a cap. -/
def execCgetotype (c : CoreId) (f : BitVec 26) (st : State) : Out := st.run fun m => rowCgetotype c f m
/-- CGETTAG (R238): pushes the tag of a cap. -/
def execCgettag (c : CoreId) (f : BitVec 26) (st : State) : Out := st.run fun m => rowCgettag c f m
/-- CBOUND (R238): narrows the range of a cap. -/
def execCbound (c : CoreId) (f : BitVec 26) (st : State) : Out := st.run fun m => rowCbound c f m
/-- CPERM (R238): masks the permissions of a cap. -/
def execCperm (c : CoreId) (f : BitVec 26) (st : State) : Out := st.run fun m => rowCperm c f m
/-- CSEAL (R238): seals a cap with a key's object type. -/
def execCseal (c : CoreId) (f : BitVec 26) (st : State) : Out := st.run fun m => rowCseal c f m
/-- CUNSEAL (R238): unseals a cap with a matching key. -/
def execCunseal (c : CoreId) (f : BitVec 26) (st : State) : Out := st.run fun m => rowCunseal c f m
/-- CCLR (R238): clears the tag of a cap register. -/
def execCclr (c : CoreId) (f : BitVec 26) (st : State) : Out := st.run fun m => rowCclr c f m
/-- CTEST (R238): pushes whether an access would pass the tag, seal and bound checks. -/
def execCtest (c : CoreId) (f : BitVec 26) (st : State) : Out := st.run fun m => rowCtest c f m
/-- SWAPM (R239): coherent atomic exchange. -/
def execSwapm (c : CoreId) (f : BitVec 26) (st : State) : Out := st.run fun m => rowSwapm c f m
/-- CAS (R239): coherent atomic compare and swap. -/
def execCas (c : CoreId) (f : BitVec 26) (st : State) : Out := st.run fun m => rowCas c f m
/-- XADD (R239): coherent atomic fetch and add. -/
def execXadd (c : CoreId) (f : BitVec 26) (st : State) : Out := st.run fun m => rowXadd c f m
/-- MADD (R239): posted add at the spool's memory-side adder. -/
def execMadd (c : CoreId) (f : BitVec 26) (st : State) : Out := st.run fun m => rowMadd c f m
/-- BR (R240): relative branch. -/
def execBr (c : CoreId) (f : BitVec 26) (st : State) : Out := st.run fun m => rowBr c f m
/-- BZ (R240): branch if the popped value is zero. -/
def execBz (c : CoreId) (f : BitVec 26) (st : State) : Out := st.run fun m => rowBz c f m
/-- BNZ (R240): branch if the popped value is not zero. -/
def execBnz (c : CoreId) (f : BitVec 26) (st : State) : Out := st.run fun m => rowBnz c f m
/-- CALL (R240): relative call that pushes a return address. -/
def execCall (c : CoreId) (f : BitVec 26) (st : State) : Out := st.run fun m => rowCall c f m
/-- RET (R241): returns to the address popped from the return stack. -/
def execRet (c : CoreId) (f : BitVec 26) (st : State) : Out := st.run fun m => rowRet c f m
/-- JMPI (R241): indirect jump. -/
def execJmpi (c : CoreId) (f : BitVec 26) (st : State) : Out := st.run fun m => rowJmpi c f m
/-- CALLI (R241): indirect call. -/
def execCalli (c : CoreId) (f : BitVec 26) (st : State) : Out := st.run fun m => rowCalli c f m
/-- PEND (R317): completes the running piece once its work is visible. -/
def execPend (c : CoreId) (f : BitVec 26) (st : State) : Out := st.run fun m => rowPend c f m
/-- PWAIT (R330): A seated piece waits for a seat count and takes one unit of it. -/
def execPwait (c : CoreId) (f : BitVec 26) (st : State) : Out := st.run fun m => rowPwait c f m
/-- PFIRE (R318): fires an external notch of the partition after a store wait. -/
def execPfire (c : CoreId) (f : BitVec 26) (st : State) : Out := st.run fun m => rowPfire c f m
/-- PID (R242): pushes the pattern slot and piece index. -/
def execPid (c : CoreId) (f : BitVec 26) (st : State) : Out := st.run fun m => rowPid c f m
/-- SHPOST (R243): reads shuttle descriptors and posts them to a shuttle's queue, resumably. -/
def execShpost (c : CoreId) (f : BitVec 26) (st : State) : Out := st.run fun m => rowShpost c f m
/-- SHPOST_RESUME (R374): an SHPOST waiting at a full shuttle queue posts once an entry frees. -/
def execShpostResume (c : CoreId) (f : BitVec 26) (st : State) : Out := st.run fun m => rowShpostResume c f m
/-- LOOP (R245): starts a hardware loop, saving the state of an outer loop. -/
def execLoop (c : CoreId) (f : BitVec 26) (st : State) : Out := st.run fun m => rowLoop c f m
/-- CUST (R248): A customer instruction runs its microcode routine from the current or previous copy. -/
def execCust (c : CoreId) (n : Fin 16) (f : BitVec 26) (st : State) : Out := st.run fun m => rowCust c n f m
/-- STACK_SPILL (R217): the deepest cached operand entry is written to memory through c2. -/
def execStackSpill (c : CoreId) (st : State) : Out := st.run fun m => m.earlySpill c.val opStk
/-- STACK_FILL (R217): the deepest memory operand entry is read back through c2. -/
def execStackFill (c : CoreId) (st : State) : Out := st.run fun m => m.earlyFill c.val opStk 16
/-- RETURN_SPILL (R219): A return-stack entry is written to memory through c3. -/
def execReturnSpill (c : CoreId) (st : State) : Out := st.run fun m => m.earlySpill c.val retStk
/-- RETURN_FILL (R219): A return-stack entry is read back through c3. -/
def execReturnFill (c : CoreId) (st : State) : Out := st.run fun m => m.earlyFill c.val retStk 32
/-- STORE_BUFFER_DRAIN (R258): the oldest store-buffer entry drains to memory in program order. -/
def execStoreBufferDrain (c : CoreUpsets) (st : State) : Out := st.judged fun m => m.storeBufferDrain c.1 c.2

/-! ## Exceptions -/

/-- EXCEPTION_ENTRY (R276): at an instruction boundary the core copies the active bank to the shadow bank and enters the handler for an exception or
trap. -/
def execExceptionEntry (c : CoreId) (w : W32) (st : State) : Out := st.run fun m => m.exceptionEntry c w
/-- INTERRUPT_ENTRY (R288): A pending interrupt is taken at an instruction boundary. -/
def execInterruptEntry (c : CoreWord) (st : State) : Out := st.run fun m => m.interruptEntry c.1 c.2
/-- DOUBLE_FAULT (R282): an exception while the shadow bank is in use saves the image and enters vector 8. -/
def execDoubleFault (c : CoreId) (st : State) : Out := st.run fun m => m.doubleFault c
/-- FITTER_EXCEPTION_ENTRY (R278): the fitter enters a handler from its address table. -/
def execFitterExceptionEntry (v : VecWord) (st : State) : Out := st.run fun m => (m.fitterEntry v.1 v.2).fitterHalts
/-- COR_XINT (R270): A write of RAISE sets COR_IPEND.XINT and counts it. -/
def execCorXint (h : Option HostId) (c : CoreId) (v : W64) (st : State) : Out := st.run fun m => m.xintWrite h c v

end Sys2Proof.Machine
end

