-- ==== Sys2Proof/Machine/Coh.lean ====
section
/-! DEFINITION. The coherence protocol message by message (R348 to R364): requests and offers at a home slice, grants at an L2, and
what a holder answers. A command names a message in flight by its place in the list of messages. -/

namespace Sys2Proof.Machine

/-! ## Messages -/

/-- The panel of an agent, if it lies on one, works (R79, R590). -/
def Mod.agentUp (m : Mod) (a : Nat) : Bool := (agentPanel a).all m.panelUp
/-- The panel of the unit that a message is for works (R79, R590). -/
def Mod.reachable (m : Mod) (x : CMsg) : Bool :=
  if x.kind.toHome then m.panelUp (m.homePanel x.la) else m.agentUp x.agent
/-- Take the message at a place, where it is of one kind and its unit works. -/
def Mod.takeC (m : Mod) (k : Nat) (kind : CKind) (f : CMsg → Mod → Mod) : Mod :=
  match m.coh.msgs[k]? with
  | some x => if x.kind = kind ∧ m.reachable x = true then f x { m with coh := { m.coh with msgs := dropAt m.coh.msgs k } } else m
  | none => m
/-- Number of a non-caching agent (R347). -/
def ncAgent (i : Nat) : Nat := 256 + i

/-! ## The home slice (R350 to R352, R355, R358) -/

/-- Put an entry in B for a transaction. -/
def Mod.startTxn (m : Mod) (la : Nat) (t : DirTxn) : Mod := m.setDir la { (m.dirAt la) with txn := some t }
/-- Grant to an L2: the entry stays in B until GACK. -/
def Mod.grantL2 (m : Mod) (la : Nat) (t : DirTxn) (kind : CKind) (next : DirSt) (pre : Bool) : Mod :=
  (m.startTxn la { t with granted := true, acks := 0, next := next }).csend { kind := kind, la := la, agent := t.agent, prefetch := pre }
/-- The line's data are read: from the panel cache, or from the spool with a fill (R360). -/
def Mod.homeData (m : Mod) (la : Nat) (e : ErrCode) (age : Nat) : Mod :=
  let m1 := ((m.pncError la e).meetErr 3 0 la).pncLook la
  if m1.pncHas la then m1 else (m1.askSpool la false).pncPut la age false
/-- Ask holders, and await an answer of each. -/
def Mod.askHolders (m : Mod) (la : Nat) (t : DirTxn) (kind : CKind) (hs : List Nat) : Mod :=
  hs.foldl (fun m h => m.csend { kind := kind, la := la, agent := h }) (m.startTxn la { t with acks := hs.length })
/-- A request finds its set of the directory full: the victim is recalled, and the request waits (R351). -/
def Mod.recallVictim (m : Mod) (la : Nat) : Option Mod :=
  match findWay m.coh.dir (m.dirBase la) 16 la with
  | some _ => none
  | none =>
    let r := pickWay m.coh.dir (m.dirBase la) 16
    match Tab.get? r.2 r.1 with
    | none => none
    | some v =>
      if v.val.txn.isSome then some m
      else
        let m1 : Mod := { m with coh := { m.coh with dir := r.2 } }
        let p := m.homePanel la
        some (((m1.askHolders v.key { req := .recall, victim := true } .recall v.val.st.holders).inc (bPNC p + 0x40 + 8 * 6)).evPanel p 0x07 1 (m.grantOf (v.key * 128)))
/-- Finish what the acknowledgements of a transaction were awaited for (R352). -/
def Mod.finishTxn (m : Mod) (la : Nat) (t : DirTxn) (e : ErrCode) : Mod :=
  let own (m : Mod) : Mod := if t.fill then m.homeData la e (if t.pre then 2 else 1) else m
  match t.req with
  | .gets => (own m).grantL2 la t .dataS t.next t.pre
  | .getx => (own m).grantL2 la t .dataM (.x t.agent) false
  | .upg => (own m).grantL2 la t (if t.fill || t.fwd then .dataM else .grant) (.x t.agent) false
  | .wr =>
    let m1 := m.pncPut la 1 true
    let m2 := t.wdata.foldl (fun (m : Mod) p => m.wrMem (la * 128 + p.1) [p.2]) m1
    (m2.cleanLines (la * 128) (if t.wdata.length = 128 then 128 else 0)).setDir la {}
  | .rd => (own m).setDir la { st := t.next }
  | _ => m.setDir la {}
/-- Serve a request at an entry that is not in B (R352). -/
def Mod.homeServe (m : Mod) (kind : CKind) (la agent : Nat) (pre : Bool) (w : List (Nat × Byte)) (e : ErrCode) : Mod :=
  let t : DirTxn := { req := kind, agent := agent, wdata := w, pre := pre }
  let fin (m : Mod) (t : DirTxn) : Mod := m.finishTxn la t e
  match kind, (m.dirAt la).st with
  | .gets, .u => (m.homeData la e (if pre then 2 else 1)).grantL2 la t .dataE (.x agent) pre
  | .gets, .s sh => (m.homeData la e (if pre then 2 else 1)).grantL2 la t .dataS (.s (sh.add agent)) pre
  | .gets, .x o => m.askHolders la { t with fwd := true, next := .s ((({} : Sharers).add o).add agent) } .fwds [o]
  | .rd, .x o => m.askHolders la { t with fwd := true, next := .x o } .fwdr [o]
  | .rd, st => fin m { t with fill := true, next := st }
  | .wr, .s sh => let hs := sh.cores; if hs.isEmpty then fin m t else m.askHolders la t .inv hs
  | .wr, .x o => m.askHolders la t .fwdx [o]
  | .upg, .s sh =>
    let hs := sh.cores.filter (· != agent)
    let t1 := { t with fill := !sh.cores.contains agent }
    if hs.isEmpty then fin m t1 else m.askHolders la t1 .inv hs
  | .getx, .s sh => let hs := sh.cores; let t1 := { t with fill := true }; if hs.isEmpty then fin m t1 else m.askHolders la t1 .inv hs
  | _, .x o => m.askHolders la { t with fwd := true } .fwdx [o]
  | _, _ => fin m { t with fill := true }
/-- An entry records an agent as a holder. -/
def DirSt.records (d : DirSt) (a : Nat) : Bool := d.holders.contains a
/-- Remove a holder (R352). -/
def DirSt.remove (d : DirSt) (a : Nat) : DirSt :=
  match d with
  | .x _ => .u
  | .s sh => let s1 := sh.del a; if !s1.vec ∧ s1.ptrs.isEmpty then .u else .s s1
  | .u => .u
/-- The panel cache takes an offered clean line (R358). -/
def Mod.takesClean (m : Mod) (la : Nat) : Bool :=
  let b := m.pncBase la
  m.pncHas la || (upto (m.pncWays la)).any fun i => match Tab.get? m.coh.pnc (b + i) with
    | none => true
    | some w => !w.val.dirty && w.age == 3
/-- An offer is served at an entry that is not in B (R352, R358). -/
def Mod.offerServe (m : Mod) (kind : CKind) (la agent : Nat) (e : ErrCode) : Mod :=
  let d := m.dirAt la
  let ans (m : Mod) (kd : CKind) : Mod := m.csend { kind := kd, la := la, agent := agent }
  if !d.st.records agent then ans m .putack
  else
    let m1 := (m.pncError la e).setDir la { d with st := d.st.remove agent }
    if kind = .putm then ans (m1.pncOffer la true) .putack
    else if m1.takesClean la then ans (m1.pncOffer la false) .putack
    else ans ((m1.inc (bPNC (m.homePanel la) + 0x40 + 8 * 3)).evPanel (m.homePanel la) 0x08 1 (m.grantOf (la * 128))) .putdec
/-- A request or an offer is served. -/
def Mod.serveReq (m : Mod) (kind : CKind) (la agent : Nat) (pre : Bool) (w : List (Nat × Byte)) (e : ErrCode) : Mod :=
  match kind with
  | .putm => m.offerServe .putm la agent e
  | .putc => m.offerServe .putc la agent e
  | _ => m.homeServe kind la agent pre w e
/-- An entry is not in B: the requests queued for its line are served, one after another, until one takes it into B (R355). -/
def Mod.leaveB (m : Mod) (la : Nat) : Nat → Mod
  | 0 => m
  | n + 1 =>
    if m.busy la then m
    else match m.coh.starve.find? fun s => s.la == la with
      | none => m
      | some s => (({ m with coh := { m.coh with starve := m.coh.starve.erase s } } : Mod).serveReq s.req la s.agent false s.wdata 0).leaveB la n
/-- The agents that may stand in a slice's starvation queue (R355). -/
def agentsN : Nat := 273
/-- A non-caching agent's request is NAKed, or served. -/
def Mod.setAsk (m : Mod) (agent la : Nat) (write : Bool) (q : Option NcAsk) : Mod :=
  let rest := m.coh.asks.filter fun a => !(a.agent == agent && a.la == la && a.write == write)
  { m with coh := { m.coh with asks := rest ++ q.toList } }
/-- The request of a non-caching agent for a line that a NAK has met. -/
def Mod.askOf (m : Mod) (agent la : Nat) (write : Bool) : Option NcAsk := m.coh.asks.find? fun a => a.agent == agent && a.la == la && a.write == write
/-- A request at its home slice: NAKed while the line is in B or others are queued for it; a request marked STARVE is queued
(R352, R355). -/
def Mod.homeRequest (m : Mod) (x : CMsg) (w : List (Nat × Byte)) (e : ErrCode) : Mod :=
  let p := m.homePanel x.la
  let wr := decide (x.kind = .wr)
  let m0 : Mod := if 256 ≤ x.agent then m.setAsk x.agent x.la wr none else m
  let queued := m.coh.starve.any fun s => s.la == x.la
  if x.starve ∧ (m.busy x.la ∨ queued) then
    let s : StarveReq := { slice := sliceOf x.la, agent := x.agent, la := x.la, req := x.kind, dirty := x.dirty, poison := x.poison, wdata := w }
    ({ m0 with coh := { m0.coh with starve := m0.coh.starve ++ [s] } } : Mod).inc (bPNC p + 0x40 + 8 * 5)
  else if m.busy x.la ∨ queued then
    let req := match x.kind with | .gets => 0 | .getx => 1 | .upg => 2 | .putm => 3 | .putc => 4 | .wr => 6 | _ => 5
    let nak : CMsg := { kind := .nak, la := x.la, agent := x.agent, req := req, prefetch := x.prefetch }
    let m1 : Mod := if 256 ≤ x.agent then
        m0.setAsk x.agent x.la wr (some { (m.askOf x.agent x.la wr).getD { agent := x.agent, la := x.la, write := wr } with idle := true })
      else m0
    ((m1.csend nak).inc (bPNC p + 0x40 + 8 * 4)).evPanel p 0x06 1 (m.grantOf (x.la * 128))
  else (m0.serveReq x.kind x.la x.agent x.prefetch w e).leaveB x.la agentsN
/-- A caching request in flight reaches its slice; where its directory set is full the victim is recalled first. -/
def Mod.cohRequest (m : Mod) (k : Nat) (kind : CKind) (e : ErrCode) : Mod :=
  m.takeC k kind fun x m1 =>
    if m1.busy x.la then m1.homeRequest x [] e
    else match m.recallVictim x.la with
      | some m2 => m2
      | none => m1.homeRequest x [] e
/-- GETS. -/
def Mod.cohGets (m : Mod) (k : Nat) (e : ErrCode) : Mod := m.cohRequest k .gets e
/-- GETX. -/
def Mod.cohGetx (m : Mod) (k : Nat) (e : ErrCode) : Mod := m.cohRequest k .getx e
/-- UPG. -/
def Mod.cohUpg (m : Mod) (k : Nat) (e : ErrCode) : Mod := m.cohRequest k .upg e
/-- An offer reaches its slice (R352, R358). -/
def Mod.cohPut (m : Mod) (k : Nat) (kind : CKind) (e : ErrCode) : Mod := m.takeC k kind fun x m => m.homeRequest x [] e
/-- PUTM. -/
def Mod.cohPutm (m : Mod) (k : Nat) (e : ErrCode) : Mod := m.cohPut k .putm e
/-- PUTC. -/
def Mod.cohPutc (m : Mod) (k : Nat) (e : ErrCode) : Mod := m.cohPut k .putc e
/-- A request of a non-caching agent reaches its slice: marked STARVE where four NAKs have met it; while a NAK is on its way or the retry waits,
there is none (R355). -/
def Mod.ncRequest (m : Mod) (x : CMsg) (w : List (Nat × Byte)) (e : ErrCode) : Mod :=
  let q := m.askOf x.agent x.la (decide (x.kind = .wr))
  if (q.any (·.idle)) ∨ m.panelUp (m.homePanel x.la) = false ∨ m.agentUp x.agent = false then m
  else m.homeRequest { x with starve := q.any fun a => decide (4 ≤ a.naks) } w e
/-- A read by non-caching agent `a` reaches its slice. -/
def Mod.cohRd (m : Mod) (a : Fin 17) (la : Nat) (e : ErrCode) : Mod :=
  m.ncRequest { kind := .rd, la := la % 2 ^ 39, agent := ncAgent a.val } [] e
/-- A write by non-caching agent `a`, of bytes of the line from offset `off`. -/
def Mod.cohWr (m : Mod) (a : Fin 17) (la : Nat) (off : Fin 128) (bs : List Byte) (e : ErrCode) : Mod :=
  m.ncRequest { kind := .wr, la := la % 2 ^ 39, agent := ncAgent a.val } ((bs.take (128 - off.val)).zipIdx.map fun p => (off.val + p.2, p.1)) e
/-- An answer of a holder: when it is the last that the transaction needs, the transaction goes on (R352). Dirty data go to the panel cache, but for
those of a transfer of ownership, which pass to the new owner; without the owner's data the home gives its own; a holder that answered from its
writeback buffer is recorded no more (R354). -/
def Mod.cohAnswer (m : Mod) (k : Nat) (kind : CKind) (e : ErrCode) : Mod :=
  m.takeC k kind fun x m =>
    let txn := (m.dirAt x.la).txn
    let passes := txn.any fun t => t.fwd && (t.req == .getx || t.req == .upg)
    let m0 := if kind = .ackd then
        let m1 := if x.dirty && !passes then m.pncPut x.la 1 true else m
        if x.poison then m1.poisonLine x.la else m1
      else m
    match txn with
    | none => m0
    | some t =>
      let t1 : DirTxn := { t with acks := t.acks - 1, fill := t.fill || (t.fwd && kind == .ack), next := if x.gone then t.next.remove x.agent else t.next }
      if 1 < t.acks then m0.startTxn x.la t1
      else (m0.finishTxn x.la t1 e).leaveB x.la agentsN
/-- ACK. -/
def Mod.cohAck (m : Mod) (k : Nat) (e : ErrCode) : Mod := m.cohAnswer k .ack e
/-- ACKD. -/
def Mod.cohAckd (m : Mod) (k : Nat) (e : ErrCode) : Mod := m.cohAnswer k .ackd e
/-- GACK ends a grant's transaction. -/
def Mod.cohGack (m : Mod) (k : Nat) : Mod :=
  m.takeC k .gack fun x m =>
    match (m.dirAt x.la).txn with
    | some t => if t.granted ∧ t.agent = x.agent then (m.setDir x.la { st := t.next }).leaveB x.la agentsN else m
    | none => m

/-! ## The L2 (R353 to R357) -/

/-- A grant arrives: the line is installed, and GACK tells the home (R353). -/
def Mod.cohInstall (m : Mod) (k : Nat) (kind : CKind) (st : Mesi) : Mod :=
  m.takeC k kind fun x m =>
    let m1 := m.updMem x.agent fun q => { (q.install x.la st (if x.prefetch then 2 else 1)) with misses := q.misses.filter (·.la != x.la) }
    (m1.sendOffers x.agent).csend { kind := .gack, la := x.la, agent := x.agent }
/-- DATA.S. -/
def Mod.cohDataS (m : Mod) (k : Nat) : Mod := m.cohInstall k .dataS .s
/-- DATA.E. -/
def Mod.cohDataE (m : Mod) (k : Nat) : Mod := m.cohInstall k .dataE .e
/-- DATA.M. -/
def Mod.cohDataM (m : Mod) (k : Nat) : Mod := m.cohInstall k .dataM .m
/-- GRANT. -/
def Mod.cohGrant (m : Mod) (k : Nat) : Mod := m.cohInstall k .grant .m
/-- A NAK arrives: the request is to be sent again; a prefetch is dropped (R355, R363). -/
def Mod.cohNak (m : Mod) (k : Nat) : Mod :=
  m.takeC k .nak fun x m =>
    if 256 ≤ x.agent then
      let wr := x.req == 6
      match m.askOf x.agent x.la wr with
      | some q => m.setAsk x.agent x.la wr (some { q with naks := q.naks + 1, naked := true })
      | none => m
    else
      let m1 := m.inc (bL2C x.agent + 0x40 + 8 * 5)
      m1.updMem x.agent fun q =>
        if 3 ≤ x.req then { q with wb := q.wb.map fun w => if w.la = x.la ∧ w.sent then { w with naks := w.naks + 1, naked := true } else w }
        else { q with misses := (q.misses.filter fun y => !(y.la == x.la && y.prefetch)).map fun y => if y.la = x.la then { y with naks := y.naks + 1, naked := true } else y }
/-- The agent has a request marked STARVE outstanding at the slice of a line (R355). -/
def Mod.starving (m : Mod) (c la : Nat) : Bool :=
  let here (l : Nat) : Bool := l != la && sliceOf l == sliceOf la && m.homePanel l == m.homePanel la
  (m.coh.starve.any fun s => s.agent == c && here s.la) ||
  (m.core c).mem.misses.any (fun z => here z.la && decide (4 ≤ z.naks) && !z.naked) || (m.core c).mem.wb.any (fun z => here z.la && decide (4 ≤ z.naks) && !z.naked) ||
  m.coh.asks.any fun z => z.agent == c && here z.la && decide (4 ≤ z.naks) && !z.naked
/-- A NAKed request of an agent is sent again (R355): marked STARVE after its fourth NAK, of which an agent has one at a slice. -/
def Mod.nakRetry (m : Mod) (c : Fin 273) (la : Nat) : Mod :=
  let q := (m.core c.val).mem
  let m1 (naks : Nat) : Mod := if 4 ≤ naks ∧ c.val < 256 then m.inc (bL2C c.val + 0x40 + 8 * 6) else m
  if m.agentUp c.val = false then m
  else if 256 ≤ c.val then
    match m.coh.asks.find? fun a => a.agent == c.val && a.la == la && a.naked with
    | some a => if 4 ≤ a.naks ∧ m.starving c.val la then m else m.setAsk c.val la a.write (some { a with naked := false, idle := false })
    | none => m
  else match q.misses.find? fun y => y.la == la && y.naked with
  | some y =>
    if 4 ≤ y.naks ∧ m.starving c.val la then m
    else
      ((m1 y.naks).updMem c.val fun q => { q with misses := q.misses.map fun z => if z.la = la then { z with naked := false } else z }).csend
        { kind := match y.req with | 0 => .gets | 1 => .getx | _ => .upg, la := la, agent := c.val, starve := decide (4 ≤ y.naks), prefetch := y.prefetch }
  | none =>
    match q.wb.find? fun w => w.la == la && w.naked with
    | some w =>
      if 4 ≤ w.naks ∧ m.starving c.val la then m
      else
        ((m1 w.naks).updMem c.val fun q => { q with wb := q.wb.map fun z => if z.la = la then { z with naked := false } else z }).csend
          { kind := if w.dirty then .putm else .putc, la := la, agent := c.val, starve := decide (4 ≤ w.naks), dirty := w.dirty, poison := w.poison }
    | none => m
/-- An offer is answered: its buffer entry is free (R357). -/
def Mod.cohPutEnd (m : Mod) (k : Nat) (kind : CKind) : Mod :=
  m.takeC k kind fun x m => m.updMem x.agent fun q => { q with wb := match firstIx (fun w => w.la == x.la && w.sent) q.wb with | some i => dropAt q.wb i | none => q.wb }
/-- PUTACK. -/
def Mod.cohPutack (m : Mod) (k : Nat) : Mod := m.cohPutEnd k .putack
/-- PUTDEC. -/
def Mod.cohPutdec (m : Mod) (k : Nat) : Mod := m.cohPutEnd k .putdec
/-- A waiting offer of core `c` is sent once the writeback buffer has an entry for it (R357). -/
def Mod.offerFree (m : Mod) (c : Fin 256) : Mod := if m.agentUp c.val then m.sendOffers c.val else m
/-- Answer of a holder to its home. -/
def Mod.answer (m : Mod) (x : CMsg) (data dirty poison gone : Bool) : Mod :=
  m.csend { kind := if data then .ackd else .ack, la := x.la, agent := x.agent, dirty := dirty, poison := poison, gone := gone }
/-- A demand on a holder: the state it keeps, and whether data go with the answer. A line in the writeback buffer is answered from
there; a lost M line is answered poisoned (R353, R354, R364). -/
def Mod.cohDemand (m : Mod) (k : Nat) (kind : CKind) (e : ErrCode) (keep : Option Mesi) (dataAlways : Bool) : Mod :=
  m.takeC k kind fun x m =>
    let m0 := (m.l2Error x.agent x.la e).meetErr 2 x.agent x.la
    let q := (m0.core x.agent).mem
    let st := q.state x.la
    if q.lostM.contains x.la then
      (m0.updMem x.agent fun q => { q with lostM := q.lostM.filter (· != x.la) }).answer x true true true true
    else if st = .i then
      match q.wb.find? fun w => w.la == x.la with
      | some w => m0.answer x (dataAlways || w.dirty) w.dirty (Tab.get false m0.poison (2 * x.la)) true
      | none => m0.answer x false false false true
    else
      let dirty := decide (st = .m)
      (m0.updMem x.agent fun q => q.setState x.la (keep.getD .i)).answer x (dataAlways || dirty) dirty (Tab.get false m0.poison (2 * x.la)) false
/-- INV. -/
def Mod.cohInv (m : Mod) (k : Nat) (e : ErrCode) : Mod := m.cohDemand k .inv e none false
/-- RECALL. -/
def Mod.cohRecall (m : Mod) (k : Nat) (e : ErrCode) : Mod := m.cohDemand k .recall e none false
/-- FWDS. -/
def Mod.cohFwds (m : Mod) (k : Nat) (e : ErrCode) : Mod := m.cohDemand k .fwds e (some .s) true
/-- FWDX. -/
def Mod.cohFwdx (m : Mod) (k : Nat) (e : ErrCode) : Mod := m.cohDemand k .fwdx e none true
/-- FWDR. -/
def Mod.cohFwdr (m : Mod) (k : Nat) (e : ErrCode) : Mod := m.cohDemand k .fwdr e (some .e) true

end Sys2Proof.Machine
end

