-- ==== Sys2Proof/Machine/Remote.lean ====
section
/-! DEFINITION. Remote requests at the granting module (R463 to R468), and responses at the requester (R425, R454, R467). -/

namespace Sys2Proof.Machine

/-! ## The window check (R464, R465) -/

/-- Fields of a request header (R467). -/
structure ReqHdr where
  op : Nat
  rtype : Nat
  tag : Nat
  win : Nat
  off : Nat
  len : Nat
  /-- every reserved bit is zero -/
  clean : Bool
deriving DecidableEq, Repr
/-- The request header of a message. -/
def readReq (d : List Byte) : ReqHdr :=
  let w (o n : Nat) : Nat := ofLe ((d.drop o).take n)
  { op := bitsN (w 0 4) 31 28, rtype := bitsN (w 0 4) 27 24, tag := bitsN (w 0 4) 23 0, win := bitsN (w 4 4) 11 0, off := bitsN (w 8 8) 33 0,
    len := bitsN (w 0x10 4) 12 0,
    clean := bitsN (w 4 4) 31 12 == 0 && bitsN (w 8 8) 63 34 == 0 && bitsN (w 0x10 4) 31 13 == 0 && w 0x14 8 == 0 && w 0x1C 4 == 0 }
/-- Bytes of data that follow a request. -/
def ReqHdr.dataLen (h : ReqHdr) : Nat := if h.op = 1 then 0 else h.len
/-- The message keeps its format (R463, R467): an operation that exists, a legal type and length, and its data behind it. An add carries
one aligned element, a line add whole aligned units (log 27). -/
def ReqHdr.sound (h : ReqHdr) (d : List Byte) : Bool :=
  h.clean && decide (1 ≤ h.op) && decide (h.op ≤ 4) && decide (1 ≤ h.len) && decide (h.len ≤ 4096) && decide (32 + h.dataLen ≤ d.length) &&
  (decide (h.op < 3) || decide (h.rtype ≤ 4)) && (h.op != 3 || (h.len == maddSize h.rtype && h.off % h.len == 0)) && (h.op != 4 || (h.len % 64 == 0 && h.off % 64 == 0))
/-- The check of R464, in its order: the status of the first failure, or the local physical address. -/
def Mod.windowCheck (m : Mod) (src : Nat) (h : ReqHdr) : Nat ⊕ Nat :=
  let p := h.win / 256
  match m.wtab p with
  | none => .inl 0x01
  | some base =>
    let e := base + 32 * (h.win % 256)
    let w := m.rdLe e 8
    let pa := bitsN (m.rdLe (e + 8) 8) 45 0 + h.off
    let perm := if h.op = 1 then 62 else if h.op = 2 then 61 else 60
    if bitsN w 63 63 = 0 then .inl 0x01
    else if bitsN w 18 18 = 0 ∧ bitsN w 17 0 ≠ src then .inl 0x02
    else if bitsN w perm perm = 0 then .inl 0x03
    else if bitsN (m.rdLe (e + 16) 8) 33 0 < h.off + h.len then .inl 0x04
    else if !(m.part p).holds pa h.len ∨ m.inWtab p pa h.len then .inl 0x05
    else .inr pa
/-- Serve a checked request at a local physical address (R464, R468). Adds answer when they have been applied; scratch has no adder, so an add to it
is refused as outside what the window grants (log 27). -/
def Mod.serveRemote (m : Mod) (src : Nat) (h : ReqHdr) (data : List Byte) (pa : Nat) : Mod :=
  let p := h.win / 256
  let answer (m : Mod) (status : Nat) (poison : Bool) (bs : List Byte) : Mod :=
    m.sendMsg { dest := src, src := m.dev, vc := 4, data := respHdr h.tag status poison ++ bs }
  if 3 ≤ h.op ∧ !m.isSpool pa then answer (m.inc (bPRT p + 0x3110)) 0x05 false []
  else
    let m1 := m.inc (bPRT p + 0x3108)
    match h.op with
    | 1 => let r := m1.ncRead pa h.len; answer r.2 0x00 (m1.poisoned pa h.len) r.1
    | 2 => answer (m1.ncWrite pa data) 0x00 false []
    | 3 => { m1 with spl := { m1.spl with adds := m1.spl.adds ++ [{ pa := pa, ty := h.rtype, data := data, reply := some (src, h.tag) }] } }
    | _ =>
      let reqs : List AddReq := (upto (h.len / 64)).map fun i => { pa := pa + 64 * i, ty := h.rtype, data := (data.drop (64 * i)).take 64, reply := some (src, h.tag) }
      { m1 with spl := { m1.spl with adds := m1.spl.adds ++ reqs } }
/-- A request message of a virtual channel reaches the window check (R464); one that breaks its format is dropped (R463). -/
def Mod.remoteRequest (m : Mod) (ops : Nat → Bool) (src : BitVec 18) (vc5 : Bool) (d : List Byte) : Mod :=
  let h := readReq d
  if !ops h.op then m
  else
    let t := m.takeMsg (if vc5 then 5 else 3) d
    let m1 := match t.1 with | some x => t.2.freeMsg x | none => t.2
    if !h.sound d then m1.formatDrop t.1
    else match m1.windowCheck src.toNat h with
      | .inl st => (m1.inc (bPRT (h.win / 256) + 0x3110)).sendMsg { dest := src.toNat, src := m1.dev, vc := 4, data := respHdr h.tag st false }
      | .inr pa => m1.serveRemote src.toNat h ((d.drop 32).take h.len) pa
/-- REMOTE_READ; the home of reserved codes of OP (log 11). -/
def Mod.remoteRead (m : Mod) (src : BitVec 18) (vc5 : Bool) (d : List Byte) : Mod := m.remoteRequest (fun op => op == 1 || op == 0 || decide (4 < op)) src vc5 d
/-- REMOTE_WRITE. -/
def Mod.remoteWrite (m : Mod) (src : BitVec 18) (vc5 : Bool) (d : List Byte) : Mod := m.remoteRequest (· == 2) src vc5 d
/-- REMOTE_ADD. -/
def Mod.remoteAdd (m : Mod) (src : BitVec 18) (vc5 : Bool) (d : List Byte) : Mod := m.remoteRequest (· == 3) src vc5 d
/-- REMOTE_LINEADD. -/
def Mod.remoteLineAdd (m : Mod) (src : BitVec 18) (vc5 : Bool) (d : List Byte) : Mod := m.remoteRequest (· == 4) src vc5 d

/-! ## Responses (R425, R454) -/

/-- The report of a refused read. -/
def refusedRegs (va : Nat) : List (Nat × W64) := match xltStop 0x08 .read 0 0 va with | .trap _ r => r | _ => []
/-- A refused read of the instruction at `pc` raises XLTX at the core's next boundary (R425). -/
def Core.raiseRemote (k : Core) (va : Nat) (pc : W64) : Core :=
  { ((refusedRegs va).foldl (fun (k : Core) r => k.setCreg r.1 r.2) k).addPend 2 with late := some pc }
/-- The parts of a load after the response with a tag has come. -/
def respParts (ps : List LoadPart) (tag : Nat) (poison : Bool) (bs : List Byte) : List LoadPart :=
  ps.map fun p => if p.tag = some tag then { p with got := some (bs.take p.size), poison := poison } else p
/-- A station's load after the response with a tag has come for its bytes from `off` on. -/
def Station.respond (s : Station) (tag off n : Nat) (bs : List Byte) : Station :=
  { s with rwait := s.rwait.filter (· != (tag, off)), data := (upto n).foldl (fun t i => Tab.put t (off + i) (bs.getD i 0)) s.data }
/-- A response at the unit that waits for it: `ok` with its bytes, or a refusal, after which a destination holds free bytes (R16). -/
def Mod.deliverResp (m : Mod) (tag : Nat) (r : RemReq) (ok poison : Bool) (bs : List Byte) : Mod :=
  let k := m.core r.core
  match r.unit with
  | .load =>
    match k.openLoad with
    | some l =>
      if l.parts.any (·.tag == some tag) then
        m.updCore r.core fun k =>
          let k1 := k.loadJoins (respParts l.parts tag (ok && poison) bs)
          if ok then k1 else k1.raiseRemote r.va l.pc
      else if l.tag ≠ some tag then m
      else
        let v := loadVal l.signed bs
        m.updCore r.core fun k => if ok then k.loadArrives v poison else (k.loadArrives v false).raiseRemote r.va l.pc
    | none => m
  | .buf _ =>
    if k.wait ≠ .remote tag then m
    else if ok ∧ poison then m.setTrap r.core 9 []
    else m.updCore r.core fun k => { k with
      wait := .none, rbuf := (upto r.len).foldl (fun t i => Tab.put t (r.va + i) (bs.getD i 0)) k.rbuf, refused := if ok then k.refused else refusedRegs r.va }
  | .vec seq off =>
    match k.vec.stations.find? fun s => s.seq == seq && s.rwait.contains (tag, off) with
    | none => m
    | some s =>
      if ok ∧ poison ∧ s.undo.isSome ∧ k.due.isNone then m.poisonStation r.core s
      else
        let s1 := s.respond tag off r.len bs
        m.updCore r.core fun k =>
          let k1 := { k with vec := k.vec.put { s1 with undo := if s1.rwait.isEmpty then none else s1.undo } }
          if !ok then k1.raiseRemote r.va (w64 s.pc) else if poison then k1.addPend 9 else k1
  | .posted => if ok then m else m.inc (bXLT r.part + 0x40 + 8 * 4)
  | .shuttle s d off =>
    m.updDesc s d fun x => { x with rdata := (upto r.len).foldl (fun t i => Tab.put t (off + i) (bs.getD i 0)) x.rdata,
                                    late := if !ok then some 0x11 else if poison then some 0x10 else x.late }
  | .shuttleW s d => if ok then m else (m.inc (bXLT r.part + 0x40 + 8 * 4)).updDesc s d fun x => { x with late := some 0x11 }
/-- Bytes that an OK response brings its requester. -/
def RemReq.dataLen (r : RemReq) : Nat :=
  match r.unit with
  | .posted | .shuttleW _ _ => 0
  | _ => r.len
/-- A response keeps its format (R463, R467): its header whole, its last 8 bytes zero, a STATUS of the table, and the data that its request asked
for behind an OK. -/
def Mod.respSound (m : Mod) (d : List Byte) : Bool :=
  let st := bitsN (ofLe ((d.drop 4).take 4)) 7 0
  let n := match Tab.get? m.lnk.remotes (bitsN (ofLe (d.take 4)) 23 0) with | some r => r.dataLen | none => 0
  decide (16 ≤ d.length) && ofLe ((d.drop 8).take 8) == 0 && [0, 1, 2, 3, 4, 5, 7].contains st && (st != 0 || decide (16 + n ≤ d.length))
/-- REMOTE_RESPONSE: a message of vc4 reaches its requester by tag; one without a requester is consumed, one that breaks its format dropped (R463). -/
def Mod.remoteResponse (m : Mod) (d : List Byte) : Mod :=
  let t := m.takeMsg 4 d
  let m1 := match t.1 with | some x => t.2.freeMsg x | none => t.2
  let tag := bitsN (ofLe (d.take 4)) 23 0
  let w := ofLe ((d.drop 4).take 4)
  if !m1.respSound d then m1.formatDrop t.1
  else match Tab.get? m1.lnk.remotes tag with
  | none => m1
  | some r =>
    let m2 : Mod := { m1 with lnk := { m1.lnk with remotes := Tab.del m1.lnk.remotes tag } }
    let ok := bitsN w 7 0 == 0
    let f := m2.freeBytes r.len
    if ok then m2.deliverResp tag r true (bitsN w 8 8 == 1) ((d.drop 16).take r.len) else f.2.deliverResp tag r false false f.1

end Sys2Proof.Machine
end

