-- ==== Sys2Proof/Machine/ExecEngine.lean ====
section
/-! DEFINITION. Patterns, memory, spools, translation, links and collectives: the meanings of their commands. -/

namespace Sys2Proof.Machine

/-! ## Patterns -/

/-- SUBMIT (R311): A SUBMIT ring entry, taken after a PAT_RTAIL write, is checked and makes the pattern in flight. -/
def execSubmit (p : PartId) (st : State) : Out := st.run fun m => m.onPanel (m.leadPanel p) (·.submit p)
/-- ABORT (R312): an ABORT ring entry cancels the waiting and ready pieces of a slot. -/
def execAbort (p : PartId) (st : State) : Out := st.run fun m => m.onPanel (m.leadPanel p) (·.abort p)
/-- RRESET (R309): A write of PAT_RESET.RRESET sets the head to the tail and clears RINGERR. -/
def execRreset (h : HostId) (p : PartId) (st : State) : Out := st.host fun m => m.hostReg h (bPAT p.val + 0x70) fun m => m.rreset p
/-- PATTERN_COMPLETE (R313): the last piece completes; the completion entry is written, DONE_NOTCH fires and the slot frees. -/
def execPatternComplete (p : PartId) (s : Fin 64) (st : State) : Out := st.run fun m => m.patternComplete p s
/-- COMPLETION_RING_ROOM (R313): A completion entry waiting on a full completion ring is written once room appears. -/
def execCompletionRingRoom (p : PartId) (st : State) : Out := st.run fun m => m.completionRoom p
/-- PAT_NFIRE (R319): A host write fires an external notch of the partition. -/
def execPatNfire (h : HostId) (p : PartId) (v : W64) (st : State) : Out := st.host fun m => m.hostReg h (bPAT p.val + 0x60) fun m => m.patNfire p v
/-- NOTCH_DELIVERY (R320): A fire reaches the lead engine and is delivered to binding seats and the binding entry, or counted. -/
def execNotchDelivery (k : Nat) (st : State) : Out := st.run fun m => m.notchDelivery k
/-- PIECE_COMPLETE (R316): A piece's completion reaches its home engine, which counts down its listed successors. -/
def execPieceComplete (k : Nat) (st : State) : Out := st.run fun m => m.pieceComplete k
/-- FANOUT_COMPLETE (R315): A fan-out piece whose count reaches 0 completes one stitch later. -/
def execFanoutComplete (k : Nat) (st : State) : Out := st.run fun m => m.fanoutComplete k
/-- COUNT_DOWN (R322): A count-down reaches a piece's state word, possibly from another panel, and may make the piece ready. -/
def execCountDown (k : Nat) (st : State) : Out := st.run fun m => m.countDownArrives k
/-- POOL_SPACE_FREE (R324): A ready piece waiting in memory enters the ready pool as space frees. -/
def execPoolSpaceFree (n : PanelId) (st : State) : Out := st.run fun m => m.onPanel n.val fun m => m.poolSpace n
/-- DISPATCH (R325): an engine dispatches the best ready piece to a free core, checks its caps and starts or restores it. -/
def execDispatch (c : CoreId) (st : State) : Out := st.run fun m => m.onPanel (panelOf c.val) fun m => m.dispatch c
/-- SEAT_DELIVERY_RESUME (R331): A delivery held because a seat count was full is applied after PWAIT takes a unit. -/
def execSeatDeliveryResume (k : Nat) (st : State) : Out := st.run fun m => m.seatResume k
/-- SWITCH_OUT (R334): A piece faulting into the fault queue is saved into a save slot and its core freed. -/
def execSwitchOut (c : CoreId) (st : State) : Out := st.run fun m => m.switchOut c
/-- SAVE_COMPLETE (R335): A switch-out save completes; a reply that already arrived makes the piece ready. -/
def execSaveComplete (k : Nat) (st : State) : Out := st.run fun m => m.saveComplete k

/-! ## Coherence -/

/-- GETS (R352): A home slice serves a read request from an L2. -/
def execGets (k : Nat) (e : Fin 4) (st : State) : Out := st.run fun m => m.cohGets k e
/-- GETX (R352): A home slice serves a read-for-ownership request. -/
def execGetx (k : Nat) (e : Fin 4) (st : State) : Out := st.run fun m => m.cohGetx k e
/-- UPG (R352): A home slice serves an S-to-M upgrade. -/
def execUpg (k : Nat) (e : Fin 4) (st : State) : Out := st.run fun m => m.cohUpg k e
/-- PUTM (R358): A home slice receives an offer of an M sub-block and accepts it. -/
def execPutm (k : Nat) (e : Fin 4) (st : State) : Out := st.run fun m => m.cohPutm k e
/-- PUTC (R358): A home slice receives an offer of a clean sub-block and accepts or declines it. -/
def execPutc (k : Nat) (e : Fin 4) (st : State) : Out := st.run fun m => m.cohPutc k e
/-- RD (R352): A home slice serves a non-caching read. -/
def execRd (a : Fin 17) (la : Nat) (e : Fin 4) (st : State) : Out := st.run fun m => m.cohRd a la e
/-- WR (R352): A home slice serves a non-caching write. -/
def execWr (a : Fin 17) (la : Nat) (off : Fin 128) (d : List Byte) (e : Fin 4) (st : State) : Out := st.run fun m => m.cohWr a la off d e
/-- DATA_S (R353): an L2 installs a shared grant and sends GACK. -/
def execDataS (k : Nat) (st : State) : Out := st.run fun m => m.cohDataS k
/-- DATA_E (R353): an L2 installs an exclusive grant and sends GACK. -/
def execDataE (k : Nat) (st : State) : Out := st.run fun m => m.cohDataE k
/-- DATA_M (R353): an L2 installs a modified grant and sends GACK. -/
def execDataM (k : Nat) (st : State) : Out := st.run fun m => m.cohDataM k
/-- GRANT (R353): an L2 receives an upgrade grant and moves to M. -/
def execGrant (k : Nat) (st : State) : Out := st.run fun m => m.cohGrant k
/-- NAK (R355): A requester receives NAK and schedules its retry. -/
def execNak (k : Nat) (st : State) : Out := st.run fun m => m.cohNak k
/-- NAK_RETRY (R355): after 8 × AGE st a NAKed request is sent again, marked STARVE after its fourth NAK. -/
def execNakRetry (c : Fin 273) (la : Nat) (st : State) : Out := st.run fun m => m.nakRetry c la
/-- PUTACK (R357): an L2 frees the writeback-buffer entry of an accepted offer. -/
def execPutack (k : Nat) (st : State) : Out := st.run fun m => m.cohPutack k
/-- PUTDEC (R357): an L2 frees the writeback-buffer entry of a declined offer. -/
def execPutdec (k : Nat) (st : State) : Out := st.run fun m => m.cohPutdec k
/-- INV (R353): an L2 invalidates a shared sub-block and acknowledges. -/
def execInv (k : Nat) (e : Fin 4) (st : State) : Out := st.judged fun m => m.cohInv k e
/-- RECALL (R353): an L2 invalidates a sub-block, returning data if it is M. -/
def execRecall (k : Nat) (e : Fin 4) (st : State) : Out := st.judged fun m => m.cohRecall k e
/-- FWDS (R353): an owner supplies data and keeps the line in S. -/
def execFwds (k : Nat) (e : Fin 4) (st : State) : Out := st.judged fun m => m.cohFwds k e
/-- FWDX (R353): an owner supplies data and goes to I. -/
def execFwdx (k : Nat) (e : Fin 4) (st : State) : Out := st.judged fun m => m.cohFwdx k e
/-- FWDR (R353): an owner supplies data for a non-caching read and keeps the line in E. -/
def execFwdr (k : Nat) (e : Fin 4) (st : State) : Out := st.judged fun m => m.cohFwdr k e
/-- ACK (R352): A home slice receives an acknowledgement toward a pending transaction. -/
def execAck (k : Nat) (e : Fin 4) (st : State) : Out := st.run fun m => m.cohAck k e
/-- ACKD (R352): A home slice receives an acknowledgement with data. -/
def execAckd (k : Nat) (e : Fin 4) (st : State) : Out := st.run fun m => m.cohAckd k e
/-- GACK (R352): A home slice receives the grant acknowledgement and ends the transaction. -/
def execGack (k : Nat) (st : State) : Out := st.run fun m => m.cohGack k
/-- OFFER_BUFFER_FREE (R357): A ninth eviction offer waiting for the writeback buffer is sent once an entry frees. -/
def execOfferBufferFree (c : Fin 256) (st : State) : Out := st.run fun m => m.offerFree c

/-! ## Shuttles -/

/-- COPY (R372): A shuttle starts a COPY descriptor after its checks. -/
def execCopy (s : ShuttleId) (st : State) : Out := st.run fun m => m.onPanel (s.val / 2) fun m => m.shtCopy s
/-- STRIDE (R372): A shuttle starts a STRIDE descriptor after its checks. -/
def execStride (s : ShuttleId) (st : State) : Out := st.run fun m => m.onPanel (s.val / 2) fun m => m.shtStride s
/-- GATHER (R372): A shuttle starts a GATHER descriptor after reading its index list and checks. -/
def execGather (s : ShuttleId) (st : State) : Out := st.run fun m => m.onPanel (s.val / 2) fun m => m.shtGather s
/-- SCATTER (R372): A shuttle starts a SCATTER descriptor after reading its index list and checks. -/
def execScatter (s : ShuttleId) (st : State) : Out := st.run fun m => m.onPanel (s.val / 2) fun m => m.shtScatter s
/-- FILL (R372): A shuttle starts a FILL descriptor after its checks. -/
def execFill (s : ShuttleId) (st : State) : Out := st.run fun m => m.onPanel (s.val / 2) fun m => m.shtFill s
/-- REDADD (R372): A shuttle starts a reduce-add descriptor into spool memory after its checks. -/
def execRedadd (s : ShuttleId) (st : State) : Out := st.run fun m => m.onPanel (s.val / 2) fun m => m.shtRedadd s
/-- SHUTTLE_DESCRIPTOR_DONE (R378): every byte of a descriptor is visible; DONE_NOTCH fires. -/
def execShuttleDescriptorDone (s : ShuttleErrs) (k : Nat) (d : List Byte) (st : State) : Out :=
  st.judged fun m => m.onPanel (s.1.val / 2) fun m => m.shtDone s.1 k d s.2
/-- SHUTTLE_DESCRIPTOR_FAIL (R376): A running descriptor ends with a late status; ERR_NOTCH fires and SHT_PERR records it. -/
def execShuttleDescriptorFail (s : ShuttleId) (k : Nat) (hostErr : Bool) (st : State) : Out :=
  st.run fun m => m.onPanel (s.val / 2) fun m => m.shtFailed s k hostErr

/-! ## Spools -/

/-- SPOOL_ADMISSION (R396): A spool request is admitted, charged or borrowed, by the regulators. -/
def execSpoolAdmission (s : SpoolId) (k : Nat) (st : State) : Out := st.run fun m => m.spoolAdmission s k
/-- CHANNEL_READ (R389): A channel reads a burst and decodes it, correcting, erasing a pin or poisoning it. -/
def execChannelRead (s : SpoolId) (k : Nat) (bad : List (Fin 72)) (st : State) : Out := st.run fun m => m.channelRead s k bad
/-- CHANNEL_WRITE (R390): A channel writes a burst, merging partial writes. -/
def execChannelWrite (s : SpoolId) (k : Nat) (st : State) : Out := st.run fun m => m.channelWrite s k
/-- ROW_CLOSE (R386): A bank closes a row after 256 channel clocks without access. -/
def execRowClose (s : SpoolId) (c : BitVec 8) (b : Fin 16) (st : State) : Out := st.run fun m => m.rowClose s c b
/-- REFRESH (R392): A channel refreshes all its banks once in each tREFI. -/
def execRefresh (s : SpoolId) (c : BitVec 8) (st : State) : Out := st.run fun m => m.refresh s c
/-- REFRESH_TEMP_SAMPLE (R392): every 65,536 channel clocks the refresh engine samples the spool temperature and changes step or HOT. -/
def execRefreshTempSample (s : SpoolId) (raw : BitVec 16) (st : State) : Out := st.wide fun m => m.tempSample s raw
/-- PATROL_SCRUB (R391): the patrol scrubber reads the next burst, writing back a correction or marking poison. -/
def execPatrolScrub (s : SpoolId) (c : BitVec 8) (bad : List (Fin 72)) (st : State) : Out := st.run fun m => m.patrolScrub s c bad
/-- SPOOL_ADD (R401): an add reaches the channel adder; it opens a unit or is applied to an open unit. -/
def execSpoolAdd (k : Nat) (bad : List (Fin 72)) (st : State) : Out := st.run fun m => m.spoolAdd k bad
/-- ADDER_UNIT_CLOSE (R401): an adder unit closes after 256 idle channel clocks or on eviction, and its burst is written. -/
def execAdderUnitClose (s : SpoolId) (c : BitVec 8) (i : Fin 4) (st : State) : Out := st.run fun m => m.adderClose s c i
/-- SPL_MONSEL_START (R405): A write of START begins a monitor count on a spool lane, ending any count in progress. -/
def execSplMonselStart (h : HostId) (s : SpoolId) (v : W64) (st : State) : Out :=
  st.host fun m => m.hostReg h (bSPL s.val + 0x28) fun m => m.monselWrite s v
/-- SPOOL_MONITOR_DONE (R405): A spool monitor count completes and DONE sets. -/
def execSpoolMonitorDone (s : SpoolId) (diffs : W32) (st : State) : Out := st.run fun m => m.monitorDone s diffs
/-- TRAINING_PAIR (R577): A channel falls due for a training pair, which waits for calibration tokens or is dropped. -/
def execTrainingPair (s : SpoolId) (c : BitVec 8) (st : State) : Out := st.run fun m => m.trainingPair s c
/-- TRACK_ROUND (R574): A round of four monitor windows completes and the lane track moves one step. -/
def execTrackRound (x : TrackLane) (d0 : W32) (d1 : W32) (d2 : W32) (d3 : W32) (st : State) : Out :=
  st.run fun m => m.trackRound x fun i => ([d0, d1, d2, d3].getD i.val 0).toNat

/-! ## Translation -/

/-- WALK (R417): A TLB miss walks the page tables and installs a leaf or fails with a cause. -/
def execWalk (c : CoreId) (st : State) : Out := st.run fun m => m.walkCore c
/-- FAULT_ARRIVAL (R428): A failed walk reaches the queue unit and is coalesced, posted or parked. -/
def execFaultArrival (k : Nat) (st : State) : Out := st.run fun m => m.faultArrival k
/-- FLQ_REPLY (R431): A write of FLQ_REPLY frees a slot and releases its waiters to retry or refuse, or is ignored. -/
def execFlqReply (h : HostId) (p : PartId) (v : W64) (st : State) : Out :=
  st.host fun m => m.hostReg h (bXLT p.val + 0x98) fun m => m.flqReply p.val v
/-- WAITERS_RELEASED (R423): 24 st after an accepted reply, the waiters of the slot walk again or fail. -/
def execWaitersReleased (k : Nat) (st : State) : Out := st.run fun m => m.waitersReleased k
/-- XLT_INV (R421): A host write starts a TLB shoot-down of the partition. -/
def execXltInv (h : HostId) (p : PartId) (v : W64) (st : State) : Out :=
  st.host fun m => m.hostReg h (bXLT p.val + 0x08) fun m => m.shootStart p.val none v
/-- COR_XLTINV (R421): A write by a piece starts a TLB shoot-down of the partition. -/
def execCorXltinv (c : CoreId) (v : W64) (st : State) : Out := st.run fun m => m.corShoot c v
/-- SHOOT_DOWN_COMPLETE (R421): every matching TLB entry is dropped and every access using it has completed; BUSY clears. -/
def execShootDownComplete (k : Nat) (st : State) : Out := st.run fun m => m.shootComplete k

/-! ## Links -/

/-- SIGNAL_DETECTED (R442): A link in DETECT finds the partner's signal and enters TRAIN. -/
def execSignalDetected (l : LinkId) (st : State) : Out := st.run fun m => m.signalDetected l
/-- TRAIN_CONVERGED (R442): equalisation converges and the link enters LOCK. -/
def execTrainConverged (l : LinkId) (st : State) : Out := st.run fun m => m.trainConverged l
/-- TRAIN_TIMEOUT (R444): TRAIN lasts 50 ms and the link fails with TRAINTO. -/
def execTrainTimeout (l : LinkId) (st : State) : Out := st.run fun m => m.trainTimeout l
/-- LOCK_ACHIEVED (R442): codeword alignment and FEC lock succeed and the link enters AUTH. -/
def execLockAchieved (l : LinkId) (st : State) : Out := st.run fun m => m.lockAchieved l
/-- LOCK_TIMEOUT (R444): LOCK lasts 1 ms and the link fails with LOCKTO. -/
def execLockTimeout (l : LinkId) (st : State) : Out := st.run fun m => m.lockTimeout l
/-- AUTH_TIMEOUT (R444): AUTH lasts 20 ms and the link fails with AUTHTO. -/
def execAuthTimeout (l : LinkId) (st : State) : Out := st.run fun m => m.authTimeout l
/-- FAILED_RETRY (R442): 1 ms after FAILED, the link returns to DETECT. -/
def execFailedRetry (l : LinkId) (st : State) : Out := st.run fun m => m.failedRetry l
/-- LINK_WATCHDOG (R444): no good flit arrives for WDOG µs while UP; the link fails with WDOG and hands over. -/
def execLinkWatchdog (l : LinkId) (st : State) : Out := st.run fun m => m.linkWatchdog l
/-- CREDIT_WATCHDOG (R456): A class waits without credits for CWDOG µs; STALL is set. -/
def execCreditWatchdog (l : LinkId) (cls : Fin 12) (st : State) : Out := st.run fun m => m.creditWatchdog l cls
/-- AUTH_HELLO (R460): the partner's HELLO control flit arrives and is checked for wiring, protocol and encryption. -/
def execAuthHello (l : LinkWire) (x : Hello) (st : State) : Out := st.run fun m => m.authHello l.1 l.2 x
/-- AUTH_KEYS (R460): the partner's encapsulation key and certificate chain arrive and the chain is checked. -/
def execAuthKeys (l : LinkWire) (key : List Byte) (chain : List Byte) (st : State) : Out := st.run fun m => m.authKeys l.1 l.2 key chain
/-- AUTH_ENCAPSULATION (R460): the partner's ML-KEM ciphertext arrives. -/
def execAuthEncapsulation (l : LinkWire) (d : List Byte) (st : State) : Out := st.run fun m => m.authEncap l.1 l.2 d
/-- AUTH_SIGNATURE (R461): the partner's signature arrives, is verified and the session keys are derived; the link enters HELD. -/
def execAuthSignature (l : LinkWire) (d : List Byte) (st : State) : Out := st.run fun m => m.authSignature l.1 l.2 d
/-- HANDOVER (R449): A HANDOVER control flit names a lost link; the partial message is discarded and the replay messages are resent. -/
def execHandover (l : LinkWire) (lost : LinkId) (last : Fin 4096) (st : State) : Out := st.run fun m => m.handover l.1 l.2 lost last
/-- MARK (R469): A MARK control flit separates flits arbitrated under old and new settings. -/
def execMark (l : LinkWire) (st : State) : Out := st.run fun m => m.markFlit l.1 l.2
/-- DATA_FLIT (R448): A DATA flit is received, checked, delivered in order or discarded with NAK; its acknowledgements and credits are taken. -/
def execDataFlit (l : LinkId) (fec : FecOut) (d : List Byte) (st : State) : Out := st.run fun m => m.dataFlit l fec d
/-- IDLE_FLIT (R446): an IDLE flit delivers acknowledgements and credit returns. -/
def execIdleFlit (l : LinkId) (fec : FecOut) (d : List Byte) (st : State) : Out := st.run fun m => m.idleFlit l fec d
/-- CODEWORD_SLOT (R455): in each codeword slot a link sends the next flit the round gives it, or IDLE. -/
def execCodewordSlot (l : LinkId) (st : State) : Out := st.run fun m => m.codewordSlot l
/-- REMOTE_READ (R464): A READ request passes or fails the window check and is served or refused. -/
def execRemoteRead (src : BitVec 18) (vc5 : Bool) (d : List Byte) (st : State) : Out := st.run fun m => m.remoteRead src vc5 d
/-- REMOTE_WRITE (R464): A WRITE request passes or fails the window check and is served or refused. -/
def execRemoteWrite (src : BitVec 18) (vc5 : Bool) (d : List Byte) (st : State) : Out := st.run fun m => m.remoteWrite src vc5 d
/-- REMOTE_ADD (R464): an ADD request passes or fails the window check and is served or refused. -/
def execRemoteAdd (src : BitVec 18) (vc5 : Bool) (d : List Byte) (st : State) : Out := st.run fun m => m.remoteAdd src vc5 d
/-- REMOTE_LINEADD (R464): A LINEADD request passes or fails the window check and is served or refused. -/
def execRemoteLineadd (src : BitVec 18) (vc5 : Bool) (d : List Byte) (st : State) : Out := st.run fun m => m.remoteLineAdd src vc5 d
/-- REMOTE_RESPONSE (R467): A response reaches its requester by tag, with data, or with a refusal handled under R425. -/
def execRemoteResponse (d : List Byte) (st : State) : Out := st.run fun m => m.remoteResponse d
/-- REARM (R442): A write of REARM moves a FENCED, FAILED or OFF link to OFF, then to DETECT if enabled. -/
def execRearm (h : HostId) (l : LinkId) (st : State) : Out := st.host fun m => m.hostReg h (bLink l.val + 0x08) fun m => m.linkRearm l
/-- RETRAIN (R442): A write of RETRAIN moves an UP link to FAILED. -/
def execRetrain (h : HostId) (l : LinkId) (st : State) : Out := st.host fun m => m.hostReg h (bLink l.val + 0x08) fun m => m.linkRetrain l

/-! ## Collectives -/

/-- CMQ_GPOST (R479): A host write adds N entries to a group's queue tail, or is ignored. -/
def execCmqGpost (h : HostId) (g : GroupId) (v : W64) (st : State) : Out := st.host fun m => m.fromHost h fun m => m.cmqGpost h g v
/-- COR_CMQPOST (R479): A piece's write adds N entries to a group's queue tail, or is ignored. -/
def execCorCmqpost (c : CoreId) (v : W64) (st : State) : Out := st.run fun m => m.corPost c v
/-- ALLREDUCE (R488): the engine takes an ALLREDUCE entry, checks it and starts it. -/
def execAllreduce (g : GroupId) (st : State) : Out := st.judged fun m => m.takeAllreduce g
/-- REDSCAT (R485): the engine takes a reduce-scatter entry, checks it and starts it. -/
def execRedscat (g : GroupId) (st : State) : Out := st.judged fun m => m.collTakeOp g.val 2
/-- ALLGATHER (R487): the engine takes an ALLGATHER entry, checks it and starts it. -/
def execAllgather (g : GroupId) (st : State) : Out := st.judged fun m => m.collTakeOp g.val 3
/-- BCAST (R489): the engine takes a broadcast entry, checks it and starts it. -/
def execBcast (g : GroupId) (st : State) : Out := st.judged fun m => m.collTakeOp g.val 4
/-- ALLTOALL (R501): the engine takes an ALLTOALL entry, checks it and sends grant tokens. -/
def execAlltoall (g : GroupId) (st : State) : Out := st.judged fun m => m.collTakeOp g.val 5
/-- BARRIER (R490): the engine takes a BARRIER entry and starts it. -/
def execBarrier (g : GroupId) (st : State) : Out := st.judged fun m => m.collTakeOp g.val 6
/-- COLL_DATA_CHUNK (R494): A collective DATA chunk arrives and is checked, combined or written, then forwarded; a token is returned. -/
def execCollDataChunk (d : List Byte) (st : State) : Out := st.judged fun m => m.collData d
/-- TOKEN_CHUNK (R496): A TOKEN chunk grants tokens or an all-to-all grant to a sender. -/
def execTokenChunk (d : List Byte) (st : State) : Out := st.judged fun m => m.collToken d
/-- TEAR_CHUNK (R503): A TEAR chunk tears operations of the group, halts the queue and is forwarded. -/
def execTearChunk (d : List Byte) (st : State) : Out := st.judged fun m => m.collTearChunk d
/-- END_CHUNK (R489): an END chunk of a broadcast or barrier is handled and forwarded. -/
def execEndChunk (d : List Byte) (st : State) : Out := st.judged fun m => m.collEnd d
/-- OPERATION_COMPLETE (R483): A collective completes at a member; STATUS is written, NOTCH fires and the head advances. -/
def execOperationComplete (g : GroupId) (st : State) : Out := st.judged fun m => m.collComplete g
/-- ENGINE_CONTEXT_FREE (R509): A group waiting for a context or receive buffer obtains one and starts. -/
def execEngineContextFree (g : GroupId) (st : State) : Out := st.judged fun m => m.collContext g
/-- STALL_WATCHDOG (R508): A running collective makes no progress for STALLWD µs; STALL is set and reported. -/
def execStallWatchdog (g : GroupId) (st : State) : Out := st.run fun m => m.collStall g
/-- CMQ_RESET (R506): A write of CMQ_gCTL.RESET tears, flushes and re-sequences the queue. -/
def execCmqReset (h : HostId) (g : GroupId) (v : W64) (st : State) : Out := st.host fun m => m.hostReg h (bQ g.val + 0x10) fun m => m.cmqReset g v

end Sys2Proof.Machine
end

