-- ==== Sys2Proof/Machine/ExecHost.lean ====
section
/-! DEFINITION. Hosts, mailboxes, boot and calibration: the meanings of their commands. -/

namespace Sys2Proof.Machine

/-! ## Hosts and mailboxes -/

/-- REGISTER_WRITE (R11): A write to a register that has no row of its own, under its access codes. -/
def execRegisterWrite (h : HostId) (vf : Option (Fin 8)) (off : BitVec 26) (size : Fin 9) (v : W64) (st : State) : Out :=
  st.host fun m => m.barWrite h vf off.toNat size.val v
/-- STAGE_ITEM_WRITE (R537): A host write to an STG or LCK field adds or replaces an item in its stage set. -/
def execStageItemWrite (h : HostId) (vf : Option (Fin 8)) (off : BitVec 26) (v : W64) (st : State) : Out :=
  st.host fun m => m.stageItemWrite h vf off.toNat v
/-- BAR2_ACCESS (R519): A PCIe request to BAR2 is served as a non-caching read or write of a granted range, or refused. -/
def execBar2Access (h : HostId) (vf : Option (Fin 8)) (x : BitVec 36) (n : Nat) (data : Option (List Byte)) (st : State) : Out :=
  st.host fun m => m.bar2Access h vf x.toNat n data
/-- PORT_LINK_DOWN (R515): A host port's link goes down; its mailbox and stage set reset. -/
def execPortLinkDown (h : HostId) (st : State) : Out := st.host fun m => m.portLinkDown h
/-- HOT_RESET (R515): A hot reset of a host port resets its mailbox and stage set. -/
def execHotReset (h : HostId) (st : State) : Out := st.host fun m => m.hotReset h
/-- PF_FLR (R515): A function-level reset of the PF resets the port's mailbox and stage set. -/
def execPfFlr (h : HostId) (st : State) : Out := st.host fun m => m.pfFlr h
/-- VF_FLR (R515): A function-level reset of a VF clears PRT_APBASE and PRT_IEN of its partition. -/
def execVfFlr (h : HostId) (v : Fin 8) (st : State) : Out := st.host fun m => m.vfFlr h v
/-- COMPLETION_TIMEOUT (R514): A DMA read of the module times out and its descriptor ends with SHT_HOSTERR. -/
def execCompletionTimeout (s : ShuttleId) (k : Nat) (st : State) : Out := st.run fun m => m.onPanel (s.val / 2) fun m => m.completionTimeout s k
/-- HELLO (R533): mailbox command that negotiates the mailbox version. -/
def execHello (st : State) : Out := st.run fun m => m.mbxHello
/-- INFO (R534): mailbox command that returns the device ID, the firmware version and the configuration state. -/
def execInfo (st : State) : Out := st.run fun m => m.mbxInfo
/-- HEALTH (R534): mailbox command that returns the fenced cores, spools and panels. -/
def execHealth (st : State) : Out := st.run fun m => m.mbxHealth
/-- TIME_SET (R534): mailbox command that sets the fitter's wall-clock time. -/
def execTimeSet (st : State) : Out := st.run fun m => m.mbxTimeSet
/-- TIME_GET (R534): mailbox command that returns the wall-clock time. -/
def execTimeGet (st : State) : Out := st.run fun m => m.mbxTimeGet
/-- CFG_REG (R542): mailbox command that applies one register value at once as a one-item set. -/
def execCfgReg (st : State) : Out := st.run fun m => m.mbxCfgReg
/-- PART_DEFINE (R522): mailbox command that stages a partition definition. -/
def execPartDefine (st : State) : Out := st.run fun m => m.mbxPartDefine
/-- PART_DESTROY (R523): mailbox command that stages the destruction of a partition. -/
def execPartDestroy (st : State) : Out := st.run fun m => m.mbxPartDestroy
/-- PART_ADOPT (R528): mailbox command that moves ownership of a partition, or stewardship, on a matching secret. -/
def execPartAdopt (st : State) : Out := st.run fun m => m.mbxPartAdopt
/-- STEWARD_KEY (R534): mailbox command that sets the stewardship digest. -/
def execStewardKey (st : State) : Out := st.run fun m => m.mbxStewardKey
/-- CFG_STAGE (R538): mailbox command that adds stage items to the issuer's set. -/
def execCfgStage (st : State) : Out := st.run fun m => m.mbxCfgStage
/-- CFG_CHECK (R539): mailbox command that checks the issuer's stage set without changing anything. -/
def execCfgCheck (st : State) : Out := st.run fun m => m.mbxCfgCheck
/-- CFG_APPLY (R540): mailbox command that checks the set, runs the drains and holds every unit for an apply. -/
def execCfgApply (st : State) : Out := st.run fun m => m.mbxCfgApply
/-- APPLY_SWITCH (R540): after the drains and the unit acknowledgements, the set is checked again and copied into force, APPLYGEN increments, events
are logged and the units are released. -/
def execApplySwitch (flashFails : Bool) (st : State) : Out := st.wide fun m => m.applySwitch flashFails
/-- CFG_DISCARD (R534): mailbox command that empties the issuer's stage set. -/
def execCfgDiscard (st : State) : Out := st.run fun m => m.mbxCfgDiscard
/-- GLOVE_GRANT (R534): mailbox command that writes a tagged glove into the partition's cap table. -/
def execGloveGrant (st : State) : Out := st.run fun m => m.mbxGloveGrant
/-- SNAPSHOT (R623): mailbox command that captures every event counter at one instant. -/
def execSnapshot (st : State) : Out := st.run fun m => m.mbxSnapshot
/-- ATTEST (R565): mailbox command that builds or reads a signed attestation report. -/
def execAttest (st : State) : Out := st.run fun m => m.mbxAttest
/-- FW_PUSH (R556): mailbox command that writes image bytes to the slot that did not boot, and verifies the image at LAST. -/
def execFwPush (flashFails : Bool) (unblown : BitVec 7) (st : State) : Out := st.wide fun m => m.mbxFwPush flashFails unblown
/-- MOD_RESET (R535): mailbox command that answers and then starts a module reset. -/
def execModReset (st : State) : Out := st.run fun m => m.mbxModReset
/-- PRT_RUN (R525): A write of PRT_CTL.RUN moves a partition from STOPPED to RUNNING. -/
def execPrtRun (h : HostId) (p : PartId) (st : State) : Out := st.host fun m => m.hostReg h (bPRT p.val + 0x08) fun m => m.prtRun p.val
/-- PRT_STOP (R525): A write of PRT_CTL.STOP stops the partition, raising PSTOP and releasing its faults and shuttle work. -/
def execPrtStop (h : HostId) (p : PartId) (st : State) : Out := st.host fun m => m.hostReg h (bPRT p.val + 0x08) fun m => m.prtStop p.val
/-- PRT_CRESET (R526): A write of CORE and GO resets a halted core or a core of a stopped partition. -/
def execPrtCreset (h : HostId) (p : PartId) (v : W64) (st : State) : Out :=
  st.host fun m => m.hostReg h (bPRT p.val + 0x10) fun m => m.prtCreset p.val v
/-- PRT_IARM (R546): A write re-arms the partition's vector, which is sent at once if an event is pending. -/
def execPrtIarm (h : HostId) (p : PartId) (v : W64) (st : State) : Out := st.host fun m => m.hostReg h (bPRT p.val + 0x28) fun m => m.prtIarm p.val v
/-- CAL_MIARM (R592): A write re-arms the port's vector 0 for module events. -/
def execCalMiarm (h : HostId) (v : W64) (st : State) : Out := st.host fun m => m.fromHost h fun m => m.calMiarm h v

/-! ## Boot -/

/-- BOOT_ROM_START (R552): after fitter reset the boot ROM verifies, chooses and copies an image, derives keys and jumps to it or enters recovery. -/
def execBootRomStart (copyA : Bool) (copyB : Bool) (unblown : BitVec 7) (st : State) : Out := st.wide fun m => m.bootRomStart copyA copyB unblown
/-- DOE_REQUEST (R566): A DOE request with a nonce returns the whole attestation report. -/
def execDoeRequest (h : HostId) (d : List Byte) (st : State) : Out := st.host fun m => m.doeRequest h d
/-- DOE_ABORT (R566): A DOE abort discards the response in progress. -/
def execDoeAbort (h : HostId) (st : State) : Out := st.host fun m => m.doeAbort h
/-- SPOOL_TRAINING (R612): the firmware starts spool training, waiting first if a spool is below 0 °C. -/
def execSpoolTraining (st : State) : Out := st.wide fun m => m.spoolTraining
/-- SPOOL_TRAINING_DONE (R586): spool training ends and spools that failed it are fenced. -/
def execSpoolTrainingDone (failed : BitVec 24) (st : State) : Out := st.run fun m => m.spoolTrainingDone failed
/-- SPOOL_ZEROING_DONE (R568): zeroing of every enabled spool ends and the boot apply follows. -/
def execSpoolZeroingDone (st : State) : Out := st.run fun m => m.spoolZeroingDone
/-- BOOT_APPLY (R543): the fitter stages the saved sets of both ports and applies them, or enters HELD. -/
def execBootApply (bad0 : Bool) (bad1 : Bool) (st : State) : Out := st.run fun m => m.bootApply bad0 bad1
/-- DIE_TO_DIE_LINK_FAILURE (R586): A die-to-die link fails and the higher-numbered panel is fenced. -/
def execDieToDieLinkFailure (a : PanelId) (b : PanelId) (st : State) : Out := st.run fun m => m.dieLinkFails a b

/-! ## Calibration -/

/-- CAL_LMSEL_START (R581): A write of START begins a link lane monitor count. -/
def execCalLmselStart (h : HostId) (v : W64) (st : State) : Out := st.host fun m => m.hostReg h (bCAL + 0x18) fun m => m.lmselWrite v
/-- LINK_MONITOR_DONE (R581): A link monitor count completes and DONE sets. -/
def execLinkMonitorDone (diffs : W32) (st : State) : Out := st.run fun m => m.lmonDone diffs
/-- CAL_VSEL (R594): A write captures the selected calibration values into CAL_VAL. -/
def execCalVsel (h : HostId) (v : W64) (st : State) : Out := st.host fun m => m.fromHost h fun m => m.calVsel h v

end Sys2Proof.Machine
end

