-- ==== Sys2Proof/Machine/ExecPower.lean ====
section
/-! DEFINITION. Power, sequencer, sideband, and the rows at the end of the table: the meanings of their commands. -/

namespace Sys2Proof.Machine

/-! ## Power and sideband -/

/-- CONVERTER_START (R612): the input rises to 34.00 V and the converter starts. -/
def execConverterStart (volts : BitVec 16) (st : State) : Out := st.edge fun m => m.converterStart volts
/-- CONVERTER_STOP (R597): the input falls below 28.00 V and every rail falls. -/
def execConverterStop (volts : BitVec 16) (st : State) : Out := st.edge fun m => m.converterStop volts
/-- ENABLE_HIGH (R612): the module enable input goes high with VSTBY good and the rail sequence starts. -/
def execEnableHigh (cool : Bool) (st : State) : Out := st.edge fun m => m.enableHigh cool
/-- ENABLE_LOW (R614): the module enable input goes low and every rail but VSTBY falls. -/
def execEnableLow (st : State) : Out := st.edge fun m => m.enableLow
/-- RAIL_GROUP_GOOD (R612): A rail group becomes good and the next group ramps, or the fitter is released. -/
def execRailGroupGood (st : State) : Out := st.edge fun m => m.railGroupGood
/-- RAIL_GOOD_TIMEOUT (R612): A rail group is not good within 2 ms and the sequencer enters FAULT. -/
def execRailGoodTimeout (r : Fin 16) (st : State) : Out := st.edge fun m => m.railGoodTimeout r
/-- RAIL_FAULT (R602): A rail overcurrent for 100 µs or an overvoltage removes the rails and enters FAULT. -/
def execRailFault (r : Fin 16) (st : State) : Out := st.edge fun m => m.railFault r
/-- THERMAL_TRIP (R607): A sensor group reads 115 °C or above; the rails are removed and the sequencer enters TRIP. -/
def execThermalTrip (t : Fin 29) (raw : BitVec 16) (st : State) : Out := st.edge fun m => m.thermalTrip t raw
/-- INPUT_CURRENT_LIMIT (R596): demand reaches the input current limit and the core rails sag; INLIM is set. -/
def execInputCurrentLimit (volts : BitVec 16) (amps : BitVec 16) (v0 : BitVec 16) (v1 : BitVec 16) (v2 : BitVec 16) (v3 : BitVec 16) (st : State) : Out :=
  st.edge fun m => m.inputLimit volts amps v0 v1 v2 v3
/-- RAIL_MOVE_STEP (R600): each µs a core rail moves 1.25 mV toward its target. -/
def execRailMoveStep (p : PanelId) (st : State) : Out := st.edge fun m => m.railMove p
/-- POWER_CAP_CHECK (R601): every 1 ms the fitter compares input power with the cap and lowers or raises the cap limit. -/
def execPowerCapCheck (watts : BitVec 16) (amps : BitVec 16) (st : State) : Out := st.edge fun m => m.capCheck watts amps
/-- THERMAL_STEP (R605): every 1 ms or 10 ms the fitter lowers or raises a core rail's thermal limit. -/
def execThermalStep (t : Fin 29) (raw : BitVec 16) (st : State) : Out := st.edge fun m => m.thermalStep t raw
/-- MODULE_RESET (R614): A module reset returns the fitter and every panel, cache and engine to reset and restarts at E + 6 ms. -/
def execModuleReset (st : State) : Out := st.edge fun m => m.dueReset
/-- MODRST (R614): A sideband write of SB_CTL.MODRST starts a module reset. -/
def execModrst (st : State) : Out := st.edge fun m => m.sbModrst
/-- DYNAMIC_ADDRESS_ASSIGN (R610): ENTDAA or SETDASA gives the I3C target its dynamic address. -/
def execDynamicAddressAssign (a : BitVec 7) (st : State) : Out := st.edge fun m => m.dynAddr a
/-- I3C_PRIVATE_WRITE (R610): A private write sets the word index and writes sideband words. -/
def execI3cPrivateWrite (d : List Byte) (st : State) : Out := st.edge fun m => m.i3cWrite d
/-- SB_POWER_READ (R611): A read of SB_POWER returns the values and resets the lowest core-rail voltage. -/
def execSbPowerRead (n : BitVec 6) (st : State) : Out := st.edge fun m => m.sbPowerRead n
/-- HEARTBEAT (R611): every 1 ms the fitter firmware increments SB_BEAT. -/
def execHeartbeat (st : State) : Out := st.edge fun m => m.heartbeat

/-! ## Rows added at the end -/

/-- REGULATOR_FILL (R396): every channel clock each regulator bucket of a spool gains A × SHARE, up to DEPTH × 16,000. -/
def execRegulatorFill (s : SpoolId) (r : Nat) (st : State) : Out := st.run fun m => m.regulatorFill s r
/-- PORT_LINK_UP (R512): A host port's PCIe link trains up to its generation and width and the port serves its function again. -/
def execPortLinkUp (h : HostId) (gen : Nat) (width : Nat) (st : State) : Out := st.host fun m => m.portLinkUp h gen width
/-- REFERENCE_CLOCK_RETURN (R77): A PCIe reference clock first runs or returns, and the stitch monitor and fitter timers start counting on it again.
-/
def execReferenceClockReturn (h : HostId) (st : State) : Out := st.host fun m => m.clockReturn h
/-- STANDBY_GOOD (R612): VSTBY becomes good after converter start; the sequencer enters STANDBY and the sideband serves its standby words. -/
def execStandbyGood (st : State) : Out := st.edge fun m => m.standbyGood
/-- COLD_WAIT_END (R615): every spool group reads 0 °C or above, so the delayed spool training starts and SB_SEQ leaves COLD. -/
def execColdWaitEnd (st : State) : Out := st.wide fun m => m.coldWaitEnd
/-- VECTOR_INSTRUCTION_DONE (R198): the last group of a started vector instruction is written at S + (G − 1) × t + D, freeing its lanes and station
and releasing waiting consumers. -/
def execVectorInstructionDone (c : CoreId) (s : Fin 8) (st : State) : Out := st.run fun m => rowVectorInstructionDone c s m

end Sys2Proof.Machine
end

