-- ==== Sys2Proof/Machine/ExecSeam.lean ====
section
/-! DEFINITION. Seams, stitch monitor and sag: the meanings of their commands. -/

namespace Sys2Proof.Machine

/-! ## Seams -/

/-- DATA_CHUNK (R38): A DATA chunk arrives at the seam endpoint. It is checked against its stream entry, then landed, forwarded, held waiting or
dropped. -/
def execDataChunk (l : LinkId) (d : List Byte) (st : State) : Out := st.run fun m => m.dataChunk l d
/-- TRIM_CHUNK (R38): A TRIM chunk arrives at the seam endpoint and is checked, landed or forwarded. -/
def execTrimChunk (l : LinkId) (d : List Byte) (st : State) : Out := st.run fun m => m.trimChunk l d
/-- CLOSE_CHUNK (R38): A CLOSE chunk arrives at the seam endpoint and is checked, landed or forwarded. -/
def execCloseChunk (l : LinkId) (d : List Byte) (st : State) : Out := st.run fun m => m.closeChunk l d
/-- WAITING_CHUNK_ADMIT (R42): A chunk that waited on the link for a free slot lands once slots are released. -/
def execWaitingChunkAdmit (n : StreamId) (st : State) : Out := st.run fun m => m.waitingAdmit n.val
/-- PASS_FORWARD (R39): A PASS entry emits the chunk cut-through on its egress link with STREAM rewritten. -/
def execPassForward (n : StreamId) (st : State) : Out := st.run fun m => m.passForward n.val
/-- PASS_LAST_BYTE (R39): at a PASS entry, the last byte of the chunk passes; CHECK and length are verified, and PASSBADCHK or TOOLONG is counted on
failure. -/
def execPassLastByte (n : StreamId) (st : State) : Out := st.run fun m => m.passLastByte n.val
/-- CHUNK_LANDED (R41): A chunk is held in full in every bolt of the landing group and its CHECK is verified. A bad CHECK or length drops it and may
fence the entry. -/
def execChunkLanded (n : StreamId) (st : State) : Out := st.run fun m => m.chunkLanded n.val
/-- HANDLE_AT_NEXT (R43): the landed chunk whose SEQ equals NEXT is acted on: its notch, COMMIT, a release, TRIM or CLOSE handling; then NEXT
advances. -/
def execHandleAtNext (n : StreamId) (st : State) : Out := st.run fun m => m.handleNext n.val
/-- SEM_SXREL (R44): A write of a count to SEM_SxREL releases slots in SEQ order, or sets SENDERR. -/
def execSemSxrel (h : HostId) (n : StreamId) (count : BitVec 9) (st : State) : Out :=
  st.host fun m => m.hostReg h (bSx n.val + 0x38) fun m => m.semSxrel n.val count.toNat
/-- SEND_DESCRIPTOR_POST (R48): A write of bytes 8-15 to SEM_SEND posts a send descriptor. The endpoint checks it, builds the chunk, assigns SEQ,
computes CHECK and queues copies for NEXT0 and NEXT1. -/
def execSendDescriptorPost (c : CoreId) (w : W64) (st : State) : Out := st.judged fun m => m.sendDescriptorPost c w
/-- SEND_QUEUE_ROOM (R49): A post that waited because every destination queue was full completes once a queue has room. -/
def execSendQueueRoom (c : CoreId) (st : State) : Out := st.judged fun m => m.sendQueueRoom c
/-- AUTO_FWD_SEND (R53): once the stage has sent the recorded number of LAST DATA chunks, the endpoint forwards the pending TRIM or CLOSE. -/
def execAutoFwdSend (n : StreamId) (st : State) : Out := st.run fun m => m.autoFwdSend n.val
/-- SEM_SXCTL_RUN (R58): A write of RUN moves an entry from SHADOW to OPEN. -/
def execSemSxctlRun (h : HostId) (n : StreamId) (st : State) : Out := st.host fun m => m.hostReg h (bSx n.val + 0x24) fun m => m.semRun n.val
/-- SEM_SXCTL_FENCE (R58): A write of FENCE moves the entry to FENCED. -/
def execSemSxctlFence (h : HostId) (n : StreamId) (st : State) : Out := st.host fun m => m.hostReg h (bSx n.val + 0x24) fun m => m.semFence n.val
/-- SEM_SXCTL_DOWN0 (R56): A write of DOWN0 marks the twin at SRC0 down, so a waiting notch fires on the one copy. -/
def execSemSxctlDown0 (h : HostId) (n : StreamId) (st : State) : Out := st.host fun m => m.hostReg h (bSx n.val + 0x24) fun m => m.semDown0 n.val
/-- SEM_SXCTL_DOWN1 (R56): A write of DOWN1 marks the twin at SRC1 down, so a waiting notch fires on the one copy. -/
def execSemSxctlDown1 (h : HostId) (n : StreamId) (st : State) : Out := st.host fun m => m.hostReg h (bSx n.val + 0x24) fun m => m.semDown1 n.val
/-- SEM_SXMARK (R62): A write of a SEQ to SEM_SxMARK arms the mark. -/
def execSemSxmark (h : HostId) (n : StreamId) (seq : W32) (st : State) : Out :=
  st.host fun m => m.hostReg h (bSx n.val + 0x3C) fun m => m.semMark n.val seq.toNat

/-! ## Stitch monitor and sag -/

/-- STITCH_MONITOR_WINDOW (R77): A window of 4,096 reference-clock cycles completes; COUNT and WINDOWS update and the next window starts. -/
def execStitchMonitorWindow (p : PanelId) (count : BitVec 20) (st : State) : Out := st.host fun m => m.stitchWindow p count
/-- MONITOR_CLOCK_LOSS (R77): the counted reference clock stops; the window in progress is discarded and VALID clears. -/
def execMonitorClockLoss (h : HostId) (st : State) : Out := st.host fun m => m.clockLoss h
/-- CORE_RAIL_COLLAPSE (R79): the core rail falls below about 0.55 V and the clockless logic stops. -/
def execCoreRailCollapse (p : PanelId) (v : BitVec 16) (st : State) : Out := st.edge fun m => m.railCollapse p v

end Sys2Proof.Machine
end

