-- ==== Sys2Proof/Machine/Dispatch.lean ====
section
/-! DEFINITION. One arm per command. -/

namespace Sys2Proof.Machine

def exec (i : Instr) (s : State) : Host.Outcome State Fault Refusal :=
  match i with
  | .dataChunk l d => Sys2Proof.Machine.execDataChunk l d s
  | .trimChunk l d => Sys2Proof.Machine.execTrimChunk l d s
  | .closeChunk l d => Sys2Proof.Machine.execCloseChunk l d s
  | .waitingChunkAdmit n => Sys2Proof.Machine.execWaitingChunkAdmit n s
  | .passForward n => Sys2Proof.Machine.execPassForward n s
  | .passLastByte n => Sys2Proof.Machine.execPassLastByte n s
  | .chunkLanded n => Sys2Proof.Machine.execChunkLanded n s
  | .handleAtNext n => Sys2Proof.Machine.execHandleAtNext n s
  | .semSxrel h n count => Sys2Proof.Machine.execSemSxrel h n count s
  | .sendDescriptorPost c w => Sys2Proof.Machine.execSendDescriptorPost c w s
  | .sendQueueRoom c => Sys2Proof.Machine.execSendQueueRoom c s
  | .autoFwdSend n => Sys2Proof.Machine.execAutoFwdSend n s
  | .semSxctlRun h n => Sys2Proof.Machine.execSemSxctlRun h n s
  | .semSxctlFence h n => Sys2Proof.Machine.execSemSxctlFence h n s
  | .semSxctlDown0 h n => Sys2Proof.Machine.execSemSxctlDown0 h n s
  | .semSxctlDown1 h n => Sys2Proof.Machine.execSemSxctlDown1 h n s
  | .semSxmark h n seq => Sys2Proof.Machine.execSemSxmark h n seq s
  | .stitchMonitorWindow p count => Sys2Proof.Machine.execStitchMonitorWindow p count s
  | .monitorClockLoss h => Sys2Proof.Machine.execMonitorClockLoss h s
  | .coreRailCollapse p v => Sys2Proof.Machine.execCoreRailCollapse p v s
  | .mcfg c f => Sys2Proof.Machine.execMcfg c f s
  | .mshape c f => Sys2Proof.Machine.execMshape c f s
  | .mtile c f => Sys2Proof.Machine.execMtile c f s
  | .mpre c f => Sys2Proof.Machine.execMpre c f s
  | .mwait c f => Sys2Proof.Machine.execMwait c f s
  | .mzero c f => Sys2Proof.Machine.execMzero c f s
  | .weightPortGrant c => Sys2Proof.Machine.execWeightPortGrant c s
  | .tileStart c p => Sys2Proof.Machine.execTileStart c p s
  | .tileRowsSummed c p => Sys2Proof.Machine.execTileRowsSummed c p s
  | .basteCheck c => Sys2Proof.Machine.execBasteCheck c s
  | .mupd c f => Sys2Proof.Machine.execMupd c f s
  | .fload c f => Sys2Proof.Machine.execFload c f s
  | .frun c f => Sys2Proof.Machine.execFrun c f s
  | .fwait c f => Sys2Proof.Machine.execFwait c f s
  | .finPassStart c => Sys2Proof.Machine.execFinPassStart c s
  | .finPassComplete c => Sys2Proof.Machine.execFinPassComplete c s
  | .vsetvl c f => Sys2Proof.Machine.execVsetvl c f s
  | .vgetvl c f => Sys2Proof.Machine.execVgetvl c f s
  | .vbcasts c f => Sys2Proof.Machine.execVbcasts c f s
  | .vput c f => Sys2Proof.Machine.execVput c f s
  | .vget c f => Sys2Proof.Machine.execVget c f s
  | .vmpop c f => Sys2Proof.Machine.execVmpop c f s
  | .vmfirst c f => Sys2Proof.Machine.execVmfirst c f s
  | .vmld c f => Sys2Proof.Machine.execVmld c f s
  | .vmst c f => Sys2Proof.Machine.execVmst c f s
  | .vld c f => Sys2Proof.Machine.execVld c f s
  | .vst c f => Sys2Proof.Machine.execVst c f s
  | .varith c f => Sys2Proof.Machine.execVarith c f s
  | .vfma c f => Sys2Proof.Machine.execVfma c f s
  | .vcmp c f => Sys2Proof.Machine.execVcmp c f s
  | .vmlog c f => Sys2Proof.Machine.execVmlog c f s
  | .vred c f => Sys2Proof.Machine.execVred c f s
  | .vcvt c f => Sys2Proof.Machine.execVcvt c f s
  | .vmov c f => Sys2Proof.Machine.execVmov c f s
  | .vbcast c f => Sys2Proof.Machine.execVbcast c f s
  | .vslideup c f => Sys2Proof.Machine.execVslideup c f s
  | .vslidedn c f => Sys2Proof.Machine.execVslidedn c f s
  | .vcompress c f => Sys2Proof.Machine.execVcompress c f s
  | .vectorStart c => Sys2Proof.Machine.execVectorStart c s
  | .nop c f => Sys2Proof.Machine.execNop c f s
  | .sync c f => Sys2Proof.Machine.execSync c f s
  | .syncI c f => Sys2Proof.Machine.execSyncI c f s
  | .eret c f => Sys2Proof.Machine.execEret c f s
  | .trap c f => Sys2Proof.Machine.execTrap c f s
  | .lit c f => Sys2Proof.Machine.execLit c f s
  | .lith c f => Sys2Proof.Machine.execLith c f s
  | .addi c f => Sys2Proof.Machine.execAddi c f s
  | .alu c f => Sys2Proof.Machine.execAlu c f s
  | .stk c f => Sys2Proof.Machine.execStk c f s
  | .ld c f => Sys2Proof.Machine.execLd c f s
  | .loadValueArrives c => Sys2Proof.Machine.execLoadValueArrives c s
  | .st c f => Sys2Proof.Machine.execSt c f s
  | .ldc c f => Sys2Proof.Machine.execLdc c f s
  | .stc c f => Sys2Proof.Machine.execStc c f s
  | .cmov c f => Sys2Proof.Machine.execCmov c f s
  | .cgetbase c f => Sys2Proof.Machine.execCgetbase c f s
  | .cgetlen c f => Sys2Proof.Machine.execCgetlen c f s
  | .cgetperm c f => Sys2Proof.Machine.execCgetperm c f s
  | .cgetotype c f => Sys2Proof.Machine.execCgetotype c f s
  | .cgettag c f => Sys2Proof.Machine.execCgettag c f s
  | .cbound c f => Sys2Proof.Machine.execCbound c f s
  | .cperm c f => Sys2Proof.Machine.execCperm c f s
  | .cseal c f => Sys2Proof.Machine.execCseal c f s
  | .cunseal c f => Sys2Proof.Machine.execCunseal c f s
  | .cclr c f => Sys2Proof.Machine.execCclr c f s
  | .ctest c f => Sys2Proof.Machine.execCtest c f s
  | .swapm c f => Sys2Proof.Machine.execSwapm c f s
  | .cas c f => Sys2Proof.Machine.execCas c f s
  | .xadd c f => Sys2Proof.Machine.execXadd c f s
  | .madd c f => Sys2Proof.Machine.execMadd c f s
  | .br c f => Sys2Proof.Machine.execBr c f s
  | .bz c f => Sys2Proof.Machine.execBz c f s
  | .bnz c f => Sys2Proof.Machine.execBnz c f s
  | .call c f => Sys2Proof.Machine.execCall c f s
  | .ret c f => Sys2Proof.Machine.execRet c f s
  | .jmpi c f => Sys2Proof.Machine.execJmpi c f s
  | .calli c f => Sys2Proof.Machine.execCalli c f s
  | .pend c f => Sys2Proof.Machine.execPend c f s
  | .pwait c f => Sys2Proof.Machine.execPwait c f s
  | .pfire c f => Sys2Proof.Machine.execPfire c f s
  | .pid c f => Sys2Proof.Machine.execPid c f s
  | .shpost c f => Sys2Proof.Machine.execShpost c f s
  | .shpostResume c f => Sys2Proof.Machine.execShpostResume c f s
  | .loop c f => Sys2Proof.Machine.execLoop c f s
  | .cust c n f => Sys2Proof.Machine.execCust c n f s
  | .stackSpill c => Sys2Proof.Machine.execStackSpill c s
  | .stackFill c => Sys2Proof.Machine.execStackFill c s
  | .returnSpill c => Sys2Proof.Machine.execReturnSpill c s
  | .returnFill c => Sys2Proof.Machine.execReturnFill c s
  | .storeBufferDrain c => Sys2Proof.Machine.execStoreBufferDrain c s
  | .exceptionEntry c w => Sys2Proof.Machine.execExceptionEntry c w s
  | .interruptEntry c => Sys2Proof.Machine.execInterruptEntry c s
  | .doubleFault c => Sys2Proof.Machine.execDoubleFault c s
  | .fitterExceptionEntry v => Sys2Proof.Machine.execFitterExceptionEntry v s
  | .corXint h c v => Sys2Proof.Machine.execCorXint h c v s
  | .submit p => Sys2Proof.Machine.execSubmit p s
  | .abort p => Sys2Proof.Machine.execAbort p s
  | .rreset h p => Sys2Proof.Machine.execRreset h p s
  | .patternComplete p y => Sys2Proof.Machine.execPatternComplete p y s
  | .completionRingRoom p => Sys2Proof.Machine.execCompletionRingRoom p s
  | .patNfire h p v => Sys2Proof.Machine.execPatNfire h p v s
  | .notchDelivery k => Sys2Proof.Machine.execNotchDelivery k s
  | .pieceComplete k => Sys2Proof.Machine.execPieceComplete k s
  | .fanoutComplete k => Sys2Proof.Machine.execFanoutComplete k s
  | .countDown k => Sys2Proof.Machine.execCountDown k s
  | .poolSpaceFree n => Sys2Proof.Machine.execPoolSpaceFree n s
  | .dispatch c => Sys2Proof.Machine.execDispatch c s
  | .seatDeliveryResume k => Sys2Proof.Machine.execSeatDeliveryResume k s
  | .switchOut c => Sys2Proof.Machine.execSwitchOut c s
  | .saveComplete k => Sys2Proof.Machine.execSaveComplete k s
  | .gets k e => Sys2Proof.Machine.execGets k e s
  | .getx k e => Sys2Proof.Machine.execGetx k e s
  | .upg k e => Sys2Proof.Machine.execUpg k e s
  | .putm k e => Sys2Proof.Machine.execPutm k e s
  | .putc k e => Sys2Proof.Machine.execPutc k e s
  | .rd a la e => Sys2Proof.Machine.execRd a la e s
  | .wr a la off d e => Sys2Proof.Machine.execWr a la off d e s
  | .dataS k => Sys2Proof.Machine.execDataS k s
  | .dataE k => Sys2Proof.Machine.execDataE k s
  | .dataM k => Sys2Proof.Machine.execDataM k s
  | .grant k => Sys2Proof.Machine.execGrant k s
  | .nak k => Sys2Proof.Machine.execNak k s
  | .nakRetry c la => Sys2Proof.Machine.execNakRetry c la s
  | .putack k => Sys2Proof.Machine.execPutack k s
  | .putdec k => Sys2Proof.Machine.execPutdec k s
  | .inv k e => Sys2Proof.Machine.execInv k e s
  | .recall k e => Sys2Proof.Machine.execRecall k e s
  | .fwds k e => Sys2Proof.Machine.execFwds k e s
  | .fwdx k e => Sys2Proof.Machine.execFwdx k e s
  | .fwdr k e => Sys2Proof.Machine.execFwdr k e s
  | .ack k e => Sys2Proof.Machine.execAck k e s
  | .ackd k e => Sys2Proof.Machine.execAckd k e s
  | .gack k => Sys2Proof.Machine.execGack k s
  | .offerBufferFree c => Sys2Proof.Machine.execOfferBufferFree c s
  | .copy y => Sys2Proof.Machine.execCopy y s
  | .stride y => Sys2Proof.Machine.execStride y s
  | .gather y => Sys2Proof.Machine.execGather y s
  | .scatter y => Sys2Proof.Machine.execScatter y s
  | .fill y => Sys2Proof.Machine.execFill y s
  | .redadd y => Sys2Proof.Machine.execRedadd y s
  | .shuttleDescriptorDone y k d => Sys2Proof.Machine.execShuttleDescriptorDone y k d s
  | .shuttleDescriptorFail y k hostErr => Sys2Proof.Machine.execShuttleDescriptorFail y k hostErr s
  | .spoolAdmission y k => Sys2Proof.Machine.execSpoolAdmission y k s
  | .channelRead y k bad => Sys2Proof.Machine.execChannelRead y k bad s
  | .channelWrite y k => Sys2Proof.Machine.execChannelWrite y k s
  | .rowClose y c b => Sys2Proof.Machine.execRowClose y c b s
  | .refresh y c => Sys2Proof.Machine.execRefresh y c s
  | .refreshTempSample y raw => Sys2Proof.Machine.execRefreshTempSample y raw s
  | .patrolScrub y c bad => Sys2Proof.Machine.execPatrolScrub y c bad s
  | .spoolAdd k bad => Sys2Proof.Machine.execSpoolAdd k bad s
  | .adderUnitClose y c z => Sys2Proof.Machine.execAdderUnitClose y c z s
  | .splMonselStart h y v => Sys2Proof.Machine.execSplMonselStart h y v s
  | .spoolMonitorDone y diffs => Sys2Proof.Machine.execSpoolMonitorDone y diffs s
  | .trainingPair y c => Sys2Proof.Machine.execTrainingPair y c s
  | .trackRound x d0 d1 d2 d3 => Sys2Proof.Machine.execTrackRound x d0 d1 d2 d3 s
  | .walk c => Sys2Proof.Machine.execWalk c s
  | .faultArrival k => Sys2Proof.Machine.execFaultArrival k s
  | .flqReply h p v => Sys2Proof.Machine.execFlqReply h p v s
  | .waitersReleased k => Sys2Proof.Machine.execWaitersReleased k s
  | .xltInv h p v => Sys2Proof.Machine.execXltInv h p v s
  | .corXltinv c v => Sys2Proof.Machine.execCorXltinv c v s
  | .shootDownComplete k => Sys2Proof.Machine.execShootDownComplete k s
  | .signalDetected l => Sys2Proof.Machine.execSignalDetected l s
  | .trainConverged l => Sys2Proof.Machine.execTrainConverged l s
  | .trainTimeout l => Sys2Proof.Machine.execTrainTimeout l s
  | .lockAchieved l => Sys2Proof.Machine.execLockAchieved l s
  | .lockTimeout l => Sys2Proof.Machine.execLockTimeout l s
  | .authTimeout l => Sys2Proof.Machine.execAuthTimeout l s
  | .failedRetry l => Sys2Proof.Machine.execFailedRetry l s
  | .linkWatchdog l => Sys2Proof.Machine.execLinkWatchdog l s
  | .creditWatchdog l cls => Sys2Proof.Machine.execCreditWatchdog l cls s
  | .authHello l x => Sys2Proof.Machine.execAuthHello l x s
  | .authKeys l key chain => Sys2Proof.Machine.execAuthKeys l key chain s
  | .authEncapsulation l d => Sys2Proof.Machine.execAuthEncapsulation l d s
  | .authSignature l d => Sys2Proof.Machine.execAuthSignature l d s
  | .handover l lost last => Sys2Proof.Machine.execHandover l lost last s
  | .mark l => Sys2Proof.Machine.execMark l s
  | .dataFlit l fec d => Sys2Proof.Machine.execDataFlit l fec d s
  | .idleFlit l fec d => Sys2Proof.Machine.execIdleFlit l fec d s
  | .codewordSlot l => Sys2Proof.Machine.execCodewordSlot l s
  | .remoteRead src vc5 d => Sys2Proof.Machine.execRemoteRead src vc5 d s
  | .remoteWrite src vc5 d => Sys2Proof.Machine.execRemoteWrite src vc5 d s
  | .remoteAdd src vc5 d => Sys2Proof.Machine.execRemoteAdd src vc5 d s
  | .remoteLineadd src vc5 d => Sys2Proof.Machine.execRemoteLineadd src vc5 d s
  | .remoteResponse d => Sys2Proof.Machine.execRemoteResponse d s
  | .rearm h l => Sys2Proof.Machine.execRearm h l s
  | .retrain h l => Sys2Proof.Machine.execRetrain h l s
  | .cmqGpost h g v => Sys2Proof.Machine.execCmqGpost h g v s
  | .corCmqpost c v => Sys2Proof.Machine.execCorCmqpost c v s
  | .allreduce g => Sys2Proof.Machine.execAllreduce g s
  | .redscat g => Sys2Proof.Machine.execRedscat g s
  | .allgather g => Sys2Proof.Machine.execAllgather g s
  | .bcast g => Sys2Proof.Machine.execBcast g s
  | .alltoall g => Sys2Proof.Machine.execAlltoall g s
  | .barrier g => Sys2Proof.Machine.execBarrier g s
  | .collDataChunk d => Sys2Proof.Machine.execCollDataChunk d s
  | .tokenChunk d => Sys2Proof.Machine.execTokenChunk d s
  | .tearChunk d => Sys2Proof.Machine.execTearChunk d s
  | .endChunk d => Sys2Proof.Machine.execEndChunk d s
  | .operationComplete g => Sys2Proof.Machine.execOperationComplete g s
  | .engineContextFree g => Sys2Proof.Machine.execEngineContextFree g s
  | .stallWatchdog g => Sys2Proof.Machine.execStallWatchdog g s
  | .cmqReset h g v => Sys2Proof.Machine.execCmqReset h g v s
  | .registerWrite h vf off size v => Sys2Proof.Machine.execRegisterWrite h vf off size v s
  | .stageItemWrite h vf off v => Sys2Proof.Machine.execStageItemWrite h vf off v s
  | .bar2Access h vf x n data => Sys2Proof.Machine.execBar2Access h vf x n data s
  | .portLinkDown h => Sys2Proof.Machine.execPortLinkDown h s
  | .hotReset h => Sys2Proof.Machine.execHotReset h s
  | .pfFlr h => Sys2Proof.Machine.execPfFlr h s
  | .vfFlr h v => Sys2Proof.Machine.execVfFlr h v s
  | .completionTimeout y k => Sys2Proof.Machine.execCompletionTimeout y k s
  | .hello => Sys2Proof.Machine.execHello s
  | .info => Sys2Proof.Machine.execInfo s
  | .health => Sys2Proof.Machine.execHealth s
  | .timeSet => Sys2Proof.Machine.execTimeSet s
  | .timeGet => Sys2Proof.Machine.execTimeGet s
  | .cfgReg => Sys2Proof.Machine.execCfgReg s
  | .partDefine => Sys2Proof.Machine.execPartDefine s
  | .partDestroy => Sys2Proof.Machine.execPartDestroy s
  | .partAdopt => Sys2Proof.Machine.execPartAdopt s
  | .stewardKey => Sys2Proof.Machine.execStewardKey s
  | .cfgStage => Sys2Proof.Machine.execCfgStage s
  | .cfgCheck => Sys2Proof.Machine.execCfgCheck s
  | .cfgApply => Sys2Proof.Machine.execCfgApply s
  | .applySwitch flashFails => Sys2Proof.Machine.execApplySwitch flashFails s
  | .cfgDiscard => Sys2Proof.Machine.execCfgDiscard s
  | .gloveGrant => Sys2Proof.Machine.execGloveGrant s
  | .snapshot => Sys2Proof.Machine.execSnapshot s
  | .attest => Sys2Proof.Machine.execAttest s
  | .fwPush flashFails unblown => Sys2Proof.Machine.execFwPush flashFails unblown s
  | .modReset => Sys2Proof.Machine.execModReset s
  | .prtRun h p => Sys2Proof.Machine.execPrtRun h p s
  | .prtStop h p => Sys2Proof.Machine.execPrtStop h p s
  | .prtCreset h p v => Sys2Proof.Machine.execPrtCreset h p v s
  | .prtIarm h p v => Sys2Proof.Machine.execPrtIarm h p v s
  | .calMiarm h v => Sys2Proof.Machine.execCalMiarm h v s
  | .bootRomStart copyA copyB unblown => Sys2Proof.Machine.execBootRomStart copyA copyB unblown s
  | .doeRequest h d => Sys2Proof.Machine.execDoeRequest h d s
  | .doeAbort h => Sys2Proof.Machine.execDoeAbort h s
  | .spoolTraining => Sys2Proof.Machine.execSpoolTraining s
  | .spoolTrainingDone failed => Sys2Proof.Machine.execSpoolTrainingDone failed s
  | .spoolZeroingDone => Sys2Proof.Machine.execSpoolZeroingDone s
  | .bootApply bad0 bad1 => Sys2Proof.Machine.execBootApply bad0 bad1 s
  | .dieToDieLinkFailure a b => Sys2Proof.Machine.execDieToDieLinkFailure a b s
  | .calLmselStart h v => Sys2Proof.Machine.execCalLmselStart h v s
  | .linkMonitorDone diffs => Sys2Proof.Machine.execLinkMonitorDone diffs s
  | .calVsel h v => Sys2Proof.Machine.execCalVsel h v s
  | .converterStart volts => Sys2Proof.Machine.execConverterStart volts s
  | .converterStop volts => Sys2Proof.Machine.execConverterStop volts s
  | .enableHigh cool => Sys2Proof.Machine.execEnableHigh cool s
  | .enableLow => Sys2Proof.Machine.execEnableLow s
  | .railGroupGood => Sys2Proof.Machine.execRailGroupGood s
  | .railGoodTimeout r => Sys2Proof.Machine.execRailGoodTimeout r s
  | .railFault r => Sys2Proof.Machine.execRailFault r s
  | .thermalTrip t raw => Sys2Proof.Machine.execThermalTrip t raw s
  | .inputCurrentLimit volts amps v0 v1 v2 v3 => Sys2Proof.Machine.execInputCurrentLimit volts amps v0 v1 v2 v3 s
  | .railMoveStep p => Sys2Proof.Machine.execRailMoveStep p s
  | .powerCapCheck watts amps => Sys2Proof.Machine.execPowerCapCheck watts amps s
  | .thermalStep t raw => Sys2Proof.Machine.execThermalStep t raw s
  | .moduleReset => Sys2Proof.Machine.execModuleReset s
  | .modrst => Sys2Proof.Machine.execModrst s
  | .dynamicAddressAssign a => Sys2Proof.Machine.execDynamicAddressAssign a s
  | .i3cPrivateWrite d => Sys2Proof.Machine.execI3cPrivateWrite d s
  | .sbPowerRead n => Sys2Proof.Machine.execSbPowerRead n s
  | .heartbeat => Sys2Proof.Machine.execHeartbeat s
  | .regulatorFill y r => Sys2Proof.Machine.execRegulatorFill y r s
  | .portLinkUp h gen width => Sys2Proof.Machine.execPortLinkUp h gen width s
  | .referenceClockReturn h => Sys2Proof.Machine.execReferenceClockReturn h s
  | .standbyGood => Sys2Proof.Machine.execStandbyGood s
  | .coldWaitEnd => Sys2Proof.Machine.execColdWaitEnd s
  | .vectorInstructionDone c y => Sys2Proof.Machine.execVectorInstructionDone c y s

end Sys2Proof.Machine
end

