-- ==== Sys2Proof/Machine/Views.lean ====
section
/-! DEFINITION. What a host's read of BAR0 answers (R11, R12, R516 to R518): registers that are kept, and read-only fields that State gives otherwise.
A read changes nothing, and the table has no row for it. -/

namespace Sys2Proof.Machine

/-- Bits that read zero: write-only fields, and fields that act when a one is written; the two arm registers read their arm state. -/
def RegRow.hidden (r : RegRow) (arm : Bool) (w : W64) : W64 :=
  r.fields.foldl (fun w f => if f.acc = .wo ∨ (f.acc = .w1s ∧ !arm) then setFld w f.hi f.lo 0 else w) w
/-- A core is free for dispatch (R325): it holds no piece and is not halted. -/
def Mod.freeOn (m : Mod) (panel : Nat) : Nat :=
  ((upto 64).filter fun i =>
    let c := 64 * panel + i
    (m.core c).run == .free && !(m.core c).halted && !m.coreFenced c && (m.partOf c).isSome).length
/-- Occupied slots of a partition's fault queue. -/
def Mod.flqUsed (m : Mod) (p : Nat) : Nat := (m.xlt.slots.filter fun e => e.1 / 1024 == p).length
/-- Engines that wait in slots or are parked (R435), or are being released. -/
def Mod.flqWaiting (m : Mod) (p : Nat) : Nat :=
  ((m.xlt.slots.filter fun e => e.1 / 1024 == p).map fun e => e.2.waiters.length).sum + ((m.xlt.parked.filter (·.part == p)).map fun f => 1 + f.joined.length).sum +
    ((m.xlt.releases.filter (·.part == p)).map fun r => r.waiters.length).sum
/-- A register of a partition's page whose fields State gives: PRT_STAT, PRT_EVT, PRT_CORES, PAT_STAT, XLT_INV, FLQ_STAT, FLQ_WAIT. -/
def Mod.pageView (m : Mod) (p off : Nat) (w : W64) : W64 :=
  let q := m.part p
  if off = 0x0000 then w64 (q.cores.length * 2 ^ 16 + q.owner * 2 ^ 4 + (match q.st with | .free => 0 | .stopped => 1 | .running => 2))
  else if off = 0x0020 then w64 (m.prtEvt p)
  else if 0x0040 ≤ off ∧ off < 0x0060 then w64 ((q.cores.filter fun c => c / 64 == (off - 0x40) / 8).map fun c => 2 ^ (c % 64)).sum
  else if off = 0x1068 then setFld w 22 16 (m.inflight p)
  else if off = 0x2008 then w64 (b2n (m.shootBusy p none) * 2 ^ 63)
  else if off = 0x20A0 then setFld (setFld w 26 16 (m.flqUsed p)) 1 1 (b2n (m.xlt.parked.any (·.part == p)))
  else if off = 0x20A8 then w64 (m.flqWaiting p)
  else w
/-- The credit view of a link for the class that CLS names; a reserved class shows none. -/
def Mod.creditView (m : Mod) (l : Nat) (w : W64) : W64 :=
  let k := m.link l
  let c := fld w 51 48
  setFld (setFld w 41 32 (if c < 12 then Tab.get 0 k.credits c else 0)) 9 0 (if c < 12 then Tab.get 0 k.occ c else 0)
/-- What a read of the register at a BAR0 address answers. -/
def Mod.barView (m : Mod) (a : Nat) : W64 :=
  match barRow a with
  | none => 0
  | some r =>
    let x := a % portStride
    let w := r.hidden (x == 0x30108 || (bPRT 0 ≤ x && x < bPRT 16 && x % 0x10000 == 0x28)) (m.rd a)
    if bPWR + 0x100 ≤ x ∧ x < bPWR + 0x180 then setFld w 31 16 (m.railAmps ((x - bPWR - 0x100) / 8))
    else if x = bCAL then setFld w 44 32 (m.cal.pendSpl.length + m.cal.pendLnk.length)
    else if 0x40100 ≤ x ∧ x < 0x40120 then w64 (m.freeOn ((x - 0x40100) / 8) * 2 ^ 32 + (m.pool ((x - 0x40100) / 8)).length)
    else if 0x60000 ≤ x ∧ x < 0x60800 ∧ x % 0x100 = 0 then
      w64 ((m.sht ((x - 0x60000) / 0x100)).running.length * 2 ^ 8 + (m.sht ((x - 0x60000) / 0x100)).queue.length)
    else if x = bSPLMAP then setFld w 28 24 m.spoolN
    else if bPort 0 ≤ x ∧ x < bPort 6 ∧ x % 0x1000 = 0x20 then
      w64 (((upto 6).filter fun j => m.linkState (6 * ((x - bPort 0) / 0x1000) + j) == 6).map fun j => 2 ^ j).sum
    else if bPort 0 ≤ x ∧ x < bPort 6 ∧ 0x100 ≤ x % 0x1000 ∧ x % 0x40 = 0x18 then
      m.creditView ((x - bPort 0) / 0x1000 * 6 + (x % 0x1000 - 0x100) / 0x40) w
    else if bPRT 0 ≤ x ∧ x < bPRT 16 then m.pageView ((x - bPRT 0) / 0x10000) (x % 0x10000) w
    else if bSx 0 ≤ x ∧ x < bSx 4096 ∧ x % 0x80 = 0x48 then
      let n := (x - bSx 0) / 0x80
      w64 (m.semDepth n 1 * 2 ^ 24 + m.semDepth n 0 * 2 ^ 16 + m.slotsUsed n)
    else w
/-- Bytes that a function of port `h` reads at an offset of BAR0; none where the access is completed as Unsupported Request (R517). The page of a partition
that the host does not own, a seam entry of such a partition (R630), and reserved offsets, read 0; the page holds COR_EXC of the partition's cores (R518). -/
def Mod.barRead (m : Mod) (h : HostId) (vf : Option (Fin 8)) (off size : Nat) : Option (List Byte) :=
  if !(m.host h.val).linked ∨ !(size = 4 ∨ size = 8) ∨ off % size ≠ 0 then none
  else
    match m.barAddr h.val vf off with
    | none => if vf.isSome ∧ off < 0x10000 then some (List.replicate size 0#8) else none
    | some a =>
      let x := a % portStride
      let word (b : Nat) : W64 :=
        match barRow b with
        | some r => if r.width = 4 then m.barView b ||| (if (barRow (b + 4)).isSome then m.barView (b + 4) <<< 32 else 0) else m.barView b
        | none => match barRow (b + 4) with | some r => if r.width = 4 then m.barView (b + 4) <<< 32 else 0 | none => 0
      let bytes (w : W64) : List Byte := ((toLe 8 w.toNat).drop (x % 8)).take size
      if 0x1000 ≤ x ∧ x < 0x2000 then some (Memory.bytes (m.host h.val).req (x - 0x1000) size)
      else if 0x2000 ≤ x ∧ x < 0x3000 then some (Memory.bytes (m.host h.val).resp (x - 0x2000) size)
      else if bPRT 0 ≤ x ∧ x < bPRT 16 then
        let p := (x - bPRT 0) / 0x10000
        let o := x % 0x10000
        let c := (o - 0x4800) / 8
        if !m.owns h.val p then some (List.replicate size 0#8)
        else if 0x4800 ≤ o ∧ o < 0x5000 then some (bytes (if (m.part p).cores.contains c then (m.core c).creg 0 else 0))
        else some (bytes (word (x - x % 8)))
      else if bSx 0 ≤ x ∧ x < bSx 4096 ∧ !m.owns h.val (m.sxPart ((x - bSx 0) / 0x80)) then some (List.replicate size 0#8)
      else some (bytes (word (a - a % 8)))

end Sys2Proof.Machine
end

