-- ==== Sys2Proof/Safety.lean ====
section
/-! DEFINITION. What claims call a safe run, and the invariants of the machine. -/

namespace Sys2Proof.Machine

/-- A step that goes on: no fault, no refusal. -/
def goesOn (s : State) : Bool :=
  match step s with
  | .next _ => true
  | _ => false
/-- The sequencer and the fuses stand as the spec allows: a legal state of SB_SEQ (R611); rails of every group are good in BOOT, RUN and COLD, and of
none in STANDBY, FAULT and TRIP (R602, R607, R612); without VSTBY the sequencer shows 0; no more than 64 SVN bits are blown (R548). -/
def State.sound (s : State) : Prop :=
  let p := s.m.pwr
  p.seq ≤ 6 ∧ p.groups ≤ 6 ∧ (p.seq = 2 ∨ p.seq = 3 ∨ p.seq = 6 → p.groups = 6) ∧ (p.seq = 0 ∨ p.seq = 4 ∨ p.seq = 5 → p.groups = 0) ∧
    (p.seq = 1 → p.groups < 6) ∧ (p.standby = false → p.seq = 0) ∧ s.m.nv.svn ≤ 64

/-! ## What statements say of a command -/

/-- The command answers a next state: the queue is as it was, and `P` holds of the rest. -/
def completes (i : Instr) (s : State) (P : Mod → Prop) : Prop := ∃ t, exec i s = .next t ∧ t.pending = s.pending ∧ P t.m
/-- Core `c` stands ready at an instruction: power is good, the core may issue, the fetch passes its checks, no load is pending, no loop runs,
no refused posted write is to be reported, and no error waits in an array of the caches (R364). -/
def Mod.standsReady (m : Mod) (c : CoreId) : Prop :=
  m.powered = true ∧ m.canIssue c.val = true ∧ (m.fetch c.val).isOk = true ∧ (m.core c.val).bank.load = none ∧ (m.core c.val).bank.loop = none ∧
    (m.core c.val).refused = [] ∧ m.coh.upsets = []
/-- The operand stack's top, top first, lies in the cache with room for more above it, and none of it is poisoned. -/
def Mod.holdsOps (m : Mod) (c : CoreId) (top : List W64) (room : Nat) : Prop :=
  top.isPrefixOf (m.core c.val).bank.ops = true ∧ (m.core c.val).bank.ops.length + room ≤ 16 ∧ top.length ≤ (m.core c.val).bank.depth ∧
    (m.core c.val).poison = []
/-- The operand stack's top and the return stack's top, top first, both in their caches, with room for more return entries. -/
def Mod.holdsRets (m : Mod) (c : CoreId) (top : List W64) (room : Nat) : Prop :=
  top.isPrefixOf (m.core c).bank.rets = true ∧ (m.core c).bank.rets.length + room ≤ 32
/-- The module as the body of core `c`'s next instruction finds it: after its fetch. -/
def Mod.fetched (m : Mod) (c : CoreId) : Mod :=
  match m.fetch c with
  | .ok m1 => m1.updCore c Core.beginBody
  | .error _ => m
/-- What no command of a core's own pipeline touches unless it says so: other cores, memory with its tags and poison, the partitions, fuses, power
and sideband, and every BAR0 register but the event counters. -/
def Mod.apart (m t : Mod) (c : CoreId) : Prop :=
  (∀ d, d ≠ c.val → t.core d = m.core d) ∧ (∀ a, Memory.byte t.mem a = Memory.byte m.mem a) ∧ (∀ a, t.tagAt a = m.tagAt a) ∧
    t.poison = m.poison ∧ t.parts = m.parts ∧ t.nv = m.nv ∧ t.pwr = m.pwr ∧ ∀ a, a < bMON → t.rd a = m.rd a
/-- A vector unit without the notes by which a load that meets poison is undone (log 66): once a later instruction has issued they are dropped. -/
def VecUnit.plain (v : VecUnit) : VecUnit := { v with stations := v.stations.map fun s => { s with undo := none } }
/-- The core's own registers outside its active bank and its store buffer: control registers, bolt, vector registers, masks and stations,
accumulators, finishing engine, shadow bank, what pends. -/
def Core.keeps (k k' : Core) : Prop :=
  k'.ctl = k.ctl ∧ k'.ctlNew = k.ctlNew ∧ k'.bolt = k.bolt ∧ k'.vec.plain = k.vec.plain ∧ k'.mat = k.mat ∧ k'.fin = k.fin ∧ k'.shadow = k.shadow ∧
    k'.trap = k.trap ∧ k'.pend = k.pend ∧ k'.uc = k.uc
/-- The instruction did to the active bank of core `c` what `f` says, and nothing to the rest. -/
def Mod.went (m t : Mod) (c : CoreId) (f : Bank → Bank) : Prop :=
  (t.core c).bank = f (m.core c).bank ∧ (t.core c).sb = (m.core c).sb ∧ (m.core c).keeps (t.core c) ∧ m.apart t c
/-- The same for an instruction that puts entries into the store buffer. -/
def Mod.stored (m t : Mod) (c : CoreId) (f : Bank → Bank) (es : List SbEntry) : Prop :=
  (t.core c).bank = f (m.core c).bank ∧ (t.core c).sb = (m.core c).sb ++ es ∧ (m.core c).keeps (t.core c) ∧ m.apart t c
/-- What an access to memory may touch beside its own core: caches and their messages, but of another core nothing else, and no partition, no fuse
and no power. -/
def Mod.amid (m t : Mod) (c : CoreId) : Prop :=
  (∀ d, d ≠ c.val → { t.core d with mem := (m.core d).mem } = m.core d) ∧ t.parts = m.parts ∧ t.nv = m.nv ∧ t.pwr = m.pwr
/-- The instruction did to the active bank of core `c` what `f` says, appended `es` to its store buffer, and changed its other registers, and memory,
not at all. -/
def Mod.reached (m t : Mod) (c : CoreId) (f : Bank → Bank) (es : List SbEntry) : Prop :=
  (t.core c).bank = f (m.core c).bank ∧ (t.core c).sb = (m.core c).sb ++ es ∧ (m.core c).keeps (t.core c) ∧ m.amid t c ∧
    ∀ a, Memory.byte t.mem a = Memory.byte m.mem a
/-- Memory holds `bs` from `pa` on, and every other byte as before. -/
def Mod.wrote (m t : Mod) (pa : Nat) (bs : List Byte) : Prop :=
  ∀ a, Memory.byte t.mem a = if pa ≤ a ∧ a < pa + bs.length then bs.getD (a - pa) 0 else Memory.byte m.mem a
/-- The bank after an instruction that takes `n` entries from the operand stack, leaves others, top first, and goes on at the next word. -/
def Bank.took (b : Bank) (n : Nat) (new : List W64) : Bank :=
  { b with pc := b.pc + 4, ops := new ++ b.ops.drop n, depth := b.depth - n + new.length }
/-- The bank after an instruction that takes `n` entries and goes on elsewhere. -/
def Bank.wentTo (b : Bank) (n : Nat) (pc : W64) : Bank := { b with pc := pc, ops := b.ops.drop n, depth := b.depth - n }
/-- A command of core `c`'s units did to the active bank what `f` says, and changed neither store buffer, shadow bank, exceptions, microcode nor
anything outside the core but event counters; what it did to registers, queues and accumulators is said beside it. -/
def Mod.unit (m t : Mod) (c : CoreId) (f : Bank → Bank) : Prop :=
  let k := m.core c
  let q := t.core c
  q.bank = f k.bank ∧ q.sb = k.sb ∧ q.shadow = k.shadow ∧ q.trap = k.trap ∧ q.uc = k.uc ∧ q.ctlNew = k.ctlNew ∧ q.bolt = k.bolt ∧ m.apart t c
/-- A 48-bit count of core `c` has gone up by `n`. -/
def Mod.counted (m t : Mod) (c : CoreId) (reg n : Nat) : Prop := (t.core c).cregf reg 47 0 = ((m.core c).cregf reg 47 0 + n) % 2 ^ 48
/-- No fence comes of uncorrectable events of cores: the CUE policy is off (R586). -/
def Mod.noCue (m : Mod) : Prop := m.rdf (bCAL + 0x10) 39 32 = 0
/-- The rows that put a vector instruction without a memory access into a station, with the words they spell (R206 to R209, R144). -/
def stationRows (c : CoreId) (f : BitVec 26) : List (Instr × W32) :=
  [(.vbcasts c f, wordOf 0x20 (withSub f 2)), (.vput c f, wordOf 0x20 (withSub f 3)), (.varith c f, wordOf 0x23 f), (.vfma c f, wordOf 0x24 f),
   (.vcmp c f, wordOf 0x25 f), (.vmlog c f, wordOf 0x26 f), (.vred c f, wordOf 0x27 f), (.vcvt c f, wordOf 0x28 f),
   (.vmov c f, wordOf 0x29 (withSub f 0)), (.vbcast c f, wordOf 0x29 (withSub f 1)), (.vslideup c f, wordOf 0x29 (withSub f 2)),
   (.vslidedn c f, wordOf 0x29 (withSub f 3)), (.vcompress c f, wordOf 0x29 (withSub f 4)), (.mupd c f, wordOf 0x36 f)]
/-- No MZERO waits in a patch queue of a core. -/
def Core.noZeros (k : Core) : Prop := (k.mat.patches.all fun p => p.2.queue.all (·.zero.isNone)) = true
/-- The registers after the writes of an instruction. -/
def VRes.after (r : VRes) (regs : Tab Byte) : Tab Byte := r.writes.foldl (fun t p => Memory.setBytes t p.1 p.2) regs

/-- A 48-bit count of BAR0 has gone up by `n`. -/
def Mod.tallied (m t : Mod) (a n : Nat) : Prop := t.rdf a 47 0 = (m.rdf a 47 0 + n) % 2 ^ 48
/-- Host `h`'s write reaches the register at an address (R13, R517). -/
def Mod.reachedBy (m : Mod) (h : HostId) (a : Nat) : Prop := (m.host h.val).linked = true ∧ m.mayWrite h.val a 0 = true
/-- Only the seam endpoint's entries have changed. -/
def Mod.onlySem (m t : Mod) : Prop := { t with sem := m.sem } = m
/-- The queue of a link group. -/
def Mod.outQueue (m : Mod) (g : Nat) : List OutMsg := Tab.get [] m.lnk.groups g
/-- Entry `n` has one destination, on another module that a route with an UP link leads to, with room in its queue. -/
def Mod.oneWay (m : Mod) (n dest g dl : Nat) : Prop :=
  m.semDest n 0 = some dest ∧ m.semDest n 1 = none ∧ m.semDepth n 0 < 64 ∧ m.topo ≠ 0 ∧ m.devOk dest = true ∧ dest ≠ m.dev ∧
    m.route dest none = some (g, dl) ∧ (m.upLinks g).isEmpty = false
/-- A chunk of entry `n` has been put at the end of its destination's queue. -/
def Mod.sentChunk (m t : Mod) (n dest g dl : Nat) (d : List Byte) : Prop :=
  t.outQueue g = m.outQueue g ++ [{ msg := { dest := dest, src := m.dev, vc := 1, data := d }, dl := dl, seam := some (n, 0) }]

/-- Core `c` stops before its instruction has any effect: the vector stands and one register tells why; nothing else changes. -/
def Mod.raised (m t : Mod) (c : CoreId) (vec reg : Nat) (v : W64) : Prop :=
  (t.core c).trap = some vec ∧ (∀ a, (t.core c).creg a = if a = reg then v else (m.core c).creg a) ∧ (t.core c).bank = (m.core c).bank ∧
    (t.core c).sb = (m.core c).sb ∧ m.apart t c
/-- The value of COR_SERR for a cause, a major, a function and a code (R229). -/
def serrOf (cause major func code : Nat) : W64 := w64 (code * 2 ^ 48 + func * 2 ^ 16 + major * 2 ^ 8 + cause)
/-- The functions of ALU of two operands, a below b (R233, R234). -/
def aluOfTwo : List (Nat × (W64 → W64 → W64)) :=
  [(0x00, fun a b => a + b), (0x01, fun a b => a - b), (0x02, fun a b => a * b),
   (0x03, fun a b => ((a.signExtend 128 * b.signExtend 128) >>> 64).setWidth 64),
   (0x04, fun a b => ((a.setWidth 128 * b.setWidth 128) >>> 64).setWidth 64),
   (0x05, fun a b => if b = 0 then BitVec.allOnes 64 else a.sdiv b), (0x06, fun a b => if b = 0 then BitVec.allOnes 64 else a / b),
   (0x07, fun a b => if b = 0 then a else a.srem b), (0x08, fun a b => if b = 0 then a else a % b),
   (0x09, fun a b => a &&& b), (0x0A, fun a b => a ||| b), (0x0B, fun a b => a ^^^ b),
   (0x0E, fun a b => a <<< (b.toNat % 64)), (0x0F, fun a b => a >>> (b.toNat % 64)), (0x10, fun a b => a.sshiftRight (b.toNat % 64)),
   (0x14, fun a b => if a = b then 1 else 0), (0x15, fun a b => if a = b then 0 else 1), (0x16, fun a b => if a.slt b then 1 else 0),
   (0x17, fun a b => if a.ult b then 1 else 0), (0x18, fun a b => if b.slt a then 0 else 1), (0x19, fun a b => if b.ult a then 0 else 1),
   (0x1A, fun a b => if a.slt b then a else b), (0x1B, fun a b => if a.slt b then b else a), (0x1C, fun a b => if a.ult b then a else b),
   (0x1D, fun a b => if a.ult b then b else a)]
/-- The functions of ALU of one operand and SH (R233). -/
def aluOfOne : List (Nat × (Nat → W64 → W64)) :=
  [(0x11, fun sh a => a <<< sh), (0x12, fun sh a => a >>> sh), (0x13, fun sh a => a.sshiftRight sh),
   (0x1E, fun sh a => (a.setWidth (sh + 1)).signExtend 64), (0x1F, fun sh a => (a.setWidth (sh + 1)).setWidth 64)]
/-- The functions of STK on entries a below b below c, as (FUNC, entries taken, entries left), all top first (R235). -/
def stkOn (a b c : W64) : List (Nat × List W64 × List W64) :=
  [(0x00, [c], [c, c]), (0x01, [c], []), (0x02, [c, b], [b, c]), (0x03, [c, b], [b, c, b]), (0x04, [c, b, a], [a, c, b]), (0x05, [c, b], [c]),
   (0x06, [c, b], [c, b, c]), (0x08, [c, b], [c, b, c, b]), (0x09, [c, b], [])]

/-- The lead engine of a partition takes the next entry of its submission ring: the partition has an engine, whose panel is not fenced and has power, it is defined, no RINGERR
stands, no completion entry waits, and the ring holds an entry and is not overrun (R309, R313, R590). -/
def Mod.ringOpen (m : Mod) (p : PartId) : Prop :=
  m.leadUp p.val = true ∧ (m.part p.val).st ≠ .free ∧ m.rdf (bPAT p.val + 0x68) 0 0 = 0 ∧ (m.pat.compWait.any fun w => w.part == p.val) = false ∧ 0 < m.ringFill p.val ∧
    m.ringFill p.val ≤ m.ringLen p.val
/-- The place of the next completion entry of a partition (R313). -/
def Mod.compPlace (m : Mod) (p : Nat) : Nat := m.rdf (bPAT p + 0x08) 45 12 * 2 ^ 12 + 16 * (m.rdf (bPAT p + 0x50) 31 0 % m.ringLen p)
/-- A completion entry has been written at its place, CTAIL has moved on, and CDONE stands (R313). -/
def Mod.wroteEntry (m t : Mod) (p : Nat) (status slot failIdx cancelled : Nat) (tag : W64) : Prop :=
  t.rdMem (m.compPlace p) 16 = toLe 4 (failIdx % 2 ^ 16 * 2 ^ 16 + slot % 64 * 2 ^ 8 + status) ++ toLe 4 cancelled ++ toLe 8 tag.toNat ∧
    t.rdf (bPAT p + 0x50) 31 0 = (m.rdf (bPAT p + 0x50) 31 0 + 1) % 2 ^ 32 ∧ t.rdf (bPAT p + 0x68) 1 1 = 1 ∧ m.tallied t (bPAT p + 0x80 + 8) 1
/-- The ring of completion entries has room, and its next place lies in the partition's memory and can be written. -/
def Mod.compOpen (m : Mod) (p : Nat) : Prop := m.compFill p < m.ringLen p ∧ (m.part p).holds (m.compPlace p) 16 = true ∧ m.rangeFenced (m.compPlace p) 16 = false
/-- No line stands in two ways of an L2. -/
def CoreMem.distinct (k : CoreMem) : Prop := ∀ i j w v, Tab.get? k.l2 i = some w → Tab.get? k.l2 j = some v → w.key = v.key → i = j
/-- Message `k` in flight is a request of a kind, without STARVE, for a home whose panel works, at a line whose entry is not in B, for which none is queued,
and whose entry has a way or can take one (R351, R352); no error waits in an array of the caches. -/
def Mod.atHome (m : Mod) (k : Nat) (kind : CKind) (x : CMsg) : Prop :=
  m.panelUp (m.homePanel x.la) = true ∧ m.coh.upsets = [] ∧ m.coh.msgs[k]? = some x ∧ x.kind = kind ∧ x.starve = false ∧ x.prefetch = false ∧ m.busy x.la = false ∧ m.coh.starve = [] ∧ m.recallVictim x.la = none
/-- Message `k` is gone, and others are in flight behind the rest. -/
def Mod.sent (m t : Mod) (k : Nat) (xs : List CMsg) : Prop := t.coh.msgs = m.coh.msgs.eraseIdx k ++ xs
/-- A message of a local unit to a device finds its way: a route to another module whose group has an UP link (R450, R457, R632). -/
def Mod.wayTo (m : Mod) (dest g dl : Nat) : Prop :=
  m.topo ≠ 0 ∧ m.devOk dest = true ∧ dest ≠ m.dev ∧ m.route dest none = some (g, dl) ∧ (m.upLinks g).isEmpty = false
/-- Link `l` has gone into a state for a reason, which is counted as a failure or a fence, and no other link's state has changed (R444). -/
def Mod.linkFell (m t : Mod) (l : LinkId) (st reason : Nat) : Prop :=
  t.linkState l.val = st ∧ t.rdf (bLink l.val) 15 8 = reason ∧ t.rdf (bLink l.val + 0x10) (st - 7) (st - 7) = 1 ∧
    m.tallied t (bLink l.val + 0x20 + 8 * (st - 7)) 1 ∧ ∀ o : LinkId, o ≠ l → t.linkState o.val = m.linkState o.val
/-- A control message comes in CTRL flits whose codewords can be corrected and whose CRC is good. -/
def ctrlRead (w : CtrlWire) : Prop := w.fec.val ≤ 15 ∧ w.crc = true
/-- The header of a CTRL flit as it comes. -/
def ctrlHead (w : CtrlWire) : FlitHdr := readHdr (toLe 16 w.head.toNat)
/-- That header is one of a CTRL flit and sound (R446). -/
def ctrlSound (w : CtrlWire) : Prop := (ctrlHead w).kind = 2 ∧ (ctrlHead w).sound 616 = true
/-- Link `l` has gone into a state, and no other register of BAR0 has changed. -/
def Mod.linkWent (m t : Mod) (l : LinkId) (st : Nat) : Prop :=
  t.linkState l.val = st ∧ ∀ a, a ≠ bLink l.val → t.rd a = m.rd a

/-! ## What statements say of the mailboxes -/

/-- Command `c`, spelled by the bytes `d`, is the only request, comes in its turn, passes the checks of its header, and is its issuer's to give (R530, R531,
R636). -/
def Mod.asked (m : Mod) (c : Cmd) (d : List Byte) : Prop :=
  c.port < 2 ∧ m.powered = true ∧ m.serves = true ∧ m.fit.queue = [.mbx c.port c.seq d] ∧ m.rdf (bMBX c.port + 8) 47 32 = c.seq ∧
    m.readCmd c.port c.seq d = (c, none) ∧ m.mayIssue c = true
/-- The module with the request taken. -/
def Mod.taken (m : Mod) : Mod := { m with fit := { m.fit with queue := [] } }
/-- A response lies in a port's buffer, BUSY is clear, DONE set and counted, and vector 0 sent; beside that only MBX_CNT1 of the port may differ from
what the command left, `m`, and nothing of fuses and power is said. -/
def Mod.responded (m t : Mod) (h : Nat) (r : List Byte) : Prop :=
  let b := bMBX h
  (∀ i, i < r.length → Memory.byte (t.host h).resp i = r.getD i 0) ∧ t.rdf (b + 8) 1 0 = 1 ∧ m.tallied t (b + 0x40) 1 ∧
    (t.host h).out = (m.host h).out ++ [.msix 0] ∧ (∀ o, o ≠ h → t.host o = m.host o) ∧
    (∀ a, a ≠ b + 8 → a ≠ b + 0x40 → a ≠ b + 0x48 → t.rd a = m.rd a) ∧ t.fit = { m.fit with queue := [] } ∧
    { t with hosts := m.hosts, bar0 := m.bar0, fit := m.fit, nv := m.nv, pwr := m.pwr } = m
/-- The command that left `m` has been answered with a status and a payload: its response is stored, EXPSEQ has gone on, and a status other than OK is
counted. -/
def Mod.answered (m t : Mod) (c : Cmd) (status : Nat) (pay : List Byte) : Prop :=
  let r := respBytes c.seq c.code c.ver c.part status pay
  m.responded t c.port r ∧ (t.host c.port).stored = some r ∧ t.rdf (bMBX c.port + 8) 47 32 = (m.rdf (bMBX c.port + 8) 47 32 + 1) % 2 ^ 16 ∧
    (status % 2 ^ 16 ≠ 0 → m.tallied t (bMBX c.port + 0x48) 1)
/-- The row of a mailbox command of a code (R534). -/
def mailRow (code : Nat) (i : Instr) : Prop :=
  (code, i) ∈ [(0x01, Instr.hello), (0x02, .info), (0x03, .health), (0x04, .timeSet), (0x05, .timeGet), (0x06, .cfgReg), (0x10, .partDefine),
   (0x11, .partDestroy), (0x12, .partAdopt), (0x13, .stewardKey), (0x20, .cfgStage), (0x21, .cfgCheck), (0x22, .cfgApply), (0x23, .cfgDiscard),
   (0x30, .gloveGrant), (0x40, .snapshot), (0x50, .attest), (0x51, .fwPush false 0), (0x52, .modReset)]

end Sys2Proof.Machine
end

