-- ==== Sys2Proof/Certificates/Slice0/Obligations.lean ====
section
/-! DEFINITION. The statements about the module, each a proposition; OBLIGATIONS.json lists them. -/

open Sys2Proof Sys2Proof.Machine

/-- R230 (NOP), R231, R232: NOP does nothing; LIT pushes its immediate sign-extended; LITH with P = 0 and P = 1 replaces the upper bits of the top
entry; ADDI adds its immediate. Each goes on at the next word and changes nothing else. -/
def Obligations.LiteralsAndAddi : Prop :=
  ∀ (s : State) (c : CoreId) (f : BitVec 26), s.m.standsReady c →
    (fld f 25 6 = 0 → completes (.nop c f) s fun t => s.m.went t c (·.took 0 [])) ∧
    (fld f 25 24 = 0 → s.m.holdsOps c [] 1 → completes (.lit c f) s fun t => s.m.went t c (·.took 0 [(f.setWidth 24).signExtend 64])) ∧
    (∀ x, s.m.holdsOps c [x] 0 → fld f 25 24 = 0 →
      completes (.lith c f) s fun t => s.m.went t c (·.took 1 [((f.setWidth 24) ++ (x.setWidth 24)).signExtend 64])) ∧
    (∀ x, s.m.holdsOps c [x] 0 → fld f 25 24 = 1 → fld f 23 16 = 0 →
      completes (.lith c f) s fun t => s.m.went t c (·.took 1 [(f.setWidth 16) ++ (x.setWidth 48)])) ∧
    (∀ x, s.m.holdsOps c [x] 0 → completes (.addi c f) s fun t => s.m.went t c (·.took 1 [x + f.signExtend 64]))

/-- R233, R234: every function of ALU, with its result; ALU takes its operands and leaves the result on top. -/
def Obligations.AluResults : Prop :=
  ∀ (s : State) (c : CoreId) (f : BitVec 26) (x y z : W64), s.m.standsReady c → fld f 25 12 = 0 →
    let fn := fld f 5 0
    let sh := fld f 11 6
    let does (n : Nat) (r : W64) : Prop := completes (.alu c f) s fun t => s.m.went t c (·.took n [r])
    (∀ g, (fn, g) ∈ aluOfTwo → sh = 0 → s.m.holdsOps c [y, x] 0 → does 2 (g x y)) ∧
    (∀ g, (fn, g) ∈ aluOfOne → s.m.holdsOps c [x] 0 → does 1 (g sh x)) ∧
    (fn = 0x0C → sh = 0 → s.m.holdsOps c [x] 0 → does 1 (~~~ x)) ∧
    (fn = 0x0D → sh = 0 → s.m.holdsOps c [x] 0 → does 1 (0 - x)) ∧
    (fn = 0x20 → sh = 0 → s.m.holdsOps c [x] 0 → ∃ r, r ≤ 64 ∧ x.toNat < 2 ^ (64 - r) ∧ (r < 64 → 2 ^ (63 - r) ≤ x.toNat) ∧ does 1 (w64 r)) ∧
    (fn = 0x21 → sh = 0 → s.m.holdsOps c [x] 0 → ∃ r, r ≤ 64 ∧ x.toNat % 2 ^ r = 0 ∧ (r < 64 → x.toNat.testBit r = true) ∧ does 1 (w64 r)) ∧
    (fn = 0x22 → sh = 0 → s.m.holdsOps c [x] 0 → does 1 (w64 ((List.range 64).filter fun i => x.toNat.testBit i).length)) ∧
    (fn = 0x23 → sh = 0 → s.m.holdsOps c [z, y, x] 0 → does 3 (if z = 0 then y else x))

/-- R235, R219: every function of STK, with what it takes and leaves on either stack. -/
def Obligations.StackFunctions : Prop :=
  ∀ (s : State) (c : CoreId) (f : BitVec 26) (x y z : W64), s.m.standsReady c → fld f 25 10 = 0 →
    let fn := fld f 5 0
    let n := fld f 9 6
    let b := (s.m.core c).bank
    let does (g : Bank → Bank) : Prop := completes (.stk c f) s fun t => s.m.went t c g
    (∀ taken left, (fn, taken, left) ∈ stkOn x y z → n = 0 → s.m.holdsOps c taken 2 → does (·.took taken.length left)) ∧
    (∀ xs, fn = 7 → xs.length = n → s.m.holdsOps c (xs ++ [x]) 1 → does (·.took 0 [x])) ∧
    (n = 0 → s.m.holdsOps c [x] 0 → s.m.holdsRets c [] 1 → fn = 0x0A → does fun b => { b.took 1 [] with rets := x :: b.rets }) ∧
    (n = 0 → s.m.holdsOps c [] 1 → s.m.holdsRets c [x] 0 → fn = 0x0B → does fun b => { b.took 0 [x] with rets := b.rets.drop 1 }) ∧
    (n = 0 → s.m.holdsOps c [] 1 → s.m.holdsRets c [x] 0 → fn = 0x0C → does (·.took 0 [x])) ∧
    (n = 0 → s.m.holdsOps c [] 1 → (fn = 0x0D → does (·.took 0 [w64 b.depth])) ∧ (fn = 0x0E → does (·.took 0 [w64 b.rdepth])) ∧
      (fn = 0x0F → does (·.took 0 [0])) ∧ (fn = 0x10 → does (·.took 0 [0])) ∧ (fn = 0x11 → does (·.took 0 [b.pc])))

/-- R238, R263 to R268: CMOV copies a cap with its tag; CGETBASE, CGETLEN, CGETPERM, CGETOTYPE and CGETTAG push a field; CCLR clears a tag; CTEST pushes
whether an access passes the tag, seal and bound checks. R238, R228: CBOUND narrows a range, CPERM masks permissions, CSEAL and CUNSEAL set and clear
the object type; the tag, and every other field of the cap, stays. No cap instruction widens a range or adds a permission. -/
def Obligations.CapInstructions : Prop :=
  (∀ (s : State) (c : CoreId) (f : BitVec 26) (x n : W64), s.m.standsReady c → fld f 16 6 = 0 → fld f 19 17 = 0 →
    let cd := fld f 25 23
    let k := (s.m.core c).bank.cap (fld f 22 20)
    let pushes (i : Instr) (v : Nat) : Prop := s.m.holdsOps c [] 1 → cd = 0 → completes i s fun t => s.m.went t c (·.took 0 [w64 v])
    (completes (.cmov c f) s fun t => s.m.went t c fun b => (b.took 0 []).setCap cd k) ∧
    pushes (.cgetbase c f) k.base ∧ pushes (.cgetlen c f) k.len ∧ pushes (.cgetperm c f) k.perms ∧ pushes (.cgetotype c f) k.otype ∧
    pushes (.cgettag c f) (if k.tag then 1 else 0) ∧
    (fld f 22 20 = 0 → completes (.cclr c f) s fun t => s.m.went t c fun b => (b.took 0 []).setCap cd { b.cap cd with tag := false }) ∧
    (s.m.holdsOps c [n, x] 0 → cd = 0 → completes (.ctest c f) s fun t => s.m.went t c
      (·.took 2 [if k.tag = true ∧ k.otype = 0 ∧ k.base ≤ x.toNat ∧ x.toNat + n.toNat ≤ k.top then 1 else 0]))) ∧
  (∀ (s : State) (c : CoreId) (f : BitVec 26) (x n : W64), s.m.standsReady c → fld f 16 6 = 0 →
    let cd := fld f 25 23
    let k := (s.m.core c).bank.cap (fld f 22 20)
    let key := (s.m.core c).bank.cap (fld f 19 17)
    k.tag = true → k.isGlove = false →
    (s.m.holdsOps c [n, x] 0 → fld f 19 17 = 0 → k.otype = 0 → k.base ≤ x.toNat → x.toNat + n.toNat ≤ k.top → x.toNat < 2 ^ 48 →
      completes (.cbound c f) s fun t => ∃ k', s.m.went t c (fun b => (b.took 2 []).setCap cd k') ∧ k'.tag = true ∧ k'.base = x.toNat ∧
        k'.len = n.toNat ∧ k'.perms = k.perms ∧ k'.otype = 0 ∧ k'.type = k.type) ∧
    (s.m.holdsOps c [x] 0 → fld f 19 17 = 0 → k.otype = 0 →
      completes (.cperm c f) s fun t => ∃ k', s.m.went t c (fun b => (b.took 1 []).setCap cd k') ∧ k'.tag = true ∧
        k'.perms = k.perms &&& x.toNat ∧ k'.base = k.base ∧ k'.len = k.len ∧ k'.otype = 0 ∧ k'.type = k.type) ∧
    (key.tag = true → key.isGlove = false → key.otype = 0 → 1 ≤ key.base → key.base ≤ 65535 →
      (k.otype = 0 → key.has pSEAL = true →
        completes (.cseal c f) s fun t => ∃ k', s.m.went t c (fun b => (b.took 0 []).setCap cd k') ∧ k'.tag = true ∧ k'.otype = key.base ∧
          k'.base = k.base ∧ k'.len = k.len ∧ k'.perms = k.perms) ∧
      (k.otype = key.base → key.has pUNSEAL = true →
        completes (.cunseal c f) s fun t => ∃ k', s.m.went t c (fun b => (b.took 0 []).setCap cd k') ∧ k'.tag = true ∧ k'.otype = 0 ∧
          k'.base = k.base ∧ k'.len = k.len ∧ k'.perms = k.perms)))

/-- R227, R240, R241: BR, BZ, BNZ, CALL, RET, JMPI and CALLI: where each goes, what it takes from and leaves on the stacks, and that a taken transfer
brings c0 into force for fetch. R245, R246: LOOP with a count starts a loop over the words that follow it; with a count of 0 it goes past them. At the
last word of a body, an instruction without a transfer goes back to the start while more than one iteration is left, and ends the loop after the last;
a branch out of the body ends it. -/
def Obligations.TransfersAndLoops : Prop :=
  (∀ (s : State) (c : CoreId) (f : BitVec 26) (x : W64), s.m.standsReady c →
    let k := s.m.core c
    let target := k.bank.pc + f.signExtend 64 <<< 2
    let goes (i : Instr) (g : Bank → Bank) : Prop := completes i s fun t => s.m.went t c g ∧ (t.core c).fetchCap = k.bank.cap 0
    goes (.br c f) (·.wentTo 0 target) ∧
    (s.m.holdsOps c [x] 0 →
      (x = 0 → goes (.bz c f) (·.wentTo 1 target)) ∧ (x ≠ 0 → completes (.bz c f) s fun t => s.m.went t c (·.took 1 [])) ∧
      (x ≠ 0 → goes (.bnz c f) (·.wentTo 1 target)) ∧ (x = 0 → completes (.bnz c f) s fun t => s.m.went t c (·.took 1 [])) ∧
      (fld f 25 6 = 0 → x.toNat % 4 = 0 →
        goes (.jmpi c f) (·.wentTo 1 x) ∧
        (s.m.holdsRets c [] 1 → goes (.calli c f) fun b => { b.wentTo 1 x with rets := (b.pc + 4) :: b.rets }))) ∧
    (s.m.holdsRets c [] 1 → goes (.call c f) fun b => { b.wentTo 0 target with rets := (b.pc + 4) :: b.rets }) ∧
    (s.m.holdsRets c [x] 0 → fld f 25 6 = 0 → x.toNat % 4 = 0 → goes (.ret c f) fun b => { b.wentTo 0 x with rets := b.rets.drop 1 })) ∧
  (∀ (s : State) (c : CoreId) (f : BitVec 26) (n : W64),
    (s.m.standsReady c → s.m.holdsOps c [n] 0 → fld f 17 0 = 0 →
      (n ≠ 0 → completes (.loop c f) s fun t => s.m.went t c fun b =>
        { b.took 1 [] with loop := some { start := b.pc.toNat + 4, lenM1 := fld f 25 18, cnt := n, done := 0, rbase := b.rdepth, saved := false } }) ∧
      (n = 0 →
        completes (.loop c f) s fun t => s.m.went t c fun b => b.wentTo 1 (w64 (b.pc.toNat + 8 + 4 * fld f 25 18)))) ∧
    (∀ l : LoopSt, s.m.powered = true → s.m.canIssue c = true → (s.m.fetch c).isOk = true → (s.m.core c).bank.load = none →
      (s.m.core c).refused = [] → s.m.coh.upsets = [] → (s.m.core c).bank.loop = some l → l.saved = false →
      (fld f 25 6 = 0 → (s.m.core c).bank.pc.toNat = l.endAddr → l.cnt ≠ 1 →
        completes (.nop c f) s fun t => s.m.went t c fun b => { b with pc := w64 l.start, loop := some { l with cnt := l.cnt - 1, done := l.done + 1 } }) ∧
      (fld f 25 6 = 0 → (s.m.core c).bank.pc.toNat = l.endAddr → l.cnt = 1 →
        completes (.nop c f) s fun t => s.m.went t c fun b => { b with pc := b.pc + 4, loop := none }) ∧
      (l.inside (s.m.core c).bank.pc.toNat = true → l.inside ((s.m.core c).bank.pc + f.signExtend 64 <<< 2).toNat = false →
        completes (.br c f) s fun t => s.m.went t c fun b => { b with pc := b.pc + f.signExtend 64 <<< 2, loop := none })))

/-- R213, R229 to R231, R233, R235: a scalar word with a reserved field set, or a reserved function, raises the scalar issue exception ILLEGAL, and TRAP
raises it with its code; nothing of the instruction comes about. -/
def Obligations.ReservedWordsTrap : Prop :=
  ∀ (s : State) (c : CoreId) (f : BitVec 26), s.m.standsReady c →
    let raises (i : Instr) (v : W64) : Prop := completes i s fun t => s.m.raised t c 0 0x380 v
    (fld f 9 6 = 0 → raises (.trap c f) (serrOf 6 0 4 (fld f 25 10))) ∧
    (fld f 25 6 ≠ 0 → raises (.nop c f) (serrOf 1 0 0 0)) ∧
    (fld f 25 24 ≠ 0 → raises (.lit c f) (serrOf 1 1 0 0)) ∧
    (2 ≤ fld f 25 24 → raises (.lith c f) (serrOf 1 2 0 0)) ∧
    (fld f 25 12 ≠ 0 → raises (.alu c f) (serrOf 1 3 (fld f 5 0) 0)) ∧
    (0x24 ≤ fld f 5 0 → raises (.alu c f) (serrOf 1 3 (fld f 5 0) 0)) ∧
    (0x12 ≤ fld f 5 0 → raises (.stk c f) (serrOf 1 5 (fld f 5 0) 0)) ∧
    (fld f 9 6 ≠ 0 → fld f 5 0 ≠ 7 → raises (.stk c f) (serrOf 1 5 (fld f 5 0) 0)) ∧
    (fld f 25 6 ≠ 0 → raises (.ret c f) (serrOf 1 0x2A 0 0)) ∧
    (∀ x, fld f 25 6 = 0 → s.m.holdsOps c [x] 0 → x.toNat % 4 ≠ 0 → raises (.jmpi c f) (serrOf 3 0x2A 1 0) ∧ raises (.calli c f) (serrOf 3 0x2A 2 0))

/-- R220 to R224, R236, R258: LD of a range that lies in one line and is mapped to local memory takes the address and leaves the record of the load,
with its value where the line is at hand, and without it where the line is not; from a control register the value is the register's. -/
def Obligations.LoadLeavesRecord : Prop :=
  ∀ (s : State) (c : CoreId) (f : BitVec 26) (x : W64), s.m.standsReady c → s.m.holdsOps c [x] 0 →
    ¬ (fld f 20 20 = 1 ∧ fld f 22 21 = 3) →
    let m1 := s.m.fetched c
    let b := (s.m.core c).bank
    let cap := b.cap (fCap f)
    let a := addrOfs x f
    let n := 2 ^ fld f 22 21
    let r : LoadRec := { pos := b.depth - 1, size := n, signed := fld f 20 20 == 1, pc := b.pc }
    let leaves (r : LoadRec) : Prop :=
      completes (.ld c f) s fun t => s.m.reached t c (fun b => { b.took 0 [] with load := some r }) []
    (∀ pa m2, cap.type = 0 → capFail cap pRD a n = none → m1.places c cap .read a n = .ok ([(.loc pa, n)], m2) → n ≤ lineRoom pa →
      let m3 := (m2.stride c b.pc.toNat pa).l1Miss c pa
      (∀ bs poi m4, m3.loadNow c pa n (s.m.core c).sb.length = some (bs, poi, m4) →
        leaves { r with value := loadVal (fld f 20 20 == 1) bs, arrived := true, poison := poi, place := .loc pa }) ∧
      ((s.m.core c).sb = [] → s.m.isSpool pa = true → c.val ≠ 256 → (m3.core c).mem.state (pa / 128) = .i → (m3.core c).mem.misses.length < 16 →
        leaves { r with place := .loc pa, older := (s.m.core c).sb.length })) ∧
    (cap.type = 1 → capFail cap (needOf c cap pRD false a) a n = none → ctlCheck c (fCap f) 1 cap false a n = .ok () →
      leaves { r with value := m1.ctlRead c a, arrived := true })

/-- R258: a load that no buffered store touches reads memory; one that a single buffered store covers reads that store's bytes. R220, R221, R222: the
value of a load of local memory that arrives completes its record; the record is applied when the next instruction, its delay slot, completes: the
value lies at the address's position where the stack is still deeper than that, and is discarded where it is not. -/
def Obligations.LoadValues : Prop :=
  (∀ (m m1 : Mod) (c : CoreId) (pa n older : Nat) (bs : List Byte) (poi : Bool), 0 < n → older ≤ (m.core c).sb.length →
    m.loadNow c pa n older = some (bs, poi, m1) →
    (sbTouches ((m.core c).sb.take older) pa n = false → bs = m.rdMem pa n ∧ poi = m.poisoned pa n) ∧
    (∀ (q : List SbEntry) (e : SbEntry) (a : Nat), (m.core c).sb.take older = q ++ [e] → e.place = .loc a → e.kind = .data → a ≤ pa →
      pa + n ≤ a + e.data.length → bs = (e.data.drop (pa - a)).take n)) ∧
  (∀ (s : State) (c : CoreId) (f : BitVec 26) (l : LoadRec), s.m.powered = true → (s.m.core c).bank.load = some l →
    s.m.coh.upsets = [] →
    (∀ pa bs poi m1, l.arrived = false → (s.m.core c).due = none → l.parts = [] → l.place = .loc pa → s.m.loadNow c pa l.size l.older = some (bs, poi, m1) →
      completes (.loadValueArrives (c, [])) s fun t => (t.core c).bank =
        { (s.m.core c).bank with load := some { l with value := loadVal l.signed bs, arrived := true, poison := poi } } ∧ s.m.amid t c) ∧
    (s.m.canIssue c = true → (s.m.fetch c).isOk = true → (s.m.core c).bank.loop = none → (s.m.core c).refused = [] → (s.m.core c).poison = [] →
      fld f 25 6 = 0 → l.arrived = true → l.poison = false → (s.m.core c).bank.depth ≤ (s.m.core c).bank.ops.length →
      completes (.nop c f) s fun t => s.m.went t c fun b =>
        { b with pc := b.pc + 4, load := none, ops := if l.pos < b.depth then b.ops.set (b.depth - 1 - l.pos) l.value else b.ops }))

/-- R225, R226, R236 to R238, R258, R290: ST and STC put their bytes into the store buffer; LDC loads 16 bytes with the tag, which a cap without load-cap
permission clears; ST of a register of R290 keeps the value until SYNC. R226, R258: the oldest entry of the store buffer drains to scratch, or to a
line that the core's L2 holds for writing: its bytes are in memory, and of the granules it touches the tags are clear after a data store and the cap's
after a cap store; every other byte is as it was. An add goes to its adder; a line that is not held is asked for. -/
def Obligations.StoresReachMemory : Prop :=
  (∀ (s : State) (c : CoreId) (f : BitVec 26) (x v : W64), s.m.standsReady c →
    let m1 := s.m.fetched c
    let b := (s.m.core c).bank
    let cap := b.cap (fCap f)
    let a := addrOfs x f
    let n := 2 ^ fld f 22 21
    (∀ p m2, s.m.holdsOps c [x, v] 0 → fld f 20 20 = 0 → cap.type ≠ 1 → capFail cap pWR a n = none → (s.m.core c).sb.length < 16 → n ≤ lineRoom a →
      m1.places c cap .write a n = .ok ([(p, n)], m2) → m2.wtabCheck c cap (fCap f) 2 a n [(p, n)] = .ok () →
      completes (.st c f) s fun t => s.m.reached t c (·.took 2 []) [{ place := p, data := toLe n v.toNat }]) ∧
    (s.m.holdsOps c [x, v] 0 → fld f 20 20 = 0 → cap.type = 1 → c.val ≠ 256 → a ∈ syncRegs → fld f 22 21 = 3 → cap.has (pWR + pSYSREG) = true →
      capFail cap (pWR + pSYSREG) a 8 = none →
      completes (.st c f) s fun t => Tab.get? (t.core c).ctlNew a = some v ∧ (t.core c).ctl = (s.m.core c).ctl ∧ (t.core c).bank = b.took 2 [] ∧
        s.m.apart t c) ∧
    (s.m.holdsOps c [x] 0 → a % 16 = 0 → cap.type = 0 →
      (∀ p m2, capFail cap (pWR + pSC) a 16 = none → (s.m.core c).sb.length < 16 →
        m1.places c cap .write a 16 = .ok ([(p, 16)], m2) → m2.wtabCheck c cap (fCap f) 5 a 16 [(p, 16)] = .ok () →
        completes (.stc c f) s fun t => s.m.reached t c (·.took 1 [])
          [{ place := p, data := toLe 16 (b.cap (fCr f)).bits.toNat, kind := .cap (b.cap (fCr f)).tag }]) ∧
      (∀ pa m2 bs m3, capFail cap pRD a 16 = none → m1.places c cap .read a 16 = .ok ([(.loc pa, 16)], m2) →
        (m2.stride c b.pc.toNat pa).readNow c pa 16 = .ok (bs, m3) → sbTouches (s.m.core c).sb (pa / 16 * 16) 16 = false → pa % 16 = 0 →
        completes (.ldc c f) s fun t => s.m.reached t c (fun b => (b.took 1 []).setCap (fCr f)
          (let v : Cap := { bits := BitVec.ofNat 128 (ofLe (s.m.rdMem pa 16)) }
           { v with tag := s.m.tagAt pa && cap.has pLC && v.taggable })) []))) ∧
  (∀ (s : State) (c : CoreId) (e : SbEntry) (rest : List SbEntry) (pa : Nat), s.m.powered = true → s.m.coh.upsets = [] → (s.m.core c).sb = e :: rest →
    (s.m.core c).openLoad = none → e.place = .loc pa → s.m.rangeFenced pa e.data.length = false →
    ((s.m.isSpool pa = false ∨ (c.val ≠ 256 ∧ ((s.m.core c).mem.state (pa / 128) = .m ∨ (s.m.core c).mem.state (pa / 128) = .e))) →
      (e.kind = .data → 0 < e.data.length → completes (.storeBufferDrain (c, [])) s fun t => s.m.wrote t pa e.data ∧ (t.core c).sb = rest ∧
        (∀ a, t.tagAt a = if pa / 16 ≤ a / 16 ∧ a / 16 ≤ (pa + e.data.length - 1) / 16 then false else s.m.tagAt a) ∧ s.m.amid t c) ∧
      (∀ g, e.kind = .cap g → e.data.length = 16 → pa % 16 = 0 → completes (.storeBufferDrain (c, [])) s fun t => s.m.wrote t pa e.data ∧
        (t.core c).sb = rest ∧ (∀ a, t.tagAt a = if a / 16 = pa / 16 then g else s.m.tagAt a) ∧ s.m.amid t c)) ∧
    (∀ ty, e.kind = .add ty → completes (.storeBufferDrain (c, [])) s fun t => t.spl.adds = s.m.spl.adds ++ [{ core := c.val, pa := pa, ty := ty, data := e.data }] ∧
      (t.core c).sb = rest ∧ t.mem = s.m.mem ∧ s.m.amid t c) ∧
    (e.kind = .data → s.m.isSpool pa = true → c.val ≠ 256 → (s.m.core c).mem.state (pa / 128) = .i → (s.m.core c).mem.misses = [] →
      completes (.storeBufferDrain (c, [])) s fun t => t.coh.msgs = s.m.coh.msgs ++ [{ kind := .getx, la := pa / 128, agent := c.val }] ∧
        (t.core c).sb = (s.m.core c).sb ∧ t.mem = s.m.mem))

/-- R239: SWAPM, CAS and XADD push what memory held and write what they make of it, and nothing else; MADD puts its add into the store buffer. -/
def Obligations.AtomicResults : Prop :=
  ∀ (s : State) (c : CoreId) (f : BitVec 26) (x v e : W64), s.m.standsReady c → fld f 17 6 = 0 →
    let m1 := s.m.fetched c
    let cap := (s.m.core c).bank.cap (fCap f)
    let n := 2 ^ fld f 22 21
    (∀ pa m2 m3, 2 ≤ fld f 22 21 → fld f 20 18 = 0 → cap.type = 0 → capFail cap (pRD + pWR) x.toNat n = none → x.toNat % n = 0 →
      m1.places c cap .atomic x.toNat n = .ok ([(.loc pa, n)], m2) → m2.wtabCheck c cap (fCap f) 3 x.toNat n [(.loc pa, n)] = .ok () →
      sbTouches (s.m.core c).sb pa n = false → m2.acquireAll c pa n true = some m3 → m3.poisoned pa n = false → m3.rangeFenced pa n = false →
      let old := s.m.rdLe pa n
      let does (i : Instr) (k : Nat) (new : Nat) : Prop := completes i s fun t => s.m.wrote t pa (toLe n new) ∧ (t.core c).bank = (s.m.core c).bank.took k [w64 old] ∧
        (t.core c).sb = (s.m.core c).sb ∧ (s.m.core c).keeps (t.core c) ∧ s.m.amid t c
      (s.m.holdsOps c [v, x] 0 → does (.swapm c f) 2 v.toNat) ∧
      (s.m.holdsOps c [v, e, x] 0 → does (.cas c f) 3 (if old = e.toNat % 2 ^ (8 * n) then v.toNat else old)) ∧
      (s.m.holdsOps c [v, x] 0 → does (.xadd c f) 2 (old + v.toNat))) ∧
    (∀ p m2, fld f 22 21 = 0 → fld f 20 18 ≤ 4 → cap.type ≠ 1 →
      let w := maddSize (fld f 20 18)
      s.m.holdsOps c [v, x] 0 → capFail cap pWR x.toNat w = none → x.toNat % w = 0 → m1.places c cap .add x.toNat w = .ok ([(p, w)], m2) →
      m2.wtabCheck c cap (fCap f) 3 x.toNat w [(p, w)] = .ok () → (s.m.core c).sb.length < 16 →
      completes (.madd c f) s fun t => s.m.reached t c (·.took 2 []) [{ place := p, data := toLe w v.toNat, kind := .add (fld f 20 18) }])

/-- R217 to R219: a spill writes the deepest cached entry of a stack below what its pointer marks and moves the pointer down by 8; a fill reads the
entry back and moves it up; the depth of the operand stack stays, and memory changes at the spilled entry alone. -/
def Obligations.SpillsAndFills : Prop :=
  ∀ (s : State) (c : CoreId) (pa : Nat) (m1 : Mod), s.m.powered = true → s.m.coh.upsets = [] → s.m.stacksIdle c = true →
    let b := (s.m.core c).bank
    let spills (i : Instr) (k : StackSel) (v : W64) (g : Bank → Bank) : Prop :=
      stackCheck (b.cap k.cap) k true (b.ptr k - 8) (b.ptr k) = .ok () → s.m.places c (b.cap k.cap) .write (b.ptr k - 8) 8 = .ok ([(.loc pa, 8)], m1) →
      m1.wtabCheck c (b.cap k.cap) k.cap k.spill (b.ptr k - 8) 8 [(.loc pa, 8)] = .ok () → sbTouches (s.m.core c).sb pa 8 = false →
      (∃ m2, m1.acquireAll c pa 8 true = some m2 ∧ m2.rangeFenced pa 8 = false) →
      completes i s fun t => s.m.wrote t pa (toLe 8 v.toNat) ∧ (t.core c).bank = g b ∧ (s.m.core c).keeps (t.core c) ∧ s.m.amid t c
    let fills (i : Instr) (k : StackSel) (g : W64 → Bank → Bank) : Prop :=
      stackCheck (b.cap k.cap) k false (b.ptr k) (b.ptr k) = .ok () → s.m.places c (b.cap k.cap) .read (b.ptr k) 8 = .ok ([(.loc pa, 8)], m1) →
      sbTouches (s.m.core c).sb pa 8 = false → (∃ m2, m1.acquireAll c pa 8 false = some m2 ∧ m2.poisoned pa 8 = false) →
      completes i s fun t => (t.core c).bank = g (w64 (s.m.rdLe pa 8)) b ∧ (∀ a, Memory.byte t.mem a = Memory.byte s.m.mem a) ∧
        (s.m.core c).keeps (t.core c) ∧ s.m.amid t c
    (∀ v ops, b.ops = ops ++ [v] → spills (.stackSpill c) opStk v fun b => { b with sp := w64 (b.sp.toNat - 8), ops := ops }) ∧
    (∀ v rets, b.rets = rets ++ [v] → spills (.returnSpill c) retStk v fun b => { b with rsp := w64 (b.rsp.toNat - 8), rets := rets }) ∧
    (b.ops.length < 16 → fills (.stackFill c) opStk fun v b => { b with sp := b.sp + 8, ops := b.ops ++ [v] }) ∧
    (b.rets.length < 32 → fills (.returnFill c) retStk fun v b => { b with rsp := b.rsp + 8, rets := b.rets ++ [v] })

/-- R253, R279, R284, R285, R290 to R293: once the core has drained, SYNC and SYNC.I bring what was written to the registers of R290 into force and switch
to the current microcode, and SYNC.I empties the instruction cache. ERET sets the active bank from the shadow bank and leaves the handler. R273, R279:
a bank without a load in flight that an exception copies to the shadow bank comes back from it whole. -/
def Obligations.SyncEretAndBanks : Prop :=
  (∀ (s : State) (c : CoreId) (f : BitVec 26), s.m.standsReady c →
    let k := s.m.core c
    (fld f 25 6 = 0 → s.m.drained c = true →
      let synced (t : Mod) : Prop := (t.core c).bank = k.bank.took 0 [] ∧ (t.core c).ctl = k.settle.ctl ∧ (t.core c).ctlNew = [] ∧
        (t.core c).uc = { k.uc with useOld := false } ∧ (t.core c).shadow = k.shadow ∧ s.m.apart t c
      (∀ a v, k.ctlNew = [(a, v)] → k.settle.creg a = rowWrite coreRows a (k.creg a) v) ∧
      completes (.sync c f) s synced ∧ completes (.syncI c f) s fun t => synced t ∧ (t.core c).mem.l1i = []) ∧
    (fld f 25 6 = 0 → k.excDepth ≠ 0 → completes (.eret c f) s fun t => (t.core c).bank = k.shadow.bank ∧ (t.core c).fetchCap = k.shadow.cap 0 ∧
      (t.core c).excDepth = 0 ∧ (t.core c).unitsHeld = false ∧ (∀ q ∈ (t.core c).vec.stations, q.held = false) ∧
      (∀ a, a ≠ 0 → k.ctlNew = [] → (t.core c).creg a = k.creg a) ∧ s.m.apart t c) ∧
    (fld f 25 6 = 0 → k.excDepth = 0 → completes (.eret c f) s fun t => s.m.raised t c 0 0x380 (serrOf 1 0 3 0))) ∧
  (∀ b : Bank, b.load = none → b.ops.length ≤ 16 → b.rets.length ≤ 32 → b.depth < 2 ^ 32 → b.vl < 2 ^ 12 → b.vec < 32 →
    b.prog.kind < 4 → b.prog.gen < 2 ^ 16 → b.prog.index < 2 ^ 12 →
    (∀ l, b.loop = some l → l.start < 2 ^ 48 ∧ l.lenM1 < 256 ∧ l.rbase < 2 ^ 64) →
    { b.image.bank with caps := b.caps } = b ∧ ∀ i, i < 8 → b.image.bank.cap i = b.cap i)

/-- R270 to R278, R282, R283, R288: entering a handler. The exception that stands, or the lowest trap that pends, enters the handler of its vector: the bank
goes to the shadow bank, COR_EXC takes vector and depth, and the bank is set from the descriptor and the receive block; an interrupt does the same
where no exception stands; an exception in a handler writes the image below the stack of vector 8 and enters that; an exception in the
double-fault handler halts the core. -/
def Obligations.HandlerEntry : Prop :=
  ∀ (s : State) (c : CoreId) (w : W32) (v : Nat), s.m.powered = true → c.val ≠ 256 → (s.m.core c).atBoundary false = true → v < 32 →
    let k := s.m.core c
    let enters (t : Mod) (m0 : Mod) (v d : Nat) : Prop :=
      let m2 := (m0.stopPass c).saveBank c v d
      (∀ e st m3 caps, m2.handler c v = some (e, st, m3) → m3.recvCaps c st.top = some caps →
        (t.core c).bank = handlerBank e st caps (m0.core c).bank.vl v ∧ (t.core c).fetchCap = e ∧ (t.core c).cregf 0x000 4 0 = v ∧
        (t.core c).excDepth = d ∧ (t.core c).trap = none ∧ (t.core c).shadow.word 0 = (m0.core c).bank.pc ∧
        (∀ i, i < 8 → (t.core c).shadow.cap i = (m0.core c).bank.cap i)) ∧
      (m2.handler c v = none → (t.core c).halted = true)
    (k.nextTrap = some v → k.excDepth = 0 → (k.trap = some v ∨ s.m.probe c w = none) →
      completes (.exceptionEntry c w) s fun t => enters t (s.m.updCore c fun k => k.tookTrap v) v 1) ∧
    (s.m.intNow c = some v → k.nextTrap = none → (k.resumed = true ∨ s.m.probe c w = none) → (∀ q ∈ k.vec.stations, q.started = true → q.held = true) →
      completes (.interruptEntry (c, w)) s fun t =>
        enters t (s.m.updCore c fun k => (if v = 17 then k.setCregf 0x018 17 17 0 else k).incCregBy 0x050 1) v 1) ∧
    (k.nextTrap = some v → k.excDepth = 1 →
      (∀ st m1 m2, (s.m.updCore c Core.settle).saveCap c = some (st, m1) →
        m1.saveImage c (st.top - 0x280) (m1.core c).shadow (st.has pPGTAB) 40 = some (some m2) →
        completes (.doubleFault c) s fun t =>
          enters t (m2.updCore c fun k => ((k.tookTrap v).setCregf 0x000 20 16 v).incCregBy 0x048 1) 8 2) ∧
      ((s.m.updCore c Core.settle).saveCap c = none → completes (.doubleFault c) s fun t => (t.core c).halted = true)) ∧
    (k.nextTrap = some v → k.excDepth = 2 → completes (.doubleFault c) s fun t => (t.core c).halted = true ∧ (t.core c).run = .free)

/-- R270, R278: the fitter's own vectors 18 to 23 set its pc from the table in private SRAM and leave both stack caches empty, its bank saved in the
shadow bank; the firmware timer, vector 20, raises nothing without a PCIe reference clock (R74); RAISE of COR_XINT makes an interrupt pend and counts it. -/
def Obligations.FitterEntryAndXint : Prop :=
  ∀ s : State, s.m.powered = true →
    (∀ (v : Fin 32) (w : W32), s.m.fitterEvent v.val = true → (∀ i ∈ s.m.fit.irq, v.val ≤ i) → (s.m.core 256).atBoundary true = true →
      (s.m.core 256).nextTrap = none → (s.m.core 256).excDepth = 0 → s.m.intNow 256 = none →
      ((s.m.core 256).resumed = true ∨ (s.m.fitterIrq v.val).probe 256 w = none) → completes (.fitterExceptionEntry (v, w)) s fun t =>
        let k := (s.m.core 256).settle
        let b := k.bank
        (t.core 256).bank.pc = w64 (ofLe (Memory.bytes s.m.sram (k.cregf 0x7000 47 3 * 8 + 8 * v.val) 8)) ∧ (t.core 256).bank.ops = [] ∧
        (t.core 256).bank.rets = [] ∧ (t.core 256).bank.sp = b.sp ∧ (t.core 256).bank.rsp = b.rsp ∧ (∀ i, (t.core 256).bank.cap i = b.cap i) ∧
        (t.core 256).shadow = { b with vec := v.val }.image ∧ (t.core 256).excDepth = 1 ∧ (t.core 256).cregf 0x000 4 0 = v.val ∧ t.mem = s.m.mem) ∧
    (∀ (c : CoreId) (v : W64), bit v 0 = true → completes (.corXint none c v) s fun t => (t.core c).cregf 0x018 16 16 = 1 ∧
      (t.core c).cregf 0x058 47 0 = ((s.m.core c).cregf 0x058 47 0 + 1) % 2 ^ 48 ∧ (∀ a, a ≠ 0x018 → a ≠ 0x058 → (t.core c).creg a = (s.m.core c).creg a) ∧
      (t.core c).bank = (s.m.core c).bank ∧ s.m.apart t c) ∧
    (∀ w : W32, (s.m.host 0).clock = false → (s.m.host 1).clock = false → s.m.fit.irq = [] → (s.m.core 256).nextTrap = none → s.m.intNow 256 = none →
      completes (.fitterExceptionEntry (20, w)) s fun t => t = s.m.fitterHalts)

/-- R242, R299, R317, R318, R330: PEND completes its piece and frees the core once its work is visible; PWAIT takes one unit of the lowest seat count that
is not 0 and names its seat, waits where all are 0, and does nothing outside a seated piece; PFIRE fires a notch; PID pushes slot and index. R243,
R244, R371, R374: SHPOST of one descriptor reads its 64 bytes, puts it at the end of its shuttle's queue with the caps it names, and pops its
operands; a count of 0 or above 4,096 raises the scalar issue exception RANGE; with the queue full it waits, and SHPOST_RESUME posts once an entry is
free. R248 to R250, R253: a customer instruction whose dispatch entry is not valid raises NOUC; one whose routine is a single NOP pushes its immediate
where PUSH is set and goes on at the next word. -/
def Obligations.PieceAndCustomerInstructions : Prop :=
  (∀ (s : State) (c : CoreId) (f : BitVec 26) (x : W64), s.m.standsReady c → c.val ≠ 256 → fld f 25 6 = 0 →
    let k := s.m.core c
    (∀ id, k.piece = some id → s.m.storesVisible c = true → k.unitsIdle = true → k.openLoad = none → k.run ≠ .seated →
      completes (.pend c f) s fun t => t.pat.completed = s.m.pat.completed ++ [id] ∧ (t.core c).run = .free ∧ (t.core c).piece = none ∧
        (t.core c).bank = k.bank.took 0 [] ∧ s.m.apart t c) ∧
    (k.run ≠ .seated → completes (.pwait c f) s fun t => s.m.went t c (·.took 0 [])) ∧
    (∀ i, i < 3 → k.run = .seated → k.cregf 0x0A0 (16 * i + 15) (16 * i) ≠ 0 → (∀ j, j < i → k.cregf 0x0A0 (16 * j + 15) (16 * j) = 0) →
      s.m.pat.held = [] → completes (.pwait c f) s fun t => (t.core c).cregf 0x0A0 (16 * i + 15) (16 * i) = k.cregf 0x0A0 (16 * i + 15) (16 * i) - 1 ∧
        (t.core c).cregf 0x0A0 50 49 = i ∧ (t.core c).bank = k.bank.took 0 [] ∧ s.m.apart t c) ∧
    (k.run = .seated → (∀ j, j < 3 → k.cregf 0x0A0 (16 * j + 15) (16 * j) = 0) → completes (.pwait c f) s fun t => t = s.m.updCore c fun k => { k with wait := .pwait }) ∧
    (s.m.holdsOps c [x] 0 → s.m.storesVisible c = true → (x.setWidth 16).toNat ≠ 0xFFFF → completes (.pfire c f) s fun t => s.m.went t c (·.took 1 []) ∧
      t.pat.fires = s.m.pat.fires ++ [{ part := (s.m.partOf c).getD 0, notch := (x.setWidth 16).toNat, src := .core c }]) ∧
    (∀ id, k.piece = some id → s.m.holdsOps c [] 1 → completes (.pid c f) s fun t => s.m.went t c (·.took 0 [w64 (id.slot * 2 ^ 16 + id.ix)]))) ∧
  (∀ (s : State) (c : CoreId) (f : BitVec 26) (x n : W64), c.val ≠ 256 → fld f 20 0 = 0 →
    let k := s.m.core c
    let cap := k.bank.cap (fCap f)
    let posts (i : Instr) (m : Mod) : Prop := ∀ pa m2 bs m3 q, m.standsReady c → m.holdsOps c [1, x] 0 → k.bank.prog = {} → capFail cap pRD x.toNat 64 = none →
      cap.type = 0 → (m.fetched c).places c cap .read x.toNat 64 = .ok ([(.loc pa, 64)], m2) → m2.readNow c pa 64 = .ok (bs, m3) → m.shtPick c f = some q →
      completes i s fun t => ∃ d : ShtDesc,
        (t.sht q).queue = (m.sht q).queue ++ [d] ∧ d.bytes = bs ∧ d.core = c.val ∧ d.addr = x.toNat ∧ d.id = m.nextId ∧
        d.scap = k.bank.cap (bitsN (ofLe (bs.take 4)) 25 23) ∧ d.dcap = k.bank.cap (bitsN (ofLe (bs.take 4)) 22 20) ∧
        (∀ r, r ≠ q → t.sht r = m.sht r) ∧ m.reached t c (·.took 2 []) []
    posts (.shpost c f) s.m ∧
    (k.wait = .shpost → posts (.shpostResume c f) (s.m.updCore c fun k => { k with wait := .none })) ∧
    (∀ pa m2 bs m3, s.m.standsReady c → s.m.holdsOps c [1, x] 0 → k.bank.prog = {} → capFail cap pRD x.toNat 64 = none → cap.type = 0 →
      (s.m.fetched c).places c cap .read x.toNat 64 = .ok ([(.loc pa, 64)], m2) → m2.readNow c pa 64 = .ok (bs, m3) → s.m.shtPick c f = none →
      completes (.shpost c f) s fun t => t = s.m.updCore c fun k => { k with wait := .shpost }) ∧
    (s.m.standsReady c → s.m.holdsOps c [n, x] 0 → (n.toNat = 0 ∨ 4096 < n.toNat) →
      completes (.shpost c f) s fun t => s.m.raised t c 0 0x380 (serrOf 5 0x2D 0 0)) ∧
    (∀ q, s.m.powered = true → k.wait = .shpost → s.m.shtPick c f = some q →
      exec (.shpostResume c f) s = exec (.shpost c f) { s with m := s.m.updCore c fun k => { k with wait := .none } })) ∧
  (∀ (s : State) (c : CoreId) (n : Fin 16) (f : BitVec 26), s.m.standsReady c → c.val ≠ 256 → (s.m.core c).bank.prog = {} →
    let k := s.m.core c
    let copy := if k.uc.useOld then k.uc.prev else k.uc.cur
    let d := Tab.get 0 copy.disp n.val
    (bit d 31 = false → completes (.cust c n f) s fun t => s.m.raised t c 0 0x380 (serrOf 2 (0x10 + n.val) 0 0)) ∧
    (bit d 31 = true → s.m.holdsOps c [] 1 → Tab.get 0 copy.ents (fld d 10 0) = BitVec.ofNat 34 (2 ^ 33) →
      completes (.cust c n f) s fun t => s.m.went t c (·.took 0 (if bit d 30 then [f.setWidth 64] else []))))

/-- R183, R209: VSETVL sets VL from a value of at most 2,048, VGETVL pushes it, VGET pushes one element, sign-extended where it is an integer; VMPOP
pushes the number of set bits of a mask below VL, and VMFIRST the index of the lowest one, or VL. Each counts in VEC_CNT0. R183, R184, R195, R196,
R210, R255: a vector instruction that passes its issue checks pops its operands and enters a station with copies of them and of VL, a VL of 0 too; one
that fails a check raises the vector issue exception with its cause. -/
def Obligations.VectorReadsAndIssue : Prop :=
  (∀ (s : State) (c : CoreId) (f : BitVec 26) (x : W64), s.m.standsReady c → c.val ≠ 256 →
    let k := s.m.core c
    let ok (sub : Nat) : Prop := vecWordFail (setFld (wordOf 0x20 f) 4 0 sub) k.bank.vl = none
    let does (i : Instr) (g : Bank → Bank) : Prop := completes i s fun t => s.m.unit t c g ∧ (t.core c).vec.plain = k.vec.plain ∧ (t.core c).mat = k.mat ∧
      s.m.counted t c 0x2040 1
    let mask := Tab.get 0 k.vec.masks (fld f 20 18)
    let n := tyBytes (fld f 17 15)
    (ok 0 → s.m.holdsOps c [x] 0 → x.toNat ≤ 2048 → does (.vsetvl c f) fun b => { b.took 1 [] with vl := x.toNat }) ∧
    (ok 1 → s.m.holdsOps c [] 1 → does (.vgetvl c f) (·.took 0 [w64 k.bank.vl])) ∧
    (ok 4 → s.m.holdsOps c [x] 0 → x.toNat < 2048 / n → k.blocked k.seq { reads := [fReg (fld f 25 21)] } false = false →
      let v := ofLe (Memory.bytes k.vec.regs (2048 * fld f 25 21 + n * x.toNat) n)
      (fld f 17 15 < 4 → does (.vget c f) (·.took 1 [w64 v])) ∧ (4 ≤ fld f 17 15 → does (.vget c f) (·.took 1 [w64i (sNat (8 * n) v)]))) ∧
    (ok 5 → s.m.holdsOps c [] 1 → k.blocked k.seq { reads := [fMask (fld f 20 18)] } false = false →
      does (.vmpop c f) (·.took 0 [w64 ((List.range k.bank.vl).filter fun i => mask.testBit i).length])) ∧
    (ok 6 → s.m.holdsOps c [] 1 → k.blocked k.seq { reads := [fMask (fld f 20 18)] } false = false →
      ∃ r, r ≤ k.bank.vl ∧ (∀ j, j < r → mask.testBit j = false) ∧ (r < k.bank.vl → mask.testBit r = true) ∧ does (.vmfirst c f) (·.took 0 [w64 r]))) ∧
  (∀ (s : State) (c : CoreId) (f : BitVec 26) (i : Instr) (w : W32) (args : List W64), (i, w) ∈ stationRows c f → s.m.standsReady c → c.val ≠ 256 →
    let k := s.m.core c
    (∀ cause, vecWordFail w k.bank.vl = some cause →
      completes i s fun t => s.m.raised t c 4 0x2010 (w64 (vecSub w * 2 ^ 16 + fld w 31 26 * 2 ^ 8 + cause))) ∧
    (vecWordFail w k.bank.vl = none → args.length = vecPops w → s.m.holdsOps c args 0 →
      (∀ cause, vecArgFail w k.bank.vl args = some cause →
        completes i s fun t => s.m.raised t c 4 0x2010 (w64 (vecSub w * 2 ^ 16 + fld w 31 26 * 2 ^ 8 + cause))) ∧
      (vecArgFail w k.bank.vl args = none →
        k.vec.stations.length < 8 → k.ctlNew = [] →
          completes i s fun t => s.m.unit t c (·.took args.length []) ∧ (t.core c).ctl = k.ctl ∧ (t.core c).seq = k.seq + 1 ∧
            (t.core c).vec.plain = { k.vec.plain with stations := k.vec.plain.stations ++
              [{ word := w, seq := k.seq, args := args, vl := k.bank.vl, pc := k.bank.pc.toNat, gate := vecMayTrap w && bit (k.creg 0x2000) 0 }] })))

/-- R187 to R197, R255: VLD, VST, VMLD and VMST check and translate their whole range at issue and enter a station with it; a load takes its bytes as it enters
where nothing earlier is in its way, and else later, from its station. VLD and VST with BOLT set name a range of the bolt instead, under BOLT permission. -/
def Obligations.VectorMemoryIssue : Prop :=
  ∀ (s : State) (c : CoreId) (f : BitVec 26) (x : W64), s.m.standsReady c → c.val ≠ 256 → s.m.holdsOps c [x] 0 →
    let k := s.m.core c
    let m1 := s.m.fetched c
    let n := k.bank.vl * 2 ^ fld f 17 16
    let base (w : W32) : Station := { word := w, seq := k.seq, args := [x], vl := k.bank.vl, pc := k.bank.pc.toNat }
    let enters (i : Instr) (w : W32) (q : Station) : Prop := k.vec.stations.length < 8 → (k.bank.vl ≠ 0 ∨ vecByVl w = false) → vecWordFail w k.bank.vl = none →
      vecArgFail w k.bank.vl [x] = none → completes i s fun t => (t.core c).bank = k.bank.took 1 [] ∧
      (t.core c).vec.plain = { k.vec.plain with stations := k.vec.plain.stations ++ [q] } ∧
        (∀ a, Memory.byte t.mem a = Memory.byte s.m.mem a) ∧ s.m.amid t c
    (bit f 15 = true →
      (capFail (k.bank.cap (fld f 14 12)) (pRD + pBOLT) x.toNat n = none →
        enters (.vld c f) (wordOf 0x21 f) { base (wordOf 0x21 f) with bolt := some x.toNat, vlen := n }) ∧
      (capFail (k.bank.cap (fld f 14 12)) (pWR + pBOLT) x.toNat n = none →
        enters (.vst c f) (wordOf 0x22 f) { base (wordOf 0x22 f) with bolt := some x.toNat, vlen := n })) ∧
    (∀ ps m2, (bit f 15 = false → m1.vecRange c (fld f 14 12) true true x.toNat n = .ok (ps, m2) →
        enters (.vst c f) (wordOf 0x22 f) { base (wordOf 0x22 f) with ranges := ps, va := x.toNat, vlen := n }) ∧
      (m1.vecRange c 1 true false x.toNat 256 = .ok (ps, m2) →
        enters (.vmst c f) (wordOf 0x20 (withSub f 8)) { base (wordOf 0x20 (withSub f 8)) with ranges := ps, va := x.toNat, vlen := 256 })) ∧
    (let loads (q : Station) (w : W32) (ps : List (Place × Nat)) (n : Nat) : Station := { q with word := w, ranges := ps, va := x.toNat, vlen := n }
     let vld := wordOf 0x21 f
     let vmld := wordOf 0x20 (withSub f 7)
     (∀ ps m2,
      (bit f 15 = false → m1.vecRange c (fld f 14 12) false true x.toNat n = .ok (ps, m2) → k.mayRead (loads (base vld) vld ps n) = false →
        enters (.vld c f) vld (loads (base vld) vld ps n)) ∧
      (m1.vecRange c 1 false false x.toNat 256 = .ok (ps, m2) → k.mayRead (loads (base vmld) vmld ps 256) = false →
        enters (.vmld c f) vmld (loads (base vmld) vmld ps 256))) ∧
     (∀ pa m2 bs m3,
      (bit f 15 = false → fld f 20 18 = 0 → m1.vecRange c (fld f 14 12) false true x.toNat n = .ok ([(.loc pa, n)], m2) →
        k.mayRead (loads (base vld) vld [(.loc pa, n)] n) = true → m2.readNow c pa n = .ok (bs, m3) →
        enters (.vld c f) vld { loads (base vld) vld [(.loc pa, n)] n with asked := true, data := (upto n).map fun i => (i, bs.getD i 0) }) ∧
      (m1.vecRange c 1 false false x.toNat 256 = .ok ([(.loc pa, 256)], m2) →
        k.mayRead (loads (base vmld) vmld [(.loc pa, 256)] 256) = true → m2.readNow c pa 256 = .ok (bs, m3) →
        enters (.vmld c f) vmld { loads (base vmld) vmld [(.loc pa, 256)] 256 with asked := true, data := (upto 256).map fun i => (i, bs.getD i 0) })))

/-- R192, R196 to R198: the oldest ready vector instruction starts, and its results are formed from the registers as they are, a load that has not read memory
reading it first; at its end they are written to registers and masks, a store's bytes to memory, the station is free, and VEC_CNT0 counts it. -/
def Obligations.VectorStartAndEnd : Prop :=
  ∀ (s : State) (c : CoreId) (q : Station), s.m.powered = true →
    let k := s.m.core c
    let starts (t : Mod) (q : Station) : Prop :=
      let r := evalStation k.vec.regs k.vec.masks (fun i => Tab.get 0 q.data i) q
      (t.core c).vec.regs = k.vec.regs ∧ (t.core c).vec.masks = k.vec.masks ∧
        (t.core c).vec.stations = k.vec.stations.map fun u => if u.seq = q.seq then
          { q with started := true, undo := none, writes := r.1.writes, maskWrites := r.1.masks, stores := r.2, nan := r.1.nan, trapped := r.1.trapped
                   nans := r.1.nans, ovf := r.1.ovf } else u
    (∀ bad : BoltErrs, k.readyStation = some q → q.bolt = none → (q.isLoad = false ∨ q.asked = true) →
      completes (.vectorStart (c, bad)) s fun t => s.m.unit t c id ∧ starts t q) ∧
    (∀ q1 m1, k.readyStation = some q → q.isLoad = true → q.asked = false → s.m.readStation c q false = .ok (q1, m1) → q1.rwait = [] → s.m.coh.upsets = [] →
      completes (.vectorStart (c, [])) s fun t => starts t q1 ∧ (t.core c).bank = k.bank ∧ s.m.amid t c) ∧
    (∀ i : Fin 8, k.vec.stations[i.val]? = some q → q.started = true → q.nan = none ∨ q.gate = false →
      (q.stores = [] → q.isStore = false → completes (.vectorInstructionDone c i) s fun t => s.m.unit t c id ∧
        (t.core c).vec =
          { regs := q.writes.foldl (fun t p => Memory.setBytes t p.1 p.2) k.vec.regs
            masks := q.maskWrites.foldl (fun t p => Tab.put t p.1 p.2) k.vec.masks
            stations := k.vec.stations.filter fun u => u.seq != q.seq } ∧ s.m.counted t c 0x2040 1) ∧
      (∀ pa bs, q.isStore = true → k.vec.stations = [q] → q.bolt = none → q.stores = [(0, bs)] → q.ranges = [(.loc pa, bs.length)] → 0 < bs.length →
        q.writes = [] → q.maskWrites = [] → sbTouches k.sb pa bs.length = false → s.m.isSpool pa = false → s.m.rangeFenced pa bs.length = false → s.m.coh.upsets = [] →
        completes (.vectorInstructionDone c i) s fun t => s.m.wrote t pa bs ∧ (t.core c).vec = { k.vec with stations := [] } ∧
          (t.core c).bank = k.bank ∧ s.m.amid t c))

/-- R182 to R186, R192, R200, R206 to R209: what the instructions of the long-vector unit write, element by element: active elements below VL take the
result, every other element of the register, and every other register, stays. -/
def Obligations.VectorElementResults : Prop :=
  ∀ (regs : Tab Byte) (masks : Tab Nat) (data : Nat → Byte) (q : Station) (i : Nat),
    let w := q.word
    let sub := fld w 4 0
    let vd := fld w 25 21
    let arg := (q.args.headD 0).toNat
    let after := (evalStation regs masks data q).1.after regs
    let act (mask : Nat) : Prop := i < q.vl ∧ (mask = 0 ∨ (Tab.get 0 masks mask).testBit i = true)
    let gives (t mask : Nat) (v : Nat) : Prop := i < tyCap t → q.vl ≤ tyCap t →
      (act mask → vGet after vd (tyBytes t) i = v % 2 ^ (8 * tyBytes t)) ∧ (¬ act mask → vGet after vd (tyBytes t) i = vGet regs vd (tyBytes t) i) ∧
      (∀ r, r ≠ vd → vGet after r (tyBytes t) i = vGet regs r (tyBytes t) i)
    let el (t r j : Nat) : Nat := vGet regs r (tyBytes t) j
    (fld w 31 26 = 0x20 → sub = 2 → gives (fld w 17 15) (fld w 20 18) arg) ∧
    (fld w 31 26 = 0x29 → let t := fld w 12 10; let a := fld w 20 16; let m := fld w 15 13
      (sub = 0 → gives t m (el t a i)) ∧ (sub = 1 → arg < tyCap t → gives t m (el t a arg)) ∧
      (sub = 2 → arg ≤ i → gives t m (el t a (i - arg))) ∧ (sub = 2 → i < arg → vGet after vd (tyBytes t) i = el t vd i) ∧
      (sub = 3 → i + arg < q.vl → gives t m (el t a (i + arg))) ∧ (sub = 3 → q.vl ≤ i + arg → gives t m 0)) ∧
    (fld w 31 26 = 0x23 → let t := fld w 7 5; let x := el t (fld w 20 16) i; let y := el t (fld w 15 11) i; let m := fld w 10 8
      (4 ≤ t → (sub = 0 → gives t m (x + y)) ∧ (sub = 1 → gives t m (x + (2 ^ (8 * tyBytes t) - y))) ∧ (sub = 2 → gives t m (x * y)) ∧
        (sub = 0x10 → gives t m (x &&& y)) ∧ (sub = 0x11 → gives t m (x ||| y)) ∧ (sub = 0x12 → gives t m (x ^^^ y))) ∧
      (∀ g, tyFmt t = some g → (sub = 0 → gives t m (g.round false (Fl.add (g.decode x) (g.decode y)))) ∧
        (sub = 2 → gives t m (g.round false (Fl.mul (g.decode x) (g.decode y)))))) ∧
    (fld w 31 26 = 0x24 → ∀ g, let t := fld w 2 1; tyFmt t = some g → fld w 0 0 = 0 →
      gives t (fld w 5 3) (g.round false (Fl.fma (g.decode (el t (fld w 20 16) i)) (g.decode (el t (fld w 15 11) i)) (g.decode (el t (fld w 10 6) i))))) ∧
    (fld w 31 26 = 0x26 → let d := (Tab.get 0 ((evalStation regs masks data q).1.masks) (fld w 25 23)).testBit i
      let x := (Tab.get 0 masks (fld w 22 20)).testBit i; let y := (Tab.get 0 masks (fld w 19 17)).testBit i
      (i < q.vl → (fld w 16 14 = 0 → d = (x && y)) ∧ (fld w 16 14 = 1 → d = (x || y)) ∧ (fld w 16 14 = 2 → d = (x != y)) ∧ (fld w 16 14 = 4 → d = !x)) ∧
      (q.vl ≤ i → d = (Tab.get 0 masks (fld w 25 23)).testBit i))

/-- R90, R92, R93, R107, R112, R116, R117: MCFG sets the patch mode and discards shadow sets once every patch is idle; MSHAPE writes a shape slot; MTILE and
MPRE copy their slot and queue on a patch; MWAIT goes on once the named patches are idle; MZERO completes on reaching the queue of the patch whose window
holds its first row, and writes +0.0 into its rows at once where no earlier instruction reads or writes them. A check of R117 that fails raises the matrix issue exception. -/
def Obligations.MatrixInstructions : Prop :=
  ∀ (s : State) (c : CoreId) (f : BitVec 26) (x y : W64), s.m.standsReady c → c.val ≠ 256 → (s.m.core c).unitsHeld = false →
    let k := s.m.core c
    let p := fld f 25 22
    let slot := fld f 21 19
    let shape := k.creg (0x1040 + 8 * slot)
    let tile : MatInstr := { shape := shape, slot := slot, slotGen := k.slotGen slot, wofs := y.toNat, aofs := x.toNat, acc := bit f 18, asrc := bit f 17,
                             vreg := fld f 16 12, abase := fld f 11 3, pc := k.bank.pc.toNat, seq := k.seq }
    (fld f 23 0 = 0 → (k.mat.patches.all fun q => !q.2.busy) = true → completes (.mcfg c f) s fun t => s.m.unit t c (·.took 0 []) ∧
      (t.core c).mode = fld f 25 24 ∧ (∀ i, ((t.core c).patch i).shadow = none) ∧ (∀ a, a ≠ 0x1000 → (t.core c).creg a = k.creg a) ∧ (t.core c).mat.acc = k.mat.acc) ∧
    (s.m.holdsOps c [x] 0 → fld f 25 22 = 0 → fld f 18 0 = 0 → completes (.mshape c f) s fun t => s.m.unit t c (·.took 1 []) ∧
      (t.core c).creg (0x1040 + 8 * slot) = (x.setWidth 47).setWidth 64 ∧ (∀ a, a ≠ 0x1040 + 8 * slot → (t.core c).creg a = k.creg a)) ∧
    (s.m.holdsOps c [x, y] 0 → fld f 2 0 = 0 →
      (tileFail k.mode p (shapeOf shape) tile = none → (k.patch p).queue.length < 8 → completes (.mtile c f) s fun t => s.m.unit t c (·.took 2 []) ∧
        ((t.core c).patch p).queue = (k.patch p).queue ++ [tile] ∧ (∀ q, q ≠ p → (t.core c).patch q = k.patch q) ∧ (t.core c).mat.acc = k.mat.acc ∧ (t.core c).ctl = k.ctl) ∧
      (∀ cause, tileFail k.mode p (shapeOf shape) tile = some cause →
        completes (.mtile c f) s fun t => s.m.raised t c 3 0x1010 (w64 (slot * 2 ^ 20 + p * 2 ^ 16 + 0x32 * 2 ^ 8 + cause)))) ∧
    (s.m.holdsOps c [y] 0 → fld f 18 0 = 0 → loadFail k.mode p (shapeOf shape) y.toNat = none → (k.patch p).queue.length < 8 →
      completes (.mpre c f) s fun t => s.m.unit t c (·.took 1 []) ∧ ((t.core c).patch p).queue = (k.patch p).queue ++
        [{ pre := true, shape := shape, slot := slot, slotGen := k.slotGen slot, wofs := y.toNat, pc := k.bank.pc.toNat, seq := k.seq }] ∧
        (∀ q, q ≠ p → (t.core c).patch q = k.patch q) ∧ (t.core c).mat.acc = k.mat.acc) ∧
    (fld f 9 0 = 0 → (k.mat.patches.all fun q => !(bit f (10 + q.1) && q.2.busy)) = true → completes (.mwait c f) s fun t => s.m.went t c (·.took 0 [])) ∧
    (fld f 9 0 = 0 → fld f 23 17 + fld f 16 10 + 1 ≤ 128 →
      let lo := 16384 * fld f 25 24 + 128 * fld f 23 17
      let n := 128 * (fld f 16 10 + 1)
      let pz := windowOf k.mode lo
      k.noZeros → (k.patch pz).queue.length < 8 → (k.patch pz).nanStop = false →
      (k.blocked k.seq { writes := [fAcc lo n] } false = false → (∀ x ∈ (k.patch pz).queue, x.seq < k.seq) → completes (.mzero c f) s fun t =>
        s.m.unit t c (·.took 0 []) ∧ (∀ w, Tab.get 0 (t.core c).mat.acc w = if lo ≤ w ∧ w < lo + n then 0 else Tab.get 0 k.mat.acc w) ∧
        (∀ q, ((t.core c).patch q).queue = (k.patch q).queue)) ∧
      (k.blocked k.seq { writes := [fAcc lo n] } false = true → completes (.mzero c f) s fun t => s.m.unit t c (·.took 0 []) ∧
        (t.core c).mat.acc = k.mat.acc ∧ ((t.core c).patch pz).queue = (k.patch pz).queue ++ [{ zero := some (lo, n), pc := k.bank.pc.toNat, seq := k.seq }] ∧
        (∀ q, q ≠ pz → (t.core c).patch q = k.patch q)))

/-- R81, R101, R103, R105, R106, R127, R152 to R154, R341: the weight port loads the oldest request's record, without its padding, into its patch's shadow set, and an
uncorrectable granule of it stops the patch; a tile starts with the shadow
set as its weights and its activation rows read; when its rows are summed, the accumulator takes its sums, element by element; a basted
tile's reference is compared, and a disagreement is counted and marked. -/
def Obligations.TileLife : Prop :=
  ∀ (s : State) (c : CoreId) (p : PatchId), s.m.powered = true → s.m.noCue → (s.m.core c).unitsHeld = false → (s.m.core c).ctlNew = [] →
    let k := s.m.core c
    let pt := k.patch p
    (∀ r rest, k.mat.port = r :: rest → r.load.pre = false → s.m.coreFenced c = false →
      let sz := (shapeOf r.load.shape).recUsed k.mode
      let off := r.load.wofs + r.load.tile * (shapeOf r.load.shape).recSize k.mode
      k.blocked r.load.seq { reads := [fBolt off sz] } true = false →
      let loads (t : Mod) : Prop := ((t.core c).patch r.patch).shadow = some { r.load with bytes := Memory.bytes k.bolt off sz } ∧
        (t.core c).mat.port = rest ∧ (t.core c).mat.acc = k.mat.acc
      (k.boltErr = [] → completes (.weightPortGrant (c, [])) s fun t => s.m.unit t c id ∧ loads t) ∧
      (∀ g : BitVec 18, off < 16 * g.toNat + 16 → 16 * g.toNat < off + sz → completes (.weightPortGrant (c, [(g, true)])) s fun t => loads t ∧
        ((t.core c).patch r.patch).nanStop = true ∧ 9 ∈ (t.core c).pend)) ∧
    (∀ x j l, nextLoad k.mode pt.queue = some (x, j) → pt.shadow = some l → x.pre = false → x.asrc = false → l.serves x j = true → pt.nanStop = false →
      k.blocked x.seq (x.foot k.mode) true = false → bit (k.creg 0x1200) 0 = false →
      let sh := shapeOf x.shape
      let b := blockDims k.mode sh.cls
      let ab := codeBits sh.af / 8
      ∀ bad : BoltErrs, completes (.tileStart (c, bad) p) s fun t => s.m.unit t c id ∧ ((t.core c).patch p).active = some l ∧ (t.core c).mat.acc = k.mat.acc ∧
        ∃ r : TileRun, ((t.core c).patch p).runs = pt.runs ++ [r] ∧ r.ins = x ∧ r.tile = j ∧ r.weights = l.bytes ∧
          r.rows = (upto sh.m).flatMap fun i => Memory.bytes k.vec.regs (2048 * x.vreg + (i * (sh.kpad k.mode * ab) + j / (sh.tiles k.mode).2 * b.1 * ab)) (b.1 * ab)) ∧
    (∀ r rest, pt.runs = r :: rest → bit (k.creg 0x1000) 8 = false → k.noZeros →
      let sh := shapeOf r.ins.shape
      let b := blockDims k.mode sh.cls
      let nb := r.tile % (sh.tiles k.mode).2
      completes (.tileRowsSummed c p) s fun t => s.m.unit t c id ∧ ((t.core c).patch p).runs = rest ∧ (t.core c).ctl = k.ctl ∧
        (sh.cls ≠ 2 → ∀ row n, row < sh.m → n < b.2 → nb * b.2 + n < sh.n →
          let w := 128 * r.ins.abase + (row * sh.npad k.mode + (nb * b.2 + n))
          accWord (t.core c).mat.acc w = r.sum32 sh k.mode row n (if r.tile / (sh.tiles k.mode).2 = 0 ∧ r.ins.acc = false then 0 else accWord k.mat.acc w) % 2 ^ 32)) ∧
    (∀ bt n nar, k.mat.baste = some bt → bt.run.checkedCols (shapeOf bt.run.ins.shape) bt.mode = [n] → bt.narrow = [nar] →
      let sh := shapeOf bt.run.ins.shape
      let cfg := k.creg 0x1200
      let tol := match codeBits sh.wf with | 4 => fld (k.creg 0x1208) 4 0 | 8 => fld (k.creg 0x1208) 12 8 | _ => fld (k.creg 0x1208) 20 16
      let g := if bit cfg 2 then fp64 else fp32
      let rf := bt.run.reference g sh bt.mode 0 n
      completes (.basteCheck c) s fun t => s.m.unit t c id ∧ (t.core c).mat.baste = none ∧ (t.core c).mat.acc = k.mat.acc ∧
        (disagrees g tol (fp32.decode nar.toNat) (g.decode rf.1) (g.decode rf.2) = false → (t.core c).ctl = k.ctl) ∧
        (disagrees g tol (fp32.decode nar.toNat) (g.decode rf.1) (g.decode rf.2) = true → s.m.counted t c 0x1220 1 ∧ (t.core c).cregf 0x1230 0 0 = 1 ∧
          (bit cfg 3 = true → 7 ∈ (t.core c).pend)))

/-- R173 to R179: FLOAD reads a descriptor through c1 into its slot, or raises the cause of its checks; FRUN copies its slot and queues a pass; FWAIT goes
on once every pass is complete; a pass starts when its sources are ready, with its results computed from them, and writes them at its end. R160, R165
to R169: what each operation of a finishing stage makes of its operands in FP32. -/
def Obligations.Finishing : Prop :=
  (∀ (s : State) (c : CoreId) (f : BitVec 26) (x n db yb xb : W64), s.m.powered = true → c.val ≠ 256 → (s.m.core c).unitsHeld = false →
    let k := s.m.core c
    let slot := fld f 25 22
    (s.m.standsReady c → fld f 21 0 = 0 →
      (∀ pa m2 bs m3, s.m.holdsOps c [x] 0 → x.toNat % 128 = 0 → (k.bank.cap 1).type = 0 → capFail (k.bank.cap 1) pRD x.toNat 128 = none →
        (s.m.fetched c).places c (k.bank.cap 1) .read x.toNat 128 = .ok ([(.loc pa, 128)], m2) → m2.readNow c pa 128 = .ok (bs, m3) →
        (chainFail bs = none → completes (.fload c f) s fun t => (t.core c).bank = k.bank.took 1 [] ∧ (t.core c).fin = { k.fin with slots := Tab.put k.fin.slots slot bs } ∧
          (∀ a, Memory.byte t.mem a = Memory.byte s.m.mem a) ∧ s.m.amid t c) ∧
        (∀ cause stage, chainFail bs = some (cause, stage) →
          completes (.fload c f) s fun t => s.m.raised t c 5 0x3008 (w64 (slot * 2 ^ 20 + stage * 2 ^ 16 + 0x37 * 2 ^ 8 + cause)))) ∧
      (∀ d, s.m.holdsOps c [n, db, yb, xb] 0 → Tab.get? k.fin.slots slot = some d → runFail (chainOf d) xb.toNat yb.toNat db.toNat n.toNat = none →
        k.fin.queue.length < 4 → (chainOf d).dkind ≠ 3 → completes (.frun c f) s fun t => s.m.unit t c (·.took 4 []) ∧ (t.core c).fin =
          { k.fin with queue := k.fin.queue ++
              [{ slot := slot, desc := d, xbase := xb.toNat, ybase := yb.toNat, dbase := db.toNat, count := n.toNat, pc := k.bank.pc.toNat, seq := k.seq }] } ∧ (t.core c).vec.plain = k.vec.plain ∧ (t.core c).mat = k.mat) ∧
      (s.m.holdsOps c [n, db, yb, xb] 0 → Tab.get? k.fin.slots slot = none →
        completes (.frun c f) s fun t => s.m.raised t c 5 0x3008 (w64 (slot * 2 ^ 20 + 0x38 * 2 ^ 8 + 1))) ∧
      (fld f 25 0 = 0 → k.fin.queue = [] → k.fin.running = none → completes (.fwait c f) s fun t => s.m.went t c (·.took 0 []))) ∧
    (∀ p rest (bad : BoltErrs), k.fin.queue = p :: rest → k.fin.running = none → k.blocked p.seq p.foot false = false → (chainOf p.desc).xkind ≠ 2 →
      (chainOf p.desc).ykind ≠ 2 → p.overlaps = false → k.noZeros → completes (.finPassStart (c, bad)) s fun t => s.m.unit t c id ∧
        (t.core c).fin = { k.fin with queue := rest, running := some (k.evalRest p) } ∧ (t.core c).vec = k.vec ∧ (t.core c).mat = k.mat) ∧
    (∀ p e, k.fin.running = some p → (chainOf p.desc).dkind = 1 → (chainOf p.desc).dfmt = 8 → (chainOf p.desc).dsc = 0 → (chainOf p.desc).rop = 0 → p.count = 1 →
      p.res = [e] → p.scs = [] → p.written = 0 → k.noZeros → completes (.finPassComplete c) s fun t => s.m.unit t c id ∧ (t.core c).fin.running = none ∧
        s.m.counted t c 0x3040 1 ∧ s.m.counted t c 0x3048 1 ∧ s.m.counted t c 0x3058 e.nans ∧ (t.core c).vec.masks = k.vec.masks ∧
        (∀ a, Memory.byte (t.core c).vec.regs a = if p.dbase ≤ a ∧ a < p.dbase + 4 then (toLe 4 e.out).getD (a - p.dbase) 0 else Memory.byte k.vec.regs a))) ∧
  (∀ (w : W64) (val : Nat → Nat), fld w 59 58 = 0 →
    let op := fld w 63 60
    let a := val (fld w 31 24)
    let va := fp32.decode a
    let vb := fp32.decode (val (fld w 23 16))
    let vc := fp32.decode (val (fld w 15 8))
    let gives (r : Nat) : Prop := (stage false w val).1 = r
    (op = 0 → gives a) ∧
    (op = 1 → gives (fp32.round false (Fl.mul (Fl.add va vb) (Fl.pow2 0)))) ∧ (op = 2 → gives (fp32.round false (Fl.mul (Fl.mul va vb) (Fl.pow2 0)))) ∧
    (op = 3 → gives (fp32.round false (Fl.mul (Fl.fma va vb vc) (Fl.pow2 0)))) ∧
    (op = 4 → va.isNan = false → vb.isNan = false → gives (fp32.round false (if Fl.lt true vb va then vb else va))) ∧
    (op = 5 → va.isNan = false → vb.isNan = false → gives (fp32.round false (if Fl.lt true va vb then vb else va))) ∧
    ((op = 4 ∨ op = 5) → (va.isNan = true ∨ vb.isNan = true) → gives (fp32.round false .nan)) ∧
    (op = 6 → fld w 57 55 = 1 → gives (fp32.round false (if Fl.lt false va vb then .fin false 1 0 else Fl.zero))) ∧
    (op = 7 → (va.isNan = true ∨ va.isZero = true) → gives (val (fld w 15 8))) ∧
    (op = 7 → va.isNan = false → va.isZero = false → gives (val (fld w 23 16))))

/-- R33 to R42, R633: a DATA, TRIM or CLOSE chunk arrives. One that passes the checks of R38 goes, at a STAGE entry, to the landing chunks where its SEQ lies
within the slots from REL on and to the waiting ones where it does not, and at a PASS entry to those that pass; one that fails a check is dropped,
counted under its check and in DROPPED, and the entry is otherwise as it was. While one waits, no chunk of its link is taken (R42). -/
def Obligations.ChunkArrival : Prop :=
  ∀ (s : State) (l : LinkId) (d : List Byte), s.m.powered = true →
    (s.m.vc1Held l = true → ∀ i, i ∈ [Instr.dataChunk l d, .trimChunk l d, .closeChunk l d] → completes i s fun t => t = s.m) ∧ (
    s.m.vc1Held l = false → s.m.passPart l d = none → s.m.takeMsg 1 d = (none, s.m) → 32 ≤ d.length →
    let n := chStream d
    let x : SemIn := { data := d, link := l.val }
    let each (P : Instr → Prop) : Prop := (chKind d = 1 → P (.dataChunk l d)) ∧ (chKind d = 2 → P (.trimChunk l d)) ∧ (chKind d = 3 → P (.closeChunk l d))
    let becomes (i : Instr) (e : SemEntry) : Prop := completes i s fun t => t.sx n = e ∧ (∀ k, k ≠ n → t.sx k = s.m.sx k) ∧ s.m.onlySem t
    each fun i =>
      (s.m.chunkFail d = none → s.m.sxStage n = true → s.m.sxState n = 1 → 0 ≤ seqDiff (chSeq d) (s.m.sxNext n) → seqDiff (chSeq d) (s.m.sxNext n) < 4096 →
        Tab.get? (s.m.sx n).slots (chSeq d) = none →
        (seqUp (chSeq d) (s.m.sx n).rel < s.m.sxSlots n → s.m.landUp n = true → becomes i { s.m.sx n with landing := (s.m.sx n).landing ++ [x] }) ∧
        ((s.m.sxSlots n ≤ seqUp (chSeq d) (s.m.sx n).rel ∨ s.m.landUp n = false) → becomes i { s.m.sx n with waiting := (s.m.sx n).waiting ++ [x] })) ∧
      (s.m.chunkFail d = none → s.m.sxStage n = false → becomes i { s.m.sx n with passing := (s.m.sx n).passing ++ [x] }) ∧
      (s.m.chunkFail d = some 0 → completes i s fun t => s.m.tallied t (bSEM + 0x100) 1 ∧ t.sem = s.m.sem) ∧
      (∀ j, 0 < j → s.m.chunkFail d = some j → completes i s fun t => s.m.tallied t (bSEM + 0x100 + 8 * j) 1 ∧ s.m.tallied t (bSEM + 0x100 + 8 * 17) 1 ∧
        t.sxf n 0x28 13 13 = 1 ∧ t.sem = s.m.sem ∧ t.mem = s.m.mem ∧ t.cores = s.m.cores))

/-- R39 to R42, R633, R637: a chunk that waited lands once its SEQ lies within the slots; a landed chunk with a good CHECK takes its slot, and its bytes stand
in its slot of every bolt of the landing group; one with a bad CHECK at an entry with one source fences the entry; a PASS entry sends its oldest chunk on
under the outgoing STREAM, also before its last bytes have come, and once its last byte has passed a bad CHECK is counted. -/
def Obligations.ChunkLandingAndPass : Prop :=
  ∀ (s : State) (n : StreamId) (x : SemIn) (rest : List SemIn), s.m.powered = true → x.inMsg = none →
    let e := s.m.sx n
    let d := x.data
    let seq := chSeq d
    (e.waiting = x :: rest → s.m.chunkFail d = none → s.m.sxState n = 1 → 0 ≤ seqDiff seq (s.m.sxNext n) → seqDiff seq (s.m.sxNext n) < 4096 →
      Tab.get? e.slots seq = none → seqUp seq e.rel < s.m.sxSlots n → s.m.landUp n = true →
      completes (.waitingChunkAdmit n) s fun t => t.sx n = { e with waiting := rest, landing := e.landing ++ [x] } ∧ s.m.onlySem t) ∧
    (e.landing = x :: rest → s.m.sxState n = 1 → 0 ≤ seqDiff seq (s.m.sxNext n) → s.m.landUp n = true → s.m.heldBack (.entry n) = false →
      (chLenOk d = true → chOk d = true → Tab.get? e.slots seq = none → e.failed = [] →
        completes (.chunkLanded n) s fun t => Tab.get? (t.sx n).slots seq = some { data := setStream d n } ∧ (t.sx n).landing = rest ∧ t.mem = s.m.mem ∧
          t.bar0 = s.m.bar0 ∧
          let off := (s.m.sxf n 0x18 17 0 + seq % s.m.sxSlots n * s.m.sxf n 0x18 31 20) * 16
          let bs := (setStream d n).take (0x30 + 16 * chLen d)
          ∀ c a, Memory.byte (t.core c).bolt a = if s.m.sxf n 0x14 7 0 ≤ c ∧ c ≤ s.m.sxf n 0x14 15 8 ∧ off ≤ a ∧ a < off + bs.length then bs.getD (a - off) 0
            else Memory.byte (s.m.core c).bolt a) ∧
      (chLenOk d = true → chOk d = false → s.m.sxf n 0x10 31 31 = 0 → completes (.chunkLanded n) s fun t => t.sxRaw n = 3 ∧ (t.sx n).slots = e.slots ∧
        s.m.tallied t (bSEM + 0x100 + 8 * 3) 1 ∧ t.sxf n 0x28 8 8 = 1 ∧ t.cores = s.m.cores ∧ t.mem = s.m.mem)) ∧
    (∀ dest g dl, e.passing = x :: rest → s.m.oneWay n dest g dl → completes (.passForward n) s fun t =>
      t.sx n = { e with passing := rest, passed := e.passed ++ [x] } ∧ t.bar0 = s.m.bar0 ∧
      t.outQueue g = s.m.outQueue g ++ [{ msg := { dest := dest, src := s.m.dev, vc := 1, data := setStream d (s.m.sxf n 0x00 11 0) }, dl := dl
                                          seam := some (n, 0), more := x.cut.isSome, cut := x.cut }]) ∧
    (e.passed = x :: rest → x.more = false → chLenOk d = true → completes (.passLastByte n) s fun t => t.sx n = { e with passed := rest } ∧
      (chOk d = true → s.m.onlySem t) ∧ (chOk d = false → s.m.tallied t (bSEM + 0x100 + 8 * 15) 1))

/-- R43, R44, R51, R59, R61: the chunk at NEXT is handled: NEXT moves on; DATA at or past COMMIT moves COMMIT when it is LAST and not tentative, and below it is
dropped and counted; TRIM at or past COMMIT sets COMMIT; CLOSE closes the entry; an armed mark at its SEQ captures OUTSEQ and COMMIT as they
stood. A count written to SEM_SxREL releases the oldest slots. -/
def Obligations.ChunkHandling : Prop :=
  ∀ (s : State) (n : StreamId) (q : SemSlot),
    let seq := s.m.sxNext n
    let com := s.m.sxCommit n
    let pos := chPos q.data
    (s.m.powered = true → Tab.get? (s.m.sx n).slots seq = some q → s.m.sxState n = 1 → s.m.heldBack (.entry n) = false → q.handled = false → q.released = false → s.m.sxf n 0x00 28 28 = 0 →
      let does (P : Mod → Prop) : Prop := completes (.handleAtNext n) s fun t => t.sxNext n = (seq + 1) % 2 ^ 32 ∧ t.mem = s.m.mem ∧ P t
      (chKind q.data = 1 → com ≤ pos → (chTent q.data = true → pos < com + 16) → does fun t =>
        t.sxCommit n = (if chLast q.data = true ∧ chTent q.data = false then (pos + 1) % 2 ^ 32 else com) ∧
        Tab.get? (t.sx n).slots seq = some { q with handled := true } ∧ t.sxRaw n = 1) ∧
      (chKind q.data = 1 → pos < com → does fun t => t.sxCommit n = com ∧ s.m.tallied t (bSEM + 0x100 + 8 * 6) 1) ∧
      (chKind q.data = 2 → com ≤ pos → does fun t => t.sxCommit n = pos ∧ Tab.get? (t.sx n).slots seq = some { q with handled := true }) ∧
      (chKind q.data = 2 → pos < com → does fun t => t.sxCommit n = com ∧ s.m.tallied t (bSEM + 0x100 + 8 * 8) 1) ∧
      (chKind q.data = 3 → does fun t => t.sxRaw n = 4 ∧ t.sxCommit n = com) ∧
      ((s.m.sx n).armed = true → s.m.sxf n 0x3C 31 0 = seq → does fun t => t.sxf n 0x40 31 0 = s.m.sxf n 0x30 31 0 ∧ t.sxf n 0x44 31 0 = com ∧
        t.sxf n 0x28 14 14 = 1 ∧ (t.sx n).armed = false)) ∧
    (∀ h : HostId, s.m.reachedBy h (bSx n + 0x38) → s.m.sxState n = 1 →
      (Tab.get? (s.m.sx n).slots (s.m.sx n).rel = some q → q.handled = true → Tab.get? (s.m.sx n).slots (((s.m.sx n).rel + 1) % 2 ^ 32) = none →
        completes (.semSxrel h n 1) s fun t => t.sx n = { s.m.sx n with rel := ((s.m.sx n).rel + 1) % 2 ^ 32, slots := Tab.del (s.m.sx n).slots (s.m.sx n).rel } ∧
          s.m.onlySem t) ∧
      (completes (.semSxrel h n 0) s fun t => t.sx n = s.m.sx n ∧ t.sxf n 0x28 12 12 = 1 ∧ s.m.tallied t (bSEM + 0x100 + 8 * 14) 1))

/-- R46 to R49, R53: an accepted send descriptor makes one chunk with the entry's next outgoing SEQ, for its destination's queue; a descriptor that fails
the checks of R47 is rejected and counted; with every queue full the post waits, and is made once there is room; AUTO_FWD sends a recorded TRIM or
CLOSE once the stage has sent as many LAST chunks as it had seen. R13, R56 to R58, R62: a host that reaches an entry starts it from SHADOW with RUN,
fences it with FENCE, marks a twin down with DOWN0 or DOWN1, and arms a mark with SEM_SxMARK; a host that does not reach it changes nothing. -/
def Obligations.SeamSendsAndControl : Prop :=
  (∀ (s : State) (c : CoreId) (w : W64), s.m.powered = true → s.m.noCue →
    let d := toLe 8 (s.m.core c).semWin.toNat ++ toLe 8 w.toNat
    let out (n : Nat) (t : Mod) : Prop := t.sxf n 0x30 31 0 = (s.m.sxf n 0x30 31 0 + 1) % 2 ^ 32
    let chunk (d : List Byte) : List Byte :=
      let n := sdf d 0 11 0
      buildChunk (ofLe (d.take 4)) (s.m.sxf n 0x30 31 0) (sdf d 4 31 0) (sdf d 12 15 0) s.m.dev (s.m.sxf n 0x00 11 0)
        (if sdf d 0 23 12 = 0 then [] else Memory.bytes (s.m.core c).bolt (16 * sdf d 8 17 0) (16 * sdf d 0 23 12))
    ((s.m.sem.posts.any (·.1 == c.val)) = false →
      (∀ dest g dl, s.m.sendOk c d = true → s.m.oneWay (sdf d 0 11 0) dest g dl → (s.m.core c).boltErr = [] → s.m.coreFenced c = false →
        completes (.sendDescriptorPost c w) s fun t => out (sdf d 0 11 0) t ∧ s.m.sentChunk t (sdf d 0 11 0) dest g dl (chunk d) ∧ t.mem = s.m.mem) ∧
      (s.m.sendOk c d = false → completes (.sendDescriptorPost c w) s fun t => t.sxf (sdf d 0 11 0) 0x28 12 12 = 1 ∧
        s.m.tallied t (bSEM + 0x100 + 8 * 14) 1 ∧ t.sem = s.m.sem ∧ t.lnk = s.m.lnk) ∧
      (s.m.sendOk c d = true → s.m.semFull (sdf d 0 11 0) = true → completes (.sendDescriptorPost c w) s fun t =>
        t = { s.m with sem := { s.m.sem with posts := s.m.sem.posts ++ [(c.val, d)] } })) ∧
    (∀ dest g dl e, s.m.sem.posts = [(c.val, e)] → s.m.sendOk c e = true → s.m.oneWay (sdf e 0 11 0) dest g dl → (s.m.core c).boltErr = [] →
      s.m.coreFenced c = false → completes (.sendQueueRoom c) s fun t => out (sdf e 0 11 0) t ∧ s.m.sentChunk t (sdf e 0 11 0) dest g dl (chunk e) ∧ t.sem.posts = []) ∧
    (∀ (n : StreamId) dest g dl x rest, (s.m.sx n).fwd = x :: rest → s.m.sxState n = 1 → x.count ≤ (s.m.sx n).lastOut → s.m.heldBack (.entry n) = false → s.m.oneWay n dest g dl →
      completes (.autoFwdSend n) s fun t => out n t ∧ (t.sx n).fwd = rest ∧ s.m.sentChunk t n dest g dl (buildChunk (ofLe (x.head.take 4)) (s.m.sxf n 0x30 31 0)
        (ofLe ((x.head.drop 8).take 4)) (ofLe ((x.head.drop 12).take 4)) s.m.dev (s.m.sxf n 0x00 11 0) []))) ∧
  (∀ (s : State) (h : HostId) (n : StreamId) (seq : W32),
    let ctl := bSx n + 0x24
    let quiet (t : Mod) : Prop := t.mem = s.m.mem ∧ t.cores = s.m.cores ∧ t.lnk = s.m.lnk ∧ t.nv = s.m.nv ∧ t.pwr = s.m.pwr
    (s.m.reachedBy h ctl →
      (s.m.sxState n = 2 → completes (.semSxctlRun h n) s fun t => t.sxRaw n = 1 ∧ t.sem = s.m.sem ∧ quiet t) ∧
      (s.m.sxState n ≠ 2 → completes (.semSxctlRun h n) s fun t => t = s.m) ∧
      (s.m.sxState n ≠ 0 → completes (.semSxctlFence h n) s fun t => t.sxRaw n = 3 ∧ t.sem = s.m.sem ∧ quiet t) ∧
      (completes (.semSxctlDown0 h n) s fun t => t.sxf n 0x24 2 2 = 1 ∧ t.sxf n 0x24 3 3 = s.m.sxf n 0x24 3 3 ∧ t.sem = s.m.sem ∧ quiet t) ∧
      (completes (.semSxctlDown1 h n) s fun t => t.sxf n 0x24 3 3 = 1 ∧ t.sxf n 0x24 2 2 = s.m.sxf n 0x24 2 2 ∧ t.sem = s.m.sem ∧ quiet t)) ∧
    (s.m.reachedBy h (bSx n + 0x3C) → completes (.semSxmark h n seq) s fun t => t.sxf n 0x3C 31 0 = seq.toNat ∧ t.sx n = { s.m.sx n with armed := true } ∧ quiet t) ∧
    ((s.m.host h.val).linked = false → ∀ i, i ∈ [Instr.semSxctlRun h n, .semSxctlFence h n, .semSxctlDown0 h n, .semSxctlDown1 h n, .semSxmark h n seq] →
      completes i s fun t => t = s.m))

/-- R77, R79: a window of the stitch monitor shows its count with VALID and the counted clock, and is numbered; when the counted clock stops, VALID clears;
a clock that returns sets SRC again. A core rail that falls below the logic's limit stops the panel's cores and its other units, and no other panel's. -/
def Obligations.StitchMonitorAndSag : Prop :=
  ∀ (s : State),
    (∀ (p : PanelId) (count : BitVec 20), s.m.fit.phase ≠ .off → s.m.clockSrc ≠ 0 → completes (.stitchMonitorWindow p count) s fun t =>
      let a := bPWR + 0x40 + 8 * p.val
      t.rdf a 19 0 = count.toNat ∧ t.rdf a 31 31 = 1 ∧ t.rdf a 30 29 = s.m.clockSrc ∧ t.rdf a 63 32 = (s.m.rdf a 63 32 + 1) % 2 ^ 32 ∧
      ∀ b, b ≠ a → t.rd b = s.m.rd b) ∧
    (∀ h : HostId, (s.m.host h.val).clock = true → (∀ g : HostId, g ≠ h → (s.m.host g.val).clock = false) → s.m.fit.phase ≠ .off →
      completes (.monitorClockLoss h) s fun t => (t.host h.val).clock = false ∧ ∀ p, p < 4 → t.rdf (bPWR + 0x40 + 8 * p) 31 31 = 0 ∧ t.rdf (bPWR + 0x40 + 8 * p) 30 29 = 0) ∧
    (∀ h : HostId, (s.m.host h.val).clock = false → s.m.fit.phase ≠ .off → completes (.referenceClockReturn h) s fun t => (t.host h.val).clock = true ∧
      ∀ p, p < 4 → t.rdf (bPWR + 0x40 + 8 * p) 30 29 = t.clockSrc) ∧
    (∀ (p : PanelId) (v : BitVec 16), s.m.pwr.groups = 6 → completes (.coreRailCollapse p v) s fun t => t.railVolt p = v.toNat ∧ t.panelUp p = false ∧
      (∀ q, q ≠ p.val → t.panelUp q = s.m.panelUp q) ∧
      ∀ c, (t.core c).stopped = (decide (c / 64 = p.val) || (s.m.core c).stopped) ∧ (t.core c).bank = (s.m.core c).bank ∧ t.mem = s.m.mem)

/-- R301, R309 to R314, R323: the lead engine takes an entry of the submission ring. One outside the partition's memory, and a SUBMIT where a structure of
a PAT_ register lies outside it, fail with PAT_RANGE. A SUBMIT that passes the checks of R314 makes its pattern in flight: each piece's state word
holds its count, and one with count 0 enters the ready pool of its panel; one that fails a check has its completion entry written with the check's
STATUS; an ABORT cancels the pieces that wait or are ready; one that names no pattern in flight has STATUS 0x12. R309, R313, R319: RRESET sets HEAD to
the tail and clears RINGERR; a pattern of which every piece has ended has its completion entry written, its DONE_NOTCH fired and its slot freed; an
entry that waited is written once the ring has room; PAT_NFIRE fires a notch. -/
def Obligations.PatternsAndRings : Prop :=
  (∀ (s : State) (p : PartId), s.m.powered = true → s.m.ringOpen p → s.m.spl.fenced = [] →
    let m1 := s.m.wrf (bPAT p.val + 0x48) 31 0 (s.m.rdf (bPAT p.val + 0x48) 31 0 + 1)
    let e := s.m.ringEntry p.val
    let n := ringSlot e
    let op := bitsN (descW e 0 4) 7 0
    let moved (t : Mod) : Prop := t.rdf (bPAT p.val + 0x48) 31 0 = (s.m.rdf (bPAT p.val + 0x48) 31 0 + 1) % 2 ^ 32
    let x := m1.readHeader (descW e 8 8) (w64 (descW e 0x10 8))
    let k := m1.recf x 0 4 15 0
    let g := m1.recPanel x 0
    let id : PieceId := { part := p.val, slot := n, ix := 0 }
    let inside := (s.m.part p.val).holds (s.m.ringPlace p.val) 32
    (inside = false → s.m.compOpen p.val → completes (.submit p) s fun t => moved t ∧ t.pat = s.m.pat ∧ ∃ sl tag, s.m.wroteEntry t p.val 0x13 sl 0 0 tag) ∧
    (inside = true → op ≠ 2 → m1.submitFail p.val e x = none →
      completes (.submit p) s fun t => moved t ∧ t.pat.slots = Tab.put s.m.pat.slots (slotKey p.val n) x ∧ s.m.tallied t (bPAT p.val + 0x80) 1 ∧
        (x.pieces = 1 → (x.stateBase + 8 ≤ x.recBase ∨ x.recBase + x.recSize ≤ x.stateBase) →
          t.pieceCount x 0 = k ∧ (k ≠ 0 → t.pieceState x 0 = 0 ∧ t.pat.pools = s.m.pat.pools) ∧
          (k = 0 → m1.recFan x 0 = true → t.pat.fanouts = s.m.pat.fanouts ++ [id]) ∧
          (k = 0 → m1.recFan x 0 = false → (s.m.pool g).length < 4096 → Tab.get [] s.m.pat.poolWait g = [] →
            t.pieceState x 0 = 1 ∧ t.pool g = s.m.pool g ++ [{ piece := id, prio := m1.recPrio x 0 }]))) ∧
    (s.m.compOpen p.val →
      (∀ st i, inside = true → op ≠ 2 → m1.submitFail p.val e x = some (st, i) →
        completes (.submit p) s fun t => moved t ∧ t.pat = s.m.pat ∧ s.m.wroteEntry t p.val st n i 0 (w64 (descW e 0x10 8))) ∧
      (inside = true → op = 1 → ringReserved e = false → s.m.pat? p.val n = none → (∃ r, r ∈ m1.patSpans p.val ∧ 0 < r.2 ∧ (s.m.part p.val).holds r.1 r.2 = false) →
        completes (.submit p) s fun t => moved t ∧ t.pat = s.m.pat ∧ s.m.wroteEntry t p.val 0x13 n 0 0 (w64 (descW e 0x10 8))) ∧
      (inside = true → op = 2 → ringReserved e = false → s.m.pat? p.val n = none →
        completes (.abort p) s fun t => moved t ∧ t.pat = s.m.pat ∧ s.m.wroteEntry t p.val 0x12 n 0 0 (w64 (descW e 0x10 8)))) ∧
    (∀ y, inside = true → op = 2 → ringReserved e = false → s.m.pat? p.val n = some y →
      let gone (i : Nat) : Bool := decide (i < y.pieces ∧ s.m.pieceState y i ≤ 1)
      let count := ((List.range y.pieces).filter gone).length
      completes (.abort p) s fun t => moved t ∧ t.pat? p.val n = some { y with left := y.left - count, cancelled := y.cancelled + count, aborted := true } ∧
        (∀ i, i < y.pieces → t.pieceCount y i = s.m.pieceCount y i ∧ t.pieceState y i = if gone i then 6 else s.m.pieceState y i) ∧
        (∀ a, t.pool a = (s.m.pool a).filter fun r => !(r.piece.part == p.val && r.piece.slot == n && gone r.piece.ix)) ∧
        t.pat.saved = s.m.pat.saved.filter fun v => !(v.piece.part == p.val && v.piece.slot == n && gone v.piece.ix))) ∧
  (∀ (s : State) (p : PartId),
    (∀ h : HostId, s.m.reachedBy h (bPAT p.val + 0x70) → completes (.rreset h p) s fun t =>
      t.rdf (bPAT p.val + 0x48) 31 0 = s.m.rdf (bPAT p.val + 0x40) 31 0 ∧ t.rdf (bPAT p.val + 0x68) 0 0 = 0 ∧ t.pat = s.m.pat ∧ t.mem = s.m.mem ∧
      ∀ a, a ≠ bPAT p.val + 0x48 → a ≠ bPAT p.val + 0x68 → t.rd a = s.m.rd a) ∧
    (∀ (h : HostId) (v : W64), s.m.reachedBy h (bPAT p.val + 0x60) → fld v 15 0 ≠ 0xFFFF → completes (.patNfire h p v) s fun t =>
      t = { s.m with pat := { s.m.pat with fires := s.m.pat.fires ++ [{ part := p.val, notch := fld v 15 0, src := .host p.val }] } }) ∧
    (s.m.powered = true → s.m.leadUp p.val = true → s.m.compOpen p.val →
      (∀ (n : Fin 64) x, s.m.pat? p.val n.val = some x → x.left = 0 → s.m.pat.compWait = [] → s.m.heldBack (.lead p.val) = false → x.doneNotch ≠ 0xFFFF →
        completes (.patternComplete p n) s fun t => s.m.wroteEntry t p.val (if x.aborted then 1 else 0) n.val 0 x.cancelled x.tag ∧
          t.pat.slots = Tab.del s.m.pat.slots (slotKey p.val n.val) ∧ t.pat.fires = s.m.pat.fires ++ [{ part := p.val, notch := x.doneNotch, src := .lead p.val }]) ∧
      (∀ e, s.m.pat.compWait = [e] → e.part = p.val → completes (.completionRingRoom p) s fun t =>
        s.m.wroteEntry t p.val e.status e.slot e.failIdx e.cancelled e.tag ∧ t.pat.compWait = [])) ∧
    (∀ (n : Fin 64) x, s.m.powered = true → s.m.leadUp p.val = true → s.m.heldBack (.lead p.val) = false → s.m.ringLen p.val ≤ s.m.compFill p.val → s.m.pat? p.val n.val = some x → x.left = 0 → s.m.pat.compWait = [] →
      completes (.patternComplete p n) s fun t => ∃ e, t = { s.m with pat := { s.m.pat with compWait := [e] } } ∧ e.tag = x.tag ∧ e.notch = some x.doneNotch))

/-- R315, R316, R320, R322, R331: a fire that no seat binds counts down the piece of a VALID binding entry, and is UNBOUND without one; one seat that binds it
counts it, or holds it while its count is full; a count-down takes one unit, makes a waiting piece ready at 0 and is STRAY where the count is 0 or the piece
waits no more; those of one list to one panel arrive in its order; a completed piece goes to STATE 4 and its listed successors are counted down, a
fan-out's too. -/
def Obligations.NotchesAndCountDowns : Prop :=
  ∀ (s : State) (k : Nat), s.m.powered = true → s.m.spl.fenced = [] →
    (∀ f, s.m.pat.fires[k]? = some f → s.m.leadUp f.part = true → s.m.heldBack f.src = false →
      let e := (s.m.bindEntry f.part f.notch).1
      let sl := bitsN e 45 40
      let ix := bitsN e 15 0
      let gone (t : Mod) : Prop := t.pat.fires = s.m.pat.fires.eraseIdx k
      ((∀ c, c ∈ (s.m.part f.part).cores → (s.m.core c).seatFor f.notch = none) →
        (bitsN e 63 63 = 0 → completes (.notchDelivery k) s fun t => gone t ∧ s.m.tallied t (bPAT f.part + 0x80 + 8 * 3) 1 ∧ t.mem = s.m.mem) ∧
        (bitsN e 63 63 = 1 → s.m.pat? f.part sl = none → completes (.notchDelivery k) s fun t => gone t ∧ s.m.tallied t (bPAT f.part + 0x80 + 8 * 4) 1 ∧
          t.mem = s.m.mem) ∧
        (∀ x, bitsN e 63 63 = 1 → s.m.pat? f.part sl = some x → ix < x.pieces →
          (s.m.pieceState x ix = 0 → 2 ≤ s.m.pieceCount x ix → completes (.notchDelivery k) s fun t => gone t ∧
            t.pieceCount x ix = s.m.pieceCount x ix - 1 ∧ t.pieceState x ix = 0) ∧
          (s.m.pieceState x ix ≠ 0 → completes (.notchDelivery k) s fun t => gone t ∧ s.m.tallied t (bPAT f.part + 0x80 + 8 * 4) 1 ∧ t.mem = s.m.mem))) ∧
      (∀ c i, (s.m.part f.part).cores = [c] → (s.m.core c).seatFor f.notch = some i → i < 3 → bitsN e 63 63 = 0 →
        let v := (s.m.core c).cregf 0x0A0 (16 * i + 15) (16 * i)
        (v < 65535 → completes (.notchDelivery k) s fun t => gone t ∧ (t.core c).cregf 0x0A0 (16 * i + 15) (16 * i) = v + 1 ∧
          ∀ a, a < bMON → t.rd a = s.m.rd a) ∧
        (v = 65535 → completes (.notchDelivery k) s fun t => gone t ∧ t.cores = s.m.cores ∧
          t.pat.held = s.m.pat.held ++ [{ core := c, seat := i, notch := f.notch, src := f.src, piece := (s.m.core c).piece.getD {} }]))) ∧
    (∀ d i, s.m.pat.downs[k]? = some d → firstIx (fun (e : Down) => e.src == d.src && s.m.homeOf e.dst == s.m.homeOf d.dst) s.m.pat.downs = some i →
      exec (.countDown k) s = exec (.countDown i) s) ∧
    (∀ d x, s.m.pat.downs[k]? = some d → firstIx (fun (e : Down) => e.src == d.src && s.m.homeOf e.dst == s.m.homeOf d.dst) s.m.pat.downs = some k →
      s.m.panelUp (s.m.homeOf d.dst) = true → s.m.pat? d.dst.part d.dst.slot = some x → d.dst.ix < x.pieces →
      let id := d.dst
      let n := s.m.pieceCount x id.ix
      let g := s.m.recPanel x id.ix
      let a := x.recBase + x.recSize * id.ix
      let does (P : Mod → Prop) : Prop := completes (.countDown k) s fun t => t.pat.downs = s.m.pat.downs.eraseIdx k ∧ P t
      (n = 0 ∨ s.m.pieceState x id.ix ≠ 0 → does fun t => s.m.tallied t (bPAT id.part + 0x80 + 8 * 4) 1 ∧ t.mem = s.m.mem) ∧
      (2 ≤ n → s.m.pieceState x id.ix = 0 → does fun t => t.pieceCount x id.ix = n - 1 ∧ t.pieceState x id.ix = s.m.pieceState x id.ix ∧ t.pat.pools = s.m.pat.pools) ∧
      (n = 1 → s.m.pieceState x id.ix = 0 → (x.stateBase + 8 * id.ix + 8 ≤ a ∨ a + x.recSize ≤ x.stateBase + 8 * id.ix) →
        (s.m.recFan x id.ix = true → does fun t => t.pat.fanouts = s.m.pat.fanouts ++ [id]) ∧
        (s.m.recFan x id.ix = false → (s.m.pool g).length < 4096 → Tab.get [] s.m.pat.poolWait g = [] →
          does fun t => t.pieceState x id.ix = 1 ∧ t.pool g = s.m.pool g ++ [{ piece := id, prio := s.m.recPrio x id.ix }]))) ∧
    (∀ id x, s.m.pat? id.part id.slot = some x → s.m.panelUp (s.m.recPanel x id.ix) = true →
      let ends (i : Instr) : Prop := completes i s fun t => t.pieceState x id.ix = 4 ∧ t.pat? id.part id.slot = some { x with left := x.left - 1 } ∧
        t.pat.downs = s.m.pat.downs ++ (s.m.succsOf x id.ix).map (fun j => { src := id, dst := { id with ix := j } }) ∧ s.m.tallied t (bPAT id.part + 0x80 + 8 * 2) 1
      (s.m.pat.completed[k]? = some id → ends (.pieceComplete k)) ∧ (s.m.pat.fanouts[k]? = some id → ends (.fanoutComplete k)))

/-- R324 to R331, R335: a piece that waits in memory enters its pool once there is room; a free core of a running partition takes the best ready piece of
its panel, which starts with the bank of R326, fails where a cap it names is bad, or goes on with its saved bank; a held delivery is counted once its
seat has room, and is UNBOUND where its seat is gone and no binding entry takes it. R333 to R335: a piece that waits on a fault leaves its core: its
bank stands in a free save slot, its state word shows 3, the core is free and the switch-out is counted; when its save completes it is stored, and a
reply that has come by then makes it ready. -/
def Obligations.SeatsAndSwitches : Prop :=
  (∀ (s : State), s.m.powered = true →
    (∀ (g : PanelId) r rest, s.m.panelUp g.val = true → Tab.get [] s.m.pat.poolWait g.val = r :: rest → (s.m.pool g.val).length < 4096 →
      completes (.poolSpaceFree g) s fun t => t.pool g.val = s.m.pool g.val ++ [r] ∧ Tab.get [] t.pat.poolWait g.val = rest ∧ t.mem = s.m.mem) ∧
    (∀ (c : CoreId) p r x, s.m.panelUp (panelOf c.val) = true → s.m.partOf c.val = some p → (s.m.core c.val).run = .free →
      (s.m.core c.val).halted = false → (s.m.core c.val).stopped = false → (s.m.part p).st = .running → s.m.wild p c.val = false →
      (∀ i, i < c.val % 64 → s.m.takes p (64 * panelOf c.val + i) = false) → s.m.best p c.val = some r → s.m.pat? p r.piece.slot = some x → r.piece.part = p → s.m.rangeFenced (x.stateBase + 8 * r.piece.ix) 8 = false →
      let i := r.piece.ix
      let left (t : Mod) : Prop := t.pool (panelOf c.val) = (s.m.pool (panelOf c.val)).erase r
      ((s.m.pat.saved.find? fun v => v.piece == r.piece) = none →
        (s.m.capsBad p x i = false → completes (.dispatch c) s fun t =>
          let b := (t.core c.val).bank
          let stk := s.m.capEntry p x.stkx
          left t ∧ (t.core c.val).piece = some r.piece ∧ (t.core c.val).run = (if s.m.recSeat x i then .seated else .running) ∧
          t.pieceState x i = (if s.m.recSeat x i then 5 else 2) ∧ b.pc = w64 ((b.cap 0).base + s.m.recf x i 0 31 0) ∧
          b.cap 0 = s.m.capEntry p (s.m.recf x i 8 23 16) ∧ b.ops = [w64 (s.m.rdLe (x.recBase + x.recSize * i + 0x18) 8)] ∧ b.depth = 1 ∧ b.rets = [] ∧
          b.rsp = w64 (stk.base + c.val * x.slice + x.slice) ∧ b.sp = w64 (stk.base + c.val * x.slice + 128 * x.ostk) ∧
          b.vl = (s.m.core c.val).bank.vl ∧ (b.cap 6).tag = false ∧ (b.cap 7).tag = false) ∧
        (s.m.capsBad p x i = true → completes (.dispatch c) s fun t => left t ∧ t.pieceState x i = 7 ∧
          t.pat? p r.piece.slot = some { x with left := x.left - 1, cancelled := x.cancelled + 1, aborted := true } ∧ (t.core c.val).run = .free ∧
          (t.core c.val).bank = (s.m.core c.val).bank ∧ s.m.tallied t (bPAT p + 0x80 + 8 * 7) 1)) ∧
      (∀ v, (s.m.pat.saved.find? fun v => v.piece == r.piece) = some v → completes (.dispatch c) s fun t => left t ∧ t.pieceState x i = 2 ∧
        (t.core c.val).bank = (s.m.getImage (s.m.saveBase p v.slot)).bank ∧ (t.core c.val).piece = some r.piece ∧ (t.core c.val).run = .running ∧
        t.pat.saved = s.m.pat.saved.erase v)) ∧
    (∀ k d, s.m.pat.held[k]? = some d → d.seat < 3 → s.m.leadUp d.piece.part = true →
      let v := (s.m.core d.core).cregf 0x0A0 (16 * d.seat + 15) (16 * d.seat)
      let seated := (s.m.core d.core).run = .seated ∧ (s.m.core d.core).piece = some d.piece
      (¬ seated → bitsN (s.m.bindEntry d.piece.part d.notch).1 63 63 = 0 → completes (.seatDeliveryResume k) s fun t =>
        s.m.tallied t (bPAT d.piece.part + 0x80 + 8 * 3) 1 ∧ t.pat.held = s.m.pat.held.eraseIdx k) ∧
      (seated → v < 65535 → completes (.seatDeliveryResume k) s fun t =>
        (t.core d.core).cregf 0x0A0 (16 * d.seat + 15) (16 * d.seat) = v + 1 ∧ t.pat.held = s.m.pat.held.eraseIdx k) ∧
      (seated → v = 65535 → completes (.seatDeliveryResume k) s fun t => t = s.m))) ∧
  (∀ (s : State), s.m.powered = true →
    (∀ (c : CoreId) va acc level id x slot, (s.m.core c.val).wait = .fault va acc level → (s.m.core c.val).piece = some id → (s.m.core c.val).run = .running →
      s.m.pat? id.part id.slot = some x → s.m.freeSave id.part = some slot → s.m.recPin x id.ix = false → (s.m.core c.val).vec.stations = [] →
      (s.m.core c.val).mat.patches = [] → (s.m.core c.val).fin.running = none → (s.m.core c.val).openLoad = none → s.m.panelUp (panelOf c.val) = true →
      s.m.spl.fenced = [] →
      let a := s.m.saveBase id.part slot
      let w := x.stateBase + 8 * id.ix
      (w + 8 ≤ a ∨ a + 0x52000 ≤ w) →
      completes (.switchOut c) s fun t => t.rdMem a 640 = { (s.m.core c.val).bank with prog := (s.m.core c.val).progNow }.image.bytes ∧ t.pieceState x id.ix = 3 ∧ (t.core c.val).run = .free ∧
        (t.core c.val).piece = none ∧ (t.core c.val).wait = .none ∧ s.m.tallied t (bPAT id.part + 0x80 + 8 * 8) 1 ∧
        (∃ v, t.pat.saved = s.m.pat.saved ++ [v] ∧ v.piece = id ∧ v.slot = slot ∧ v.stored = false ∧ v.reply = none ∧ v.va = va) ∧
        ∀ d, d ≠ c.val → (t.core d).bank = (s.m.core d).bank ∧ (t.core d).piece = (s.m.core d).piece) ∧
    (∀ k v, s.m.pat.saved[k]? = some v → v.stored = false → s.m.panelUp v.panel = true →
      (v.reply = none → completes (.saveComplete k) s fun t => t = { s.m with pat := { s.m.pat with saved := s.m.pat.saved.set k { v with stored := true } } }) ∧
      (∀ x, v.reply.isSome = true → s.m.pat? v.piece.part v.piece.slot = some x → (s.m.pool v.panel).length < 4096 → Tab.get [] s.m.pat.poolWait v.panel = [] →
        completes (.saveComplete k) s fun t => t.pool v.panel = s.m.pool v.panel ++ [{ piece := v.piece, prio := s.m.recPrio x v.piece.ix }] ∧
          t.pat.saved = s.m.pat.saved.set k { v with stored := true } ∧ (s.m.spl.fenced = [] → t.pieceState x v.piece.ix = 1))))

/-- R350 to R352: a home slice at an entry that is not in B. GETS is answered DATA.E in U and DATA.S in S, GETX DATA.M in U, UPG of a lone sharer GRANT;
an owner or sharers are asked first; the entry stays in B until GACK, which leaves the state granted. R352, R354, R355: a request or offer that finds
its line in B, or others queued for it, is NAKed and counted, and one marked STARVE is queued; an acknowledgement short of the last is counted off,
and the last one lets the transaction go on. Dirty data go to the panel cache, but not where they pass to a new owner; a holder that has the line no
more is recorded no more. -/
def Obligations.HomeNodes : Prop :=
  (∀ (s : State) (k : Nat) (e : Fin 4) (x : CMsg), s.m.powered = true →
    let la := x.la
    let st := (s.m.dirAt la).st
    let ans (kind : CKind) : CMsg := { kind := kind, la := la, agent := x.agent }
    let grants (i : Instr) (kind : CKind) (next : DirSt) : Prop := completes i s fun t => s.m.sent t k [ans kind] ∧
      ∃ q, (t.dirAt la).txn = some q ∧ q.granted = true ∧ q.agent = x.agent ∧ q.next = next
    let asks (i : Instr) (kind : CKind) (hs : List Nat) : Prop := completes i s fun t => s.m.sent t k (hs.map fun h => { kind := kind, la := la, agent := h }) ∧
      ∃ q, (t.dirAt la).txn = some q ∧ q.granted = false ∧ q.agent = x.agent ∧ q.acks = hs.length
    (s.m.atHome k .gets x → (st = .u → grants (.gets k e) .dataE (.x x.agent)) ∧ (∀ sh, st = .s sh → grants (.gets k e) .dataS (.s (sh.add x.agent))) ∧
      (∀ o, st = .x o → asks (.gets k e) .fwds [o])) ∧
    (s.m.atHome k .getx x → (st = .u → grants (.getx k e) .dataM (.x x.agent)) ∧ (∀ sh, st = .s sh → sh.cores ≠ [] → asks (.getx k e) .inv sh.cores) ∧
      (∀ o, st = .x o → asks (.getx k e) .fwdx [o])) ∧
    (s.m.atHome k .upg x → ∀ sh, st = .s sh →
      (sh.cores = [x.agent] → grants (.upg k e) .grant (.x x.agent)) ∧
      (sh.cores.filter (· != x.agent) ≠ [] → asks (.upg k e) .inv (sh.cores.filter (· != x.agent)))) ∧
    (∀ q, s.m.panelUp (s.m.homePanel la) = true → s.m.coh.msgs[k]? = some x → x.kind = .gack → (s.m.dirAt la).txn = some q → q.granted = true →
      q.agent = x.agent → q.next ≠ .u → s.m.coh.starve = [] →
      completes (.gack k) s fun t => t.dirAt la = { st := q.next } ∧ s.m.sent t k [] ∧ t.mem = s.m.mem)) ∧
  (∀ (s : State) (k : Nat) (e : Fin 4) (x : CMsg), s.m.powered = true → s.m.coh.msgs[k]? = some x → s.m.panelUp (s.m.homePanel x.la) = true →
    let la := x.la
    let cnt (j : Nat) : Nat := bPNC (s.m.homePanel la) + 0x40 + 8 * j
    (∀ i req, (x.kind = .gets ∧ i = Instr.gets k e ∧ req = 0) ∨ (x.kind = .getx ∧ i = .getx k e ∧ req = 1) ∨ (x.kind = .upg ∧ i = .upg k e ∧ req = 2) ∨
        (x.kind = .putm ∧ i = .putm k e ∧ req = 3) ∨ (x.kind = .putc ∧ i = .putc k e ∧ req = 4) →
      (s.m.busy la = true ∨ ((s.m.coh.starve.any fun q => q.la == la) = true ∧ s.m.recallVictim la = none)) →
      (x.starve = false → completes i s fun t => s.m.sent t k [{ kind := .nak, la := la, agent := x.agent, req := req, prefetch := x.prefetch }] ∧
        s.m.tallied t (cnt 4) 1 ∧ t.coh.dir = s.m.coh.dir) ∧
      (x.starve = true → completes i s fun t => s.m.sent t k [] ∧ s.m.tallied t (cnt 5) 1 ∧ t.coh.starve = s.m.coh.starve ++
        [{ slice := sliceOf la, agent := x.agent, la := la, req := x.kind, dirty := x.dirty, poison := x.poison }])) ∧
    (∀ q, (s.m.dirAt la).txn = some q → s.m.coh.starve = [] →
      let next := if x.gone then q.next.remove x.agent else q.next
      let sends (i : Instr) (kind : CKind) (pre : Bool) (q' : DirTxn) : Prop := completes i s fun t =>
        s.m.sent t k [{ kind := kind, la := la, agent := q.agent, prefetch := pre }] ∧ (t.dirAt la).txn = some { q' with acks := 0, granted := true }
      (2 ≤ q.acks →
        (x.kind = .ack → completes (.ack k e) s fun t => (t.dirAt la).txn = some { q with acks := q.acks - 1, fill := q.fill || q.fwd, next := next } ∧ s.m.sent t k []) ∧
        (x.kind = .ackd → completes (.ackd k e) s fun t => (t.dirAt la).txn = some { q with acks := q.acks - 1, next := next } ∧ s.m.sent t k [] ∧
          (x.dirty = true → ¬ (q.fwd = true ∧ (q.req = .getx ∨ q.req = .upg)) → t.pncHas la = true))) ∧
      (q.acks ≤ 1 →
        (x.kind = .ack → q.req = .upg → q.fill = false → q.fwd = false → sends (.ack k e) .grant false { q with next := .x q.agent }) ∧
        (x.kind = .ackd → q.req = .getx → sends (.ackd k e) .dataM false { q with next := .x q.agent }) ∧
        (x.kind = .ackd → q.req = .gets → sends (.ackd k e) .dataS q.pre { q with next := next }))))

/-- R348, R352, R355 to R358: an offer of a dirty line is accepted into the panel cache at age 1; a clean one is accepted or declined; one of a holder that the
entry does not record is acknowledged. A non-caching write at an entry in U writes its bytes; at sharers or an owner it asks for their copies first; a
non-caching read of an owned line asks its owner; either is NAKed while the line is in B, and marked STARVE and queued after its fourth NAK. -/
def Obligations.OffersAndPlainAccesses : Prop :=
  ∀ (s : State) (k : Nat) (x : CMsg), s.m.powered = true →
    let d := s.m.dirAt x.la
    let ans (kind : CKind) : CMsg := { kind := kind, la := x.la, agent := x.agent }
    (s.m.coh.msgs[k]? = some x → s.m.panelUp (s.m.homePanel x.la) = true → s.m.busy x.la = false → (s.m.coh.starve.any fun q => q.la == x.la) = false →
      let takes (i : Instr) : Prop := completes i s fun t => s.m.sent t k [ans .putack] ∧
        ∃ j w, findWay t.coh.pnc (t.pncBase x.la) (t.pncWays x.la) x.la = some (j, w) ∧ w.age = 1
      (∀ e, (x.kind = .putm → d.st.records x.agent = true → takes (.putm k e)) ∧
        (x.kind = .putm → d.st.records x.agent = false → completes (.putm k e) s fun t => s.m.sent t k [ans .putack] ∧ t.coh.dir = s.m.coh.dir) ∧
        (x.kind = .putc → d.st.records x.agent = false → completes (.putc k e) s fun t => s.m.sent t k [ans .putack] ∧ t.coh.dir = s.m.coh.dir)) ∧
      (x.kind = .putc → d.st.records x.agent = true →
        (s.m.takesClean x.la = true → takes (.putc k 0)) ∧
        (s.m.takesClean x.la = false → completes (.putc k 0) s fun t => s.m.sent t k [ans .putdec] ∧ s.m.tallied t (bPNC (s.m.homePanel x.la) + 0x40 + 8 * 3) 1))) ∧
    (∀ (a : Fin 17) la (off : Fin 128) bs, la < 2 ^ 39 → s.m.panelUp (s.m.homePanel la) = true → s.m.agentUp (ncAgent a.val) = true → s.m.coh.upsets = [] →
      let u (hs : List Nat) (kind : CKind) : List CMsg := s.m.coh.msgs ++ hs.map fun h => { kind := kind, la := la, agent := h }
      (s.m.busy la = false → (s.m.coh.starve.any fun q => q.la == la) = false →
        (((s.m.askOf (ncAgent a.val) la true).any (·.idle)) = false →
          ((s.m.dirAt la).st = .u → s.m.lineFenced (la * 128) = false → off.val + bs.length ≤ 128 → completes (.wr a la off bs 0) s fun t =>
            s.m.wrote t (la * 128 + off.val) bs ∧ t.pncHas la = true ∧ t.coh.msgs = s.m.coh.msgs) ∧
          (∀ sh, (s.m.dirAt la).st = .s sh → sh.cores ≠ [] → completes (.wr a la off bs 0) s fun t => t.coh.msgs = u sh.cores .inv ∧ t.busy la = true ∧ t.mem = s.m.mem) ∧
          (∀ o, (s.m.dirAt la).st = .x o → completes (.wr a la off bs 0) s fun t => t.coh.msgs = u [o] .fwdx ∧ t.busy la = true ∧ t.mem = s.m.mem)) ∧
        (((s.m.askOf (ncAgent a.val) la false).any (·.idle)) = false →
          (∀ o, (s.m.dirAt la).st = .x o → completes (.rd a la 0) s fun t => t.coh.msgs = u [o] .fwdr ∧ t.busy la = true ∧ t.mem = s.m.mem) ∧
          ((∀ o, (s.m.dirAt la).st ≠ .x o) → completes (.rd a la 0) s fun t => t.coh.msgs = s.m.coh.msgs ∧ t.pncHas la = true ∧ t.mem = s.m.mem))) ∧
      (s.m.busy la = true →
        (s.m.coh.asks = [] → completes (.rd a la 0) s fun t => t.coh.msgs = s.m.coh.msgs ++ [{ kind := .nak, la := la, agent := ncAgent a.val, req := 5 }] ∧
          t.coh.asks = [{ agent := ncAgent a.val, la := la, idle := true }] ∧ t.mem = s.m.mem) ∧
        (∀ q : NcAsk, s.m.coh.asks = [q] → q.agent = ncAgent a.val → q.la = la → q.write = false → q.idle = false → 4 ≤ q.naks → completes (.rd a la 0) s fun t =>
          t.coh.starve = s.m.coh.starve ++ [{ slice := sliceOf la, agent := ncAgent a.val, la := la, req := .rd }] ∧ t.coh.msgs = s.m.coh.msgs ∧ t.mem = s.m.mem)))

/-- R353 to R357: an L2 installs what it is granted and sends GACK; a NAKed request, offer or plain access is sent again, marked STARVE after its fourth
NAK, and a NAKed prefetch is dropped; an answered offer frees its writeback-buffer entry, and a waiting offer is sent when one is free. R353, R354: a
holder answers its home's demand: INV and RECALL leave the line invalid, FWDX too, FWDS leaves it shared and FWDR exclusive; dirty data go with the
answer, and FWDS, FWDX and FWDR always carry data; a line that stands in the writeback buffer is answered from there, and one that is in neither is
acknowledged without data, both as a line no longer held. -/
def Obligations.CacheMessages : Prop :=
  (∀ (s : State) (k : Nat), s.m.powered = true →
    (∀ x, s.m.coh.msgs[k]? = some x → s.m.agentUp x.agent = true →
      let q := (s.m.core x.agent).mem
      let gets (i : Instr) (st : Mesi) : Prop := completes i s fun t => (t.core x.agent).mem.state x.la = st ∧
        (t.core x.agent).mem.misses = q.misses.filter (·.la != x.la) ∧ t.coh.msgs.getLast? = some { kind := .gack, la := x.la, agent := x.agent } ∧
        t.mem = s.m.mem ∧ ∀ d, d ≠ x.agent → t.core d = s.m.core d
      (x.kind = .dataS → gets (.dataS k) .s) ∧ (x.kind = .dataE → gets (.dataE k) .e) ∧ (x.kind = .dataM → gets (.dataM k) .m) ∧ (x.kind = .grant → gets (.grant k) .m) ∧
      (x.kind = .nak → x.agent < 256 →
        (∀ y, x.req < 3 → q.misses = [y] → y.la = x.la → completes (.nak k) s fun t =>
          (t.core x.agent).mem.misses = (if y.prefetch then [] else [{ y with naks := y.naks + 1, naked := true }]) ∧
            s.m.tallied t (bL2C x.agent + 0x40 + 8 * 5) 1 ∧ s.m.sent t k []) ∧
        (∀ w, 3 ≤ x.req → q.wb = [w] → w.la = x.la → w.sent = true → completes (.nak k) s fun t =>
          (t.core x.agent).mem.wb = [{ w with naks := w.naks + 1, naked := true }] ∧ s.m.tallied t (bL2C x.agent + 0x40 + 8 * 5) 1 ∧ s.m.sent t k [])) ∧
      (∀ a, x.kind = .nak → 256 ≤ x.agent → s.m.coh.asks = [a] → a.agent = x.agent → a.la = x.la → a.write = (x.req == 6) → completes (.nak k) s fun t =>
        t.coh.asks = [{ a with naks := a.naks + 1, naked := true }] ∧ s.m.sent t k []) ∧
      (∀ w rest, q.wb = w :: rest → w.la = x.la → w.sent = true →
        (x.kind = .putack → completes (.putack k) s fun t => (t.core x.agent).mem.wb = rest ∧ s.m.sent t k []) ∧
        (x.kind = .putdec → completes (.putdec k) s fun t => (t.core x.agent).mem.wb = rest ∧ s.m.sent t k []))) ∧
    (∀ (c : Fin 273), s.m.agentUp c.val = true →
      let q := (s.m.core c.val).mem
      let free (naks la : Nat) : Prop := naks < 4 ∨ s.m.starving c.val la = false
      (∀ y, c.val < 256 → q.misses = [y] → y.naked = true → free y.naks y.la → completes (.nakRetry c y.la) s fun t =>
        let kind := match y.req with | 0 => CKind.gets | 1 => .getx | _ => .upg
        t.coh.msgs = s.m.coh.msgs ++ [{ kind := kind, la := y.la, agent := c.val, starve := decide (4 ≤ y.naks), prefetch := y.prefetch }] ∧
          (t.core c.val).mem.misses = [{ y with naked := false }] ∧ t.mem = s.m.mem) ∧
      (∀ w, c.val < 256 → q.misses = [] → q.wb = [w] → w.naked = true → free w.naks w.la → completes (.nakRetry c w.la) s fun t =>
        let x : CMsg := { kind := if w.dirty then .putm else .putc, la := w.la, agent := c.val, starve := decide (4 ≤ w.naks), dirty := w.dirty, poison := w.poison }
        t.coh.msgs = s.m.coh.msgs ++ [x] ∧ (t.core c.val).mem.wb = [{ w with naked := false }] ∧ t.mem = s.m.mem) ∧
      (∀ a, 256 ≤ c.val → s.m.coh.asks = [a] → a.agent = c.val → a.naked = true → free a.naks a.la → completes (.nakRetry c a.la) s fun t =>
        t.coh.asks = [{ a with naked := false, idle := false }] ∧ t.coh.msgs = s.m.coh.msgs ∧ t.mem = s.m.mem)) ∧
    (∀ (c : Fin 256) w rest, s.m.agentUp c.val = true → (s.m.core c.val).mem.wb = w :: rest → w.sent = false → rest.length < 8 → (rest.all (·.sent)) = true →
      completes (.offerBufferFree c) s fun t => t.coh.msgs = s.m.coh.msgs ++
        [{ kind := if w.dirty then .putm else .putc, la := w.la, agent := c.val, dirty := w.dirty, poison := w.poison }] ∧ (t.core c.val).mem.wb = { w with sent := true } :: rest)) ∧
  (∀ (s : State) (k : Nat) (x : CMsg), s.m.powered = true → s.m.noCue → s.m.coh.msgs[k]? = some x → s.m.agentUp x.agent = true → s.m.coh.upsets = [] →
    (s.m.core x.agent).mem.distinct → x.la ∉ (s.m.core x.agent).mem.lostM →
    let q := (s.m.core x.agent).mem
    let st := q.state x.la
    let dirty := decide (st = .m)
    let bad := Tab.get false s.m.poison (2 * x.la)
    let does (i : Instr) (keep : Mesi) (always : Bool) : Prop :=
      (st ≠ .i → completes i s fun t => (t.core x.agent).mem.state x.la = keep ∧ t.mem = s.m.mem ∧
        s.m.sent t k [{ kind := if always || dirty then .ackd else .ack, la := x.la, agent := x.agent, dirty := dirty, poison := bad }]) ∧
      (st = .i → (∀ w, (q.wb.find? fun w => w.la == x.la) = some w → completes i s fun t => t.cores = s.m.cores ∧
        s.m.sent t k [{ kind := if always || w.dirty then .ackd else .ack, la := x.la, agent := x.agent, dirty := w.dirty, poison := bad, gone := true }]) ∧
        ((q.wb.find? fun w => w.la == x.la) = none → completes i s fun t => t.cores = s.m.cores ∧
          s.m.sent t k [{ kind := .ack, la := x.la, agent := x.agent, gone := true }]))
    (x.kind = .inv → does (.inv k 0) .i false) ∧ (x.kind = .recall → does (.recall k 0) .i false) ∧ (x.kind = .fwds → does (.fwds k 0) .s true) ∧
    (x.kind = .fwdx → does (.fwdx k 0) .i true) ∧ (x.kind = .fwdr → does (.fwdr k 0) .e true))

/-- R371 to R378: a shuttle of a panel in force starts the descriptor at the head of its queue where it has room: it passes the checks of R376 and runs, or ends with
the status of the first that fails: ERR_NOTCH fires, SHT_CNT1 counts it and SHT_PERR records the first. An index list in remote memory is asked for
first. -/
def Obligations.ShuttleStart : Prop :=
  ∀ (s : State) (u : ShuttleId) (d : ShtDesc) (rest : List ShtDesc) (i : Instr), s.m.powered = true → s.m.panelUp (u.val / 2) = true → s.m.heldBack (.shuttle u.val) = false →
    s.m.coh.upsets = [] → (s.m.sht u.val).queue = d :: rest → (s.m.sht u.val).running.length < 8 → (d.fence = true → (s.m.sht u.val).running = []) →
    (∀ x, x ∈ (s.m.sht u.val).running → x.id ≠ d.id) →
    let p := d.piece.part
    let old := (s.m.sht u.val).running
    let m1 := s.m.updSht u.val fun q => { q with queue := rest, running := q.running ++ [d] }
    let runs (y : ShtDesc) : Prop := completes i s fun t => t.sht u.val = { queue := rest, running := old ++ [{ y with checked := true }] } ∧ t.mem = s.m.mem
    let ends (st : Nat) : Prop := completes i s fun t => t.sht u.val = { queue := rest, running := old } ∧ t.mem = s.m.mem ∧ s.m.tallied t (bSHT u.val + 0x48) 1 ∧
      (d.f 4 15 0 ≠ 0xFFFF → t.pat.fires = s.m.pat.fires ++ [{ part := p, notch := d.f 4 15 0, src := .shuttle u.val }]) ∧
      (s.m.rdf (bPERR p) 63 63 = 0 → t.rd (bPERR p) = w64 (2 ^ 63 + u.val * 2 ^ 56 + st * 2 ^ 48 + d.addr % 2 ^ 48) ∧ t.rd (bPERR p + 8) = w64 d.core)
    ((i = .copy u ∧ (d.op = 1 ∨ d.op = 0 ∨ 6 < d.op)) ∨ (i = .stride u ∧ d.op = 2) ∨ (i = .gather u ∧ d.op = 3) ∨ (i = .scatter u ∧ d.op = 4) ∨
      (i = .fill u ∧ d.op = 5) ∨ (i = .redadd u ∧ d.op = 6)) →
    (∀ st, d.fail1 = some st → ends st) ∧
    (d.fail1 = none → d.hasIdx = false → (∀ st, s.m.shtFail2 p d = some st → ends st) ∧ (s.m.shtFail2 p d = none → runs d)) ∧
    (∀ ps m2, d.fail1 = none → d.hasIdx = true → m1.shtRange u.val p d.icap .read (d.w 0x30) (d.isize * d.rows) = .ok (ps, m2) →
      (∀ bs m3, anyFar ps = false → m2.shtAwaits u.val d = false → m2.gatherPieces d 0 ps = (bs, false, m3) →
        let y : ShtDesc := { d with idx := d.indices bs, rdata := [] }
        (m3.shtFail2 p y = none → runs y) ∧ (∀ st, m3.shtFail2 p y = some st → ends st)) ∧
      (∀ bs m3, anyFar ps = false → m2.shtAwaits u.val d = false → m2.gatherPieces d 0 ps = (bs, true, m3) → ends 0x10) ∧
      (anyFar ps = true → d.idxAsked = false → completes i s fun t => (t.sht u.val).queue = rest ∧ t.mem = s.m.mem ∧
        ∃ y, (t.sht u.val).running = old ++ [y] ∧ y.id = d.id ∧ y.idxAsked = true ∧ y.checked = d.checked))

/-- R372, R376, R378, R514: a descriptor is done when its bytes are visible: a FILL of a bolt and a COPY between local ranges leave the bytes the spec names,
DONE_NOTCH fires and SHT_CNT0 counts it; one that has met a late status, or whose host read times out, ends with that status. -/
def Obligations.ShuttleEnd : Prop :=
  ∀ (s : State) (u : ShuttleId) (k : Nat) (d : ShtDesc), s.m.powered = true → s.m.panelUp (u.val / 2) = true → s.m.heldBack (.shuttle u.val) = false → s.m.noCue → s.m.coh.upsets = [] →
    (s.m.sht u.val).running[k]? = some d →
    let p := d.piece.part
    let gone (t : Mod) : Prop := (t.sht u.val).running = (s.m.sht u.val).running.filter (·.id != d.id)
    let done (t : Mod) : Prop := gone t ∧ s.m.tallied t (bSHT u.val + 0x40) 1 ∧
      (d.f 4 31 16 ≠ 0xFFFF → t.pat.fires = s.m.pat.fires ++ [{ part := p, notch := d.f 4 31 16, src := .shuttle u.val }])
    let ends (st : Nat) (t : Mod) : Prop := gone t ∧ s.m.tallied t (bSHT u.val + 0x48) 1 ∧
      (s.m.rdf (bPERR p) 63 63 = 0 → t.rd (bPERR p) = w64 (2 ^ 63 + u.val * 2 ^ 56 + st * 2 ^ 48 + d.addr % 2 ^ 48))
    (d.fault = none → d.late = none → d.checked = true → d.moved = false → s.m.shtAwaits u.val d = false →
      (∀ bad, d.op = 5 → d.skind = 0 → d.dkind = 1 → d.rows = 1 → completes (.shuttleDescriptorDone (u, bad) k []) s fun t => done t ∧ t.mem = s.m.mem ∧
        let c := d.f 0 7 0
        ∀ a, Memory.byte (t.core c).bolt a = if d.w 0x10 ≤ a ∧ a < d.w 0x10 + d.len then (toLe 8 (d.w 0x08)).getD ((a - d.w 0x10) % 8) 0
          else Memory.byte (s.m.core c).bolt a) ∧
      (∀ bad a b m1, d.op = 1 → d.skind = 0 → d.dkind = 0 → s.m.allPieces u.val d d.rows = .ok ([([(.loc a, d.len)], [(.loc b, d.len)])], m1) →
        m1.poisoned a d.len = false → s.m.rangeFenced b d.len = false → completes (.shuttleDescriptorDone (u, bad) k []) s fun t => done t ∧ s.m.wrote t b (s.m.rdMem a d.len))) ∧
    (∀ st h, d.late = some st → completes (.shuttleDescriptorFail u k h) s (ends st)) ∧
    (d.late = none → d.checked = true → (d.skind = 2 ∨ d.dkind = 2) → completes (.shuttleDescriptorFail u k true) s (ends 0x13)) ∧
    ((s.m.host (s.m.part p).owner).clock = true → d.checked = true → d.skind = 2 → d.hasSrc = true → d.moved = false → completes (.completionTimeout u k) s (ends 0x13))

/-- R393 to R397, R577: each channel clock the bucket of a defined partition, or of calibration, gains A times its share up to its depth; a request whose bucket holds tokens is admitted and charged; one without
may borrow where no charged request waits and its channel is idle, and is counted; else it waits. A training pair waits for the
calibration bucket, and one that finds its predecessor waiting drops it. -/
def Obligations.SpoolRegulators : Prop :=
  ∀ (s : State) (v : SpoolId), s.m.powered = true →
    (∀ r b, r ≤ [8, 16, 32].getD (s.m.rdf (bSPL v.val) 17 16) 32 → b ≤ 16 → completes (.regulatorFill v r) s fun t =>
      t.level v.val b = (if s.m.hasBucket b = true then min (s.m.level v.val b + (((256 - r) * s.m.bktShare v.val b : Nat) : Int)) ((s.m.bktDepth v.val b * 16000 : Nat) : Int)
        else s.m.level v.val b) ∧ t.spl = s.m.spl) ∧
    (∀ k i q, splIx s.m.spl.waiting v.val k = some i → s.m.spl.waiting[i]? = some q → q.train = false →
      let c := (s.m.place q.pa).channel
      let joins (t : Mod) : Prop := t.spl.waiting = s.m.spl.waiting.eraseIdx i ∧ t.spl.queued = s.m.spl.queued ++ [q]
      (s.m.hasTokens v.val q.bucket q.cost = true → completes (.spoolAdmission v k) s fun t =>
        joins t ∧ t.level v.val q.bucket = s.m.level v.val q.bucket - ((16000 * q.cost : Nat) : Int)) ∧
      (s.m.hasTokens v.val q.bucket q.cost = false → s.m.mayBorrow v.val q.bucket = true → s.m.chargedWaits v.val = false →
        (s.m.spl.queued.any fun x => x.spool == v.val && (s.m.place x.pa).channel == c) = false → completes (.spoolAdmission v k) s fun t =>
          joins t ∧ s.m.tallied t (bSPL v.val + 0x40 + 8 * 5) q.cost) ∧
      (s.m.hasTokens v.val q.bucket q.cost = false → (s.m.mayBorrow v.val q.bucket = false ∨ s.m.chargedWaits v.val = true) →
        completes (.spoolAdmission v k) s fun t => t = s.m)) ∧
    (∀ (c : BitVec 8) pa b,
      let mine (r : SpoolReq) : Bool := r.train && r.spool == v.val && (s.m.place r.pa).channel == c.toNat
      let key := chKey v.val c.toNat
      ((s.m.spl.waiting.any mine) = false → s.m.trainBurst v.val c.toNat 512 (Tab.get 0 s.m.spl.trainPos key) = some (pa, b) → completes (.trainingPair v c) s fun t =>
        t.spl.waiting = s.m.spl.waiting ++ [{ spool := v.val, pa := pa, bucket := 16, train := true }] ∧ Tab.get 0 t.spl.trainPos key = (b + 1) % 2 ^ 22 ∧ t.mem = s.m.mem) ∧
      ((s.m.spl.waiting.any mine) = true → completes (.trainingPair v c) s fun t => s.m.tallied t (bCAL + 0xC0 + 8 * 7) 1 ∧ t.mem = s.m.mem))

/-- R385 to R387, R389 to R392: a channel moves the bursts that are admitted, in order; the decoder corrects up to three symbols, and a burst it cannot
correct is poisoned, counted and, under SUE, fences its spool; what comes for a fenced spool is counted and dropped; the scrubber goes on to its next
burst, pays from the calibration bucket and marks what it cannot correct; an idle row closes, and a refresh closes the rows of its channel. None of it
changes a byte. R399 to R402: the oldest add of a unit that is not poisoned leaves its sum, element by element, in memory, is counted and opens its
unit as the one used last; an add to a fenced spool is dropped and counted; a unit that closes leaves the adder and changes no byte. -/
def Obligations.ChannelsAndAdders : Prop :=
  (∀ (s : State) (v : SpoolId), s.m.powered = true →
    let cnt (j : Nat) : Nat := bSPL v.val + 0x40 + 8 * j
    let sue := s.m.rdf (bCAL + 0x10) 31 0
    (∀ q, s.m.spl.queued = [q] → q.spool = v.val → s.m.spl.fenced.contains v.val = true →
      (q.reads = true → ∀ bad, completes (.channelRead v 0 bad) s fun t => t.spl.queued = [] ∧ s.m.tallied t (cnt 4) 1 ∧ t.mem = s.m.mem) ∧
      (q.reads = false → completes (.channelWrite v 0) s fun t => t.spl.queued = [] ∧ s.m.tallied t (cnt 4) 1 ∧ t.mem = s.m.mem)) ∧
    (∀ q, s.m.spl.queued = [q] → q.spool = v.val → s.m.spl.fenced.contains v.val = false → s.m.unitOpen q.burst = false → (s.m.place q.burst).spool = v.val →
      let moved (t : Mod) : Prop := t.spl.queued = (if q.left ≤ 1 then [] else [{ q with left := q.left - 1 }]) ∧ t.mem = s.m.mem
      (q.reads = true → s.m.spl.marked.contains (q.burst / 64) = false →
        (completes (.channelRead v 0 []) s fun t => moved t ∧ t.poison = s.m.poison ∧ t.rdf (bSPL v.val + 0x08) 0 0 = s.m.rdf (bSPL v.val + 0x08) 0 0) ∧
        (∀ bad, bad ≠ [] → bad.length ≤ 3 → bad.Nodup → s.m.erasedPin v.val (s.m.place q.burst).channel = none → completes (.channelRead v 0 bad) s fun t =>
          moved t ∧ t.poison = s.m.poison ∧ s.m.tallied t (cnt 0) 1 ∧ t.rdf (bSPL v.val + 0x08) 0 0 = 1)) ∧
      (∀ bad, q.reads = true → s.m.spl.marked.contains (q.burst / 64) = true → completes (.channelRead v 0 bad) s fun t => moved t ∧
        Tab.get false t.poison (q.burst / 64) = true ∧ s.m.tallied t (cnt 1) 1 ∧ t.rdf (bSPL v.val + 0x08) 1 1 = 1 ∧
        (sue = 0 → t.spl.fenced = s.m.spl.fenced) ∧ (0 < sue → sue ≤ s.m.rdf (cnt 1) 47 0 + 1 → s.m.rdf (cnt 1) 47 0 + 1 < 2 ^ 48 → v.val ∈ t.spl.fenced)) ∧
      (q.reads = false → completes (.channelWrite v 0) s fun t => moved t ∧ t.poison = s.m.poison)) ∧
    (∀ (c : BitVec 8) (b : Fin 16), completes (.rowClose v c b) s fun t =>
      (∀ k, Tab.get? t.spl.rows k = if k = (256 * v.val + c.toNat) * 16 + b.val then none else Tab.get? s.m.spl.rows k) ∧ t.mem = s.m.mem) ∧
    (∀ (c : BitVec 8), completes (.refresh v c) s fun t =>
      (∀ k, Tab.get? t.spl.rows k = if 256 * v.val + c.toNat = k / 16 then none else Tab.get? s.m.spl.rows k) ∧ t.mem = s.m.mem) ∧
    (∀ (c : BitVec 8) pa,
      let key := chKey v.val c.toNat
      let b := Tab.get 0 s.m.spl.scrubPos key
      s.m.burstAddr v.val c.toNat b = some pa → s.m.unitOpen pa = false → (s.m.spl.queued.any fun r => r.touches (pa / 64)) = false → (s.m.place pa).spool = v.val → s.m.rdf (bSPL v.val + 0x18) 15 0 ≠ 0 → sue = 0 →
      let goes (k : Nat) (t : Mod) : Prop := Tab.get 0 t.spl.scrubPos key = (b + 1) % 2 ^ 22 ∧ t.level v.val 16 = s.m.level v.val 16 - ((16000 * k : Nat) : Int) ∧
        s.m.tallied t (cnt 6) k ∧ t.mem = s.m.mem
      (s.m.spl.marked.contains (pa / 64) = false → s.m.hasTokens v.val 16 1 = true → completes (.patrolScrub v c []) s fun t => goes 1 t ∧ t.poison = s.m.poison) ∧
      (∀ bad, s.m.spl.marked.contains (pa / 64) = true → s.m.hasTokens v.val 16 2 = true → completes (.patrolScrub v c bad) s fun t =>
        goes 2 t ∧ pa / 64 ∈ t.spl.marked ∧ (s.m.cachedAbove (pa / 128) = false → Tab.get false t.poison (pa / 64) = true)))) ∧
  (∀ (s : State), s.m.powered = true →
    (∀ (a : AddReq) bad, s.m.spl.adds = [a] → a.reply = none → s.m.isSpool a.pa = true → (s.m.spl.queued.any fun r => r.touches (a.pa / 64)) = false →
      let pl := s.m.place a.pa
      let key := chKey pl.spool pl.channel
      let us := Tab.get [] s.m.spl.units key
      let n := a.data.length
      let w := if a.ty = 1 ∨ a.ty = 3 then 8 else 4
      (s.m.lineFenced a.pa = false → s.m.rangeFenced a.pa n = false → s.m.dirAt (a.pa / 128) = {} → s.m.poisoned a.pa n = false →
        (s.m.unitOpen a.pa = true ∨ (us.length < 4 ∧ s.m.hasTokens pl.spool ((s.m.grantOf a.pa).getD 17) 1 = true ∧ bad = [] ∧
          s.m.spl.marked.contains (64 * (a.pa / 64) / 64) = false ∧ (s.m.place (64 * (a.pa / 64))).spool = pl.spool)) →
        completes (.spoolAdd 0 bad) s fun t => s.m.wrote t a.pa (addBytes a.ty (n / w) (s.m.rdMem a.pa n) a.data) ∧ t.spl.adds = [] ∧
          s.m.tallied t (bSPL pl.spool + 0x40 + 8 * 7) 1 ∧ Tab.get [] t.spl.units key = a.pa / 64 :: us.filter (· != a.pa / 64)) ∧
      (s.m.lineFenced a.pa = true → completes (.spoolAdd 0 bad) s fun t => t.mem = s.m.mem ∧ t.spl.adds = [] ∧ s.m.tallied t (bSPL pl.spool + 0x40 + 8 * 4) 1)) ∧
    (∀ (v : SpoolId) (c : BitVec 8) (i : Fin 4) u, (Tab.get [] s.m.spl.units (chKey v.val c.toNat))[i.val]? = some u → completes (.adderUnitClose v c i) s fun t =>
      Tab.get [] t.spl.units (chKey v.val c.toNat) = (Tab.get [] s.m.spl.units (chKey v.val c.toNat)).filter (· != u) ∧ t.mem = s.m.mem))

/-- R392, R393, R405, R574 to R576, R581, R582, R594: a temperature sample moves the refresh step and HOT; START of a monitor begins a count and clears its result,
and a count that completes shows DONE with its differences; a round of windows moves a live track one step toward the side with fewer differences;
CAL_VSEL captures the values of the lanes selected. -/
def Obligations.SamplesAndTracks : Prop :=
  ∀ (s : State),
    (s.m.powered = true →
      (∀ (v : SpoolId) (raw : BitVec 16), completes (.refreshTempSample v raw) s fun t =>
        let x := s.m.reading (4 + v.val) raw
        t.rdf (bSPL v.val) 17 16 = nextStep (s.m.rdf (bSPL v.val) 17 16) x ∧ t.rdf (bSPL v.val) 9 9 = (if 420 < x then 1 else 0) ∧ t.spl = s.m.spl ∧ t.mem = s.m.mem) ∧
      (∀ (v : SpoolId) (n : W32), (v.val ∈ s.m.spl.monitor → completes (.spoolMonitorDone v n) s fun t => t.rd (bSPL v.val + 0x30) = w64 (2 ^ 63 + n.toNat) ∧
          v.val ∉ t.spl.monitor) ∧ (v.val ∉ s.m.spl.monitor → completes (.spoolMonitorDone v n) s fun t => t = s.m)) ∧
      (∀ n : W32, (s.m.cal.lmon = true → completes (.linkMonitorDone n) s fun t => t.rd (bCAL + 0x20) = w64 (2 ^ 63 + n.toNat) ∧ t.cal.lmon = false) ∧
        (s.m.cal.lmon = false → completes (.linkMonitorDone n) s fun t => t = s.m)) ∧
      (∀ (x : TrackLane) (d0 d1 d2 d3 : W32) q, (match x with
          | .spool w v c p => s.m.rdf (bCAL + 0x08) 8 8 = 1 ∧ v.val ∉ s.m.spl.monitor ∧ q = CalQ.spool w false v.val c.toNat p.val
          | .link l n => s.m.rdf (bCAL + 0x08) 16 16 = 1 ∧ s.m.cal.lmon = false ∧ s.m.linkState l.val = 6 ∧ q = .link 3 l.val n.val) → d2 = d3 →
        -q.trackLim ≤ s.m.trackOf q → s.m.trackOf q ≤ q.trackLim →
        (d0.toNat + 1 < d1.toNat → s.m.trackOf q < q.trackLim → completes (.trackRound x d0 d1 d2 d3) s fun t => t.trackOf q = s.m.trackOf q + 1) ∧
        (d1.toNat + 1 < d0.toNat → -q.trackLim < s.m.trackOf q → completes (.trackRound x d0 d1 d2 d3) s fun t => t.trackOf q = s.m.trackOf q - 1) ∧
        (d0.toNat ≤ d1.toNat + 1 → d1.toNat ≤ d0.toNat + 1 → completes (.trackRound x d0 d1 d2 d3) s fun t => t.cal = s.m.cal))) ∧
    (∀ (h : HostId) (v : W64),
      (∀ u : SpoolId, s.m.reachedBy h (bSPL u.val + 0x28) → bit v 31 = true → completes (.splMonselStart h u v) s fun t => u.val ∈ t.spl.monitor ∧
        t.rd (bSPL u.val + 0x30) = 0 ∧ t.mem = s.m.mem) ∧
      (s.m.reachedBy h (bCAL + 0x18) → bit v 31 = true → completes (.calLmselStart h v) s fun t => t.cal.lmon = true ∧ t.rd (bCAL + 0x20) = 0 ∧ t.spl = s.m.spl) ∧
      (∀ i j, (s.m.host h.val).linked = true → fld v 15 14 < 2 → fld v 13 8 < 24 → i < 5 → j < 4 → 4 * i + j < 18 → completes (.calVsel h v) s fun t =>
        let q (volt : Bool) : CalQ := .spool (fld v 15 14 == 1) volt (fld v 13 8) (fld v 7 0) (4 * i + j)
        let val (q : CalQ) : Int := match fld v 17 16 with | 0 => q.factory | 1 => s.m.userOfs q | 2 => s.m.trackOf q | _ => s.m.effective q
        let a := portStride * h.val + bCAL + 0x118 + 8 * i
        t.rdf a (16 * j + 5) (16 * j) = (BitVec.ofInt 6 (val (q false))).toNat ∧ t.rdf a (16 * j + 13) (16 * j + 8) = (BitVec.ofInt 6 (val (q true))).toNat))

/-- R411 to R419, R422, R423, R428 to R432: a walk that ends at a leaf installs it and lets its core go on, with every core of the panel that waits for
the granule; one that fails goes to the fault queue, or raises XLTX where no queue serves. A fault that arrives joins the slot of its page, is posted
in a free slot, or is parked; an accepted reply frees its slot and releases the waiters, who walk again or are refused; one that names no slot is an
error. R420, R421: a write of XLT_INV or COR_XLTINV starts a shoot-down, or is counted and ignored while the same register's is in progress; one
completes once no access holds a translation that it drops, and then no TLB holds one either, and every other entry stays. -/
def Obligations.TranslationFaults : Prop :=
  (∀ (s : State), s.m.powered = true →
    (∀ (c : CoreId) p va acc, (s.m.core c.val).wait = .walk va acc → s.m.partOf c.val = some p →
      s.m.coh.upsets = [] →
      (∀ l pte, s.m.walk p va = .leaf l pte → completes (.walk c) s fun t => (∀ w, w ∈ s.m.walkers (panelOf c.val) p va → (t.core w.1).wait = .none) ∧
        let key := tlbKey l.part l.level l.vpn
        (t.core c.val).wait = .none ∧ (t.core c.val).bank = (s.m.core c.val).bank ∧ t.mem = s.m.mem ∧
        (findWay (s.m.core c.val).mem.tlb 0 64 key = none → (findWay (t.core c.val).mem.tlb 0 64 key).map (fun w => w.2.val) = some l)) ∧
      (∀ cause level pte, s.m.walk p va = .fail cause level pte → (s.m.core c.val).excDepth = 0 → s.m.walkers (panelOf c.val) p va = [(c.val, va, acc)] →
        completes (.walk c) s fun t => t.mem = s.m.mem ∧
        (s.m.rdf (bXLT p + 0x80) 63 63 = 1 → (t.core c.val).wait = .fault va acc level ∧ ∃ f, t.xlt.flying = s.m.xlt.flying ++ [f] ∧ f.part = p ∧ f.va = va ∧
          f.cause = cause ∧ f.level = level ∧ f.pte = pte ∧ f.unit = .core c.val) ∧
        (s.m.rdf (bXLT p + 0x80) 63 63 = 0 → (t.core c.val).trap = some 2 ∧ (t.core c.val).creg 0x3A8 = w64 (va % 2 ^ 48) ∧
          (t.core c.val).creg 0x3A0 = w64 (accBits acc * 2 ^ 16 + level * 2 ^ 12 + cause * 2 ^ 8 + 0x0A)))) ∧
    (∀ k f, s.m.xlt.flying[k]? = some f →
      let p := f.part
      let page := fun (e : Nat × FltSlot) => e.2.va / 2 ^ 16 == f.va / 2 ^ 16
      let tail := s.m.rdf (bXLT p + 0x88) 31 0
      let gone (t : Mod) : Prop := t.xlt.flying = s.m.xlt.flying.eraseIdx k
      (∀ i x, (s.m.flqSlots p).find? page = some (i, x) → completes (.faultArrival k) s fun t => gone t ∧ s.m.tallied t (bXLT p + 0xC0 + 8) 1 ∧
        Tab.get? t.xlt.slots (1024 * p + i) = some { x with accs := x.accs ||| accBits f.acc, causes := x.causes ||| f.cause, waiters := x.waiters ++ [f.unit] }) ∧
      ((s.m.flqSlots p).find? page = none → (∀ g, g ∈ s.m.xlt.parked → g.part ≠ p) →
        (∀ slot, s.m.flqRoom p = some slot → s.m.heldBack (.queue p) = false → s.m.spl.fenced = [] → completes (.faultArrival k) s fun t => gone t ∧
          t.rdf (bXLT p + 0x88) 31 0 = (tail + 1) % 2 ^ 32 ∧ t.rdf (bXLT p + 0xA0) 0 0 = 1 ∧ s.m.tallied t (bXLT p + 0xC0) 1 ∧
          t.rdMem (s.m.flqBase p + 32 * slot) 12 = toLe 8 (f.va % 2 ^ 48) ++ toLe 4 tail ∧
          t.rdMem (s.m.flqBase p + 0x8000 + 4 * (tail % 1024)) 4 = toLe 4 (slot + tail % 2 ^ 22 * 2 ^ 10) ∧
          ∃ x, Tab.get? t.xlt.slots (1024 * p + slot) = some x ∧ x.va = f.va ∧ x.seq = tail ∧ x.waiters = f.unit :: f.joined) ∧
        (s.m.flqRoom p = none → completes (.faultArrival k) s fun t => gone t ∧ t.xlt.parked = s.m.xlt.parked ++ [f] ∧ s.m.tallied t (bXLT p + 0xC0 + 16) 1 ∧
          t.mem = s.m.mem))) ∧
    (∀ (h : HostId) (p : PartId) (v : W64), s.m.reachedBy h (bXLT p.val + 0x98) →
      let x := Tab.get? s.m.xlt.slots (1024 * p.val + fld v 41 32)
      (∀ y, x = some y → y.seq = fld v 31 0 → fld v 63 62 < 2 → s.m.xlt.parked = [] → completes (.flqReply h p v) s fun t =>
        t.xlt.slots = Tab.del s.m.xlt.slots (1024 * p.val + fld v 41 32) ∧ s.m.tallied t (bXLT p.val + 0xC0 + 32) 1 ∧
        t.xlt.releases = s.m.xlt.releases ++ [{ part := p.val, code := fld v 63 62, waiters := y.waiters }]) ∧
      ((x = none ∨ (∃ y, x = some y ∧ (y.seq ≠ fld v 31 0 ∨ 2 ≤ fld v 63 62))) → completes (.flqReply h p v) s fun t => t.xlt = s.m.xlt ∧
        t.rdf (bXLT p.val + 0xA0) 2 2 = 1 ∧ s.m.tallied t (bXLT p.val + 0xC0 + 24) 1)) ∧
    (∀ k p code c va acc level, s.m.xlt.releases[k]? = some { part := p, code := code, waiters := [.core c] } → (s.m.core c).wait = .fault va acc level →
      completes (.waitersReleased k) s fun t => t.xlt.releases = s.m.xlt.releases.eraseIdx k ∧ (t.core c).wait = .none ∧ (t.core c).bank = (s.m.core c).bank ∧
        (code = 0 → (t.core c).trap = (s.m.core c).trap) ∧ (code ≠ 0 → (t.core c).trap = some 2 ∧
          (t.core c).creg 0x3A0 = w64 (accBits acc * 2 ^ 16 + level * 2 ^ 12 + 0x09) ∧ (t.core c).creg 0x3A8 = w64 (va % 2 ^ 48)))) ∧
  (∀ (s : State) (v : W64),
    let job (p : Nat) (c : Option Nat) : Shoot := { part := p, all := bit v 62, size := fld v 49 48, va := fld v 47 16 * 2 ^ 16, core := c }
    let starts (i : Instr) (p : Nat) (c : Option Nat) : Prop :=
      (s.m.shootBusy p c = false → completes i s fun t => t = { s.m with xlt := { s.m.xlt with shoots := s.m.xlt.shoots ++ [job p c] } }) ∧
      (s.m.shootBusy p c = true → completes i s fun t => t.xlt = s.m.xlt ∧ s.m.tallied t (bXLT p + 0x40 + 8 * 3) 1)
    (∀ (h : HostId) (p : PartId), s.m.reachedBy h (bXLT p.val + 0x08) → starts (.xltInv h p v) p.val none) ∧
    (∀ (c : CoreId) p, s.m.powered = true → c.val < 256 → s.m.partOf c.val = some p → starts (.corXltinv c v) p (some c.val)) ∧
    (∀ k x, s.m.powered = true → s.m.xlt.shoots[k]? = some x → (∀ c, c ∈ (s.m.part x.part).cores → (s.m.core c).holdsRange x.range.1 x.range.2 = false ∧
        s.m.postedOut c = false ∧ (s.m.spl.adds.any (·.core == c)) = false) → s.m.rowsInFlight x.part = false →
      (s.m.pat.saved.any fun q => q.piece.part == x.part && unitsHold q.units.stations q.units.fin x.range.1 x.range.2) = false → completes (.shootDownComplete k) s fun t =>
        let left (a b : Tab (Way Leaf)) : Prop := b = a.filter fun e => !x.drops e.2.val
        t.xlt.shoots = s.m.xlt.shoots.eraseIdx k ∧ left s.m.xlt.tlb t.xlt.tlb ∧ (∀ c, left (s.m.core c).mem.tlb (t.core c).mem.tlb) ∧
        s.m.tallied t (bXLT x.part + 0x40 + 8 * 2) 1 ∧ t.mem = s.m.mem))

/-- R74, R442, R444, R456: a link goes from state to state: DETECT to TRAIN on a signal, its tracks at 0, then LOCK and AUTH; a time-out in TRAIN, LOCK or
AUTH, a watchdog or a RETRAIN in UP takes it to FAILED with its reason, counted, and no other link with it; FAILED goes back to DETECT; REARM takes a
link that is FENCED, FAILED or OFF to OFF or, enabled, to DETECT. Times count on the link reference clock. An event in another state changes nothing.
R441, R443, R444, R446, R460, R461: in AUTH the control flits come in order: a HELLO that passes the wiring, protocol and encryption checks, keys with
a chain that verifies, the ciphertext, and a signature that verifies, after which the link is HELD, or UP where the outputs are started; a check that
fails, a flit that comes at another step, or one that is malformed, fences the link with its reason; a codeword that cannot be corrected is NAKed. -/
def Obligations.LinkStatesAndKeys : Prop :=
  (∀ (s : State) (l : LinkId) (h : HostId),
    let st := s.m.linkState l.val
    let ck := s.m.lnk.clock
    (s.m.powered = true →
      (st = 1 → completes (.signalDetected l) s fun t => s.m.linkWent t l 2 ∧ t.lnk = s.m.lnk ∧ ∀ n : Fin 8, t.trackOf (.link 3 l.val n.val) = 0) ∧
      (st = 2 → completes (.trainConverged l) s fun t => s.m.linkWent t l 3 ∧ t.lnk = s.m.lnk) ∧
      (st = 3 → completes (.lockAchieved l) s fun t => s.m.linkWent t l 4 ∧ ∃ x, (t.link l.val).ctrl = [.hello x] ∧ x.dev.toNat = s.m.dev % 2 ^ 18) ∧
      (ck = true → st = 7 → completes (.failedRetry l) s fun t => s.m.linkWent t l 1 ∧ t.lnk = s.m.lnk) ∧
      (ck = true → st = 2 → completes (.trainTimeout l) s fun t => s.m.linkFell t l 7 0x01) ∧
      (ck = true → st = 3 → completes (.lockTimeout l) s fun t => s.m.linkFell t l 7 0x02) ∧
      (ck = true → st = 4 → completes (.authTimeout l) s fun t => s.m.linkFell t l 7 0x03) ∧
      (ck = true → st = 6 → completes (.linkWatchdog l) s fun t => s.m.linkFell t l 7 0x04) ∧
      (∀ cls : Fin 12, ck = true → st = 6 → s.m.classStalled l.val cls.val = true → completes (.creditWatchdog l cls) s fun t => t.rdf (bLink l.val + 0x10) 2 2 = 1 ∧
        s.m.tallied t (bLink l.val + 0x20 + 16) 1 ∧ t.linkState l.val = 6 ∧ t.lnk = s.m.lnk) ∧
      (∀ i, (st ≠ 1 ∧ i = Instr.signalDetected l) ∨ (st ≠ 2 ∧ (i = .trainConverged l ∨ i = .trainTimeout l)) ∨ (st ≠ 3 ∧ (i = .lockAchieved l ∨ i = .lockTimeout l)) ∨
        (st ≠ 4 ∧ i = .authTimeout l) ∨ (st ≠ 6 ∧ i = .linkWatchdog l) ∨ (st ≠ 7 ∧ i = .failedRetry l) → completes i s fun t => t = s.m)) ∧
    (s.m.reachedBy h (bLink l.val + 0x08) →
      (st = 6 → completes (.retrain h l) s fun t => s.m.linkFell t l 7 0x07) ∧
      (st ≠ 6 → completes (.retrain h l) s fun t => t = s.m) ∧
      ((st = 8 ∨ st = 7 ∨ st = 0) → completes (.rearm h l) s fun t => s.m.linkWent t l (if s.m.linkEnabled l.val then 1 else 0)) ∧
      (st ≠ 8 → st ≠ 7 → st ≠ 0 → completes (.rearm h l) s fun t => t = s.m))) ∧
  (∀ (s : State) (l : LinkId) (w : CtrlWire), s.m.powered = true → s.m.linkState l.val = 4 →
    let k := s.m.link l.val
    let fences (i : Instr) (reason : Nat) : Prop := completes i s fun t => s.m.linkFell t l 8 reason
    let goes (i : Instr) (step : Nat) (P : Link → Prop) : Prop := completes i s fun t => (t.link l.val).auth.step = step ∧ t.linkState l.val = 4 ∧ P (t.link l.val)
    let all (i : Instr) : Prop := (∃ x, i = .authHello (l, w) x) ∨ (∃ key chain, i = .authKeys (l, w) key chain) ∨ (∃ d, i = .authEncapsulation (l, w) d) ∨
      (∃ g, i = .authSignature (l, w) g) ∨ (∃ o n, i = .handover (l, w) o n) ∨ i = .mark (l, w)
    (¬ ctrlRead w → ∀ i, all i → completes i s fun t => t.link l.val = { k with nak := true, naked := true } ∧ t.linkState l.val = 4 ∧
      s.m.tallied t (bPort (l.val / 6) + 0x58) 1) ∧
    (ctrlRead w → ¬ ctrlSound w → ∀ i, all i → fences i 0x16) ∧
    (ctrlRead w → ctrlSound w →
      (∀ x : Hello,
        let need := s.m.rdf (bPort (l.val / 6)) 16 16 == 1
        (k.auth.step ≠ 0 → fences (.authHello (l, w) x) 0x16) ∧
        (k.auth.step = 0 → s.m.wired l.val x = false → fences (.authHello (l, w) x) 0x10) ∧
        (k.auth.step = 0 → s.m.wired l.val x = true → s.m.protocol l.val x = none → fences (.authHello (l, w) x) 0x13) ∧
        (∀ v, k.auth.step = 0 → s.m.wired l.val x = true → s.m.protocol l.val x = some v →
          (((need || x.encRequired) && (v == 2 || !x.encOffered)) = true → fences (.authHello (l, w) x) 0x12) ∧
          (((need || x.encRequired) && (v == 2 || !x.encOffered)) = false → completes (.authHello (l, w) x) s fun t => (t.link l.val).auth.step = 1 ∧ t.linkState l.val = 4 ∧
            t.rdf (bLink l.val) 5 4 = v ∧ t.rdf (bLink l.val) 41 24 = x.dev.toNat ∧ t.rdf (bLink l.val) 6 6 = (if need || x.encRequired then 1 else 0) ∧
            ∃ key chain, (t.link l.val).ctrl = k.ctrl ++ [.keys key chain]))) ∧
      (∀ key chain,
        let ident := Config.chainKey ((List.range 8).map fun i => s.m.rd (bLNK + 0x040 + 8 * i)) chain
        ((k.auth.step ≠ 1 ∨ key.length ≠ 1184) → fences (.authKeys (l, w) key chain) 0x16) ∧
        (k.auth.step = 1 → key.length = 1184 → ident = none → fences (.authKeys (l, w) key chain) 0x11) ∧
        (∀ v, k.auth.step = 1 → key.length = 1184 → ident = some v →
          goes (.authKeys (l, w) key chain) 2 fun q => q.auth.identity = v ∧ q.auth.itsKey = key ∧ ∃ ct, q.ctrl = k.ctrl ++ [.encap ct])) ∧
      (∀ d, ((k.auth.step ≠ 2 ∨ d.length ≠ 1088) → fences (.authEncapsulation (l, w) d) 0x16) ∧
        (k.auth.step = 2 → d.length = 1088 →
          goes (.authEncapsulation (l, w) d) 3 fun q => q.auth.mySecret = Config.mlkemDecap k.auth.seed d ∧ ∃ g, q.ctrl = k.ctrl ++ [.signature g])) ∧
      (∀ g, ((k.auth.step ≠ 3 ∨ g.length ≠ 3309) → fences (.authSignature (l, w) g) 0x16) ∧
        (k.auth.step = 3 → g.length = 3309 → Config.mldsaVerify k.auth.identity [] (s.m.authDigest l.val) g = false → fences (.authSignature (l, w) g) 0x11) ∧
        (k.auth.step = 3 → g.length = 3309 → Config.mldsaVerify k.auth.identity [] (s.m.authDigest l.val) g = true → completes (.authSignature (l, w) g) s fun t =>
          t.linkState l.val = (if s.m.outputsOk then 6 else 5) ∧ (t.link l.val).auth.step = 4))))

/-- R445 to R455, R457, R462, R469: an UP link takes the next DATA flit in order, whose whole message then arrives at its consumer or goes on toward its module; one
out of order or with a bad CRC is discarded and NAKed, and one beyond its credits fences the link; IDLE brings acknowledgements and credits alone. A
codeword slot sends control flits first, then what is to be resent, then the next flit of the message that the round picks, and else IDLE. HANDOVER
resends the messages of the lost link whole; MARK changes nothing of this side. -/
def Obligations.LinkFlits : Prop :=
  ∀ (s : State) (l : LinkId), s.m.powered = true → s.m.linkState l.val = 6 →
    let k := s.m.link l.val
    let port (j : Nat) : Nat := bPort (l.val / 6) + 0x40 + 8 * j
    let g := s.m.groupOfLink l.val
    (∀ (fec : FecOut) d, (15 < fec.val ∨ d.length ≠ 640 ∨ ofLe (d.drop 632) ≠ crc64 (d.take 632)) → ∀ i, i ∈ [Instr.dataFlit l fec d, .idleFlit l fec d] →
      completes i s fun t => t.link l.val = { k with nak := true, naked := true } ∧ s.m.tallied t (port 1) 1 ∧ s.m.tallied t (port 3) 1 ∧ t.lnk.arrived = s.m.lnk.arrived) ∧
    (∀ (fec : FecOut) d, fec.val ≤ 15 → d.length = 640 → ofLe (d.drop 632) = crc64 (d.take 632) →
      let x := readHdr d
      let q := (s.m.takeHeader l.val x).link l.val
      let cls := 2 * x.vc + x.dl
      let text := ((d.drop 16).take 616).take (8 * x.len)
      (completes (.idleFlit l fec d) s fun t => t.link l.val = q ∧ q.replay = k.replay.filter (fun f => fseqAfter f.seq x.ack) ∧ s.m.tallied t (port 1) 1 ∧
        (0 < fec.val → s.m.tallied t (port 2) 1) ∧ t.lnk.arrived = s.m.lnk.arrived) ∧
      (x.kind = 1 → x.fseq ≠ (k.rxSeq + 1) % 4096 → completes (.dataFlit l fec d) s fun t => (t.link l.val).rxSeq = k.rxSeq ∧ t.lnk.arrived = s.m.lnk.arrived ∧
        (fseqAfter x.fseq k.rxSeq = true → k.naked = false → (t.link l.val).nak = true ∧ (t.link l.val).naked = true)) ∧
      (x.kind = 1 → x.fseq = (k.rxSeq + 1) % 4096 → x.vc < 6 → s.m.credAlloc l.val cls ≤ Tab.get 0 k.occ cls + Tab.get 0 k.owed cls →
        completes (.dataFlit l fec d) s fun t => s.m.linkFell t l 8 0x14) ∧
      (x.kind = 1 → x.fseq = (k.rxSeq + 1) % 4096 → s.m.sealed l.val = false → x.sound 616 = true → x.som = true →
        Tab.get 0 k.occ cls + Tab.get 0 k.owed cls < s.m.credAlloc l.val cls → Tab.get? k.parts cls = none → s.m.devOk x.dest = true →
        let msg : Msg := { dest := x.dest, src := x.src, vc := x.vc, data := text }
        (x.dest = s.m.dev → x.eom = true → 2 ≤ x.vc → completes (.dataFlit l fec d) s fun t => (t.link l.val).rxSeq = x.fseq ∧ (t.link l.val).naked = false ∧
          (∀ j, Tab.get 0 (t.link l.val).occ j = Tab.get 0 k.occ j) ∧ Tab.get 0 (t.link l.val).owed cls = Tab.get 0 k.owed cls + 1 ∧
          t.lnk.arrived = s.m.lnk.arrived ++ [{ msg := msg, link := some l.val, cls := cls, flits := 0 }]) ∧
        (x.dest = s.m.dev → x.eom = true → x.vc = 0 → completes (.dataFlit l fec d) s fun t => (t.link l.val).rxSeq = x.fseq ∧
          t.lnk.fitIn = s.m.lnk.fitIn ++ [msg] ∧ t.lnk.arrived = s.m.lnk.arrived) ∧
        (∀ g' dl', x.dest ≠ s.m.dev → x.vc ≠ 1 → s.m.route x.dest (some (s.m.dimOf g, x.dl)) = some (g', dl') → (s.m.upLinks g').isEmpty = false →
          completes (.dataFlit l fec d) s fun t => (t.link l.val).rxSeq = x.fseq ∧ t.lnk.arrived = s.m.lnk.arrived ∧ t.outQueue g' = s.m.outQueue g' ++
            [{ msg := msg, dl := dl', held := some { msg := msg, link := some l.val, cls := cls, flits := 1 }, more := !x.eom,
               cut := if x.eom then none else some (l.val, cls) }]))) ∧
    (s.m.lnk.arrived = [] → k.parts = [] →
      (∀ c rest, k.ctrl = c :: rest → k.ctrlOut < 4 → c ≠ .mark → completes (.codewordSlot l) s fun t =>
        (t.link l.val).ctrl = (if k.ctrlSent + 1 < c.flits then c :: rest else rest) ∧ (t.link l.val).ctrlOut = k.ctrlOut + 1 ∧
        (∃ h, (t.link l.val).last = some (.ctrl h c)) ∧ (t.link l.val).replay = k.replay ∧ s.m.tallied t (port 0) 1) ∧
      ((k.ctrl = [] ∨ 4 ≤ k.ctrlOut) →
        (∀ i f, k.resend = some i → k.replay[i]? = some f →
          (f.resent < 7 → completes (.codewordSlot l) s fun t => (t.link l.val).replay = k.replay.set i { f with resent := f.resent + 1 } ∧
            (t.link l.val).resend = (if i + 1 < k.replay.length then some (i + 1) else none) ∧ s.m.tallied t (port 4) 1) ∧
          (7 ≤ f.resent → completes (.codewordSlot l) s fun t => s.m.linkFell t l 7 0x05)) ∧
        (∀ v i x, k.resend = none → k.replay.length < 128 → (s.m.roundPick l.val).1 = some v → s.m.readyOn l.val v = some i →
          (s.m.outQueue g)[i]? = some x → x.sent = 0 → x.held = none → x.more = false → x.msg.data.length ≤ s.m.payload l.val → completes (.codewordSlot l) s fun t =>
            t.outQueue g = (s.m.outQueue g).eraseIdx i ∧ (t.link l.val).txSeq = (k.txSeq + 1) % 4096 ∧
            ∃ f, (t.link l.val).replay = k.replay ++ [f] ∧ f.seq = k.txSeq ∧ f.data = x.msg.data ∧ f.som = true ∧ f.eom = true ∧ f.dest = x.msg.dest) ∧
        (k.resend = none → 128 ≤ k.replay.length → completes (.codewordSlot l) s fun t => (t.link l.val).replay = k.replay ∧ (t.link l.val).txSeq = k.txSeq ∧
          s.m.tallied t (port 0) 1))) ∧
    (∀ (w : CtrlWire), ctrlRead w → ctrlSound w →
      (∀ (lost : LinkId) (last : Fin 4096), lost ≠ l → s.m.groupOfLink lost.val = g → s.m.linkState lost.val ≠ 6 → (s.m.link lost.val).parts = [] →
        completes (.handover (l, w) lost last) s fun t =>
          t.outQueue g = (wholesAfter (s.m.link lost.val).left last.val).map (fun x => { x with link := none, sent := 0 }) ++ s.m.outQueue g ∧
          (t.link lost.val).left = [] ∧ (t.link lost.val).report = none) ∧
      (completes (.mark (l, w)) s fun t => t.lnk = (s.m.takeHeader l.val (ctrlHead w)).lnk ∧ s.m.tallied t (port 1) 1 ∧ t.mem = s.m.mem))

/-- R463 to R468: a request of another module that passes the window check is served: a read is answered with the bytes, a write leaves its bytes in memory and is
answered, an add goes to the adders; one that fails is answered with the status of the first check that fails, and counted. A
response reaches its requester by tag: a read's bytes come to the waiting instruction, and a refused posted write is counted. -/
def Obligations.RemoteRequests : Prop :=
  ∀ (s : State) (src : BitVec 18) (v5 : Bool) (d : List Byte), s.m.powered = true →
    let x := readReq d
    let p := x.win / 256
    let calm := s.m.coh.upsets = []
    let ops : List (Nat × Instr) := [(1, .remoteRead src v5 d), (2, .remoteWrite src v5 d), (3, .remoteAdd src v5 d), (4, .remoteLineadd src v5 d)]
    (s.m.takeMsg (if v5 then 5 else 3) d = (none, s.m) → x.sound d = true → ∀ g dl, s.m.wayTo src.toNat g dl →
      let answers (t : Mod) (status : Nat) (poison : Bool) (bs : List Byte) : Prop := t.outQueue g = s.m.outQueue g ++
        [{ msg := { dest := src.toNat, src := s.m.dev, vc := 4, data := respHdr x.tag status poison ++ bs }, dl := dl }]
      (∀ i st, (x.op, i) ∈ ops → s.m.windowCheck src.toNat x = .inl st → completes i s fun t => answers t st false [] ∧ s.m.tallied t (bPRT p + 0x3110) 1 ∧ t.mem = s.m.mem) ∧
      (∀ pa, s.m.windowCheck src.toNat x = .inr pa →
        (x.op = 1 → calm → completes (.remoteRead src v5 d) s fun t => answers t 0 (s.m.poisoned pa x.len) (s.m.rdMem pa x.len) ∧ s.m.tallied t (bPRT p + 0x3108) 1 ∧ t.mem = s.m.mem) ∧
        (x.op = 2 → s.m.rangeFenced pa x.len = false → completes (.remoteWrite src v5 d) s fun t => answers t 0 false [] ∧ s.m.wrote t pa ((d.drop 32).take x.len)) ∧
        (x.op = 3 → s.m.isSpool pa = true → completes (.remoteAdd src v5 d) s fun t => s.m.tallied t (bPRT p + 0x3108) 1 ∧ t.mem = s.m.mem ∧
          t.spl.adds = s.m.spl.adds ++ [{ pa := pa, ty := x.rtype, data := (d.drop 32).take x.len, reply := some (src.toNat, x.tag) }]) ∧
        (x.op = 4 → s.m.isSpool pa = true → completes (.remoteLineadd src v5 d) s fun t => s.m.tallied t (bPRT p + 0x3108) 1 ∧ t.mem = s.m.mem ∧
          t.spl.adds.length = s.m.spl.adds.length + x.len / 64))) ∧
    (s.m.takeMsg 4 d = (none, s.m) → s.m.respSound d = false → completes (.remoteResponse d) s fun t => s.m.tallied t (bLNK + 0x080) 1 ∧ t.lnk = s.m.lnk ∧ t.mem = s.m.mem) ∧
    (∀ r, s.m.takeMsg 4 d = (none, s.m) → s.m.respSound d = true →
      let tag := bitsN (ofLe (d.take 4)) 23 0
      let ok := bitsN (ofLe ((d.drop 4).take 4)) 7 0 = 0
      Tab.get? s.m.lnk.remotes tag = some r → completes (.remoteResponse d) s fun t => t.lnk.remotes = Tab.del s.m.lnk.remotes tag ∧ t.mem = s.m.mem ∧
        (∀ cr, r.unit = .buf cr → (s.m.core r.core).wait = .remote tag → ok → bitsN (ofLe ((d.drop 4).take 4)) 8 8 = 0 → (t.core r.core).wait = .none ∧
          ∀ i, i < r.len → Tab.get? (t.core r.core).rbuf (r.va + i) = some (((d.drop 16).take r.len).getD i 0)) ∧
        (r.unit = .posted → ok → t.bar0 = s.m.bar0) ∧ (r.unit = .posted → ¬ ok → s.m.tallied t (bXLT r.part + 0x40 + 32) 1))

/-- R479 to R483, R506, R508, R509: a post adds to the tail of a queue with room, and is counted and ignored otherwise; the engine takes the entry at the head: one that fails
a check of R482 has its STATUS written, and tears; one that passes runs, and CURSEQ moves on; without a context it waits. One that is
done writes STATUS 0, fires its NOTCH and advances the head. RESET of an empty queue clears what halted it. -/
def Obligations.CollectiveQueues : Prop :=
  ∀ (s : State) (g : GroupId),
    let q (off : Nat) : Nat := bQ g.val + off
    let tail (t : Mod) (n : Nat) : Prop := t.qTail g.val = (s.m.qTail g.val + n) % 2 ^ 32 ∧ t.qHead g.val = s.m.qHead g.val
    let full (t : Mod) : Prop := t.qTail g.val = s.m.qTail g.val ∧ t.rdf (q 0x18) 4 4 = 1 ∧ s.m.tallied t (bGRP + 0x100 + 56) 1
    let place := s.m.qAddr g.val 0 + 0x38
    let e := s.m.headEntry g.val
    let o : CollOp := { entry := e, seq := s.m.curSeq g.val }
    let ops : List (Nat × Instr) := [(1, .allreduce g), (2, .redscat g), (3, .allgather g), (4, .bcast g), (5, .alltoall g), (6, .barrier g)]
    let runs (t : Mod) : Prop := (∃ r, (t.grp g.val).run = some r ∧ r.entry = e ∧ r.seq = s.m.curSeq g.val) ∧ t.curSeq g.val = (s.m.curSeq g.val + 1) % 2 ^ 24 ∧
      t.rdf (q 0x18) 0 0 = 1 ∧ (t.grp g.val).waits = false
    (∀ (h : HostId) (v : W64), (s.m.host h.val).linked = true →
      (s.m.grpValid g.val = true → (s.m.part (s.m.grpPart g.val)).st ≠ .free → (s.m.part (s.m.grpPart g.val)).owner = h.val →
        (s.m.qDepth g.val + fld v 8 0 ≤ 256 → completes (.cmqGpost h g v) s fun t => tail t (fld v 8 0)) ∧
        (256 < s.m.qDepth g.val + fld v 8 0 → completes (.cmqGpost h g v) s full)) ∧
      (s.m.grpValid g.val = false → completes (.cmqGpost h g v) s fun t => t.qTail g.val = s.m.qTail g.val ∧ s.m.tallied t (bGRP + 0x100 + 56) 1) ∧
      (s.m.reachedBy h (q 0x10) → bit v 63 = true → (s.m.grp g.val).run = none → s.m.qDepth g.val = 0 → completes (.cmqReset h g v) s fun t =>
        t.curSeq g.val = fld v 23 0 ∧ t.qHalted g.val = false ∧ t.rd (q 0x20) = 0 ∧ (t.grp g.val).tornSeq = none ∧ t.mem = s.m.mem)) ∧
    (∀ (c : CoreId) (v : W64), s.m.powered = true → c.val < 256 → s.m.drained c.val = true → fld v 11 0 = g.val → s.m.grpValid g.val = true →
      s.m.partOf c.val = some (s.m.grpPart g.val) →
      (s.m.qDepth g.val + fld v 24 16 ≤ 256 → completes (.corCmqpost c v) s fun t => tail t (fld v 24 16)) ∧
      (256 < s.m.qDepth g.val + fld v 24 16 → completes (.corCmqpost c v) s full)) ∧
    (s.m.powered = true → s.m.noCue → s.m.collReady g.val = true → (s.m.grp g.val).tornSeq ≠ some (s.m.curSeq g.val) → (s.m.grp g.val).ends = [] →
      (∀ i, (bitsN (descW e 0 4) 31 28, i) ∈ ops →
        (s.m.collRoom g.val = true → s.m.collFail g.val o = none → completes i s runs) ∧
        (∀ st, s.m.collRoom g.val = true → s.m.collFail g.val o = some st → s.m.rangeFenced place 8 = false → completes i s fun t =>
          t.rdMem place 8 = toLe 4 st ++ toLe 4 0 ∧ t.qHead g.val = (s.m.qHead g.val + 1) % 2 ^ 32 ∧ (t.grp g.val).run = none ∧ t.rdf (q 0x18) 2 0 = 6) ∧
        (s.m.collRoom g.val = false → completes i s fun t => (t.grp g.val).waits = true ∧ t.bar0 = s.m.bar0 ∧ t.mem = s.m.mem)) ∧
      ((s.m.grp g.val).waits = true → s.m.collRoom g.val = true → s.m.collFail g.val o = none → completes (.engineContextFree g) s runs)) ∧
    (∀ r, s.m.powered = true → (s.m.grp g.val).run = some r →
      (s.m.noCue → r.done = true → (s.m.spl.adds.any fun a => a.core == 1000 + g.val) = false → s.m.rangeFenced place 8 = false → completes (.operationComplete g) s fun t =>
        t.rdMem place 8 = toLe 4 0 ++ toLe 4 r.dropped ∧ t.qHead g.val = (s.m.qHead g.val + 1) % 2 ^ 32 ∧ (t.grp g.val).run = none ∧ t.rdf (q 0x18) 0 0 = 0 ∧
        s.m.tallied t (bGRP + 0x100) 1 ∧
        (bitsN (descW r.entry 4 4) 31 16 ≠ 0xFFFF → t.pat.fires = s.m.pat.fires ++ [{ part := s.m.grpPart g.val, notch := bitsN (descW r.entry 4 4) 31 16, src := .group g.val }])) ∧
      (s.m.lnk.clock = true → r.armed = true → s.m.rdf (bG g.val) 31 16 ≠ 0 → completes (.stallWatchdog g) s fun t => t.rdf (q 0x18) 3 3 = 1 ∧
        s.m.tallied t (bGRP + 0x100 + 48) 1 ∧ (t.grp g.val).run = some { r with armed := false }))

/-- R463, R485, R487, R494 to R496, R501 to R503: a chunk that breaks its format, or is of an unknown group, is dropped and counted; one whose CHECK fails, or whose ticket is another's, tears the
operation; a DATA chunk of a group of two brings the other part of a gather, or is combined with the own part of a reduction, and is
written; a TOKEN of the operation adds tokens, one for a later entry waits for it, or it sets a bit of the grant map; a TEAR halts the queue; an END is kept for its operation. -/
def Obligations.CollectiveChunks : Prop :=
  ∀ (s : State) (d : List Byte), s.m.powered = true → s.m.noCue → s.m.takeMsg 2 d = (none, s.m) →
    let g := ccf d 0 23 12
    let kind := ccf d 0 31 28
    let op := (s.m.grp g).run
    let q (off : Nat) : Nat := bQ g + off
    let place := s.m.qAddr g 0 + 0x38
    let each (P : Instr → Prop) : Prop := P (.collDataChunk d) ∧ (kind = 2 → P (.tokenChunk d)) ∧ (kind = 3 → P (.tearChunk d)) ∧ (kind = 4 → P (.endChunk d))
    (ccSound d = false → each fun i => completes i s fun t => s.m.tallied t (bLNK + 0x080) 1 ∧ t.coll = s.m.coll ∧ t.mem = s.m.mem) ∧
    (ccSound d = true → s.m.collKnown d = false → each fun i => completes i s fun t => s.m.tallied t (bGRP + 0x100 + 32) 1 ∧ t.coll = s.m.coll ∧ t.mem = s.m.mem) ∧
    (ccSound d = true → s.m.collKnown d = true →
      let sound := ccf d 0x24 31 0 = ccCheck d
      (∀ o, op = some o → kind = 1 → s.m.rangeFenced place 8 = false →
        let own := (d.drop 8).take 16 = o.ticket
        let torn (st : Nat) : Prop := completes (.collDataChunk d) s fun t => (t.grp g).run = none ∧ t.rdMem place 4 = toLe 4 st ∧ t.rdf (q 0x18) 2 1 = 3
        let self := s.m.grpSelf g
        let part (j : Nat) : Nat × Nat := (o.segAt 2 j, o.segAt 2 (j + 1) - o.segAt 2 j)
        (¬ sound → torn 0x17) ∧ (sound → ¬ own → torn 0x01) ∧
        (sound → own → s.m.grpN g = 2 → self < 2 → s.m.rdf (bG g + 0x20) 45 45 = 0 → (s.m.part (s.m.grpPart g)).st = .running → o.done = false → o.phase = 0 → o.got = 0 →
          (s.m.grp g).ends = [] → o.own = [] → o.held = [] → o.vals = [] → o.accum = false → o.sbolt = false → o.dbolt = false → ccf d 0 27 25 = 7 → 0 < o.eb →
          let written (j : Nat) (bytes : Nat) (at' : Nat) (vs : List Nat) : Prop := 0 < (part j).2 → ccf d 0x18 31 0 = (part j).1 → (part j).2 ≤ 8 * ccf d 0 11 0 / bytes →
            s.m.rangeFenced (o.w 0x10 8 + at') (packElems o.ty vs).length = false → completes (.collDataChunk d) s fun t => s.m.wrote t (o.w 0x10 8 + at') (packElems o.ty vs) ∧
              ∃ r, (t.grp g).run = some r ∧ r.entry = o.entry ∧ r.done = true
          (o.op = 3 → ccf d 0 24 24 = 1 → written (1 - self) o.eb ((part (1 - self)).1 * o.eb) (chunkElems o.ty d (part (1 - self)).2)) ∧
          (o.op = 2 → ccf d 0 24 24 = 0 → o.pty = o.ty → written self o.eb 0
            (List.zipWith (fun x y => collComb o.ty o.rop x y) (chunkElems o.ty d (part self).2)
              ((List.range (part self).2).map fun i => elemOf o.ty (s.m.rdMem (o.w 0x08 8 + (part self).1 * o.eb) ((part self).2 * o.eb)) i))))) ∧
      (∀ o, op = some o → ¬ sound → s.m.rangeFenced place 8 = false →
        let torn (i : Instr) : Prop := completes i s fun t => (t.grp g).run = none ∧ t.rdMem place 4 = toLe 4 0x17 ∧ t.rdf (q 0x18) 2 1 = 3
        (kind = 2 → torn (.tokenChunk d)) ∧ (kind = 3 → torn (.tearChunk d))) ∧
      (∀ o, op = some o → sound → o.done = true → kind = 2 → ccf d 0x18 31 0 ≠ 0 → ccf d 8 23 0 = o.seq → completes (.tokenChunk d) s fun t => t.mem = s.m.mem ∧
        Tab.get 0 (t.grp g).tokens (ccf d 0 27 25) = Tab.get 0 (s.m.grp g).tokens (ccf d 0 27 25) + ccf d 0x18 31 0) ∧
      (op = none →
        (sound → kind = 2 → ccf d 0x18 31 0 ≠ 0 → completes (.tokenChunk d) s fun t => t.mem = s.m.mem ∧ t.bar0 = s.m.bar0 ∧
          t.grp g = (if seqFrom (ccf d 8 23 0) (s.m.curSeq g) then { s.m.grp g with early := (s.m.grp g).early ++ [(ccf d 8 23 0, ccf d 0 27 25, ccf d 0x18 31 0)] }
            else s.m.grp g)) ∧
        (let j := ccf d 0x1C 17 0
         sound → kind = 2 → ccf d 0x18 31 0 = 0 → j < s.m.grpN g → s.m.rangeFenced (s.m.rdf (bG g + 0x18) 45 12 * 2 ^ 12 + j / 8) 1 = false →
          completes (.tokenChunk d) s fun t => ∀ n, t.grantBit g n = if n = j then true else s.m.grantBit g n) ∧
        (sound → kind = 3 → ccf d 0x1C 17 0 ≠ s.m.grpSelf g → 0 < sNat 24 (s.m.curSeq g + 2 ^ 24 - ccf d 8 23 0) → completes (.tearChunk d) s fun t =>
          t.rdf (q 0x18) 2 1 = 3 ∧ s.m.tallied t (bGRP + 0x100 + 16) 1 ∧ t.mem = s.m.mem) ∧
        (kind = 4 → completes (.endChunk d) s fun t => (t.grp g).ends = (s.m.grp g).ends ++ [d] ∧ t.bar0 = s.m.bar0 ∧ t.mem = s.m.mem)))

/-- R11, R13, R515, R517 to R520, R537, R629: a function's write of BAR0 that is not an aligned one of 4 or 8 bytes, or names a page that the host does not own, changes
nothing; a plain field takes the value written, a W1C field clears where the value has 1, the request buffer takes bytes, and a register with
staged fields becomes an item of the host's set, in the place of the one it replaces. A read of BAR2 within the grants is answered with the
bytes and a write within them is done; any other, and any write while HELD, is refused and counted. -/
def Obligations.HostAccess : Prop :=
  ∀ (s : State) (h : HostId) (off : BitVec 26) (v : W64),
    let up : Prop := (s.m.host h.val).linked = true
    let same (i : Instr) : Prop := completes i s fun t => t = s.m
    let a := off.toNat
    let k := s.m.host h.val
    (∀ vf (size : Fin 9), (¬ up ∨ (size.val ≠ 4 ∧ size.val ≠ 8) ∨ a % size.val ≠ 0) → same (.registerWrite h vf off size v)) ∧
    (∀ (vn : Fin 8) size, s.m.vfPart h.val vn.val = none → same (.registerWrite h (some vn) off size v)) ∧
    (∀ (p : PartId) size, s.m.owns h.val p.val = false → bPRT p.val ≤ a → a < bPRT p.val + 0x10000 → same (.registerWrite h none off size v)) ∧
    (∀ size : Fin 9, up → (size.val = 4 ∨ size.val = 8) → a % size.val = 0 → 0x1000 ≤ a → a < 0x2000 → completes (.registerWrite h none off size v) s fun t =>
      t.bar0 = s.m.bar0 ∧ ∀ x, Memory.byte (t.host h.val).req x =
        if a - 0x1000 ≤ x ∧ x < a - 0x1000 + size.val then (toLe size.val v.toNat).getD (x - (a - 0x1000)) 0 else Memory.byte k.req x) ∧
    (∀ (p : PartId), up → s.m.owns h.val p.val = true →
      let takes (i : Instr) : Prop := completes i s fun t => t.rdf (bPRT p.val + 0x18) 8 0 = fld v 8 0 ∧
        ∀ x, x ≠ bPRT p.val + 0x18 → x ≠ bPRT p.val + 0x28 → t.rd x = s.m.rd x
      (a = bPRT p.val + 0x18 → takes (.registerWrite h none off 8 v)) ∧
      (∀ vn : Fin 8, s.m.vfPart h.val vn.val = some p.val → a = 0x18 → takes (.registerWrite h (some vn) off 8 v)) ∧
      (a = bXLT p.val + 0xA0 → completes (.registerWrite h none off 8 v) s fun t => t.rdf a 0 0 = (if bit v 0 then 0 else s.m.rdf a 0 0) ∧
        t.rdf a 2 2 = (if bit v 2 then 0 else s.m.rdf a 2 2) ∧ t.rdf a 1 1 = s.m.rdf a 1 1 ∧ t.rdf a 26 16 = s.m.rdf a 26 16)) ∧
    (∀ r, up → barRow a = some r → 0x40000 ≤ a → r.staged ≠ [] → ((r.width = 8 ∧ a % 8 = 0) ∨ (r.width = 4 ∧ a % 4 = 0)) → needsFitter a = false →
      let x : StageItem := .reg a (if r.width = 4 then w64 (fld v 31 0) else v)
      s.m.mayWrite h.val a (if r.width = 4 then w64 (fld v 31 0) else v) = true →
      ((k.set.any x.same = true ∨ k.set.length < 4096) → completes (.stageItemWrite h none off v) s fun t =>
        (t.host h.val).set = putItem k.set x ∧ (t.host h.val).overfull = k.overfull ∧ t.bar0 = s.m.bar0) ∧
      (k.set.any x.same = false → 4096 ≤ k.set.length → completes (.stageItemWrite h none off v) s fun t =>
        (t.host h.val).set = k.set ∧ (t.host h.val).overfull = true ∧ t.bar0 = s.m.bar0)) ∧
    (∀ (x : BitVec 36), up →
      let pa := s.m.rdf (bMBX h.val + 0x10) 45 36 * 2 ^ 36 + x.toNat
      let refused (t : Mod) : Prop := s.m.tallied t (bMBX h.val + 0x50) 1 ∧ t.mem = s.m.mem
      (∀ n, 0 < n → n ≤ 4096 → x.toNat + n ≤ 2 ^ 36 →
        (s.m.bar2Reach h.val none pa n = true → s.m.coh.upsets = [] → completes (.bar2Access h none x n none) s fun t =>
          (t.host h.val).out = k.out ++ [.answer (some (s.m.rdMem pa n))] ∧ t.mem = s.m.mem) ∧
        (s.m.bar2Reach h.val none pa n = false → completes (.bar2Access h none x n none) s fun t => refused t ∧ (t.host h.val).out = k.out ++ [.answer none])) ∧
      (∀ n bs, 0 < bs.length → bs.length ≤ 512 → x.toNat + bs.length ≤ 2 ^ 36 →
        (s.m.bar2Reach h.val none pa bs.length = true → s.m.isHeld = false → s.m.rangeFenced pa bs.length = false →
          completes (.bar2Access h none x n (some bs)) s fun t => s.m.wrote t pa bs ∧ t.hosts = s.m.hosts) ∧
        ((s.m.bar2Reach h.val none pa bs.length = false ∨ s.m.isHeld = true) → completes (.bar2Access h none x n (some bs)) s fun t => refused t ∧ t.hosts = s.m.hosts)))

/-- R512, R515, R546, R566, R592: a link-down, a hot reset or an FLR of the PF returns the port's mailbox to version 1 with EXPSEQ 0, empties its stage set, discards its
command that waits and lets the one that executes go on without a response; no partition stops, and a link-down ends the host-kind descriptors of
its partitions. An FLR of a VF clears PRT_APBASE and PRT_IEN of its partition. A port trains on its clock. A DOE request is answered with the
report, or with nothing where its length is wrong, and an abort takes it back. Arming a vector sends it where an event stands. -/
def Obligations.HostPorts : Prop :=
  ∀ (s : State) (h : HostId),
    let k := s.m.host h.val
    let stat := bMBX h.val + 8
    let cleared (t : Mod) : Prop := (t.host h.val).set = [] ∧ t.rdf stat 47 32 = 0 ∧ t.rdf stat 17 16 = 1 ∧ t.parts = s.m.parts ∧
      (∀ q d, FitReq.mbx h.val q d ∉ t.fit.queue) ∧ (∀ j, s.m.fit.job = some j → j.port = h.val → t.fit.job = some { j with mute := true })
    (k.linked = true →
      completes (.hotReset h) s (fun t => cleared t ∧ (t.host h.val).linked = true ∧ t.shuttles = s.m.shuttles) ∧
      completes (.pfFlr h) s (fun t => cleared t ∧ (t.host h.val).linked = true ∧ t.shuttles = s.m.shuttles) ∧
      completes (.portLinkDown h) s (fun t => cleared t ∧ (t.host h.val).linked = false ∧
        ∀ u d, u < 8 → d ∈ (t.sht u).running → s.m.owns h.val d.piece.part = true → d.dkind ≠ 2 ∧ (d.skind = 2 → d.hasSrc = false))) ∧
    (k.linked = false → ∀ i, i ∈ [Instr.hotReset h, .pfFlr h, .portLinkDown h] → completes i s fun t => t = s.m) ∧
    (∀ (v : Fin 8) p, k.linked = true → s.m.vfPart h.val v.val = some p → completes (.vfFlr h v) s fun t => t.rd (bPRT p + 0x180) = 0 ∧ t.rd (bPRT p + 0x18) = 0 ∧
      t.parts = s.m.parts ∧ ∀ a, a ≠ bPRT p + 0x180 → a ≠ bPRT p + 0x18 → t.rd a = s.m.rd a) ∧
    (∀ v : Fin 8, s.m.vfPart h.val v.val = none → completes (.vfFlr h v) s fun t => t = s.m) ∧
    (∀ gen width, k.linked = false →
      (k.clock = true → 3 ≤ s.m.pwr.groups → 3 ≤ gen → gen ≤ 6 → width ∈ [1, 2, 4, 8] → completes (.portLinkUp h gen width) s fun t =>
        t.host h.val = { k with linked := true, gen := gen, width := width } ∧ t.bar0 = s.m.bar0) ∧
      ((k.clock = false ∨ gen < 3 ∨ 6 < gen ∨ width ∉ [1, 2, 4, 8]) → completes (.portLinkUp h gen width) s fun t => t = s.m)) ∧
    (∀ d, k.linked = true → s.m.fit.phase = .running →
      (s.m.serves = true → s.m.fit.queue = [] → d.length = 32 → completes (.doeRequest h d) s fun t =>
        let r := (s.m.report d).1
        (t.host h.val).out = k.out ++ [.doe (padTo (cdiv r.length 4 * 4) r)] ∧ t.fit.queue = [] ∧ t.bar0 = s.m.bar0) ∧
      (s.m.serves = true → s.m.fit.queue = [] → d.length ≠ 32 → completes (.doeRequest h d) s fun t => (t.host h.val).out = k.out ++ [.doe []]) ∧
      (s.m.serves = false → completes (.doeRequest h d) s fun t => t.fit.queue = s.m.fit.queue ++ [.doe h.val d] ∧ t.hosts = s.m.hosts)) ∧
    completes (.doeAbort h) s (fun t => (∀ d, FitReq.doe h.val d ∉ t.fit.queue) ∧ t.hosts = s.m.hosts) ∧
    (∀ v : W64, k.linked = true → bit v 0 = true →
      let arm := portStride * h.val + bCAL + 0x108
      let ev := s.m.rdf (bCAL + 0x80) 5 0 &&& s.m.rdf (portStride * h.val + bCAL + 0x100) 5 0
      completes (.calMiarm h v) s fun t => if ev = 0 then t.rdf arm 0 0 = 1 ∧ (t.host h.val).out = k.out
        else t.rdf arm 0 0 = 0 ∧ (t.host h.val).out = k.out ++ [.msix 0])

/-- R525, R526, R546, R586, R588, R590: RUN takes a stopped partition to RUNNING unless the panel of its lead engine is fenced; STOP takes a running one to STOPPED and
raises PSTOP on its cores; CRESET returns a halted core, or one of a stopped partition, to reset, and leaves a fenced one; IARM arms the
vector, which is sent where an enabled event stands. A die-to-die link that fails fences the higher panel with its cores and
spools, and stops the partitions that it leads. -/
def Obligations.PartitionControl : Prop :=
  ∀ (s : State) (h : HostId) (p : PartId),
    let q := s.m.part p.val
    (s.m.reachedBy h (bPRT p.val + 0x08) →
      (q.st = .stopped → s.m.panelFenced (s.m.leadPanel p.val) = false → completes (.prtRun h p) s fun t => t.part p.val = { q with st := .running } ∧
        (∀ o, o ≠ p.val → t.part o = s.m.part o) ∧ t.cores = s.m.cores ∧ t.bar0 = s.m.bar0) ∧
      ((q.st ≠ .stopped ∨ s.m.panelFenced (s.m.leadPanel p.val) = true) → completes (.prtRun h p) s fun t => t = s.m) ∧
      (q.st = .running → completes (.prtStop h p) s fun t => t.part p.val = { q with st := .stopped } ∧ (∀ o, o ≠ p.val → t.part o = s.m.part o) ∧
        ∀ c, c ∈ q.cores → (t.core c).cregf 0x018 17 17 = 1) ∧
      (q.st ≠ .running → completes (.prtStop h p) s fun t => t = s.m)) ∧
    (∀ v : W64, s.m.reachedBy h (bPRT p.val + 0x10) → bit v 8 = true → fld v 7 0 ∈ q.cores →
      let c := fld v 7 0
      (s.m.coreFenced c = true → completes (.prtCreset h p v) s fun t => t = s.m) ∧
      ((s.m.core c).halted = false → q.st ≠ .stopped → completes (.prtCreset h p v) s fun t => t = s.m) ∧
      (s.m.coreFenced c = false → ((s.m.core c).halted = true ∨ q.st = .stopped) → (s.m.core c).piece = none → completes (.prtCreset h p v) s fun t =>
        (t.core c).bank = {} ∧ (t.core c).shadow = {} ∧ (t.core c).creg 0x000 = 0 ∧ (t.core c).trap = none ∧ (t.core c).pend = [] ∧ (t.core c).run = .free ∧
        (t.core c).vec.stations = [] ∧ (t.core c).bolt = (s.m.core c).bolt ∧ (∀ d, d ≠ c → t.core d = s.m.core d) ∧ t.mem = s.m.mem ∧ t.bar0 = s.m.bar0)) ∧
    (∀ v : W64, s.m.reachedBy h (bPRT p.val + 0x28) → bit v 0 = true →
      let arm := bPRT p.val + 0x28
      let ev := s.m.prtEvt p.val &&& s.m.rdf (bPRT p.val + 0x18) 8 0
      (ev = 0 ∨ s.m.isHeld = true → completes (.prtIarm h p v) s fun t => t.rdf arm 0 0 = 1 ∧ t.hosts = s.m.hosts) ∧
      (ev ≠ 0 → s.m.isHeld = false → completes (.prtIarm h p v) s fun t => t.rdf arm 0 0 = 0 ∧
        (t.host h.val).out = (s.m.host h.val).out ++ .msix (1 + p.val) :: (s.m.vfsOf h.val p.val).map HostOut.msixVf)) ∧
    (∀ a b : PanelId, s.m.powered = true →
      (a = b → completes (.dieToDieLinkFailure a b) s fun t => t = s.m) ∧
      (a ≠ b → s.m.panelFenced (max a.val b.val) = false → completes (.dieToDieLinkFailure a b) s fun t =>
        let n := max a.val b.val
        t.panelFenced n = true ∧ (∀ i, i < 64 → t.coreFenced (64 * n + i) = true) ∧ (∀ i, i < 6 → 6 * n + i ∈ t.spl.fenced) ∧
        ∀ o, o < 16 → s.m.leadPanel o = n → (t.part o).st ≠ .running))

/-- R529 to R532, R534, R636: a doorbell copies the request and sets BUSY, and is ignored and counted while BUSY; the fitter serves nothing while it does not serve or
has no request; a repeat of the last SEQ is answered with the stored response and another SEQ with MBX_SEQ, neither executed nor counted in EXPSEQ; a
request that fails a check of its header is answered with that status, and one whose issuer lacks the right with MBX_PERM. -/
def Obligations.MailboxTurns : Prop :=
  ∀ (s : State) (h : HostId),
    let k := s.m.host h.val
    let b := bMBX h.val
    (∀ v : W64, k.linked = true →
      (s.m.rdf (b + 8) 1 1 = 0 → completes (.registerWrite h none 0 8 v) s fun t => t.rdf (b + 8) 1 1 = 1 ∧ t.hosts = s.m.hosts ∧
        t.fit = { (s.m.fitterIrq (18 + h.val)).fit with queue := s.m.fit.queue ++ [.mbx h.val (fld v 15 0) (Memory.bytes k.req 0 4096)] }) ∧
      (s.m.rdf (b + 8) 1 1 = 1 → completes (.registerWrite h none 0 8 v) s fun t => t.fit = s.m.fit ∧ t.hosts = s.m.hosts ∧ s.m.tallied t (b + 0x58) 1)) ∧
    (∀ code i, mailRow code i → s.m.powered = true →
      (s.m.serves = false ∨ s.m.fit.queue = [] → completes i s fun t => t = s.m) ∧
      (∀ seq d, s.m.serves = true → s.m.fit.queue = [.mbx h.val seq d] → (d.headD 0).toNat = code →
        let exp := s.m.rdf (b + 8) 47 32
        let c := (s.m.readCmd h.val seq d).1
        (∀ r, seq ≠ exp → (seq + 1) % 2 ^ 16 = exp → k.stored = some r → completes i s fun t => s.m.taken.responded t h.val r ∧ t.rdf (b + 8) 47 32 = exp) ∧
        (seq ≠ exp → ((seq + 1) % 2 ^ 16 ≠ exp ∨ k.stored = none) → completes i s fun t =>
          s.m.taken.responded t h.val (respBytes seq c.code c.ver c.part 4 []) ∧ t.rdf (b + 8) 47 32 = exp) ∧
        (∀ st, seq = exp → (s.m.readCmd h.val seq d).2 = some st → completes i s fun t => s.m.taken.answered t c st []))) ∧
    (∀ seq d, s.m.powered = true → s.m.serves = true → s.m.fit.queue = [.mbx h.val seq d] → (d.headD 0).toNat = 0x13 → seq = s.m.rdf (b + 8) 47 32 →
      let c := (s.m.readCmd h.val seq d).1
      (s.m.readCmd h.val seq d).2 = none → s.m.mayIssue c = false → completes .stewardKey s fun t => s.m.taken.answered t c 5 [])

/-- R533 to R535, R527, R565, R587, R623, R631: the commands that inform and serve, each answered in its turn: HELLO sets the version in force; INFO, HEALTH and TIME_GET tell; TIME_SET
and STEWARD_KEY keep a value; GLOVE_GRANT writes a tagged glove into the owner's cap table; SNAPSHOT captures every counter that has counted;
ATTEST builds a report or goes on with it; MOD_RESET is answered before the reset comes. -/
def Obligations.MailboxServices : Prop :=
  ∀ (s : State) (c : Cmd) (d : List Byte), s.m.asked c d →
    let m := s.m.taken
    (c.code = 0x01 → allZero c 2 6 = true →
      let recov : Prop := s.m.fit.phase = .recovery
      let v := min (c.f 1 1) (if recov then 2 else 3)
      ((v < c.f 0 1 ∨ c.f 0 1 = 0) → completes .hello s fun t => m.answered t c 2 []) ∧
      (c.f 0 1 ≤ v → c.f 0 1 ≠ 0 → completes .hello s fun t => t.rdf (bMBX c.port + 8) 17 16 = v ∧ (m.wrf (bMBX c.port + 8) 17 16 v).answered t c 0
        (toLe 1 v ++ toLe 1 (if recov then 0xFF else s.m.fit.steward) ++ toLe 2 (if recov then 0 else s.m.ownedMask c.port) ++ toLe 4 0))) ∧
    (c.code = 0x02 → completes .info s fun t => m.answered t c 0 (if s.m.fit.phase = .recovery then List.replicate 16 0 else
      toLe 4 (s.m.rdf bLNK 17 0) ++ toLe 4 s.m.fit.version ++ toLe 8 (s.m.rd bCFGSTAT).toNat)) ∧
    (c.code = 0x03 → completes .health s fun t => m.answered t c 0 (toLe 8 (s.m.rd (bCAL + 0x40)).toNat ++ toLe 8 (s.m.rd (bCAL + 0x48)).toNat ++
      toLe 8 (s.m.rd (bCAL + 0x50)).toNat ++ toLe 8 (s.m.rd (bCAL + 0x58)).toNat ++ toLe 8 (s.m.rdf (bCAL + 0x60) 27 0))) ∧
    (c.code = 0x04 → completes .timeSet s fun t => ({ m with fit := { m.fit with time := some (c.f 0 8) } } : Mod).answered t c 0 []) ∧
    (c.code = 0x05 → (s.m.fit.time = none → completes .timeGet s fun t => m.answered t c 0 (List.replicate 16 0)) ∧
      (∀ t0, s.m.fit.time = some t0 → completes .timeGet s fun t => ∃ w : Nat, m.freeW.2.answered t c 0 (toLe 8 (t0 + w) ++ toLe 8 s.m.clockSrc))) ∧
    (c.code = 0x13 → completes .stewardKey s fun t => ({ m with fit := { m.fit with stewardKey := c.pay.take 32 } } : Mod).answered t c 0 []) ∧
    (c.code = 0x30 → c.f 1 1 < 8 → allZero c 2 2 = true → c.f 4 4 < 2 ^ 30 → c.f 8 8 < 2 ^ 48 →
      let base := s.m.rdf (bPAT c.part + 0x18) 45 12 * 2 ^ 12
      let len := c.f 0x10 8
      let r := c.f 1 1
      let fit : Prop := 3 ≤ c.f 0 1 ∧ len ≠ 0 ∧ len < 2 ^ 34 ∧ (s.m.part c.part).holds base 4096 = true
      (s.m.owns c.port c.part = false → completes .gloveGrant s fun t => m.answered t c 5 []) ∧
      (s.m.owns c.port c.part = true → ¬ fit → completes .gloveGrant s fun t => m.answered t c 0x0106 []) ∧
      (s.m.owns c.port c.part = true → fit → completes .gloveGrant s fun t => ∃ x : Cap, (m.wrCap (base + 16 * c.f 0 1) x).answered t c 0 [] ∧ x.type = 2 ∧
        x.perms = (if r.testBit 0 then pRD else 0) + (if r.testBit 1 then pWR else 0) + (if r.testBit 2 then pLC else 0) ∧
        bitsN x.bits.toNat 111 94 = bitsN (c.f 4 4) 17 0 ∧ bitsN x.bits.toNat 93 82 = bitsN (c.f 4 4) 29 18 ∧ bitsN x.bits.toNat 81 48 = len ∧
        bitsN x.bits.toNat 47 0 = c.f 8 8 ∧ x.tag = x.taggable)) ∧
    (c.code = 0x40 → completes .snapshot s fun t =>
      let n := (s.m.rdf (bMON + 0x30000) 31 0 + 1) % 2 ^ 32
      m.snapshot.answered t c 0 (toLe 8 n) ∧ t.rdf (bMON + 0x30000) 31 0 = n ∧
      (Tab.sorted s.m.bar0 = true → ∀ a x y, Tab.get? s.m.bar0 a = some x → snapOf a = some y → t.rd y = x ∧ t.rd a = x)) ∧
    (c.code = 0x50 → allZero c 0x24 4 = true →
      let off := c.f 0x20 4
      let part (r : List Byte) : List Byte := toLe 4 r.length ++ (r.drop off).take 4076
      (off = 0 → completes .attest s fun t => ∃ r m1, m.report (c.pay.take 32) = (r, m1) ∧ (t.host c.port).report = some r ∧
        (m1.updHost c.port fun k => { k with report := some r }).answered t c 0 (part r)) ∧
      (∀ r, 0 < off → off < r.length → (s.m.host c.port).report = some r → completes .attest s fun t => m.answered t c 0 (part r)) ∧
      (0 < off → (∀ r, (s.m.host c.port).report = some r → r.length ≤ off) → completes .attest s fun t => m.answered t c 0x0304 (toLe 4 0))) ∧
    (c.code = 0x52 → completes .modReset s fun t => ({ m with fit := { m.fit with resetDue := true } } : Mod).answered t c 0 [])

/-- R522, R523, R528, R537 to R543, R628: PART_DEFINE, PART_DESTROY and CFG_STAGE add items to the issuer's set, each in the place of the one it replaces, and fail where the set has no
room; a CFG_STAGE whose payload is no whole number
of items is answered MBX_LEN; CFG_CHECK tells the first failure of the set; CFG_APPLY answers it, or takes the set and drains; APPLY_SWITCH checks the set once more, puts
it into force or keeps it, and answers; CFG_DISCARD empties the set; CFG_REG applies one register at once; PART_ADOPT moves a
partition, or the stewardship, to who knows the secret. -/
def Obligations.MailboxConfiguration : Prop :=
  ∀ (s : State),
    (∀ (h : HostId) (d : List Byte),
      let seq := s.m.rdf (bMBX h.val + 8) 47 32
      let ver := s.m.rdf (bMBX h.val + 8) 17 16
      s.m.powered = true → s.m.serves = true → s.m.fit.phase ≠ .recovery → s.m.fit.queue = [.mbx h.val seq d] → d.headD 0 = 0x20 → 2 ≤ ver →
      cutItems 257 ((d.drop 16).take (ofLe ((d.drop 4).take 4) % 2 ^ 13)) = none → completes .cfgStage s fun t => ∃ c : Cmd,
        c.port = h.val ∧ c.seq = seq ∧ c.ver = ver ∧ c.code = 0x20 ∧ s.m.taken.answered t c 3 []) ∧
    (∀ (c : Cmd) (d : List Byte), s.m.asked c d →
      let m := s.m.taken
      let k := s.m.host c.port
      let put (set : List StageItem) : Mod := m.updHost c.port fun k => { k with set := set }
      let stages (i : Instr) (x : StageItem) : Prop :=
        ((k.set.any x.same = true ∨ k.set.length < 4096) → completes i s fun t => (put (putItem k.set x)).answered t c 0 []) ∧
        (k.set.any x.same = false → 4096 ≤ k.set.length → completes i s fun t => m.answered t c 0x0202 [])
      (c.code = 0x06 → c.f 0 4 < 2 ^ 26 → allZero c 4 4 = true → completes .cfgReg s fun t =>
        match m.applyNow c.port c.ver [.reg (c.f 0 4) (w64 (c.f 8 8))] c.port false with
        | .inl f => m.answered t c f.1 (m.genBytes ++ toLe 4 0)
        | .inr m1 => m1.answered t c 0 (m1.genBytes ++ toLe 4 0)) ∧
      (c.code = 0x10 → c.partForm = true → stages .partDefine (.define (c.f 0 1) c.partDef)) ∧
      (c.code = 0x11 → c.f 0 1 < 16 → allZero c 1 7 = true →
        ((s.m.part (c.f 0 1)).st = .free → completes .partDestroy s fun t => m.answered t c 0x0101 []) ∧
        ((s.m.part (c.f 0 1)).st ≠ .free → stages .partDestroy (.destroy (c.f 0 1)))) ∧
      (c.code = 0x12 → allZero c 1 7 = true →
        let p := c.f 0 1
        let knows (digest : List Byte) : Prop := (padTo 32 digest).all (· == 0) = false ∧ shake256 ((c.pay.drop 8).take 32) 32 = padTo 32 digest
        let new := (c.pay.drop 0x28).take 32
        let fails (st : Nat) (t : Mod) : Prop := m.answered t c st (if st < 0x100 then [] else m.genBytes ++ toLe 4 0)
        let m1 := m.applySet [] c.port false
        (p < 16 →
          (s.m.owns c.port p = true → completes .partAdopt s (fails 5)) ∧ ((s.m.part p).st = .free → completes .partAdopt s (fails 0x0101)) ∧
          (s.m.owns c.port p = false → (s.m.part p).st ≠ .free → ¬ knows (s.m.part p).digest → completes .partAdopt s (fails 0x0105)) ∧
          (s.m.owns c.port p = false → (s.m.part p).st ≠ .free → knows (s.m.part p).digest → completes .partAdopt s fun t =>
            (t.part p).owner = c.port ∧ (t.part p).digest = new ∧ (m1.adopt c.port p new).answered t c 0 ((m1.adopt c.port p new).genBytes ++ toLe 4 0))) ∧
        (p = 0xFF →
          (s.m.fit.steward = c.port → completes .partAdopt s (fails 5)) ∧
          (s.m.fit.steward ≠ c.port → ¬ knows s.m.fit.stewardKey → completes .partAdopt s (fails 0x0105)) ∧
          (s.m.fit.steward ≠ c.port → knows s.m.fit.stewardKey → completes .partAdopt s fun t => t.fit.steward = c.port ∧ t.fit.stewardKey = new ∧
            (t.host c.port).stored = some (respBytes c.seq c.code c.ver c.part 0 (m1.genBytes ++ toLe 4 0))))) ∧
      (c.code = 0x20 →
        (∀ l, cutItems 257 c.pay = some l → (l.any fun b => (readItem b).isNone) = true → completes .cfgStage s fun t => m.answered t c 6 []) ∧
        (∀ l, cutItems 257 c.pay = some l → (l.all fun b => (readItem b).isSome) = true →
          let new := (l.filterMap readItem).foldl putItem k.set
          (new.length ≤ 4096 → completes .cfgStage s fun t => (put new).answered t c 0 (toLe 8 new.length)) ∧
          (4096 < new.length → completes .cfgStage s fun t => m.answered t c 0x0202 (toLe 8 k.set.length)))) ∧
      (c.code = 0x21 → (s.m.taken.checkHost c = none → completes .cfgCheck s fun t => m.answered t c 0 (List.replicate 16 0)) ∧
        (∀ f, m.checkHost c = some f → completes .cfgCheck s fun t => m.answered t c f.1 (failBytes f))) ∧
      (c.code = 0x22 → c.f 0 4 < 2 → allZero c 4 4 = true →
        (∀ f, m.checkHost c = some f → completes .cfgApply s fun t => m.answered t c f.1 (m.applyBytes (some f))) ∧
        (m.checkHost c = none → completes .cfgApply s fun t => (t.host c.port).set = [] ∧ (t.host c.port).overfull = false ∧ t.fit.queue = [] ∧
          t.fit.job = some { port := c.port, seq := c.seq, ver := c.ver, part := c.part, set := k.set, save := c.f 0 1 == 1 })) ∧
      (c.code = 0x23 → completes .cfgDiscard s fun t => (m.updHost c.port fun k => { k with set := [], overfull := false }).answered t c 0 [])) ∧
    (∀ (j : ApplyJob) (fails : Bool), s.m.powered = true → s.m.fit.job = some j → j.mute = false → j.port < 2 → (s.m.core 256).halted = false → s.m.fit.queue = [] →
      let c : Cmd := { port := j.port, seq := j.seq, ver := j.ver, code := 0x22, part := j.part }
      let m : Mod := { s.m with fit := { s.m.fit with job := none } }
      (∀ f, m.checkSet j.port j.ver j.set = some f → completes (.applySwitch fails) s fun t => t.nv = s.m.nv ∧
        let m2 := m.drainEnds.updHost j.port fun k => { k with set := k.set.foldl putItem j.set }
        m2.answered t c f.1 (m2.applyBytes (some f))) ∧
      (m.checkSet j.port j.ver j.set = none → completes (.applySwitch fails) s fun t =>
        let m1 := (m.applySet j.set j.port true).drainEnds
        m1.answered t c (if j.save && fails then 0x0204 else 0) (m1.applyBytes none) ∧
        t.nv.saved = if j.save && !fails then Tab.put s.m.nv.saved j.port (s.m.mergeSaved (Tab.get [] s.m.nv.saved j.port) j.set) else s.m.nv.saved))

/-- R384, R543, R544, R548 to R555, R568, R586, R613, R615: the boot ROM takes the acceptable slot of the higher SVN, then the higher VERSION, then slot A; its body lies in SRAM, the core
stands at ENTRY, C rises to what could be blown, the sequencer shows RUN and the mailboxes open; with no slot it enters recovery. Training
waits in COLD until every spool group is warm; spools that fail it are fenced; zeroing clears spool memory and its tags; the boot
apply puts the saved sets into force, or the module is HELD with the reason. Out of its turn none of them does anything. -/
def Obligations.BootSequence : Prop :=
  ∀ (s : State), s.m.powered = true →
    let f := s.m.fit
    (∀ copyA copyB (unblown : BitVec 7),
      let i : Instr := .bootRomStart copyA copyB unblown
      let a := s.m.nv.image 0
      let b := s.m.nv.image 1
      let okA : Prop := s.m.nv.accepts a = true ∧ copyA = true
      let okB : Prop := s.m.nv.accepts b = true ∧ copyB = true
      let boots (x : Image0) (slot : Nat) : Prop := completes i s fun t =>
        t.fit.phase = .running ∧ t.fit.step = .booted ∧ t.fit.slot = slot ∧ t.fit.svn = x.svn ∧ t.fit.version = x.version ∧ t.fit.m1 = x.m1 ∧
        t.fit.steward = (if (s.m.host 0).linked then 0 else 1) ∧ t.nv = { s.m.nv with svn := max s.m.nv.svn (x.svn - unblown.toNat) } ∧
        (∀ j, j < x.body.length → Memory.byte t.sram j = x.body.getD j 0) ∧ (t.core 256).bank.pc = w64 (x.f 0x14 4) ∧ t.pwr = { s.m.pwr with seq := 3 } ∧
        t.rdf bPWR 3 0 = 3 ∧ ∀ h : HostId, t.rdf (bMBX h.val + 8) 1 1 = 0
      ((f.phase ≠ .rom ∨ s.m.pwr.seq ≠ 2) → completes i s fun t => t = s.m) ∧
      (f.phase = .rom → s.m.pwr.seq = 2 →
        (okA → (¬ okB ∨ b.svn < a.svn ∨ (b.svn = a.svn ∧ b.version ≤ a.version)) → boots a 0) ∧
        (okB → (¬ okA ∨ a.svn < b.svn ∨ (a.svn = b.svn ∧ a.version < b.version)) → boots b 1) ∧
        (¬ okA → ¬ okB → completes i s fun t => t.fit = { f with phase := .recovery } ∧ t.nv = s.m.nv ∧ t.pwr = s.m.pwr ∧
          ∀ h : HostId, t.rdf (bMBX h.val + 8) 1 1 = 0))) ∧
    (∀ (failed : BitVec 24) bad0 bad1,
      (s.m.firmwareRuns = false → ∀ i, i ∈ [Instr.spoolTraining, .coldWaitEnd, .spoolTrainingDone failed, .spoolZeroingDone, .bootApply bad0 bad1] →
        completes i s fun t => t = s.m) ∧
      (f.step ≠ .booted → completes .spoolTraining s fun t => t = s.m) ∧ (f.step ≠ .cold → completes .coldWaitEnd s fun t => t = s.m) ∧
      (f.step ≠ .training → completes (.spoolTrainingDone failed) s fun t => t = s.m) ∧ (f.step ≠ .zeroing → completes .spoolZeroingDone s fun t => t = s.m) ∧
      (f.step ≠ .zeroed → completes (.bootApply bad0 bad1) s fun t => t = s.m)) ∧
    (s.m.firmwareRuns = true →
      (f.step = .booted → s.m.spoolsWarm = true → completes .spoolTraining s fun t => t = { s.m with fit := { f with step := .training } }) ∧
      (f.step = .booted → s.m.spoolsWarm = false → completes .spoolTraining s fun t => t.fit = { f with step := .cold } ∧ t.pwr.seq = 6 ∧ t.rdf bPWR 3 0 = 6 ∧
        t.rdf (bPWR + 0x38) 4 4 = 1 ∧ s.m.tallied t (bPWR + 0xA0) 1 ∧ (t.sbWord 2).testBit 4 = true ∧ t.sbWord 12 = (s.m.sbWord 12 + 1) % 2 ^ 32) ∧
      (f.step = .cold → s.m.spoolsWarm = true → completes .coldWaitEnd s fun t => t.fit = { f with step := .training } ∧ t.pwr = { s.m.pwr with seq := 3 } ∧
        t.rdf bPWR 3 0 = 3) ∧
      (f.step = .cold → s.m.spoolsWarm = false → completes .coldWaitEnd s fun t => t = s.m) ∧
      (∀ failed : BitVec 24, f.step = .training → completes (.spoolTrainingDone failed) s fun t => t.fit = { f with step := .zeroing } ∧ t.cores = s.m.cores ∧
        t.mem = s.m.mem ∧ ∀ v, v ∈ t.spl.fenced ↔ v ∈ s.m.spl.fenced ∨ (v < 24 ∧ bit failed v = true)) ∧
      (f.step = .zeroing → completes .spoolZeroingDone s fun t => t.fit = { f with step := .zeroed } ∧
        (∀ x, Memory.byte t.mem x = if x < scratchBase then 0 else Memory.byte s.m.mem x) ∧ (∀ x, t.tagAt x = if x < scratchBase then false else s.m.tagAt x)) ∧
      (∀ bad0 bad1, f.step = .zeroed → f.job = none →
        let saved (h : Nat) : List StageItem := Tab.get [] s.m.nv.saved h
        let m : Mod := { s.m with fit := { f with step := .applied } }
        let spoiled : Prop := (bad0 = true ∧ (Tab.get? s.m.nv.saved 0).isSome = true) ∨ (bad1 = true ∧ (Tab.get? s.m.nv.saved 1).isSome = true)
        let held (reason status : Nat) (t : Mod) : Prop := t.fit.step = .applied ∧ t.rdf bCFGSTAT 1 0 = 2 ∧ t.rdf bCFGSTAT 15 8 = reason ∧ t.rdf bCFGSTAT 31 16 = status ∧
          t.rdf bCFGSTAT 63 32 = s.m.rdf bCFGSTAT 63 32
        (spoiled → completes (.bootApply bad0 bad1) s (held 1 0)) ∧
        (¬ spoiled → completes (.bootApply bad0 bad1) s fun t =>
          match m.applyNow fitterIssuer 3 ((saved 1).foldl putItem (saved 0)) 2 false with
          | .inl x => held 2 (x.1 % 2 ^ 16) t
          | .inr m1 => { t with nv := m1.nv, pwr := m1.pwr } = m1 ∧ t.nv = s.m.nv ∧ t.pwr = s.m.pwr)))

/-- R550, R551, R555, R556: under running firmware the bytes of a push go to the slot that did not boot, in order, and at LAST an image that is not acceptable is told;
bytes out of order or beyond the slot change nothing. In recovery they go to SRAM, and an acceptable image at LAST is kept in
slot A and boots. -/
def Obligations.PushedImages : Prop :=
  ∀ (s : State) (c : Cmd) (d : List Byte) (fails : Bool) (unblown : BitVec 7), s.m.asked c d → c.code = 0x51 → c.f 4 4 < 2 →
    let off := c.f 0 4
    let data := c.pay.drop 8
    let n := off + data.length
    let last : Prop := c.f 4 4 = 1
    let i : Instr := .fwPush fails unblown
    let from' := if off = 0 then 0 else s.m.fit.pushed
    let base := slotBase s.m.otherSlot
    let told (t : Mod) (st k : Nat) : Prop := (t.host c.port).stored = some (respBytes c.seq c.code c.ver c.part st (toLe 8 k)) ∧
      t.rdf (bMBX c.port + 8) 47 32 = (c.seq + 1) % 2 ^ 16 ∧ t.fit.queue = []
    (off ≠ from' → completes i s fun t => told t 0x0301 s.m.fit.pushed ∧ t.nv = s.m.nv ∧ t.sram = s.m.sram ∧ t.fit.pushed = s.m.fit.pushed) ∧
    (off = from' → off ≠ 0 → 0x400000 < n → completes i s fun t => told t 0x0302 s.m.fit.pushed ∧ t.nv = s.m.nv ∧ t.sram = s.m.sram) ∧
    (s.m.fit.phase = .running → off = from' → n ≤ 0x400000 → completes i s fun t => t.fit.pushed = n ∧ t.nv.svn = s.m.nv.svn ∧ t.nv.saved = s.m.nv.saved ∧
      t.sram = s.m.sram ∧ (∀ a, t.nv.byte a = if fails = false ∧ base + off ≤ a ∧ a < base + n then data.getD (a - (base + off)) 0
        else if off = 0 ∧ base ≤ a ∧ a < base + 0x1000 then 0xFF else s.m.nv.byte a) ∧
      (last → t.nv.accepts (t.nv.image s.m.otherSlot) = false → told t 0x0303 n) ∧ ((¬ last ∨ t.nv.accepts (t.nv.image s.m.otherSlot) = true) → told t 0 n)) ∧
    (s.m.fit.phase = .recovery → off = from' → n ≤ 0x400000 →
      let ram := Memory.setBytes (if off = 0 then [] else s.m.sram) off data
      let x := imageOf (fun a k => Memory.bytes ram a k) n
      (¬ last → completes i s fun t => told t 0 n ∧ t.sram = ram ∧ t.nv = s.m.nv ∧ t.fit.pushed = n ∧ t.fit.phase = .recovery) ∧
      (last → s.m.nv.accepts x = false → completes i s fun t => told t 0x0303 n ∧ t.nv = s.m.nv ∧ t.fit.phase = .recovery) ∧
      (last → s.m.nv.accepts x = true → completes i s fun t => told t 0 n ∧ t.fit.phase = .running ∧ t.fit.step = .booted ∧ t.fit.slot = 2 ∧ t.pwr = { s.m.pwr with seq := 3 } ∧
        t.nv.svn = max s.m.nv.svn (x.svn - unblown.toNat) ∧ (t.core 256).bank.pc = w64 (x.f 0x14 4) ∧
        ∀ a, t.nv.byte a = if fails = false ∧ a < n then Memory.byte ram a else s.m.nv.byte a))

/-- R595, R597, R602, R607, R612: the converter starts from 34.00 V and stops below 28.00 V, and above the absolute maximum starts or not (log 65); with VSTBY good the sequencer stands in
STANDBY and serves; the enable input starts the ramp, from FAULT and TRIP only after an enable cycle and, from TRIP, when cool; each group that is
good lets the next ramp, and the sixth releases the boot ROM; a rail that is late, or fails, takes the sequencer to FAULT, a trip to TRIP,
and ENABLE low to STANDBY, with every rail down; fuses and flash are kept throughout. -/
def Obligations.PowerSequence : Prop :=
  ∀ (s : State),
    let p := s.m.pwr
    let same (i : Instr) : Prop := completes i s fun t => t = s.m
    let down (seq : Nat) (t : Mod) : Prop := t.pwr.seq = seq ∧ t.pwr.groups = 0 ∧ t.rdf bPWR 3 0 = seq ∧ t.nv = s.m.nv ∧ t.cores = [] ∧ t.mem = [] ∧
      t.fit = {} ∧ ∀ h : HostId, (t.host h.val).linked = false ∧ (t.host h.val).clock = (s.m.host h.val).clock
    let event (n : Nat) (t : Mod) : Prop := (t.sbWord 2).testBit n = true ∧ t.sbWord (8 + n) = (s.m.sbWord (8 + n) + 1) % 2 ^ 32
    let ramps (g : Nat) (t : Mod) : Prop := t.pwr.seq = 1 ∧ t.pwr.groups = g ∧ t.pwr.rail = (rampGroups.getD g []).headD 0 ∧ t.rdf bPWR 3 0 = 1 ∧ t.nv = s.m.nv
    (∀ v : BitVec 16,
      (p.converter = false → 6000 < v.toNat → completes (.converterStart v) s fun t => (∀ a, a ≠ bPWR → t.rd a = s.m.rd a) ∧
        ((t.pwr = { p with converter := true, input := v.toNat } ∧ t.rdf bPWR 31 16 = v.toNat) ∨ (t.pwr = { p with input := v.toNat } ∧ t.bar0 = s.m.bar0))) ∧
      (p.converter = false → 3400 ≤ v.toNat → v.toNat ≤ 6000 → completes (.converterStart v) s fun t => t.pwr = { p with converter := true, input := v.toNat } ∧
        t.rdf bPWR 31 16 = v.toNat ∧ ∀ a, a ≠ bPWR → t.rd a = s.m.rd a) ∧
      ((p.converter = true ∨ v.toNat < 3400) → same (.converterStart v)) ∧
      (p.converter = true → v.toNat < 2800 → completes (.converterStop v) s fun t => down 0 t ∧ t.pwr.standby = false ∧ t.pwr.converter = false ∧
        t.pwr.enable = p.enable ∧ t.pwr.input = v.toNat) ∧
      ((p.converter = false ∨ 2800 ≤ v.toNat) → same (.converterStop v))) ∧
    (p.converter = true → p.standby = false → completes .standbyGood s fun t => t.pwr.standby = true ∧ t.nv = s.m.nv ∧
      if p.enable then t.pwr.seq = 1 ∧ t.pwr.rail = 14 ∧ t.rdf bPWR 3 0 = 1 else t.pwr.seq = 0 ∧ t.rdf bPWR 3 0 = 0) ∧
    ((p.converter = false ∨ p.standby = true) → same .standbyGood) ∧
    (∀ cool, p.enable = false → p.standby = true → p.groups = 0 →
      (p.seq = 0 → completes (.enableHigh cool) s fun t => ramps 0 t ∧ t.pwr.enable = true) ∧
      (p.cycled = true → (p.seq = 4 ∨ (p.seq = 5 ∧ cool = true)) → completes (.enableHigh cool) s fun t => ramps 0 t ∧ t.pwr.enable = true) ∧
      (((p.seq = 4 ∨ p.seq = 5) ∧ p.cycled = false) ∨ (p.seq = 5 ∧ cool = false) → completes (.enableHigh cool) s fun t => t = { s.m with pwr := { p with enable := true } })) ∧
    (∀ cool, p.enable = true → same (.enableHigh cool)) ∧ (p.enable = false → same .enableLow) ∧
    (p.enable = true → p.standby = true → p.seq ≠ 4 → p.seq ≠ 5 → completes .enableLow s fun t => down 0 t ∧ t.pwr.enable = false ∧ t.pwr.standby = true) ∧
    (p.enable = true → (p.seq = 4 ∨ p.seq = 5) → completes .enableLow s fun t => t = { s.m with pwr := { p with enable := false, cycled := true } }) ∧
    (p.seq = 1 → (∀ r, r ∈ rampGroups.getD p.groups [] → completes .railGroupGood s fun t => t.railVolt r = s.m.railGoal r % 2 ^ 16) ∧
      (p.groups < 5 → completes .railGroupGood s (ramps (p.groups + 1))) ∧
      (p.groups = 5 → completes .railGroupGood s fun t => t.pwr.seq = 2 ∧ t.pwr.groups = 6 ∧ t.pwr.rail = 0 ∧ t.rdf bPWR 3 0 = 2 ∧ t.fit = { phase := .rom } ∧
        t.nv = s.m.nv ∧ ∀ k, k < 4 → t.rdf (bPWR + 0x100 + 8 * k) 47 32 = s.m.railTarget k % 2 ^ 16)) ∧
    (p.seq ≠ 1 → same .railGroupGood) ∧
    (∀ r : Fin 16,
      (p.seq = 1 → r.val ∈ rampGroups.getD p.groups [] → completes (.railGoodTimeout r) s fun t => down 4 t ∧ t.pwr.rail = r.val ∧ t.pwr.cycled = false ∧ event 0 t) ∧
      ((p.seq ≠ 1 ∨ r.val ∉ rampGroups.getD p.groups []) → same (.railGoodTimeout r)) ∧
      ((p.seq = 2 ∨ p.seq = 3 ∨ p.seq = 6) → completes (.railFault r) s fun t => down 4 t ∧ t.pwr.rail = r.val ∧ t.pwr.cycled = false ∧ event 0 t) ∧
      (p.seq ≠ 2 → p.seq ≠ 3 → p.seq ≠ 6 → same (.railFault r))) ∧
    (∀ (t' : Fin 29) (raw : BitVec 16),
      (p.groups ≠ 0 → 460 ≤ s.m.reading t'.val raw → completes (.thermalTrip t' raw) s fun t => down 5 t ∧ t.pwr.cycled = false ∧ event 1 t) ∧
      ((p.groups = 0 ∨ s.m.reading t'.val raw < 460) → same (.thermalTrip t' raw)))

/-- R535, R544, R614: a module reset returns cores, memory, partitions and the fitter to reset, keeps the rails, the ports' links, fuses and flash, and goes on at
BOOT; between an apply's hold and its release it leaves the module HELD. It comes of MOD_RESET once that is answered, and of MODRST of the
sideband. -/
def Obligations.ModuleResets : Prop :=
  ∀ (s : State),
    let resets (i : Instr) : Prop := s.m.powered = true → completes i s fun t =>
      t.pwr.seq = 2 ∧ t.pwr.groups = s.m.pwr.groups ∧ t.rdf bPWR 3 0 = 2 ∧ t.fit = { phase := .rom } ∧ t.nv = s.m.nv ∧ t.cores = [] ∧ t.parts = [] ∧ t.mem = [] ∧
      t.lnk = {} ∧ t.pat = {} ∧ t.sem = {} ∧ t.coll = [] ∧ (∀ h : HostId, (t.host h.val).linked = (s.m.host h.val).linked ∧ (t.host h.val).set = []) ∧
      (∀ r, r < 15 → t.railVolt r = s.m.railVolt r) ∧ t.isHeld = s.m.fit.job.isSome ∧ (s.m.fit.job.isSome = true → t.rdf bCFGSTAT 15 8 = 3)
    (s.m.fit.resetDue = true → resets .moduleReset) ∧ (s.m.fit.resetDue = false → completes .moduleReset s fun t => t = s.m) ∧
    (s.m.pwr.standby = true → resets .modrst) ∧ ((s.m.pwr.standby = false ∨ s.m.powered = false) → completes .modrst s fun t => t = s.m)

/-- R596, R600, R601, R605, R610, R611, R616: at the input limit the core rails take the voltages they fall to, and the event is shown and counted; a core rail moves one code toward its goal; the
cap lowers every limit by ten codes, raises it after ten low readings, or shows that no rail can fall; the throttle does so for its rail; the
sideband keeps its address, clears events, enables interrupts and reads words out; the heartbeat counts. -/
def Obligations.PowerSteps : Prop :=
  ∀ (s : State),
    let p := s.m.pwr
    let same (i : Instr) : Prop := completes i s fun t => t = s.m
    let shows (n : Nat) (t : Mod) : Prop := t.rdf (bPWR + 0x38) n n = 1 ∧ s.m.tallied t (bPWR + 0x80 + 8 * n) 1
    (∀ v a v0 v1 v2 v3 : BitVec 16, (s.m.powered = true → completes (.inputCurrentLimit v a v0 v1 v2 v3) s fun t => t.rdf bPWR 31 16 = v.toNat ∧ t.rdf bPWR 47 32 = a.toNat ∧
        t.railVolt 0 = v0.toNat ∧ t.railVolt 1 = v1.toNat ∧ t.railVolt 2 = v2.toNat ∧ t.railVolt 3 = v3.toNat ∧ shows 3 t ∧ (t.sbWord 2).testBit 3 = true ∧
        t.cores = s.m.cores ∧ t.mem = s.m.mem) ∧
      (s.m.powered = false → same (.inputCurrentLimit v a v0 v1 v2 v3))) ∧
    (s.m.timed = false → (∀ n, same (.railMoveStep n)) ∧ (∀ w a, same (.powerCapCheck w a)) ∧ (∀ t' raw, same (.thermalStep t' raw)) ∧ same .heartbeat) ∧
    (s.m.timed = true →
      (∀ n : PanelId,
        let v := s.m.railVolt n.val
        let g := s.m.railGoal n.val
        (v < g → completes (.railMoveStep n) s fun t => t.railVolt n.val = (v + 1) % 2 ^ 16 ∧ ∀ a, a ≠ bPWR + 0x100 + 8 * n.val → t.rd a = s.m.rd a) ∧
        (g < v → completes (.railMoveStep n) s fun t => t.railVolt n.val = v - 1 ∧ ∀ a, a ≠ bPWR + 0x100 + 8 * n.val → t.rd a = s.m.rd a) ∧
        (v = g → same (.railMoveStep n))) ∧
      (∀ w a : BitVec 16,
        let cap := s.m.rdf (bPWR + 0x28) 15 0
        let i : Instr := .powerCapCheck w a
        let lim (k : Nat) : Nat := Tab.get 200 p.capLim k
        let seen (t : Mod) : Prop := t.rdf bPWR 63 48 = w.toNat ∧ t.rdf bPWR 47 32 = a.toNat ∧ t.pwr.thmLim = p.thmLim
        let lims (f : Nat → Nat) (t : Mod) : Prop := ∀ k, k < 4 → Tab.get 200 t.pwr.capLim k = f k ∧ t.rdf (bPWR + 0x100 + 8 * k) 47 32 = t.railTarget k
        (cap = 0 → completes i s fun t => seen t ∧ lims (fun _ => 200) t) ∧
        (cap ≠ 0 → cap < w.toNat → (∃ k, k < 4 ∧ s.m.railCode k ≠ 0) → completes i s fun t => seen t ∧ lims (fun k => lim k - 10) t ∧ t.pwr.capLow = 0) ∧
        (cap ≠ 0 → cap < w.toNat → (∀ k, k < 4 → s.m.railCode k = 0) → completes i s fun t => seen t ∧ shows 1 t ∧ t.pwr.capLim = p.capLim) ∧
        (cap ≠ 0 → w.toNat * 100 < 95 * cap → p.capLow < 9 → completes i s fun t => seen t ∧ t.pwr.capLow = p.capLow + 1 ∧ t.pwr.capLim = p.capLim) ∧
        (cap ≠ 0 → w.toNat * 100 < 95 * cap → 9 ≤ p.capLow → completes i s fun t => seen t ∧ t.pwr.capLow = 0 ∧ lims (fun k => min 200 (lim k + 10)) t) ∧
        (cap ≠ 0 → w.toNat ≤ cap → 95 * cap ≤ w.toNat * 100 → completes i s fun t => seen t ∧ t.pwr.capLow = 0 ∧ t.pwr.capLim = p.capLim)) ∧
      (∀ (g : Fin 29) (raw : BitVec 16),
        let i : Instr := .thermalStep g raw
        let v := s.m.reading g.val raw
        let tlim : Int := (4 * s.m.rdf (bPWR + 0x30) 7 0 : Nat)
        let lim := Tab.get 200 p.thmLim g.val
        let n := Tab.get 0 p.thmLow g.val
        let seen (t : Mod) : Prop := t.rdf (bPWR + 0x200 + 8 * g.val) 15 0 = (BitVec.ofInt 16 v).toNat ∧ t.pwr.capLim = p.capLim
        let at' (l k : Nat) (t : Mod) : Prop := seen t ∧ Tab.get 200 t.pwr.thmLim g.val = l ∧ Tab.get 0 t.pwr.thmLow g.val = k
        (4 ≤ g.val → g.val < 28 → same i) ∧ (g.val = 28 → completes i s fun t => seen t ∧ t.pwr = p) ∧
        (g.val < 4 →
          (tlim ≤ v → completes i s fun t => at' (lim - 10) 0 t ∧ shows 0 t ∧ t.rdf (bPWR + 0x100 + 8 * g.val) 47 32 = t.railTarget g.val) ∧
          (v < tlim - 12 → n < 9 → completes i s (at' lim (n + 1))) ∧ (v < tlim - 12 → 9 ≤ n → completes i s (at' (min 200 (lim + 10)) 0)) ∧
          (tlim - 12 ≤ v → v < tlim → completes i s (at' lim 0)))) ∧
      completes .heartbeat s fun t => t.sbWord 7 = (s.m.sbWord 7 + 1) % 2 ^ 32 ∧ t.bar0 = s.m.bar0) ∧
    (p.standby = false → (∀ a, same (.dynamicAddressAssign a)) ∧ (∀ d, same (.i3cPrivateWrite d)) ∧ ∀ n, same (.sbPowerRead n)) ∧
    (p.standby = true →
      (∀ a : BitVec 7, completes (.dynamicAddressAssign a) s fun t => t = { s.m with pwr := { p with addr := some a.toNat } }) ∧
      same (.i3cPrivateWrite []) ∧
      (∀ b : Byte, completes (.i3cPrivateWrite [b]) s fun t => t = { s.m with pwr := { p with index := b.toNat } }) ∧
      (∀ a b c d : Byte,
        let v := ofLe [a, b, c, d]
        completes (.i3cPrivateWrite [2, a, b, c, d]) s (fun t => t.pwr.index = 2 ∧ (∀ k, k < 5 → (t.sbWord 2).testBit k = ((s.m.sbWord 2).testBit k && !v.testBit k)) ∧
          t.bar0 = s.m.bar0) ∧
        (v % 2 = 0 → completes (.i3cPrivateWrite [3, a, b, c, d]) s fun t => t.pwr.index = 3 ∧ t.sbWord 3 = bitsN v 12 8 * 2 ^ 8 ∧ t.bar0 = s.m.bar0)) ∧
      (∀ n : BitVec 6, completes (.sbPowerRead n) s fun t => t.pwr.out = p.out ++ (upto n.toNat).map (fun k => s.m.sbRead (p.index + k)) ∧ t.bar0 = s.m.bar0 ∧
        t.pwr.lowest = if p.index ≤ 5 ∧ 5 < p.index + n.toNat then none else p.lowest))

/-- The queue (the model's own, log 3): a step takes the command at the front, runs it on the rest of the machine, and leaves the commands behind it; on an empty
queue the machine idles. -/
def Obligations.QueueOrder : Prop :=
  ∀ (m : Mod) (c : Instr) (rest : List Instr), step { pending := c :: rest, m := m } = exec c { pending := rest, m := m } ∧
    step { pending := [], m := m } = .next { pending := [], m := m }

/-- R12, R522, R602, R612: right after reset no rail is good and the sequencer stands in STANDBY without VSTBY; no command waits; every partition is free, every core without a piece and its
stacks empty; every link is OFF, every seam entry IDLE, no group valid; registers read the reset values of their tables. The values
that the spec does not state are the model's (log 5) and not part of this. -/
def Obligations.ResetState : Prop :=
  let m := State.reset.m
  State.reset.pending = [] ∧ State.reset.sound ∧ m.powered = false ∧ m.pwr.seq = 0 ∧ m.pwr.converter = false ∧ m.pwr.standby = false ∧ m.fit.phase = .off ∧
    (∀ p, (m.part p).st = .free) ∧ (∀ c, (m.core c).piece = none ∧ (m.core c).bank.depth = 0 ∧ (m.core c).bank.ops = [] ∧ (m.core c).creg 0x000 = 0 ∧ (m.core c).excDepth = 0) ∧
    (∀ l : LinkId, m.linkState l.val = 0) ∧ (∀ n : StreamId, m.sxRaw n.val = 0) ∧ (∀ g : GroupId, m.grpValid g.val = false) ∧
    (∀ a, m.rd a = resetAt (blockRows a) a) ∧
    (∀ k : PanelId, m.rdf (bPWR + 8 + 8 * k.val) 7 0 = 120) ∧ m.rdf (bPWR + 0x30) 7 0 = 100 ∧ m.rdf (bCAL + 8) 4 0 = 13 ∧ m.rdf (bCAL + 0x10) 39 32 = 8 ∧
    (∀ h : HostId, m.rdf (bMBX h.val + 8) 17 16 = 1 ∧ m.rdf (bMBX h.val + 8) 1 1 = 1 ∧ (m.host h.val).set = [] ∧ (m.host h.val).linked = false) ∧
    (∀ p : PartId, m.rdf (bXLT p.val + 0x80) 15 0 = 0xFFFF ∧ m.rdf (bPRT p.val + 0x28) 0 0 = 1)

/-- R548, R602, R607, R611, R612: every step keeps the sequencer and the fuses sound: SB_SEQ in a legal state, every rail good in BOOT, RUN and COLD and none in STANDBY, FAULT and TRIP, nothing
without VSTBY, and no more than 64 SVN bits blown. -/
def Obligations.StepKeepsSound : Prop := ∀ s t : State, s.sound → step s = .next t → t.sound

/-- R548, R550, R553, R614: whatever the command, no step takes back a blown SVN bit or a revoked key, and none but the boot ROM and FW_PUSH blows one; flash and the saved sets change by
FW_PUSH and APPLY_SWITCH alone. -/
def Obligations.FusesAndFlash : Prop :=
  ∀ (i : Instr) (s t : State), exec i s = .next t →
    s.m.nv.svn ≤ t.m.nv.svn ∧ t.m.nv.revoked = s.m.nv.revoked ∧
    ((∀ a b n, i ≠ .bootRomStart a b n) → (∀ f n, i ≠ .fwPush f n) → t.m.nv.svn = s.m.nv.svn) ∧
    ((∀ f n, i ≠ .fwPush f n) → t.m.nv.flash = s.m.nv.flash) ∧ ((∀ f, i ≠ .applySwitch f) → t.m.nv.saved = s.m.nv.saved)

/-- R517: a BAR0 access of another size than 4 or 8 bytes, or not aligned, is completed as Unsupported Request and has no effect; reserved offsets read 0; the page of a partition that the host
does not own reads 0 and ignores writes; R630: so does a seam entry of such a partition read 0. A read changes nothing. R11: write-only fields read 0. -/
def Obligations.HostReads : Prop :=
  ∀ (s : State) (h : HostId) (off : BitVec 26) (size : Fin 9) (v : W64), (s.m.host h.val).linked = true →
    let a := off.toNat
    let aligned := (size.val = 4 ∨ size.val = 8) ∧ a % size.val = 0
    let zeros := List.replicate size.val 0#8
    let kept := completes (.registerWrite h none off size v) s fun t => t = s.m
    (¬ aligned → s.m.barRead h none a size.val = none ∧ kept) ∧
    (aligned → (∀ x, s.m.barAddr h.val none (a - a % 8) = some x → barRow x = none ∧ barRow (x + 4) = none) → ¬ (0x1000 ≤ a ∧ a < 0x3000) →
      ¬ (bPRT 0 ≤ a ∧ a < bPRT 16 ∧ 0x4800 ≤ a % 0x10000 ∧ a % 0x10000 < 0x5000) → s.m.barRead h none a size.val = some zeros) ∧
    (aligned → ∀ p o, p < 16 → o < 0x10000 → a = bPRT p + o → s.m.owns h.val p = false → s.m.barRead h none a size.val = some zeros ∧ kept) ∧
    (aligned → ∀ n o, n < 4096 → o < 0x80 → a = bSx n + o → s.m.owns h.val (s.m.sxPart n) = false → s.m.barRead h none a size.val = some zeros) ∧
    (∀ c r f, barRow c = some r → f ∈ r.fields → f.acc = .wo → fld (s.m.barView c) f.hi f.lo = 0)
end

