-- ==== Sys2Proof/Laws/Bytes.lean ====
section
/-! SUPPORT. Lemmas about little-endian bytes, padding and check values. -/

namespace Sys2Proof

@[simp] theorem toLe_length (n v : Nat) : (toLe n v).length = n := by
  induction n generalizing v with
  | zero => rfl
  | succ n ih => simp [toLe, ih]
/-- The bytes of a number spell it again. -/
theorem ofLe_toLe (n v : Nat) (h : v < 256 ^ n) : ofLe (toLe n v) = v := by
  induction n generalizing v with
  | zero => simp at h; simp [toLe, ofLe, h]
  | succ n ih =>
    have h' : v / 256 < 256 ^ n := by
      rw [Nat.div_lt_iff_lt_mul (by decide)]; simpa [Nat.pow_succ] using h
    simp only [toLe, ofLe, ih _ h', BitVec.toNat_ofNat]
    omega
/-- What bytes spell is bounded by their number. -/
theorem ofLe_lt (bs : List Byte) : ofLe bs < 256 ^ bs.length := by
  induction bs with
  | nil => simp [ofLe]
  | cons b bs ih =>
    have := b.isLt
    simp only [ofLe, List.length_cons, Nat.pow_succ]
    omega
/-- Bytes are those of the number that they spell. -/
theorem toLe_ofLe (bs : List Byte) : toLe bs.length (ofLe bs) = bs := by
  induction bs with
  | nil => rfl
  | cons b bs ih =>
    have hb := b.isLt
    have h1 : (b.toNat + 256 * ofLe bs) / 256 = ofLe bs := by omega
    have h2 : BitVec.ofNat 8 (b.toNat + 256 * ofLe bs) = b := by
      apply BitVec.eq_of_toNat_eq; simp only [BitVec.toNat_ofNat]; omega
    simp only [List.length_cons, toLe, ofLe, h1, h2, ih]
@[simp] theorem padTo_length (n : Nat) (bs : List Byte) : (padTo n bs).length = n := by
  simp [padTo]
theorem upto_length (n : Nat) : (upto n).length = n := by simp [upto]
theorem mem_upto {n i : Nat} : i ∈ upto n ↔ i < n := by simp [upto]

/-! ## Check values stay in their widths (R34, R446) -/

theorem nxor_lt {a b n : Nat} (ha : a < 2 ^ n) (hb : b < 2 ^ n) : nxor a b < 2 ^ n := Nat.xor_lt_two_pow ha hb
theorem crcBit_lt {poly r n : Nat} (hp : poly < 2 ^ n) (hr : r < 2 ^ n) : crcBit poly r < 2 ^ n := by
  have h : r / 2 < 2 ^ n := by omega
  unfold crcBit
  split
  · exact nxor_lt h hp
  · exact h
theorem crcByte_lt {poly r n : Nat} (b : Byte) (h8 : 8 ≤ n) (hp : poly < 2 ^ n) (hr : r < 2 ^ n) : crcByte poly r b < 2 ^ n := by
  have hb : b.toNat < 2 ^ n := Nat.lt_of_lt_of_le b.isLt (Nat.pow_le_pow_right (by decide) h8)
  have go : ∀ (l : List Nat) (x : Nat), x < 2 ^ n → l.foldl (fun r _ => crcBit poly r) x < 2 ^ n := by
    intro l
    induction l with
    | nil => exact fun x hx => hx
    | cons a l ih => exact fun x hx => ih _ (crcBit_lt hp hx)
  exact go _ _ (nxor_lt hr hb)
theorem crcFold_lt {poly n : Nat} (h8 : 8 ≤ n) (hp : poly < 2 ^ n) (bs : List Byte) : ∀ r, r < 2 ^ n → bs.foldl (crcByte poly) r < 2 ^ n := by
  induction bs with
  | nil => exact fun r hr => hr
  | cons b bs ih => exact fun r hr => ih _ (crcByte_lt b h8 hp hr)
theorem crc64_lt (bs : List Byte) : crc64 bs < 2 ^ 64 :=
  nxor_lt (crcFold_lt (by decide) (by decide) bs _ (by decide)) (by decide)
theorem crc32c_lt (bs : List Byte) : crc32c bs < 2 ^ 32 :=
  nxor_lt (crcFold_lt (by decide) (by decide) bs _ (by decide)) (by decide)

end Sys2Proof
end

