-- ==== Sys2Proof/Laws/Cal.lean ====
section
/-! SUPPORT. Effective calibration values keep their ranges (R569, R570), and what that says of readings and rails. -/

namespace Sys2Proof.Machine

open Sys2Proof

theorem clampI_bounds {lo hi : Int} (h : lo ≤ hi) (v : Int) : lo ≤ clampI lo hi v ∧ clampI lo hi v ≤ hi := by
  unfold clampI; split <;> [omega; split <;> omega]
/-- An effective value lies in its range. -/
theorem effective_bounds (m : Mod) (q : CalQ) (h : q.range.1 ≤ q.range.2) : q.range.1 ≤ m.effective q ∧ m.effective q ≤ q.range.2 :=
  clampI_bounds h _
/-- A sensor group's reading lies within 31 quarters of what it measures. -/
theorem reading_bounds (m : Mod) (t : Nat) (raw : BitVec 16) : raw.toInt - 31 ≤ m.reading t raw ∧ m.reading t raw ≤ raw.toInt + 31 := by
  have h := effective_bounds m (.therm t) (by show (-31 : Int) ≤ 31; decide)
  have e : (CalQ.therm t).range = (-31, 31) := rfl
  rw [e] at h; unfold Mod.reading; omega
/-- A rail settles within 40 codes of its target. -/
theorem railGoal_bounds (m : Mod) (r : Nat) : m.railTarget r - 40 ≤ m.railGoal r ∧ m.railGoal r ≤ m.railTarget r + 40 := by
  have h := effective_bounds m (.rail r) (by show (-40 : Int) ≤ 40; decide)
  have e : (CalQ.rail r).range = (-40, 40) := rfl
  rw [e] at h; unfold Mod.railGoal; omega

end Sys2Proof.Machine
end

