-- ==== Sys2Proof/Laws/Fields.lean ====
section
/-! SUPPORT. Laws of bit fields (R8): what a written field reads, and which bits a write leaves alone. -/

namespace Sys2Proof

theorem testBit_ones (k i : Nat) : (2 ^ k - 1).testBit i = decide (i < k) := Nat.testBit_two_pow_sub_one k i
/-- Bit `i` of a mask of the bits `hi` to `lo`. -/
theorem getLsbD_maskB (n hi lo i : Nat) : (maskB n hi lo).getLsbD i = (decide (i < n) && decide (lo ≤ i) && decide (i ≤ hi)) := by
  simp only [maskB, BitVec.getLsbD_ofNat, Nat.testBit_shiftLeft, testBit_ones]
  by_cases h1 : i < n <;> by_cases h2 : lo ≤ i <;> simp [h1, h2]
  omega
/-- Bit `i` of a word after a field of it has been replaced. -/
theorem getLsbD_setFld {n : Nat} (w : BitVec n) (hi lo v i : Nat) (h : i < n) :
    (setFld w hi lo v).getLsbD i = if lo ≤ i ∧ i ≤ hi then v.testBit (i - lo) else w.getLsbD i := by
  simp only [setFld, BitVec.getLsbD_or, BitVec.getLsbD_and, BitVec.getLsbD_not, getLsbD_maskB, BitVec.getLsbD_ofNat, Nat.testBit_shiftLeft, h, decide_true, Bool.true_and]
  by_cases h1 : lo ≤ i <;> by_cases h2 : i ≤ hi <;> simp [h1, h2]
theorem testBit_bitsN (w hi lo i : Nat) : (bitsN w hi lo).testBit i = (decide (i < hi + 1 - lo) && w.testBit (lo + i)) := by
  simp [bitsN, Nat.testBit_mod_two_pow, Nat.testBit_shiftRight]
theorem testBit_fld {n : Nat} (w : BitVec n) (hi lo i : Nat) : (fld w hi lo).testBit i = (decide (i < hi + 1 - lo) && w.getLsbD (lo + i)) := by
  simp [fld, testBit_bitsN, BitVec.getLsbD]
theorem bitsN_lt (w hi lo : Nat) : bitsN w hi lo < 2 ^ (hi + 1 - lo) := Nat.mod_lt _ (Nat.two_pow_pos _)
theorem fld_lt {n : Nat} (w : BitVec n) (hi lo : Nat) : fld w hi lo < 2 ^ (hi + 1 - lo) := bitsN_lt _ _ _
/-- A field that has been written reads the value written, cut to its width. -/
theorem fld_setFld {n : Nat} (w : BitVec n) (hi lo v : Nat) (h : hi < n) : fld (setFld w hi lo v) hi lo = v % 2 ^ (hi + 1 - lo) := by
  apply Nat.eq_of_testBit_eq
  intro i
  rw [testBit_fld, Nat.testBit_mod_two_pow]
  by_cases h1 : i < hi + 1 - lo
  · rw [getLsbD_setFld _ _ _ _ _ (by omega), if_pos (by omega)]
    simp
  · simp [h1]
/-- A field apart from the one written reads as before. -/
theorem fld_setFld_apart {n : Nat} (w : BitVec n) (hi lo hi' lo' v : Nat) (h : hi' < n) (hd : hi' < lo ∨ hi < lo') :
    fld (setFld w hi lo v) hi' lo' = fld w hi' lo' := by
  apply Nat.eq_of_testBit_eq
  intro i
  rw [testBit_fld, testBit_fld]
  by_cases h1 : i < hi' + 1 - lo'
  · rw [getLsbD_setFld _ _ _ _ _ (by omega), if_neg (by omega)]
  · simp [h1]
/-- A field within the one written reads that part of the value. -/
theorem fld_setFld_within {n : Nat} (w : BitVec n) (hi lo hi' lo' v : Nat) (h : hi' < n) (h0 : lo' ≤ hi') (h1 : lo ≤ lo') (h2 : hi' ≤ hi) :
    fld (setFld w hi lo v) hi' lo' = bitsN v (hi' - lo) (lo' - lo) := by
  apply Nat.eq_of_testBit_eq
  intro i
  rw [testBit_fld, testBit_bitsN]
  by_cases h3 : i < hi' + 1 - lo'
  · rw [getLsbD_setFld _ _ _ _ _ (by omega), if_pos (by omega)]
    have e : lo' + i - lo = lo' - lo + i := by omega
    have h4 : i < hi' - lo + 1 - (lo' - lo) := by omega
    simp only [h3, h4, e]
  · simp only [h3, decide_false, Bool.false_and]
    have : ¬ i < hi' - lo + 1 - (lo' - lo) := by omega
    simp [this]
/-- Only the field's bits count of what is written. -/
theorem setFld_mod {n : Nat} (w : BitVec n) (hi lo v : Nat) : setFld w hi lo (v % 2 ^ (hi + 1 - lo)) = setFld w hi lo v := by
  apply BitVec.eq_of_getLsbD_eq
  intro i h
  rw [getLsbD_setFld _ _ _ _ _ h, getLsbD_setFld _ _ _ _ _ h]
  split
  · rw [Nat.testBit_mod_two_pow]; simp; omega
  · rfl
/-- Writing what a field holds changes nothing. -/
theorem setFld_fld {n : Nat} (w : BitVec n) (hi lo : Nat) : setFld w hi lo (fld w hi lo) = w := by
  apply BitVec.eq_of_getLsbD_eq
  intro i h
  rw [getLsbD_setFld _ _ _ _ _ h]
  split
  · rw [testBit_fld]
    have e : lo + (i - lo) = i := by omega
    rw [e]; simp; omega
  · rfl
theorem fld_zero {n : Nat} (hi lo : Nat) : fld (0 : BitVec n) hi lo = 0 := by simp [fld, bitsN]
theorem fld_w64 (v hi lo : Nat) (h : hi < 64) : fld (w64 v) hi lo = bitsN v hi lo := by
  apply Nat.eq_of_testBit_eq
  intro i
  rw [testBit_fld, testBit_bitsN, BitVec.getLsbD_ofNat]
  by_cases h1 : i < hi + 1 - lo
  · have : lo + i < 64 := by omega
    simp [h1, this]
  · simp [h1]
@[simp] theorem bitsN_one (w i : Nat) : bitsN w i i = b2n (w.testBit i) := by
  have e : i + 1 - i = 1 := by omega
  simp only [bitsN, e, b2n, Nat.testBit, Nat.pow_one]
  rcases Nat.mod_two_eq_zero_or_one (w >>> i) with h | h <;> simp [h, Nat.and_comm]

end Sys2Proof
end

