-- ==== Sys2Proof/Laws/State.lean ====
section
/-! SUPPORT. What each named update leaves alone, field by field: every lemma is true by unfolding. -/

namespace Sys2Proof.Machine

/-! ## setCore -/

@[simp] theorem Mod.setCore_bar0 (m : Mod) (c : Nat) (k : Core) : (m.setCore c k).bar0 = m.bar0 := rfl
@[simp] theorem Mod.setCore_mem (m : Mod) (c : Nat) (k : Core) : (m.setCore c k).mem = m.mem := rfl
@[simp] theorem Mod.setCore_tags (m : Mod) (c : Nat) (k : Core) : (m.setCore c k).tags = m.tags := rfl
@[simp] theorem Mod.setCore_poison (m : Mod) (c : Nat) (k : Core) : (m.setCore c k).poison = m.poison := rfl
@[simp] theorem Mod.setCore_sram (m : Mod) (c : Nat) (k : Core) : (m.setCore c k).sram = m.sram := rfl
@[simp] theorem Mod.setCore_parts (m : Mod) (c : Nat) (k : Core) : (m.setCore c k).parts = m.parts := rfl
@[simp] theorem Mod.setCore_pat (m : Mod) (c : Nat) (k : Core) : (m.setCore c k).pat = m.pat := rfl
@[simp] theorem Mod.setCore_coh (m : Mod) (c : Nat) (k : Core) : (m.setCore c k).coh = m.coh := rfl
@[simp] theorem Mod.setCore_spl (m : Mod) (c : Nat) (k : Core) : (m.setCore c k).spl = m.spl := rfl
@[simp] theorem Mod.setCore_xlt (m : Mod) (c : Nat) (k : Core) : (m.setCore c k).xlt = m.xlt := rfl
@[simp] theorem Mod.setCore_shuttles (m : Mod) (c : Nat) (k : Core) : (m.setCore c k).shuttles = m.shuttles := rfl
@[simp] theorem Mod.setCore_lnk (m : Mod) (c : Nat) (k : Core) : (m.setCore c k).lnk = m.lnk := rfl
@[simp] theorem Mod.setCore_sem (m : Mod) (c : Nat) (k : Core) : (m.setCore c k).sem = m.sem := rfl
@[simp] theorem Mod.setCore_hosts (m : Mod) (c : Nat) (k : Core) : (m.setCore c k).hosts = m.hosts := rfl
@[simp] theorem Mod.setCore_coll (m : Mod) (c : Nat) (k : Core) : (m.setCore c k).coll = m.coll := rfl
@[simp] theorem Mod.setCore_fit (m : Mod) (c : Nat) (k : Core) : (m.setCore c k).fit = m.fit := rfl
@[simp] theorem Mod.setCore_nv (m : Mod) (c : Nat) (k : Core) : (m.setCore c k).nv = m.nv := rfl
@[simp] theorem Mod.setCore_cal (m : Mod) (c : Nat) (k : Core) : (m.setCore c k).cal = m.cal := rfl
@[simp] theorem Mod.setCore_pwr (m : Mod) (c : Nat) (k : Core) : (m.setCore c k).pwr = m.pwr := rfl
@[simp] theorem Mod.setCore_freeCtr (m : Mod) (c : Nat) (k : Core) : (m.setCore c k).freeCtr = m.freeCtr := rfl
@[simp] theorem Mod.setCore_nextId (m : Mod) (c : Nat) (k : Core) : (m.setCore c k).nextId = m.nextId := rfl

/-! ## updCore -/

@[simp] theorem Mod.updCore_bar0 (m : Mod) (c : Nat) (f : Core → Core) : (m.updCore c f).bar0 = m.bar0 := rfl
@[simp] theorem Mod.updCore_mem (m : Mod) (c : Nat) (f : Core → Core) : (m.updCore c f).mem = m.mem := rfl
@[simp] theorem Mod.updCore_tags (m : Mod) (c : Nat) (f : Core → Core) : (m.updCore c f).tags = m.tags := rfl
@[simp] theorem Mod.updCore_poison (m : Mod) (c : Nat) (f : Core → Core) : (m.updCore c f).poison = m.poison := rfl
@[simp] theorem Mod.updCore_sram (m : Mod) (c : Nat) (f : Core → Core) : (m.updCore c f).sram = m.sram := rfl
@[simp] theorem Mod.updCore_parts (m : Mod) (c : Nat) (f : Core → Core) : (m.updCore c f).parts = m.parts := rfl
@[simp] theorem Mod.updCore_pat (m : Mod) (c : Nat) (f : Core → Core) : (m.updCore c f).pat = m.pat := rfl
@[simp] theorem Mod.updCore_coh (m : Mod) (c : Nat) (f : Core → Core) : (m.updCore c f).coh = m.coh := rfl
@[simp] theorem Mod.updCore_spl (m : Mod) (c : Nat) (f : Core → Core) : (m.updCore c f).spl = m.spl := rfl
@[simp] theorem Mod.updCore_xlt (m : Mod) (c : Nat) (f : Core → Core) : (m.updCore c f).xlt = m.xlt := rfl
@[simp] theorem Mod.updCore_shuttles (m : Mod) (c : Nat) (f : Core → Core) : (m.updCore c f).shuttles = m.shuttles := rfl
@[simp] theorem Mod.updCore_lnk (m : Mod) (c : Nat) (f : Core → Core) : (m.updCore c f).lnk = m.lnk := rfl
@[simp] theorem Mod.updCore_sem (m : Mod) (c : Nat) (f : Core → Core) : (m.updCore c f).sem = m.sem := rfl
@[simp] theorem Mod.updCore_hosts (m : Mod) (c : Nat) (f : Core → Core) : (m.updCore c f).hosts = m.hosts := rfl
@[simp] theorem Mod.updCore_coll (m : Mod) (c : Nat) (f : Core → Core) : (m.updCore c f).coll = m.coll := rfl
@[simp] theorem Mod.updCore_fit (m : Mod) (c : Nat) (f : Core → Core) : (m.updCore c f).fit = m.fit := rfl
@[simp] theorem Mod.updCore_nv (m : Mod) (c : Nat) (f : Core → Core) : (m.updCore c f).nv = m.nv := rfl
@[simp] theorem Mod.updCore_cal (m : Mod) (c : Nat) (f : Core → Core) : (m.updCore c f).cal = m.cal := rfl
@[simp] theorem Mod.updCore_pwr (m : Mod) (c : Nat) (f : Core → Core) : (m.updCore c f).pwr = m.pwr := rfl
@[simp] theorem Mod.updCore_freeCtr (m : Mod) (c : Nat) (f : Core → Core) : (m.updCore c f).freeCtr = m.freeCtr := rfl
@[simp] theorem Mod.updCore_nextId (m : Mod) (c : Nat) (f : Core → Core) : (m.updCore c f).nextId = m.nextId := rfl

/-! ## updBank -/

@[simp] theorem Mod.updBank_bar0 (m : Mod) (c : Nat) (f : Bank → Bank) : (m.updBank c f).bar0 = m.bar0 := rfl
@[simp] theorem Mod.updBank_mem (m : Mod) (c : Nat) (f : Bank → Bank) : (m.updBank c f).mem = m.mem := rfl
@[simp] theorem Mod.updBank_tags (m : Mod) (c : Nat) (f : Bank → Bank) : (m.updBank c f).tags = m.tags := rfl
@[simp] theorem Mod.updBank_poison (m : Mod) (c : Nat) (f : Bank → Bank) : (m.updBank c f).poison = m.poison := rfl
@[simp] theorem Mod.updBank_sram (m : Mod) (c : Nat) (f : Bank → Bank) : (m.updBank c f).sram = m.sram := rfl
@[simp] theorem Mod.updBank_parts (m : Mod) (c : Nat) (f : Bank → Bank) : (m.updBank c f).parts = m.parts := rfl
@[simp] theorem Mod.updBank_pat (m : Mod) (c : Nat) (f : Bank → Bank) : (m.updBank c f).pat = m.pat := rfl
@[simp] theorem Mod.updBank_coh (m : Mod) (c : Nat) (f : Bank → Bank) : (m.updBank c f).coh = m.coh := rfl
@[simp] theorem Mod.updBank_spl (m : Mod) (c : Nat) (f : Bank → Bank) : (m.updBank c f).spl = m.spl := rfl
@[simp] theorem Mod.updBank_xlt (m : Mod) (c : Nat) (f : Bank → Bank) : (m.updBank c f).xlt = m.xlt := rfl
@[simp] theorem Mod.updBank_shuttles (m : Mod) (c : Nat) (f : Bank → Bank) : (m.updBank c f).shuttles = m.shuttles := rfl
@[simp] theorem Mod.updBank_lnk (m : Mod) (c : Nat) (f : Bank → Bank) : (m.updBank c f).lnk = m.lnk := rfl
@[simp] theorem Mod.updBank_sem (m : Mod) (c : Nat) (f : Bank → Bank) : (m.updBank c f).sem = m.sem := rfl
@[simp] theorem Mod.updBank_hosts (m : Mod) (c : Nat) (f : Bank → Bank) : (m.updBank c f).hosts = m.hosts := rfl
@[simp] theorem Mod.updBank_coll (m : Mod) (c : Nat) (f : Bank → Bank) : (m.updBank c f).coll = m.coll := rfl
@[simp] theorem Mod.updBank_fit (m : Mod) (c : Nat) (f : Bank → Bank) : (m.updBank c f).fit = m.fit := rfl
@[simp] theorem Mod.updBank_nv (m : Mod) (c : Nat) (f : Bank → Bank) : (m.updBank c f).nv = m.nv := rfl
@[simp] theorem Mod.updBank_cal (m : Mod) (c : Nat) (f : Bank → Bank) : (m.updBank c f).cal = m.cal := rfl
@[simp] theorem Mod.updBank_pwr (m : Mod) (c : Nat) (f : Bank → Bank) : (m.updBank c f).pwr = m.pwr := rfl
@[simp] theorem Mod.updBank_freeCtr (m : Mod) (c : Nat) (f : Bank → Bank) : (m.updBank c f).freeCtr = m.freeCtr := rfl
@[simp] theorem Mod.updBank_nextId (m : Mod) (c : Nat) (f : Bank → Bank) : (m.updBank c f).nextId = m.nextId := rfl

/-! ## updMem -/

@[simp] theorem Mod.updMem_bar0 (m : Mod) (c : Nat) (f : CoreMem → CoreMem) : (m.updMem c f).bar0 = m.bar0 := rfl
@[simp] theorem Mod.updMem_mem (m : Mod) (c : Nat) (f : CoreMem → CoreMem) : (m.updMem c f).mem = m.mem := rfl
@[simp] theorem Mod.updMem_tags (m : Mod) (c : Nat) (f : CoreMem → CoreMem) : (m.updMem c f).tags = m.tags := rfl
@[simp] theorem Mod.updMem_poison (m : Mod) (c : Nat) (f : CoreMem → CoreMem) : (m.updMem c f).poison = m.poison := rfl
@[simp] theorem Mod.updMem_sram (m : Mod) (c : Nat) (f : CoreMem → CoreMem) : (m.updMem c f).sram = m.sram := rfl
@[simp] theorem Mod.updMem_parts (m : Mod) (c : Nat) (f : CoreMem → CoreMem) : (m.updMem c f).parts = m.parts := rfl
@[simp] theorem Mod.updMem_pat (m : Mod) (c : Nat) (f : CoreMem → CoreMem) : (m.updMem c f).pat = m.pat := rfl
@[simp] theorem Mod.updMem_coh (m : Mod) (c : Nat) (f : CoreMem → CoreMem) : (m.updMem c f).coh = m.coh := rfl
@[simp] theorem Mod.updMem_spl (m : Mod) (c : Nat) (f : CoreMem → CoreMem) : (m.updMem c f).spl = m.spl := rfl
@[simp] theorem Mod.updMem_xlt (m : Mod) (c : Nat) (f : CoreMem → CoreMem) : (m.updMem c f).xlt = m.xlt := rfl
@[simp] theorem Mod.updMem_shuttles (m : Mod) (c : Nat) (f : CoreMem → CoreMem) : (m.updMem c f).shuttles = m.shuttles := rfl
@[simp] theorem Mod.updMem_lnk (m : Mod) (c : Nat) (f : CoreMem → CoreMem) : (m.updMem c f).lnk = m.lnk := rfl
@[simp] theorem Mod.updMem_sem (m : Mod) (c : Nat) (f : CoreMem → CoreMem) : (m.updMem c f).sem = m.sem := rfl
@[simp] theorem Mod.updMem_hosts (m : Mod) (c : Nat) (f : CoreMem → CoreMem) : (m.updMem c f).hosts = m.hosts := rfl
@[simp] theorem Mod.updMem_coll (m : Mod) (c : Nat) (f : CoreMem → CoreMem) : (m.updMem c f).coll = m.coll := rfl
@[simp] theorem Mod.updMem_fit (m : Mod) (c : Nat) (f : CoreMem → CoreMem) : (m.updMem c f).fit = m.fit := rfl
@[simp] theorem Mod.updMem_nv (m : Mod) (c : Nat) (f : CoreMem → CoreMem) : (m.updMem c f).nv = m.nv := rfl
@[simp] theorem Mod.updMem_cal (m : Mod) (c : Nat) (f : CoreMem → CoreMem) : (m.updMem c f).cal = m.cal := rfl
@[simp] theorem Mod.updMem_pwr (m : Mod) (c : Nat) (f : CoreMem → CoreMem) : (m.updMem c f).pwr = m.pwr := rfl
@[simp] theorem Mod.updMem_freeCtr (m : Mod) (c : Nat) (f : CoreMem → CoreMem) : (m.updMem c f).freeCtr = m.freeCtr := rfl
@[simp] theorem Mod.updMem_nextId (m : Mod) (c : Nat) (f : CoreMem → CoreMem) : (m.updMem c f).nextId = m.nextId := rfl

/-! ## setTrap -/

@[simp] theorem Mod.setTrap_bar0 (m : Mod) (c v : Nat) (r : List (Nat × W64)) : (m.setTrap c v r).bar0 = m.bar0 := rfl
@[simp] theorem Mod.setTrap_mem (m : Mod) (c v : Nat) (r : List (Nat × W64)) : (m.setTrap c v r).mem = m.mem := rfl
@[simp] theorem Mod.setTrap_tags (m : Mod) (c v : Nat) (r : List (Nat × W64)) : (m.setTrap c v r).tags = m.tags := rfl
@[simp] theorem Mod.setTrap_poison (m : Mod) (c v : Nat) (r : List (Nat × W64)) : (m.setTrap c v r).poison = m.poison := rfl
@[simp] theorem Mod.setTrap_sram (m : Mod) (c v : Nat) (r : List (Nat × W64)) : (m.setTrap c v r).sram = m.sram := rfl
@[simp] theorem Mod.setTrap_parts (m : Mod) (c v : Nat) (r : List (Nat × W64)) : (m.setTrap c v r).parts = m.parts := rfl
@[simp] theorem Mod.setTrap_pat (m : Mod) (c v : Nat) (r : List (Nat × W64)) : (m.setTrap c v r).pat = m.pat := rfl
@[simp] theorem Mod.setTrap_coh (m : Mod) (c v : Nat) (r : List (Nat × W64)) : (m.setTrap c v r).coh = m.coh := rfl
@[simp] theorem Mod.setTrap_spl (m : Mod) (c v : Nat) (r : List (Nat × W64)) : (m.setTrap c v r).spl = m.spl := rfl
@[simp] theorem Mod.setTrap_xlt (m : Mod) (c v : Nat) (r : List (Nat × W64)) : (m.setTrap c v r).xlt = m.xlt := rfl
@[simp] theorem Mod.setTrap_shuttles (m : Mod) (c v : Nat) (r : List (Nat × W64)) : (m.setTrap c v r).shuttles = m.shuttles := rfl
@[simp] theorem Mod.setTrap_lnk (m : Mod) (c v : Nat) (r : List (Nat × W64)) : (m.setTrap c v r).lnk = m.lnk := rfl
@[simp] theorem Mod.setTrap_sem (m : Mod) (c v : Nat) (r : List (Nat × W64)) : (m.setTrap c v r).sem = m.sem := rfl
@[simp] theorem Mod.setTrap_hosts (m : Mod) (c v : Nat) (r : List (Nat × W64)) : (m.setTrap c v r).hosts = m.hosts := rfl
@[simp] theorem Mod.setTrap_coll (m : Mod) (c v : Nat) (r : List (Nat × W64)) : (m.setTrap c v r).coll = m.coll := rfl
@[simp] theorem Mod.setTrap_fit (m : Mod) (c v : Nat) (r : List (Nat × W64)) : (m.setTrap c v r).fit = m.fit := rfl
@[simp] theorem Mod.setTrap_nv (m : Mod) (c v : Nat) (r : List (Nat × W64)) : (m.setTrap c v r).nv = m.nv := rfl
@[simp] theorem Mod.setTrap_cal (m : Mod) (c v : Nat) (r : List (Nat × W64)) : (m.setTrap c v r).cal = m.cal := rfl
@[simp] theorem Mod.setTrap_pwr (m : Mod) (c v : Nat) (r : List (Nat × W64)) : (m.setTrap c v r).pwr = m.pwr := rfl
@[simp] theorem Mod.setTrap_freeCtr (m : Mod) (c v : Nat) (r : List (Nat × W64)) : (m.setTrap c v r).freeCtr = m.freeCtr := rfl
@[simp] theorem Mod.setTrap_nextId (m : Mod) (c v : Nat) (r : List (Nat × W64)) : (m.setTrap c v r).nextId = m.nextId := rfl

/-! ## wr -/

@[simp] theorem Mod.wr_cores (m : Mod) (a : Nat) (v : W64) : (m.wr a v).cores = m.cores := rfl
@[simp] theorem Mod.wr_mem (m : Mod) (a : Nat) (v : W64) : (m.wr a v).mem = m.mem := rfl
@[simp] theorem Mod.wr_tags (m : Mod) (a : Nat) (v : W64) : (m.wr a v).tags = m.tags := rfl
@[simp] theorem Mod.wr_poison (m : Mod) (a : Nat) (v : W64) : (m.wr a v).poison = m.poison := rfl
@[simp] theorem Mod.wr_sram (m : Mod) (a : Nat) (v : W64) : (m.wr a v).sram = m.sram := rfl
@[simp] theorem Mod.wr_parts (m : Mod) (a : Nat) (v : W64) : (m.wr a v).parts = m.parts := rfl
@[simp] theorem Mod.wr_pat (m : Mod) (a : Nat) (v : W64) : (m.wr a v).pat = m.pat := rfl
@[simp] theorem Mod.wr_coh (m : Mod) (a : Nat) (v : W64) : (m.wr a v).coh = m.coh := rfl
@[simp] theorem Mod.wr_spl (m : Mod) (a : Nat) (v : W64) : (m.wr a v).spl = m.spl := rfl
@[simp] theorem Mod.wr_xlt (m : Mod) (a : Nat) (v : W64) : (m.wr a v).xlt = m.xlt := rfl
@[simp] theorem Mod.wr_shuttles (m : Mod) (a : Nat) (v : W64) : (m.wr a v).shuttles = m.shuttles := rfl
@[simp] theorem Mod.wr_lnk (m : Mod) (a : Nat) (v : W64) : (m.wr a v).lnk = m.lnk := rfl
@[simp] theorem Mod.wr_sem (m : Mod) (a : Nat) (v : W64) : (m.wr a v).sem = m.sem := rfl
@[simp] theorem Mod.wr_hosts (m : Mod) (a : Nat) (v : W64) : (m.wr a v).hosts = m.hosts := rfl
@[simp] theorem Mod.wr_coll (m : Mod) (a : Nat) (v : W64) : (m.wr a v).coll = m.coll := rfl
@[simp] theorem Mod.wr_fit (m : Mod) (a : Nat) (v : W64) : (m.wr a v).fit = m.fit := rfl
@[simp] theorem Mod.wr_nv (m : Mod) (a : Nat) (v : W64) : (m.wr a v).nv = m.nv := rfl
@[simp] theorem Mod.wr_cal (m : Mod) (a : Nat) (v : W64) : (m.wr a v).cal = m.cal := rfl
@[simp] theorem Mod.wr_pwr (m : Mod) (a : Nat) (v : W64) : (m.wr a v).pwr = m.pwr := rfl
@[simp] theorem Mod.wr_freeCtr (m : Mod) (a : Nat) (v : W64) : (m.wr a v).freeCtr = m.freeCtr := rfl
@[simp] theorem Mod.wr_nextId (m : Mod) (a : Nat) (v : W64) : (m.wr a v).nextId = m.nextId := rfl

/-! ## wrf -/

@[simp] theorem Mod.wrf_cores (m : Mod) (a hi lo v : Nat) : (m.wrf a hi lo v).cores = m.cores := rfl
@[simp] theorem Mod.wrf_mem (m : Mod) (a hi lo v : Nat) : (m.wrf a hi lo v).mem = m.mem := rfl
@[simp] theorem Mod.wrf_tags (m : Mod) (a hi lo v : Nat) : (m.wrf a hi lo v).tags = m.tags := rfl
@[simp] theorem Mod.wrf_poison (m : Mod) (a hi lo v : Nat) : (m.wrf a hi lo v).poison = m.poison := rfl
@[simp] theorem Mod.wrf_sram (m : Mod) (a hi lo v : Nat) : (m.wrf a hi lo v).sram = m.sram := rfl
@[simp] theorem Mod.wrf_parts (m : Mod) (a hi lo v : Nat) : (m.wrf a hi lo v).parts = m.parts := rfl
@[simp] theorem Mod.wrf_pat (m : Mod) (a hi lo v : Nat) : (m.wrf a hi lo v).pat = m.pat := rfl
@[simp] theorem Mod.wrf_coh (m : Mod) (a hi lo v : Nat) : (m.wrf a hi lo v).coh = m.coh := rfl
@[simp] theorem Mod.wrf_spl (m : Mod) (a hi lo v : Nat) : (m.wrf a hi lo v).spl = m.spl := rfl
@[simp] theorem Mod.wrf_xlt (m : Mod) (a hi lo v : Nat) : (m.wrf a hi lo v).xlt = m.xlt := rfl
@[simp] theorem Mod.wrf_shuttles (m : Mod) (a hi lo v : Nat) : (m.wrf a hi lo v).shuttles = m.shuttles := rfl
@[simp] theorem Mod.wrf_lnk (m : Mod) (a hi lo v : Nat) : (m.wrf a hi lo v).lnk = m.lnk := rfl
@[simp] theorem Mod.wrf_sem (m : Mod) (a hi lo v : Nat) : (m.wrf a hi lo v).sem = m.sem := rfl
@[simp] theorem Mod.wrf_hosts (m : Mod) (a hi lo v : Nat) : (m.wrf a hi lo v).hosts = m.hosts := rfl
@[simp] theorem Mod.wrf_coll (m : Mod) (a hi lo v : Nat) : (m.wrf a hi lo v).coll = m.coll := rfl
@[simp] theorem Mod.wrf_fit (m : Mod) (a hi lo v : Nat) : (m.wrf a hi lo v).fit = m.fit := rfl
@[simp] theorem Mod.wrf_nv (m : Mod) (a hi lo v : Nat) : (m.wrf a hi lo v).nv = m.nv := rfl
@[simp] theorem Mod.wrf_cal (m : Mod) (a hi lo v : Nat) : (m.wrf a hi lo v).cal = m.cal := rfl
@[simp] theorem Mod.wrf_pwr (m : Mod) (a hi lo v : Nat) : (m.wrf a hi lo v).pwr = m.pwr := rfl
@[simp] theorem Mod.wrf_freeCtr (m : Mod) (a hi lo v : Nat) : (m.wrf a hi lo v).freeCtr = m.freeCtr := rfl
@[simp] theorem Mod.wrf_nextId (m : Mod) (a hi lo v : Nat) : (m.wrf a hi lo v).nextId = m.nextId := rfl

/-! ## incBy -/

@[simp] theorem Mod.incBy_cores (m : Mod) (a n : Nat) : (m.incBy a n).cores = m.cores := rfl
@[simp] theorem Mod.incBy_mem (m : Mod) (a n : Nat) : (m.incBy a n).mem = m.mem := rfl
@[simp] theorem Mod.incBy_tags (m : Mod) (a n : Nat) : (m.incBy a n).tags = m.tags := rfl
@[simp] theorem Mod.incBy_poison (m : Mod) (a n : Nat) : (m.incBy a n).poison = m.poison := rfl
@[simp] theorem Mod.incBy_sram (m : Mod) (a n : Nat) : (m.incBy a n).sram = m.sram := rfl
@[simp] theorem Mod.incBy_parts (m : Mod) (a n : Nat) : (m.incBy a n).parts = m.parts := rfl
@[simp] theorem Mod.incBy_pat (m : Mod) (a n : Nat) : (m.incBy a n).pat = m.pat := rfl
@[simp] theorem Mod.incBy_coh (m : Mod) (a n : Nat) : (m.incBy a n).coh = m.coh := rfl
@[simp] theorem Mod.incBy_spl (m : Mod) (a n : Nat) : (m.incBy a n).spl = m.spl := rfl
@[simp] theorem Mod.incBy_xlt (m : Mod) (a n : Nat) : (m.incBy a n).xlt = m.xlt := rfl
@[simp] theorem Mod.incBy_shuttles (m : Mod) (a n : Nat) : (m.incBy a n).shuttles = m.shuttles := rfl
@[simp] theorem Mod.incBy_lnk (m : Mod) (a n : Nat) : (m.incBy a n).lnk = m.lnk := rfl
@[simp] theorem Mod.incBy_sem (m : Mod) (a n : Nat) : (m.incBy a n).sem = m.sem := rfl
@[simp] theorem Mod.incBy_hosts (m : Mod) (a n : Nat) : (m.incBy a n).hosts = m.hosts := rfl
@[simp] theorem Mod.incBy_coll (m : Mod) (a n : Nat) : (m.incBy a n).coll = m.coll := rfl
@[simp] theorem Mod.incBy_fit (m : Mod) (a n : Nat) : (m.incBy a n).fit = m.fit := rfl
@[simp] theorem Mod.incBy_nv (m : Mod) (a n : Nat) : (m.incBy a n).nv = m.nv := rfl
@[simp] theorem Mod.incBy_cal (m : Mod) (a n : Nat) : (m.incBy a n).cal = m.cal := rfl
@[simp] theorem Mod.incBy_pwr (m : Mod) (a n : Nat) : (m.incBy a n).pwr = m.pwr := rfl
@[simp] theorem Mod.incBy_freeCtr (m : Mod) (a n : Nat) : (m.incBy a n).freeCtr = m.freeCtr := rfl
@[simp] theorem Mod.incBy_nextId (m : Mod) (a n : Nat) : (m.incBy a n).nextId = m.nextId := rfl

/-! ## inc -/

@[simp] theorem Mod.inc_cores (m : Mod) (a : Nat) : (m.inc a).cores = m.cores := rfl
@[simp] theorem Mod.inc_mem (m : Mod) (a : Nat) : (m.inc a).mem = m.mem := rfl
@[simp] theorem Mod.inc_tags (m : Mod) (a : Nat) : (m.inc a).tags = m.tags := rfl
@[simp] theorem Mod.inc_poison (m : Mod) (a : Nat) : (m.inc a).poison = m.poison := rfl
@[simp] theorem Mod.inc_sram (m : Mod) (a : Nat) : (m.inc a).sram = m.sram := rfl
@[simp] theorem Mod.inc_parts (m : Mod) (a : Nat) : (m.inc a).parts = m.parts := rfl
@[simp] theorem Mod.inc_pat (m : Mod) (a : Nat) : (m.inc a).pat = m.pat := rfl
@[simp] theorem Mod.inc_coh (m : Mod) (a : Nat) : (m.inc a).coh = m.coh := rfl
@[simp] theorem Mod.inc_spl (m : Mod) (a : Nat) : (m.inc a).spl = m.spl := rfl
@[simp] theorem Mod.inc_xlt (m : Mod) (a : Nat) : (m.inc a).xlt = m.xlt := rfl
@[simp] theorem Mod.inc_shuttles (m : Mod) (a : Nat) : (m.inc a).shuttles = m.shuttles := rfl
@[simp] theorem Mod.inc_lnk (m : Mod) (a : Nat) : (m.inc a).lnk = m.lnk := rfl
@[simp] theorem Mod.inc_sem (m : Mod) (a : Nat) : (m.inc a).sem = m.sem := rfl
@[simp] theorem Mod.inc_hosts (m : Mod) (a : Nat) : (m.inc a).hosts = m.hosts := rfl
@[simp] theorem Mod.inc_coll (m : Mod) (a : Nat) : (m.inc a).coll = m.coll := rfl
@[simp] theorem Mod.inc_fit (m : Mod) (a : Nat) : (m.inc a).fit = m.fit := rfl
@[simp] theorem Mod.inc_nv (m : Mod) (a : Nat) : (m.inc a).nv = m.nv := rfl
@[simp] theorem Mod.inc_cal (m : Mod) (a : Nat) : (m.inc a).cal = m.cal := rfl
@[simp] theorem Mod.inc_pwr (m : Mod) (a : Nat) : (m.inc a).pwr = m.pwr := rfl
@[simp] theorem Mod.inc_freeCtr (m : Mod) (a : Nat) : (m.inc a).freeCtr = m.freeCtr := rfl
@[simp] theorem Mod.inc_nextId (m : Mod) (a : Nat) : (m.inc a).nextId = m.nextId := rfl

/-! ## raise -/

@[simp] theorem Mod.raise_cores (m : Mod) (a i : Nat) : (m.raise a i).cores = m.cores := rfl
@[simp] theorem Mod.raise_mem (m : Mod) (a i : Nat) : (m.raise a i).mem = m.mem := rfl
@[simp] theorem Mod.raise_tags (m : Mod) (a i : Nat) : (m.raise a i).tags = m.tags := rfl
@[simp] theorem Mod.raise_poison (m : Mod) (a i : Nat) : (m.raise a i).poison = m.poison := rfl
@[simp] theorem Mod.raise_sram (m : Mod) (a i : Nat) : (m.raise a i).sram = m.sram := rfl
@[simp] theorem Mod.raise_parts (m : Mod) (a i : Nat) : (m.raise a i).parts = m.parts := rfl
@[simp] theorem Mod.raise_pat (m : Mod) (a i : Nat) : (m.raise a i).pat = m.pat := rfl
@[simp] theorem Mod.raise_coh (m : Mod) (a i : Nat) : (m.raise a i).coh = m.coh := rfl
@[simp] theorem Mod.raise_spl (m : Mod) (a i : Nat) : (m.raise a i).spl = m.spl := rfl
@[simp] theorem Mod.raise_xlt (m : Mod) (a i : Nat) : (m.raise a i).xlt = m.xlt := rfl
@[simp] theorem Mod.raise_shuttles (m : Mod) (a i : Nat) : (m.raise a i).shuttles = m.shuttles := rfl
@[simp] theorem Mod.raise_lnk (m : Mod) (a i : Nat) : (m.raise a i).lnk = m.lnk := rfl
@[simp] theorem Mod.raise_sem (m : Mod) (a i : Nat) : (m.raise a i).sem = m.sem := rfl
@[simp] theorem Mod.raise_hosts (m : Mod) (a i : Nat) : (m.raise a i).hosts = m.hosts := rfl
@[simp] theorem Mod.raise_coll (m : Mod) (a i : Nat) : (m.raise a i).coll = m.coll := rfl
@[simp] theorem Mod.raise_fit (m : Mod) (a i : Nat) : (m.raise a i).fit = m.fit := rfl
@[simp] theorem Mod.raise_nv (m : Mod) (a i : Nat) : (m.raise a i).nv = m.nv := rfl
@[simp] theorem Mod.raise_cal (m : Mod) (a i : Nat) : (m.raise a i).cal = m.cal := rfl
@[simp] theorem Mod.raise_pwr (m : Mod) (a i : Nat) : (m.raise a i).pwr = m.pwr := rfl
@[simp] theorem Mod.raise_freeCtr (m : Mod) (a i : Nat) : (m.raise a i).freeCtr = m.freeCtr := rfl
@[simp] theorem Mod.raise_nextId (m : Mod) (a i : Nat) : (m.raise a i).nextId = m.nextId := rfl

/-! ## linkGo -/

@[simp] theorem Mod.linkGo_cores (m : Mod) (l st : Nat) : (m.linkGo l st).cores = m.cores := rfl
@[simp] theorem Mod.linkGo_mem (m : Mod) (l st : Nat) : (m.linkGo l st).mem = m.mem := rfl
@[simp] theorem Mod.linkGo_tags (m : Mod) (l st : Nat) : (m.linkGo l st).tags = m.tags := rfl
@[simp] theorem Mod.linkGo_poison (m : Mod) (l st : Nat) : (m.linkGo l st).poison = m.poison := rfl
@[simp] theorem Mod.linkGo_sram (m : Mod) (l st : Nat) : (m.linkGo l st).sram = m.sram := rfl
@[simp] theorem Mod.linkGo_parts (m : Mod) (l st : Nat) : (m.linkGo l st).parts = m.parts := rfl
@[simp] theorem Mod.linkGo_pat (m : Mod) (l st : Nat) : (m.linkGo l st).pat = m.pat := rfl
@[simp] theorem Mod.linkGo_coh (m : Mod) (l st : Nat) : (m.linkGo l st).coh = m.coh := rfl
@[simp] theorem Mod.linkGo_spl (m : Mod) (l st : Nat) : (m.linkGo l st).spl = m.spl := rfl
@[simp] theorem Mod.linkGo_xlt (m : Mod) (l st : Nat) : (m.linkGo l st).xlt = m.xlt := rfl
@[simp] theorem Mod.linkGo_shuttles (m : Mod) (l st : Nat) : (m.linkGo l st).shuttles = m.shuttles := rfl
@[simp] theorem Mod.linkGo_lnk (m : Mod) (l st : Nat) : (m.linkGo l st).lnk = m.lnk := rfl
@[simp] theorem Mod.linkGo_sem (m : Mod) (l st : Nat) : (m.linkGo l st).sem = m.sem := rfl
@[simp] theorem Mod.linkGo_hosts (m : Mod) (l st : Nat) : (m.linkGo l st).hosts = m.hosts := rfl
@[simp] theorem Mod.linkGo_coll (m : Mod) (l st : Nat) : (m.linkGo l st).coll = m.coll := rfl
@[simp] theorem Mod.linkGo_fit (m : Mod) (l st : Nat) : (m.linkGo l st).fit = m.fit := rfl
@[simp] theorem Mod.linkGo_nv (m : Mod) (l st : Nat) : (m.linkGo l st).nv = m.nv := rfl
@[simp] theorem Mod.linkGo_cal (m : Mod) (l st : Nat) : (m.linkGo l st).cal = m.cal := rfl
@[simp] theorem Mod.linkGo_pwr (m : Mod) (l st : Nat) : (m.linkGo l st).pwr = m.pwr := rfl
@[simp] theorem Mod.linkGo_freeCtr (m : Mod) (l st : Nat) : (m.linkGo l st).freeCtr = m.freeCtr := rfl
@[simp] theorem Mod.linkGo_nextId (m : Mod) (l st : Nat) : (m.linkGo l st).nextId = m.nextId := rfl

/-! ## pcnt -/

@[simp] theorem Mod.pcnt_cores (m : Mod) (l i n : Nat) : (m.pcnt l i n).cores = m.cores := rfl
@[simp] theorem Mod.pcnt_mem (m : Mod) (l i n : Nat) : (m.pcnt l i n).mem = m.mem := rfl
@[simp] theorem Mod.pcnt_tags (m : Mod) (l i n : Nat) : (m.pcnt l i n).tags = m.tags := rfl
@[simp] theorem Mod.pcnt_poison (m : Mod) (l i n : Nat) : (m.pcnt l i n).poison = m.poison := rfl
@[simp] theorem Mod.pcnt_sram (m : Mod) (l i n : Nat) : (m.pcnt l i n).sram = m.sram := rfl
@[simp] theorem Mod.pcnt_parts (m : Mod) (l i n : Nat) : (m.pcnt l i n).parts = m.parts := rfl
@[simp] theorem Mod.pcnt_pat (m : Mod) (l i n : Nat) : (m.pcnt l i n).pat = m.pat := rfl
@[simp] theorem Mod.pcnt_coh (m : Mod) (l i n : Nat) : (m.pcnt l i n).coh = m.coh := rfl
@[simp] theorem Mod.pcnt_spl (m : Mod) (l i n : Nat) : (m.pcnt l i n).spl = m.spl := rfl
@[simp] theorem Mod.pcnt_xlt (m : Mod) (l i n : Nat) : (m.pcnt l i n).xlt = m.xlt := rfl
@[simp] theorem Mod.pcnt_shuttles (m : Mod) (l i n : Nat) : (m.pcnt l i n).shuttles = m.shuttles := rfl
@[simp] theorem Mod.pcnt_lnk (m : Mod) (l i n : Nat) : (m.pcnt l i n).lnk = m.lnk := rfl
@[simp] theorem Mod.pcnt_sem (m : Mod) (l i n : Nat) : (m.pcnt l i n).sem = m.sem := rfl
@[simp] theorem Mod.pcnt_hosts (m : Mod) (l i n : Nat) : (m.pcnt l i n).hosts = m.hosts := rfl
@[simp] theorem Mod.pcnt_coll (m : Mod) (l i n : Nat) : (m.pcnt l i n).coll = m.coll := rfl
@[simp] theorem Mod.pcnt_fit (m : Mod) (l i n : Nat) : (m.pcnt l i n).fit = m.fit := rfl
@[simp] theorem Mod.pcnt_nv (m : Mod) (l i n : Nat) : (m.pcnt l i n).nv = m.nv := rfl
@[simp] theorem Mod.pcnt_cal (m : Mod) (l i n : Nat) : (m.pcnt l i n).cal = m.cal := rfl
@[simp] theorem Mod.pcnt_pwr (m : Mod) (l i n : Nat) : (m.pcnt l i n).pwr = m.pwr := rfl
@[simp] theorem Mod.pcnt_freeCtr (m : Mod) (l i n : Nat) : (m.pcnt l i n).freeCtr = m.freeCtr := rfl
@[simp] theorem Mod.pcnt_nextId (m : Mod) (l i n : Nat) : (m.pcnt l i n).nextId = m.nextId := rfl

/-! ## lerr -/

@[simp] theorem Mod.lerr_cores (m : Mod) (l b i n : Nat) : (m.lerr l b i n).cores = m.cores := rfl
@[simp] theorem Mod.lerr_mem (m : Mod) (l b i n : Nat) : (m.lerr l b i n).mem = m.mem := rfl
@[simp] theorem Mod.lerr_tags (m : Mod) (l b i n : Nat) : (m.lerr l b i n).tags = m.tags := rfl
@[simp] theorem Mod.lerr_poison (m : Mod) (l b i n : Nat) : (m.lerr l b i n).poison = m.poison := rfl
@[simp] theorem Mod.lerr_sram (m : Mod) (l b i n : Nat) : (m.lerr l b i n).sram = m.sram := rfl
@[simp] theorem Mod.lerr_parts (m : Mod) (l b i n : Nat) : (m.lerr l b i n).parts = m.parts := rfl
@[simp] theorem Mod.lerr_pat (m : Mod) (l b i n : Nat) : (m.lerr l b i n).pat = m.pat := rfl
@[simp] theorem Mod.lerr_coh (m : Mod) (l b i n : Nat) : (m.lerr l b i n).coh = m.coh := rfl
@[simp] theorem Mod.lerr_spl (m : Mod) (l b i n : Nat) : (m.lerr l b i n).spl = m.spl := rfl
@[simp] theorem Mod.lerr_xlt (m : Mod) (l b i n : Nat) : (m.lerr l b i n).xlt = m.xlt := rfl
@[simp] theorem Mod.lerr_shuttles (m : Mod) (l b i n : Nat) : (m.lerr l b i n).shuttles = m.shuttles := rfl
@[simp] theorem Mod.lerr_lnk (m : Mod) (l b i n : Nat) : (m.lerr l b i n).lnk = m.lnk := rfl
@[simp] theorem Mod.lerr_sem (m : Mod) (l b i n : Nat) : (m.lerr l b i n).sem = m.sem := rfl
@[simp] theorem Mod.lerr_hosts (m : Mod) (l b i n : Nat) : (m.lerr l b i n).hosts = m.hosts := rfl
@[simp] theorem Mod.lerr_coll (m : Mod) (l b i n : Nat) : (m.lerr l b i n).coll = m.coll := rfl
@[simp] theorem Mod.lerr_nv (m : Mod) (l b i n : Nat) : (m.lerr l b i n).nv = m.nv := rfl
@[simp] theorem Mod.lerr_cal (m : Mod) (l b i n : Nat) : (m.lerr l b i n).cal = m.cal := rfl
@[simp] theorem Mod.lerr_pwr (m : Mod) (l b i n : Nat) : (m.lerr l b i n).pwr = m.pwr := rfl
@[simp] theorem Mod.lerr_freeCtr (m : Mod) (l b i n : Nat) : (m.lerr l b i n).freeCtr = m.freeCtr := rfl
@[simp] theorem Mod.lerr_nextId (m : Mod) (l b i n : Nat) : (m.lerr l b i n).nextId = m.nextId := rfl

/-! ## updPart -/

@[simp] theorem Mod.updPart_cores (m : Mod) (p : Nat) (f : Part → Part) : (m.updPart p f).cores = m.cores := rfl
@[simp] theorem Mod.updPart_bar0 (m : Mod) (p : Nat) (f : Part → Part) : (m.updPart p f).bar0 = m.bar0 := rfl
@[simp] theorem Mod.updPart_mem (m : Mod) (p : Nat) (f : Part → Part) : (m.updPart p f).mem = m.mem := rfl
@[simp] theorem Mod.updPart_tags (m : Mod) (p : Nat) (f : Part → Part) : (m.updPart p f).tags = m.tags := rfl
@[simp] theorem Mod.updPart_poison (m : Mod) (p : Nat) (f : Part → Part) : (m.updPart p f).poison = m.poison := rfl
@[simp] theorem Mod.updPart_sram (m : Mod) (p : Nat) (f : Part → Part) : (m.updPart p f).sram = m.sram := rfl
@[simp] theorem Mod.updPart_pat (m : Mod) (p : Nat) (f : Part → Part) : (m.updPart p f).pat = m.pat := rfl
@[simp] theorem Mod.updPart_coh (m : Mod) (p : Nat) (f : Part → Part) : (m.updPart p f).coh = m.coh := rfl
@[simp] theorem Mod.updPart_spl (m : Mod) (p : Nat) (f : Part → Part) : (m.updPart p f).spl = m.spl := rfl
@[simp] theorem Mod.updPart_xlt (m : Mod) (p : Nat) (f : Part → Part) : (m.updPart p f).xlt = m.xlt := rfl
@[simp] theorem Mod.updPart_shuttles (m : Mod) (p : Nat) (f : Part → Part) : (m.updPart p f).shuttles = m.shuttles := rfl
@[simp] theorem Mod.updPart_lnk (m : Mod) (p : Nat) (f : Part → Part) : (m.updPart p f).lnk = m.lnk := rfl
@[simp] theorem Mod.updPart_sem (m : Mod) (p : Nat) (f : Part → Part) : (m.updPart p f).sem = m.sem := rfl
@[simp] theorem Mod.updPart_hosts (m : Mod) (p : Nat) (f : Part → Part) : (m.updPart p f).hosts = m.hosts := rfl
@[simp] theorem Mod.updPart_coll (m : Mod) (p : Nat) (f : Part → Part) : (m.updPart p f).coll = m.coll := rfl
@[simp] theorem Mod.updPart_fit (m : Mod) (p : Nat) (f : Part → Part) : (m.updPart p f).fit = m.fit := rfl
@[simp] theorem Mod.updPart_nv (m : Mod) (p : Nat) (f : Part → Part) : (m.updPart p f).nv = m.nv := rfl
@[simp] theorem Mod.updPart_cal (m : Mod) (p : Nat) (f : Part → Part) : (m.updPart p f).cal = m.cal := rfl
@[simp] theorem Mod.updPart_pwr (m : Mod) (p : Nat) (f : Part → Part) : (m.updPart p f).pwr = m.pwr := rfl
@[simp] theorem Mod.updPart_freeCtr (m : Mod) (p : Nat) (f : Part → Part) : (m.updPart p f).freeCtr = m.freeCtr := rfl
@[simp] theorem Mod.updPart_nextId (m : Mod) (p : Nat) (f : Part → Part) : (m.updPart p f).nextId = m.nextId := rfl

/-! ## updHost -/

@[simp] theorem Mod.updHost_cores (m : Mod) (h : Nat) (f : HostPort → HostPort) : (m.updHost h f).cores = m.cores := rfl
@[simp] theorem Mod.updHost_bar0 (m : Mod) (h : Nat) (f : HostPort → HostPort) : (m.updHost h f).bar0 = m.bar0 := rfl
@[simp] theorem Mod.updHost_mem (m : Mod) (h : Nat) (f : HostPort → HostPort) : (m.updHost h f).mem = m.mem := rfl
@[simp] theorem Mod.updHost_tags (m : Mod) (h : Nat) (f : HostPort → HostPort) : (m.updHost h f).tags = m.tags := rfl
@[simp] theorem Mod.updHost_poison (m : Mod) (h : Nat) (f : HostPort → HostPort) : (m.updHost h f).poison = m.poison := rfl
@[simp] theorem Mod.updHost_sram (m : Mod) (h : Nat) (f : HostPort → HostPort) : (m.updHost h f).sram = m.sram := rfl
@[simp] theorem Mod.updHost_parts (m : Mod) (h : Nat) (f : HostPort → HostPort) : (m.updHost h f).parts = m.parts := rfl
@[simp] theorem Mod.updHost_pat (m : Mod) (h : Nat) (f : HostPort → HostPort) : (m.updHost h f).pat = m.pat := rfl
@[simp] theorem Mod.updHost_coh (m : Mod) (h : Nat) (f : HostPort → HostPort) : (m.updHost h f).coh = m.coh := rfl
@[simp] theorem Mod.updHost_spl (m : Mod) (h : Nat) (f : HostPort → HostPort) : (m.updHost h f).spl = m.spl := rfl
@[simp] theorem Mod.updHost_xlt (m : Mod) (h : Nat) (f : HostPort → HostPort) : (m.updHost h f).xlt = m.xlt := rfl
@[simp] theorem Mod.updHost_shuttles (m : Mod) (h : Nat) (f : HostPort → HostPort) : (m.updHost h f).shuttles = m.shuttles := rfl
@[simp] theorem Mod.updHost_lnk (m : Mod) (h : Nat) (f : HostPort → HostPort) : (m.updHost h f).lnk = m.lnk := rfl
@[simp] theorem Mod.updHost_sem (m : Mod) (h : Nat) (f : HostPort → HostPort) : (m.updHost h f).sem = m.sem := rfl
@[simp] theorem Mod.updHost_coll (m : Mod) (h : Nat) (f : HostPort → HostPort) : (m.updHost h f).coll = m.coll := rfl
@[simp] theorem Mod.updHost_fit (m : Mod) (h : Nat) (f : HostPort → HostPort) : (m.updHost h f).fit = m.fit := rfl
@[simp] theorem Mod.updHost_nv (m : Mod) (h : Nat) (f : HostPort → HostPort) : (m.updHost h f).nv = m.nv := rfl
@[simp] theorem Mod.updHost_cal (m : Mod) (h : Nat) (f : HostPort → HostPort) : (m.updHost h f).cal = m.cal := rfl
@[simp] theorem Mod.updHost_pwr (m : Mod) (h : Nat) (f : HostPort → HostPort) : (m.updHost h f).pwr = m.pwr := rfl
@[simp] theorem Mod.updHost_freeCtr (m : Mod) (h : Nat) (f : HostPort → HostPort) : (m.updHost h f).freeCtr = m.freeCtr := rfl
@[simp] theorem Mod.updHost_nextId (m : Mod) (h : Nat) (f : HostPort → HostPort) : (m.updHost h f).nextId = m.nextId := rfl

/-! ## toHost -/

@[simp] theorem Mod.toHost_cores (m : Mod) (h : Nat) (x : HostOut) : (m.toHost h x).cores = m.cores := rfl
@[simp] theorem Mod.toHost_bar0 (m : Mod) (h : Nat) (x : HostOut) : (m.toHost h x).bar0 = m.bar0 := rfl
@[simp] theorem Mod.toHost_mem (m : Mod) (h : Nat) (x : HostOut) : (m.toHost h x).mem = m.mem := rfl
@[simp] theorem Mod.toHost_tags (m : Mod) (h : Nat) (x : HostOut) : (m.toHost h x).tags = m.tags := rfl
@[simp] theorem Mod.toHost_poison (m : Mod) (h : Nat) (x : HostOut) : (m.toHost h x).poison = m.poison := rfl
@[simp] theorem Mod.toHost_sram (m : Mod) (h : Nat) (x : HostOut) : (m.toHost h x).sram = m.sram := rfl
@[simp] theorem Mod.toHost_parts (m : Mod) (h : Nat) (x : HostOut) : (m.toHost h x).parts = m.parts := rfl
@[simp] theorem Mod.toHost_pat (m : Mod) (h : Nat) (x : HostOut) : (m.toHost h x).pat = m.pat := rfl
@[simp] theorem Mod.toHost_coh (m : Mod) (h : Nat) (x : HostOut) : (m.toHost h x).coh = m.coh := rfl
@[simp] theorem Mod.toHost_spl (m : Mod) (h : Nat) (x : HostOut) : (m.toHost h x).spl = m.spl := rfl
@[simp] theorem Mod.toHost_xlt (m : Mod) (h : Nat) (x : HostOut) : (m.toHost h x).xlt = m.xlt := rfl
@[simp] theorem Mod.toHost_shuttles (m : Mod) (h : Nat) (x : HostOut) : (m.toHost h x).shuttles = m.shuttles := rfl
@[simp] theorem Mod.toHost_lnk (m : Mod) (h : Nat) (x : HostOut) : (m.toHost h x).lnk = m.lnk := rfl
@[simp] theorem Mod.toHost_sem (m : Mod) (h : Nat) (x : HostOut) : (m.toHost h x).sem = m.sem := rfl
@[simp] theorem Mod.toHost_coll (m : Mod) (h : Nat) (x : HostOut) : (m.toHost h x).coll = m.coll := rfl
@[simp] theorem Mod.toHost_fit (m : Mod) (h : Nat) (x : HostOut) : (m.toHost h x).fit = m.fit := rfl
@[simp] theorem Mod.toHost_nv (m : Mod) (h : Nat) (x : HostOut) : (m.toHost h x).nv = m.nv := rfl
@[simp] theorem Mod.toHost_cal (m : Mod) (h : Nat) (x : HostOut) : (m.toHost h x).cal = m.cal := rfl
@[simp] theorem Mod.toHost_pwr (m : Mod) (h : Nat) (x : HostOut) : (m.toHost h x).pwr = m.pwr := rfl
@[simp] theorem Mod.toHost_freeCtr (m : Mod) (h : Nat) (x : HostOut) : (m.toHost h x).freeCtr = m.freeCtr := rfl
@[simp] theorem Mod.toHost_nextId (m : Mod) (h : Nat) (x : HostOut) : (m.toHost h x).nextId = m.nextId := rfl

/-! ## updLink -/

@[simp] theorem Mod.updLink_cores (m : Mod) (l : Nat) (f : Link → Link) : (m.updLink l f).cores = m.cores := rfl
@[simp] theorem Mod.updLink_bar0 (m : Mod) (l : Nat) (f : Link → Link) : (m.updLink l f).bar0 = m.bar0 := rfl
@[simp] theorem Mod.updLink_mem (m : Mod) (l : Nat) (f : Link → Link) : (m.updLink l f).mem = m.mem := rfl
@[simp] theorem Mod.updLink_tags (m : Mod) (l : Nat) (f : Link → Link) : (m.updLink l f).tags = m.tags := rfl
@[simp] theorem Mod.updLink_poison (m : Mod) (l : Nat) (f : Link → Link) : (m.updLink l f).poison = m.poison := rfl
@[simp] theorem Mod.updLink_sram (m : Mod) (l : Nat) (f : Link → Link) : (m.updLink l f).sram = m.sram := rfl
@[simp] theorem Mod.updLink_parts (m : Mod) (l : Nat) (f : Link → Link) : (m.updLink l f).parts = m.parts := rfl
@[simp] theorem Mod.updLink_pat (m : Mod) (l : Nat) (f : Link → Link) : (m.updLink l f).pat = m.pat := rfl
@[simp] theorem Mod.updLink_coh (m : Mod) (l : Nat) (f : Link → Link) : (m.updLink l f).coh = m.coh := rfl
@[simp] theorem Mod.updLink_spl (m : Mod) (l : Nat) (f : Link → Link) : (m.updLink l f).spl = m.spl := rfl
@[simp] theorem Mod.updLink_xlt (m : Mod) (l : Nat) (f : Link → Link) : (m.updLink l f).xlt = m.xlt := rfl
@[simp] theorem Mod.updLink_shuttles (m : Mod) (l : Nat) (f : Link → Link) : (m.updLink l f).shuttles = m.shuttles := rfl
@[simp] theorem Mod.updLink_sem (m : Mod) (l : Nat) (f : Link → Link) : (m.updLink l f).sem = m.sem := rfl
@[simp] theorem Mod.updLink_hosts (m : Mod) (l : Nat) (f : Link → Link) : (m.updLink l f).hosts = m.hosts := rfl
@[simp] theorem Mod.updLink_coll (m : Mod) (l : Nat) (f : Link → Link) : (m.updLink l f).coll = m.coll := rfl
@[simp] theorem Mod.updLink_fit (m : Mod) (l : Nat) (f : Link → Link) : (m.updLink l f).fit = m.fit := rfl
@[simp] theorem Mod.updLink_nv (m : Mod) (l : Nat) (f : Link → Link) : (m.updLink l f).nv = m.nv := rfl
@[simp] theorem Mod.updLink_cal (m : Mod) (l : Nat) (f : Link → Link) : (m.updLink l f).cal = m.cal := rfl
@[simp] theorem Mod.updLink_pwr (m : Mod) (l : Nat) (f : Link → Link) : (m.updLink l f).pwr = m.pwr := rfl
@[simp] theorem Mod.updLink_freeCtr (m : Mod) (l : Nat) (f : Link → Link) : (m.updLink l f).freeCtr = m.freeCtr := rfl
@[simp] theorem Mod.updLink_nextId (m : Mod) (l : Nat) (f : Link → Link) : (m.updLink l f).nextId = m.nextId := rfl

/-! ## enqueue -/

@[simp] theorem Mod.enqueue_cores (m : Mod) (g : Nat) (x : OutMsg) : (m.enqueue g x).cores = m.cores := rfl
@[simp] theorem Mod.enqueue_bar0 (m : Mod) (g : Nat) (x : OutMsg) : (m.enqueue g x).bar0 = m.bar0 := rfl
@[simp] theorem Mod.enqueue_mem (m : Mod) (g : Nat) (x : OutMsg) : (m.enqueue g x).mem = m.mem := rfl
@[simp] theorem Mod.enqueue_tags (m : Mod) (g : Nat) (x : OutMsg) : (m.enqueue g x).tags = m.tags := rfl
@[simp] theorem Mod.enqueue_poison (m : Mod) (g : Nat) (x : OutMsg) : (m.enqueue g x).poison = m.poison := rfl
@[simp] theorem Mod.enqueue_sram (m : Mod) (g : Nat) (x : OutMsg) : (m.enqueue g x).sram = m.sram := rfl
@[simp] theorem Mod.enqueue_parts (m : Mod) (g : Nat) (x : OutMsg) : (m.enqueue g x).parts = m.parts := rfl
@[simp] theorem Mod.enqueue_pat (m : Mod) (g : Nat) (x : OutMsg) : (m.enqueue g x).pat = m.pat := rfl
@[simp] theorem Mod.enqueue_coh (m : Mod) (g : Nat) (x : OutMsg) : (m.enqueue g x).coh = m.coh := rfl
@[simp] theorem Mod.enqueue_spl (m : Mod) (g : Nat) (x : OutMsg) : (m.enqueue g x).spl = m.spl := rfl
@[simp] theorem Mod.enqueue_xlt (m : Mod) (g : Nat) (x : OutMsg) : (m.enqueue g x).xlt = m.xlt := rfl
@[simp] theorem Mod.enqueue_shuttles (m : Mod) (g : Nat) (x : OutMsg) : (m.enqueue g x).shuttles = m.shuttles := rfl
@[simp] theorem Mod.enqueue_sem (m : Mod) (g : Nat) (x : OutMsg) : (m.enqueue g x).sem = m.sem := rfl
@[simp] theorem Mod.enqueue_hosts (m : Mod) (g : Nat) (x : OutMsg) : (m.enqueue g x).hosts = m.hosts := rfl
@[simp] theorem Mod.enqueue_coll (m : Mod) (g : Nat) (x : OutMsg) : (m.enqueue g x).coll = m.coll := rfl
@[simp] theorem Mod.enqueue_fit (m : Mod) (g : Nat) (x : OutMsg) : (m.enqueue g x).fit = m.fit := rfl
@[simp] theorem Mod.enqueue_nv (m : Mod) (g : Nat) (x : OutMsg) : (m.enqueue g x).nv = m.nv := rfl
@[simp] theorem Mod.enqueue_cal (m : Mod) (g : Nat) (x : OutMsg) : (m.enqueue g x).cal = m.cal := rfl
@[simp] theorem Mod.enqueue_pwr (m : Mod) (g : Nat) (x : OutMsg) : (m.enqueue g x).pwr = m.pwr := rfl
@[simp] theorem Mod.enqueue_freeCtr (m : Mod) (g : Nat) (x : OutMsg) : (m.enqueue g x).freeCtr = m.freeCtr := rfl
@[simp] theorem Mod.enqueue_nextId (m : Mod) (g : Nat) (x : OutMsg) : (m.enqueue g x).nextId = m.nextId := rfl

/-! ## arrive -/

@[simp] theorem Mod.arrive_cores (m : Mod) (x : InMsg) : (m.arrive x).cores = m.cores := rfl
@[simp] theorem Mod.arrive_bar0 (m : Mod) (x : InMsg) : (m.arrive x).bar0 = m.bar0 := rfl
@[simp] theorem Mod.arrive_mem (m : Mod) (x : InMsg) : (m.arrive x).mem = m.mem := rfl
@[simp] theorem Mod.arrive_tags (m : Mod) (x : InMsg) : (m.arrive x).tags = m.tags := rfl
@[simp] theorem Mod.arrive_poison (m : Mod) (x : InMsg) : (m.arrive x).poison = m.poison := rfl
@[simp] theorem Mod.arrive_sram (m : Mod) (x : InMsg) : (m.arrive x).sram = m.sram := rfl
@[simp] theorem Mod.arrive_parts (m : Mod) (x : InMsg) : (m.arrive x).parts = m.parts := rfl
@[simp] theorem Mod.arrive_pat (m : Mod) (x : InMsg) : (m.arrive x).pat = m.pat := rfl
@[simp] theorem Mod.arrive_coh (m : Mod) (x : InMsg) : (m.arrive x).coh = m.coh := rfl
@[simp] theorem Mod.arrive_spl (m : Mod) (x : InMsg) : (m.arrive x).spl = m.spl := rfl
@[simp] theorem Mod.arrive_xlt (m : Mod) (x : InMsg) : (m.arrive x).xlt = m.xlt := rfl
@[simp] theorem Mod.arrive_shuttles (m : Mod) (x : InMsg) : (m.arrive x).shuttles = m.shuttles := rfl
@[simp] theorem Mod.arrive_sem (m : Mod) (x : InMsg) : (m.arrive x).sem = m.sem := rfl
@[simp] theorem Mod.arrive_hosts (m : Mod) (x : InMsg) : (m.arrive x).hosts = m.hosts := rfl
@[simp] theorem Mod.arrive_coll (m : Mod) (x : InMsg) : (m.arrive x).coll = m.coll := rfl
@[simp] theorem Mod.arrive_fit (m : Mod) (x : InMsg) : (m.arrive x).fit = m.fit := rfl
@[simp] theorem Mod.arrive_nv (m : Mod) (x : InMsg) : (m.arrive x).nv = m.nv := rfl
@[simp] theorem Mod.arrive_cal (m : Mod) (x : InMsg) : (m.arrive x).cal = m.cal := rfl
@[simp] theorem Mod.arrive_pwr (m : Mod) (x : InMsg) : (m.arrive x).pwr = m.pwr := rfl
@[simp] theorem Mod.arrive_freeCtr (m : Mod) (x : InMsg) : (m.arrive x).freeCtr = m.freeCtr := rfl
@[simp] theorem Mod.arrive_nextId (m : Mod) (x : InMsg) : (m.arrive x).nextId = m.nextId := rfl

/-! ## updGrp -/

@[simp] theorem Mod.updGrp_cores (m : Mod) (g : Nat) (f : CollGroup → CollGroup) : (m.updGrp g f).cores = m.cores := rfl
@[simp] theorem Mod.updGrp_bar0 (m : Mod) (g : Nat) (f : CollGroup → CollGroup) : (m.updGrp g f).bar0 = m.bar0 := rfl
@[simp] theorem Mod.updGrp_mem (m : Mod) (g : Nat) (f : CollGroup → CollGroup) : (m.updGrp g f).mem = m.mem := rfl
@[simp] theorem Mod.updGrp_tags (m : Mod) (g : Nat) (f : CollGroup → CollGroup) : (m.updGrp g f).tags = m.tags := rfl
@[simp] theorem Mod.updGrp_poison (m : Mod) (g : Nat) (f : CollGroup → CollGroup) : (m.updGrp g f).poison = m.poison := rfl
@[simp] theorem Mod.updGrp_sram (m : Mod) (g : Nat) (f : CollGroup → CollGroup) : (m.updGrp g f).sram = m.sram := rfl
@[simp] theorem Mod.updGrp_parts (m : Mod) (g : Nat) (f : CollGroup → CollGroup) : (m.updGrp g f).parts = m.parts := rfl
@[simp] theorem Mod.updGrp_pat (m : Mod) (g : Nat) (f : CollGroup → CollGroup) : (m.updGrp g f).pat = m.pat := rfl
@[simp] theorem Mod.updGrp_coh (m : Mod) (g : Nat) (f : CollGroup → CollGroup) : (m.updGrp g f).coh = m.coh := rfl
@[simp] theorem Mod.updGrp_spl (m : Mod) (g : Nat) (f : CollGroup → CollGroup) : (m.updGrp g f).spl = m.spl := rfl
@[simp] theorem Mod.updGrp_xlt (m : Mod) (g : Nat) (f : CollGroup → CollGroup) : (m.updGrp g f).xlt = m.xlt := rfl
@[simp] theorem Mod.updGrp_shuttles (m : Mod) (g : Nat) (f : CollGroup → CollGroup) : (m.updGrp g f).shuttles = m.shuttles := rfl
@[simp] theorem Mod.updGrp_lnk (m : Mod) (g : Nat) (f : CollGroup → CollGroup) : (m.updGrp g f).lnk = m.lnk := rfl
@[simp] theorem Mod.updGrp_sem (m : Mod) (g : Nat) (f : CollGroup → CollGroup) : (m.updGrp g f).sem = m.sem := rfl
@[simp] theorem Mod.updGrp_hosts (m : Mod) (g : Nat) (f : CollGroup → CollGroup) : (m.updGrp g f).hosts = m.hosts := rfl
@[simp] theorem Mod.updGrp_fit (m : Mod) (g : Nat) (f : CollGroup → CollGroup) : (m.updGrp g f).fit = m.fit := rfl
@[simp] theorem Mod.updGrp_nv (m : Mod) (g : Nat) (f : CollGroup → CollGroup) : (m.updGrp g f).nv = m.nv := rfl
@[simp] theorem Mod.updGrp_cal (m : Mod) (g : Nat) (f : CollGroup → CollGroup) : (m.updGrp g f).cal = m.cal := rfl
@[simp] theorem Mod.updGrp_pwr (m : Mod) (g : Nat) (f : CollGroup → CollGroup) : (m.updGrp g f).pwr = m.pwr := rfl
@[simp] theorem Mod.updGrp_freeCtr (m : Mod) (g : Nat) (f : CollGroup → CollGroup) : (m.updGrp g f).freeCtr = m.freeCtr := rfl
@[simp] theorem Mod.updGrp_nextId (m : Mod) (g : Nat) (f : CollGroup → CollGroup) : (m.updGrp g f).nextId = m.nextId := rfl

/-! ## updSx -/

@[simp] theorem Mod.updSx_cores (m : Mod) (n : Nat) (f : SemEntry → SemEntry) : (m.updSx n f).cores = m.cores := rfl
@[simp] theorem Mod.updSx_bar0 (m : Mod) (n : Nat) (f : SemEntry → SemEntry) : (m.updSx n f).bar0 = m.bar0 := rfl
@[simp] theorem Mod.updSx_mem (m : Mod) (n : Nat) (f : SemEntry → SemEntry) : (m.updSx n f).mem = m.mem := rfl
@[simp] theorem Mod.updSx_tags (m : Mod) (n : Nat) (f : SemEntry → SemEntry) : (m.updSx n f).tags = m.tags := rfl
@[simp] theorem Mod.updSx_poison (m : Mod) (n : Nat) (f : SemEntry → SemEntry) : (m.updSx n f).poison = m.poison := rfl
@[simp] theorem Mod.updSx_sram (m : Mod) (n : Nat) (f : SemEntry → SemEntry) : (m.updSx n f).sram = m.sram := rfl
@[simp] theorem Mod.updSx_parts (m : Mod) (n : Nat) (f : SemEntry → SemEntry) : (m.updSx n f).parts = m.parts := rfl
@[simp] theorem Mod.updSx_pat (m : Mod) (n : Nat) (f : SemEntry → SemEntry) : (m.updSx n f).pat = m.pat := rfl
@[simp] theorem Mod.updSx_coh (m : Mod) (n : Nat) (f : SemEntry → SemEntry) : (m.updSx n f).coh = m.coh := rfl
@[simp] theorem Mod.updSx_spl (m : Mod) (n : Nat) (f : SemEntry → SemEntry) : (m.updSx n f).spl = m.spl := rfl
@[simp] theorem Mod.updSx_xlt (m : Mod) (n : Nat) (f : SemEntry → SemEntry) : (m.updSx n f).xlt = m.xlt := rfl
@[simp] theorem Mod.updSx_shuttles (m : Mod) (n : Nat) (f : SemEntry → SemEntry) : (m.updSx n f).shuttles = m.shuttles := rfl
@[simp] theorem Mod.updSx_lnk (m : Mod) (n : Nat) (f : SemEntry → SemEntry) : (m.updSx n f).lnk = m.lnk := rfl
@[simp] theorem Mod.updSx_hosts (m : Mod) (n : Nat) (f : SemEntry → SemEntry) : (m.updSx n f).hosts = m.hosts := rfl
@[simp] theorem Mod.updSx_coll (m : Mod) (n : Nat) (f : SemEntry → SemEntry) : (m.updSx n f).coll = m.coll := rfl
@[simp] theorem Mod.updSx_fit (m : Mod) (n : Nat) (f : SemEntry → SemEntry) : (m.updSx n f).fit = m.fit := rfl
@[simp] theorem Mod.updSx_nv (m : Mod) (n : Nat) (f : SemEntry → SemEntry) : (m.updSx n f).nv = m.nv := rfl
@[simp] theorem Mod.updSx_cal (m : Mod) (n : Nat) (f : SemEntry → SemEntry) : (m.updSx n f).cal = m.cal := rfl
@[simp] theorem Mod.updSx_pwr (m : Mod) (n : Nat) (f : SemEntry → SemEntry) : (m.updSx n f).pwr = m.pwr := rfl
@[simp] theorem Mod.updSx_freeCtr (m : Mod) (n : Nat) (f : SemEntry → SemEntry) : (m.updSx n f).freeCtr = m.freeCtr := rfl
@[simp] theorem Mod.updSx_nextId (m : Mod) (n : Nat) (f : SemEntry → SemEntry) : (m.updSx n f).nextId = m.nextId := rfl

/-! ## setSb -/

@[simp] theorem Mod.setSb_cores (m : Mod) (i v : Nat) : (m.setSb i v).cores = m.cores := rfl
@[simp] theorem Mod.setSb_bar0 (m : Mod) (i v : Nat) : (m.setSb i v).bar0 = m.bar0 := rfl
@[simp] theorem Mod.setSb_mem (m : Mod) (i v : Nat) : (m.setSb i v).mem = m.mem := rfl
@[simp] theorem Mod.setSb_tags (m : Mod) (i v : Nat) : (m.setSb i v).tags = m.tags := rfl
@[simp] theorem Mod.setSb_poison (m : Mod) (i v : Nat) : (m.setSb i v).poison = m.poison := rfl
@[simp] theorem Mod.setSb_sram (m : Mod) (i v : Nat) : (m.setSb i v).sram = m.sram := rfl
@[simp] theorem Mod.setSb_parts (m : Mod) (i v : Nat) : (m.setSb i v).parts = m.parts := rfl
@[simp] theorem Mod.setSb_pat (m : Mod) (i v : Nat) : (m.setSb i v).pat = m.pat := rfl
@[simp] theorem Mod.setSb_coh (m : Mod) (i v : Nat) : (m.setSb i v).coh = m.coh := rfl
@[simp] theorem Mod.setSb_spl (m : Mod) (i v : Nat) : (m.setSb i v).spl = m.spl := rfl
@[simp] theorem Mod.setSb_xlt (m : Mod) (i v : Nat) : (m.setSb i v).xlt = m.xlt := rfl
@[simp] theorem Mod.setSb_shuttles (m : Mod) (i v : Nat) : (m.setSb i v).shuttles = m.shuttles := rfl
@[simp] theorem Mod.setSb_lnk (m : Mod) (i v : Nat) : (m.setSb i v).lnk = m.lnk := rfl
@[simp] theorem Mod.setSb_sem (m : Mod) (i v : Nat) : (m.setSb i v).sem = m.sem := rfl
@[simp] theorem Mod.setSb_hosts (m : Mod) (i v : Nat) : (m.setSb i v).hosts = m.hosts := rfl
@[simp] theorem Mod.setSb_coll (m : Mod) (i v : Nat) : (m.setSb i v).coll = m.coll := rfl
@[simp] theorem Mod.setSb_fit (m : Mod) (i v : Nat) : (m.setSb i v).fit = m.fit := rfl
@[simp] theorem Mod.setSb_nv (m : Mod) (i v : Nat) : (m.setSb i v).nv = m.nv := rfl
@[simp] theorem Mod.setSb_cal (m : Mod) (i v : Nat) : (m.setSb i v).cal = m.cal := rfl
@[simp] theorem Mod.setSb_freeCtr (m : Mod) (i v : Nat) : (m.setSb i v).freeCtr = m.freeCtr := rfl
@[simp] theorem Mod.setSb_nextId (m : Mod) (i v : Nat) : (m.setSb i v).nextId = m.nextId := rfl

/-! ## setRail -/

@[simp] theorem Mod.setRail_cores (m : Mod) (r : Nat) : (m.setRail r).cores = m.cores := rfl
@[simp] theorem Mod.setRail_bar0 (m : Mod) (r : Nat) : (m.setRail r).bar0 = m.bar0 := rfl
@[simp] theorem Mod.setRail_mem (m : Mod) (r : Nat) : (m.setRail r).mem = m.mem := rfl
@[simp] theorem Mod.setRail_tags (m : Mod) (r : Nat) : (m.setRail r).tags = m.tags := rfl
@[simp] theorem Mod.setRail_poison (m : Mod) (r : Nat) : (m.setRail r).poison = m.poison := rfl
@[simp] theorem Mod.setRail_sram (m : Mod) (r : Nat) : (m.setRail r).sram = m.sram := rfl
@[simp] theorem Mod.setRail_parts (m : Mod) (r : Nat) : (m.setRail r).parts = m.parts := rfl
@[simp] theorem Mod.setRail_pat (m : Mod) (r : Nat) : (m.setRail r).pat = m.pat := rfl
@[simp] theorem Mod.setRail_coh (m : Mod) (r : Nat) : (m.setRail r).coh = m.coh := rfl
@[simp] theorem Mod.setRail_spl (m : Mod) (r : Nat) : (m.setRail r).spl = m.spl := rfl
@[simp] theorem Mod.setRail_xlt (m : Mod) (r : Nat) : (m.setRail r).xlt = m.xlt := rfl
@[simp] theorem Mod.setRail_shuttles (m : Mod) (r : Nat) : (m.setRail r).shuttles = m.shuttles := rfl
@[simp] theorem Mod.setRail_lnk (m : Mod) (r : Nat) : (m.setRail r).lnk = m.lnk := rfl
@[simp] theorem Mod.setRail_sem (m : Mod) (r : Nat) : (m.setRail r).sem = m.sem := rfl
@[simp] theorem Mod.setRail_hosts (m : Mod) (r : Nat) : (m.setRail r).hosts = m.hosts := rfl
@[simp] theorem Mod.setRail_coll (m : Mod) (r : Nat) : (m.setRail r).coll = m.coll := rfl
@[simp] theorem Mod.setRail_fit (m : Mod) (r : Nat) : (m.setRail r).fit = m.fit := rfl
@[simp] theorem Mod.setRail_nv (m : Mod) (r : Nat) : (m.setRail r).nv = m.nv := rfl
@[simp] theorem Mod.setRail_cal (m : Mod) (r : Nat) : (m.setRail r).cal = m.cal := rfl
@[simp] theorem Mod.setRail_freeCtr (m : Mod) (r : Nat) : (m.setRail r).freeCtr = m.freeCtr := rfl
@[simp] theorem Mod.setRail_nextId (m : Mod) (r : Nat) : (m.setRail r).nextId = m.nextId := rfl

/-! ## A core's control registers -/

@[simp] theorem Core.setCreg_bank (k : Core) (a : Nat) (v : W64) : (k.setCreg a v).bank = k.bank := rfl
@[simp] theorem Core.setCreg_shadow (k : Core) (a : Nat) (v : W64) : (k.setCreg a v).shadow = k.shadow := rfl
@[simp] theorem Core.setCreg_sb (k : Core) (a : Nat) (v : W64) : (k.setCreg a v).sb = k.sb := rfl
@[simp] theorem Core.setCreg_mem (k : Core) (a : Nat) (v : W64) : (k.setCreg a v).mem = k.mem := rfl
@[simp] theorem Core.setCreg_vec (k : Core) (a : Nat) (v : W64) : (k.setCreg a v).vec = k.vec := rfl
@[simp] theorem Core.setCreg_mat (k : Core) (a : Nat) (v : W64) : (k.setCreg a v).mat = k.mat := rfl
@[simp] theorem Core.setCreg_fin (k : Core) (a : Nat) (v : W64) : (k.setCreg a v).fin = k.fin := rfl
@[simp] theorem Core.setCreg_bolt (k : Core) (a : Nat) (v : W64) : (k.setCreg a v).bolt = k.bolt := rfl
@[simp] theorem Core.setCreg_uc (k : Core) (a : Nat) (v : W64) : (k.setCreg a v).uc = k.uc := rfl
@[simp] theorem Core.setCreg_trap (k : Core) (a : Nat) (v : W64) : (k.setCreg a v).trap = k.trap := rfl
@[simp] theorem Core.setCreg_pend (k : Core) (a : Nat) (v : W64) : (k.setCreg a v).pend = k.pend := rfl
@[simp] theorem Core.setCreg_run (k : Core) (a : Nat) (v : W64) : (k.setCreg a v).run = k.run := rfl
@[simp] theorem Core.setCreg_piece (k : Core) (a : Nat) (v : W64) : (k.setCreg a v).piece = k.piece := rfl
@[simp] theorem Core.setCreg_wait (k : Core) (a : Nat) (v : W64) : (k.setCreg a v).wait = k.wait := rfl
@[simp] theorem Core.setCreg_ctlNew (k : Core) (a : Nat) (v : W64) : (k.setCreg a v).ctlNew = k.ctlNew := rfl
@[simp] theorem Core.setCregf_bank (k : Core) (a hi lo v : Nat) : (k.setCregf a hi lo v).bank = k.bank := rfl
@[simp] theorem Core.setCregf_shadow (k : Core) (a hi lo v : Nat) : (k.setCregf a hi lo v).shadow = k.shadow := rfl
@[simp] theorem Core.setCregf_sb (k : Core) (a hi lo v : Nat) : (k.setCregf a hi lo v).sb = k.sb := rfl
@[simp] theorem Core.setCregf_mem (k : Core) (a hi lo v : Nat) : (k.setCregf a hi lo v).mem = k.mem := rfl
@[simp] theorem Core.setCregf_vec (k : Core) (a hi lo v : Nat) : (k.setCregf a hi lo v).vec = k.vec := rfl
@[simp] theorem Core.setCregf_mat (k : Core) (a hi lo v : Nat) : (k.setCregf a hi lo v).mat = k.mat := rfl
@[simp] theorem Core.setCregf_fin (k : Core) (a hi lo v : Nat) : (k.setCregf a hi lo v).fin = k.fin := rfl
@[simp] theorem Core.setCregf_bolt (k : Core) (a hi lo v : Nat) : (k.setCregf a hi lo v).bolt = k.bolt := rfl
@[simp] theorem Core.setCregf_uc (k : Core) (a hi lo v : Nat) : (k.setCregf a hi lo v).uc = k.uc := rfl
@[simp] theorem Core.setCregf_trap (k : Core) (a hi lo v : Nat) : (k.setCregf a hi lo v).trap = k.trap := rfl
@[simp] theorem Core.setCregf_pend (k : Core) (a hi lo v : Nat) : (k.setCregf a hi lo v).pend = k.pend := rfl
@[simp] theorem Core.setCregf_run (k : Core) (a hi lo v : Nat) : (k.setCregf a hi lo v).run = k.run := rfl
@[simp] theorem Core.setCregf_piece (k : Core) (a hi lo v : Nat) : (k.setCregf a hi lo v).piece = k.piece := rfl
@[simp] theorem Core.setCregf_wait (k : Core) (a hi lo v : Nat) : (k.setCregf a hi lo v).wait = k.wait := rfl
@[simp] theorem Core.setCregf_ctlNew (k : Core) (a hi lo v : Nat) : (k.setCregf a hi lo v).ctlNew = k.ctlNew := rfl

/-! ## What holds a value that has just been written -/

@[simp] theorem Mod.setCore_cores (m : Mod) (c : Nat) (k : Core) : (m.setCore c k).cores = Tab.put m.cores c k := rfl
@[simp] theorem Mod.wr_bar0 (m : Mod) (a : Nat) (v : W64) : (m.wr a v).bar0 = Tab.put m.bar0 a v := rfl
@[simp] theorem State.reset_pending : State.reset.pending = [] := rfl
@[simp] theorem State.reset_m : State.reset.m = {} := rfl

end Sys2Proof.Machine
end

