-- ==== Sys2Proof/Laws/Tab.lean ====
section
/-! SUPPORT. Laws of sparse tables and byte memories: read after write, what a write leaves alone, and the canonical form that every operation
keeps. -/

namespace Sys2Proof

variable {α β : Type}

/-! ## Reads after writes -/

@[simp] theorem Tab.get?_nil (a : Nat) : Tab.get? ([] : Tab α) a = none := rfl
theorem Tab.get?_put (t : Tab α) (a b : Nat) (v : α) : Tab.get? (Tab.put t a v) b = if a = b then some v else Tab.get? t b := by
  induction t with
  | nil => rfl
  | cons p t ih =>
    obtain ⟨k, w⟩ := p
    simp only [Tab.put]
    split
    · subst k; simp only [Tab.get?]; split <;> rfl
    · split
      · simp only [Tab.get?]
      · simp only [Tab.get?, ih]
        split
        · subst k; rw [if_neg (by omega)]
        · rfl
@[simp] theorem Tab.get?_put_self (t : Tab α) (a : Nat) (v : α) : Tab.get? (Tab.put t a v) a = some v := by simp [Tab.get?_put]
@[simp] theorem Tab.get_put_self (d : α) (t : Tab α) (a : Nat) (v : α) : Tab.get d (Tab.put t a v) a = v := by simp [Tab.get]
theorem Tab.get_put (d : α) (t : Tab α) (a b : Nat) (v : α) : Tab.get d (Tab.put t a v) b = if a = b then v else Tab.get d t b := by
  simp only [Tab.get, Tab.get?_put]; split <;> rfl
theorem Tab.get_put_ne (d : α) (t : Tab α) {a b : Nat} (v : α) (h : a ≠ b) : Tab.get d (Tab.put t a v) b = Tab.get d t b := by
  simp [Tab.get_put, h]
/-- A filter on keys keeps the entries of those that it accepts. -/
theorem Tab.get?_filter (f : Nat → Bool) (t : Tab α) (b : Nat) : Tab.get? (t.filter fun p => f p.1) b = if f b then Tab.get? t b else none := by
  induction t with
  | nil => simp
  | cons p t ih =>
    obtain ⟨k, w⟩ := p
    simp only [List.filter_cons, Tab.get?]
    by_cases hk : k = b
    · subst k; cases hf : f b <;> simp [hf, Tab.get?, ih]
    · cases hf : f k <;> simp [hk, Tab.get?, ih]
theorem Tab.get?_del (t : Tab α) (a b : Nat) : Tab.get? (Tab.del t a) b = if a = b then none else Tab.get? t b := by
  have h := Tab.get?_filter (fun k => k != a) t b
  simp only [Tab.del, h]
  by_cases hab : b = a
  · simp [hab]
  · simp [hab, Ne.symm hab]
theorem Tab.get?_clear (t : Tab α) (lo hi b : Nat) : Tab.get? (Tab.clear t lo hi) b = if lo ≤ b ∧ b < hi then none else Tab.get? t b := by
  have h := Tab.get?_filter (fun k => decide (k < lo) || decide (hi ≤ k)) t b
  simp only [Tab.clear, h]
  by_cases h1 : lo ≤ b ∧ b < hi
  · rw [if_pos h1, if_neg (by simp; omega)]
  · rw [if_neg h1, if_pos (by simp; omega)]
theorem Tab.get_setD [DecidableEq α] (d : α) (t : Tab α) (a b : Nat) (v : α) : Tab.get d (Tab.setD d t a v) b = if a = b then v else Tab.get d t b := by
  unfold Tab.setD
  split
  · rename_i h; subst h; simp only [Tab.get, Tab.get?_del]; split <;> rfl
  · exact Tab.get_put d t a b v
theorem Tab.get_upd (d : α) (t : Tab α) (a b : Nat) (f : α → α) : Tab.get d (Tab.upd d t a f) b = if a = b then f (Tab.get d t a) else Tab.get d t b :=
  Tab.get_put d t a b _
theorem Tab.get?_mapV (t : Tab α) (f : Nat → α → β) (b : Nat) : Tab.get? (Tab.mapV t f) b = (Tab.get? t b).map (f b) := by
  induction t with
  | nil => rfl
  | cons p t ih =>
    obtain ⟨k, w⟩ := p
    have ih' : Tab.get? (List.map (fun p => (p.1, f p.1 p.2)) t) b = (Tab.get? t b).map (f b) := ih
    simp only [Tab.mapV, List.map_cons, Tab.get?]
    by_cases h : k = b
    · simp [h]
    · simp only [h, if_false, ih']

/-! ## Bytes of memory -/

theorem Memory.byte_setByte (t : Tab Byte) (a b : Nat) (v : Byte) : Memory.byte (Memory.setByte t a v) b = if a = b then v else Memory.byte t b :=
  Tab.get_setD 0#8 t a b v
/-- Bytes written are read again, and every other byte is as before. -/
theorem Memory.byte_setBytes (bs : List Byte) (t : Tab Byte) (a b : Nat) :
    Memory.byte (Memory.setBytes t a bs) b = if a ≤ b ∧ b < a + bs.length then bs.getD (b - a) 0 else Memory.byte t b := by
  induction bs generalizing t a with
  | nil => rw [if_neg (by simp)]; rfl
  | cons v bs ih =>
    simp only [Memory.setBytes, ih, Memory.byte_setByte, List.length_cons]
    by_cases h1 : a = b
    · subst h1; rw [if_neg (by omega), if_pos rfl, if_pos (by omega)]; simp
    · rw [if_neg h1]
      by_cases h2 : a + 1 ≤ b ∧ b < a + 1 + bs.length
      · have e : b - a = b - (a + 1) + 1 := by omega
        rw [if_pos h2, if_pos (by omega), e]; simp
      · rw [if_neg h2, if_neg (by omega)]
theorem Memory.byte_clear (t : Tab Byte) (lo hi b : Nat) : Memory.byte (Tab.clear t lo hi) b = if lo ≤ b ∧ b < hi then 0 else Memory.byte t b := by
  simp only [Memory.byte, Tab.get, Tab.get?_clear]; split <;> rfl
@[simp] theorem Memory.bytes_length (t : Tab Byte) (a n : Nat) : (Memory.bytes t a n).length = n := by
  induction n generalizing a with
  | zero => rfl
  | succ n ih => simp [Memory.bytes, ih]
theorem Memory.bytes_getD (t : Tab Byte) (a n i : Nat) (h : i < n) : (Memory.bytes t a n).getD i 0 = Memory.byte t (a + i) := by
  induction n generalizing a i with
  | zero => omega
  | succ n ih =>
    cases i with
    | zero => simp [Memory.bytes]
    | succ i =>
      have := ih (a + 1) i (by omega)
      simp only [Memory.bytes, List.getD_cons_succ, this]
      congr 1; omega
/-- What has been written is read back. -/
theorem Memory.bytes_setBytes (t : Tab Byte) (a : Nat) (bs : List Byte) : Memory.bytes (Memory.setBytes t a bs) a bs.length = bs := by
  apply List.ext_getElem (by simp)
  intro i h1 h2
  have hb := Memory.bytes_getD (Memory.setBytes t a bs) a bs.length i h2
  rw [List.getD_eq_getElem _ _ h1, Memory.byte_setBytes, if_pos (by omega)] at hb
  rw [hb, Nat.add_sub_cancel_left, List.getD_eq_getElem _ _ h2]

/-! ## The canonical form -/

/-- A bound below every key. -/
def Tab.above (a : Nat) (t : Tab α) : Prop := ∀ p, p ∈ t → a < p.1
theorem Tab.sorted_cons (k : Nat) (w : α) (t : Tab α) : Tab.sorted ((k, w) :: t) = true ↔ Tab.above k t ∧ Tab.sorted t = true := by
  simp [Tab.sorted, Tab.above, List.all_eq_true]
theorem Tab.above_put {t : Tab α} {k a : Nat} {v : α} (h : Tab.above k t) (hk : k < a) : Tab.above k (Tab.put t a v) := by
  induction t with
  | nil => intro p hp; simp only [Tab.put, List.mem_singleton] at hp; subst hp; exact hk
  | cons q t ih =>
    obtain ⟨j, w⟩ := q
    have ht : Tab.above k t := fun p hp => h p (List.mem_cons_of_mem _ hp)
    have hj : k < j := h (j, w) (List.mem_cons_self ..)
    intro p hp
    simp only [Tab.put] at hp
    split at hp
    · rcases List.mem_cons.mp hp with rfl | hp
      · exact hk
      · exact ht p hp
    · split at hp
      · rcases List.mem_cons.mp hp with rfl | hp
        · exact hk
        · exact h p hp
      · rcases List.mem_cons.mp hp with rfl | hp
        · exact hj
        · exact ih ht p hp
theorem Tab.sorted_put (t : Tab α) (a : Nat) (v : α) (h : Tab.sorted t = true) : Tab.sorted (Tab.put t a v) = true := by
  induction t with
  | nil => rfl
  | cons q t ih =>
    obtain ⟨j, w⟩ := q
    obtain ⟨h1, h2⟩ := (Tab.sorted_cons j w t).mp h
    simp only [Tab.put]
    split
    · rename_i e; subst e; exact (Tab.sorted_cons _ _ _).mpr ⟨h1, h2⟩
    · split
      · rename_i hlt
        refine (Tab.sorted_cons _ _ _).mpr ⟨?_, h⟩
        intro p hp
        rcases List.mem_cons.mp hp with rfl | hp
        · exact hlt
        · exact Nat.lt_trans hlt (h1 p hp)
      · exact (Tab.sorted_cons _ _ _).mpr ⟨Tab.above_put h1 (by omega), ih h2⟩
theorem Tab.sorted_filter (f : Nat × α → Bool) (t : Tab α) (h : Tab.sorted t = true) : Tab.sorted (t.filter f) = true := by
  induction t with
  | nil => rfl
  | cons q t ih =>
    obtain ⟨j, w⟩ := q
    obtain ⟨h1, h2⟩ := (Tab.sorted_cons j w t).mp h
    simp only [List.filter_cons]
    split
    · exact (Tab.sorted_cons _ _ _).mpr ⟨fun p hp => h1 p (List.mem_of_mem_filter hp), ih h2⟩
    · exact ih h2
theorem Memory.wf_iff (t : Tab Byte) : Memory.wf t = true ↔ Tab.sorted t = true ∧ ∀ p, p ∈ t → p.2 ≠ 0#8 := by
  simp [Memory.wf, List.all_eq_true, bne_iff_ne]
theorem Tab.mem_put {t : Tab α} {a : Nat} {v : α} {p : Nat × α} (h : p ∈ Tab.put t a v) : p = (a, v) ∨ p ∈ t := by
  induction t with
  | nil => simp only [Tab.put, List.mem_singleton] at h; exact .inl h
  | cons q t ih =>
    obtain ⟨j, w⟩ := q
    simp only [Tab.put] at h
    split at h
    · rcases List.mem_cons.mp h with h | h
      · exact .inl h
      · exact .inr (List.mem_cons_of_mem _ h)
    · split at h
      · rcases List.mem_cons.mp h with h | h
        · exact .inl h
        · exact .inr h
      · rcases List.mem_cons.mp h with h | h
        · exact .inr (h ▸ List.mem_cons_self ..)
        · rcases ih h with h | h
          · exact .inl h
          · exact .inr (List.mem_cons_of_mem _ h)
theorem Memory.wf_filter (f : Nat × Byte → Bool) (t : Tab Byte) (h : Memory.wf t = true) : Memory.wf (t.filter f) = true := by
  obtain ⟨h1, h2⟩ := (Memory.wf_iff t).mp h
  exact (Memory.wf_iff _).mpr ⟨Tab.sorted_filter f t h1, fun p hp => h2 p (List.mem_of_mem_filter hp)⟩
theorem Memory.wf_setByte (t : Tab Byte) (a : Nat) (v : Byte) (h : Memory.wf t = true) : Memory.wf (Memory.setByte t a v) = true := by
  obtain ⟨h1, h2⟩ := (Memory.wf_iff t).mp h
  unfold Memory.setByte Tab.setD
  split
  · exact Memory.wf_filter _ t h
  · rename_i hv
    refine (Memory.wf_iff _).mpr ⟨Tab.sorted_put t a v h1, fun p hp => ?_⟩
    rcases Tab.mem_put hp with rfl | hp
    · exact hv
    · exact h2 p hp
theorem Memory.wf_setBytes (bs : List Byte) (t : Tab Byte) (a : Nat) (h : Memory.wf t = true) : Memory.wf (Memory.setBytes t a bs) = true := by
  induction bs generalizing t a with
  | nil => exact h
  | cons v bs ih => exact ih _ _ (Memory.wf_setByte t a v h)
theorem Memory.wf_clear (t : Tab Byte) (lo hi : Nat) (h : Memory.wf t = true) : Memory.wf (Tab.clear t lo hi) = true := Memory.wf_filter _ t h

namespace Machine

/-- Scratch that moves within its window keeps the form. -/
theorem wf_moveKeys (t : Tab Byte) (lo hi top : Nat) (d : Int) (ht : top ≤ hi) (h : Memory.wf t = true) : Memory.wf (moveKeys t lo hi top d) = true := by
  obtain ⟨h1, h2⟩ := (Memory.wf_iff t).mp h
  have img : ∀ (t : Tab Byte) (p : Nat × Byte), p ∈ moveKeys t lo hi top d → ∃ q, q ∈ t ∧ q.2 = p.2 ∧
      ((lo ≤ q.1 ∧ q.1 < hi ∧ (p.1 : Int) = q.1 + d ∧ lo ≤ p.1 ∧ p.1 < top) ∨ (¬(lo ≤ q.1 ∧ q.1 < hi) ∧ p.1 = q.1)) := by
    intro t p hp
    obtain ⟨q, hq, he⟩ := List.mem_filterMap.mp hp
    refine ⟨q, hq, ?_⟩
    split at he
    · simp only at he
      split at he
      · rename_i h3 h4
        simp only [Option.some.injEq] at he
        subst he
        refine ⟨rfl, .inl ⟨h3.1, h3.2, ?_, ?_, ?_⟩⟩ <;> simp only <;> omega
      · exact absurd he (by simp)
    · rename_i h3
      simp only [Option.some.injEq] at he
      subst he
      exact ⟨rfl, .inr ⟨h3, rfl⟩⟩
  refine (Memory.wf_iff _).mpr ⟨?_, fun p hp => ?_⟩
  · clear h h2
    induction t with
    | nil => rfl
    | cons q t ih =>
      obtain ⟨j, w⟩ := q
      obtain ⟨a1, a2⟩ := (Tab.sorted_cons j w t).mp h1
      have ih := ih a2
      have e : moveKeys ((j, w) :: t) lo hi top d =
          match (if lo ≤ j ∧ j < hi then (let k := (j : Int) + d; if (lo : Int) ≤ k ∧ k < (top : Int) then some (k.toNat, w) else none) else some (j, w)) with
          | some x => x :: moveKeys t lo hi top d
          | none => moveKeys t lo hi top d := by
        simp only [moveKeys, List.filterMap_cons]
        split <;> split <;> simp_all
      rw [e]
      split
      · rename_i x hx
        obtain ⟨k, v⟩ := x
        refine (Tab.sorted_cons _ _ _).mpr ⟨fun p hp => ?_, ih⟩
        obtain ⟨q, hq, -, hc⟩ := img t p hp
        have hlt : j < q.1 := a1 q hq
        split at hx
        · simp only at hx
          split at hx
          · simp only [Option.some.injEq, Prod.mk.injEq] at hx
            rcases hc with hc | hc <;> omega
          · exact absurd hx (by simp)
        · simp only [Option.some.injEq, Prod.mk.injEq] at hx
          rcases hc with hc | hc <;> omega
      · exact ih
  · obtain ⟨q, hq, e, -⟩ := img t p hp
    exact e ▸ h2 q hq
/-- The reset memory has the form. -/
theorem reset_mem_wf : Memory.wf State.reset.m.mem = true := rfl

end Machine

end Sys2Proof
end

