-- ==== Sys2Proof/Laws/Ops.lean ====
section
/-! SUPPORT. Laws of the shared operations: what a core, a register, a count, an event and a write to memory change, and what they leave alone. -/

namespace Sys2Proof.Machine

/-! ## Cores -/

@[simp] theorem Mod.core_setCore_self (m : Mod) (c : Nat) (k : Core) : (m.setCore c k).core c = k := Tab.get_put_self _ _ _ _
theorem Mod.core_setCore (m : Mod) (c d : Nat) (k : Core) : (m.setCore c k).core d = if c = d then k else m.core d := Tab.get_put _ _ _ _ _
theorem Mod.core_setCore_ne (m : Mod) {c d : Nat} (k : Core) (h : d ≠ c) : (m.setCore c k).core d = m.core d := Tab.get_put_ne _ _ _ (Ne.symm h)
@[simp] theorem Mod.core_updCore_self (m : Mod) (c : Nat) (f : Core → Core) : (m.updCore c f).core c = f (m.core c) := Mod.core_setCore_self _ _ _
theorem Mod.core_updCore_ne (m : Mod) {c d : Nat} (f : Core → Core) (h : d ≠ c) : (m.updCore c f).core d = m.core d := Mod.core_setCore_ne _ _ h
/-- A core's control register after a write of one. -/
theorem Core.creg_setCreg (k : Core) (a b : Nat) (v : W64) : (k.setCreg a v).creg b = if a = b then v else k.creg b := by
  simp only [Core.creg, Core.setCreg, regVal, Tab.get?_put]; split <;> rfl
@[simp] theorem Core.creg_setCreg_self (k : Core) (a : Nat) (v : W64) : (k.setCreg a v).creg a = v := by simp [Core.creg_setCreg]
theorem Core.cregf_setCregf_self (k : Core) (a hi lo v : Nat) (h : hi < 64) : (k.setCregf a hi lo v).cregf a hi lo = v % 2 ^ (hi + 1 - lo) := by
  simp only [Core.cregf, Core.setCregf, Core.creg_setCreg_self]; exact fld_setFld _ _ _ _ h
/-- A 48-bit count of the control space goes up by what is added, and wraps. -/
theorem Core.cregf_incCregBy (k : Core) (a n : Nat) : (k.incCregBy a n).cregf a 47 0 = (k.cregf a 47 0 + n) % 2 ^ 48 :=
  Core.cregf_setCregf_self _ _ _ _ _ (by decide)
theorem Core.creg_incCregBy_ne (k : Core) {a b : Nat} (n : Nat) (h : b ≠ a) : (k.incCregBy a n).creg b = k.creg b := by
  simp [Core.incCregBy, Core.setCregf, Core.creg_setCreg, Ne.symm h]
/-- Counting at a core's own counter is `counted`. -/
theorem Mod.counted_updCore (m : Mod) (c : CoreId) (reg n : Nat) : m.counted (m.updCore c.val (·.incCregBy reg n)) c reg n := by
  unfold Mod.counted; rw [Mod.core_updCore_self]; exact Core.cregf_incCregBy _ _ _

/-! ## BAR0 registers -/

theorem Mod.rd_wr (m : Mod) (a b : Nat) (v : W64) : (m.wr a v).rd b = if a = b then v else m.rd b := by
  simp only [Mod.rd, Mod.wr, barVal, regVal, Tab.get?_put]; split <;> rfl
@[simp] theorem Mod.rd_wr_self (m : Mod) (a : Nat) (v : W64) : (m.wr a v).rd a = v := by simp [Mod.rd_wr]
theorem Mod.rd_wr_ne (m : Mod) {a b : Nat} (v : W64) (h : b ≠ a) : (m.wr a v).rd b = m.rd b := by simp [Mod.rd_wr, Ne.symm h]
theorem Mod.rd_wrf_ne (m : Mod) {a b : Nat} (hi lo v : Nat) (h : b ≠ a) : (m.wrf a hi lo v).rd b = m.rd b := Mod.rd_wr_ne _ _ h
theorem Mod.rdf_wrf_self (m : Mod) (a hi lo v : Nat) (h : hi < 64) : (m.wrf a hi lo v).rdf a hi lo = v % 2 ^ (hi + 1 - lo) := by
  simp only [Mod.rdf, Mod.wrf, Mod.rd_wr_self]; exact fld_setFld _ _ _ _ h
theorem Mod.rdf_wrf_apart (m : Mod) (a hi lo v hi' lo' : Nat) (h : hi' < 64) (hd : hi' < lo ∨ hi < lo') :
    (m.wrf a hi lo v).rdf a hi' lo' = m.rdf a hi' lo' := by
  simp only [Mod.rdf, Mod.wrf, Mod.rd_wr_self]; exact fld_setFld_apart _ _ _ _ _ _ h hd
theorem Mod.rdf_wrf_ne (m : Mod) {a b : Nat} (hi lo v hi' lo' : Nat) (h : b ≠ a) : (m.wrf a hi lo v).rdf b hi' lo' = m.rdf b hi' lo' := by
  simp only [Mod.rdf, Mod.rd_wrf_ne _ _ _ _ h]
/-- A raised bit stands. -/
theorem Mod.rdf_raise_self (m : Mod) (a i : Nat) (h : i < 64) : (m.raise a i).rdf a i i = 1 := by
  rw [Mod.raise, Mod.rdf_wrf_self _ _ _ _ _ h]; simp
/-- Raising one bit leaves every other bit of the register. -/
theorem Mod.rdf_raise_apart (m : Mod) (a i j : Nat) (h : j < 64) (hd : j ≠ i) : (m.raise a i).rdf a j j = m.rdf a j j :=
  Mod.rdf_wrf_apart _ _ _ _ _ _ _ h (by omega)
theorem Mod.tallied_incBy (m : Mod) (a n : Nat) : m.tallied (m.incBy a n) a n := Mod.rdf_wrf_self _ _ _ _ _ (by decide)
theorem Mod.tallied_inc (m : Mod) (a : Nat) : m.tallied (m.inc a) a 1 := Mod.tallied_incBy _ _ _
theorem Mod.rd_incBy_ne (m : Mod) {a b : Nat} (n : Nat) (h : b ≠ a) : (m.incBy a n).rd b = m.rd b := Mod.rd_wrf_ne _ _ _ _ h

/-! ## Partitions, host ports, links, groups, entries of the seam, sideband words -/

theorem Mod.part_updPart (m : Mod) (p q : Nat) (f : Part → Part) : (m.updPart p f).part q = if p = q then f (m.part p) else m.part q :=
  Tab.get_put _ _ _ _ _
theorem Mod.host_updHost (m : Mod) (h g : Nat) (f : HostPort → HostPort) : (m.updHost h f).host g = if h = g then f (m.host h) else m.host g :=
  Tab.get_put _ _ _ _ _
/-- What is sent to a host comes after what is under way to it. -/
theorem Mod.out_toHost (m : Mod) (h : Nat) (x : HostOut) : ((m.toHost h x).host h).out = (m.host h).out ++ [x] := by
  simp [Mod.toHost, Mod.host_updHost]
theorem Mod.grp_updGrp (m : Mod) (g d : Nat) (f : CollGroup → CollGroup) : (m.updGrp g f).grp d = if g = d then f (m.grp g) else m.grp d :=
  Tab.get_put _ _ _ _ _
theorem Mod.sbWord_setSb (m : Mod) (i j v : Nat) : (m.setSb i v).sbWord j = if i = j then v % 2 ^ 32 else m.sbWord j := Tab.get_put _ _ _ _ _

/-! ## Selectable counters -/

/-- What an event at a selectable counter leaves alone: everything but BAR0's registers, and of those every one but the counter and its selector. -/
structure Mod.onlyBar (m t : Mod) : Prop where
  rest : { t with bar0 := m.bar0 } = m

theorem Mod.onlyBar_refl (m : Mod) : m.onlyBar m := ⟨rfl⟩
theorem Mod.onlyBar_trans {m t u : Mod} (h : m.onlyBar t) (g : t.onlyBar u) : m.onlyBar u := by
  obtain ⟨h⟩ := h; obtain ⟨g⟩ := g
  constructor
  calc ({ u with bar0 := m.bar0 } : Mod) = { ({ u with bar0 := t.bar0 } : Mod) with bar0 := m.bar0 } := rfl
    _ = { t with bar0 := m.bar0 } := by rw [g]
    _ = m := h
theorem Mod.onlyBar_wr (m : Mod) (a : Nat) (v : W64) : m.onlyBar (m.wr a v) := ⟨rfl⟩
theorem Mod.onlyBar_wrf (m : Mod) (a hi lo v : Nat) : m.onlyBar (m.wrf a hi lo v) := ⟨rfl⟩
theorem Mod.onlyBar_incBy (m : Mod) (a n : Nat) : m.onlyBar (m.incBy a n) := ⟨rfl⟩
theorem Mod.onlyBar_ev1 (m : Mod) (sel cnt code n : Nat) (filt : Option Nat) : m.onlyBar (m.ev1 sel cnt code n filt) := by
  simp only [Mod.ev1]; repeat' split
  all_goals exact ⟨rfl⟩
/-- An event at one counter leaves every register but the counter and its selector. -/
theorem Mod.rd_ev1 (m : Mod) (sel cnt code n b : Nat) (filt : Option Nat) (h1 : b ≠ sel) (h2 : b ≠ cnt) :
    (m.ev1 sel cnt code n filt).rd b = m.rd b := by
  simp only [Mod.ev1]; repeat' split
  all_goals simp only [Mod.rd_wrf_ne _ _ _ _ h2, Mod.rd_wr_ne _ _ h1]
/-- A fold of steps each of which keeps a relation that is reflexive and transitive keeps it. -/
theorem foldl_keeps {α β : Type} (R : α → α → Prop) (hr : ∀ m, R m m) (ht : ∀ {a b c}, R a b → R b c → R a c) (f : α → β → α)
    (h : ∀ m i, R m (f m i)) (xs : List β) (m : α) : R m (xs.foldl f m) := by
  induction xs generalizing m with
  | nil => exact hr m
  | cons x xs ih => exact ht (h m x) (ih _)
theorem Mod.onlyBar_evAt (m : Mod) (base num cntOff code n : Nat) (filt : Option Nat) : m.onlyBar (m.evAt base num cntOff code n filt) :=
  foldl_keeps Mod.onlyBar Mod.onlyBar_refl Mod.onlyBar_trans _ (fun _ _ => Mod.onlyBar_ev1 _ _ _ _ _ _) _ _
theorem Mod.rd_evAt (m : Mod) (base num cntOff code n b : Nat) (filt : Option Nat) (h : b < base) : (m.evAt base num cntOff code n filt).rd b = m.rd b :=
  foldl_keeps (fun m t : Mod => t.rd b = m.rd b) (fun _ => rfl) (fun h g => g.trans h) _
    (fun _ _ => Mod.rd_ev1 _ _ _ _ _ _ _ (by omega) (by omega)) _ _
/-- Events of a core change nothing but selectable counters, which lie in the MON_ block. -/
theorem Mod.onlyBar_evCore (m : Mod) (c code n : Nat) : m.onlyBar (m.evCore c code n) := by
  simp only [Mod.evCore]; split
  · exact Mod.onlyBar_evAt _ _ _ _ _ _ _
  · exact ⟨rfl⟩
theorem Mod.rd_evCore (m : Mod) (c code n b : Nat) (h : b < bMON) : (m.evCore c code n).rd b = m.rd b := by
  simp only [Mod.evCore]; split
  · exact Mod.rd_evAt _ _ _ _ _ _ _ _ (by omega)
  · rfl
theorem Mod.onlyBar_evPanel (m : Mod) (p code n : Nat) (filt : Option Nat) : m.onlyBar (m.evPanel p code n filt) := Mod.onlyBar_evAt _ _ _ _ _ _ _
theorem Mod.rd_evPanel (m : Mod) (p code n b : Nat) (filt : Option Nat) (h : b < bMON) : (m.evPanel p code n filt).rd b = m.rd b :=
  Mod.rd_evAt _ _ _ _ _ _ _ _ (by omega)
theorem Mod.onlyBar_evSpool (m : Mod) (p code n : Nat) (filt : Option Nat) : m.onlyBar (m.evSpool p code n filt) := Mod.onlyBar_evAt _ _ _ _ _ _ _
theorem Mod.rd_evSpool (m : Mod) (p code n b : Nat) (filt : Option Nat) (h : b < bMON) : (m.evSpool p code n filt).rd b = m.rd b :=
  Mod.rd_evAt _ _ _ _ _ _ _ _ (by omega)
theorem Mod.onlyBar_evPort (m : Mod) (p code n : Nat) (filt : Option Nat) : m.onlyBar (m.evPort p code n filt) := Mod.onlyBar_evAt _ _ _ _ _ _ _
theorem Mod.rd_evPort (m : Mod) (p code n b : Nat) (filt : Option Nat) (h : b < bMON) : (m.evPort p code n filt).rd b = m.rd b :=
  Mod.rd_evAt _ _ _ _ _ _ _ _ (by omega)
/-- Whatever changes BAR0 alone leaves the cores, memory and its tags and poison, the partitions, fuses and power. -/
theorem Mod.onlyBar_fields {m t : Mod} (h : m.onlyBar t) :
    t.cores = m.cores ∧ t.mem = m.mem ∧ t.tags = m.tags ∧ t.poison = m.poison ∧ t.parts = m.parts ∧ t.nv = m.nv ∧ t.pwr = m.pwr ∧ t.hosts = m.hosts := by
  obtain ⟨h⟩ := h
  refine ⟨?_, ?_, ?_, ?_, ?_, ?_, ?_, ?_⟩ <;> rw [← h]
/-- A change of BAR0 alone, below MON_ of nothing, stays apart from what no core's pipeline touches. -/
theorem Mod.apart_of_onlyBar {m t : Mod} (c : CoreId) (h : m.onlyBar t) (hr : ∀ b, b < bMON → t.rd b = m.rd b) : m.apart t c := by
  obtain ⟨h1, h2, h3, h4, h5, h6, h7, _⟩ := Mod.onlyBar_fields h
  refine ⟨fun d _ => ?_, fun a => ?_, fun a => ?_, h4, h5, h6, h7, hr⟩
  · simp only [Mod.core, h1]
  · rw [h2]
  · simp only [Mod.tagAt, h3]
theorem Mod.apart_evCore (m : Mod) (c : CoreId) (d code n : Nat) : m.apart (m.evCore d code n) c :=
  Mod.apart_of_onlyBar c (Mod.onlyBar_evCore _ _ _ _) fun _ => Mod.rd_evCore _ _ _ _ _
theorem Mod.apart_refl (m : Mod) (c : CoreId) : m.apart m c := ⟨fun _ _ => rfl, fun _ => rfl, fun _ => rfl, rfl, rfl, rfl, rfl, fun _ _ => rfl⟩
theorem Mod.apart_trans {m t u : Mod} {c : CoreId} (h : m.apart t c) (g : t.apart u c) : m.apart u c := by
  obtain ⟨h1, h2, h3, h4, h5, h6, h7, h8⟩ := h
  obtain ⟨g1, g2, g3, g4, g5, g6, g7, g8⟩ := g
  exact ⟨fun d hd => (g1 d hd).trans (h1 d hd), fun a => (g2 a).trans (h2 a), fun a => (g3 a).trans (h3 a), g4.trans h4, g5.trans h5, g6.trans h6,
    g7.trans h7, fun a ha => (g8 a ha).trans (h8 a ha)⟩
theorem Mod.apart_setCore (m : Mod) (c : CoreId) (k : Core) : m.apart (m.setCore c.val k) c :=
  ⟨fun _ hd => Mod.core_setCore_ne _ _ hd, fun _ => rfl, fun _ => rfl, rfl, rfl, rfl, rfl, fun _ _ => rfl⟩

/-! ## Writes to memory -/

theorem Mod.cleanLines_mem (m : Mod) (pa n : Nat) : (m.cleanLines pa n).mem = m.mem := by simp only [Mod.cleanLines]; split <;> rfl
theorem Mod.clearTags_mem (m : Mod) (pa n : Nat) : (m.clearTags pa n).mem = m.mem := by simp only [Mod.clearTags]; split <;> rfl
/-- A write outside every fenced spool stores its bytes and leaves every other byte. -/
theorem Mod.wrote_wrMem (m : Mod) (pa : Nat) (bs : List Byte) (h : m.rangeFenced pa bs.length = false) : m.wrote (m.wrMem pa bs) pa bs := by
  intro a
  simp only [Mod.wrMem, h, Bool.false_eq_true, if_false, Mod.cleanLines_mem, Mod.clearTags_mem]
  exact Memory.byte_setBytes _ _ _ _
/-- What it wrote is what is read back. -/
theorem Mod.rdMem_wrMem (m : Mod) (pa : Nat) (bs : List Byte) (h : m.rangeFenced pa bs.length = false) : (m.wrMem pa bs).rdMem pa bs.length = bs := by
  simp only [Mod.rdMem, Mod.wrMem, h, Bool.false_eq_true, if_false, Mod.cleanLines_mem, Mod.clearTags_mem]
  exact Memory.bytes_setBytes _ _ _
/-- A write keeps memory's canonical form, fenced or not. -/
theorem Mod.wf_wrLine (m : Mod) (pa : Nat) (bs : List Byte) (h : Memory.wf m.mem = true) : Memory.wf (m.wrLine pa bs).mem = true := by
  simp only [Mod.wrLine]; split
  · exact h
  · rw [Mod.cleanLines_mem, Mod.clearTags_mem]; exact Memory.wf_setBytes _ _ _ h
theorem Mod.wf_wrLines (f : Nat → Nat) (g : Nat → List Byte) (xs : List Nat) (m : Mod) (h : Memory.wf m.mem = true) :
    Memory.wf (xs.foldl (fun (m : Mod) i => m.wrLine (f i) (g i)) m).mem = true := by
  induction xs generalizing m with
  | nil => rw [List.foldl_nil]; exact h
  | cons x xs ih => rw [List.foldl_cons]; apply ih; apply Mod.wf_wrLine; exact h
theorem Mod.wf_wrMem (m : Mod) (pa : Nat) (bs : List Byte) (h : Memory.wf m.mem = true) : Memory.wf (m.wrMem pa bs).mem = true := by
  unfold Mod.wrMem
  dsimp only
  split
  · apply Mod.wf_wrLines; exact h
  · rw [Mod.cleanLines_mem, Mod.clearTags_mem]; exact Memory.wf_setBytes _ _ _ h
theorem Mod.wf_wrCap (m : Mod) (pa : Nat) (c : Cap) (h : Memory.wf m.mem = true) : Memory.wf (m.wrCap pa c).mem = true := Mod.wf_wrMem m pa _ h
/-- The tag of the granule a cap was written to is the cap's. -/
theorem Mod.tagAt_wrCap (m : Mod) (pa : Nat) (c : Cap) : (m.wrCap pa c).tagAt pa = c.tag := by
  simp only [Mod.tagAt, Mod.wrCap]; rw [Tab.get_setD]; exact if_pos rfl

end Sys2Proof.Machine
end

