-- ==== Sys2Proof/Laws/Fetch.lean ====
section
/-! SUPPORT. What a translation and a fetch change: the core's own caches and TLBs, the panel's shared TLB, event counters; nothing else. -/

namespace Sys2Proof.Machine

/-- A computation that binds and answers has answered at either part. -/
theorem bind_ok {ε α β : Type} {x : Except ε α} {f : α → Except ε β} {b : β} (h : (x >>= f) = .ok b) : ∃ a, x = .ok a ∧ f a = .ok b := by
  cases x with
  | error e => cases h
  | ok a => exact ⟨a, rfl, h⟩

/-- Only what holds copies has changed: of core `c` its caches and TLBs, and what `apart` leaves out, of which coherence stays. -/
def Mod.cachesOnly (m t : Mod) (c : CoreId) : Prop :=
  { t.core c.val with mem := (m.core c.val).mem } = m.core c.val ∧ m.apart t c ∧ t.coh = m.coh

theorem Mod.cachesOnly_refl (m : Mod) (c : CoreId) : m.cachesOnly m c := ⟨rfl, Mod.apart_refl m c, rfl⟩
theorem Mod.cachesOnly_trans {m t u : Mod} {c : CoreId} (h : m.cachesOnly t c) (g : t.cachesOnly u c) : m.cachesOnly u c := by
  refine ⟨?_, Mod.apart_trans h.2.1 g.2.1, g.2.2.trans h.2.2⟩
  rw [← h.1, ← g.1]
theorem Mod.cachesOnly_updMem (m : Mod) (c : CoreId) (f : CoreMem → CoreMem) : m.cachesOnly (m.updMem c.val f) c := by
  refine ⟨?_, Mod.apart_setCore m c _, rfl⟩
  rw [Mod.updMem, Mod.core_updCore_self]
theorem Mod.cachesOnly_l1Install (m : Mod) (c : CoreId) (l : Leaf) : m.cachesOnly (m.l1Install c.val l) c := Mod.cachesOnly_updMem m c _
theorem Mod.cachesOnly_stlbInstall (m : Mod) (c : CoreId) (panel : Nat) (l : Leaf) : m.cachesOnly (m.stlbInstall panel l) c := by
  simp only [Mod.stlbInstall]; split <;> exact Mod.cachesOnly_refl m c
theorem Mod.cachesOnly_evCore (m : Mod) (c : CoreId) (d code n : Nat) : m.cachesOnly (m.evCore d code n) c := by
  refine ⟨?_, Mod.apart_evCore m c d code n, ?_⟩
  · have h := (Mod.onlyBar_fields (Mod.onlyBar_evCore m d code n)).1
    simp only [Mod.core, h]
  · have g : ({ m.evCore d code n with bar0 := m.bar0 } : Mod).coh = m.coh := by rw [(Mod.onlyBar_evCore m d code n).rest]
    exact g
/-- Where no error waits an access meets none. -/
theorem Mod.meetErr_none (m : Mod) (array c la : Nat) (h : m.coh.upsets = []) : m.meetErr array c la = m := by
  unfold Mod.meetErr; simp [h]
/-- A fill for a fetch asks a spool, and no more. -/
theorem Mod.cachesOnly_fillFetch (m : Mod) (c : CoreId) (d la : Nat) : m.cachesOnly (m.fillFetch d la) c := by
  unfold Mod.fillFetch; split <;> exact Mod.cachesOnly_refl m c
/-- A translation that answers a place has changed copies alone. -/
theorem Mod.xlat_keeps {m t : Mod} {c : CoreId} {pg : Bool} {acc : Acc} {va n : Nat} {p : Place} (h : m.xlat c.val pg acc va n = .ok (p, t)) :
    m.cachesOnly t c := by
  unfold Mod.xlat at h
  split at h
  · cases hf : m.fitterPlace acc va with
    | error e => rw [hf] at h; cases h
    | ok q => rw [hf] at h; cases h; exact Mod.cachesOnly_refl m c
  · split at h
    · cases h
    · split at h
      · obtain ⟨q, _, hq⟩ := bind_ok h
        cases hq; exact Mod.cachesOnly_l1Install m c _
      · split at h
        · obtain ⟨q, _, hq⟩ := bind_ok h
          cases hq
          exact Mod.cachesOnly_trans (Mod.cachesOnly_stlbInstall m c _ _) (Mod.cachesOnly_trans (Mod.cachesOnly_l1Install _ c _) (Mod.cachesOnly_evCore _ c _ _ _))
        · cases h
/-- A fetch that passes its checks, where no error waits, has changed copies alone. -/
theorem Mod.fetch_keeps {m t : Mod} {c : CoreId} (hu : m.coh.upsets = []) (h : m.fetch c.val = .ok t) : m.cachesOnly t c := by
  unfold Mod.fetch at h
  obtain ⟨_, _, h⟩ := bind_ok h
  split at h
  · cases h
  · split at h
    · cases h
    · obtain ⟨⟨p, m1⟩, hx, h⟩ := bind_ok h
      have k := Mod.xlat_keeps hx
      cases p with
      | loc pa =>
        cases h
        rw [Mod.meetErr_none _ _ _ _ (by rw [k.2.2]; exact hu)]
        exact Mod.cachesOnly_trans k (Mod.cachesOnly_trans (Mod.cachesOnly_fillFetch _ c _ _) (Mod.cachesOnly_updMem _ c _))
      | remote dev win off => cases h
      | ctl x => cases h

end Sys2Proof.Machine
end

