-- ==== Sys2Proof/Laws/Flit.lean ====
section
/-! SUPPORT. A flit as it is put on the line passes the check of its receiver (R446, R448). -/

namespace Sys2Proof.Machine

open Sys2Proof

@[simp] theorem FlitHdr.bytes_length (h : FlitHdr) : h.bytes.length = 16 := by simp [FlitHdr.bytes]
@[simp] theorem flitBytes_length (h : FlitHdr) (pay : List Byte) : (flitBytes h pay).length = 640 := by simp [flitBytes]
/-- The CRC that a flit carries is the one that its receiver computes. -/
theorem flitBytes_crc (h : FlitHdr) (pay : List Byte) : ofLe ((flitBytes h pay).drop 632) = crc64 ((flitBytes h pay).take 632) := by
  have hl : (h.bytes ++ padTo 616 pay).length = 632 := by simp
  simp only [flitBytes, List.drop_left' hl, List.take_left' hl]
  exact ofLe_toLe 8 _ (crc64_lt _)
/-- Only the header is read of a flit's first bytes. -/
theorem readHdr_flitBytes (h : FlitHdr) (pay : List Byte) : readHdr (flitBytes h pay) = readHdr h.bytes := by
  have e : ∀ i, i < 4 → (((flitBytes h pay).drop (4 * i)).take 4) = ((h.bytes.drop (4 * i)).take 4) := by
    intro i hi
    have hl : h.bytes.length = 16 := by simp
    rw [flitBytes, List.append_assoc, List.drop_append_of_le_length (by omega), List.take_append_of_le_length (by simp; omega)]
  simp only [readHdr, e 0 (by decide), e 1 (by decide), e 2 (by decide), e 3 (by decide)]
/-- The receiver's check of such a flit: counted, and its header taken. -/
theorem flitCheck_flitBytes (m : Mod) (l : Nat) (h : FlitHdr) (pay : List Byte) :
    m.flitCheck l 0 (flitBytes h pay) = (some (readHdr h.bytes), (m.pcnt l 1 1).takeHeader l (readHdr h.bytes)) := by
  simp [Mod.flitCheck, Mod.flitGood, flitBytes_crc, readHdr_flitBytes]

end Sys2Proof.Machine
end

