-- ==== Sys2Proof/Laws/Issue.lean ====
section
/-! SUPPORT. Issue and retirement once for every instruction that goes on at the next word. -/

namespace Sys2Proof.Machine

theorem Core.keeps_refl (k : Core) : k.keeps k := ⟨rfl, rfl, rfl, rfl, rfl, rfl, rfl, rfl, rfl, rfl⟩
theorem Core.keeps_trans {k q r : Core} (h : k.keeps q) (g : q.keeps r) : k.keeps r := by
  obtain ⟨h1, h2, h3, h4, h5, h6, h7, h8, h9, h10⟩ := h
  obtain ⟨g1, g2, g3, g4, g5, g6, g7, g8, g9, g10⟩ := g
  exact ⟨g1.trans h1, g2.trans h2, g3.trans h3, g4.trans h4, g5.trans h5, g6.trans h6, g7.trans h7, g8.trans h8, g9.trans h9, g10.trans h10⟩
/-- A fetch leaves the active bank, the store buffer, and every register. -/
theorem Mod.fetch_core {m t : Mod} {c : CoreId} (hu : m.coh.upsets = []) (h : m.fetch c.val = .ok t) :
    (t.core c).bank = (m.core c).bank ∧ (t.core c).sb = (m.core c).sb ∧ (t.core c).refused = (m.core c).refused ∧ (m.core c).keeps (t.core c) := by
  have e := (Mod.fetch_keeps hu h).1
  have q : ∀ {α : Type} (f : Core → α), (∀ k m, f { k with mem := m } = f k) → f (t.core c) = f (m.core c) := fun f hf => by rw [← e]; exact (hf _ _).symm
  exact ⟨q (·.bank) fun _ _ => rfl, q (·.sb) fun _ _ => rfl, q (·.refused) fun _ _ => rfl, q (·.ctl) fun _ _ => rfl, q (·.ctlNew) fun _ _ => rfl,
    q (·.bolt) fun _ _ => rfl, q (·.vec.plain) fun _ _ => rfl, q (·.mat) fun _ _ => rfl, q (·.fin) fun _ _ => rfl, q (·.shadow) fun _ _ => rfl,
    q (·.trap) fun _ _ => rfl, q (·.pend) fun _ _ => rfl, q (·.uc) fun _ _ => rfl⟩
/-- The notes by which loads are undone may change, or be dropped: the rest of the vector unit is as it was. -/
theorem Core.plain_beginBody (k : Core) : k.beginBody.vec.plain = k.vec.plain := by
  simp only [Core.beginBody, VecUnit.plain, List.map_map]
  congr 1
  refine List.map_congr_left fun s _ => ?_
  simp only [Function.comp_apply]; split <;> rfl
theorem Core.plain_stampUndo (k : Core) (old : Option LoadRec) : (k.stampUndo old).vec.plain = k.vec.plain := by
  simp only [Core.stampUndo, VecUnit.plain, List.map_map]
  congr 1
  refine List.map_congr_left fun s _ => ?_
  simp only [Function.comp_apply]; split <;> rfl
/-- What events of a core leave of the cores: all. -/
theorem Mod.core_evCore (m : Mod) (c code n d : Nat) : (m.evCore c code n).core d = m.core d := by
  have h := (Mod.onlyBar_fields (Mod.onlyBar_evCore m c code n)).1
  simp only [Mod.core, h]
/-- The core after its instruction has gone on at the next word. -/
def Core.wentOn (k : Core) (st : Nat) : Core :=
  { k with bank := { k.bank with pc := w64 (k.bank.pc.toNat + 4) }, stitches := k.stitches + st, wait := .none, rbuf := [], mid := false, resumed := false }
/-- Retirement at the next word, with no loop, no load pending and no refused write to report: the pc moves on, and the rest of the bank, the store
buffer, the registers, and what lies apart from the core stay. -/
theorem Mod.retire_next (m : Mod) (c : CoreId) (st : Nat) (hl : (m.core c).bank.loop = none) (hr : (m.core c).refused = []) :
    ∃ t, m.retire c.val none .next st = .ok t ∧ t.core c.val = (m.core c.val).wentOn st ∧ m.apart t c := by
  have e : m.stepPc c.val (m.core c).bank.pc.toNat = .ok (m.updBank c fun b => { b with pc := w64 ((m.core c).bank.pc.toNat + 4) }) := by
    unfold Mod.stepPc; rw [hl]
  have key : ∀ x : Mod, x.core c.val = (m.core c.val).wentOn st → m.apart x c →
      ∃ t, (Except.ok (((if (x.core c).ctlNew.isEmpty then x else { x with freeCtr := x.freeCtr + 1 }).evCore c 0x01 st).evCore c 0x02 1) : Ex Mod) = .ok t ∧
        t.core c.val = (m.core c.val).wentOn st ∧ m.apart t c := by
    intro x hx ha
    refine ⟨_, rfl, ?_, ?_⟩
    · rw [Mod.core_evCore, Mod.core_evCore]; split <;> exact hx
    · refine Mod.apart_trans (Mod.apart_trans ?_ (Mod.apart_evCore _ c _ _ _)) (Mod.apart_evCore _ c _ _ _)
      split <;> exact ha
  unfold Mod.retire
  dsimp only
  rw [e]
  refine key _ ?_ ?_
  · rw [Mod.core_updCore_self, Mod.updBank, Mod.core_updCore_self]
    simp only [Core.wentOn, hr, List.isEmpty_nil, if_true]
    rfl
  · exact Mod.apart_trans (Mod.apart_setCore m c _) (Mod.apart_setCore _ c _)
/-- An instruction whose body has changed the active bank of a core that stands ready, and nothing else but caches and TLBs and the notes by which
loads are undone, and goes on at the next word: what `went` says of it, whatever the body did to the bank beside the pc. -/
theorem Mod.issue_next {m m1 m2 : Mod} {c : CoreId} {major func st : Nat} {body : Mod → Body} {g : Bank → Bank} (hi : m.canIssue c.val = true)
    (hf : m.fetch c.val = .ok m1) (hld : (m.core c).bank.load = none) (hr : (m.core c).refused = []) (hm : c.val = 256 → fitterMajor major = true)
    (hb : body (m1.updCore c.val Core.beginBody) = .ok (m2, .next, st))
    (hk : { m2.core c.val with mem := (m.core c.val).mem, vec := (m.core c.val).vec } = { m.core c.val with bank := g (m.core c.val).bank })
    (hv : (m2.core c.val).vec.plain = (m.core c.val).vec.plain) (ha : m.apart m2 c) (hl : (g (m.core c.val).bank).loop = none) :
    m.went (m.issue c.val major func body) c fun b => { g b with pc := w64 ((g b).pc.toNat + 4) } := by
  have q : ∀ {α : Type} (f : Core → α), (∀ k m v, f { k with mem := m, vec := v } = f k) → f (m2.core c) = f { m.core c.val with bank := g (m.core c.val).bank } :=
    fun f hf => by rw [← hk]; exact (hf _ _ _).symm
  have hbank : (m2.core c).bank = g (m.core c).bank := q (·.bank) fun _ _ _ => rfl
  obtain ⟨m3, h3⟩ : ∃ x, x = m2.updCore c.val fun k => k.stampUndo none := ⟨_, rfl⟩
  have h3c : m3.core c.val = (m2.core c.val).stampUndo none := by rw [h3, Mod.core_updCore_self]
  have h3a : m.apart m3 c := by rw [h3]; exact Mod.apart_trans ha (Mod.apart_setCore m2 c _)
  obtain ⟨t, ht, hc, hta⟩ := Mod.retire_next m3 c st (by rw [h3c]; exact (congrArg Bank.loop hbank).trans hl)
    (by rw [h3c]; exact (q (·.refused) fun _ _ _ => rfl).trans hr)
  have e : m.issue c.val major func body = t := by
    unfold Mod.issue
    rw [hi, hld]
    have hm' : ¬ (c.val = 256 ∧ (!fitterMajor major) = true) := fun h => by simp [hm h.1] at h
    rw [h3] at ht
    simp only [hf, hb, ht, bind, Except.bind, Bool.not_true, Bool.false_eq_true, if_false, if_neg hm']
  rw [e]
  refine ⟨?_, ?_, ?_, Mod.apart_trans h3a hta⟩
  · rw [hc, h3c]; simp only [Core.wentOn, Core.stampUndo, hbank]
  · rw [hc, h3c]; exact q (·.sb) fun _ _ _ => rfl
  · rw [hc, h3c]
    exact ⟨q (·.ctl) fun _ _ _ => rfl, q (·.ctlNew) fun _ _ _ => rfl, q (·.bolt) fun _ _ _ => rfl, (Core.plain_stampUndo _ _).trans hv,
      q (·.mat) fun _ _ _ => rfl, q (·.fin) fun _ _ _ => rfl, q (·.shadow) fun _ _ _ => rfl, q (·.trap) fun _ _ _ => rfl, q (·.pend) fun _ _ _ => rfl,
      q (·.uc) fun _ _ _ => rfl⟩

end Sys2Proof.Machine
end

