-- ==== Sys2Proof/Laws/Run.lean ====
section
/-! SUPPORT. How a command runs: each way answers a next state and keeps the queue; which of them can reach fuses, flash and power. -/

namespace Sys2Proof.Machine

/-- A step that answers a next state with the queue as it was. -/
def keepsQueue (s : State) (o : Out) : Prop := ∃ t, o = .next t ∧ t.pending = s.pending

theorem State.run_keeps (s : State) (f : Mod → Mod) : keepsQueue s (s.run f) := ⟨_, rfl, rfl⟩
theorem State.judged_keeps (s : State) (f : Mod → Mod) : keepsQueue s (s.judged f) := ⟨_, rfl, rfl⟩
theorem State.wide_keeps (s : State) (f : Mod → Mod) : keepsQueue s (s.wide f) := ⟨_, rfl, rfl⟩
theorem State.host_keeps (s : State) (f : Mod → Mod) : keepsQueue s (s.host f) := ⟨_, rfl, rfl⟩
theorem State.edge_keeps (s : State) (f : Mod → Mod) : keepsQueue s (s.edge f) := ⟨_, rfl, rfl⟩
/-- With power a unit's command has its effect, but for fuses, flash, sequencer and sideband. -/
theorem State.run_powered (s : State) (f : Mod → Mod) (h : s.m.powered = true) :
    s.run f = .next { s with m := { f s.m with nv := s.m.nv, pwr := s.m.pwr } } := by simp [State.run, Mod.within, h]
/-- Without power it has none. -/
theorem State.run_unpowered (s : State) (f : Mod → Mod) (h : s.m.powered = false) : s.run f = .next s := by simp [State.run, h]
theorem State.wide_powered (s : State) (f : Mod → Mod) (h : s.m.powered = true) : s.wide f = .next { s with m := f s.m } := by simp [State.wide, h]
theorem State.wide_unpowered (s : State) (f : Mod → Mod) (h : s.m.powered = false) : s.wide f = .next s := by simp [State.wide, h]
/-- A unit's command leaves fuses, flash and power. -/
theorem State.run_frame {s t : State} {f : Mod → Mod} (h : s.run f = .next t) : t.m.nv = s.m.nv ∧ t.m.pwr = s.m.pwr := by
  cases h; dsimp only; split <;> exact ⟨rfl, rfl⟩
theorem State.judged_frame {s t : State} {f : Mod → Mod} (h : s.judged f = .next t) : t.m.nv = s.m.nv ∧ t.m.pwr = s.m.pwr := State.run_frame h
/-- So does a host's access. -/
theorem State.host_frame {s t : State} {f : Mod → Mod} (h : s.host f = .next t) : t.m.nv = s.m.nv ∧ t.m.pwr = s.m.pwr := by
  cases h; exact ⟨rfl, rfl⟩
/-- What a unit's command is to do holds of its next state, where power is good. -/
theorem completes_run {i : Instr} {s : State} {f : Mod → Mod} {P : Mod → Prop} (hi : exec i s = s.run f) (h : s.m.powered = true)
    (hp : P { f s.m with nv := s.m.nv, pwr := s.m.pwr }) : completes i s P :=
  ⟨_, hi.trans (State.run_powered s f h), rfl, hp⟩
theorem completes_judged {i : Instr} {s : State} {f : Mod → Mod} {P : Mod → Prop} (hi : exec i s = s.judged f) (h : s.m.powered = true)
    (hp : P { (f s.m).judge with nv := s.m.nv, pwr := s.m.pwr }) : completes i s P := completes_run hi h hp
theorem completes_wide {i : Instr} {s : State} {f : Mod → Mod} {P : Mod → Prop} (hi : exec i s = s.wide f) (h : s.m.powered = true) (hp : P (f s.m)) :
    completes i s P := ⟨_, hi.trans (State.wide_powered s f h), rfl, hp⟩
theorem completes_host {i : Instr} {s : State} {f : Mod → Mod} {P : Mod → Prop} (hi : exec i s = s.host f)
    (hp : P { f s.m with nv := s.m.nv, pwr := s.m.pwr }) : completes i s P := ⟨_, hi, rfl, hp⟩
theorem completes_edge {i : Instr} {s : State} {f : Mod → Mod} {P : Mod → Prop} (hi : exec i s = s.edge f) (hp : P (f s.m)) : completes i s P :=
  ⟨_, hi, rfl, hp⟩
/-- A command with the policy on uncorrectable events off is the plain command. -/
theorem Mod.judge_off (m : Mod) (h : m.noCue) : m.judge = m := by
  unfold Mod.noCue at h; simp [Mod.judge, h]
/-- A write by a host that the port lets through does what it says. -/
theorem Mod.hostReg_reached (m : Mod) (h : HostId) (a : Nat) (f : Mod → Mod) (hr : m.reachedBy h a) : m.hostReg h a f = f m := by
  obtain ⟨h1, h2⟩ := hr; simp only [Mod.hostReg, Mod.fromHost]; rw [if_pos h1, if_pos h2]
/-- A step takes the command in front and runs it on the rest of the queue. -/
theorem step_front (c : Instr) (s : State) (h : s.pending = c :: (s.pending.drop 1)) : step s = exec c { s with pending := s.pending.drop 1 } := by
  unfold step; rw [h]; rfl

end Sys2Proof.Machine
end

