-- ==== Sys2Proof/WellFormed.lean ====
section
/-! DEFINITION. Which commands the outside can send: what a flit, a PCIe request, a counter or an I3C write can carry. A meaning takes any
command; what a command's bytes say, those of a control message too, is checked by the unit that receives it. -/

namespace Sys2Proof

/-- A command as the wires carry it: flits of 640 bytes (R445), PCIe writes of 1 to 8 bytes to BAR0 and requests of 1 to 4,096 bytes to BAR2, writes
of at most 512 (R517, R519), whole double words to a DOE mailbox (R566), windows of 2^16 UI (R574), 64 SVN bits (R548), link widths and
generations of R512, a gain A of at most 32 below 256 (R396), and an I3C write of at least the index byte (R610). -/
def Instr.wf : Instr → Bool
  | .dataFlit _ _ d => d.length == 640
  | .idleFlit _ _ d => d.length == 640
  | .registerWrite _ _ off size _ => decide (1 ≤ size.val) && decide (off.toNat + size.val ≤ 2 ^ 26)
  | .bar2Access _ _ x n data =>
    match data with
    | some bs => decide (1 ≤ bs.length) && decide (bs.length ≤ 512) && decide (x.toNat + bs.length ≤ 2 ^ 36)
    | none => decide (1 ≤ n) && decide (n ≤ 4096) && decide (x.toNat + n ≤ 2 ^ 36)
  | .doeRequest _ d => d.length % 4 == 0
  | .trackRound _ d0 d1 d2 d3 => [d0, d1, d2, d3].all fun d => decide (d.toNat ≤ 2 ^ 16)
  | .fwPush _ u => decide (u.toNat ≤ 64)
  | .bootRomStart _ _ u => decide (u.toNat ≤ 64)
  | .portLinkUp _ gen width => decide (3 ≤ gen) && decide (gen ≤ 6) && [1, 2, 4, 8].contains width
  | .regulatorFill _ r => decide (r ≤ 32)
  | .i3cPrivateWrite d => !d.isEmpty
  | _ => true

end Sys2Proof
end

