-- ==== Sys2Proof/Tests/Slice0.lean ====
section
/-! SUPPORT. Tests: ill-formed commands are refused; states that meet the hypotheses of the statements, and what one command does to them. Expected
values come from the rules named. -/

namespace Sys2Proof.Tests

open Sys2Proof.Machine

set_option Elab.async false

/-! ## Small states -/

/-- A cap over the test page, with all data permissions. -/
def dcap : Cap := mkCap 0 (pRD + pWR + pEX + pLC + pSC) 0 0x10000 0x10000 true
/-- A bank at the start of the test page with these operands. -/
def bankOf (ops rets : List W64) : Bank :=
  { pc := 0x10000, ops := ops, depth := ops.length, rets := rets, sp := 0x18000, rsp := 0x19000
    caps := [(0, dcap), (1, mkCap 0 4095 0 0x10000 0 true), (2, mkCap 0 3 0 0x10000 0x10000 true), (3, mkCap 0 3 0 0x10000 0x10000 true)] }
/-- A running core with that bank; its TLB maps the test page to local address 0x20000. -/
def coreOf (b : Bank) : Core :=
  { run := .running, piece := some {}, fetchCap := dcap, bank := b
    mem := { tlb := [(0, { key := tlbKey 0 3 1, age := 0, val := { part := 0, vpn := 1, level := 3, pa := 0x20000, x := true, w := true } })] } }
/-- A powered module with core 0 in partition 0 of host 0. -/
def modOf (k : Core) : Mod :=
  { cores := [(0, k)], parts := [(0, { st := .running, cores := [0], spools := [(0, 1)] })], hosts := [(0, { linked := true, clock := true })]
    pwr := { groups := 6, seq := 3, standby := true, converter := true, enable := true } }
/-- Core 0 ready with these operands. -/
def ready (ops : List W64) : Mod := modOf (coreOf (bankOf ops []))
/-- The module after a command; the empty one where it stops. -/
def after (i : Instr) (m : Mod) : Mod := match exec i { m := m } with | .next t => t.m | _ => {}
/-- What holds of a result that is there. -/
def okAnd {α : Type} (r : Ex α) (p : α → Bool) : Bool := match r with | .ok a => p a | .error _ => false
/-- What holds of a value that is there. -/
def someAnd {α : Type} (r : Option α) (p : α → Bool) : Bool := match r with | some a => p a | none => false
/-- An L2 of core 0 that holds the line of 0x20000 in a state. -/
def withLine (st : Mesi) (m : Mod) : Mod := m.updMem 0 fun q => q.install (0x20000 / 128) st 0
/-- Module with bytes at 0x20000. -/
def withBytes (bs : List Byte) (m : Mod) : Mod := { m with mem := Memory.setBytes m.mem 0x20000 bs }
/-- A cap over the control space, with all permissions. -/
def kcap : Cap := mkCap 1 4095 0 0x10000 0 true
/-- A module whose core 0 has another cap 4. -/
def withCap (c : Cap) (m : Mod) : Mod := m.updBank 0 fun b => b.setCap 4 c
/-- A module whose core 0 has a store buffer. -/
def withSb (es : List SbEntry) (m : Mod) : Mod := m.updCore 0 fun k => { k with sb := es }
/-- The spool map holds spool 0, and the L2 the line. -/
def memory (st : Mesi) (m : Mod) : Mod := withLine st (withBytes [0x11, 0x22, 0x33, 0x44, 0x55, 0x66, 0x77, 0x88] (m.wr bSPLMAP 1))
/-- Fences for uncorrectable events of cores are off. -/
def noCues (m : Mod) : Mod := m.wr (bCAL + 0x10) 0
/-- A module of a line of two modules, device 0, with link 0 toward device 1 up; it has no power-fence policy. -/
def netOf (m : Mod) : Mod := noCues (((m.wrf (bLNK + 0x008) 1 0 1).wrf (bLNK + 0x008) 11 6 1).wrf (bLink 0) 3 0 6)

/-! ## Scalar core -/

theorem wit_ready : (ready [5, 6, 7]).standsReady 0 ∧ (ready [5, 6, 7]).holdsOps 0 [5, 6] 1 := by
  unfold Mod.standsReady Mod.holdsOps; decide +kernel
theorem test_lit : ((after (.lit 0 0xFFFFFE) (ready [5])).core 0).bank.ops = [0xFFFFFFFFFFFFFFFE, 5] := by decide +kernel
theorem test_lith0 : ((after (.lith 0 0x800001) (ready [0x123456])).core 0).bank.ops = [0xFFFF800001123456] := by decide +kernel
theorem test_lith1 : ((after (.lith 0 0x100ABCD) (ready [0x123456])).core 0).bank.ops = [0xABCD000000123456] := by decide +kernel
theorem test_addi_wraps : ((after (.addi 0 1) (ready [0xFFFFFFFFFFFFFFFF])).core 0).bank.ops = [0] := by decide +kernel
theorem test_alu_divs_by_zero : ((after (.alu 0 5) (ready [0, 9])).core 0).bank.ops = [0xFFFFFFFFFFFFFFFF] := by decide +kernel
theorem test_alu_rems_by_zero : ((after (.alu 0 7) (ready [0, 9])).core 0).bank.ops = [9] := by decide +kernel
theorem test_alu_divs_least : ((after (.alu 0 5) (ready [0xFFFFFFFFFFFFFFFF, 0x8000000000000000])).core 0).bank.ops = [0x8000000000000000] := by decide +kernel
theorem test_alu_shift : ((after (.alu 0 (0x13 + 4 * 64)) (ready [0x8000000000000000])).core 0).bank.ops = [0xF800000000000000] := by decide +kernel
theorem test_alu_not_neg : ((after (.alu 0 0x0D) (ready [1])).core 0).bank.ops = [0xFFFFFFFFFFFFFFFF] := by decide +kernel
theorem test_alu_clz : ((after (.alu 0 0x20) (ready [1])).core 0).bank.ops = [63] := by decide +kernel
theorem test_alu_ctz_zero : ((after (.alu 0 0x21) (ready [0])).core 0).bank.ops = [64] := by decide +kernel
theorem test_alu_pop : ((after (.alu 0 0x22) (ready [0xF1])).core 0).bank.ops = [5] := by decide +kernel
theorem test_alu_sel : ((after (.alu 0 0x23) (ready [0, 6, 7])).core 0).bank.ops = [6] := by decide +kernel
theorem test_stk_rot : ((after (.stk 0 4) (ready [3, 2, 1])).core 0).bank.ops = [1, 3, 2] := by decide +kernel
theorem test_stk_pick : ((after (.stk 0 (7 + 2 * 64)) (ready [3, 2, 1])).core 0).bank.ops = [1, 3, 2, 1] := by decide +kernel
theorem test_stk_tor : (fun (b : Bank) => (b.ops, b.rets)) ((after (.stk 0 0x0A) (ready [3, 2])).core 0).bank = ([2], [3]) := by decide +kernel
theorem wit_rets : (modOf (coreOf (bankOf [3] [0x10008]))).holdsRets 0 [0x10008] 1 := by unfold Mod.holdsRets; decide +kernel
theorem test_stk_fromr : (fun (b : Bank) => (b.ops, b.rets)) ((after (.stk 0 0x0B) (modOf (coreOf (bankOf [3] [9])))).core 0).bank = ([9, 3], []) := by decide +kernel
theorem test_stk_depth : ((after (.stk 0 0x0D) (ready [3, 2])).core 0).bank.ops = [2, 3, 2] := by decide +kernel
/-- c1 is the data cap, so that `f` with CS = 1. -/
theorem test_cgetlen : ((after (.cgetlen 0 0) (ready [])).core 0).bank.ops = [0x10000] := by decide +kernel
theorem test_cmov : (((after (.cmov 0 0x2000000) (ready [])).core 0).bank.cap 4) = dcap := by decide +kernel
theorem test_cclr : (((after (.cclr 0 0) (ready [])).core 0).bank.cap 0).tag = false := by decide +kernel
theorem test_ctest : ((after (.ctest 0 0) (ready [0x10000, 0x10000])).core 0).bank.ops = [1] := by decide +kernel
theorem test_ctest_beyond : ((after (.ctest 0 0) (ready [0x10001, 0x10000])).core 0).bank.ops = [0] := by decide +kernel
theorem test_cbound : (fun (k : Cap) => (k.base, k.len, k.perms, k.tag)) (((after (.cbound 0 0x2000000) (ready [16, 0x10100])).core 0).bank.cap 4) = (0x10100, 16, 31, true) := by
  decide +kernel
theorem test_cperm : (fun (k : Cap) => (k.base, k.perms, k.tag)) (((after (.cperm 0 0x2000000) (ready [5])).core 0).bank.cap 4) = (0x10000, 5, true) := by decide +kernel
/-- CD = 4, CS = 0, CK = 5; the key's base is the object type 1. -/
def sealing (c4 : Cap) : Mod :=
  modOf (coreOf { bankOf [] [] with caps := [(0, dcap), (4, c4), (5, mkCap 0 (pSEAL + pUNSEAL) 0 16 1 true)] })
theorem test_cseal : (((after (.cseal 0 0x20A0000) (sealing {})).core 0).bank.cap 4).otype = 1 := by decide +kernel
theorem test_cunseal : (((after (.cunseal 0 0x30A0000 ) (sealing {})).core 0).bank.cap 6).tag = false := by decide +kernel
theorem test_cunseal_opens : (((after (.cunseal 0 0x34A0000) (sealing { dcap with bits := dcap.bits ||| BitVec.ofNat 128 (2 ^ 96) })).core 0).bank.cap 6).otype = 0 := by
  decide +kernel
theorem test_bz_taken : ((after (.bz 0 4) (ready [0])).core 0).bank.pc = 0x10010 := by decide +kernel
theorem test_bnz_not : ((after (.bnz 0 4) (ready [0])).core 0).bank.pc = 0x10004 := by decide +kernel
theorem test_br_back : ((after (.br 0 0x3FFFFFF) (ready [])).core 0).bank.pc = 0xFFFC := by decide +kernel
theorem test_calli : (fun (b : Bank) => (b.pc, b.ops, b.rets)) ((after (.calli 0 0) (ready [0x10100])).core 0).bank = (0x10100, [], [0x10004]) := by decide +kernel
theorem test_call : (fun (b : Bank) => (b.pc, b.rets)) ((after (.call 0 4) (ready [])).core 0).bank = (0x10010, [0x10004]) := by decide +kernel
theorem test_ret : (fun (b : Bank) => (b.pc, b.rets)) ((after (.ret 0 0) (modOf (coreOf (bankOf [] [0x10008])))).core 0).bank = (0x10008, []) := by decide +kernel
theorem test_jmpi_odd : ((after (.jmpi 0 0) (ready [0x10002])).core 0).creg 0x380 = serrOf 3 0x2A 1 0 := by decide +kernel
theorem test_loop_zero : ((after (.loop 0 (3 * 2 ^ 18)) (ready [0])).core 0).bank.pc = 0x10000 + 8 + 12 := by decide +kernel
theorem test_loop_starts : ((after (.loop 0 (3 * 2 ^ 18)) (ready [2])).core 0).bank.loop = some { start := 0x10004, lenM1 := 3, cnt := 2, rbase := 0 + 0xE00 } := by decide +kernel
/-- A loop of one word, at it. -/
def looping (cnt : W64) : Mod := modOf (coreOf { bankOf [] [] with loop := some { start := 0x10000, cnt := cnt } })
theorem test_loop_again : (fun (b : Bank) => (b.pc, b.loop.map (·.cnt))) ((after (.nop 0 0) (looping 2)).core 0).bank = (0x10000, some 1) := by decide +kernel
theorem test_loop_ends : (fun (b : Bank) => (b.pc, b.loop)) ((after (.nop 0 0) (looping 1)).core 0).bank = (0x10004, none) := by decide +kernel
theorem test_branch_out : (fun (b : Bank) => (b.pc, b.loop)) ((after (.br 0 4) (looping 2)).core 0).bank = (0x10010, none) := by decide +kernel
theorem test_trap_code : ((after (.trap 0 (5 * 1024)) (ready [])).core 0).creg 0x380 = serrOf 6 0 4 5 := by decide +kernel
theorem test_lit_reserved : ((after (.lit 0 0x1000000) (ready [])).core 0).creg 0x380 = serrOf 1 1 0 0 := by decide +kernel
theorem test_alu_reserved : ((after (.alu 0 0x24) (ready [1])).core 0).creg 0x380 = serrOf 1 3 0x24 0 := by decide +kernel

/-! ## Memory instructions of a core -/

theorem wit_ld_hit : let m := memory .e (ready [0x10000, 5])
    m.standsReady 0 ∧ m.holdsOps 0 [0x10000] 0 ∧ (dcap.type = 0 ∧ capFail dcap pRD 0x10000 8 = none) ∧
    okAnd ((m.fetched 0).places 0 dcap .read 0x10000 8) (fun r => r.1 == [(.loc 0x20000, 8)] &&
      someAnd ((((r.2.stride 0 0x10000 0x20000).l1Miss 0 0x20000)).loadNow 0 0x20000 8 0) fun x => x.1 == toLe 8 0x8877665544332211 && !x.2.1) = true := by
  unfold Mod.standsReady Mod.holdsOps; decide +kernel
theorem test_ld_half_signed : (fun (b : Bank) => (b.ops, b.load.map fun l => (l.pos, l.value, l.arrived)))
    ((after (.ld 0 (1 * 2 ^ 21 + 2 ^ 20 + 6)) (memory .e (ready [0x10000, 5]))).core 0).bank = ([0x10000, 5], some (1, 0xFFFFFFFFFFFF8877, true)) := by decide +kernel
theorem wit_ld_miss : let m := memory .i (ready [0x10000, 5])
    okAnd ((m.fetched 0).places 0 dcap .read 0x10000 8) (fun r => let m3 := (r.2.stride 0 0x10000 0x20000).l1Miss 0 0x20000
      r.1 == [(.loc 0x20000, 8)] && m3.isSpool 0x20000 && (m3.core 0).mem.state (0x20000 / 128) == .i && decide ((m3.core 0).mem.misses.length < 16)) = true := by decide +kernel
theorem test_ld_miss : (fun (m : Mod) => ((m.core 0).bank.load.map (·.arrived), m.coh.msgs.map fun x => (x.kind, x.la)))
    (after (.ld 0 (3 * 2 ^ 21)) (memory .i (ready [0x10000, 5]))) = (some false, [(.gets, 0x400)]) := by decide +kernel
/-- CAP 4 is the control cap; COR_PIECE-like registers at 0x0A0. -/
theorem wit_ld_control : let m := withCap kcap (ready [0x0A0])
    kcap.type = 1 ∧ capFail kcap (needOf 0 kcap pRD false 0x0A0) 0x0A0 8 = none ∧ (ctlCheck 0 4 1 kcap false 0x0A0 8).isOk = true ∧ m.standsReady 0 := by
  unfold Mod.standsReady; decide +kernel
theorem test_ld_control : ((after (.ld 0 (4 * 2 ^ 23 + 3 * 2 ^ 21)) (withCap kcap (modOf { coreOf (bankOf [0x0A0] []) with ctl := [(0x0A0, 7)] }))).core 0).bank.load.map (·.value)
    = some 7 := by decide +kernel
theorem test_load_sees_store : let m := withSb [{ place := .loc 0x20000, data := toLe 8 0x0807060504030201 }] (memory .m (ready []))
    (m.loadNow 0 0x20002 2 1).map (·.1) = some [3, 4] ∧ (m.loadNow 0 0x20008 2 1).map (·.1) = some [0, 0] := by decide +kernel
/-- A load that waits for its value, at position 0 of a stack of one. -/
def loading (arr : Bool) : Mod := memory .e (modOf (coreOf { bankOf [9] [] with depth := 2, load := some { pos := 0, value := 0x55, size := 2, place := .loc 0x20000, arrived := arr } }))
theorem wit_load_arrives : ((loading false).loadNow 0 0x20000 2 0).isSome = true ∧ (loading false).powered = true ∧ (loading false).coh.upsets = [] := by decide +kernel
theorem test_load_arrives : ((after (.loadValueArrives (0, [])) (loading false)).core 0).bank.load.map (fun l => (l.value, l.arrived)) = some (0x2211, true) := by decide +kernel
def inSlot : Mod := modOf (coreOf { bankOf [9, 8] [] with load := some { pos := 0, value := 0x55, arrived := true } })
theorem wit_slot : inSlot.canIssue 0 = true ∧ (inSlot.fetch 0).isOk = true ∧ (inSlot.core 0).bank.depth ≤ (inSlot.core 0).bank.ops.length := by decide +kernel
theorem test_slot : ((after (.nop 0 0) inSlot).core 0).bank.ops = [9, 0x55] := by decide +kernel
theorem wit_st : let m := memory .m (ready [0x10000, 0xABCD])
    okAnd ((m.fetched 0).places 0 dcap .write 0x10000 2) (fun r => r.1 == [(.loc 0x20000, 2)] && (r.2.wtabCheck 0 dcap 0 2 0x10000 2 r.1).isOk) = true ∧
      dcap.type ≠ 1 ∧ capFail dcap pWR 0x10000 2 = none := by decide +kernel
theorem test_st : (fun (k : Core) => (k.bank.ops, k.sb.map fun e => (e.place, e.data))) ((after (.st 0 (2 ^ 21)) (memory .m (ready [0x10000, 0xABCD]))).core 0) =
    ([], [(.loc 0x20000, [0xCD, 0xAB])]) := by decide +kernel
theorem wit_st_control : (0x010 : Nat) ∈ syncRegs ∧ kcap.has (pWR + pSYSREG) = true ∧ capFail kcap (pWR + pSYSREG) 0x010 8 = none := by decide +kernel
theorem test_st_control : (fun (k : Core) => (k.ctlNew, k.ctl)) ((after (.st 0 (4 * 2 ^ 23 + 3 * 2 ^ 21)) (withCap kcap (ready [0x010, 3]))).core 0) = ([(0x010, 3)], []) := by
  decide +kernel
theorem wit_stc : let m := memory .m (ready [0x10000])
    capFail dcap (pWR + pSC) 0x10000 16 = none ∧
    okAnd ((m.fetched 0).places 0 dcap .write 0x10000 16) (fun r => r.1 == [(.loc 0x20000, 16)] && (r.2.wtabCheck 0 dcap 0 5 0x10000 16 r.1).isOk) = true := by decide +kernel
theorem test_stc : ((after (.stc 0 (2 ^ 20)) (memory .m (ready [0x10000]))).core 0).sb =
    [{ place := .loc 0x20000, data := toLe 16 (mkCap 0 4095 0 0x10000 0 true).bits.toNat, kind := .cap true }] := by decide +kernel
theorem wit_ldc : let m := memory .e (ready [0x10000])
    okAnd ((m.fetched 0).places 0 dcap .read 0x10000 16) (fun r => r.1 == [(.loc 0x20000, 16)] &&
      okAnd ((r.2.stride 0 0x10000 0x20000).readNow 0 0x20000 16) fun x => x.1 == m.rdMem 0x20000 16) = true := by decide +kernel
/-- A tagged granule whose 16 bytes are those of the data cap. -/
def tagged : Mod := let m := memory .e (ready [0x10000]); { withBytes (toLe 16 dcap.bits.toNat) m with tags := Tab.put [] 0x2000 true }
theorem test_ldc : ((after (.ldc 0 (5 * 2 ^ 20)) tagged).core 0).bank.cap 5 = dcap := by decide +kernel
/-- Through cap 3, which has no load-cap permission. -/
theorem test_ldc_clears : (((after (.ldc 0 (3 * 2 ^ 23 + 5 * 2 ^ 20)) tagged).core 0).bank.cap 5).tag = false := by decide +kernel

def draining (kd : SbKind) (st : Mesi) : Mod :=
  let m := memory st (withSb [{ place := .loc 0x20000, data := toLe 16 0x99, kind := kd }] (ready []))
  { m with tags := Tab.put [] 0x2000 true }
theorem wit_drain : (draining .data .m).rangeFenced 0x20000 16 = false ∧ (draining .data .m).isSpool 0x20000 = true ∧ ((draining .data .e).core 0).mem.state 0x400 = .e ∧
    ((draining .data .m).core 0).mem.state 0x400 = .m ∧ ((draining .data .m).core 0).openLoad = none := by decide +kernel
theorem test_drain : (fun (m : Mod) => (m.rdMem 0x20000 2, m.tagAt 0x20000, (m.core 0).sb.length)) (after (.storeBufferDrain (0, [])) (draining .data .m)) = ([0x99, 0], false, 0) := by
  decide +kernel
theorem test_drain_cap : (fun (m : Mod) => (m.rdMem 0x20000 2, m.tagAt 0x20000)) (after (.storeBufferDrain (0, [])) (draining (.cap true) .e)) = ([0x99, 0], true) := by decide +kernel
theorem test_drain_add : (fun (m : Mod) => (m.spl.adds.map fun a => (a.pa, a.ty), m.rdMem 0x20000 1)) (after (.storeBufferDrain (0, [])) (draining (.add 4) .m)) = ([(0x20000, 4)], [0x11]) := by
  decide +kernel
theorem test_drain_asks : (after (.storeBufferDrain (0, [])) (draining .data .i)).coh.msgs = [{ kind := .getx, la := 0x400, agent := 0 }] := by decide +kernel

/-- Width of 4 bytes: SIZE 2. -/
theorem wit_amo : let m := memory .m (ready [7, 0x44332211, 0x10000])
    m.holdsOps 0 [7, 0x44332211, 0x10000] 0 ∧ capFail dcap (pRD + pWR) 0x10000 4 = none ∧
    okAnd ((m.fetched 0).places 0 dcap .atomic 0x10000 4) (fun r => r.1 == [(.loc 0x20000, 4)] && (r.2.wtabCheck 0 dcap 0 3 0x10000 4 r.1).isOk &&
      someAnd (r.2.acquireAll 0 0x20000 4 true) fun m3 => !m3.poisoned 0x20000 4 && !m3.rangeFenced 0x20000 4) = true := by unfold Mod.holdsOps; decide +kernel
theorem test_cas : (fun (m : Mod) => ((m.core 0).bank.ops, m.rdMem 0x20000 5)) (after (.cas 0 (2 * 2 ^ 21)) (memory .m (ready [7, 0xFF44332211, 0x10000]))) =
    ([0x44332211], [7, 0, 0, 0, 0x55]) := by decide +kernel
theorem test_cas_differs : (after (.cas 0 (2 * 2 ^ 21)) (memory .m (ready [7, 0x44332210, 0x10000]))).rdMem 0x20000 2 = [0x11, 0x22] := by decide +kernel
theorem test_swapm : (fun (m : Mod) => ((m.core 0).bank.ops, m.rdLe 0x20000 8)) (after (.swapm 0 (3 * 2 ^ 21)) (memory .m (ready [7, 0x10000]))) = ([0x8877665544332211], 7) := by
  decide +kernel
theorem test_xadd : (fun (m : Mod) => ((m.core 0).bank.ops, m.rdMem 0x20000 5)) (after (.xadd 0 (2 * 2 ^ 21)) (memory .m (ready [0xFFFFFFFF, 0x10000]))) =
    ([0x44332211], [0x10, 0x22, 0x33, 0x44, 0x55]) := by decide +kernel
theorem wit_madd : let m := memory .m (ready [7, 0x10000])
    okAnd ((m.fetched 0).places 0 dcap .add 0x10000 4) (fun r => r.1 == [(.loc 0x20000, 4)] && (r.2.wtabCheck 0 dcap 0 3 0x10000 4 r.1).isOk) = true ∧
      capFail dcap pWR 0x10000 4 = none ∧ maddSize 4 = 4 := by decide +kernel
theorem test_madd : ((after (.madd 0 (4 * 2 ^ 18)) (memory .m (ready [7, 0x10000]))).core 0).sb = [{ place := .loc 0x20000, data := [7, 0, 0, 0], kind := .add 4 }] := by decide +kernel

/-- Stacks in the test page, whose pointers mark 0x10008; the mapped line is held for writing. -/
def stkOf (ops rets : List W64) : Mod :=
  memory .m (modOf (coreOf { bankOf ops rets with sp := 0x10008, rsp := 0x10008, depth := ops.length + 1 }))
theorem wit_spill : let m := stkOf [1, 2] [3, 4]; m.stacksIdle 0 = true ∧ (stackCheck ((m.core 0).bank.cap 2) opStk true 0x10000 0x10008).isOk = true ∧
    (stackCheck ((m.core 0).bank.cap 3) retStk true 0x10000 0x10008).isOk = true ∧
    okAnd (m.places 0 ((m.core 0).bank.cap 2) .write 0x10000 8) (fun r => r.1 == [(.loc 0x20000, 8)] &&
      (r.2.wtabCheck 0 ((m.core 0).bank.cap 2) 2 opStk.spill 0x10000 8 r.1).isOk && someAnd (r.2.acquireAll 0 0x20000 8 true) fun m2 => !m2.rangeFenced 0x20000 8) = true := by decide +kernel
theorem test_spill : (fun (m : Mod) => ((m.core 0).bank.ops, (m.core 0).bank.sp, (m.core 0).bank.depth, m.rdLe 0x20000 8)) (after (.stackSpill 0) (stkOf [1, 2] [])) = ([1], 0x10000, 3, 2) := by
  decide +kernel
theorem test_return_spill : (fun (m : Mod) => ((m.core 0).bank.rets, (m.core 0).bank.rsp, m.rdLe 0x20000 8)) (after (.returnSpill 0) (stkOf [] [3, 4])) = ([3], 0x10000, 4) := by
  decide +kernel
/-- Stacks whose pointers mark the entry at 0x10000. -/
def stkDown (ops rets : List W64) : Mod :=
  memory .m (modOf (coreOf { bankOf ops rets with sp := 0x10000, rsp := 0x10000, depth := ops.length + 1 }))
theorem wit_fill : let m := stkDown [1] [3]; m.stacksIdle 0 = true ∧ (stackCheck ((m.core 0).bank.cap 2) opStk false 0x10000 0x10000).isOk = true ∧
    (stackCheck ((m.core 0).bank.cap 3) retStk false 0x10000 0x10000).isOk = true ∧
    okAnd (m.places 0 ((m.core 0).bank.cap 2) .read 0x10000 8) (fun r => r.1 == [(.loc 0x20000, 8)] &&
      someAnd (r.2.acquireAll 0 0x20000 8 false) fun m2 => !m2.poisoned 0x20000 8) = true := by decide +kernel
theorem test_fill : (fun (b : Bank) => (b.ops, b.sp, b.depth)) ((after (.stackFill 0) (stkDown [1] [])).core 0).bank = ([1, 0x8877665544332211], 0x10008, 2) := by decide +kernel
theorem test_return_fill : (fun (b : Bank) => (b.rets, b.rsp)) ((after (.returnFill 0) (stkDown [] [3])).core 0).bank = ([3, 0x8877665544332211], 0x10008) := by decide +kernel

/-! ## SYNC, ERET, handlers, pieces -/

def syncing : Mod := (ready [5]).updCore 0 fun k => { k with ctlNew := [(0x010, 1)], uc := { k.uc with useOld := true }, mem := { k.mem with l1i := [(0, { val := () })] } }
theorem wit_sync : syncing.drained 0 = true ∧ syncing.standsReady 0 := by unfold Mod.standsReady; decide +kernel
theorem test_sync : (fun (k : Core) => (k.ctlNew, k.uc.useOld, k.creg 0x010 == rowWrite coreRows 0x010 (regVal coreRows [] 0x010) 1, k.mem.l1i.length)) ((after (.sync 0 0) syncing).core 0) = ([], false, true, 2) := by
  decide +kernel
theorem test_sync_i : ((after (.syncI 0 0) syncing).core 0).mem.l1i = [] := by decide +kernel
/-- Core 0 in a handler of vector 3, with a shadow bank. -/
def handling : Mod := (ready [5]).updCore 0 fun k => { k.setCregf 0x000 9 8 1 with shadow := { bankOf [7] [8] with vl := 9 }.image, unitsHeld := true }
theorem wit_eret : handling.standsReady 0 ∧ (handling.core 0).excDepth ≠ 0 := by unfold Mod.standsReady; decide +kernel
theorem test_eret : (fun (k : Core) => (k.bank.ops, k.bank.rets, k.bank.vl, k.excDepth, k.unitsHeld, k.fetchCap == dcap)) ((after (.eret 0 0) handling).core 0) =
    ([7], [8], 9, 0, false, true) := by decide +kernel
theorem test_eret_outside : ((after (.eret 0 0) (ready [])).core 0).creg 0x380 = serrOf 1 0 3 0 := by decide +kernel
theorem wit_saved_bank : let b := bankOf [1, 2] [3]; b.load = none ∧ b.ops.length ≤ 16 ∧ b.depth < 2 ^ 32 ∧ b.prog.kind < 4 ∧ b.loop = none := by decide +kernel

/-- The handler table at 0x10400: vector 3's ENTRY and STACK; its receive block is empty. -/
def entryCap : Cap := mkCap 0 pEX 0 0x100 0x10000 true
def stackCap : Cap := mkCap 0 (pRD + pWR + pSC) 0 0x1000 0x11000 true
def tabled (v : Nat) (m : Mod) : Mod :=
  let a := 0x20400 + 32 * v
  { (m.updCore 0 fun k => k.setCregf 0x008 47 10 (0x10400 / 0x400)) with
    mem := Memory.setBytes (Memory.setBytes m.mem a (toLe 16 entryCap.bits.toNat)) (a + 16) (toLe 16 stackCap.bits.toNat)
    tags := Tab.put (Tab.put m.tags (a / 16) true) (a / 16 + 1) true }
def trapped (d : Nat) : Mod := tabled 3 (tabled 8 (((ready [5]).wr bSPLMAP 1).updCore 0 fun k => { k.setCregf 0x000 9 8 d with trap := some 3 }))
theorem wit_entry : let m := trapped 0; ((m.core 0).atBoundary false = true) ∧ (m.core 0).nextTrap = some 3 ∧ (m.core 0).excDepth = 0 ∧ (m.core 0).trap = some 3 ∧
    someAnd ((((m.updCore 0 fun k => k.tookTrap 3).stopPass 0).saveBank 0 3 1).handler 0 3) (fun r => (r.2.2.recvCaps 0 r.2.1.top).isSome && r.1 == entryCap) = true := by decide +kernel
theorem test_entry : (fun (k : Core) => (k.bank.pc, k.bank.sp, k.bank.rsp, k.fetchCap == entryCap, k.cregf 0x000 4 0, k.excDepth)) ((after (.exceptionEntry 0 0) (trapped 0)).core 0) =
    (0x10000, w64 (0x12000 - 0x6D0), w64 (0x12000 - 0x2D0), true, 3, 1) := by decide +kernel
theorem test_entry_halts : ((after (.exceptionEntry 0 0) ((ready [5]).updCore 0 fun k => { k with trap := some 3 })).core 0).halted = true := by decide +kernel
def interrupted : Mod := tabled 17 (((ready [5]).wr bSPLMAP 1).updCore 0 fun k => k.setCregf 0x018 17 17 1)
theorem wit_interrupt : interrupted.intNow 0 = some 17 ∧ (interrupted.core 0).vec.stations = [] ∧ (interrupted.core 0).nextTrap = none ∧ interrupted.probe 0 0 = none ∧ (interrupted.core 0).atBoundary false = true := by
  decide +kernel
theorem test_interrupt : (fun (k : Core) => (k.cregf 0x000 4 0, k.excDepth, k.cregf 0x018 17 17, k.cregf 0x050 47 0)) ((after (.interruptEntry (0, 0)) interrupted).core 0) = (17, 1, 0, 1) := by
  decide +kernel
/-- The save area lies at the end of the stack cap of vector 8; its line is held for writing by the line's number 0x21D80 / 128 on. -/
def doubled : Mod :=
  let m := trapped 1
  m.updMem 0 fun q => (upto 6).foldl (fun (q : CoreMem) i => q.install ((0x22000 - 0x280) / 128 + i) .m 0) q
theorem wit_double : (doubled.core 0).nextTrap = some 3 ∧ (doubled.core 0).excDepth = 1 ∧ ((doubled.core 0).atBoundary false = true) ∧ someAnd ((doubled.updCore 0 Core.settle).saveCap 0) (fun r =>
    match r.2.saveImage 0 (r.1.top - 0x280) (r.2.core 0).shadow (r.1.has pPGTAB) 40 with | some (some _) => true | _ => false) = true := by decide +kernel
theorem test_double : (fun (k : Core) => (k.cregf 0x000 4 0, k.cregf 0x000 20 16, k.excDepth, k.cregf 0x048 47 0)) ((after (.doubleFault 0) doubled).core 0) = (8, 3, 2, 1) := by decide +kernel
theorem test_triple : (fun (k : Core) => (k.halted, k.run)) ((after (.doubleFault 0) (trapped 2)).core 0) = (true, .free) := by decide +kernel
/-- The fitter, whose table of handlers at private SRAM 0x100 gives vector 20 the pc 0x4000. -/
def fitting : Mod :=
  let m := modOf (coreOf {})
  let k : Core := { fetchCap := dcap, bank := { bankOf [5] [6] with sp := 0x900 }, ctl := [(0x7000, 0x100)] }
  { m with fit := { m.fit with phase := .running }, sram := Memory.setBytes [] (0x100 + 160) (toLe 8 0x4000), cores := Tab.put m.cores 256 k }
theorem wit_fitter : (fitting.core 256).atBoundary true = true ∧ (fitting.core 256).nextTrap = none ∧ (fitting.core 256).excDepth = 0 ∧ fitting.intNow 256 = none ∧
    fitting.fit.irq = [] ∧ fitting.fitterEvent 20 = true ∧ (fitting.fitterIrq 20).probe 256 0 = none ∧
    (let m : Mod := { fitting with hosts := [] }; (m.host 0).clock = false ∧ (m.host 1).clock = false ∧ m.fit.irq = [] ∧ m.intNow 256 = none ∧
      (m.fitterEntry 20 0).fit.irq = [] ∧ ((m.fitterEntry 20 0).core 256).excDepth = 0) := by decide +kernel
theorem test_fitter_entry : (fun (k : Core) => (k.bank.pc, k.bank.ops, k.bank.rets, k.bank.sp, k.excDepth, k.shadow.word 0x20)) ((after (.fitterExceptionEntry (20, 0)) fitting).core 256) =
    (0x4000, [], [], 0x900, 1, 5) := by decide +kernel
theorem test_xint : (fun (k : Core) => (k.cregf 0x018 16 16, k.cregf 0x058 47 0)) ((after (.corXint none 0 1) (ready [])).core 0) = (1, 1) := by decide +kernel

/-- Core 0 runs piece 5 of slot 2. -/
def pieced (r : RunSt) : Mod := (ready [5]).updCore 0 fun k => { k with run := r, piece := some { part := 0, slot := 2, ix := 5 }, ctl := [(0x0A0, 0x30000)] }
theorem wit_piece : (pieced .running).standsReady 0 ∧ (pieced .seated).standsReady 0 ∧ (pieced .running).storesVisible 0 = true ∧ ((pieced .running).core 0).unitsIdle = true ∧
    (pieced .running).holdsOps 0 [] 1 ∧
    (pieced .running).pat.held = [] ∧ ((pieced .running).core 0).openLoad = none := by unfold Mod.standsReady Mod.holdsOps; decide +kernel
theorem test_pend : (fun (m : Mod) => ((m.core 0).run, m.pat.completed)) (after (.pend 0 0) (pieced .running)) = (.free, [{ part := 0, slot := 2, ix := 5 }]) := by decide +kernel
theorem test_pwait : (fun (k : Core) => (k.cregf 0x0A0 31 16, k.cregf 0x0A0 50 49)) ((after (.pwait 0 0) (pieced .seated)).core 0) = (2, 1) := by decide +kernel
theorem test_pwait_waits : ((after (.pwait 0 0) ((ready []).updCore 0 fun k => { k with run := .seated })).core 0).wait = .pwait := by decide +kernel
theorem test_pfire : (fun (m : Mod) => ((m.core 0).bank.ops, m.pat.fires)) (after (.pfire 0 0) (pieced .running)) = ([], [{ part := 0, notch := 5, src := .core 0 }]) := by decide +kernel
theorem test_pid : ((after (.pid 0 0) (pieced .running)).core 0).bank.ops = [0x20005, 5] := by decide +kernel
theorem wit_shpost : let m := memory .e (ready [1, 0x10000]); (m.core 0).bank.prog = {} ∧ m.shtPick 0 0 = some 0 ∧
    okAnd ((m.fetched 0).places 0 dcap .read 0x10000 64) (fun r => r.1 == [(.loc 0x20000, 64)] && (r.2.readNow 0 0x20000 64).isOk) = true := by decide +kernel
theorem test_shpost : (fun (m : Mod) => ((m.core 0).bank.ops, (m.sht 0).queue.map fun d => (d.bytes.take 8, d.addr, d.core))) (after (.shpost 0 0) (memory .e (ready [1, 0x10000]))) =
    ([], [([0x11, 0x22, 0x33, 0x44, 0x55, 0x66, 0x77, 0x88], 0x10000, 0)]) := by decide +kernel
/-- Core 0 waits for room in the queue. -/
def waitingPost : Mod := (memory .e (ready [1, 0x10000])).updCore 0 fun k => { k with wait := .shpost }
theorem wit_shpost_resume : let m := waitingPost.updCore 0 fun k => { k with wait := .none }
    (waitingPost.core 0).wait = .shpost ∧ m.standsReady 0 ∧ m.holdsOps 0 [1, 0x10000] 0 ∧ capFail dcap pRD 0x10000 64 = none ∧ dcap.type = 0 ∧ m.shtPick 0 0 = some 0 ∧
      waitingPost.powered = true ∧ waitingPost.shtPick 0 0 = some 0 ∧
      okAnd ((m.fetched 0).places 0 dcap .read 0x10000 64) (fun r => r.1 == [(.loc 0x20000, 64)] && (r.2.readNow 0 0x20000 64).isOk) = true := by
  unfold Mod.standsReady Mod.holdsOps; decide +kernel
theorem test_shpost_resume : (fun (m : Mod) => ((m.core 0).bank.ops, (m.core 0).wait, (m.sht 0).queue.map fun d => (d.bytes.take 2, d.addr))) (after (.shpostResume 0 0) waitingPost) =
    ([], .none, [([0x11, 0x22], 0x10000)]) := by decide +kernel
/-- Both shuttles of the panel are full. -/
theorem wit_shpost_full : let m := memory .e (ready [1, 0x10000]); ((upto 2).foldl (fun (m : Mod) s => m.updSht s fun q => { q with queue := List.replicate 64 {} }) m).shtPick 0 0 = none := by decide +kernel
theorem test_shpost_range : ((after (.shpost 0 0) (ready [4097, 0x10000])).core 0).creg 0x380 = serrOf 5 0x2D 0 0 := by decide +kernel
def customer (on push : Bool) : Mod := (ready []).updCore 0 fun k => { k with uc := { k.uc with cur := { disp := [(2, BitVec.ofNat 32 (2 ^ 31 * b2n on + 2 ^ 30 * b2n push))], ents := [(0, BitVec.ofNat 34 (2 ^ 33))] } } }
theorem test_cust_none : ((after (.cust 0 2 0) (customer false true)).core 0).creg 0x380 = serrOf 2 0x12 0 0 := by decide +kernel
theorem test_cust_nop : (fun (b : Bank) => (b.ops, b.pc)) ((after (.cust 0 2 77) (customer true true)).core 0).bank = ([77], 0x10004) := by decide +kernel


/-! ## Vector unit, matrix array, finishing engine -/

/-- Vector register `r` from byte 0. -/
def withV (r : Nat) (bs : List Byte) (m : Mod) : Mod := m.updCore 0 fun k => { k with vec := { k.vec with regs := Memory.setBytes k.vec.regs (2048 * r) bs } }
/-- Mask `j`. -/
def withM (j v : Nat) (m : Mod) : Mod := m.updCore 0 fun k => { k with vec := { k.vec with masks := Tab.put k.vec.masks j v } }
/-- VL. -/
def withVl (n : Nat) (m : Mod) : Mod := m.updBank 0 fun b => { b with vl := n }
/-- Words of four bytes. -/
def i32s (l : List Nat) : List Byte := l.flatMap (toLe 4)
theorem wit_vset : vecWordFail (setFld (wordOf 0x20 0) 4 0 0) 3 = none ∧ vecWordFail (setFld (wordOf 0x20 0) 4 0 1) 3 = none ∧
    vecWordFail (setFld (wordOf 0x20 (1 * 2 ^ 21 + 5 * 2 ^ 15)) 4 0 4) 3 = none ∧ vecWordFail (setFld (wordOf 0x20 (2 * 2 ^ 18)) 4 0 5) 3 = none ∧
    vecWordFail (setFld (wordOf 0x20 (2 * 2 ^ 18)) 4 0 6) 3 = none ∧ ((ready []).core 0).blocked 0 { reads := [fReg 1, fMask 2] } false = false := by decide +kernel
theorem test_vsetvl : (fun (b : Bank) => (b.ops, b.vl)) ((after (.vsetvl 0 0) (ready [2048, 1])).core 0).bank = ([1], 2048) := by decide +kernel
theorem test_vsetvl_range : (fun (k : Core) => (k.bank.vl, k.creg 0x2010, k.trap)) ((after (.vsetvl 0 0) (ready [2049])).core 0) = (0, 0x2005, some 4) := by decide +kernel
theorem test_vgetvl : ((after (.vgetvl 0 0) (withVl 9 (ready []))).core 0).bank.ops = [9] := by decide +kernel
theorem test_vget_signed : ((after (.vget 0 (1 * 2 ^ 21 + 5 * 2 ^ 15)) (withV 1 (i32s [1, 0x80000000]) (ready [1]))).core 0).bank.ops = [0xFFFFFFFF80000000] := by decide +kernel
theorem test_vget_float : ((after (.vget 0 (1 * 2 ^ 21 + 1 * 2 ^ 15)) (withV 1 (i32s [1, 0x80000000]) (ready [1]))).core 0).bank.ops = [0x80000000] := by decide +kernel
theorem test_vmpop : ((after (.vmpop 0 (2 * 2 ^ 18)) (withM 2 0b11010 (withVl 4 (ready [])))).core 0).bank.ops = [2] := by decide +kernel
theorem test_vmfirst : ((after (.vmfirst 0 (2 * 2 ^ 18)) (withM 2 0b11010 (withVl 4 (ready [])))).core 0).bank.ops = [1] := by decide +kernel
theorem test_vmfirst_none : ((after (.vmfirst 0 (2 * 2 ^ 18)) (withM 2 0b10000 (withVl 4 (ready [])))).core 0).bank.ops = [4] := by decide +kernel
theorem wit_station : (Instr.vput 0 (5 * 2 ^ 15), wordOf 0x20 (withSub (5 * 2 ^ 15) 3)) ∈ stationRows 0 (5 * 2 ^ 15) ∧ vecWordFail (wordOf 0x20 (withSub (5 * 2 ^ 15) 3)) 4 = none ∧
    vecPops (wordOf 0x20 (withSub (5 * 2 ^ 15) 3)) = 2 ∧ vecArgFail (wordOf 0x20 (withSub (5 * 2 ^ 15) 3)) 4 [1, 2] = none ∧
    vecArgFail (wordOf 0x20 (withSub (5 * 2 ^ 15) 3)) 4 [512, 2] = some 6 := by decide +kernel
theorem test_vput_station : ((after (.vput 0 (5 * 2 ^ 15)) (withVl 4 (ready [1, 2, 3]))).core 0).vec.stations = [{ word := 0x80028003, args := [1, 2], vl := 4, pc := 0x10000 }] := by
  decide +kernel
theorem test_vput_elem : ((after (.vput 0 (5 * 2 ^ 15)) (withVl 4 (ready [512, 2, 3]))).core 0).creg 0x2010 = 0x32006 := by decide +kernel
/-- With VL 0, VBCASTS enters a station, and writes nothing. -/
theorem test_vbcasts_no_vl : (fun (k : Core) => (k.vec.stations.map (·.args), k.cregf 0x2040 47 0)) ((after (.vbcasts 0 (5 * 2 ^ 15)) (ready [1, 2, 3])).core 0) = ([[1]], 0) := by decide +kernel
/-- MMIN of integers is legal, MABS of a code 0x1F is not. -/
theorem test_varith_badfunc : ((after (.varith 0 (5 * 32 + 0x1F)) (withVl 4 (ready []))).core 0).creg 0x2010 = 0x1F2303 := by decide +kernel
theorem wit_vmem : let m := memory .e (withVl 2 (ready [0x10000]))
    okAnd ((m.fetched 0).vecRange 0 3 true true 0x10000 8) (fun r => r.1 == [(.loc 0x20000, 8)]) = true ∧
    okAnd ((m.fetched 0).vecRange 0 3 false true 0x10000 8) (fun r => r.1 == [(.loc 0x20000, 8)] && okAnd (r.2.readNow 0 0x20000 8) fun x => x.1.length == 8) = true ∧
    vecWordFail (wordOf 0x21 (3 * 2 ^ 12 + 2 * 2 ^ 16)) 2 = none ∧ vecArgFail (wordOf 0x21 (3 * 2 ^ 12 + 2 * 2 ^ 16)) 2 [0x10000] = none ∧
    vecWordFail (wordOf 0x22 (3 * 2 ^ 12 + 2 * 2 ^ 16)) 2 = none ∧
    (m.core 0).mayRead { word := wordOf 0x21 (3 * 2 ^ 12 + 2 * 2 ^ 16), seq := (m.core 0).seq, args := [0x10000], vl := 2, ranges := [(.loc 0x20000, 8)], va := 0x10000, vlen := 8 } = true := by decide +kernel
/-- A store that overlaps a load stands in a station: the load enters one and has not read memory. -/
def behind (m : Mod) : Mod := m.updCore 0 fun k => { k with seq := k.seq + 1, vec := { k.vec with
  stations := [{ word := wordOf 0x22 (3 * 2 ^ 12 + 2 * 2 ^ 16), seq := k.seq, vl := 2, ranges := [(.loc 0x20000, 8)], va := 0x10000, vlen := 8 }] } }
theorem wit_vld_waits : let m := behind (memory .e (withVl 2 (ready [0x10000])))
    (m.core 0).mayRead { word := wordOf 0x21 (3 * 2 ^ 12 + 2 * 2 ^ 16), seq := (m.core 0).seq, args := [0x10000], vl := 2, ranges := [(.loc 0x20000, 8)], va := 0x10000, vlen := 8 } = false ∧
      m.standsReady 0 := by unfold Mod.standsReady; decide +kernel
theorem test_vld_waits : (((after (.vld 0 (3 * 2 ^ 12 + 2 * 2 ^ 16)) (behind (memory .e (withVl 2 (ready [0x10000]))))).core 0).vec.stations.map fun q => (q.asked, q.data)) =
    [(false, []), (false, [])] := by decide +kernel
theorem test_vld : (((after (.vld 0 (3 * 2 ^ 12 + 2 * 2 ^ 16)) (memory .e (withVl 2 (ready [0x10000])))).core 0).vec.stations.map fun q => (q.ranges, q.data.map (·.2))) =
    [([(.loc 0x20000, 8)], [0x11, 0x22, 0x33, 0x44, 0x55, 0x66, 0x77, 0x88])] := by decide +kernel
theorem test_vst : (((after (.vst 0 (3 * 2 ^ 12 + 2 * 2 ^ 16)) (memory .e (withVl 2 (ready [0x10000])))).core 0).vec.stations.map fun q => (q.ranges, q.vlen)) = [([(.loc 0x20000, 8)], 8)] := by
  decide +kernel
/-- Cap 4 has BOLT permission. -/
def boltCap : Cap := mkCap 0 (pRD + pWR + pBOLT) 0 0x400000 0 true
theorem wit_bolt : capFail boltCap (pRD + pBOLT) 0x40 8 = none ∧ capFail boltCap (pWR + pBOLT) 0x40 8 = none ∧ bit (4 * 2 ^ 12 + 2 ^ 15 + 2 * 2 ^ 16 : BitVec 26) 15 = true ∧
    vecWordFail (wordOf 0x21 (4 * 2 ^ 12 + 2 ^ 15 + 2 * 2 ^ 16)) 2 = none ∧ vecArgFail (wordOf 0x21 (4 * 2 ^ 12 + 2 ^ 15 + 2 * 2 ^ 16)) 2 [0x40] = none := by decide +kernel
theorem test_vld_bolt : (((after (.vld 0 (4 * 2 ^ 12 + 2 ^ 15 + 2 * 2 ^ 16)) (withCap boltCap (withVl 2 (ready [0x40])))).core 0).vec.stations.map fun q => (q.bolt, q.vlen)) = [(some 0x40, 8)] := by
  decide +kernel
/-- A load in a station that has not read memory. -/
def unread : Mod := (memory .e (ready [])).updCore 0 fun k => { k with vec := { k.vec with
  stations := [{ word := wordOf 0x21 (3 * 2 ^ 21 + 3 * 2 ^ 12 + 2 * 2 ^ 16), seq := 4, vl := 2, args := [0x10000], ranges := [(.loc 0x20000, 8)], va := 0x10000, vlen := 8 }] } }
theorem wit_start_load : someAnd (unread.core 0).readyStation (fun q => q.isLoad && !q.asked && okAnd (unread.readStation 0 q false) fun r => r.1.rwait.isEmpty && !r.1.data.isEmpty) = true ∧
    unread.coh.upsets = [] ∧ unread.powered = true := by decide +kernel
theorem test_start_load : ((after (.vectorStart (0, [])) unread).core 0).vec.stations.map (fun q => (q.started, q.writes)) = [(true, [(0x1800, [0x11, 0x22, 0x33, 0x44]), (0x1804, [0x55, 0x66, 0x77, 0x88])])] := by
  decide +kernel
/-- c1 reaches the line for a mask of 256 bytes, at 0x20000 and the next line. -/
def maskMem : Mod := (memory .e (ready [0x10000])).updMem 0 fun q => q.install 0x401 .e 0
theorem wit_mask_mem : okAnd ((maskMem.updBank 0 fun b => b.setCap 1 dcap).vecRange 0 1 false false 0x10000 256) (fun r => r.1 == [(.loc 0x20000, 256)] &&
    okAnd (r.2.readNow 0 0x20000 256) fun x => x.1.length == 256) = true := by decide +kernel
theorem test_vmld : (((after (.vmld 0 (2 * 2 ^ 18)) (maskMem.updBank 0 fun b => b.setCap 1 dcap)).core 0).vec.stations.map fun q => (q.vlen, (q.data.take 2).map (·.2))) = [(256, [0x11, 0x22])] := by
  decide +kernel
theorem test_vmst : (((after (.vmst 0 (2 * 2 ^ 18)) (maskMem.updBank 0 fun b => b.setCap 1 dcap)).core 0).vec.stations.map fun q => (q.vlen, q.ranges)) = [(256, [(.loc 0x20000, 256)])] := by
  decide +kernel
/-- A station with an ADD of I32, VD 3, VA 1, VB 2. -/
def vadd (m func t mask : Nat) : W32 := wordOf 0x23 (BitVec.ofNat 26 (3 * 2 ^ 21 + 1 * 2 ^ 16 + 2 * 2 ^ 11 + mask * 2 ^ 8 + t * 2 ^ 5 + func + 0 * m))
def adding (started : Bool) : Mod :=
  noCues (withV 1 (i32s [1, 2, 3]) (withV 2 (i32s [10, 20, 0xFFFFFFFF]) (withV 3 (i32s [7, 7, 7]) (withM 2 0b101 ((ready []).updCore 0 fun k => { k with vec := { k.vec with
    stations := [{ word := vadd 0 0 5 2, vl := 3, seq := 4, started := started, writes := if started then [(0x1800, i32s [11])] else [], maskWrites := if started then [(3, 9)] else [] }] } })))))
theorem wit_start : ((adding false).core 0).readyStation = some { word := vadd 0 0 5 2, vl := 3, seq := 4 } ∧ (adding false).noCue ∧ (adding false).powered = true := by
  unfold Mod.noCue; decide +kernel
theorem test_start : (((after (.vectorStart (0, [])) (adding false)).core 0).vec.stations.map fun q => (q.started, q.writes)) =
    [(true, [(0x1800, i32s [11]), (0x1808, i32s [2])])] := by decide +kernel
theorem test_done : (fun (k : Core) => (vGet k.vec.regs 3 4 0, vGet k.vec.regs 3 4 1, Tab.get 0 k.vec.masks 3, k.vec.stations, k.cregf 0x2040 47 0))
    ((after (.vectorInstructionDone 0 0) (adding true)).core 0) = (11, 7, 9, [], 1) := by decide +kernel
def storing : Mod := (ready []).updCore 0 fun k => { k with vec := { k.vec with
    stations := [{ word := wordOf 0x22 0, seq := 4, started := true, stores := [(0, [1, 2])], ranges := [(.loc scratchBase, 2)] }] } }
theorem wit_store : storing.isSpool scratchBase = false ∧ storing.rangeFenced scratchBase 2 = false ∧ storing.coh.upsets = [] ∧ sbTouches (storing.core 0).sb scratchBase 2 = false ∧ (storing.core 0).vec.stations.any Station.isStore = true := by decide +kernel
theorem test_store : (after (.vectorInstructionDone 0 0) storing).rdMem scratchBase 2 = [1, 2] := by decide +kernel
/-- The results of one word over registers of three elements each. -/
def resultOf (w : W32) (args : List W64) (vl r n i : Nat) : Nat :=
  let k := (adding false).core 0
  vGet ((evalStation k.vec.regs k.vec.masks (fun _ => 0) { word := w, vl := vl, args := args }).1.after k.vec.regs) r n i
theorem test_add_wraps : ((upto 4).map (resultOf (vadd 0 0 5 0) [] 3 3 4)) = [11, 22, 2, 0] := by decide +kernel
theorem test_add_masked : ((upto 4).map (resultOf (vadd 0 0 5 2) [] 3 3 4)) = [11, 7, 2, 0] := by decide +kernel
theorem test_sub : ((upto 3).map (resultOf (vadd 0 1 5 0) [] 3 3 4)) = [0xFFFFFFF7, 0xFFFFFFEE, 4] := by decide +kernel
/-- VSLIDEUP by 1 of v1 into v3, and VSLIDEDN. -/
theorem test_slideup : ((upto 3).map (resultOf (wordOf 0x29 (3 * 2 ^ 21 + 1 * 2 ^ 16 + 5 * 2 ^ 10 + 2)) [1] 3 3 4)) = [7, 1, 2] := by decide +kernel
theorem test_slidedn : ((upto 3).map (resultOf (wordOf 0x29 (3 * 2 ^ 21 + 1 * 2 ^ 16 + 5 * 2 ^ 10 + 3)) [1] 3 3 4)) = [2, 3, 0] := by decide +kernel
theorem test_vbcast : ((upto 3).map (resultOf (wordOf 0x29 (3 * 2 ^ 21 + 1 * 2 ^ 16 + 5 * 2 ^ 10 + 1)) [2] 2 3 4)) = [3, 3, 7] := by decide +kernel
theorem test_vcompress : ((upto 3).map (resultOf (wordOf 0x29 (3 * 2 ^ 21 + 1 * 2 ^ 16 + 2 * 2 ^ 13 + 5 * 2 ^ 10 + 4)) [] 3 3 4)) = [1, 3, 7] := by decide +kernel
/-- FP32: 1.0 + 2.0 and 1.0 × 2.0 + 0.5. -/
def fresult (w : W32) : Nat :=
  let regs := Memory.setBytes (Memory.setBytes (Memory.setBytes [] 2048 (i32s [0x3F800000])) 4096 (i32s [0x40000000])) 8192 (i32s [0x3F000000])
  vGet ((evalStation regs [] (fun _ => 0) { word := w, vl := 1 }).1.after regs) 3 4 0
theorem test_fadd : fresult (vadd 0 0 1 0) = 0x40400000 := by decide +kernel
theorem test_fma : fresult (wordOf 0x24 (3 * 2 ^ 21 + 1 * 2 ^ 16 + 2 * 2 ^ 11 + 4 * 2 ^ 6 + 1 * 2)) = 0x40200000 := by decide +kernel
theorem test_vmlog : (evalStation [] [(1, 0b1100), (2, 0b1010), (3, 0b10000)] (fun _ => 0) { word := wordOf 0x26 (3 * 2 ^ 23 + 1 * 2 ^ 20 + 2 * 2 ^ 17 + 2 * 2 ^ 14), vl := 4 }).1.masks = [(3, 0b10110)] := by
  decide +kernel

/-- INT8 weights and activations, one element: code 4 in both, M = N = K = 1. -/
def oneShape : W64 := 4 * 2 ^ 30 + 4 * 2 ^ 34
def matrix (ops : List W64) : Mod :=
  noCues (withV 1 [5] ((ready ops).updCore 0 fun k => { k with bolt := Memory.setBytes [] 0 [3], ctl := [(0x1000, 3), (0x1040, oneShape)] }))
/-- MTILE of patch 0, slot 0, activations in v1, base 0. -/
def tileF : BitVec 26 := 1 * 2 ^ 12
theorem wit_matrix : (matrix [0, 0]).standsReady 0 ∧ (matrix [0, 0]).holdsOps 0 [0, 0] 0 ∧ ((matrix [0, 0]).core 0).mode = 3 ∧
    loadFail 3 0 (shapeOf oneShape) 0 = none ∧ tileFail 3 0 (shapeOf oneShape) { shape := oneShape, vreg := 1 } = none ∧
    tileFail 3 0 (shapeOf oneShape) { shape := oneShape, wofs := 64 } = some 4 ∧ ((matrix []).core 0).mat.patches.all (fun q => !q.2.busy) = true ∧
    ((matrix []).core 0).blocked 0 { writes := [fAcc 0 128] } false = false ∧ ((matrix []).core 0).noZeros ∧ (((matrix []).core 0).patch 0).queue.length < 8 ∧
    windowOf 3 0 = 0 ∧ (((matrix []).core 0).patch 0).nanStop = false := by unfold Mod.standsReady Mod.holdsOps Core.noZeros; decide +kernel
theorem test_mcfg : (fun (k : Core) => (k.mode, k.bank.pc)) ((after (.mcfg 0 (2 * 2 ^ 24)) (matrix [])).core 0) = (2, 0x10004) := by decide +kernel
theorem test_mshape : (fun (k : Core) => (k.creg 0x1050, k.slotGen 2)) ((after (.mshape 0 (2 * 2 ^ 19)) (matrix [0xFFFFFFFFFFFFFFFF])).core 0) = (0x7FFFFFFFFFFF, 1) := by decide +kernel
def tiled : Mod := after (.mtile 0 tileF) (matrix [0, 0])
theorem test_mtile : (fun (k : Core) => (k.bank.ops, (k.patch 0).queue.map fun x => (x.shape, x.vreg, x.seq), k.mat.port.length)) (tiled.core 0) = ([], [(oneShape, 1, 0)], 1) := by decide +kernel
theorem test_mtile_wofs : ((after (.mtile 0 tileF) (matrix [0, 64])).core 0).creg 0x1010 = 0x3204 := by decide +kernel
theorem test_mpre : (((after (.mpre 0 0) (matrix [0])).core 0).patch 0).queue.map (fun x => (x.pre, x.wofs)) = [(true, 0)] := by decide +kernel
theorem test_mwait_busy : ((after (.mwait 0 (2 ^ 10)) tiled).core 0).bank.pc = 0x10004 := by decide +kernel
theorem test_mwait : ((after (.mwait 0 (2 ^ 11)) tiled).core 0).bank.pc = 0x10008 := by decide +kernel
theorem test_mzero : ((after (.mzero 0 0) ((matrix []).updCore 0 fun k => { k with mat := { k.mat with acc := [(0, 1), (127, 2), (128, 3)] } })).core 0).mat.acc = [(128, 3)] := by decide +kernel
/-- A row that a queued tile writes: MZERO queues behind it. -/
theorem wit_mzero_waits : (tiled.core 0).blocked (tiled.core 0).seq { writes := [fAcc 0 128] } false = true ∧ (tiled.core 0).noZeros := by unfold Core.noZeros; decide +kernel
theorem test_mzero_waits : (fun (k : Core) => (k.bank.pc, (k.patch 0).queue.map (·.zero))) ((after (.mzero 0 0) tiled).core 0) = (0x10008, [none, some (0, 128)]) := by decide +kernel
theorem wit_port : (tiled.core 0).mat.port.map (fun r => (r.patch, r.load.pre)) = [(0, false)] ∧ tiled.coreFenced 0 = false ∧ (tiled.core 0).boltErr = [] ∧
    (tiled.core 0).blocked 0 { reads := [fBolt 0 1024] } true = false ∧ tiled.noCue := by unfold Mod.noCue; decide +kernel
def loaded : Mod := after (.weightPortGrant (0, [])) tiled
theorem test_port : (((loaded.core 0).patch 0).shadow.map fun l => l.bytes.take 2) = some [3, 0] := by decide +kernel
theorem wit_tile_start : let k := loaded.core 0; (nextLoad k.mode (k.patch 0).queue).isSome = true ∧ k.ctlNew = [] ∧ (k.patch 0).nanStop = false ∧ bit (k.creg 0x1200) 0 = false ∧
    someAnd (nextLoad k.mode (k.patch 0).queue) (fun r => !r.1.pre && !r.1.asrc && someAnd (k.patch 0).shadow fun l => l.serves r.1 r.2 && !k.blocked r.1.seq (r.1.foot k.mode) true) = true := by
  decide +kernel
/-- The granule of the record's first byte is lost. -/
theorem test_port_error : (fun (k : Core) => ((k.patch 0).nanStop, k.pend)) ((after (.weightPortGrant (0, [(0, true)])) tiled).core 0) = (true, [9]) := by decide +kernel
theorem wit_port_error : ∀ r ∈ (tiled.core 0).mat.port, r.load.wofs + r.load.tile * (shapeOf r.load.shape).recSize 3 < 16 ∧ 0 < (shapeOf r.load.shape).recUsed 3 := by decide +kernel
def started : Mod := after (.tileStart (0, []) 0) loaded
theorem test_tile_start : ((started.core 0).patch 0).runs.map (fun r => (r.tile, r.weights.take 1, r.rows.take 2)) = [(0, [3], [5, 0])] := by decide +kernel
/-- 3 × 5 = 15.0. -/
theorem test_tile_sum : (fun (k : Core) => (accWord k.mat.acc 0, (k.patch 0).runs, (k.patch 0).queue)) ((after (.tileRowsSummed 0 0) started).core 0) = (0x41700000, [], []) := by decide +kernel
/-- Basting on: MAT_BASTE enabled; the narrow sum of the basted tile is set to 1.0, and the reference is 15.0. -/
def basted (nar : W32) : Mod :=
  let m := after (.tileStart (0, []) 0) (loaded.updCore 0 fun k => { k with ctl := Tab.put k.ctl 0x1200 9 })
  m.updCore 0 fun k => { k with mat := { k.mat with baste := k.mat.baste.map fun b => { b with narrow := [nar] } } }
theorem wit_baste : someAnd ((basted 0).core 0).mat.baste (fun b => b.run.checkedCols (shapeOf b.run.ins.shape) b.mode == [0] && b.mode == 3 && b.narrow == [0]) = true := by decide +kernel
theorem test_baste_agrees : (fun (k : Core) => (k.mat.baste, k.cregf 0x1220 47 0, k.pend)) ((after (.basteCheck 0) (basted 0x41700000)).core 0) = (none, 0, []) := by decide +kernel
theorem test_baste_differs : (fun (k : Core) => (k.mat.baste, k.cregf 0x1220 47 0, k.cregf 0x1230 0 0, k.pend)) ((after (.basteCheck 0) (basted 0x3F800000)).core 0) = (none, 1, 1, [7]) := by
  decide +kernel

/-- One stage ADD of X and the constant C0 = 2.0; source: one FP32 element of v1; destination: FP32 in v2. -/
def chainBytes : List Byte :=
  toLe 4 0 ++ toLe 4 (1 * 2 ^ 30 + 8 * 2 ^ 26 + 3 * 2 ^ 24 + 1 * 2 ^ 18 + 8 * 2 ^ 14) ++ toLe 4 0 ++ List.replicate 12 0 ++
    toLe 8 (1 * 2 ^ 60 + 0x20 * 2 ^ 16) ++ List.replicate 56 0 ++ toLe 4 0x40000000 ++ List.replicate 36 0
/-- c1 is the data cap; memory at 0x20000 holds a descriptor. -/
def finish (bs : List Byte) (ops : List W64) : Mod :=
  let m := withLine .e (withBytes bs ((ready ops).wr bSPLMAP 1))
  noCues (withV 1 (i32s [0x3F800000]) (m.updBank 0 fun b => b.setCap 1 dcap))
theorem wit_fload : chainBytes.length = 128 ∧ chainFail chainBytes = none ∧ chainFail (toLe 4 1 ++ chainBytes.drop 4) = some (2, 0) ∧ (finish chainBytes [0x10000]).standsReady 0 ∧
    okAnd (((finish chainBytes [0x10000]).fetched 0).places 0 dcap .read 0x10000 128) (fun r => r.1 == [(.loc 0x20000, 128)] &&
      okAnd (r.2.readNow 0 0x20000 128) fun x => x.1 == chainBytes) = true := by unfold Mod.standsReady; decide +kernel
theorem test_fload : ((after (.fload 0 (3 * 2 ^ 22)) (finish chainBytes [0x10000])).core 0).fin.slots = [(3, chainBytes)] := by decide +kernel
theorem test_fload_reserved : ((after (.fload 0 (3 * 2 ^ 22)) (finish (toLe 4 1 ++ chainBytes.drop 4) [0x10000])).core 0).creg 0x3008 = 0x303702 := by decide +kernel
/-- A stage that names P where the rows could exceed 512 fails BADSEL at FLOAD, and not where they cannot. -/
theorem test_fload_p : ((chainOf chainBytes).stageBadSel 0 (1 * 2 ^ 60 + 2 * 2 ^ 16), { chainOf chainBytes with rowlen := 2048 }.stageBadSel 0 (1 * 2 ^ 60 + 2 * 2 ^ 16)) = (true, false) := by
  decide +kernel
/-- COUNT 1, DBASE v2, YBASE 0, XBASE v1, with slot 3 loaded. -/
def finSlot (ops : List W64) : Mod := (finish [] ops).updCore 0 fun k => { k with fin := { k.fin with slots := [(3, chainBytes)] } }
theorem wit_frun : runFail (chainOf chainBytes) 2048 0 4096 1 = none ∧ (chainOf chainBytes).dkind = 1 ∧ (chainOf chainBytes).dfmt = 8 ∧ (finSlot [1, 4096, 0, 2048]).standsReady 0 := by
  unfold Mod.standsReady; decide +kernel
def passing : Mod := after (.frun 0 (3 * 2 ^ 22)) (finSlot [1, 4096, 0, 2048])
theorem test_frun : ((passing.core 0).fin.queue.map fun p => (p.slot, p.xbase, p.ybase, p.dbase, p.count)) = [(3, 2048, 0, 4096, 1)] := by decide +kernel
theorem test_frun_empty : ((after (.frun 0 (2 * 2 ^ 22)) (finSlot [1, 4096, 0, 2048])).core 0).creg 0x3008 = 0x203801 := by decide +kernel
theorem wit_pass : let k := passing.core 0; k.unitsHeld = false ∧ k.fin.running = none ∧ k.fin.queue.all (fun p => !k.blocked p.seq p.foot false && !p.overlaps) = true ∧ k.noZeros ∧
    (chainOf chainBytes).xkind ≠ 2 ∧ (chainOf chainBytes).ykind ≠ 2 := by unfold Core.noZeros; decide +kernel
def inPass : Mod := after (.finPassStart (0, [])) passing
theorem test_pass_start : (inPass.core 0).fin.running.map (fun p => (p.res.map (·.out), p.scs, p.written)) = some ([0x40400000], [], 0) := by decide +kernel
theorem test_pass_end : (fun (k : Core) => (vGet k.vec.regs 2 4 0, vGet k.vec.regs 1 4 0, k.fin.running, k.cregf 0x3048 47 0)) ((after (.finPassComplete 0) inPass).core 0) =
    (0x40400000, 0x3F800000, none, 1) := by decide +kernel
theorem test_fwait : ((after (.fwait 0 0) passing).core 0).bank.pc = 0x10004 ∧ ((after (.fwait 0 0) (ready [])).core 0).bank.pc = 0x10004 := by decide +kernel
/-- MUL of 3.0 and 2.0 halved, and MAX against NaN. -/
theorem test_stage_mul : (stage false (2 * 2 ^ 60 + 1 * 2 ^ 58 + 1 * 2 ^ 16) fun b => if b = 0 then 0x40400000 else 0x40000000).1 = 0x40400000 := by decide +kernel
theorem test_stage_max_nan : (stage false (5 * 2 ^ 60 + 1 * 2 ^ 16) fun b => if b = 0 then 0x7FC00000 else 0x40000000).1 = fp32.round false .nan := by decide +kernel

/-! ## Seams -/

/-- Entry 5: a STAGE entry (or a PASS entry) in RUN, of partition 0, that lands in cores 0 and 1 at 0x100 with two slots of 4 granules, and sends to
device 1 as stream 9. -/
def seam (kind : Nat) (e : SemEntry) : Mod :=
  let m0 : Mod := netOf (ready [])
  let m1 := ((((m0.wrf (bSx 5) 31 30 kind).wrf (bSx 5) 11 0 9).wrf (bSx 5 + 0x14) 15 8 1).wrf (bSx 5 + 0x14) 23 16 1).wrf (bSx 5 + 0x18) 17 0 16
  let m2 := ((m1.wrf (bSx 5 + 0x18) 31 20 4).wrf (bSx 5 + 0x28) 2 0 1).wrf (bSx 5 + 0x04) 31 0 (2 ^ 31 + 1)
  let m3 := ((m2.wrf (bSx 5 + 0x1C) 31 0 0xFFFFFFFF).wrf (bSx 5 + 0x20) 15 0 0xFFFF)
  { m3 with sem := { m3.sem with entries := [(5, e)] } }
/-- A chunk of stream 5: kind, LAST, SEQ, position, and a payload of LEN granules of one byte value. -/
def chunkOf (kind last seq pos len v : Nat) : List Byte :=
  buildChunk (kind * 2 ^ 28 + last * 2 ^ 26 + len * 2 ^ 12) seq pos 0 3 5 (List.replicate (16 * len) (BitVec.ofNat 8 v))
/-- The same with a wrong CHECK. -/
def torn (d : List Byte) : List Byte := d.dropLast ++ [1] |>.set (0x20 + 16) 0x5A |>.set (0x20 + 17) 0x5A
theorem wit_chunk : let d := chunkOf 1 1 0 0 1 0x77
    32 ≤ d.length ∧ (chKind d, chStream d, chSeq d, chLen d, chLast d) = (1, 5, 0, 1, true) ∧ chOk d = true ∧ chLenOk d = true ∧ chOk (torn d) = false ∧ chLenOk (torn d) = true ∧
    (seam 1 {}).chunkFail d = none ∧ (seam 1 {}).sxStage 5 = true ∧ (seam 1 {}).sxSlots 5 = 2 ∧ (seam 1 {}).sxState 5 = 1 ∧ (seam 2 {}).sxStage 5 = false ∧
    (seam 1 {}).powered = true := by decide +kernel
/-- R34's check value is CRC32C: of the digits 1 to 9 it is 0xE3069283. -/
theorem test_crc32c : crc32c [0x31, 0x32, 0x33, 0x34, 0x35, 0x36, 0x37, 0x38, 0x39] = 0xE3069283 := by decide +kernel
theorem wit_chunk_take : ((seam 1 {}).takeMsg 1 (chunkOf 1 1 0 0 1 0)).1.isNone = true ∧ (seam 1 {}).chunkFail (chunkOf 1 1 2 0 1 0) = none ∧
    seqUp 2 0 = 2 ∧ (seam 1 {}).vc1Held 0 = false ∧ ((seam 1 {}).passPart 0 (chunkOf 1 1 0 0 1 0)).isNone = true ∧ (seam 1 {}).landUp 5 = true := by decide +kernel
theorem wit_take_none (m : Mod) (d : List Byte) (h : m.lnk.arrived = []) : m.takeMsg 1 d = (none, m) := by rw [Mod.takeMsg, h]; rfl
/-- One chunk waits: the next of its link is not taken, and one of another link is. -/
def oneWaits : Mod := after (.dataChunk 0 (chunkOf 1 1 2 0 1 0)) (seam 1 {})
theorem test_vc1_held : oneWaits.vc1Held 0 = true ∧ (fun (e : SemEntry) => (e.landing.length, e.waiting.length)) ((after (.dataChunk 0 (chunkOf 1 1 1 0 1 0)) oneWaits).sx 5) = (0, 1) ∧
    (fun (e : SemEntry) => (e.landing.length, e.waiting.length)) ((after (.dataChunk 1 (chunkOf 1 1 1 0 1 0)) oneWaits).sx 5) = (1, 1) := by decide +kernel
theorem test_data_lands : (fun (e : SemEntry) => (e.landing.length, e.waiting.length)) ((after (.dataChunk 0 (chunkOf 1 1 1 0 1 0)) (seam 1 {})).sx 5) = (1, 0) := by decide +kernel
theorem test_data_waits : (fun (e : SemEntry) => (e.landing.length, e.waiting.length)) ((after (.dataChunk 0 (chunkOf 1 1 2 0 1 0)) (seam 1 {})).sx 5) = (0, 1) := by decide +kernel
theorem test_trim_passes : ((after (.trimChunk 0 (chunkOf 2 1 0 0 0 0)) (seam 2 {})).sx 5).passing.length = 1 := by decide +kernel
theorem test_close_idle : (fun (m : Mod) => (m.rdf (bSEM + 0x100) 47 0, m.sx 5)) (after (.closeChunk 0 (chunkOf 3 1 0 0 0 0)) ((seam 1 {}).wrf (bSx 5 + 0x28) 2 0 0)) = (1, {}) := by
  decide +kernel
theorem test_data_len : (fun (m : Mod) => (m.rdf (bSEM + 0x110) 47 0, m.rdf (bSEM + 0x188) 47 0, m.sxf 5 0x28 13 13)) (after (.dataChunk 0 (chunkOf 1 1 0 0 2 0)) (seam 1 {})) = (1, 1, 1) := by
  decide +kernel
def inx (d : List Byte) : SemIn := { data := d }
theorem wit_admit : let m := seam 1 { waiting := [inx (chunkOf 1 1 1 0 1 0)] }; m.chunkFail (chunkOf 1 1 1 0 1 0) = none ∧ seqUp 1 0 < m.sxSlots 5 ∧ m.landUp 5 = true ∧
    m.heldBack (.entry 5) = false ∧ (inx (chunkOf 1 1 1 0 1 0)).inMsg = none ∧ (inx []).more = false ∧ seqDiff 1 (m.sxNext 5) = 1 := by decide +kernel
theorem test_admit : (fun (e : SemEntry) => (e.landing.length, e.waiting.length)) ((after (.waitingChunkAdmit 5) (seam 1 { waiting := [inx (chunkOf 1 1 1 0 1 0)] })).sx 5) = (1, 0) := by
  decide +kernel
/-- SEQ 1 lands in slot 1: byte 16 × (16 + 4), payload from 0x20 on, in both bolts. -/
theorem test_lands : (fun (m : Mod) => ((Tab.get? (m.sx 5).slots 1).map (·.handled), Memory.byte (m.core 1).bolt (16 * 20 + 0x20), Memory.byte (m.core 2).bolt (16 * 20 + 0x20)))
    (after (.chunkLanded 5) (seam 1 { landing := [inx (chunkOf 1 1 1 0 1 0x77)] })) = (some false, 0x77, 0) := by decide +kernel
theorem test_torn_fences : (fun (m : Mod) => (m.sxRaw 5, (m.sx 5).slots.length, m.rdf (bSEM + 0x118) 47 0, m.sxf 5 0x28 8 8))
    (after (.chunkLanded 5) (seam 1 { landing := [inx (torn (chunkOf 1 1 1 0 1 0x77))] })) = (3, 0, 1, 1) := by decide +kernel
theorem wit_way : let m := seam 2 {}; m.semDest 5 0 = some 1 ∧ m.semDest 5 1 = none ∧ m.semDepth 5 0 < 64 ∧ m.topo ≠ 0 ∧ m.devOk 1 = true ∧ (1 ≠ m.dev) ∧ m.route 1 none = some (0, 0) ∧
    (m.upLinks 0).isEmpty = false := by decide +kernel
theorem test_pass : (fun (m : Mod) => ((m.outQueue 0).map fun x => (x.msg.dest, chStream x.msg.data), (m.sx 5).passed.length))
    (after (.passForward 5) (seam 2 { passing := [inx (chunkOf 1 1 0 0 1 0)] })) = ([(1, 9)], 1) := by decide +kernel
theorem test_pass_torn : (after (.passLastByte 5) (seam 2 { passed := [inx (torn (chunkOf 1 1 0 0 1 0))] })).rdf (bSEM + 0x178) 47 0 = 1 := by decide +kernel
def slotOf (d : List Byte) : SemEntry := { slots := [(0, { data := d })] }
/-- COMMIT stands at 3. -/
def committed (d : List Byte) : Mod := (seam 1 (slotOf d)).wrf (bSx 5 + 0x34) 31 0 3
theorem wit_handle : let m := committed (chunkOf 1 1 0 7 1 0); m.sxNext 5 = 0 ∧ m.sxCommit 5 = 3 ∧ (Tab.get? (m.sx 5).slots 0).isSome = true ∧ m.sxf 5 0x00 28 28 = 0 ∧
    m.heldBack (.entry 5) = false ∧ (Tab.get? (m.sx 5).slots 0).map (fun q => (q.handled, q.released)) = some (false, false) := by decide +kernel
def handled (d : List Byte) : Nat × Nat × Nat := (fun (m : Mod) => (m.sxNext 5, m.sxCommit 5, m.sxRaw 5)) (after (.handleAtNext 5) (committed d))
theorem test_handle_data : handled (chunkOf 1 1 0 7 1 0) = (1, 8, 1) := by decide +kernel
theorem test_handle_not_last : handled (chunkOf 1 0 0 7 1 0) = (1, 3, 1) := by decide +kernel
theorem test_handle_below : handled (chunkOf 1 1 0 2 1 0) = (1, 3, 1) := by decide +kernel
theorem test_handle_trim : handled (chunkOf 2 1 0 5 0 0) = (1, 5, 1) := by decide +kernel
theorem test_handle_close : handled (chunkOf 3 1 0 5 0 0) = (1, 3, 4) := by decide +kernel
theorem test_release : (fun (e : SemEntry) => (e.rel, e.slots)) ((after (.semSxrel 0 5 1) (seam 1 { slots := [(0, { data := [], handled := true })] })).sx 5) = (1, []) := by decide +kernel
theorem test_release_none : (after (.semSxrel 0 5 0) (seam 1 {})).sxf 5 0x28 12 12 = 1 ∧ (seam 1 {}).mayWrite 0 (bSx 5 + 0x38) 0 = true := by decide +kernel
/-- A descriptor of a DATA chunk of stream 5, one granule of the bolt at 0: bytes 8 to 15 are the write. -/
def sending : Mod := (seam 1 {}).updCore 0 fun k => { k with semWin := w64 (7 * 2 ^ 32 + 1 * 2 ^ 28 + 1 * 2 ^ 26 + 1 * 2 ^ 12 + 5), bolt := Memory.setBytes [] 0 [0x42] }
theorem wit_send : sending.sendOk 0 (toLe 8 (sending.core 0).semWin.toNat ++ toLe 8 0) = true ∧ sending.sem.posts = [] ∧ sending.coreFenced 0 = false ∧ (sending.core 0).boltErr = [] ∧ sending.heldBack (.entry 5) = false ∧
    sending.sendOk 0 (toLe 8 (sending.core 0).semWin.toNat ++ toLe 8 (2 ^ 63)) = false := by decide +kernel
theorem test_send : (fun (m : Mod) => (m.sxf 5 0x30 31 0, (m.outQueue 0).map fun x => (chPos x.msg.data, chStream x.msg.data, x.msg.data.getD 0x20 0, chOk x.msg.data)))
    (after (.sendDescriptorPost 0 0) sending) = (1, [(7, 9, 0x42, true)]) := by decide +kernel
theorem test_send_bad : (fun (m : Mod) => (m.sxf 5 0x30 31 0, m.sxf 5 0x28 12 12)) (after (.sendDescriptorPost 0 (2 ^ 63)) sending) = (0, 1) := by decide +kernel
def full : Mod := { sending with lnk := { sending.lnk with groups := [(0, List.replicate 64 { seam := some (5, 0) })] } }
theorem test_send_full : full.semFull 5 = true ∧ (after (.sendDescriptorPost 0 0) full).sem.posts.length = 1 := by decide +kernel
theorem test_send_room : (fun (m : Mod) => (m.sem.posts, m.sxf 5 0x30 31 0))
    (after (.sendQueueRoom 0) { sending with sem := { sending.sem with posts := [(0, toLe 8 (sending.core 0).semWin.toNat ++ toLe 8 0)] } }) = ([], 1) := by decide +kernel
theorem test_auto_fwd : (fun (m : Mod) => (m.sxf 5 0x30 31 0, (m.sx 5).fwd, (m.outQueue 0).map fun x => chKind x.msg.data))
    (after (.autoFwdSend 5) (seam 1 { lastOut := 2, fwd := [{ count := 2, head := (chunkOf 2 1 0 5 0 0).take 16 }] })) = (1, [], [2]) := by decide +kernel
theorem wit_reach : ∀ h : HostId, h.val = 0 → (seam 1 {}).reachedBy h (bSx 5 + 0x24) ∧ (seam 1 {}).reachedBy h (bSx 5 + 0x3C) ∧ (seam 1 {}).reachedBy h (bSx 5 + 0x38) := by
  unfold Mod.reachedBy; decide +kernel
theorem test_run : (after (.semSxctlRun 0 5) ((seam 1 {}).wrf (bSx 5 + 0x28) 2 0 2)).sxRaw 5 = 1 ∧ (after (.semSxctlRun 0 5) ((seam 1 {}).wrf (bSx 5 + 0x28) 2 0 3)).sxRaw 5 = 3 := by decide +kernel
theorem test_fence : (after (.semSxctlFence 0 5) (seam 1 {})).sxRaw 5 = 3 ∧ (after (.semSxctlFence 1 5) (seam 1 {})).sxRaw 5 = 1 := by decide +kernel
theorem test_down : (after (.semSxctlDown0 0 5) (seam 1 {})).sxf 5 0x24 3 2 = 1 ∧ (after (.semSxctlDown1 0 5) (seam 1 {})).sxf 5 0x24 3 2 = 2 := by decide +kernel
/-- The mark is armed at the SEQ that NEXT has: OUTSEQ 0 and COMMIT 3 are captured. -/
theorem test_mark_captures : (fun (m : Mod) => (m.sxf 5 0x44 31 0, m.sxf 5 0x28 14 14, (m.sx 5).armed))
    (after (.handleAtNext 5) ((seam 1 { slotOf (chunkOf 1 1 0 7 1 0) with armed := true }).wrf (bSx 5 + 0x34) 31 0 3)) = (3, 1, false) := by decide +kernel
theorem test_mark : (fun (m : Mod) => (m.sxf 5 0x3C 31 0, (m.sx 5).armed)) (after (.semSxmark 0 5 77) (seam 1 {})) = (77, true) := by decide +kernel
/-- The fitter is out of reset, and port 0's clock runs. -/
def monitored : Mod := let m := ready []; { m with fit := { m.fit with phase := .running } }
theorem wit_monitor : monitored.fit.phase ≠ .off ∧ monitored.clockSrc = 1 ∧ (monitored.host 0).clock = true ∧ (monitored.host 1).clock = false ∧ monitored.pwr.groups = 6 := by decide +kernel
theorem test_window : (fun (m : Mod) => (m.rdf (bPWR + 0x50) 19 0, m.rdf (bPWR + 0x50) 31 29, m.rdf (bPWR + 0x50) 63 32)) (after (.stitchMonitorWindow 2 0x12345) monitored) = (0x12345, 5, 1) := by
  decide +kernel
theorem test_clock_loss : (after (.monitorClockLoss 0) (after (.stitchMonitorWindow 2 0x12345) monitored)).rdf (bPWR + 0x50) 31 29 = 0 := by decide +kernel
theorem test_clock_return : (after (.referenceClockReturn 1) (after (.monitorClockLoss 0) monitored)).rdf (bPWR + 0x50) 30 29 = 2 := by decide +kernel
theorem test_sag : (fun (m : Mod) => ((m.core 0).stopped, (m.core 64).stopped, m.railVolt 0, m.panelUp 0, m.panelUp 1)) (after (.coreRailCollapse 0 430) monitored) = (true, false, 430, false, true) := by decide +kernel

/-! ## Patterns -/

/-- A record of format 1: count, flags of bits 31 to 16 of word 1, successor index. -/
def recordOf (count hi : Nat) : List Byte := toLe 4 0 ++ toLe 4 (hi * 2 ^ 16 + count) ++ List.replicate 16 0 ++ toLe 8 0x99
/-- A ring entry. -/
def entryOf (op slot : Nat) : List Byte := toLe 4 (slot * 2 ^ 8 + op) ++ toLe 4 0 ++ toLe 8 0x5000 ++ toLe 8 0x77 ++ toLe 8 0
/-- Partition 0's rings at 0x1000 and 0x2000, binding table at 0x3000, cap table at 0x4000, save area at 0x100000; a header of one piece at 0x5000, records
at 0x6000, state words at 0x7000, successors at 0x8000; core 0 is free. -/
def patternOf (entry record : List Byte) : Mod :=
  let m0 := (modOf {}).wr bSPLMAP 1
  let m1 := (((m0.wrf (bPAT 0) 45 0 0x1004).wrf (bPAT 0 + 8) 45 0 0x2000).wrf (bPAT 0 + 0x10) 45 0 0x3000).wrf (bPAT 0 + 0x18) 45 0 0x4000
  let m2 := (m1.wr (bPAT 0 + 0x20) (w64 (2 ^ 52 + 0x100000))).wrf (bPAT 0 + 0x40) 31 0 1
  let hdr := toLe 4 1 ++ toLe 4 0xFFFE ++ toLe 8 0x6000 ++ toLe 8 0x8000 ++ toLe 8 0x7000 ++ toLe 4 0x10000 ++ toLe 4 1
  { m2 with mem := Memory.setBytes (Memory.setBytes (Memory.setBytes (Memory.setBytes (Memory.setBytes [] 0x1000 entry) 0x4000 (toLe 16 dcap.bits.toNat)) 0x5000 hdr) 0x6000 record) 0x8000 (toLe 2 0)
            tags := [(0x400, true)] }
def slotX : PatSlot := (patternOf [] (recordOf 2 0)).readHeader 0x5000 0x77
theorem wit_submit : let m := patternOf (entryOf 1 3) (recordOf 0 0)
    m.powered = true ∧ m.ringOpen 0 ∧ m.spl.fenced = [] ∧ (m.wrf (bPAT 0 + 0x48) 31 0 1).submitFail 0 (m.ringEntry 0) (m.readHeader 0x5000 0x77) = none ∧ slotX.pieces = 1 ∧
      slotX.stateBase + 8 ≤ 0x8000 ∧ m.compOpen 0 ∧ (m.part 0).holds (m.ringPlace 0) 32 = true := by unfold Mod.ringOpen Mod.compOpen; decide +kernel
theorem test_submit_ready : (fun (m : Mod) => ((m.pool 0).map (·.piece), m.pieceState slotX 0, m.rdf (bPAT 0 + 0x48) 31 0, (m.pat? 0 3).map (·.left)))
    (after (.submit 0) (patternOf (entryOf 1 3) (recordOf 0 0))) = ([{ part := 0, slot := 3, ix := 0 }], 1, 1, some 1) := by decide +kernel
theorem test_submit_waits : (fun (m : Mod) => (m.pat.pools, m.pieceState slotX 0, m.pieceCount slotX 0)) (after (.submit 0) (patternOf (entryOf 1 3) (recordOf 2 0))) = ([], 0, 2) := by
  decide +kernel
/-- OP 9 is reserved: STATUS 0x10 and the tag. -/
theorem test_submit_op : (fun (m : Mod) => (m.rdMem 0x2000 16, m.rdf (bPAT 0 + 0x50) 31 0, m.rdf (bPAT 0 + 0x68) 1 1)) (after (.submit 0) (patternOf (entryOf 9 3) (recordOf 0 0))) =
    (toLe 4 0x310 ++ toLe 4 0 ++ toLe 8 0x77, 1, 1) := by decide +kernel
theorem test_abort_none : (after (.abort 0) (patternOf (entryOf 2 3) (recordOf 0 0))).rdMem 0x2000 4 = toLe 4 0x312 := by decide +kernel
/-- The same with the pattern in flight and its piece in a state with a count. -/
def inFlight (entry record : List Byte) (st count : Nat) : Mod :=
  let m := patternOf entry record
  { m with pat := { m.pat with slots := [(slotKey 0 3, slotX)] }, mem := Memory.setBytes m.mem 0x7000 (toLe 8 (st * 2 ^ 16 + count)) }
theorem test_abort : (fun (m : Mod) => ((m.pat? 0 3).map fun x => (x.left, x.cancelled, x.aborted), m.pieceState slotX 0, m.pieceCount slotX 0))
    (after (.abort 0) (inFlight (entryOf 2 3) (recordOf 2 0) 0 2)) = (some (0, 1, true), 6, 2) := by decide +kernel
theorem wit_abort : let m := inFlight (entryOf 2 3) (recordOf 2 0) 0 2
    bitsN (descW (m.ringEntry 0) 0 4) 7 0 = 2 ∧ ringReserved (m.ringEntry 0) = false ∧ ringSlot (m.ringEntry 0) = 3 ∧ (m.part 0).holds (m.ringPlace 0) 32 = true ∧ m.ringOpen 0 := by
  unfold Mod.ringOpen; decide +kernel
/-- The ring, or the binding table alone, lies outside the partition's memory (R301). -/
def farRing : Mod := (patternOf (entryOf 1 3) (recordOf 0 0)).wrf (bPAT 0) 45 0 (2 ^ 40 + 4)
def farTable : Mod := (patternOf (entryOf 1 3) (recordOf 0 0)).wrf (bPAT 0 + 0x10) 45 0 (2 ^ 40)
theorem wit_far_ring : farRing.ringOpen 0 ∧ (farRing.part 0).holds (farRing.ringPlace 0) 32 = false ∧ farRing.compOpen 0 := by
  unfold Mod.ringOpen Mod.compOpen; decide +kernel
theorem test_far_ring : (fun (m : Mod) => (m.rdf (bPAT 0 + 0x50) 31 0, m.pat.slots)) (after (.submit 0) farRing) = (1, []) := by decide +kernel
theorem wit_far_table : farTable.ringOpen 0 ∧ (2 ^ 40, 0x80000) ∈ farTable.patSpans 0 ∧ (farTable.part 0).holds (2 ^ 40) 0x80000 = false ∧ farTable.compOpen 0 := by
  unfold Mod.ringOpen Mod.compOpen; decide +kernel
theorem test_far_table : (fun (m : Mod) => (m.rdMem 0x2000 4, m.pat.slots)) (after (.submit 0) farTable) = (toLe 4 0x313, []) := by decide +kernel
/-- The ring of a STOPPED partition is served (R525). -/
theorem test_submit_stopped : ((after (.submit 0) ((patternOf (entryOf 1 3) (recordOf 0 0)).updPart 0 fun q => { q with st := .stopped })).pat? 0 3).isSome = true := by decide +kernel
theorem test_rreset : (fun (m : Mod) => (m.rdf (bPAT 0 + 0x48) 31 0, m.rdf (bPAT 0 + 0x68) 0 0)) (after (.rreset 0 0) ((patternOf [] []).raise (bPAT 0 + 0x68) 0)) = (1, 0) := by decide +kernel
theorem wit_pat_host : ∀ h : HostId, h.val = 0 → (patternOf [] []).reachedBy h (bPAT 0 + 0x70) ∧ (patternOf [] []).reachedBy h (bPAT 0 + 0x60) := by unfold Mod.reachedBy; decide +kernel
theorem test_nfire : (after (.patNfire 0 0 0x1234) (patternOf [] [])).pat.fires = [{ part := 0, notch := 0x1234, src := .host 0 }] := by decide +kernel
def ended : Mod := let m := inFlight [] (recordOf 2 0) 4 0; { m with pat := { m.pat with slots := [(slotKey 0 3, { slotX with left := 0 })] } }
theorem wit_complete : ended.compOpen 0 ∧ ended.pat.compWait = [] ∧ ended.leadUp 0 = true ∧ ended.heldBack (.lead 0) = false ∧ slotX.doneNotch = 0xFFFE := by unfold Mod.compOpen; decide +kernel
theorem test_complete : (fun (m : Mod) => (m.rdMem 0x2000 16, m.pat.slots, m.pat.fires)) (after (.patternComplete 0 3) ended) =
    (toLe 4 0x300 ++ toLe 4 0 ++ toLe 8 0x77, [], [{ part := 0, notch := 0xFFFE, src := .lead 0 }]) := by decide +kernel
theorem test_complete_waits : (after (.patternComplete 0 3) (ended.wrf (bPAT 0 + 0x50) 31 0 16)).pat.compWait.map (·.tag) = [0x77] := by decide +kernel
theorem test_ring_room : (fun (m : Mod) => (m.rdMem 0x2000 4, m.pat.compWait)) (after (.completionRingRoom 0) { ended with pat := { ended.pat with compWait := [{ part := 0, slot := 1, status := 0x13 }] } }) =
    (toLe 4 0x113, []) := by decide +kernel
/-- A fire of notch 4; the binding entry of notch 4 in memory. -/
def firing (bind : Nat) (m : Mod) : Mod := { m with pat := { m.pat with fires := [{ part := 0, notch := 4 }] }, mem := Memory.setBytes m.mem 0x3020 (toLe 8 bind) }
theorem test_unbound : (fun (m : Mod) => (m.pat.fires, m.rdf (bPAT 0 + 0x98) 47 0)) (after (.notchDelivery 0) (firing 0 (patternOf [] []))) = ([], 1) := by decide +kernel
theorem test_stray : (after (.notchDelivery 0) (firing (2 ^ 63 + 3 * 2 ^ 40) (patternOf [] []))).rdf (bPAT 0 + 0xA0) 47 0 = 1 := by decide +kernel
theorem test_notch_counts : (after (.notchDelivery 0) (firing (2 ^ 63 + 3 * 2 ^ 40) (inFlight [] (recordOf 2 0) 0 2))).pieceCount slotX 0 = 1 := by decide +kernel
def seated (v : Nat) (m : Mod) : Mod := m.updCore 0 fun k => { k with run := .seated, piece := some { slot := 3 }, seats := [7, 4, 0xFFFF], ctl := [(0x0A0, w64 (v * 2 ^ 16))] }
theorem wit_seat : ((seated 3 (patternOf [] [])).core 0).seatFor 4 = some 1 ∧ ((seated 3 (patternOf [] [])).part 0).cores = [0] := by decide +kernel
theorem test_seat_counts : ((after (.notchDelivery 0) (firing 0 (seated 3 (patternOf [] [])))).core 0).cregf 0x0A0 31 16 = 4 := by decide +kernel
theorem test_seat_full : (after (.notchDelivery 0) (firing 0 (seated 65535 (patternOf [] [])))).pat.held = [{ core := 0, seat := 1, notch := 4, piece := { slot := 3 } }] := by decide +kernel
def downing (record : List Byte) (count : Nat) : Mod := let m := inFlight [] record 0 count; { m with pat := { m.pat with downs := [{ dst := { slot := 3 } }] } }
theorem wit_down : (downing (recordOf 2 0) 2).pat? 0 3 = some slotX ∧ (downing (recordOf 2 0) 2).pieceCount slotX 0 = 2 ∧ (downing (recordOf 2 0x10) 1).recFan slotX 0 = true ∧
    (let m := downing (recordOf 2 0) 2; m.panelUp (m.homeOf { slot := 3 }) = true ∧ firstIx (fun (e : Down) => e.src == ({} : PieceId) && m.homeOf e.dst == m.homeOf { slot := 3 }) m.pat.downs = some 0) := by
  decide +kernel
theorem test_down05 : (after (.countDown 0) (downing (recordOf 2 0) 2)).pieceCount slotX 0 = 1 := by decide +kernel
theorem test_down_ready : (fun (m : Mod) => ((m.pool 0).map (·.prio), m.pieceState slotX 0)) (after (.countDown 0) (downing (recordOf 2 6) 1)) = ([6], 1) := by decide +kernel
theorem test_down_fan : (after (.countDown 0) (downing (recordOf 2 0x10) 1)).pat.fanouts = [{ slot := 3 }] := by decide +kernel
/-- A cancelled piece with a count: STRAY, its word unchanged. -/
theorem test_down_cancelled : (fun (m : Mod) => (m.rdf (bPAT 0 + 0xA0) 47 0, m.pieceCount slotX 0, m.pieceState slotX 0))
    (after (.countDown 0) (let m := inFlight [] (recordOf 2 0) 6 2; { m with pat := { m.pat with downs := [{ dst := { slot := 3 } }] } })) = (1, 2, 6) := by decide +kernel
/-- Two of one list: the second names the first. -/
theorem test_down_order : let m : Mod := { downing (recordOf 2 0) 2 with pat := { (downing (recordOf 2 0) 2).pat with downs := [{ dst := { slot := 3 } }, { dst := { slot := 3, ix := 9 } }] } }
    firstIx (fun (e : Down) => e.src == ({} : PieceId) && m.homeOf e.dst == m.homeOf { slot := 3, ix := 9 }) m.pat.downs = some 0 ∧ (after (.countDown 1) m).pieceCount slotX 0 = 1 := by decide +kernel
theorem test_down_stray : (after (.countDown 0) (downing (recordOf 2 0) 0)).rdf (bPAT 0 + 0xA0) 47 0 = 1 := by decide +kernel
/-- One listed successor: piece 0. -/
def ending : Mod := let m := inFlight [] (recordOf 2 0x100) 2 0; { m with pat := { m.pat with completed := [{ slot := 3 }], fanouts := [{ slot := 3 }] } }
theorem test_piece_complete : (fun (m : Mod) => (m.pieceState slotX 0, (m.pat? 0 3).map (·.left), m.pat.downs, m.pat.completed)) (after (.pieceComplete 0) ending) =
    (4, some 0, [{ src := { slot := 3 }, dst := { slot := 3, ix := 0 } }], []) := by decide +kernel
theorem wit_ending : ending.pat? 0 3 = some slotX ∧ ending.panelUp (ending.recPanel slotX 0) = true := by decide +kernel
theorem test_fanout_complete : (fun (m : Mod) => (m.pieceState slotX 0, m.pat.downs.length, m.pat.fanouts)) (after (.fanoutComplete 0) ending) = (4, 1, []) := by decide +kernel
theorem test_pool_space : (fun (m : Mod) => ((m.pool 2).length, Tab.get [] m.pat.poolWait 2))
    (after (.poolSpaceFree 2) { patternOf [] [] with pat := { poolWait := [(2, [{ prio := 1 }, { prio := 2 }])] } }) = (1, [{ prio := 2 }]) := by decide +kernel
/-- A ready piece in panel 0's pool. -/
def poolOf (record : List Byte) : Mod := let m := inFlight [] record 1 0; { m with pat := { m.pat with pools := [(0, [{ piece := { slot := 3 } }])] } }
theorem wit_dispatch : let m := poolOf (recordOf 2 0)
    m.partOf 0 = some 0 ∧ (m.core 0).run = .free ∧ m.panelUp 0 = true ∧ (m.part 0).st = .running ∧ m.wild 0 0 = false ∧ (m.best 0 0).isSome = true ∧ m.pat? 0 3 = some slotX ∧
      m.rangeFenced 0x7000 8 = false ∧ m.capsBad 0 slotX 0 = false ∧ ({ m with tags := [] } : Mod).capsBad 0 slotX 0 = true ∧ m.pat.saved = [] := by decide +kernel
theorem test_dispatch : (fun (m : Mod) => (m.pat.pools, (m.core 0).run, m.pieceState slotX 0, (m.core 0).bank.pc, (m.core 0).bank.ops, (m.core 0).bank.sp))
    (after (.dispatch 0) (poolOf (recordOf 2 0))) = ([(0, [])], .running, 2, 0x10000, [0x99], 0x10080) := by decide +kernel
theorem test_dispatch_rsp : ((after (.dispatch 0) (poolOf (recordOf 2 0))).core 0).bank.rsp = 0x10100 := by decide +kernel
theorem test_dispatch_seat : (fun (m : Mod) => ((m.core 0).run, m.pieceState slotX 0)) (after (.dispatch 0) (poolOf (recordOf 2 0x28))) = (.seated, 5) := by decide +kernel
theorem test_dispatch_bad : (fun (m : Mod) => ((m.core 0).run, m.pieceState slotX 0, m.rdf (bPAT 0 + 0xB8) 47 0)) (after (.dispatch 0) { poolOf (recordOf 2 0) with tags := [] }) = (.free, 7, 1) := by
  decide +kernel
def holding (v : Nat) : Mod := let m := seated v (patternOf [] []); { m with pat := { m.pat with held := [{ core := 0, seat := 1, notch := 4, piece := { slot := 3 } }] } }
theorem test_resume : (fun (m : Mod) => ((m.core 0).cregf 0x0A0 31 16, m.pat.held)) (after (.seatDeliveryResume 0) (holding 9)) = (10, []) := by decide +kernel
theorem wit_resume : let m := holding 9; m.leadUp 0 = true ∧ (m.core 0).run = .seated ∧ (m.core 0).piece = some { slot := 3 } ∧ bitsN (m.bindEntry 0 4).1 63 63 = 0 := by decide +kernel
theorem test_resume_gone : (fun (m : Mod) => (m.rdf (bPAT 0 + 0x98) 47 0, m.pat.held)) (after (.seatDeliveryResume 0) ((holding 9).updCore 0 fun k => { k with run := .free, piece := none })) = (1, []) := by
  decide +kernel
/-- The piece of core 0 waits on a fault. -/
def faulting : Mod := (inFlight [] (recordOf 2 0) 2 0).updCore 0 fun k => { k with run := .running, piece := some { slot := 3 }, bank := bankOf [5] [6], wait := .fault 0x12345 .read 2 }
theorem wit_switch : faulting.freeSave 0 = some 0 ∧ faulting.recPin slotX 0 = false ∧ faulting.saveBase 0 0 = 0x100000 ∧ 0x7008 ≤ 0x100000 ∧ faulting.powered = true ∧ (faulting.core 0).openLoad = none ∧
    faulting.panelUp 0 = true ∧ faulting.spl.fenced = [] := by decide +kernel
/-- A saved piece: its save has not completed, and its reply has come. -/
def savedOf (reply : Option Nat) (pools : Tab (List Ready)) : Mod := let m := inFlight [] (recordOf 2 3) 3 0; { m with pat := { m.pat with pools := pools, saved := [{ piece := { slot := 3 }, reply := reply, units := { fetchCap := dcap } }] } }
theorem wit_save : (savedOf (some 0) []).panelUp 0 = true ∧ (savedOf (some 0) []).pat.saved.map (·.panel) = [0] ∧ ((savedOf (some 0) []).pool 0).length < 4096 := by decide +kernel
theorem test_save : (after (.saveComplete 0) (savedOf none [])).pat.saved.map (·.stored) = [true] := by decide +kernel
theorem test_save_reply : ((after (.saveComplete 0) (savedOf (some 0) [])).pool 0).map (fun r => (r.piece, r.prio)) = [({ slot := 3 }, 3)] := by decide +kernel
/-- Its image in the save area: word 0 is the pc. -/
def backOf : Mod := let m := savedOf (some 0) [(0, [{ piece := { slot := 3 } }])]; { m with mem := Memory.setBytes m.mem 0x100000 (toLe 8 0x10040) }
theorem test_restore : (fun (m : Mod) => ((m.core 0).bank.pc, (m.core 0).run, m.pieceState slotX 0, m.pat.saved, (m.core 0).piece)) (after (.dispatch 0) backOf) =
    (0x10040, .running, 2, [], some { slot := 3 }) := by decide +kernel

/-! ## Coherence -/

/-- Line 0x400 of spool 0 with a directory state, and one message in flight. -/
def homeOf (st : DirSt) (txn : Option DirTxn) (x : CMsg) : Mod :=
  let m := noCues ((ready []).wr bSPLMAP 1)
  let m1 := m.setDir 0x400 { st := st, txn := txn }
  { m1 with coh := { m1.coh with msgs := [x] } }
/-- A message of core 3 about the line. -/
def msg (k : CKind) : CMsg := { kind := k, la := 0x400, agent := 3 }
/-- What is in flight, and what the entry's transaction will leave. -/
def flight (m : Mod) : List (CKind × Nat) × Option (Bool × Nat × DirSt) := (m.coh.msgs.map fun x => (x.kind, x.agent), (m.dirAt 0x400).txn.map fun q => (q.granted, q.acks, q.next))
theorem wit_home : (homeOf .u none (msg .gets)).atHome 0 .gets (msg .gets) ∧ (homeOf (.s { ptrs := [3] }) none (msg .upg)).atHome 0 .upg (msg .upg) ∧
    (homeOf (.x 9) none (msg .getx)).atHome 0 .getx (msg .getx) := by unfold Mod.atHome; decide +kernel
theorem test_gets : flight (after (.gets 0 0) (homeOf .u none (msg .gets))) = ([(.dataE, 3)], some (true, 0, .x 3)) ∧
    flight (after (.gets 0 0) (homeOf (.s { ptrs := [9] }) none (msg .gets))) = ([(.dataS, 3)], some (true, 0, .s { ptrs := [9, 3] })) := by decide +kernel
theorem test_gets_owned : (flight (after (.gets 0 0) (homeOf (.x 9) none (msg .gets)))).1 = [(.fwds, 9)] := by decide +kernel
theorem test_getx : flight (after (.getx 0 0) (homeOf .u none (msg .getx))) = ([(.dataM, 3)], some (true, 0, .x 3)) := by decide +kernel
theorem test_getx_shared : (flight (after (.getx 0 0) (homeOf (.s { ptrs := [9, 8] }) none (msg .getx)))).1 = [(.inv, 9), (.inv, 8)] := by decide +kernel
theorem test_upg : flight (after (.upg 0 0) (homeOf (.s { ptrs := [3] }) none (msg .upg))) = ([(.grant, 3)], some (true, 0, .x 3)) ∧
    (flight (after (.upg 0 0) (homeOf (.s { ptrs := [3, 7] }) none (msg .upg)))).1 = [(.inv, 7)] := by decide +kernel
def txnOf (req : CKind) (acks : Nat) : DirTxn := { req := req, agent := 3, acks := acks, granted := req == .gack, next := .x 3 }
theorem test_gack : let m := after (.gack 0) (homeOf .u (some (txnOf .gack 0)) (msg .gack)); m.dirAt 0x400 = { st := .x 3 } ∧ m.coh.msgs = [] := by decide +kernel
theorem wit_busy : (homeOf .u (some (txnOf .gets 2)) (msg .gets)).busy 0x400 = true := by decide +kernel
theorem test_nak : (fun (m : Mod) => (m.coh.msgs.map fun x => (x.kind, x.req), m.rdf (bPNC (m.homePanel 0x400) + 0x60) 47 0)) (after (.putm 0 0) (homeOf .u (some (txnOf .gets 2)) (msg .putm))) =
    ([(.nak, 3)], 1) := by decide +kernel
/-- The line is not in B, and another request is queued for it: R355. -/
def queuedFor : Mod := let m := homeOf .u none (msg .gets); { m with coh := { m.coh with starve := [{ slice := sliceOf 0x400, agent := 7, la := 0x400, req := .getx }] } }
theorem wit_queued : (queuedFor.coh.starve.any fun q => q.la == 0x400) = true ∧ queuedFor.recallVictim 0x400 = none ∧ queuedFor.panelUp (queuedFor.homePanel 0x400) = true := by decide +kernel
theorem test_queued_nak : (after (.gets 0 0) queuedFor).coh.msgs.map (fun x => (x.kind, x.req)) = [(.nak, 0)] := by decide +kernel
theorem test_starve : (after (.getx 0 0) (homeOf .u (some (txnOf .gets 2)) { msg .getx with starve := true })).coh.starve.map (fun q => (q.agent, q.req)) = [(3, .getx)] := by decide +kernel
theorem test_ack : flight (after (.ack 0 0) (homeOf .u (some (txnOf .upg 2)) (msg .ack))) = ([], some (false, 1, .x 3)) ∧
    flight (after (.ack 0 0) (homeOf .u (some (txnOf .upg 1)) (msg .ack))) = ([(.grant, 3)], some (true, 0, .x 3)) := by decide +kernel
theorem test_ackd : flight (after (.ackd 0 0) (homeOf (.x 9) (some (txnOf .gets 1)) { msg .ackd with agent := 9, dirty := true })) = ([(.dataS, 3)], some (true, 0, .x 3)) ∧
    (after (.ackd 0 0) (homeOf (.x 9) (some (txnOf .gets 2)) { msg .ackd with agent := 9, dirty := true })).pncHas 0x400 = true := by decide +kernel
theorem wit_put : (homeOf (.x 3) none (msg .putm)).busy 0x400 = false ∧ ((homeOf (.x 3) none (msg .putm)).dirAt 0x400).st.records 3 = true ∧
    (homeOf (.x 3) none (msg .putm)).takesClean 0x400 = true := by decide +kernel
theorem test_putm : (fun (m : Mod) => ((flight m).1, m.pncHas 0x400)) (after (.putm 0 0) (homeOf (.x 3) none (msg .putm))) = ([(.putack, 3)], true) := by decide +kernel
theorem test_putc : (fun (m : Mod) => ((flight m).1, m.pncHas 0x400)) (after (.putc 0 0) (homeOf (.x 3) none (msg .putc))) = ([(.putack, 3)], true) ∧
    (fun (m : Mod) => ((flight m).1, m.pncHas 0x400)) (after (.putc 0 0) (homeOf (.x 9) none (msg .putc))) = ([(.putack, 3)], false) := by decide +kernel
/-- A panel-cache set whose ways all hold other lines, in AGE 0. -/
def crowded : Mod := let m := homeOf (.x 3) none (msg .putc); { m with coh := { m.coh with pnc := (upto 16).map fun i => (m.pncBase 0x400 + i, { key := 0x900000 + i, val := {} }) } }
theorem wit_declines : crowded.takesClean 0x400 = false := by decide +kernel
theorem test_putdec : (flight (after (.putc 0 0) crowded)).1 = [(.putdec, 3)] := by decide +kernel
theorem wit_plain : let m := homeOf .u none (msg .gack); m.panelUp (m.homePanel 0x400) = true ∧ m.agentUp (ncAgent 2) = true ∧ m.coh.upsets = [] ∧ m.busy 0x400 = false ∧
    ((m.askOf (ncAgent 2) 0x400 true).any (·.idle)) = false ∧ ((m.askOf (ncAgent 2) 0x400 false).any (·.idle)) = false ∧ m.lineFenced (0x400 * 128) = false ∧
    m.coh.asks = [] ∧ (homeOf .u (some { req := .gack, agent := 5 }) (msg .gack)).busy 0x400 = true := by decide +kernel
/-- A read that finds its line in B is NAKed, and after four NAKs it is queued. -/
theorem test_rd_nak : (fun (m : Mod) => (m.coh.msgs.map fun x => (x.kind, x.agent, x.req), m.coh.asks.map fun a => (a.agent, a.idle)))
    (after (.rd 2 0x400 0) { homeOf .u (some { req := .gets, agent := 5 }) (msg .gack) with }) = ([(.gack, 3, 0), (.nak, ncAgent 2, 5)], [(ncAgent 2, true)]) := by decide +kernel
theorem test_rd_starve : (fun (m : Mod) => (m.coh.msgs.length, m.coh.starve.map fun q => (q.agent, q.req)))
    (after (.rd 2 0x400 0) (let m := homeOf .u (some { req := .gets, agent := 5 }) (msg .gack); { m with coh := { m.coh with asks := [{ agent := ncAgent 2, la := 0x400, naks := 4 }] } })) =
    (1, [(ncAgent 2, .rd)]) := by decide +kernel
theorem test_wr : (fun (m : Mod) => (m.rdMem 0x20010 3, m.pncHas 0x400)) (after (.wr 2 0x400 0x10 [1, 2] 0) (homeOf .u none (msg .gack))) = ([1, 2, 0], true) := by decide +kernel
theorem test_wr_asks : (flight (after (.wr 2 0x400 0 [1] 0) (homeOf (.s { ptrs := [8] }) none (msg .gack)))).1 = [(.gack, 3), (.inv, 8)] ∧
    (flight (after (.wr 2 0x400 0 [1] 0) (homeOf (.x 8) none (msg .gack)))).1 = [(.gack, 3), (.fwdx, 8)] := by decide +kernel
theorem test_rd : (flight (after (.rd 2 0x400 0) (homeOf (.x 8) none (msg .gack)))).1 = [(.gack, 3), (.fwdr, 8)] ∧
    (after (.rd 2 0x400 0) (homeOf (.s { ptrs := [8] }) none (msg .gack))).pncHas 0x400 = true := by decide +kernel
/-- Core 3's caches, with one message for it. -/
def cacheOf (q : CoreMem) (x : CMsg) : Mod := (homeOf .u none x).updCore 3 fun k => { k with mem := q }
def missOf (naks : Nat) (naked : Bool) : CoreMem := { misses := [{ la := 0x400, req := 1, naks := naks, naked := naked }] }
def install (i : Instr) (k : CKind) : Mesi × Nat × List (CKind × Nat) := (fun (m : Mod) => ((m.core 3).mem.state 0x400, (m.core 3).mem.misses.length, (flight m).1)) (after i (cacheOf (missOf 0 false) (msg k)))
theorem test_data : install (.dataS 0) .dataS = (.s, 0, [(.gack, 3)]) ∧ install (.dataE 0) .dataE = (.e, 0, [(.gack, 3)]) := by decide +kernel
theorem test_data_m : install (.dataM 0) .dataM = (.m, 0, [(.gack, 3)]) ∧ install (.grant 0) .grant = (.m, 0, [(.gack, 3)]) := by decide +kernel
theorem test_nak_back : (fun (m : Mod) => ((m.core 3).mem.misses.map fun y => (y.naks, y.naked), m.rdf (bL2C 3 + 0x68) 47 0)) (after (.nak 0) (cacheOf (missOf 3 false) { msg .nak with req := 1 })) =
    ([(4, true)], 1) := by decide +kernel
theorem test_retry : (after (.nakRetry 3 0x400) (cacheOf (missOf 3 true) (msg .gack))).coh.msgs.map (fun x => (x.kind, x.starve)) = [(.gack, false), (.getx, false)] ∧
    (after (.nakRetry 3 0x400) (cacheOf (missOf 4 true) (msg .gack))).coh.msgs.map (fun x => (x.kind, x.starve)) = [(.gack, false), (.getx, true)] := by decide +kernel
/-- A prefetch that is NAKed is dropped; a NAKed offer, and a NAKed read of another agent, keep the count. -/
theorem test_nak_prefetch : ((after (.nak 0) (cacheOf { misses := [{ la := 0x400, req := 0, prefetch := true }] } { msg .nak with req := 0, prefetch := true })).core 3).mem.misses = [] := by decide +kernel
theorem test_nak_offer : ((after (.nak 0) (cacheOf { wb := [{ la := 0x400, dirty := true, sent := true, naks := 1 }] } { msg .nak with req := 3 })).core 3).mem.wb.map (fun w => (w.naks, w.naked)) = [(2, true)] := by
  decide +kernel
def asking (a : NcAsk) (x : CMsg) : Mod := let m := homeOf .u none x; { m with coh := { m.coh with asks := [a] } }
theorem test_nak_read : (after (.nak 0) (asking { agent := ncAgent 2, la := 0x400 } { msg .nak with agent := ncAgent 2, req := 5 })).coh.asks.map (fun a => (a.naks, a.naked)) = [(1, true)] := by decide +kernel
theorem wit_agents : (cacheOf {} (msg .nak)).agentUp 3 = true ∧ (cacheOf {} (msg .nak)).agentUp (ncAgent 2) = true ∧ ncAgent 2 = 258 ∧ (cacheOf {} (msg .nak)).starving 3 0x400 = false := by decide +kernel
theorem test_retry_offer : (after (.nakRetry 3 0x400) (cacheOf { wb := [{ la := 0x400, dirty := true, sent := true, naks := 4, naked := true }] } (msg .gack))).coh.msgs.map (fun x => (x.kind, x.starve, x.dirty)) =
    [(.gack, false, false), (.putm, true, true)] := by decide +kernel
theorem test_retry_read : (after (.nakRetry 258 0x400) (asking { agent := 258, la := 0x400, naks := 2, naked := true, idle := true } (msg .gack))).coh.asks.map (fun a => (a.naks, a.naked, a.idle)) = [(2, false, false)] := by
  decide +kernel
def offering (sent : Bool) : CoreMem := { wb := [{ la := 0x400, dirty := true, sent := sent }] }
theorem test_putack : ((after (.putack 0) (cacheOf (offering true) (msg .putack))).core 3).mem.wb = [] ∧ ((after (.putdec 0) (cacheOf (offering true) (msg .putdec))).core 3).mem.wb = [] := by
  decide +kernel
theorem test_offer : (after (.offerBufferFree 3) (cacheOf (offering false) (msg .gack))).coh.msgs.map (fun x => (x.kind, x.dirty)) = [(.gack, false), (.putm, true)] := by decide +kernel
def held (st : Mesi) : CoreMem := ({} : CoreMem).install 0x400 st 0
theorem wit_demand : (held .m).state 0x400 = .m ∧ (held .i).state 0x400 = .i ∧ (0x400 : Nat) ∉ (held .m).lostM ∧ (held .m).l2.length = 1 ∧ (cacheOf (held .m) (msg .inv)).noCue ∧
    (cacheOf (held .m) (msg .inv)).agentUp 3 = true ∧ (cacheOf (held .m) (msg .inv)).coh.upsets = [] := by unfold Mod.noCue; decide +kernel
theorem one_entry {α : Type} {t : Tab α} {i j : Nat} {w v : α} (h : t.length = 1) (hi : Tab.get? t i = some w) (hj : Tab.get? t j = some v) : i = j := by
  match t, h with
  | [(k, x)], _ =>
    simp only [Tab.get?] at hi hj
    split at hi <;> split at hj <;> simp_all
theorem wit_distinct : (held .m).distinct := fun _ _ _ _ hi hj _ => one_entry (by decide +kernel) hi hj
def demand (i : Instr) (k : CKind) (st : Mesi) : Mesi × List (CKind × Bool) := (fun (m : Mod) => ((m.core 3).mem.state 0x400, m.coh.msgs.map fun x => (x.kind, x.dirty))) (after i (cacheOf (held st) (msg k)))
/-- The line stands in the writeback buffer: it is answered from there, as a line no longer held. -/
theorem test_from_buffer : (after (.fwds 0 0) (cacheOf { wb := [{ la := 0x400, dirty := true, sent := true }] } (msg .fwds))).coh.msgs.map (fun x => (x.kind, x.dirty, x.gone)) = [(.ackd, true, true)] := by decide +kernel
theorem test_inv : demand (.inv 0 0) .inv .s = (.i, [(.ack, false)]) ∧ demand (.inv 0 0) .inv .i = (.i, [(.ack, false)]) := by decide +kernel
theorem test_recall : demand (.recall 0 0) .recall .m = (.i, [(.ackd, true)]) ∧ demand (.recall 0 0) .recall .e = (.i, [(.ack, false)]) := by decide +kernel
theorem test_fwds : demand (.fwds 0 0) .fwds .m = (.s, [(.ackd, true)]) ∧ demand (.fwds 0 0) .fwds .e = (.s, [(.ackd, false)]) := by decide +kernel
theorem test_fwdx : demand (.fwdx 0 0) .fwdx .m = (.i, [(.ackd, true)]) ∧ demand (.fwdr 0 0) .fwdr .m = (.e, [(.ackd, true)]) := by decide +kernel

/-! ## Shuttles and spools -/

/-- Descriptor bytes: word 0, source, destination, length; DONE_NOTCH 5, ERR_NOTCH 6. -/
def descOf (w0 src dst len : Nat) : ShtDesc :=
  { id := 9, bytes := toLe 4 w0 ++ toLe 4 0x50006 ++ toLe 8 src ++ toLe 8 dst ++ toLe 4 len ++ List.replicate 36 0, addr := 0x4000, scap := dcap, dcap := dcap, icap := dcap }
/-- A shuttle with these descriptors. -/
def shuttleOf (q r : List ShtDesc) : Mod :=
  let m := noCues (withBytes [0x11, 0x22, 0x33, 0x44] ((ready []).wr bSPLMAP 1))
  { m with shuttles := [(0, { queue := q, running := r })] }
/-- COPY of 4 bytes from 0x10000 to 0x10100, and the same without a length. -/
def copyD : ShtDesc := descOf (1 * 2 ^ 28) 0x10000 0x10100 4
def emptyD : ShtDesc := descOf (1 * 2 ^ 28) 0x10000 0x10100 0
theorem wit_start_sht : copyD.fail1 = none ∧ (shuttleOf [copyD] []).shtFail2 0 copyD = none ∧ emptyD.fail1 = some 2 ∧ copyD.hasIdx = false ∧ copyD.fence = false ∧
    (shuttleOf [copyD] []).shtFail2 0 (descOf (1 * 2 ^ 28) 0x20000 0x10100 4) = some 4 ∧ (shuttleOf [copyD] []).panelUp 0 = true ∧ (shuttleOf [copyD] []).heldBack (.shuttle 0) = false ∧ (shuttleOf [copyD] []).coh.upsets = [] := by decide +kernel
theorem test_copy_runs : (fun (m : Mod) => ((m.sht 0).queue, (m.sht 0).running.map (·.checked))) (after (.copy 0) (shuttleOf [copyD] [])) = ([], [true]) := by decide +kernel
theorem test_copy_fails : (fun (m : Mod) => ((m.sht 0).running, m.pat.fires.map (·.notch), m.rd (bPERR 0), m.rdf (bSHT 0 + 0x48) 47 0)) (after (.copy 0) (shuttleOf [emptyD] [])) =
    ([], [6], 0x8002000000004000, 1) := by decide +kernel
theorem test_stride_not_copy : ((after (.stride 0) (shuttleOf [copyD] [])).sht 0).queue = [copyD] := by decide +kernel
/-- GATHER and SCATTER of one row of 4 bytes, index list at 0x10000: cap c0, indices of 4 bytes. -/
def gatherD (op : Nat) : ShtDesc := { descOf (op * 2 ^ 28) 0x10000 0x10100 4 with
  bytes := (descOf (op * 2 ^ 28) 0x10000 0x10100 4).bytes.take 0x20 ++ List.replicate 16 0 ++ toLe 8 0x10004 ++ List.replicate 8 0 }
/-- The leaf of the test page, and a shared TLB that holds it alone. -/
def leafT : Leaf := { part := 0, vpn := 1, level := 3, pa := 0x20000, x := true, w := true }
def mapped (m : Mod) : Mod := { m with xlt := { m.xlt with tlb := [(stlbBase 0 0 1, { key := tlbKey 0 3 1, age := 0, val := leafT })] } }
theorem okAnd_eq {α : Type} [DecidableEq α] {r : Ex α} {a : α} (h : okAnd r (fun x => decide (x = a)) = true) : r = .ok a := by
  match r, h with
  | .ok x, h => simp only [okAnd, decide_eq_true_eq] at h; rw [h]
/-- A shuttle's address in the test page is translated by that entry, which stays as it is. -/
theorem xlat_mapped (m : Mod) (pg : Bool) (acc : Acc) (va n : Nat) (hv : va >>> 16 = 1) :
    (mapped m).shtXlat 0 0 pg acc va n = (do let p ← leafCheck (mapped m) 0 leafT pg acc va n; .ok (p, mapped m)) := by
  have hf : findWay (mapped m).xlt.tlb (stlbBase 0 0 1) 8 (tlbKey 0 3 1) = some (stlbBase 0 0 1, { key := tlbKey 0 3 1, age := 0, val := leafT }) := by
    simp [findWay, mapped, upto, List.range_succ_eq_map, Tab.get?]
  have hs : (mapped m).stlbFind 0 0 va = some leafT := by
    simp [Mod.stlbFind, pageBits, hv, hf]
  have hi : (mapped m).stlbInstall 0 leafT = mapped m := by
    have : leafT.part = 0 ∧ leafT.vpn = 1 ∧ leafT.level = 3 := ⟨rfl, rfl, rfl⟩
    simp only [Mod.stlbInstall, this, hf, hitWay]
    simp [mapped, Tab.put]
  simp [Mod.shtXlat, Mod.shtWarm, hs, hi]
/-- A range of the test page. -/
theorem range_mapped (m : Mod) (cap : Cap) (acc : Acc) (va n : Nat) (p : Place) (hv : va >>> 16 = 1) (hn : 0 < n) (hr : va % 2 ^ 16 + n ≤ 2 ^ 16)
    (hc : leafCheck (mapped m) 0 leafT (cap.has pPGTAB) acc va n = .ok p) :
    (mapped m).shtRange 0 0 cap acc va n = .ok ([(p, n)], mapped m) := by
  have h0 : n ≠ 0 := by omega
  have hm : min n (2 ^ 16 - va % 2 ^ 16) = n := by omega
  simp only [Mod.shtRange, Mod.shtPages, h0, hm, if_false, xlat_mapped m _ _ _ _ hv, hc]
  simp [bind, Except.bind]
theorem wit_gather : let m1 := mapped (shuttleOf [] [gatherD 3])
    (mapped (shuttleOf [gatherD 3] [])).updSht 0 (fun q => { q with queue := [], running := q.running ++ [gatherD 3] }) = m1 ∧ (gatherD 3).fail1 = none ∧ (gatherD 3).hasIdx = true ∧
    m1.shtRange 0 (gatherD 3).piece.part (gatherD 3).icap .read ((gatherD 3).w 0x30) ((gatherD 3).isize * (gatherD 3).rows) = .ok ([(.loc 0x20004, 4)], m1) ∧
    anyFar [(.loc 0x20004, 4)] = false ∧ m1.shtAwaits 0 (gatherD 3) = false ∧
    (let r := m1.gatherPieces (gatherD 3) 0 [(.loc 0x20004, 4)]
     r.1 = [0, 0, 0, 0] ∧ r.2.1 = false ∧ r.2.2.shtFail2 (gatherD 3).piece.part { gatherD 3 with idx := (gatherD 3).indices r.1, rdata := [] } = none) := by
  have e1 : (gatherD 3).piece.part = 0 := by decide +kernel
  have e2 : (gatherD 3).icap = dcap := by decide +kernel
  have e3 : (gatherD 3).w 0x30 = 0x10004 := by decide +kernel
  have e4 : (gatherD 3).isize * (gatherD 3).rows = 4 := by decide +kernel
  refine ⟨rfl, by decide +kernel, by decide +kernel, ?_, by decide +kernel, by decide +kernel, by decide +kernel⟩
  rw [e1, e2, e3, e4]
  exact range_mapped _ _ _ _ _ _ (by decide) (by decide) (by decide) (okAnd_eq (by decide +kernel))
/-- The list lies in remote memory: it is asked for first. -/
theorem wit_far_list : anyFar [((.remote 1 0 4 : Place), 4)] = true ∧ (gatherD 3).idxAsked = false := by decide +kernel
/-- FILL of the bolt of core 0, and REDADD to memory. -/
def fillD : ShtDesc := { descOf (5 * 2 ^ 28 + 1 * 2 ^ 16) 0x0807060504030201 0x20 10 with dcap := mkCap 0 (pWR + pBOLT) 0 0x400000 0 true, checked := true }
def addD : ShtDesc := descOf (6 * 2 ^ 28) 0x10000 0x10100 64
theorem test_fill_start : ((after (.fill 0) (shuttleOf [{ fillD with checked := false }] [])).sht 0).running.map (·.checked) = [true] ∧
    ((after (.redadd 0) (shuttleOf [addD] [])).sht 0).running.map (·.checked) = [true] := by decide +kernel
/-- A COPY from the host to a bolt, checked. -/
def hostD : ShtDesc := { descOf (1 * 2 ^ 28 + 2 * 2 ^ 18 + 1 * 2 ^ 16) 0x10000 0x100 4 with checked := true }
theorem wit_fill_end : fillD.dkind = 1 ∧ fillD.rows = 1 ∧ fillD.op = 5 ∧ (shuttleOf [] [fillD]).shtAwaits 0 fillD = false ∧ fillD.moved = false ∧
    (shuttleOf [] [hostD]).panelUp 0 = true ∧ ((shuttleOf [] [hostD]).host ((shuttleOf [] [hostD]).part hostD.piece.part).owner).clock = true ∧ hostD.hasSrc = true ∧ hostD.moved = false := by decide +kernel
theorem test_fill_end : (fun (m : Mod) => (Memory.bytes (m.core 0).bolt 0x20 11, (m.sht 0).running, m.pat.fires.map (·.notch), m.rdf (bSHT 0 + 0x40) 47 0))
    (after (.shuttleDescriptorDone (0, []) 0 []) (shuttleOf [] [fillD])) = ([1, 2, 3, 4, 5, 6, 7, 8, 1, 2, 0], [], [5], 1) := by decide +kernel
def copying : ShtDesc := { copyD with checked := true }
theorem wit_copy_end : (mapped (shuttleOf [] [copying])).allPieces 0 copying copying.rows = .ok ([([(.loc 0x20000, 4)], [(.loc 0x20100, 4)])], mapped (shuttleOf [] [copying])) ∧
    copying.len = 4 ∧ (mapped (shuttleOf [] [copying])).poisoned 0x20000 4 = false ∧ (shuttleOf [] [copying]).rangeFenced 0x20100 4 = false := by
  refine ⟨?_, by decide +kernel, by decide +kernel, by decide +kernel⟩
  have hs : (mapped (shuttleOf [] [copying])).srcPieces 0 copying 0 = .ok ([(.loc 0x20000, 4)], mapped (shuttleOf [] [copying])) :=
    range_mapped _ dcap .read 0x10000 4 _ (by decide) (by decide) (by decide) (okAnd_eq (by decide +kernel))
  have hr : (mapped (shuttleOf [] [copying])).shtRange 0 0 dcap .write 0x10100 4 = .ok ([(.loc 0x20100, 4)], mapped (shuttleOf [] [copying])) :=
    range_mapped _ dcap .write 0x10100 4 _ (by decide) (by decide) (by decide) (okAnd_eq (by decide +kernel))
  have hd : (mapped (shuttleOf [] [copying])).dstPieces 0 copying 0 = .ok ([(.loc 0x20100, 4)], mapped (shuttleOf [] [copying])) := by
    have e1 : copying.dkind = 0 := by decide +kernel
    have e2 : copying.op = 1 := by decide +kernel
    have e3 : (copying.rowD 0).toNat = 0x10100 := by decide +kernel
    have e4 : (mapped (shuttleOf [] [copying])).inWtab 0 0x20100 4 = false := by decide +kernel
    have e5 : copying.len = 4 := by decide +kernel
    have e6 : copying.piece.part = 0 := rfl
    have e7 : copying.dcap = dcap := rfl
    simp [Mod.dstPieces, e1, e2, e3, e4, e5, e6, e7, hr, bind, Except.bind]
  have e : copying.rows = 1 := by decide +kernel
  simp [Mod.allPieces, e, hs, hd, bind, Except.bind]
theorem test_late : (fun (m : Mod) => ((m.sht 0).running, m.rd (bPERR 0))) (after (.shuttleDescriptorFail 0 0 false) (shuttleOf [] [{ fillD with late := some 0x10 }])) =
    ([], 0x8010000000004000) := by decide +kernel
theorem test_host_error : (after (.shuttleDescriptorFail 0 0 true) (shuttleOf [] [hostD])).rd (bPERR 0) = 0x8013000000004000 ∧
    (after (.completionTimeout 0 0) (shuttleOf [] [hostD])).rd (bPERR 0) = 0x8013000000004000 := by decide +kernel

/-- Spool 0 with a level in partition 0's bucket and in the calibration bucket, and these requests waiting and queued. -/
def spool (lvl cal : Int) (w q : List SpoolReq) : Mod :=
  let m := noCues ((ready []).wr bSPLMAP 1)
  let m1 := ((m.setLevel 0 0 lvl).setLevel 0 16 cal).wr (bSPL 0 + 0x100) (w64 (2 ^ 32 + 7 * 2 ^ 16 + 100))
  { m1 with spl := { m1.spl with waiting := w, queued := q } }
/-- A line read of partition 0. -/
def lineReq : SpoolReq := { pa := 0x20000, bucket := 0 }
theorem wit_admission : splIx (spool 32000 0 [lineReq] []).spl.waiting 0 0 = some 0 ∧ (spool 32000 0 [lineReq] []).hasTokens 0 0 2 = true ∧ (spool 31999 0 [lineReq] []).hasTokens 0 0 2 = false ∧
    (spool 0 0 [lineReq] []).mayBorrow 0 0 = true ∧ (spool 0 0 [lineReq] []).chargedWaits 0 = false := by decide +kernel
theorem test_admission : (fun (m : Mod) => (m.spl.waiting, m.spl.queued, m.level 0 0)) (after (.spoolAdmission 0 0) (spool 32000 0 [lineReq] [])) = ([], [lineReq], 0) := by decide +kernel
theorem test_borrow : (fun (m : Mod) => (m.spl.queued, m.level 0 0, m.rdf (bSPL 0 + 0x68) 47 0)) (after (.spoolAdmission 0 0) (spool 31999 0 [lineReq] [])) = ([lineReq], 31999, 2) := by decide +kernel
/-- 10 of 256 channels refresh: 246 × 100 units; the depth is 8 bursts. -/
theorem test_fill_regulator : (after (.regulatorFill 0 8) (spool 0 0 [] [])).level 0 0 = 24800 ∧ (after (.regulatorFill 0 8) (spool 127999 0 [] [])).level 0 0 = 128000 := by decide +kernel
/-- The channel of the test line. -/
def ch : BitVec 8 := BitVec.ofNat 8 ((spool 0 0 [] []).place 0x20000).channel
def trainReq : SpoolReq := { pa := 0x20000, bucket := 16, train := true }
theorem test_training : (fun (m : Mod) => (m.spl.waiting.map fun r => (r.bucket, r.train, (m.place r.pa).channel == ch.toNat), m.rdf (bCAL + 0xF8) 47 0)) (after (.trainingPair 0 ch) (spool 0 0 [] [])) =
    ([(16, true, true)], 0) := by decide +kernel
theorem test_training_drops : (fun (m : Mod) => (m.spl.waiting.length, m.rdf (bCAL + 0xF8) 47 0)) (after (.trainingPair 0 ch) (spool 0 0 [trainReq] [])) = (1, 1) := by decide +kernel
theorem wit_channel : let m := spool 0 0 [] [lineReq]; lineReq.reads = true ∧ lineReq.burst = 0x20000 ∧ m.unitOpen 0x20000 = false ∧ (m.place 0x20000).spool = 0 ∧
    m.erasedPin 0 (m.place 0x20000).channel = none := by decide +kernel
theorem test_read : (fun (m : Mod) => (m.spl.queued.map (·.left), m.poison, m.rdf (bSPL 0 + 8) 1 0)) (after (.channelRead 0 0 []) (spool 0 0 [] [lineReq])) = ([1], [], 0) := by decide +kernel
theorem test_read_fixed : (fun (m : Mod) => (m.poison, m.rdf (bSPL 0 + 8) 1 0, m.rdf (bSPL 0 + 0x40) 47 0)) (after (.channelRead 0 0 [1, 9, 30]) (spool 0 0 [] [lineReq])) = ([], 1, 1) := by
  decide +kernel
theorem test_read_lost : (fun (m : Mod) => (Tab.get false m.poison 0x800, m.rdf (bSPL 0 + 8) 1 0, m.rdf (bSPL 0 + 0x48) 47 0)) (after (.channelRead 0 0 [1, 9, 30, 50]) (spool 0 0 [] [lineReq])) =
    (true, 2, 1) := by decide +kernel
theorem test_write : (after (.channelWrite 0 0) (spool 0 0 [] [{ lineReq with write := true, left := 1 }])).spl.queued = [] := by decide +kernel
theorem test_row_close : (after (.rowClose 0 3 2) { spool 0 0 [] [] with spl := { rows := [(50, 7), (51, 8)] } }).spl.rows = [(51, 8)] := by decide +kernel
theorem test_refresh : (after (.refresh 0 3) { spool 0 0 [] [] with spl := { rows := [(47, 1), (48, 7), (63, 8), (64, 9)] } }).spl.rows = [(47, 1), (64, 9)] := by decide +kernel
/-- A request for a spool that is fenced is dropped and counted. -/
def fencedSpool (q : SpoolReq) : Mod := let m := spool 0 0 [] [q]; { m with spl := { m.spl with fenced := [0] } }
theorem test_fenced_channel : (fun (m : Mod) => (m.spl.queued, m.rdf (bSPL 0 + 0x60) 47 0)) (after (.channelRead 0 0 []) (fencedSpool lineReq)) = ([], 1) ∧
    (fun (m : Mod) => (m.spl.queued, m.rdf (bSPL 0 + 0x60) 47 0)) (after (.channelWrite 0 0) (fencedSpool { lineReq with write := true })) = ([], 1) := by decide +kernel
theorem wit_scrub : (spool 0 16000 [] []).burstAddr 0 ch.toNat 0 = some ((((spool 0 0 [] []).burstAddr 0 ch.toNat 0)).getD 0) ∧ (spool 0 16000 [] []).hasTokens 0 16 1 = true ∧
    (spool 0 16000 [] []).rdf (bSPL 0 + 0x18) 15 0 ≠ 0 ∧ (spool 0 16000 [] []).spl.units = [] ∧ (spool 0 16000 [] []).spl.queued = [] ∧
    (let m := spool 0 16000 [] []; someAnd (m.burstAddr 0 ch.toNat 0) fun pa => (m.place pa).spool == 0 && !m.cachedAbove (pa / 128)) = true := by decide +kernel
theorem test_scrub : (fun (m : Mod) => (m.level 0 16, Tab.get 0 m.spl.scrubPos (chKey 0 ch.toNat), m.rdf (bSPL 0 + 0x70) 47 0)) (after (.patrolScrub 0 ch []) (spool 0 16000 [] [])) = (0, 1, 1) := by
  decide +kernel
/-- A burst's 72 symbols are a codeword, and one wrong symbol is none. -/
theorem test_codeword : let w := (withBytes [0x11, 0x22, 0x33, 0x44, 0x55] (spool 0 0 [] [])).burstSymbols 0x20000
    w.length = 72 ∧ w.headD 0 ≠ 0 ∧ rsSyndromes w = [0, 0, 0, 0, 0, 0, 0] ∧ rsSyndromes (w.set 3 99) ≠ [0, 0, 0, 0, 0, 0, 0] := by decide +kernel
/-- An add of 5 to a word that holds 0x44332211, with tokens. -/
def adder (fenced : List Nat) : Mod :=
  let m := withBytes [0x11, 0x22, 0x33, 0x44, 0x55] (spool 16000 0 [] [])
  { m with spl := { m.spl with adds := [{ pa := 0x20000, ty := 0, data := [5, 0, 0, 0] }], fenced := fenced } }
theorem wit_add : (adder []).lineFenced 0x20000 = false ∧ (adder [0]).lineFenced 0x20000 = true ∧ (adder []).dirAt 0x400 = {} ∧ (adder []).grantOf 0x20000 = some 0 ∧
    (adder []).isSpool 0x20000 = true ∧ (adder []).poisoned 0x20000 4 = false := by decide +kernel
theorem test_add_unit : (fun (m : Mod) => (m.rdMem 0x20000 5, m.spl.adds, m.spl.units.map (·.2), m.level 0 0)) (after (.spoolAdd 0 []) (adder [])) =
    ([0x16, 0x22, 0x33, 0x44, 0x55], [], [[0x800]], 0) := by decide +kernel
theorem test_add_fenced : (fun (m : Mod) => (m.rdMem 0x20000 1, m.spl.adds, m.rdf (bSPL 0 + 0x60) 47 0)) (after (.spoolAdd 0 []) (adder [0])) = ([0x11], [], 1) := by decide +kernel
theorem test_add_close : (after (.adderUnitClose 0 3 1) { spool 0 0 [] [] with spl := { units := [(3, [7, 8])] } }).spl.units = [(3, [7])] := by decide +kernel
/-- FP32 and a pair of BF16: 1.0 + 2.0. -/
theorem test_add_float : addElem 2 0x3F800000 0x40000000 = 0x40400000 ∧ addElem 4 0x3F803F80 0x40004000 = 0x40404040 := by decide +kernel
theorem test_next_step : nextStep 0 340 = 0 ∧ nextStep 0 341 = 1 ∧ nextStep 1 332 = 0 ∧ nextStep 2 373 = 2 ∧ nextStep 2 372 = 1 ∧ nextStep 0 381 = 2 := by decide +kernel
theorem test_monitor : (fun (m : Mod) => (m.rd (bSPL 0 + 0x30), m.spl.monitor)) (after (.spoolMonitorDone 0 77) { ready [] with spl := { monitor := [0] } }) = (0x800000000000004D, []) := by decide +kernel
theorem test_monsel : (after (.splMonselStart 0 3 0x80000000) (ready [])).spl.monitor = [3] ∧ (after (.splMonselStart 0 3 0x7FFFFFFF) (ready [])).spl.monitor = [] := by decide +kernel
theorem test_link_monitor : (fun (m : Mod) => (m.rd (bCAL + 0x20), m.cal.lmon)) (after (.linkMonitorDone 9) { ready [] with cal := { lmon := true } }) = (0x8000000000000009, false) ∧
    (after (.calLmselStart 0 0x80000000) (ready [])).cal.lmon = true := by decide +kernel
theorem wit_cal_host : ∀ h : HostId, h.val = 0 → (ready []).reachedBy h (bCAL + 0x18) ∧ (ready []).reachedBy h (bSPL 3 + 0x28) := by unfold Mod.reachedBy; decide +kernel
theorem wit_track : (ready []).rdf (bCAL + 0x08) 8 8 = 1 ∧ (ready []).spl.monitor = [] ∧ (CalQ.spool true false 0 3 2).trackLim = 12 ∧ (ready []).trackOf (.spool true false 0 3 2) = 0 := by
  decide +kernel
theorem test_track : let q := CalQ.spool true false 0 3 2; (after (.trackRound (.spool true 0 3 2) 4 6 0 0) (ready [])).trackOf q = 1 ∧
    (after (.trackRound (.spool true 0 3 2) 4 5 0 0) (ready [])).trackOf q = 0 ∧ (after (.trackRound (.spool true 0 3 2) 6 4 0 0) (ready [])).trackOf q = -1 := by decide +kernel
/-- CAL_VSEL of the live tracks of a read lane: pin 5 of spool 1, channel 2. -/
theorem test_vsel : let q := CalQ.spool false false 1 2 5
    (after (.calVsel 0 (w64 (2 * 2 ^ 16 + 1 * 2 ^ 8 + 2))) { ready [] with cal := { track := [(q.key, -3)] } }).rdf (bCAL + 0x120) 21 16 = 61 := by decide +kernel

/-! ## Translation faults and links -/

/-- The leaf of the test page. -/
def leafT8 : Leaf := { part := 0, vpn := 1, level := 3, pa := 0x20000, x := true, w := true }
/-- Core 0 waits for a walk of its test page; the tables are at 0x8000, 0x8200, 0x9000 and 0xA000. -/
def walking (leaf : Nat) : Mod :=
  let m := modOf { coreOf (bankOf [] []) with wait := .walk 0x10004 .read, mem := {} }
  let m1 := m.wrf (bXLT 0) 45 15 1
  let put (m : Mod) (a v : Nat) : Mod := { m with mem := Memory.setBytes m.mem a (toLe 8 v) }
  put (put (put (put m1 0x8000 0x8201) 0x8200 0x9001) 0x9000 0xA001) 0xA008 leaf
theorem wit_walk : (walking 0x2000F).powered = true ∧ (walking 0x2000F).partOf 0 = some 0 ∧ (walking 0x2000F).walk 0 0x10004 = .leaf leafT8 0xA008 ∧
    (walking 0).walk 0 0x10004 = .fail 1 3 0xA008 ∧ findWay ((walking 0x2000F).core 0).mem.tlb 0 64 (tlbKey 0 3 1) = none ∧
    (walking 0).walkers 0 0 0x10004 = [(0, 0x10004, .read)] ∧ (walking 0).coh.upsets = [] ∧ (walking 0).rdf (bXLT 0 + 0x80) 63 63 = 0 := by decide +kernel
theorem test_walk_bad : (walking 0x12000F).walk 0 0x10004 = .leaf { leafT8 with pa := 0x120000 } 0xA008 ∧ (walking 0xA201).walk 0 0x10004 = .fail 2 3 0xA008 ∧
    (walking 0x2004F).walk 0 0x10004 = .fail 2 3 0xA008 := by decide +kernel
theorem test_walk : (fun (m : Mod) => ((m.core 0).wait, (findWay (m.core 0).mem.tlb 0 64 (tlbKey 0 3 1)).map fun w => w.2.val)) (after (.walk 0) (walking 0x2000F)) = (.none, some leafT8) := by
  decide +kernel
theorem test_walk_fail : (fun (m : Mod) => ((m.core 0).trap, (m.core 0).creg 0x3A8, (m.core 0).creg 0x3A0)) (after (.walk 0) (walking 0)) = (some 2, 0x10004, 0x1310A) := by decide +kernel
theorem test_walk_fault : (fun (m : Mod) => ((m.core 0).wait, m.xlt.flying.map fun f => (f.va, f.cause, f.level, f.pte))) (after (.walk 0) ((walking 0).wr (bXLT 0 + 0x80) (w64 (2 ^ 63)))) =
    (.fault 0x10004 .read 3, [(0x10004, 1, 3, 0xA008)]) := by decide +kernel
/-- A fault of core 0 on its way, the queue at 0x100000 being on, and slot 0 in use for another page. -/
def flyer : FaultReq := { part := 0, va := 0x10004, acc := .read, cause := 1, level := 3, pte := 0xA008, unit := .core 0 }
def faulty (slots : Tab FltSlot) : Mod :=
  let m := (walking 0).wr (bXLT 0 + 0x80) (w64 (2 ^ 63 + 0x100000 + 7))
  { m.updCore 0 (fun k => { k with wait := .fault 0x10004 .read 3 }) with xlt := { flying := [flyer], slots := slots } }
def oneSlot (va : Nat) : Tab FltSlot := [(0, { va := va, seq := 5, accs := 2, causes := 4, level := 3, waiters := [.core 9] })]
theorem wit_arrival : (faulty (oneSlot 0x10000)).flqSlots 0 = [(0, { va := 0x10000, seq := 5, accs := 2, causes := 4, level := 3, waiters := [.core 9] })] ∧
    (faulty (oneSlot 0x20000)).flqRoom 0 = some 1 ∧ ((faulty []).wr (bXLT 0 + 0x88) 1024).flqRoom 0 = none ∧ (faulty []).heldBack (.queue 0) = false ∧
    (faulty []).spl.fenced = [] ∧ (faulty []).xlt.parked = [] := by decide +kernel
theorem test_arrival_joins : (fun (m : Mod) => (m.xlt.slots, m.xlt.flying, m.rdf (bXLT 0 + 0xC8) 47 0)) (after (.faultArrival 0) (faulty (oneSlot 0x1FFFF))) =
    ([(0, { va := 0x1FFFF, seq := 5, accs := 3, causes := 5, level := 3, waiters := [.core 9, .core 0] })], [], 1) := by decide +kernel
/-- Slot 1: VA, SEQ 0, one waiter, LEVEL 3, ACCESS 1, CAUSE 1, waiter core 0, PTE; the ring's entry 0 names it. -/
theorem test_arrival_posts : (fun (m : Mod) => (m.rdMem 0x100020 16, m.rdMem 0x100038 8, m.rdMem 0x108000 4, m.rdf (bXLT 0 + 0x88) 31 0, m.rdf (bXLT 0 + 0xA0) 0 0, m.pat.fires.map (·.notch)))
    (after (.faultArrival 0) (faulty (oneSlot 0x20000))) =
    ([4, 0, 1, 0, 0, 0, 0, 0, 0, 0, 0, 0, 0x11, 3, 1, 0], [8, 0xA0, 0, 0, 0, 0, 0, 0], [1, 0, 0, 0], 1, 1, [7]) := by decide +kernel
theorem test_arrival_parks : (fun (m : Mod) => (m.xlt.parked, m.rdf (bXLT 0 + 0xD0) 47 0)) (after (.faultArrival 0) ((faulty []).wr (bXLT 0 + 0x88) 1024)) = ([flyer], 1) := by decide +kernel
theorem wit_reply : ∀ h : HostId, h.val = 0 → (faulty []).reachedBy h (bXLT 0 + 0x98) ∧ (faulty []).reachedBy h (bXLT 0 + 0x08) := by unfold Mod.reachedBy; decide +kernel
theorem test_reply : (fun (m : Mod) => (m.xlt.slots, m.xlt.releases, m.rdf (bXLT 0 + 0xE0) 47 0)) (after (.flqReply 0 0 (w64 (1 * 2 ^ 62 + 5))) (faulty (oneSlot 0x10000))) =
    ([], [{ part := 0, code := 1, waiters := [.core 9] }], 1) := by decide +kernel
theorem test_reply_bad : (fun (m : Mod) => (m.xlt.slots.length, m.rdf (bXLT 0 + 0xA0) 2 2, m.rdf (bXLT 0 + 0xD8) 47 0)) (after (.flqReply 0 0 (w64 6)) (faulty (oneSlot 0x10000))) = (1, 1, 1) ∧
    (fun (m : Mod) => (m.rdf (bXLT 0 + 0xA0) 2 2, m.rdf (bXLT 0 + 0xD8) 47 0)) (after (.flqReply 0 0 (w64 (2 ^ 32 + 5))) (faulty (oneSlot 0x10000))) = (1, 1) := by decide +kernel
def released (code : Nat) : Mod := { faulty [] with xlt := { releases := [{ part := 0, code := code, waiters := [.core 0] }] } }
theorem test_released : (fun (m : Mod) => ((m.core 0).wait, (m.core 0).trap)) (after (.waitersReleased 0) (released 0)) = (.none, none) ∧
    (fun (m : Mod) => ((m.core 0).wait, (m.core 0).trap, (m.core 0).creg 0x3A0)) (after (.waitersReleased 0) (released 1)) = (.none, some 2, 0x13009) := by decide +kernel
/-- A shoot-down of the 64 KiB page at 0x10000. -/
def shot : Shoot := { part := 0, all := false, size := 0, va := 0x10000, core := none }
def shooting : Mod := { ready [] with xlt := { shoots := [shot], tlb := [(3, { key := 1, age := 0, val := leafT8 }), (4, { key := 2, age := 0, val := { leafT8 with vpn := 2 } })] } }
theorem wit_shoot : shooting.shootBusy 0 none = true ∧ shooting.shootBusy 0 (some 0) = false ∧ (shooting.core 0).holdsRange shot.range.1 shot.range.2 = false ∧ shooting.rowsInFlight 0 = false ∧ shooting.postedOut 0 = false ∧ shooting.spl.adds = [] ∧ shooting.pat.saved = [] ∧
    shot.range = (0x10000, 0x10000) ∧ (shooting.part 0).cores = [0] := by decide +kernel
theorem test_shoot_start : (after (.xltInv 0 0 0x10000) (ready [])).xlt.shoots = [shot] ∧ (fun (m : Mod) => (m.xlt.shoots, m.rdf (bXLT 0 + 0x58) 47 0)) (after (.xltInv 0 0 0x20000) shooting) = ([shot], 1) ∧
    (after (.corXltinv 0 0x10000) shooting).xlt.shoots = [shot, { shot with core := some 0 }] := by decide +kernel
theorem test_shoot_complete : (fun (m : Mod) => (m.xlt.shoots, m.xlt.tlb.map (·.1), (m.core 0).mem.tlb, m.rdf (bXLT 0 + 0x50) 47 0)) (after (.shootDownComplete 0) shooting) = ([], [4], [], 1) := by decide +kernel
theorem test_shoot_waits : (after (.shootDownComplete 0) (withSb [{ place := .loc 0x20000, data := toLe 8 1 }] shooting)).xlt.shoots = [shot] := by decide +kernel

/-- Module 0 of a line of two, with link 0 in a state. -/
def linkIn (st : Nat) : Mod := ((netOf (ready [])).wrf (bLink 0) 3 0 st).wr (bPort 0) 0x1000000
theorem wit_link : (linkIn 1).powered = true ∧ (linkIn 1).linkState 0 = 1 ∧ (linkIn 8).linkState 0 = 8 ∧ (linkIn 8).linkEnabled 0 = false ∧ ((linkIn 8).wrf (bPort 0) 0 0 1).linkEnabled 0 = true := by
  decide +kernel
theorem test_link_steps : (after (.signalDetected 0) { linkIn 1 with cal := { track := [((CalQ.link 3 0 2).key, 7)] } }).trackOf (.link 3 0 2) = 0 ∧ (after (.signalDetected 0) (linkIn 1)).linkState 0 = 2 ∧
    (after (.trainConverged 0) (linkIn 2)).linkState 0 = 3 ∧ (after (.lockAchieved 0) (linkIn 3)).linkState 0 = 4 ∧ (after (.failedRetry 0) (linkIn 7)).linkState 0 = 1 := by decide +kernel
theorem wit_link_clock : (linkIn 2).lnk.clock = true := by decide +kernel
theorem test_link_falls : [(Instr.trainTimeout 0, 2), (.lockTimeout 0, 3), (.authTimeout 0, 4), (.linkWatchdog 0, 6), (.retrain 0 0, 6)].map
      (fun (p : Instr × Nat) => (fun (m : Mod) => (m.linkState 0, m.rdf (bLink 0) 15 8, m.rdf (bLink 0 + 0x10) 1 0, m.rdf (bLink 0 + 0x20) 47 0)) (after p.1 (linkIn p.2))) =
    [(7, 1, 1, 1), (7, 2, 1, 1), (7, 3, 1, 1), (7, 4, 1, 1), (7, 7, 1, 1)] := by decide +kernel
theorem test_link_unmoved : [(Instr.trainTimeout 0, 3), (.lockTimeout 0, 4), (.authTimeout 0, 6), (.linkWatchdog 0, 5), (.retrain 0 0, 4), (.rearm 0 0, 6), (.signalDetected 0, 0)].map
      (fun (p : Instr × Nat) => (after p.1 (linkIn p.2)).linkState 0) = [3, 4, 6, 5, 4, 6, 0] := by decide +kernel
theorem test_rearm : (after (.rearm 0 0) (linkIn 8)).linkState 0 = 0 ∧ (after (.rearm 0 0) ((linkIn 8).wrf (bPort 0) 0 0 1)).linkState 0 = 1 := by decide +kernel
/-- A message of class 2 (vc 1) waits, and no credit is held. -/
def outOf (n : Nat) : OutMsg := { msg := { dest := 1, src := 0, vc := 1, data := List.replicate n 5 } }
def stalled : Mod := { linkIn 6 with lnk := { groups := [(0, [outOf 8])] } }
theorem wit_stalled : stalled.classStalled 0 2 = true ∧ stalled.linkState 0 = 6 ∧ stalled.groupOfLink 0 = 0 := by decide +kernel
theorem test_credit_watchdog : (fun (m : Mod) => (m.linkState 0, m.rdf (bLink 0 + 0x10) 2 2, m.rdf (bLink 0 + 0x30) 47 0)) (after (.creditWatchdog 0 2) stalled) = (6, 1, 1) := by decide +kernel

/-- Link 0 in AUTH at a step. -/
def auth (st : Nat) : Mod := (linkIn 4).updLink 0 fun k => { k with auth := { step := st, own := [[1]], partner := [[2]] } }
/-- The partner's HELLO: device 1, port 1, the same topology word. -/
def hi : Hello := { nonce := List.replicate 32 9, dev := 1, port := 1, half := false, index := 0, topo := (linkIn 4).rd (bLNK + 0x008), lp3 := true, lp2 := true, encOffered := true, encRequired := false }
theorem wit_hello : (auth 0).wired 0 hi = true ∧ (auth 0).wired 0 { hi with port := 0 } = false ∧ (auth 0).protocol 0 hi = some 2 ∧ ((auth 0).wrf (bPort 0) 25 24 1).protocol 0 { hi with lp2 := false } = none ∧
    (auth 0).rdf (bPort 0) 16 16 = 0 := by decide +kernel
theorem test_hello : (fun (m : Mod) => (m.linkState 0, (m.link 0).auth.step, m.rdf (bLink 0) 41 24, m.rdf (bLink 0) 5 4)) (after (.authHello (0, {}) hi) (auth 0)) = (4, 1, 1, 2) := by decide +kernel
theorem test_auth_fences : [(Instr.authHello (0, {}) hi, 1), (.authHello (0, {}) { hi with dev := 2 }, 0), (.authHello (0, {}) { hi with encRequired := true, lp3 := true }, 0), (.authHello (0, {}) { hi with lp2 := false }, 0),
      (.authKeys (0, {}) [] [], 0), (.authEncapsulation (0, {}) [], 2), (.authSignature (0, {}) [], 3), (.authHello (0, { head := 0 }) hi, 0)].map
      (fun (p : Instr × Nat) => (fun (m : Mod) => (m.linkState 0, m.rdf (bLink 0) 15 8)) (after p.1 (auth p.2))) =
    [(8, 0x16), (8, 0x10), (8, 0x12), (8, 0x13), (8, 0x16), (8, 0x16), (8, 0x16), (8, 0x16)] := by decide +kernel
theorem test_encapsulation : (fun (m : Mod) => (m.linkState 0, (m.link 0).auth.step, (m.link 0).ctrl.length)) (after (.authEncapsulation (0, {}) (List.replicate 1088 3)) (auth 2)) = (4, 3, 1) := by decide +kernel
theorem wit_ctrl : ctrlRead {} ∧ ctrlSound {} ∧ ¬ ctrlSound { head := 0 } ∧ ¬ ctrlRead { fec := 16 } ∧ ctrlRead { fec := 15 } ∧ ¬ ctrlRead { crc := false } := by
  unfold ctrlRead ctrlSound ctrlHead; decide +kernel
/-- A codeword that cannot be corrected is NAKed, and the step stays. -/
theorem test_ctrl_unread : (fun (m : Mod) => (m.linkState 0, (m.link 0).auth.step, (m.link 0).nak, m.rdf (bPort 0 + 0x58) 47 0)) (after (.authHello (0, { fec := 16 }) hi) (auth 0)) = (4, 0, true, 1) := by
  decide +kernel

/-! ## Flits and remote requests -/

/-- Link 0 UP, its last flit in order being 6, with three flits sent and 64 credits of class 2. -/
def upLink : Mod := (linkIn 6).updLink 0 fun k => { k with
  rxSeq := 6, txSeq := 3, credits := [(2, 64)], nak := true,
  replay := [{ seq := 0, vc := 1, som := true, eom := true, dest := 1, data := [1] }, { seq := 1, vc := 1, som := true, eom := true, dest := 1, data := [2] }, { seq := 2, resent := 7 }] }
/-- A flit of a short message to this module, and its bytes. -/
def flitHdr (fseq : Nat) : FlitHdr := { kind := 1, vc := 2, dl := 0, som := true, eom := true, fseq := fseq, ack := 0, len := 1, dest := 0, src := 1, c0 := 2, n0 := 5 }
def flitOf (fseq : Nat) : List Byte := flitBytes (flitHdr fseq) [9, 8, 7, 6, 5, 4, 3, 2]
theorem wit_flit : (flitOf 7).length = 640 ∧ readHdr (flitOf 7) = flitHdr 7 ∧ ofLe ((flitOf 7).drop 632) = crc64 ((flitOf 7).take 632) ∧ (flitHdr 7).sound 616 = true :=
  ⟨flitBytes_length _ _, by rw [flitOf, readHdr_flitBytes]; decide +kernel, flitBytes_crc _ _, by decide +kernel⟩
theorem wit_takes : upLink.sealed 0 = false ∧ Tab.get 0 (upLink.link 0).occ 4 + Tab.get 0 (upLink.link 0).owed 4 < upLink.credAlloc 0 4 ∧ upLink.credAlloc 0 4 ≤ 512 ∧ (upLink.link 0).parts = [] ∧ upLink.lnk.arrived = [] ∧ upLink.devOk 0 = true ∧ upLink.dev = 0 ∧ upLink.payload 0 = 616 := by decide +kernel
/-- What a flit does at link 0, in terms of its header. -/
theorem after_dataFlit (m : Mod) (hp : m.powered = true) (h : FlitHdr) (pay : List Byte) : after (.dataFlit 0 0 (flitBytes h pay)) m = m.within fun m => m.dataFlit 0 0 (flitBytes h pay) := by
  simp only [after, exec, execDataFlit, State.run, hp, if_true]
theorem after_idleFlit (m : Mod) (hp : m.powered = true) (h : FlitHdr) (pay : List Byte) : after (.idleFlit 0 0 (flitBytes h pay)) m = m.within fun m => m.idleFlit 0 0 (flitBytes h pay) := by
  simp only [after, exec, execIdleFlit, State.run, hp, if_true]
theorem test_flit_in : (fun (m : Mod) => ((m.link 0).rxSeq, (m.link 0).naked, m.lnk.arrived, Tab.get 0 (m.link 0).owed 4)) (after (.dataFlit 0 0 (flitOf 7)) upLink) =
    (7, false, [{ msg := { dest := 0, src := 1, vc := 2, data := [9, 8, 7, 6, 5, 4, 3, 2] }, link := some 0, cls := 4, flits := 0 }], 1) := by
  rw [flitOf, after_dataFlit _ (by decide +kernel)]; simp only [Mod.within, Mod.dataFlit, flitCheck_flitBytes]; decide +kernel
/-- The class holds as many flits as were allocated, of which half are freed and not yet returned. -/
theorem test_flit_credover : (fun (m : Mod) => (m.linkState 0, m.rdf (bLink 0) 15 8)) (after (.dataFlit 0 0 (flitOf 7)) (upLink.updLink 0 fun k => { k with occ := [(4, 256)], owed := [(4, 256)] })) = (8, 0x14) := by
  rw [flitOf, after_dataFlit _ (by decide +kernel)]; simp only [Mod.within, Mod.dataFlit, flitCheck_flitBytes]; decide +kernel
/-- A message for the fitter, and one for module 1 that comes on link 1 and goes on. -/
theorem test_flit_fitter : (after (.dataFlit 0 0 (flitBytes { flitHdr 7 with vc := 0 } [9, 8, 7, 6, 5, 4, 3, 2])) upLink).lnk.fitIn = [{ dest := 0, src := 1, vc := 0, data := [9, 8, 7, 6, 5, 4, 3, 2] }] := by
  rw [after_dataFlit _ (by decide +kernel)]; simp only [Mod.within, Mod.dataFlit, flitCheck_flitBytes]; decide +kernel
theorem test_flit_acks : (fun (m : Mod) => ((m.link 0).replay.map (·.seq), Tab.get 0 (m.link 0).credits 2, m.lnk.arrived)) (after (.idleFlit 0 0 (flitOf 7)) upLink) = ([1, 2], 69, []) := by
  rw [flitOf, after_idleFlit _ (by decide +kernel)]; simp only [Mod.within, Mod.idleFlit, Fin.val_zero, Fin.isValue, flitCheck_flitBytes]; decide +kernel
/-- The link without a NAK to send. -/
def calmLink : Mod := upLink.updLink 0 fun k => { k with nak := false, naked := false }
theorem test_flit_order : (fun (m : Mod) => ((m.link 0).rxSeq, (m.link 0).nak, m.lnk.arrived)) (after (.dataFlit 0 0 (flitOf 8)) calmLink) = (6, true, []) ∧
    (fun (m : Mod) => ((m.link 0).rxSeq, (m.link 0).nak)) (after (.dataFlit 0 0 (flitOf 6)) calmLink) = (6, false) := by
  rw [flitOf, after_dataFlit _ (by decide +kernel), flitOf, after_dataFlit _ (by decide +kernel)]; simp only [Mod.within, Mod.dataFlit, flitCheck_flitBytes]; decide +kernel
theorem test_flit_bad : (fun (m : Mod) => ((m.link 0).rxSeq, (m.link 0).replay.length, m.rdf (bPort 0 + 0x48) 47 0, m.rdf (bPort 0 + 0x58) 47 0, m.lnk.arrived)) (after (.dataFlit 0 16 (flitOf 7)) upLink) =
    (6, 3, 1, 1, []) ∧ (after (.dataFlit 0 0 [1, 2]) upLink).lnk.arrived = [] := by decide +kernel
/-- A control flit goes first; then the flit to resend; at its eighth time the link fails. -/
theorem test_slot_control : (fun (m : Mod) => ((m.link 0).ctrl, (match (m.link 0).last with | some (.ctrl _ x) => some x | _ => none), m.rdf (bPort 0 + 0x40) 47 0)) (after (.codewordSlot 0) (upLink.updLink 0 fun k => { k with ctrl := [.handover 1 4], resend := some 0 })) =
    ([], some (.handover 1 4), 1) := by decide +kernel
/-- A message of two flits stays until its second is sent; after four control flits that are not acknowledged the rest goes on. -/
theorem test_slot_two : ((after (.codewordSlot 0) (upLink.updLink 0 fun k => { k with ctrl := [.encap (List.replicate 1088 1)] })).link 0).ctrl.length = 1 ∧
    ((after (.codewordSlot 0) (upLink.updLink 0 fun k => { k with ctrl := [.handover 1 4], ctrlOut := 4, resend := some 0 })).link 0).ctrl.length = 1 := by decide +kernel
theorem test_slot_resend : (fun (m : Mod) => ((m.link 0).replay.map (·.resent), (m.link 0).resend, m.rdf (bPort 0 + 0x60) 47 0)) (after (.codewordSlot 0) (upLink.updLink 0 fun k => { k with resend := some 1 })) =
    ([0, 1, 7], some 2, 1) ∧
    (fun (m : Mod) => (m.linkState 0, m.rdf (bLink 0) 15 8)) (after (.codewordSlot 0) (upLink.updLink 0 fun k => { k with resend := some 2 })) = (7, 5) := by decide +kernel
/-- The message of vc 1 waits for link 0. -/
def outLink : Mod := { upLink with lnk := { upLink.lnk with groups := [(0, [outOf 10])] } }
theorem wit_slot_new : (outLink.roundPick 0).1 = some 1 ∧ outLink.readyOn 0 1 = some 0 ∧ (outLink.outQueue 0)[0]? = some (outOf 10) ∧
    (outOf 10).sent = 0 ∧ (outOf 10).held = none ∧ (outOf 10).more = false ∧ (outOf 10).msg.data.length ≤ outLink.payload 0 ∧ (outLink.link 0).ctrl = [] := by decide +kernel
theorem test_slot_new : (fun (m : Mod) => (m.outQueue 0, (m.link 0).txSeq, Tab.get 0 (m.link 0).credits 2)) (after (.codewordSlot 0) outLink) = ([], 4, 63) ∧
    (((after (.codewordSlot 0) outLink).link 0).replay.drop 3).map (fun f => (f.seq, f.data, f.som, f.eom)) = [(3, List.replicate 10 5, true, true)] := by decide +kernel
theorem test_slot_full : (fun (m : Mod) => ((m.link 0).txSeq, (m.outQueue 0).length, m.rdf (bPort 0 + 0x40) 47 0)) (after (.codewordSlot 0) (outLink.updLink 0 fun k => { k with replay := List.replicate 128 {} })) =
    (3, 1, 1) := by decide +kernel
/-- Link 1 is lost with two messages unacknowledged; the partner had the first delivered. -/
def lostLink : Mod := outLink.updLink 1 fun k => { k with left := [{ seq := 5, whole := some (outOf 1) }, { seq := 6, whole := some (outOf 2) }] }
theorem wit_handover : lostLink.linkState 1 ≠ 6 ∧ lostLink.groupOfLink 1 = lostLink.groupOfLink 0 ∧ (lostLink.link 1).parts = [] := by decide +kernel
theorem test_handover : (fun (m : Mod) => (m.outQueue 0, (m.link 1).left, m.rdf (bLink 1 + 0x38) 47 0)) (after (.handover (0, {}) 1 5) lostLink) = ([outOf 2, outOf 10], [], 1) := by decide +kernel
theorem test_mark08 : (after (.mark (0, {})) outLink).lnk.groups = outLink.lnk.groups := by decide +kernel

/-- Module 0 grants module 1 window 3 of partition 0, of 0x100 bytes at 0x20000, for reads, writes and adds; its window table is at 0x40000. -/
def granting (rights : Nat) : Mod :=
  let m := memory .m ((netOf (ready [])).wr (bPRT 0 + 0x3100) (w64 (2 ^ 63 + 0x40000)))
  let put (m : Mod) (a v : Nat) : Mod := { m with mem := Memory.setBytes m.mem a (toLe 8 v) }
  put (put (put m 0x40060 (2 ^ 63 + rights * 2 ^ 60 + 1)) 0x40068 0x20000) 0x40070 0x100
/-- A request of 4 bytes at offset 2 of window 3, tag 9, with its data. -/
def reqOf (op off : Nat) (data : List Byte) : List Byte := reqHdr op 0 9 3 off 4 ++ data
theorem wit_remote : (readReq (reqOf 1 2 [])).sound (reqOf 1 2 []) = true ∧ (granting 7).windowCheck 1 (readReq (reqOf 1 2 [])) = .inr 0x20002 ∧
    (granting 7).windowCheck 2 (readReq (reqOf 1 2 [])) = .inl 2 ∧ (granting 7).windowCheck 1 (readReq (reqOf 1 0xFD [])) = .inl 4 ∧ (granting 2).windowCheck 1 (readReq (reqOf 1 2 [])) = .inl 3 ∧
    (granting 7).isSpool 0x20004 = true ∧ (granting 7).rangeFenced 0x20002 4 = false := by decide +kernel
theorem wit_way08 : (granting 7).wayTo 1 0 0 ∧ (granting 7).takeMsg 3 (reqOf 1 2 []) = (none, granting 7) := by unfold Mod.wayTo; decide +kernel
/-- The messages queued for module 1. -/
def queued (m : Mod) : List (Nat × Nat × List Byte) := (m.outQueue 0).map fun x => (x.msg.dest, x.msg.vc, x.msg.data)
theorem test_remote_read : queued (after (.remoteRead 1 false (reqOf 1 2 [])) (granting 7)) = [(1, 4, respHdr 9 0 false ++ [0x33, 0x44, 0x55, 0x66])] := by decide +kernel
theorem test_remote_refused : (fun (m : Mod) => (queued m, m.rdf (bPRT 0 + 0x3110) 47 0)) (after (.remoteRead 1 false (reqOf 1 0xFD [])) (granting 7)) = ([(1, 4, respHdr 9 4 false)], 1) := by decide +kernel
theorem test_remote_write : (fun (m : Mod) => (queued m, m.rdMem 0x20000 8)) (after (.remoteWrite 1 false (reqOf 2 2 [1, 2, 3, 4])) (granting 7)) =
    ([(1, 4, respHdr 9 0 false)], [0x11, 0x22, 1, 2, 3, 4, 0x77, 0x88]) := by decide +kernel
theorem test_remote_add : (fun (m : Mod) => (queued m, m.spl.adds)) (after (.remoteAdd 1 false (reqOf 3 4 [1, 2, 3, 4])) (granting 7)) =
    ([], [{ pa := 0x20004, ty := 0, data := [1, 2, 3, 4], reply := some (1, 9) }]) := by decide +kernel
theorem test_remote_lineadd : (after (.remoteLineadd 1 false (reqHdr 4 0 9 3 0 128 ++ List.replicate 128 1)) (granting 7)).spl.adds.map (·.pa) = [0x20000, 0x20040] := by decide +kernel
/-- Core 0 waits for 4 bytes at 0x50 of a window; tag 9. A posted write has tag 10. -/
def requesting : Mod :=
  let m := netOf ((ready []).updCore 0 fun k => { k with wait := .remote 9 })
  { m with lnk := { m.lnk with remotes := [(9, { unit := .buf none, core := 0, va := 0x50, len := 4 }), (10, { unit := .posted, part := 0 })] } }
theorem test_response : (fun (m : Mod) => ((m.core 0).wait, (m.core 0).rbuf, m.lnk.remotes.map (·.1))) (after (.remoteResponse (respHdr 9 0 false ++ [1, 2, 3, 4])) requesting) =
    (.none, [(0x50, 1), (0x51, 2), (0x52, 3), (0x53, 4)], [10]) := by decide +kernel
theorem test_response_posted : (after (.remoteResponse (respHdr 10 0 false)) requesting).bar0 = requesting.bar0 ∧
    (fun (m : Mod) => (m.rdf (bXLT 0 + 0x60) 47 0, m.lnk.remotes.map (·.1))) (after (.remoteResponse (respHdr 10 5 false)) requesting) = (1, [9]) := by decide +kernel
/-- A message for module 1 that comes by link 0 goes on by the group that routes to it, before its last flit. -/
theorem wit_transit : (upLink.route 1 (some (upLink.dimOf (upLink.groupOfLink 0), 0))).isSome = true ∧ (upLink.upLinks 0).isEmpty = false ∧ upLink.devOk 1 = true ∧ (1 ≠ upLink.dev) := by decide +kernel
def transited : Mod := upLink.flitIn 0 { flitHdr 7 with dest := 1, eom := false } [9, 8, 7, 6, 5, 4, 3, 2]
theorem test_transit : (transited.outQueue 0).map (fun x => (x.msg.dest, x.msg.vc, x.msg.data, x.more, x.cut == some (0, 4))) = [(1, 2, [9, 8, 7, 6, 5, 4, 3, 2], true, true)] := by decide +kernel
/-- A status outside the table, and an OK without its data. -/
theorem test_response_malformed : [respHdr 9 6 false, respHdr 9 0 false ++ [1, 2, 3]].map (fun d => (fun (m : Mod) => (requesting.respSound d, m.rdf (bLNK + 0x80) 47 0, m.lnk.remotes.map (·.1))) (after (.remoteResponse d) requesting)) =
    [(false, 1, [9, 10]), (false, 1, [9, 10])] ∧ requesting.respSound (respHdr 10 5 false) = true ∧ requesting.respSound (respHdr 9 0 false ++ [1, 2, 3, 4]) = true := by decide +kernel

/-! ## Collectives -/

/-- Group 0 of modules 0 and 1 in partition 0: list at 0x30000, queue at 0x44000, grant map at 0x42000, window of 8 chunks; `n` entries are posted, the first is `e`. -/
def collOf (e : List Byte) (n : Nat) : Mod :=
  let m := memory .m (netOf (ready []))
  let m1 := ((((m.wr (bG 0) (w64 (2 ^ 63 + 7 * 2 ^ 48 + 5 * 2 ^ 16))).wr (bG 0 + 0x08) (w64 (1 * 2 ^ 46 + 0x30000))).wr (bG 0 + 0x10) (w64 0x44000)).wr (bG 0 + 0x18) (w64 0x42000)).wr (bG 0 + 0x28) (w64 0x1234)
  let m2 := (m1.wrf (bQ 0 + 0x08) 63 32 n).wrf (bQ 0 + 0x18) 39 16 6
  { m2 with mem := Memory.setBytes (Memory.setBytes m2.mem 0x30004 [1]) 0x44000 e }
/-- An entry: OP, TYPE, NOTCH 5, SRC 0x20000, DST 0x20100, COUNT. -/
def entryOf09 (op ty count : Nat) : List Byte :=
  toLe 4 (op * 2 ^ 28 + ty * 2 ^ 24) ++ toLe 4 (5 * 2 ^ 16) ++ toLe 8 0x20000 ++ toLe 8 0x20100 ++ toLe 4 count ++ List.replicate 36 0
def barrierE : List Byte := toLe 4 (6 * 2 ^ 28) ++ toLe 4 (5 * 2 ^ 16) ++ List.replicate 56 0
theorem wit_post : (collOf [] 255).grpValid 0 = true ∧ (ready []).grpValid 0 = false ∧ (collOf [] 255).qDepth 0 = 255 ∧ (collOf [] 255).partOf 0 = some 0 ∧ (collOf [] 255).drained 0 = true ∧
    ((collOf [] 255).part 0).owner = 0 := by decide +kernel
theorem wit_reset : ∀ h : HostId, h.val = 0 → (collOf [] 0).reachedBy h (bQ 0 + 0x10) := by unfold Mod.reachedBy; decide +kernel
theorem test_post : (after (.cmqGpost 0 0 1) (collOf [] 255)).qTail 0 = 256 ∧ (after (.cmqGpost 0 0 2) (collOf [] 255)).qTail 0 = 255 ∧
    (after (.cmqGpost 0 0 2) (collOf [] 255)).rdf (bQ 0 + 0x18) 4 4 = 1 ∧ (after (.corCmqpost 0 0x10000) (collOf [] 255)).qTail 0 = 256 ∧
    (after (.cmqGpost 0 0 1) (ready [])).rdf (bGRP + 0x138) 47 0 = 1 := by decide +kernel
theorem test_queue_reset : (fun (m : Mod) => (m.curSeq 0, m.qHalted 0, m.rd (bQ 0 + 0x20))) (after (.cmqReset 0 0 (w64 (2 ^ 63 + 9))) (((collOf [] 0).raise (bQ 0 + 0x18) 1).wr (bQ 0 + 0x20) 77)) = (9, false, 0) := by
  decide +kernel
/-- The head entries that run: all operations but ALLTOALL, which needs more memory. -/
def heads : List (List Byte) := [entryOf09 1 8 4, entryOf09 2 8 4, entryOf09 3 8 4, entryOf09 4 8 4, barrierE]
theorem wit_take : heads.map (fun e => (collOf e 1).collFail 0 { entry := e, seq := 6 }) = [none, none, none, none, none] ∧ (collOf barrierE 1).collReady 0 = true ∧
    (collOf barrierE 1).collRoom 0 = true ∧ (collOf barrierE 1).headEntry 0 = barrierE ∧ (collOf barrierE 1).curSeq 0 = 6 ∧ (collOf (entryOf09 1 8 0) 1).collFail 0 { entry := entryOf09 1 8 0 } = some 0x11 ∧
    (collOf (entryOf09 1 1 4) 1).collFail 0 { entry := entryOf09 1 1 4 } = some 0x10 := by decide +kernel
theorem test_take : (heads.zip [Instr.allreduce 0, .redscat 0, .allgather 0, .bcast 0, .barrier 0]).map (fun p => (fun (m : Mod) => ((m.grp 0).run.map (·.entry), m.curSeq 0, m.rdf (bQ 0 + 0x18) 2 0)) (after p.2 (collOf p.1 1))) =
    heads.map fun e => (some e, 7, 1) := by decide +kernel
/-- The gather's own part is at its place; a token to the partner and nothing else is sent. -/
theorem test_allgather : (fun (m : Mod) => (m.rdMem 0x20100 16, (m.outQueue 0).length, (m.grp 0).run.map (·.own))) (after (.allgather 0) (collOf (entryOf09 3 8 4) 1)) =
    ([0x11, 0x22, 0x33, 0x44, 0x55, 0x66, 0x77, 0x88, 0, 0, 0, 0, 0, 0, 0, 0], 1, some [(0, 2)]) := by decide +kernel
theorem test_take_fails : (fun (m : Mod) => (m.rdMem 0x44038 8, m.qHead 0, (m.grp 0).run, m.rdf (bQ 0 + 0x18) 2 0, m.pat.fires.map (·.notch))) (after (.allreduce 0) (collOf (entryOf09 1 8 0) 1)) =
    ([0x11, 0, 0, 0, 0, 0, 0, 0], 1, none, 6, [5]) := by decide +kernel
/-- Every context is taken by other groups. -/
def crowded09 : Mod := let m := collOf barrierE 1; { m with coll := (List.range 64).map fun i => (i + 1, { run := some {} }) }
theorem test_take_waits : crowded09.collRoom 0 = false ∧ ((after (.barrier 0) crowded09).grp 0).waits = true := by decide +kernel
theorem test_context : (fun (m : Mod) => ((m.grp 0).waits, (m.grp 0).run.isSome)) (after (.engineContextFree 0) ((collOf barrierE 1).updGrp 0 fun k => { k with waits := true })) = (false, true) := by
  decide +kernel
/-- The operation runs and all is done, or something is not. -/
def running (o : CollOp) : Mod := (collOf o.entry 1).updGrp 0 fun k => { k with run := some o }
theorem test_complete09 : (fun (m : Mod) => (m.rdMem 0x44038 8, m.qHead 0, (m.grp 0).run, m.rdf (bGRP + 0x100) 47 0, m.pat.fires.map (·.notch)))
    (after (.operationComplete 0) (running { entry := barrierE, done := true, dropped := 3 })) = ([0, 0, 0, 0, 3, 0, 0, 0], 1, none, 1, [5]) := by decide +kernel
theorem wit_stall : (running { entry := barrierE }).lnk.clock = true ∧ (running { entry := barrierE }).rdf (bG 0) 31 16 = 5 := by decide +kernel
theorem test_stall : (fun (m : Mod) => (m.rdf (bQ 0 + 0x18) 3 3, m.rdf (bGRP + 0x130) 47 0, (m.grp 0).run.map (·.armed))) (after (.stallWatchdog 0) (running { entry := barrierE })) = (1, 1, some false) := by
  decide +kernel

/-- A gather and a reduction by sums of four FP32 elements, and module 1's chunk for it; the own elements are 1.0 and 2.0 in each half. -/
def gatherO : CollOp := { entry := entryOf09 3 8 4, seq := 6 }
def scatterO : CollOp := { entry := entryOf09 2 8 4, seq := 6 }
def floats : List Byte := toLe 4 0x3F800000 ++ toLe 4 0x40000000
def reducing (o : CollOp) : Mod := let m := running o; { m with mem := Memory.setBytes m.mem 0x20000 (floats ++ floats) }
def gatherC (m : Mod) (a : Nat) : List Byte := m.collChunk 0 1 7 true gatherO.ticket a 0 0 1 floats
def scatterC (m : Mod) : List Byte := m.collChunk 0 1 7 false scatterO.ticket 0 0 0 1 floats
theorem wit_chunk09 : let m := reducing gatherO; let d := gatherC m 2
    m.collKnown d = true ∧ ccf d 0x24 31 0 = ccCheck d ∧ (d.drop 8).take 16 = gatherO.ticket ∧ m.grpN 0 = 2 ∧ m.grpSelf 0 = 0 ∧ m.rdf (bG 0 + 0x20) 45 45 = 0 ∧ gatherO.segAt 2 1 = 2 ∧ ccf d 0x18 31 0 = 2 := by
  decide +kernel
theorem wit_chunk2 : let m := reducing gatherO; let d := gatherC m 2
    (m.takeMsg 2 d).1 = none ∧ m.rangeFenced 0x20108 8 = false ∧ ccf d 0 27 25 = 7 ∧ ccf d 0 24 24 = 1 ∧ ccf d 0 31 28 = 1 ∧ gatherO.eb = 4 ∧ scatterO.pty = scatterO.ty := by decide +kernel
theorem test_gather_chunk : let m := reducing gatherO; (fun (m : Mod) => (m.rdMem 0x20108 8, (m.grp 0).run.map fun o => (o.got, o.done))) (after (.collDataChunk (gatherC m 2)) m) = (floats, some (2, true)) := by
  decide +kernel
/-- 1.0 + 1.0 and 2.0 + 2.0 at the start of DST. -/
theorem test_scatter_chunk : let m := reducing scatterO; (fun (m : Mod) => (m.rdMem 0x20100 8, (m.grp 0).run.map (·.done))) (after (.collDataChunk (scatterC m)) m) =
    (toLe 4 0x40000000 ++ toLe 4 0x40800000, some true) := by decide +kernel
theorem test_combine : collComb 10 0 0xFFFFFFFF 2 = 1 ∧ collComb 10 1 0xFFFFFFFF 2 = 2 ∧ collComb 10 2 0xFFFFFFFF 2 = 0xFFFFFFFF ∧ collComb 8 1 0x3F800000 0xC0000000 = 0x3F800000 := by decide +kernel
/-- A wrong CHECK tears with STATUS 0x17, another ticket with 0x01. -/
theorem test_chunk_tears : let m := running { entry := barrierE, seq := 6 }; let d := gatherC m 2
    (fun (m : Mod) => ((m.grp 0).run, m.rdMem 0x44038 4, m.rdf (bQ 0 + 0x18) 2 1)) (after (.collDataChunk (d.take 0x37 ++ [1])) m) = (none, [0x17, 0, 0, 0], 3) ∧
    (fun (m : Mod) => ((m.grp 0).run, m.rdMem 0x44038 4, m.rdf (bQ 0 + 0x18) 2 1)) (after (.collDataChunk d) m) = (none, [1, 0, 0, 0], 3) := by decide +kernel
theorem test_chunk_unknown : let m := (reducing gatherO).wr (bG 0 + 0x28) 9; (fun (t : Mod) => (t.rdf (bGRP + 0x120) 47 0, decide (t.coll = m.coll))) (after (.collDataChunk (gatherC (reducing gatherO) 2)) m) = (1, true) := by
  decide +kernel
/-- Chunks to an idle group: 5 tokens on the flat ring, a grant of member 1, a TEAR of member 1, an END. -/
def idleColl : Mod := collOf [] 0
def ctlC (kind offset : Nat) : List Byte := idleColl.collChunk 0 kind 7 false gatherO.ticket offset 0 0 1 []
theorem wit_sound09 : let m := reducing gatherO
    [gatherC m 2, scatterC m, ctlC 2 5, ctlC 2 0, ctlC 3 1, ctlC 4 0].map (fun d => (ccSound d, ccf d 0x24 31 0 == ccCheck d)) = List.replicate 6 (true, true) := by decide +kernel
theorem test_chunk_malformed : let m := reducing gatherO; let t := after (.collDataChunk (gatherC m 2 ++ [0])) m
    (t.rdf (bLNK + 0x80) 47 0, decide (t.coll = m.coll), ccSound (gatherC m 2 ++ [0])) = (1, true, false) := by decide +kernel
theorem test_token_check : let m := running { entry := barrierE, seq := 6 }; let d := (ctlC 2 5).take 0x18 ++ [6] ++ (ctlC 2 5).drop 0x19
    (fun (m : Mod) => ((m.grp 0).run, m.rdMem 0x44038 4, m.rdf (bQ 0 + 0x18) 2 1)) (after (.tokenChunk d) m) = (none, [0x17, 0, 0, 0], 3) := by decide +kernel
theorem wit_control : idleColl.collKnown (ctlC 2 5) = true ∧ (idleColl.grp 0).run = none ∧ ccf (ctlC 2 5) 0 31 28 = 2 ∧ idleColl.rangeFenced 0x42000 1 = false ∧
    0 < sNat 24 (((idleColl.wrf (bQ 0 + 0x18) 39 16 7).curSeq 0 : Int) + 2 ^ 24 - ccf (ctlC 3 1) 8 23 0).toNat := by decide +kernel
theorem test_tokens : ((after (.tokenChunk (ctlC 2 5)) idleColl).grp 0).early = [(6, 7, 5)] ∧ (after (.tokenChunk (ctlC 2 5)) (idleColl.wrf (bQ 0 + 0x18) 39 16 7)).grp 0 = idleColl.grp 0 ∧
    Tab.get 0 ((after (.tokenChunk (ctlC 2 5)) (running { entry := barrierE, seq := 6, done := true })).grp 0).tokens 7 = 5 ∧ (upto 3).map ((after (.tokenChunk (ctlC 2 0)) idleColl).grantBit 0) = [false, true, false] := by decide +kernel
theorem test_tear : (fun (m : Mod) => (m.rdf (bQ 0 + 0x18) 2 1, m.rdf (bGRP + 0x110) 47 0, (m.outQueue 0).length)) (after (.tearChunk (ctlC 3 1)) (idleColl.wrf (bQ 0 + 0x18) 39 16 7)) = (3, 1, 1) := by
  decide +kernel
theorem test_end : ((after (.endChunk (ctlC 4 0)) idleColl).grp 0).ends = [ctlC 4 0] := by decide +kernel
/-- A barrier of two: member 0 sends END, member 1 sends it on, twice. -/
theorem test_barrier : (fun (m : Mod) => ((m.outQueue 0).length, (m.grp 0).run.map fun o => (o.ends, o.done))) (after (.barrier 0) (collOf barrierE 1)) = (1, some (1, false)) := by decide +kernel

/-! ## Hosts and partitions -/

/-- The firmware runs, and host 0 is the steward. -/
def hosted : Mod := let m := memory .m (ready []); { m with fit := { phase := .running, steward := 0 } }
/-- The set of host 0 holds `n` items of other registers. -/
def staged (n : Nat) : Mod := hosted.updHost 0 fun k => { k with set := (List.range n).map fun i => .reg i 0 }
theorem wit_host : ∀ h : HostId, h.val = 0 → (hosted.host h.val).linked = true ∧ hosted.owns h.val 0 = true ∧ hosted.owns h.val 1 = false ∧ hosted.vfPart h.val 3 = none ∧
    hosted.mayWrite h.val (bXLT 0 + 0x80) 7 = true := by decide +kernel
theorem wit_stage_row : (barRow (bXLT 0 + 0x80)).map (fun r => (r.width, r.staged.isEmpty)) = some (8, false) ∧ needsFitter (bXLT 0 + 0x80) = false ∧ (bXLT 0 + 0x80) % 8 = 0 := by decide +kernel
/-- PRT_IEN of partition 0 takes its 9 bits; a write of 2 bytes, to another host's page or by an unmapped function does nothing. -/
theorem test_plain_write : (after (.registerWrite 0 none (BitVec.ofNat 26 (bPRT 0 + 0x18)) 8 0xFFFF) hosted).rd (bPRT 0 + 0x18) = 0x1FF ∧
    (after (.registerWrite 0 none (BitVec.ofNat 26 (bPRT 0 + 0x18)) 2 0xFFFF) hosted).bar0 = hosted.bar0 ∧ (after (.registerWrite 0 none (BitVec.ofNat 26 (bPRT 1 + 0x18)) 8 7) hosted).bar0 = hosted.bar0 ∧
    (after (.registerWrite 0 (some 3) 0x18 8 7) hosted).bar0 = hosted.bar0 := by decide +kernel
/-- Function 2 is mapped to partition 0. -/
theorem test_vf_write : (after (.registerWrite 0 (some 2) 0x18 8 5) (hosted.wrf (bMBX 0 + 0x18) 14 10 16)).rd (bPRT 0 + 0x18) = 5 ∧ (hosted.wrf (bMBX 0 + 0x18) 14 10 16).vfPart 0 2 = some 0 := by decide +kernel
theorem test_w1c : (fun (m : Mod) => (m.rdf (bXLT 0 + 0xA0) 0 0, m.rdf (bXLT 0 + 0xA0) 2 2, m.rdf (bXLT 0 + 0xA0) 26 16))
    (after (.registerWrite 0 none (BitVec.ofNat 26 (bXLT 0 + 0xA0)) 8 4) (hosted.wr (bXLT 0 + 0xA0) 0x30005)) = (1, 0, 3) := by decide +kernel
theorem test_request_buffer : Memory.bytes ((after (.registerWrite 0 none 0x1010 4 0x04030201) hosted).host 0).req 0x0F 6 = [0, 1, 2, 3, 4, 0] := by decide +kernel
theorem test_stage : ((after (.stageItemWrite 0 none (BitVec.ofNat 26 (bXLT 0 + 0x80)) 7) (staged 1)).host 0).set = [.reg 0 0, .reg (bXLT 0 + 0x80) 7] := by decide +kernel
theorem test_stage_again : ((after (.stageItemWrite 0 none (BitVec.ofNat 26 (bXLT 0 + 0x80)) 7) (hosted.updHost 0 fun k => { k with set := [.reg (bXLT 0 + 0x80) 3, .destroy 4] })).host 0).set =
    [.reg (bXLT 0 + 0x80) 7, .destroy 4] := by decide +kernel
theorem wit_bar2 : hosted.bar2Reach 0 none 0x20001 4 = true ∧ hosted.bar2Reach 0 none 0x3FFFFFFF 2 = false ∧ hosted.isHeld = false ∧ hosted.rangeFenced 0x20001 4 = false ∧ hosted.coh.upsets = [] := by decide +kernel
theorem test_bar2_read : ((after (.bar2Access 0 none 0x20001 4 none) hosted).host 0).out = [.answer (some [0x22, 0x33, 0x44, 0x55])] ∧
    (fun (m : Mod) => ((m.host 0).out, m.rdf (bMBX 0 + 0x50) 47 0)) (after (.bar2Access 0 none 0x3FFFFFFF 2 none) hosted) = ([.answer none], 1) := by decide +kernel
theorem test_bar2_write : (after (.bar2Access 0 none 0x20001 0 (some [1, 2])) hosted).rdMem 0x20000 4 = [0x11, 1, 2, 0x44] ∧
    (fun (m : Mod) => (m.rdMem 0x20000 4, m.rdf (bMBX 0 + 0x50) 47 0)) (after (.bar2Access 0 none 0x20001 0 (some [1, 2])) (hosted.wrf bCFGSTAT 1 0 2)) = ([0x11, 0x22, 0x33, 0x44], 1) := by decide +kernel

/-- Host 0 has a command that waits, one in an apply, and a set. -/
def busyHost : Mod :=
  let m := (staged 1).wr (bMBX 0 + 8) (w64 (9 * 2 ^ 32 + 3 * 2 ^ 16 + 2))
  { m with fit := { m.fit with queue := [.mbx 0 9 [], .mbx 1 4 [], .doe 0 [1]], job := some { port := 0 } } }
theorem test_hot_reset : (fun (m : Mod) => ((m.host 0).set, m.rd (bMBX 0 + 8), m.fit.queue, m.fit.job, (m.host 0).linked)) (after (.hotReset 0) busyHost) =
    ([], 0x10000, [.mbx 1 4 [], .doe 0 [1]], some { port := 0, mute := true }, true) := by decide +kernel
theorem test_pf_flr : (fun (m : Mod) => ((m.host 0).set, m.rd (bMBX 0 + 8), (m.host 0).linked)) (after (.pfFlr 0) busyHost) = ([], 0x10000, true) ∧ ((after (.portLinkDown 0) busyHost).host 0).linked = false ∧
    decide ((after (.hotReset 1) busyHost) = busyHost) = true := by decide +kernel
/-- A running descriptor of partition 0 writes to the host. -/
def toHostD : ShtDesc := { id := 9, bytes := toLe 4 (1 * 2 ^ 28 + 2 * 2 ^ 16) ++ List.replicate 60 0, checked := true }
theorem test_link_down_ends : ((after (.portLinkDown 0) { busyHost with shuttles := [(0, { running := [toHostD] })] }).sht 0).running = [] ∧ toHostD.dkind = 2 ∧ toHostD.piece.part = 0 := by decide +kernel
theorem test_vf_flr : (fun (m : Mod) => (m.rd (bPRT 0 + 0x18), m.rd (bPRT 0 + 0x180))) (after (.vfFlr 0 2) (((hosted.wrf (bMBX 0 + 0x18) 14 10 16).wr (bPRT 0 + 0x18) 7).wr (bPRT 0 + 0x180) 9)) = (0, 0) := by
  decide +kernel
theorem test_link_up : (fun (k : HostPort) => (k.linked, k.gen, k.width)) ((after (.portLinkUp 0 6 8) (hosted.updHost 0 fun k => { k with linked := false })).host 0) = (true, 6, 8) ∧
    ((after (.portLinkUp 0 2 8) (hosted.updHost 0 fun k => { k with linked := false })).host 0).linked = false := by decide +kernel
theorem wit_doe : hosted.serves = true ∧ hosted.fit.queue = [] ∧ busyHost.serves = false := by decide +kernel
theorem test_doe : ((after (.doeRequest 0 [1]) hosted).host 0).out = [.doe []] ∧ (after (.doeRequest 0 [2]) busyHost).fit.queue.length = 4 ∧
    (after (.doeAbort 0) busyHost).fit.queue = [.mbx 0 9 [], .mbx 1 4 []] := by decide +kernel
theorem test_miarm : (fun (m : Mod) => (m.rdf (bCAL + 0x108) 0 0, (m.host 0).out)) (after (.calMiarm 0 1) (hosted.wr (bCAL + 0x108) 0)) = (1, []) ∧
    (fun (m : Mod) => (m.rdf (bCAL + 0x108) 0 0, (m.host 0).out)) (after (.calMiarm 0 1) (((hosted.wr (bCAL + 0x108) 0).wr (bCAL + 0x80) 8).wr (bCAL + 0x100) 8)) = (0, [.msix 0]) := by decide +kernel

/-- Partition 0 in a state. -/
def partIn (st : PartSt) : Mod := hosted.updPart 0 fun q => { q with st := st }
theorem wit_prt : ∀ h : HostId, h.val = 0 → (partIn .stopped).reachedBy h (bPRT 0 + 0x08) ∧ (partIn .stopped).reachedBy h (bPRT 0 + 0x10) ∧ (partIn .stopped).reachedBy h (bPRT 0 + 0x28) := by
  unfold Mod.reachedBy; decide +kernel
theorem test_run_stop : ((after (.prtRun 0 0) (partIn .stopped)).part 0).st = .running ∧ ((after (.prtStop 0 0) (partIn .running)).part 0).st = .stopped ∧
    ((after (.prtStop 0 0) (partIn .running)).core 0).cregf 0x018 17 17 = 1 ∧ ((after (.prtRun 0 0) ((partIn .stopped).wrf (bCAL + 0x60) 24 24 1)).part 0).st = .stopped := by decide +kernel
theorem test_creset : (fun (k : Core) => (k.bank, k.run, k.creg 0x000, k.trap)) ((after (.prtCreset 0 0 0x100) ((partIn .stopped).updCore 0 fun k => { k with piece := none, trap := some 3 })).core 0) =
    ({}, .free, 0, none) ∧ ((after (.prtCreset 0 0 0x100) (partIn .running)).core 0).run = .running := by decide +kernel
/-- PRT_EVT bit 2 stands: the fault queue has posted. -/
theorem test_iarm : (fun (m : Mod) => (m.rdf (bPRT 0 + 0x28) 0 0, (m.host 0).out)) (after (.prtIarm 0 0 1) (((partIn .running).wr (bPRT 0 + 0x28) 0).wr (bXLT 0 + 0xA0) 1)) = (1, []) ∧
    (fun (m : Mod) => (m.rdf (bPRT 0 + 0x28) 0 0, (m.host 0).out)) (after (.prtIarm 0 0 1) ((((partIn .running).wr (bPRT 0 + 0x28) 0).wr (bXLT 0 + 0xA0) 1).wr (bPRT 0 + 0x18) 4)) = (0, [.msix 1]) := by
  decide +kernel
theorem test_die_to_die : (fun (m : Mod) => (m.panelFenced 1, m.panelFenced 0, m.coreFenced 64, m.coreFenced 63, (m.part 0).st)) (after (.dieToDieLinkFailure 1 0) (partIn .running)) =
    (true, false, true, false, .running) ∧ (after (.dieToDieLinkFailure 1 0) (partIn .running)).spl.fenced.contains 6 = true := by decide +kernel
theorem test_bar_reads : hosted.barRead 0 none 0x20008 8 = some (toLe 8 120) ∧ hosted.barRead 0 none 0x20009 4 = none ∧ hosted.barRead 0 none 0x2000C 8 = none ∧
    hosted.barRead 0 none 0x20F00 8 = some (toLe 8 0) ∧ hosted.barRead 0 none 0x110000 4 = some (toLe 4 0) ∧
    (hosted.barRead 0 none 0x100000 8).isSome = true := by decide +kernel
/-- A seam entry of partition 1, which port 0 does not own, reads 0; one of partition 0 reads its register (R630). -/
def entriesOf : Mod := let m := hosted.wr (bSx 5) (w64 (1 * 2 ^ 20 + 1)); m.wr (bSx 6) (w64 1)
theorem wit_sem_reads : entriesOf.owns 0 (entriesOf.sxPart 5) = false ∧ entriesOf.owns 0 (entriesOf.sxPart 6) = true := by decide +kernel
theorem test_sem_reads : entriesOf.barRead 0 none (bSx 5) 8 = some (toLe 8 0) ∧ entriesOf.barRead 0 none (bSx 6) 4 = some (toLe 4 1) := by decide +kernel
theorem wit_bar_reads : (¬ (((3 : Fin 9).val = 4 ∨ (3 : Fin 9).val = 8) ∧ 0x20008 % 3 = 0)) ∧ barRow 0x20F00 = none ∧ barRow 0x20F04 = none ∧ hosted.barAddr 0 none 0x20F00 = some 0x20F00 ∧
    0x110000 = bPRT 1 + 0 ∧ hosted.owns 0 1 = false ∧ (∃ r f, barRow 0 = some r ∧ f ∈ r.fields ∧ f.acc = .wo) := by
  exact ⟨by decide, by decide +kernel, by decide +kernel, by decide +kernel, by decide, by decide +kernel,
    (barRow 0).getD { base := 0, fields := [] }, { hi := 15, lo := 0, acc := .wo }, by decide +kernel, by decide +kernel, rfl⟩

/-! ## Mailboxes -/

/-- A request of a code with a payload, at partition 0. -/
def ask (code : Nat) (pay : List Byte) : List Byte := toLe 4 code ++ toLe 4 pay.length ++ toLe 4 0 ++ toLe 4 0 ++ pay
/-- The firmware runs with version 3 in force and serves host 0's request of SEQ 5, the one expected. -/
def served (seq : Nat) (d : List Byte) : Mod :=
  let m := (memory .m (ready [])).wr (bMBX 0 + 8) (w64 (5 * 2 ^ 32 + 3 * 2 ^ 16 + 2))
  { m with fit := { phase := .running, steward := 0, queue := [.mbx 0 seq d] } }
/-- The command that those bytes spell. -/
def cmdOf (code : Nat) (pay : List Byte) : Cmd := { port := 0, seq := 5, ver := 3, code := code, part := 0, pay := pay }
/-- The response lies in the buffer: its first bytes. -/
def response (n : Nat) (m : Mod) : List Byte := Memory.bytes (m.host 0).resp 0 n
/-- Requests that pass every check of their headers, one of each length. -/
def goodAsks : List (Nat × List Byte) :=
  [(1, [1, 3, 0, 0, 0, 0, 0, 0]), (2, []), (3, []), (4, [1, 2, 3, 4, 5, 6, 7, 8]), (5, []), (6, List.replicate 16 0), (0x10, List.replicate 112 0), (0x11, List.replicate 8 0), (0x12, List.replicate 72 0),
   (0x13, List.replicate 32 7), (0x20, toLe 4 0x0101 ++ toLe 4 (bXLT 0) ++ toLe 8 0x8000), (0x21, []), (0x22, List.replicate 8 0), (0x23, []), (0x30, List.replicate 24 0), (0x40, []), (0x50, List.replicate 40 0), (0x52, [])]
theorem wit_asked : ∀ x ∈ goodAsks, (served 5 (ask x.1 x.2)).asked (cmdOf x.1 x.2) (ask x.1 x.2) := by unfold Mod.asked; decide +kernel
theorem test_doorbell : (fun (m : Mod) => (m.rdf (bMBX 0 + 8) 1 1, m.fit.queue.length)) (after (.registerWrite 0 none 0 8 6) ((served 5 []).wrf (bMBX 0 + 8) 1 1 0)) = (1, 2) ∧
    (fun (m : Mod) => (m.rdf (bMBX 0 + 0x58) 47 0, m.fit.queue.length)) (after (.registerWrite 0 none 0 8 6) (served 5 [])) = (1, 1) := by decide +kernel
/-- INFO again: the stored response; with a SEQ beyond: MBX_SEQ; with the one expected but a wrong length: MBX_LEN; as an unknown code: MBX_BADCMD. -/
theorem test_turns : response 16 (after .info ((served 4 (ask 2 [])).updHost 0 fun k => { k with stored := some [9, 9, 9] })) = [9, 9, 9, 0, 0, 0, 0, 0, 0, 0, 0, 0, 0, 0, 0, 0] ∧
    response 16 (after .info (served 6 (ask 2 []))) = [2, 0, 6, 0, 0, 0, 0, 0, 0, 0, 0, 0, 4, 0, 0, 0] ∧
    response 16 (after .info (served 5 (ask 2 [1]))) = [2, 0, 5, 0, 0, 0, 0, 0, 0, 0, 0, 0, 3, 0, 0, 0] ∧
    response 16 (after .hello (served 5 (ask 0x60 []))) = [0x60, 0, 5, 0, 0, 0, 0, 0, 0, 0, 0, 0, 1, 0, 0, 0] := by decide +kernel
theorem test_turns_seq : (after .info (served 6 (ask 2 []))).rdf (bMBX 0 + 8) 47 32 = 5 ∧ (after .info (served 5 (ask 2 []))).rdf (bMBX 0 + 8) 47 32 = 6 ∧ (after .info (served 5 (ask 2 []))).rdf (bMBX 0 + 8) 1 0 = 1 ∧
    ((after .info (served 5 (ask 2 []))).host 0).out = [.msix 0] := by decide +kernel
/-- MBX_PERM for a host that is not the steward. -/
theorem test_perm : let m := served 5 (ask 0x13 (List.replicate 32 7)); response 16 (after .stewardKey { m with fit := { m.fit with steward := 1 } }) = [0x13, 0, 5, 0, 0, 0, 0, 0, 0, 0, 0, 0, 5, 0, 0, 0] ∧
    (after .stewardKey m).fit.stewardKey = List.replicate 32 7 := by decide +kernel
/-- HELLO asks for versions 1 to 2. -/
theorem test_hello_mbx : (fun (m : Mod) => (m.rdf (bMBX 0 + 8) 17 16, response 24 m)) (after .hello (served 5 (ask 1 [1, 2, 0, 0, 0, 0, 0, 0]))) =
    (2, [1, 0, 5, 0, 8, 0, 0, 0, 0, 0, 0, 0, 0, 0, 0, 0, 2, 0, 1, 0, 0, 0, 0, 0]) := by decide +kernel
theorem test_info : response 28 (after .info (let m := (served 5 (ask 2 [])).wrf bLNK 17 0 7; { m with fit := { m.fit with version := 0x102 } })) =
    [2, 0, 5, 0, 16, 0, 0, 0, 0, 0, 0, 0, 0, 0, 0, 0, 7, 0, 0, 0, 2, 1, 0, 0, 0, 0, 0, 0] := by decide +kernel
theorem test_health : ((response 56 (after .health ((served 5 (ask 3 [])).wr (bCAL + 0x48) 0x80))).drop 16).take 16 = [0, 0, 0, 0, 0, 0, 0, 0, 0x80, 0, 0, 0, 0, 0, 0, 0] := by decide +kernel
theorem test_time : (after .timeSet (served 5 (ask 4 [1, 2, 0, 0, 0, 0, 0, 0]))).fit.time = some 0x201 ∧ response 20 (after .timeGet (served 5 (ask 5 []))) =
    [5, 0, 5, 0, 16, 0, 0, 0, 0, 0, 0, 0, 0, 0, 0, 0, 0, 0, 0, 0] := by decide +kernel
/-- A glove to window 2 of device 1 of 0x100 bytes at 0x7000, RD and WR, into cap 4 of the table at 0x5000. -/
def gloveAsk : List Byte := [4, 3, 0, 0] ++ toLe 4 (2 * 2 ^ 18 + 1) ++ toLe 8 0x7000 ++ toLe 8 0x100
theorem test_glove : (fun (m : Mod) => (m.rdMem 0x5040 16, m.tagAt 0x5040)) (after .gloveGrant ((served 5 (ask 0x30 gloveAsk)).wr (bPAT 0 + 0x18) 0x5000)) =
    ([0, 0x70, 0, 0, 0, 0, 0, 1, 0, 0, 0x08, 0x40, 0, 0, 3, 0x20], true) := by decide +kernel
theorem test_glove_fails : response 16 (after .gloveGrant (served 5 (ask 0x30 (2 :: gloveAsk.drop 1)))) = [0x30, 0, 5, 0, 0, 0, 0, 0, 0, 0, 0, 0, 6, 1, 0, 0] := by decide +kernel
/-- A host that does not own the partition: MBX_PERM. -/
theorem test_glove_unowned : response 16 (after .gloveGrant ((served 5 (ask 0x30 gloveAsk)).updPart 0 fun q => { q with owner := 1 })) = [0x30, 0, 5, 0, 0, 0, 0, 0, 0, 0, 0, 0, 5, 0, 0, 0] := by decide +kernel
theorem test_snapshot : (fun (m : Mod) => (m.rd (bMON + 0x80), m.rdf (bMON + 0x30000) 31 0)) (after .snapshot ((served 5 (ask 0x40 [])).wr (bMON + 0x40) 77)) = (77, 1) := by decide +kernel
theorem test_mod_reset : (after .modReset (served 5 (ask 0x52 []))).fit.resetDue = true := by decide +kernel
theorem test_attest_beyond : response 20 (after .attest (served 5 (ask 0x50 (List.replicate 32 0 ++ toLe 4 1 ++ toLe 4 0)))) = [0x50, 0, 5, 0, 4, 0, 0, 0, 0, 0, 0, 0, 4, 3, 0, 0, 0, 0, 0, 0] := by decide +kernel

/-- PART_DEFINE of partition 1 for host 0: core 5 and spool 1 GiB at 1. -/
def defAsk : List Byte := [1, 0, 0, 0, 0, 0, 0, 0] ++ toLe 32 (2 ^ 5) ++ toLe 4 (1 * 2 ^ 16 + 1) ++ List.replicate 68 0
theorem test_define : ((after .partDefine (served 5 (ask 0x10 defAsk))).host 0).set.map (fun x => match x with | .define p d => (p, d.owner, d.cores, d.spools.take 1) | _ => (0, 0, 0, [])) = [(1, 0, 2 ^ 5, [(1, 1)])] := by
  decide +kernel
theorem test_destroy : ((after .partDestroy (served 5 (ask 0x11 (List.replicate 8 0)))).host 0).set = [.destroy 0] ∧ response 16 (after .partDestroy (served 5 (ask 0x11 (1 :: List.replicate 7 0)))) =
    [0x11, 0, 5, 0, 0, 0, 0, 0, 0, 0, 0, 0, 1, 1, 0, 0] := by decide +kernel
def stageAsk : List Byte := ask 0x20 (toLe 4 0x0101 ++ toLe 4 (bXLT 0) ++ toLe 8 0x8000)
theorem wit_cut : cutItems 257 (stageAsk.drop 16) = some [stageAsk.drop 16] ∧ readItem (stageAsk.drop 16) = some (.reg (bXLT 0) 0x8000) ∧ (let d := ask 0x20 (List.replicate 24 0); d.headD 0 = 0x20 ∧ cutItems 257 ((d.drop 16).take (ofLe ((d.drop 4).take 4) % 2 ^ 13)) = none) ∧ readItem (List.replicate 16 0) = none := by
  decide +kernel
theorem test_cfg_stage : ((after .cfgStage (served 5 stageAsk)).host 0).set = [.reg (bXLT 0) 0x8000] ∧ response 24 (after .cfgStage (served 5 stageAsk)) =
    [0x20, 0, 5, 0, 8, 0, 0, 0, 0, 0, 0, 0, 0, 0, 0, 0, 1, 0, 0, 0, 0, 0, 0, 0] := by decide +kernel
theorem test_cfg_stage_bad : response 16 (after .cfgStage (served 5 (ask 0x20 (List.replicate 24 0)))) = [0x20, 0, 5, 0, 0, 0, 0, 0, 0, 0, 0, 0, 3, 0, 0, 0] ∧
    response 16 (after .cfgStage (served 5 (ask 0x20 (List.replicate 16 0)))) = [0x20, 0, 5, 0, 0, 0, 0, 0, 0, 0, 0, 0, 6, 0, 0, 0] := by decide +kernel
/-- A set with one item of no register fails with CFG_ADDR. -/
def badSet : Mod := (served 5 (ask 0x21 [])).updHost 0 fun k => { k with set := [.reg 0x3FFFFF8 0] }
theorem test_check_fails : badSet.checkHost (cmdOf 0x21 []) = some (0x0201, 0, 0x3FFFFF8) ∧ response 32 (after .cfgCheck badSet) =
    [0x21, 0, 5, 0, 16, 0, 0, 0, 0, 0, 0, 0, 1, 2, 0, 0, 0, 0, 0, 0, 0, 0, 0, 0, 0xF8, 0xFF, 0xFF, 3, 0, 0, 0, 0] := by decide +kernel
theorem test_discard : ((after .cfgDiscard (let m := served 5 (ask 0x23 []); m.updHost 0 fun k => { k with set := [.destroy 3], overfull := true })).host 0).set = [] := by decide +kernel

/-- Shares and topology pass every check of a set. -/
def sane (d : List Byte) : Mod := ((served 5 d).wr bSPLMAP 1).wr (bSPL 0 + 0x100) 100
theorem wit_apply : (sane (ask 0x22 (List.replicate 8 0))).checkHost (cmdOf 0x22 (List.replicate 8 0)) = none := by decide +kernel
theorem test_apply : (fun (m : Mod) => (m.fit.job.map fun j => (j.port, j.seq, j.save), (m.host 0).set)) (after .cfgApply (sane (ask 0x22 [1, 0, 0, 0, 0, 0, 0, 0]))) = (some (0, 5, true), []) := by decide +kernel
theorem test_check_passes : response 32 (after .cfgCheck (sane (ask 0x21 []))) = [0x21, 0, 5, 0, 16] ++ List.replicate 27 0 := by decide +kernel
/-- An apply of no items is in progress; and one whose set no longer passes. -/
def applying (set : List StageItem) : Mod := let m := sane []; { m with fit := { m.fit with queue := [], job := some { port := 0, seq := 5, ver := 3, set := set } } }
theorem wit_switch11 : (applying []).checkSet 0 3 [] = none ∧ (applying [.reg 0x3FFFFF8 0]).checkSet 0 3 [.reg 0x3FFFFF8 0] = some (0x0201, 0, 0x3FFFFF8) ∧ ((applying []).core 256).halted = false := by decide +kernel
theorem test_switch_fails : (fun (m : Mod) => (m.fit.job, (m.host 0).set, response 28 m)) (after (.applySwitch false) (applying [.reg 0x3FFFFF8 0])) =
    (none, [.reg 0x3FFFFF8 0], [0x22, 0, 5, 0, 16, 0, 0, 0, 0, 0, 0, 0, 1, 2, 0, 0, 0, 0, 0, 0, 0, 0, 0, 0, 0xF8, 0xFF, 0xFF, 3]) := by decide +kernel
theorem test_switch : (fun (m : Mod) => (m.fit.job, m.rd bCFGSTAT, response 20 m)) (after (.applySwitch false) (applying [])) = (none, 0x100000001, [0x22, 0, 5, 0, 16, 0, 0, 0, 0, 0, 0, 0, 0, 0, 0, 0, 1, 0, 0, 0]) := by
  decide +kernel
theorem test_saved : (after (.applySwitch false) (let m := applying []; { m with fit := { m.fit with job := m.fit.job.map fun j => { j with save := true } } })).nv.saved = [(0, [])] := by decide +kernel
/-- CFG_REG sets a staged register at once: the window table of partition 0 at 0x40000. -/
theorem test_cfg_reg : (after .cfgReg (sane (ask 6 (toLe 8 (bPRT 0 + 0x3100) ++ toLe 8 (2 ^ 63 + 0x40000))))).rd (bPRT 0 + 0x3100) = 0x8000000000040000 := by decide +kernel

/-- Host 0 adopts partition 1 of host 1, whose digest is that of the secret it sends, and the stewardship of host 1. -/
def adoptAsk (p : Byte) : List Byte := [p, 0, 0, 0, 0, 0, 0, 0] ++ List.replicate 32 7 ++ List.replicate 32 8
def secret : List Byte := shake256 (List.replicate 32 7) 32
def adopting (p : Byte) (digest : List Byte) : Mod :=
  let m := (sane (ask 0x12 (adoptAsk p))).updPart 1 fun _ => { st := .stopped, owner := 1, digest := digest }
  { m with fit := { m.fit with steward := 1, stewardKey := digest } }
theorem wit_adopt : (padTo 32 secret).all (· == 0) = false ∧ secret = padTo 32 secret := by decide +kernel
theorem wit_adopt2 : (adopting 1 secret).asked (cmdOf 0x12 (adoptAsk 1)) (ask 0x12 (adoptAsk 1)) ∧ (adopting 0xFF secret).asked (cmdOf 0x12 (adoptAsk 0xFF)) (ask 0x12 (adoptAsk 0xFF)) ∧
    (adopting 1 secret).owns 0 1 = false ∧ allZero (cmdOf 0x12 (adoptAsk 1)) 1 7 = true := by unfold Mod.asked; decide +kernel
theorem test_adopt : (fun (m : Mod) => ((m.part 1).owner, (m.part 1).digest)) (after .partAdopt (adopting 1 secret)) = (0, List.replicate 32 8) := by decide +kernel
theorem test_adopt_fails : response 16 (after .partAdopt (adopting 0 secret)) = [0x12, 0, 5, 0, 0, 0, 0, 0, 0, 0, 0, 0, 5, 0, 0, 0] := by decide +kernel

/-! ## Boot and pushed images -/

/-- The fitter at a phase and step of its start-up, the sequencer in a state. -/
def booting (phase : FitPhase) (step : BootStep) (seq : Nat) : Mod :=
  let m := memory .m (ready [])
  { m with fit := { phase := phase, step := step }, pwr := { m.pwr with seq := seq } }
/-- Both slots erased: recovery. -/
theorem test_recovery : (fun (m : Mod) => (m.fit.phase, m.pwr.seq, m.rdf (bMBX 0 + 8) 1 1, m.rdf (bMBX 1 + 8) 1 1)) (after (.bootRomStart true true 0) (booting .rom .none 2)) = (.recovery, 2, 0, 0) := by decide +kernel
theorem test_rom_out_of_turn : (after (.bootRomStart true true 0) (booting .running .booted 3)).fit = { phase := .running, step := .booted } ∧ (after (.bootRomStart true true 0) (booting .rom .none 3)).fit.phase = .rom := by
  decide +kernel
theorem test_choose : let a : Image0 := { hdr := toLe 8 0 ++ toLe 4 5 ++ toLe 4 7, body := [], len := 0 }
    let b : Image0 := { hdr := toLe 8 0 ++ toLe 4 5 ++ toLe 4 8, body := [], len := 0 }
    chooseSlot a b true true = some 1 ∧ chooseSlot b a true true = some 0 ∧ chooseSlot a a true true = some 0 ∧ chooseSlot a b true false = some 0 ∧ chooseSlot a b false false = none := by decide +kernel
/-- An image at the start of memory that passes every check but the signature's, which the model leaves open (log 7). -/
def imageRam : Tab Byte := Memory.setBytes (Memory.setBytes [] 0 (toLe 4 0x31575846 ++ toLe 2 1 ++ [2, 0] ++ toLe 4 3 ++ toLe 4 9 ++ toLe 4 128 ++ toLe 4 8)) 0x1008 [0x77]
def ramImage : Image0 := imageOf (fun a k => Memory.bytes imageRam a k) 0x1080
theorem wit_image : ramImage.bodyLen = 128 ∧ ramImage.svn = 3 ∧ ramImage.version = 9 ∧ ramImage.f 0 4 = 0x31575846 ∧ ramImage.f 0x14 4 = 8 ∧ ramImage.f 0xD2D 723 = 0 ∧ ramImage.f 0x18 40 = 0 := by decide +kernel
theorem wit_image2 : ramImage.f 4 2 = 1 ∧ ramImage.f 6 1 = 2 ∧ ramImage.f 7 1 = 0 ∧ ramImage.len = 0x1080 := by decide +kernel
/-- Whether that image is accepted is the signature's word alone. -/
theorem wit_accepts (v : NonVol) (h : v.revoked = 0) (hs : v.svn = 2) :
    v.accepts ramImage = Config.mldsaVerify (Config.imageKey 2) (ascii "UXC-FW") ramImage.m1 ((ramImage.hdr.drop 0x40).take 3309) := by
  obtain ⟨a1, a2, a3, a4, a5, a6, a7⟩ := wit_image
  obtain ⟨b1, b2, b3, b4⟩ := wit_image2
  simp [NonVol.accepts, a1, a2, a4, a5, a6, a7, b1, b2, b3, b4, h, hs]
/-- The image runs once it is taken: body in SRAM, PC at ENTRY, C up to its SVN, the state RUN. -/
theorem test_boot_image : (fun (m : Mod) => (m.fit.phase, m.fit.slot, m.nv.svn, (m.core 256).bank.pc, m.pwr.seq, m.fit.steward)) ((booting .rom .none 2).bootImage ramImage 0 1) = (.running, 0, 2, 8, 3, 0) ∧
    Memory.bytes ((booting .rom .none 2).bootImage ramImage 0 1).sram 6 4 = [0, 0, 0x77, 0] := by decide +kernel
theorem wit_boot : (booting .running .booted 3).firmwareRuns = true ∧ (booting .running .booted 3).spoolsWarm = true ∧ ((booting .running .booted 3).wr (bPWR + 0x200 + 8 * 27) 0x8000).spoolsWarm = false ∧
    (booting .rom .none 2).firmwareRuns = false := by decide +kernel
theorem test_training_starts : (after .spoolTraining (booting .running .booted 3)).fit.step = .training ∧ (fun (m : Mod) => (m.fit.step, m.pwr.seq, m.rdf (bPWR + 0x38) 4 4, m.sbWord 2, m.sbWord 12)) (after .spoolTraining ((booting .running .booted 3).wr (bPWR + 0x200 + 8 * 27) 0x8000)) =
    (.cold, 6, 1, 16, 1) := by decide +kernel
theorem test_cold_ends : (fun (m : Mod) => (m.fit.step, m.pwr.seq)) (after .coldWaitEnd (booting .running .cold 6)) = (.training, 3) ∧
    (after .coldWaitEnd ((booting .running .cold 6).wr (bPWR + 0x200 + 8 * 4) 0x8000)).fit.step = .cold := by decide +kernel
theorem test_training_done : (fun (m : Mod) => (m.fit.step, m.spl.fenced)) (after (.spoolTrainingDone 2) (booting .running .training 3)) = (.zeroing, [1]) := by decide +kernel
theorem test_zeroed : (fun (m : Mod) => (m.fit.step, m.rdMem 0x20000 2)) (after .spoolZeroingDone (booting .running .zeroing 3)) = (.zeroed, [0, 0]) := by decide +kernel
theorem test_out_of_turn : [Instr.spoolTraining, .coldWaitEnd, .spoolTrainingDone 1, .spoolZeroingDone, .bootApply false false].map (fun i => (after i (booting .running .applied 3)).fit.step) = List.replicate 5 .applied := by
  decide +kernel
/-- The saved set of port 0 has a bad digest; or it names no register. -/
def zeroedWith (x : List StageItem) : Mod := let m := booting .running .zeroed 3; { m with nv := { saved := [(0, x)] } }
theorem test_boot_apply_held : (after (.bootApply true false) (zeroedWith [])).rd bCFGSTAT = 0x102 ∧ (after (.bootApply false false) (zeroedWith [.reg 0x3FFFFF8 0])).rd bCFGSTAT = 0x2010202 := by decide +kernel
theorem test_boot_apply : (fun (m : Mod) => (m.fit.step, m.rd bCFGSTAT, m.rd bLNK)) (after (.bootApply false false) (((zeroedWith [.reg bLNK 3]).wr (bSPL 0 + 0x100) 100).wrf (bLNK + 0x008) 11 6 3)) = (.applied, 0x100000001, 3) := by
  decide +kernel

/-- The request pushes 3 bytes at an offset, at LAST or not. -/
def pushAsk (off last : Nat) : List Byte := ask 0x51 (toLe 4 off ++ toLe 4 last ++ [0xAA, 0xBB, 0xCC])
/-- Slot A booted; 4 bytes have been pushed, and slot B has 0x11 after them. -/
def pushing (phase : FitPhase) (off last : Nat) : Mod :=
  let m := served 5 (pushAsk off last)
  { m with fit := { m.fit with phase := phase, slot := 0, pushed := 4 }, nv := { flash := [(0x400007, 0x11)] }, sram := [(1, 9)] }
theorem wit_push : (pushing .running 4 0).asked (cmdOf 0x51 ((pushAsk 4 0).drop 16)) (pushAsk 4 0) ∧ (pushing .running 4 0).otherSlot = 1 ∧ (pushing .recovery 4 0).asked { cmdOf 0x51 ((pushAsk 4 0).drop 16) with ver := 3 } (pushAsk 4 0) := by
  unfold Mod.asked; decide +kernel
theorem test_push : (fun (m : Mod) => (m.nv.bytes 0x400004 4, m.fit.pushed, response 24 m)) (after (.fwPush false 0) (pushing .running 4 0)) =
    ([0xAA, 0xBB, 0xCC, 0x11], 7, [0x51, 0, 5, 0, 8, 0, 0, 0, 0, 0, 0, 0, 0, 0, 0, 0, 7, 0, 0, 0, 0, 0, 0, 0]) := by decide +kernel
theorem test_push_first : (fun (m : Mod) => (m.nv.bytes 0x400000 8, m.fit.pushed)) (after (.fwPush false 0) (pushing .running 0 0)) = ([0xAA, 0xBB, 0xCC, 0xFF, 0xFF, 0xFF, 0xFF, 0xFF], 3) := by decide +kernel
theorem test_push_order : (fun (m : Mod) => (m.nv.bytes 0x400004 4, m.fit.pushed, (response 16 m).drop 12)) (after (.fwPush false 0) (pushing .running 5 0)) = ([0xFF, 0xFF, 0xFF, 0x11], 4, [1, 3, 0, 0]) := by decide +kernel
theorem test_push_last : (fun (m : Mod) => (m.fit.pushed, (response 16 m).drop 12)) (after (.fwPush false 0) (pushing .running 4 1)) = (7, [3, 3, 0, 0]) := by decide +kernel
theorem test_push_recovery : (fun (m : Mod) => (m.sram, m.fit.pushed, m.nv.flash)) (after (.fwPush false 0) (pushing .recovery 4 0)) = ([(1, 9), (4, 0xAA), (5, 0xBB), (6, 0xCC)], 7, [(0x400007, 0x11)]) ∧
    ((response 16 (after (.fwPush false 0) (pushing .recovery 4 1))).drop 12) = [3, 3, 0, 0] := by decide +kernel

/-! ## Power, resets, sideband -/

/-- The module with its power in a way to be. -/
def powered (seq groups : Nat) (conv stby en : Bool) : Mod :=
  { hosts := [(0, { linked := true, clock := true })], nv := { svn := 3 }, pwr := { seq := seq, groups := groups, converter := conv, standby := stby, enable := en } }
/-- Every state that a clause of the power sequence speaks of. -/
theorem wit_power : (powered 0 0 false false false).pwr.converter = false ∧ (powered 0 0 true false true).pwr.standby = false ∧ (powered 1 5 true true true).pwr.seq = 1 ∧ 14 ∈ rampGroups.getD 0 [] := by decide +kernel
/-- Whatever the factory values: 125 °C trips, 100 °C does not. -/
theorem wit_trip (m : Mod) : 460 ≤ m.reading 2 500 ∧ m.reading 2 400 < 460 := by
  have h1 := reading_bounds m 2 500
  have h2 := reading_bounds m 2 400
  have e1 : (500 : BitVec 16).toInt = 500 := by decide
  have e2 : (400 : BitVec 16).toInt = 400 := by decide
  omega
/-- Above 60.00 V the converter starts or not; the input is what it is. -/
theorem test_too_high : ∃ m, exec (.converterStart 6001) { m := powered 0 0 false false false } = .next { m := m } ∧ m.pwr.input = 6001 := by
  refine ⟨(powered 0 0 false false false).converterStart 6001, rfl, ?_⟩
  have h : ¬((powered 0 0 false false false).pwr.converter = true ∨ (6001 : BitVec 16).toNat < 3400) := by decide
  simp only [Mod.converterStart, if_neg h]
  split <;> rfl
theorem test_converter : (fun (m : Mod) => (m.pwr.converter, m.pwr.input, m.rdf bPWR 31 16)) (after (.converterStart 5400) (powered 0 0 false false false)) = (true, 5400, 5400) ∧
    (after (.converterStart 3399) (powered 0 0 false false false)).pwr.converter = false := by decide +kernel
theorem test_converter_stops : (fun (m : Mod) => (m.pwr.converter, m.pwr.standby, m.pwr.seq, m.pwr.groups, m.nv.svn)) (after (.converterStop 2799) (powered 3 6 true true true)) = (false, false, 0, 0, 3) ∧
    (after (.converterStop 2800) (powered 3 6 true true true)).pwr.converter = true := by decide +kernel
theorem test_standby : (fun (m : Mod) => (m.pwr.standby, m.pwr.seq, m.pwr.rail)) (after .standbyGood (powered 0 0 true false true)) = (true, 1, 14) ∧
    (fun (m : Mod) => (m.pwr.standby, m.pwr.seq)) (after .standbyGood (powered 0 0 true false false)) = (true, 0) := by decide +kernel
theorem test_enable : (after (.enableHigh false) (powered 0 0 true true false)).pwr.seq = 1 ∧ (after (.enableHigh false) (powered 5 0 true true false)).pwr.seq = 5 ∧ (after (.enableHigh true) (powered 5 0 true true false)).pwr.seq = 1 ∧
    (after (.enableHigh true) (let m := powered 4 0 true true false; { m with pwr := { m.pwr with cycled := false } })).pwr.seq = 4 := by decide +kernel
theorem test_enable_low : (fun (m : Mod) => (m.pwr.seq, m.pwr.groups, m.pwr.enable, (m.host 0).linked, (m.host 0).clock)) (after .enableLow (powered 3 6 true true true)) = (0, 0, false, false, true) ∧
    (fun (m : Mod) => (m.pwr.seq, m.pwr.cycled)) (after .enableLow (let m := powered 4 0 true true true; { m with pwr := { m.pwr with cycled := false } })) = (4, true) := by decide +kernel
theorem test_group_good : (fun (m : Mod) => (m.pwr.seq, m.pwr.groups, m.pwr.rail)) (after .railGroupGood (powered 1 0 true true true)) = (1, 1, 5) ∧
    (fun (m : Mod) => (m.pwr.seq, m.pwr.groups, m.fit.phase, m.rdf bPWR 3 0)) (after .railGroupGood (powered 1 5 true true true)) = (2, 6, .rom, 2) := by decide +kernel
theorem test_rail_faults : (fun (m : Mod) => (m.pwr.seq, m.pwr.groups, m.pwr.rail, m.pwr.cycled, m.sbWord 2)) (after (.railFault 7) (powered 3 6 true true true)) = (4, 0, 7, false, 1) ∧ (after (.railFault 7) (powered 1 3 true true true)).pwr.seq = 1 ∧
    (after (.railGoodTimeout 8) (powered 1 3 true true true)).pwr.seq = 4 ∧ (after (.railGoodTimeout 11) (powered 1 3 true true true)).pwr.seq = 1 := by decide +kernel
theorem test_trip : (fun (m : Mod) => (m.pwr.seq, m.pwr.groups, m.sbWord 2, m.sbWord 9)) (after (.thermalTrip 2 500) (powered 3 6 true true true)) = (5, 0, 2, 1) := by
  have h : ¬((powered 3 6 true true true).pwr.groups = 0 ∨ (powered 3 6 true true true).reading ((2 : Fin 29) : Nat) 500 < 460) := by
    have h1 : 460 ≤ (powered 3 6 true true true).reading ((2 : Fin 29) : Nat) 500 := (wit_trip (powered 3 6 true true true)).1
    have e : (powered 3 6 true true true).pwr.groups = 6 := rfl
    omega
  have e : after (.thermalTrip 2 500) (powered 3 6 true true true) = (powered 3 6 true true true).thermalTrip 2 500 := rfl
  rw [e, Mod.thermalTrip, if_neg h]
  decide +kernel
theorem test_module_reset : (fun (m : Mod) => (m.pwr.seq, m.pwr.groups, m.nv.svn, m.fit.phase, (m.host 0).linked, m.isHeld)) (after .moduleReset { powered 3 6 true true true with fit := { resetDue := true } }) = (2, 6, 3, .rom, true, false) ∧
    (after .moduleReset (powered 3 6 true true true)).pwr.seq = 3 := by decide +kernel
theorem test_modrst : (fun (m : Mod) => (m.pwr.seq, m.isHeld, m.rdf bCFGSTAT 15 8)) (after .modrst { powered 3 6 true true true with fit := { job := some {} } }) = (2, true, 3) ∧ (after .modrst (powered 0 0 true true false)).pwr.seq = 0 := by
  decide +kernel

/-- The firmware times its steps. -/
def timing (cap : Nat) : Mod := let m := (powered 3 6 true true true).wr (bPWR + 0x28) (w64 cap); { m with fit := { phase := .running } }
theorem wit_timed : (timing 100).timed = true ∧ (powered 3 6 true true true).timed = false ∧ (timing 100).railCode 0 = 120 ∧ (timing 100).railVolt 0 = 0 := by decide +kernel
theorem wit_rail : (timing 100).railVolt 0 < (timing 100).railGoal 0 ∧ (timing 100).railGoal 0 < 900 := by
  have h := railGoal_bounds (timing 100) 0
  have e : (timing 100).railTarget 0 = 600 := by decide +kernel
  have := wit_timed.2.2.2
  omega
/-- TLIM is 400 quarters: 125 °C is hot, 80 °C cool, and something lies between. -/
theorem wit_throttle (m : Mod) : (400 : Int) ≤ m.reading 1 500 ∧ m.reading 1 320 < 400 - 12 ∧ ∃ raw, m.reading 1 raw = 390 := by
  have h1 := reading_bounds m 1 500
  have h2 := reading_bounds m 1 320
  have e1 : (500 : BitVec 16).toInt = 500 := by decide
  have e2 : (320 : BitVec 16).toInt = 320 := by decide
  have h := effective_bounds m (.therm 1) (by show (-31 : Int) ≤ 31; decide)
  have e : (CalQ.therm 1).range = (-31, 31) := rfl
  rw [e] at h
  refine ⟨by omega, by omega, BitVec.ofInt 16 (390 - m.effective (.therm 1)), ?_⟩
  have h3 : (BitVec.ofInt 16 (390 - m.effective (.therm 1))).toInt = 390 - m.effective (.therm 1) := by
    simp only at h
    rw [BitVec.toInt_ofInt, Int.bmod_def]; omega
  unfold Mod.reading; omega
theorem test_input_limit : (fun (m : Mod) => (m.railVolt 1, m.rdf bPWR 31 16, m.rdf bPWR 47 32, m.rdf (bPWR + 0x38) 3 3, m.sbWord 2)) (after (.inputCurrentLimit 4800 20 500 501 502 503) (timing 100)) = (501, 4800, 20, 1, 8) := by
  decide +kernel
theorem test_rail_move : (after (.railMoveStep 0) (timing 100)).railVolt 0 = 1 := by
  have h : (timing 100).railVolt ((0 : PanelId) : Nat) < (timing 100).railGoal ((0 : PanelId) : Nat) := wit_rail.1
  have ht : (!(timing 100).timed) = false := by decide +kernel
  simp only [after, exec, execRailMoveStep, State.edge, Mod.railMove, h, ht, if_true, if_false, Bool.false_eq_true]
  decide +kernel
theorem test_cap_lowers : (fun (m : Mod) => ((upto 4).map fun k => Tab.get 200 m.pwr.capLim k, m.rdf bPWR 63 48)) (after (.powerCapCheck 101 3) (timing 100)) = ([190, 190, 190, 190], 101) := by decide +kernel
theorem test_cap_raises : (fun (m : Mod) => (Tab.get 200 m.pwr.capLim 2, m.pwr.capLow)) (after (.powerCapCheck 94 3) (let m := timing 100; { m with pwr := { m.pwr with capLim := [(2, 150)], capLow := 9 } })) = (160, 0) ∧
    (after (.powerCapCheck 94 3) (timing 100)).pwr.capLow = 1 ∧ (after (.powerCapCheck 95 3) (timing 100)).pwr.capLow = 0 := by decide +kernel
theorem test_cap_lowest : (after (.powerCapCheck 101 3) (let m := timing 100; { m with pwr := { m.pwr with capLim := [(0, 0), (1, 0), (2, 0), (3, 0)] } })).rdf (bPWR + 0x38) 1 1 = 1 ∧
    (after (.powerCapCheck 101 3) (timing 0)).pwr.capLim = [] := by decide +kernel
theorem test_heartbeat : (after .heartbeat (timing 0)).sbWord 7 = 1 ∧ (after .heartbeat (powered 3 6 true true true)).sbWord 7 = 0 := by decide +kernel
theorem test_i3c : (after (.dynamicAddressAssign 9) (powered 0 0 true true false)).pwr.addr = some 9 ∧ (after (.i3cPrivateWrite [5]) (powered 0 0 true true false)).pwr.index = 5 ∧
    (after (.i3cPrivateWrite [2, 5, 0, 0, 0]) ((powered 0 0 true true false).setSb 2 7)).sbWord 2 = 2 ∧ (after (.i3cPrivateWrite [3, 0xFE, 0xFF, 0, 0]) (powered 0 0 true true false)).sbWord 3 = 0x1F00 := by decide +kernel
/-- SB_SEQ and SB_EVT of a module in RUN with ENABLE high; a read of word 5 resets the lowest voltage. -/
theorem test_sb_read : (after (.sbPowerRead 2) (let m := (powered 3 6 true true true).setSb 2 8; { m with pwr := { m.pwr with index := 1 } })).pwr.out = [0x103, 8] ∧
    (after (.sbPowerRead 1) (let m := powered 3 6 true true true; { m with pwr := { m.pwr with index := 5, lowest := some 7 } })).pwr.lowest = none := by decide +kernel
theorem test_collapse : (fun (m : Mod) => ((m.core 64).stopped, (m.core 63).stopped, m.railVolt 1)) (after (.coreRailCollapse 1 400) (timing 0)) = (true, false, 400) := by decide +kernel
theorem test_clocks : (fun (m : Mod) => ((m.host 0).clock, m.rdf (bPWR + 0x40) 30 29, m.rdf (bPWR + 0x40) 31 31)) (after (.monitorClockLoss 0) (after (.stitchMonitorWindow 0 77) (timing 0))) = (false, 0, 0) ∧
    (fun (m : Mod) => (m.rdf (bPWR + 0x40) 30 29, m.rdf (bPWR + 0x40) 31 31, m.rdf (bPWR + 0x40) 19 0, m.rdf (bPWR + 0x40) 63 32)) (after (.stitchMonitorWindow 0 77) (timing 0)) = (1, 1, 77, 1) := by decide +kernel

/-! ## The queue, reset, invariants -/

theorem test_queue : (match step { pending := [.heartbeat, .mark (0, {})], m := timing 0 } with | .next t => (t.pending, t.m.sbWord 7) | _ => ([], 0)) = ([.mark (0, {})], 1) := by decide +kernel
theorem test_empty_queue : (match step { m := timing 0 } with | .next t => decide (t = { m := timing 0 }) | _ => false) = true := by decide +kernel
theorem wit_sound : State.sound { m := timing 0 } ∧ State.sound State.reset := by unfold State.sound; decide +kernel
theorem test_reset : State.reset.m.powered = false ∧ State.reset.m.rdf (bCAL + 8) 4 0 = 13 ∧ State.reset.m.rdf (bMBX 1 + 8) 17 16 = 1 ∧ State.reset.pending = [] := by decide +kernel
theorem test_word_order : decodeTableWord 32 0 = none ∧ State.reset.withFetchWord 32 0 = State.reset := by decide +kernel

/-! ## Commands that no wire carries -/

/-- One ill-formed term for each check of `Instr.wf`; the wf check refuses them all. -/
theorem smoke_flits : [Instr.dataFlit 0 0 [1], .idleFlit 0 0 []].map Instr.wf = [false, false] := by decide +kernel
theorem smoke_host : [Instr.registerWrite 0 none 0 0 1, .registerWrite 0 none 0x3FFFFFE 4 1, .bar2Access 0 none 0 0 none, .bar2Access 0 none 0 4097 none, .bar2Access 0 none 0xFFFFFFFFF 2 none,
      .bar2Access 0 none 0 0 (some []), .bar2Access 0 none 0 0 (some (List.replicate 513 0)), .doeRequest 0 [1, 2, 3]].map Instr.wf = List.replicate 8 false := by decide +kernel
theorem smoke_rest : [Instr.trackRound (.link 0 0) 0x10001 0 0 0, .fwPush false 65, .bootRomStart true true 65, .portLinkUp 0 2 8, .portLinkUp 0 7 8, .portLinkUp 0 3 16, .regulatorFill 0 33, .i3cPrivateWrite []].map Instr.wf =
    List.replicate 8 false := by decide +kernel
theorem smoke_good : [Instr.dataFlit 0 0 (List.replicate 640 0), .registerWrite 0 none 0x3FFFFFC 4 1, .bar2Access 0 none 0xFFFFFFFFE 2 none, .doeRequest 0 [1, 2, 3, 4], .trackRound (.link 0 0) 0x10000 0 0 0, .fwPush false 64,
    .portLinkUp 0 6 4, .regulatorFill 0 32, .i3cPrivateWrite [7], .heartbeat].map Instr.wf = List.replicate 10 true := by decide +kernel

end Sys2Proof.Tests
end

section
/-! Words of the scalar instructions: fields as parts of a word, signed values, shares of products and quotients, counts of bits (R8, R231 to R234). -/

namespace Sys2Proof

/-! ## Fields and sign extension -/

theorem fld_zero_lo {n : Nat} (w : BitVec n) (hi : Nat) : fld w hi 0 = w.toNat % 2 ^ (hi + 1) := by simp [fld, bitsN]
theorem ofNat_fld_zero_lo {n : Nat} (w : BitVec n) (hi : Nat) : BitVec.ofNat (hi + 1) (fld w hi 0) = w.setWidth (hi + 1) := by
  apply BitVec.eq_of_toNat_eq; simp [fld_zero_lo]
/-- The signed value of a number's low bits is that of the word they spell. -/
theorem sNat_eq_toInt (w v : Nat) : sNat w v = (BitVec.ofNat w v).toInt := by
  simp [sNat, BitVec.toInt_eq_toNat_cond]
theorem w64i_toInt {n : Nat} (a : BitVec n) : w64i a.toInt = a.signExtend 64 := rfl
theorem w64i_sNat_fld {n : Nat} (w : BitVec n) (hi : Nat) : w64i (sNat (hi + 1) (fld w hi 0)) = (w.setWidth (hi + 1)).signExtend 64 := by
  rw [sNat_eq_toInt, ofNat_fld_zero_lo, w64i_toInt]
theorem w64i_sNat_toNat {n : Nat} (k : Nat) (a : BitVec n) : w64i (sNat k a.toNat) = (a.setWidth k).signExtend 64 := by
  rw [sNat_eq_toInt, BitVec.ofNat_toNat, w64i_toInt]

/-! ## Products and quotients -/

/-- The upper half of a double word is the number divided by the radix of a word. -/
theorem ofInt_high (i : Int) : ((BitVec.ofInt 128 i) >>> 64).setWidth 64 = w64i (i / 2 ^ 64) := by
  apply BitVec.eq_of_toNat_eq
  simp only [w64i, BitVec.toNat_setWidth, BitVec.toNat_ushiftRight, BitVec.toNat_ofInt, Nat.shiftRight_eq_div_pow]
  omega
theorem mulHigh_signed (a b : W64) : ((a.signExtend 128 * b.signExtend 128) >>> 64).setWidth 64 = w64i (a.toInt * b.toInt / 2 ^ 64) := by
  rw [← ofInt_high, BitVec.ofInt_mul]; rfl
theorem mulHigh_unsigned (a b : W64) : ((a.setWidth 128 * b.setWidth 128) >>> 64).setWidth 64 = w64 (a.toNat * b.toNat / 2 ^ 64) := by
  have h : a.setWidth 128 * b.setWidth 128 = BitVec.ofInt 128 (a.toNat * b.toNat : Nat) := by
    rw [BitVec.ofInt_natCast]; apply BitVec.eq_of_toNat_eq; simp
  rw [h, ofInt_high, w64, ← BitVec.ofInt_natCast, Int.natCast_ediv]; rfl
theorem w64i_tdiv (a b : W64) : w64i (a.toInt.tdiv b.toInt) = a.sdiv b := by
  apply BitVec.eq_of_toInt_eq; rw [w64i, BitVec.toInt_ofInt, BitVec.toInt_sdiv]
theorem w64i_tmod (a b : W64) : w64i (a.toInt.tmod b.toInt) = a.srem b := by
  rw [← BitVec.toInt_srem, w64i, BitVec.ofInt_toInt]
theorem w64_div (a b : W64) : w64 (a.toNat / b.toNat) = a / b := by rw [← BitVec.toNat_udiv, w64, BitVec.ofNat_toNat, BitVec.setWidth_eq]
theorem w64_mod (a b : W64) : w64 (a.toNat % b.toNat) = a % b := by rw [← BitVec.toNat_umod, w64, BitVec.ofNat_toNat, BitVec.setWidth_eq]

/-! ## Counts of bits -/

/-- Of a number that its bits below `n` spell, the highest set bit is the integral part of its logarithm. -/
theorem highBit_eq {n v : Nat} (h : v < 2 ^ n) : highBit n v = if v = 0 then none else some v.log2 := by
  induction n with
  | zero => simp [highBit, upto, Nat.lt_one_iff.mp h]
  | succ n ih =>
    have e : highBit (n + 1) v = if v.testBit n then some n else highBit n v := by
      simp only [highBit, upto, List.range_succ, List.reverse_append, List.reverse_singleton, List.singleton_append, List.find?_cons]
      cases v.testBit n <;> rfl
    rw [e]
    by_cases hb : v.testBit n = true
    · have hv : 2 ^ n ≤ v := Nat.ge_two_pow_of_testBit hb
      have h0 : v ≠ 0 := by have := Nat.two_pow_pos n; omega
      rw [if_pos hb, if_neg h0, (Nat.log2_eq_iff h0).mpr ⟨hv, h⟩]
    · have hv : v < 2 ^ n := by
        by_contra hn
        exact hb (Nat.testBit_of_two_pow_le_and_two_pow_add_one_gt (by omega) h)
      rw [if_neg hb, ih hv]
/-- Below its lowest set bit a number has none. -/
theorem lowBit_spec (n v : Nat) : lowBit n v ≤ n ∧ v % 2 ^ lowBit n v = 0 ∧ (lowBit n v < n → v.testBit (lowBit n v) = true) := by
  have clear : ∀ r, (∀ j < r, v.testBit j = false) → v % 2 ^ r = 0 := fun r hr => by
    apply Nat.eq_of_testBit_eq
    intro j
    rw [Nat.testBit_mod_two_pow, Nat.zero_testBit]
    by_cases hj : j < r <;> simp [hj, hr]
  unfold lowBit upto
  cases hf : (List.range n).find? fun i => v.testBit i with
  | none =>
    rw [List.find?_range_eq_none] at hf
    exact ⟨le_refl n, clear n fun j hj => by simpa using hf j hj, fun h => absurd h (lt_irrefl n)⟩
  | some i =>
    obtain ⟨hi, hn, hj⟩ := List.find?_range_eq_some.mp hf
    exact ⟨(List.mem_range.mp hn).le, clear i fun j h => by simpa using hj j h, fun _ => hi⟩

end Sys2Proof
end

section
/-! Scalar instructions that take operands and leave results on the operand stack (R231 to R234). -/

namespace Sys2Proof.Machine

/-! ## The operand stack, its operands in the cache -/

/-- The bank with its top `n` operands replaced by others, top first. -/
def Bank.replaced (b : Bank) (n : Nat) (new : List W64) : Bank := { b with ops := new ++ b.ops.drop n, depth := b.depth - n + new.length }

@[simp] theorem Mod.core_updBank_self (m : Mod) (c : Nat) (f : Bank → Bank) : (m.updBank c f).core c = { m.core c with bank := f (m.core c).bank } :=
  Mod.core_updCore_self m c _
/-- A stack whose cache holds enough is not filled. -/
theorem Mod.fillTo_held {m : Mod} {c : Nat} {s : StackSel} {n : Nat} (h : n ≤ ((m.core c).bank.cache s).length) (fuel : Nat) : m.fillTo c s n fuel = .ok m := by
  cases fuel with
  | zero => rfl
  | succ fuel => rw [Mod.fillTo, if_pos h]
/-- A stack whose cache holds few enough is not spilled. -/
theorem Mod.spillTo_fits {m : Mod} {c : Nat} {s : StackSel} {n : Nat} (h : ((m.core c).bank.cache s).length ≤ n) (fuel : Nat) : m.spillTo c s n fuel = .ok m := by
  cases fuel with
  | zero => rfl
  | succ fuel => rw [Mod.spillTo, if_pos h]
@[simp] theorem Bank.cache_opStk (b : Bank) : b.cache opStk = b.ops := rfl
/-- Cached operands that are not poisoned are read as they are, and nothing changes. -/
theorem Mod.peek_held {m : Mod} {c : CoreId} {top : List W64} {room : Nat} (h : m.holdsOps c top room) : m.peek c.val top.length = .ok (top, m) := by
  obtain ⟨hp, -, -, hq⟩ := h
  have hp := List.isPrefixOf_iff_prefix.mp hp
  have ht : (m.core c).bank.ops.take top.length = top := (List.prefix_iff_eq_take.mp hp).symm
  simp only [Mod.peek, Mod.fillTo_held (s := opStk) hp.length_le, bind, Except.bind, hq, List.any_nil, Bool.false_eq_true, if_false, ht]
/-- Operands are replaced in the cache alone where it has room for the results. -/
theorem Mod.repl_held {m : Mod} {c : CoreId} {top new : List W64} {room : Nat} (h : m.holdsOps c top room) (hn : new.length ≤ top.length + room) :
    m.repl c.val top.length new = .ok (m.updBank c.val (·.replaced top.length new)) := by
  obtain ⟨hp, hl, -, hq⟩ := h
  have hp := (List.isPrefixOf_iff_prefix.mp hp).length_le
  have e : (m.updCore c.val fun k => { k with poison := k.poison.filter (· < k.bank.depth - top.length), bank := k.bank.replaced top.length new }) =
      m.updBank c.val (·.replaced top.length new) := by
    simp only [Mod.updBank, Mod.updCore, hq, List.filter_nil]
  have hb : (((m.updBank c.val (·.replaced top.length new)).core c).bank.cache opStk).length ≤ 16 := by
    rw [Mod.core_updBank_self]
    simp only [Bank.cache_opStk, Bank.replaced, List.length_append, List.length_drop]
    omega
  calc m.repl c.val top.length new = (m.updBank c.val (·.replaced top.length new)).spillTo c.val opStk 16 16 := by rw [← e]; rfl
    _ = _ := Mod.spillTo_fits hb 16
theorem Mod.holdsOps_congr {m t : Mod} {c : CoreId} {top : List W64} {room : Nat} (hb : (t.core c).bank = (m.core c).bank)
    (hp : (t.core c).poison = (m.core c).poison) (h : m.holdsOps c top room) : t.holdsOps c top room := by
  unfold Mod.holdsOps at *; rw [hb, hp]; exact h

/-! ## From a body to its command -/

theorem Mod.standsReady.loop_none {m : Mod} {c : CoreId} (h : m.standsReady c) : (m.core c.val).bank.loop = none := by
  obtain ⟨-, -, -, -, hloop, -, -⟩ := h
  exact hloop
/-- What is outside a unit's reach is as it was, so putting it back changes nothing. -/
theorem Mod.apart_within {m t : Mod} {c : CoreId} (h : m.apart t c) : { t with nv := m.nv, pwr := m.pwr } = t := by
  obtain ⟨-, -, -, -, -, hnv, hpwr, -⟩ := h
  rw [← hnv, ← hpwr]
/-- A body did to the active bank of core `c` what `g` says, and neither to the rest of the core nor to what lies apart from it anything. -/
def Mod.rebanked (m t : Mod) (c : CoreId) (g : Bank → Bank) : Prop := t.core c.val = { m.core c.val with bank := g (m.core c.val).bank } ∧ m.apart t c

theorem Mod.rebanked_id (m : Mod) (c : CoreId) : m.rebanked m c id := ⟨rfl, Mod.apart_refl m c⟩
theorem Mod.rebanked_updBank (m : Mod) (c : CoreId) (g : Bank → Bank) : m.rebanked (m.updBank c.val g) c g :=
  ⟨Mod.core_updBank_self m c g, Mod.apart_setCore m c _⟩
theorem Core.beginBody_bank {k : Core} (h : k.bank.load = none) : k.beginBody.bank = k.bank := by
  show { k.bank with load := none } = k.bank
  rw [← h]
theorem w64_toNat_add_four (p : W64) : w64 (p.toNat + 4) = p + 4 := by simp [w64, BitVec.ofNat_add]
/-- An instruction whose body changes the active bank of a core that stands ready, and goes on at the next word: it does just that. -/
theorem completes_issue_next {i : Instr} {s : State} {c : CoreId} {major func st : Nat} {body : Mod → Body} {g : Bank → Bank}
    (hi : exec i s = s.run fun m => m.issue c.val major func body) (hr : s.m.standsReady c) (hm : fitterMajor major = true)
    (hb : ∀ m : Mod, (m.core c).bank = (s.m.core c).bank → (m.core c).poison = (s.m.core c).poison →
      ∃ t, body m = .ok (t, .next, st) ∧ m.rebanked t c g)
    (hl : (g (s.m.core c).bank).loop = none) :
    completes i s fun t => s.m.went t c fun b => { g b with pc := (g b).pc + 4 } := by
  obtain ⟨hpow, hiss, hfet, hload, -, href, hups⟩ := hr
  obtain ⟨m1, hf⟩ : ∃ m1, s.m.fetch c.val = .ok m1 := by
    cases hx : s.m.fetch c.val with
    | ok m1 => exact ⟨m1, rfl⟩
    | error e => rw [hx] at hfet; cases hfet
  obtain ⟨hcopies, hapart, -⟩ := Mod.fetch_keeps hups hf
  have hcore : m1.core c.val = { s.m.core c.val with mem := (m1.core c.val).mem } := by rw [← hcopies]
  have hbank : (m1.core c.val).beginBody.bank = (s.m.core c.val).bank := by
    have h1 : (m1.core c.val).bank = (s.m.core c.val).bank := by rw [hcore]
    rw [Core.beginBody_bank (h1 ▸ hload), h1]
  have hbegun : (m1.updCore c.val Core.beginBody).core c.val = (m1.core c.val).beginBody := Mod.core_updCore_self m1 c _
  obtain ⟨t, ht, htc, hta⟩ := hb (m1.updCore c.val Core.beginBody) (by rw [hbegun, hbank]) (by rw [hbegun, hcore]; rfl)
  rw [hbegun, hbank] at htc
  have hk : { t.core c.val with mem := (s.m.core c.val).mem, vec := (s.m.core c.val).vec } = { s.m.core c.val with bank := g (s.m.core c.val).bank } := by
    rw [htc, hcore]; rfl
  have hv : (t.core c.val).vec.plain = (s.m.core c.val).vec.plain := by
    rw [htc]; exact (Core.plain_beginBody _).trans (by rw [hcore])
  have ha : s.m.apart t c := Mod.apart_trans hapart (Mod.apart_trans (Mod.apart_setCore m1 c _) hta)
  obtain ⟨hwb, hws, hwk, hwa⟩ := Mod.issue_next hiss hf hload href (fun _ => hm) ht hk hv ha hl
  refine completes_run hi hpow ?_
  rw [Mod.apart_within hwa]
  exact ⟨by simp only [hwb, w64_toNat_add_four], hws, hwk, hwa⟩
/-- An instruction that replaces operands that lie in the cache. -/
theorem completes_replaced {i : Instr} {s : State} {c : CoreId} {major func st room : Nat} {body : Mod → Body} {top new : List W64}
    (hi : exec i s = s.run fun m => m.issue c.val major func body) (hr : s.m.standsReady c) (hm : fitterMajor major = true) (ho : s.m.holdsOps c top room)
    (hb : ∀ m : Mod, m.holdsOps c top room → body m = .ok (m.updBank c.val (·.replaced top.length new), .next, st)) :
    completes i s fun t => s.m.went t c (·.took top.length new) :=
  completes_issue_next hi hr hm (fun m hbank hpoison => ⟨_, hb m (Mod.holdsOps_congr hbank hpoison ho), Mod.rebanked_updBank m c _⟩)
    hr.loop_none

/-! ## NOP, LIT, LITH, ADDI (R230 to R232) -/

@[simp] theorem legal_true (major func : Nat) : legal true major func = .ok () := rfl
/-- The value of LITH with P = 0: the immediate above the low 24 bits of the entry, sign-extended. -/
theorem lithVal_zero (f : BitVec 26) (x : W64) : lithVal 0 (fld f 23 0) x = (f.setWidth 24 ++ x.setWidth 24).signExtend 64 := by
  have h : ((f.setWidth 24 ++ x.setWidth 24).toInt) = sNat 24 (fld f 23 0) * 2 ^ 24 + (fld x 23 0 : Int) := by
    rw [BitVec.toInt_append, if_neg (by decide), sNat_eq_toInt, ofNat_fld_zero_lo, fld_zero_lo, Int.mul_comm]; rfl
  rw [lithVal, if_pos rfl, ← h, w64i_toInt]
/-- The value of LITH with P = 1: the immediate in the upper 16 bits of the entry. -/
theorem lithVal_one (f : BitVec 26) (x : W64) : lithVal 1 (fld f 23 0) x = f.setWidth 16 ++ x.setWidth 48 := by
  apply BitVec.eq_of_getLsbD_eq
  intro i hi
  rw [lithVal, if_neg (by decide), getLsbD_setFld _ _ _ _ _ hi, BitVec.getLsbD_append, testBit_fld, BitVec.getLsbD_setWidth, BitVec.getLsbD_setWidth]
  by_cases h : i < 48
  · rw [if_neg (by omega), if_pos h]; simp [h]
  · have h1 : i - 48 < 23 + 1 - 0 := by omega
    have h2 : i - 48 < 16 := by omega
    rw [if_pos (by omega), if_neg h]; simp [h1, h2]

theorem bodyNop_legal {m : Mod} {c : CoreId} {f : BitVec 26} (hf : fld f 25 6 = 0) : bodyNop c.val f m = .ok (m, .next, 1) := by
  simp only [bodyNop, hf, beq_self_eq_true, legal_true, bind, Except.bind]
theorem bodyLit_held {m : Mod} {c : CoreId} {f : BitVec 26} (hf : fld f 25 24 = 0) (h : m.holdsOps c [] 1) :
    bodyLit c.val f m = .ok (m.updBank c.val (·.replaced 0 [(f.setWidth 24).signExtend 64]), .next, 1) := by
  have hr : m.repl c.val 0 [(f.setWidth 24).signExtend 64] = _ := Mod.repl_held h (le_refl 1)
  simp only [bodyLit, hf, beq_self_eq_true, legal_true, Mod.push, w64i_sNat_fld, hr, bind, Except.bind, List.length_nil]
theorem bodyLith_held {m : Mod} {c : CoreId} {f : BitVec 26} {x : W64} (hf : fld f 25 24 = 0 ∨ fld f 25 24 = 1 ∧ fld f 23 16 = 0) (h : m.holdsOps c [x] 0) :
    bodyLith c.val f m = .ok (m.updBank c.val (·.replaced 1 [lithVal (fld f 25 24) (fld f 23 0) x]), .next, 1) := by
  have hl : (fld f 25 24 == 0 || (fld f 25 24 == 1 && fld f 23 16 == 0)) = true := by simpa using hf
  have hp : m.peek c.val 1 = .ok ([x], m) := Mod.peek_held h
  have hr : m.repl c.val 1 [lithVal (fld f 25 24) (fld f 23 0) x] = _ := Mod.repl_held h (le_refl 1)
  simp only [bodyLith, hl, legal_true, hp, List.headD_cons, hr, bind, Except.bind, List.length_singleton]
theorem bodyAddi_held {m : Mod} {c : CoreId} {f : BitVec 26} {x : W64} (h : m.holdsOps c [x] 0) :
    bodyAddi c.val f m = .ok (m.updBank c.val (·.replaced 1 [x + f.signExtend 64]), .next, 1) := by
  have hp : m.peek c.val 1 = .ok ([x], m) := Mod.peek_held h
  have hr : m.repl c.val 1 [x + f.signExtend 64] = _ := Mod.repl_held h (le_refl 1)
  simp only [bodyAddi, hp, List.headD_cons, w64i_sNat_toNat, BitVec.setWidth_eq, hr, bind, Except.bind, List.length_singleton]

/-- LITH puts its value, whichever P gives it, in the place of the top entry. -/
theorem completes_lith {s : State} {c : CoreId} {f : BitVec 26} {x : W64} (hr : s.m.standsReady c)
    (hf : fld f 25 24 = 0 ∨ fld f 25 24 = 1 ∧ fld f 23 16 = 0) (ho : s.m.holdsOps c [x] 0) :
    completes (.lith c f) s fun t => s.m.went t c (·.took 1 [lithVal (fld f 25 24) (fld f 23 0) x]) :=
  completes_replaced (top := [x]) rfl hr rfl ho fun _ hm => bodyLith_held hf hm
/-- Settles O1: each body replaces operands that lie in the cache, and the command adds fetch and retirement at the next word. -/
theorem literalsAndAddi : Obligations.LiteralsAndAddi := by
  intro s c f hr
  refine ⟨fun hf => ?nop, fun hf ho => ?lit, fun x ho hf => ?lithLow, fun x ho hf hz => ?lithHigh, fun x ho => ?addi⟩
  case nop =>
    exact completes_issue_next (g := id) rfl hr rfl (fun m _ _ => ⟨m, bodyNop_legal hf, Mod.rebanked_id m c⟩) hr.loop_none
  case lit => exact completes_replaced (top := []) rfl hr rfl ho fun m hm => bodyLit_held hf hm
  case lithLow =>
    have h := completes_lith hr (.inl hf) ho
    rwa [hf, lithVal_zero] at h
  case lithHigh =>
    have h := completes_lith hr (.inr ⟨hf, hz⟩) ho
    rwa [hf, lithVal_one] at h
  case addi => exact completes_replaced (top := [x]) rfl hr rfl ho fun m hm => bodyAddi_held hm

/-! ## ALU (R233, R234) -/

theorem flag64_decide (p : Prop) [Decidable p] : flag64 (decide p) = if p then 1 else 0 := by simp [flag64]
theorem flag64_not (b : Bool) : flag64 (!b) = if b then 0 else 1 := by cases b <;> rfl
theorem flag64_bne (a b : W64) : flag64 (a != b) = if a = b then 0 else 1 := (flag64_not (a == b)).trans (by simp)
theorem flag64_sle (a b : W64) : flag64 (a.sle b) = if b.slt a then 0 else 1 := by rw [BitVec.sle_eq_not_slt, flag64_not]
theorem flag64_ule (a b : W64) : flag64 (a.ule b) = if b.ult a then 0 else 1 := by rw [BitVec.ule_eq_not_ult, flag64_not]
/-- The lesser of two, whichever is asked to lie below the other. -/
theorem min_signed (a b : W64) : (if b.slt a then b else a) = if a.slt b then a else b := by
  simp only [BitVec.slt_iff_toInt_lt]
  rcases lt_trichotomy a.toInt b.toInt with h | h | h
  · rw [if_neg (lt_asymm h), if_pos h]
  · rw [BitVec.eq_of_toInt_eq h]
  · rw [if_pos h, if_neg (lt_asymm h)]
theorem min_unsigned (a b : W64) : (if b.ult a then b else a) = if a.ult b then a else b := by
  simp only [BitVec.ult_iff_lt, BitVec.lt_def]
  rcases lt_trichotomy a.toNat b.toNat with h | h | h
  · rw [if_neg (lt_asymm h), if_pos h]
  · rw [BitVec.eq_of_toNat_eq h]
  · rw [if_pos h, if_neg (lt_asymm h)]
/-- The functions of two operands have the results of R234, code by code. -/
theorem alu2_of_mem {fn : Nat} {g : W64 → W64 → W64} (h : (fn, g) ∈ aluOfTwo) (a b : W64) : alu2 fn a b = some (g a b) := by
  have table : ∀ p ∈ aluOfTwo, alu2 p.1 a b = some (p.2 a b) := by
    simp only [aluOfTwo, List.forall_mem_cons, List.not_mem_nil, false_implies, implies_true, and_true]
    exact ⟨rfl, rfl, rfl, congrArg some (mulHigh_signed a b).symm, congrArg some (mulHigh_unsigned a b).symm,
      congrArg (fun q => some (if b = 0 then _ else q)) (w64i_tdiv a b), congrArg (fun q => some (if b = 0 then _ else q)) (w64_div a b),
      congrArg (fun q => some (if b = 0 then _ else q)) (w64i_tmod a b), congrArg (fun q => some (if b = 0 then _ else q)) (w64_mod a b),
      rfl, rfl, rfl, rfl, rfl, rfl,
      congrArg some (flag64_decide (a = b)), congrArg some (flag64_bne a b), rfl, rfl, congrArg some (flag64_sle a b), congrArg some (flag64_ule a b),
      congrArg some (min_signed a b), rfl, congrArg some (min_unsigned a b), rfl⟩
  exact table _ h
theorem alu1_of_mem {fn : Nat} {g : Nat → W64 → W64} (h : (fn, g) ∈ aluOfOne) (sh : Nat) (a : W64) : alu1 fn sh a = some (g sh a) := by
  have table : ∀ p ∈ aluOfOne, alu1 p.1 sh a = some (p.2 sh a) := by
    simp only [aluOfOne, List.forall_mem_cons, List.not_mem_nil, false_implies, implies_true, and_true]
    exact ⟨rfl, rfl, rfl, congrArg some (w64i_sNat_toNat _ a), congrArg some (by rw [← BitVec.toNat_setWidth, w64, BitVec.ofNat_toNat])⟩
  exact table _ h
theorem aluArity_of_two {fn : Nat} {g : W64 → W64 → W64} (h : (fn, g) ∈ aluOfTwo) : aluArity fn = some 2 := by
  have table : ∀ k ∈ aluOfTwo.map Prod.fst, aluArity k = some 2 := by decide
  exact table _ (List.mem_map_of_mem (f := Prod.fst) h)
theorem aluArity_of_one {fn : Nat} {g : Nat → W64 → W64} (h : (fn, g) ∈ aluOfOne) : aluArity fn = some 1 ∧ aluUsesSh fn = true := by
  have table : ∀ k ∈ aluOfOne.map Prod.fst, aluArity k = some 1 ∧ aluUsesSh k = true := by decide
  exact table _ (List.mem_map_of_mem (f := Prod.fst) h)
/-- ALU replaces its operands by its result, where they lie in the cache. -/
theorem completes_alu {s : State} {c : CoreId} {f : BitVec 26} {top : List W64} (hr : s.m.standsReady c) (hf : fld f 25 12 = 0)
    (hn : aluArity (fld f 5 0) = some top.length) (hs : aluUsesSh (fld f 5 0) = true ∨ fld f 11 6 = 0) (h0 : top ≠ []) (ho : s.m.holdsOps c top 0) :
    completes (.alu c f) s fun t => s.m.went t c (·.took top.length [aluVal (fld f 5 0) (fld f 11 6) top]) := by
  refine completes_replaced (st := aluSt (fld f 5 0)) rfl hr rfl ho fun m hm => ?_
  have hl : (fld f 25 12 == 0 && (some top.length).isSome && (aluUsesSh (fld f 5 0) || fld f 11 6 == 0)) = true := by simpa [hf] using hs
  have hr1 := Mod.repl_held (new := [aluVal (fld f 5 0) (fld f 11 6) top]) hm (List.length_pos_iff.mpr h0)
  simp only [bodyAlu, hn, hl, legal_true, Option.getD_some, Mod.peek_held hm, hr1, bind, Except.bind]
theorem aluVal_one {fn sh : Nat} {x r : W64} (ha : aluArity fn = some 1) (h : alu1 fn sh x = some r) : aluVal fn sh [x] = r := by
  simp [aluVal, ha, h]
theorem aluVal_two {fn sh : Nat} {x y r : W64} (ha : aluArity fn = some 2) (h : alu2 fn x y = some r) : aluVal fn sh [y, x] = r := by
  simp [aluVal, ha, h]
/-- The leading zeros of a word (R234). -/
def clz64 (x : W64) : Nat := if x = 0 then 64 else 63 - x.toNat.log2

theorem alu1_clz (sh : Nat) (x : W64) : alu1 0x20 sh x = some (w64 (clz64 x)) := by
  have h : alu1 0x20 sh x = some (match highBit 64 x.toNat with | some i => w64 (63 - i) | none => 64) := rfl
  rw [h, highBit_eq x.isLt]
  by_cases hx : x = 0
  · rw [hx]; rfl
  · have hn : x.toNat ≠ 0 := fun h => hx (BitVec.eq_of_toNat_eq h)
    rw [if_neg hn, clz64, if_neg hx]
theorem clz64_spec (x : W64) : clz64 x ≤ 64 ∧ x.toNat < 2 ^ (64 - clz64 x) ∧ (clz64 x < 64 → 2 ^ (63 - clz64 x) ≤ x.toNat) := by
  by_cases hx : x = 0
  · simp [clz64, hx]
  · have hn : x.toNat ≠ 0 := fun h => hx (BitVec.eq_of_toNat_eq h)
    have hl : x.toNat.log2 < 64 := (Nat.log2_lt hn).mpr x.isLt
    rw [clz64, if_neg hx]
    have e1 : 64 - (63 - x.toNat.log2) = x.toNat.log2 + 1 := by omega
    have e2 : 63 - (63 - x.toNat.log2) = x.toNat.log2 := by omega
    rw [e1, e2]
    exact ⟨by omega, Nat.lt_log2_self, fun _ => Nat.log2_self_le hn⟩
/-- Settles O2: the body replaces its operands by `aluVal`, which is the function's result as R234 gives it. -/
theorem aluResults : Obligations.AluResults := by
  intro s c f x y z hr hf fn sh does
  have one : ∀ {r : W64}, aluArity fn = some 1 → (aluUsesSh fn = true ∨ sh = 0) → alu1 fn sh x = some r → s.m.holdsOps c [x] 0 → does 1 r := by
    intro r ha hs hv ho
    have h := completes_alu (top := [x]) hr hf ha hs (List.cons_ne_nil _ _) ho
    rwa [aluVal_one ha hv] at h
  refine ⟨fun g hg hs ho => ?ofTwo, fun g hg ho => ?ofOne, fun hfn hs ho => ?not, fun hfn hs ho => ?neg, fun hfn hs ho => ?clz, fun hfn hs ho => ?ctz, fun hfn hs ho => ?pop,
    fun hfn hs ho => ?sel⟩
  case ofTwo =>
    have ha := aluArity_of_two hg
    have h := completes_alu (top := [y, x]) hr hf ha (.inr hs) (List.cons_ne_nil _ _) ho
    rwa [aluVal_two ha (alu2_of_mem hg x y)] at h
  case ofOne =>
    obtain ⟨ha, hs⟩ := aluArity_of_one hg
    exact one ha (.inl hs) (alu1_of_mem hg sh x) ho
  case not => exact one (by rw [hfn]; rfl) (.inr hs) (by rw [hfn]; rfl) ho
  case neg => exact one (by rw [hfn]; rfl) (.inr hs) (by rw [hfn]; rfl) ho
  case clz =>
    obtain ⟨hle, hlt, hge⟩ := clz64_spec x
    exact ⟨clz64 x, hle, hlt, hge, one (by rw [hfn]; rfl) (.inr hs) (by rw [hfn]; exact alu1_clz sh x) ho⟩
  case ctz =>
    obtain ⟨hle, hz, hb⟩ := lowBit_spec 64 x.toNat
    exact ⟨lowBit 64 x.toNat, hle, hz, hb, one (by rw [hfn]; rfl) (.inr hs) (by rw [hfn]; rfl) ho⟩
  case pop => exact one (by rw [hfn]; rfl) (.inr hs) (by rw [hfn]; rfl) ho
  case sel =>
    have ha : aluArity fn = some 3 := by rw [hfn]; rfl
    have h := completes_alu (top := [z, y, x]) hr hf ha (.inr hs) (List.cons_ne_nil _ _) ho
    have hv : aluVal fn sh [z, y, x] = if z = 0 then y else x := by rw [aluVal, ha]; rfl
    rwa [hv] at h

end Sys2Proof.Machine
end

section
/-! A host's access to BAR0 (R11, R516 to R518, R627, R630): what a read answers and which writes have no effect. -/

namespace Sys2Proof

/-! ## Fields that read zero -/

theorem fld_eq_zero_iff {n : Nat} (w : BitVec n) (hi lo : Nat) : fld w hi lo = 0 ↔ ∀ i, lo ≤ i → i ≤ hi → w.getLsbD i = false := by
  constructor
  · intro hz i hlo hhi
    have hbit := testBit_fld w hi lo (i - lo)
    rw [hz, Nat.zero_testBit, Nat.add_sub_cancel' hlo, decide_eq_true (by omega), Bool.true_and] at hbit
    exact hbit.symm
  · intro hz
    apply Nat.eq_of_testBit_eq
    intro i
    rw [testBit_fld, Nat.zero_testBit]
    by_cases hw : i < hi + 1 - lo
    · rw [hz (lo + i) (by omega) (by omega), Bool.and_false]
    · rw [decide_eq_false hw, Bool.false_and]
/-- Clearing a field only clears bits, those of the field among them. -/
theorem getLsbD_setFld_zero {n : Nat} (w : BitVec n) (hi lo i : Nat) :
    (setFld w hi lo 0).getLsbD i = (w.getLsbD i && !decide (lo ≤ i ∧ i ≤ hi)) := by
  by_cases hn : i < n
  · rw [getLsbD_setFld _ _ _ _ _ hn, Nat.zero_testBit]
    split <;> simp [*]
  · simp only [BitVec.getLsbD_of_ge _ _ (Nat.le_of_not_lt hn), Bool.false_and]
/-- A field that has been cleared reads zero, also where it reaches beyond the word. -/
theorem fld_setFld_zero {n : Nat} (w : BitVec n) (hi lo : Nat) : fld (setFld w hi lo 0) hi lo = 0 :=
  (fld_eq_zero_iff _ hi lo).mpr fun i hlo hhi => by simp [getLsbD_setFld_zero, hlo, hhi]
/-- Clearing any field keeps a field that reads zero. -/
theorem fld_setFld_zero_of_zero {n : Nat} {w : BitVec n} {hi lo : Nat} (hz : fld w hi lo = 0) (hi' lo' : Nat) : fld (setFld w hi' lo' 0) hi lo = 0 :=
  (fld_eq_zero_iff _ hi lo).mpr fun i hlo hhi => by rw [getLsbD_setFld_zero, (fld_eq_zero_iff w hi lo).mp hz i hlo hhi, Bool.false_and]
/-- A word with bit 63 alone has nothing below it. -/
theorem fld_w64_top (b : Bool) {hi lo : Nat} (h : hi < 63) : fld (w64 (b2n b * 2 ^ 63)) hi lo = 0 :=
  (fld_eq_zero_iff _ hi lo).mpr fun i _ hhi => by
    have htop : ¬ 63 ≤ i := by omega
    rw [w64, BitVec.getLsbD_ofNat, Nat.testBit_mul_two_pow, decide_eq_false htop, Bool.false_and, Bool.and_false]
theorem toLe_zero (n : Nat) : toLe n 0 = List.replicate n 0#8 := by
  induction n with
  | zero => rfl
  | succ n ih => rw [toLe, Nat.zero_div, ih]; rfl

end Sys2Proof

namespace Sys2Proof.Machine

/-! ## The place of a register in its row -/

/-- A row's address is that of its numbers. -/
theorem RegRow.eq_place_of_ix? {r : RegRow} {a i j : Nat} (h : r.ix? a = some (i, j)) :
    a = r.base + r.s1 * i + r.s2 * j ∧ i < r.n1 ∧ j < r.n2 := by
  unfold RegRow.ix? at h
  split at h
  · cases h
  · rename_i hbase
    simp only [Option.ite_none_right_eq_some, Option.some.injEq, Prod.mk.injEq] at h
    obtain ⟨⟨hi, hj, hf⟩, rfl, rfl⟩ := h
    refine ⟨?_, hi, hj⟩
    have outer : a - r.base = r.s1 * (if r.s1 = 0 then 0 else (a - r.base) / r.s1) + (if r.s1 = 0 then a - r.base else (a - r.base) % r.s1) := by
      split
      · omega
      · exact (Nat.div_add_mod _ _).symm
    generalize (if r.s1 = 0 then a - r.base else (a - r.base) % r.s1) = e at *
    have inner : e = r.s2 * (if r.s2 = 0 then 0 else e / r.s2) := by
      by_cases h2 : r.s2 = 0
      · simpa [h2] using hf
      · rw [if_neg h2] at hf ⊢
        exact (Nat.mul_div_cancel' (Nat.dvd_of_mod_eq_zero hf)).symm
    omega
/-- The row of an address is one of its block, and the address a place of the row. -/
theorem barRow_place {a : Nat} {r : RegRow} (h : barRow a = some r) :
    r ∈ blockRows a ∧ ∃ i j, a = r.base + r.s1 * i + r.s2 * j ∧ i < r.n1 ∧ j < r.n2 := by
  obtain ⟨⟨i, j⟩, hix⟩ := Option.isSome_iff_exists.mp (List.find?_some (p := fun r : RegRow => (r.ix? a).isSome) h)
  exact ⟨List.mem_of_find?_eq_some h, i, j, RegRow.eq_place_of_ix? hix⟩

/-! ## Write-only fields (R11) -/

/-- Base, number and distance of the rows that hold write-only fields: MBX_DB, PRT_CRESET, PAT_NFIRE, XLT_INV, FLQ_REPLY, SEM_SxREL and CMQ_gPOST. -/
def writeOnlyRows : List (Nat × Nat × Nat) :=
  [(0, 2, 0x4000000), (0x100010, 16, 0x10000), (0x101060, 16, 0x10000), (0x102008, 16, 0x10000), (0x102098, 16, 0x10000), (0x210038, 4096, 0x80),
   (0x350000, 4096, 0x40)]
/-- No row has write-only fields but those, and those of XLT_INV lie below its bit 63. -/
theorem writeOnly_row {a : Nat} {r : RegRow} {f : FieldD} (hr : r ∈ blockRows a) (hf : f ∈ r.fields) (hw : f.acc = .wo) :
    r.n2 = 1 ∧ (r.base, r.n1, r.s1) ∈ writeOnlyRows ∧ (r.base = 0x102008 → f.hi < 63) := by
  have blocks : ∀ rows ∈ [mbxRows, pwrRows, calRows, memRows, splRows, lnkRows, prtRows, patRows, xltRows, semRows, grpRows, monRows],
      ∀ r ∈ rows, ∀ f ∈ r.fields, f.acc = .wo → r.n2 = 1 ∧ (r.base, r.n1, r.s1) ∈ writeOnlyRows ∧ (r.base = 0x102008 → f.hi < 63) := by
    decide
  refine blocks (blockRows a) ?_ r hr f hf hw
  simp only [blockRows]
  split_ifs <;> simp only [List.mem_cons, true_or, or_true]
/-- What a read hides of a stored word includes its write-only fields. -/
theorem RegRow.fld_hidden {r : RegRow} {f : FieldD} (hf : f ∈ r.fields) (hw : f.acc = .wo) (arm : Bool) (w : W64) : fld (r.hidden arm w) f.hi f.lo = 0 := by
  obtain ⟨before, after, hs⟩ := List.append_of_mem hf
  rw [RegRow.hidden, hs, List.foldl_append, List.foldl_cons, if_pos (.inl hw)]
  refine List.foldlRecOn after _ (motive := fun w => fld w f.hi f.lo = 0) (fld_setFld_zero _ _ _) fun w hz g _ => ?_
  split
  · exact fld_setFld_zero_of_zero hz _ _
  · exact hz
/-- Where the blocks of BAR0 that reads treat apart begin and end (R516). -/
theorem blockBases : bPWR = 0x20000 ∧ bCAL = 0x30000 ∧ bSPLMAP = 0x80000 ∧ bPort 0 = 0xC1000 ∧ bPort 6 = 0xC7000 ∧ bPRT 0 = 0x100000 ∧ bPRT 16 = 0x200000 ∧
    bSx 0 = 0x210000 ∧ bSx 4096 = 0x290000 := by decide
theorem mod_portStride {a : Nat} (h : a < 0x4000000) : a % portStride = a := Nat.mod_eq_of_lt h
/-- Where a read answers the stored word with what its row hides: among other places, those of the write-only registers but XLT_INV. -/
def readsStored (x : Nat) : Prop :=
  x < 0x1000 ∨ (0x100000 ≤ x ∧ x < 0x200000 ∧ (x % 0x10000 = 0x10 ∨ x % 0x10000 = 0x1060 ∨ x % 0x10000 = 0x2098)) ∨
    (0x210000 ≤ x ∧ x < 0x290000 ∧ x % 0x80 = 0x38) ∨ 0x300000 ≤ x
theorem Mod.pageView_stored {m : Mod} {p o : Nat} (w : W64) (h : o = 0x10 ∨ o = 0x1060 ∨ o = 0x2098) : m.pageView p o w = w := by
  rcases h with rfl | rfl | rfl <;> rfl
theorem Mod.barView_stored {m : Mod} {c : Nat} {r : RegRow} (hr : barRow c = some r) (h : readsStored (c % portStride)) :
    ∃ arm, m.barView c = r.hidden arm (m.rd c) := by
  unfold readsStored at h
  obtain ⟨hPWR, hCAL, hMAP, hPort0, hPort6, hPRT0, hPRT16, hSx0, hSx⟩ := blockBases
  rw [Mod.barView, hr]
  dsimp only
  generalize c % portStride = x at h ⊢
  rw [if_neg (by omega), if_neg (by omega), if_neg (by omega), if_neg (by omega), if_neg (by omega), if_neg (by omega), if_neg (by omega)]
  split
  · rw [Mod.pageView_stored _ (by omega)]; exact ⟨_, rfl⟩
  · rw [if_neg (by omega)]; exact ⟨_, rfl⟩
/-- A read of XLT_INV answers BUSY alone. -/
theorem Mod.barView_xltInv {m : Mod} {p : Nat} {r : RegRow} (hp : p < 16) (hr : barRow (bXLT p + 8) = some r) :
    m.barView (bXLT p + 8) = w64 (b2n (m.shootBusy p none) * 2 ^ 63) := by
  obtain ⟨hPWR, hCAL, hMAP, hPort0, hPort6, hPRT0, hPRT16, -, -⟩ := blockBases
  have hx : (bXLT p + 8) % portStride = 0x102008 + 0x10000 * p := by rw [mod_portStride] <;> simp only [bXLT, bPRT] <;> omega
  have ho : (0x102008 + 0x10000 * p) % 0x10000 = 0x2008 := by omega
  have hq : (0x102008 + 0x10000 * p - bPRT 0) / 0x10000 = p := by omega
  rw [Mod.barView, hr]
  dsimp only
  rw [hx, if_neg (by omega), if_neg (by omega), if_neg (by omega), if_neg (by omega), if_neg (by omega), if_neg (by omega), if_neg (by omega),
    if_pos (by omega), ho, hq]
  rfl
/-- A read of a register shows none of its write-only fields. -/
theorem Mod.fld_barView_writeOnly {m : Mod} {c : Nat} {r : RegRow} {f : FieldD} (hr : barRow c = some r) (hf : f ∈ r.fields) (hw : f.acc = .wo) :
    fld (m.barView c) f.hi f.lo = 0 := by
  obtain ⟨hmem, i, j, hc, hi, hj⟩ := barRow_place hr
  obtain ⟨h1, hrow, htop⟩ := writeOnly_row hmem hf hw
  obtain rfl : j = 0 := by omega
  rw [Nat.mul_zero, Nat.add_zero] at hc
  simp only [writeOnlyRows, List.mem_cons, Prod.mk.injEq, List.not_mem_nil, or_false] at hrow
  by_cases hinv : r.base = 0x102008
  · have hn : r.n1 = 16 ∧ r.s1 = 0x10000 := by omega
    obtain rfl : c = bXLT i + 8 := by rw [hc, hinv, hn.2, bXLT, bPRT]; omega
    rw [Mod.barView_xltInv (hn.1 ▸ hi) hr, fld_w64_top _ (htop hinv)]
  · have hplace : readsStored (c % portStride) := by
      unfold readsStored portStride
      rcases hrow with ⟨hb, hn, hs⟩ | ⟨hb, hn, hs⟩ | ⟨hb, hn, hs⟩ | ⟨hb, hn, hs⟩ | ⟨hb, hn, hs⟩ | ⟨hb, hn, hs⟩ | ⟨hb, hn, hs⟩ <;>
        rw [hb, hs] at hc <;> omega
    obtain ⟨arm, hv⟩ := Mod.barView_stored (m := m) hr hplace
    rw [hv, RegRow.fld_hidden hf hw]

/-! ## Writes to the page of a partition that the host does not own (R517) -/

/-- What lies in a partition's page is that partition's. -/
theorem scopeOf_page {p a : Nat} (hp : p < 16) (ha : a / 0x10000 = 0x10 + p) : scopeOf a = .part p := by
  have hq : (a - 0x100000) / 0x10000 = p := by omega
  simp only [scopeOf, mod_portStride (show a < 0x4000000 by omega)]
  rw [if_neg (by omega), if_neg (by omega), if_neg (by omega), if_pos (by omega), hq]
section
variable {m : Mod} {h : HostId} {p : Nat} (hp : p < 16) (howns : m.owns h.val p = false)
include hp howns

theorem Mod.regWrite_foreignPage {a : Nat} (v : W64) (ha : a / 0x10000 = 0x10 + p) : m.regWrite h a v = m := by
  have hs := scopeOf_page hp ha
  have hj : judgedLater a = false := by rw [judgedLater, hs]
  have hm : m.mayWrite h.val a v = false := by rw [Mod.mayWrite, hs]; exact howns
  rw [Mod.regWrite, hj, hm]
  split <;> rfl
theorem Mod.word4_foreignPage {a : Nat} (v : W64) (ha : a / 0x10000 = 0x10 + p) : m.word4 h a v = m := by
  unfold Mod.word4
  split
  · split_ifs
    · exact regWrite_foreignPage hp howns _ ha
    · rfl
    · exact regWrite_foreignPage hp howns _ ha
  · split
    · split
      · split_ifs
        · rfl
        · exact regWrite_foreignPage hp howns _ (by omega)
      · rfl
    · rfl
theorem Mod.word8_foreignPage {a : Nat} (v : W64) (ha : a / 0x10000 = 0x10 + p) (h8 : a % 8 = 0) : m.word8 h a v = m := by
  have high (v : W64) : m.word4 h (a + 4) v = m := word4_foreignPage hp howns v (by omega)
  unfold Mod.word8
  split
  · split_ifs
    · rw [word4_foreignPage hp howns v ha, high]
    · exact regWrite_foreignPage hp howns v ha
  · exact high _
end
/-- What the ports share lies at its offset for each. -/
theorem Mod.barAddr_shared {m : Mod} {h off : Nat} (h1 : 0x40000 ≤ off) (h2 : off < 0x4000000) : m.barAddr h none off = some off := by
  have hps : portStride = 0x4000000 := rfl
  rw [Mod.barAddr, if_neg (by omega), if_pos (by omega)]
/-- An aligned access of 4 or 8 bytes. -/
def wellFormed (off size : Nat) : Prop := (size = 4 ∨ size = 8) ∧ off % size = 0
/-- The port serves a well-formed access while its link is up. -/
theorem not_refused {linked : Bool} {off size : Nat} (hl : linked = true) (hs : wellFormed off size) :
    ¬ (!linked ∨ !(size = 4 ∨ size = 8) ∨ off % size ≠ 0) := by
  obtain ⟨hsize, halign⟩ := hs
  simp [hl, hsize, halign]
theorem refused_of_malformed {linked : Bool} {off size : Nat} (hs : ¬ wellFormed off size) :
    !linked ∨ !(size = 4 ∨ size = 8) ∨ off % size ≠ 0 := by
  rw [wellFormed, not_and_or] at hs
  exact .inr (hs.imp_left fun h => by simpa using h)
theorem Mod.barWrite_malformed {m : Mod} {h : HostId} {vf : Option (Fin 8)} {off size : Nat} (v : W64) (hs : ¬ wellFormed off size) :
    m.barWrite h vf off size v = m :=
  if_pos (refused_of_malformed hs)
theorem Mod.barWrite_foreignPage {m : Mod} {h : HostId} {p off size : Nat} (hp : p < 16) (howns : m.owns h.val p = false) (v : W64)
    (ha : off / 0x10000 = 0x10 + p) : m.barWrite h none off size v = m := by
  have hx : off % portStride = off := mod_portStride (by omega)
  have hq : (off - 0x100000) / 0x10000 = p := by omega
  unfold Mod.barWrite
  split
  · rfl
  · rename_i hserved
    simp only [not_or, not_not] at hserved
    obtain ⟨-, hsize, halign⟩ := hserved
    simp only [Mod.barAddr_shared (m := m) (h := h.val) (off := off) (by omega) (by omega), hx, hq, howns]
    rw [if_neg (by omega)]
    split_ifs with hxint hfalse h8
    · cases hfalse.1
    · rfl
    · exact word8_foreignPage hp howns v ha (h8 ▸ halign)
    · exact word4_foreignPage hp howns v ha

/-! ## Reads (R517, R630) -/

/-- The bytes of a served access to a word that is zero. -/
theorem zero_bytes {off size : Nat} (hs : wellFormed off size) :
    ((toLe 8 (0 : W64).toNat).drop (off % 8)).take size = List.replicate size 0#8 := by
  have hfit : size ≤ 8 - off % 8 := by rcases hs with ⟨rfl | rfl, h0⟩ <;> omega
  show ((toLe 8 0).drop (off % 8)).take size = List.replicate size 0#8
  rw [toLe_zero, List.drop_replicate, List.take_replicate, Nat.min_eq_left hfit]
/-- An offset and its 8-byte word lie in the same port's registers, or both in those that the ports share. -/
theorem Mod.barAddr_word (m : Mod) (h : Nat) {off : Nat} (hoff : off < 0x4000000) :
    ∃ b, b % 0x4000000 = 0 ∧ m.barAddr h none off = some (b + off) ∧ m.barAddr h none (off - off % 8) = some (b + (off - off % 8)) := by
  have hps : portStride = 0x4000000 := rfl
  simp only [Mod.barAddr]
  by_cases hown : off < 0x10000 ∨ (0x30100 ≤ off ∧ off < 0x30140)
  · exact ⟨portStride * h, by rw [hps, Nat.mul_mod_right], if_pos hown, if_pos (by omega)⟩
  · refine ⟨0, rfl, ?_, ?_⟩
    · rw [if_neg hown, if_pos (by omega), Nat.zero_add]
    · rw [if_neg (by omega), if_pos (by omega), Nat.zero_add]
theorem Mod.barRead_malformed {m : Mod} {h : HostId} {vf : Option (Fin 8)} {off size : Nat} (hs : ¬ wellFormed off size) :
    m.barRead h vf off size = none :=
  if_pos (refused_of_malformed hs)
section
variable {m : Mod} {h : HostId} {off size : Nat} (hl : (m.host h.val).linked = true) (hs : wellFormed off size)
include hl hs

theorem Mod.barRead_foreignPage {p : Nat} (hp : p < 16) (howns : m.owns h.val p = false) (ha : off / 0x10000 = 0x10 + p) :
    m.barRead h none off size = some (List.replicate size 0#8) := by
  obtain ⟨-, -, -, -, -, hPRT0, hPRT16, -, -⟩ := blockBases
  have hx : off % portStride = off := mod_portStride (by omega)
  have hq : (off - bPRT 0) / 0x10000 = p := by omega
  rw [Mod.barRead, if_neg (not_refused hl hs), Mod.barAddr_shared (by omega) (by omega)]
  dsimp only
  rw [hx, if_neg (by omega), if_neg (by omega), if_pos (by omega), hq, howns]
  rfl
theorem Mod.barRead_foreignEntry {n : Nat} (hn : n < 4096) (howns : m.owns h.val (m.sxPart n) = false) (ha : (off - bSx 0) / 0x80 = n) (h0 : bSx 0 ≤ off) :
    m.barRead h none off size = some (List.replicate size 0#8) := by
  obtain ⟨-, -, -, -, -, hPRT0, hPRT16, hSx0, hSx⟩ := blockBases
  have hx : off % portStride = off := mod_portStride (by omega)
  rw [Mod.barRead, if_neg (not_refused hl hs), Mod.barAddr_shared (by omega) (by omega)]
  dsimp only
  rw [hx, if_neg (by omega), if_neg (by omega), if_neg (by omega), ha, howns, if_pos ⟨h0, by omega, rfl⟩]
/-- Offsets outside the mailbox buffers and COR_EXC whose word holds no register are reserved. -/
theorem Mod.barRead_reserved (hoff : off < 0x4000000)
    (hrow : ∀ x, m.barAddr h.val none (off - off % 8) = some x → barRow x = none ∧ barRow (x + 4) = none) (hbuf : ¬ (0x1000 ≤ off ∧ off < 0x3000))
    (hexc : ¬ (bPRT 0 ≤ off ∧ off < bPRT 16 ∧ 0x4800 ≤ off % 0x10000 ∧ off % 0x10000 < 0x5000)) :
    m.barRead h none off size = some (List.replicate size 0#8) := by
  obtain ⟨-, -, -, -, -, hPRT0, hPRT16, -, -⟩ := blockBases
  obtain ⟨b, hb, haddr, hword⟩ := m.barAddr_word h.val hoff
  obtain ⟨hlow, hhigh⟩ := hrow _ hword
  have hx : (b + off) % portStride = off := by rw [portStride]; omega
  have hw : b + off - (b + off) % 8 = b + (off - off % 8) := by omega
  rw [Mod.barRead, if_neg (not_refused hl hs), haddr]
  dsimp only
  rw [hx, hw, hlow, hhigh, if_neg (by omega), if_neg (by omega)]
  split
  · rename_i hpage
    obtain rfl : b = 0 := by
      have hshared := Mod.barAddr_shared (m := m) (h := h.val) (off := off) (by omega) (by omega)
      rw [haddr, Option.some.injEq] at hshared
      omega
    rw [Nat.zero_add] at hlow hhigh
    split
    · rfl
    · rw [if_neg (by omega), hlow, hhigh]
      exact congrArg some (zero_bytes hs)
  · split
    · rfl
    · exact congrArg some (zero_bytes hs)
end

/-! ## What reads of BAR0 answer -/

/-- A write that the port drops leaves the module as it is. -/
theorem completes_dropped {s : State} {h : HostId} {vf : Option (Fin 8)} {off : BitVec 26} {size : Fin 9} {v : W64}
    (hd : s.m.barWrite h vf off.toNat size.val v = s.m) : completes (.registerWrite h vf off size v) s fun t => t = s.m :=
  completes_host rfl (by rw [hd])
/-- Settles O60: each access comes to its branch of the model's read or write, and a write-only field lies where a read answers the stored word without it. -/
theorem hostReads : Obligations.HostReads := by
  intro s h off size v hl a aligned zeros kept
  refine ⟨fun hs => ?malformed, fun hs hrow hbuf hexc => ?reserved, fun hs p o hp ho ha howns => ?page, fun hs n o hn ho ha howns => ?entry,
    fun c r f hr hf hw => ?writeOnly⟩
  case malformed => exact ⟨Mod.barRead_malformed hs, completes_dropped (Mod.barWrite_malformed v hs)⟩
  case reserved => exact Mod.barRead_reserved hl hs off.isLt hrow hbuf hexc
  case page =>
    have hpage : a / 0x10000 = 0x10 + p := by rw [ha, bPRT]; omega
    exact ⟨Mod.barRead_foreignPage hl hs hp howns hpage, completes_dropped (Mod.barWrite_foreignPage hp howns v hpage)⟩
  case entry =>
    have hlow : bSx 0 ≤ a := by simp only [ha, bSx]; omega
    have hentry : (a - bSx 0) / 0x80 = n := by simp only [ha, bSx]; omega
    exact Mod.barRead_foreignEntry hl hs hn howns hentry hlow
  case writeOnly => exact Mod.fld_barView_writeOnly hr hf hw

end Sys2Proof.Machine
end

section
/-! The queue and the module right after reset (R12, R522, R602, R612). -/

namespace Sys2Proof.Machine

/-- Settles O56: a step is defined by the command in front. -/
theorem queueOrder : Obligations.QueueOrder := fun _ _ _ => ⟨rfl, rfl⟩

/-- A field that is 0 at reset in every row of a block is 0 at reset at each of the block's addresses. -/
theorem fld_resetAt_zero {rows : List RegRow} {hi lo : Nat} (h : ∀ r ∈ rows, fld r.reset hi lo = 0) (a : Nat) : fld (resetAt rows a) hi lo = 0 := by
  unfold resetAt
  cases hr : findRow rows a with
  | none => simp [fld, bitsN]
  | some r => exact h r (List.mem_of_find?_eq_some hr)
theorem State.reset_rd (a : Nat) : State.reset.m.rd a = resetAt (blockRows a) a := rfl
theorem blockRows_seam {a : Nat} (hlow : 0x200000 ≤ a) (hhigh : a < 0x300000) : blockRows a = semRows := by
  simp only [blockRows, Nat.mod_eq_of_lt (show a < 0x4000000 by omega)]
  repeat rw [if_neg (by omega)]
  rw [if_pos hhigh]
theorem blockRows_groups {a : Nat} (hlow : 0x300000 ≤ a) (hhigh : a < 0x400000) : blockRows a = grpRows := by
  simp only [blockRows, Nat.mod_eq_of_lt (show a < 0x4000000 by omega)]
  repeat rw [if_neg (by omega)]
  rw [if_pos hhigh]
/-- Every entry of the seam is IDLE. -/
theorem State.reset_sxRaw (n : StreamId) : State.reset.m.sxRaw n.val = 0 := by
  have hn := n.isLt
  rw [Mod.sxRaw, Mod.sxf, Mod.rdf, State.reset_rd, blockRows_seam (by simp only [bSx, bSEM]; omega) (by simp only [bSx, bSEM]; omega)]
  exact fld_resetAt_zero (by decide +kernel) _
/-- No group is valid. -/
theorem State.reset_grpValid (g : GroupId) : State.reset.m.grpValid g.val = false := by
  have hg := g.isLt
  rw [Mod.grpValid, Mod.rdf, State.reset_rd, blockRows_groups (by simp only [bG, bGRP]; omega) (by simp only [bG, bGRP]; omega),
    fld_resetAt_zero (by decide +kernel)]
  rfl
/-- Settles O57: the state right after reset lists nothing, and each register reads its row's reset value. -/
theorem resetState : Obligations.ResetState := by
  refine ⟨rfl, ?sound, rfl, rfl, rfl, rfl, rfl, fun _ => rfl, ?cores, ?links, State.reset_sxRaw, State.reset_grpValid,
    State.reset_rd, ?limits, ?throttle, ?temperature, ?policy, fun h => ⟨?version, ?busy, rfl, rfl⟩, ?partitions⟩
  case sound => exact ⟨by decide, by decide, by decide, fun _ => rfl, by decide, fun _ => rfl, by decide⟩
  case cores =>
    intro c
    have hc : State.reset.m.core c = {} := rfl
    rw [hc]
    decide +kernel
  case links => decide +kernel
  case limits => decide +kernel
  case throttle => decide +kernel
  case temperature => decide +kernel
  case policy => decide +kernel
  case version => revert h; decide +kernel
  case busy => revert h; decide +kernel
  case partitions => decide +kernel

end Sys2Proof.Machine
end

section
/-! What the traffic of the caches and of the directory touches: copies, messages, requests at spools, counts and poison; nothing else (R344 to R361). -/

namespace Sys2Proof.Machine

/-- Registers of BAR0 that no traffic of the caches writes: all but the counts and error registers of PNC_, L2C_ and SPL_, and MON_. -/
def offTraffic (a : Nat) : Prop := a < bPNC 0 ∨ a = bSPLMAP ∨ bLNK ≤ a ∧ a < bMON
/-- Caches, the directory and requests at the spools have been at work: nothing else has changed, and no error has struck an array. -/
structure Mod.traffic (m t : Mod) : Prop where
  rest : { t with cores := m.cores, coh := m.coh, spl := m.spl, bar0 := m.bar0, poison := m.poison } = m
  cores : ∀ d, { t.core d with mem := (m.core d).mem } = m.core d
  upsets : t.coh.upsets = m.coh.upsets
  fenced : t.spl.fenced = m.spl.fenced
  regs : ∀ a, offTraffic a → t.rd a = m.rd a

theorem Mod.traffic_refl (m : Mod) : m.traffic m := ⟨rfl, fun _ => rfl, rfl, rfl, fun _ _ => rfl⟩
theorem Mod.traffic_trans {m t u : Mod} (h : m.traffic t) (g : t.traffic u) : m.traffic u where
  rest := calc ({ u with cores := m.cores, coh := m.coh, spl := m.spl, bar0 := m.bar0, poison := m.poison } : Mod) =
        { ({ u with cores := t.cores, coh := t.coh, spl := t.spl, bar0 := t.bar0, poison := t.poison } : Mod) with
          cores := m.cores, coh := m.coh, spl := m.spl, bar0 := m.bar0, poison := m.poison } := rfl
      _ = { t with cores := m.cores, coh := m.coh, spl := m.spl, bar0 := m.bar0, poison := m.poison } := by rw [g.rest]
      _ = m := h.rest
  cores d := by rw [← h.cores d, ← g.cores d]
  upsets := g.upsets.trans h.upsets
  fenced := g.fenced.trans h.fenced
  regs a ha := (g.regs a ha).trans (h.regs a ha)
/-- The last piece of work first. -/
theorem Mod.traffic_after {m t u : Mod} (g : t.traffic u) (h : m.traffic t) : m.traffic u := Mod.traffic_trans h g
theorem Mod.traffic_foldl {β : Type} (f : Mod → β → Mod) (h : ∀ (m : Mod) x, m.traffic (f m x)) (xs : List β) (m : Mod) : m.traffic (xs.foldl f m) :=
  foldl_keeps Mod.traffic Mod.traffic_refl Mod.traffic_trans f h xs m

/-! ## Registers and counts -/

/-- What traffic leaves alone, field by field. -/
theorem Mod.traffic.fields {m t : Mod} (h : m.traffic t) :
    t.mem = m.mem ∧ t.tags = m.tags ∧ t.parts = m.parts ∧ t.nv = m.nv ∧ t.pwr = m.pwr ∧ t.hosts = m.hosts ∧ t.fit = m.fit ∧ t.pat = m.pat := by
  obtain ⟨h, -, -, -, -⟩ := h
  refine ⟨?_, ?_, ?_, ?_, ?_, ?_, ?_, ?_⟩ <;> rw [← h]
theorem Mod.traffic_of_onlyBar {m t : Mod} (h : m.onlyBar t) (hr : ∀ a, offTraffic a → t.rd a = m.rd a) : m.traffic t := by
  obtain ⟨h⟩ := h
  have e : ∀ {α : Type} (f : Mod → α), (∀ x b, f { x with bar0 := b } = f x) → f t = f m := fun f hf => by rw [← hf t m.bar0, h]
  have hc : t.cores = m.cores := e (·.cores) fun _ _ => rfl
  refine ⟨?_, fun d => ?_, e (·.coh.upsets) fun _ _ => rfl, e (·.spl.fenced) fun _ _ => rfl, hr⟩
  · conv_rhs => rw [← h]
    have h2 : t.coh = m.coh := e (·.coh) fun _ _ => rfl
    have h3 : t.spl = m.spl := e (·.spl) fun _ _ => rfl
    have h4 : t.poison = m.poison := e (·.poison) fun _ _ => rfl
    rw [← hc, ← h2, ← h3, ← h4]
  · simp only [Mod.core, hc]
/-- A write of a register that traffic may touch. -/
theorem Mod.traffic_wr (m : Mod) {a : Nat} (v : W64) (ha : ¬ offTraffic a) : m.traffic (m.wr a v) :=
  Mod.traffic_of_onlyBar (Mod.onlyBar_wr m a v) fun _ hb => Mod.rd_wr_ne m v fun e => ha (e ▸ hb)
theorem Mod.traffic_wrf (m : Mod) {a : Nat} (hi lo v : Nat) (ha : ¬ offTraffic a) : m.traffic (m.wrf a hi lo v) := Mod.traffic_wr m _ ha
theorem Mod.traffic_raise (m : Mod) {a : Nat} (i : Nat) (ha : ¬ offTraffic a) : m.traffic (m.raise a i) := Mod.traffic_wr m _ ha
theorem Mod.traffic_inc (m : Mod) {a : Nat} (ha : ¬ offTraffic a) : m.traffic (m.inc a) := Mod.traffic_wr m _ ha
theorem Mod.traffic_evPanel (m : Mod) (p code n : Nat) (filt : Option Nat) : m.traffic (m.evPanel p code n filt) :=
  Mod.traffic_of_onlyBar (Mod.onlyBar_evPanel m p code n filt) fun a ha => Mod.rd_evPanel m p code n a filt (by
    simp only [offTraffic, bPNC, bSPLMAP, bLNK, bMON] at ha ⊢; omega)
theorem Mod.traffic_evCore (m : Mod) (c code n : Nat) : m.traffic (m.evCore c code n) :=
  Mod.traffic_of_onlyBar (Mod.onlyBar_evCore m c code n) fun a ha => Mod.rd_evCore m c code n a (by
    simp only [offTraffic, bPNC, bSPLMAP, bLNK, bMON] at ha ⊢; omega)
theorem Mod.place_spool_lt (m : Mod) (pa : Nat) : (m.place pa).spool < 24 := by
  simp only [Mod.place, List.getD_eq_getElem?_getD]
  cases h : m.enabled[bitsN pa 45 7 % m.enabled.length]? with
  | none => simp
  | some s =>
    have hs : s ∈ m.enabled := List.mem_of_getElem? h
    have := List.mem_range.mp (List.mem_of_mem_filter hs)
    simpa using this
theorem Mod.homePanel_lt (m : Mod) (la : Nat) : m.homePanel la < 4 := by
  have := m.place_spool_lt (la * 128)
  simp only [Mod.homePanel]; omega
theorem not_offTraffic_pnc {p a : Nat} (hp : p < 4) (hlow : bPNC p < a) (hhigh : a < bPNC p + 0x1000) : ¬ offTraffic a := by
  simp only [offTraffic, bPNC, bSPLMAP, bLNK, bMON] at *; omega
theorem not_offTraffic_spl {s a : Nat} (hs : s < 24) (hlow : bSPL s < a) (hhigh : a < bSPL s + 0x1000) : ¬ offTraffic a := by
  simp only [offTraffic, bPNC, bSPL, bSPLMAP, bLNK, bMON] at *; omega
theorem not_offTraffic_l2c {c a : Nat} (hc : c ≤ 256) (hlow : bL2C c < a) (hhigh : a < bL2C c + 0x100) : ¬ offTraffic a := by
  simp only [offTraffic, bPNC, bL2C, bSPLMAP, bLNK, bMON] at *; omega

/-! ## Caches, directory, requests -/

theorem Mod.traffic_updMem (m : Mod) (c : Nat) (f : CoreMem → CoreMem) : m.traffic (m.updMem c f) := by
  refine ⟨rfl, fun d => ?_, rfl, rfl, fun _ _ => rfl⟩
  by_cases h : d = c
  · rw [h, Mod.updMem, Mod.core_updCore_self]
  · rw [Mod.updMem, Mod.core_updCore_ne m _ h]
theorem Mod.traffic_coh (m : Mod) (q : CohState) (hq : q.upsets = m.coh.upsets) : m.traffic { m with coh := q } :=
  ⟨rfl, fun _ => rfl, hq, rfl, fun _ _ => rfl⟩
theorem Mod.traffic_setDir (m : Mod) (la : Nat) (e : DirEntry) : m.traffic (m.setDir la e) := by
  unfold Mod.setDir
  repeat' split
  all_goals first | exact Mod.traffic_refl m | exact Mod.traffic_coh m _ rfl
theorem Mod.traffic_crosses (m : Mod) (src dst part : Option Nat) : m.traffic (m.crosses src dst part) := by
  unfold Mod.crosses
  repeat' split
  · exact Mod.traffic_refl m
  · exact Mod.traffic_evPanel m _ _ _ _
  · exact Mod.traffic_refl m
theorem Mod.traffic_cohCrosses (m : Mod) (agent la : Nat) (toHome : Bool) : m.traffic (m.cohCrosses agent la toHome) := by
  unfold Mod.cohCrosses
  dsimp only
  split <;> exact Mod.traffic_crosses m _ _ _
theorem Mod.traffic_csend (m : Mod) (x : CMsg) : m.traffic (m.csend x) :=
  Mod.traffic_trans (Mod.traffic_coh m { m.coh with msgs := m.coh.msgs ++ [x] } rfl) (Mod.traffic_cohCrosses _ _ _ _)
theorem Mod.traffic_sendOffers (m : Mod) (c : Nat) : m.traffic (m.sendOffers c) := by
  unfold Mod.sendOffers
  exact Mod.traffic_after (Mod.traffic_updMem _ c _) (Mod.traffic_foldl _ (fun m _ => Mod.traffic_csend m _) _ m)
theorem Mod.traffic_askRange (m : Mod) (pa : Nat) (write partialW : Bool) (k : Nat) : m.traffic (m.askRange pa write partialW k) := by
  unfold Mod.askRange
  dsimp only
  split_ifs
  · exact Mod.traffic_inc m (not_offTraffic_spl (m.place_spool_lt pa) (by omega) (by omega))
  · exact ⟨rfl, fun _ => rfl, rfl, rfl, fun _ _ => rfl⟩
theorem Mod.traffic_askSpool (m : Mod) (la : Nat) (write : Bool) : m.traffic (m.askSpool la write) := Mod.traffic_askRange m _ _ _ _
theorem Mod.traffic_askWrite (m : Mod) (la lo hi : Nat) : m.traffic (m.askWrite la lo hi) := by
  unfold Mod.askWrite
  split_ifs
  · exact Mod.traffic_askSpool m la true
  · refine Mod.traffic_foldl _ (fun m b => ?_) _ m
    dsimp only
    split_ifs
    · exact Mod.traffic_refl m
    · exact Mod.traffic_askRange m _ _ _ _
    · exact Mod.traffic_askRange m _ _ _ _
theorem Mod.traffic_pncPut (m : Mod) (la age : Nat) (dirty : Bool) : m.traffic (m.pncPut la age dirty) := by
  unfold Mod.pncPut
  dsimp only
  split
  · exact Mod.traffic_coh m _ rfl
  · split
    · split_ifs
      · refine Mod.traffic_after (Mod.traffic_askSpool _ _ _) (Mod.traffic_after (Mod.traffic_inc _ ?_) (Mod.traffic_coh m _ rfl))
        exact not_offTraffic_pnc (m.homePanel_lt la) (by omega) (by omega)
      · exact Mod.traffic_coh m _ rfl
    · exact Mod.traffic_coh m _ rfl
theorem Mod.traffic_pncOffer (m : Mod) (la : Nat) (dirty : Bool) : m.traffic (m.pncOffer la dirty) := by
  unfold Mod.pncOffer
  dsimp only
  split
  · exact Mod.traffic_trans (Mod.traffic_pncPut m la 1 dirty) (Mod.traffic_coh _ _ rfl)
  · exact Mod.traffic_pncPut m la 1 dirty
theorem Mod.traffic_pncDrop (m : Mod) (la : Nat) : m.traffic (m.pncDrop la) := by
  unfold Mod.pncDrop
  split
  · exact Mod.traffic_coh m _ rfl
  · exact Mod.traffic_refl m
theorem Mod.traffic_pncLook (m : Mod) (la : Nat) : m.traffic (m.pncLook la) := by
  unfold Mod.pncLook
  dsimp only
  split_ifs
  · exact Mod.traffic_after (Mod.traffic_evPanel _ _ _ _ _) (Mod.traffic_coh m _ rfl)
  · exact Mod.traffic_evPanel m _ _ _ _
theorem Mod.linePanel_lt (m : Mod) (la : Nat) : m.linePanel la < 4 := by
  unfold Mod.linePanel
  split_ifs
  · exact Nat.mod_lt _ (by decide)
  · exact m.homePanel_lt la
theorem Mod.traffic_setPoison (m : Mod) (la : Nat) (b : Bool) : m.traffic (m.setPoison la b) := ⟨rfl, fun _ => rfl, rfl, rfl, fun _ _ => rfl⟩
theorem Mod.traffic_poisonLine (m : Mod) (la : Nat) : m.traffic (m.poisonLine la) := by
  refine Mod.traffic_trans (Mod.traffic_setPoison m la true) (Mod.traffic_wr _ _ ?_)
  exact not_offTraffic_pnc (m.linePanel_lt la) (by omega) (by omega)
theorem Mod.traffic_lostLine (m : Mod) (c la : Nat) : m.traffic (m.lostLine c la) := by
  unfold Mod.lostLine
  split_ifs
  · exact Mod.traffic_trans (Mod.traffic_updMem m c _) (Mod.traffic_poisonLine _ la)
  · exact Mod.traffic_refl m
theorem Mod.traffic_takeBack (m : Mod) (c la : Nat) : m.traffic (m.takeBack c la) := by
  unfold Mod.takeBack
  dsimp only
  split_ifs
  · exact Mod.traffic_trans (Mod.traffic_trans (Mod.traffic_lostLine m c la) (Mod.traffic_updMem _ c _)) (Mod.traffic_pncPut _ la 1 true)
  · exact Mod.traffic_trans (Mod.traffic_lostLine m c la) (Mod.traffic_updMem _ c _)
theorem Mod.traffic_dropCopies (m : Mod) (la : Nat) : m.traffic (m.dropCopies la) := by
  unfold Mod.dropCopies
  split_ifs
  · exact Mod.traffic_refl m
  · exact Mod.traffic_trans (Mod.traffic_foldl _ (fun m c => Mod.traffic_takeBack m c la) _ m) (Mod.traffic_setDir _ la {})

/-! ## Whole transactions of agents that cache nothing -/

/-- A non-caching write is a data write after traffic. -/
theorem Mod.ncWrite_eq (m : Mod) (pa : Nat) (bs : List Byte) (alloc : Bool) : ∃ t, m.traffic t ∧ m.ncWrite pa bs alloc = t.wrMem pa bs := by
  unfold Mod.ncWrite
  split_ifs
  · refine ⟨_, Mod.traffic_foldl _ (fun m la => ?_) _ m, rfl⟩
    dsimp only
    split_ifs
    · exact Mod.traffic_dropCopies m la
    · exact Mod.traffic_trans (Mod.traffic_dropCopies m la) (Mod.traffic_pncPut _ la 1 true)
    · exact Mod.traffic_trans (Mod.traffic_dropCopies m la) (Mod.traffic_askWrite _ la _ _)
  · exact ⟨m, Mod.traffic_refl m, rfl⟩

end Sys2Proof.Machine
end

section
/-! The sequencer, VSTBY, the rail groups and the fuses: what each command of the power logic and of the start-up leaves of them (R548, R602, R607,
R612, R614). -/

namespace Sys2Proof.Machine

/-! ## Sequencer and fuses -/

/-- A state of SB_SEQ that goes with so many good rail groups and with VSTBY or without. -/
def legalSeq (seq groups : Nat) (standby : Bool) : Prop :=
  seq ≤ 6 ∧ groups ≤ 6 ∧ (seq = 2 ∨ seq = 3 ∨ seq = 6 → groups = 6) ∧ (seq = 0 ∨ seq = 4 ∨ seq = 5 → groups = 0) ∧ (seq = 1 → groups < 6) ∧
    (standby = false → seq = 0)
/-- The module has a sound sequencer and sound fuses. -/
def Mod.upright (m : Mod) : Prop := legalSeq m.pwr.seq m.pwr.groups m.pwr.standby ∧ m.nv.svn ≤ 64

theorem State.sound_iff (s : State) : s.sound ↔ s.m.upright := by
  simp only [State.sound, Mod.upright, legalSeq, and_assoc]
/-- `t` has the fuses and the flash of `m`; its sequencer shows a state, with rail groups good, and VSTBY or not. -/
structure Mod.stands (m t : Mod) (seq groups : Nat) (standby : Bool) : Prop where
  nv : t.nv = m.nv
  seq : t.pwr.seq = seq
  groups : t.pwr.groups = groups
  standby : t.pwr.standby = standby
/-- Fuses, flash, sequencer, rail groups and VSTBY are as they were. -/
def Mod.calm (m t : Mod) : Prop := m.stands t m.pwr.seq m.pwr.groups m.pwr.standby
/-- Fuses and flash are as they were, and what was sound is. -/
def Mod.safe (m t : Mod) : Prop := t.nv = m.nv ∧ (m.upright → t.upright)

theorem Mod.stands.upright {m t : Mod} {seq groups : Nat} {standby : Bool} (h : m.stands t seq groups standby) (hm : m.upright)
    (hl : legalSeq seq groups standby) : t.upright := by
  obtain ⟨hnv, hseq, hgroups, hstandby⟩ := h
  exact ⟨by rwa [hseq, hgroups, hstandby], by rw [hnv]; exact hm.2⟩
theorem Mod.stands.safe {m t : Mod} {seq groups : Nat} {standby : Bool} (h : m.stands t seq groups standby)
    (hl : legalSeq m.pwr.seq m.pwr.groups m.pwr.standby → legalSeq seq groups standby) : m.safe t :=
  ⟨h.nv, fun hm => h.upright hm (hl hm.1)⟩
theorem Mod.calm.safe {m t : Mod} (h : m.calm t) : m.safe t := Mod.stands.safe h id
theorem Mod.safe_refl (m : Mod) : m.safe m := ⟨rfl, id⟩
theorem Mod.calm_refl (m : Mod) : m.calm m := ⟨rfl, rfl, rfl, rfl⟩
theorem Mod.calm.stands {m t u : Mod} {seq groups : Nat} {standby : Bool} (h : m.stands t seq groups standby) (g : t.calm u) :
    m.stands u seq groups standby := ⟨g.nv.trans h.nv, g.seq.trans h.seq, g.groups.trans h.groups, g.standby.trans h.standby⟩
theorem Mod.calm_trans {m t u : Mod} (h : m.calm t) (g : t.calm u) : m.calm u := Mod.calm.stands h g
/-- The last step first. -/
theorem Mod.calm_after {m t u : Mod} (g : t.calm u) (h : m.calm t) : m.calm u := Mod.calm_trans h g
theorem Mod.calm_of_eq {m t : Mod} (hnv : t.nv = m.nv) (hpwr : t.pwr = m.pwr) : m.calm t := ⟨hnv, by rw [hpwr], by rw [hpwr], by rw [hpwr]⟩
/-- A fold of calm steps is calm. -/
theorem Mod.calm_foldl {β : Type} (f : Mod → β → Mod) (h : ∀ (m : Mod) x, m.calm (f m x)) (xs : List β) (m : Mod) : m.calm (xs.foldl f m) :=
  foldl_keeps Mod.calm Mod.calm_refl Mod.calm_trans f h xs m

/-! ## Calm operations -/

theorem Mod.calm_ibi (m : Mod) : m.calm m.ibi := by
  simp only [Mod.ibi]; split_ifs <;> exact ⟨rfl, rfl, rfl, rfl⟩
theorem Mod.calm_setSb (m : Mod) (i v : Nat) : m.calm (m.setSb i v) := ⟨rfl, rfl, rfl, rfl⟩
theorem Mod.calm_sbEvent (m : Mod) (i : Nat) : m.calm (m.sbEvent i) := by
  unfold Mod.sbEvent
  exact Mod.calm_after (Mod.calm_ibi _) (Mod.calm_after (Mod.calm_setSb _ _ _) (Mod.calm_setSb m _ _))
theorem Mod.calm_pwrEvent (m : Mod) (i : Nat) : m.calm (m.pwrEvent i) := ⟨rfl, rfl, rfl, rfl⟩
theorem Mod.calm_wrf (m : Mod) (a hi lo v : Nat) : m.calm (m.wrf a hi lo v) := ⟨rfl, rfl, rfl, rfl⟩
theorem Mod.calm_setRail (m : Mod) (r : Nat) : m.calm (m.setRail r) := ⟨rfl, rfl, rfl, rfl⟩
theorem Mod.calm_setVolt (m : Mod) (r v : Nat) : m.calm (m.setVolt r v) := by
  simp only [Mod.setVolt]; split_ifs <;> exact ⟨rfl, rfl, rfl, rfl⟩
theorem Mod.calm_setTargets (m : Mod) : m.calm m.setTargets := Mod.calm_foldl _ (fun m _ => Mod.calm_wrf m _ _ _ _) _ m
theorem Mod.calm_sense (m : Mod) (t : Nat) (raw : BitVec 16) : m.calm (m.sense t raw) := ⟨rfl, rfl, rfl, rfl⟩
theorem Mod.calm_monSource (m : Mod) : m.calm m.monSource := by
  unfold Mod.monSource
  split_ifs
  · exact Mod.calm_refl m
  · refine Mod.calm_foldl _ (fun m n => ?_) _ m
    dsimp only
    split_ifs <;> exact ⟨rfl, rfl, rfl, rfl⟩
theorem Mod.traffic.calm {m t : Mod} (h : m.traffic t) : m.calm t := by
  obtain ⟨-, -, -, hnv, hpwr, -, -, -⟩ := h.fields
  exact Mod.calm_of_eq hnv hpwr
theorem Mod.calm_fit (m : Mod) (q : Fitter) : m.calm { m with fit := q } := ⟨rfl, rfl, rfl, rfl⟩
theorem Mod.calm_updHost (m : Mod) (h : Nat) (f : HostPort → HostPort) : m.calm (m.updHost h f) := ⟨rfl, rfl, rfl, rfl⟩
theorem Mod.calm_toHost (m : Mod) (h : Nat) (x : HostOut) : m.calm (m.toHost h x) := ⟨rfl, rfl, rfl, rfl⟩
theorem Mod.calm_prtVector (m : Mod) (p : Nat) : m.calm (m.prtVector p) := by
  unfold Mod.prtVector
  dsimp only
  split_ifs
  · exact Mod.calm_refl m
  · exact Mod.calm_after (Mod.calm_foldl _ (fun m _ => Mod.calm_toHost m _ _) _ _) (Mod.calm_after (Mod.calm_toHost _ _ _) (Mod.calm_wrf m _ _ _ _))
theorem Mod.calm_clearTags (m : Mod) (pa n : Nat) : m.calm (m.clearTags pa n) := by
  unfold Mod.clearTags; split_ifs <;> exact ⟨rfl, rfl, rfl, rfl⟩
theorem Mod.calm_cleanLines (m : Mod) (pa n : Nat) : m.calm (m.cleanLines pa n) := by
  unfold Mod.cleanLines; dsimp only; split_ifs <;> exact ⟨rfl, rfl, rfl, rfl⟩
/-- The bytes, tags and poison of a data write. -/
theorem Mod.calm_setBytes (m : Mod) (pa n : Nat) (mem : Tab Byte) : m.calm (({ m with mem := mem }.clearTags pa n).cleanLines pa n) :=
  Mod.calm_after (Mod.calm_cleanLines _ pa n) (Mod.calm_after (Mod.calm_clearTags _ pa n) (Mod.calm_of_eq rfl rfl))
theorem Mod.calm_wrLine (m : Mod) (pa : Nat) (bs : List Byte) : m.calm (m.wrLine pa bs) := by
  unfold Mod.wrLine
  split_ifs
  · exact ⟨rfl, rfl, rfl, rfl⟩
  · exact Mod.calm_setBytes m pa _ _
theorem Mod.calm_wrMem (m : Mod) (pa : Nat) (bs : List Byte) : m.calm (m.wrMem pa bs) := by
  unfold Mod.wrMem
  dsimp only
  split_ifs
  · exact Mod.calm_foldl _ (fun m _ => Mod.calm_wrLine m _ _) _ m
  · exact Mod.calm_setBytes m pa _ _
theorem Mod.calm_scramble (m : Mod) (pa n : Nat) : m.calm (m.scramble pa n) := by
  obtain ⟨t, ht, he⟩ := Mod.ncWrite_eq (m.freeBytes n).2 pa (m.freeBytes n).1 true
  rw [Mod.scramble, he]
  exact Mod.calm_after (Mod.calm_wrMem t _ _) (Mod.calm_after ht.calm (Mod.calm_of_eq rfl rfl))
theorem Mod.calm_scrambleDst (m : Mod) (s : Nat) (d : ShtDesc) : m.calm (m.scrambleDst s d) := by
  unfold Mod.scrambleDst
  refine Mod.calm_foldl _ (fun m r => ?_) _ m
  dsimp only
  split
  · exact Mod.calm_of_eq rfl rfl
  · refine Mod.calm_foldl _ (fun m p => ?_) _ m
    split
    · exact Mod.calm_scramble m _ _
    · exact Mod.calm_refl m
  · exact Mod.calm_refl m
theorem Mod.calm_fire (m : Mod) (part notch : Nat) (src : FireSrc) : m.calm (m.fire part notch src) := by
  unfold Mod.fire; split_ifs <;> exact ⟨rfl, rfl, rfl, rfl⟩
theorem Mod.calm_shtEnd (m : Mod) (s : Nat) (d : ShtDesc) (status : Nat) : m.calm (m.shtEnd s d status) := by
  have h : m.calm (((m.updSht s fun q => { q with running := q.running.filter (·.id != d.id) }).fire d.piece.part (d.f 4 15 0) (.shuttle s)).shtCnt s 1 1) :=
    Mod.calm_after (Mod.calm_wrf _ _ _ _ _) (Mod.calm_after (Mod.calm_fire _ _ _ _) (Mod.calm_of_eq rfl rfl))
  unfold Mod.shtEnd
  dsimp only
  split_ifs
  · exact h
  · exact Mod.calm_after (Mod.calm_prtVector _ _) (Mod.calm_trans h (Mod.calm_of_eq rfl rfl))
theorem Mod.calm_endHostKind (m : Mod) (f : ShtDesc → Bool) : m.calm (m.endHostKind f) := by
  unfold Mod.endHostKind
  refine Mod.calm_foldl _ (fun m s => ?_) _ m
  exact Mod.calm_foldl _ (fun m d => Mod.calm_after (Mod.calm_shtEnd _ s d 6) (Mod.calm_scrambleDst m s d)) _ m
theorem Mod.calm_enterHeld (m : Mod) (status reason : Nat) : m.calm (m.enterHeld status reason) :=
  Mod.calm_after (Mod.calm_endHostKind _ _) (Mod.calm_wrf m _ _ _ _)

/-! ## Mailboxes -/

theorem Mod.calm_report (m : Mod) (nonce : List Byte) : m.calm (m.report nonce).2 := ⟨rfl, rfl, rfl, rfl⟩
theorem Mod.calm_writeResp (m : Mod) (h : Nat) (r : List Byte) : m.calm (m.writeResp h r) := by
  unfold Mod.writeResp
  dsimp only
  split_ifs
  · exact ⟨rfl, rfl, rfl, rfl⟩
  · exact ⟨rfl, rfl, rfl, rfl⟩
theorem Mod.calm_answerCmd (m : Mod) (c : Cmd) (status : Nat) (pay : List Byte) : m.calm (m.answerCmd c status pay) :=
  Mod.calm_after (Mod.calm_writeResp _ _ _) (Mod.calm_after (Mod.calm_updHost _ _ _) (Mod.calm_wrf m _ _ _ _))
theorem Mod.calm_doePump (m : Mod) (k : Nat) : m.calm (m.doePump k) := by
  induction k generalizing m with
  | zero => exact Mod.calm_refl m
  | succ k ih =>
    unfold Mod.doePump
    dsimp only
    split
    · split_ifs
      · exact Mod.calm_refl m
      · exact Mod.calm_after (ih _) (Mod.calm_after (Mod.calm_toHost _ _ _) (Mod.calm_fit m _))
      · exact Mod.calm_after (ih _) (Mod.calm_after (Mod.calm_toHost _ _ _) (Mod.calm_after (Mod.calm_report _ _) (Mod.calm_fit m _)))
    · exact Mod.calm_refl m
theorem Mod.calm_doeAll (m : Mod) : m.calm m.doeAll := Mod.calm_doePump m _
/-- Serving a mailbox leaves fuses, flash and power alone but for what the command itself does. -/
theorem Mod.mbxServe_cases (m : Mod) (mine : Nat → Bool) (form : Cmd → Bool) (f : Cmd → Mod → Reply) :
    m.calm (m.mbxServe mine form f) ∨ ∃ c m0, m.calm m0 ∧
      ((∃ st pay m1, f c m0 = .now st pay m1 ∧ m1.calm (m.mbxServe mine form f)) ∨ f c m0 = .later (m.mbxServe mine form f)) := by
  unfold Mod.mbxServe
  split
  next h seq d rest _ =>
    have h0 : m.calm { m with fit := { m.fit with queue := rest } } := Mod.calm_fit m _
    dsimp only at h0 ⊢
    generalize ({ m with fit := { m.fit with queue := rest } } : Mod) = m0 at h0 ⊢
    have written (r : List Byte) := Mod.calm_after (Mod.calm_doeAll _) (Mod.calm_after (Mod.calm_writeResp m0 h r) h0)
    obtain ⟨c, bad⟩ := m0.readCmd h seq d
    have refused (st : Nat) := Mod.calm_after (Mod.calm_doeAll _) (Mod.calm_after (Mod.calm_answerCmd m0 c st []) h0)
    dsimp only
    split
    · exact .inl (Mod.calm_refl m)
    · split
      · split
        · exact .inl (written _)
        · exact .inl (written _)
      · split
        · exact .inl (refused _)
        · split
          · exact .inl (refused _)
          · split
            · exact .inl (refused _)
            · refine .inr ⟨c, m0, h0, ?_⟩
              split
              next st pay m1 hf =>
                exact .inl ⟨st, pay, m1, hf, Mod.calm_after (Mod.calm_doeAll _) (Mod.calm_after (Mod.calm_answerCmd _ c st pay) (Mod.calm_fit m1 _))⟩
              next m1 hf => exact .inr hf
  next => exact .inl (Mod.calm_refl m)

end Sys2Proof.Machine
end

section
/-! Every command keeps the sequencer and the fuses sound, and takes nothing back from fuses and flash (R548, R550, R553, R602, R607, R612, R614). -/

namespace Sys2Proof.Machine

/-! ## Where the power logic's steps leave the sequencer -/

theorem Mod.stands_setSeq (m : Mod) (seq : Nat) : m.stands (m.setSeq seq) seq m.pwr.groups m.pwr.standby := ⟨rfl, rfl, rfl, rfl⟩
theorem Mod.stands_ramp (m : Mod) (g : Nat) : m.stands (m.ramp g) 1 m.pwr.groups m.pwr.standby := ⟨rfl, rfl, rfl, rfl⟩
theorem Mod.stands_railsDown (m : Mod) (seq : Nat) : m.stands (m.railsDown seq) seq 0 m.pwr.standby := ⟨rfl, rfl, rfl, rfl⟩
theorem Mod.stands_release (m : Mod) : m.stands m.release 2 m.pwr.groups m.pwr.standby := by
  have h : m.stands ((({ m with fit := { phase := .rom } } : Mod).setSeq 2).wrf bPWR 31 16 m.pwr.input).standbyRail 2 m.pwr.groups m.pwr.standby :=
    ⟨rfl, rfl, rfl, rfl⟩
  exact Mod.calm.stands h (Mod.calm_after (Mod.calm_monSource _) (Mod.calm_setTargets _))
theorem Mod.stands_enterFault (m : Mod) (r : Nat) : m.stands (m.enterFault r) 4 0 m.pwr.standby := by
  have h : m.stands { (m.railsDown 4).setRail r with pwr := { ((m.railsDown 4).setRail r).pwr with cycled := false } } 4 0 m.pwr.standby :=
    ⟨rfl, rfl, rfl, rfl⟩
  exact Mod.calm.stands h (Mod.calm_sbEvent _ 0)
/-- A module reset, where it comes about, goes on at BOOT. -/
theorem Mod.stands_moduleReset (m : Mod) (hg : 6 ≤ m.pwr.groups) : m.stands m.moduleReset 2 m.pwr.groups m.pwr.standby := by
  unfold Mod.moduleReset
  rw [if_neg (by omega)]
  dsimp only
  generalize hm1 : ({ nv := m.nv, freeCtr := m.freeCtr, nextId := m.nextId, hosts := Tab.mapV m.hosts fun _ k => { linked := k.linked, gen := k.gen, width := k.width, clock := k.clock, cto := k.cto, out := k.out }, pwr := { m.pwr with rail := 0, capLim := [], thmLim := [], capLow := 0, thmLow := [], dead := [] } } : Mod) = m1
  have h1 : m.calm m1 := by rw [← hm1]; exact ⟨rfl, rfl, rfl, rfl⟩
  have h2 : m.calm ((upto 16).foldl (fun (x : Mod) r =>
      if r = 15 then x else (x.wrf (bPWR + 0x100 + 8 * r) 47 32 (x.railTarget r)).wrf (bPWR + 0x100 + 8 * r) 15 0 (m.railVolt r)) m1) := by
    refine Mod.calm_after (Mod.calm_foldl _ (fun x r => ?_) _ _) h1
    split_ifs
    · exact Mod.calm_refl x
    · exact ⟨rfl, rfl, rfl, rfl⟩
  generalize (upto 16).foldl _ m1 = m2 at h2 ⊢
  have key : ∀ x, m.calm x → m.stands x.release 2 m.pwr.groups m.pwr.standby := by
    intro x hx
    obtain ⟨hnv, hseq, hgroups, hstandby⟩ := x.stands_release
    exact ⟨hnv.trans hx.nv, hseq, hgroups.trans hx.groups, hstandby.trans hx.standby⟩
  split_ifs
  · exact key _ (Mod.calm_after (Mod.calm_enterHeld _ 0 3) h2)
  · exact key _ h2
theorem Mod.safe_moduleReset (m : Mod) : m.safe m.moduleReset := by
  by_cases hg : m.pwr.groups < 6
  · rw [Mod.moduleReset, if_pos hg]; exact m.safe_refl
  · exact (m.stands_moduleReset (by omega)).safe (by unfold legalSeq; grind)
theorem Mod.safe_trans {m t u : Mod} (h : m.safe t) (g : t.safe u) : m.safe u := ⟨g.1.trans h.1, fun hm => g.2 (h.2 hm)⟩

/-! ## The commands of the converter, the sequencer, the sideband and the rails -/

theorem Mod.calm_converterRuns (m : Mod) (volts : BitVec 16) : m.calm (m.converterRuns volts).2 := by
  unfold Mod.converterRuns
  split_ifs
  · exact m.calm_refl
  · exact ⟨rfl, rfl, rfl, rfl⟩
theorem Mod.calm_converterStart (m : Mod) (volts : BitVec 16) : m.calm (m.converterStart volts) := by
  have h1 := m.calm_converterRuns volts
  unfold Mod.converterStart
  rcases h : m.converterRuns volts with ⟨on, m1⟩
  rw [h] at h1
  obtain ⟨hnv, hseq, hgroups, hstandby⟩ := h1
  dsimp only
  split_ifs
  · exact m.calm_refl
  · exact ⟨hnv, hseq, hgroups, hstandby⟩
  · exact ⟨hnv, hseq, hgroups, hstandby⟩
theorem Mod.safe_converterStop (m : Mod) (volts : BitVec 16) : m.safe (m.converterStop volts) := by
  unfold Mod.converterStop
  split_ifs
  · exact m.safe_refl
  · have h : m.stands { m.railsDown 0 with pwr := { input := volts.toNat, enable := m.pwr.enable, ibi := m.pwr.ibi, out := m.pwr.out } } 0 0 false :=
      ⟨rfl, rfl, rfl, rfl⟩
    exact h.safe (by unfold legalSeq; grind)
theorem Mod.safe_standbyGood (m : Mod) : m.safe m.standbyGood := by
  unfold Mod.standbyGood
  split_ifs with h
  · exact m.safe_refl
  · have hs : m.stands (({ m with pwr := { m.pwr with standby := true } } : Mod).setSeq 0) 0 m.pwr.groups true := ⟨rfl, rfl, rfl, rfl⟩
    have hr : m.stands ((({ m with pwr := { m.pwr with standby := true } } : Mod).setSeq 0).ramp 0) 1 m.pwr.groups true := ⟨rfl, rfl, rfl, rfl⟩
    dsimp only
    split_ifs
    · exact hr.safe (by unfold legalSeq; grind)
    · exact hs.safe (by unfold legalSeq; grind)
theorem Mod.safe_enableHigh (m : Mod) (cool : Bool) : m.safe (m.enableHigh cool) := by
  unfold Mod.enableHigh
  split_ifs with he
  · exact m.safe_refl
  · have h1 : m.calm { m with pwr := { m.pwr with enable := true } } := ⟨rfl, rfl, rfl, rfl⟩
    have hr : m.stands (({ m with pwr := { m.pwr with enable := true } } : Mod).ramp 0) 1 m.pwr.groups m.pwr.standby := ⟨rfl, rfl, rfl, rfl⟩
    dsimp only
    split_ifs with hs
    · exact hr.safe (by unfold legalSeq; grind)
    · exact h1.safe
theorem Mod.safe_enableLow (m : Mod) : m.safe m.enableLow := by
  have h1 : m.calm { m with pwr := { m.pwr with enable := false, cycled := true } } := ⟨rfl, rfl, rfl, rfl⟩
  have hd : m.stands (({ m with pwr := { m.pwr with enable := false, cycled := true } } : Mod).railsDown 0) 0 0 m.pwr.standby := ⟨rfl, rfl, rfl, rfl⟩
  unfold Mod.enableLow
  split_ifs
  · exact m.safe_refl
  · exact h1.safe
  · exact hd.safe (by unfold legalSeq; grind)
theorem Mod.safe_railGroupGood (m : Mod) : m.safe m.railGroupGood := by
  unfold Mod.railGroupGood
  split_ifs with hs
  · exact m.safe_refl
  · dsimp only
    have h1 : m.calm ((rampGroups.getD m.pwr.groups []).foldl (fun (m : Mod) r =>
        (m.wrf (bPWR + 0x100 + 8 * r) 47 32 (m.railTarget r)).setVolt r (m.railGoal r)) m) :=
      Mod.calm_foldl _ (fun m r => Mod.calm_after (Mod.calm_setVolt _ _ _) (Mod.calm_wrf m _ _ _ _)) _ m
    generalize (rampGroups.getD m.pwr.groups []).foldl _ m = m1 at h1 ⊢
    obtain ⟨hnv, hseq, hgroups, hstandby⟩ := h1
    split_ifs with hg
    · have h : m.stands (({ m1 with pwr := { m1.pwr with groups := m.pwr.groups + 1 } } : Mod).ramp (m.pwr.groups + 1)) 1 (m.pwr.groups + 1) m.pwr.standby :=
        ⟨hnv, rfl, rfl, hstandby⟩
      exact h.safe (by unfold legalSeq; grind)
    · obtain ⟨h1, h2, h3, h4⟩ := Mod.stands_release (({ m1 with pwr := { m1.pwr with groups := m.pwr.groups + 1 } } : Mod).setRail 0)
      have h : m.stands (({ m1 with pwr := { m1.pwr with groups := m.pwr.groups + 1 } } : Mod).setRail 0).release 2 (m.pwr.groups + 1) m.pwr.standby :=
        ⟨h1.trans hnv, h2, h3, h4.trans hstandby⟩
      exact h.safe (by unfold legalSeq; grind)
theorem Mod.safe_enterFault (m : Mod) (r : Nat) (hs : m.pwr.seq ≠ 0) : m.safe (m.enterFault r) :=
  (m.stands_enterFault r).safe (by unfold legalSeq; grind)
theorem Mod.safe_railGoodTimeout (m : Mod) (r : Fin 16) : m.safe (m.railGoodTimeout r) := by
  unfold Mod.railGoodTimeout
  split_ifs with h
  · exact m.safe_refl
  · exact m.safe_enterFault _ (by grind)
theorem Mod.safe_railFault (m : Mod) (r : Fin 16) : m.safe (m.railFault r) := by
  unfold Mod.railFault
  split_ifs with h
  · exact m.safe_enterFault _ (by omega)
  · exact m.safe_refl
theorem Mod.safe_thermalTrip (m : Mod) (t : Fin 29) (raw : BitVec 16) : m.safe (m.thermalTrip t raw) := by
  unfold Mod.thermalTrip
  split_ifs with h
  · exact m.safe_refl
  · have h1 : m.stands { m.railsDown 5 with pwr := { (m.railsDown 5).pwr with cycled := false } } 5 0 m.pwr.standby := ⟨rfl, rfl, rfl, rfl⟩
    exact (Mod.calm.stands h1 (Mod.calm_sbEvent _ 1)).safe (by unfold legalSeq; grind)
theorem Mod.calm_inputLimit (m : Mod) (volts amps v0 v1 v2 v3 : BitVec 16) : m.calm (m.inputLimit volts amps v0 v1 v2 v3) := by
  unfold Mod.inputLimit
  dsimp only
  split_ifs
  · exact m.calm_refl
  · refine Mod.calm_after (Mod.calm_sbEvent _ _) (Mod.calm_after (Mod.calm_pwrEvent _ _) ?_)
    refine Mod.calm_after (Mod.calm_setVolt _ _ _) (Mod.calm_after (Mod.calm_setVolt _ _ _) ?_)
    exact Mod.calm_after (Mod.calm_setVolt _ _ _) (Mod.calm_after (Mod.calm_setVolt _ _ _) ⟨rfl, rfl, rfl, rfl⟩)
theorem Mod.calm_railMove (m : Mod) (p : PanelId) : m.calm (m.railMove p) := by
  unfold Mod.railMove
  dsimp only
  split_ifs
  · exact m.calm_refl
  · exact m.calm_setVolt _ _
  · exact m.calm_setVolt _ _
  · exact m.calm_refl
theorem Mod.calm_capCheck (m : Mod) (watts amps : BitVec 16) : m.calm (m.capCheck watts amps) := by
  unfold Mod.capCheck
  dsimp only
  split_ifs
  · exact m.calm_refl
  · exact Mod.calm_after (Mod.calm_setTargets _) ⟨rfl, rfl, rfl, rfl⟩
  · exact ⟨rfl, rfl, rfl, rfl⟩
  · exact Mod.calm_after (Mod.calm_setTargets _) ⟨rfl, rfl, rfl, rfl⟩
  · exact ⟨rfl, rfl, rfl, rfl⟩
  · exact Mod.calm_after (Mod.calm_setTargets _) ⟨rfl, rfl, rfl, rfl⟩
  · exact ⟨rfl, rfl, rfl, rfl⟩
theorem Mod.calm_thermalStep (m : Mod) (t : Fin 29) (raw : BitVec 16) : m.calm (m.thermalStep t raw) := by
  unfold Mod.thermalStep
  dsimp only
  split_ifs
  · exact m.calm_refl
  · exact m.calm_sense _ _
  · exact Mod.calm_after (Mod.calm_pwrEvent _ _) (Mod.calm_after (Mod.calm_setTargets _) ⟨rfl, rfl, rfl, rfl⟩)
  · exact ⟨rfl, rfl, rfl, rfl⟩
  · exact Mod.calm_after (Mod.calm_setTargets _) ⟨rfl, rfl, rfl, rfl⟩
  · exact ⟨rfl, rfl, rfl, rfl⟩
theorem Mod.calm_updCore (m : Mod) (c : Nat) (f : Core → Core) : m.calm (m.updCore c f) := ⟨rfl, rfl, rfl, rfl⟩
theorem Mod.calm_railCollapse (m : Mod) (p : PanelId) (v : BitVec 16) : m.calm (m.railCollapse p v) := by
  unfold Mod.railCollapse
  split_ifs
  · exact m.calm_refl
  · dsimp only
    have h : m.calm ((upto 64).foldl (fun (m : Mod) i => m.updCore (64 * p.val + i) fun k => { k with stopped := true }) (m.setVolt p.val v.toNat)) :=
      Mod.calm_after (Mod.calm_foldl _ (fun m _ => Mod.calm_updCore m _ _) _ _) (m.calm_setVolt _ _)
    generalize (upto 64).foldl _ (m.setVolt p.val v.toNat) = m1 at h ⊢
    obtain ⟨hnv, hseq, hgroups, hstandby⟩ := h
    exact ⟨hnv, hseq, hgroups, hstandby⟩
theorem Mod.safe_bandWrite (m : Mod) (i v : Nat) : m.safe (m.bandWrite i v) := by
  have h2 : ∀ i v, m.calm (m.setSb i v).ibi := fun i v => Mod.calm_after (Mod.calm_ibi _) (Mod.calm_setSb m _ _)
  unfold Mod.bandWrite
  dsimp only
  split_ifs
  · exact (h2 _ _).safe
  · exact Mod.safe_trans (h2 _ _).safe (Mod.safe_moduleReset _)
  · exact (h2 _ _).safe
  · exact m.safe_refl
theorem Mod.safe_bandWrites (m : Mod) (i : Nat) (bs : List Byte) : m.safe (m.bandWrites i bs) := by
  fun_induction Mod.bandWrites with
  | case1 m i a b c d rest ih => exact Mod.safe_trans (m.safe_bandWrite _ _) ih
  | case2 => exact Mod.safe_refl _
theorem Mod.safe_i3cWrite (m : Mod) (bs : List Byte) : m.safe (m.i3cWrite bs) := by
  unfold Mod.i3cWrite
  split
  · exact m.safe_refl
  · split_ifs
    · exact m.safe_refl
    · have h : ∀ n, m.calm { m with pwr := { m.pwr with index := n } } := fun _ => ⟨rfl, rfl, rfl, rfl⟩
      exact Mod.safe_trans (h _).safe (Mod.safe_bandWrites _ _ _)
theorem Mod.calm_sbPowerRead (m : Mod) (n : BitVec 6) : m.calm (m.sbPowerRead n) := by
  unfold Mod.sbPowerRead
  dsimp only
  split_ifs <;> exact ⟨rfl, rfl, rfl, rfl⟩
theorem Mod.calm_dynAddr (m : Mod) (a : BitVec 7) : m.calm (m.dynAddr a) := by
  unfold Mod.dynAddr; split_ifs <;> exact ⟨rfl, rfl, rfl, rfl⟩
theorem Mod.calm_heartbeat (m : Mod) : m.calm m.heartbeat := by
  unfold Mod.heartbeat; split_ifs <;> exact ⟨rfl, rfl, rfl, rfl⟩
theorem Mod.safe_dueReset (m : Mod) : m.safe m.dueReset := by
  unfold Mod.dueReset
  split_ifs
  · exact m.safe_moduleReset
  · exact m.safe_refl
theorem Mod.safe_sbModrst (m : Mod) : m.safe m.sbModrst := by
  unfold Mod.sbModrst
  split_ifs
  · exact m.safe_moduleReset
  · exact m.safe_refl

end Sys2Proof.Machine
end

section
/-! The fitter's start-up, images and applies: what they make of fuses, flash and the sequencer; and so of every command (R548, R550, R552 to R556, R612). -/

namespace Sys2Proof.Machine

/-! ## Start-up -/

/-- With every rail good a sound sequencer has VSTBY and all six groups, and may show RUN, BOOT or COLD. -/
theorem Mod.legalSeq_running {m : Mod} (hp : m.powered = true) {seq : Nat} (hs : seq = 2 ∨ seq = 3 ∨ seq = 6)
    (h : legalSeq m.pwr.seq m.pwr.groups m.pwr.standby) : legalSeq seq m.pwr.groups m.pwr.standby := by
  have hp := of_decide_eq_true hp
  unfold legalSeq at *
  grind
theorem Mod.calm_tempSample (m : Mod) (s : SpoolId) (raw : BitVec 16) : m.calm (m.tempSample s raw) := by
  unfold Mod.tempSample
  dsimp only
  split_ifs
  · exact Mod.calm_after (Mod.calm_sbEvent _ _) (Mod.calm_after (Mod.calm_pwrEvent _ _) ⟨rfl, rfl, rfl, rfl⟩)
  · exact ⟨rfl, rfl, rfl, rfl⟩
theorem Mod.safe_spoolTraining (m : Mod) (hp : m.powered = true) : m.safe m.spoolTraining := by
  have h : m.stands (({ m with fit := { m.fit with step := .cold } } : Mod).setSeq 6) 6 m.pwr.groups m.pwr.standby := ⟨rfl, rfl, rfl, rfl⟩
  unfold Mod.spoolTraining
  split_ifs
  · exact m.safe_refl
  · exact (m.calm_fit _).safe
  · exact (Mod.calm.stands h (Mod.calm_after (Mod.calm_sbEvent _ 4) (Mod.calm_pwrEvent _ 4))).safe (Mod.legalSeq_running hp (by decide))
theorem Mod.safe_coldWaitEnd (m : Mod) (hp : m.powered = true) : m.safe m.coldWaitEnd := by
  have h : m.stands (({ m with fit := { m.fit with step := .training } } : Mod).setSeq 3) 3 m.pwr.groups m.pwr.standby := ⟨rfl, rfl, rfl, rfl⟩
  unfold Mod.coldWaitEnd
  split_ifs
  · exact m.safe_refl
  · exact h.safe (Mod.legalSeq_running hp (by decide))

/-! ## Images -/

/-- What an image's way into the module may do to fuses, flash and sequencer: SVN bits are blown, flash is written, the sequencer may show RUN. -/
structure Mod.imaged (m t : Mod) : Prop where
  svn : m.nv.svn ≤ t.nv.svn
  revoked : t.nv.revoked = m.nv.revoked
  saved : t.nv.saved = m.nv.saved
  upright : m.powered = true → m.upright → t.upright

theorem Mod.calm.imaged {m t : Mod} (h : m.calm t) : m.imaged t :=
  ⟨by rw [h.nv], by rw [h.nv], by rw [h.nv], fun _ => h.safe.2⟩
/-- Flash alone may have been written. -/
structure Mod.flashed (m t : Mod) : Prop where
  svn : t.nv.svn = m.nv.svn
  revoked : t.nv.revoked = m.nv.revoked
  saved : t.nv.saved = m.nv.saved
  pwr : t.pwr = m.pwr

theorem Mod.flashed.imaged {m t : Mod} (h : m.flashed t) : m.imaged t :=
  ⟨h.svn.ge, h.revoked, h.saved, fun _ hm => by unfold Mod.upright at *; rwa [h.svn, h.pwr]⟩
theorem Mod.powered_of_calm {m t : Mod} (h : m.calm t) : t.powered = m.powered := by unfold Mod.powered; rw [h.groups]
theorem Mod.imaged_calm {m t u : Mod} (h : m.imaged t) (g : t.calm u) : m.imaged u :=
  ⟨by rw [g.nv]; exact h.svn, by rw [g.nv]; exact h.revoked, by rw [g.nv]; exact h.saved, fun hp hm => g.safe.2 (h.upright hp hm)⟩
theorem Mod.calm_imaged {m t u : Mod} (h : m.calm t) (g : t.imaged u) : m.imaged u :=
  ⟨by rw [← h.nv]; exact g.svn, by rw [← h.nv]; exact g.revoked, by rw [← h.nv]; exact g.saved,
    fun hp hm => g.upright ((Mod.powered_of_calm h).trans hp) (h.safe.2 hm)⟩
/-- An acceptable image has at most 64 SVN bits (R551). -/
theorem NonVol.svn_le_of_accepts {v : NonVol} {x : Image0} (h : v.accepts x = true) : x.svn ≤ 64 := by
  simp only [NonVol.accepts, Bool.and_eq_true, decide_eq_true_eq] at h
  obtain ⟨⟨⟨-, h⟩, -⟩, -⟩ := h
  exact h
theorem Mod.imaged_bootImage (m : Mod) {x : Image0} (slot unblown : Nat) (hx : x.svn ≤ 64) : m.imaged (m.bootImage x slot unblown) where
  svn := Nat.le_max_left _ _
  revoked := rfl
  saved := rfl
  upright hp hm := by
    refine ⟨Mod.legalSeq_running hp (.inr (.inl rfl)) hm.1, ?_⟩
    show max m.nv.svn (x.svn - unblown) ≤ 64
    have := hm.2
    omega
/-- The slot that is chosen is one of those acceptable. -/
theorem chooseSlot_accepted {a b : Image0} {okA okB : Bool} {s : Nat} (h : chooseSlot a b okA okB = some s) : if s = 0 then okA = true else okB = true := by
  unfold chooseSlot at h
  split at h
  · cases h
  · cases h; rfl
  · cases h; rfl
  · split_ifs at h <;> cases h <;> rfl
theorem Mod.imaged_bootRomStart (m : Mod) (copyA copyB : Bool) (unblown : BitVec 7) : m.imaged (m.bootRomStart copyA copyB unblown) := by
  unfold Mod.bootRomStart
  split_ifs
  · exact m.calm_refl.imaged
  · dsimp only
    split
    next s hs =>
      refine Mod.imaged_calm (Mod.imaged_bootImage m s _ ?_) ⟨rfl, rfl, rfl, rfl⟩
      have hok := chooseSlot_accepted hs
      split_ifs at hok ⊢
      · exact NonVol.svn_le_of_accepts (Bool.and_eq_true_iff.mp hok).1
      · exact NonVol.svn_le_of_accepts (Bool.and_eq_true_iff.mp hok).1
    next => exact Mod.calm.imaged ⟨rfl, rfl, rfl, rfl⟩
theorem Mod.nv_bootRomStart_flash (m : Mod) (copyA copyB : Bool) (unblown : BitVec 7) : (m.bootRomStart copyA copyB unblown).nv.flash = m.nv.flash := by
  unfold Mod.bootRomStart
  split_ifs
  · rfl
  · dsimp only
    split <;> rfl
/-- Bytes written to flash leave the fuses and the saved sets. -/
theorem NonVol.put_fuses (v : NonVol) (a : Nat) (bs : List Byte) :
    (v.put a bs).svn = v.svn ∧ (v.put a bs).revoked = v.revoked ∧ (v.put a bs).saved = v.saved := by
  induction bs generalizing v a with
  | nil => exact ⟨rfl, rfl, rfl⟩
  | cons b bs ih => exact ih _ _
/-- A reply leaves what an image's way into the module may leave. -/
def Reply.imaged (m : Mod) : Reply → Prop
  | .now _ _ t => m.imaged t
  | .later t => m.imaged t

theorem Mod.flashed.put {m x : Mod} (h : m.flashed x) (a : Nat) (bs : List Byte) (q : Fitter) (r : Tab Byte) :
    m.flashed { x with nv := x.nv.put a bs, fit := q, sram := r } := by
  obtain ⟨hsvn, hrevoked, hsaved⟩ := x.nv.put_fuses a bs
  exact ⟨hsvn.trans h.svn, hrevoked.trans h.revoked, hsaved.trans h.saved, h.pwr⟩
theorem Mod.flashed.unput {m x : Mod} (h : m.flashed x) (q : Fitter) (r : Tab Byte) : m.flashed { x with fit := q, sram := r } :=
  ⟨h.svn, h.revoked, h.saved, h.pwr⟩
theorem Mod.flashed.boot {m x : Mod} (h : m.flashed x) {i : Image0} (slot unblown : Nat) (hi : i.svn ≤ 64) : m.imaged (x.bootImage i slot unblown) := by
  obtain ⟨hsvn, hrevoked, hsaved, hupright⟩ := x.imaged_bootImage slot unblown hi
  refine ⟨h.svn ▸ hsvn, hrevoked.trans h.revoked, hsaved.trans h.saved, fun hp hm => hupright ?_ (h.imaged.upright hp hm)⟩
  unfold Mod.powered at *
  rwa [h.pwr]
theorem Mod.imaged_pushFlash (m : Mod) (fails : Bool) (off : Nat) (last : Bool) (data : List Byte) : (m.pushFlash fails off last data).imaged m := by
  unfold Mod.pushFlash
  dsimp only
  have h0 : m.flashed (if off = 0 then { m with
      nv := { m.nv with flash := Tab.clear m.nv.flash (slotBase m.otherSlot) (slotBase m.otherSlot + 0x1000) }, fit := { m.fit with pushed := 0 } } else m) := by
    split_ifs <;> exact ⟨rfl, rfl, rfl, rfl⟩
  dsimp only at h0
  generalize (ite (off = 0) _ m : Mod) = x at h0 ⊢
  split
  · exact h0.imaged
  · split
    · exact h0.imaged
    · cases fails
      · exact (h0.put _ data _ _).imaged
      · exact (h0.unput _ _).imaged
theorem Mod.imaged_pushSram (m : Mod) (fails : Bool) (unblown off : Nat) (last : Bool) (data : List Byte) :
    (m.pushSram fails unblown off last data).imaged m := by
  unfold Mod.pushSram
  dsimp only
  have h0 : m.flashed (if off = 0 then { m with sram := [], fit := { m.fit with pushed := 0 } } else m) := by
    split_ifs <;> exact ⟨rfl, rfl, rfl, rfl⟩
  dsimp only at h0
  generalize (ite (off = 0) _ m : Mod) = x at h0 ⊢
  split
  · exact h0.imaged
  · split
    · exact h0.imaged
    · split
      · exact (h0.unput _ _).imaged
      · split
        · exact (h0.unput _ _).imaged
        · next hx =>
          have hi := NonVol.svn_le_of_accepts (by simpa using hx)
          cases fails
          · exact (h0.put _ _ _ _).boot 2 unblown hi
          · exact (h0.unput _ _).boot 2 unblown hi
theorem Mod.imaged_mbxFwPush (m : Mod) (fails : Bool) (unblown : BitVec 7) : m.imaged (m.mbxFwPush fails unblown) := by
  have reply : ∀ (c : Cmd) (x : Mod), (if x.fit.phase = .recovery then x.pushSram fails unblown.toNat (c.f 0 4) (c.f 4 4 == 1) (c.pay.drop 8)
      else x.pushFlash fails (c.f 0 4) (c.f 4 4 == 1) (c.pay.drop 8)).imaged x := by
    intro c x
    split
    · exact x.imaged_pushSram _ _ _ _ _
    · exact x.imaged_pushFlash _ _ _ _
  rcases m.mbxServe_cases (· == 0x51) (fun c => decide (c.f 4 4 < 2)) fun c m =>
      if m.fit.phase = .recovery then m.pushSram fails unblown.toNat (c.f 0 4) (c.f 4 4 == 1) (c.pay.drop 8)
      else m.pushFlash fails (c.f 0 4) (c.f 4 4 == 1) (c.pay.drop 8) with h | ⟨c, m0, h0, ⟨st, pay, m1, hf, h1⟩ | hf⟩
  · exact h.imaged
  · have := reply c m0
    rw [hf] at this
    exact Mod.imaged_calm (Mod.calm_imaged h0 this) h1
  · have := reply c m0
    rw [hf] at this
    exact Mod.calm_imaged h0 this

/-! ## Every command -/

/-- A unit's, a judged or a host's command reaches neither fuses nor power. -/
theorem State.run_safe {s t : State} {f : Mod → Mod} (h : s.run f = .next t) : s.m.safe t.m :=
  (Mod.calm_of_eq (State.run_frame h).1 (State.run_frame h).2).safe
theorem State.host_safe {s t : State} {f : Mod → Mod} (h : s.host f = .next t) : s.m.safe t.m :=
  (Mod.calm_of_eq (State.host_frame h).1 (State.host_frame h).2).safe
theorem State.edge_safe {s t : State} {f : Mod → Mod} (h : s.edge f = .next t) (hf : s.m.safe (f s.m)) : s.m.safe t.m := by
  cases h; exact hf
theorem State.wide_safe {s t : State} {f : Mod → Mod} (h : s.wide f = .next t) (hf : s.m.powered = true → s.m.safe (f s.m)) : s.m.safe t.m := by
  cases h
  dsimp only
  split_ifs with hp
  · exact hf hp
  · exact s.m.safe_refl
theorem State.wide_of {s t : State} {f : Mod → Mod} {P : Mod → Prop} (h : s.wide f = .next t) (hf : P (f s.m)) (hs : P s.m) : P t.m := by
  cases h
  dsimp only
  split_ifs
  · exact hf
  · exact hs
/-- A command that brings an image in keeps the sequencer sound: without power it does nothing. -/
theorem State.wide_imaged {s t : State} {f : Mod → Mod} (h : s.wide f = .next t) (hf : s.m.imaged (f s.m)) :
    s.m.imaged t.m ∧ (s.m.upright → t.m.upright) := by
  cases h
  dsimp only
  split_ifs with hp
  · exact ⟨hf, hf.upright hp⟩
  · exact ⟨s.m.calm_refl.imaged, id⟩
/-- What commands do to fuses, flash and sequencer: the boot ROM and FW_PUSH bring an image in, APPLY_SWITCH writes saved sets, and every other command
leaves fuses and flash as they are and the sequencer sound. -/
inductive Fused (m t : Mod) : Instr → Prop
  | boot (a b : Bool) (n : BitVec 7) : m.imaged t ∧ (m.upright → t.upright) → t.nv.flash = m.nv.flash → Fused m t (.bootRomStart a b n)
  | push (fails : Bool) (n : BitVec 7) : m.imaged t ∧ (m.upright → t.upright) → Fused m t (.fwPush fails n)
  | switch (fails : Bool) : t.nv = { m.nv with saved := t.nv.saved } → t.pwr = m.pwr → Fused m t (.applySwitch fails)
  | other (i : Instr) : m.safe t → Fused m t i
theorem exec_fused (i : Instr) (s t : State) (h : exec i s = .next t) : Fused s.m t.m i := by
  cases i with
  | bootRomStart a b n =>
    refine .boot a b n (State.wide_imaged (f := (·.bootRomStart a b n)) h (s.m.imaged_bootRomStart a b n)) ?_
    exact State.wide_of (f := (·.bootRomStart a b n)) (P := fun t => t.nv.flash = s.m.nv.flash) h (s.m.nv_bootRomStart_flash a b n) rfl
  | fwPush fails n => exact .push fails n (State.wide_imaged (f := (·.mbxFwPush fails n)) h (s.m.imaged_mbxFwPush fails n))
  | applySwitch fails =>
    exact .switch fails (State.wide_of (f := (·.applySwitch fails)) (P := fun t => t.nv = { s.m.nv with saved := t.nv.saved }) h rfl rfl)
      (State.wide_of (f := (·.applySwitch fails)) (P := fun t => t.pwr = s.m.pwr) h rfl rfl)
  | refreshTempSample p raw => exact .other _ (State.wide_safe (f := (·.tempSample p raw)) h (fun _ => (s.m.calm_tempSample p raw).safe))
  | spoolTraining => exact .other _ (State.wide_safe (f := (·.spoolTraining)) h s.m.safe_spoolTraining)
  | coldWaitEnd => exact .other _ (State.wide_safe (f := (·.coldWaitEnd)) h s.m.safe_coldWaitEnd)
  | converterStart v => exact .other _ (State.edge_safe (f := (·.converterStart v)) h (s.m.calm_converterStart v).safe)
  | converterStop v => exact .other _ (State.edge_safe (f := (·.converterStop v)) h (s.m.safe_converterStop v))
  | enableHigh cool => exact .other _ (State.edge_safe (f := (·.enableHigh cool)) h (s.m.safe_enableHigh cool))
  | enableLow => exact .other _ (State.edge_safe (f := (·.enableLow)) h s.m.safe_enableLow)
  | railGroupGood => exact .other _ (State.edge_safe (f := (·.railGroupGood)) h s.m.safe_railGroupGood)
  | railGoodTimeout r => exact .other _ (State.edge_safe (f := (·.railGoodTimeout r)) h (s.m.safe_railGoodTimeout r))
  | railFault r => exact .other _ (State.edge_safe (f := (·.railFault r)) h (s.m.safe_railFault r))
  | thermalTrip p raw => exact .other _ (State.edge_safe (f := (·.thermalTrip p raw)) h (s.m.safe_thermalTrip p raw))
  | inputCurrentLimit v a v0 v1 v2 v3 => exact .other _ (State.edge_safe (f := (·.inputLimit v a v0 v1 v2 v3)) h (s.m.calm_inputLimit v a v0 v1 v2 v3).safe)
  | railMoveStep p => exact .other _ (State.edge_safe (f := (·.railMove p)) h (s.m.calm_railMove p).safe)
  | powerCapCheck w a => exact .other _ (State.edge_safe (f := (·.capCheck w a)) h (s.m.calm_capCheck w a).safe)
  | thermalStep p raw => exact .other _ (State.edge_safe (f := (·.thermalStep p raw)) h (s.m.calm_thermalStep p raw).safe)
  | moduleReset => exact .other _ (State.edge_safe (f := (·.dueReset)) h s.m.safe_dueReset)
  | modrst => exact .other _ (State.edge_safe (f := (·.sbModrst)) h s.m.safe_sbModrst)
  | dynamicAddressAssign a => exact .other _ (State.edge_safe (f := (·.dynAddr a)) h (s.m.calm_dynAddr a).safe)
  | i3cPrivateWrite d => exact .other _ (State.edge_safe (f := (·.i3cWrite d)) h (s.m.safe_i3cWrite d))
  | sbPowerRead n => exact .other _ (State.edge_safe (f := (·.sbPowerRead n)) h (s.m.calm_sbPowerRead n).safe)
  | heartbeat => exact .other _ (State.edge_safe (f := (·.heartbeat)) h s.m.calm_heartbeat.safe)
  | standbyGood => exact .other _ (State.edge_safe (f := (·.standbyGood)) h s.m.safe_standbyGood)
  | coreRailCollapse p v => exact .other _ (State.edge_safe (f := (·.railCollapse p v)) h (s.m.calm_railCollapse p v).safe)
  | _ => first | exact .other _ (State.run_safe h) | exact .other _ (State.host_safe h)
/-- Settles O59: what an image or an apply writes is all that changes of fuses and flash. -/
theorem fusesAndFlash : Obligations.FusesAndFlash := by
  intro i s t h
  cases exec_fused i s t h with
  | boot a b n hb hflash =>
    obtain ⟨hi, -⟩ := hb
    exact ⟨hi.svn, hi.revoked, fun hn => absurd rfl (hn a b n), fun _ => hflash, fun _ => hi.saved⟩
  | push fails n hp =>
    obtain ⟨hi, -⟩ := hp
    exact ⟨hi.svn, hi.revoked, fun _ hn => absurd rfl (hn fails n), fun hn => absurd rfl (hn fails n), fun _ => hi.saved⟩
  | switch fails hnv hpwr =>
    rw [hnv]
    exact ⟨le_refl _, rfl, fun _ _ => rfl, fun _ => rfl, fun hn => absurd rfl (hn fails)⟩
  | other _ hs =>
    rw [hs.1]
    exact ⟨le_refl _, rfl, fun _ _ => rfl, fun _ => rfl, fun _ => rfl⟩
/-- Settles O58: each command keeps the sequencer and the fuses sound. -/
theorem stepKeepsSound : Obligations.StepKeepsSound := by
  intro s t hs h
  rw [State.sound_iff] at hs ⊢
  unfold step at h
  split at h
  next => cases h; exact hs
  next c rest _ =>
    cases exec_fused c { s with pending := rest } t h with
    | boot a b n hb _ => exact hb.2 hs
    | push fails n hp => exact hp.2 hs
    | switch fails hnv hpwr =>
      unfold Mod.upright
      rw [hnv, hpwr]
      exact hs
    | other _ ho => exact ho.2 hs

end Sys2Proof.Machine
end

section
/-! Issue and retirement of an instruction that changes its core's active bank, however control goes on after it (R220, R240, R245, R246, R254). -/

namespace Sys2Proof

/-- The later of two writes of one entry stands. -/
theorem Tab.put_put_same {α : Type} (t : Tab α) (a : Nat) (v w : α) : Tab.put (Tab.put t a v) a w = Tab.put t a w := by
  induction t with
  | nil => simp [Tab.put]
  | cons p t ih =>
    obtain ⟨k, x⟩ := p
    rcases lt_trichotomy k a with h | h | h
    · simp [Tab.put, h.ne, h.not_gt, ih]
    · simp [Tab.put, h]
    · simp [Tab.put, h.ne', h]

end Sys2Proof

namespace Sys2Proof.Machine

/-! ## What an instruction leaves alone -/

/-- Beside core `c` only event counters and the count of free values have changed. -/
structure Mod.besides (m t : Mod) (c : Nat) : Prop where
  rest : { t with cores := m.cores, bar0 := m.bar0, freeCtr := m.freeCtr } = m
  cores : ∀ d, d ≠ c → t.core d = m.core d
  regs : ∀ a, a < bMON → t.rd a = m.rd a

theorem Mod.besides_refl (m : Mod) (c : Nat) : m.besides m c := ⟨rfl, fun _ _ => rfl, fun _ _ => rfl⟩
theorem Mod.besides_trans {m t u : Mod} {c : Nat} (h : m.besides t c) (g : t.besides u c) : m.besides u c where
  rest := calc ({ u with cores := m.cores, bar0 := m.bar0, freeCtr := m.freeCtr } : Mod) =
        { ({ u with cores := t.cores, bar0 := t.bar0, freeCtr := t.freeCtr } : Mod) with cores := m.cores, bar0 := m.bar0, freeCtr := m.freeCtr } := rfl
      _ = { t with cores := m.cores, bar0 := m.bar0, freeCtr := m.freeCtr } := by rw [g.rest]
      _ = m := h.rest
  cores d hd := (g.cores d hd).trans (h.cores d hd)
  regs a ha := (g.regs a ha).trans (h.regs a ha)
theorem Mod.besides_setCore (m : Mod) (c : Nat) (k : Core) : m.besides (m.setCore c k) c :=
  ⟨rfl, fun _ hd => Mod.core_setCore_ne m k hd, fun _ _ => rfl⟩
theorem Mod.besides_updCore (m : Mod) (c : Nat) (f : Core → Core) : m.besides (m.updCore c f) c := m.besides_setCore c _
theorem Mod.besides_updBank (m : Mod) (c : Nat) (f : Bank → Bank) : m.besides (m.updBank c f) c := m.besides_setCore c _
theorem Mod.besides_freeCtr (m : Mod) (c n : Nat) : m.besides { m with freeCtr := n } c := ⟨rfl, fun _ _ => rfl, fun _ _ => rfl⟩
theorem Mod.onlyBar.besides {m t : Mod} (c : Nat) (h : m.onlyBar t) (hr : ∀ a, a < bMON → t.rd a = m.rd a) : m.besides t c := by
  have hc : t.cores = m.cores := (Mod.onlyBar_fields h).1
  obtain ⟨h⟩ := h
  have hn : t.freeCtr = m.freeCtr := by rw [← h]
  refine ⟨?_, fun d _ => ?_, hr⟩
  · rw [← hc, ← hn]; exact h
  · simp only [Mod.core, hc]
theorem Mod.besides_evCore (m : Mod) (c d code n : Nat) : m.besides (m.evCore d code n) c :=
  (Mod.onlyBar_evCore m d code n).besides c fun a ha => Mod.rd_evCore m d code n a ha
/-- What an instruction's core and its event counters do not hold is apart from it. -/
theorem Mod.besides.apart {m t : Mod} {c : CoreId} (h : m.besides t c.val) : m.apart t c := by
  obtain ⟨hrest, hcores, hregs⟩ := h
  have e : ∀ {α : Type} (f : Mod → α), (∀ x k b n, f { x with cores := k, bar0 := b, freeCtr := n } = f x) → f t = f m :=
    fun f hf => by rw [← hf t m.cores m.bar0 m.freeCtr, hrest]
  refine ⟨hcores, fun a => ?_, fun a => ?_, e (·.poison) fun _ _ _ _ => rfl, e (·.parts) fun _ _ _ _ => rfl, e (·.nv) fun _ _ _ _ => rfl,
    e (·.pwr) fun _ _ _ _ => rfl, hregs⟩
  · exact congrArg (Memory.byte · a) (e (·.mem) fun _ _ _ _ => rfl)
  · exact congrArg (fun x : Tab Bool => Tab.get false x (a / 16)) (e (·.tags) fun _ _ _ _ => rfl)

/-! ## Retirement -/

/-- A core to which a taken transfer has brought the address and the c0 in force. -/
def Core.landAt (k : Core) (t : W64) : Core := { k with bank := { k.bank with pc := t }, fetchCap := k.bank.cap 0 }
/-- The first part of retirement: where control goes. -/
def Mod.flowed (m : Mod) (c : Nat) : Flow → Ex Mod
  | .next => m.stepPc c (m.core c).bank.pc.toNat
  | .jump t ends =>
    (if ends then m.leaveLoops c (m.core c).bank.pc.toNat t.toNat ((m.core c).bank.rdepth + 1) else .ok m).bind fun m1 => .ok (m1.updCore c (·.landAt t))
  | .goto t => .ok (m.updBank c fun b => { b with pc := t })
  | .again => .ok m
  | .set => .ok m
/-- A core whose instruction has retired: its stitches counted, nothing awaited. -/
def Core.retired (k : Core) (st : Nat) (resumed : Bool) : Core :=
  { k with stitches := k.stitches + st, wait := .none, rbuf := [], mid := false, resumed := resumed }

/-- The last part of retirement: a refused posted write is reported, and the core counts. -/
def Mod.retireEnd (m : Mod) (c : Nat) (pc st n : Nat) (resumed : Bool) : Mod :=
  let m3 := m.updCore c fun k0 =>
    let k : Core := if k0.refused.isEmpty then k0
      else { (k0.refused.foldl (fun (k : Core) r => k.setCreg r.1 r.2) k0).addPend 2 with refused := [], late := some (w64 pc) }
    k.retired st resumed
  let m4 := if (m3.core c).ctlNew.isEmpty then m3 else { m3 with freeCtr := m3.freeCtr + 1 }
  (m4.evCore c 0x01 st).evCore c 0x02 n

/-- The second part of retirement: the record that was pending when the instruction issued is applied. -/
def Mod.loadApplied (m : Mod) (c : Nat) (old : Option LoadRec) : Flow → Ex Mod
  | .next | .jump .. | .goto _ => m.applyOld c old
  | .again => .ok (m.updBank c fun b => { b with load := old })
  | .set => .ok m
/-- Retirement by its parts. -/
theorem Mod.retire_eq (m : Mod) (c : Nat) (old : Option LoadRec) (fl : Flow) (st : Nat) :
    m.retire c old fl st = (do
      let m1 ← m.flowed c fl
      let m2 ← m1.loadApplied c old fl
      .ok (m2.retireEnd c (m.core c).bank.pc.toNat st (if fl = .again then 0 else 1) (decide (fl = .set)))) := by
  unfold Mod.retire
  cases fl with
  | jump t ends =>
    cases ends with
    | false => rfl
    | true =>
      simp only [Mod.flowed, if_true]
      cases m.leaveLoops c (m.core c).bank.pc.toNat t.toNat ((m.core c).bank.rdepth + 1) <;> rfl
  | _ => rfl
/-- Where no refused write is to be reported the end of retirement counts. -/
theorem Mod.retireEnd_quiet (m : Mod) (c : CoreId) (pc st n : Nat) (resumed : Bool) (hr : (m.core c.val).refused = []) :
    (m.retireEnd c.val pc st n resumed).core c.val = (m.core c.val).retired st resumed ∧ m.besides (m.retireEnd c.val pc st n resumed) c.val := by
  have e : (m.updCore c.val fun k0 =>
      (if k0.refused.isEmpty then k0 else { (k0.refused.foldl (fun (k : Core) r => k.setCreg r.1 r.2) k0).addPend 2 with refused := [], late := some (w64 pc) } :
        Core).retired st resumed) = m.updCore c.val (·.retired st resumed) := by
    simp only [Mod.updCore, hr, List.isEmpty_nil, if_true]
  unfold Mod.retireEnd
  dsimp only at e ⊢
  rw [e]
  have h3 := m.besides_updCore c.val (·.retired st resumed)
  have c3 := m.core_updCore_self c.val (·.retired st resumed)
  generalize m.updCore c.val (·.retired st resumed) = m3 at h3 c3 ⊢
  refine ⟨?_, Mod.besides_trans (Mod.besides_trans ?_ (Mod.besides_evCore _ c.val _ _ _)) (Mod.besides_evCore _ c.val _ _ _)⟩
  · rw [Mod.core_evCore, Mod.core_evCore]; split <;> exact c3
  · split
    · exact h3
    · exact Mod.besides_trans h3 (m3.besides_freeCtr _ _)
/-- Retirement without a pending load and without a refused write to report: control goes where the flow says, and the rest is counts. -/
theorem Mod.retire_flowed {m m1 : Mod} {c : CoreId} {fl : Flow} (st : Nat) (hload : (m1.core c.val).bank.load = none) (hr : (m1.core c.val).refused = [])
    (h : m.flowed c.val fl = .ok m1) :
    ∃ t, m.retire c.val none fl st = .ok t ∧ t.core c.val = (m1.core c.val).retired st (decide (fl = .set)) ∧ m1.besides t c.val := by
  have hend : ∀ m2 : Mod, m2.core c.val = m1.core c.val → m1.besides m2 c.val → ∀ pc n resumed,
      (m2.retireEnd c.val pc st n resumed).core c.val = (m1.core c.val).retired st resumed ∧ m1.besides (m2.retireEnd c.val pc st n resumed) c.val := by
    intro m2 hc hb pc n resumed
    obtain ⟨h1, h2⟩ := m2.retireEnd_quiet c pc st n resumed (by rw [hc]; exact hr)
    exact ⟨by rw [h1, hc], Mod.besides_trans hb h2⟩
  have hagain : (m1.updBank c.val fun b => { b with load := none }).core c.val = m1.core c.val := by
    rw [Mod.core_updBank_self, ← hload]
  obtain ⟨m2, happlied, hcore, hbesides⟩ : ∃ m2, m1.loadApplied c.val none fl = .ok m2 ∧ m2.core c.val = m1.core c.val ∧ m1.besides m2 c.val := by
    cases fl
    case again => exact ⟨_, rfl, hagain, m1.besides_updBank c.val _⟩
    all_goals exact ⟨m1, rfl, rfl, m1.besides_refl _⟩
  refine ⟨m2.retireEnd c.val (m.core c.val).bank.pc.toNat st (if fl = .again then 0 else 1) (decide (fl = .set)), ?_, hend m2 hcore hbesides _ _ _⟩
  rw [Mod.retire_eq, h]
  simp only [happlied, bind, Except.bind]

/-! ## Issue -/

/-- Core `c` is about to issue: power is good, nothing holds it back, its fetch passes, no load is pending, no refused write is to be reported, no error
waits in an array. -/
structure Mod.atIssue (m : Mod) (c : CoreId) : Prop where
  powered : m.powered = true
  can : m.canIssue c.val = true
  fetches : ∃ m1, m.fetch c.val = .ok m1
  load : (m.core c.val).bank.load = none
  refused : (m.core c.val).refused = []
  upsets : m.coh.upsets = []

theorem Except.exists_ok_of_isOk {ε α : Type} {x : Except ε α} (h : x.isOk = true) : ∃ a, x = .ok a := by
  cases x with
  | ok a => exact ⟨a, rfl⟩
  | error e => cases h
theorem Mod.standsReady.atIssue {m : Mod} {c : CoreId} (h : m.standsReady c) : m.atIssue c := by
  obtain ⟨hpow, hcan, hfetch, hload, -, href, hups⟩ := h
  exact ⟨hpow, hcan, Except.exists_ok_of_isOk hfetch, hload, href, hups⟩
/-- The module as an instruction's body finds it. -/
theorem Mod.atIssue.begun {m m1 : Mod} {c : CoreId} (h : m.atIssue c) (hf : m.fetch c.val = .ok m1) :
    (m1.updCore c.val Core.beginBody).core c.val = { (m.core c.val).beginBody with mem := (m1.core c.val).mem } ∧
      m.apart (m1.updCore c.val Core.beginBody) c ∧ (m1.updCore c.val Core.beginBody).coh = m.coh := by
  obtain ⟨hcopies, hapart, hcoh⟩ := Mod.fetch_keeps h.upsets hf
  have hcore : m1.core c.val = { m.core c.val with mem := (m1.core c.val).mem } := by rw [← hcopies]
  refine ⟨?_, Mod.apart_trans hapart (Mod.apart_setCore m1 c _), hcoh⟩
  rw [Mod.core_updCore_self]
  conv_lhs => rw [hcore]
  rfl
/-- An instruction whose fetch and body succeed and that retires has come about. -/
theorem Mod.issue_ok {m m1 m2 t : Mod} {c : CoreId} {major func st : Nat} {fl : Flow} {body : Mod → Body} (hi : m.canIssue c.val = true)
    (hf : m.fetch c.val = .ok m1) (hm : c.val = 256 → fitterMajor major = true) (hb : body (m1.updCore c.val Core.beginBody) = .ok (m2, fl, st))
    (hr : (m2.updCore c.val fun k => k.stampUndo (m.core c.val).bank.load).retire c.val (m.core c.val).bank.load fl st = .ok t) :
    m.issue c.val major func body = t := by
  have hm' : ¬ (c.val = 256 ∧ (!fitterMajor major) = true) := fun h => by simp [hm h.1] at h
  unfold Mod.issue
  simp only [hi, hf, hb, hr, bind, Except.bind, Bool.not_true, Bool.false_eq_true, if_false, if_neg hm']
/-- An instruction stops where its fetch passes and its body stops. -/
theorem Mod.issue_stops {m m1 : Mod} {c : CoreId} {major func : Nat} {e : Stop} {body : Mod → Body} (hi : m.canIssue c.val = true)
    (hf : m.fetch c.val = .ok m1) (hm : c.val = 256 → fitterMajor major = true) (hb : body (m1.updCore c.val Core.beginBody) = .error e) :
    m.issue c.val major func body = m.stop c.val e := by
  have hm' : ¬ (c.val = 256 ∧ (!fitterMajor major) = true) := fun h => by simp [hm h.1] at h
  unfold Mod.issue
  simp only [hi, hf, hb, bind, Except.bind, Bool.not_true, Bool.false_eq_true, if_false, if_neg hm']
/-- Control flows from a module so that its core has bank `b` and a cap for fetch of which `Q` holds, and nothing else is changed. -/
def Mod.flowsTo (m : Mod) (c : Nat) (fl : Flow) (b : Bank) (Q : Cap → Prop) : Prop :=
  ∃ t q, m.flowed c fl = .ok t ∧ t.core c = { m.core c with bank := b, fetchCap := q } ∧ Q q ∧ m.besides t c
/-- An instruction whose body changes the active bank of its core by `g`, after which control flows so that the bank is what `F` says: it does just
that. -/
theorem completes_issue {i : Instr} {s : State} {c : CoreId} {major func st : Nat} {fl : Flow} {body : Mod → Body} {g F : Bank → Bank}
    {Q : Cap → Prop} (hi : exec i s = s.run fun m => m.issue c.val major func body) (hr : s.m.atIssue c) (hm : fitterMajor major = true)
    (hb : ∀ m : Mod, (m.core c).bank = (s.m.core c).bank → (m.core c).poison = (s.m.core c).poison →
      ∃ t, body m = .ok (t, fl, st) ∧ m.rebanked t c g)
    (hfl : ∀ m : Mod, (m.core c).bank = g (s.m.core c).bank → m.flowsTo c.val fl (F (s.m.core c).bank) Q)
    (hl : (F (s.m.core c).bank).load = none) :
    completes i s fun t => s.m.went t c F ∧ Q (t.core c.val).fetchCap := by
  obtain ⟨m1, hf⟩ := hr.fetches
  obtain ⟨hbegun, hapart, -⟩ := hr.begun hf
  have hbank : (s.m.core c.val).beginBody.bank = (s.m.core c.val).bank := Core.beginBody_bank hr.load
  obtain ⟨m2, hm2, hm2c, hm2a⟩ := hb (m1.updCore c.val Core.beginBody) (by rw [hbegun]; exact hbank) (by rw [hbegun]; rfl)
  rw [hbegun] at hm2c
  obtain ⟨m3, q, hm3, hm3c, hq, hm3b⟩ := hfl (m2.updCore c.val fun k => k.stampUndo none) (by
    rw [Mod.core_updCore_self, hm2c]; exact congrArg g hbank)
  rw [Mod.core_updCore_self, hm2c] at hm3c
  obtain ⟨t, ht, htc, htb⟩ := Mod.retire_flowed st (by rw [hm3c]; exact hl) (by rw [hm3c]; exact hr.refused) hm3
  have hissue : s.m.issue c.val major func body = t :=
    Mod.issue_ok hr.can hf (fun _ => hm) hm2 (by rw [hr.load]; exact ht)
  have ha : s.m.apart t c := Mod.apart_trans (Mod.apart_trans hapart hm2a)
    (Mod.apart_trans (Mod.apart_setCore m2 c _) (Mod.apart_trans hm3b.apart htb.apart))
  refine completes_run hi hr.powered ?_
  rw [hissue, Mod.apart_within ha]
  rw [hm3c] at htc
  have hplain : (t.core c.val).vec.plain = (s.m.core c.val).vec.plain := by
    rw [htc]; exact (Core.plain_stampUndo _ _).trans (Core.plain_beginBody _)
  refine ⟨⟨by rw [htc]; rfl, by rw [htc]; rfl, ?_, ha⟩, by rw [htc]; exact hq⟩
  exact ⟨by rw [htc]; rfl, by rw [htc]; rfl, by rw [htc]; rfl, hplain, by rw [htc]; rfl, by rw [htc]; rfl, by rw [htc]; rfl, by rw [htc]; rfl,
    by rw [htc]; rfl, by rw [htc]; rfl⟩

/-! ## Where control goes -/

/-- A change of the active bank that is where control goes. -/
theorem Mod.flowsTo_updBank {m : Mod} {c : Nat} {fl : Flow} {f : Bank → Bank} (h : m.flowed c fl = .ok (m.updBank c f)) :
    m.flowsTo c fl (f (m.core c).bank) fun _ => True :=
  ⟨m.updBank c f, (m.core c).fetchCap, h, Mod.core_updBank_self m c f, trivial, m.besides_updBank c f⟩
theorem Mod.flowsTo_next {m : Mod} {c : Nat} (hl : ∀ l, (m.core c).bank.loop = some l → (m.core c).bank.pc.toNat ≠ l.endAddr) :
    m.flowsTo c .next { (m.core c).bank with pc := (m.core c).bank.pc + 4 } fun _ => True := by
  rw [← w64_toNat_add_four]
  refine Mod.flowsTo_updBank (f := fun b => { b with pc := w64 ((m.core c).bank.pc.toNat + 4) }) ?_
  rw [Mod.flowed, Mod.stepPc]
  cases h : (m.core c).bank.loop with
  | none => rfl
  | some l => dsimp only; rw [if_neg (hl l h)]
/-- At the last word of a loop's body, with iterations left. -/
theorem Mod.flowsTo_next_again {m : Mod} {c : Nat} {l : LoopSt} (hl : (m.core c).bank.loop = some l) (hend : (m.core c).bank.pc.toNat = l.endAddr)
    (hcnt : l.cnt ≠ 1) : m.flowsTo c .next { (m.core c).bank with pc := w64 l.start, loop := some { l with cnt := l.cnt - 1, done := l.done + 1 } } fun _ => True := by
  refine Mod.flowsTo_updBank (f := fun b => { b with pc := w64 l.start, loop := some { l with cnt := l.cnt - 1, done := l.done + 1 } }) ?_
  rw [Mod.flowed, Mod.stepPc, hl]
  dsimp only
  rw [if_pos hend, if_neg (show ¬ l.cnt = 1#64 from hcnt)]
/-- A loop that had saved no outer one ends. -/
theorem Mod.loopEnd_unsaved {m : Mod} {c : Nat} {l : LoopSt} (hl : (m.core c).bank.loop = some l) (hs : l.saved = false) :
    m.loopEnd c = .ok (m.updBank c fun b => { b with loop := none }) := by
  simp only [Mod.loopEnd, hl, hs, Bool.not_false, if_true]
theorem Mod.updBank_updBank (m : Mod) (c : Nat) (f g : Bank → Bank) : (m.updBank c f).updBank c g = m.updBank c (g ∘ f) := by
  simp only [Mod.updBank, Mod.updCore, Mod.core_setCore_self]
  simp only [Mod.setCore, Tab.put_put_same, Function.comp_apply]
/-- At the last word of a loop's body, in the last iteration. -/
theorem Mod.flowsTo_next_ends {m : Mod} {c : Nat} {l : LoopSt} (hl : (m.core c).bank.loop = some l) (hs : l.saved = false)
    (hend : (m.core c).bank.pc.toNat = l.endAddr) (hcnt : l.cnt = 1) :
    m.flowsTo c .next { (m.core c).bank with pc := (m.core c).bank.pc + 4, loop := none } fun _ => True := by
  rw [← w64_toNat_add_four]
  refine Mod.flowsTo_updBank (f := (fun b => { b with pc := w64 ((m.core c).bank.pc.toNat + 4) }) ∘ fun b => { b with loop := none }) ?_
  rw [Mod.flowed, Mod.stepPc, hl]
  dsimp only
  rw [if_pos hend, if_pos (show l.cnt = 1#64 from hcnt), Mod.loopEnd_unsaved hl hs]
  exact congrArg Except.ok (m.updBank_updBank c _ _)
theorem Mod.flowsTo_goto (m : Mod) (c : Nat) (t : W64) : m.flowsTo c (.goto t) { (m.core c).bank with pc := t } fun _ => True :=
  Mod.flowsTo_updBank (f := fun b => { b with pc := t }) rfl

theorem Mod.flowsTo_jump {m m1 : Mod} {c : Nat} {t : W64} {ends : Bool} {b : Bank}
    (hleave : (if ends then m.leaveLoops c (m.core c).bank.pc.toNat t.toNat ((m.core c).bank.rdepth + 1) else .ok m) = .ok m1)
    (hcore : m1.core c = { m.core c with bank := b }) (hb : m.besides m1 c) : m.flowsTo c (.jump t ends) { b with pc := t } (· = b.cap 0) := by
  refine ⟨m1.updCore c (·.landAt t), b.cap 0, ?_, ?_, rfl, Mod.besides_trans hb (m1.besides_updCore c _)⟩
  · rw [Mod.flowed, hleave]; rfl
  · rw [Mod.core_updCore_self, hcore]; rfl
/-- A taken transfer where no loop runs. -/
theorem Mod.flowsTo_jump_free {m : Mod} {c : Nat} (t : W64) (ends : Bool) (hl : (m.core c).bank.loop = none) :
    m.flowsTo c (.jump t ends) { (m.core c).bank with pc := t } (· = (m.core c).bank.cap 0) := by
  refine Mod.flowsTo_jump (m1 := m) ?_ rfl (m.besides_refl c)
  cases ends with
  | false => rfl
  | true => rw [if_pos rfl, Mod.leaveLoops, hl]
/-- A taken branch out of the body of a loop that had saved no outer one. -/
theorem Mod.flowsTo_jump_leave {m : Mod} {c : Nat} {t : W64} {l : LoopSt} (hl : (m.core c).bank.loop = some l) (hs : l.saved = false)
    (hin : l.inside (m.core c).bank.pc.toNat = true) (hout : l.inside t.toNat = false) :
    m.flowsTo c (.jump t true) { (m.core c).bank with pc := t, loop := none } (· = (m.core c).bank.cap 0) := by
  refine Mod.flowsTo_jump (m1 := m.updBank c fun b => { b with loop := none }) ?_ (Mod.core_updBank_self m c _) (m.besides_updBank c _)
  have hnone : ((m.updBank c fun b => { b with loop := none }).core c).bank.loop = none := by rw [Mod.core_updBank_self]
  rw [if_pos rfl, Mod.leaveLoops, hl]
  dsimp only
  rw [if_pos ⟨hin, by rw [hout]; rfl⟩, Mod.loopEnd_unsaved hl hs]
  show (m.updBank c fun b => { b with loop := none }).leaveLoops c _ _ _ = _
  cases (m.core c).bank.rdepth with
  | zero => rfl
  | succ n => rw [Mod.leaveLoops, hnone]

end Sys2Proof.Machine
end

section
/-! The stack functions of STK (R235), and control transfer with hardware loops (R227, R240, R241, R245, R246). -/

namespace Sys2Proof.Machine

/-! ## Rules of the two stacks where their caches hold what is asked -/

theorem Mod.holdsOps.top_prefix {m : Mod} {c : CoreId} {top : List W64} {room : Nat} (h : m.holdsOps c top room) : top <+: (m.core c).bank.ops :=
  List.isPrefixOf_iff_prefix.mp h.1
/-- What holds a top holds the upper part of it. -/
theorem Mod.holdsOps.take {m : Mod} {c : CoreId} {top : List W64} {room : Nat} (h : m.holdsOps c top room) (k : Nat) : m.holdsOps c (top.take k) room := by
  have hp := h.top_prefix
  obtain ⟨-, hl, hd, hq⟩ := h
  exact ⟨List.isPrefixOf_iff_prefix.mpr ((List.take_prefix k top).trans hp), hl, (List.length_take_le' k top).trans hd, hq⟩
theorem Mod.peekAt_held {m : Mod} {c : CoreId} {top : List W64} {room : Nat} (h : m.holdsOps c top room) (reads : List Nat) :
    m.peekAt c.val top.length reads = .ok (top, m) := by
  have hp := h.top_prefix
  have ht : (m.core c).bank.ops.take top.length = top := (List.prefix_iff_eq_take.mp hp).symm
  obtain ⟨-, -, -, hq⟩ := h
  simp only [Mod.peekAt, Mod.fillTo_held (s := opStk) hp.length_le, bind, Except.bind, hq, List.any_nil, Bool.false_eq_true, if_false, ht]
theorem Mod.repl_part {m : Mod} {c : CoreId} {top new : List W64} {room k : Nat} (h : m.holdsOps c top room) (hk : k ≤ top.length)
    (hn : new.length ≤ k + room) : m.repl c.val k new = .ok (m.updBank c.val (·.replaced k new)) := by
  have ht : (top.take k).length = k := List.length_take_of_le hk
  have := Mod.repl_held (new := new) (h.take k) (by rw [ht]; exact hn)
  rwa [ht] at this
theorem Mod.push_held {m : Mod} {c : CoreId} (h : m.holdsOps c [] 1) (v : W64) : m.push c.val v = .ok (m.updBank c.val (·.replaced 0 [v])) :=
  Mod.repl_held h (by simp)
theorem Mod.pop_held {m : Mod} {c : CoreId} {top : List W64} {room : Nat} (h : m.holdsOps c top room) :
    m.pop c.val top.length = .ok (top, m.updBank c.val (·.replaced top.length [])) := by
  simp only [Mod.pop, Mod.peek_held h, Mod.repl_held (new := []) h (by simp), bind, Except.bind]
@[simp] theorem Bank.cache_retStk (b : Bank) : b.cache retStk = b.rets := rfl
theorem Mod.rpush_held {m : Mod} {c : CoreId} (h : m.holdsRets c [] 1) (v : W64) :
    m.rpush c.val v = .ok (m.updBank c.val fun b => { b with rets := v :: b.rets }) := by
  obtain ⟨-, hroom⟩ := h
  refine Mod.spillTo_fits ?_ 32
  rw [Mod.core_updBank_self]
  simpa using hroom
theorem Mod.rpeek_held {m : Mod} {c : CoreId} {x : W64} {room : Nat} (h : m.holdsRets c [x] room) : m.rpeek c.val = .ok (x, m) := by
  obtain ⟨r, hr⟩ := List.isPrefixOf_iff_prefix.mp h.1
  have hfill : m.fillTo c.val retStk 1 1 = .ok m := Mod.fillTo_held (by rw [Bank.cache_retStk, ← hr]; simp) 1
  simp only [Mod.rpeek, hfill, bind, Except.bind, ← hr, List.singleton_append, List.headD_cons]
theorem Mod.rpop_held {m : Mod} {c : CoreId} {x : W64} {room : Nat} (h : m.holdsRets c [x] room) :
    m.rpop c.val = .ok (x, m.updBank c.val fun b => { b with rets := b.rets.drop 1 }) := by
  simp only [Mod.rpop, Mod.rpeek_held h, bind, Except.bind]
theorem Mod.holdsRets_congr {m t : Mod} {c : CoreId} {top : List W64} {room : Nat} (hb : (t.core c).bank.rets = (m.core c).bank.rets)
    (h : m.holdsRets c top room) : t.holdsRets c top room := by
  unfold Mod.holdsRets at *; rw [hb]; exact h
theorem loopCheck_free {b : Bank} (h : b.loop = none) (n major func : Nat) : loopCheck b n major func = .ok () := by rw [loopCheck, h]

/-- Replacing an upper part of a held top leaves what replacing all of it with the rest kept does. -/
theorem Bank.took_part {b : Bank} {top new : List W64} {k : Nat} (hp : top <+: b.ops) (hd : top.length ≤ b.depth) (hk : k ≤ top.length) :
    b.took k new = b.took top.length (new ++ top.drop k) := by
  obtain ⟨r, hr⟩ := hp
  have hops : top.drop k ++ b.ops.drop top.length = b.ops.drop k := by
    rw [← hr, List.drop_left, List.drop_append_of_le_length hk]
  have hdepth : b.depth - k + new.length = b.depth - top.length + (new ++ top.drop k).length := by
    rw [List.length_append, List.length_drop]; omega
  simp only [Bank.took, List.append_assoc, hops, hdepth]

/-- What an instruction did depends on its function at the active bank alone. -/
theorem Mod.went_congr {m t : Mod} {c : CoreId} {f g : Bank → Bank} (h : f (m.core c).bank = g (m.core c).bank) (hw : m.went t c f) : m.went t c g := by
  obtain ⟨hbank, hsb, hkeeps, hapart⟩ := hw
  exact ⟨hbank.trans h, hsb, hkeeps, hapart⟩
theorem completes.mono {i : Instr} {s : State} {P Q : Mod → Prop} (h : completes i s P) (hpq : ∀ t, P t → Q t) : completes i s Q := by
  obtain ⟨t, ht, hq, hp⟩ := h
  exact ⟨t, ht, hq, hpq _ hp⟩
/-- `completes_issue_next` where the change of the bank is said by its value at the active bank. -/
theorem completes_issue_went {i : Instr} {s : State} {c : CoreId} {major func st : Nat} {body : Mod → Body} {g F : Bank → Bank}
    (hi : exec i s = s.run fun m => m.issue c.val major func body) (hr : s.m.standsReady c) (hm : fitterMajor major = true)
    (hb : ∀ m : Mod, (m.core c).bank = (s.m.core c).bank → (m.core c).poison = (s.m.core c).poison → body m = .ok (m.updBank c.val g, .next, st))
    (hl : (g (s.m.core c).bank).loop = none) (hF : { g (s.m.core c).bank with pc := (g (s.m.core c).bank).pc + 4 } = F (s.m.core c).bank) :
    completes i s fun t => s.m.went t c F :=
  (completes_issue_next hi hr hm (fun m hbank hpoison => ⟨_, hb m hbank hpoison, Mod.rebanked_updBank m c g⟩) hl).mono
    fun _ => Mod.went_congr hF

/-- `completes_issue` where nothing is said of the cap for fetch. -/
theorem completes_issue_flow {i : Instr} {s : State} {c : CoreId} {major func : Nat} (st : Nat) (fl : Flow) {body : Mod → Body} {F : Bank → Bank}
    (g : Bank → Bank) (Q : Cap → Prop)
    (hi : exec i s = s.run fun m => m.issue c.val major func body) (hr : s.m.atIssue c) (hm : fitterMajor major = true)
    (hb : ∀ m : Mod, (m.core c).bank = (s.m.core c).bank → (m.core c).poison = (s.m.core c).poison →
      ∃ t, body m = .ok (t, fl, st) ∧ m.rebanked t c g)
    (hfl : ∀ m : Mod, (m.core c).bank = g (s.m.core c).bank → m.flowsTo c.val fl (F (s.m.core c).bank) Q)
    (hl : (F (s.m.core c).bank).load = none) : completes i s fun t => s.m.went t c F :=
  (completes_issue hi hr hm hb hfl hl).mono fun _ ht => ht.1

/-! ## STK -/

theorem stkLegal {f : BitVec 26} (h10 : fld f 25 10 = 0) (h6 : fld f 5 0 = 7 ∨ fld f 9 6 = 0) (hfn : fld f 5 0 ≤ 0x11) :
    legal (fld f 25 10 == 0 && (fld f 5 0 == 7 || fld f 9 6 == 0) && decide (fld f 5 0 ≤ 0x11)) 0x05 (fld f 5 0) = .ok () := by
  rw [show (fld f 25 10 == 0 && (fld f 5 0 == 7 || fld f 9 6 == 0) && decide (fld f 5 0 ≤ 0x11)) = true by simp [h10, h6, hfn]]
  rfl
/-- A function on the operand stack alone, its entries held. -/
theorem completes_stkPure {s : State} {c : CoreId} {f : BitVec 26} {g : StkFn} {top : List W64} {room : Nat} (hr : s.m.standsReady c)
    (hf : fld f 25 10 = 0) (hn : fld f 5 0 = 7 ∨ fld f 9 6 = 0) (hfn : fld f 5 0 ≤ 0x11) (hg : stkPure (fld f 5 0) (fld f 9 6) = some g)
    (ho : s.m.holdsOps c top room) (hneed : g.need = top.length) (hdrop : g.drop ≤ top.length) (hroom : (g.puts top).length ≤ g.drop + room) :
    completes (.stk c f) s fun t => s.m.went t c (·.took g.drop (g.puts top)) := by
  refine completes_issue_went (g := (·.replaced g.drop (g.puts top))) (st := 1) rfl hr rfl (fun m hbank hpoison => ?_) hr.loop_none rfl
  have ho := Mod.holdsOps_congr hbank hpoison ho
  simp only [bodyStk, stkLegal hf hn hfn, hg, hneed, Mod.peekAt_held ho, Mod.repl_part ho hdrop hroom, bind, Except.bind]
/-- Each function of the table is one on the operand stack alone, and leaves what it puts above what it keeps. -/
theorem stkPure_of_mem {a b c : W64} {fn : Nat} {taken left : List W64} (h : (fn, taken, left) ∈ stkOn a b c) :
    fn ≤ 0x11 ∧ ∃ g, stkPure fn 0 = some g ∧ g.need = taken.length ∧ g.drop ≤ taken.length ∧ (g.puts taken).length ≤ g.drop + 2 ∧
      left = g.puts taken ++ taken.drop g.drop := by
  simp only [stkOn, List.mem_cons, Prod.mk.injEq, List.not_mem_nil, or_false] at h
  rcases h with ⟨rfl, rfl, rfl⟩ | ⟨rfl, rfl, rfl⟩ | ⟨rfl, rfl, rfl⟩ | ⟨rfl, rfl, rfl⟩ | ⟨rfl, rfl, rfl⟩ | ⟨rfl, rfl, rfl⟩ | ⟨rfl, rfl, rfl⟩ |
    ⟨rfl, rfl, rfl⟩ | ⟨rfl, rfl, rfl⟩ <;> exact ⟨by decide, _, rfl, rfl, by simp, by simp, rfl⟩
theorem completes_stkOn {s : State} {c : CoreId} {f : BitVec 26} {x y z : W64} {taken left : List W64} (hr : s.m.standsReady c)
    (hf : fld f 25 10 = 0) (hmem : (fld f 5 0, taken, left) ∈ stkOn x y z) (hn : fld f 9 6 = 0) (ho : s.m.holdsOps c taken 2) :
    completes (.stk c f) s fun t => s.m.went t c (·.took taken.length left) := by
  obtain ⟨hfn, g, hg, hneed, hdrop, hroom, rfl⟩ := stkPure_of_mem hmem
  refine (completes_stkPure hr hf (.inr hn) hfn (hn ▸ hg) ho hneed hdrop hroom).mono fun t => Mod.went_congr ?_
  exact Bank.took_part ho.top_prefix ho.2.2.1 hdrop
theorem completes_pick {s : State} {c : CoreId} {f : BitVec 26} {x : W64} {xs : List W64} (hr : s.m.standsReady c) (hf : fld f 25 10 = 0)
    (hfn : fld f 5 0 = 7) (hn : xs.length = fld f 9 6) (ho : s.m.holdsOps c (xs ++ [x]) 1) :
    completes (.stk c f) s fun t => s.m.went t c (·.took 0 [x]) := by
  have hg : stkPure (fld f 5 0) (fld f 9 6) = some { need := xs.length + 1, reads := [xs.length], drop := 0, puts := fun a => [a.getD xs.length 0] } := by
    rw [hfn, hn]; rfl
  refine (completes_stkPure hr hf (.inl hfn) (by omega) hg ho (by simp) (by simp) (by simp)).mono fun t => Mod.went_congr ?_
  simp
/-- The functions of STK that are not on the operand stack alone. -/
theorem stkPure_other {fn n : Nat} (h1 : 0x0A ≤ fn) (h2 : fn ≤ 0x11) : stkPure fn n = none := by interval_cases fn <;> rfl
/-- What the functions of STK that push a value of the bank push where no loop runs. -/
def Bank.stkRead (b : Bank) : Nat → W64
  | 0x0D => w64 b.depth
  | 0x0E => w64 b.rdepth
  | 0x0F => 0
  | 0x10 => 0
  | _ => b.pc

section
variable {m : Mod} {c : CoreId} {f : BitVec 26} (hf : fld f 25 10 = 0) (hn : fld f 9 6 = 0)
include hf hn

theorem bodyStk_toReturn {x : W64} (hfn : fld f 5 0 = 0x0A) (ho : m.holdsOps c [x] 0) (hrets : m.holdsRets c [] 1) :
    bodyStk c.val f m = .ok (m.updBank c.val fun b => { b.replaced 1 [] with rets := x :: b.rets }, .next, 1) := by
  have hpop : m.pop c.val 1 = .ok ([x], m.updBank c.val (·.replaced 1 [])) := Mod.pop_held ho
  have hrets : (m.updBank c.val (·.replaced 1 [])).holdsRets c [] 1 := Mod.holdsRets_congr (by rw [Mod.core_updBank_self]; rfl) hrets
  simp only [bodyStk, stkLegal hf (.inr hn) (by omega), stkPure_other (fn := fld f 5 0) (by omega) (by omega)]
  simp only [hfn]
  simp only [hpop, bind, Except.bind, List.headD_cons, Mod.rpush_held hrets, Mod.updBank_updBank, Function.comp_def]
  rfl
theorem bodyStk_fromReturn {x : W64} (hfn : fld f 5 0 = 0x0B) (hloop : (m.core c).bank.loop = none) (ho : m.holdsOps c [] 1)
    (hrets : m.holdsRets c [x] 0) :
    bodyStk c.val f m = .ok (m.updBank c.val fun b => { b.replaced 0 [x] with rets := b.rets.drop 1 }, .next, 1) := by
  have ho : (m.updBank c.val fun b => { b with rets := b.rets.drop 1 }).holdsOps c [] 1 := by
    unfold Mod.holdsOps; rw [Mod.core_updBank_self]; exact ho
  simp only [bodyStk, stkLegal hf (.inr hn) (by omega), stkPure_other (fn := fld f 5 0) (by omega) (by omega)]
  simp only [hfn]
  simp only [loopCheck_free hloop, Mod.rpop_held hrets, Mod.push_held ho, bind, Except.bind, Mod.updBank_updBank, Function.comp_def]
  rfl
theorem bodyStk_copyReturn {x : W64} (hfn : fld f 5 0 = 0x0C) (ho : m.holdsOps c [] 1) (hrets : m.holdsRets c [x] 0) :
    bodyStk c.val f m = .ok (m.updBank c.val (·.replaced 0 [x]), .next, 1) := by
  simp only [bodyStk, stkLegal hf (.inr hn) (by omega), stkPure_other (fn := fld f 5 0) (by omega) (by omega)]
  simp only [hfn]
  simp only [Mod.rpeek_held hrets, Mod.push_held ho, bind, Except.bind]
theorem bodyStk_read (h1 : 0x0D ≤ fld f 5 0) (h2 : fld f 5 0 ≤ 0x11) (hloop : (m.core c).bank.loop = none) (ho : m.holdsOps c [] 1) :
    bodyStk c.val f m = .ok (m.updBank c.val (·.replaced 0 [(m.core c).bank.stkRead (fld f 5 0)]), .next, 1) := by
  simp only [bodyStk, stkLegal hf (.inr hn) h2, stkPure_other (fn := fld f 5 0) (by omega) h2]
  interval_cases h : fld f 5 0 <;> simp only [Mod.push_held ho, hloop, bind, Except.bind] <;> rfl
end

/-- Settles O3: each function by the rules of the stack that it works on. -/
theorem stackFunctions : Obligations.StackFunctions := by
  unfold Obligations.StackFunctions
  intro s c f x y z hr hf
  have hloop := hr.loop_none
  have hread : fld f 9 6 = 0 → s.m.holdsOps c [] 1 → ∀ fn, fld f 5 0 = fn → 0x0D ≤ fn → fn ≤ 0x11 →
      completes (.stk c f) s fun t => s.m.went t c (·.took 0 [(s.m.core c).bank.stkRead fn]) := fun hn ho fn hfn h1 h2 =>
    completes_issue_went (st := 1) (g := (·.replaced 0 [(s.m.core c).bank.stkRead fn])) rfl hr rfl (fun m hbank hpoison => by
      rw [← hbank, ← hfn]
      exact bodyStk_read hf hn (hfn ▸ h1) (hfn ▸ h2) (hbank ▸ hloop) (Mod.holdsOps_congr hbank hpoison ho)) hloop rfl
  refine ⟨fun taken left hmem hn ho => completes_stkOn hr hf hmem hn ho, fun xs hfn hn ho => completes_pick hr hf hfn hn ho,
    fun hn ho hrets hfn => ?_, fun hn ho hrets hfn => ?_, fun hn ho hrets hfn => ?_, fun hn ho => ⟨fun hfn => ?_, fun hfn => ?_, fun hfn => ?_,
      fun hfn => ?_, fun hfn => ?_⟩⟩
  · exact completes_issue_went rfl hr rfl (fun m hbank hpoison => bodyStk_toReturn hf hn hfn (Mod.holdsOps_congr hbank hpoison ho)
      (Mod.holdsRets_congr (congrArg Bank.rets hbank) hrets)) hloop rfl
  · exact completes_issue_went rfl hr rfl (fun m hbank hpoison => bodyStk_fromReturn hf hn hfn (hbank ▸ hloop) (Mod.holdsOps_congr hbank hpoison ho)
      (Mod.holdsRets_congr (congrArg Bank.rets hbank) hrets)) hloop rfl
  · exact completes_issue_went rfl hr rfl (fun m hbank hpoison => bodyStk_copyReturn hf hn hfn (Mod.holdsOps_congr hbank hpoison ho)
      (Mod.holdsRets_congr (congrArg Bank.rets hbank) hrets)) hloop rfl
  all_goals exact hread hn ho _ hfn (by omega) (by omega)

/-! ## Control transfer -/

theorem brTarget_eq (pc : W64) (f : BitVec 26) : brTarget pc f = pc + f.signExtend 64 <<< 2 := by
  have h : sNat 26 f.toNat = (f.signExtend 64).toInt := by
    rw [sNat_eq_toInt, BitVec.ofNat_toNat, BitVec.setWidth_eq, BitVec.toInt_signExtend_of_le (by omega)]
  have hmul : w64i (4 * (f.signExtend 64).toInt) = 4#64 * f.signExtend 64 := by
    rw [w64i, BitVec.ofInt_mul, BitVec.ofInt_toInt]; rfl
  have hshift : 4#64 * f.signExtend 64 = f.signExtend 64 <<< 2 := by rw [BitVec.shiftLeft_eq_mul_twoPow, BitVec.mul_comm]; rfl
  rw [brTarget, h, hmul, hshift]

/-- An instruction whose body takes entries and jumps, no loop running. -/
theorem completes_jump {i : Instr} {s : State} {c : CoreId} {major func st : Nat} {t : W64} {ends : Bool} {body : Mod → Body} {g F : Bank → Bank}
    (hi : exec i s = s.run fun m => m.issue c.val major func body) (hr : s.m.standsReady c) (hm : fitterMajor major = true)
    (hb : ∀ m : Mod, (m.core c).bank = (s.m.core c).bank → (m.core c).poison = (s.m.core c).poison →
      ∃ m1, body m = .ok (m1, .jump t ends, st) ∧ m.rebanked m1 c g)
    (hl : (g (s.m.core c).bank).loop = none) (hload : (g (s.m.core c).bank).load = none) (hcap : (g (s.m.core c).bank).cap 0 = (s.m.core c).bank.cap 0)
    (hF : { g (s.m.core c).bank with pc := t } = F (s.m.core c).bank) :
    completes i s fun t => s.m.went t c F ∧ (t.core c).fetchCap = (s.m.core c).bank.cap 0 := by
  refine completes_issue (Q := (· = (s.m.core c).bank.cap 0)) hi hr.atIssue hm hb (fun m hbank => ?_) (by rw [← hF]; exact hload)
  have h := Mod.flowsTo_jump_free (m := m) (c := c) t ends (by rw [hbank]; exact hl)
  rwa [hbank, hF, hcap] at h

theorem bodyBr_eq (m : Mod) (c : CoreId) (f : BitVec 26) :
    bodyBr c.val f m = .ok (m, .jump ((m.core c).bank.pc + f.signExtend 64 <<< 2) true, 3) := by rw [← brTarget_eq]; rfl
theorem bodyBcond_held {m : Mod} {c : CoreId} {f : BitVec 26} {x : W64} (zero : Bool) (ho : m.holdsOps c [x] 0) :
    bodyBcond zero c.val f m = if (x == 0) = zero then .ok (m.updBank c.val (·.replaced 1 []), .jump ((m.core c).bank.pc + f.signExtend 64 <<< 2) true, 3)
      else .ok (m.updBank c.val (·.replaced 1 []), .next, 1) := by
  have hpop : m.pop c.val 1 = .ok ([x], m.updBank c.val (·.replaced 1 [])) := Mod.pop_held ho
  simp only [bodyBcond, hpop, bind, Except.bind, List.headD_cons, brTarget_eq]
theorem bodyJmp_held {m : Mod} {c : CoreId} {f : BitVec 26} {x : W64} (hf : fld f 25 6 = 0) (hx : x.toNat % 4 = 0) (ho : m.holdsOps c [x] 0) :
    bodyJmp false c.val f m = .ok (m.updBank c.val (·.replaced 1 []), .jump x true, 3) ∧
    (m.holdsRets c [] 1 → bodyJmp true c.val f m =
      .ok (m.updBank c.val fun b => { b.replaced 1 [] with rets := ((m.core c).bank.pc + 4) :: b.rets }, .jump x false, 3)) := by
  have hpeek : m.peek c.val 1 = .ok ([x], m) := Mod.peek_held ho
  have hrepl : m.repl c.val 1 [] = .ok (m.updBank c.val (·.replaced 1 [])) := Mod.repl_held ho (by simp)
  refine ⟨?_, fun hrets => ?_⟩
  · simp only [bodyJmp, hf, beq_self_eq_true, legal_true, hpeek, hrepl, bind, Except.bind, List.headD_cons, hx, ne_eq, not_true_eq_false, if_false,
      Bool.false_eq_true]
  · have hrets : (m.updBank c.val (·.replaced 1 [])).holdsRets c [] 1 := Mod.holdsRets_congr (by rw [Mod.core_updBank_self]; rfl) hrets
    simp only [bodyJmp, hf, beq_self_eq_true, legal_true, hpeek, hrepl, bind, Except.bind, List.headD_cons, hx, ne_eq, not_true_eq_false, if_false,
      if_true, Mod.rpush_held hrets, Mod.updBank_updBank, Function.comp_def]
    rfl
theorem bodyCall_held {m : Mod} {c : CoreId} {f : BitVec 26} (hrets : m.holdsRets c [] 1) :
    bodyCall c.val f m = .ok (m.updBank c.val fun b => { b with rets := ((m.core c).bank.pc + 4) :: b.rets },
      .jump ((m.core c).bank.pc + f.signExtend 64 <<< 2) false, 3) := by
  simp only [bodyCall, Mod.rpush_held hrets, bind, Except.bind, brTarget_eq]
theorem bodyRet_held {m : Mod} {c : CoreId} {f : BitVec 26} {x : W64} (hf : fld f 25 6 = 0) (hx : x.toNat % 4 = 0) (hloop : (m.core c).bank.loop = none)
    (hrets : m.holdsRets c [x] 0) :
    bodyRet c.val f m = .ok (m.updBank c.val fun b => { b with rets := b.rets.drop 1 }, .jump x false, 3) := by
  simp only [bodyRet, hf, beq_self_eq_true, legal_true, loopCheck_free hloop, Mod.rpeek_held hrets, Mod.rpop_held hrets, bind, Except.bind, hx, ne_eq,
    not_true_eq_false, if_false]
theorem bodyLoop_held {m : Mod} {c : CoreId} {f : BitVec 26} {n : W64} (hf : fld f 17 0 = 0) (hloop : (m.core c).bank.loop = none)
    (ho : m.holdsOps c [n] 0) :
    (n = 0 → bodyLoop c.val f m = .ok (m.updBank c.val (·.replaced 1 []), .goto (w64 ((m.core c).bank.pc.toNat + 4 + 4 * fld f 25 18 + 4)), 2)) ∧
    (n ≠ 0 → bodyLoop c.val f m = .ok (m.updBank c.val fun b => { b.replaced 1 [] with
      loop := some { start := (m.core c).bank.pc.toNat + 4, lenM1 := fld f 25 18, cnt := n, done := 0, rbase := b.rdepth, saved := b.loop.isSome } },
        .next, 2)) := by
  have hpop : m.pop c.val 1 = .ok ([n], m.updBank c.val (·.replaced 1 [])) := Mod.pop_held ho
  have hnone : ((m.updBank c.val (·.replaced 1 [])).core c.val).bank.loop = none := by rw [Mod.core_updBank_self]; exact hloop
  refine ⟨fun hn => ?_, fun hn => ?_⟩
  · simp only [bodyLoop, hf, beq_self_eq_true, legal_true, hpop, bind, Except.bind, List.headD_cons, hn, if_true]
  · simp only [bodyLoop, hf, beq_self_eq_true, legal_true, hpop, bind, Except.bind, List.headD_cons, if_neg hn, hnone, Mod.updBank_updBank,
      Function.comp_def]
    rfl

theorem fld_withFunc (f : BitVec 26) (fn : Nat) {hi lo : Nat} (h1 : hi < 26) (h2 : 6 ≤ lo) : fld (withFunc f fn) hi lo = fld f hi lo :=
  fld_setFld_apart f 5 0 hi lo fn h1 (.inr h2)
theorem w64_loopPast (p : W64) (n : Nat) : w64 (p.toNat + 4 + 4 * n + 4) = w64 (p.toNat + 8 + 4 * n) := congrArg w64 (by omega)

/-- Settles O5: each transfer by what its body takes and where it jumps, the loops by the cases of retirement. -/
theorem transfersAndLoops : Obligations.TransfersAndLoops := by
  unfold Obligations.TransfersAndLoops
  refine ⟨fun s c f x hr => ?_, fun s c f n => ⟨fun hr ho hf => ⟨fun hn => ?_, fun hn => ?_⟩,
    fun l hpow hcan hfetch hload href hups hl hs => ?_⟩⟩
  · have hloop := hr.loop_none
    have hload : (s.m.core c).bank.load = none := hr.atIssue.load
    refine ⟨?_, fun ho => ⟨fun hx => ?_, fun hx => ?_, fun hx => ?_, fun hx => ?_, fun hf hx => ⟨?_, fun hrets => ?_⟩⟩, fun hrets => ?_,
      fun hrets hf hx => ?_⟩
    · exact completes_jump (g := id) (ends := true) (st := 3) rfl hr rfl (fun m hbank _ => ⟨m, by rw [← hbank]; exact bodyBr_eq m c f, Mod.rebanked_id m c⟩)
        hloop hload rfl rfl
    · refine completes_jump (ends := true) (st := 3) rfl hr rfl (fun m hbank hpoison => ⟨_, ?_, Mod.rebanked_updBank m c (·.replaced 1 [])⟩) hloop hload rfl rfl
      rw [bodyBcond_held true (Mod.holdsOps_congr hbank hpoison ho), hbank, if_pos (by simp [hx])]
    · refine completes_issue_went (st := 1) (g := (·.replaced 1 [])) rfl hr rfl (fun m hbank hpoison => ?_) hloop rfl
      rw [bodyBcond_held true (Mod.holdsOps_congr hbank hpoison ho), if_neg (by simpa using hx)]
    · refine completes_jump (ends := true) (st := 3) rfl hr rfl (fun m hbank hpoison => ⟨_, ?_, Mod.rebanked_updBank m c (·.replaced 1 [])⟩) hloop hload rfl rfl
      rw [bodyBcond_held false (Mod.holdsOps_congr hbank hpoison ho), hbank, if_pos (by simpa using hx)]
    · refine completes_issue_went (st := 1) (g := (·.replaced 1 [])) rfl hr rfl (fun m hbank hpoison => ?_) hloop rfl
      rw [bodyBcond_held false (Mod.holdsOps_congr hbank hpoison ho), if_neg (by simpa using hx)]
    · exact completes_jump rfl hr rfl (fun m hbank hpoison => ⟨_, (bodyJmp_held (by rwa [fld_withFunc f 1 (by omega) (by omega)]) hx
        (Mod.holdsOps_congr hbank hpoison ho)).1, Mod.rebanked_updBank m c _⟩) hloop hload rfl rfl
    · refine completes_jump (ends := false) (st := 3) (g := fun b => { b.replaced 1 [] with rets := ((s.m.core c).bank.pc + 4) :: b.rets }) rfl hr rfl
        (fun m hbank hpoison => ⟨_, ?_, Mod.rebanked_updBank m c _⟩) hloop hload rfl rfl
      rw [← hbank]
      exact (bodyJmp_held (by rwa [fld_withFunc f 2 (by omega) (by omega)]) hx (Mod.holdsOps_congr hbank hpoison ho)).2
          (Mod.holdsRets_congr (congrArg Bank.rets hbank) hrets)
    · refine completes_jump (ends := false) (st := 3) (g := fun b => { b with rets := ((s.m.core c).bank.pc + 4) :: b.rets }) rfl hr rfl
        (fun m hbank hpoison => ⟨_, ?_, Mod.rebanked_updBank m c _⟩) hloop hload rfl rfl
      rw [← hbank]
      exact bodyCall_held (Mod.holdsRets_congr (congrArg Bank.rets hbank) hrets)
    · exact completes_jump rfl hr rfl (fun m hbank _ => ⟨_, bodyRet_held (by rwa [fld_withFunc f 0 (by omega) (by omega)]) hx (hbank ▸ hloop)
        (Mod.holdsRets_congr (congrArg Bank.rets hbank) hrets), Mod.rebanked_updBank m c _⟩) hloop hload rfl rfl
  · have hloop := hr.loop_none
    refine completes_issue_flow 2 .next (fun b => { b.replaced 1 [] with
        loop := some { start := (s.m.core c).bank.pc.toNat + 4, lenM1 := fld f 25 18, cnt := n, done := 0, rbase := b.rdepth, saved := b.loop.isSome } })
      (fun _ => True) rfl hr.atIssue rfl (fun m hbank hpoison => ⟨_, ?_, Mod.rebanked_updBank m c _⟩) (fun m hbank => ?_) hr.atIssue.load
    · rw [← hbank]
      exact (bodyLoop_held hf (hbank ▸ hloop) (Mod.holdsOps_congr hbank hpoison ho)).2 hn
    · have h := Mod.flowsTo_next (m := m) (c := c) (fun l hl => by
        rw [hbank] at hl ⊢
        cases hl
        show (s.m.core c).bank.pc.toNat ≠ (s.m.core c).bank.pc.toNat + 4 + 4 * _
        omega)
      rw [hbank] at h
      simp only [hloop, Option.isSome_none] at h
      exact h
  · refine completes_issue_flow 2 (.goto (w64 ((s.m.core c).bank.pc.toNat + 8 + 4 * fld f 25 18))) (·.replaced 1 []) (fun _ => True)
      rfl hr.atIssue rfl (fun m hbank hpoison => ⟨_, ?_, Mod.rebanked_updBank m c _⟩) (fun m hbank => ?_) hr.atIssue.load
    · rw [← hbank, ← w64_loopPast]
      exact (bodyLoop_held hf (hbank ▸ hr.loop_none) (Mod.holdsOps_congr hbank hpoison ho)).1 hn
    · have h := m.flowsTo_goto c (w64 ((s.m.core c).bank.pc.toNat + 8 + 4 * fld f 25 18))
      rwa [hbank] at h
  · have hi : s.m.atIssue c := ⟨hpow, hcan, Except.exists_ok_of_isOk hfetch, hload, href, hups⟩
    refine ⟨fun hf hend hcnt => ?_, fun hf hend hcnt => ?_, fun hin hout => ?_⟩
    · refine completes_issue_flow 1 .next id (fun _ => True) rfl hi rfl (fun m _ _ => ⟨m, bodyNop_legal hf, Mod.rebanked_id m c⟩) (fun m hbank => ?_) hload
      have h := Mod.flowsTo_next_again (m := m) (c := c) (by rw [hbank]; exact hl) (by rw [hbank]; exact hend) hcnt
      rwa [hbank] at h
    · refine completes_issue_flow 1 .next id (fun _ => True) rfl hi rfl (fun m _ _ => ⟨m, bodyNop_legal hf, Mod.rebanked_id m c⟩) (fun m hbank => ?_) hload
      have h := Mod.flowsTo_next_ends (m := m) (c := c) (by rw [hbank]; exact hl) hs (by rw [hbank]; exact hend) hcnt
      rwa [hbank] at h
    · refine completes_issue_flow 3 (.jump ((s.m.core c).bank.pc + f.signExtend 64 <<< 2) true) id (· = (s.m.core c).bank.cap 0) rfl hi rfl
        (fun m hbank _ => ⟨m, by rw [← hbank]; exact bodyBr_eq m c f, Mod.rebanked_id m c⟩) (fun m hbank => ?_) hload
      have h := Mod.flowsTo_jump_leave (m := m) (c := c) (by rw [hbank]; exact hl) hs (by rw [hbank]; exact hin) hout
      rwa [hbank] at h
end Sys2Proof.Machine
end

section
/-! Cap instructions (R228, R238, R263 to R268). -/

namespace Sys2Proof.Machine

/-! ## Fields of a cap -/

@[simp] theorem Cap.type_setFld (k : Cap) (hi lo v : Nat) (h : hi < 124) : ({ k with bits := setFld k.bits hi lo v } : Cap).type = k.type :=
  fld_setFld_apart k.bits hi lo 127 124 v (by omega) (.inr h)
theorem Cap.isGlove_congr {k q : Cap} (h : q.type = k.type) : q.isGlove = k.isGlove := by rw [Cap.isGlove, Cap.isGlove, h]
theorem Cap.otype_plain {k : Cap} (h : k.isGlove = false) : k.otype = fld k.bits 111 96 := by rw [Cap.otype, h]; rfl
theorem Cap.len_plain {k : Cap} (h : k.isGlove = false) : k.len = fld k.bits 95 48 := by rw [Cap.len, h]; rfl
theorem Cap.base_lt (k : Cap) : k.base < 2 ^ 48 := fld_lt k.bits 47 0
theorem Cap.len_lt (k : Cap) : k.len < 2 ^ 48 := by
  rw [Cap.len]
  split
  · exact (fld_lt k.bits 81 48).trans (by decide)
  · exact fld_lt k.bits 95 48
/-- A cap that is no glove, narrowed to a range: the range is the new one, the rest stays. -/
theorem Cap.setRange_plain {k : Cap} {base len : Nat} (hg : k.isGlove = false) (hb : base < 2 ^ 48) (hl : len < 2 ^ 48) :
    (k.setRange base len).tag = k.tag ∧ (k.setRange base len).base = base ∧ (k.setRange base len).len = len ∧
      (k.setRange base len).perms = k.perms ∧ (k.setRange base len).otype = k.otype ∧ (k.setRange base len).type = k.type := by
  have ht : (k.setRange base len).type = k.type := by
    rw [Cap.setRange, hg]
    exact (Cap.type_setFld { k with bits := setFld k.bits 95 48 len } 47 0 base (by omega)).trans (Cap.type_setFld k 95 48 len (by omega))
  have hg' : (k.setRange base len).isGlove = false := (Cap.isGlove_congr ht).trans hg
  have e : k.setRange base len = { k with bits := setFld (setFld k.bits 95 48 len) 47 0 base } := by rw [Cap.setRange, hg]; rfl
  have keeps : ∀ hi lo, hi < 128 → 95 < lo → fld (k.setRange base len).bits hi lo = fld k.bits hi lo := fun hi lo h1 h2 => by
    rw [e, fld_setFld_apart _ 47 0 hi lo base h1 (.inr (by omega)), fld_setFld_apart _ 95 48 hi lo len h1 (.inr h2)]
  refine ⟨by rw [e], ?_, ?_, keeps 123 112 (by omega) (by omega), ?_, ht⟩
  · rw [e, Cap.base, fld_setFld _ 47 0 base (by omega)]; exact Nat.mod_eq_of_lt hb
  · rw [Cap.len_plain hg', e, fld_setFld_apart _ 47 0 95 48 base (by omega) (.inr (by omega)), fld_setFld _ 95 48 len (by omega)]
    exact Nat.mod_eq_of_lt hl
  · rw [Cap.otype_plain hg', Cap.otype_plain hg]; exact keeps 111 96 (by omega) (by omega)
/-- A cap with other permissions. -/
def Cap.withPerms (k : Cap) (p : Nat) : Cap := { k with bits := setFld k.bits 123 112 p }
/-- A cap with another object type. -/
def Cap.withOtype (k : Cap) (o : Nat) : Cap := { k with bits := setFld k.bits 111 96 o }
theorem Cap.withPerms_plain {k : Cap} {p : Nat} (hg : k.isGlove = false) (hp : p < 2 ^ 12) :
    (k.withPerms p).perms = p ∧ (k.withPerms p).base = k.base ∧ (k.withPerms p).len = k.len ∧ (k.withPerms p).otype = k.otype ∧
      (k.withPerms p).type = k.type := by
  have ht : (k.withPerms p).type = k.type := Cap.type_setFld k 123 112 p (by omega)
  have hg' := (Cap.isGlove_congr ht).trans hg
  have keeps : ∀ hi lo, hi < 112 → fld (k.withPerms p).bits hi lo = fld k.bits hi lo := fun hi lo h =>
    fld_setFld_apart _ 123 112 hi lo p (by omega) (.inl h)
  refine ⟨?_, keeps 47 0 (by omega), ?_, ?_, ht⟩
  · exact (fld_setFld _ 123 112 p (by omega)).trans (Nat.mod_eq_of_lt hp)
  · rw [Cap.len_plain hg', Cap.len_plain hg]; exact keeps 95 48 (by omega)
  · rw [Cap.otype_plain hg', Cap.otype_plain hg]; exact keeps 111 96 (by omega)
theorem Cap.withOtype_plain {k : Cap} {o : Nat} (hg : k.isGlove = false) (ho : o < 2 ^ 16) :
    (k.withOtype o).otype = o ∧ (k.withOtype o).base = k.base ∧ (k.withOtype o).len = k.len ∧ (k.withOtype o).perms = k.perms := by
  have hg' : (k.withOtype o).isGlove = false := (Cap.isGlove_congr (Cap.type_setFld k 111 96 o (by omega))).trans hg
  have keeps : ∀ hi lo, hi < 128 → hi < 96 ∨ 111 < lo → fld (k.withOtype o).bits hi lo = fld k.bits hi lo := fun hi lo h hd =>
    fld_setFld_apart _ 111 96 hi lo o h hd
  refine ⟨?_, keeps 47 0 (by omega) (.inl (by omega)), ?_, keeps 123 112 (by omega) (.inr (by omega))⟩
  · rw [Cap.otype_plain hg']; exact (fld_setFld _ 111 96 o (by omega)).trans (Nat.mod_eq_of_lt ho)
  · rw [Cap.len_plain hg', Cap.len_plain hg]; exact keeps 95 48 (by omega) (.inl (by omega))

/-! ## Bodies -/

/-- The function bits of a cap instruction's word are not among the fields its body reads. -/
theorem bodyCap_withFunc (fn fn' c : Nat) (f : BitVec 26) (m : Mod) : bodyCap fn c (withFunc f fn') m = bodyCap fn c f m := by
  simp only [bodyCap, capFields, fld_withFunc f fn' (show 25 < 26 by omega) (show 6 ≤ 23 by omega), fld_withFunc f fn' (show 22 < 26 by omega) (show 6 ≤ 20 by omega),
    fld_withFunc f fn' (show 19 < 26 by omega) (show 6 ≤ 17 by omega), fld_withFunc f fn' (show 16 < 26 by omega) (show 6 ≤ 6 by omega)]
/-- A cap instruction whose body changes the bank by `g`. -/
theorem completes_cap {i : Instr} {s : State} {c : CoreId} {f : BitVec 26} {fn : Nat} {F : Bank → Bank} (g : Bank → Bank)
    (hi : exec i s = s.run fun m => m.issue c.val 0x0A fn (bodyCap fn c.val (withFunc f fn))) (hr : s.m.standsReady c)
    (hb : ∀ m : Mod, (m.core c).bank = (s.m.core c).bank → (m.core c).poison = (s.m.core c).poison → bodyCap fn c.val f m = .ok (m.updBank c.val g, .next, 1))
    (hl : (g (s.m.core c).bank).loop = none) (hF : { g (s.m.core c).bank with pc := (g (s.m.core c).bank).pc + 4 } = F (s.m.core c).bank) :
    completes i s fun t => s.m.went t c F :=
  completes_issue_went hi hr rfl (fun m hbank hpoison => (bodyCap_withFunc fn fn c.val f m).trans (hb m hbank hpoison)) hl hF
theorem capUsable_ok {k : Cap} (ht : k.tag = true) (ho : k.otype = 0) (ix addr : Nat) (b : Bool) : capUsable k ix addr b = .ok () := by
  simp [capUsable, ht, ho]
theorem capUsable_sealed {k : Cap} (ht : k.tag = true) (ix addr : Nat) : capUsable k ix addr true = .ok () := by simp [capUsable, ht]

/-- What the functions that push a field of a cap push. -/
def Cap.pushed (k : Cap) : Nat → Nat
  | 1 => k.base
  | 2 => k.len
  | 3 => k.perms
  | 4 => k.otype
  | _ => b2n k.tag

section
variable {m : Mod} {c : CoreId} {f : BitVec 26} {k q : Cap} (h16 : fld f 16 6 = 0) (hk : (m.core c).bank.cap (fld f 22 20) = k)
include h16 hk

theorem bodyCap_cmov (h19 : fld f 19 17 = 0) : bodyCap 0x00 c.val f m = .ok (m.updBank c.val (·.setCap (fld f 25 23) k), .next, 1) := by
  simp only [bodyCap, capFields, h16, h19, legal_true, bind, Except.bind, beq_self_eq_true, Bool.and_true, hk]
theorem bodyCap_get {fn : Nat} (h1 : 1 ≤ fn) (h5 : fn ≤ 5) (h19 : fld f 19 17 = 0) (hd : fld f 25 23 = 0) (ho : m.holdsOps c [] 1) :
    bodyCap fn c.val f m = .ok (m.updBank c.val (·.replaced 0 [w64 (k.pushed fn)]), .next, 1) := by
  interval_cases fn <;>
    simp only [bodyCap, capFields, h16, h19, hd, hk, legal_true, bind, Except.bind, Mod.push_held ho, beq_self_eq_true, Bool.and_true, Nat.reduceLeDiff,
      decide_true, Cap.pushed]
theorem bodyCap_cclr (h22 : fld f 22 20 = 0) (h19 : fld f 19 17 = 0) :
    bodyCap 0x0A c.val f m = .ok (m.updBank c.val (·.setCap (fld f 25 23) { (m.core c).bank.cap (fld f 25 23) with tag := false }), .next, 1) := by
  simp only [bodyCap, capFields, h16, h19, h22, legal_true, bind, Except.bind, beq_self_eq_true, Bool.and_true]
theorem bodyCap_ctest {x n : W64} (h19 : fld f 19 17 = 0) (hd : fld f 25 23 = 0) (ho : m.holdsOps c [n, x] 0) :
    bodyCap 0x0B c.val f m = .ok (m.updBank c.val (·.replaced 2
      [if k.tag = true ∧ k.otype = 0 ∧ k.base ≤ x.toNat ∧ x.toNat + n.toNat ≤ k.top then 1 else 0]), .next, 1) := by
  have hpeek : m.peek c.val 2 = .ok ([n, x], m) := Mod.peek_held ho
  have hrepl : ∀ r, m.repl c.val 2 [r] = .ok (m.updBank c.val (·.replaced 2 [r])) := fun r => Mod.repl_held ho (by simp)
  have hflag : flag64 (k.tag && k.otype == 0 && decide (k.base ≤ x.toNat) && decide (x.toNat + n.toNat ≤ k.top)) =
      if k.tag = true ∧ k.otype = 0 ∧ k.base ≤ x.toNat ∧ x.toNat + n.toNat ≤ k.top then 1 else 0 := by
    rw [← flag64_decide]; congr 1; rw [Bool.eq_iff_iff]; simp [and_assoc]
  simp only [bodyCap, capFields, h16, h19, hd, legal_true, bind, Except.bind, beq_self_eq_true, Bool.and_true, le_refl, decide_true, hpeek, List.headD_cons,
    List.getD_cons_succ, List.getD_cons_zero, hk, hflag, hrepl]

variable (ht : k.tag = true)
include ht

theorem bodyCap_cbound {x n : W64} (h19 : fld f 19 17 = 0) (ho : m.holdsOps c [n, x] 0) (hs : k.otype = 0) (hbase : k.base ≤ x.toNat)
    (htop : x.toNat + n.toNat ≤ k.top) :
    bodyCap 0x06 c.val f m = .ok (m.updBank c.val fun b => (b.replaced 2 []).setCap (fld f 25 23) (k.setRange x.toNat n.toNat), .next, 1) := by
  have hpeek : m.peek c.val 2 = .ok ([n, x], m) := Mod.peek_held ho
  have hrepl : m.repl c.val 2 [] = .ok (m.updBank c.val (·.replaced 2 [])) := Mod.repl_held ho (by simp)
  have hin : ¬ (x.toNat < k.base ∨ k.top < x.toNat + n.toNat) := by omega
  simp only [bodyCap, capFields, h16, h19, hk, legal_true, bind, Except.bind, beq_self_eq_true, Bool.and_true, hpeek, List.headD_cons, List.getD_cons_succ,
    List.getD_cons_zero, capUsable_ok ht hs, if_neg hin, hrepl, Mod.updBank_updBank, Function.comp_def]
theorem bodyCap_cperm {x : W64} (h19 : fld f 19 17 = 0) (ho : m.holdsOps c [x] 0) (hs : k.otype = 0) :
    bodyCap 0x07 c.val f m = .ok (m.updBank c.val fun b => (b.replaced 1 []).setCap (fld f 25 23) (k.withPerms (k.perms &&& x.toNat)), .next, 1) := by
  have hpeek : m.peek c.val 1 = .ok ([x], m) := Mod.peek_held ho
  have hrepl : m.repl c.val 1 [] = .ok (m.updBank c.val (·.replaced 1 [])) := Mod.repl_held ho (by simp)
  simp only [bodyCap, capFields, h16, h19, hk, legal_true, bind, Except.bind, beq_self_eq_true, Bool.and_true, hpeek, List.headD_cons, capUsable_ok ht hs, hrepl,
    Mod.updBank_updBank, Function.comp_def, Cap.withPerms]

variable (hg : k.isGlove = false) (hq : (m.core c).bank.cap (fld f 19 17) = q) (qt : q.tag = true) (qg : q.isGlove = false) (qo : q.otype = 0)
  (q1 : 1 ≤ q.base)
include hg hq qt qg qo q1

theorem bodyCap_cseal (hs : k.otype = 0) (q2 : q.base ≤ 65535) (qp : q.has pSEAL = true) :
    bodyCap 0x08 c.val f m = .ok (m.updBank c.val (·.setCap (fld f 25 23) (k.withOtype q.base)), .next, 1) := by
  have hbad : ¬ (k.isGlove = true ∨ q.isGlove = true ∨ q.base = 0 ∨ 65535 < q.base) := by rw [hg, qg]; simp only [Bool.false_eq_true, false_or]; omega
  simp only [bodyCap, capFields, h16, hk, hq, legal_true, bind, Except.bind, beq_self_eq_true, Bool.and_true, capUsable_ok ht hs, capUsable_ok qt qo, qp,
    Bool.not_true, Bool.false_eq_true, if_false, if_neg hbad, Cap.withOtype]
theorem bodyCap_cunseal (hs : k.otype = q.base) (qp : q.has pUNSEAL = true) :
    bodyCap 0x09 c.val f m = .ok (m.updBank c.val (·.setCap (fld f 25 23) (k.withOtype 0)), .next, 1) := by
  have hbad : ¬ (k.isGlove = true ∨ q.isGlove = true ∨ k.otype = 0 ∨ q.base ≠ k.otype) := by rw [hg, qg]; simp only [Bool.false_eq_true, false_or]; omega
  simp only [bodyCap, capFields, h16, hk, hq, legal_true, bind, Except.bind, beq_self_eq_true, Bool.and_true, capUsable_sealed ht, capUsable_ok qt qo, qp,
    Bool.not_true, Bool.false_eq_true, if_false, if_neg hbad, Cap.withOtype]
end

/-- Settles O4: what each body makes of the cap it names, and the fields of the new cap. -/
theorem capInstructions : Obligations.CapInstructions := by
  unfold Obligations.CapInstructions
  refine ⟨fun s c f x n hr h16 h19 => ?_, fun s c f x n hr h16 ht hg => ?_⟩
  · have hloop := hr.loop_none
    generalize hk : (s.m.core c).bank.cap (fld f 22 20) = k
    have hget : ∀ (i : Instr) (fn : Nat), 1 ≤ fn → fn ≤ 5 → (exec i s = s.run fun m => m.issue c.val 0x0A fn (bodyCap fn c.val (withFunc f fn))) →
        s.m.holdsOps c [] 1 → fld f 25 23 = 0 → completes i s fun t => s.m.went t c (·.took 0 [w64 (k.pushed fn)]) := fun i fn h1 h5 hi ho hd =>
      completes_cap (·.replaced 0 [w64 (k.pushed fn)]) hi hr
        (fun m hbank hpoison => bodyCap_get h16 (hbank ▸ hk) h1 h5 h19 hd (Mod.holdsOps_congr hbank hpoison ho)) hloop rfl
    refine ⟨?_, hget _ 1 (by omega) (by omega) rfl, hget _ 2 (by omega) (by omega) rfl, hget _ 3 (by omega) (by omega) rfl,
      hget _ 4 (by omega) (by omega) rfl, hget _ 5 (by omega) (by omega) rfl, fun h22 => ?_, fun ho hd => ?_⟩
    · exact completes_cap (·.setCap (fld f 25 23) k) rfl hr (fun m hbank _ => bodyCap_cmov h16 (hbank ▸ hk) h19) hloop rfl
    · refine completes_cap (·.setCap (fld f 25 23) { (s.m.core c).bank.cap (fld f 25 23) with tag := false }) rfl hr (fun m hbank _ => ?_) hloop rfl
      rw [← hbank]; exact bodyCap_cclr h16 (hbank ▸ hk) h22 h19
    · exact completes_cap (·.replaced 2 _) rfl hr (fun m hbank hpoison => bodyCap_ctest h16 (hbank ▸ hk) h19 hd (Mod.holdsOps_congr hbank hpoison ho)) hloop rfl
  · have hloop := hr.loop_none
    generalize hk : (s.m.core c).bank.cap (fld f 22 20) = k at ht hg ⊢
    generalize hq : (s.m.core c).bank.cap (fld f 19 17) = q
    refine ⟨fun ho h19 hs hbase htop hx => ?_, fun ho h19 hs => ?_, fun qt qg qo q1 q2 => ⟨fun hs qp => ?_, fun hs qp => ?_⟩⟩
    · have hlen := k.len_lt
      obtain ⟨h1, h2, h3, h4, h5, h6⟩ := Cap.setRange_plain (len := n.toNat) hg hx (by unfold Cap.top at htop; omega)
      exact (completes_cap (F := fun b => (b.took 2 []).setCap (fld f 25 23) (k.setRange x.toNat n.toNat))
        (fun b => (b.replaced 2 []).setCap (fld f 25 23) (k.setRange x.toNat n.toNat)) rfl hr
        (fun m hbank hpoison => bodyCap_cbound h16 (hbank ▸ hk) ht h19 (Mod.holdsOps_congr hbank hpoison ho) hs hbase htop) hloop rfl).mono
        fun t hw => ⟨_, hw, h1.trans ht, h2, h3, h4, h5.trans hs, h6⟩
    · obtain ⟨h1, h2, h3, h4, h5⟩ := Cap.withPerms_plain (p := k.perms &&& x.toNat) hg (lt_of_le_of_lt Nat.and_le_left (fld_lt _ 123 112))
      exact (completes_cap (F := fun b => (b.took 1 []).setCap (fld f 25 23) (k.withPerms (k.perms &&& x.toNat)))
        (fun b => (b.replaced 1 []).setCap (fld f 25 23) (k.withPerms (k.perms &&& x.toNat))) rfl hr
        (fun m hbank hpoison => bodyCap_cperm h16 (hbank ▸ hk) ht h19 (Mod.holdsOps_congr hbank hpoison ho) hs) hloop rfl).mono
        fun t hw => ⟨_, hw, ht, h1, h2, h3, h4.trans hs, h5⟩
    · obtain ⟨h1, h2, h3, h4⟩ := Cap.withOtype_plain (o := q.base) hg (by omega)
      exact (completes_cap (F := fun b => (b.took 0 []).setCap (fld f 25 23) (k.withOtype q.base)) (·.setCap (fld f 25 23) (k.withOtype q.base)) rfl hr
        (fun m hbank _ => bodyCap_cseal h16 (hbank ▸ hk) ht hg (hbank ▸ hq) qt qg qo q1 hs q2 qp) hloop rfl).mono fun t hw => ⟨_, hw, ht, h1, h2, h3, h4⟩
    · obtain ⟨h1, h2, h3, h4⟩ := Cap.withOtype_plain (o := 0) hg (by omega)
      exact (completes_cap (F := fun b => (b.took 0 []).setCap (fld f 25 23) (k.withOtype 0)) (·.setCap (fld f 25 23) (k.withOtype 0)) rfl hr
        (fun m hbank _ => bodyCap_cunseal h16 (hbank ▸ hk) ht hg (hbank ▸ hq) qt qg qo q1 hs qp) hloop rfl).mono fun t hw => ⟨_, hw, ht, h1, h2, h3, h4⟩

end Sys2Proof.Machine
end

section
/-! Instructions that raise an exception as they issue (R213, R229, R271). -/

namespace Sys2Proof.Machine

theorem Mod.setTrap_raised (m : Mod) (c : CoreId) (vec reg : Nat) (v : W64) : m.raised (m.setTrap c.val vec [(reg, v)]) c vec reg v := by
  have e : (m.setTrap c.val vec [(reg, v)]).core c.val = { (m.core c.val).setCreg reg v with trap := some vec, wait := .none } := Mod.core_updCore_self m c.val _
  refine ⟨by rw [e], fun a => ?_, by rw [e]; rfl, by rw [e]; rfl, Mod.apart_setCore m c _⟩
  rw [e]
  refine (Core.creg_setCreg (m.core c.val) reg a v).trans ?_
  by_cases h : a = reg
  · rw [if_pos h, if_pos h.symm]
  · rw [if_neg h, if_neg (Ne.symm h)]
/-- An instruction whose body stops does nothing but what its stop does. -/
theorem completes_stop {i : Instr} {s : State} {c : CoreId} {major func : Nat} {e : Stop} {body : Mod → Body} {P : Mod → Prop}
    (hi : exec i s = s.run fun m => m.issue c.val major func body) (hr : s.m.atIssue c) (hm : c.val = 256 → fitterMajor major = true)
    (hb : ∀ m : Mod, (m.core c).bank = (s.m.core c).bank → (m.core c).poison = (s.m.core c).poison → body m = .error e)
    (hp : P { s.m.stop c.val e with nv := s.m.nv, pwr := s.m.pwr }) : completes i s P := by
  obtain ⟨m1, hf⟩ := hr.fetches
  obtain ⟨hbegun, -, -⟩ := hr.begun hf
  refine completes_run hi hr.powered ?_
  rw [Mod.issue_stops hr.can hf hm (hb _ (by rw [hbegun]; exact Core.beginBody_bank hr.load) (by rw [hbegun]; rfl))]
  exact hp
/-- One whose body stops with the scalar issue exception raises it. -/
theorem completes_serr {i : Instr} {s : State} {c : CoreId} {major func cause ma fn code : Nat} {body : Mod → Body}
    (hi : exec i s = s.run fun m => m.issue c.val major func body) (hr : s.m.atIssue c) (hm : c.val = 256 → fitterMajor major = true)
    (hb : ∀ m : Mod, (m.core c).bank = (s.m.core c).bank → (m.core c).poison = (s.m.core c).poison → body m = .error (serrStop cause ma fn code)) :
    completes i s fun t => s.m.raised t c 0 0x380 (serrOf cause ma fn code) := by
  refine completes_stop hi hr hm hb ?_
  have h : s.m.raised (s.m.stop c.val (serrStop cause ma fn code)) c 0 0x380 (serrOf cause ma fn code) := s.m.setTrap_raised c 0 0x380 _
  obtain ⟨-, -, -, -, hapart⟩ := id h
  rwa [Mod.apart_within hapart]
theorem legal_false (major func : Nat) : legal false major func = .error (serrStop 0x01 major func 0) := rfl

theorem aluArity_reserved {fn : Nat} (h : 0x24 ≤ fn) (h64 : fn < 64) : aluArity fn = none := by interval_cases fn <;> rfl
theorem bodyAlu_reserved {c : CoreId} {f : BitVec 26} (m : Mod) (h : fld f 25 12 ≠ 0 ∨ 0x24 ≤ fld f 5 0) :
    bodyAlu c.val f m = .error (serrStop 0x01 0x03 (fld f 5 0) 0) := by
  have hl : (fld f 25 12 == 0 && (aluArity (fld f 5 0)).isSome && (aluUsesSh (fld f 5 0) || fld f 11 6 == 0)) = false := by
    rcases h with h | h
    · rw [beq_false_of_ne h, Bool.false_and, Bool.false_and]
    · rw [aluArity_reserved h (fld_lt f 5 0), Option.isSome_none, Bool.and_false, Bool.false_and]
  simp only [bodyAlu, hl, legal_false, bind, Except.bind]
theorem bodyStk_reserved {c : CoreId} {f : BitVec 26} (m : Mod) (h : 0x12 ≤ fld f 5 0 ∨ fld f 9 6 ≠ 0 ∧ fld f 5 0 ≠ 7) :
    bodyStk c.val f m = .error (serrStop 0x01 0x05 (fld f 5 0) 0) := by
  have hl : (fld f 25 10 == 0 && (fld f 5 0 == 7 || fld f 9 6 == 0) && decide (fld f 5 0 ≤ 0x11)) = false := by
    rcases h with h | ⟨h6, h7⟩
    · rw [decide_eq_false (show ¬ fld f 5 0 ≤ 0x11 by omega), Bool.and_false]
    · rw [beq_false_of_ne h6, beq_false_of_ne h7, Bool.or_false, Bool.and_false, Bool.false_and]
  simp only [bodyStk, hl, legal_false, bind, Except.bind]
theorem bodyJmp_misaligned {m : Mod} {c : CoreId} {f : BitVec 26} {x : W64} (call : Bool) (hf : fld f 25 6 = 0) (ho : m.holdsOps c [x] 0)
    (hx : x.toNat % 4 ≠ 0) : bodyJmp call c.val f m = .error (serrStop 0x03 0x2A (if call then 2 else 1) 0) := by
  have hpeek : m.peek c.val 1 = .ok ([x], m) := Mod.peek_held ho
  simp only [bodyJmp, hf, beq_self_eq_true, legal_true, hpeek, bind, Except.bind, List.headD_cons, hx, ne_eq, not_false_eq_true, if_true]

/-- Settles O6: each word fails the check of its encoding, and the stop of its body raises the exception. -/
theorem reservedWordsTrap : Obligations.ReservedWordsTrap := by
  unfold Obligations.ReservedWordsTrap
  intro s c f hr
  have hi := hr.atIssue
  refine ⟨fun h => ?_, fun h => ?_, fun h => ?_, fun h => ?_, fun h => ?_, fun h => ?_, fun h => ?_, fun h h7 => ?_, fun h => ?_,
    fun x h ho hx => ⟨?_, ?_⟩⟩
  · exact completes_serr rfl hi (fun _ => rfl) fun m _ _ => by simp only [bodyTrap, h, beq_self_eq_true, legal_true, bind, Except.bind]
  · exact completes_serr rfl hi (fun _ => rfl) fun m _ _ => by simp only [bodyNop, beq_false_of_ne h, legal_false, bind, Except.bind]
  · exact completes_serr rfl hi (fun _ => rfl) fun m _ _ => by simp only [bodyLit, beq_false_of_ne h, legal_false, bind, Except.bind]
  · refine completes_serr rfl hi (fun _ => rfl) fun m _ _ => ?_
    simp only [bodyLith, beq_false_of_ne (show fld f 25 24 ≠ 0 by omega), beq_false_of_ne (show fld f 25 24 ≠ 1 by omega), Bool.false_and, Bool.or_false,
      legal_false, bind, Except.bind]
  · exact completes_serr rfl hi (fun _ => rfl) fun m _ _ => bodyAlu_reserved m (.inl h)
  · exact completes_serr rfl hi (fun _ => rfl) fun m _ _ => bodyAlu_reserved m (.inr h)
  · exact completes_serr rfl hi (fun _ => rfl) fun m _ _ => bodyStk_reserved m (.inl h)
  · exact completes_serr rfl hi (fun _ => rfl) fun m _ _ => bodyStk_reserved m (.inr ⟨h, h7⟩)
  · refine completes_serr rfl hi (fun _ => rfl) fun m _ _ => ?_
    have h : fld (withFunc f 0) 25 6 ≠ 0 := by rwa [fld_withFunc f 0 (by omega) (by omega)]
    simp only [bodyRet, beq_false_of_ne h, legal_false, bind, Except.bind]
  · exact completes_serr rfl hi (fun _ => rfl) fun m hbank hpoison =>
      bodyJmp_misaligned false (by rwa [fld_withFunc f 1 (by omega) (by omega)]) (Mod.holdsOps_congr hbank hpoison ho) hx
  · exact completes_serr rfl hi (fun _ => rfl) fun m hbank hpoison =>
      bodyJmp_misaligned true (by rwa [fld_withFunc f 2 (by omega) (by omega)]) (Mod.holdsOps_congr hbank hpoison ho) hx

end Sys2Proof.Machine
end

section
/-! Whole transactions of a core with the caches, translations and fetches: what they touch (R344 to R363, R411, R419). -/

namespace Sys2Proof.Machine

/-! ## Transactions of the caches where no error waits in an array -/

theorem Mod.meetLoad_none (m : Mod) (c pa : Nat) (h : m.coh.upsets = []) : m.meetLoad c pa = m := by
  simp only [Mod.meetLoad, Mod.meetErr_none _ _ _ _ h, ite_self]
theorem Mod.traffic_dirRoom {m t : Mod} {la : Nat} (h : m.dirRoom la = some t) : m.traffic t := by
  unfold Mod.dirRoom at h
  split at h
  · cases h; exact Mod.traffic_refl m
  · dsimp only at h
    split at h
    · cases h; exact Mod.traffic_refl m
    · split_ifs at h
      cases h
      refine Mod.traffic_after (Mod.traffic_evPanel _ _ _ _ _) (Mod.traffic_after (Mod.traffic_inc _ ?_)
        (Mod.traffic_after (Mod.traffic_dropCopies _ _) (Mod.traffic_coh m _ rfl)))
      exact not_offTraffic_pnc (m.homePanel_lt la) (by omega) (by omega)
theorem Mod.traffic_ite {m t u : Mod} {p : Prop} [Decidable p] (ht : m.traffic t) (hu : m.traffic u) : m.traffic (if p then t else u) := by
  split
  · exact ht
  · exact hu
/-- A line that the panel cache lacks is asked of its spool and put there. -/
theorem Mod.traffic_fillPnc (m : Mod) (la age : Nat) : m.traffic (if m.pncHas la then m else (m.askSpool la false).pncPut la age false) := by
  split_ifs
  · exact Mod.traffic_refl m
  · exact Mod.traffic_trans (Mod.traffic_askSpool m la false) (Mod.traffic_pncPut _ la age false)
/-- An L2 installs a line of which its home has made note, and sends its offers. -/
theorem Mod.traffic_noted (m : Mod) (c la : Nat) (d : DirEntry) (f : CoreMem → CoreMem) : m.traffic (((m.setDir la d).updMem c f).sendOffers c) :=
  Mod.traffic_after (Mod.traffic_sendOffers _ c) (Mod.traffic_after (Mod.traffic_updMem _ c f) (Mod.traffic_setDir m la d))
theorem Mod.traffic_acquire {m t : Mod} {c la : Nat} {excl : Bool} (hu : m.coh.upsets = []) (h : m.acquire c la excl = some t) : m.traffic t := by
  unfold Mod.acquire at h
  rw [Mod.meetErr_none _ _ _ _ hu] at h
  dsimp only at h
  split at h
  · cases h; exact Mod.traffic_updMem m c _
  · cases h; exact Mod.traffic_updMem m c _
  · split at h
    · cases h; exact Mod.traffic_updMem m c _
    split at h
    · cases h
    obtain ⟨m1, hroom, rfl⟩ := Option.map_eq_some_iff.mp h
    have h0 : m.traffic (((m.evCore c 0x05 1).cohCrosses c la true).cohCrosses c la false) :=
      Mod.traffic_after (Mod.traffic_cohCrosses _ _ _ _) (Mod.traffic_after (Mod.traffic_cohCrosses _ _ _ _) (Mod.traffic_evCore m c _ _))
    have h2 := Mod.traffic_after (Mod.traffic_pncLook m1 la) (Mod.traffic_after (Mod.traffic_dirRoom hroom) h0)
    generalize m1.pncLook la = m2 at h2 ⊢
    have hfill := Mod.traffic_after (Mod.traffic_fillPnc m2 la 1) h2
    split
    · refine Mod.traffic_after (Mod.traffic_noted _ _ _ _ _) ?_
      split
      · exact hfill
      · exact Mod.traffic_after (Mod.traffic_foldl _ (fun m o => Mod.traffic_updMem m o _) _ _) (Mod.traffic_ite h2 hfill)
      · exact Mod.traffic_after (Mod.traffic_updMem _ _ _) (Mod.traffic_ite (Mod.traffic_after (Mod.traffic_lostLine m2 _ la) h2) hfill)
    · split
      · exact Mod.traffic_after (Mod.traffic_noted _ _ _ _ _) hfill
      · exact Mod.traffic_after (Mod.traffic_noted _ _ _ _ _) hfill
      · refine Mod.traffic_after (Mod.traffic_noted _ _ _ _ _) ?_
        have h3 := fun o f => Mod.traffic_after (Mod.traffic_updMem _ o f) (Mod.traffic_after (Mod.traffic_lostLine m2 o la) h2)
        exact Mod.traffic_ite (Mod.traffic_after (Mod.traffic_pncPut _ _ _ _) (h3 _ _))
          (Mod.traffic_ite (h3 _ _) (Mod.traffic_after (Mod.traffic_fillPnc _ la 1) (h3 _ _)))
/-- Reads, where no error waits, of an agent that caches nothing. -/
theorem Mod.traffic_ncRead {m : Mod} (hu : m.coh.upsets = []) (pa n age : Nat) : m.traffic (m.ncRead pa n age).2 := by
  have fold : ∀ (f : Mod → Nat → Mod), (∀ (m : Mod) la, m.coh.upsets = [] → m.traffic (f m la)) → ∀ (xs : List Nat) (m : Mod), m.coh.upsets = [] →
      m.traffic (xs.foldl f m) := by
    intro f hf xs
    induction xs with
    | nil => exact fun m _ => Mod.traffic_refl m
    | cons x xs ih =>
      exact fun m hu => Mod.traffic_trans (hf m x hu) (ih (f m x) ((hf m x hu).upsets.trans hu))
  unfold Mod.ncRead
  refine Mod.traffic_ite (fold _ (fun m la hu => ?_) _ m hu) (fold _ (fun m la hu => ?_) _ m hu)
  · dsimp only
    rw [Mod.meetErr_none _ _ _ _ hu]
    have h0 := Mod.traffic_pncLook m la
    generalize m.pncLook la = m0 at h0 ⊢
    have h1 : m.traffic (if m0.busy la = true then m0 else match (m0.dirAt la).st with
        | .x o => match ((m0.lostLine o la).core o).mem.state la with
          | .m => ((m0.lostLine o la).updMem o fun k => k.setState la .e).pncPut la 1 true
          | .i => (if ((m0.lostLine o la).core o).mem.wbDirty la = true then (m0.lostLine o la).pncPut la 1 true else m0.lostLine o la).setDir la {}
          | _ => m0.lostLine o la
        | _ => m0) := by
      refine Mod.traffic_ite h0 ?_
      split
      · have h2 := fun o => Mod.traffic_after (Mod.traffic_lostLine m0 o la) h0
        split
        · exact Mod.traffic_after (Mod.traffic_pncPut _ _ _ _) (Mod.traffic_after (Mod.traffic_updMem _ _ _) (h2 _))
        · exact Mod.traffic_after (Mod.traffic_setDir _ _ _) (Mod.traffic_ite (Mod.traffic_after (Mod.traffic_pncPut _ _ _ _) (h2 _)) (h2 _))
        · exact h2 _
      · exact h0
    exact Mod.traffic_ite h1 (Mod.traffic_ite (Mod.traffic_after (Mod.traffic_askRange _ _ _ _ _) h1)
      (Mod.traffic_after (Mod.traffic_pncPut _ _ _ _) (Mod.traffic_after (Mod.traffic_askSpool _ la false) h1)))
  · rw [Mod.meetErr_none _ _ _ _ hu, ite_self]; exact Mod.traffic_refl m

/-- A fold over lines of steps that may fail, each of which is traffic. -/
theorem Mod.traffic_foldlM {f : Mod → Nat → Option Mod} (hf : ∀ (m t : Mod) la, m.coh.upsets = [] → f m la = some t → m.traffic t) (xs : List Nat) :
    ∀ {m t : Mod}, m.coh.upsets = [] → xs.foldlM f m = some t → m.traffic t := by
  induction xs with
  | nil => intro m t _ h; cases h; exact Mod.traffic_refl m
  | cons x xs ih =>
    intro m t hu h
    rw [List.foldlM_cons] at h
    obtain ⟨m1, h1, h2⟩ := Option.bind_eq_some_iff.mp h
    have g := hf m m1 x hu h1
    exact Mod.traffic_trans g (ih (g.upsets.trans hu) h2)
theorem Mod.traffic_ncTake {m : Mod} (hu : m.coh.upsets = []) (pa n : Nat) : m.traffic (m.ncTake pa n) :=
  Mod.traffic_after (Mod.traffic_foldl _ (fun m la => Mod.traffic_after (Mod.traffic_pncPut _ la 1 true) (Mod.traffic_dropCopies m la)) _ _)
    (Mod.traffic_ncRead hu pa n 1)
theorem Mod.traffic_acquireAll {m t : Mod} {c pa n : Nat} {excl : Bool} (hu : m.coh.upsets = []) (h : m.acquireAll c pa n excl = some t) :
    m.traffic t := by
  unfold Mod.acquireAll at h
  split at h
  · cases h; exact Mod.traffic_refl m
  split at h
  · cases h
    exact Mod.traffic_ite (Mod.traffic_ncTake hu pa n) (Mod.traffic_ncRead hu pa n 1)
  · exact Mod.traffic_foldlM (fun m t la hu h => Mod.traffic_acquire hu h) _ hu h
theorem Mod.traffic_l2Ask (m : Mod) (c la : Nat) (excl : Bool) : m.traffic (m.l2Ask c la excl) := by
  unfold Mod.l2Ask
  exact Mod.traffic_ite (Mod.traffic_updMem m c _) (Mod.traffic_ite (Mod.traffic_refl m)
    (Mod.traffic_after (Mod.traffic_evCore _ c _ _) (Mod.traffic_after (Mod.traffic_csend _ _) (Mod.traffic_updMem m c _))))
theorem Mod.traffic_l2Prefetch (m : Mod) (c : CoreId) (la : Nat) : m.traffic (m.l2Prefetch c.val la) := by
  unfold Mod.l2Prefetch
  refine Mod.traffic_ite (Mod.traffic_refl m) (Mod.traffic_after (Mod.traffic_inc _ ?_) (Mod.traffic_after (Mod.traffic_csend _ _) (Mod.traffic_updMem m c _)))
  exact not_offTraffic_l2c (Nat.lt_succ_iff.mp c.isLt) (by omega) (by omega)
theorem Mod.traffic_stride (m : Mod) (c : CoreId) (pc pa : Nat) : m.traffic (m.stride c.val pc pa) := by
  unfold Mod.stride
  refine Mod.traffic_ite (Mod.traffic_refl m) ?_
  dsimp only
  split
  · exact Mod.traffic_updMem m c _
  · exact Mod.traffic_after (Mod.traffic_foldl _ (fun m la => Mod.traffic_l2Prefetch m c la) _ _) (Mod.traffic_updMem m c _)
theorem Mod.traffic_l1Miss (m : Mod) (c pa : Nat) : m.traffic (m.l1Miss c pa) := by
  unfold Mod.l1Miss
  exact Mod.traffic_ite (Mod.traffic_refl m) (Mod.traffic_evCore m c _ _)

/-! ## Accesses that change copies alone -/

/-- Only what holds copies has changed, with counts: caches, TLBs, requests at spools; no error has struck an array. -/
structure Mod.copied (m t : Mod) : Prop where
  rest : { t with cores := m.cores, coh := m.coh, spl := m.spl, bar0 := m.bar0, poison := m.poison, xlt := m.xlt } = m
  cores : ∀ d, { t.core d with mem := (m.core d).mem } = m.core d
  upsets : t.coh.upsets = m.coh.upsets
  fenced : t.spl.fenced = m.spl.fenced
  regs : ∀ a, offTraffic a → t.rd a = m.rd a

theorem Mod.copied_refl (m : Mod) : m.copied m := ⟨rfl, fun _ => rfl, rfl, rfl, fun _ _ => rfl⟩
theorem Mod.copied_trans {m t u : Mod} (h : m.copied t) (g : t.copied u) : m.copied u where
  rest := calc ({ u with cores := m.cores, coh := m.coh, spl := m.spl, bar0 := m.bar0, poison := m.poison, xlt := m.xlt } : Mod) =
        { ({ u with cores := t.cores, coh := t.coh, spl := t.spl, bar0 := t.bar0, poison := t.poison, xlt := t.xlt } : Mod) with
          cores := m.cores, coh := m.coh, spl := m.spl, bar0 := m.bar0, poison := m.poison, xlt := m.xlt } := rfl
      _ = { t with cores := m.cores, coh := m.coh, spl := m.spl, bar0 := m.bar0, poison := m.poison, xlt := m.xlt } := by rw [g.rest]
      _ = m := h.rest
  cores d := by rw [← h.cores d, ← g.cores d]
  upsets := g.upsets.trans h.upsets
  fenced := g.fenced.trans h.fenced
  regs a ha := (g.regs a ha).trans (h.regs a ha)
/-- The last piece of work first. -/
theorem Mod.copied_after {m t u : Mod} (g : t.copied u) (h : m.copied t) : m.copied u := Mod.copied_trans h g
theorem Mod.traffic.copied {m t : Mod} (h : m.traffic t) : m.copied t where
  rest := calc ({ t with cores := m.cores, coh := m.coh, spl := m.spl, bar0 := m.bar0, poison := m.poison, xlt := m.xlt } : Mod) =
        { ({ t with cores := m.cores, coh := m.coh, spl := m.spl, bar0 := m.bar0, poison := m.poison } : Mod) with xlt := m.xlt } := rfl
      _ = { m with xlt := m.xlt } := by rw [h.rest]
  cores := h.cores
  upsets := h.upsets
  fenced := h.fenced
  regs := h.regs
/-- What accesses leave alone, read by any function of the rest of the module. -/
theorem Mod.copied.same {α : Type} {m t : Mod} (h : m.copied t) (f : Mod → α)
    (hf : ∀ x k q s b p w, f { x with cores := k, coh := q, spl := s, bar0 := b, poison := p, xlt := w } = f x) : f t = f m := by
  rw [← hf t m.cores m.coh m.spl m.bar0 m.poison m.xlt, h.rest]
/-- What an access leaves of a core, read by any function of the core without its copies. -/
theorem Mod.copied.core_same {α : Type} {m t : Mod} (h : m.copied t) (d : Nat) (f : Core → α) (hf : ∀ k q, f { k with mem := q } = f k) :
    f (t.core d) = f (m.core d) := by rw [← hf (t.core d) (m.core d).mem, h.cores d]
theorem Mod.copied.core_eq {m t : Mod} (h : m.copied t) (d : Nat) : t.core d = { m.core d with mem := (t.core d).mem } := by rw [← h.cores d]
theorem Mod.copied_xltTlb (m : Mod) (q : Tab (Way Leaf)) : m.copied { m with xlt := { m.xlt with tlb := q } } := ⟨rfl, fun _ => rfl, rfl, rfl, fun _ _ => rfl⟩
theorem Mod.copied_updMem (m : Mod) (c : Nat) (f : CoreMem → CoreMem) : m.copied (m.updMem c f) := (Mod.traffic_updMem m c f).copied
theorem Mod.copied_evCore (m : Mod) (c code n : Nat) : m.copied (m.evCore c code n) := (Mod.traffic_evCore m c code n).copied
theorem Mod.copied_stlbInstall (m : Mod) (panel : Nat) (l : Leaf) : m.copied (m.stlbInstall panel l) := by
  unfold Mod.stlbInstall
  dsimp only
  split <;> exact Mod.copied_xltTlb m _
theorem Mod.copied_xlat {m t : Mod} {c va n : Nat} {pg : Bool} {acc : Acc} {p : Place} (h : m.xlat c pg acc va n = .ok (p, t)) : m.copied t := by
  unfold Mod.xlat at h
  split at h
  · cases hf : m.fitterPlace acc va with
    | error e => rw [hf] at h; cases h
    | ok q => rw [hf] at h; cases h; exact Mod.copied_refl m
  · split at h
    · cases h
    · split at h
      · obtain ⟨q, -, hq⟩ := bind_ok h
        cases hq; exact Mod.copied_updMem m c _
      · split at h
        · obtain ⟨q, -, hq⟩ := bind_ok h
          cases hq
          exact Mod.copied_after (Mod.copied_evCore _ c _ _) (Mod.copied_after (Mod.copied_updMem _ c _) (Mod.copied_stlbInstall m _ _))
        · cases h
theorem Mod.copied_xlatRange {m t : Mod} {c va n : Nat} {pg : Bool} {acc : Acc} {ps : List (Place × Nat)} (h : m.xlatRange c pg acc va n = .ok (ps, t)) :
    m.copied t := by
  unfold Mod.xlatRange at h
  dsimp only at h
  split at h
  · obtain ⟨⟨p, m1⟩, hx, h⟩ := bind_ok h
    cases h; exact Mod.copied_xlat hx
  · obtain ⟨⟨p, m1⟩, hx, h⟩ := bind_ok h
    obtain ⟨⟨q, m2⟩, hy, h⟩ := bind_ok h
    cases h; exact Mod.copied_trans (Mod.copied_xlat hx) (Mod.copied_xlat hy)
theorem Mod.copied_places {m t : Mod} {c x n : Nat} {cap : Cap} {acc : Acc} {ps : List (Place × Nat)} (h : m.places c cap acc x n = .ok (ps, t)) :
    m.copied t := by
  unfold Mod.places at h
  split at h
  · cases h; exact Mod.copied_refl m
  · cases h; exact Mod.copied_refl m
  · exact Mod.copied_xlatRange h
theorem Mod.copied_fillFetch (m : Mod) (c la : Nat) : m.copied (m.fillFetch c la) := by
  unfold Mod.fillFetch
  split
  · exact Mod.copied_refl m
  · exact ⟨rfl, fun _ => rfl, rfl, rfl, fun _ _ => rfl⟩
theorem Mod.copied_fetch {m t : Mod} {c : Nat} (hu : m.coh.upsets = []) (h : m.fetch c = .ok t) : m.copied t := by
  unfold Mod.fetch at h
  obtain ⟨-, -, h⟩ := bind_ok h
  split at h
  · cases h
  split at h
  · cases h
  obtain ⟨⟨p, m1⟩, hx, h⟩ := bind_ok h
  have k := Mod.copied_xlat hx
  cases p with
  | loc pa =>
    cases h
    rw [Mod.meetErr_none _ _ _ _ (k.upsets.trans hu)]
    exact Mod.copied_after (Mod.copied_updMem _ c _) (Mod.copied_after (Mod.copied_fillFetch _ c _) k)
  | remote dev win off => cases h
  | ctl x => cases h

end Sys2Proof.Machine
end

section
/-! Instructions that reach memory: their issue and retirement, and the record that LD leaves (R220 to R224, R236, R258). -/

namespace Sys2Proof.Machine

/-! ## What an access leaves alone -/

theorem Mod.amid_trans {m t u : Mod} {c : CoreId} (h : m.amid t c) (g : t.amid u c) : m.amid u c := by
  obtain ⟨hcores, hparts, hnv, hpwr⟩ := h
  obtain ⟨gcores, gparts, gnv, gpwr⟩ := g
  exact ⟨fun d hd => by rw [← hcores d hd, ← gcores d hd], gparts.trans hparts, gnv.trans hnv, gpwr.trans hpwr⟩
theorem Mod.apart.amid {m t : Mod} {c : CoreId} (h : m.apart t c) : m.amid t c := by
  obtain ⟨hcores, -, -, -, hparts, hnv, hpwr, -⟩ := h
  exact ⟨fun d hd => by rw [hcores d hd], hparts, hnv, hpwr⟩
theorem Mod.copied.amid {m t : Mod} (h : m.copied t) (c : CoreId) : m.amid t c :=
  ⟨fun d _ => h.cores d, h.same (·.parts) fun _ _ _ _ _ _ _ => rfl, h.same (·.nv) fun _ _ _ _ _ _ _ => rfl, h.same (·.pwr) fun _ _ _ _ _ _ _ => rfl⟩
theorem Mod.copied.mem {m t : Mod} (h : m.copied t) : t.mem = m.mem := h.same (·.mem) fun _ _ _ _ _ _ _ => rfl
theorem Mod.apart.bytes {m t : Mod} {c : CoreId} (h : m.apart t c) (a : Nat) : Memory.byte t.mem a = Memory.byte m.mem a := by
  obtain ⟨-, hmem, -⟩ := h
  exact hmem a

/-! ## The module as a body finds it -/

theorem Mod.fetched_eq {m m1 : Mod} {c : CoreId} (hf : m.fetch c.val = .ok m1) : m.fetched c = m1.updCore c.val Core.beginBody := by rw [Mod.fetched, hf]
theorem Mod.atIssue.fetched {m : Mod} {c : CoreId} (h : m.atIssue c) :
    (m.fetched c).core c.val = { (m.core c.val).beginBody with mem := ((m.fetched c).core c.val).mem } ∧ m.apart (m.fetched c) c ∧
      (m.fetched c).coh = m.coh := by
  obtain ⟨m1, hf⟩ := h.fetches
  obtain ⟨hcore, hapart, hcoh⟩ := h.begun hf
  rw [Mod.fetched_eq hf]
  refine ⟨?_, hapart, hcoh⟩
  rw [hcore]
theorem Mod.atIssue.fetched_bank {m : Mod} {c : CoreId} (h : m.atIssue c) : ((m.fetched c).core c.val).bank = (m.core c.val).bank := by
  rw [h.fetched.1]; exact Core.beginBody_bank h.load
theorem Mod.atIssue.fetched_upsets {m : Mod} {c : CoreId} (h : m.atIssue c) : (m.fetched c).coh.upsets = [] := by
  rw [h.fetched.2.2]; exact h.upsets
theorem Mod.atIssue.fetched_holdsOps {m : Mod} {c : CoreId} {top : List W64} {room : Nat} (h : m.atIssue c) (ho : m.holdsOps c top room) :
    (m.fetched c).holdsOps c top room :=
  Mod.holdsOps_congr h.fetched_bank (by rw [h.fetched.1]; rfl) ho

/-! ## Retirement at the next word -/

theorem Mod.retire_next_besides {m : Mod} (c : CoreId) (st : Nat) (hl : (m.core c.val).bank.loop = none) (hr : (m.core c.val).refused = []) :
    ∃ t, m.retire c.val none .next st = .ok t ∧ t.core c.val = (m.core c.val).wentOn st ∧ m.besides t c.val := by
  have hflowed : m.flowed c.val .next = .ok (m.updBank c.val fun b => { b with pc := w64 ((m.core c.val).bank.pc.toNat + 4) }) := by
    rw [Mod.flowed, Mod.stepPc, hl]
  generalize hm1 : (m.updBank c.val fun b => { b with pc := w64 ((m.core c.val).bank.pc.toNat + 4) }) = m1 at hflowed
  have hcore : m1.core c.val = { m.core c.val with bank := { (m.core c.val).bank with pc := w64 ((m.core c.val).bank.pc.toNat + 4) } } := by
    rw [← hm1, Mod.core_updBank_self]
  obtain ⟨hend, hbesides⟩ := m1.retireEnd_quiet c (m.core c.val).bank.pc.toNat st 1 false (by rw [hcore]; exact hr)
  refine ⟨_, ?_, hend.trans (by rw [hcore]; rfl), Mod.besides_trans (hm1 ▸ m.besides_updBank c.val _) hbesides⟩
  rw [Mod.retire_eq, hflowed]
  rfl
/-- An instruction whose body goes on at the next word: once it has retired, only its core's counts and event counters have changed further. -/
theorem completes_next {i : Instr} {s : State} {c : CoreId} {major func st : Nat} {body : Mod → Body} {t0 : Mod} {P : Mod → Prop}
    (hi : exec i s = s.run fun m => m.issue c.val major func body) (hr : s.m.atIssue c) (hm : c.val = 256 → fitterMajor major = true)
    (hb : body (s.m.fetched c) = .ok (t0, .next, st)) (hloop : (t0.core c).bank.loop = none) (href : (t0.core c).refused = [])
    (hnv : t0.nv = s.m.nv) (hpwr : t0.pwr = s.m.pwr)
    (hP : ∀ t, t0.besides t c.val → t.core c.val = ((t0.core c.val).stampUndo none).wentOn st → P t) : completes i s P := by
  obtain ⟨m1, hf⟩ := hr.fetches
  have hcore : (t0.updCore c.val fun k => k.stampUndo none).core c.val = (t0.core c.val).stampUndo none := Mod.core_updCore_self t0 c.val _
  obtain ⟨t, ht, htc, htb⟩ := Mod.retire_next_besides (m := t0.updCore c.val fun k => k.stampUndo none) c st (by rw [hcore]; exact hloop)
    (by rw [hcore]; exact href)
  rw [hcore] at htc
  have hb' := Mod.besides_trans (t0.besides_updCore c.val _) htb
  refine completes_run hi hr.powered ?_
  rw [Mod.fetched_eq hf] at hb
  rw [Mod.issue_ok hr.can hf hm hb (by rw [hr.load]; exact ht)]
  have hw := Mod.apart_within hb'.apart
  rw [hnv, hpwr] at hw
  rw [hw]
  exact hP t hb' htc
/-- The core's own part of an access: what it does to the bank, and what it puts into the store buffer. -/
def Core.acted (k : Core) (g : Bank → Bank) (es : List SbEntry) : Core := { k with bank := g k.bank, sb := k.sb ++ es }
theorem Mod.updBank_acted (m : Mod) (c : Nat) (g : Bank → Bank) : m.updBank c g = m.updCore c (·.acted g []) := by
  simp only [Mod.updBank, Core.acted, List.append_nil]
/-- An instruction whose body, beside copies, changes the bank by `g` and puts entries into the store buffer. -/
theorem completes_reached {i : Instr} {s : State} {c : CoreId} {major func st : Nat} {body : Mod → Body} {u : Mod} {g F : Bank → Bank} {es : List SbEntry}
    (hi : exec i s = s.run fun m => m.issue c.val major func body) (hr : s.m.standsReady c) (hm : c.val = 256 → fitterMajor major = true)
    (hb : body (s.m.fetched c) = .ok (u.updCore c.val (·.acted g es), .next, st)) (hu : (s.m.fetched c).copied u)
    (hl : (g (s.m.core c).bank).loop = none) (hF : { g (s.m.core c).bank with pc := (g (s.m.core c).bank).pc + 4 } = F (s.m.core c).bank) :
    completes i s fun t => s.m.reached t c F es := by
  obtain ⟨hcore, hapart, -⟩ := hr.atIssue.fetched
  have hbank : (u.core c.val).bank = (s.m.core c.val).bank := (hu.core_same c (·.bank) fun _ _ => rfl).trans hr.atIssue.fetched_bank
  have hkeep : u.core c.val = { (s.m.core c.val).beginBody with mem := (u.core c.val).mem } := by rw [hu.core_eq c, hcore]
  have hacted : (u.updCore c.val (·.acted g es)).core c.val = (u.core c.val).acted g es := Mod.core_updCore_self u c.val _
  have hamid := Mod.amid_trans hapart.amid (Mod.amid_trans (hu.amid c) (u.besides_updCore c.val (·.acted g es)).apart.amid)
  refine completes_next hi hr.atIssue hm hb ?_ ?_ hamid.2.2.1 hamid.2.2.2 fun t htb htc => ?_
  · rw [hacted]; exact (congrArg (fun b => (g b).loop) hbank).trans hl
  · rw [hacted, hkeep]; exact hr.atIssue.refused
  · rw [hacted] at htc
    have htbank : (t.core c.val).bank = F (s.m.core c.val).bank := by
      rw [← hF, ← w64_toNat_add_four, htc, ← hbank]; rfl
    have hplain : (t.core c.val).vec.plain = (s.m.core c.val).vec.plain := by
      rw [htc, hkeep]
      exact (Core.plain_stampUndo _ _).trans (Core.plain_beginBody _)
    refine ⟨htbank, ?_, ?_, Mod.amid_trans hamid htb.apart.amid, fun a => ?_⟩
    · rw [htc, hkeep]; rfl
    · rw [hkeep] at htc
      exact ⟨by rw [htc]; rfl, by rw [htc]; rfl, by rw [htc]; rfl, hplain, by rw [htc]; rfl, by rw [htc]; rfl, by rw [htc]; rfl, by rw [htc]; rfl,
        by rw [htc]; rfl, by rw [htc]; rfl⟩
    · rw [htb.apart.bytes a]
      exact (congrArg (Memory.byte · a) hu.mem).trans (hapart.bytes a)

/-! ## LD -/

theorem Except.ok_bind {ε α β : Type} (a : α) (f : α → Except ε β) : ((Except.ok a : Except ε α) >>= f) = f a := rfl

theorem capCheck_ok {k : Cap} {need x n : Nat} (h : capFail k need x n = none) (ix kind : Nat) : capCheck k ix kind need x n = .ok () := by
  rw [capCheck, h]
theorem needOf_mem {k : Cap} (h : k.type ≠ 1) (c need : Nat) (write : Bool) (x : Nat) : needOf c k need write x = need := by rw [needOf, if_neg h]
theorem Mod.copied_loadNow {m t : Mod} {c pa n older : Nat} {bs : List Byte} {poi : Bool} (h : m.loadNow c pa n older = some (bs, poi, t)) : m.copied t := by
  unfold Mod.loadNow at h
  dsimp only at h
  split at h
  · cases h
  · cases h; exact Mod.copied_refl m
  · split at h
    · cases h; exact Mod.copied_refl m
    · split at h
      · cases h
      · cases h; exact Mod.copied_updMem m c _
theorem ldLegal {f : BitVec 26} (h : ¬ (fld f 20 20 = 1 ∧ fld f 22 21 = 3)) : (!(fld f 20 20 == 1 && fld f 22 21 == 3)) = true := by
  by_contra hc
  exact h (by simpa using hc)
theorem Mod.isSpool_congr {m t : Mod} (h : t.rd bSPLMAP = m.rd bSPLMAP) (pa : Nat) : t.isSpool pa = m.isSpool pa := by
  have he : t.enabled = m.enabled := by unfold Mod.enabled; rw [h]
  unfold Mod.isSpool Mod.spoolN
  rw [he]
theorem Mod.copied.isSpool {m t : Mod} (h : m.copied t) (pa : Nat) : t.isSpool pa = m.isSpool pa :=
  Mod.isSpool_congr (h.regs bSPLMAP (.inr (.inl rfl))) pa
theorem Mod.apart.isSpool {m t : Mod} {c : CoreId} (h : m.apart t c) (pa : Nat) : t.isSpool pa = m.isSpool pa := by
  obtain ⟨-, -, -, -, -, -, -, hregs⟩ := h
  exact Mod.isSpool_congr (hregs bSPLMAP (by decide)) pa
/-- An empty store buffer holds no byte. -/
theorem sbLoad_nil (pa n : Nat) : sbLoad [] pa n = some none := by simp [sbLoad, sbByte]
/-- A load that no buffered store touches, of a line that the L2 does not hold, is not at hand. -/
theorem Mod.loadNow_absent {m : Mod} {c pa : Nat} (n older : Nat) (hsb : (m.core c).sb = []) (hc : c ≠ 256) (hspool : m.isSpool pa = true)
    (hstate : (m.core c).mem.state (pa / 128) = .i) : m.loadNow c pa n older = none := by
  simp [Mod.loadNow, hsb, sbLoad_nil, hc, hspool, hstate]

section
variable {m : Mod} {c : CoreId} {f : BitVec 26} {x : W64} (hf : ¬ (fld f 20 20 = 1 ∧ fld f 22 21 = 3)) (ho : m.holdsOps c [x] 0)
include hf ho

/-- The record that LD leaves before it knows of a value. -/
def Bank.ldRec (b : Bank) (f : BitVec 26) : LoadRec := { pos := b.depth - 1, size := 2 ^ fld f 22 21, signed := fld f 20 20 == 1, pc := b.pc }
/-- LD of a range of one line in local memory that is at hand. (Acquiring stands here for itself: to unfold it would be to compute with the size of memory.) -/
theorem bodyLd_atHand {pa : Nat} {m2 m4 : Mod} {bs : List Byte} {poi : Bool} (hu : m.coh.upsets = []) (ht : ((m.core c).bank.cap (fCap f)).type = 0)
    (hfail : capFail ((m.core c).bank.cap (fCap f)) pRD (addrOfs x f) (2 ^ fld f 22 21) = none)
    (hpl : m.places c ((m.core c).bank.cap (fCap f)) .read (addrOfs x f) (2 ^ fld f 22 21) = .ok ([(.loc pa, 2 ^ fld f 22 21)], m2))
    (hroom : 2 ^ fld f 22 21 ≤ lineRoom pa)
    (hnow : ((m2.stride c (m.core c).bank.pc.toNat pa).l1Miss c pa).loadNow c pa (2 ^ fld f 22 21)
      (((m2.stride c (m.core c).bank.pc.toNat pa).l1Miss c pa).core c).sb.length = some (bs, poi, m4)) :
    bodyLd c.val f m = .ok (m4.updBank c fun b => { b with load := some { (m.core c).bank.ldRec f with
      value := loadVal (fld f 20 20 == 1) bs, arrived := true, poison := poi, place := .loc pa } }, .next, 1) := by
  have hpeek : m.peek c.val 1 = .ok ([x], m) := Mod.peek_held ho
  have htype : ((m.core c).bank.cap (fCap f)).type ≠ 1 := by rw [ht]; decide
  have hmeet : (m2.stride c (m.core c).bank.pc.toNat pa).meetLoad c pa = m2.stride c (m.core c).bank.pc.toNat pa :=
    Mod.meetLoad_none _ _ _ ((Mod.traffic_stride m2 c _ pa).upsets.trans ((Mod.copied_places hpl).upsets.trans hu))
  unfold bodyLd Bank.ldRec
  obtain ⟨acquireAll, hacquire⟩ : ∃ a, a = Mod.acquireAll := ⟨_, rfl⟩
  rw [← hacquire]
  simp only [ldLegal hf, legal_true, hpeek, Except.ok_bind, List.headD_cons, needOf_mem htype, capCheck_ok hfail, if_neg htype, hpl, hmeet,
    if_pos hroom, hnow]
/-- LD of a range of one line that its L2 does not hold asks for the line. -/
theorem bodyLd_absent {pa : Nat} {m2 m3 : Mod} (hu : m.coh.upsets = []) (ht : ((m.core c).bank.cap (fCap f)).type = 0)
    (hfail : capFail ((m.core c).bank.cap (fCap f)) pRD (addrOfs x f) (2 ^ fld f 22 21) = none)
    (hpl : m.places c ((m.core c).bank.cap (fCap f)) .read (addrOfs x f) (2 ^ fld f 22 21) = .ok ([(.loc pa, 2 ^ fld f 22 21)], m2))
    (hroom : 2 ^ fld f 22 21 ≤ lineRoom pa) (hm3 : (m2.stride c (m.core c).bank.pc.toNat pa).l1Miss c pa = m3)
    (hnow : m3.loadNow c pa (2 ^ fld f 22 21) (m3.core c).sb.length = none) (hstate : (m3.core c).mem.state (pa / 128) = .i)
    (hmiss : (m3.core c).mem.misses.length < 16) :
    bodyLd c.val f m = .ok ((m3.l2Ask c (pa / 128) false).updBank c fun b => { b with load := some { (m.core c).bank.ldRec f with
      place := .loc pa, older := (m3.core c).sb.length } }, .next, 1) := by
  have hpeek : m.peek c.val 1 = .ok ([x], m) := Mod.peek_held ho
  have htype : ((m.core c).bank.cap (fCap f)).type ≠ 1 := by rw [ht]; decide
  have hmeet : (m2.stride c (m.core c).bank.pc.toNat pa).meetLoad c pa = m2.stride c (m.core c).bank.pc.toNat pa :=
    Mod.meetLoad_none _ _ _ ((Mod.traffic_stride m2 c _ pa).upsets.trans ((Mod.copied_places hpl).upsets.trans hu))
  unfold bodyLd Bank.ldRec
  obtain ⟨acquireAll, hacquire⟩ : ∃ a, a = Mod.acquireAll := ⟨_, rfl⟩
  rw [← hacquire]
  simp only [ldLegal hf, legal_true, hpeek, Except.ok_bind, List.headD_cons, needOf_mem htype, capCheck_ok hfail, if_neg htype, hpl, hmeet,
    if_pos hroom, hm3, hnow, hstate, if_true, Nat.not_le.mpr hmiss, false_and, and_false, if_false]
/-- LD of a control register. -/
theorem bodyLd_ctl (ht : ((m.core c).bank.cap (fCap f)).type = 1)
    (hfail : capFail ((m.core c).bank.cap (fCap f)) (needOf c ((m.core c).bank.cap (fCap f)) pRD false (addrOfs x f)) (addrOfs x f) (2 ^ fld f 22 21) = none)
    (hctl : ctlCheck c (fCap f) 1 ((m.core c).bank.cap (fCap f)) false (addrOfs x f) (2 ^ fld f 22 21) = .ok ()) :
    bodyLd c.val f m = .ok (m.updBank c fun b => { b with load := some { (m.core c).bank.ldRec f with
      value := m.ctlRead c (addrOfs x f), arrived := true } }, .next, 1) := by
  have hpeek : m.peek c.val 1 = .ok ([x], m) := Mod.peek_held ho
  unfold bodyLd Bank.ldRec
  obtain ⟨acquireAll, hacquire⟩ : ∃ a, a = Mod.acquireAll := ⟨_, rfl⟩
  rw [← hacquire]
  simp only [ldLegal hf, legal_true, hpeek, Except.ok_bind, List.headD_cons, capCheck_ok hfail, ht, if_true, hctl]
end

/-- Settles O7: the body of LD leaves its record after an access that changes copies alone. -/
theorem loadLeavesRecord : Obligations.LoadLeavesRecord := by
  unfold Obligations.LoadLeavesRecord
  intro s c f x hr ho hf
  have hbank := hr.atIssue.fetched_bank
  have ho1 := hr.atIssue.fetched_holdsOps ho
  have hu := hr.atIssue.fetched_upsets
  have hsb1 : ((s.m.fetched c).core c).sb = (s.m.core c).sb := by rw [hr.atIssue.fetched.1]; rfl
  have hleaves : ∀ (u : Mod) (r : LoadRec), (s.m.fetched c).copied u →
      bodyLd c.val f (s.m.fetched c) = .ok (u.updBank c fun b => { b with load := some r }, .next, 1) →
      completes (.ld c f) s fun t => s.m.reached t c (fun b => { b.took 0 [] with load := some r }) [] := fun u r hcop hb =>
    completes_reached (g := fun b => { b with load := some r }) rfl hr (fun _ => rfl) (by rw [← Mod.updBank_acted]; exact hb) hcop hr.loop_none rfl
  refine ⟨fun pa m2 ht hfail hpl hroom => ?_, fun ht hfail hctl => ?_⟩
  · rw [← hbank] at ht hfail hpl ⊢
    have h3 : (s.m.fetched c).copied ((m2.stride c ((s.m.fetched c).core c).bank.pc.toNat pa).l1Miss c pa) :=
      Mod.copied_after (Mod.traffic_l1Miss _ c pa).copied (Mod.copied_after (Mod.traffic_stride m2 c _ pa).copied (Mod.copied_places hpl))
    dsimp only
    have hsb := (h3.core_same c (·.sb) fun _ _ => rfl).trans hsb1
    refine ⟨fun bs poi m4 hnow => ?_, fun hnil hspool hc hstate hmiss => ?_⟩
    · exact hleaves m4 _ (Mod.copied_after (Mod.copied_loadNow hnow) h3) (bodyLd_atHand hf ho1 hu ht hfail hpl hroom (hsb ▸ hnow))
    · generalize hm3 : (m2.stride c ((s.m.fetched c).core c).bank.pc.toNat pa).l1Miss c pa = m3 at h3 hsb hstate hmiss
      have hspool3 : m3.isSpool pa = true := (h3.isSpool pa).trans ((hr.atIssue.fetched.2.1.isSpool pa).trans hspool)
      have hb := bodyLd_absent hf ho1 hu ht hfail hpl hroom hm3 (Mod.loadNow_absent _ _ (hsb.trans hnil) hc hspool3 hstate) hstate hmiss
      rw [hsb] at hb
      exact hleaves _ _ (Mod.copied_after (Mod.traffic_l2Ask m3 c _ false).copied h3) hb
  · rw [← hbank] at ht hfail hctl ⊢
    exact hleaves _ _ (Mod.copied_refl _) (bodyLd_ctl hf ho1 ht hfail hctl)

end Sys2Proof.Machine
end

section
/-! The policy on uncorrectable events (R586) runs after every command of a core that may count one, and may fence another core: what refutes two
statements that do not take the policy to be off. -/

namespace Sys2Proof.Machine

/-- A powered module with a core 0. The policy fences a core at its first uncorrectable event, and core 1, which is not fenced, has counted one. -/
def cueMod (k : Core) : Mod :=
  (({ cores := [(0, k)], pwr := { groups := 6 } } : Mod).wrf (bCAL + 0x10) 39 32 1).wrf (bL2C 1 + 0x48) 47 0 1
/-- A core that awaits the value of a load of one byte beyond the spools. -/
def awaiting : Core := { run := .running, bank := { load := some { size := 1, place := .loc (2 ^ 45) } } }
/-- A core with a store of one byte beyond the spools in its store buffer. -/
def storing : Core := { run := .running, sb := [{ place := .loc (2 ^ 45), data := [7] }] }

/-- Core 1 has no HALT before a command, and has it after the fence that follows. -/
def cueHalts (k : Core) (f : Mod → Mod) : Prop :=
  ((cueMod k).core 1).cregf 0x000 24 24 = 0 ∧ (((cueMod k).within fun m => (f m).judge).core 1).cregf 0x000 24 24 = 1
theorem awaiting_halts : cueHalts awaiting fun m => m.loadValueArrives 0 [] := by unfold cueHalts; decide +kernel
theorem storing_halts : cueHalts storing fun m => m.storeBufferDrain 0 [] := by unfold cueHalts; decide +kernel
/-- What a command of a powered module brings about holds of what it evaluates to. -/
theorem completes.of_run {i : Instr} {s : State} {f : Mod → Mod} {P : Mod → Prop} (h : completes i s P) (hi : exec i s = s.run f)
    (hpow : s.m.powered = true) : P (s.m.within f) := by
  obtain ⟨t, ht, -, hp⟩ := h
  rw [hi.trans (State.run_powered s f hpow)] at ht
  cases ht
  exact hp
/-- A judged command of core 0 after which core 1 is halted is not amid its own core. -/
theorem not_amid_of_cueHalts {i : Instr} {k : Core} {f : Mod → Mod} (hi : exec i { m := cueMod k } = State.judged { m := cueMod k } f)
    (hpow : (cueMod k).powered = true) (hh : cueHalts k f) : ¬ completes i { m := cueMod k } fun t => (cueMod k).amid t 0 := by
  intro h
  obtain ⟨hcores, -⟩ := h.of_run hi hpow
  obtain ⟨hbefore, hafter⟩ := hh
  have h := congrArg (fun q : Core => q.cregf 0x000 24 24) (hcores 1 (by decide))
  change (((cueMod k).within fun m => (f m).judge).core 1).cregf 0x000 24 24 = ((cueMod k).core 1).cregf 0x000 24 24 at h
  rw [hafter, hbefore] at h
  exact absurd h (by decide)

/-- Refutes O8: the value that arrives is followed by the policy on uncorrectable events, which the statement does not take to be off; it fences another
core that had counted one. -/
theorem not_loadValues : ¬ Obligations.LoadValues := by
  unfold Obligations.LoadValues
  rintro ⟨-, h⟩
  obtain ⟨harrives, -⟩ := h { m := cueMod awaiting } 0 0 { size := 1, place := .loc (2 ^ 45) } (by decide +kernel) (by decide +kernel) (by decide +kernel)
  have hnow : (cueMod awaiting).loadNow 0 (2 ^ 45) 1 0 = some ([0], false, cueMod awaiting) := by decide +kernel
  exact not_amid_of_cueHalts rfl (by decide +kernel) awaiting_halts
    ((harrives (2 ^ 45) [0] false (cueMod awaiting) rfl (by decide +kernel) rfl rfl hnow).mono fun t ht => ht.2)
/-- Refutes O9: the drain of a store is followed by the policy on uncorrectable events too. -/
theorem not_storesReachMemory : ¬ Obligations.StoresReachMemory := by
  unfold Obligations.StoresReachMemory
  rintro ⟨-, h⟩
  obtain ⟨hdrains, -⟩ := h { m := cueMod storing } 0 { place := .loc (2 ^ 45), data := [7] } [] (2 ^ 45) (by decide +kernel) (by decide +kernel)
    (by decide +kernel) (by decide +kernel) rfl (by decide +kernel)
  obtain ⟨hdata, -⟩ := hdrains (.inl (by decide +kernel))
  exact not_amid_of_cueHalts rfl (by decide +kernel) storing_halts ((hdata rfl (by decide)).mono fun t ⟨_, _, _, ht⟩ => ht)

end Sys2Proof.Machine
end

section
/-! Instructions that write memory as they execute: SWAPM, CAS, XADD; and MADD, which goes through the store buffer (R239, R258). -/

namespace Sys2Proof.Machine

/-! ## Writes of memory -/

/-- Memory with its tags and poison is all that has changed. -/
def Mod.memOnly (m t : Mod) : Prop := { t with mem := m.mem, tags := m.tags, poison := m.poison } = m

theorem Mod.memOnly_refl (m : Mod) : m.memOnly m := rfl
theorem Mod.memOnly.same {α : Type} {m t : Mod} (h : m.memOnly t) (f : Mod → α) (hf : ∀ x a b p, f { x with mem := a, tags := b, poison := p } = f x) :
    f t = f m := by rw [← hf t m.mem m.tags m.poison]; exact congrArg f h
theorem Mod.memOnly.core {m t : Mod} (h : m.memOnly t) (d : Nat) : t.core d = m.core d := h.same (·.core d) fun _ _ _ _ => rfl
theorem Mod.memOnly.amid {m t : Mod} (h : m.memOnly t) (c : CoreId) : m.amid t c :=
  ⟨fun d _ => by rw [h.core d], h.same (·.parts) fun _ _ _ _ => rfl, h.same (·.nv) fun _ _ _ _ => rfl, h.same (·.pwr) fun _ _ _ _ => rfl⟩
theorem Mod.memOnly_wrMem {m : Mod} {pa : Nat} {bs : List Byte} (h : m.rangeFenced pa bs.length = false) : m.memOnly (m.wrMem pa bs) := by
  unfold Mod.wrMem
  dsimp only
  rw [h, if_neg Bool.false_ne_true]
  unfold Mod.clearTags Mod.cleanLines
  split <;> dsimp only <;> split <;> rfl

/-- An instruction whose body, beside copies, changes memory and the bank. -/
theorem completes_written {i : Instr} {s : State} {c : CoreId} {major func st : Nat} {body : Mod → Body} {u t0 : Mod} {g F : Bank → Bank}
    (hi : exec i s = s.run fun m => m.issue c.val major func body) (hr : s.m.standsReady c) (hm : c.val = 256 → fitterMajor major = true)
    (hb : body (s.m.fetched c) = .ok (t0.updBank c.val g, .next, st)) (hu : (s.m.fetched c).copied u) (ht0 : u.memOnly t0)
    (hl : (g (s.m.core c).bank).loop = none) (hF : { g (s.m.core c).bank with pc := (g (s.m.core c).bank).pc + 4 } = F (s.m.core c).bank) :
    completes i s fun t => (∀ a, Memory.byte t.mem a = Memory.byte t0.mem a) ∧ (t.core c).bank = F (s.m.core c).bank ∧
      (t.core c).sb = (s.m.core c).sb ∧ (s.m.core c).keeps (t.core c) ∧ s.m.amid t c := by
  obtain ⟨hcore, hapart, -⟩ := hr.atIssue.fetched
  have hbank : (u.core c.val).bank = (s.m.core c.val).bank := (hu.core_same c (·.bank) fun _ _ => rfl).trans hr.atIssue.fetched_bank
  have hkeep : t0.core c.val = { (s.m.core c.val).beginBody with mem := (u.core c.val).mem } := by rw [ht0.core, hu.core_eq c, hcore]
  rw [← ht0.core c.val] at hbank
  have hupd : (t0.updBank c.val g).core c.val = { t0.core c.val with bank := g (t0.core c.val).bank } := Mod.core_updBank_self t0 c.val g
  have hamid := Mod.amid_trans hapart.amid (Mod.amid_trans (hu.amid c) (Mod.amid_trans (ht0.amid c) (t0.besides_updBank c.val g).apart.amid))
  refine completes_next hi hr.atIssue hm hb ?_ ?_ hamid.2.2.1 hamid.2.2.2 fun t htb htc => ?_
  · rw [hupd]; exact (congrArg (fun b => (g b).loop) hbank).trans hl
  · rw [hupd, hkeep]; exact hr.atIssue.refused
  · rw [hupd] at htc
    refine ⟨htb.apart.bytes, ?_, ?_, ?_, Mod.amid_trans hamid htb.apart.amid⟩
    · rw [← hF, ← w64_toNat_add_four, htc, ← hbank]; rfl
    · rw [htc, hkeep]; rfl
    · have hplain : (t.core c.val).vec.plain = (s.m.core c.val).vec.plain := by
        rw [htc, hkeep]; exact (Core.plain_stampUndo _ _).trans (Core.plain_beginBody _)
      rw [hkeep] at htc
      exact ⟨by rw [htc]; rfl, by rw [htc]; rfl, by rw [htc]; rfl, hplain, by rw [htc]; rfl, by rw [htc]; rfl, by rw [htc]; rfl, by rw [htc]; rfl,
        by rw [htc]; rfl, by rw [htc]; rfl⟩

/-! ## SWAPM, CAS, XADD -/

/-- What an atomic does to memory: the bytes of its new value, or nothing. -/
def Mod.amoWrite (m : Mod) (pa n : Nat) : Option Nat → Mod
  | some v => m.wrMem pa (toLe n v)
  | none => m
/-- An atomic on a line of local memory. -/
theorem amoBody_local {m m2 m3 : Mod} {c : CoreId} {f : BitVec 26} {top : List W64} {x : W64} {fn pa : Nat} {g : Nat → List W64 → Option Nat}
    (hlegal : amoLegal f = true) (ho : m.holdsOps c top 0) (hne : 0 < top.length) (hx : top.getD (top.length - 1) 0 = x)
    (ht : ((m.core c).bank.cap (fCap f)).type = 0)
    (hfail : capFail ((m.core c).bank.cap (fCap f)) (pRD + pWR) x.toNat (2 ^ fld f 22 21) = none) (halign : x.toNat % 2 ^ fld f 22 21 = 0)
    (hpl : m.places c ((m.core c).bank.cap (fCap f)) .atomic x.toNat (2 ^ fld f 22 21) = .ok ([(.loc pa, 2 ^ fld f 22 21)], m2))
    (hw : m2.wtabCheck c ((m.core c).bank.cap (fCap f)) (fCap f) 3 x.toNat (2 ^ fld f 22 21) [(.loc pa, 2 ^ fld f 22 21)] = .ok ())
    (hsb : sbTouches (m2.core c).sb pa (2 ^ fld f 22 21) = false) (hacq : m2.acquireAll c pa (2 ^ fld f 22 21) true = some m3)
    (hpoi : m3.poisoned pa (2 ^ fld f 22 21) = false)
    (ho4 : (m3.amoWrite pa (2 ^ fld f 22 21) (g (m3.rdLe pa (2 ^ fld f 22 21)) top)).holdsOps c top 0) :
    amoBody c.val fn top.length g f m = .ok ((m3.amoWrite pa (2 ^ fld f 22 21) (g (m3.rdLe pa (2 ^ fld f 22 21)) top)).updBank c.val
      (·.replaced top.length [w64 (m3.rdLe pa (2 ^ fld f 22 21))]), .next, 1) := by
  have hpeek : m.peek c.val top.length = .ok (top, m) := Mod.peek_held ho
  have hrepl := Mod.repl_held (new := [w64 (m3.rdLe pa (2 ^ fld f 22 21))]) ho4 hne
  have h2 : ¬ ((m.core c).bank.cap (fCap f)).type = 2 := by rw [ht]; decide
  have h1 : ¬ ((m.core c).bank.cap (fCap f)).type = 1 := by rw [ht]; decide
  unfold amoBody
  obtain ⟨acquireAll, hacquire⟩ : ∃ a, a = Mod.acquireAll := ⟨_, rfl⟩
  rw [← hacquire] at hacq ⊢
  simp only [hlegal, legal_true, hpeek, Except.ok_bind, hx, capCheck_ok hfail, halign, ne_eq, not_true_eq_false, if_false, if_neg h2, if_neg h1, hpl, hw,
    hsb, Bool.false_eq_true, hacq, hpoi]
  generalize g (m3.rdLe pa (2 ^ fld f 22 21)) top = new at hrepl ⊢
  cases new with
  | none => exact congrArg (fun r : Ex Mod => r >>= fun m5 => (.ok (m5, .next, 1) : Body)) hrepl
  | some v => exact congrArg (fun r : Ex Mod => r >>= fun m5 => (.ok (m5, .next, 1) : Body)) hrepl
theorem amoBody_withFunc (c fn fn' pops : Nat) (g : Nat → List W64 → Option Nat) (f : BitVec 26) (m : Mod) :
    amoBody c fn pops g (withFunc f fn') m = amoBody c fn pops g f m := by
  unfold amoBody
  rw [show amoLegal (withFunc f fn') = amoLegal f by
      simp only [amoLegal, fld_withFunc f fn' (show 22 < 26 by omega) (show 6 ≤ 21 by omega), fld_withFunc f fn' (show 20 < 26 by omega) (show 6 ≤ 18 by omega),
        fld_withFunc f fn' (show 17 < 26 by omega) (show 6 ≤ 6 by omega)],
    show fCap (withFunc f fn') = fCap f from fld_withFunc f fn' (by omega) (by omega),
    show fld (withFunc f fn') 22 21 = fld f 22 21 from fld_withFunc f fn' (by omega) (by omega)]
theorem Memory.bytes_congr {t q : Tab Byte} (h : ∀ a, Memory.byte t a = Memory.byte q a) (n : Nat) : ∀ a, Memory.bytes t a n = Memory.bytes q a n := by
  induction n with
  | zero => exact fun _ => rfl
  | succ n ih => exact fun a => congrArg₂ List.cons (h a) (ih (a + 1))
theorem Mod.rdMem_congr {m t : Mod} (h : ∀ a, Memory.byte t.mem a = Memory.byte m.mem a) (pa n : Nat) : t.rdMem pa n = m.rdMem pa n :=
  Memory.bytes_congr h n pa
theorem Mod.rdLe_congr {m t : Mod} (h : ∀ a, Memory.byte t.mem a = Memory.byte m.mem a) (pa n : Nat) : t.rdLe pa n = m.rdLe pa n :=
  congrArg ofLe (Mod.rdMem_congr h pa n)
theorem Mod.memOnly_amoWrite {m : Mod} {pa n : Nat} (h : m.rangeFenced pa n = false) (new : Option Nat) : m.memOnly (m.amoWrite pa n new) := by
  cases new with
  | none => exact m.memOnly_refl
  | some v => exact Mod.memOnly_wrMem (by rwa [toLe_length])
/-- An atomic writes the bytes of its new value, or those that stood there. -/
theorem Mod.wrote_amoWrite {m : Mod} {pa n : Nat} (h : m.rangeFenced pa n = false) (new : Option Nat) :
    m.wrote (m.amoWrite pa n new) pa (toLe n (new.getD (m.rdLe pa n))) := by
  cases new with
  | some v => exact Mod.wrote_wrMem m pa _ (by rwa [toLe_length])
  | none =>
    have hlen : (m.rdMem pa n).length = n := Memory.bytes_length m.mem pa n
    have hold : toLe n (m.rdLe pa n) = m.rdMem pa n := by
      have := toLe_ofLe (m.rdMem pa n)
      rwa [hlen] at this
    intro a
    rw [Option.getD_none, hold, hlen]
    split
    · rw [Mod.rdMem, Memory.bytes_getD _ _ _ _ (by omega), show pa + (a - pa) = a by omega]; rfl
    · rfl
/-- An atomic of local memory reads the old value and writes what it makes of it. -/
theorem completes_amo {i : Instr} {s : State} {c : CoreId} {f : BitVec 26} {top : List W64} {x : W64} {fn pops pa new : Nat} {m2 m3 : Mod}
    {g : Nat → List W64 → Option Nat} (hi : exec i s = s.run fun m => m.issue c.val 0x0B fn (amoBody c.val fn pops g (withFunc f fn)))
    (hlen : top.length = pops)
    (hr : s.m.standsReady c) (hlegal : amoLegal f = true) (ho : s.m.holdsOps c top 0) (hne : 0 < pops) (hx : top.getD (pops - 1) 0 = x)
    (ht : ((s.m.core c).bank.cap (fCap f)).type = 0)
    (hfail : capFail ((s.m.core c).bank.cap (fCap f)) (pRD + pWR) x.toNat (2 ^ fld f 22 21) = none) (halign : x.toNat % 2 ^ fld f 22 21 = 0)
    (hpl : (s.m.fetched c).places c ((s.m.core c).bank.cap (fCap f)) .atomic x.toNat (2 ^ fld f 22 21) = .ok ([(.loc pa, 2 ^ fld f 22 21)], m2))
    (hw : m2.wtabCheck c ((s.m.core c).bank.cap (fCap f)) (fCap f) 3 x.toNat (2 ^ fld f 22 21) [(.loc pa, 2 ^ fld f 22 21)] = .ok ())
    (hsb : sbTouches (s.m.core c).sb pa (2 ^ fld f 22 21) = false) (hacq : m2.acquireAll c pa (2 ^ fld f 22 21) true = some m3)
    (hpoi : m3.poisoned pa (2 ^ fld f 22 21) = false) (hfence : m3.rangeFenced pa (2 ^ fld f 22 21) = false)
    (hnew : (g (s.m.rdLe pa (2 ^ fld f 22 21)) top).getD (s.m.rdLe pa (2 ^ fld f 22 21)) = new) :
    completes i s fun t => s.m.wrote t pa (toLe (2 ^ fld f 22 21) new) ∧
      (t.core c).bank = (s.m.core c).bank.took pops [w64 (s.m.rdLe pa (2 ^ fld f 22 21))] ∧ (t.core c).sb = (s.m.core c).sb ∧
      (s.m.core c).keeps (t.core c) ∧ s.m.amid t c := by
  subst hlen
  obtain ⟨hcore, hapart, -⟩ := hr.atIssue.fetched
  have h2 := Mod.copied_places hpl
  have h3 : (s.m.fetched c).copied m3 :=
    Mod.copied_after (Mod.traffic_acquireAll (h2.upsets.trans hr.atIssue.fetched_upsets) hacq).copied h2
  have hbytes : ∀ a, Memory.byte m3.mem a = Memory.byte s.m.mem a := fun a => (congrArg (Memory.byte · a) h3.mem).trans (hapart.bytes a)
  have hold : m3.rdLe pa (2 ^ fld f 22 21) = s.m.rdLe pa (2 ^ fld f 22 21) := Mod.rdLe_congr hbytes pa _
  have hw4 := Mod.wrote_amoWrite hfence (g (m3.rdLe pa (2 ^ fld f 22 21)) top)
  have h4 := Mod.memOnly_amoWrite hfence (g (m3.rdLe pa (2 ^ fld f 22 21)) top)
  have ho4 : (m3.amoWrite pa (2 ^ fld f 22 21) (g (m3.rdLe pa (2 ^ fld f 22 21)) top)).holdsOps c top 0 :=
    Mod.holdsOps_congr (by rw [h4.core, h3.core_eq c]) (by rw [h4.core, h3.core_eq c]) (hr.atIssue.fetched_holdsOps ho)
  have hb := amoBody_local (fn := fn) hlegal (hr.atIssue.fetched_holdsOps ho) hne hx (by rw [hr.atIssue.fetched_bank]; exact ht)
    (by rw [hr.atIssue.fetched_bank]; exact hfail) halign (by rw [hr.atIssue.fetched_bank]; exact hpl) (by rw [hr.atIssue.fetched_bank]; exact hw)
    (by rw [h2.core_eq c, hcore]; exact hsb) hacq hpoi ho4
  rw [hold] at hw4 h4 hb
  rw [hnew] at hw4
  refine (completes_written (F := (·.took top.length [w64 (s.m.rdLe pa (2 ^ fld f 22 21))])) hi hr (fun _ => rfl)
    ((amoBody_withFunc c.val fn fn _ g f _).trans hb) h3 h4 hr.loop_none rfl).mono
    fun t ⟨hmem, hbank, hsb, hkeeps, hamid⟩ => ⟨fun a => ?_, hbank, hsb, hkeeps, hamid⟩
  rw [hmem, hw4 a, hbytes a]

/-! ## MADD -/

theorem Mod.sbPush_room {m : Mod} {c : Nat} (h : (m.core c).sb.length < 16) (e : SbEntry) :
    m.sbPush c e = .ok (m.updCore c fun k => { k with sb := k.sb ++ [e] }) := by rw [Mod.sbPush, if_pos h]
/-- A range within a line is one entry of the store buffer. -/
theorem cutLine_one {x n : Nat} (h : n ≤ lineRoom x) (p : Place) (bs : List Byte) : cutLine x [(p, n)] bs = [(p, bs)] := by
  unfold cutLine
  exact if_pos h
theorem Mod.sbPushAll_one {m : Mod} {c : Nat} (h : (m.core c).sb.length < 16) (kind : SbKind) (p : Place) (bs : List Byte) :
    m.sbPushAll c kind [(p, bs)] = .ok (m.updCore c fun k => { k with sb := k.sb ++ [{ place := p, data := bs, kind := kind }] }) := by
  rw [Mod.sbPushAll, Mod.sbPush_room h, Except.ok_bind, Mod.sbPushAll]
/-- An entry goes into the store buffer and operands are taken: one action of the core. -/
theorem Mod.push_and_repl {m : Mod} {c : CoreId} {top : List W64} (ho : m.holdsOps c top 0) (e : SbEntry) :
    (m.updCore c.val fun k => { k with sb := k.sb ++ [e] }).repl c.val top.length [] =
      .ok (m.updCore c.val (·.acted (·.replaced top.length []) [e])) := by
  have ho' : (m.updCore c.val fun k => { k with sb := k.sb ++ [e] }).holdsOps c top 0 :=
    Mod.holdsOps_congr (by rw [Mod.core_updCore_self]) (by rw [Mod.core_updCore_self]) ho
  rw [Mod.repl_held ho' (by simp)]
  simp only [Mod.updBank, Mod.updCore, Mod.core_setCore_self]
  simp only [Mod.setCore, Tab.put_put_same, Core.acted]
theorem maddSize_fits {x w ty : Nat} (hw : w = maddSize ty) (h : x % w = 0) : w ≤ lineRoom x := by
  have h8 : w = 8 ∨ w = 4 := by rw [hw, maddSize]; split <;> simp
  unfold lineRoom
  rcases h8 with rfl | rfl <;> omega
theorem bodyMadd_held {m m2 : Mod} {c : CoreId} {f : BitVec 26} {x v : W64} {p : Place} (h22 : fld f 22 21 = 0) (h20 : fld f 20 18 ≤ 4) (h17 : fld f 17 6 = 0)
    (ht : ((m.core c).bank.cap (fCap f)).type ≠ 1) (ho : m.holdsOps c [v, x] 0)
    (hfail : capFail ((m.core c).bank.cap (fCap f)) pWR x.toNat (maddSize (fld f 20 18)) = none) (halign : x.toNat % maddSize (fld f 20 18) = 0)
    (hpl : m.places c ((m.core c).bank.cap (fCap f)) .add x.toNat (maddSize (fld f 20 18)) = .ok ([(p, maddSize (fld f 20 18))], m2))
    (hw : m2.wtabCheck c ((m.core c).bank.cap (fCap f)) (fCap f) 3 x.toNat (maddSize (fld f 20 18)) [(p, maddSize (fld f 20 18))] = .ok ())
    (ho2 : m2.holdsOps c [v, x] 0) (hsb : (m2.core c).sb.length < 16) :
    bodyMadd c.val f m = .ok (m2.updCore c.val (·.acted (·.replaced 2 [])
      [{ place := p, data := toLe (maddSize (fld f 20 18)) v.toNat, kind := .add (fld f 20 18) }]), .next, 1) := by
  have hpeek : m.peek c.val 2 = .ok ([v, x], m) := Mod.peek_held ho
  have hrepl := Mod.push_and_repl ho2 { place := p, data := toLe (maddSize (fld f 20 18)) v.toNat, kind := .add (fld f 20 18) }
  have hfit := maddSize_fits rfl halign
  simp only [bodyMadd, h22, h20, h17, beq_self_eq_true, decide_true, Bool.and_true, legal_true, hpeek, Except.ok_bind, List.getD_cons_succ, List.getD_cons_zero,
    List.headD_cons, capCheck_ok hfail, halign, ne_eq, not_true_eq_false, if_false, if_neg ht, hpl, hw, cutLine_one hfit, Mod.sbPushAll_one hsb]
  exact congrArg (fun r : Ex Mod => r >>= fun m4 => (.ok (m4, .next, 1) : Body)) hrepl

theorem bodyMadd_withFunc (c fn : Nat) (f : BitVec 26) (m : Mod) : bodyMadd c (withFunc f fn) m = bodyMadd c f m := by
  unfold bodyMadd
  rw [show fCap (withFunc f fn) = fCap f from fld_withFunc f fn (by omega) (by omega), fld_withFunc f fn (by omega) (by omega),
    fld_withFunc f fn (by omega) (by omega), fld_withFunc f fn (by omega) (by omega)]

/-- Settles O10: the atomics by what each makes of the old value, MADD by its entry in the store buffer. -/
theorem atomicResults : Obligations.AtomicResults := by
  unfold Obligations.AtomicResults
  intro s c f x v e hr h17
  refine ⟨fun pa m2 m3 h22 h20 ht hfail halign hpl hw hsb hacq hpoi hfence => ?_, fun p m2 h22 h20 ht ho hfail halign hpl hw hsb => ?_⟩
  · have hlegal : amoLegal f = true := by simp only [amoLegal, h22, h20, h17, decide_true, beq_self_eq_true, Bool.and_self]
    refine ⟨fun ho => ?_, fun ho => ?_, fun ho => ?_⟩
    · exact completes_amo (fn := 0) (g := fun _ a => some (a.headD 0).toNat) (new := v.toNat) rfl rfl hr hlegal ho (by decide) rfl ht hfail halign hpl hw hsb
        hacq hpoi hfence rfl
    · refine completes_amo (fn := 1) (g := fun old a => if old = (a.getD 1 0).toNat % 2 ^ (8 * 2 ^ fld (withFunc f 1) 22 21) then some (a.headD 0).toNat
        else none) rfl rfl hr hlegal ho (by decide) rfl ht hfail halign hpl hw hsb hacq hpoi hfence ?_
      rw [fld_withFunc f 1 (by omega) (by omega)]
      exact apply_ite (Option.getD · _) _ _ _
    · exact completes_amo (fn := 2) (g := fun old a => some (old + (a.headD 0).toNat)) (new := s.m.rdLe pa (2 ^ fld f 22 21) + v.toNat) rfl rfl hr hlegal ho
        (by decide) rfl ht hfail halign hpl hw hsb hacq hpoi hfence rfl
  · have hbank := hr.atIssue.fetched_bank
    rw [← hbank] at ht hfail hpl hw
    have h2 := Mod.copied_places hpl
    have ho1 := hr.atIssue.fetched_holdsOps ho
    have ho2 : m2.holdsOps c [v, x] 0 := Mod.holdsOps_congr (by rw [h2.core_eq c]) (by rw [h2.core_eq c]) ho1
    have hsb2 : (m2.core c).sb.length < 16 := by rw [h2.core_eq c, hr.atIssue.fetched.1]; exact hsb
    have hb := bodyMadd_held h22 h20 h17 ht ho1 hfail halign hpl hw ho2 hsb2
    exact completes_reached (g := (·.replaced 2 [])) rfl hr (fun _ => rfl) ((bodyMadd_withFunc c.val 3 f _).trans hb) h2 hr.loop_none rfl

end Sys2Proof.Machine
end

section
/-! Early spills and fills of both stacks (R217 to R219). -/

namespace Sys2Proof.Machine

/-! ## The store buffer and the window table at an access -/

/-- A buffer that does not touch a range holds none of its bytes. -/
theorem sbLoad_of_not_touches {sb : List SbEntry} {pa n : Nat} (h : sbTouches sb pa n = false) : sbLoad sb pa n = some none := by
  have hb : ∀ i, i < n → sbByte sb (pa + i) = none := by
    intro i hi
    have hnone : sb.reverse.find? (fun e => match e.range with | some (a, k) => meet a k (pa + i) 1 | none => false) = none := by
      rw [List.find?_eq_none]
      intro e he
      have h := (List.any_eq_false.mp h) e (List.mem_reverse.mp he)
      split
      · next a k hr =>
        rw [hr] at h
        simp only [meet, Bool.and_eq_true, decide_eq_true_eq] at h ⊢
        omega
      · exact Bool.false_ne_true
    unfold sbByte
    exact congrArg (Option.map _) hnone
  have hall : ((upto n).map fun i => sbByte sb (pa + i)).all (·.isNone) = true := by
    simp only [List.all_map, List.all_eq_true, Function.comp_apply]
    intro i hi
    rw [hb i (mem_upto.mp hi)]; rfl
  unfold sbLoad
  dsimp only
  rw [if_pos hall]
theorem Mod.partOf_lt {m : Mod} {c p : Nat} (h : m.partOf c = some p) : p < 16 := mem_upto.mp (List.mem_of_find?_eq_some h)
theorem Mod.copied.partOf {m t : Mod} (h : m.copied t) (c : Nat) : t.partOf c = m.partOf c := by
  unfold Mod.partOf Mod.part
  rw [h.same (·.parts) fun _ _ _ _ _ _ _ => rfl]
theorem Mod.copied.inWtab {m t : Mod} (h : m.copied t) {p : Nat} (hp : p < 16) (pa n : Nat) : t.inWtab p pa n = m.inWtab p pa n := by
  unfold Mod.inWtab Mod.wtab
  rw [h.regs (bPRT p + 0x3100) (.inr (.inr (by simp only [bPRT, bLNK, bMON]; omega)))]
theorem Mod.copied.wtabCheck {m t : Mod} (h : m.copied t) (c : Nat) (cap : Cap) (ix kind x n : Nat) (ps : List (Place × Nat)) :
    t.wtabCheck c cap ix kind x n ps = m.wtabCheck c cap ix kind x n ps := by
  unfold Mod.wtabCheck
  rw [h.partOf c]
  cases hp : m.partOf c with
  | none => rfl
  | some p =>
    refine congrArg (fun b : Bool => if (b && !cap.has pGLOVE) = true then Except.error (capStop 3 kind ix x n) else Except.ok ()) ?_
    refine congrArg (ps.any ·) (funext fun q => ?_)
    split
    · exact h.inWtab (Mod.partOf_lt hp) _ _
    · rfl

/-! ## Spills -/

/-- The bank after a spill of a stack. -/
def Bank.spilled (b : Bank) (k : StackSel) : Bank := (b.setPtr k (b.ptr k - 8)).setCache k (b.cache k).dropLast
/-- The bank after a fill of a stack. -/
def Bank.filled (b : Bank) (k : StackSel) (v : W64) : Bank := (b.setPtr k (b.ptr k + 8)).setCache k (b.cache k ++ [v])

section
variable {m m1 m2 : Mod} {c : CoreId} {k : StackSel} {pa : Nat}

/-- A spill to local memory writes the deepest cached entry. -/
theorem Mod.spill_local (hcheck : stackCheck ((m.core c).bank.cap k.cap) k true ((m.core c).bank.ptr k - 8) ((m.core c).bank.ptr k) = .ok ())
    (hpl : m.places c ((m.core c).bank.cap k.cap) .write ((m.core c).bank.ptr k - 8) 8 = .ok ([(.loc pa, 8)], m1))
    (hw : m1.wtabCheck c ((m.core c).bank.cap k.cap) k.cap k.spill ((m.core c).bank.ptr k - 8) 8 [(.loc pa, 8)] = .ok ())
    (hsb : sbTouches (m.core c).sb pa 8 = false) (hacq : m1.acquireAll c pa 8 true = some m2) :
    m.spill c.val k = .ok ((m2.wrMem pa (toLe 8 (((m.core c).bank.cache k).getLastD 0).toNat)).updBank c.val fun b =>
      (b.setPtr k ((m.core c).bank.ptr k - 8)).setCache k (b.cache k).dropLast) := by
  have h1 := Mod.copied_places hpl
  rw [h1.wtabCheck] at hw
  have hsb1 : sbTouches (m1.core c).sb pa 8 = false := by rw [h1.core_eq c]; exact hsb
  have hwrite : m1.writeNow c.val pa (toLe 8 (((m.core c).bank.cache k).getLastD 0).toNat) =
      .ok (m2.wrMem pa (toLe 8 (((m.core c).bank.cache k).getLastD 0).toNat)) := by
    unfold Mod.writeNow
    obtain ⟨acquireAll, hacquire⟩ : ∃ a, a = Mod.acquireAll := ⟨_, rfl⟩
    rw [← hacquire] at hacq ⊢
    simp only [toLe_length, hsb1, Bool.false_eq_true, if_false, hacq]
  unfold Mod.spill
  obtain ⟨writeNow, hnow⟩ : ∃ a, a = Mod.writeNow := ⟨_, rfl⟩
  rw [← hnow] at hwrite ⊢
  simp only [hcheck, Except.ok_bind, hpl, hw, hwrite]
theorem Mod.fill_local (hu : m.coh.upsets = [])
    (hcheck : stackCheck ((m.core c).bank.cap k.cap) k false ((m.core c).bank.ptr k) ((m.core c).bank.ptr k) = .ok ())
    (hpl : m.places c ((m.core c).bank.cap k.cap) .read ((m.core c).bank.ptr k) 8 = .ok ([(.loc pa, 8)], m1))
    (hsb : sbTouches (m.core c).sb pa 8 = false) (hacq : m1.acquireAll c pa 8 false = some m2) (hpoi : m2.poisoned pa 8 = false) :
    m.fill c.val k = .ok (m2.updBank c.val fun b =>
      (b.setPtr k ((m.core c).bank.ptr k + 8)).setCache k (b.cache k ++ [w64 (m2.rdLe pa 8)])) := by
  have h1 := Mod.copied_places hpl
  have hsb1 : sbTouches (m1.core c).sb pa 8 = false := by rw [h1.core_eq c]; exact hsb
  have hread : m1.readNow c.val pa 8 = .ok (m2.rdMem pa 8, m2) := by
    unfold Mod.readNow
    rw [sbLoad_of_not_touches hsb1, Mod.meetLoad_none _ _ _ (h1.upsets.trans hu)]
    obtain ⟨acquireAll, hacquire⟩ : ∃ a, a = Mod.acquireAll := ⟨_, rfl⟩
    rw [← hacquire] at hacq ⊢
    simp only [hacq, hpoi, Bool.false_eq_true, if_false]
  have hpieces : m1.readPieces c.val none ((m.core c).bank.ptr k) [(.loc pa, 8)] = .ok (m2.rdMem pa 8, m2) := by
    rw [Mod.readPieces, hread, Except.ok_bind]
    dsimp only
    rw [Mod.readPieces, Except.ok_bind, List.append_nil]
  unfold Mod.fill
  obtain ⟨readPieces, hp⟩ : ∃ a, a = Mod.readPieces := ⟨_, rfl⟩
  rw [← hp] at hpieces ⊢
  simp only [hcheck, Except.ok_bind, hpl, hpieces]
  rfl
end

/-- An early spill that passes its checks. -/
theorem completes_earlySpill {i : Instr} {s : State} {c : CoreId} {k : StackSel} {pa : Nat} {m1 m2 : Mod}
    (hi : exec i s = s.run fun m => m.earlySpill c.val k) (hpow : s.m.powered = true) (hu : s.m.coh.upsets = []) (hidle : s.m.stacksIdle c = true)
    (hne : (s.m.core c).bank.cache k ≠ [])
    (hcheck : stackCheck ((s.m.core c).bank.cap k.cap) k true ((s.m.core c).bank.ptr k - 8) ((s.m.core c).bank.ptr k) = .ok ())
    (hpl : s.m.places c ((s.m.core c).bank.cap k.cap) .write ((s.m.core c).bank.ptr k - 8) 8 = .ok ([(.loc pa, 8)], m1))
    (hw : m1.wtabCheck c ((s.m.core c).bank.cap k.cap) k.cap k.spill ((s.m.core c).bank.ptr k - 8) 8 [(.loc pa, 8)] = .ok ())
    (hsb : sbTouches (s.m.core c).sb pa 8 = false) (hacq : m1.acquireAll c pa 8 true = some m2) (hfence : m2.rangeFenced pa 8 = false) :
    completes i s fun t => s.m.wrote t pa (toLe 8 (((s.m.core c).bank.cache k).getLastD 0).toNat) ∧ (t.core c).bank = (s.m.core c).bank.spilled k ∧
      (s.m.core c).keeps (t.core c) ∧ s.m.amid t c := by
  have hspill := Mod.spill_local hcheck hpl hw hsb hacq
  have h2 : s.m.copied m2 := Mod.copied_after (Mod.traffic_acquireAll ((Mod.copied_places hpl).upsets.trans hu) hacq).copied (Mod.copied_places hpl)
  have h3 : m2.memOnly (m2.wrMem pa (toLe 8 (((s.m.core c).bank.cache k).getLastD 0).toNat)) := Mod.memOnly_wrMem (by rwa [toLe_length])
  have hwrote := Mod.wrote_wrMem m2 pa (toLe 8 (((s.m.core c).bank.cache k).getLastD 0).toNat) (by rwa [toLe_length])
  generalize m2.wrMem pa (toLe 8 (((s.m.core c).bank.cache k).getLastD 0).toNat) = m3 at hspill h3 hwrote
  generalize ht : (m3.updBank c.val fun b => (b.setPtr k ((s.m.core c).bank.ptr k - 8)).setCache k (b.cache k).dropLast) = t at hspill
  have hb : m3.besides t c.val := ht ▸ m3.besides_updBank c.val _
  have hcore : t.core c.val = { s.m.core c.val with bank := (s.m.core c.val).bank.spilled k, mem := (m2.core c.val).mem } := by
    rw [← ht, Mod.core_updBank_self, h3.core, h2.core_eq c]; rfl
  have hamid := Mod.amid_trans (h2.amid c) (Mod.amid_trans (h3.amid c) hb.apart.amid)
  have hearly : s.m.earlySpill c.val k = t := by
    have hb : (!((s.m.core c.val).bank.cache k).isEmpty) = true := by
      rw [Bool.not_eq_true', List.isEmpty_eq_false_iff]; exact hne
    unfold Mod.earlySpill
    rw [if_pos ⟨hidle, hb⟩, hspill]
  obtain ⟨-, -, hnv, hpwr⟩ := id hamid
  refine completes_run hi hpow ?_
  rw [hearly, ← hnv, ← hpwr]
  refine ⟨fun a => ?_, by rw [hcore], ?_, hamid⟩
  · rw [hb.apart.bytes, hwrote a, h2.mem]
  · rw [hcore]; exact ⟨rfl, rfl, rfl, rfl, rfl, rfl, rfl, rfl, rfl, rfl⟩
/-- An early fill that passes its checks. -/
theorem completes_earlyFill {i : Instr} {s : State} {c : CoreId} {k : StackSel} {pa room : Nat} {m1 m2 : Mod}
    (hi : exec i s = s.run fun m => m.earlyFill c.val k room) (hpow : s.m.powered = true) (hu : s.m.coh.upsets = []) (hidle : s.m.stacksIdle c = true)
    (hroom : ((s.m.core c).bank.cache k).length < room)
    (hcheck : stackCheck ((s.m.core c).bank.cap k.cap) k false ((s.m.core c).bank.ptr k) ((s.m.core c).bank.ptr k) = .ok ())
    (hpl : s.m.places c ((s.m.core c).bank.cap k.cap) .read ((s.m.core c).bank.ptr k) 8 = .ok ([(.loc pa, 8)], m1))
    (hsb : sbTouches (s.m.core c).sb pa 8 = false) (hacq : m1.acquireAll c pa 8 false = some m2) (hpoi : m2.poisoned pa 8 = false) :
    completes i s fun t => (t.core c).bank = (s.m.core c).bank.filled k (w64 (s.m.rdLe pa 8)) ∧ (∀ a, Memory.byte t.mem a = Memory.byte s.m.mem a) ∧
      (s.m.core c).keeps (t.core c) ∧ s.m.amid t c := by
  have hfill := Mod.fill_local hu hcheck hpl hsb hacq hpoi
  have h2 : s.m.copied m2 := Mod.copied_after (Mod.traffic_acquireAll ((Mod.copied_places hpl).upsets.trans hu) hacq).copied (Mod.copied_places hpl)
  have hold : m2.rdLe pa 8 = s.m.rdLe pa 8 := Mod.rdLe_congr (fun a => congrArg (Memory.byte · a) h2.mem) pa 8
  rw [hold] at hfill
  generalize ht : (m2.updBank c.val fun b => (b.setPtr k ((s.m.core c).bank.ptr k + 8)).setCache k (b.cache k ++ [w64 (s.m.rdLe pa 8)])) = t at hfill
  have hb : m2.besides t c.val := ht ▸ m2.besides_updBank c.val _
  have hcore : t.core c.val = { s.m.core c.val with bank := (s.m.core c.val).bank.filled k (w64 (s.m.rdLe pa 8)), mem := (m2.core c.val).mem } := by
    rw [← ht, Mod.core_updBank_self, h2.core_eq c]; rfl
  have hamid := Mod.amid_trans (h2.amid c) hb.apart.amid
  have hearly : s.m.earlyFill c.val k room = t := by
    unfold Mod.earlyFill
    rw [if_pos ⟨hidle, hroom⟩, hfill]
  obtain ⟨-, -, hnv, hpwr⟩ := id hamid
  refine completes_run hi hpow ?_
  rw [hearly, ← hnv, ← hpwr]
  refine ⟨by rw [hcore], fun a => ?_, ?_, hamid⟩
  · rw [hb.apart.bytes, h2.mem]
  · rw [hcore]; exact ⟨rfl, rfl, rfl, rfl, rfl, rfl, rfl, rfl, rfl, rfl⟩

theorem w64_add_eight (p : W64) : w64 (p.toNat + 8) = p + 8 := by simp [w64, BitVec.ofNat_add]
/-- Settles O11: either stack by its selector. -/
theorem spillsAndFills : Obligations.SpillsAndFills := by
  unfold Obligations.SpillsAndFills
  intro s c pa m1 hpow hu hidle
  refine ⟨fun v ops hops hcheck hpl hw hsb ⟨m2, hacq, hfence⟩ => ?_, fun v rets hrets hcheck hpl hw hsb ⟨m2, hacq, hfence⟩ => ?_,
    fun hroom hcheck hpl hsb ⟨m2, hacq, hpoi⟩ => ?_, fun hroom hcheck hpl hsb ⟨m2, hacq, hpoi⟩ => ?_⟩
  · have h := completes_earlySpill (k := opStk) (i := .stackSpill c) rfl hpow hu hidle (by rw [Bank.cache_opStk, hops]; simp) hcheck hpl hw hsb hacq hfence
    have hb : (s.m.core c).bank.spilled opStk = { (s.m.core c).bank with sp := w64 ((s.m.core c).bank.sp.toNat - 8), ops := ops } := by
      show { (s.m.core c).bank with sp := w64 ((s.m.core c).bank.sp.toNat - 8), ops := (s.m.core c).bank.ops.dropLast } = _
      rw [hops, List.dropLast_concat]
    rw [Bank.cache_opStk, hops, List.getLastD_concat, hb] at h
    exact h
  · have h := completes_earlySpill (k := retStk) (i := .returnSpill c) rfl hpow hu hidle (by rw [Bank.cache_retStk, hrets]; simp) hcheck hpl hw hsb hacq hfence
    have hb : (s.m.core c).bank.spilled retStk = { (s.m.core c).bank with rsp := w64 ((s.m.core c).bank.rsp.toNat - 8), rets := rets } := by
      show { (s.m.core c).bank with rsp := w64 ((s.m.core c).bank.rsp.toNat - 8), rets := (s.m.core c).bank.rets.dropLast } = _
      rw [hrets, List.dropLast_concat]
    rw [Bank.cache_retStk, hrets, List.getLastD_concat, hb] at h
    exact h
  · have h := completes_earlyFill (k := opStk) (i := .stackFill c) rfl hpow hu hidle hroom hcheck hpl hsb hacq hpoi
    have hb : (s.m.core c).bank.filled opStk (w64 (s.m.rdLe pa 8)) =
        { (s.m.core c).bank with sp := (s.m.core c).bank.sp + 8, ops := (s.m.core c).bank.ops ++ [w64 (s.m.rdLe pa 8)] } := by
      rw [← w64_add_eight]; rfl
    rw [hb] at h
    exact h
  · have h := completes_earlyFill (k := retStk) (i := .returnFill c) rfl hpow hu hidle hroom hcheck hpl hsb hacq hpoi
    have hb : (s.m.core c).bank.filled retStk (w64 (s.m.rdLe pa 8)) =
        { (s.m.core c).bank with rsp := (s.m.core c).bank.rsp + 8, rets := (s.m.core c).bank.rets ++ [w64 (s.m.rdLe pa 8)] } := by
      rw [← w64_add_eight]; rfl
    rw [hb] at h
    exact h

end Sys2Proof.Machine
end

section
/-! ERET lets a stopped pass of the finishing engine go on (R285), and what that pass reads may count an error of the bolt (R341): the refutation of the
statement on SYNC, ERET and banks. -/

namespace Sys2Proof.Machine

/-- A cap for a page of code at 0x10000. -/
def codeCap : Cap := mkCap 0 4095 0 0x10000 0x10000 true
/-- A core that stands at the start of that page, which its TLB maps to local address 0x20000. -/
def plainCore : Core :=
  { run := .running, piece := some {}, fetchCap := codeCap, bank := { pc := 0x10000, caps := [(0, codeCap)] }
    mem := { tlb := [(0, { key := tlbKey 0 3 1, age := 0, val := { part := 0, vpn := 1, level := 3, pa := 0x20000, x := true, w := true } })] } }
/-- A powered module with one core, in a running partition. -/
def plainMod (k : Core) : Mod :=
  { cores := [(0, k)], parts := [(0, { st := .running, cores := [0], spools := [(0, 1)] })], pwr := { groups := 6 } }
/-- In a handler, with a pass stopped before its one element, a half at the start of the bolt, whose granule holds an error that can be corrected. -/
def stoppedPass : Core :=
  { plainCore with ctl := [(0x000, 0x100)], unitsHeld := true, boltErr := [(0, 1)]
                   fin := { running := some { desc := [0, 0, 0, 0, 0, 0, 0, 0x83], count := 1 } } }

/-- After ERET the pass has read its element, and L2C_CNT3 has counted the corrected error. -/
theorem eret_counts : ((plainMod stoppedPass).within fun m => rowEret 0 0 m).rd (bL2C 0 + 0x58) ≠ (plainMod stoppedPass).rd (bL2C 0 + 0x58) := by
  decide +kernel
/-- Refutes O12: of the registers that lie apart from the core, ERET may change one that counts errors of the bolt. -/
theorem not_syncEretAndBanks : ¬ Obligations.SyncEretAndBanks := by
  unfold Obligations.SyncEretAndBanks
  rintro ⟨h, -⟩
  have hready : (plainMod stoppedPass).standsReady 0 := by unfold Mod.standsReady; decide +kernel
  obtain ⟨-, heret, -⟩ := h { m := plainMod stoppedPass } 0 0 hready
  obtain ⟨-, -, -, -, -, -, hapart⟩ := (heret (by decide +kernel) (by decide +kernel)).of_run rfl (by decide +kernel)
  obtain ⟨-, -, -, -, -, -, -, hregs⟩ := hapart
  have hrd := hregs (bL2C 0 + 0x58) (by decide)
  exact eret_counts hrd

end Sys2Proof.Machine
end

section
/-! What fences, faults, fires and walks leave alone: partitions, fuses, power, and of every core all but its caches; and of a core that they stop, that it
stays halted (R277, R327, R525, R586). -/

namespace Sys2Proof.Machine

/-! ## Fields of a control register -/

theorem Core.cregf_setCregf_apart (k : Core) (a hi lo v hi' lo' : Nat) (h : hi' < 64) (hd : hi' < lo ∨ hi < lo') :
    (k.setCregf a hi lo v).cregf a hi' lo' = k.cregf a hi' lo' := by
  simp only [Core.cregf, Core.setCregf, Core.creg_setCreg_self]; exact fld_setFld_apart _ _ _ _ _ _ h hd
theorem Core.creg_setCregf_ne (k : Core) {a b : Nat} (hi lo v : Nat) (h : b ≠ a) : (k.setCregf a hi lo v).creg b = k.creg b := by
  simp only [Core.setCregf, Core.creg_setCreg, Ne.symm h, if_false]
theorem Core.cregf_setCregf_ne (k : Core) {a b : Nat} (hi lo v hi' lo' : Nat) (h : b ≠ a) : (k.setCregf a hi lo v).cregf b hi' lo' = k.cregf b hi' lo' := by
  simp only [Core.cregf, Core.creg_setCregf_ne k hi lo v h]
/-- COR_EXC is read-only to software (R273), so settling leaves it. -/
theorem Core.settle_exc (k : Core) : k.settle.creg 0x000 = k.creg 0x000 := by
  have fold : ∀ (ws : List (Nat × W64)) (t : Tab W64),
      regVal coreRows (ws.foldl (fun t p => Tab.put t p.1 (rowWrite coreRows p.1 (regVal coreRows t p.1) p.2)) t) 0 = regVal coreRows t 0 := by
    intro ws
    induction ws with
    | nil => exact fun _ => rfl
    | cons p ws ih =>
      intro t
      rw [List.foldl_cons, ih]
      by_cases hp : p.1 = 0
      · rw [hp]
        simp only [regVal, Tab.get?_put, if_true, Option.getD_some]
        rfl
      · simp only [regVal, Tab.get?_put, hp, if_false]
  exact fold k.ctlNew k.ctl
/-- HALTED is a bit of COR_EXC. -/
theorem Core.halted_congr {k q : Core} (h : q.creg 0x000 = k.creg 0x000) : q.halted = k.halted := by simp only [Core.halted, Core.cregf, h]
theorem Core.settle_halted (k : Core) : k.settle.halted = k.halted := Core.halted_congr k.settle_exc

/-! ## Work beside the cores -/

/-- Partitions, fuses and power are as they were, and of every core all but its caches. -/
structure Mod.spares (m t : Mod) : Prop where
  cores : ∀ d, { t.core d with mem := (m.core d).mem } = m.core d
  parts : t.parts = m.parts
  nv : t.nv = m.nv
  pwr : t.pwr = m.pwr

theorem Mod.spares_refl (m : Mod) : m.spares m := ⟨fun _ => rfl, rfl, rfl, rfl⟩
theorem Mod.spares_trans {m t u : Mod} (h : m.spares t) (g : t.spares u) : m.spares u :=
  ⟨fun d => by rw [← h.cores d, ← g.cores d], g.parts.trans h.parts, g.nv.trans h.nv, g.pwr.trans h.pwr⟩
/-- The last piece of work first. -/
theorem Mod.spares_after {m t u : Mod} (g : t.spares u) (h : m.spares t) : m.spares u := Mod.spares_trans h g
theorem Mod.spares_foldl {β : Type} (f : Mod → β → Mod) (h : ∀ (m : Mod) x, m.spares (f m x)) (xs : List β) (m : Mod) : m.spares (xs.foldl f m) :=
  foldl_keeps Mod.spares Mod.spares_refl Mod.spares_trans f h xs m
theorem Mod.spares_ite {m t u : Mod} {p : Prop} [Decidable p] (ht : m.spares t) (hu : m.spares u) : m.spares (if p then t else u) := by
  split <;> assumption
/-- Work that names neither cores nor partitions nor power. -/
theorem Mod.spares_of_eq {m t : Mod} (hc : t.cores = m.cores) (hp : t.parts = m.parts) (hn : t.nv = m.nv) (hw : t.pwr = m.pwr) : m.spares t :=
  ⟨fun d => by simp only [Mod.core, hc], hp, hn, hw⟩
theorem Mod.spares.core_eq {m t : Mod} (h : m.spares t) (d : Nat) : t.core d = { m.core d with mem := (t.core d).mem } := by rw [← h.cores d]
theorem Mod.spares.amid {m t : Mod} (h : m.spares t) (c : CoreId) : m.amid t c := ⟨fun d _ => h.cores d, h.parts, h.nv, h.pwr⟩
theorem Mod.copied.spares {m t : Mod} (h : m.copied t) : m.spares t :=
  ⟨h.cores, h.same (·.parts) fun _ _ _ _ _ _ _ => rfl, h.same (·.nv) fun _ _ _ _ _ _ _ => rfl, h.same (·.pwr) fun _ _ _ _ _ _ _ => rfl⟩
theorem Mod.traffic.spares {m t : Mod} (h : m.traffic t) : m.spares t := h.copied.spares
theorem Mod.spares_wr (m : Mod) (a : Nat) (v : W64) : m.spares (m.wr a v) := Mod.spares_of_eq rfl rfl rfl rfl
theorem Mod.spares_wrf (m : Mod) (a hi lo v : Nat) : m.spares (m.wrf a hi lo v) := Mod.spares_wr m a _
theorem Mod.spares_raise (m : Mod) (a i : Nat) : m.spares (m.raise a i) := Mod.spares_wr m a _
theorem Mod.spares_inc (m : Mod) (a : Nat) : m.spares (m.inc a) := Mod.spares_wr m a _
theorem Mod.spares_toHost (m : Mod) (h : Nat) (x : HostOut) : m.spares (m.toHost h x) := Mod.spares_of_eq rfl rfl rfl rfl

/-! ## Vectors, events and fires -/

theorem Mod.spares_prtVector (m : Mod) (p : Nat) : m.spares (m.prtVector p) := by
  unfold Mod.prtVector
  exact Mod.spares_ite (Mod.spares_refl m)
    (Mod.spares_after (Mod.spares_foldl _ (fun m _ => Mod.spares_toHost m _ _) _ _) (Mod.spares_after (Mod.spares_toHost _ _ _) (Mod.spares_wrf m _ _ _ _)))
theorem Mod.spares_calVector (m : Mod) (h : Nat) : m.spares (m.calVector h) := by
  unfold Mod.calVector
  exact Mod.spares_ite (Mod.spares_refl m) (Mod.spares_after (Mod.spares_toHost _ _ _) (Mod.spares_wrf m _ _ _ _))
theorem Mod.spares_calEvent (m : Mod) (i : Nat) : m.spares (m.calEvent i) :=
  Mod.spares_after (Mod.spares_calVector _ _) (Mod.spares_after (Mod.spares_calVector _ _) (Mod.spares_after (Mod.spares_inc _ _) (Mod.spares_raise m _ _)))
theorem Mod.spares_fire (m : Mod) (part notch : Nat) (src : FireSrc) : m.spares (m.fire part notch src) := by
  unfold Mod.fire
  exact Mod.spares_ite (Mod.spares_refl m) (Mod.spares_of_eq rfl rfl rfl rfl)
theorem Mod.spares_fireFault (m : Mod) (part : Nat) : m.spares (m.fireFault part) :=
  Mod.spares_after (Mod.spares_prtVector _ _) (Mod.spares_after (Mod.spares_inc _ _) (Mod.spares_after (Mod.spares_raise _ _ _) (Mod.spares_fire m _ _ _)))

/-! ## Memory -/

theorem Mod.spares_setBytes (m : Mod) (pa n : Nat) (mem : Tab Byte) : m.spares (({ m with mem := mem }.clearTags pa n).cleanLines pa n) := by
  have hmem : m.spares { m with mem := mem } := Mod.spares_of_eq rfl rfl rfl rfl
  refine Mod.spares_after (t := { m with mem := mem }.clearTags pa n) ?_ (Mod.spares_after ?_ hmem)
  · unfold Mod.cleanLines
    exact Mod.spares_ite (Mod.spares_of_eq rfl rfl rfl rfl) (Mod.spares_refl _)
  · unfold Mod.clearTags
    exact Mod.spares_ite (Mod.spares_refl _) (Mod.spares_of_eq rfl rfl rfl rfl)
theorem Mod.spares_wrMem (m : Mod) (pa : Nat) (bs : List Byte) : m.spares (m.wrMem pa bs) := by
  unfold Mod.wrMem
  refine Mod.spares_ite (Mod.spares_foldl _ (fun m _ => ?_) _ m) (Mod.spares_setBytes m pa _ _)
  unfold Mod.wrLine
  exact Mod.spares_ite (Mod.spares_inc m _) (Mod.spares_setBytes m _ _ _)
theorem Mod.spares_ncWrite (m : Mod) (pa : Nat) (bs : List Byte) (alloc : Bool) : m.spares (m.ncWrite pa bs alloc) := by
  obtain ⟨t, ht, he⟩ := Mod.ncWrite_eq m pa bs alloc
  rw [he]
  exact Mod.spares_after (Mod.spares_wrMem t _ _) ht.spares
theorem Mod.spares_scramble (m : Mod) (pa n : Nat) : m.spares (m.scramble pa n) :=
  Mod.spares_after (Mod.spares_ncWrite (m.freeBytes n).2 pa _ true) (Mod.spares_of_eq rfl rfl rfl rfl)
theorem Mod.spares_updMem (m : Mod) (c : Nat) (f : CoreMem → CoreMem) : m.spares (m.updMem c f) := (Mod.traffic_updMem m c f).spares

/-! ## Errors of cache arrays, reads and walks -/

theorem Mod.spares_poisonLine (m : Mod) (la : Nat) : m.spares (m.poisonLine la) := (Mod.traffic_poisonLine m la).spares
theorem Mod.spares_l2cFlag (m : Mod) (c b : Nat) : m.spares (m.l2cFlag c b) := Mod.spares_of_eq rfl rfl rfl rfl
theorem Mod.spares_pncFlag (m : Mod) (p b : Nat) : m.spares (m.pncFlag p b) := Mod.spares_of_eq rfl rfl rfl rfl
theorem Mod.spares_l2Error (m : Mod) (c la : Nat) (e : ErrCode) : m.spares (m.l2Error c la e) := by
  unfold Mod.l2Error
  dsimp only
  refine Mod.spares_ite (Mod.spares_refl m) (Mod.spares_ite (Mod.spares_l2cFlag m _ _) (Mod.spares_ite (Mod.spares_ite ?_ ?_) ?_))
  · exact Mod.spares_after (Mod.spares_poisonLine _ _) (Mod.spares_l2cFlag m _ _)
  · exact Mod.spares_after (Mod.spares_updMem _ _ _) (Mod.spares_l2cFlag m _ _)
  · split
    · exact Mod.spares_refl m
    · exact Mod.spares_after (Mod.spares_l2cFlag _ _ _) (Mod.spares_updMem m _ _)
theorem Mod.spares_l1dError (m : Mod) (c la : Nat) (e : ErrCode) : m.spares (m.l1dError c la e) := by
  unfold Mod.l1dError
  exact Mod.spares_ite (Mod.spares_refl m) (Mod.spares_ite (Mod.spares_l2cFlag m _ _) (Mod.spares_after (Mod.spares_l2cFlag _ _ _) (Mod.spares_updMem m _ _)))
theorem Mod.spares_l1iError (m : Mod) (c la : Nat) (e : ErrCode) : m.spares (m.l1iError c la e) := by
  unfold Mod.l1iError
  split
  · exact Mod.spares_refl m
  · exact Mod.spares_ite (Mod.spares_refl m) (Mod.spares_after (Mod.spares_l2cFlag _ _ _) (Mod.spares_updMem m _ _))
theorem Mod.spares_pncError (m : Mod) (la : Nat) (e : ErrCode) : m.spares (m.pncError la e) := by
  have hdrop := (Mod.traffic_pncDrop m la).spares
  unfold Mod.pncError
  dsimp only
  split
  · exact Mod.spares_refl m
  · split
    · exact Mod.spares_refl m
    · exact Mod.spares_pncFlag m _ _
    · exact Mod.spares_ite (Mod.spares_after (Mod.spares_poisonLine _ _) (Mod.spares_pncFlag m _ _)) (Mod.spares_after (Mod.spares_pncFlag _ _ _) hdrop)
    · have h := Mod.spares_after (Mod.spares_pncFlag (m.pncDrop la) (m.homePanel la) 2) hdrop
      exact Mod.spares_ite (Mod.spares_trans h (Mod.spares_of_eq rfl rfl rfl rfl)) h
theorem Mod.spares_scratchError (m : Mod) (la : Nat) (e : ErrCode) : m.spares (m.scratchError la e) := by
  unfold Mod.scratchError
  split
  · exact Mod.spares_pncFlag m _ _
  · exact Mod.spares_after (Mod.spares_poisonLine _ _) (Mod.spares_pncFlag m _ _)
  · exact Mod.spares_refl m
theorem Mod.spares_meetErr (m : Mod) (array c la : Nat) : m.spares (m.meetErr array c la) := by
  unfold Mod.meetErr
  refine Mod.spares_ite (Mod.spares_after (Mod.spares_foldl _ (fun m u => ?_) _ _) (Mod.spares_of_eq rfl rfl rfl rfl)) (Mod.spares_refl m)
  split
  · exact Mod.spares_l1iError m _ _ _
  · exact Mod.spares_l1dError m _ _ _
  · exact Mod.spares_l2Error m _ _ _
  · exact Mod.spares_pncError m _ _
  · exact Mod.spares_scratchError m _ _
theorem Mod.spares_ncRead (m : Mod) (pa n age : Nat) : m.spares (m.ncRead pa n age).2 := by
  unfold Mod.ncRead
  refine Mod.spares_ite (Mod.spares_foldl _ (fun m la => ?_) _ m) (Mod.spares_foldl _ (fun m la => ?_) _ m)
  · dsimp only
    have h0 := Mod.spares_after (Mod.traffic_pncLook (m.meetErr 3 0 la) la).spares (Mod.spares_meetErr m 3 0 la)
    generalize (m.meetErr 3 0 la).pncLook la = m0 at h0 ⊢
    have h1 : m.spares (if m0.busy la = true then m0 else match (m0.dirAt la).st with
        | .x o => match ((m0.lostLine o la).core o).mem.state la with
          | .m => ((m0.lostLine o la).updMem o fun k => k.setState la .e).pncPut la 1 true
          | .i => (if ((m0.lostLine o la).core o).mem.wbDirty la = true then (m0.lostLine o la).pncPut la 1 true else m0.lostLine o la).setDir la {}
          | _ => m0.lostLine o la
        | _ => m0) := by
      refine Mod.spares_ite h0 ?_
      split
      · have h2 := fun o => Mod.spares_after (Mod.traffic_lostLine m0 o la).spares h0
        split
        · exact Mod.spares_after (Mod.traffic_pncPut _ _ _ _).spares (Mod.spares_after (Mod.spares_updMem _ _ _) (h2 _))
        · exact Mod.spares_after (Mod.traffic_setDir _ _ _).spares (Mod.spares_ite (Mod.spares_after (Mod.traffic_pncPut _ _ _ _).spares (h2 _)) (h2 _))
        · exact h2 _
      · exact h0
    exact Mod.spares_ite h1 (Mod.spares_ite (Mod.spares_after (Mod.traffic_askRange _ _ _ _ _).spares h1)
      (Mod.spares_after (Mod.traffic_pncPut _ _ _ _).spares (Mod.spares_after (Mod.traffic_askSpool _ la false).spares h1)))
  · exact Mod.spares_ite (Mod.spares_meetErr m _ _ _) (Mod.spares_refl m)
theorem Mod.spares_l1Install (m : Mod) (c : Nat) (l : Leaf) : m.spares (m.l1Install c l) := Mod.spares_updMem m c _
theorem Mod.spares_walkDo (m : Mod) (panel part : Nat) (core : Option Nat) (va : Nat) : m.spares (m.walkDo panel part core va).2 := by
  have hev : ∀ m : Mod, m.spares (match core with | some c => (m.evCore c 0x06 1).evCore c 0x07 1 | none => m) := by
    intro m
    cases core with
    | none => exact Mod.spares_refl m
    | some c => exact Mod.spares_after (Mod.copied_evCore _ _ _ _).spares (Mod.copied_evCore m _ _ _).spares
  have hread := Mod.spares_after (hev _) (Mod.spares_after
    (Mod.spares_foldl (fun (m : Mod) a => (m.ncRead a 8).2) (fun m a => Mod.spares_ncRead m a 8 1) (walkReads m part va 4 0 (m.rdf (bXLT part) 45 15 * 2 ^ 15)) _)
    (Mod.spares_ite (p := (walkReads m part va 4 0 (m.rdf (bXLT part) 45 15 * 2 ^ 15)).isEmpty) (Mod.spares_refl m)
      (Mod.spares_after (Mod.traffic_evPanel _ panel 0x0A 1 (some part)).spares (Mod.spares_inc m (bXLT part + 0x40)))))
  unfold Mod.walkDo
  dsimp only
  split
  next l _ _ =>
    refine Mod.spares_trans (Mod.spares_trans hread (Mod.copied_stlbInstall _ panel l).spares) ?_
    cases core with
    | none => exact Mod.spares_refl _
    | some c => exact Mod.spares_l1Install _ c l
  · exact Mod.spares_trans hread (Mod.spares_inc _ _)
theorem Mod.spares_xlatNow {m t : Mod} {c va n : Nat} {acc : Acc} {p : Place} (h : m.xlatNow c acc va n = .ok (p, t)) : m.spares t := by
  unfold Mod.xlatNow at h
  split at h
  · split at h
    · cases h
    · exact Mod.spares_after (Mod.copied_xlat h).spares (Mod.spares_walkDo m _ _ _ _)
  · exact (Mod.copied_xlat h).spares

/-! ## Pieces -/

theorem Mod.spares_pat (m : Mod) (q : PatState) : m.spares { m with pat := q } := Mod.spares_of_eq rfl rfl rfl rfl
theorem Mod.spares_setPiece (m : Mod) (x : PatSlot) (i state count : Nat) : m.spares (m.setPiece x i state count) := by
  have h := Mod.spares_ncWrite m (x.stateBase + 8 * i) (toLe 8 (stateOf state count)) true
  unfold Mod.setPiece
  dsimp only
  generalize m.ncWrite (x.stateBase + 8 * i) (toLe 8 (stateOf state count)) true = m1 at h ⊢
  exact Mod.spares_trans h (Mod.spares_pat m1 _)
theorem Mod.spares_updPat (m : Mod) (p s : Nat) (f : PatSlot → PatSlot) : m.spares (m.updPat p s f) := by
  unfold Mod.updPat
  split
  · exact Mod.spares_of_eq rfl rfl rfl rfl
  · exact Mod.spares_refl m
theorem Mod.spares_failPiece (m : Mod) (id : PieceId) : m.spares (m.failPiece id) := by
  unfold Mod.failPiece
  split
  · exact Mod.spares_after (Mod.spares_updPat _ _ _ _) (Mod.spares_setPiece m _ _ _ _)
  · exact Mod.spares_refl m
theorem Mod.spares_ready (m : Mod) (panel : Nat) (r : Ready) : m.spares (m.ready panel r) := by
  unfold Mod.ready
  exact Mod.spares_ite (Mod.spares_of_eq rfl rfl rfl rfl) (Mod.spares_of_eq rfl rfl rfl rfl)
theorem Mod.spares_readySaved (m : Mod) (s : Saved) : m.spares (m.readySaved s) := by
  unfold Mod.readySaved
  split
  · exact Mod.spares_trans (Mod.spares_setPiece m _ _ _ _) (Mod.spares_ready _ _ _)
  · exact Mod.spares_refl m
theorem Mod.spares_updSaved (m : Mod) (f : List Saved → List Saved) : m.spares (m.updSaved f) := Mod.spares_of_eq rfl rfl rfl rfl
theorem Mod.spares_replySaved (m : Mod) (id : PieceId) (code : Nat) : m.spares (m.replySaved id code) := by
  unfold Mod.replySaved
  split
  · exact Mod.spares_refl m
  · exact Mod.spares_ite (Mod.spares_trans (Mod.spares_updSaved m _) (Mod.spares_readySaved _ _)) (Mod.spares_updSaved m _)

/-! ## Commands that touch neither fuses nor power -/

theorem completes_kept {i : Instr} {s : State} {f : Mod → Mod} {P : Mod → Prop} (hi : exec i s = s.run f) (h : s.m.powered = true)
    (hnv : (f s.m).nv = s.m.nv) (hpwr : (f s.m).pwr = s.m.pwr) (hp : P (f s.m)) : completes i s P :=
  completes_run hi h (by rw [← hnv, ← hpwr]; exact hp)

end Sys2Proof.Machine
end

section
/-! A core that halts, or that a fence stops, stays halted and free through everything that a fence brings (R277, R434, R525, R586). -/

namespace Sys2Proof.Machine

/-- A core is halted and holds no piece. -/
def Core.out (k : Core) : Prop := k.halted = true ∧ k.run = .free
/-- Fuses and power are as they were, and a core that was halted is so still. -/
structure Mod.stills (m t : Mod) : Prop where
  out : ∀ d, (m.core d).out → (t.core d).out
  nv : t.nv = m.nv
  pwr : t.pwr = m.pwr

theorem Core.out_congr {k q : Core} (h : q.creg 0x000 = k.creg 0x000) (hrun : q.run = k.run) (hk : k.out) : q.out :=
  ⟨(Core.halted_congr h).trans hk.1, hrun.trans hk.2⟩
theorem Mod.stills_refl (m : Mod) : m.stills m := ⟨fun _ => id, rfl, rfl⟩
theorem Mod.stills_trans {m t u : Mod} (h : m.stills t) (g : t.stills u) : m.stills u :=
  ⟨fun d hd => g.out d (h.out d hd), g.nv.trans h.nv, g.pwr.trans h.pwr⟩
theorem Mod.stills_after {m t u : Mod} (g : t.stills u) (h : m.stills t) : m.stills u := Mod.stills_trans h g
theorem Mod.stills_foldl {β : Type} (f : Mod → β → Mod) (h : ∀ (m : Mod) x, m.stills (f m x)) (xs : List β) (m : Mod) : m.stills (xs.foldl f m) :=
  foldl_keeps Mod.stills Mod.stills_refl Mod.stills_trans f h xs m
theorem Mod.stills_ite {m t u : Mod} {p : Prop} [Decidable p] (ht : m.stills t) (hu : m.stills u) : m.stills (if p then t else u) := by
  split <;> assumption
theorem Mod.spares.out {m t : Mod} (h : m.spares t) (d : Nat) : (t.core d).out ↔ (m.core d).out := by rw [h.core_eq d]; exact Iff.rfl
theorem Mod.spares.stills {m t : Mod} (h : m.spares t) : m.stills t := ⟨fun d => (h.out d).mpr, h.nv, h.pwr⟩
/-- A change of one core that leaves it halted. -/
theorem Mod.stills_updCore (m : Mod) (c : Nat) {f : Core → Core} (hf : ∀ k : Core, k.out → (f k).out) : m.stills (m.updCore c f) := by
  refine ⟨fun d hd => ?_, rfl, rfl⟩
  by_cases h : d = c
  · rw [h, Mod.core_updCore_self]; exact hf _ (h ▸ hd)
  · rw [Mod.core_updCore_ne m f h]; exact hd
theorem Mod.stills_setCregf (m : Mod) (c a hi lo v : Nat) (ha : 0 ≠ a) : m.stills (m.updCore c fun k => k.setCregf a hi lo v) :=
  Mod.stills_updCore m c fun k => Core.out_congr (Core.creg_setCregf_ne k hi lo v ha) rfl

/-! ## Shuttles and faults of a partition that stops -/

theorem Mod.stills_scrambleDst (m : Mod) (s : Nat) (d : ShtDesc) : m.stills (m.scrambleDst s d) := by
  unfold Mod.scrambleDst
  refine Mod.stills_foldl _ (fun m r => ?_) _ m
  dsimp only
  split
  · have hfree : m.stills (m.freeBytes d.len).2 := ⟨fun _ => id, rfl, rfl⟩
    exact Mod.stills_trans hfree (Mod.stills_updCore _ _ fun k => Core.out_congr rfl rfl)
  · refine Mod.stills_foldl _ (fun m p => ?_) _ m
    split
    · exact (Mod.spares_scramble m _ _).stills
    · exact Mod.stills_refl m
  · exact Mod.stills_refl m
theorem Mod.spares_shtEnd (m : Mod) (s : Nat) (d : ShtDesc) (status : Nat) : m.spares (m.shtEnd s d status) := by
  have h : m.spares (((m.updSht s fun q => { q with running := q.running.filter (·.id != d.id) }).fire d.piece.part (d.f 4 15 0) (.shuttle s)).shtCnt s 1 1) :=
    Mod.spares_after (Mod.spares_wrf _ _ _ _ _) (Mod.spares_after (Mod.spares_fire _ _ _ _) (Mod.spares_of_eq rfl rfl rfl rfl))
  unfold Mod.shtEnd
  exact Mod.spares_ite h (Mod.spares_after (Mod.spares_prtVector _ _) (Mod.spares_after (Mod.spares_wr _ _ _) (Mod.spares_trans h (Mod.spares_wr _ _ _))))
/-- Descriptors of every shuttle end, their destinations undefined. -/
theorem Mod.stills_shtEnds (m : Mod) (f : ShtDesc → Bool) (status : Nat) :
    m.stills ((upto 8).foldl (fun (m : Mod) s => ((m.sht s).running.filter f).foldl (fun (m : Mod) d => (m.scrambleDst s d).shtEnd s d status) m) m) :=
  Mod.stills_foldl _ (fun m s => Mod.stills_foldl _ (fun m d => Mod.stills_after (Mod.spares_shtEnd _ s d status).stills (Mod.stills_scrambleDst m s d)) _ m) _ m
theorem Mod.stills_endHostKind (m : Mod) (f : ShtDesc → Bool) : m.stills (m.endHostKind f) := Mod.stills_shtEnds m f 6
theorem Mod.stills_shtStopPart (m : Mod) (p : Nat) : m.stills (m.shtStopPart p) := Mod.stills_shtEnds m _ 0x14
theorem Core.creg_foldl_setCreg_ne (a : Nat) (regs : List (Nat × W64)) (h : ∀ r ∈ regs, a ≠ r.1) (k : Core) :
    (regs.foldl (fun k r => k.setCreg r.1 r.2) k).creg a = k.creg a ∧ (regs.foldl (fun k r => k.setCreg r.1 r.2) k).run = k.run := by
  induction regs generalizing k with
  | nil => exact ⟨rfl, rfl⟩
  | cons r rs ih =>
    obtain ⟨hreg, hrun⟩ := ih (fun x hx => h x (by simp [hx])) (k.setCreg r.1 r.2)
    exact ⟨hreg.trans (by rw [Core.creg_setCreg, if_neg (h r (by simp)).symm]), hrun⟩
theorem Mod.stills_setTrap (m : Mod) (c v : Nat) (regs : List (Nat × W64)) (h : ∀ r ∈ regs, 0 ≠ r.1) : m.stills (m.setTrap c v regs) :=
  Mod.stills_updCore m c fun k =>
    Core.out_congr (Core.creg_foldl_setCreg_ne 0 regs h k).1 (Core.creg_foldl_setCreg_ne 0 regs h k).2
theorem Mod.stills_flqStop (m : Mod) (p : Nat) : m.stills (m.flqStop p) := by
  unfold Mod.flqStop
  dsimp only
  refine Mod.stills_after (Mod.stills_foldl _ (fun m u => ?_) _ _) ⟨fun _ => id, rfl, rfl⟩
  cases u with
  | core c =>
    show m.stills (m.releaseUnit 1 (.core c))
    simp only [Mod.releaseUnit]
    split
    · exact Mod.stills_setTrap m c 2 _ (by simp)
    · exact Mod.stills_refl m
  | saved id a => exact (Mod.spares_replySaved m id 1).stills
  | shuttle s id => exact Mod.stills_refl m
theorem Mod.stills_stopPart (m : Mod) (p : Nat) : m.stills (m.stopPart p) := by
  unfold Mod.stopPart
  refine Mod.stills_ite (Mod.stills_refl m) (Mod.stills_after (Mod.stills_shtStopPart _ p) (Mod.stills_after (Mod.stills_flqStop _ p) ?_))
  exact Mod.stills_trans (t := m.updPart p fun q => { q with st := .stopped }) ⟨fun _ => id, rfl, rfl⟩
    (Mod.stills_foldl _ (fun m c => Mod.stills_setCregf m c 0x018 17 17 1 (by decide)) _ _)

/-! ## A core stops -/

theorem Mod.stills_unseat (m : Mod) (c : Nat) : m.stills (m.unseat c) := by
  have hseat : m.stills (m.setCore c { ((m.core c).setCregf 0x0A0 48 0 0) with seats := [] }) :=
    Mod.stills_updCore m c (f := fun k => { (k.setCregf 0x0A0 48 0 0) with seats := [] }) fun k => Core.out_congr (Core.creg_setCregf_ne k _ _ _ (by decide)) rfl
  unfold Mod.unseat
  dsimp only
  refine Mod.stills_ite (Mod.stills_refl m) ?_
  split
  · exact Mod.stills_after (Mod.spares_wrf _ _ _ _ _).stills hseat
  · exact hseat
theorem Mod.halted_unseat {m : Mod} {c : Nat} (h : (m.core c).halted = true) : ((m.unseat c).core c).halted = true := by
  have hseat : ∀ k : Core, k.halted = true → ({ (k.setCregf 0x0A0 48 0 0) with seats := [] } : Core).halted = true := fun k hk =>
    (Core.halted_congr (Core.creg_setCregf_ne k _ _ _ (by decide))).trans hk
  unfold Mod.unseat
  dsimp only
  split
  · exact h
  · split
    · show ((m.setCore c _).core c).halted = true
      rw [Mod.core_setCore_self]; exact hseat _ h
    · rw [Mod.core_setCore_self]; exact hseat _ h
/-- The core itself is halted and free (R277). -/
theorem Mod.out_stopCore (m : Mod) (c : Nat) : ((m.stopCore c).core c).out := by
  have h1 : ((m.updCore c fun k => { k.setCregf 0x000 24 24 1 with trap := none }).core c).halted = true := by
    rw [Mod.core_updCore_self]
    exact beq_iff_eq.mpr (Core.cregf_setCregf_self (m.core c) 0 24 24 1 (by decide))
  unfold Mod.stopCore
  dsimp only
  rw [Mod.core_updCore_self]
  refine ⟨?_, rfl⟩
  cases (m.core c).piece with
  | none => exact h1
  | some id =>
    show ((((m.updCore c _).unseat c).failPiece id).core c).halted = true
    rw [(Mod.spares_failPiece _ id).core_eq c]
    exact Mod.halted_unseat h1
theorem Mod.stills_stopCore (m : Mod) (c : Nat) : m.stills (m.stopCore c) := by
  have h1 : m.stills (m.updCore c fun k => { k.setCregf 0x000 24 24 1 with trap := none }) :=
    Mod.stills_updCore m c fun k hk => ⟨beq_iff_eq.mpr (Core.cregf_setCregf_self k 0 24 24 1 (by decide)), hk.2⟩
  unfold Mod.stopCore
  dsimp only
  refine Mod.stills_after (Mod.stills_updCore _ c fun k hk => ⟨hk.1, rfl⟩) ?_
  split
  · exact Mod.stills_after (Mod.spares_failPiece _ _).stills (Mod.stills_after (Mod.stills_unseat _ _) h1)
  · exact h1
/-- The fault notch, or the vector, of the core's partition, and a module event. -/
theorem Mod.stills_calEvent (m : Mod) (i : Nat) : m.stills (m.calEvent i) := (Mod.spares_calEvent m i).stills
theorem Mod.stills_fenceOne (m : Mod) (c : Nat) : m.stills (m.fenceOne c) := by
  unfold Mod.fenceOne
  dsimp only
  refine Mod.stills_ite (Mod.stills_refl m) (Mod.stills_after (Mod.stills_calEvent _ 1) ?_)
  have hstop : m.stills ((m.stopCore c).wr (bCAL + 0x40 + 8 * (c / 64)) (setBit (m.rd (bCAL + 0x40 + 8 * (c / 64))) (c % 64) true)) :=
    Mod.stills_after (Mod.spares_wr _ _ _).stills (Mod.stills_stopCore m c)
  split
  · exact Mod.stills_ite (Mod.stills_after (Mod.spares_fireFault _ _).stills hstop) (Mod.stills_after (Mod.spares_prtVector _ _).stills hstop)
  · exact hstop
theorem Mod.stills_fenceSpool (m : Mod) (s : Nat) : m.stills (m.fenceSpool s) := by
  unfold Mod.fenceSpool
  refine Mod.stills_ite (Mod.stills_refl m) (Mod.stills_after (Mod.stills_calEvent _ 1) ?_)
  exact ⟨fun _ => id, rfl, rfl⟩
theorem Mod.stills_fencePanel (m : Mod) (p : Nat) : m.stills (m.fencePanel p) := by
  unfold Mod.fencePanel
  refine Mod.stills_ite (Mod.stills_refl m) (Mod.stills_after (Mod.stills_foldl _ (fun m q => Mod.stills_ite (Mod.stills_stopPart m q) (Mod.stills_refl m)) _ _) ?_)
  refine Mod.stills_after (Mod.stills_foldl _ (fun m i => Mod.stills_fenceSpool m _) _ _) (Mod.stills_after (Mod.stills_foldl _ (fun m i => Mod.stills_fenceOne m _) _ _) ?_)
  exact Mod.stills_after (Mod.stills_calEvent _ 1) (Mod.spares_raise m _ _).stills
theorem Mod.stills_fenceCore (m : Mod) (c : Nat) : m.stills (m.fenceCore c) := by
  unfold Mod.fenceCore
  exact Mod.stills_ite (Mod.stills_after (Mod.stills_fencePanel _ _) (Mod.stills_fenceOne m c)) (Mod.stills_fenceOne m c)
/-- A core that halts is halted, and without its piece. -/
theorem Mod.out_halt (m : Mod) (c : Nat) : ((m.halt c).core c).out := by
  have h : (m.stopCore c).stills (m.halt c) := by
    unfold Mod.halt
    dsimp only
    have hfault : (m.stopCore c).stills (match (m.stopCore c).partOf c with | some p => (m.stopCore c).fireFault p | none => m.stopCore c) := by
      split
      · exact (Mod.spares_fireFault _ _).stills
      · exact Mod.stills_refl _
    have hev := Mod.stills_after (Mod.stills_calEvent _ 0) hfault
    exact Mod.stills_ite (Mod.stills_after (Mod.stills_fenceCore _ c) hev) hev
  exact h.out c (Mod.out_stopCore m c)

end Sys2Proof.Machine
end

section
/-! Entering a handler (R270 to R278, R282, R283, R288): of a compute core, and of the fitter with COR_XINT. -/

namespace Sys2Proof.Machine

/-! ## The image of a bank -/

/-- A cap's two words give its bits back. -/
theorem ofNat_halves (x : BitVec 128) : BitVec.ofNat 128 ((x.setWidth 64).toNat + ((x >>> 64).setWidth 64).toNat * 2 ^ 64) = x := by
  apply BitVec.eq_of_toNat_eq
  simp only [BitVec.toNat_ofNat, BitVec.toNat_setWidth, BitVec.toNat_ushiftRight, Nat.shiftRight_eq_div_pow]
  have := x.isLt
  omega
theorem Bank.image_pc (b : Bank) : b.image.word 0 = b.pc := rfl
/-- The caps of a bank come back from its image. -/
theorem Bank.image_cap (b : Bank) {i : Nat} (h : i < 8) : b.image.cap i = b.cap i := by
  have halves : ∀ j, b.image.word (0x10 + 2 * j) = (b.cap j).bits.setWidth 64 → b.image.word (0x11 + 2 * j) = ((b.cap j).bits >>> 64).setWidth 64 →
      Tab.get false b.image.tags j = (b.cap j).tag → b.image.cap j = b.cap j := by
    intro j hlo hhi htag
    rw [Image.cap, hlo, hhi, htag, ofNat_halves]
  interval_cases i <;> exact halves _ rfl rfl rfl

/-! ## Before the descriptor is read -/

theorem Core.bank_foldl_boltWrite {α : Type} (off : α → Nat) (bs : α → List Byte) (xs : List α) (k : Core) :
    (xs.foldl (fun (k : Core) x => k.boltWrite (off x) (bs x)) k).bank = k.bank := by
  induction xs generalizing k with
  | nil => rfl
  | cons x xs ih => exact ih _
theorem Mod.spares_finStore (m : Mod) (ps : List (Place × Nat)) (bs : Tab Byte) : m.spares (m.finStore ps bs) := by
  unfold Mod.finStore
  refine Mod.spares_foldl _ (fun m p => ?_) _ m
  split
  · exact Mod.spares_ncWrite m _ _ _
  · exact Mod.spares_refl m
theorem Mod.bank_writeElems (m : Mod) (c : Nat) (p : FinPass) (lo hi : Nat) : ((m.writeElems c p lo hi).core c).bank = (m.core c).bank := by
  unfold Mod.writeElems
  dsimp only
  split
  · rfl
  · rw [Mod.core_updCore_self]
  · rw [Mod.core_updCore_self]; exact Core.bank_foldl_boltWrite _ _ _ _
  · rw [(Mod.spares_finStore m _ _).core_eq c]
/-- A pass that stops leaves the active bank. -/
theorem Mod.bank_stopPass (m : Mod) (c : Nat) : ((m.stopPass c).core c).bank = (m.core c).bank := by
  unfold Mod.stopPass
  split
  · rfl
  · split
    · rfl
    · dsimp only
      rw [Mod.core_updCore_self]
      exact Mod.bank_writeElems m.freeW.2 c _ _ _
/-- COR_EXC with vector and depth, and the entry counted (R273). -/
def Core.excTaken (k : Core) (v d : Nat) : Core := ((k.setCregf 0x000 4 0 v).setCregf 0x000 9 8 d).incCregBy 0x040 1
theorem Core.cregf_excTaken (k : Core) {v d : Nat} (hv : v < 32) : (k.excTaken v d).cregf 0x000 4 0 = v := by
  rw [Core.excTaken, Core.incCregBy, Core.cregf_setCregf_ne _ _ _ _ _ _ (by decide), Core.cregf_setCregf_apart _ _ _ _ _ _ _ (by decide) (by decide),
    Core.cregf_setCregf_self _ _ _ _ _ (by decide)]
  exact Nat.mod_eq_of_lt hv
theorem Core.excDepth_excTaken (k : Core) {v d : Nat} (hd : d < 4) : (k.excTaken v d).excDepth = d := by
  rw [Core.excDepth, Core.excTaken, Core.incCregBy, Core.cregf_setCregf_ne _ _ _ _ _ _ (by decide), Core.cregf_setCregf_self _ _ _ _ _ (by decide)]
  exact Nat.mod_eq_of_lt hd
/-- The core whose bank has been saved, its exception taken. -/
def Core.banked (k : Core) (prog : Progress) (v d : Nat) : Core :=
  { k.excTaken v d with
      shadow := { k.bank with vec := v, prog := prog }.image, shadowPoison := k.poison, poison := [], trap := none, wait := .none, rbuf := [], mid := false
      resumed := false, unitsHeld := true
      vec := { k.vec with stations := k.vec.stations.map fun s => if s.started then s else { s.unread with held := true } } }
theorem Mod.saveBank_eq (m : Mod) (c v d : Nat) : m.saveBank c v d =
    ((m.updCore c Core.settle).updCore c fun k => k.banked ((m.updCore c Core.settle).core c).progNow v d).evCore c 0x0E 1 := rfl
theorem Core.cregf_congr {k q : Core} (h : q.ctl = k.ctl) (a hi lo : Nat) : q.cregf a hi lo = k.cregf a hi lo := by simp only [Core.cregf, Core.creg, h]
/-- What a core shows whose bank has been saved. -/
theorem Core.saved_banked (k : Core) (prog : Progress) {v d : Nat} (q : CoreMem) (hv : v < 32) (hd : d < 4) :
    let t : Core := { k.banked prog v d with mem := q }
    t.bank = k.bank ∧ t.cregf 0x000 4 0 = v ∧ t.excDepth = d ∧ t.trap = none ∧ t.shadow.word 0 = k.bank.pc ∧ ∀ i, i < 8 → t.shadow.cap i = k.bank.cap i := by
  dsimp only
  exact ⟨rfl, (Core.cregf_congr rfl 0x000 4 0).trans (Core.cregf_excTaken k hv), (Core.cregf_congr rfl 0x000 9 8).trans (Core.excDepth_excTaken k hd), rfl,
    Bank.image_pc _, fun i hi => Bank.image_cap _ hi⟩
/-- The bank is saved, COR_EXC takes vector and depth, and no exception stands (R273, R276). -/
theorem Mod.saved_saveBank (m : Mod) (c : Nat) {v d : Nat} (hv : v < 32) (hd : d < 4) :
    let k := (m.saveBank c v d).core c
    k.bank = (m.core c).bank ∧ k.cregf 0x000 4 0 = v ∧ k.excDepth = d ∧ k.trap = none ∧ k.shadow.word 0 = (m.core c).bank.pc ∧
      ∀ i, i < 8 → k.shadow.cap i = (m.core c).bank.cap i := by
  dsimp only
  rw [Mod.saveBank_eq, (Mod.copied_evCore _ c 0x0E 1).spares.core_eq c, Mod.core_updCore_self, Mod.core_updCore_self]
  exact Core.saved_banked (m.core c).settle _ _ hv hd

/-! ## The descriptor -/

theorem Mod.spares_excCap {m t : Mod} {c va : Nat} {x : Cap} (h : m.excCap c va = some (x, t)) : m.spares t := by
  unfold Mod.excCap at h
  split at h
  next pa m1 hx =>
    split at h
    · cases h
    · obtain ⟨-, rfl⟩ := Prod.mk.inj (Option.some.inj h)
      exact Mod.spares_xlatNow hx
  · cases h
theorem Mod.spares_handler {m t : Mod} {c vec : Nat} {e st : Cap} (h : m.handler c vec = some (e, st, t)) : m.spares t := by
  unfold Mod.handler at h
  dsimp only at h
  split at h
  · cases h
  next e1 m1 he =>
    split at h
    · cases h
    next s1 m2 hs =>
      split at h
      · cases h; exact Mod.spares_trans (Mod.spares_excCap he) (Mod.spares_excCap hs)
      · cases h
/-- A handler's ways: with a usable descriptor and receive block the bank is set, and without a descriptor the core halts. -/
theorem Mod.enter_bank {m m3 : Mod} {c v d : Nat} {e st : Cap} {caps : List Cap}
    (hh : ((m.stopPass c).saveBank c v d).handler c v = some (e, st, m3)) (hc : m3.recvCaps c st.top = some caps) :
    (m.enter c v d).core c = { m3.core c with bank := handlerBank e st caps (m3.core c).bank.vl v, fetchCap := e } := by
  simp only [Mod.enter, hh, hc, Mod.core_updCore_self]
theorem Mod.enter_halts {m : Mod} {c v d : Nat} (hh : ((m.stopPass c).saveBank c v d).handler c v = none) :
    m.enter c v d = ((m.stopPass c).saveBank c v d).halt c := by simp only [Mod.enter, hh]

/-- What entering a handler leaves of a core. -/
structure Mod.entered (m0 t : Mod) (c : CoreId) (v d : Nat) : Prop where
  usable : ∀ e st m3 caps, ((m0.stopPass c.val).saveBank c.val v d).handler c.val v = some (e, st, m3) → m3.recvCaps c.val st.top = some caps →
    (t.core c.val).bank = handlerBank e st caps (m0.core c.val).bank.vl v ∧ (t.core c.val).fetchCap = e ∧ (t.core c.val).cregf 0x000 4 0 = v ∧
      (t.core c.val).excDepth = d ∧ (t.core c.val).trap = none ∧ (t.core c.val).shadow.word 0 = (m0.core c.val).bank.pc ∧
      (∀ i, i < 8 → (t.core c.val).shadow.cap i = (m0.core c.val).bank.cap i)
  halts : ((m0.stopPass c.val).saveBank c.val v d).handler c.val v = none → (t.core c.val).halted = true

theorem Mod.entered_enter (m : Mod) (c : CoreId) {v d : Nat} (hv : v < 32) (hd : d < 4) : m.entered (m.enter c.val v d) c v d := by
  obtain ⟨hbank, hvec, hdepth, htrap, hpc, hcaps⟩ := Mod.saved_saveBank (m.stopPass c.val) c.val hv hd
  rw [Mod.bank_stopPass] at hbank hpc hcaps
  refine ⟨fun e st m3 caps hh hr => ?_, fun hh => ?_⟩
  · have hk := (Mod.spares_handler hh).core_eq c.val
    rw [Mod.enter_bank hh hr, hk]
    exact ⟨congrArg (fun b : Bank => handlerBank e st caps b.vl v) hbank, rfl, hvec, hdepth, htrap, hpc, hcaps⟩
  · rw [Mod.enter_halts hh]
    exact (Mod.out_halt _ c.val).1
/-- Fuses and power do not bear on it. -/
theorem Mod.entered.within {m t : Mod} {c : CoreId} {v d : Nat} {nv : NonVol} {pwr : Power} (h : m.entered t c v d) :
    m.entered { t with nv := nv, pwr := pwr } c v d := ⟨h.usable, h.halts⟩

/-! ## The commands -/

section
variable {s : State} {c : CoreId} {w : W32} {v : Nat} (hp : s.m.powered = true) (hc : c.val ≠ 256) (hb : (s.m.core c.val).atBoundary false = true)
include hp hc hb

theorem completes_exceptionEntry (hv : v < 32) (hnext : (s.m.core c.val).nextTrap = some v) (hdepth : (s.m.core c.val).excDepth = 0)
    (hprobe : (s.m.core c.val).trap = some v ∨ s.m.probe c.val w = none) :
    completes (.exceptionEntry c w) s fun t => (s.m.updCore c.val fun k => k.tookTrap v).entered t c v 1 := by
  have hnone : (if (s.m.core c.val).trap.isSome then none else s.m.probe c.val w) = none := by
    rcases hprobe with h | h <;> simp [h]
  have heq : s.m.exceptionEntry c w = (s.m.updCore c.val fun k => k.tookTrap v).enter c.val v 1 := by
    simp only [Mod.exceptionEntry, hnext, Option.isSome_some, if_true, hc, hb, hdepth, Bool.not_true, Bool.false_eq_true, ne_eq, not_true_eq_false,
      or_self, if_false, hnone]
  exact completes_run (f := fun m => m.exceptionEntry c w) rfl hp (heq ▸ (Mod.entered_enter _ c hv (by decide)).within)
theorem completes_interruptEntry (hv : v < 32) (hint : s.m.intNow c.val = some v) (hnext : (s.m.core c.val).nextTrap = none)
    (hprobe : (s.m.core c.val).resumed = true ∨ s.m.probe c.val w = none) (hst : ∀ q ∈ (s.m.core c.val).vec.stations, q.started = true → q.held = true) :
    completes (.interruptEntry (c, w)) s fun t =>
      (s.m.updCore c.val fun k => (if v = 17 then k.setCregf 0x018 17 17 0 else k).incCregBy 0x050 1).entered t c v 1 := by
  have hnone : (if (s.m.core c.val).resumed then none else s.m.probe c.val w) = none := by
    rcases hprobe with h | h <;> simp [h]
  have hany : ((s.m.core c.val).vec.stations.any fun s => s.started && !s.held) = false := by
    rw [List.any_eq_false]
    intro q hq
    cases hs : q.started with
    | false => simp
    | true => simp [hst q hq hs]
  have heq : s.m.interruptEntry c w =
      (s.m.updCore c.val fun k => (if v = 17 then k.setCregf 0x018 17 17 0 else k).incCregBy 0x050 1).enter c.val v 1 := by
    simp only [Mod.interruptEntry, hint, hc, hb, hnext, hany, Bool.not_true, Bool.false_eq_true, Option.isSome_none, or_self, if_false, hnone]
  exact completes_run (f := fun m => m.interruptEntry c w) rfl hp (heq ▸ (Mod.entered_enter _ c hv (by decide)).within)
theorem completes_doubleFault {st : Cap} {m1 m2 : Mod} (hnext : (s.m.core c.val).nextTrap = some v) (hdepth : (s.m.core c.val).excDepth = 1)
    (hcap : (s.m.updCore c.val Core.settle).saveCap c.val = some (st, m1))
    (himg : m1.saveImage c.val (st.top - 0x280) (m1.core c.val).shadow (st.has pPGTAB) 40 = some (some m2)) :
    completes (.doubleFault c) s fun t =>
      (m2.updCore c.val fun k => ((k.tookTrap v).setCregf 0x000 20 16 v).incCregBy 0x048 1).entered t c 8 2 := by
  have heq : s.m.doubleFault c = (m2.updCore c.val fun k => ((k.tookTrap v).setCregf 0x000 20 16 v).incCregBy 0x048 1).enter c.val 8 2 := by
    simp only [Mod.doubleFault, hnext, hc, hb, hdepth, Bool.not_true, Bool.false_eq_true, or_self, if_false, one_ne_zero, OfNat.one_ne_ofNat, hcap, himg]
  exact completes_run (f := fun m => m.doubleFault c) rfl hp (heq ▸ (Mod.entered_enter _ c (by decide) (by decide)).within)
theorem completes_doubleFault_halts (hnext : (s.m.core c.val).nextTrap = some v)
    (hcase : (s.m.core c.val).excDepth = 1 ∧ (s.m.updCore c.val Core.settle).saveCap c.val = none ∨ (s.m.core c.val).excDepth = 2) :
    completes (.doubleFault c) s fun t => (t.core c.val).out := by
  rcases hcase with ⟨hdepth, hcap⟩ | hdepth
  · have heq : s.m.doubleFault c = (s.m.updCore c.val Core.settle).halt c.val := by
      simp only [Mod.doubleFault, hnext, hc, hb, hdepth, Bool.not_true, Bool.false_eq_true, or_self, if_false, one_ne_zero, OfNat.one_ne_ofNat, hcap]
    exact completes_run (f := fun m => m.doubleFault c) rfl hp (heq ▸ Mod.out_halt _ c.val)
  · have heq : s.m.doubleFault c = s.m.halt c.val := by
      simp only [Mod.doubleFault, hnext, hc, hb, hdepth, Bool.not_true, Bool.false_eq_true, or_self, if_false, OfNat.ofNat_ne_zero, if_true]
    exact completes_run (f := fun m => m.doubleFault c) rfl hp (heq ▸ Mod.out_halt _ c.val)

end

/-- Settles O13: every way into a handler goes through `Mod.enter`, and what it leaves does not depend on the way. -/
theorem handlerEntry : Obligations.HandlerEntry := by
  unfold Obligations.HandlerEntry
  intro s c w v hp hc hb hv k enters
  have hent : ∀ m0 t v d, m0.entered t c v d → enters t m0 v d := fun m0 t v d h => ⟨h.usable, h.halts⟩
  refine ⟨fun hnext hdepth hprobe => ?_, fun hint hnext hprobe hst => ?_, fun hnext hdepth => ⟨fun st m1 m2 hcap himg => ?_, fun hcap => ?_⟩, fun hnext hdepth => ?_⟩
  · exact (completes_exceptionEntry hp hc hb hv hnext hdepth hprobe).mono fun t => hent _ t v 1
  · exact (completes_interruptEntry hp hc hb hv hint hnext hprobe hst).mono fun t => hent _ t v 1
  · exact (completes_doubleFault hp hc hb hnext hdepth hcap himg).mono fun t => hent _ t 8 2
  · exact (completes_doubleFault_halts hp hc hb hnext (.inl ⟨hdepth, hcap⟩)).mono fun t h => h.1
  · exact completes_doubleFault_halts hp hc hb hnext (.inr hdepth)

end Sys2Proof.Machine
end

section
/-! The fitter's own vectors and COR_XINT (R74, R270, R272, R278). -/

namespace Sys2Proof.Machine

/-! ## The fitter's interrupts -/

/-- A fitter that is not halted gives up nothing. -/
theorem Mod.fitterHalts_of_not_halted {m : Mod} (h : (m.core 256).halted = false) : m.fitterHalts = m := by simp [Mod.fitterHalts, h]
/-- One that is halted ends its apply, and fuses and power stay. -/
theorem Mod.stills_fitterHalts (m : Mod) : m.stills m.fitterHalts := by
  unfold Mod.fitterHalts
  refine Mod.stills_ite ?_ (Mod.stills_refl m)
  have hjob : m.stills ({ m with fit := { m.fit with job := none } } : Mod) := ⟨fun _ => id, rfl, rfl⟩
  exact Mod.stills_trans hjob (Mod.stills_trans (Mod.spares_wrf _ _ _ _ _).stills (Mod.stills_endHostKind _ _))
theorem foldl_min_eq {xs : List Nat} {v b : Nat} (hb : v ≤ b) (hle : ∀ i ∈ xs, v ≤ i) (hmem : v = b ∨ v ∈ xs) : xs.foldl min b = v := by
  induction xs generalizing b with
  | nil => exact (hmem.resolve_right (by simp)).symm
  | cons x xs ih =>
    have hx := hle x (by simp)
    refine ih (le_min hb hx) (fun i hi => hle i (by simp [hi])) ?_
    rcases hmem with rfl | hmem
    · exact .inl (min_eq_left hx).symm
    · rcases List.mem_cons.mp hmem with rfl | hmem
      · exact .inl (min_eq_right hb).symm
      · exact .inr hmem
theorem Core.pend_of_nextTrap {k : Core} (h : k.nextTrap = none) : k.trap = none ∧ k.pend = [] := by
  unfold Core.nextTrap at h
  split at h
  · cases h
  next ht =>
    split at h
    next hp => exact ⟨ht, List.isEmpty_iff.mp hp⟩
    · cases h
/-- An event that comes is the fitter's interrupt, where no lower one pends and none of any core's (R272, R288). -/
theorem Mod.fitterInt_fitterIrq {m : Mod} {v : Nat} (hv : v ≤ 31) (hle : ∀ i ∈ m.fit.irq, v ≤ i) (hdepth : (m.core 256).excDepth = 0)
    (hint : m.intNow 256 = none) : (m.fitterIrq v).fitterInt = some v := by
  have hnow : (m.fitterIrq v).intNow 256 = none := hint
  have hdeep : ((m.fitterIrq v).core 256).excDepth = 0 := hdepth
  have hirq : (m.fitterIrq v).fit.irq = if m.fit.irq.contains v then m.fit.irq else v :: m.fit.irq := rfl
  have hmem : v ∈ (m.fitterIrq v).fit.irq := by
    rw [hirq]
    split
    next h => exact List.contains_iff_mem.mp h
    · exact List.mem_cons_self
  have hlow : ∀ i ∈ (m.fitterIrq v).fit.irq, v ≤ i := by
    rw [hirq]
    split
    · exact hle
    · exact fun i hi => (List.mem_cons.mp hi).elim (fun h => h ▸ le_refl v) (hle i)
  have hne : (m.fitterIrq v).fit.irq.isEmpty = false := by
    cases hq : (m.fitterIrq v).fit.irq with
    | nil => rw [hq] at hmem; cases hmem
    | cons => rfl
  simp only [Mod.fitterInt, hnow, hne, hdeep, Bool.false_eq_true, ne_eq, not_true_eq_false, or_self, if_false, foldl_min_eq hv hlow (.inr hmem)]
/-- A vector of the fitter's own that comes where nothing else stands is entered (R270, R278). -/
theorem Mod.fitterEntry_own {m : Mod} {v : Fin 32} {w : W32} (hev : m.fitterEvent v.val = true) (hle : ∀ i ∈ m.fit.irq, v.val ≤ i)
    (hb : (m.core 256).atBoundary true = true) (hnext : (m.core 256).nextTrap = none) (hdepth : (m.core 256).excDepth = 0) (hint : m.intNow 256 = none)
    (hprobe : (m.core 256).resumed = true ∨ (m.fitterIrq v.val).probe 256 w = none) :
    ∃ u : Mod, u.core 256 = m.core 256 ∧ u.mem = m.mem ∧ u.sram = m.sram ∧ m.fitterEntry v w = u.enterFitter v.val 1 := by
  obtain ⟨htrap, hpend⟩ := Core.pend_of_nextTrap hnext
  have h17 : v.val ≠ 17 := by
    rintro h
    rw [h] at hev
    exact absurd hev (by simp [Mod.fitterEvent, fitterVec])
  have hfit := Mod.fitterInt_fitterIrq (Nat.le_of_lt_succ v.isLt) hle hdepth hint
  have hcore : (m.fitterIrq v.val).core 256 = m.core 256 := rfl
  have hnone : (if (m.core 256).resumed = true ∧ (m.core 256).pend.isEmpty = true then none else (m.fitterIrq v.val).probe 256 w) = none := by
    rcases hprobe with h | h <;> simp [h, hpend]
  refine ⟨{ m.fitterIrq v.val with fit := { (m.fitterIrq v.val).fit with irq := (m.fitterIrq v.val).fit.irq.filter (· != v.val) } }, rfl, rfl, rfl, ?_⟩
  simp only [Mod.fitterEntry, hev, if_true, hcore, hb, Bool.not_true, Bool.false_eq_true, if_false, htrap, hfit, Option.isNone_some, and_false, hnone,
    hnext, h17]

/-! ## Entering a handler of the fitter -/

/-- The fitter's core once it has entered a handler at `pc` (R278). -/
def Core.fitterIn (k : Core) (v d : Nat) (pc : W64) : Core :=
  { ((k.setCregf 0x000 4 0 v).setCregf 0x000 9 8 d) with
    shadow := { k.bank with vec := v }.image, shadowPoison := k.poison, poison := [], trap := none, wait := .none, rbuf := [], mid := false, resumed := false
    bank := { k.bank with pc := pc, depth := k.bank.depth - k.bank.ops.length, ops := [], rets := [], load := none, prog := {}, vec := v } }
theorem Mod.core_enterFitter (m : Mod) (v d : Nat) : (m.enterFitter v d).core 256 =
    (m.core 256).settle.fitterIn v d (w64 (ofLe (Memory.bytes m.sram ((m.core 256).settle.cregf 0x7000 47 3 * 8 + 8 * v) 8))) := by
  unfold Mod.enterFitter
  dsimp only
  rw [Mod.core_updCore_self, Mod.core_updCore_self]
  rfl
theorem Core.cregf_fitterIn (k : Core) {v d : Nat} (pc : W64) (hv : v < 32) : (k.fitterIn v d pc).cregf 0x000 4 0 = v := by
  refine (Core.cregf_congr (k := (k.setCregf 0x000 4 0 v).setCregf 0x000 9 8 d) rfl 0 4 0).trans ?_
  rw [Core.cregf_setCregf_apart _ _ _ _ _ _ _ (by decide) (by decide), Core.cregf_setCregf_self _ _ _ _ _ (by decide)]
  exact Nat.mod_eq_of_lt hv
theorem Core.excDepth_fitterIn (k : Core) (v : Nat) {d : Nat} (pc : W64) (hd : d < 4) : (k.fitterIn v d pc).excDepth = d := by
  refine (Core.cregf_congr (k := (k.setCregf 0x000 4 0 v).setCregf 0x000 9 8 d) rfl 0 9 8).trans ?_
  rw [Core.cregf_setCregf_self _ _ _ _ _ (by decide)]
  exact Nat.mod_eq_of_lt hd
theorem Core.halted_fitterIn (k : Core) (v d : Nat) (pc : W64) : (k.fitterIn v d pc).halted = k.halted := by
  have h : (k.fitterIn v d pc).cregf 0 24 24 = k.cregf 0 24 24 := by
    refine (Core.cregf_congr (k := (k.setCregf 0x000 4 0 v).setCregf 0x000 9 8 d) rfl 0 24 24).trans ?_
    rw [Core.cregf_setCregf_apart _ _ _ _ _ _ _ (by decide) (by decide), Core.cregf_setCregf_apart _ _ _ _ _ _ _ (by decide) (by decide)]
  simp only [Core.halted, h]
/-- What the fitter's core shows in its handler. -/
theorem Core.shows_fitterIn (k : Core) {v : Nat} (pc : W64) (hv : v < 32) :
    let t := k.fitterIn v 1 pc
    t.bank.pc = pc ∧ t.bank.ops = [] ∧ t.bank.rets = [] ∧ t.bank.sp = k.bank.sp ∧ t.bank.rsp = k.bank.rsp ∧ (∀ i, t.bank.cap i = k.bank.cap i) ∧
      t.shadow = { k.bank with vec := v }.image ∧ t.excDepth = 1 ∧ t.cregf 0x000 4 0 = v :=
  ⟨rfl, rfl, rfl, rfl, rfl, fun _ => rfl, rfl, Core.excDepth_fitterIn k v pc (by decide), Core.cregf_fitterIn k pc hv⟩
theorem Core.not_halted_of_atBoundary {k : Core} {b : Bool} (h : k.atBoundary b = true) : k.halted = false := by
  simp only [Core.atBoundary, Bool.and_eq_true, Bool.not_eq_true'] at h
  exact h.1.1.1.2

/-! ## COR_XINT -/

theorem Mod.apart_updCore (m : Mod) (c : CoreId) (f : Core → Core) : m.apart (m.updCore c.val f) c :=
  ⟨fun _ hd => Mod.core_updCore_ne m f hd, fun _ => rfl, fun _ => rfl, rfl, rfl, rfl, rfl, fun _ _ => rfl⟩
/-- RAISE counts, lets the interrupt pend, and leaves every other register. -/
theorem Mod.raised_corXint (m : Mod) (c : CoreId) {v : W64} (hv : bit v 0 = true) :
    let t := m.corXint c v
    (t.core c.val).cregf 0x018 16 16 = 1 ∧ (t.core c.val).cregf 0x058 47 0 = ((m.core c.val).cregf 0x058 47 0 + 1) % 2 ^ 48 ∧
      (∀ a, a ≠ 0x018 → a ≠ 0x058 → (t.core c.val).creg a = (m.core c.val).creg a) ∧ (t.core c.val).bank = (m.core c.val).bank ∧ m.apart t c := by
  dsimp only
  have h : m.corXint c v = m.updCore c.val fun k => (k.setCregf 0x018 16 16 1).incCregBy 0x058 1 := by simp only [Mod.corXint, hv, if_true]; rfl
  rw [h, Mod.core_updCore_self]
  refine ⟨?_, ?_, fun a ha hb => ?_, rfl, Mod.apart_updCore m c _⟩
  · rw [Core.incCregBy, Core.cregf_setCregf_ne _ _ _ _ _ _ (by decide), Core.cregf_setCregf_self _ _ _ _ _ (by decide)]
    rfl
  · rw [Core.cregf_incCregBy, Core.cregf_setCregf_ne _ _ _ _ _ _ (by decide)]
  · rw [Core.creg_incCregBy_ne _ _ hb, Core.creg_setCregf_ne _ _ _ _ ha]

/-- Settles O14: a vector of the fitter's own that comes where nothing else stands is its lowest interrupt. -/
theorem fitterEntryAndXint : Obligations.FitterEntryAndXint := by
  unfold Obligations.FitterEntryAndXint
  intro s hp
  refine ⟨fun v w hev hle hb hnext hdepth hint hprobe => ?_, fun c v hv => ?_, fun w h0 h1 hirq hnext hint => ?_⟩
  · obtain ⟨u, hcore, hmem, hsram, heq⟩ := Mod.fitterEntry_own hev hle hb hnext hdepth hint hprobe
    have hk := Mod.core_enterFitter u v.val 1
    rw [hcore, hsram] at hk
    have hhalt : ((u.enterFitter v.val 1).core 256).halted = false := by
      rw [hk, Core.halted_fitterIn, Core.settle_halted, Core.not_halted_of_atBoundary hb]
    have hlast : (s.m.fitterEntry v w).fitterHalts = u.enterFitter v.val 1 := by rw [heq, Mod.fitterHalts_of_not_halted hhalt]
    have hin : completes (.fitterExceptionEntry (v, w)) s fun t => t.core 256 = (u.enterFitter v.val 1).core 256 ∧ t.mem = s.m.mem :=
      completes_run (f := fun m => (m.fitterEntry v w).fitterHalts) rfl hp (by rw [hlast]; exact ⟨rfl, hmem⟩)
    refine hin.mono fun t ⟨hcore', hmem'⟩ => ?_
    rw [hk] at hcore'
    obtain ⟨hpc, hops, hrets, hsp, hrsp, hcap, hshadow, hexc, hvec⟩ := Core.shows_fitterIn (s.m.core 256).settle
      (w64 (ofLe (Memory.bytes s.m.sram ((s.m.core 256).settle.cregf 0x7000 47 3 * 8 + 8 * v.val) 8))) v.isLt
    rw [← hcore'] at hpc hops hrets hsp hrsp hcap hshadow hexc hvec
    exact ⟨hpc, hops, hrets, hsp, hrsp, hcap, hshadow, hexc, hvec, hmem'⟩
  · have hraised := Mod.raised_corXint s.m c hv
    obtain ⟨-, -, -, -, hapart⟩ := hraised
    obtain ⟨-, -, -, -, -, hnv, hpwr, -⟩ := hapart
    exact completes_kept (f := fun m => m.xintWrite none c v) rfl hp hnv hpwr (Mod.raised_corXint s.m c hv)
  · obtain ⟨htrap, hpend⟩ := Core.pend_of_nextTrap hnext
    have hev : s.m.fitterEvent 20 = false := by simp [Mod.fitterEvent, h0, h1]
    have hfit : s.m.fitterInt = none := by simp [Mod.fitterInt, hint, hirq]
    have heq : s.m.fitterEntry 20 w = s.m := by
      unfold Mod.fitterEntry
      rw [show (20 : Fin 32).val = 20 from rfl, hev]
      simp only [Bool.false_eq_true, if_false, htrap, hpend, hfit, List.isEmpty_nil, Option.isNone_none, and_self, if_true, ite_self]
    refine completes_run (f := fun m => (m.fitterEntry 20 w).fitterHalts) rfl hp ?_
    have hpow := Mod.stills_fitterHalts s.m
    rw [heq, ← hpow.nv, ← hpow.pwr]

end Sys2Proof.Machine
end

section
/-! The instructions of pieces, SHPOST, and customer instructions (R242 to R244, R248 to R253, R299, R317, R318, R330, R371, R374). -/

namespace Sys2Proof.Machine

/-! ## What a fetch leaves beside the core -/

/-- Patterns, links, shuttles, message numbers and the adders' requests are as they were. -/
structure Mod.quietBeside (m t : Mod) : Prop where
  pat : t.pat = m.pat
  lnk : t.lnk = m.lnk
  shuttles : t.shuttles = m.shuttles
  nextId : t.nextId = m.nextId
  adds : t.spl.adds = m.spl.adds

theorem Mod.quietBeside_refl (m : Mod) : m.quietBeside m := ⟨rfl, rfl, rfl, rfl, rfl⟩
theorem Mod.quietBeside_trans {m t u : Mod} (h : m.quietBeside t) (g : t.quietBeside u) : m.quietBeside u :=
  ⟨g.pat.trans h.pat, g.lnk.trans h.lnk, g.shuttles.trans h.shuttles, g.nextId.trans h.nextId, g.adds.trans h.adds⟩
theorem Mod.onlyBar.quietBeside {m t : Mod} (h : m.onlyBar t) : m.quietBeside t := by
  have e := h.rest
  have q : ∀ {α : Type} (f : Mod → α), (∀ m b, f { m with bar0 := b } = f m) → f t = f m := fun f hf => by rw [← hf t m.bar0, e]
  exact ⟨q (·.pat) fun _ _ => rfl, q (·.lnk) fun _ _ => rfl, q (·.shuttles) fun _ _ => rfl, q (·.nextId) fun _ _ => rfl, q (·.spl.adds) fun _ _ => rfl⟩
theorem Mod.quietBeside_stlbInstall (m : Mod) (panel : Nat) (l : Leaf) : m.quietBeside (m.stlbInstall panel l) := by
  unfold Mod.stlbInstall
  dsimp only
  split <;> exact ⟨rfl, rfl, rfl, rfl, rfl⟩
theorem Mod.quietBeside_xlat {m t : Mod} {c va n : Nat} {pg : Bool} {acc : Acc} {p : Place} (h : m.xlat c pg acc va n = .ok (p, t)) : m.quietBeside t := by
  unfold Mod.xlat at h
  split at h
  · cases hf : m.fitterPlace acc va with
    | error e => rw [hf] at h; cases h
    | ok q => rw [hf] at h; cases h; exact Mod.quietBeside_refl m
  · split at h
    · cases h
    · split at h
      · obtain ⟨q, -, hq⟩ := bind_ok h
        cases hq; exact ⟨rfl, rfl, rfl, rfl, rfl⟩
      · split at h
        next l _ =>
          obtain ⟨q, -, hq⟩ := bind_ok h
          cases hq
          exact Mod.quietBeside_trans (Mod.quietBeside_stlbInstall m _ _)
            (Mod.quietBeside_trans (t := ((m.stlbInstall _ _).l1Install c _)) ⟨rfl, rfl, rfl, rfl, rfl⟩ (Mod.onlyBar_evCore _ c _ _).quietBeside)
        · cases h
theorem Mod.quietBeside_fetch {m t : Mod} {c : Nat} (hu : m.coh.upsets = []) (h : m.fetch c = .ok t) : m.quietBeside t := by
  unfold Mod.fetch at h
  obtain ⟨-, -, h⟩ := bind_ok h
  split at h
  · cases h
  split at h
  · cases h
  obtain ⟨⟨p, m1⟩, hx, h⟩ := bind_ok h
  have k := Mod.quietBeside_xlat hx
  cases p with
  | loc pa =>
    cases h
    rw [Mod.meetErr_none _ _ _ _ ((Mod.copied_xlat hx).upsets.trans hu)]
    refine Mod.quietBeside_trans k (Mod.quietBeside_trans (t := m1.fillFetch c (pa / 128)) ?_ ⟨rfl, rfl, rfl, rfl, rfl⟩)
    unfold Mod.fillFetch
    split <;> exact ⟨rfl, rfl, rfl, rfl, rfl⟩
  | remote dev win off => cases h
  | ctl x => cases h
theorem Mod.atIssue.fetched_beside {m : Mod} {c : CoreId} (h : m.atIssue c) : m.quietBeside (m.fetched c) := by
  obtain ⟨m1, hf⟩ := h.fetches
  rw [Mod.fetched_eq hf]
  exact Mod.quietBeside_trans (Mod.quietBeside_fetch h.upsets hf) ⟨rfl, rfl, rfl, rfl, rfl⟩
theorem Mod.besides.quiet {m t : Mod} {c : Nat} (h : m.besides t c) : m.quietBeside t := by
  have e := h.rest
  have q : ∀ {α : Type} (f : Mod → α), (∀ m x b n, f { m with cores := x, bar0 := b, freeCtr := n } = f m) → f t = f m := fun f hf => by
    rw [← hf t m.cores m.bar0 m.freeCtr, e]
  exact ⟨q (·.pat) fun _ _ _ _ => rfl, q (·.lnk) fun _ _ _ _ => rfl, q (·.shuttles) fun _ _ _ _ => rfl, q (·.nextId) fun _ _ _ _ => rfl,
    q (·.spl.adds) fun _ _ _ _ => rfl⟩
theorem Mod.partOf_congr {m t : Mod} (h : t.parts = m.parts) (c : Nat) : t.partOf c = m.partOf c := by simp only [Mod.partOf, Mod.part, h]

/-! ## Instructions that stop, and that work beside the bank -/

/-- An instruction whose body stops, wherever it was to go, does what its stop does. -/
theorem Mod.issue_stopped {m : Mod} {c : CoreId} {major func : Nat} {e : Stop} {body : Mod → Body} (hr : m.atIssue c)
    (hm : c.val = 256 → fitterMajor major = true) (hb : body (m.fetched c) = .error e) : m.issue c.val major func body = m.stop c.val e := by
  obtain ⟨m1, hf⟩ := hr.fetches
  rw [Mod.fetched_eq hf] at hb
  exact Mod.issue_stops hr.can hf hm hb
/-- One whose body goes on at the next word retires. -/
theorem Mod.issue_retires {m t0 : Mod} {c : CoreId} {major func st : Nat} {body : Mod → Body} (hr : m.atIssue c) (hm : c.val = 256 → fitterMajor major = true)
    (hb : body (m.fetched c) = .ok (t0, .next, st)) (hloop : (t0.core c).bank.loop = none) (href : (t0.core c).refused = []) :
    ∃ t, m.issue c.val major func body = t ∧ t0.besides t c.val ∧ t.core c.val = ((t0.core c.val).stampUndo none).wentOn st := by
  obtain ⟨m1, hf⟩ := hr.fetches
  have hcore : (t0.updCore c.val fun k => k.stampUndo none).core c.val = (t0.core c.val).stampUndo none := Mod.core_updCore_self t0 c.val _
  obtain ⟨t, ht, htc, htb⟩ := Mod.retire_next_besides (m := t0.updCore c.val fun k => k.stampUndo none) c st (by rw [hcore]; exact hloop)
    (by rw [hcore]; exact href)
  rw [hcore] at htc
  rw [Mod.fetched_eq hf] at hb
  exact ⟨t, Mod.issue_ok hr.can hf hm hb (by rw [hr.load]; exact ht), Mod.besides_trans (t0.besides_updCore c.val _) htb, htc⟩
/-- What the core's own registers make of an instruction that changes its bank by `g` and adds to its store buffer. -/
theorem Core.keeps_wentOn {k q : Core} {mem : CoreMem} {g F : Bank → Bank} {es : List SbEntry} {st : Nat} (hl : k.bank.load = none)
    (hq : q = ((({ k.beginBody with mem := mem } : Core).acted g es).stampUndo none).wentOn st) (hF : { g k.bank with pc := (g k.bank).pc + 4 } = F k.bank) :
    q.bank = F k.bank ∧ q.sb = k.sb ++ es ∧ k.keeps q := by
  have hbank := Core.beginBody_bank hl
  have hplain : q.vec.plain = k.vec.plain := by
    rw [hq]
    exact (Core.plain_stampUndo _ _).trans (Core.plain_beginBody _)
  refine ⟨?_, by rw [hq]; rfl, by rw [hq]; rfl, by rw [hq]; rfl, by rw [hq]; rfl, hplain, by rw [hq]; rfl, by rw [hq]; rfl, by rw [hq]; rfl, by rw [hq]; rfl,
    by rw [hq]; rfl, by rw [hq]; rfl⟩
  rw [← hF, ← w64_toNat_add_four, hq]
  show { g k.beginBody.bank with pc := w64 ((g k.beginBody.bank).pc.toNat + 4) } = _
  rw [hbank]
/-- An instruction that changes the bank by `g`, and beside that only what `apart` leaves open. -/
theorem completes_went_beside {i : Instr} {s : State} {c : CoreId} {major func st : Nat} {body : Mod → Body} {t0 : Mod} {g F : Bank → Bank}
    (hi : exec i s = s.run fun m => m.issue c.val major func body) (hr : s.m.standsReady c) (hm : c.val = 256 → fitterMajor major = true)
    (hb : body (s.m.fetched c) = .ok (t0, .next, st)) (hcore : t0.core c.val = ((s.m.fetched c).core c.val).acted g []) (hapart : (s.m.fetched c).apart t0 c)
    (hl : (g (s.m.core c).bank).loop = none) (hF : { g (s.m.core c).bank with pc := (g (s.m.core c).bank).pc + 4 } = F (s.m.core c).bank) :
    completes i s fun t => s.m.went t c F ∧ t0.besides t c.val := by
  obtain ⟨hfc, hfa, -⟩ := hr.atIssue.fetched
  rw [hfc] at hcore
  have ht0 : s.m.apart t0 c := Mod.apart_trans hfa hapart
  obtain ⟨-, -, -, -, -, hnv, hpwr, -⟩ := id ht0
  refine completes_next hi hr.atIssue hm hb ?_ ?_ hnv hpwr fun t htb htc => ?_
  · rw [hcore]; exact (congrArg (fun b => (g b).loop) (Core.beginBody_bank hr.atIssue.load)).trans hl
  · rw [hcore]; exact hr.atIssue.refused
  · obtain ⟨hbank, hsb, hkeeps⟩ := Core.keeps_wentOn hr.atIssue.load (htc.trans (by rw [hcore])) hF
    exact ⟨⟨hbank, hsb.trans (List.append_nil _), hkeeps, Mod.apart_trans ht0 htb.apart⟩, htb⟩

end Sys2Proof.Machine
end

section
/-! PEND, PWAIT, PFIRE and PID (R242, R299, R317, R318, R330). -/

namespace Sys2Proof.Machine

/-! ## What is visible, and what the units hold, after a fetch -/

theorem Core.beginBody_stations (k : Core) : ∃ f : Station → Station, k.beginBody.vec.stations = k.vec.stations.map f ∧
    ∀ s, (f s).isStore = s.isStore ∧ (f s).held = s.held := by
  refine ⟨fun s => if s.held then s else { s with undo := none }, rfl, fun s => ?_⟩
  dsimp only
  split <;> exact ⟨rfl, rfl⟩
theorem Mod.storesVisible_fetched {m : Mod} {c : CoreId} (h : m.atIssue c) : (m.fetched c).storesVisible c.val = m.storesVisible c.val := by
  obtain ⟨hcore, -, -⟩ := h.fetched
  have hq := h.fetched_beside
  obtain ⟨f, hst, hf⟩ := Core.beginBody_stations (m.core c.val)
  have hany : (((m.core c.val).vec.stations.map f).any fun s => s.isStore && !s.held) = (m.core c.val).vec.stations.any fun s => s.isStore && !s.held := by
    rw [List.any_map]
    exact congrArg (List.any _) (funext fun s => by simp only [Function.comp_apply, (hf s).1, (hf s).2])
  simp only [Mod.storesVisible, Mod.postedOut, hq.lnk, hq.adds]
  rw [hcore]
  show ((m.core c.val).sb.isEmpty && _ && !((m.core c.val).beginBody.vec.stations.any fun s => s.isStore && !s.held) && _) = _
  rw [hst, hany]
theorem Core.unitsIdle_beginBody (k : Core) (q : CoreMem) : ({ k.beginBody with mem := q } : Core).unitsIdle = k.unitsIdle := by
  obtain ⟨f, hst, -⟩ := Core.beginBody_stations k
  show ((_ && k.beginBody.vec.stations.isEmpty) : Bool) = (_ && k.vec.stations.isEmpty)
  rw [hst, List.isEmpty_map]
  rfl

/-! ## PEND -/

/-- The core whose piece has ended. -/
def Core.freed (k : Core) : Core := { k with run := .free, piece := none, pend := [] }
theorem bodyPend_ends {m : Mod} {c : CoreId} {f : BitVec 26} {id : PieceId} (hf : fld f 25 6 = 0) (hv : m.storesVisible c.val = true)
    (hu : (m.core c.val).unitsIdle = true) (hrun : (m.core c.val).run ≠ .seated) (hid : (m.core c.val).piece = some id) :
    bodyPend c.val f m = .ok ({ m.updCore c.val Core.freed with pat := { m.pat with completed := m.pat.completed ++ [id] } }, .next, 1) := by
  have hseat : m.unseat c.val = m := by simp only [Mod.unseat, ne_eq, hrun, not_false_eq_true, if_true]
  simp only [bodyPend, hf, beq_self_eq_true, legal_true, bind, Except.bind, hv, hu, Bool.not_true, Bool.or_self, Bool.false_eq_true, if_false, hid, hseat]
  rfl
/-- The fields above the function of an instruction are as they were. -/
theorem fld_25_6_withFunc (f : BitVec 26) (fn : Nat) : fld (withFunc f fn) 25 6 = fld f 25 6 := fld_withFunc f fn (by decide) (by decide)
theorem completes_pend {s : State} {c : CoreId} {f : BitVec 26} {id : PieceId} (hr : s.m.standsReady c) (hc : c.val ≠ 256) (hf : fld f 25 6 = 0)
    (hid : (s.m.core c.val).piece = some id) (hv : s.m.storesVisible c.val = true) (hu : (s.m.core c.val).unitsIdle = true)
    (hopen : (s.m.core c.val).openLoad = none) (hrun : (s.m.core c.val).run ≠ .seated) :
    completes (.pend c f) s fun t => t.pat.completed = s.m.pat.completed ++ [id] ∧ (t.core c.val).run = .free ∧ (t.core c.val).piece = none ∧
      (t.core c.val).bank = (s.m.core c.val).bank.took 0 [] ∧ s.m.apart t c := by
  obtain ⟨hcore, hapart, -⟩ := hr.atIssue.fetched
  have hpat := hr.atIssue.fetched_beside.pat
  have hloop := hr.loop_none
  have hrow : exec (.pend c f) s = s.run fun m => m.issue c.val 0x2C 0 (bodyPend c.val (withFunc f 0)) := by
    show s.run (rowPend c f) = _
    simp only [State.run, Mod.within, rowPend, hopen, Option.isSome_none, Bool.false_eq_true, if_false]
  have hbody := bodyPend_ends (m := s.m.fetched c) (c := c) (f := withFunc f 0) (id := id) ((fld_25_6_withFunc f 0).trans hf)
    ((Mod.storesVisible_fetched hr.atIssue).trans hv) (by rw [hcore]; exact (Core.unitsIdle_beginBody _ _).trans hu) (by rw [hcore]; exact hrun)
    (by rw [hcore]; exact hid)
  generalize ht0 : ({ (s.m.fetched c).updCore c.val Core.freed with
    pat := { (s.m.fetched c).pat with completed := (s.m.fetched c).pat.completed ++ [id] } } : Mod) = t0 at hbody
  have hk : t0.core c.val = ((s.m.fetched c).core c.val).freed := by rw [← ht0]; exact Mod.core_updCore_self _ _ _
  have hap : s.m.apart t0 c := Mod.apart_trans hapart (by rw [← ht0]; exact (s.m.fetched c).apart_updCore c _)
  rw [hcore] at hk
  have hbank := Core.beginBody_bank hr.atIssue.load
  have hkept := hap
  obtain ⟨-, -, -, -, -, hnv, hpwr, -⟩ := hkept
  refine completes_next hrow hr.atIssue (fun h => absurd h hc) hbody ?_ ?_ hnv hpwr fun t htb htc => ?_
  · rw [hk]; exact (congrArg Bank.loop hbank).trans hloop
  · rw [hk]; exact hr.atIssue.refused
  · refine ⟨?_, by rw [htc, hk]; rfl, by rw [htc, hk]; rfl, ?_, Mod.apart_trans hap htb.apart⟩
    · rw [htb.quiet.pat, ← ht0, ← hpat]
    · have hpc : (t.core c.val).bank = { (s.m.core c.val).beginBody.bank with pc := w64 ((s.m.core c.val).beginBody.bank.pc.toNat + 4) } := by rw [htc, hk]; rfl
      rw [hpc, hbank, w64_toNat_add_four]
      rfl

/-! ## PWAIT -/

theorem bodyPwait_idle {m : Mod} {c : CoreId} {f : BitVec 26} (hf : fld f 25 6 = 0) (hrun : (m.core c.val).run ≠ .seated) :
    bodyPwait c.val f m = .ok (m, .next, 1) := by
  simp only [bodyPwait, hf, beq_self_eq_true, legal_true, bind, Except.bind, ne_eq, hrun, not_false_eq_true, if_true]
theorem bodyPwait_waits {m : Mod} {c : CoreId} {f : BitVec 26} (hf : fld f 25 6 = 0) (hrun : (m.core c.val).run = .seated)
    (h0 : ∀ j, j < 3 → (m.core c.val).cregf 0x0A0 (16 * j + 15) (16 * j) = 0) : bodyPwait c.val f m = .error (.wait .pwait) := by
  have hnone : ((upto 3).find? fun i => (m.core c.val).cregf 0x0A0 (16 * i + 15) (16 * i) != 0) = none := by
    rw [List.find?_eq_none]
    intro j hj
    rw [h0 j (by simpa [upto] using hj)]
    decide
  simp only [bodyPwait, hf, beq_self_eq_true, legal_true, bind, Except.bind, ne_eq, hrun, not_true_eq_false, if_false, hnone]
/-- The core that has taken a unit of a seat count. -/
def Core.seatTaken (k : Core) (i : Nat) : Core :=
  (k.setCregf 0x0A0 (16 * i + 15) (16 * i) (k.cregf 0x0A0 (16 * i + 15) (16 * i) - 1)).setCregf 0x0A0 50 49 i
theorem bodyPwait_takes {m : Mod} {c : CoreId} {f : BitVec 26} {i : Nat} (hf : fld f 25 6 = 0) (hrun : (m.core c.val).run = .seated) (hi : i < 3)
    (hne : (m.core c.val).cregf 0x0A0 (16 * i + 15) (16 * i) ≠ 0) (h0 : ∀ j, j < i → (m.core c.val).cregf 0x0A0 (16 * j + 15) (16 * j) = 0)
    (hheld : m.pat.held = []) : bodyPwait c.val f m = .ok (m.updCore c.val (·.seatTaken i), .next, 1) := by
  have hfind : ((upto 3).find? fun i => (m.core c.val).cregf 0x0A0 (16 * i + 15) (16 * i) != 0) = some i := by
    rw [upto, List.find?_range_eq_some]
    exact ⟨by simp [hne], by simpa using hi, fun j hj => by simp [h0 j hj]⟩
  have hroom : ∀ k : Core, (m.setCore c.val k).seatRoom c.val i = m.setCore c.val k := fun k => by
    have : (m.setCore c.val k).pat.held = [] := hheld
    simp only [Mod.seatRoom, this]
    rfl
  simp only [bodyPwait, hf, beq_self_eq_true, legal_true, bind, Except.bind, ne_eq, hrun, not_true_eq_false, if_false, hfind, hroom]
  rfl
theorem Core.cregf_seatTaken (k : Core) {i : Nat} (hi : i < 3) :
    (k.seatTaken i).cregf 0x0A0 (16 * i + 15) (16 * i) = k.cregf 0x0A0 (16 * i + 15) (16 * i) - 1 ∧ (k.seatTaken i).cregf 0x0A0 50 49 = i := by
  have hlt : k.cregf 0x0A0 (16 * i + 15) (16 * i) < 2 ^ 16 := by
    have := fld_lt (k.creg 0x0A0) (16 * i + 15) (16 * i)
    rwa [show 16 * i + 15 + 1 - 16 * i = 16 by omega] at this
  constructor
  · rw [Core.seatTaken, Core.cregf_setCregf_apart _ _ _ _ _ _ _ (by omega) (by omega), Core.cregf_setCregf_self _ _ _ _ _ (by omega),
      show 16 * i + 15 + 1 - 16 * i = 16 by omega]
    omega
  · rw [Core.seatTaken, Core.cregf_setCregf_self _ _ _ _ _ (by decide)]
    omega

/-! ## PFIRE and PID -/

theorem bodyPfire_fires {m : Mod} {c : CoreId} {f : BitVec 26} {x : W64} (hf : fld f 25 6 = 0) (hv : m.storesVisible c.val = true) (ho : m.holdsOps c [x] 0)
    (hx : (x.setWidth 16).toNat ≠ 0xFFFF) :
    bodyPfire c.val f m = .ok ({ m.updBank c.val (·.replaced 1 []) with
      pat := { m.pat with fires := m.pat.fires ++ [{ part := (m.partOf c.val).getD 0, notch := (x.setWidth 16).toNat, src := .core c.val }] } }, .next, 1) := by
  have hpop : m.pop c.val 1 = .ok ([x], m.updBank c.val (·.replaced 1 [])) := Mod.pop_held ho
  have hnotch : fld x 15 0 = (x.setWidth 16).toNat := by simp [fld, bitsN]
  simp only [bodyPfire, hf, beq_self_eq_true, legal_true, bind, Except.bind, hv, Bool.not_true, Bool.false_eq_true, if_false, hpop, List.headD_cons, Mod.fire,
    hnotch, hx]
  rfl
theorem bodyPid_pushes {m : Mod} {c : CoreId} {f : BitVec 26} (hf : fld f 25 6 = 0) {pid : PieceId} (hid : (m.core c.val).piece = some pid)
    (ho : m.holdsOps c [] 1) :
    bodyPid c.val f m = .ok (m.updBank c.val (·.replaced 0 [w64 (pid.slot * 2 ^ 16 + pid.ix)]), .next, 1) := by
  simp only [bodyPid, hf, beq_self_eq_true, legal_true, bind, Except.bind, hid, Option.getD_some, Mod.push_held ho]

/-! ## The commands -/

section
variable {s : State} {c : CoreId} {f : BitVec 26} (hr : s.m.standsReady c) (hf : fld f 25 6 = 0)
include hr hf

theorem completes_pwait_idle (hc : c.val ≠ 256) (hrun : (s.m.core c.val).run ≠ .seated) : completes (.pwait c f) s fun t => s.m.went t c (·.took 0 []) := by
  obtain ⟨hcore, -, -⟩ := hr.atIssue.fetched
  have hbody := bodyPwait_idle (m := s.m.fetched c) (c := c) (f := withFunc f 1) ((fld_25_6_withFunc f 1).trans hf) (by rw [hcore]; exact hrun)
  refine (completes_went_beside (g := fun b => b) rfl hr (fun h => absurd h hc) hbody ?_ (Mod.apart_refl _ c) hr.loop_none rfl).mono fun t ht => ht.1
  simp only [Core.acted, List.append_nil]
theorem completes_pwait_waits (hc : c.val ≠ 256) (hrun : (s.m.core c.val).run = .seated)
    (h0 : ∀ j, j < 3 → (s.m.core c.val).cregf 0x0A0 (16 * j + 15) (16 * j) = 0) :
    completes (.pwait c f) s fun t => t = s.m.updCore c.val fun k => { k with wait := .pwait } := by
  obtain ⟨hcore, -, -⟩ := hr.atIssue.fetched
  have hbody := bodyPwait_waits (m := s.m.fetched c) (c := c) (f := withFunc f 1) ((fld_25_6_withFunc f 1).trans hf) (by rw [hcore]; exact hrun)
    (by rw [hcore]; exact h0)
  have hissue := Mod.issue_stopped (major := 0x2C) (func := 1) (body := bodyPwait c.val (withFunc f 1)) hr.atIssue (fun h => absurd h hc) hbody
  exact completes_kept (f := rowPwait c f) rfl hr.atIssue.powered (by rw [rowPwait, hissue]; rfl) (by rw [rowPwait, hissue]; rfl) (by rw [rowPwait, hissue]; rfl)
theorem completes_pwait_takes (hc : c.val ≠ 256) {i : Nat} (hrun : (s.m.core c.val).run = .seated) (hi : i < 3)
    (hne : (s.m.core c.val).cregf 0x0A0 (16 * i + 15) (16 * i) ≠ 0) (h0 : ∀ j, j < i → (s.m.core c.val).cregf 0x0A0 (16 * j + 15) (16 * j) = 0)
    (hheld : s.m.pat.held = []) : completes (.pwait c f) s fun t =>
      (t.core c.val).cregf 0x0A0 (16 * i + 15) (16 * i) = (s.m.core c.val).cregf 0x0A0 (16 * i + 15) (16 * i) - 1 ∧
        (t.core c.val).cregf 0x0A0 50 49 = i ∧ (t.core c.val).bank = (s.m.core c.val).bank.took 0 [] ∧ s.m.apart t c := by
  obtain ⟨hcore, hapart, -⟩ := hr.atIssue.fetched
  have hbody := bodyPwait_takes (m := s.m.fetched c) (c := c) (f := withFunc f 1) ((fld_25_6_withFunc f 1).trans hf) (by rw [hcore]; exact hrun) hi
    (by rw [hcore]; exact hne) (by rw [hcore]; exact h0) (by rw [hr.atIssue.fetched_beside.pat]; exact hheld)
  have hk : ((s.m.fetched c).updCore c.val (·.seatTaken i)).core c.val =
      ({ (s.m.core c.val).beginBody with mem := ((s.m.fetched c).core c.val).mem } : Core).seatTaken i := by
    rw [Mod.core_updCore_self]; conv_lhs => rw [hcore]
  have hap : s.m.apart ((s.m.fetched c).updCore c.val (·.seatTaken i)) c := Mod.apart_trans hapart ((s.m.fetched c).apart_updCore c _)
  have hbank := Core.beginBody_bank hr.atIssue.load
  have hkept := hap
  obtain ⟨-, -, -, -, -, hnv, hpwr, -⟩ := hkept
  obtain ⟨htake, hname⟩ := Core.cregf_seatTaken ({ (s.m.core c.val).beginBody with mem := ((s.m.fetched c).core c.val).mem } : Core) hi
  refine completes_next rfl hr.atIssue (fun h => absurd h hc) hbody ?_ ?_ hnv hpwr fun t htb htc => ?_
  · rw [hk]; exact (congrArg Bank.loop hbank).trans hr.loop_none
  · rw [hk]; exact hr.atIssue.refused
  · rw [hk] at htc
    refine ⟨(congrArg (·.cregf 0x0A0 (16 * i + 15) (16 * i)) htc).trans htake, (congrArg (·.cregf 0x0A0 50 49) htc).trans hname, ?_, Mod.apart_trans hap htb.apart⟩
    have hpc : (t.core c.val).bank = { (s.m.core c.val).beginBody.bank with pc := w64 ((s.m.core c.val).beginBody.bank.pc.toNat + 4) } := by rw [htc]; rfl
    rw [hpc, hbank, w64_toNat_add_four]
    rfl
theorem completes_pfire (hc : c.val ≠ 256) {x : W64} (ho : s.m.holdsOps c [x] 0) (hv : s.m.storesVisible c.val = true)
    (hx : (x.setWidth 16).toNat ≠ 0xFFFF) : completes (.pfire c f) s fun t => s.m.went t c (·.took 1 []) ∧
      t.pat.fires = s.m.pat.fires ++ [{ part := (s.m.partOf c.val).getD 0, notch := (x.setWidth 16).toNat, src := .core c.val }] := by
  obtain ⟨-, hapart, -⟩ := hr.atIssue.fetched
  have hbody := bodyPfire_fires (m := s.m.fetched c) (c := c) (f := withFunc f 2) ((fld_25_6_withFunc f 2).trans hf)
    ((Mod.storesVisible_fetched hr.atIssue).trans hv) (hr.atIssue.fetched_holdsOps ho) hx
  obtain ⟨-, -, -, -, hparts, -⟩ := hapart
  rw [Mod.partOf_congr hparts, hr.atIssue.fetched_beside.pat] at hbody
  generalize ht0 : ({ (s.m.fetched c).updBank c.val (·.replaced 1 []) with pat := { s.m.pat with
    fires := s.m.pat.fires ++ [{ part := (s.m.partOf c.val).getD 0, notch := (x.setWidth 16).toNat, src := .core c.val }] } } : Mod) = t0 at hbody
  refine (completes_went_beside (g := (·.replaced 1 [])) rfl hr (fun h => absurd h hc) hbody ?_ ?_ hr.loop_none rfl).mono fun t ⟨hwent, hbeside⟩ => ⟨hwent, ?_⟩
  · rw [← ht0]
    refine (Mod.core_updBank_self (s.m.fetched c) c.val (·.replaced 1 [])).trans ?_
    rw [Core.acted, List.append_nil]
  · rw [← ht0]; exact (s.m.fetched c).apart_updCore c fun k => { k with bank := k.bank.replaced 1 [] }
  · rw [hbeside.quiet.pat, ← ht0]
theorem completes_pid (hc : c.val ≠ 256) {pid : PieceId} (hid : (s.m.core c.val).piece = some pid) (ho : s.m.holdsOps c [] 1) :
    completes (.pid c f) s fun t => s.m.went t c (·.took 0 [w64 (pid.slot * 2 ^ 16 + pid.ix)]) := by
  obtain ⟨hcore, -, -⟩ := hr.atIssue.fetched
  have hbody := bodyPid_pushes (m := s.m.fetched c) (c := c) (f := withFunc f 3) ((fld_25_6_withFunc f 3).trans hf) (by rw [hcore]; exact hid)
    (hr.atIssue.fetched_holdsOps ho)
  refine (completes_went_beside (g := (·.replaced 0 [w64 (pid.slot * 2 ^ 16 + pid.ix)])) rfl hr (fun h => absurd h hc) hbody ?_ ?_ hr.loop_none rfl).mono
    fun t ht => ht.1
  · rw [Mod.core_updBank_self, Core.acted, List.append_nil]
  · exact (s.m.fetched c).apart_updCore c _

end

end Sys2Proof.Machine
end

section
/-! SHPOST of one descriptor, and customer instructions of one micro-op (R243, R244, R248 to R253, R371, R374). -/

namespace Sys2Proof.Machine

/-! ## SHPOST -/

theorem Mod.copied_readNow {m t : Mod} {c pa n : Nat} {bs : List Byte} (hu : m.coh.upsets = []) (h : m.readNow c pa n = .ok (bs, t)) : m.copied t := by
  obtain ⟨acquire, hfun⟩ : ∃ a, a = Mod.acquireAll := ⟨_, rfl⟩
  have hcopied : ∀ t, acquire m c pa n false = some t → m.copied t := fun t ht => (Mod.traffic_acquireAll hu (by rw [← hfun]; exact ht)).copied
  unfold Mod.readNow at h
  rw [Mod.meetLoad_none m c pa hu, ← hfun] at h
  cases hsb : sbLoad (m.core c).sb pa n with
  | none => simp only [hsb, reduceCtorEq] at h
  | some found =>
    cases found with
    | some b =>
      simp only [hsb, Except.ok.injEq, Prod.mk.injEq] at h
      exact h.2 ▸ Mod.copied_refl m
    | none =>
      cases hacq : acquire m c pa n false with
      | none => simp only [hsb, hacq, reduceCtorEq] at h
      | some m1 =>
        simp only [hsb, hacq] at h
        by_cases hp : m1.poisoned pa n = true
        · simp only [hp, if_true, reduceCtorEq] at h
        · simp only [hp, Bool.false_eq_true, if_false, Except.ok.injEq, Prod.mk.injEq] at h
          exact h.2 ▸ hcopied m1 hacq
/-- A single local piece is read as a whole. -/
theorem Mod.readPieces_one {m t : Mod} {c pa n va : Nat} {bs : List Byte} (h : m.readNow c pa n = .ok (bs, t)) (cr : Option Nat) :
    m.readPieces c cr va [(.loc pa, n)] = .ok (bs, t) := by
  simp only [Mod.readPieces, h, Except.ok_bind, List.append_nil]
theorem Mod.shpostLoop_once {m : Mod} {c : Nat} {f : BitVec 26} (k : Nat)
    (h : ((m.issue c 0x2D 0 (bodyShpost c f)).core c).bank.prog.kind ≠ 1 ∨
      ((m.issue c 0x2D 0 (bodyShpost c f)).core c).bank.prog.index = (m.core c).bank.prog.index) :
    m.shpostLoop c f (k + 1) = m.issue c 0x2D 0 (bodyShpost c f) := by
  rw [Mod.shpostLoop]
  refine if_neg fun ⟨hkind, hindex, _⟩ => ?_
  exact h.elim (· hkind) hindex
/-- The descriptor that SHPOST makes of 64 bytes. -/
def descOfBytes (b : Bank) (c id addr : Nat) (bs : List Byte) (piece : PieceId) : ShtDesc :=
  { id := id, bytes := bs, core := c, piece := piece, addr := addr
    scap := b.cap (bitsN (ofLe (bs.take 4)) 25 23), dcap := b.cap (bitsN (ofLe (bs.take 4)) 22 20), icap := b.cap (bitsN (descW bs 0x38 4) 2 0) }
/-- A descriptor at the end of a shuttle's queue. -/
def Mod.postDesc (m : Mod) (q : Nat) (d : ShtDesc) : Mod :=
  ({ m with nextId := m.nextId + 1 }).updSht q fun x => { x with queue := x.queue ++ [d] }
/-- The active bank once SHPOST is done. -/
def Bank.posted (b : Bank) : Bank := { b.replaced 2 [] with prog := {} }

section
variable {m m2 m3 : Mod} {c : CoreId} {f : BitVec 26} {x : W64} {pa : Nat} {bs : List Byte} (hf : fld f 20 0 = 0) (ho : m.holdsOps c [1, x] 0)
  (hprog : (m.core c.val).bank.prog = {}) (hfail : capFail ((m.core c.val).bank.cap (fCap f)) pRD x.toNat 64 = none)
  (htype : ((m.core c.val).bank.cap (fCap f)).type = 0)
  (hpl : m.places c.val ((m.core c.val).bank.cap (fCap f)) .read x.toNat 64 = .ok ([(.loc pa, 64)], m2)) (hread : m2.readNow c.val pa 64 = .ok (bs, m3))
include hf ho hprog hfail htype hpl hread

/-- SHPOST up to the choice of a shuttle. -/
theorem bodyShpost_reads : bodyShpost c.val f m = (m3.shtPick c.val f).elim (.error (.wait .shpost)) fun q =>
    (m3.postDesc q (descOfBytes (m.core c.val).bank c.val m3.nextId x.toNat bs (((m.core c.val).piece).getD { part := (m.partOf c.val).getD 0 }))).repl
        c.val 2 [] >>= fun m5 => .ok (m5.updBank c.val fun b => { b with prog := {} }, .next, 4) := by
  have hpeek : m.peek c.val 2 = .ok ([1, x], m) := Mod.peek_held ho
  have hkind : ¬ (m.core c.val).bank.prog.kind = 1 := by rw [hprog]; decide
  have haddr : x + w64 (64 * 0) = x := by simp [w64]
  simp only [bodyShpost, hf, beq_self_eq_true, legal_true, Except.ok_bind, hpeek, List.headD_cons, BitVec.toNat_ofNat, Nat.reducePow, Nat.one_mod,
    one_ne_zero, Nat.not_lt_of_le, Nat.one_le_ofNat, or_self, if_false, if_neg hkind, List.getD_cons_succ, List.getD_cons_zero, haddr, capCheck_ok hfail, htype,
    OfNat.zero_ne_ofNat, zero_ne_one, hpl, Mod.readPieces_one hread, Nat.zero_add, Nat.lt_irrefl]
  cases m3.shtPick c.val f <;> rfl
theorem bodyShpost_full (hq : m3.shtPick c.val f = none) : bodyShpost c.val f m = .error (.wait .shpost) := by
  rw [bodyShpost_reads hf ho hprog hfail htype hpl hread, hq, Option.elim_none]
theorem bodyShpost_posts {q : Nat} (hq : m3.shtPick c.val f = some q) (ho3 : m3.holdsOps c [1, x] 0) : ∃ piece,
    bodyShpost c.val f m =
      .ok ((m3.postDesc q (descOfBytes (m.core c.val).bank c.val m3.nextId x.toNat bs piece)).updBank c.val Bank.posted, .next, 4) := by
  refine ⟨((m.core c.val).piece).getD { part := (m.partOf c.val).getD 0 }, ?_⟩
  rw [bodyShpost_reads hf ho hprog hfail htype hpl hread, hq, Option.elim_some]
  generalize hm4 : m3.postDesc q (descOfBytes (m.core c.val).bank c.val m3.nextId x.toNat bs (((m.core c.val).piece).getD { part := (m.partOf c.val).getD 0 })) = m4
  have ho4 : m4.holdsOps c [1, x] 0 := hm4 ▸ ho3
  have hrepl : m4.repl c.val 2 [] = .ok (m4.updBank c.val (·.replaced 2 [])) := Mod.repl_held ho4 (by simp)
  rw [hrepl, Except.ok_bind, Mod.updBank_updBank]
  rfl

end

theorem Mod.sht_congr {m t : Mod} (h : t.shuttles = m.shuttles) (s : Nat) : t.sht s = m.sht s := by simp only [Mod.sht, h]
/-- SHPOST chooses by the queues alone. -/
theorem Mod.shtPick_congr {m t : Mod} (h : t.shuttles = m.shuttles) (c : Nat) (f : BitVec 26) : t.shtPick c f = m.shtPick c f := by
  have hsht : t.sht = m.sht := funext (Mod.sht_congr h)
  unfold Mod.shtPick
  rw [hsht]
theorem Mod.sht_postDesc (m : Mod) (q r : Nat) (d : ShtDesc) :
    (m.postDesc q d).sht r = if q = r then { m.sht q with queue := (m.sht q).queue ++ [d] } else m.sht r := Tab.get_put _ _ _ _ _
theorem Mod.spares_postDesc (m : Mod) (q : Nat) (d : ShtDesc) : m.spares (m.postDesc q d) := Mod.spares_of_eq rfl rfl rfl rfl
theorem Bank.posted_took {b : Bank} (h : b.prog = {}) : { b.posted with pc := b.posted.pc + 4 } = b.took 2 [] := by
  simp only [Bank.posted, Bank.replaced, Bank.took, ← h]

/-- What SHPOST leaves: one more descriptor in a queue, and its operands popped. -/
structure Mod.postedTo (m t : Mod) (c : CoreId) (q addr : Nat) (bs : List Byte) : Prop where
  desc : ∃ d : ShtDesc, (t.sht q).queue = (m.sht q).queue ++ [d] ∧ d.bytes = bs ∧ d.core = c.val ∧ d.addr = addr ∧ d.id = m.nextId ∧
    d.scap = (m.core c).bank.cap (bitsN (ofLe (bs.take 4)) 25 23) ∧ d.dcap = (m.core c).bank.cap (bitsN (ofLe (bs.take 4)) 22 20)
  others : ∀ r, r ≠ q → t.sht r = m.sht r
  reached : m.reached t c (·.took 2 []) []

section
variable {m m2 m3 : Mod} {c : CoreId} {f : BitVec 26} {x : W64} {pa : Nat} {bs : List Byte} (hc : c.val ≠ 256) (hf : fld f 20 0 = 0)
  (hr : m.standsReady c) (ho : m.holdsOps c [1, x] 0) (hprog : (m.core c.val).bank.prog = {})
  (hfail : capFail ((m.core c.val).bank.cap (fCap f)) pRD x.toNat 64 = none) (htype : ((m.core c.val).bank.cap (fCap f)).type = 0)
  (hpl : (m.fetched c).places c.val ((m.core c.val).bank.cap (fCap f)) .read x.toNat 64 = .ok ([(.loc pa, 64)], m2))
  (hread : m2.readNow c.val pa 64 = .ok (bs, m3))
include hc hf hr ho hprog hfail htype hpl hread

theorem Mod.fetched_copied_post : (m.fetched c).copied m3 :=
  have hplaces := Mod.copied_places hpl
  Mod.copied_trans hplaces (Mod.copied_readNow (hplaces.upsets.trans hr.atIssue.fetched_upsets) hread)
theorem Mod.shpost_posts {q : Nat} (hq : m.shtPick c.val f = some q) : m.postedTo (m.shpostLoop c.val f 4096) c q x.toNat bs := by
  have hbank := hr.atIssue.fetched_bank
  obtain ⟨hcore, hapart, -⟩ := hr.atIssue.fetched
  have hbeside := hr.atIssue.fetched_beside
  have hcopied := Mod.fetched_copied_post hc hf hr ho hprog hfail htype hpl hread
  have hsht : m3.shuttles = m.shuttles := (hcopied.same (·.shuttles) fun _ _ _ _ _ _ _ => rfl).trans hbeside.shuttles
  have hid : m3.nextId = m.nextId := (hcopied.same (·.nextId) fun _ _ _ _ _ _ _ => rfl).trans hbeside.nextId
  have hk3 : m3.core c.val = { (m.core c.val).beginBody with mem := (m3.core c.val).mem } := by rw [hcopied.core_eq c.val, hcore]
  have ho3 : m3.holdsOps c [1, x] 0 := Mod.holdsOps_congr (by rw [hk3]; exact Core.beginBody_bank hr.atIssue.load) (by rw [hk3]; rfl) ho
  rw [← hbank] at hpl hfail htype
  obtain ⟨piece, hbody⟩ := bodyShpost_posts hf (hr.atIssue.fetched_holdsOps ho) (by rw [hbank]; exact hprog) hfail htype hpl hread
    (q := q) (by rw [Mod.shtPick_congr hsht]; exact hq) ho3
  rw [hbank, hid] at hbody
  generalize hd : descOfBytes (m.core c.val).bank c.val m.nextId x.toNat bs piece = d at hbody
  have ht0 : ((m3.postDesc q d).updBank c.val Bank.posted).core c.val =
      (({ (m.core c.val).beginBody with mem := (m3.core c.val).mem } : Core).acted Bank.posted []) := by
    rw [Mod.core_updBank_self, Core.acted, List.append_nil]
    show { m3.core c.val with bank := (m3.core c.val).bank.posted } = _
    rw [hk3]
  have hspares : m3.spares (m3.postDesc q d) := m3.spares_postDesc q d
  obtain ⟨t, ht, htb, htc⟩ := Mod.issue_retires (major := 0x2D) (func := 0) hr.atIssue (fun h => absurd h hc) hbody
    (by rw [ht0]; exact (congrArg (fun b => b.posted.loop) (Core.beginBody_bank hr.atIssue.load)).trans hr.loop_none)
    (by rw [ht0]; exact hr.atIssue.refused)
  rw [ht0] at htc
  obtain ⟨htbank, htsb, htkeeps⟩ := Core.keeps_wentOn (F := (·.took 2 [])) hr.atIssue.load htc (Bank.posted_took hprog)
  have hloop : m.shpostLoop c.val f 4096 = t := by
    rw [show (4096 : Nat) = 4095 + 1 from rfl, Mod.shpostLoop_once 4095, ht]
    rw [ht, htbank]
    exact .inl (by rw [show ((m.core c.val).bank.took 2 []).prog = (m.core c.val).bank.prog from rfl, hprog]; decide)
  have hposted := m3.sht_postDesc q
  have hshuttle : ∀ r, t.sht r = (m3.postDesc q d).sht r := Mod.sht_congr htb.quiet.shuttles
  have hold : ∀ r, m3.sht r = m.sht r := Mod.sht_congr hsht
  rw [hloop]
  refine ⟨⟨d, ?_, ?_⟩, fun r hne => ?_, htbank, htsb, htkeeps, ?_, fun a => ?_⟩
  · rw [hshuttle, hposted, if_pos rfl, hold]
  · rw [← hd]; exact ⟨rfl, rfl, rfl, rfl, rfl, rfl⟩
  · rw [hshuttle, hposted, if_neg (Ne.symm hne), hold]
  · exact Mod.amid_trans hapart.amid (Mod.amid_trans (hcopied.amid c) (Mod.amid_trans (hspares.amid c)
      (Mod.amid_trans ((m3.postDesc q d).apart_updCore c _).amid htb.apart.amid)))
  · rw [htb.apart.bytes a]
    exact (congrArg (Memory.byte · a) hcopied.mem).trans (hapart.bytes a)
/-- With the queue full it waits. -/
theorem Mod.shpost_waits (hq : m.shtPick c.val f = none) :
    m.shpostLoop c.val f 4096 = m.updCore c.val fun k => { k with wait := .shpost } := by
  have hbank := hr.atIssue.fetched_bank
  have hcopied := Mod.fetched_copied_post hc hf hr ho hprog hfail htype hpl hread
  have hsht : m3.shuttles = m.shuttles := (hcopied.same (·.shuttles) fun _ _ _ _ _ _ _ => rfl).trans hr.atIssue.fetched_beside.shuttles
  rw [← hbank] at hpl hfail htype
  have hbody := bodyShpost_full hf (hr.atIssue.fetched_holdsOps ho) (by rw [hbank]; exact hprog) hfail htype hpl hread
    (by rw [Mod.shtPick_congr hsht]; exact hq)
  have hissue := Mod.issue_stopped (major := 0x2D) (func := 0) hr.atIssue (fun h => absurd h hc) hbody
  have hstop : m.stop c.val (.wait .shpost) = m.updCore c.val fun k => { k with wait := .shpost } := rfl
  rw [show (4096 : Nat) = 4095 + 1 from rfl, Mod.shpostLoop_once 4095, hissue, hstop]
  rw [hissue, hstop, Mod.core_updCore_self]
  exact .inr rfl

end

/-- A count of 0, or above 4,096, raises RANGE (R243). -/
theorem completes_shpost_range {s : State} {c : CoreId} {f : BitVec 26} {x n : W64} (hc : c.val ≠ 256) (hf : fld f 20 0 = 0) (hr : s.m.standsReady c)
    (ho : s.m.holdsOps c [n, x] 0) (hn : n.toNat = 0 ∨ 4096 < n.toNat) :
    completes (.shpost c f) s fun t => s.m.raised t c 0 0x380 (serrOf 5 0x2D 0 0) := by
  have hpeek : (s.m.fetched c).peek c.val 2 = .ok ([n, x], s.m.fetched c) := Mod.peek_held (hr.atIssue.fetched_holdsOps ho)
  have hbody : bodyShpost c.val f (s.m.fetched c) = .error (serrStop 5 0x2D 0 0) := by
    simp only [bodyShpost, hf, beq_self_eq_true, legal_true, Except.ok_bind, hpeek, List.headD_cons, if_pos hn]
  have hissue := Mod.issue_stopped (major := 0x2D) (func := 0) hr.atIssue (fun h => absurd h hc) hbody
  have hraised : s.m.raised (s.m.stop c.val (serrStop 5 0x2D 0 0)) c 0 0x380 (serrOf 5 0x2D 0 0) := s.m.setTrap_raised c 0 0x380 _
  obtain ⟨-, -, hbank, -, hapart⟩ := id hraised
  have hloop : s.m.shpostLoop c.val f 4096 = s.m.stop c.val (serrStop 5 0x2D 0 0) := by
    rw [show (4096 : Nat) = 4095 + 1 from rfl, Mod.shpostLoop_once 4095, hissue]
    rw [hissue]
    exact .inr (congrArg (·.prog.index) hbank)
  obtain ⟨-, -, -, -, -, hnv, hpwr, -⟩ := hapart
  exact completes_kept (f := fun m => m.shpostLoop c.val f 4096) rfl hr.atIssue.powered (by rw [hloop]; exact hnv) (by rw [hloop]; exact hpwr)
    (by rw [hloop]; exact hraised)

end Sys2Proof.Machine
end

section
/-! Customer instructions of one micro-op (R248 to R253), and the statement on pieces, SHPOST and customer instructions. -/

namespace Sys2Proof.Machine

/-- A routine's entry that is a NOP and its last (R250). -/
def lastNop : BitVec 34 := BitVec.ofNat 34 (2 ^ 33)
theorem microBody_lastNop (c : Nat) (m : Mod) : microBody c (lastNop.setWidth 32) m = .ok (m, .next, 1) := rfl
/-- The core after a micro-op that is a NOP: counts, and no more. -/
def Core.nopDone (k : Core) : Core :=
  let q := k.beginBody.stampUndo none
  { q with stitches := q.stitches + 1, rbuf := [], wait := .none }
/-- A routine of one NOP ends at once, and the customer instruction retires. -/
theorem Mod.microLoop_lastNop {m : Mod} {c : CoreId} {n i : Nat} {copy : UcCopy} (k : Nat) (he : Tab.get 0 copy.ents i = lastNop)
    (hload : (m.core c.val).bank.load = none) (hloop : (m.core c.val).bank.loop = none) (href : (m.core c.val).refused = []) :
    ∃ t, m.microLoop c.val n copy (k + 1) i = t ∧ m.besides t c.val ∧
      t.core c.val = { (m.core c.val).nopDone with bank := { (m.core c.val).nopDone.bank with prog := {} } }.wentOn 1 := by
  generalize hm3 : (((m.updCore c.val Core.beginBody).updCore c.val fun k => k.stampUndo none).updCore c.val fun k =>
      { k with stitches := k.stitches + 1, rbuf := [], wait := .none }).evCore c.val 0x01 1 = m3
  have hk3 : m3.core c.val = (m.core c.val).nopDone := by
    rw [← hm3, Mod.core_evCore, Mod.core_updCore_self, Mod.core_updCore_self, Mod.core_updCore_self]; rfl
  have hb3 : m.besides m3 c.val := by
    rw [← hm3]
    exact Mod.besides_trans (Mod.besides_trans (Mod.besides_trans (m.besides_updCore c.val _) (Mod.besides_updCore _ c.val _)) (Mod.besides_updCore _ c.val _))
      (Mod.besides_evCore _ c.val _ _ _)
  have hk4 : (m3.updBank c.val fun b => { b with prog := {} }).core c.val =
      { (m.core c.val).nopDone with bank := { (m.core c.val).nopDone.bank with prog := {} } } := by rw [Mod.core_updBank_self, hk3]
  obtain ⟨t, ht, htc, htb⟩ := Mod.retire_next_besides (m := m3.updBank c.val fun b => { b with prog := {} }) c 1
    (by rw [hk4]; exact hloop) (by rw [hk4]; exact href)
  refine ⟨t, ?_, Mod.besides_trans hb3 (Mod.besides_trans (m3.besides_updBank c.val _) htb), by rw [htc, hk4]⟩
  rw [Mod.microLoop]
  simp only [he, hload, microBody_lastNop, Mod.applyOld, bind, Except.bind, hm3, ht]
  rfl

section
variable {m m1 : Mod} {c : CoreId} {n : Nat} {f : BitVec 26} (hc : c.val ≠ 256) (hf : m.fetch c.val = .ok m1)
  (hk : m1.core c.val = { m.core c.val with mem := (m1.core c.val).mem }) (hprog : (m.core c.val).bank.prog = {})
include hc hf hk hprog

/-- A customer instruction that begins: its dispatch entry, and its immediate (R248). -/
theorem Mod.custBegin_first {copy : UcCopy} (hcopy : copy = if (m.core c.val).uc.useOld then (m.core c.val).uc.prev else (m.core c.val).uc.cur) :
    m.custBegin c.val n f =
      if !bit (Tab.get 0 copy.disp n) 31 then .error (serrStop 0x02 (0x10 + n) 0 0)
      else (if bit (Tab.get 0 copy.disp n) 30 then m1.push c.val (w64 f.toNat) else .ok m1) >>= fun m2 => .ok (m2, copy, fld (Tab.get 0 copy.disp n) 10 0) := by
  have hroutine : (m1.core c.val).routineCopy = copy := by
    rw [hk, hcopy]
    show (if (m.core c.val).bank.prog.kind = 2 then _ else _) = _
    rw [hprog]
    rfl
  have hkind : ¬ (m1.core c.val).bank.prog.kind = 2 := by
    rw [hk]
    show ¬ (m.core c.val).bank.prog.kind = 2
    rw [hprog]
    decide
  simp only [Mod.custBegin, hf, Except.ok_bind, hroutine, if_neg hc, if_neg hkind]
  congr 1
  split <;> rfl

end

theorem completes_cust_nouc {s : State} {c : CoreId} {n : Fin 16} {f : BitVec 26} {copy : UcCopy} (hr : s.m.standsReady c) (hc : c.val ≠ 256)
    (hprog : (s.m.core c.val).bank.prog = {})
    (hcopy : copy = if (s.m.core c.val).uc.useOld then (s.m.core c.val).uc.prev else (s.m.core c.val).uc.cur)
    (hd : bit (Tab.get 0 copy.disp n.val) 31 = false) : completes (.cust c n f) s fun t => s.m.raised t c 0 0x380 (serrOf 2 (0x10 + n.val) 0 0) := by
  obtain ⟨m1, hf⟩ := hr.atIssue.fetches
  have hk : m1.core c.val = { s.m.core c.val with mem := (m1.core c.val).mem } := by rw [← (Mod.fetch_keeps hr.atIssue.upsets hf).1]
  have hbegin := Mod.custBegin_first (n := n.val) (f := f) hc hf hk hprog hcopy
  rw [hd] at hbegin
  have hrow : rowCust c n f s.m = s.m.stop c.val (serrStop 0x02 (0x10 + n.val) 0 0) := by
    simp only [rowCust, hr.atIssue.can, Bool.not_true, Bool.false_eq_true, if_false, hbegin, Bool.not_false, if_true]
  have hraised : s.m.raised (s.m.stop c.val (serrStop 0x02 (0x10 + n.val) 0 0)) c 0 0x380 (serrOf 2 (0x10 + n.val) 0 0) := s.m.setTrap_raised c 0 0x380 _
  obtain ⟨-, -, -, -, -, -, -, -, -, hnv, hpwr, -⟩ := id hraised
  exact completes_kept (f := rowCust c n f) rfl hr.atIssue.powered (by rw [hrow]; exact hnv) (by rw [hrow]; exact hpwr) (by rw [hrow]; exact hraised)
theorem completes_cust_nop {s : State} {c : CoreId} {n : Fin 16} {f : BitVec 26} {copy : UcCopy} (hr : s.m.standsReady c) (hc : c.val ≠ 256)
    (hprog : (s.m.core c.val).bank.prog = {})
    (hcopy : copy = if (s.m.core c.val).uc.useOld then (s.m.core c.val).uc.prev else (s.m.core c.val).uc.cur)
    (hd : bit (Tab.get 0 copy.disp n.val) 31 = true) (ho : s.m.holdsOps c [] 1) (he : Tab.get 0 copy.ents (fld (Tab.get 0 copy.disp n.val) 10 0) = lastNop) :
    completes (.cust c n f) s fun t => s.m.went t c (·.took 0 (if bit (Tab.get 0 copy.disp n.val) 30 then [f.setWidth 64] else [])) := by
  obtain ⟨m1, hf⟩ := hr.atIssue.fetches
  obtain ⟨hmem, hapart, -⟩ := Mod.fetch_keeps hr.atIssue.upsets hf
  have hk : m1.core c.val = { s.m.core c.val with mem := (m1.core c.val).mem } := by rw [← hmem]
  have ho1 : m1.holdsOps c [] 1 := Mod.holdsOps_congr (by rw [hk]) (by rw [hk]) ho
  generalize hnew : (if bit (Tab.get 0 copy.disp n.val) 30 then [f.setWidth 64] else [] : List W64) = new
  have hbegin := Mod.custBegin_first (n := n.val) (f := f) hc hf hk hprog hcopy
  obtain ⟨m2, hpush, hk2, hapart2⟩ : ∃ m2, (if bit (Tab.get 0 copy.disp n.val) 30 then m1.push c.val (w64 f.toNat) else .ok m1 : Ex Mod) = .ok m2 ∧
      m2.core c.val = (m1.core c.val).acted (·.replaced 0 new) [] ∧ m1.apart m2 c := by
    rw [← hnew]
    split
    · refine ⟨_, Mod.push_held ho1 _, ?_, m1.apart_updCore c _⟩
      rw [Mod.core_updBank_self, Core.acted, List.append_nil, show w64 f.toNat = f.setWidth 64 from BitVec.eq_of_toNat_eq (by simp [w64])]
    · refine ⟨m1, rfl, ?_, Mod.apart_refl m1 c⟩
      simp only [Core.acted, Bank.replaced, List.append_nil, List.nil_append, List.drop_zero, Nat.sub_zero, List.length_nil, Nat.add_zero]
  rw [hd, hpush] at hbegin
  rw [hk] at hk2
  obtain ⟨t, ht, htb, htc⟩ := Mod.microLoop_lastNop (m := m2) (c := c) (n := n.val) 2047 he (by rw [hk2]; exact hr.atIssue.load)
    (by rw [hk2]; exact hr.loop_none) (by rw [hk2]; exact hr.atIssue.refused)
  have hrow : rowCust c n f s.m = t := by
    simp only [rowCust, hr.atIssue.can, Bool.not_true, Bool.false_eq_true, if_false, hbegin, Except.ok_bind]
    exact ht
  have hap : s.m.apart t c := Mod.apart_trans hapart (Mod.apart_trans hapart2 htb.apart)
  have hkept := hap
  obtain ⟨-, -, -, -, -, hnv, hpwr, -⟩ := hkept
  rw [hk2] at htc
  have hplain : (t.core c.val).vec.plain = (s.m.core c.val).vec.plain := by
    rw [htc]; exact (Core.plain_stampUndo _ _).trans (Core.plain_beginBody _)
  have hbank : (t.core c.val).bank = (s.m.core c.val).bank.took 0 new := by
    rw [htc]
    show ({ (s.m.core c.val).bank.replaced 0 new with load := none, prog := {}, pc := w64 ((s.m.core c.val).bank.pc.toNat + 4) } : Bank) = _
    rw [← hprog, ← hr.atIssue.load, w64_toNat_add_four]
    rfl
  refine completes_kept (f := rowCust c n f) rfl hr.atIssue.powered (by rw [hrow]; exact hnv) (by rw [hrow]; exact hpwr) ?_
  rw [hrow]
  refine ⟨hbank, ?_, ⟨by rw [htc]; rfl, by rw [htc]; rfl, by rw [htc]; rfl, hplain, by rw [htc]; rfl, by rw [htc]; rfl, by rw [htc]; rfl, by rw [htc]; rfl,
    by rw [htc]; rfl, by rw [htc]; rfl⟩, hap⟩
  rw [htc]
  exact List.append_nil _

/-- Settles O15: each row's body on the module that its fetch leaves, and the retirement after it. -/
theorem pieceAndCustomerInstructions : Obligations.PieceAndCustomerInstructions := by
  unfold Obligations.PieceAndCustomerInstructions
  refine ⟨fun s c f x hr hc hf => ⟨?_, ?_, ?_, ?_, ?_, ?_⟩, fun s c f x n hc hf => ?_, fun s c n f hr hc hprog => ⟨fun hd => ?_, fun hd ho he => ?_⟩⟩
  · exact fun pid hid hv hu hopen hrun => completes_pend hr hc hf hid hv hu hopen hrun
  · exact fun hrun => completes_pwait_idle hr hf hc hrun
  · exact fun i hi hrun hne h0 hheld => completes_pwait_takes hr hf hc hrun hi hne h0 hheld
  · exact fun hrun h0 => completes_pwait_waits hr hf hc hrun h0
  · exact fun ho hv hx => completes_pfire hr hf hc ho hv hx
  · exact fun pid hid ho => completes_pid hr hf hc hid ho
  · have hposts : ∀ (i : Instr) (m : Mod), exec i s = s.run (fun _ => m.shpostLoop c.val f 4096) → m.nv = s.m.nv → m.pwr = s.m.pwr →
        (m.core c.val).bank = (s.m.core c.val).bank → ∀ pa m2 bs m3 q, m.standsReady c → m.holdsOps c [1, x] 0 → (s.m.core c.val).bank.prog = {} →
        capFail ((s.m.core c.val).bank.cap (fCap f)) pRD x.toNat 64 = none → ((s.m.core c.val).bank.cap (fCap f)).type = 0 →
        (m.fetched c).places c.val ((s.m.core c.val).bank.cap (fCap f)) .read x.toNat 64 = .ok ([(.loc pa, 64)], m2) → m2.readNow c.val pa 64 = .ok (bs, m3) →
        m.shtPick c.val f = some q → completes i s fun t => m.postedTo t c q x.toNat bs := by
      intro i m hi hnv hpwr hbank pa m2 bs m3 q hr ho hprog hfail htype hpl hread hq
      rw [← hbank] at hprog hfail htype hpl
      have h := Mod.shpost_posts hc hf hr ho hprog hfail htype hpl hread hq
      have hreached := h.reached
      obtain ⟨-, -, -, ⟨-, -, htnv, htpwr⟩, -⟩ := hreached
      exact completes_kept hi (by rw [Mod.powered, ← hpwr]; exact hr.atIssue.powered) (htnv.trans hnv) (htpwr.trans hpwr) h
    have hresume : ∀ q, (s.m.core c.val).wait = .shpost → s.m.shtPick c.val f = some q →
        rowShpostResume c f s.m = (s.m.updCore c.val fun k => { k with wait := .none }).shpostLoop c.val f 4096 := fun q hw hq => by
      rw [rowShpostResume, if_pos ⟨hw, by rw [hq]; rfl⟩]
    have hbank : ((s.m.updCore c.val fun k => { k with wait := .none }).core c.val).bank = (s.m.core c.val).bank := by rw [Mod.core_updCore_self]
    refine ⟨fun pa m2 bs m3 q hr ho hprog hfail htype hpl hread hq => ?_, fun hw pa m2 bs m3 q hr ho hprog hfail htype hpl hread hq => ?_,
      fun pa m2 bs m3 hr ho hprog hfail htype hpl hread hq => ?_, fun hr ho hn => completes_shpost_range hc hf hr ho hn, fun q hp hw hq => ?_⟩
    · refine (hposts (.shpost c f) s.m rfl rfl rfl rfl pa m2 bs m3 q hr ho hprog hfail htype hpl hread hq).mono fun t ht => ?_
      obtain ⟨⟨d, hqueue, hbytes, hcore, haddr, hid, hscap, hdcap⟩, hothers, hreached⟩ := ht
      exact ⟨d, hqueue, hbytes, hcore, haddr, hid, hscap, hdcap, hothers, hreached⟩
    · have hi : exec (.shpostResume c f) s = s.run fun _ => (s.m.updCore c.val fun k => { k with wait := .none }).shpostLoop c.val f 4096 := by
        show s.run (rowShpostResume c f) = _
        simp only [State.run, Mod.within, hresume q hw hq]
      refine (hposts _ _ hi rfl rfl hbank pa m2 bs m3 q hr ho hprog hfail htype hpl hread hq).mono fun t ht => ?_
      obtain ⟨⟨d, hqueue, hbytes, hcore, haddr, hid, hscap, hdcap⟩, hothers, hreached⟩ := ht
      exact ⟨d, hqueue, hbytes, hcore, haddr, hid, hbank ▸ hscap, hbank ▸ hdcap, hothers, hreached⟩
    · have hwait := Mod.shpost_waits hc hf hr ho hprog hfail htype hpl hread hq
      exact completes_kept (f := fun m => m.shpostLoop c.val f 4096) rfl hr.atIssue.powered (by rw [hwait]; rfl) (by rw [hwait]; rfl) hwait
    · show s.run (rowShpostResume c f) = State.run _ (rowShpost c f)
      rw [State.run_powered s _ hp, hresume q hw hq]
      exact (State.run_powered { s with m := s.m.updCore c.val fun k => { k with wait := .none } } (rowShpost c f) hp).symm
  · exact completes_cust_nouc hr hc hprog rfl hd
  · exact completes_cust_nop hr hc hprog rfl hd ho he

end Sys2Proof.Machine
end

section
/-! The start of a vector instruction is followed by the policy on uncorrectable events (R586): the refutation of the statement on starts and ends. -/

namespace Sys2Proof.Machine

/-- A VMOV that waits in a station, with VL 0. -/
def waitingMove : Station := { word := wordOf 0x29 0 }
/-- A core with that instruction. -/
def moving : Core := { run := .running, vec := { stations := [waitingMove] } }

theorem moving_halts : cueHalts moving fun m => rowVectorStart 0 [] m := by unfold cueHalts; decide +kernel
/-- Refutes O18: a start is followed by the policy on uncorrectable events, which the statement does not take to be off; it fences another core that had
counted one. -/
theorem not_vectorStartAndEnd : ¬ Obligations.VectorStartAndEnd := by
  unfold Obligations.VectorStartAndEnd
  intro h
  obtain ⟨hstart, -⟩ := h { m := cueMod moving } 0 waitingMove (by decide +kernel)
  refine not_amid_of_cueHalts rfl (by decide +kernel) moving_halts ((hstart [] (by decide +kernel) rfl (.inl (by decide +kernel))).mono fun t ht => ?_)
  obtain ⟨⟨-, -, -, -, -, -, -, hapart⟩, -⟩ := ht
  exact hapart.amid

end Sys2Proof.Machine
end

section
/-! The start of a pass of the finishing engine is followed by the policy on uncorrectable events (R586): the refutation of the statement on the engine. -/

namespace Sys2Proof.Machine

/-- A pass of no elements, under a descriptor of zeros. -/
def emptyPass : FinPass := { slot := 0, desc := [], count := 0 }
/-- A core with that pass in its queue. -/
def finishing : Core := { run := .running, fin := { queue := [emptyPass] } }

theorem finishing_halts : cueHalts finishing fun m => rowFinPassStart 0 [] m := by unfold cueHalts; decide +kernel
/-- Refutes O22: the start of a pass is followed by the policy on uncorrectable events, which the statement does not take to be off; it fences another
core that had counted one. -/
theorem not_finishing : ¬ Obligations.Finishing := by
  unfold Obligations.Finishing
  rintro ⟨h, -⟩
  obtain ⟨-, hstart, -⟩ := h { m := cueMod finishing } 0 0 0 0 0 0 0 (by decide +kernel) (by decide +kernel) (by decide +kernel)
  refine not_amid_of_cueHalts rfl (by decide +kernel) finishing_halts
    ((hstart emptyPass [] [] (by decide +kernel) rfl (by decide +kernel) (by decide +kernel) (by decide +kernel) (by decide +kernel) rfl).mono fun t ht => ?_)
  obtain ⟨⟨-, -, -, -, -, -, -, hapart⟩, -⟩ := ht
  exact hapart.amid

end Sys2Proof.Machine
end

section
/-! Two frames: what goes out to hosts with a vector (R546, R592), and what the bookkeeping of pieces, fires and writes to memory touches (R313 to R335). -/

namespace Sys2Proof.Machine

/-! ## Vectors -/

/-- Only registers of BAR0 that `own` names and the messages on their way to the hosts have changed. -/
structure Mod.outward (own : Nat → Prop) (m t : Mod) : Prop where
  rest : { t with bar0 := m.bar0, hosts := m.hosts } = m
  regs : ∀ a, ¬ own a → t.rd a = m.rd a
  hosts : ∀ h, { t.host h with out := (m.host h).out } = m.host h

theorem Mod.outward_refl (own : Nat → Prop) (m : Mod) : m.outward own m := ⟨rfl, fun _ _ => rfl, fun _ => rfl⟩
theorem Mod.outward_trans {own : Nat → Prop} {m t u : Mod} (h : m.outward own t) (g : t.outward own u) : m.outward own u where
  rest := calc ({ u with bar0 := m.bar0, hosts := m.hosts } : Mod) =
        { ({ u with bar0 := t.bar0, hosts := t.hosts } : Mod) with bar0 := m.bar0, hosts := m.hosts } := rfl
      _ = { t with bar0 := m.bar0, hosts := m.hosts } := by rw [g.rest]
      _ = m := h.rest
  regs a ha := (g.regs a ha).trans (h.regs a ha)
  hosts d := by rw [← h.hosts d, ← g.hosts d]
/-- The last piece of work first. -/
theorem Mod.outward_after {own : Nat → Prop} {m t u : Mod} (g : t.outward own u) (h : m.outward own t) : m.outward own u := Mod.outward_trans h g
theorem Mod.outward_ite {own : Nat → Prop} {m t u : Mod} {p : Prop} [Decidable p] (ht : m.outward own t) (hu : m.outward own u) :
    m.outward own (if p then t else u) := by
  split <;> assumption
/-- What does not read BAR0 and the host ports is as it was. -/
theorem Mod.outward.same {α : Type} {own : Nat → Prop} {m t : Mod} (h : m.outward own t) (f : Mod → α)
    (hf : ∀ (u : Mod) b q, f { u with bar0 := b, hosts := q } = f u := by intros; rfl) : f t = f m := by
  rw [← hf t m.bar0 m.hosts, h.rest]
theorem Mod.outward.rdf {own : Nat → Prop} {m t : Mod} (h : m.outward own t) {a : Nat} (ha : ¬ own a) (hi lo : Nat) : t.rdf a hi lo = m.rdf a hi lo := by
  simp only [Mod.rdf, h.regs a ha]
theorem Mod.outward.mono {own all : Nat → Prop} {m t : Mod} (h : m.outward own t) (hall : ∀ a, own a → all a) : m.outward all t :=
  ⟨h.rest, fun a ha => h.regs a fun ho => ha (hall a ho), h.hosts⟩
theorem Mod.outward_wr {own : Nat → Prop} (m : Mod) {a : Nat} (v : W64) (ha : own a) : m.outward own (m.wr a v) :=
  ⟨rfl, fun _ hb => Mod.rd_wr_ne m v fun e => hb (e ▸ ha), fun _ => rfl⟩
theorem Mod.outward_wrf {own : Nat → Prop} (m : Mod) {a : Nat} (hi lo v : Nat) (ha : own a) : m.outward own (m.wrf a hi lo v) := Mod.outward_wr m _ ha
theorem Mod.outward_toHost (own : Nat → Prop) (m : Mod) (h : Nat) (x : HostOut) : m.outward own (m.toHost h x) := by
  refine ⟨rfl, fun _ _ => rfl, fun d => ?_⟩
  simp only [Mod.toHost, Mod.host_updHost]
  split
  · next e => subst e; rfl
  · rfl
theorem Mod.outward_toHosts (own : Nat → Prop) (h : Nat) (f : Nat → HostOut) (vs : List Nat) (m : Mod) :
    m.outward own (vs.foldl (fun (m : Mod) v => m.toHost h (f v)) m) :=
  foldl_keeps (Mod.outward own) (Mod.outward_refl own) Mod.outward_trans _ (fun m _ => Mod.outward_toHost own m _ _) vs m
/-- A partition's vector clears its arm bit alone. -/
theorem Mod.outward_prtVector (m : Mod) (p : Nat) : m.outward (· = bPRT p + 0x28) (m.prtVector p) := by
  unfold Mod.prtVector
  exact Mod.outward_ite (Mod.outward_refl _ m)
    (Mod.outward_after (Mod.outward_toHosts _ _ _ _ _) (Mod.outward_after (Mod.outward_toHost _ _ _ _) (Mod.outward_wrf m _ _ _ rfl)))
/-- A port's vector for module events clears its arm bit alone. -/
theorem Mod.outward_calVector (m : Mod) (h : Nat) : m.outward (· = portStride * h + bCAL + 0x108) (m.calVector h) := by
  unfold Mod.calVector
  exact Mod.outward_ite (Mod.outward_refl _ m) (Mod.outward_after (Mod.outward_toHost _ _ _ _) (Mod.outward_wrf m _ _ _ rfl))
/-- The registers of a module event: its bit, its count, and the arm bit of each port. -/
def calEventRegs (i a : Nat) : Prop := a = bCAL + 0x80 ∨ a = bCAL + 0xC0 + 8 * i ∨ a = bCAL + 0x108 ∨ a = portStride + bCAL + 0x108
theorem Mod.outward_calEvent (m : Mod) (i : Nat) : m.outward (calEventRegs i) (m.calEvent i) := by
  have h0 := (Mod.outward_calVector ((m.raise (bCAL + 0x80) i).inc (bCAL + 0xC0 + 8 * i)) 0).mono (all := calEventRegs i)
    fun a ha => .inr (.inr (.inl (by rw [ha]; rfl)))
  have h1 := (Mod.outward_calVector (((m.raise (bCAL + 0x80) i).inc (bCAL + 0xC0 + 8 * i)).calVector 0) 1).mono (all := calEventRegs i)
    fun a ha => .inr (.inr (.inr (by rw [ha]; rfl)))
  exact Mod.outward_after h1 (Mod.outward_after h0 (Mod.outward_after (Mod.outward_wrf _ _ _ _ (.inr (.inl rfl))) (Mod.outward_wrf m _ _ _ (.inl rfl))))

/-! ## The bookkeeping of pieces -/

/-- Memory and copies of it, poison, registers from PNC_ on, vectors, patterns and the free values have been at work; fences are as they were. -/
structure Mod.chores (m t : Mod) : Prop where
  rest : { t with cores := m.cores, coh := m.coh, spl := m.spl, bar0 := m.bar0, poison := m.poison, mem := m.mem, tags := m.tags, pat := m.pat
                  hosts := m.hosts, freeCtr := m.freeCtr } = m
  cores : ∀ d, { t.core d with mem := (m.core d).mem } = m.core d
  upsets : t.coh.upsets = m.coh.upsets
  fenced : t.spl.fenced = m.spl.fenced
  regs : ∀ a, a < bPNC 0 → t.rd a = m.rd a

theorem Mod.chores_refl (m : Mod) : m.chores m := ⟨rfl, fun _ => rfl, rfl, rfl, fun _ _ => rfl⟩
theorem Mod.chores_trans {m t u : Mod} (h : m.chores t) (g : t.chores u) : m.chores u where
  rest := calc ({ u with cores := m.cores, coh := m.coh, spl := m.spl, bar0 := m.bar0, poison := m.poison, mem := m.mem, tags := m.tags, pat := m.pat
                         hosts := m.hosts, freeCtr := m.freeCtr } : Mod) =
        { ({ u with cores := t.cores, coh := t.coh, spl := t.spl, bar0 := t.bar0, poison := t.poison, mem := t.mem, tags := t.tags, pat := t.pat
                    hosts := t.hosts, freeCtr := t.freeCtr } : Mod) with
          cores := m.cores, coh := m.coh, spl := m.spl, bar0 := m.bar0, poison := m.poison, mem := m.mem, tags := m.tags, pat := m.pat
          hosts := m.hosts, freeCtr := m.freeCtr } := rfl
      _ = { t with cores := m.cores, coh := m.coh, spl := m.spl, bar0 := m.bar0, poison := m.poison, mem := m.mem, tags := m.tags, pat := m.pat
                   hosts := m.hosts, freeCtr := m.freeCtr } := by rw [g.rest]
      _ = m := h.rest
  cores d := by rw [← h.cores d, ← g.cores d]
  upsets := g.upsets.trans h.upsets
  fenced := g.fenced.trans h.fenced
  regs a ha := (g.regs a ha).trans (h.regs a ha)
theorem Mod.chores_after {m t u : Mod} (g : t.chores u) (h : m.chores t) : m.chores u := Mod.chores_trans h g
theorem Mod.chores_foldl {β : Type} (f : Mod → β → Mod) (h : ∀ (m : Mod) x, m.chores (f m x)) (xs : List β) (m : Mod) : m.chores (xs.foldl f m) :=
  foldl_keeps Mod.chores Mod.chores_refl Mod.chores_trans f h xs m
theorem Mod.chores_ite {m t u : Mod} {p : Prop} [Decidable p] (ht : m.chores t) (hu : m.chores u) : m.chores (if p then t else u) := by
  split <;> assumption
/-- What reads none of the parts at work is as it was. -/
theorem Mod.chores.same {α : Type} {m t : Mod} (h : m.chores t) (f : Mod → α)
    (hf : ∀ (u : Mod) cs co sp b po me ta pa ho n, f { u with cores := cs, coh := co, spl := sp, bar0 := b, poison := po, mem := me, tags := ta, pat := pa
                                                              hosts := ho, freeCtr := n } = f u := by intros; rfl) : f t = f m := by
  rw [← hf t m.cores m.coh m.spl m.bar0 m.poison m.mem m.tags m.pat m.hosts m.freeCtr, h.rest]
theorem Mod.chores.core_eq {m t : Mod} (h : m.chores t) (d : Nat) : t.core d = { m.core d with mem := (t.core d).mem } := by rw [← h.cores d]
theorem Mod.chores.rdf {m t : Mod} (h : m.chores t) {a : Nat} (ha : a < bPNC 0) (hi lo : Nat) : t.rdf a hi lo = m.rdf a hi lo := by
  simp only [Mod.rdf, h.regs a ha]
theorem Mod.chores.spares {m t : Mod} (h : m.chores t) : m.spares t := ⟨h.cores, h.same (·.parts), h.same (·.nv), h.same (·.pwr)⟩
theorem Mod.traffic.chores {m t : Mod} (h : m.traffic t) : m.chores t where
  rest := calc ({ t with cores := m.cores, coh := m.coh, spl := m.spl, bar0 := m.bar0, poison := m.poison, mem := m.mem, tags := m.tags, pat := m.pat
                         hosts := m.hosts, freeCtr := m.freeCtr } : Mod) =
        { ({ t with cores := m.cores, coh := m.coh, spl := m.spl, bar0 := m.bar0, poison := m.poison } : Mod) with
          mem := m.mem, tags := m.tags, pat := m.pat, hosts := m.hosts, freeCtr := m.freeCtr } := rfl
      _ = m := by rw [h.rest]
  cores := h.cores
  upsets := h.upsets
  fenced := h.fenced
  regs a ha := h.regs a (.inl ha)
theorem Mod.outward.chores {own : Nat → Prop} {m t : Mod} (h : m.outward own t) (hown : ∀ a, own a → bPNC 0 ≤ a) : m.chores t where
  rest := calc ({ t with cores := m.cores, coh := m.coh, spl := m.spl, bar0 := m.bar0, poison := m.poison, mem := m.mem, tags := m.tags, pat := m.pat
                         hosts := m.hosts, freeCtr := m.freeCtr } : Mod) =
        { ({ t with bar0 := m.bar0, hosts := m.hosts } : Mod) with
          cores := m.cores, coh := m.coh, spl := m.spl, poison := m.poison, mem := m.mem, tags := m.tags, pat := m.pat, freeCtr := m.freeCtr } := rfl
      _ = m := by rw [h.rest]
  cores d := by rw [h.same (·.core d)]
  upsets := h.same (·.coh.upsets)
  fenced := h.same (·.spl.fenced)
  regs a ha := h.regs a fun ho => absurd (hown a ho) (by omega)
theorem Mod.chores_wr (m : Mod) {a : Nat} (v : W64) (ha : bPNC 0 ≤ a) : m.chores (m.wr a v) :=
  (Mod.outward_wr (own := fun b => bPNC 0 ≤ b) m v ha).chores fun _ => id
theorem Mod.chores_wrf (m : Mod) {a : Nat} (hi lo v : Nat) (ha : bPNC 0 ≤ a) : m.chores (m.wrf a hi lo v) := Mod.chores_wr m _ ha
theorem Mod.chores_incBy (m : Mod) {a : Nat} (n : Nat) (ha : bPNC 0 ≤ a) : m.chores (m.incBy a n) := Mod.chores_wr m _ ha
theorem Mod.chores_pat (m : Mod) (q : PatState) : m.chores { m with pat := q } := ⟨rfl, fun _ => rfl, rfl, rfl, fun _ _ => rfl⟩
theorem bPNC_le_bPRT (p n : Nat) : bPNC 0 ≤ bPRT p + n := by simp only [bPNC, bPRT]; omega
theorem Mod.chores_prtVector (m : Mod) (p : Nat) : m.chores (m.prtVector p) :=
  (Mod.outward_prtVector m p).chores fun a ha => by rw [ha]; exact bPNC_le_bPRT p _
theorem Mod.chores_fire (m : Mod) (part notch : Nat) (src : FireSrc) : m.chores (m.fire part notch src) := by
  unfold Mod.fire
  exact Mod.chores_ite (Mod.chores_refl m) (Mod.chores_pat m _)
theorem Mod.chores_fireFault (m : Mod) (part : Nat) : m.chores (m.fireFault part) := by
  have hp (n : Nat) : bPNC 0 ≤ bPAT part + n := by simp only [bPNC, bPAT, bPRT]; omega
  exact Mod.chores_after (Mod.chores_prtVector _ _) (Mod.chores_after (Mod.chores_incBy _ 1 (by have := hp (0x80 + 8 * 7); omega))
    (Mod.chores_after (Mod.chores_wrf _ _ _ _ (hp _)) (Mod.chores_fire m _ _ _)))
theorem Mod.chores_patCnt (m : Mod) (p i n : Nat) : m.chores (m.patCnt p i n) :=
  Mod.chores_incBy m n (by simp only [bPNC, bPAT, bPRT]; omega)

/-! ## Writes to memory -/

theorem Mod.chores_setBytes (m : Mod) (pa n : Nat) (mem : Tab Byte) : m.chores (({ m with mem := mem }.clearTags pa n).cleanLines pa n) := by
  have hmem : m.chores { m with mem := mem } := ⟨rfl, fun _ => rfl, rfl, rfl, fun _ _ => rfl⟩
  refine Mod.chores_after (t := { m with mem := mem }.clearTags pa n) ?_ (Mod.chores_after ?_ hmem)
  · unfold Mod.cleanLines
    exact Mod.chores_ite ⟨rfl, fun _ => rfl, rfl, rfl, fun _ _ => rfl⟩ (Mod.chores_refl _)
  · unfold Mod.clearTags
    exact Mod.chores_ite (Mod.chores_refl _) ⟨rfl, fun _ => rfl, rfl, rfl, fun _ _ => rfl⟩
theorem Mod.chores_wrMem (m : Mod) (pa : Nat) (bs : List Byte) : m.chores (m.wrMem pa bs) := by
  unfold Mod.wrMem
  refine Mod.chores_ite (Mod.chores_foldl _ (fun m _ => ?_) _ m) (Mod.chores_setBytes m pa _ _)
  unfold Mod.wrLine
  exact Mod.chores_ite (Mod.chores_incBy m 1 (by simp only [bPNC, bSPL]; omega)) (Mod.chores_setBytes m _ _ _)
theorem Mod.chores_ncWrite (m : Mod) (pa : Nat) (bs : List Byte) (alloc : Bool) : m.chores (m.ncWrite pa bs alloc) := by
  obtain ⟨t, ht, he⟩ := Mod.ncWrite_eq m pa bs alloc
  rw [he]
  exact Mod.chores_after (Mod.chores_wrMem t _ _) ht.chores
theorem Mod.chores_scramble (m : Mod) (pa n : Nat) : m.chores (m.scramble pa n) :=
  Mod.chores_after (Mod.chores_ncWrite (m.freeBytes n).2 pa _ true) ⟨rfl, fun _ => rfl, rfl, rfl, fun _ _ => rfl⟩

/-! ## Pieces -/

theorem Mod.chores_setPiece (m : Mod) (x : PatSlot) (i state count : Nat) : m.chores (m.setPiece x i state count) := by
  have h := Mod.chores_ncWrite m (x.stateBase + 8 * i) (toLe 8 (stateOf state count)) true
  unfold Mod.setPiece
  dsimp only
  generalize m.ncWrite (x.stateBase + 8 * i) (toLe 8 (stateOf state count)) true = m1 at h ⊢
  exact Mod.chores_trans h (Mod.chores_pat m1 _)
theorem Mod.chores_updPat (m : Mod) (p s : Nat) (f : PatSlot → PatSlot) : m.chores (m.updPat p s f) := by
  unfold Mod.updPat
  split
  · exact Mod.chores_pat m _
  · exact Mod.chores_refl m
theorem Mod.chores_failPiece (m : Mod) (id : PieceId) : m.chores (m.failPiece id) := by
  unfold Mod.failPiece
  split
  · exact Mod.chores_after (Mod.chores_updPat _ _ _ _) (Mod.chores_setPiece m _ _ _ _)
  · exact Mod.chores_refl m
theorem Mod.chores_ready (m : Mod) (panel : Nat) (r : Ready) : m.chores (m.ready panel r) := by
  unfold Mod.ready
  exact Mod.chores_ite (Mod.chores_pat m _) (Mod.chores_after (Mod.chores_patCnt _ _ _ _) (Mod.chores_pat m _))
theorem Mod.chores_readySaved (m : Mod) (s : Saved) : m.chores (m.readySaved s) := by
  unfold Mod.readySaved
  split
  · exact Mod.chores_trans (Mod.chores_setPiece m _ _ _ _) (Mod.chores_ready _ _ _)
  · exact Mod.chores_refl m
theorem Mod.chores_updSaved (m : Mod) (f : List Saved → List Saved) : m.chores (m.updSaved f) := Mod.chores_pat m _
theorem Mod.chores_replySaved (m : Mod) (id : PieceId) (code : Nat) : m.chores (m.replySaved id code) := by
  unfold Mod.replySaved
  split
  · exact Mod.chores_refl m
  · exact Mod.chores_ite (Mod.chores_trans (Mod.chores_updSaved m _) (Mod.chores_readySaved _ _)) (Mod.chores_updSaved m _)

end Sys2Proof.Machine
end

section
/-! RUN, STOP, core reset and vectors of a partition, and a die-to-die link that fails: fences stay once placed, and a partition that has stopped does not
run again by a fence (R525, R526, R546, R586, R588, R590). -/

namespace Sys2Proof.Machine

/-! ## Fences grow -/

theorem getLsbD_setBit (w : W64) {i j : Nat} (b : Bool) (hj : j < 64) : (setBit w i b).getLsbD j = if j = i then b else w.getLsbD j := by
  unfold setBit
  rw [getLsbD_setFld w i i _ j hj]
  by_cases h : j = i
  · subst h
    rw [if_pos ⟨Nat.le_refl j, Nat.le_refl j⟩, if_pos rfl, Nat.sub_self]
    cases b <;> rfl
  · rw [if_neg (by omega), if_neg h]
theorem Mod.getLsbD_raise (m : Mod) (a i b j : Nat) (hj : j < 64) : ((m.raise a i).rd b).getLsbD j = ((a == b && j == i) || (m.rd b).getLsbD j) := by
  unfold Mod.raise Mod.wrf
  rw [Mod.rd_wr]
  by_cases h : a = b
  · subst h
    rw [if_pos rfl]
    show (setBit (m.rd a) i true).getLsbD j = _
    rw [getLsbD_setBit _ _ hj]
    by_cases hi : j = i <;> simp [hi]
  · simp [h]

/-- Fences stand, the cores of partitions are the same, and no partition runs that did not. -/
structure Mod.abides (m t : Mod) : Prop where
  core : ∀ c, m.coreFenced c = true → t.coreFenced c = true
  panel : ∀ p, m.panelFenced p = true → t.panelFenced p = true
  spool : ∀ s, s ∈ m.spl.fenced → s ∈ t.spl.fenced
  cores : ∀ p, (t.part p).cores = (m.part p).cores
  still : ∀ p, (m.part p).st ≠ .running → (t.part p).st ≠ .running

theorem Mod.abides_refl (m : Mod) : m.abides m := ⟨fun _ => id, fun _ => id, fun _ => id, fun _ => rfl, fun _ => id⟩
theorem Mod.abides_trans {m t u : Mod} (h : m.abides t) (g : t.abides u) : m.abides u :=
  ⟨fun c hc => g.core c (h.core c hc), fun p hp => g.panel p (h.panel p hp), fun s hs => g.spool s (h.spool s hs),
    fun p => (g.cores p).trans (h.cores p), fun p hp => g.still p (h.still p hp)⟩
theorem Mod.abides_after {m t u : Mod} (g : t.abides u) (h : m.abides t) : m.abides u := Mod.abides_trans h g
theorem Mod.abides_foldl {β : Type} (f : Mod → β → Mod) (h : ∀ (m : Mod) x, m.abides (f m x)) (xs : List β) (m : Mod) : m.abides (xs.foldl f m) :=
  foldl_keeps Mod.abides Mod.abides_refl Mod.abides_trans f h xs m
theorem Mod.abides_ite {m t u : Mod} {p : Prop} [Decidable p] (ht : m.abides t) (hu : m.abides u) : m.abides (if p then t else u) := by
  split <;> assumption
theorem Mod.abides.leadPanel {m t : Mod} (h : m.abides t) (p : Nat) : t.leadPanel p = m.leadPanel p := by unfold Mod.leadPanel; rw [h.cores p]
/-- The registers of the fences. -/
def fenceReg (a : Nat) : Prop := bCAL + 0x40 ≤ a ∧ a ≤ bCAL + 0x60
theorem Mod.abides_of {m t : Mod} (hparts : t.parts = m.parts) (hspl : t.spl.fenced = m.spl.fenced) (hr : ∀ a, fenceReg a → t.rd a = m.rd a) : m.abides t where
  core c hc := by
    obtain ⟨h256, hbit⟩ := (Bool.and_eq_true _ _).mp hc
    refine (Bool.and_eq_true _ _).mpr ⟨h256, ?_⟩
    rw [hr _ ⟨by omega, by have := of_decide_eq_true h256; omega⟩]
    exact hbit
  panel p hp := by unfold Mod.panelFenced at hp ⊢; rwa [hr _ ⟨by omega, by omega⟩]
  spool s hs := by rwa [hspl]
  cores p := by simp only [Mod.part, hparts]
  still p hp := by simp only [Mod.part, hparts] at hp ⊢; exact hp
theorem Mod.chores.abides {m t : Mod} (h : m.chores t) : m.abides t :=
  Mod.abides_of (h.same (·.parts)) h.fenced fun a ⟨_, ha⟩ => h.regs a (by simp only [bPNC, bCAL] at ha ⊢; omega)
theorem Mod.abides_updCore (m : Mod) (c : Nat) (f : Core → Core) : m.abides (m.updCore c f) := Mod.abides_of rfl rfl fun _ _ => rfl
theorem Mod.abides_calEvent (m : Mod) (i : Nat) : m.abides (m.calEvent i) :=
  Mod.abides_of ((Mod.outward_calEvent m i).same (·.parts)) ((Mod.outward_calEvent m i).same (·.spl.fenced)) fun a ⟨_, ha⟩ =>
    (Mod.outward_calEvent m i).regs a fun h => by
      simp only [calEventRegs, portStride, bCAL] at h ha
      omega
theorem Mod.abides_setTrap (m : Mod) (c v : Nat) (regs : List (Nat × W64)) : m.abides (m.setTrap c v regs) := Mod.abides_updCore m c _

/-! ## A partition stops -/

theorem Mod.abides_scrambleDst (m : Mod) (s : Nat) (d : ShtDesc) : m.abides (m.scrambleDst s d) := by
  unfold Mod.scrambleDst
  refine Mod.abides_foldl _ (fun m r => ?_) _ m
  dsimp only
  split
  · exact Mod.abides_of rfl rfl fun _ _ => rfl
  · refine Mod.abides_foldl _ (fun m p => ?_) _ m
    split
    · exact (Mod.chores_scramble m _ _).abides
    · exact Mod.abides_refl m
  · exact Mod.abides_refl m
theorem Mod.abides_updSht (m : Mod) (s : Nat) (f : Shuttle → Shuttle) : m.abides (m.updSht s f) := Mod.abides_of rfl rfl fun _ _ => rfl
theorem Mod.abides_shtEnd (m : Mod) (s : Nat) (d : ShtDesc) (status : Nat) : m.abides (m.shtEnd s d status) := by
  have h : m.abides (((m.updSht s fun q => { q with running := q.running.filter (·.id != d.id) }).fire d.piece.part (d.f 4 15 0) (.shuttle s)).shtCnt s 1 1) :=
    Mod.abides_after (Mod.chores_incBy _ 1 (by simp only [bPNC, bSHT]; omega)).abides (Mod.abides_after (Mod.chores_fire _ _ _ _).abides (Mod.abides_updSht m s _))
  have hp (n : Nat) : bPNC 0 ≤ bPERR d.piece.part + n := by simp only [bPNC, bPERR, bPRT]; omega
  unfold Mod.shtEnd
  exact Mod.abides_ite h (Mod.abides_after (Mod.chores_prtVector _ _).abides
    (Mod.abides_after (Mod.chores_wr _ _ (hp 8)).abides (Mod.abides_trans h (Mod.chores_wr _ _ (hp 0)).abides)))
theorem Mod.abides_shtStopPart (m : Mod) (p : Nat) : m.abides (m.shtStopPart p) :=
  Mod.abides_foldl _ (fun m s => Mod.abides_foldl _ (fun m d => Mod.abides_after (Mod.abides_shtEnd _ s d _) (Mod.abides_scrambleDst m s d)) _ m) _ m
theorem Mod.abides_flqStop (m : Mod) (p : Nat) : m.abides (m.flqStop p) := by
  unfold Mod.flqStop
  dsimp only
  refine Mod.abides_after (Mod.abides_foldl _ (fun m u => ?_) _ _) (Mod.abides_of rfl rfl fun _ _ => rfl)
  cases u with
  | core c =>
    show m.abides (m.releaseUnit 1 (.core c))
    simp only [Mod.releaseUnit]
    split
    · exact Mod.abides_setTrap m c 2 _
    · exact Mod.abides_refl m
  | saved id a => exact (Mod.chores_replySaved m id 1).abides
  | shuttle s id => exact Mod.abides_refl m
/-- What follows the change of state when a partition stops. -/
theorem Mod.abides_stopEnds (m : Mod) (cs : List Nat) (p : Nat) :
    m.abides (((cs.foldl (fun (m : Mod) c => m.updCore c fun k => k.setCregf 0x018 17 17 1) m).flqStop p).shtStopPart p) :=
  Mod.abides_after (Mod.abides_shtStopPart _ p) (Mod.abides_after (Mod.abides_flqStop _ p) (Mod.abides_foldl _ (fun m c => Mod.abides_updCore m c _) cs m))
theorem Mod.abides_stopped (m : Mod) (p : Nat) : m.abides (m.updPart p fun q => { q with st := .stopped }) where
  core _ := id
  panel _ := id
  spool _ := id
  cores q := by rw [Mod.part_updPart]; split <;> simp_all
  still q hq := by
    rw [Mod.part_updPart]
    split
    · exact fun h => PartSt.noConfusion h
    · exact hq
theorem Mod.abides_stopPart (m : Mod) (p : Nat) : m.abides (m.stopPart p) := by
  unfold Mod.stopPart
  exact Mod.abides_ite (Mod.abides_refl m) (Mod.abides_after (Mod.abides_stopEnds _ _ p) (Mod.abides_stopped m p))
theorem Mod.stopPart_stopped (m : Mod) (p : Nat) : ((m.stopPart p).part p).st ≠ .running := by
  unfold Mod.stopPart
  split
  · assumption
  · refine (Mod.abides_stopEnds _ _ p).still p ?_
    rw [Mod.part_updPart, if_pos rfl]
    exact fun h => PartSt.noConfusion h

/-! ## Cores, spools and panels are fenced -/

theorem Mod.abides_unseat (m : Mod) (c : Nat) : m.abides (m.unseat c) := by
  have hseat : m.abides (m.setCore c { ((m.core c).setCregf 0x0A0 48 0 0) with seats := [] }) := Mod.abides_of rfl rfl fun _ _ => rfl
  unfold Mod.unseat
  dsimp only
  refine Mod.abides_ite (Mod.abides_refl m) ?_
  split
  · exact Mod.abides_after (Mod.chores_patCnt _ _ _ _).abides hseat
  · exact hseat
theorem Mod.abides_stopCore (m : Mod) (c : Nat) : m.abides (m.stopCore c) := by
  have h1 := Mod.abides_updCore m c fun k => { k.setCregf 0x000 24 24 1 with trap := none }
  unfold Mod.stopCore
  dsimp only
  refine Mod.abides_after (Mod.abides_updCore _ c _) ?_
  split
  · exact Mod.abides_after (Mod.chores_failPiece _ _).abides (Mod.abides_after (Mod.abides_unseat _ _) h1)
  · exact h1
/-- The bit of a core's fence. -/
theorem Mod.coreFenced_wr (m : Mod) (c d : Nat) (hd : m.coreFenced d = true ∨ (d = c ∧ d < 256)) :
    (m.wr (bCAL + 0x40 + 8 * (c / 64)) (setBit (m.rd (bCAL + 0x40 + 8 * (c / 64))) (c % 64) true)).coreFenced d = true := by
  have h256 : d < 256 := hd.elim (fun h => of_decide_eq_true ((Bool.and_eq_true _ _).mp h).1) fun h => h.2
  refine (Bool.and_eq_true _ _).mpr ⟨decide_eq_true h256, ?_⟩
  rw [Mod.rd_wr]
  have hold : d ≠ c → (m.rd (bCAL + 0x40 + 8 * (d / 64))).getLsbD (d % 64) = true := fun hne =>
    hd.elim (fun h => ((Bool.and_eq_true _ _).mp h).2) fun h => absurd h.1 hne
  by_cases hq : c / 64 = d / 64
  · rw [if_pos (by rw [hq]), getLsbD_setBit _ _ (by omega)]
    by_cases hr : d % 64 = c % 64
    · rw [if_pos hr]
    · rw [if_neg hr, hq]; exact hold fun e => hr (by rw [e])
  · rw [if_neg (by omega)]; exact hold fun e => hq (by rw [e])
theorem Mod.abides_wrFence (m : Mod) {c : Nat} (hc : c < 256) :
    m.abides (m.wr (bCAL + 0x40 + 8 * (c / 64)) (setBit (m.rd (bCAL + 0x40 + 8 * (c / 64))) (c % 64) true)) where
  core d hd := Mod.coreFenced_wr m c d (.inl hd)
  panel p hp := by unfold Mod.panelFenced at hp ⊢; rwa [Mod.rd_wr, if_neg (by omega)]
  spool _ := id
  cores _ := rfl
  still _ := id
/-- A fence of a core stands, and what stood stays. -/
theorem Mod.fenceOne_fences (m : Mod) {c : Nat} (hc : c < 256) : m.abides (m.fenceOne c) ∧ (m.fenceOne c).coreFenced c = true := by
  unfold Mod.fenceOne
  by_cases h : m.coreFenced c = true
  · rw [if_pos h]; exact ⟨Mod.abides_refl m, h⟩
  · rw [if_neg h]
    dsimp only
    have hreg : (m.stopCore c).rd (bCAL + 0x40 + 8 * (c / 64)) = m.rd (bCAL + 0x40 + 8 * (c / 64)) := by
      unfold Mod.stopCore
      dsimp only
      cases (m.core c).piece with
      | none => rfl
      | some id =>
        show ((((m.updCore c _).unseat c).failPiece id)).rd _ = _
        rw [(Mod.chores_failPiece _ id).regs _ (by simp only [bPNC, bCAL]; omega)]
        unfold Mod.unseat
        dsimp only
        split
        · rfl
        · split
          · exact (Mod.chores_patCnt _ _ _ _).regs _ (by simp only [bPNC, bCAL]; omega)
          · rfl
    rw [← hreg]
    have hwr := Mod.abides_trans (Mod.abides_stopCore m c) (Mod.abides_wrFence (m.stopCore c) hc)
    have hin := Mod.coreFenced_wr (m.stopCore c) c c (.inr ⟨rfl, hc⟩)
    generalize (m.stopCore c).wr _ _ = m1 at hwr hin ⊢
    have hvec : m1.abides ((match m1.partOf c with | some p => if (m.core c).piece.isSome then m1.fireFault p else m1.prtVector p | none => m1).calEvent 1) := by
      refine Mod.abides_after (Mod.abides_calEvent _ 1) ?_
      split
      · exact Mod.abides_ite (Mod.chores_fireFault _ _).abides (Mod.chores_prtVector _ _).abides
      · exact Mod.abides_refl m1
    exact ⟨Mod.abides_trans hwr hvec, hvec.core c hin⟩
/-- A bit of the fences of spools and panels. -/
theorem Mod.abides_raiseFence (m : Mod) (n : Nat) : m.abides (m.raise (bCAL + 0x60) n) where
  core c hc := by
    obtain ⟨h256, hbit⟩ := (Bool.and_eq_true _ _).mp hc
    refine (Bool.and_eq_true _ _).mpr ⟨h256, ?_⟩
    rw [Mod.getLsbD_raise _ _ _ _ _ (Nat.mod_lt _ (by decide)), hbit, Bool.or_true]
  panel p hp := by
    unfold Mod.panelFenced at hp ⊢
    rw [Mod.getLsbD_raise _ _ _ _ _ (Decidable.byContradiction fun hn => by rw [BitVec.getLsbD_of_ge _ _ (by omega)] at hp; cases hp), hp, Bool.or_true]
  spool _ := id
  cores _ := rfl
  still _ := id
theorem Mod.fenceSpool_fences (m : Mod) (s : Nat) : m.abides (m.fenceSpool s) ∧ s ∈ (m.fenceSpool s).spl.fenced := by
  unfold Mod.fenceSpool
  by_cases h : m.spl.fenced.contains s = true
  · rw [if_pos h]; exact ⟨Mod.abides_refl m, List.contains_iff_mem.mp h⟩
  · rw [if_neg h]
    dsimp only
    have h1 : m.abides { m with spl := { m.spl with fenced := m.spl.fenced ++ [s] } } :=
      ⟨fun _ => id, fun _ => id, fun _ hs => List.mem_append_left _ hs, fun _ => rfl, fun _ => id⟩
    have hin : s ∈ ({ m with spl := { m.spl with fenced := m.spl.fenced ++ [s] } } : Mod).spl.fenced := List.mem_append_right _ (List.mem_singleton.mpr rfl)
    generalize ({ m with spl := { m.spl with fenced := m.spl.fenced ++ [s] } } : Mod) = m1 at h1 hin ⊢
    have h2 : m1.abides (m1.wrf (bSPL s) 8 8 1) := (Mod.chores_wrf m1 _ _ _ (by simp only [bPNC, bSPL]; omega)).abides
    generalize m1.wrf (bSPL s) 8 8 1 = m2 at h2 ⊢
    have h3 := Mod.abides_raiseFence m2 s
    have h4 := Mod.abides_after (Mod.abides_calEvent _ 1) (Mod.abides_trans h2 h3)
    exact ⟨Mod.abides_trans h1 h4, h4.spool s hin⟩
/-- A fold of steps that abide, each of which brings about something that abides. -/
theorem Mod.abides_all {β : Type} (f : Mod → β → Mod) (P : β → Mod → Prop) (hkeep : ∀ x m t, m.abides t → P x m → P x t)
    (xs : List β) (hf : ∀ (m : Mod), ∀ x ∈ xs, m.abides (f m x) ∧ P x (f m x)) (m : Mod) : m.abides (xs.foldl f m) ∧ ∀ x ∈ xs, P x (xs.foldl f m) := by
  induction xs generalizing m with
  | nil => exact ⟨Mod.abides_refl m, by simp⟩
  | cons x xs ih =>
    obtain ⟨hx, hpx⟩ := hf m x (by simp)
    obtain ⟨hrest, hall⟩ := ih (fun m y hy => hf m y (by simp [hy])) (f m x)
    refine ⟨Mod.abides_trans hx hrest, fun y hy => ?_⟩
    rcases List.mem_cons.mp hy with rfl | hy
    · exact hkeep _ _ _ hrest hpx
    · exact hall y hy
/-- The fences of cores and spools of a panel, and the partitions that stop with it. -/
def Mod.fenceAll (m : Mod) (n : Nat) (cs ss ps : List Nat) : Mod :=
  ps.foldl (fun (m : Mod) q => if (m.part q).st = .running ∧ m.leadPanel q = n then m.stopPart q else m)
    (ss.foldl (fun (m : Mod) i => m.fenceSpool (6 * n + i)) (cs.foldl (fun (m : Mod) i => m.fenceOne (64 * n + i)) m))
theorem Mod.fenceAll_fences (m : Mod) {n : Nat} (cs ss ps : List Nat) (hn : ∀ i ∈ cs, 64 * n + i < 256) :
    m.abides (m.fenceAll n cs ss ps) ∧ (∀ i ∈ cs, (m.fenceAll n cs ss ps).coreFenced (64 * n + i) = true) ∧
      (∀ i ∈ ss, 6 * n + i ∈ (m.fenceAll n cs ss ps).spl.fenced) ∧ ∀ o ∈ ps, (m.fenceAll n cs ss ps).leadPanel o = n →
          ((m.fenceAll n cs ss ps).part o).st ≠ .running := by
  unfold Mod.fenceAll
  obtain ⟨h2, hcores⟩ := Mod.abides_all (fun (m : Mod) i => m.fenceOne (64 * n + i)) (fun i m => m.coreFenced (64 * n + i) = true)
    (fun i m t ht hi => ht.core _ hi) cs (fun m i hi => Mod.fenceOne_fences m (hn i hi)) m
  generalize cs.foldl (fun (m : Mod) i => m.fenceOne (64 * n + i)) m = m2 at h2 hcores ⊢
  obtain ⟨h3, hspools⟩ := Mod.abides_all (fun (m : Mod) i => m.fenceSpool (6 * n + i)) (fun i m => 6 * n + i ∈ m.spl.fenced)
    (fun i m t ht hi => ht.spool _ hi) ss (fun m i _ => Mod.fenceSpool_fences m _) m2
  generalize ss.foldl (fun (m : Mod) i => m.fenceSpool (6 * n + i)) m2 = m3 at h3 hspools ⊢
  obtain ⟨h4, hparts⟩ := Mod.abides_all (fun (m : Mod) q => if (m.part q).st = .running ∧ m.leadPanel q = n then m.stopPart q else m)
    (fun q m => m.leadPanel q = n → (m.part q).st ≠ .running) (fun q m t ht hq hl => ht.still q (hq (by rw [← hl, ht.leadPanel])))
    ps (fun m q _ => by
      split
      · exact ⟨Mod.abides_stopPart m q, fun _ => Mod.stopPart_stopped m q⟩
      · next hno => exact ⟨Mod.abides_refl m, fun hl hr => hno ⟨hr, hl⟩⟩) m3
  exact ⟨Mod.abides_trans h2 (Mod.abides_trans h3 h4), fun i hi => (Mod.abides_trans h3 h4).core _ (hcores i hi), fun i hi => h4.spool _ (hspools i hi), hparts⟩
theorem Mod.fencePanel_eq (m : Mod) {n : Nat} (h : m.panelFenced n = false) :
    m.fencePanel n = ((m.raise (bCAL + 0x60) (24 + n)).calEvent 1).fenceAll n (upto 64) (upto 6) (upto 16) := if_neg (by rw [h]; decide)
/-- The fence of a panel reaches its cores and spools, and stops the partitions that it leads (R590). -/
theorem Mod.fencePanel_fences (m : Mod) {n : Nat} (hn : n < 4) (h : m.panelFenced n = false) :
    (m.fencePanel n).panelFenced n = true ∧ (∀ i, i < 64 → (m.fencePanel n).coreFenced (64 * n + i) = true) ∧
      (∀ i, i < 6 → 6 * n + i ∈ (m.fencePanel n).spl.fenced) ∧ ∀ o, o < 16 → m.leadPanel o = n → ((m.fencePanel n).part o).st ≠ .running := by
  have h0 := Mod.abides_raiseFence m (24 + n)
  have hpan : (m.raise (bCAL + 0x60) (24 + n)).panelFenced n = true := by
    unfold Mod.panelFenced
    rw [Mod.getLsbD_raise _ _ _ _ _ (by omega)]
    simp
  have h1 := Mod.abides_calEvent (m.raise (bCAL + 0x60) (24 + n)) 1
  rw [Mod.fencePanel_eq m h]
  obtain ⟨h2, hcores, hspools, hparts⟩ := Mod.fenceAll_fences ((m.raise (bCAL + 0x60) (24 + n)).calEvent 1) (n := n) (upto 64) (upto 6) (upto 16)
    fun i hi => by have := mem_upto.mp hi; omega
  have hend := Mod.abides_trans h1 h2
  exact ⟨hend.panel n hpan, fun i hi => hcores i (mem_upto.mpr hi), fun i hi => hspools i (mem_upto.mpr hi),
    fun o ho hl => hparts o (mem_upto.mpr ho) (by rw [hend.leadPanel, h0.leadPanel, hl])⟩

end Sys2Proof.Machine
end

section
/-! RUN, STOP, core reset and vectors of a partition, and a die-to-die link that fails (R525, R526, R546, R586, R588, R590). -/

namespace Sys2Proof.Machine

/-! ## STOP raises PSTOP (R525) -/

/-- Partitions and one control register of every core are as they were. -/
structure Mod.keepsReg (a : Nat) (m t : Mod) : Prop where
  parts : t.parts = m.parts
  reg : ∀ c, (t.core c).creg a = (m.core c).creg a

theorem Mod.keepsReg_refl (a : Nat) (m : Mod) : m.keepsReg a m := ⟨rfl, fun _ => rfl⟩
theorem Mod.keepsReg_trans {a : Nat} {m t u : Mod} (h : m.keepsReg a t) (g : t.keepsReg a u) : m.keepsReg a u :=
  ⟨g.parts.trans h.parts, fun c => (g.reg c).trans (h.reg c)⟩
theorem Mod.keepsReg_after {a : Nat} {m t u : Mod} (g : t.keepsReg a u) (h : m.keepsReg a t) : m.keepsReg a u := Mod.keepsReg_trans h g
theorem Mod.keepsReg_foldl {β : Type} {a : Nat} (f : Mod → β → Mod) (h : ∀ (m : Mod) x, m.keepsReg a (f m x)) (xs : List β) (m : Mod) :
    m.keepsReg a (xs.foldl f m) := foldl_keeps (Mod.keepsReg a) (Mod.keepsReg_refl a) Mod.keepsReg_trans f h xs m
theorem Mod.spares.keepsReg {m t : Mod} (h : m.spares t) (a : Nat) : m.keepsReg a t := ⟨h.parts, fun c => by rw [h.core_eq c]; rfl⟩
theorem Mod.keepsReg_updCore {a : Nat} (m : Mod) (c : Nat) {f : Core → Core} (hf : ∀ k : Core, (f k).creg a = k.creg a) : m.keepsReg a (m.updCore c f) := by
  refine ⟨rfl, fun d => ?_⟩
  by_cases h : d = c
  · rw [h, Mod.core_updCore_self, hf]
  · rw [Mod.core_updCore_ne m f h]
theorem Mod.keepsReg_setTrap {a : Nat} (m : Mod) (c v : Nat) (regs : List (Nat × W64)) (h : ∀ r ∈ regs, a ≠ r.1) : m.keepsReg a (m.setTrap c v regs) :=
  Mod.keepsReg_updCore m c fun k => (Core.creg_foldl_setCreg_ne a regs h k).1
theorem Mod.keepsReg_scrambleDst (a : Nat) (m : Mod) (s : Nat) (d : ShtDesc) : m.keepsReg a (m.scrambleDst s d) := by
  unfold Mod.scrambleDst
  refine Mod.keepsReg_foldl _ (fun m r => ?_) _ m
  dsimp only
  split
  · have hfree : m.keepsReg a (m.freeBytes d.len).2 := ⟨rfl, fun _ => rfl⟩
    exact Mod.keepsReg_trans hfree (Mod.keepsReg_updCore _ _ fun k => rfl)
  · refine Mod.keepsReg_foldl _ (fun m p => ?_) _ m
    split
    · exact (Mod.spares_scramble m _ _).keepsReg a
    · exact Mod.keepsReg_refl a m
  · exact Mod.keepsReg_refl a m
theorem Mod.keepsReg_shtStopPart (a : Nat) (m : Mod) (p : Nat) : m.keepsReg a (m.shtStopPart p) :=
  Mod.keepsReg_foldl _ (fun m s => Mod.keepsReg_foldl _ (fun m d =>
    Mod.keepsReg_after ((Mod.spares_shtEnd _ s d _).keepsReg a) (Mod.keepsReg_scrambleDst a m s d)) _ m) _ m
/-- A fault that is refused writes its own two registers. -/
theorem Mod.keepsReg_flqStop {a : Nat} (ha : a < 0x3A0) (m : Mod) (p : Nat) : m.keepsReg a (m.flqStop p) := by
  unfold Mod.flqStop
  dsimp only
  refine Mod.keepsReg_after (Mod.keepsReg_foldl _ (fun m u => ?_) _ _) ⟨rfl, fun _ => rfl⟩
  cases u with
  | core c =>
    show m.keepsReg a (m.releaseUnit 1 (.core c))
    simp only [Mod.releaseUnit]
    split
    · exact Mod.keepsReg_setTrap m c 2 _ (by simp; omega)
    · exact Mod.keepsReg_refl a m
  | saved id k => exact (Mod.spares_replySaved m id 1).keepsReg a
  | shuttle s id => exact Mod.keepsReg_refl a m
/-- PSTOP stands on every core of a list, once it has been raised on each. -/
theorem Mod.pstop_raised (cs : List Nat) (m : Mod) (c : Nat) (hc : c ∈ cs ∨ (m.core c).cregf 0x018 17 17 = 1) :
    ((cs.foldl (fun (m : Mod) c => m.updCore c fun k => k.setCregf 0x018 17 17 1) m).core c).cregf 0x018 17 17 = 1 := by
  induction cs generalizing m with
  | nil => exact hc.elim (fun h => by simp at h) id
  | cons d ds ih =>
    refine ih _ ?_
    by_cases h : c = d
    · exact .inr (by rw [h, Mod.core_updCore_self, Core.cregf_setCregf_self _ _ _ _ _ (by decide)]; rfl)
    · rw [Mod.core_updCore_ne _ _ h]
      exact hc.imp_left fun hm => (List.mem_cons.mp hm).resolve_left h
theorem Mod.parts_pstop (cs : List Nat) (m : Mod) : (cs.foldl (fun (m : Mod) c => m.updCore c fun k => k.setCregf 0x018 17 17 1) m).parts = m.parts := by
  induction cs generalizing m with
  | nil => rfl
  | cons d ds ih => exact ih _
theorem Mod.part_congr {m t : Mod} (h : t.parts = m.parts) (p : Nat) : t.part p = m.part p := by simp only [Mod.part, h]
/-- What stopping a running partition is made of. -/
theorem Mod.stopPart_eq {m : Mod} {p : Nat} (h : (m.part p).st = .running) : m.stopPart p =
    (((m.part p).cores.foldl (fun (m : Mod) c => m.updCore c fun k => k.setCregf 0x018 17 17 1) (m.updPart p fun q => { q with st := .stopped })).flqStop p).shtStopPart p := by
  have hcs : ((m.updPart p fun q => { q with st := .stopped }).part p).cores = (m.part p).cores := by rw [Mod.part_updPart, if_pos rfl]
  unfold Mod.stopPart
  rw [if_neg (by rw [h]; exact fun hn => hn rfl)]
  dsimp only
  rw [hcs]
theorem Mod.stopPart_running {m : Mod} {p : Nat} (h : (m.part p).st = .running) :
    (m.stopPart p).part p = { m.part p with st := .stopped } ∧ (∀ o, o ≠ p → (m.stopPart p).part o = m.part o) ∧
      ∀ c, c ∈ (m.part p).cores → ((m.stopPart p).core c).cregf 0x018 17 17 = 1 := by
  rw [Mod.stopPart_eq h]
  have hpart (o : Nat) := Mod.part_updPart m p o fun q => { q with st := .stopped }
  generalize (m.updPart p fun q => { q with st := .stopped }) = m1 at hpart ⊢
  have hkeep := Mod.keepsReg_after (Mod.keepsReg_shtStopPart 0x018 _ p) (Mod.keepsReg_flqStop (a := 0x018) (by decide)
    ((m.part p).cores.foldl (fun (m : Mod) c => m.updCore c fun k => k.setCregf 0x018 17 17 1) m1) p)
  have hparts := hkeep.parts.trans (Mod.parts_pstop (m.part p).cores m1)
  refine ⟨?_, fun o ho => ?_, fun c hc => ?_⟩
  · rw [Mod.part_congr hparts, hpart, if_pos rfl]
  · rw [Mod.part_congr hparts, hpart, if_neg (Ne.symm ho)]
  · rw [Core.cregf, hkeep.reg c]
    exact Mod.pstop_raised _ _ c (.inl hc)

/-! ## A core reset (R526) -/

theorem Mod.prtCreset_refused {m : Mod} {p : Nat} {v : W64}
    (h : m.coreFenced (fld v 7 0) = true ∨ ((m.core (fld v 7 0)).halted = false ∧ (m.part p).st ≠ .stopped)) : m.prtCreset p v = m := by
  unfold Mod.prtCreset
  dsimp only
  rw [if_pos]
  rcases h with h | ⟨hhalt, hst⟩
  · exact .inr (.inr (.inl h))
  · exact .inr (.inr (.inr (by simp [hhalt, hst])))
theorem Mod.prtCreset_free {m : Mod} {p : Nat} {v : W64} (hb : bit v 8 = true) (hc : fld v 7 0 ∈ (m.part p).cores)
    (hf : m.coreFenced (fld v 7 0) = false) (hst : (m.core (fld v 7 0)).halted = true ∨ (m.part p).st = .stopped)
    (hp : (m.core (fld v 7 0)).piece = none) : m.prtCreset p v = m.updCore (fld v 7 0) Core.reset := by
  unfold Mod.prtCreset
  dsimp only
  rw [if_neg, hp]
  rcases hst with h | h <;> simp [hb, hc, hf, h]

/-! ## The vector of a partition (R546) -/

/-- What does not look at a key finds the same after an entry of that key has been put into a table. -/
theorem Tab.any_put {α : Type} (t : Tab α) (a : Nat) (v : α) (f : Nat × α → Bool) (hf : ∀ w, f (a, w) = false) : (Tab.put t a v).any f = t.any f := by
  induction t with
  | nil => simp [Tab.put, hf]
  | cons q t ih =>
    obtain ⟨k, w⟩ := q
    simp only [Tab.put]
    split
    · next h => subst h; simp [hf]
    · split
      · simp [hf]
      · simp [ih]
theorem Mod.prtEvt_arm (m : Mod) {p : Nat} (hp : p < 16) (n : Nat) : (m.wrf (bPRT p + 0x28) 0 0 n).prtEvt p = m.prtEvt p := by
  have hrd (a : Nat) (ha : a ≠ bPRT p + 0x28) (hi lo : Nat) : (m.wrf (bPRT p + 0x28) 0 0 n).rdf a hi lo = m.rdf a hi lo := Mod.rdf_wrf_ne m 0 0 n hi lo ha
  have hany (base step last off mask x : Nat) (hb : bPRT 16 ≤ base) (own own' : Nat → Bool) (ho : own = own') :
      (m.wrf (bPRT p + 0x28) 0 0 n).anyReg base step last off mask own = m.anyReg base step last off mask own' := by
    subst ho
    refine Tab.any_put m.bar0 _ _ _ fun w => ?_
    have hlt : ¬ base ≤ bPRT p + 0x28 := by simp only [bPRT] at hb ⊢; omega
    simp [hlt]
  have hseam : (fun k => (m.wrf (bPRT p + 0x28) 0 0 n).rdf (bSEM + 0x10000 + 0x80 * k) 23 20 == p) = fun k => m.rdf (bSEM + 0x10000 + 0x80 * k) 23 20 == p :=
    funext fun k => by rw [hrd _ (by simp only [bSEM, bPRT]; omega)]
  have hgrp : (fun g => (m.wrf (bPRT p + 0x28) 0 0 n).rdf (bGRP + 0x10000 + 0x40 * g) 59 56 == p) = fun g => m.rdf (bGRP + 0x10000 + 0x40 * g) 59 56 == p :=
    funext fun k => by rw [hrd _ (by simp only [bGRP, bPRT]; omega)]
  unfold Mod.prtEvt
  dsimp only
  rw [hany _ _ _ _ _ 0 (by decide) _ _ hseam, hany _ _ _ _ 8 0 (by decide) _ _ hgrp, hany _ _ _ _ 4 0 (by decide) _ _ hgrp,
    hrd _ (by simp only [bPAT]; omega), hrd _ (by simp only [bPAT]; omega), hrd _ (by simp only [bXLT]; omega), hrd _ (by simp only [bXLT]; omega),
    hrd _ (by simp only [bPERR]; omega)]
  rfl
/-- Messages to one host, in order. -/
theorem Mod.toHosts_out (h : Nat) (f : Nat → HostOut) (vs : List Nat) (m : Mod) :
    ((vs.foldl (fun (m : Mod) v => m.toHost h (f v)) m).host h).out = (m.host h).out ++ vs.map f := by
  induction vs generalizing m with
  | nil => simp
  | cons v vs ih => rw [List.foldl_cons, ih, Mod.out_toHost]; simp
/-- PRT_IARM of a host that owns the partition: without an enabled event, or while HELD, the vector stays armed. -/
theorem Mod.prtIarm_armed {m : Mod} {p : Nat} {v : W64} (hp : p < 16) (hb : bit v 0 = true)
    (h : m.prtEvt p &&& m.rdf (bPRT p + 0x18) 8 0 = 0 ∨ m.isHeld = true) : m.prtIarm p v = m.wrf (bPRT p + 0x28) 0 0 1 := by
  unfold Mod.prtIarm Mod.prtVector
  rw [if_pos hb, if_pos]
  rcases h with h | h
  · exact .inr (.inr (.inr (by rw [Mod.prtEvt_arm m hp, Mod.rdf_wrf_ne _ _ _ _ _ _ (by omega)]; exact h)))
  · refine .inr (.inl ?_)
    unfold Mod.isHeld at h ⊢
    rwa [Mod.rdf_wrf_ne _ _ _ _ _ _ (by simp only [bCFGSTAT, bPRT]; omega)]
/-- With one, it is sent and disarmed, to the port and to its functions. -/
theorem Mod.prtIarm_sent {m : Mod} {p : Nat} {v : W64} (hp : p < 16) (hb : bit v 0 = true) (hst : (m.part p).st ≠ .free)
    (h : m.prtEvt p &&& m.rdf (bPRT p + 0x18) 8 0 ≠ 0) (hh : m.isHeld = false) : (m.prtIarm p v).rdf (bPRT p + 0x28) 0 0 = 0 ∧
      ((m.prtIarm p v).host (m.part p).owner).out =
        (m.host (m.part p).owner).out ++ .msix (1 + p) :: (m.vfsOf (m.part p).owner p).map HostOut.msixVf := by
  have hheld : (m.wrf (bPRT p + 0x28) 0 0 1).isHeld = false := by
    unfold Mod.isHeld at hh ⊢
    rwa [Mod.rdf_wrf_ne _ _ _ _ _ _ (by simp only [bCFGSTAT, bPRT]; omega)]
  have harm : (m.wrf (bPRT p + 0x28) 0 0 1).rdf (bPRT p + 0x28) 0 0 = 1 := Mod.rdf_wrf_self m _ 0 0 1 (by decide)
  have hev : (m.wrf (bPRT p + 0x28) 0 0 1).prtEvt p &&& (m.wrf (bPRT p + 0x28) 0 0 1).rdf (bPRT p + 0x18) 8 0 ≠ 0 := by
    rwa [Mod.prtEvt_arm m hp, Mod.rdf_wrf_ne _ _ _ _ _ _ (by omega)]
  have hvfs : (m.wrf (bPRT p + 0x28) 0 0 1).vfsOf (m.part p).owner p = m.vfsOf (m.part p).owner p := by
    unfold Mod.vfsOf
    refine congrArg (fun f => (upto 8).filter f) (funext fun k => ?_)
    rw [Mod.rdf_wrf_ne]
    simp only [bMBX, bPRT, portStride]
    omega
  unfold Mod.prtIarm Mod.prtVector
  rw [if_pos hb, if_neg (by rintro (h' | h' | h' | h'); exacts [hst h', by simp [hheld] at h', by omega, hev h'])]
  dsimp only
  constructor
  · rw [(Mod.outward_toHosts (fun _ => False) _ _ _ _).rdf id]
    exact Mod.rdf_wrf_self _ _ 0 0 0 (by decide)
  · show (Mod.host _ (m.part p).owner).out = _
    rw [show ((m.wrf (bPRT p + 0x28) 0 0 1).part p).owner = (m.part p).owner from rfl, hvfs, Mod.toHosts_out, Mod.out_toHost]
    simp only [List.append_assoc, List.singleton_append]
    rfl

/-! ## The obligation -/

theorem Mod.reachedBy.owns {m : Mod} {h : HostId} {p : PartId} {o : Nat} (hr : m.reachedBy h (bPRT p.val + o)) (ho : o < 0x10000) :
    (m.part p.val).st ≠ .free ∧ (m.part p.val).owner = h.val := by
  have hown : m.owns h.val p.val = true := by
    have h2 := hr.2
    unfold Mod.mayWrite at h2
    rw [scopeOf_page p.isLt (by simp only [bPRT]; omega)] at h2
    exact h2
  unfold Mod.owns at hown
  simpa using hown
theorem completes_hostReg {i : Instr} {s : State} {h : HostId} {a : Nat} {f : Mod → Mod} {P : Mod → Prop} (hi : exec i s = s.host fun m => m.hostReg h a f)
    (hr : s.m.reachedBy h a) (hp : P { f s.m with nv := s.m.nv, pwr := s.m.pwr }) : completes i s P :=
  completes_host hi (by rw [Mod.hostReg_reached s.m h a f hr]; exact hp)
theorem runPartition (s : State) (h : HostId) (p : PartId) (hr : s.m.reachedBy h (bPRT p.val + 0x08)) :
    ((s.m.part p.val).st = .stopped → s.m.panelFenced (s.m.leadPanel p.val) = false → completes (.prtRun h p) s fun t =>
      t.part p.val = { s.m.part p.val with st := .running } ∧ (∀ o, o ≠ p.val → t.part o = s.m.part o) ∧ t.cores = s.m.cores ∧ t.bar0 = s.m.bar0) ∧
    (((s.m.part p.val).st ≠ .stopped ∨ s.m.panelFenced (s.m.leadPanel p.val) = true) → completes (.prtRun h p) s fun t => t = s.m) := by
  refine ⟨fun hst hf => completes_hostReg rfl hr ?_, fun hno => completes_hostReg rfl hr ?_⟩
  · rw [Mod.prtRun, if_pos ⟨hst, by simp [hf]⟩]
    have hpart (o : Nat) := Mod.part_updPart s.m p.val o fun q => { q with st := .running }
    exact ⟨(hpart p.val).trans (if_pos rfl), fun o ho => (hpart o).trans (if_neg (Ne.symm ho)), rfl, rfl⟩
  · rw [Mod.prtRun, if_neg fun ⟨h1, h2⟩ => hno.elim (fun h => h h1) fun h => by simp [h] at h2]
theorem resetOfCore (s : State) (h : HostId) (p : PartId) (v : W64) (hr : s.m.reachedBy h (bPRT p.val + 0x10)) (hb : bit v 8 = true)
    (hc : fld v 7 0 ∈ (s.m.part p.val).cores) (hf : s.m.coreFenced (fld v 7 0) = false)
    (hst : (s.m.core (fld v 7 0)).halted = true ∨ (s.m.part p.val).st = .stopped) (hp : (s.m.core (fld v 7 0)).piece = none) :
    completes (.prtCreset h p v) s fun t => (t.core (fld v 7 0)).bank = {} ∧ (t.core (fld v 7 0)).shadow = {} ∧ (t.core (fld v 7 0)).creg 0x000 = 0 ∧
      (t.core (fld v 7 0)).trap = none ∧ (t.core (fld v 7 0)).pend = [] ∧ (t.core (fld v 7 0)).run = .free ∧ (t.core (fld v 7 0)).vec.stations = [] ∧
      (t.core (fld v 7 0)).bolt = (s.m.core (fld v 7 0)).bolt ∧ (∀ d, d ≠ fld v 7 0 → t.core d = s.m.core d) ∧ t.mem = s.m.mem ∧ t.bar0 = s.m.bar0 := by
  refine completes_hostReg rfl hr ?_
  rw [Mod.prtCreset_free hb hc hf hst hp]
  generalize fld v 7 0 = c
  have hself : Mod.core { s.m.updCore c Core.reset with nv := s.m.nv, pwr := s.m.pwr } c = (s.m.core c).reset := Mod.core_updCore_self s.m c _
  rw [hself]
  exact ⟨rfl, rfl, Core.creg_setCreg_self _ _ _, rfl, rfl, rfl, rfl, rfl, fun d hd => Mod.core_updCore_ne s.m _ hd, rfl, rfl⟩
/-- Settles O47: each control by what it writes; a fence of a panel by the relation under which fences grow. -/
theorem partitionControl : Obligations.PartitionControl := by
  unfold Obligations.PartitionControl
  intro s h p q
  refine ⟨fun hr => ⟨(runPartition s h p hr).1, (runPartition s h p hr).2, fun hst => completes_hostReg rfl hr (Mod.stopPart_running hst),
    fun hst => completes_hostReg rfl hr ?_⟩, fun v hr hb hc => ⟨fun hf => ?_, fun hh hst => ?_, fun hf hst hp => resetOfCore s h p v hr hb hc hf hst hp⟩,
    fun v hr hb => ⟨fun hev => completes_hostReg rfl hr ?_, fun hev hh => completes_hostReg rfl hr ?_⟩, fun a b hpow => ⟨fun hab => ?_, fun hab hf => ?_⟩⟩
  · rw [Mod.prtStop, Mod.stopPart, if_pos hst]
  · exact completes_hostReg rfl hr (by rw [Mod.prtCreset_refused (.inl hf)])
  · exact completes_hostReg rfl hr (by rw [Mod.prtCreset_refused (.inr ⟨hh, hst⟩)])
  · rw [Mod.prtIarm_armed p.isLt hb hev]
    exact ⟨Mod.rdf_wrf_self s.m _ 0 0 1 (by decide), rfl⟩
  · obtain ⟨hst, hown⟩ := hr.owns (by decide)
    have hsent := Mod.prtIarm_sent p.isLt hb hst hev hh
    rw [hown] at hsent
    exact hsent
  · exact completes_run rfl hpow (by rw [Mod.dieLinkFails, if_pos hab])
  · refine completes_run rfl hpow ?_
    rw [Mod.dieLinkFails, if_neg hab]
    exact Mod.fencePanel_fences s.m (by have := a.isLt; have := b.isLt; omega) hf

end Sys2Proof.Machine
end

section
/-! Rails and their targets, voltages, readings and words of the sideband: what each operation writes and leaves alone (R599, R600, R604, R610, R611). -/

namespace Sys2Proof.Machine

/-- What reads no register of BAR0 is as it was. -/
theorem Mod.onlyBar.same {α : Type} {m t : Mod} (h : m.onlyBar t) (f : Mod → α) (hf : ∀ (u : Mod) b, f { u with bar0 := b } = f u := by intros; rfl) :
    f t = f m := by
  rw [← hf t m.bar0, h.rest]

/-! ## Targets -/

/-- A rail's target comes of the cap, the code of its rail, and the two limits. -/
theorem Mod.railCode_congr {m t : Mod} {p : Nat} (hcap : t.rd (bPWR + 0x28) = m.rd (bPWR + 0x28)) (hcode : t.rd (bPWR + 8 + 8 * p) = m.rd (bPWR + 8 + 8 * p))
    (hlim : t.pwr.capLim = m.pwr.capLim) (hthm : t.pwr.thmLim = m.pwr.thmLim) : t.railCode p = m.railCode p := by
  unfold Mod.railCode Mod.rdf
  rw [hcap, hcode, hlim, hthm]
theorem Mod.railTarget_congr {m t : Mod} (hr : ∀ a, bPWR < a → a < bPWR + 0x30 → t.rd a = m.rd a)
    (hlim : t.pwr.capLim = m.pwr.capLim) (hthm : t.pwr.thmLim = m.pwr.thmLim) (r : Nat) : t.railTarget r = m.railTarget r := by
  unfold Mod.railTarget
  split
  · next h => rw [Mod.railCode_congr (hr _ (by omega) (by omega)) (hr _ (by omega) (by omega)) hlim hthm]
  · rfl
theorem Mod.railTarget_lt (m : Mod) (r : Nat) : m.railTarget r < 2 ^ 16 := by
  unfold Mod.railTarget
  split
  · have h : m.railCode r ≤ m.rdf (bPWR + 8 + 8 * r) 7 0 := Nat.min_le_left _ _
    have h2 : m.rdf (bPWR + 8 + 8 * r) 7 0 < 2 ^ 8 := fld_lt _ _ _
    omega
  · have hall : ∀ v ∈ [600, 600, 840, 840, 840, 840, 360, 720, 960, 720, 1440, 640], v < 2 ^ 16 := by decide
    by_cases hlt : r - 4 < 12
    · rw [List.getD_eq_getElem _ _ hlt]; exact hall _ (List.getElem_mem _)
    · rw [List.getD_eq_default _ _ (by simpa using hlt)]; decide
/-- The registers of the core rails. -/
def coreRailReg (a : Nat) : Prop := ∃ k, k < 4 ∧ a = bPWR + 0x100 + 8 * k
theorem not_coreRailReg_of_lt {a : Nat} (h : a < bPWR + 0x100) : ¬ coreRailReg a := fun ⟨_, _, h'⟩ => by omega
theorem Mod.targetsStep_outward (m : Mod) {k : Nat} (hk : k < 4) : m.outward coreRailReg (m.wrf (bPWR + 0x100 + 8 * k) 47 32 (m.railTarget k)) :=
  Mod.outward_wrf m _ _ _ ⟨k, hk, rfl⟩
/-- The core rails show their targets, and nothing else changes. -/
theorem Mod.outward_setTargets (m : Mod) : m.outward coreRailReg m.setTargets :=
  Mod.outward_after (Mod.targetsStep_outward _ (k := 3) (by decide)) (Mod.outward_after (Mod.targetsStep_outward _ (k := 2) (by decide))
    (Mod.outward_after (Mod.targetsStep_outward _ (k := 1) (by decide)) (Mod.targetsStep_outward m (k := 0) (by decide))))
theorem Mod.outward.railTarget {m t : Mod} {own : Nat → Prop} (h : m.outward own t) (hown : ∀ a, own a → bPWR + 0x30 ≤ a) (r : Nat) :
    t.railTarget r = m.railTarget r :=
  Mod.railTarget_congr (fun a _ ha => h.regs a fun ho => absurd (hown a ho) (by omega)) (h.same (·.pwr.capLim)) (h.same (·.pwr.thmLim)) r
theorem coreRailReg.le {a : Nat} (h : coreRailReg a) : bPWR + 0x30 ≤ a := by obtain ⟨k, -, rfl⟩ := h; omega
@[simp] theorem Mod.railTarget_setTargets (m : Mod) (r : Nat) : m.setTargets.railTarget r = m.railTarget r :=
  (Mod.outward_setTargets m).railTarget (fun _ => coreRailReg.le) r
/-- What a core rail's register shows after every target has been shown. -/
theorem Mod.rdf_setTargets (m : Mod) {k : Nat} (hk : k < 4) : m.setTargets.rdf (bPWR + 0x100 + 8 * k) 47 32 = m.railTarget k ∧
    m.setTargets.railVolt k = m.railVolt k := by
  let step (m : Mod) (p : Nat) : Mod := m.wrf (bPWR + 0x100 + 8 * p) 47 32 (m.railTarget p)
  have htar (m : Mod) (p r : Nat) : (step m p).railTarget r = m.railTarget r :=
    (Mod.outward_wrf (own := (· = bPWR + 0x100 + 8 * p)) m 47 32 (m.railTarget p) rfl).railTarget (fun a ha => by omega) r
  have hself (m : Mod) : (step m k).rdf (bPWR + 0x100 + 8 * k) 47 32 = m.railTarget k :=
    (Mod.rdf_wrf_self m _ 47 32 _ (by decide)).trans (Nat.mod_eq_of_lt (Mod.railTarget_lt m k))
  have hne (m : Mod) {p : Nat} (h : p ≠ k) : (step m p).rdf (bPWR + 0x100 + 8 * k) 47 32 = m.rdf (bPWR + 0x100 + 8 * k) 47 32 :=
    Mod.rdf_wrf_ne m _ _ _ _ _ (by omega)
  have hvolt (m : Mod) (p : Nat) : (step m p).railVolt k = m.railVolt k := by
    by_cases h : p = k
    · subst h; exact Mod.rdf_wrf_apart m _ 47 32 _ 15 0 (by decide) (.inl (by decide))
    · exact Mod.rdf_wrf_ne m _ _ _ _ _ (by omega)
  have heq : m.setTargets = step (step (step (step m 0) 1) 2) 3 := rfl
  rw [heq]
  refine ⟨?_, by rw [hvolt, hvolt, hvolt, hvolt]⟩
  obtain rfl | rfl | rfl | rfl : k = 0 ∨ k = 1 ∨ k = 2 ∨ k = 3 := by omega
  · rw [hne _ (by decide), hne _ (by decide), hne _ (by decide), hself]
  · rw [hne _ (by decide), hne _ (by decide), hself, htar]
  · rw [hne _ (by decide), hself, htar, htar]
  · rw [hself, htar, htar, htar]

/-! ## Voltages -/

/-- A new voltage: the rail's register alone, and the lowest one kept for the sideband. -/
structure Mod.voltSet (m t : Mod) (r v : Nat) : Prop where
  rest : { t with bar0 := m.bar0, pwr := m.pwr } = m
  pwr : { t.pwr with lowest := m.pwr.lowest } = m.pwr
  regs : ∀ a, a ≠ bPWR + 0x100 + 8 * r → t.rd a = m.rd a
  volt : t.railVolt r = v % 2 ^ 16
  target : t.rdf (bPWR + 0x100 + 8 * r) 47 32 = m.rdf (bPWR + 0x100 + 8 * r) 47 32
theorem Mod.voltSet_setVolt (m : Mod) (r v : Nat) : m.voltSet (m.setVolt r v) r v := by
  have hvolt : (m.wrf (bPWR + 0x100 + 8 * r) 15 0 v).railVolt r = v % 2 ^ 16 := Mod.rdf_wrf_self m _ 15 0 v (by decide)
  have htar := Mod.rdf_wrf_apart m (bPWR + 0x100 + 8 * r) 15 0 v 47 32 (by decide) (.inr (by decide))
  unfold Mod.setVolt
  dsimp only
  split
  · exact ⟨rfl, rfl, fun _ ha => Mod.rd_wrf_ne m _ _ _ ha, hvolt, htar⟩
  · exact ⟨rfl, rfl, fun _ ha => Mod.rd_wrf_ne m _ _ _ ha, hvolt, htar⟩
theorem Mod.voltSet.same {α : Type} {m t : Mod} {r v : Nat} (h : m.voltSet t r v) (f : Mod → α)
    (hf : ∀ (u : Mod) b q, f { u with bar0 := b, pwr := q } = f u := by intros; rfl) : f t = f m := by rw [← hf t m.bar0 m.pwr, h.rest]
theorem Mod.voltSet.pwr_same {α : Type} {m t : Mod} {r v : Nat} (h : m.voltSet t r v) (f : Power → α)
    (hf : ∀ p q, f { p with lowest := q } = f p := by intros; rfl) : f t.pwr = f m.pwr := by rw [← hf t.pwr m.pwr.lowest, h.pwr]
theorem Mod.voltSet.railVolt_ne {m t : Mod} {r v : Nat} (h : m.voltSet t r v) {k : Nat} (hk : k ≠ r) : t.railVolt k = m.railVolt k := by
  simp only [Mod.railVolt, Mod.rdf, h.regs (bPWR + 0x100 + 8 * k) (by omega)]
theorem Mod.voltSet.railTarget {m t : Mod} {r v : Nat} (h : m.voltSet t r v) (k : Nat) : t.railTarget k = m.railTarget k :=
  Mod.railTarget_congr (fun a _ ha => h.regs a (by omega)) (h.pwr_same (·.capLim)) (h.pwr_same (·.thmLim)) k
theorem Mod.voltSet.sbWord {m t : Mod} {r v : Nat} (h : m.voltSet t r v) (i : Nat) : t.sbWord i = m.sbWord i := by
  simp only [Mod.sbWord, h.pwr_same (·.sb)]

/-! ## Events of power and words of the sideband -/

theorem Mod.ibi_same {α : Type} (m : Mod) (f : Mod → α)
    (hf : ∀ (u : Mod) b l, f { u with pwr := { u.pwr with raised := b, ibi := l } } = f u := by intros; rfl) : f m.ibi = f m := by
  unfold Mod.ibi
  dsimp only
  split
  · exact hf m false m.pwr.ibi
  · split
    · rfl
    · exact hf m true _
@[simp] theorem Mod.sbWord_ibi (m : Mod) (i : Nat) : m.ibi.sbWord i = m.sbWord i := Mod.ibi_same m (·.sbWord i)
/-- An event of the sideband stands and is counted. -/
theorem Mod.sbEvent_shown (m : Mod) (i : Nat) (hi : i < 6) :
    ((m.sbEvent i).sbWord 2).testBit i = true ∧ (m.sbEvent i).sbWord (8 + i) = (m.sbWord (8 + i) + 1) % 2 ^ 32 := by
  unfold Mod.sbEvent
  rw [Mod.sbWord_ibi, Mod.sbWord_ibi, Mod.sbWord_setSb, if_neg (by omega), Mod.sbWord_setSb, if_pos rfl, Mod.sbWord_setSb, if_pos rfl]
  refine ⟨?_, rfl⟩
  rw [Nat.testBit_mod_two_pow, Nat.testBit_or, Nat.testBit_two_pow_self]
  simp
  omega
/-- The sideband's own words, and what it raises, are all that an event of it touches. -/
theorem Mod.sbEvent_same {α : Type} (m : Mod) (i : Nat) (f : Mod → α)
    (hf : ∀ (u : Mod) s b l, f { u with pwr := { u.pwr with sb := s, raised := b, ibi := l } } = f u := by intros; rfl) : f (m.sbEvent i) = f m := by
  unfold Mod.sbEvent
  rw [Mod.ibi_same _ f fun u b l => hf u u.pwr.sb b l]
  exact hf m _ m.pwr.raised m.pwr.ibi
/-- An event of power: its bit and its count. -/
theorem Mod.pwrEvent_shown (m : Mod) (i : Nat) (hi : i < 8) : (m.pwrEvent i).rdf (bPWR + 0x38) i i = 1 ∧ m.tallied (m.pwrEvent i) (bPWR + 0x80 + 8 * i) 1 := by
  constructor
  · exact (Mod.rdf_wrf_ne (m.raise (bPWR + 0x38) i) _ _ _ _ _ (by omega)).trans (Mod.rdf_raise_self m _ i (by omega))
  · have h := Mod.tallied_inc (m.raise (bPWR + 0x38) i) (bPWR + 0x80 + 8 * i)
    unfold Mod.tallied at h ⊢
    rw [Mod.raise, Mod.rdf_wrf_ne m _ _ _ _ _ (by omega)] at h
    exact h
theorem Mod.rd_pwrEvent_ne (m : Mod) {i a : Nat} (h1 : a ≠ bPWR + 0x38) (h2 : a ≠ bPWR + 0x80 + 8 * i) : (m.pwrEvent i).rd a = m.rd a :=
  (Mod.rd_wrf_ne (m.raise (bPWR + 0x38) i) _ _ _ h2).trans (Mod.rd_wrf_ne m _ _ _ h1)
theorem Mod.railTarget_pwrEvent (m : Mod) (i r : Nat) : (m.pwrEvent i).railTarget r = m.railTarget r :=
  Mod.railTarget_congr (fun _ _ _ => Mod.rd_pwrEvent_ne m (by omega) (by omega)) rfl rfl r

/-! ## The source of the stitch monitors -/

/-- The registers of the stitch monitors. -/
def stitchReg (a : Nat) : Prop := ∃ k, k < 4 ∧ a = bPWR + 0x40 + 8 * k
/-- One monitor shows its source. -/
def Mod.showSource (m : Mod) (n : Nat) : Mod :=
  let m1 := m.wrf (bPWR + 0x40 + 8 * n) 30 29 m.clockSrc
  if m.clockSrc = 0 then m1.wrf (bPWR + 0x40 + 8 * n) 31 31 0 else m1
theorem Mod.outward_showSource (m : Mod) {n : Nat} (hn : n < 4) : m.outward stitchReg (m.showSource n) :=
  Mod.outward_ite (Mod.outward_after (Mod.outward_wrf _ _ _ _ ⟨n, hn, rfl⟩) (Mod.outward_wrf m _ _ _ ⟨n, hn, rfl⟩)) (Mod.outward_wrf m _ _ _ ⟨n, hn, rfl⟩)
theorem Mod.monSource_eq {m : Mod} (h : m.fit.phase ≠ .off) : m.monSource = (((m.showSource 0).showSource 1).showSource 2).showSource 3 := by
  unfold Mod.monSource
  rw [if_neg h]
  rfl
theorem Mod.outward_monSource (m : Mod) : m.outward stitchReg m.monSource := by
  by_cases h : m.fit.phase = .off
  · unfold Mod.monSource; rw [if_pos h]; exact Mod.outward_refl _ m
  · rw [Mod.monSource_eq h]
    exact Mod.outward_after (Mod.outward_showSource _ (by decide)) (Mod.outward_after (Mod.outward_showSource _ (by decide))
      (Mod.outward_after (Mod.outward_showSource _ (by decide)) (Mod.outward_showSource m (by decide))))
theorem Mod.clockSrc_lt (m : Mod) : m.clockSrc < 4 := by unfold Mod.clockSrc; split_ifs <;> decide
theorem Mod.clockSrc_congr {m t : Mod} (h : t.hosts = m.hosts) : t.clockSrc = m.clockSrc := by
  unfold Mod.clockSrc Mod.host
  rw [h]
theorem Mod.hosts_showSource (m : Mod) (n : Nat) : (m.showSource n).hosts = m.hosts := by unfold Mod.showSource; dsimp only; split <;> rfl
theorem Mod.clockSrc_showSource (m : Mod) (n : Nat) : (m.showSource n).clockSrc = m.clockSrc := Mod.clockSrc_congr (Mod.hosts_showSource m n)
theorem Mod.hosts_monSource (m : Mod) : m.monSource.hosts = m.hosts := by
  by_cases h : m.fit.phase = .off
  · unfold Mod.monSource; rw [if_pos h]
  · simp only [Mod.monSource_eq h, Mod.hosts_showSource]
theorem Mod.rdf_showSource (m : Mod) (n k : Nat) :
    (m.showSource n).rdf (bPWR + 0x40 + 8 * k) 30 29 = if n = k then m.clockSrc else m.rdf (bPWR + 0x40 + 8 * k) 30 29 := by
  have hlt : m.clockSrc < 2 ^ (30 + 1 - 29) := Mod.clockSrc_lt m
  unfold Mod.showSource
  dsimp only
  by_cases h : n = k
  · subst h
    have hself := (Mod.rdf_wrf_self m (bPWR + 0x40 + 8 * n) 30 29 m.clockSrc (by decide)).trans (Nat.mod_eq_of_lt hlt)
    rw [if_pos rfl]
    split
    · rw [Mod.rdf_wrf_apart _ _ 31 31 0 30 29 (by decide) (.inl (by decide)), hself]
    · exact hself
  · rw [if_neg h]
    split
    · rw [Mod.rdf_wrf_ne _ _ _ _ _ _ (by omega), Mod.rdf_wrf_ne _ _ _ _ _ _ (by omega)]
    · rw [Mod.rdf_wrf_ne _ _ _ _ _ _ (by omega)]
/-- Every monitor shows the clock that is counted. -/
theorem Mod.rdf_monSource {m : Mod} (h : m.fit.phase ≠ .off) {k : Nat} (hk : k < 4) : m.monSource.rdf (bPWR + 0x40 + 8 * k) 30 29 = m.clockSrc := by
  rw [Mod.monSource_eq h]
  simp only [Mod.rdf_showSource, Mod.clockSrc_showSource]
  obtain rfl | rfl | rfl | rfl : k = 0 ∨ k = 1 ∨ k = 2 ∨ k = 3 := by omega
  all_goals simp

end Sys2Proof.Machine
end

section
/-! The stitch monitor and a sagging core rail (R77, R79), and the steps of power that the firmware takes (R596, R600, R601, R605, R610, R611). -/

namespace Sys2Proof.Machine

/-! ## The stitch monitor -/

theorem Mod.stitchWindow_shows (m : Mod) (p : PanelId) (count : BitVec 20) (hph : m.fit.phase ≠ .off) (hsrc : m.clockSrc ≠ 0) :
    (m.stitchWindow p count).rdf (bPWR + 0x40 + 8 * p.val) 19 0 = count.toNat ∧ (m.stitchWindow p count).rdf (bPWR + 0x40 + 8 * p.val) 31 31 = 1 ∧
      (m.stitchWindow p count).rdf (bPWR + 0x40 + 8 * p.val) 30 29 = m.clockSrc ∧
      (m.stitchWindow p count).rdf (bPWR + 0x40 + 8 * p.val) 63 32 = (m.rdf (bPWR + 0x40 + 8 * p.val) 63 32 + 1) % 2 ^ 32 ∧
      ∀ b, b ≠ bPWR + 0x40 + 8 * p.val → (m.stitchWindow p count).rd b = m.rd b := by
  have heq : m.stitchWindow p count = (((m.wrf (bPWR + 0x40 + 8 * p.val) 63 32 (m.rdf (bPWR + 0x40 + 8 * p.val) 63 32 + 1)).wrf (bPWR + 0x40 + 8 * p.val) 31 31 1).wrf
      (bPWR + 0x40 + 8 * p.val) 30 29 m.clockSrc).wrf (bPWR + 0x40 + 8 * p.val) 19 0 count.toNat := if_neg (not_or.mpr ⟨hph, hsrc⟩)
  have hlt : m.clockSrc < 2 ^ (30 + 1 - 29) := Mod.clockSrc_lt m
  rw [heq]
  refine ⟨?_, ?_, ?_, ?_, fun b hb => ?_⟩
  · rw [Mod.rdf_wrf_self _ _ 19 0 _ (by decide)]
    exact Nat.mod_eq_of_lt count.isLt
  · rw [Mod.rdf_wrf_apart _ _ 19 0 _ 31 31 (by decide) (.inr (by decide)), Mod.rdf_wrf_apart _ _ 30 29 _ 31 31 (by decide) (.inr (by decide)),
      Mod.rdf_wrf_self _ _ 31 31 _ (by decide)]
    rfl
  · rw [Mod.rdf_wrf_apart _ _ 19 0 _ 30 29 (by decide) (.inr (by decide)), Mod.rdf_wrf_self _ _ 30 29 _ (by decide), Nat.mod_eq_of_lt hlt]
  · rw [Mod.rdf_wrf_apart _ _ 19 0 _ 63 32 (by decide) (.inr (by decide)), Mod.rdf_wrf_apart _ _ 30 29 _ 63 32 (by decide) (.inr (by decide)),
      Mod.rdf_wrf_apart _ _ 31 31 _ 63 32 (by decide) (.inr (by decide)), Mod.rdf_wrf_self _ _ 63 32 _ (by decide)]
  · rw [Mod.rd_wrf_ne _ _ _ _ hb, Mod.rd_wrf_ne _ _ _ _ hb, Mod.rd_wrf_ne _ _ _ _ hb, Mod.rd_wrf_ne _ _ _ _ hb]
/-- VALID of every monitor is cleared. -/
def Mod.invalidate (m : Mod) : Mod := (upto 4).foldl (fun (m : Mod) n => m.wrf (bPWR + 0x40 + 8 * n) 31 31 0) m
theorem Mod.rdf_invalidate (m : Mod) {k : Nat} (hk : k < 4) : m.invalidate.rdf (bPWR + 0x40 + 8 * k) 31 31 = 0 := by
  have hself (m : Mod) : (m.wrf (bPWR + 0x40 + 8 * k) 31 31 0).rdf (bPWR + 0x40 + 8 * k) 31 31 = 0 := Mod.rdf_wrf_self m _ 31 31 0 (by decide)
  have hne (m : Mod) {n : Nat} (h : n ≠ k) : (m.wrf (bPWR + 0x40 + 8 * n) 31 31 0).rdf (bPWR + 0x40 + 8 * k) 31 31 = m.rdf (bPWR + 0x40 + 8 * k) 31 31 :=
    Mod.rdf_wrf_ne m _ _ _ _ _ (by omega)
  have heq : m.invalidate = (((m.wrf (bPWR + 0x40 + 8 * 0) 31 31 0).wrf (bPWR + 0x40 + 8 * 1) 31 31 0).wrf (bPWR + 0x40 + 8 * 2) 31 31 0).wrf
    (bPWR + 0x40 + 8 * 3) 31 31 0 := rfl
  rw [heq]
  obtain rfl | rfl | rfl | rfl : k = 0 ∨ k = 1 ∨ k = 2 ∨ k = 3 := by omega
  · rw [hne _ (by decide), hne _ (by decide), hne _ (by decide), hself]
  · rw [hne _ (by decide), hne _ (by decide), hself]
  · rw [hne _ (by decide), hself]
  · rw [hself]
theorem Mod.rdf_valid_showSource (m : Mod) (n k : Nat) (h : m.rdf (bPWR + 0x40 + 8 * k) 31 31 = 0) : (m.showSource n).rdf (bPWR + 0x40 + 8 * k) 31 31 = 0 := by
  have hsrc : (m.wrf (bPWR + 0x40 + 8 * n) 30 29 m.clockSrc).rdf (bPWR + 0x40 + 8 * k) 31 31 = 0 := by
    by_cases hn : n = k
    · rw [hn, Mod.rdf_wrf_apart _ _ 30 29 _ 31 31 (by decide) (.inr (by decide)), h]
    · rw [Mod.rdf_wrf_ne _ _ _ _ _ _ (by omega), h]
  unfold Mod.showSource
  dsimp only
  split
  · by_cases hn : n = k
    · rw [hn]; exact Mod.rdf_wrf_self _ _ 31 31 0 (by decide)
    · rw [Mod.rdf_wrf_ne _ _ _ _ _ _ (by omega), hsrc]
  · exact hsrc
theorem Mod.rdf_valid_monSource {m : Mod} {k : Nat} (h : m.rdf (bPWR + 0x40 + 8 * k) 31 31 = 0) : m.monSource.rdf (bPWR + 0x40 + 8 * k) 31 31 = 0 := by
  by_cases hph : m.fit.phase = .off
  · unfold Mod.monSource; rw [if_pos hph]; exact h
  · rw [Mod.monSource_eq hph]
    exact Mod.rdf_valid_showSource _ _ _ (Mod.rdf_valid_showSource _ _ _ (Mod.rdf_valid_showSource _ _ _ (Mod.rdf_valid_showSource _ _ _ h)))
theorem Mod.host_congr {m t : Mod} (h : t.hosts = m.hosts) (k : Nat) : t.host k = m.host k := by simp only [Mod.host, h]
/-- The port whose clock alone was running: without it none is counted. -/
theorem Mod.clockLoss_shows {m : Mod} {h : HostId} (hon : (m.host h.val).clock = true) (hone : ∀ g : HostId, g ≠ h → (m.host g.val).clock = false)
    (hph : m.fit.phase ≠ .off) : ((m.clockLoss h).host h.val).clock = false ∧
      ∀ p, p < 4 → (m.clockLoss h).rdf (bPWR + 0x40 + 8 * p) 31 31 = 0 ∧ (m.clockLoss h).rdf (bPWR + 0x40 + 8 * p) 30 29 = 0 := by
  have hoff (g : HostId) : ((m.updHost h.val fun k => { k with clock := false }).host g.val).clock = false := by
    rw [Mod.host_updHost]
    split
    · rfl
    · next hne => exact hone g fun e => hne (congrArg Fin.val e.symm)
  have hsrc : (m.updHost h.val fun k => { k with clock := false }).clockSrc = 0 := by
    unfold Mod.clockSrc
    rw [if_neg (by rw [show ((m.updHost h.val fun k => { k with clock := false }).host 0).clock = false from hoff 0]; decide),
      if_neg (by rw [show ((m.updHost h.val fun k => { k with clock := false }).host 1).clock = false from hoff 1]; decide)]
  have hwas : m.clockSrc ≠ 0 := by
    unfold Mod.clockSrc
    obtain rfl | rfl := (show ∀ g : HostId, g = 0 ∨ g = 1 by decide) h
    · rw [if_pos (show (m.host 0).clock = true from hon)]; decide
    · rw [if_neg (by rw [show (m.host 0).clock = false from hone 0 (by decide)]; decide), if_pos (show (m.host 1).clock = true from hon)]; decide
  generalize hm1 : (m.updHost h.val fun k => { k with clock := false }) = m1 at hoff hsrc
  have heq : m.clockLoss h = m1.invalidate.monSource := by
    unfold Mod.clockLoss
    dsimp only
    rw [if_neg (by rw [hon]; decide), hm1, if_neg (by rw [hsrc]; exact Ne.symm hwas)]
    rfl
  have hhosts : m1.invalidate.hosts = m1.hosts := rfl
  have hph1 : m1.invalidate.fit.phase ≠ .off := by rw [← hm1]; exact hph
  rw [heq]
  refine ⟨?_, fun p hp => ⟨Mod.rdf_valid_monSource (Mod.rdf_invalidate m1 hp), ?_⟩⟩
  · rw [Mod.host_congr ((Mod.hosts_monSource _).trans hhosts)]; exact hoff h
  · rw [Mod.rdf_monSource hph1 hp, Mod.clockSrc_congr hhosts, hsrc]
theorem Mod.clockReturn_shows {m : Mod} {h : HostId} (hoff : (m.host h.val).clock = false) (hph : m.fit.phase ≠ .off) :
    ((m.clockReturn h).host h.val).clock = true ∧ ∀ p, p < 4 → (m.clockReturn h).rdf (bPWR + 0x40 + 8 * p) 30 29 = (m.clockReturn h).clockSrc := by
  have heq : m.clockReturn h = (m.updHost h.val fun k => { k with clock := true }).monSource := if_neg (by rw [hoff]; decide)
  rw [heq]
  refine ⟨?_, fun p hp => ?_⟩
  · rw [Mod.host_congr (Mod.hosts_monSource _), Mod.host_updHost, if_pos rfl]
  · rw [Mod.rdf_monSource (show (m.updHost h.val fun k => { k with clock := true }).fit.phase ≠ .off from hph) hp, Mod.clockSrc_congr (Mod.hosts_monSource _)]

/-! ## A core rail collapses -/

/-- Cores of a list of a panel stop. -/
theorem Mod.stopped_all (b : Nat) (is : List Nat) (m : Mod) (c : Nat) :
    let t := is.foldl (fun (m : Mod) i => m.updCore (b + i) fun k => { k with stopped := true }) m
    (t.core c).stopped = ((is.any fun i => b + i == c) || (m.core c).stopped) ∧ (t.core c).bank = (m.core c).bank ∧ { t with cores := m.cores } = m := by
  induction is generalizing m with
  | nil => exact ⟨rfl, rfl, rfl⟩
  | cons i is ih =>
    obtain ⟨hstop, hbank, hrest⟩ := ih (m.updCore (b + i) fun k => { k with stopped := true })
    dsimp only [List.foldl_cons]
    refine ⟨?_, ?_, ?_⟩
    · rw [hstop, List.any_cons]
      by_cases h : c = b + i
      · rw [h, Mod.core_updCore_self, beq_self_eq_true]; simp
      · rw [Mod.core_updCore_ne _ _ h, beq_false_of_ne (Ne.symm h), Bool.false_or]
    · rw [hbank]
      by_cases h : c = b + i
      · rw [h, Mod.core_updCore_self]
      · rw [Mod.core_updCore_ne _ _ h]
    · calc _ = { ({ is.foldl (fun (m : Mod) i => m.updCore (b + i) fun k => { k with stopped := true }) (m.updCore (b + i) fun k => { k with stopped := true }) with
                    cores := (m.updCore (b + i) fun k => { k with stopped := true }).cores } : Mod) with cores := m.cores } := rfl
        _ = m := by rw [hrest]; rfl
theorem panel_any (p c : Nat) : ((upto 64).any fun i => 64 * p + i == c) = decide (c / 64 = p) := by
  rw [Bool.eq_iff_iff, List.any_eq_true]
  simp only [mem_upto, beq_iff_eq, decide_eq_true_iff]
  exact ⟨fun ⟨i, hi, he⟩ => by omega, fun h => ⟨c % 64, Nat.mod_lt _ (by decide), by omega⟩⟩
theorem contains_replaced (d : List Nat) (p q : Nat) : (p :: d.filter (· != p)).contains q = (q == p || d.contains q) := by
  rw [Bool.eq_iff_iff, List.contains_iff_mem]
  simp only [List.mem_cons, List.mem_filter, bne_iff_ne, Bool.or_eq_true, beq_iff_eq, List.contains_iff_mem]
  tauto
theorem Mod.railCollapse_stops {m : Mod} (p : PanelId) (v : BitVec 16) (hg : m.pwr.groups = 6) :
    (m.railCollapse p v).railVolt p = v.toNat ∧ (m.railCollapse p v).panelUp p = false ∧ (∀ q, q ≠ p.val → (m.railCollapse p v).panelUp q = m.panelUp q) ∧
      ∀ c, ((m.railCollapse p v).core c).stopped = (decide (c / 64 = p.val) || (m.core c).stopped) ∧
        ((m.railCollapse p v).core c).bank = (m.core c).bank ∧ (m.railCollapse p v).mem = m.mem := by
  unfold Mod.railCollapse
  rw [if_neg (by rw [hg]; decide)]
  dsimp only
  have hv := Mod.voltSet_setVolt m p.val v.toNat
  generalize m.setVolt p.val v.toNat = m1 at hv ⊢
  have hall := Mod.stopped_all (64 * p.val) (upto 64) m1
  generalize (upto 64).foldl (fun (m : Mod) i => m.updCore (64 * p.val + i) fun k => { k with stopped := true }) m1 = m2 at hall ⊢
  have hsame {α : Type} (f : Mod → α) (hf : ∀ (u : Mod) q, f { u with cores := q } = f u) : f m2 = f m1 := by rw [← hf m2 m1.cores, (hall 0).2.2]
  have hfence (q : Nat) : m2.panelFenced q = m.panelFenced q := by
    unfold Mod.panelFenced
    rw [hsame (·.rd (bCAL + 0x60)) fun _ _ => rfl, hv.regs _ (by have := p.isLt; simp only [bCAL, bPWR]; omega)]
  have hdead : m2.pwr.dead = m.pwr.dead := (hsame (·.pwr.dead) fun _ _ => rfl).trans (hv.pwr_same (·.dead))
  have hup (q : Nat) : Mod.panelUp { m2 with pwr := { m2.pwr with dead := p.val :: m2.pwr.dead.filter (· != p.val) } } q =
      (!m.panelFenced q && !(q == p.val || m.pwr.dead.contains q)) := by
    rw [← hfence q, ← hdead, ← contains_replaced]
    rfl
  refine ⟨?_, ?_, fun q hq => ?_, fun c => ⟨?_, ?_, ?_⟩⟩
  · exact (hsame (·.railVolt p.val) fun _ _ => rfl).trans (hv.volt.trans (Nat.mod_eq_of_lt v.isLt))
  · rw [hup]; simp
  · rw [hup, beq_false_of_ne hq, Bool.false_or]; rfl
  · show (m2.core c).stopped = _
    rw [(hall c).1, panel_any, hv.same (·.core c)]
  · show (m2.core c).bank = _
    rw [(hall c).2.1, hv.same (·.core c)]
  · exact (hsame (·.mem) fun _ _ => rfl).trans (hv.same (·.mem))
/-- Settles O27, command by command. -/
theorem stitchMonitorAndSag : Obligations.StitchMonitorAndSag := by
  unfold Obligations.StitchMonitorAndSag
  intro s
  exact ⟨fun p count hph hsrc => completes_host rfl (Mod.stitchWindow_shows s.m p count hph hsrc),
    fun h hon hone hph => completes_host rfl (Mod.clockLoss_shows hon hone hph), fun h hoff hph => completes_host rfl (Mod.clockReturn_shows hoff hph),
    fun p v hg => completes_edge (f := fun m => m.railCollapse p v) rfl (Mod.railCollapse_stops p v hg)⟩

end Sys2Proof.Machine
end

section
/-! The steps that the firmware and the converter take on the rails, and the sideband (R596, R600, R601, R605, R610, R611). -/

namespace Sys2Proof.Machine

/-! ## Rails that move -/

theorem Mod.railVolt_lt (m : Mod) (r : Nat) : m.railVolt r < 2 ^ 16 := fld_lt _ _ _
theorem Mod.railMove_up {m : Mod} {p : PanelId} (ht : m.timed = true) (h : m.railVolt p.val < m.railGoal p.val) :
    (m.railMove p).railVolt p.val = (m.railVolt p.val + 1) % 2 ^ 16 ∧ ∀ a, a ≠ bPWR + 0x100 + 8 * p.val → (m.railMove p).rd a = m.rd a := by
  have hv := Mod.voltSet_setVolt m p.val (m.railVolt p.val + 1)
  rw [show m.railMove p = m.setVolt p.val (m.railVolt p.val + 1) by simp [Mod.railMove, ht, h]]
  exact ⟨hv.volt, hv.regs⟩
theorem Mod.railMove_down {m : Mod} {p : PanelId} (ht : m.timed = true) (h : m.railGoal p.val < m.railVolt p.val) :
    (m.railMove p).railVolt p.val = m.railVolt p.val - 1 ∧ ∀ a, a ≠ bPWR + 0x100 + 8 * p.val → (m.railMove p).rd a = m.rd a := by
  have hv := Mod.voltSet_setVolt m p.val (m.railVolt p.val - 1)
  have hlt := Mod.railVolt_lt m p.val
  rw [show m.railMove p = m.setVolt p.val (m.railVolt p.val - 1) by simp [Mod.railMove, ht, h, Nat.lt_asymm h]]
  exact ⟨hv.volt.trans (Nat.mod_eq_of_lt (by omega)), hv.regs⟩
theorem Mod.railMove_rests {m : Mod} {p : PanelId} (h : m.railVolt p.val = m.railGoal p.val) : m.railMove p = m := by simp [Mod.railMove, h]

/-! ## The converter's current limit -/

theorem Mod.inputLimit_shows {m : Mod} (hp : m.powered = true) (v a v0 v1 v2 v3 : BitVec 16) :
    let t := m.inputLimit v a v0 v1 v2 v3
    t.rdf bPWR 31 16 = v.toNat ∧ t.rdf bPWR 47 32 = a.toNat ∧ t.railVolt 0 = v0.toNat ∧ t.railVolt 1 = v1.toNat ∧ t.railVolt 2 = v2.toNat ∧
      t.railVolt 3 = v3.toNat ∧ (t.rdf (bPWR + 0x38) 3 3 = 1 ∧ m.tallied t (bPWR + 0x80 + 8 * 3) 1) ∧ (t.sbWord 2).testBit 3 = true ∧
      t.cores = m.cores ∧ t.mem = m.mem := by
  have hg : ¬ m.pwr.groups < 6 := by simpa [Mod.powered] using hp
  unfold Mod.inputLimit
  rw [if_neg hg]
  dsimp only
  have hamps : ((({ m with pwr := { m.pwr with input := v.toNat } } : Mod).wrf bPWR 31 16 v.toNat).wrf bPWR 47 32 a.toNat).rdf bPWR 47 32 = a.toNat :=
    (Mod.rdf_wrf_self _ _ 47 32 _ (by decide)).trans (Nat.mod_eq_of_lt a.isLt)
  have hvolts : ((({ m with pwr := { m.pwr with input := v.toNat } } : Mod).wrf bPWR 31 16 v.toNat).wrf bPWR 47 32 a.toNat).rdf bPWR 31 16 = v.toNat :=
    (Mod.rdf_wrf_apart _ _ 47 32 _ 31 16 (by decide) (.inl (by decide))).trans
      ((Mod.rdf_wrf_self _ _ 31 16 _ (by decide)).trans (Nat.mod_eq_of_lt v.isLt))
  have hregs (b : Nat) (hb : b ≠ bPWR) : ((({ m with pwr := { m.pwr with input := v.toNat } } : Mod).wrf bPWR 31 16 v.toNat).wrf bPWR 47 32 a.toNat).rd b = m.rd b :=
    (Mod.rd_wrf_ne _ _ _ _ hb).trans (Mod.rd_wrf_ne _ _ _ _ hb)
  have hcores : ((({ m with pwr := { m.pwr with input := v.toNat } } : Mod).wrf bPWR 31 16 v.toNat).wrf bPWR 47 32 a.toNat).cores = m.cores := rfl
  have hmem : ((({ m with pwr := { m.pwr with input := v.toNat } } : Mod).wrf bPWR 31 16 v.toNat).wrf bPWR 47 32 a.toNat).mem = m.mem := rfl
  generalize (({ m with pwr := { m.pwr with input := v.toNat } } : Mod).wrf bPWR 31 16 v.toNat).wrf bPWR 47 32 a.toNat = m2 at *
  have s0 := Mod.voltSet_setVolt m2 0 v0.toNat
  generalize m2.setVolt 0 v0.toNat = u0 at *
  have s1 := Mod.voltSet_setVolt u0 1 v1.toNat
  generalize u0.setVolt 1 v1.toNat = u1 at *
  have s2 := Mod.voltSet_setVolt u1 2 v2.toNat
  generalize u1.setVolt 2 v2.toNat = u2 at *
  have s3 := Mod.voltSet_setVolt u2 3 v3.toNat
  generalize u2.setVolt 3 v3.toNat = u3 at *
  have hrd (b : Nat) (hb : b < bPWR + 0x100) : u3.rd b = m2.rd b := by
    rw [s3.regs b (by omega), s2.regs b (by omega), s1.regs b (by omega), s0.regs b (by omega)]
  have hev (b : Nat) (h1 : b ≠ bPWR + 0x38) (h2 : b ≠ bPWR + 0x80 + 8 * 3) : ((u3.pwrEvent 3).sbEvent 3).rd b = u3.rd b :=
    (Mod.sbEvent_same _ 3 (·.rd b)).trans (Mod.rd_pwrEvent_ne u3 h1 h2)
  have hfld (b hi lo : Nat) (h1 : b ≠ bPWR + 0x38) (h2 : b ≠ bPWR + 0x80 + 8 * 3) : ((u3.pwrEvent 3).sbEvent 3).rdf b hi lo = u3.rdf b hi lo := by
    simp only [Mod.rdf, hev b h1 h2]
  have hvolt (r : Nat) (hr : r < 4) : ((u3.pwrEvent 3).sbEvent 3).railVolt r = u3.railVolt r := hfld _ _ _ (by omega) (by omega)
  obtain ⟨hbit, hcount⟩ := Mod.pwrEvent_shown u3 3 (by decide)
  have hcnt : u3.rdf (bPWR + 0x80 + 8 * 3) 47 0 = m.rdf (bPWR + 0x80 + 8 * 3) 47 0 := by
    simp only [Mod.rdf, hrd _ (show bPWR + 0x80 + 8 * 3 < bPWR + 0x100 by omega), hregs _ (show bPWR + 0x80 + 8 * 3 ≠ bPWR by omega)]
  refine ⟨?_, ?_, ?_, ?_, ?_, ?_, ⟨(Mod.sbEvent_same _ 3 (·.rdf (bPWR + 0x38) 3 3)).trans hbit, ?_⟩, (Mod.sbEvent_shown _ 3 (by decide)).1, ?_, ?_⟩
  · rw [hfld _ _ _ (by decide) (by decide), ← hvolts]; simp only [Mod.rdf, hrd bPWR (by omega)]
  · rw [hfld _ _ _ (by decide) (by decide), ← hamps]; simp only [Mod.rdf, hrd bPWR (by omega)]
  · rw [hvolt _ (by decide), s3.railVolt_ne (by decide), s2.railVolt_ne (by decide), s1.railVolt_ne (by decide), s0.volt, Nat.mod_eq_of_lt v0.isLt]
  · rw [hvolt _ (by decide), s3.railVolt_ne (by decide), s2.railVolt_ne (by decide), s1.volt, Nat.mod_eq_of_lt v1.isLt]
  · rw [hvolt _ (by decide), s3.railVolt_ne (by decide), s2.volt, Nat.mod_eq_of_lt v2.isLt]
  · rw [hvolt _ (by decide), s3.volt, Nat.mod_eq_of_lt v3.isLt]
  · unfold Mod.tallied
    rw [Mod.sbEvent_same _ 3 (·.rdf (bPWR + 0x80 + 8 * 3) 47 0), ← hcnt]
    exact hcount
  · exact (Mod.sbEvent_same _ 3 (·.cores)).trans ((s3.same (·.cores)).trans ((s2.same (·.cores)).trans ((s1.same (·.cores)).trans ((s0.same (·.cores)).trans hcores))))
  · exact (Mod.sbEvent_same _ 3 (·.mem)).trans ((s3.same (·.mem)).trans ((s2.same (·.mem)).trans ((s1.same (·.mem)).trans ((s0.same (·.mem)).trans hmem))))

/-! ## The power cap -/

/-- The input power and current of a cap check are shown. -/
def Mod.inputSeen (m : Mod) (w a : BitVec 16) : Mod := (m.wrf bPWR 63 48 w.toNat).wrf bPWR 47 32 a.toNat
/-- What a cap check shows, and the limits it leaves the throttle. -/
def Mod.capSeen (m : Mod) (w a : BitVec 16) (t : Mod) : Prop := t.rdf bPWR 63 48 = w.toNat ∧ t.rdf bPWR 47 32 = a.toNat ∧ t.pwr.thmLim = m.pwr.thmLim
/-- The cap's limits of the core rails, with their targets shown. -/
def Mod.capLims (f : Nat → Nat) (t : Mod) : Prop := ∀ k, k < 4 → Tab.get 200 t.pwr.capLim k = f k ∧ t.rdf (bPWR + 0x100 + 8 * k) 47 32 = t.railTarget k
theorem Mod.rd_inputSeen (m : Mod) (w a : BitVec 16) {b : Nat} (hb : b ≠ bPWR) : (m.inputSeen w a).rd b = m.rd b :=
  (Mod.rd_wrf_ne _ _ _ _ hb).trans (Mod.rd_wrf_ne _ _ _ _ hb)
theorem Mod.capSeen_inputSeen (m : Mod) (w a : BitVec 16) : m.capSeen w a (m.inputSeen w a) :=
  ⟨(Mod.rdf_wrf_apart _ _ 47 32 _ 63 48 (by decide) (.inr (by decide))).trans ((Mod.rdf_wrf_self _ _ 63 48 _ (by decide)).trans (Nat.mod_eq_of_lt w.isLt)),
    (Mod.rdf_wrf_self _ _ 47 32 _ (by decide)).trans (Nat.mod_eq_of_lt a.isLt), rfl⟩
theorem Mod.capSeen.congr {m t u : Mod} {w a : BitVec 16} (h : m.capSeen w a t) (hr : u.rd bPWR = t.rd bPWR) (hth : u.pwr.thmLim = t.pwr.thmLim) :
    m.capSeen w a u := by
  obtain ⟨h1, h2, h3⟩ := h
  refine ⟨?_, ?_, hth.trans h3⟩
  · rw [← h1]; simp only [Mod.rdf, hr]
  · rw [← h2]; simp only [Mod.rdf, hr]
/-- New limits of the cap, shown. -/
theorem Mod.capLimits (m : Mod) (w a : BitVec 16) (l : Tab Nat) (n : Nat) :
    let t := ({ m.inputSeen w a with pwr := { (m.inputSeen w a).pwr with capLim := l, capLow := n } } : Mod).setTargets
    m.capSeen w a t ∧ Mod.capLims (Tab.get 200 l) t ∧ t.pwr.capLow = n := by
  have ho := Mod.outward_setTargets ({ m.inputSeen w a with pwr := { (m.inputSeen w a).pwr with capLim := l, capLow := n } } : Mod)
  refine ⟨((Mod.capSeen_inputSeen m w a).congr (u := { m.inputSeen w a with pwr := { (m.inputSeen w a).pwr with capLim := l, capLow := n } }) rfl rfl).congr
      (ho.regs _ (not_coreRailReg_of_lt (by omega))) (ho.same (·.pwr.thmLim)), fun k hk => ⟨?_, ?_⟩, ho.same (·.pwr.capLow)⟩
  · rw [ho.same (·.pwr.capLim)]
  · rw [Mod.railTarget_setTargets]; exact (Mod.rdf_setTargets _ hk).1
theorem Tab.get_limits (f : Nat → Nat) {k : Nat} (hk : k < 4) : Tab.get 200 ((upto 4).map fun p => (p, f p)) k = f k := by
  have heq : ((upto 4).map fun p => (p, f p)) = [(0, f 0), (1, f 1), (2, f 2), (3, f 3)] := rfl
  rw [heq]
  obtain rfl | rfl | rfl | rfl : k = 0 ∨ k = 1 ∨ k = 2 ∨ k = 3 := by omega
  all_goals rfl
theorem all_upto_four (p : Nat → Bool) : (upto 4).all p = true ↔ ∀ k, k < 4 → p k = true := by
  simp only [List.all_eq_true, mem_upto]
/-- The cap that a check compares with is not among what it shows. -/
theorem Mod.cap_inputSeen (m : Mod) (w a : BitVec 16) : (m.inputSeen w a).rdf (bPWR + 0x28) 15 0 = m.rdf (bPWR + 0x28) 15 0 := by
  simp only [Mod.rdf, Mod.rd_inputSeen m w a (show bPWR + 0x28 ≠ bPWR by omega)]
theorem Mod.capCheck_off {m : Mod} (w a : BitVec 16) (ht : m.timed = true) (h : m.rdf (bPWR + 0x28) 15 0 = 0) :
    m.capSeen w a (m.capCheck w a) ∧ Mod.capLims (fun _ => 200) (m.capCheck w a) := by
  have heq : m.capCheck w a = ({ m.inputSeen w a with pwr := { (m.inputSeen w a).pwr with capLim := [], capLow := 0 } } : Mod).setTargets := by
    unfold Mod.capCheck
    rw [if_neg (by simp [ht])]
    exact if_pos ((m.cap_inputSeen w a).trans h)
  obtain ⟨hseen, hlims, -⟩ := m.capLimits w a [] 0
  rw [heq]
  exact ⟨hseen, hlims⟩
section
variable {m : Mod} {w a : BitVec 16} (ht : m.timed = true) (hc : m.rdf (bPWR + 0x28) 15 0 ≠ 0)
include ht hc
theorem Mod.capCheck_on : m.capCheck w a =
    if m.rdf (bPWR + 0x28) 15 0 < w.toNat then
      if (upto 4).all fun p => m.railCode p == 0 then
        ({ m.inputSeen w a with pwr := { (m.inputSeen w a).pwr with capLow := 0 } } : Mod).pwrEvent 1
      else ({ m.inputSeen w a with pwr := { (m.inputSeen w a).pwr with
        capLim := (upto 4).map fun p => (p, Tab.get 200 m.pwr.capLim p - 10), capLow := 0 } } : Mod).setTargets
    else if w.toNat * 100 < 95 * m.rdf (bPWR + 0x28) 15 0 then
      if m.pwr.capLow + 1 < 10 then { m.inputSeen w a with pwr := { (m.inputSeen w a).pwr with capLow := m.pwr.capLow + 1 } }
      else ({ m.inputSeen w a with pwr := { (m.inputSeen w a).pwr with
        capLim := (upto 4).map fun p => (p, min 200 (Tab.get 200 m.pwr.capLim p + 10)), capLow := 0 } } : Mod).setTargets
    else { m.inputSeen w a with pwr := { (m.inputSeen w a).pwr with capLow := 0 } } := by
  have hcode (p : Nat) : ({ m.inputSeen w a with pwr := { (m.inputSeen w a).pwr with capLow := 0 } } : Mod).railCode p = m.railCode p := by
    have hr (b : Nat) (hb : b ≠ bPWR) : ({ m.inputSeen w a with pwr := { (m.inputSeen w a).pwr with capLow := 0 } } : Mod).rd b = m.rd b :=
      m.rd_inputSeen w a hb
    exact Mod.railCode_congr (hr _ (by omega)) (hr _ (by omega)) rfl rfl
  have hcap := m.cap_inputSeen w a
  unfold Mod.capCheck
  rw [if_neg (by simp [ht])]
  simp only [← hcode, ← hcap]
  exact if_neg fun h => hc (hcap.symm.trans h)
theorem Mod.capCheck_lowers (hlt : m.rdf (bPWR + 0x28) 15 0 < w.toNat) (hk : ∃ k, k < 4 ∧ m.railCode k ≠ 0) :
    m.capSeen w a (m.capCheck w a) ∧ Mod.capLims (fun k => Tab.get 200 m.pwr.capLim k - 10) (m.capCheck w a) ∧ (m.capCheck w a).pwr.capLow = 0 := by
  have hall : ¬ ((upto 4).all fun p => m.railCode p == 0) = true := by
    obtain ⟨k, hk4, hk0⟩ := hk
    exact fun h => hk0 (by simpa using (all_upto_four _).mp h k hk4)
  rw [Mod.capCheck_on ht hc, if_pos hlt, if_neg hall]
  obtain ⟨hseen, hlims, hlow⟩ := m.capLimits w a ((upto 4).map fun p => (p, Tab.get 200 m.pwr.capLim p - 10)) 0
  exact ⟨hseen, fun k hk => ⟨(hlims k hk).1.trans (Tab.get_limits _ hk), (hlims k hk).2⟩, hlow⟩
theorem Mod.capCheck_tells (hlt : m.rdf (bPWR + 0x28) 15 0 < w.toNat) (hk : ∀ k, k < 4 → m.railCode k = 0) :
    m.capSeen w a (m.capCheck w a) ∧ ((m.capCheck w a).rdf (bPWR + 0x38) 1 1 = 1 ∧ m.tallied (m.capCheck w a) (bPWR + 0x80 + 8 * 1) 1) ∧
      (m.capCheck w a).pwr.capLim = m.pwr.capLim := by
  have hall : ((upto 4).all fun p => m.railCode p == 0) = true := (all_upto_four _).mpr fun k h4 => by simpa using hk k h4
  rw [Mod.capCheck_on ht hc, if_pos hlt, if_pos hall]
  obtain ⟨hbit, hcount⟩ := Mod.pwrEvent_shown ({ m.inputSeen w a with pwr := { (m.inputSeen w a).pwr with capLow := 0 } } : Mod) 1 (by decide)
  refine ⟨(Mod.capSeen_inputSeen m w a).congr (Mod.rd_pwrEvent_ne _ (by omega) (by omega)) rfl, ⟨hbit, ?_⟩, rfl⟩
  have hr : ({ m.inputSeen w a with pwr := { (m.inputSeen w a).pwr with capLow := 0 } } : Mod).rd (bPWR + 0x80 + 8 * 1) = m.rd (bPWR + 0x80 + 8 * 1) :=
    m.rd_inputSeen w a (by omega)
  unfold Mod.tallied at hcount ⊢
  rw [hcount]
  simp only [Mod.rdf, hr]
theorem Mod.capCheck_counts (hlt : w.toNat * 100 < 95 * m.rdf (bPWR + 0x28) 15 0) (hn : m.pwr.capLow < 9) :
    m.capSeen w a (m.capCheck w a) ∧ (m.capCheck w a).pwr.capLow = m.pwr.capLow + 1 ∧ (m.capCheck w a).pwr.capLim = m.pwr.capLim := by
  rw [Mod.capCheck_on ht hc, if_neg (by omega), if_pos hlt, if_pos (by omega)]
  exact ⟨(Mod.capSeen_inputSeen m w a).congr rfl rfl, rfl, rfl⟩
theorem Mod.capCheck_raises (hlt : w.toNat * 100 < 95 * m.rdf (bPWR + 0x28) 15 0) (hn : 9 ≤ m.pwr.capLow) :
    m.capSeen w a (m.capCheck w a) ∧ (m.capCheck w a).pwr.capLow = 0 ∧ Mod.capLims (fun k => min 200 (Tab.get 200 m.pwr.capLim k + 10)) (m.capCheck w a) := by
  rw [Mod.capCheck_on ht hc, if_neg (by omega), if_pos hlt, if_neg (by omega)]
  obtain ⟨hseen, hlims, hlow⟩ := m.capLimits w a ((upto 4).map fun p => (p, min 200 (Tab.get 200 m.pwr.capLim p + 10))) 0
  exact ⟨hseen, hlow, fun k hk => ⟨(hlims k hk).1.trans (Tab.get_limits _ hk), (hlims k hk).2⟩⟩
theorem Mod.capCheck_rests (hle : w.toNat ≤ m.rdf (bPWR + 0x28) 15 0) (hge : 95 * m.rdf (bPWR + 0x28) 15 0 ≤ w.toNat * 100) :
    m.capSeen w a (m.capCheck w a) ∧ (m.capCheck w a).pwr.capLow = 0 ∧ (m.capCheck w a).pwr.capLim = m.pwr.capLim := by
  rw [Mod.capCheck_on ht hc, if_neg (by omega), if_neg (by omega)]
  exact ⟨(Mod.capSeen_inputSeen m w a).congr rfl rfl, rfl, rfl⟩
end

/-! ## The throttle -/

/-- The state after a step of group `g` that shows its reading, keeps limit `l` and counts `k`. -/
def Mod.throttled (m : Mod) (g : Nat) (raw : BitVec 16) (l k : Nat) (t : Mod) : Prop :=
  (t.rdf (bPWR + 0x200 + 8 * g) 15 0 = (BitVec.ofInt 16 (m.reading g raw)).toNat ∧ t.pwr.capLim = m.pwr.capLim) ∧
    Tab.get 200 t.pwr.thmLim g = l ∧ Tab.get 0 t.pwr.thmLow g = k
/-- A reading is shown in its register. -/
theorem Mod.sense_shows (m : Mod) (g : Nat) (raw : BitVec 16) :
    (m.sense g raw).rdf (bPWR + 0x200 + 8 * g) 15 0 = (BitVec.ofInt 16 (m.reading g raw)).toNat := by
  have hlt := (BitVec.ofInt 16 (m.reading g raw)).isLt
  have hfld (x : Nat) : fld (w64 (x * 2 ^ 16 + (BitVec.ofInt 16 (m.reading g raw)).toNat)) 15 0 = (BitVec.ofInt 16 (m.reading g raw)).toNat := by
    simp only [fld, bitsN, w64, BitVec.toNat_ofNat]
    omega
  unfold Mod.sense Mod.rdf
  dsimp only
  rw [Mod.rd_wr_self]
  exact hfld _
theorem Mod.rd_sense_ne (m : Mod) (g : Nat) (raw : BitVec 16) {b : Nat} (hb : b ≠ bPWR + 0x200 + 8 * g) : (m.sense g raw).rd b = m.rd b :=
  Mod.rd_wr_ne m _ hb
/-- Below TLIM the low readings alone are counted; a limit that moves is shown as a target. -/
def Mod.lowCount (m : Mod) (g n : Nat) : Mod := { m with pwr := { m.pwr with thmLow := Tab.put m.pwr.thmLow g n } }
def Mod.throttleTo (m : Mod) (g l : Nat) : Mod := ({ m with pwr := { m.pwr with thmLim := Tab.put m.pwr.thmLim g l } } : Mod).setTargets
theorem Mod.throttled_lowCount (m : Mod) (g : Nat) (raw : BitVec 16) (n : Nat) :
    m.throttled g raw (Tab.get 200 m.pwr.thmLim g) n ((m.sense g raw).lowCount g n) :=
  ⟨⟨m.sense_shows g raw, rfl⟩, rfl, by simp [Mod.lowCount, Tab.get, Tab.get?_put]⟩
theorem Mod.throttled_throttleTo (m : Mod) (g : Nat) (raw : BitVec 16) (n l : Nat) :
    m.throttled g raw l n (((m.sense g raw).lowCount g n).throttleTo g l) := by
  have ho := Mod.outward_setTargets ({ (m.sense g raw).lowCount g n with
    pwr := { ((m.sense g raw).lowCount g n).pwr with thmLim := Tab.put ((m.sense g raw).lowCount g n).pwr.thmLim g l } } : Mod)
  refine ⟨⟨?_, ho.same (·.pwr.capLim)⟩, ?_, ?_⟩
  · exact (ho.rdf (fun ⟨k, hk, he⟩ => by omega) 15 0).trans (m.sense_shows g raw)
  · exact (congrArg (Tab.get 200 · g) (ho.same (·.pwr.thmLim))).trans (by simp [Tab.get, Tab.get?_put])
  · exact (congrArg (Tab.get 0 · g) (ho.same (·.pwr.thmLow))).trans (by simp [Mod.lowCount, Tab.get, Tab.get?_put])
/-- The throttle's own limit in quarter degrees. -/
def Mod.throttleAt (m : Mod) : Int := (4 * m.rdf (bPWR + 0x30) 7 0 : Nat)
theorem Mod.thermalStep_idle {m : Mod} {g : Fin 29} {raw : BitVec 16} (h1 : 4 ≤ g.val) (h2 : g.val < 28) : m.thermalStep g raw = m :=
  if_pos (.inr ⟨h1, h2⟩)
theorem Mod.thermalStep_sensor {m : Mod} {g : Fin 29} {raw : BitVec 16} (ht : m.timed = true) (hg : g.val = 28) : m.thermalStep g raw = m.sense g raw := by
  unfold Mod.thermalStep
  rw [if_neg (by simp [ht, hg])]
  exact if_pos (by omega)
section
variable {m : Mod} {g : Fin 29} {raw : BitVec 16} (ht : m.timed = true) (hg : g.val < 4)
include ht hg
theorem Mod.thermalStep_panel : m.thermalStep g raw =
    if m.throttleAt ≤ m.reading g raw then (((m.sense g raw).lowCount g 0).throttleTo g (Tab.get 200 m.pwr.thmLim g - 10)).pwrEvent 0
    else if m.reading g raw < m.throttleAt - 12 then
      if Tab.get 0 m.pwr.thmLow g + 1 < 10 then (m.sense g raw).lowCount g (Tab.get 0 m.pwr.thmLow g + 1)
      else ((m.sense g raw).lowCount g 0).throttleTo g (min 200 (Tab.get 200 m.pwr.thmLim g + 10))
    else (m.sense g raw).lowCount g 0 := by
  have htlim : (m.sense g raw).throttleAt = m.throttleAt := by
    simp only [Mod.throttleAt, Mod.rdf, m.rd_sense_ne g raw (show bPWR + 0x30 ≠ bPWR + 0x200 + 8 * g.val by omega)]
  rw [← htlim]
  unfold Mod.thermalStep
  rw [if_neg (by simp only [ht]; simp; omega)]
  exact if_neg (by omega)
theorem Mod.thermalStep_hot (h : m.throttleAt ≤ m.reading g raw) :
    m.throttled g raw (Tab.get 200 m.pwr.thmLim g - 10) 0 (m.thermalStep g raw) ∧
      ((m.thermalStep g raw).rdf (bPWR + 0x38) 0 0 = 1 ∧ m.tallied (m.thermalStep g raw) (bPWR + 0x80 + 8 * 0) 1) ∧
      (m.thermalStep g raw).rdf (bPWR + 0x100 + 8 * g.val) 47 32 = (m.thermalStep g raw).railTarget g.val := by
  rw [Mod.thermalStep_panel ht hg, if_pos h]
  obtain ⟨⟨hseen, hcap⟩, hlim, hlow⟩ := m.throttled_throttleTo g raw 0 (Tab.get 200 m.pwr.thmLim g - 10)
  have hrd (b : Nat) (hb : b < bPWR + 0x100) :
      (((m.sense g raw).lowCount g 0).throttleTo g (Tab.get 200 m.pwr.thmLim g - 10)).rd b = m.rd b :=
    ((Mod.outward_setTargets _).regs _ (not_coreRailReg_of_lt hb)).trans (m.rd_sense_ne g raw (by omega))
  have htarget : (((m.sense g raw).lowCount g 0).throttleTo g (Tab.get 200 m.pwr.thmLim g - 10)).rdf (bPWR + 0x100 + 8 * g.val) 47 32 =
      (((m.sense g raw).lowCount g 0).throttleTo g (Tab.get 200 m.pwr.thmLim g - 10)).railTarget g.val :=
    (Mod.rdf_setTargets _ hg).1.trans (Mod.railTarget_setTargets _ _).symm
  generalize ((m.sense g raw).lowCount g 0).throttleTo g (Tab.get 200 m.pwr.thmLim g - 10) = u at *
  have hev (b : Nat) (h1 : b ≠ bPWR + 0x38) (h2 : b ≠ bPWR + 0x80 + 8 * 0) (hi lo : Nat) : (u.pwrEvent 0).rdf b hi lo = u.rdf b hi lo := by
    simp only [Mod.rdf, Mod.rd_pwrEvent_ne u h1 h2]
  obtain ⟨hbit, hcount⟩ := Mod.pwrEvent_shown u 0 (by decide)
  refine ⟨⟨⟨(hev _ (by omega) (by omega) 15 0).trans hseen, hcap⟩, hlim, hlow⟩, ⟨hbit, ?_⟩, ?_⟩
  · unfold Mod.tallied at hcount ⊢
    rw [hcount]
    simp only [Mod.rdf, hrd _ (show bPWR + 0x80 + 8 * 0 < bPWR + 0x100 by omega)]
  · rw [hev _ (by omega) (by omega), Mod.railTarget_pwrEvent, htarget]
theorem Mod.thermalStep_counts (h : m.reading g raw < m.throttleAt - 12) (hn : Tab.get 0 m.pwr.thmLow g < 9) :
    m.throttled g raw (Tab.get 200 m.pwr.thmLim g) (Tab.get 0 m.pwr.thmLow g + 1) (m.thermalStep g raw) := by
  rw [Mod.thermalStep_panel ht hg, if_neg (by omega), if_pos h, if_pos (by omega)]
  exact m.throttled_lowCount g raw _
theorem Mod.thermalStep_raises (h : m.reading g raw < m.throttleAt - 12) (hn : 9 ≤ Tab.get 0 m.pwr.thmLow g) :
    m.throttled g raw (min 200 (Tab.get 200 m.pwr.thmLim g + 10)) 0 (m.thermalStep g raw) := by
  rw [Mod.thermalStep_panel ht hg, if_neg (by omega), if_pos h, if_neg (by omega)]
  exact m.throttled_throttleTo g raw 0 _
theorem Mod.thermalStep_rests (h1 : m.throttleAt - 12 ≤ m.reading g raw) (h2 : m.reading g raw < m.throttleAt) :
    m.throttled g raw (Tab.get 200 m.pwr.thmLim g) 0 (m.thermalStep g raw) := by
  rw [Mod.thermalStep_panel ht hg, if_neg (by omega), if_neg (by omega)]
  exact m.throttled_lowCount g raw 0
end

/-! ## The sideband -/

theorem Mod.sbWord_setSb_lt (m : Mod) (i : Nat) {v : Nat} (h : v < 2 ^ 32) : (m.setSb i v).sbWord i = v := by
  rw [Mod.sbWord_setSb, if_pos rfl, Nat.mod_eq_of_lt h]
/-- A write of SB_EVT clears the bits that it names. -/
theorem Mod.bandWrite_evt (m : Mod) (v : Nat) : (∀ k, k < 5 → ((m.bandWrite 2 v).sbWord 2).testBit k = ((m.sbWord 2).testBit k && !v.testBit k)) ∧
    (m.bandWrite 2 v).bar0 = m.bar0 ∧ (m.bandWrite 2 v).pwr.index = m.pwr.index := by
  have heq : m.bandWrite 2 v = (m.setSb 2 (m.sbWord 2 &&& (0x1F - bitsN v 4 0))).ibi := rfl
  rw [heq]
  refine ⟨fun k hk => ?_, Mod.ibi_same _ (·.bar0), Mod.ibi_same _ (·.pwr.index)⟩
  have hlt : m.sbWord 2 &&& (0x1F - bitsN v 4 0) < 2 ^ 32 := lt_of_le_of_lt Nat.and_le_right (by omega)
  have hb := bitsN_lt v 4 0
  have hbit : (0x1F - bitsN v 4 0).testBit k = !v.testBit k := by
    rw [show 0x1F - bitsN v 4 0 = 2 ^ 5 - (bitsN v 4 0 + 1) by omega, Nat.testBit_two_pow_sub_succ (by omega)]
    simp only [bitsN, Nat.shiftRight_zero, Nat.testBit_mod_two_pow, hk, decide_true, Bool.true_and, show k < 4 + 1 - 0 by omega]
  rw [Mod.sbWord_ibi, Mod.sbWord_setSb_lt _ _ hlt, Nat.testBit_and, hbit]
/-- A write of SB_CTL without MODRST keeps the interrupt enables. -/
theorem Mod.bandWrite_ctl (m : Mod) {v : Nat} (hv : v % 2 = 0) : (m.bandWrite 3 v).sbWord 3 = bitsN v 12 8 * 2 ^ 8 ∧ (m.bandWrite 3 v).bar0 = m.bar0 ∧
    (m.bandWrite 3 v).pwr.index = m.pwr.index := by
  have heq : m.bandWrite 3 v = (m.setSb 3 (bitsN v 12 8 * 2 ^ 8)).ibi := by simp [Mod.bandWrite, hv]
  have hb := bitsN_lt v 12 8
  rw [heq]
  exact ⟨(Mod.sbWord_ibi _ 3).trans (Mod.sbWord_setSb_lt _ _ (by omega)), Mod.ibi_same _ (·.bar0), Mod.ibi_same _ (·.pwr.index)⟩
theorem Mod.i3cWrite_standby {m : Mod} (h : m.pwr.standby = true) (b : Byte) (rest : List Byte) :
    m.i3cWrite (b :: rest) = ({ m with pwr := { m.pwr with index := b.toNat } } : Mod).bandWrites b.toNat rest := if_neg (by simp [h])
/-- Nothing of the sideband goes on without VSTBY. -/
theorem Mod.i3cWrite_off {m : Mod} (h : m.pwr.standby = false) (d : List Byte) : m.i3cWrite d = m := by
  cases d with
  | nil => rfl
  | cons b rest => exact if_pos (by simp [h])
theorem Mod.i3cWrite_evt {m : Mod} (h : m.pwr.standby = true) (a b c d : Byte) :
    let t := m.i3cWrite [2, a, b, c, d]
    t.pwr.index = 2 ∧ (∀ k, k < 5 → (t.sbWord 2).testBit k = ((m.sbWord 2).testBit k && !(ofLe [a, b, c, d]).testBit k)) ∧ t.bar0 = m.bar0 := by
  obtain ⟨hbits, hbar, hidx⟩ := Mod.bandWrite_evt ({ m with pwr := { m.pwr with index := 2 } } : Mod) (ofLe [a, b, c, d])
  dsimp only
  rw [Mod.i3cWrite_standby h]
  exact ⟨hidx, hbits, hbar⟩
theorem Mod.i3cWrite_ctl {m : Mod} (h : m.pwr.standby = true) (a b c d : Byte) (hv : ofLe [a, b, c, d] % 2 = 0) :
    let t := m.i3cWrite [3, a, b, c, d]
    t.pwr.index = 3 ∧ t.sbWord 3 = bitsN (ofLe [a, b, c, d]) 12 8 * 2 ^ 8 ∧ t.bar0 = m.bar0 := by
  obtain ⟨hword, hbar, hidx⟩ := Mod.bandWrite_ctl ({ m with pwr := { m.pwr with index := 3 } } : Mod) hv
  dsimp only
  rw [Mod.i3cWrite_standby h]
  exact ⟨hidx, hword, hbar⟩
theorem Mod.sbPowerRead_reads {m : Mod} (h : m.pwr.standby = true) (n : BitVec 6) :
    let t := m.sbPowerRead n
    t.pwr.out = m.pwr.out ++ (upto n.toNat).map (fun k => m.sbRead (m.pwr.index + k)) ∧ t.bar0 = m.bar0 ∧
      t.pwr.lowest = if m.pwr.index ≤ 5 ∧ 5 < m.pwr.index + n.toNat then none else m.pwr.lowest := by
  dsimp only
  unfold Mod.sbPowerRead
  rw [if_neg (by simp [h])]
  exact ⟨rfl, rfl, rfl⟩
theorem Mod.heartbeat_counts {m : Mod} (h : m.timed = true) : m.heartbeat.sbWord 7 = (m.sbWord 7 + 1) % 2 ^ 32 ∧ m.heartbeat.bar0 = m.bar0 := by
  rw [show m.heartbeat = m.setSb 7 (m.sbWord 7 + 1) from if_pos h]
  exact ⟨by rw [Mod.sbWord_setSb, if_pos rfl], rfl⟩

/-! ## The settlement -/

/-- A step that finds nothing to do. -/
theorem completes_idle {i : Instr} {s : State} {f : Mod → Mod} (hi : exec i s = s.edge f) (h : f s.m = s.m) : completes i s fun t => t = s.m :=
  completes_edge hi h
/-- Settles O55, command by command. -/
theorem powerSteps : Obligations.PowerSteps := by
  unfold Obligations.PowerSteps
  intro s
  refine ⟨fun v a v0 v1 v2 v3 => ⟨fun hp => ?_, fun hp => ?_⟩, fun ht => ⟨fun n => ?_, fun w a => ?_, fun g raw => ?_, ?_⟩,
    fun ht => ⟨fun n => ⟨fun h => ?_, fun h => ?_, fun h => ?_⟩, fun w a => ⟨fun h => ?_, fun hc h hk => ?_, fun hc h hk => ?_, fun hc h hn => ?_,
      fun hc h hn => ?_, fun hc h h' => ?_⟩, fun g raw => ⟨fun h h' => ?_, fun hg => ?_, fun hg => ⟨fun h => ?_, fun h hn => ?_, fun h hn => ?_, fun h h' => ?_⟩⟩, ?_⟩,
    fun hs => ⟨fun a => ?_, fun d => ?_, fun n => ?_⟩, fun hs => ⟨fun a => ?_, ?_, fun b => ?_, fun a b c d => ⟨?_, fun hv => ?_⟩, fun n => ?_⟩⟩
  · exact completes_edge (f := fun m => m.inputLimit v a v0 v1 v2 v3) rfl (Mod.inputLimit_shows hp v a v0 v1 v2 v3)
  · exact completes_idle (f := fun m => m.inputLimit v a v0 v1 v2 v3) rfl (if_pos (by simpa [Mod.powered] using hp))
  · exact completes_idle (f := fun m => m.railMove n) rfl (if_pos (by simp [ht]))
  · exact completes_idle (f := fun m => m.capCheck w a) rfl (if_pos (by simp [ht]))
  · exact completes_idle (f := fun m => m.thermalStep g raw) rfl (if_pos (by simp [ht]))
  · exact completes_idle (f := fun m => m.heartbeat) rfl (if_neg (by simp [ht]))
  · exact completes_edge (f := fun m => m.railMove n) rfl (Mod.railMove_up ht h)
  · exact completes_edge (f := fun m => m.railMove n) rfl (Mod.railMove_down ht h)
  · exact completes_idle (f := fun m => m.railMove n) rfl (Mod.railMove_rests h)
  · exact completes_edge (f := fun m => m.capCheck w a) rfl (Mod.capCheck_off w a ht h)
  · exact completes_edge (f := fun m => m.capCheck w a) rfl (Mod.capCheck_lowers ht hc h hk)
  · exact completes_edge (f := fun m => m.capCheck w a) rfl (Mod.capCheck_tells ht hc h hk)
  · exact completes_edge (f := fun m => m.capCheck w a) rfl (Mod.capCheck_counts ht hc h hn)
  · exact completes_edge (f := fun m => m.capCheck w a) rfl (Mod.capCheck_raises ht hc h hn)
  · exact completes_edge (f := fun m => m.capCheck w a) rfl (Mod.capCheck_rests ht hc h h')
  · exact completes_idle (f := fun m => m.thermalStep g raw) rfl (Mod.thermalStep_idle h h')
  · refine completes_edge (f := fun m => m.thermalStep g raw) rfl ?_
    rw [Mod.thermalStep_sensor ht hg]
    exact ⟨⟨s.m.sense_shows g raw, rfl⟩, rfl⟩
  · exact completes_edge (f := fun m => m.thermalStep g raw) rfl (Mod.thermalStep_hot ht hg h)
  · exact completes_edge (f := fun m => m.thermalStep g raw) rfl (Mod.thermalStep_counts ht hg h hn)
  · exact completes_edge (f := fun m => m.thermalStep g raw) rfl (Mod.thermalStep_raises ht hg h hn)
  · exact completes_edge (f := fun m => m.thermalStep g raw) rfl (Mod.thermalStep_rests ht hg h h')
  · exact completes_edge (f := fun m => m.heartbeat) rfl (Mod.heartbeat_counts ht)
  · exact completes_idle (f := fun m => m.dynAddr a) rfl (if_neg (by simp [hs]))
  · exact completes_idle (f := fun m => m.i3cWrite d) rfl (Mod.i3cWrite_off hs d)
  · exact completes_idle (f := fun m => m.sbPowerRead n) rfl (if_pos (by simp [hs]))
  · exact completes_edge (f := fun m => m.dynAddr a) rfl (if_pos hs)
  · exact completes_idle (f := fun m => m.i3cWrite []) rfl rfl
  · exact completes_edge (f := fun m => m.i3cWrite [b]) rfl (Mod.i3cWrite_standby hs b [])
  · exact completes_edge (f := fun m => m.i3cWrite [2, a, b, c, d]) rfl (Mod.i3cWrite_evt hs a b c d)
  · exact completes_edge (f := fun m => m.i3cWrite [3, a, b, c, d]) rfl (Mod.i3cWrite_ctl hs a b c d hv)
  · exact completes_edge (f := fun m => m.sbPowerRead n) rfl (Mod.sbPowerRead_reads hs n)

end Sys2Proof.Machine
end

section
/-! The converter, the power sequencer and the module reset (R535, R544, R595, R597, R602, R607, R612, R614). -/

namespace Sys2Proof.Machine

/-! ## Rails that fall -/

/-- Every rail but VSTBY has fallen, and the sequencer stands in a state without them. -/
def Mod.fallen (m : Mod) (seq : Nat) (t : Mod) : Prop := t.pwr.seq = seq ∧ t.pwr.groups = 0 ∧ t.rdf bPWR 3 0 = seq ∧ t.nv = m.nv ∧ t.cores = [] ∧ t.mem = [] ∧
  t.fit = {} ∧ ∀ h : HostId, (t.host h.val).linked = false ∧ (t.host h.val).clock = (m.host h.val).clock
theorem Mod.rdf_setSeq (m : Mod) {q : Nat} (h : q < 16) : (m.setSeq q).rdf bPWR 3 0 = q :=
  (Mod.rdf_wrf_self _ _ 3 0 _ (by decide)).trans (Nat.mod_eq_of_lt h)
theorem Mod.host_mapV (hosts : Tab HostPort) (f : Nat → HostPort → HostPort) (h : Nat) :
    Tab.get {} (Tab.mapV hosts f) h = ((Tab.get? hosts h).map (f h)).getD {} := by simp only [Tab.get, Tab.get?_mapV]
theorem Mod.fallen_railsDown (m : Mod) {q : Nat} (h : q < 16) : m.fallen q (m.railsDown q) := by
  refine ⟨rfl, rfl, Mod.rdf_setSeq _ h, rfl, rfl, rfl, rfl, fun d => ?_⟩
  have hh : (m.railsDown q).host d.val = ((Tab.get? m.hosts d.val).map fun k => ({ clock := k.clock, out := k.out } : HostPort)).getD {} :=
    Mod.host_mapV m.hosts (fun _ k => { clock := k.clock, out := k.out }) d.val
  rw [hh, Mod.host, Tab.get]
  cases Tab.get? m.hosts d.val <;> exact ⟨rfl, rfl⟩
/-- What the sequencer notes of a fall beside its state. -/
theorem Mod.fallen.noted {m t : Mod} {q : Nat} (h : m.fallen q t) (p : Power) (hp : p.seq = q ∧ p.groups = 0) : m.fallen q { t with pwr := p } := by
  obtain ⟨-, -, hreg, hnv, hcores, hmem, hfit, hhosts⟩ := h
  exact ⟨hp.1, hp.2, hreg, hnv, hcores, hmem, hfit, hhosts⟩
theorem Mod.fallen.sbEvent {m t : Mod} {q : Nat} (h : m.fallen q t) (i : Nat) : m.fallen q (t.sbEvent i) := by
  obtain ⟨hseq, hgroups, hreg, hnv, hcores, hmem, hfit, hhosts⟩ := h
  exact ⟨(Mod.sbEvent_same t i (·.pwr.seq)).trans hseq, (Mod.sbEvent_same t i (·.pwr.groups)).trans hgroups,
    (Mod.sbEvent_same t i (·.rdf bPWR 3 0)).trans hreg, (Mod.sbEvent_same t i (·.nv)).trans hnv, (Mod.sbEvent_same t i (·.cores)).trans hcores,
    (Mod.sbEvent_same t i (·.mem)).trans hmem, (Mod.sbEvent_same t i (·.fit)).trans hfit, fun d => by
      rw [Mod.sbEvent_same t i (·.host d.val)]; exact hhosts d⟩
/-- An event of the sideband against the state before. -/
def Mod.noted (m : Mod) (n : Nat) (t : Mod) : Prop := (t.sbWord 2).testBit n = true ∧ t.sbWord (8 + n) = (m.sbWord (8 + n) + 1) % 2 ^ 32
theorem Mod.noted_sbEvent {m t : Mod} (n : Nat) (hn : n < 6) (h : t.pwr.sb = m.pwr.sb) : m.noted n (t.sbEvent n) := by
  obtain ⟨hbit, hcount⟩ := Mod.sbEvent_shown t n hn
  refine ⟨hbit, hcount.trans ?_⟩
  simp only [Mod.sbWord, h]
theorem Mod.enterFault_shows (m : Mod) (r : Nat) :
    m.fallen 4 (m.enterFault r) ∧ (m.enterFault r).pwr.rail = r ∧ (m.enterFault r).pwr.cycled = false ∧ m.noted 0 (m.enterFault r) := by
  have hf := (m.fallen_railsDown (q := 4) (by decide)).noted { ((m.railsDown 4).setRail r).pwr with cycled := false } ⟨rfl, rfl⟩
  refine ⟨hf.sbEvent 0, ?_, ?_, ?_⟩
  · exact Mod.sbEvent_same _ 0 (·.pwr.rail)
  · exact Mod.sbEvent_same _ 0 (·.pwr.cycled)
  · exact Mod.noted_sbEvent 0 (by decide) rfl
theorem Mod.thermalTrip_shows {m : Mod} {g : Fin 29} {raw : BitVec 16} (hg : m.pwr.groups ≠ 0) (hv : 460 ≤ m.reading g.val raw) :
    m.fallen 5 (m.thermalTrip g raw) ∧ (m.thermalTrip g raw).pwr.cycled = false ∧ m.noted 1 (m.thermalTrip g raw) := by
  have heq : m.thermalTrip g raw = ({ m.railsDown 5 with pwr := { (m.railsDown 5).pwr with cycled := false } } : Mod).sbEvent 1 :=
    if_neg (not_or.mpr ⟨hg, by omega⟩)
  have hf := (m.fallen_railsDown (q := 5) (by decide)).noted { (m.railsDown 5).pwr with cycled := false } ⟨rfl, rfl⟩
  rw [heq]
  exact ⟨hf.sbEvent 1, Mod.sbEvent_same _ 1 (·.pwr.cycled), Mod.noted_sbEvent 1 (by decide) rfl⟩
theorem Mod.converterStop_shows {m : Mod} {v : BitVec 16} (hc : m.pwr.converter = true) (hv : v.toNat < 2800) :
    m.fallen 0 (m.converterStop v) ∧ (m.converterStop v).pwr.standby = false ∧ (m.converterStop v).pwr.converter = false ∧
      (m.converterStop v).pwr.enable = m.pwr.enable ∧ (m.converterStop v).pwr.input = v.toNat := by
  have heq : m.converterStop v = { m.railsDown 0 with pwr := { input := v.toNat, enable := m.pwr.enable, ibi := m.pwr.ibi, out := m.pwr.out } } :=
    if_neg (by simp [hc, hv])
  rw [heq]
  exact ⟨(m.fallen_railsDown (q := 0) (by decide)).noted _ ⟨rfl, rfl⟩, rfl, rfl, rfl, rfl⟩

/-! ## The converter and the enable input -/

theorem Mod.converterStart_beyond {m : Mod} {v : BitVec 16} (hc : m.pwr.converter = false) (hv : 6000 < v.toNat) :
    let t := m.converterStart v
    (∀ a, a ≠ bPWR → t.rd a = m.rd a) ∧ ((t.pwr = { m.pwr with converter := true, input := v.toNat } ∧ t.rdf bPWR 31 16 = v.toNat) ∨
      (t.pwr = { m.pwr with input := v.toNat } ∧ t.bar0 = m.bar0)) := by
  have hreg := fun m : Mod => (Mod.rdf_wrf_self m bPWR 31 16 v.toNat (by decide)).trans (Nat.mod_eq_of_lt v.isLt)
  dsimp only
  unfold Mod.converterStart Mod.converterRuns
  rw [if_neg (by simp [hc]; omega), if_neg (by omega)]
  cases hb : m.freeB with
  | mk on m1 =>
    have h1 : m1 = { m with freeCtr := m.freeCtr + 1 } := (congrArg Prod.snd hb).symm
    subst h1
    cases on with
    | true => exact ⟨fun a ha => Mod.rd_wrf_ne _ _ _ _ ha, .inl ⟨rfl, hreg _⟩⟩
    | false => exact ⟨fun a ha => rfl, .inr ⟨by show ({ m.pwr with converter := false, input := v.toNat } : Power) = _; rw [← hc], rfl⟩⟩
theorem Mod.converterStart_starts {m : Mod} {v : BitVec 16} (hc : m.pwr.converter = false) (hv : 3400 ≤ v.toNat) (hv' : v.toNat ≤ 6000) :
    let t := m.converterStart v
    t.pwr = { m.pwr with converter := true, input := v.toNat } ∧ t.rdf bPWR 31 16 = v.toNat ∧ ∀ a, a ≠ bPWR → t.rd a = m.rd a := by
  dsimp only
  unfold Mod.converterStart Mod.converterRuns
  rw [if_neg (by simp [hc]; omega), if_pos hv']
  exact ⟨rfl, (Mod.rdf_wrf_self _ bPWR 31 16 v.toNat (by decide)).trans (Nat.mod_eq_of_lt v.isLt), fun a ha => Mod.rd_wrf_ne _ _ _ _ ha⟩
/-- The sequencer ramps group `g`. -/
def Mod.ramping (m : Mod) (g : Nat) (t : Mod) : Prop :=
  t.pwr.seq = 1 ∧ t.pwr.groups = g ∧ t.pwr.rail = (rampGroups.getD g []).headD 0 ∧ t.rdf bPWR 3 0 = 1 ∧ t.nv = m.nv
theorem Mod.ramping_ramp {m t : Mod} {g : Nat} (hg : t.pwr.groups = g) (hnv : t.nv = m.nv) : m.ramping g (t.ramp g) :=
  ⟨rfl, hg, rfl, Mod.rdf_setSeq t (q := 1) (by decide), hnv⟩
theorem Mod.standbyGood_shows {m : Mod} (hc : m.pwr.converter = true) (hs : m.pwr.standby = false) :
    let t := m.standbyGood
    t.pwr.standby = true ∧ t.nv = m.nv ∧
      if m.pwr.enable then t.pwr.seq = 1 ∧ t.pwr.rail = 14 ∧ t.rdf bPWR 3 0 = 1 else t.pwr.seq = 0 ∧ t.rdf bPWR 3 0 = 0 := by
  have heq : m.standbyGood = if m.pwr.enable then (({ m with pwr := { m.pwr with standby := true } } : Mod).setSeq 0).ramp 0
      else ({ m with pwr := { m.pwr with standby := true } } : Mod).setSeq 0 := if_neg (by simp [hc, hs])
  dsimp only
  rw [heq]
  split
  · exact ⟨rfl, rfl, rfl, rfl, Mod.rdf_setSeq _ (q := 1) (by decide)⟩
  · exact ⟨rfl, rfl, rfl, Mod.rdf_setSeq _ (q := 0) (by decide)⟩
theorem Mod.enableHigh_ramps {m : Mod} {cool : Bool} (he : m.pwr.enable = false) (hs : m.pwr.standby = true) (hg : m.pwr.groups = 0)
    (h : m.pwr.seq = 0 ∨ (m.pwr.cycled = true ∧ (m.pwr.seq = 4 ∨ (m.pwr.seq = 5 ∧ cool = true)))) :
    m.ramping 0 (m.enableHigh cool) ∧ (m.enableHigh cool).pwr.enable = true := by
  have hcond : (m.pwr.standby && (m.pwr.seq == 0 || (m.pwr.cycled && (m.pwr.seq == 4 || (m.pwr.seq == 5 && cool))))) = true := by
    rw [hs, Bool.true_and]
    obtain h | ⟨hc, h | ⟨h, hcool⟩⟩ := h
    · simp [h]
    · simp [hc, h]
    · simp [hc, h, hcool]
  have heq : m.enableHigh cool = ({ m with pwr := { m.pwr with enable := true } } : Mod).ramp 0 := (if_neg (by simp [he])).trans (if_pos hcond)
  rw [heq]
  exact ⟨Mod.ramping_ramp hg rfl, rfl⟩
theorem Mod.enableHigh_refused {m : Mod} {cool : Bool} (he : m.pwr.enable = false)
    (h : ((m.pwr.seq = 4 ∨ m.pwr.seq = 5) ∧ m.pwr.cycled = false) ∨ (m.pwr.seq = 5 ∧ cool = false)) :
    m.enableHigh cool = { m with pwr := { m.pwr with enable := true } } := by
  have hcond : (m.pwr.standby && (m.pwr.seq == 0 || (m.pwr.cycled && (m.pwr.seq == 4 || (m.pwr.seq == 5 && cool))))) = false := by
    obtain ⟨h | h, hc⟩ | ⟨h, hc⟩ := h
    · simp [h, hc]
    · simp [h, hc]
    · simp [h, hc]
  exact (if_neg (by simp [he])).trans (if_neg (by simp [hcond]))
theorem Mod.enableLow_shows {m : Mod} (he : m.pwr.enable = true) (hs : m.pwr.standby = true) (h4 : m.pwr.seq ≠ 4) (h5 : m.pwr.seq ≠ 5) :
    m.fallen 0 m.enableLow ∧ m.enableLow.pwr.enable = false ∧ m.enableLow.pwr.standby = true := by
  have heq : m.enableLow = ({ m with pwr := { m.pwr with enable := false, cycled := true } } : Mod).railsDown 0 :=
    (if_neg (by simp [he])).trans (if_neg (by simp [hs, h4, h5]))
  rw [heq]
  exact ⟨Mod.fallen_railsDown ({ m with pwr := { m.pwr with enable := false, cycled := true } } : Mod) (by decide), rfl, hs⟩
theorem Mod.enableLow_noted {m : Mod} (he : m.pwr.enable = true) (h : m.pwr.seq = 4 ∨ m.pwr.seq = 5) :
    m.enableLow = { m with pwr := { m.pwr with enable := false, cycled := true } } :=
  (if_neg (by simp [he])).trans (if_pos (or_assoc.mp (.inl h)))

/-! ## Rails that ramp -/

/-- The registers of the rails. -/
def railReg (a : Nat) : Prop := bPWR + 0x100 ≤ a ∧ a < bPWR + 0x180
/-- Only registers of rails have changed, and the lowest voltage kept for the sideband. -/
structure Mod.railsMoved (m t : Mod) : Prop where
  rest : { t with bar0 := m.bar0, pwr := m.pwr } = m
  pwr : { t.pwr with lowest := m.pwr.lowest } = m.pwr
  regs : ∀ a, ¬ railReg a → t.rd a = m.rd a
theorem Mod.railsMoved_refl (m : Mod) : m.railsMoved m := ⟨rfl, rfl, fun _ _ => rfl⟩
theorem Mod.railsMoved.trans {m t u : Mod} (h : m.railsMoved t) (g : t.railsMoved u) : m.railsMoved u where
  rest := calc ({ u with bar0 := m.bar0, pwr := m.pwr } : Mod) = { ({ u with bar0 := t.bar0, pwr := t.pwr } : Mod) with bar0 := m.bar0, pwr := m.pwr } := rfl
      _ = { t with bar0 := m.bar0, pwr := m.pwr } := by rw [g.rest]
      _ = m := h.rest
  pwr := calc ({ u.pwr with lowest := m.pwr.lowest } : Power) = { ({ u.pwr with lowest := t.pwr.lowest } : Power) with lowest := m.pwr.lowest } := rfl
      _ = { t.pwr with lowest := m.pwr.lowest } := by rw [g.pwr]
      _ = m.pwr := h.pwr
  regs a ha := (g.regs a ha).trans (h.regs a ha)
theorem Mod.railsMoved.same {α : Type} {m t : Mod} (h : m.railsMoved t) (f : Mod → α)
    (hf : ∀ (u : Mod) b q, f { u with bar0 := b, pwr := q } = f u := by intros; rfl) : f t = f m := by rw [← hf t m.bar0 m.pwr, h.rest]
theorem Mod.railsMoved.pwr_same {α : Type} {m t : Mod} (h : m.railsMoved t) (f : Power → α)
    (hf : ∀ p q, f { p with lowest := q } = f p := by intros; rfl) : f t.pwr = f m.pwr := by rw [← hf t.pwr m.pwr.lowest, h.pwr]
theorem Mod.railsMoved.railTarget {m t : Mod} (h : m.railsMoved t) (r : Nat) : t.railTarget r = m.railTarget r :=
  Mod.railTarget_congr (fun a _ ha => h.regs a fun hr => by have := hr.1; omega) (h.pwr_same (·.capLim)) (h.pwr_same (·.thmLim)) r
theorem Mod.railsMoved.railGoal {m t : Mod} (h : m.railsMoved t) (r : Nat) : t.railGoal r = m.railGoal r := by
  have hreg : t.rd (CalQ.rail r).user.1 = m.rd (CalQ.rail r).user.1 :=
    h.regs _ fun hr => by have := hr.2; simp only [CalQ.user, bCAL, bPWR] at this; omega
  have hcal : t.cal = m.cal := h.same (·.cal)
  have heff : t.effective (.rail r) = m.effective (.rail r) := by
    simp only [Mod.effective, Mod.userOfs, Mod.trackOf, hreg, hcal]
  simp only [Mod.railGoal, h.railTarget, heff]
/-- A rail is up at its goal, and its target shown. -/
def Mod.railUp (m : Mod) (r : Nat) : Mod := (m.wrf (bPWR + 0x100 + 8 * r) 47 32 (m.railTarget r)).setVolt r (m.railGoal r)
theorem not_eq_of_not_railReg {a r : Nat} (ha : ¬ railReg a) (h : r < 16) : a ≠ bPWR + 0x100 + 8 * r :=
  fun e => ha (by subst e; exact ⟨by omega, by omega⟩)
theorem Mod.railsMoved_railUp (m : Mod) {r : Nat} (h : r < 16) : m.railsMoved (m.railUp r) := by
  have hv := Mod.voltSet_setVolt (m.wrf (bPWR + 0x100 + 8 * r) 47 32 (m.railTarget r)) r (m.railGoal r)
  have hshown : m.railsMoved (m.wrf (bPWR + 0x100 + 8 * r) 47 32 (m.railTarget r)) :=
    ⟨rfl, rfl, fun _ ha => Mod.rd_wrf_ne m _ _ _ (not_eq_of_not_railReg ha h)⟩
  exact hshown.trans ⟨hv.rest, hv.pwr, fun a ha => hv.regs a (not_eq_of_not_railReg ha h)⟩
theorem Mod.railVolt_railUp (m : Mod) (r k : Nat) : (m.railUp r).railVolt k = if k = r then m.railGoal r % 2 ^ 16 else m.railVolt k := by
  have hv := Mod.voltSet_setVolt (m.wrf (bPWR + 0x100 + 8 * r) 47 32 (m.railTarget r)) r (m.railGoal r)
  split
  · next h => rw [h]; exact hv.volt
  · next h => exact (hv.railVolt_ne h).trans (Mod.rdf_wrf_ne m _ _ _ _ _ (by omega))
theorem Mod.railsUp_moved (rs : List Nat) (m : Mod) (hrs : ∀ r, r ∈ rs → r < 16) :
    m.railsMoved (rs.foldl Mod.railUp m) ∧ ∀ k, (k ∈ rs ∨ m.railVolt k = m.railGoal k % 2 ^ 16) → (rs.foldl Mod.railUp m).railVolt k = m.railGoal k % 2 ^ 16 := by
  induction rs generalizing m with
  | nil => exact ⟨m.railsMoved_refl, fun k h => h.resolve_left (List.not_mem_nil)⟩
  | cons r rs ih =>
    have h1 := m.railsMoved_railUp (hrs r List.mem_cons_self)
    obtain ⟨hmoved, hvolt⟩ := ih (m.railUp r) fun k hk => hrs k (List.mem_cons_of_mem r hk)
    refine ⟨h1.trans hmoved, fun k hk => ?_⟩
    rw [List.foldl_cons, hvolt k, h1.railGoal]
    rw [h1.railGoal, Mod.railVolt_railUp]
    by_cases hkr : k = r
    · exact .inr (by rw [if_pos hkr, hkr])
    · rw [if_neg hkr]
      exact hk.imp_left fun h => (List.mem_cons.mp h).resolve_left hkr

/-! ## The release of the fitter -/

/-- The registers that the sequencer writes as it releases the fitter. -/
def releaseReg (a : Nat) : Prop := bPWR ≤ a ∧ a < bPWR + 0x180
/-- What the release does: the boot ROM is to start, SB_SEQ stands in BOOT, and rails show their targets. -/
structure Mod.released (m t : Mod) : Prop where
  frame : ({ m with fit := { phase := .rom }, pwr := { m.pwr with seq := 2 } } : Mod).outward releaseReg t
  seq : t.rdf bPWR 3 0 = 2
  volts : ∀ r, r < 15 → t.railVolt r = m.railVolt r
  targets : ∀ k, k < 4 → t.rdf (bPWR + 0x100 + 8 * k) 47 32 = m.railTarget k
theorem stitchReg.release {a : Nat} (h : stitchReg a) : releaseReg a := by obtain ⟨k, hk, rfl⟩ := h; exact ⟨by omega, by omega⟩
theorem coreRailReg.release {a : Nat} (h : coreRailReg a) : releaseReg a := by obtain ⟨k, hk, rfl⟩ := h; exact ⟨by omega, by omega⟩
theorem Mod.released_release (m : Mod) : m.released m.release := by
  let u0 : Mod := { m with fit := { phase := .rom }, pwr := { m.pwr with seq := 2 } }
  let u1 := (u0.wrf bPWR 3 0 2).wrf bPWR 31 16 m.pwr.input
  let u2 := u1.standbyRail
  have h1 : u0.outward releaseReg u1 :=
    Mod.outward_after (Mod.outward_wrf _ _ _ _ ⟨Nat.le_refl _, by omega⟩) (Mod.outward_wrf _ _ _ _ ⟨Nat.le_refl _, by omega⟩)
  have h2 : u1.outward (· = bPWR + 0x100 + 8 * 15) u2 := Mod.outward_after (Mod.outward_wrf _ _ _ _ rfl) (Mod.outward_wrf _ _ _ _ rfl)
  have h3 := Mod.outward_setTargets u2
  have h4 := Mod.outward_monSource u2.setTargets
  have heq : m.release = u2.setTargets.monSource := rfl
  have htarget (r : Nat) : u2.railTarget r = m.railTarget r := by
    refine Mod.railTarget_congr (m := m) (t := u2) (fun a ha hb => ?_) rfl rfl r
    rw [h2.regs a (by omega)]
    exact (Mod.rd_wrf_ne _ _ _ _ (by omega)).trans (Mod.rd_wrf_ne _ _ _ _ (by omega))
  rw [heq]
  refine ⟨Mod.outward_trans (Mod.outward_trans (Mod.outward_trans h1 (h2.mono fun a ha => ?_)) (h3.mono fun _ => coreRailReg.release))
    (h4.mono fun _ => stitchReg.release), ?_, fun r hr => ?_, fun k hk => ?_⟩
  · subst ha; exact ⟨by omega, by omega⟩
  · rw [h4.rdf (fun ⟨k, _, h⟩ => by omega), h3.rdf (not_coreRailReg_of_lt (by omega)), h2.rdf (by omega)]
    exact (Mod.rdf_wrf_apart _ _ 31 16 _ 3 0 (by decide) (.inl (by decide))).trans (Mod.rdf_wrf_self _ _ 3 0 _ (by decide))
  · have hmon : u2.setTargets.monSource.railVolt r = u2.setTargets.railVolt r := h4.rdf (fun ⟨k, _, h⟩ => by omega) 15 0
    have hset : u2.setTargets.railVolt r = u2.railVolt r := by
      by_cases h : r < 4
      · exact (Mod.rdf_setTargets u2 h).2
      · exact h3.rdf (fun ⟨k, _, h⟩ => by omega) 15 0
    have hstand : u2.railVolt r = m.railVolt r := by
      refine (h2.rdf (by omega) 15 0).trans ?_
      exact (Mod.rdf_wrf_ne _ _ _ _ _ _ (by omega)).trans (Mod.rdf_wrf_ne _ _ _ _ _ _ (by omega))
    rw [hmon, hset, hstand]
  · rw [h4.rdf (fun ⟨j, _, h⟩ => by omega), (Mod.rdf_setTargets u2 hk).1, htarget]

/-! ## Groups of rails -/

theorem rampGroups_lt (g r : Nat) (h : r ∈ rampGroups.getD g []) : r < 15 := by
  by_cases hg : g < 6
  · have hall : ∀ g, g < 6 → ∀ r, r ∈ rampGroups.getD g [] → r < 15 := by decide
    exact hall g hg r h
  · rw [List.getD_eq_default _ _ (by simpa [rampGroups] using hg)] at h
    exact absurd h List.not_mem_nil
/-- The module once the group that ramps is up. -/
def Mod.groupUp (m : Mod) : Mod :=
  let m1 := (rampGroups.getD m.pwr.groups []).foldl Mod.railUp m
  { m1 with pwr := { m1.pwr with groups := m.pwr.groups + 1 } }
theorem Mod.railGroupGood_eq {m : Mod} (h : m.pwr.seq = 1) :
    m.railGroupGood = if m.pwr.groups + 1 < 6 then m.groupUp.ramp (m.pwr.groups + 1) else (m.groupUp.setRail 0).release := if_neg (by simp [h])
theorem Mod.railsUp_group (m : Mod) : m.railsMoved ((rampGroups.getD m.pwr.groups []).foldl Mod.railUp m) ∧
    ∀ r, r ∈ rampGroups.getD m.pwr.groups [] → m.groupUp.railVolt r = m.railGoal r % 2 ^ 16 := by
  obtain ⟨hmoved, hvolt⟩ := Mod.railsUp_moved (rampGroups.getD m.pwr.groups []) m fun r hr => by have := rampGroups_lt _ r hr; omega
  exact ⟨hmoved, fun r hr => hvolt r (.inl hr)⟩
theorem Mod.railGroupGood_volts {m : Mod} (h : m.pwr.seq = 1) {r : Nat} (hr : r ∈ rampGroups.getD m.pwr.groups []) :
    m.railGroupGood.railVolt r = m.railGoal r % 2 ^ 16 := by
  have hlt := rampGroups_lt _ r hr
  rw [← (Mod.railsUp_group m).2 r hr, Mod.railGroupGood_eq h]
  split
  · exact Mod.rdf_wrf_ne _ _ _ _ _ _ (by omega)
  · exact (Mod.released_release (m.groupUp.setRail 0)).volts r hlt
theorem Mod.railGroupGood_ramps {m : Mod} (h : m.pwr.seq = 1) (hg : m.pwr.groups < 5) : m.ramping (m.pwr.groups + 1) m.railGroupGood := by
  rw [Mod.railGroupGood_eq h, if_pos (by omega)]
  exact Mod.ramping_ramp rfl ((Mod.railsUp_group m).1.same (·.nv))
theorem Mod.railGroupGood_releases {m : Mod} (h : m.pwr.seq = 1) (hg : m.pwr.groups = 5) :
    let t := m.railGroupGood
    t.pwr.seq = 2 ∧ t.pwr.groups = 6 ∧ t.pwr.rail = 0 ∧ t.rdf bPWR 3 0 = 2 ∧ t.fit = { phase := .rom } ∧ t.nv = m.nv ∧
      ∀ k, k < 4 → t.rdf (bPWR + 0x100 + 8 * k) 47 32 = m.railTarget k % 2 ^ 16 := by
  have hmoved := (Mod.railsUp_group m).1
  have hr := Mod.released_release (m.groupUp.setRail 0)
  have htar (k : Nat) : (m.groupUp.setRail 0).railTarget k = m.railTarget k := hmoved.railTarget k
  have hgroups : (m.groupUp.setRail 0).pwr.groups = 6 := by show m.pwr.groups + 1 = 6; rw [hg]
  dsimp only
  rw [Mod.railGroupGood_eq h, if_neg (by omega)]
  refine ⟨hr.frame.same (·.pwr.seq), (hr.frame.same (·.pwr.groups)).trans hgroups, hr.frame.same (·.pwr.rail), hr.seq, hr.frame.same (·.fit),
    (hr.frame.same (·.nv)).trans (hmoved.same (·.nv)), fun k hk => ?_⟩
  rw [hr.targets k hk, htar, Nat.mod_eq_of_lt (Mod.railTarget_lt m k)]

/-! ## The module reset -/

/-- A rail keeps its voltage over a module reset, and its target is shown anew. -/
def Mod.keepVolt (v : Nat → Nat) (x : Mod) (r : Nat) : Mod :=
  if r = 15 then x else (x.wrf (bPWR + 0x100 + 8 * r) 47 32 (x.railTarget r)).wrf (bPWR + 0x100 + 8 * r) 15 0 (v r)
theorem Mod.outward_keepVolt (v : Nat → Nat) (x : Mod) {r : Nat} (h : r < 16) : x.outward railReg (x.keepVolt v r) := by
  have hown : railReg (bPWR + 0x100 + 8 * r) := ⟨by omega, by omega⟩
  exact Mod.outward_ite (Mod.outward_refl _ x) (Mod.outward_after (Mod.outward_wrf _ _ _ _ hown) (Mod.outward_wrf x _ _ _ hown))
theorem Mod.railVolt_keepVolt (v : Nat → Nat) (x : Mod) {r k : Nat} (hr : r ≠ 15) :
    (x.keepVolt v r).railVolt k = if k = r then v r % 2 ^ 16 else x.railVolt k := by
  rw [Mod.keepVolt, if_neg hr]
  split
  · next h => rw [h]; exact Mod.rdf_wrf_self _ _ 15 0 _ (by decide)
  · exact (Mod.rdf_wrf_ne _ _ _ _ _ _ (by omega)).trans (Mod.rdf_wrf_ne _ _ _ _ _ _ (by omega))
theorem Mod.keepVolts (v : Nat → Nat) (hv : ∀ k, v k < 2 ^ 16) (rs : List Nat) (x : Mod) (hrs : ∀ r, r ∈ rs → r < 16) :
    x.outward railReg (rs.foldl (Mod.keepVolt v) x) ∧ ∀ k, k < 15 → (k ∈ rs ∨ x.railVolt k = v k) → (rs.foldl (Mod.keepVolt v) x).railVolt k = v k := by
  induction rs generalizing x with
  | nil => exact ⟨Mod.outward_refl _ x, fun k _ h => h.resolve_left List.not_mem_nil⟩
  | cons r rs ih =>
    obtain ⟨hout, hvolt⟩ := ih (x.keepVolt v r) fun k hk => hrs k (List.mem_cons_of_mem r hk)
    refine ⟨Mod.outward_trans (x.outward_keepVolt v (hrs r List.mem_cons_self)) hout, fun k hk hin => hvolt k hk ?_⟩
    by_cases hr : r = 15
    · rw [show x.keepVolt v r = x from if_pos hr]
      exact hin.imp_left fun h => (List.mem_cons.mp h).resolve_left (by omega)
    · rw [Mod.railVolt_keepVolt v x hr]
      by_cases hkr : k = r
      · exact .inr (by rw [if_pos hkr, ← hkr, Nat.mod_eq_of_lt (hv k)])
      · rw [if_neg hkr]
        exact hin.imp_left fun h => (List.mem_cons.mp h).resolve_left hkr
/-- Without a shuttle at work no descriptor of a host ends. -/
theorem Mod.endHostKind_idle {m : Mod} (h : m.shuttles = []) (f : ShtDesc → Bool) : m.endHostKind f = m := by
  have hnone (ss : List Nat) : ss.foldl (fun (m : Mod) s =>
      ((m.sht s).running.filter f).foldl (fun (m : Mod) d => (m.scrambleDst s d).shtEnd s d 0x06) m) m = m := by
    induction ss with
    | nil => rfl
    | cons s ss ih =>
      have hs : (m.sht s).running = [] := by rw [Mod.sht, h]; rfl
      rw [List.foldl_cons, hs]
      exact ih
  exact hnone _
/-- Part of a field that has been written. -/
theorem Mod.rdf_wrf_within (m : Mod) (a v : Nat) {hi lo : Nat} (hi' lo' : Nat) (h : hi' < 64) (h0 : lo' ≤ hi') (h1 : lo ≤ lo') (h2 : hi' ≤ hi) :
    (m.wrf a hi lo v).rdf a hi' lo' = bitsN v (hi' - lo) (lo' - lo) := by
  simp only [Mod.rdf, Mod.wrf, Mod.rd_wr_self]
  exact fld_setFld_within _ _ _ _ _ _ h h0 h1 h2
/-- What stands after a module reset before the fitter is released. -/
def Mod.fresh (m : Mod) : Mod := {
  nv := m.nv, freeCtr := m.freeCtr, nextId := m.nextId
  hosts := Tab.mapV m.hosts fun _ k => { linked := k.linked, gen := k.gen, width := k.width, clock := k.clock, cto := k.cto, out := k.out }
  pwr := { m.pwr with rail := 0, capLim := [], thmLim := [], capLow := 0, thmLow := [], dead := [] } }
theorem Mod.host_fresh (m : Mod) (h : Nat) : (m.fresh.host h).linked = (m.host h).linked ∧ (m.fresh.host h).set = [] := by
  have hh : m.fresh.host h = ((Tab.get? m.hosts h).map fun k =>
      ({ linked := k.linked, gen := k.gen, width := k.width, clock := k.clock, cto := k.cto, out := k.out } : HostPort)).getD {} :=
    Mod.host_mapV m.hosts (fun _ k => { linked := k.linked, gen := k.gen, width := k.width, clock := k.clock, cto := k.cto, out := k.out }) h
  rw [hh, Mod.host, Tab.get]
  cases Tab.get? m.hosts h <;> exact ⟨rfl, rfl⟩
/-- What a module reset leaves. -/
def Mod.reset (m t : Mod) : Prop :=
  t.pwr.seq = 2 ∧ t.pwr.groups = m.pwr.groups ∧ t.rdf bPWR 3 0 = 2 ∧ t.fit = { phase := .rom } ∧ t.nv = m.nv ∧ t.cores = [] ∧ t.parts = [] ∧ t.mem = [] ∧
    t.lnk = {} ∧ t.pat = {} ∧ t.sem = {} ∧ t.coll = [] ∧ (∀ h : HostId, (t.host h.val).linked = (m.host h.val).linked ∧ (t.host h.val).set = []) ∧
    (∀ r, r < 15 → t.railVolt r = m.railVolt r) ∧ t.isHeld = m.fit.job.isSome ∧ (m.fit.job.isSome = true → t.rdf bCFGSTAT 15 8 = 3)
/-- The rails keep their voltages over the reset. -/
theorem Mod.fresh_rails (m : Mod) : ∃ t, t = (upto 16).foldl (Mod.keepVolt m.railVolt) m.fresh ∧ m.fresh.outward railReg t ∧ ∀ r, r < 15 →
    t.railVolt r = m.railVolt r := by
  obtain ⟨hout, hvolt⟩ := Mod.keepVolts m.railVolt m.railVolt_lt (upto 16) m.fresh fun r hr => mem_upto.mp hr
  exact ⟨_, rfl, hout, fun r hr => hvolt r hr (.inl (mem_upto.mpr (by omega)))⟩
/-- A register of the rails, or CFGSTAT. -/
def railOrStat (a : Nat) : Prop := railReg a ∨ a = bCFGSTAT
theorem bCFGSTAT_not_release : ¬ releaseReg bCFGSTAT := fun h => absurd h.1 (by decide)
/-- The module as the reset leaves it before the release: rails as they were, HELD where an apply stood between hold and release. -/
theorem Mod.moduleReset_released {m : Mod} (hp : m.powered = true) : ∃ t, m.moduleReset = t.release ∧ m.fresh.outward railOrStat t ∧
    (∀ r, r < 15 → t.railVolt r = m.railVolt r) ∧ t.isHeld = m.fit.job.isSome ∧ (m.fit.job.isSome = true → t.rdf bCFGSTAT 15 8 = 3) := by
  obtain ⟨t, ht, hout, hvolt⟩ := m.fresh_rails
  have hreset : m.moduleReset = (if m.fit.job.isSome then t.enterHeld 0 3 else t).release := by
    unfold Mod.moduleReset
    rw [if_neg (by simpa [Mod.powered] using hp), ht]
    rfl
  have hcfg : t.rd bCFGSTAT = 0 := (hout.regs _ fun h => absurd h.1 (by decide)).trans (show resetAt (blockRows bCFGSTAT) bCFGSTAT = 0 by decide)
  have hout' : m.fresh.outward railOrStat t := hout.mono fun _ => .inl
  cases hj : m.fit.job.isSome with
  | false => exact ⟨t, by rw [hreset, hj]; rfl, hout', hvolt, by rw [Mod.isHeld, Mod.rdf, hcfg]; rfl, fun h => absurd h Bool.false_ne_true⟩
  | true =>
    have hidle : (t.wrf bCFGSTAT 31 0 (0 % 2 ^ 16 * 2 ^ 16 + 3 * 2 ^ 8 + 2)).shuttles = [] := hout.same (·.shuttles)
    refine ⟨t.wrf bCFGSTAT 31 0 (0 % 2 ^ 16 * 2 ^ 16 + 3 * 2 ^ 8 + 2), ?_, Mod.outward_trans hout' (Mod.outward_wrf t _ _ _ (.inr rfl)), fun r hr => ?_, ?_,
        fun _ => ?_⟩
    · rw [hreset, hj, if_pos rfl, Mod.enterHeld, Mod.endHostKind_idle hidle]
    · exact (Mod.rdf_wrf_ne t _ _ _ _ _ (by simp only [bCFGSTAT, bPWR]; omega)).trans (hvolt r hr)
    · rw [Mod.isHeld, Mod.rdf_wrf_within _ _ _ _ _ (by decide) (by decide) (by decide) (by decide)]; rfl
    · rw [Mod.rdf_wrf_within _ _ _ _ _ (by decide) (by decide) (by decide) (by decide)]; rfl
/-- Of a host only what has been sent to it changes. -/
theorem Mod.outward.host_same {α : Type} {own : Nat → Prop} {m t : Mod} (h : m.outward own t) (d : Nat) (f : HostPort → α)
    (hf : ∀ k o, f { k with out := o } = f k := by intros; rfl) : f (t.host d) = f (m.host d) := by rw [← hf (t.host d) (m.host d).out, h.hosts d]
/-- What changes neither in the reset's frame nor in the release is as the reset leaves it. -/
theorem Mod.released.same {α : Type} {m t u : Mod} {own : Nat → Prop} (hr : t.released u) (h : m.outward own t) (f : Mod → α)
    (hf : ∀ (u : Mod) b q x p, f { u with bar0 := b, hosts := q, fit := x, pwr := p } = f u := by intros; rfl) : f u = f m := by
  have e1 := hr.frame.same f fun u b q => hf u b q u.fit u.pwr
  have e2 := hf t t.bar0 t.hosts { phase := .rom } { t.pwr with seq := 2 }
  have e3 := h.same f fun u b q => hf u b q u.fit u.pwr
  rw [e1, ← e3, ← e2]
theorem Mod.released.host {m t u : Mod} {own : Nat → Prop} (hr : t.released u) (h : m.outward own t) (d : Nat) :
    (u.host d).linked = (m.host d).linked ∧ (u.host d).set = (m.host d).set := by
  have linked1 : (u.host d).linked = (t.host d).linked := hr.frame.host_same d (·.linked)
  have set1 : (u.host d).set = (t.host d).set := hr.frame.host_same d (·.set)
  have linked2 : (t.host d).linked = (m.host d).linked := h.host_same d (·.linked)
  have set2 : (t.host d).set = (m.host d).set := h.host_same d (·.set)
  exact ⟨linked1.trans linked2, set1.trans set2⟩
theorem Mod.moduleReset_shows {m : Mod} (hp : m.powered = true) : m.reset m.moduleReset := by
  obtain ⟨t, heq, hout, hvolt, hheld, hreason⟩ := Mod.moduleReset_released hp
  have hr := Mod.released_release t
  have hstat (hi lo : Nat) : t.release.rdf bCFGSTAT hi lo = t.rdf bCFGSTAT hi lo := hr.frame.rdf bCFGSTAT_not_release hi lo
  have hseq : t.release.pwr.seq = 2 := hr.frame.same (·.pwr.seq)
  have hfit : t.release.fit = { phase := .rom } := hr.frame.same (·.fit)
  have hgroups : t.release.pwr.groups = t.pwr.groups := hr.frame.same (·.pwr.groups)
  have hgroups' : t.pwr.groups = m.pwr.groups := hout.same (·.pwr.groups)
  rw [heq]
  refine ⟨hseq, hgroups.trans hgroups', hr.seq, hfit, hr.same hout (·.nv), hr.same hout (·.cores), hr.same hout (·.parts), hr.same hout (·.mem),
    hr.same hout (·.lnk), hr.same hout (·.pat), hr.same hout (·.sem), hr.same hout (·.coll), fun h => ?_, fun r hr15 => (hr.volts r hr15).trans (hvolt r hr15),
    ?_, fun hj => (hstat 15 8).trans (hreason hj)⟩
  · obtain ⟨hlinked, hset⟩ := hr.host hout h.val
    obtain ⟨hlinked', hset'⟩ := m.host_fresh h.val
    exact ⟨hlinked.trans hlinked', hset.trans hset'⟩
  · rw [Mod.isHeld, hstat]; exact hheld
theorem Mod.moduleReset_off {m : Mod} (h : m.powered = false) : m.moduleReset = m := if_pos (by simpa [Mod.powered] using h)

/-! ## The settlements -/

/-- Settles O54: both ways to a module reset come to the one reset. -/
theorem moduleResets : Obligations.ModuleResets := by
  unfold Obligations.ModuleResets
  intro s
  refine ⟨fun hd hp => ?_, fun hd => ?_, fun hs hp => ?_, fun h => ?_⟩
  · refine completes_edge (f := fun m => m.dueReset) rfl ?_
    rw [show s.m.dueReset = s.m.moduleReset from if_pos hd]
    exact Mod.moduleReset_shows hp
  · exact completes_idle (f := fun m => m.dueReset) rfl (if_neg (by simp [hd]))
  · refine completes_edge (f := fun m => m.sbModrst) rfl ?_
    rw [show s.m.sbModrst = s.m.moduleReset from if_pos hs]
    exact Mod.moduleReset_shows hp
  · refine completes_idle (f := fun m => m.sbModrst) rfl ?_
    obtain hs | hp := h
    · exact if_neg (by simp [hs])
    · unfold Mod.sbModrst
      rw [Mod.moduleReset_off hp, ite_self]
/-- Settles O53, state by state of the sequencer. -/
theorem powerSequence : Obligations.PowerSequence := by
  unfold Obligations.PowerSequence
  intro s
  refine ⟨fun v => ⟨fun hc hv => ?_, fun hc hv hv' => ?_, fun h => ?_, fun hc hv => ?_, fun h => ?_⟩, fun hc hs => ?_, fun h => ?_,
    fun cool he hs hg => ⟨fun h => ?_, fun hc h => ?_, fun h => ?_⟩, fun cool he => ?_, fun he => ?_, fun he hs h4 h5 => ?_, fun he h => ?_,
    fun hq => ⟨fun r hr => ?_, fun hg => ?_, fun hg => ?_⟩, fun hq => ?_,
    fun r => ⟨fun hq hr => ?_, fun h => ?_, fun h => ?_, fun h2 h3 h6 => ?_⟩, fun g raw => ⟨fun hg hv => ?_, fun h => ?_⟩⟩
  · exact completes_edge (f := fun m => m.converterStart v) rfl (Mod.converterStart_beyond hc hv)
  · exact completes_edge (f := fun m => m.converterStart v) rfl (Mod.converterStart_starts hc hv hv')
  · exact completes_idle (f := fun m => m.converterStart v) rfl (if_pos h)
  · exact completes_edge (f := fun m => m.converterStop v) rfl (Mod.converterStop_shows hc hv)
  · exact completes_idle (f := fun m => m.converterStop v) rfl (if_pos (h.imp_left fun h => by simp [h]))
  · exact completes_edge (f := fun m => m.standbyGood) rfl (Mod.standbyGood_shows hc hs)
  · exact completes_idle (f := fun m => m.standbyGood) rfl (if_pos (h.imp_left fun h => by simp [h]))
  · exact completes_edge (f := fun m => m.enableHigh cool) rfl (Mod.enableHigh_ramps he hs hg (.inl h))
  · exact completes_edge (f := fun m => m.enableHigh cool) rfl (Mod.enableHigh_ramps he hs hg (.inr ⟨hc, h⟩))
  · exact completes_edge (f := fun m => m.enableHigh cool) rfl (Mod.enableHigh_refused he h)
  · exact completes_idle (f := fun m => m.enableHigh cool) rfl (if_pos he)
  · exact completes_idle (f := fun m => m.enableLow) rfl (if_pos (by simp [he]))
  · exact completes_edge (f := fun m => m.enableLow) rfl (Mod.enableLow_shows he hs h4 h5)
  · exact completes_edge (f := fun m => m.enableLow) rfl (Mod.enableLow_noted he h)
  · exact completes_edge (f := fun m => m.railGroupGood) rfl (Mod.railGroupGood_volts hq hr)
  · exact completes_edge (f := fun m => m.railGroupGood) rfl (Mod.railGroupGood_ramps hq hg)
  · exact completes_edge (f := fun m => m.railGroupGood) rfl (Mod.railGroupGood_releases hq hg)
  · exact completes_idle (f := fun m => m.railGroupGood) rfl (if_pos hq)
  · refine completes_edge (f := fun m => m.railGoodTimeout r) rfl ?_
    rw [show s.m.railGoodTimeout r = s.m.enterFault r.val from if_neg (by simp only [hq, List.contains_iff_mem.mpr hr]; decide)]
    exact s.m.enterFault_shows r.val
  · exact completes_idle (f := fun m => m.railGoodTimeout r) rfl (if_pos (h.imp_right fun h => by simpa using h))
  · refine completes_edge (f := fun m => m.railFault r) rfl ?_
    rw [show s.m.railFault r = s.m.enterFault r.val from if_pos h]
    exact s.m.enterFault_shows r.val
  · exact completes_idle (f := fun m => m.railFault r) rfl (if_neg (by simp [h2, h3, h6]))
  · exact completes_edge (f := fun m => m.thermalTrip g raw) rfl (Mod.thermalTrip_shows hg hv)
  · exact completes_idle (f := fun m => m.thermalTrip g raw) rfl (if_pos h)

end Sys2Proof.Machine
end

section
/-! The regulators of a spool and its training pairs (R393 to R397, R577). -/

namespace Sys2Proof.Machine

/-! ## Levels of buckets -/

theorem Mod.le_level (m : Mod) (s b : Nat) : -2 ^ 31 ≤ m.level s b := by
  unfold Mod.level; rw [sNat_eq_toInt]; exact BitVec.le_toInt _
theorem Mod.level_lt (m : Mod) (s b : Nat) : m.level s b < 2 ^ 31 := by
  unfold Mod.level; rw [sNat_eq_toInt]; exact BitVec.toInt_lt
theorem sNat_ofInt {v : Int} (h1 : -2 ^ 31 ≤ v) (h2 : v < 2 ^ 31) : sNat 32 ((BitVec.ofInt 32 v).toNat % 2 ^ 32) = v := by
  rw [Nat.mod_eq_of_lt (BitVec.isLt _), sNat_eq_toInt, BitVec.ofNat_toNat, BitVec.setWidth_eq, BitVec.toInt_ofInt]
  exact Int.bmod_eq_of_le (by omega) (by omega)
theorem Mod.level_setLevel_self (m : Mod) (s b : Nat) {v : Int} (h1 : -2 ^ 31 ≤ v) (h2 : v < 2 ^ 31) : (m.setLevel s b v).level s b = v := by
  unfold Mod.setLevel Mod.level
  dsimp only
  split
  · rw [Mod.rdf_wrf_self _ _ 63 32 _ (by decide)]; exact sNat_ofInt h1 h2
  · rw [Mod.rdf_wrf_self _ _ 31 0 _ (by decide)]; exact sNat_ofInt h1 h2
/-- The register that holds the LEVEL of a bucket. -/
def levelReg (s b : Nat) : Nat := if b = 16 then bSPL s + 0x20 else bSPL s + 0x180 + 8 * b
theorem Mod.rd_setLevel_ne (m : Mod) (s b : Nat) (v : Int) {a : Nat} (h : a ≠ levelReg s b) : (m.setLevel s b v).rd a = m.rd a := by
  unfold Mod.setLevel
  dsimp only
  unfold levelReg at h
  split
  · next hb => rw [if_pos hb] at h; exact Mod.rd_wrf_ne m _ _ _ h
  · next hb => rw [if_neg hb] at h; exact Mod.rd_wrf_ne m _ _ _ h
theorem Mod.onlyBar_setLevel (m : Mod) (s b : Nat) (v : Int) : m.onlyBar (m.setLevel s b v) := by
  unfold Mod.setLevel
  dsimp only
  split <;> exact Mod.onlyBar_wrf _ _ _ _ _
theorem Mod.level_setLevel_ne (m : Mod) (s : Nat) (v : Int) {b k : Nat} (hb : b ≤ 16) (hk : k ≤ 16) (h : k ≠ b) :
    (m.setLevel s b v).level s k = m.level s k := by
  unfold Mod.level Mod.rdf
  split
  · rw [Mod.rd_setLevel_ne m s b v (by rw [levelReg, if_neg (by omega)]; omega)]
  · rw [Mod.rd_setLevel_ne m s b v (by unfold levelReg; split <;> omega)]
theorem Mod.bktShare_setLevel (m : Mod) (s : Nat) (v : Int) {b k : Nat} (hb : b ≤ 16) (hk : k ≤ 16) :
    (m.setLevel s b v).bktShare s k = m.bktShare s k := by
  unfold Mod.bktShare
  split
  · by_cases h : b = 16
    · subst h
      exact Mod.rdf_wrf_apart m _ 63 32 _ 5 0 (by decide) (.inl (by decide))
    · simp only [Mod.rdf, Mod.rd_setLevel_ne m s b v (show bSPL s + 0x20 ≠ levelReg s b by rw [levelReg, if_neg h]; omega)]
  · simp only [Mod.rdf, Mod.rd_setLevel_ne m s b v (show bSPL s + 0x100 + 8 * k ≠ levelReg s b by unfold levelReg; split <;> omega)]
theorem Mod.bktDepth_setLevel (m : Mod) (s : Nat) (v : Int) {b k : Nat} (hk : k ≤ 16) : (m.setLevel s b v).bktDepth s k = m.bktDepth s k := by
  unfold Mod.bktDepth
  split
  · rfl
  · simp only [Mod.rdf, Mod.rd_setLevel_ne m s b v (show bSPL s + 0x100 + 8 * k ≠ levelReg s b by unfold levelReg; split <;> omega)]
theorem Mod.bktDepth_le (m : Mod) (s b : Nat) : m.bktDepth s b ≤ 4096 := by
  unfold Mod.bktDepth
  split
  · decide
  · have h := fld_lt (m.rd (bSPL s + 0x100 + 8 * b)) 27 16
    exact h

/-! ## A channel clock -/

/-- The level of a bucket after a channel clock with `r` channels refreshing. -/
def Mod.filled (m : Mod) (s r b : Nat) : Int :=
  if m.hasBucket b = true then min (m.level s b + (((256 - r) * m.bktShare s b : Nat) : Int)) ((m.bktDepth s b * 16000 : Nat) : Int) else m.level s b
/-- A channel clock of one bucket. -/
def Mod.fillBucket (s r : Nat) (m : Mod) (b : Nat) : Mod :=
  if !m.hasBucket b ∨ (m.bktShare s b = 0 ∧ m.level s b = 0) then m
  else m.setLevel s b (min (m.level s b + (((256 - r) * m.bktShare s b : Nat) : Int)) ((m.bktDepth s b * 16000 : Nat) : Int))
theorem Mod.onlyBar_fillBucket (s r : Nat) (m : Mod) (b : Nat) : m.onlyBar (m.fillBucket s r b) := by
  unfold Mod.fillBucket; split
  · exact Mod.onlyBar_refl m
  · exact Mod.onlyBar_setLevel m s b _
theorem Mod.level_fillBucket_self (s r : Nat) (m : Mod) (b : Nat) : (m.fillBucket s r b).level s b = m.filled s r b := by
  have hdepth := m.bktDepth_le s b
  have hlow := m.le_level s b
  unfold Mod.fillBucket Mod.filled
  by_cases hb : m.hasBucket b = true
  · rw [if_pos hb]
    by_cases h0 : m.bktShare s b = 0 ∧ m.level s b = 0
    · obtain ⟨hshare, hlevel⟩ := h0
      rw [if_pos (.inr ⟨hshare, hlevel⟩), hshare, hlevel]
      omega
    · rw [if_neg (by simp [hb, h0])]
      exact Mod.level_setLevel_self m s b (by omega) (by omega)
  · rw [if_neg hb, if_pos (.inl (by simp [hb]))]
/-- What a bucket's fill reads is untouched by the fill of another. -/
theorem Mod.filled_fillBucket_ne (s r : Nat) (m : Mod) {b k : Nat} (hb : b ≤ 16) (hk : k ≤ 16) (h : k ≠ b) :
    (m.fillBucket s r b).filled s r k = m.filled s r k ∧ (m.fillBucket s r b).level s k = m.level s k := by
  have hhas (t : Mod) (ho : m.onlyBar t) : t.hasBucket k = m.hasBucket k := ho.same (·.hasBucket k)
  unfold Mod.fillBucket
  split
  · exact ⟨rfl, rfl⟩
  · refine ⟨?_, Mod.level_setLevel_ne m s _ hb hk h⟩
    unfold Mod.filled
    rw [hhas _ (Mod.onlyBar_setLevel m s b _), Mod.level_setLevel_ne m s _ hb hk h, Mod.bktShare_setLevel m s _ hb hk, Mod.bktDepth_setLevel m s _ hk]
theorem Mod.fillBuckets (s r : Nat) (bs : List Nat) (m : Mod) (hn : bs.Nodup) (hbs : ∀ b, b ∈ bs → b ≤ 16) :
    m.onlyBar (bs.foldl (Mod.fillBucket s r) m) ∧
      ∀ k, k ≤ 16 → (bs.foldl (Mod.fillBucket s r) m).level s k = if k ∈ bs then m.filled s r k else m.level s k := by
  induction bs generalizing m with
  | nil => exact ⟨Mod.onlyBar_refl m, fun k _ => by rw [if_neg List.not_mem_nil]; rfl⟩
  | cons b bs ih =>
    obtain ⟨hnin, hn'⟩ := List.nodup_cons.mp hn
    have hb := hbs b List.mem_cons_self
    obtain ⟨hout, hlevel⟩ := ih (m.fillBucket s r b) hn' fun k hk => hbs k (List.mem_cons_of_mem b hk)
    refine ⟨Mod.onlyBar_trans (Mod.onlyBar_fillBucket s r m b) hout, fun k hk => ?_⟩
    rw [List.foldl_cons, hlevel k hk]
    by_cases hkb : k = b
    · subst hkb
      rw [if_neg hnin, if_pos List.mem_cons_self, Mod.level_fillBucket_self]
    · obtain ⟨hf, hl⟩ := Mod.filled_fillBucket_ne s r m hb hk hkb
      rw [hf, hl]
      simp only [List.mem_cons, hkb, false_or]
/-- Events of a spool's waiting requests count in registers of counters alone. -/
theorem Mod.waitEvents (s : Nat) (rs : List SpoolReq) (m : Mod) :
    let t := rs.foldl (fun (m : Mod) r => if r.spool = s then m.evSpool s 0x06 1 (bktPart r.bucket) else m) m
    m.onlyBar t ∧ ∀ a, a < bMON → t.rd a = m.rd a := by
  induction rs generalizing m with
  | nil => exact ⟨Mod.onlyBar_refl m, fun _ _ => rfl⟩
  | cons r rs ih =>
    obtain ⟨hout, hrd⟩ := ih (if r.spool = s then m.evSpool s 0x06 1 (bktPart r.bucket) else m)
    dsimp only [List.foldl_cons]
    have hstep : m.onlyBar (if r.spool = s then m.evSpool s 0x06 1 (bktPart r.bucket) else m) ∧
        ∀ a, a < bMON → (if r.spool = s then m.evSpool s 0x06 1 (bktPart r.bucket) else m).rd a = m.rd a := by
      split
      · exact ⟨Mod.onlyBar_evSpool m _ _ _ _, fun a ha => Mod.rd_evSpool m _ _ _ a _ ha⟩
      · exact ⟨Mod.onlyBar_refl m, fun _ _ => rfl⟩
    exact ⟨Mod.onlyBar_trans hstep.1 hout, fun a ha => (hrd a ha).trans (hstep.2 a ha)⟩
theorem Mod.level_congr {m t : Mod} (s : SpoolId) {b : Nat} (hb : b ≤ 16) (h : ∀ a, a < bMON → t.rd a = m.rd a) : t.level s.val b = m.level s.val b := by
  have := s.isLt
  unfold Mod.level Mod.rdf
  rw [h _ (by simp only [bSPL, bMON]; omega), h _ (by simp only [bSPL, bMON]; omega)]
theorem Mod.regulatorFill_fills {m : Mod} {s : SpoolId} {r b : Nat} (hr : r ≤ [8, 16, 32].getD (m.rdf (bSPL s.val) 17 16) 32) (hb : b ≤ 16) :
    (m.regulatorFill s r).level s.val b = m.filled s.val r b ∧ (m.regulatorFill s r).spl = m.spl := by
  have heq : m.regulatorFill s r = m.spl.waiting.foldl (fun (m : Mod) r => if r.spool = s.val then m.evSpool s.val 0x06 1 (bktPart r.bucket) else m)
      ((upto 17).foldl (Mod.fillBucket s.val r) m) := by
    unfold Mod.regulatorFill
    rw [if_neg (by omega)]
    rfl
  obtain ⟨hout, hlevel⟩ := Mod.fillBuckets s.val r (upto 17) m List.nodup_range fun b hb => by have := mem_upto.mp hb; omega
  have hin : b ∈ upto 17 := mem_upto.mpr (by omega)
  obtain ⟨hout', hrd⟩ := Mod.waitEvents s.val m.spl.waiting ((upto 17).foldl (Mod.fillBucket s.val r) m)
  rw [heq]
  refine ⟨?_, ?_⟩
  · rw [Mod.level_congr s hb hrd, hlevel b hb, if_pos hin]
  · exact (hout'.same (·.spl)).trans (hout.same (·.spl))

/-! ## Admission -/

theorem Mod.admitBursts_charged {m : Mod} {s b k : Nat} (c : Nat) (h : m.hasTokens s b k = true) :
    m.admitBursts s b k c = some (m.setLevel s b (m.level s b - ((16000 * k : Nat) : Int))) := if_pos h
theorem Mod.admitBursts_borrowed {m : Mod} {s b k c : Nat} (h : m.hasTokens s b k = false) (hb : m.mayBorrow s b = true) (hc : m.chargedWaits s = false)
    (hq : (m.spl.queued.any fun x => x.spool == s && (m.place x.pa).channel == c) = false) :
    m.admitBursts s b k c = some ((m.incBy (bSPL s + 0x40 + 8 * 5) k).evSpool s 0x05 k (bktPart b)) :=
  (if_neg (by simp [h])).trans (if_pos (by rw [hb, hc, hq]; rfl))
theorem Mod.admitBursts_waits {m : Mod} {s b k : Nat} (c : Nat) (h : m.hasTokens s b k = false) (hw : m.mayBorrow s b = false ∨ m.chargedWaits s = true) :
    m.admitBursts s b k c = none :=
  (if_neg (by simp [h])).trans (if_neg (by obtain hw | hw := hw <;> simp [hw]))
section
variable {m : Mod} {v : SpoolId} {k i : Nat} {q : SpoolReq} (hi : splIx m.spl.waiting v.val k = some i) (hq : m.spl.waiting[i]? = some q)
include hi hq
/-- A request that waits and is not admitted waits on. -/
theorem Mod.spoolAdmission_none (h : m.admitBursts v.val q.bucket q.cost (m.place q.pa).channel = none) : m.spoolAdmission v k = m := by
  have hget : m.spl.waiting.getD i {} = q := by rw [List.getD_eq_getElem?_getD, hq]; rfl
  unfold Mod.spoolAdmission
  rw [hi]
  dsimp only
  rw [hget, h]
/-- A request that is admitted, and is no training pair, joins its channel's queue. -/
theorem Mod.spoolAdmission_some (ht : q.train = false) {m1 : Mod} (h : m.admitBursts v.val q.bucket q.cost (m.place q.pa).channel = some m1) :
    m.spoolAdmission v k = { m1 with spl := { m1.spl with waiting := m1.spl.waiting.eraseIdx i, queued := m1.spl.queued ++ [q] } } := by
  have hget : m.spl.waiting.getD i {} = q := by rw [List.getD_eq_getElem?_getD, hq]; rfl
  unfold Mod.spoolAdmission
  rw [hi]
  dsimp only
  rw [hget, h]
  dsimp only
  rw [ht]
  rfl
end
theorem Mod.level_charged {m : Mod} {s b k : Nat} (h : m.hasTokens s b k = true) :
    (m.setLevel s b (m.level s b - ((16000 * k : Nat) : Int))).level s b = m.level s b - ((16000 * k : Nat) : Int) := by
  have hlt := m.level_lt s b
  have hle : ((16000 * k : Nat) : Int) ≤ m.level s b := by
    simp only [Mod.hasTokens, Bool.and_eq_true, decide_eq_true_iff] at h
    exact h.2
  exact Mod.level_setLevel_self m s b (by omega) (by omega)

/-! ## Training pairs -/

/-- The training pair of a channel that still waits. -/
def Mod.pairWaits (m : Mod) (v : SpoolId) (c : BitVec 8) (r : SpoolReq) : Bool := r.train && r.spool == v.val && (m.place r.pa).channel == c.toNat
/-- The module once such a pair has been dropped. -/
def Mod.pairDropped (m : Mod) (v : SpoolId) (c : BitVec 8) : Mod :=
  if m.spl.waiting.any (m.pairWaits v c) then
    ({ m with spl := { m.spl with waiting := m.spl.waiting.filter fun r => !m.pairWaits v c r } } : Mod).inc (bCAL + 0xC0 + 8 * 7)
  else m
/-- A new pair waits where a burst of the channel is free for it. -/
def Mod.pairQueued (m : Mod) (v : SpoolId) (c : BitVec 8) : Mod :=
  match m.trainBurst v.val c.toNat 512 (Tab.get 0 m.spl.trainPos (chKey v.val c.toNat)) with
  | none => m
  | some (pa, b) =>
    { m with spl := { m.spl with
        waiting := m.spl.waiting ++ [{ spool := v.val, pa := pa, bucket := 16, train := true }]
        trainPos := Tab.put m.spl.trainPos (chKey v.val c.toNat) ((b + 1) % 2 ^ 22) } }
theorem Mod.trainingPair_eq (m : Mod) (v : SpoolId) (c : BitVec 8) : m.trainingPair v c = (m.pairDropped v c).pairQueued v c := rfl
theorem Mod.pairQueued_spl (m : Mod) (v : SpoolId) (c : BitVec 8) : ∃ p, m.pairQueued v c = { m with spl := p } := by
  unfold Mod.pairQueued
  split
  · exact ⟨m.spl, rfl⟩
  · exact ⟨_, rfl⟩
theorem Mod.trainingPair_joins {m : Mod} {v : SpoolId} {c : BitVec 8} {pa b : Nat} (hw : m.spl.waiting.any (m.pairWaits v c) = false)
    (hb : m.trainBurst v.val c.toNat 512 (Tab.get 0 m.spl.trainPos (chKey v.val c.toNat)) = some (pa, b)) :
    m.trainingPair v c = { m with spl := { m.spl with
      waiting := m.spl.waiting ++ [{ spool := v.val, pa := pa, bucket := 16, train := true }]
      trainPos := Tab.put m.spl.trainPos (chKey v.val c.toNat) ((b + 1) % 2 ^ 22) } } := by
  rw [Mod.trainingPair_eq, show m.pairDropped v c = m from if_neg (by simp [hw]), Mod.pairQueued, hb]
/-- The pair that waited is dropped and counted. -/
theorem Mod.trainingPair_drops {m : Mod} {v : SpoolId} {c : BitVec 8} (hw : m.spl.waiting.any (m.pairWaits v c) = true) :
    m.tallied (m.trainingPair v c) (bCAL + 0xC0 + 8 * 7) 1 ∧ (m.trainingPair v c).mem = m.mem := by
  obtain ⟨p, hp⟩ := (m.pairDropped v c).pairQueued_spl v c
  have hdrop : m.pairDropped v c = ({ m with spl := { m.spl with waiting := m.spl.waiting.filter fun r => !m.pairWaits v c r } } : Mod).inc (bCAL + 0xC0 + 8 * 7) :=
    if_pos hw
  have hcount := Mod.tallied_inc ({ m with spl := { m.spl with waiting := m.spl.waiting.filter fun r => !m.pairWaits v c r } } : Mod) (bCAL + 0xC0 + 8 * 7)
  rw [Mod.trainingPair_eq, hp, hdrop]
  exact ⟨hcount, rfl⟩
/-- Settles O36: the fill bucket by bucket, admission by what its bucket holds, and the training pair. -/
theorem spoolRegulators : Obligations.SpoolRegulators := by
  unfold Obligations.SpoolRegulators
  intro s v hp
  refine ⟨fun r b hr hb => completes_run rfl hp (Mod.regulatorFill_fills hr hb), fun k i q hi hq ht => ⟨fun htok => ?_, fun htok hb hc hidle => ?_, fun htok hw => ?_⟩,
    fun c pa b => ⟨fun hw hb => ?_, fun hw => ?_⟩⟩
  · refine completes_run (f := fun m => m.spoolAdmission v k) rfl hp ?_
    have ho := Mod.onlyBar_setLevel s.m v.val q.bucket (s.m.level v.val q.bucket - ((16000 * q.cost : Nat) : Int))
    rw [Mod.spoolAdmission_some hi hq ht (Mod.admitBursts_charged _ htok)]
    exact ⟨⟨congrArg (fun p => p.waiting.eraseIdx i) (ho.same (·.spl)), congrArg (fun p => p.queued ++ [q]) (ho.same (·.spl))⟩, Mod.level_charged htok⟩
  · refine completes_run (f := fun m => m.spoolAdmission v k) rfl hp ?_
    have ho := Mod.onlyBar_evSpool (s.m.incBy (bSPL v.val + 0x40 + 8 * 5) q.cost) v.val 0x05 q.cost (bktPart q.bucket)
    have hspl : ((s.m.incBy (bSPL v.val + 0x40 + 8 * 5) q.cost).evSpool v.val 0x05 q.cost (bktPart q.bucket)).spl = s.m.spl := ho.same (·.spl)
    have hrd := Mod.rd_evSpool (s.m.incBy (bSPL v.val + 0x40 + 8 * 5) q.cost) v.val 0x05 q.cost (bSPL v.val + 0x40 + 8 * 5) (bktPart q.bucket)
      (by have := v.isLt; simp only [bSPL, bMON]; omega)
    have hcount := Mod.tallied_incBy s.m (bSPL v.val + 0x40 + 8 * 5) q.cost
    rw [Mod.spoolAdmission_some hi hq ht (Mod.admitBursts_borrowed htok hb hc hidle)]
    refine ⟨⟨congrArg (fun p => p.waiting.eraseIdx i) hspl, congrArg (fun p => p.queued ++ [q]) hspl⟩, ?_⟩
    exact (congrArg (fld · 47 0) hrd).trans hcount
  · refine completes_run (f := fun m => m.spoolAdmission v k) rfl hp ?_
    rw [Mod.spoolAdmission_none hi hq (Mod.admitBursts_waits _ htok hw)]
  · refine completes_run (f := fun m => m.trainingPair v c) rfl hp ?_
    rw [Mod.trainingPair_joins hw hb]
    exact ⟨rfl, by simp [Tab.get, Tab.get?_put], rfl⟩
  · exact completes_run (f := fun m => m.trainingPair v c) rfl hp (Mod.trainingPair_drops hw)

end Sys2Proof.Machine
end

section
/-! The seam endpoint: chunks that arrive, land and pass (R36 to R42, R633, R637). -/

namespace Sys2Proof.Machine

/-! ## Entries of the seam -/

theorem Mod.sx_updSx (m : Mod) (n k : Nat) (f : SemEntry → SemEntry) : (m.updSx n f).sx k = if n = k then f (m.sx n) else m.sx k := Tab.get_put _ _ _ _ _
@[simp] theorem Mod.sx_updSx_self (m : Mod) (n : Nat) (f : SemEntry → SemEntry) : (m.updSx n f).sx n = f (m.sx n) := by rw [Mod.sx_updSx, if_pos rfl]
theorem Mod.sx_updSx_ne (m : Mod) {n k : Nat} (f : SemEntry → SemEntry) (h : k ≠ n) : (m.updSx n f).sx k = m.sx k := by
  rw [Mod.sx_updSx, if_neg (Ne.symm h)]
theorem Mod.onlySem_updSx (m : Mod) (n : Nat) (f : SemEntry → SemEntry) : m.onlySem (m.updSx n f) := rfl
theorem Mod.sxPart_lt (m : Mod) (n : Nat) : m.sxPart n < 16 := fld_lt _ _ _
/-- A chunk that its link has let go of returns no buffer space. -/
theorem Mod.semFree_none (m : Mod) {x : SemIn} (h : x.inMsg = none) : m.semFree x = m := by unfold Mod.semFree; rw [h]
/-- The registers of a sticky bit of an entry: its own, its count's, and the arm bit of a partition. -/
def sxFlagRegs (n i : Nat) (a : Nat) : Prop := a = bSx n + 0x28 ∨ a = bSEM + 0x100 + 8 * i ∨ a < bSEM
theorem Mod.outward_sxFlag (m : Mod) (n b i : Nat) : m.outward (sxFlagRegs n i) (m.sxFlag n b i) := by
  have hp := m.sxPart_lt n
  have hvec := (Mod.outward_prtVector ((m.raise (bSx n + 0x28) b).semCnt i) (m.sxPart n)).mono (all := sxFlagRegs n i) fun a ha =>
    .inr (.inr (by subst ha; simp only [bPRT, bSEM]; omega))
  exact Mod.outward_after hvec (Mod.outward_after (Mod.outward_wrf _ _ _ _ (.inr (.inl rfl))) (Mod.outward_wrf m _ _ _ (.inl rfl)))
/-- A sticky bit stands and its count has gone up. -/
theorem Mod.sxFlag_shows (m : Mod) (n i : Nat) {b : Nat} (hb : b < 64) (hi : i < 32) :
    (m.sxFlag n b i).sxf n 0x28 b b = 1 ∧ m.tallied (m.sxFlag n b i) (bSEM + 0x100 + 8 * i) 1 := by
  have hp := m.sxPart_lt n
  have hvec := Mod.outward_prtVector ((m.raise (bSx n + 0x28) b).semCnt i) (m.sxPart n)
  have hne : bSx n + 0x28 ≠ bSEM + 0x100 + 8 * i := by simp only [bSx]; omega
  constructor
  · refine (hvec.rdf (by simp only [bSx, bPRT, bSEM]; omega) b b).trans ?_
    exact (Mod.rdf_wrf_ne _ _ _ _ _ _ hne).trans (Mod.rdf_raise_self m _ b hb)
  · have hcount := Mod.tallied_inc (m.raise (bSx n + 0x28) b) (bSEM + 0x100 + 8 * i)
    unfold Mod.tallied at hcount ⊢
    rw [Mod.raise, Mod.rdf_wrf_ne m _ _ _ _ _ hne.symm] at hcount
    exact (hvec.rdf (by simp only [bPRT, bSEM]; omega) 47 0).trans hcount
theorem Mod.sem_sxFlag (m : Mod) (n b i : Nat) : (m.sxFlag n b i).sem = m.sem := (m.outward_sxFlag n b i).same (·.sem)

/-! ## Arrival -/

/-- The counters of R38's checks. -/
theorem Mod.chunkFail_lt {m : Mod} {d : List Byte} {j : Nat} (h : m.chunkFail d = some j) : j < 17 := by
  unfold Mod.chunkFail at h
  dsimp only at h
  split_ifs at h <;> cases h <;> decide
/-- A dropped chunk is counted under its check and in DROPPED. -/
theorem Mod.chunkDrop_shows (m : Mod) (n : Nat) {j : Nat} (hj : j < 17) :
    m.tallied (m.chunkDrop n j) (bSEM + 0x100 + 8 * j) 1 ∧ m.tallied (m.chunkDrop n j) (bSEM + 0x100 + 8 * 17) 1 ∧ (m.chunkDrop n j).sxf n 0x28 13 13 = 1 ∧
      (m.chunkDrop n j).sem = m.sem ∧ (m.chunkDrop n j).mem = m.mem ∧ (m.chunkDrop n j).cores = m.cores := by
  have hout := Mod.outward_sxFlag (m.semCnt j) n 13 17
  obtain ⟨hflag, hcount⟩ := Mod.sxFlag_shows (m.semCnt j) n 17 (b := 13) (by decide) (by decide)
  have hfail := Mod.tallied_inc m (bSEM + 0x100 + 8 * j)
  refine ⟨?_, ?_, hflag, hout.same (·.sem), hout.same (·.mem), hout.same (·.cores)⟩
  · unfold Mod.tallied at hfail ⊢
    refine (hout.rdf (fun h => ?_) 47 0).trans hfail
    obtain h | h | h := h
    · simp only [bSx] at h; omega
    · omega
    · omega
  · unfold Mod.tallied at hcount ⊢
    refine hcount.trans ?_
    rw [show (m.semCnt j).rdf (bSEM + 0x100 + 8 * 17) 47 0 = m.rdf (bSEM + 0x100 + 8 * 17) 47 0 from Mod.rdf_wrf_ne m _ _ _ _ _ (by omega)]
/-- The chunk at a STAGE entry that is ACTIVE: its SEQ is at NEXT or above it, and no copy of it has landed. -/
def Mod.stages (m : Mod) (n seq : Nat) : Prop :=
  m.sxState n = 1 ∧ 0 ≤ seqDiff seq (m.sxNext n) ∧ seqDiff seq (m.sxNext n) < 4096 ∧ Tab.get? (m.sx n).slots seq = none
theorem Mod.chunkFirst_active {m : Mod} {n : Nat} (h : m.sxState n = 1) (seq : Nat) : m.chunkFirst n seq = m := by
  unfold Mod.chunkFirst
  rw [if_neg (by rw [h]; exact fun hc => absurd hc.1 (by decide))]
theorem Mod.chunkFate_stages {m : Mod} {n seq : Nat} (h : m.stages n seq) :
    m.chunkFate n seq = if seqUp seq (m.sx n).rel < m.sxSlots n ∧ m.landUp n = true then .land else .wait := by
  obtain ⟨-, hlo, hhi, hslot⟩ := h
  have hdup : m.chunkDup n seq = false := by unfold Mod.chunkDup; rw [hslot]
  have hsecond : m.secondDown n seq = false := by unfold Mod.secondDown; rw [hslot]
  unfold Mod.chunkFate
  dsimp only
  generalize seqDiff seq (m.sxNext n) = diff at hlo hhi ⊢
  rw [hdup, hsecond, if_neg (by simp only [Bool.false_eq_true, or_false]; exact Int.not_lt.mpr hlo), if_neg (Int.not_le.mpr hhi)]
/-- What a chunk meets at its SEQ, at an ACTIVE entry. The step is unfolded as a function: applied to a state, the kernel would compare two matches by evaluating
the 32-bit difference of SEQ and NEXT. -/
theorem Mod.chunkStage_of_fate {m : Mod} {n : Nat} {x : SemIn} {fate : ChunkFate} (h : m.sxState n = 1) (hf : m.chunkFate n (chSeq x.data) = fate) :
    (fate = .land → m.chunkStage n x = (m.updSx n fun e => { e with landing := e.landing ++ [x] }).semFree x) ∧
      (fate = .wait → m.chunkStage n x = m.updSx n fun e => { e with waiting := e.waiting ++ [x] }) := by
  have hfirst := Mod.chunkFirst_active h (chSeq x.data)
  suffices hstep : ∀ step, step = @Mod.chunkStage → (fate = .land → step m n x = (m.updSx n fun e => { e with landing := e.landing ++ [x] }).semFree x) ∧
      (fate = .wait → step m n x = m.updSx n fun e => { e with waiting := e.waiting ++ [x] }) from hstep _ rfl
  intro step hdef
  delta Mod.chunkStage at hdef
  subst hdef
  beta_reduce
  extract_lets m0
  have hm0 : m0 = m := hfirst
  clear_value m0
  subst hm0
  rw [hf]
  constructor <;> rintro rfl <;> rfl
theorem Mod.chunkStage_lands {m : Mod} {n : Nat} {x : SemIn} (hx : x.inMsg = none) (h : m.stages n (chSeq x.data))
    (hr : seqUp (chSeq x.data) (m.sx n).rel < m.sxSlots n) (hup : m.landUp n = true) :
    m.chunkStage n x = m.updSx n fun e => { e with landing := e.landing ++ [x] } := by
  have hfate := Mod.chunkFate_stages h
  rw [if_pos ⟨hr, hup⟩] at hfate
  rw [(Mod.chunkStage_of_fate h.1 hfate).1 rfl]
  exact Mod.semFree_none _ hx
theorem Mod.chunkStage_waits {m : Mod} {n : Nat} {x : SemIn} (h : m.stages n (chSeq x.data))
    (hw : m.sxSlots n ≤ seqUp (chSeq x.data) (m.sx n).rel ∨ m.landUp n = false) :
    m.chunkStage n x = m.updSx n fun e => { e with waiting := e.waiting ++ [x] } := by
  have hnot : ¬ (seqUp (chSeq x.data) (m.sx n).rel < m.sxSlots n ∧ m.landUp n = true) := by
    rintro ⟨hr, hup⟩
    obtain hw | hw := hw
    · omega
    · rw [hw] at hup; exact Bool.false_ne_true hup
  have hfate := Mod.chunkFate_stages h
  rw [if_neg hnot] at hfate
  exact (Mod.chunkStage_of_fate h.1 hfate).2 rfl
/-- A whole chunk that holds no buffer of its link comes. -/
structure Mod.comes (m : Mod) (l : LinkId) (d : List Byte) : Prop where
  free : m.vc1Held l = false
  whole : m.passPart l d = none
  loose : m.takeMsg 1 d = (none, m)
  long : 32 ≤ d.length
section
variable {m : Mod} {l : LinkId} {d : List Byte} (h : m.comes l d)
include h
theorem Mod.chunkArrives_eq : m.chunkArrives l d =
    match m.chunkFail d with
    | some 0 => m.semCnt 0
    | some i => m.chunkDrop (chStream d) i
    | none => if m.sxStage (chStream d) then m.chunkStage (chStream d) { data := d, link := l.val }
        else m.updSx (chStream d) fun e => { e with passing := e.passing ++ [{ data := d, link := l.val }] } := by
  have htake : m.takeChunk l d = ({ data := d, link := l.val }, m) := by
    unfold Mod.takeChunk
    rw [h.whole]
    dsimp only
    rw [h.loose]
  unfold Mod.chunkArrives
  rw [if_neg (by simp [h.free]), htake]
  dsimp only
  rw [if_neg (by have := h.long; omega)]
  rfl
theorem Mod.chunkArrives_lands (hf : m.chunkFail d = none) (hst : m.sxStage (chStream d) = true) (hs : m.stages (chStream d) (chSeq d))
    (hr : seqUp (chSeq d) (m.sx (chStream d)).rel < m.sxSlots (chStream d)) (hup : m.landUp (chStream d) = true) :
    m.chunkArrives l d = m.updSx (chStream d) fun e => { e with landing := e.landing ++ [{ data := d, link := l.val }] } := by
  rw [Mod.chunkArrives_eq h, hf]
  dsimp only
  rw [if_pos hst]
  exact Mod.chunkStage_lands rfl hs hr hup
theorem Mod.chunkArrives_waits (hf : m.chunkFail d = none) (hst : m.sxStage (chStream d) = true) (hs : m.stages (chStream d) (chSeq d))
    (hw : m.sxSlots (chStream d) ≤ seqUp (chSeq d) (m.sx (chStream d)).rel ∨ m.landUp (chStream d) = false) :
    m.chunkArrives l d = m.updSx (chStream d) fun e => { e with waiting := e.waiting ++ [{ data := d, link := l.val }] } := by
  rw [Mod.chunkArrives_eq h, hf]
  dsimp only
  rw [if_pos hst]
  exact Mod.chunkStage_waits hs hw
theorem Mod.chunkArrives_passes (hf : m.chunkFail d = none) (hst : m.sxStage (chStream d) = false) :
    m.chunkArrives l d = m.updSx (chStream d) fun e => { e with passing := e.passing ++ [{ data := d, link := l.val }] } := by
  rw [Mod.chunkArrives_eq h, hf]
  dsimp only
  rw [if_neg (by simp [hst])]
/-- At an entry that is IDLE the chunk is counted alone. -/
theorem Mod.chunkArrives_idle (hf : m.chunkFail d = some 0) : m.chunkArrives l d = m.semCnt 0 := by
  rw [Mod.chunkArrives_eq h, hf]
  rfl
theorem Mod.chunkArrives_drops {j : Nat} (hj : 0 < j) (hf : m.chunkFail d = some j) : m.chunkArrives l d = m.chunkDrop (chStream d) j := by
  rw [Mod.chunkArrives_eq h, hf]
  cases j with
  | zero => exact absurd hj (Nat.lt_irrefl 0)
  | succ j => rfl
end
/-- Each kind of chunk comes by the command of its kind. -/
theorem dataChunk_eq {d : List Byte} (hk : chKind d = 1) (m : Mod) (l : LinkId) : m.dataChunk l d = m.chunkArrives l d := if_pos (.inr (by rw [hk]; decide))
theorem trimChunk_eq {d : List Byte} (hd : 32 ≤ d.length) (hk : chKind d = 2) (m : Mod) (l : LinkId) : m.trimChunk l d = m.chunkArrives l d := if_pos ⟨hd, hk⟩
theorem closeChunk_eq {d : List Byte} (hd : 32 ≤ d.length) (hk : chKind d = 3) (m : Mod) (l : LinkId) : m.closeChunk l d = m.chunkArrives l d := if_pos ⟨hd, hk⟩
/-- The command of its kind brings a chunk. -/
def brings (s : State) (l : LinkId) (d : List Byte) (i : Instr) : Prop :=
  ∀ Q : Mod → Prop, Q { s.m.chunkArrives l d with nv := s.m.nv, pwr := s.m.pwr } → completes i s Q
section
variable {s : State} {d : List Byte} (hp : s.m.powered = true)
include hp
theorem brings_dataChunk (hk : chKind d = 1) (l : LinkId) : brings s l d (.dataChunk l d) := fun Q hq =>
  completes_run (f := fun m => m.dataChunk l d) rfl hp (by rw [dataChunk_eq hk]; exact hq)
theorem brings_trimChunk (hd : 32 ≤ d.length) (hk : chKind d = 2) (l : LinkId) : brings s l d (.trimChunk l d) := fun Q hq =>
  completes_run (f := fun m => m.trimChunk l d) rfl hp (by rw [trimChunk_eq hd hk]; exact hq)
theorem brings_closeChunk (hd : 32 ≤ d.length) (hk : chKind d = 3) (l : LinkId) : brings s l d (.closeChunk l d) := fun Q hq =>
  completes_run (f := fun m => m.closeChunk l d) rfl hp (by rw [closeChunk_eq hd hk]; exact hq)
end
/-- An arrival that changes one entry. -/
theorem brings.entry {s : State} {l : LinkId} {d : List Byte} {i : Instr} (hi : brings s l d i) {n : Nat} {f : SemEntry → SemEntry}
    (heq : s.m.chunkArrives l d = s.m.updSx n f) :
    completes i s fun t => t.sx n = f (s.m.sx n) ∧ (∀ k, k ≠ n → t.sx k = s.m.sx k) ∧ s.m.onlySem t :=
  hi _ (by rw [heq]; exact ⟨s.m.sx_updSx_self n f, fun k hk => s.m.sx_updSx_ne f hk, rfl⟩)
/-- While a chunk waits no chunk of its link is taken. -/
theorem chunks_held {s : State} {l : LinkId} {d : List Byte} (hp : s.m.powered = true) (h : s.m.vc1Held l = true) :
    ∀ i, i ∈ [Instr.dataChunk l d, .trimChunk l d, .closeChunk l d] → completes i s fun t => t = s.m := by
  have harr : s.m.chunkArrives l d = s.m := if_pos h
  have hdata : s.m.dataChunk l d = s.m := by unfold Mod.dataChunk; rw [harr, ite_self]
  have htrim : s.m.trimChunk l d = s.m := by unfold Mod.trimChunk; rw [harr, ite_self]
  have hclose : s.m.closeChunk l d = s.m := by unfold Mod.closeChunk; rw [harr, ite_self]
  intro i hi
  simp only [List.mem_cons, List.not_mem_nil, or_false] at hi
  obtain rfl | rfl | rfl := hi
  · exact completes_run (f := fun m => m.dataChunk l d) rfl hp (by rw [hdata])
  · exact completes_run (f := fun m => m.trimChunk l d) rfl hp (by rw [htrim])
  · exact completes_run (f := fun m => m.closeChunk l d) rfl hp (by rw [hclose])
/-- Settles O23: the three commands run one arrival, whose outcome is the first check's. -/
theorem chunkArrival : Obligations.ChunkArrival := by
  unfold Obligations.ChunkArrival
  intro s l d hp
  refine ⟨chunks_held hp, fun hfree hwhole hloose hlong => ?_⟩
  have hcomes : s.m.comes l d := ⟨hfree, hwhole, hloose, hlong⟩
  refine ⟨fun hk => ?data, fun hk => ?trim, fun hk => ?close⟩
  case' data => have hi := brings_dataChunk hp hk l
  case' trim => have hi := brings_trimChunk hp hlong hk l
  case' close => have hi := brings_closeChunk hp hlong hk l
  all_goals exact ⟨fun hf hst h1 hlo hhi hslot => ⟨fun hr hup => hi.entry (Mod.chunkArrives_lands hcomes hf hst ⟨h1, hlo, hhi, hslot⟩ hr hup),
      fun hw => hi.entry (Mod.chunkArrives_waits hcomes hf hst ⟨h1, hlo, hhi, hslot⟩ hw)⟩,
    fun hf hst => hi.entry (Mod.chunkArrives_passes hcomes hf hst),
    fun hf => hi _ (by rw [Mod.chunkArrives_idle hcomes hf]; exact ⟨Mod.tallied_inc s.m _, rfl⟩),
    fun j hj hf => hi _ (by rw [Mod.chunkArrives_drops hcomes hj hf]; exact s.m.chunkDrop_shows _ (Mod.chunkFail_lt hf))⟩

end Sys2Proof.Machine
end

section
/-! Chunks of the seam land and are passed on (R36, R39 to R42, R637). -/

namespace Sys2Proof.Machine

/-! ## Waiting chunks -/

theorem Mod.waitingAdmit_lands {m : Mod} {n : Nat} {x : SemIn} {rest : List SemIn} (hx : x.inMsg = none) (hw : (m.sx n).waiting = x :: rest)
    (hf : m.chunkFail x.data = none) (h : m.stages n (chSeq x.data)) (hr : seqUp (chSeq x.data) (m.sx n).rel < m.sxSlots n) (hup : m.landUp n = true) :
    ∃ t, m.waitingAdmit n = t ∧ t.sx n = { m.sx n with waiting := rest, landing := (m.sx n).landing ++ [x] } ∧ m.onlySem t := by
  obtain ⟨m1, hm1⟩ : ∃ u, u = m.updSx n fun e => { e with waiting := rest } := ⟨_, rfl⟩
  have hsx : m1.sx n = { m.sx n with waiting := rest } := by rw [hm1]; exact m.sx_updSx_self n _
  have hs : m1.stages n (chSeq x.data) := by
    obtain ⟨hst, hlo, hhi, hslot⟩ := h
    subst hm1
    exact ⟨hst, hlo, hhi, by rw [hsx]; exact hslot⟩
  have hrel : seqUp (chSeq x.data) (m1.sx n).rel < m1.sxSlots n := by rw [hsx]; subst hm1; exact hr
  have hup1 : m1.landUp n = true := by subst hm1; exact hup
  have hland := Mod.chunkStage_lands hx hs hrel hup1
  obtain ⟨t, ht⟩ : ∃ u, u = m1.updSx n fun e => { e with landing := e.landing ++ [x] } := ⟨_, rfl⟩
  have htsx : t.sx n = { m.sx n with waiting := rest, landing := (m.sx n).landing ++ [x] } := by rw [ht, Mod.sx_updSx_self, hsx]
  have honly : m.onlySem t := by rw [ht, hm1]; rfl
  refine ⟨t, ?_, htsx, honly⟩
  rw [← ht] at hland
  have hlen : ¬ (t.sx n).waiting.length = (x :: rest).length := by
    rw [htsx, List.length_cons]
    exact Nat.ne_of_lt (Nat.lt_succ_self _)
  unfold Mod.waitingAdmit
  rw [hw]
  dsimp only
  rw [hf]
  dsimp only
  rw [← hm1, hland]
  exact if_neg hlen

/-! ## Landing -/

/-- Bytes have been written to the bolts of a list of cores. -/
theorem Mod.semLand_bolts (first off : Nat) (bs : List Byte) (is : List Nat) (m : Mod) :
    let t := is.foldl (fun (m : Mod) i => m.updCore (first + i) fun k => k.boltWrite off bs) m
    { t with cores := m.cores } = m ∧ ∀ c a, Memory.byte (t.core c).bolt a =
      if (∃ i, i ∈ is ∧ c = first + i) ∧ off ≤ a ∧ a < off + bs.length then bs.getD (a - off) 0 else Memory.byte (m.core c).bolt a := by
  induction is generalizing m with
  | nil => exact ⟨rfl, fun c a => by rw [if_neg (by rintro ⟨⟨i, hi, -⟩, -⟩; exact List.not_mem_nil hi)]; rfl⟩
  | cons i is ih =>
    obtain ⟨hrest, hbolt⟩ := ih (m.updCore (first + i) fun k => k.boltWrite off bs)
    dsimp only [List.foldl_cons]
    obtain ⟨t, ht⟩ : ∃ u, u = is.foldl (fun (m : Mod) i => m.updCore (first + i) fun k => k.boltWrite off bs)
      (m.updCore (first + i) fun k => k.boltWrite off bs) := ⟨_, rfl⟩
    rw [← ht] at hrest hbolt ⊢
    refine ⟨?_, fun c a => ?_⟩
    · calc ({ t with cores := m.cores } : Mod) = { ({ t with cores := (m.updCore (first + i) fun k => k.boltWrite off bs).cores } : Mod) with cores := m.cores } := rfl
        _ = { m.updCore (first + i) fun k => k.boltWrite off bs with cores := m.cores } := by rw [hrest]
        _ = m := rfl
    · rw [hbolt]
      have hmem : (∃ j, j ∈ i :: is ∧ c = first + j) ↔ c = first + i ∨ ∃ j, j ∈ is ∧ c = first + j := by
        simp only [List.mem_cons, or_and_right, exists_or, exists_eq_left]
      refine Eq.trans ?_ (if_congr (and_congr hmem Iff.rfl) rfl rfl).symm
      by_cases hc : c = first + i
      · rw [hc, Mod.core_updCore_self]
        have hwrite : Memory.byte ((m.core (first + i)).boltWrite off bs).bolt a =
            if off ≤ a ∧ a < off + bs.length then bs.getD (a - off) 0 else Memory.byte (m.core (first + i)).bolt a := Memory.byte_setBytes bs _ _ _
        rw [hwrite]
        by_cases hin : off ≤ a ∧ a < off + bs.length
        · simp only [hin, and_self, and_true, if_true, ite_self, true_or]
        · simp only [hin, and_false, if_false]
      · rw [Mod.core_updCore_ne _ _ hc]
        simp only [hc, false_or]
/-- The bytes of a chunk in a slot of every bolt of an entry's landing group. -/
theorem Mod.semLand_shows (m : Mod) (n : Nat) (d : List Byte) : { m.semLand n d with cores := m.cores } = m ∧
    ∀ c a, Memory.byte ((m.semLand n d).core c).bolt a =
      let off := (m.sxf n 0x18 17 0 + chSeq d % m.sxSlots n * m.sxf n 0x18 31 20) * 16
      let bs := (setStream d n).take (0x30 + 16 * chLen d)
      if m.sxf n 0x14 7 0 ≤ c ∧ c ≤ m.sxf n 0x14 15 8 ∧ off ≤ a ∧ a < off + bs.length then bs.getD (a - off) 0 else Memory.byte (m.core c).bolt a := by
  obtain ⟨hrest, hbolt⟩ := Mod.semLand_bolts (m.sxf n 0x14 7 0) ((m.sxf n 0x18 17 0 + chSeq d % m.sxSlots n * m.sxf n 0x18 31 20) * 16)
    ((setStream d n).take (0x30 + 16 * chLen d)) (upto (m.sxf n 0x14 15 8 + 1 - m.sxf n 0x14 7 0)) m
  refine ⟨hrest, fun c a => (hbolt c a).trans ?_⟩
  have hgroup : (∃ i, i ∈ upto (m.sxf n 0x14 15 8 + 1 - m.sxf n 0x14 7 0) ∧ c = m.sxf n 0x14 7 0 + i) ↔ m.sxf n 0x14 7 0 ≤ c ∧ c ≤ m.sxf n 0x14 15 8 := by
    simp only [mem_upto]
    exact ⟨fun ⟨i, hi, he⟩ => by omega, fun h => ⟨c - m.sxf n 0x14 7 0, by omega, by omega⟩⟩
  exact if_congr ((and_congr hgroup Iff.rfl).trans and_assoc) rfl rfl
theorem Mod.semLand_same {α : Type} (m : Mod) (n : Nat) (d : List Byte) (f : Mod → α) (hf : ∀ (u : Mod) q, f { u with cores := q } = f u := by intros; rfl) :
    f (m.semLand n d) = f m := by rw [← hf (m.semLand n d) m.cores, (m.semLand_shows n d).1]
section
variable {m : Mod} {n : Nat} {x : SemIn} {rest : List SemIn} (hl : (m.sx n).landing = x :: rest) (hst : m.sxState n = 1)
  (hlo : 0 ≤ seqDiff (chSeq x.data) (m.sxNext n)) (hup : m.landUp n = true) (hb : m.heldBack (.entry n) = false)
include hl hst hlo hup hb
/-- The oldest landing chunk of an ACTIVE entry is judged. -/
theorem Mod.chunkLanded_judged : m.chunkLanded n =
    if chLenOk x.data && chOk x.data then (m.updSx n fun e => { e with landing := rest }).landGood n x.data
    else (m.updSx n fun e => { e with landing := rest }).landBad n x.data := by
  unfold Mod.chunkLanded
  rw [hl]
  dsimp only
  rw [if_neg (by rw [hup, hb]; decide), if_neg (by rw [hst]; decide), if_neg (Int.not_lt.mpr hlo)]
theorem Mod.chunkLanded_good (hlen : chLenOk x.data = true) (hok : chOk x.data = true) (hslot : Tab.get? (m.sx n).slots (chSeq x.data) = none)
    (hfailed : (m.sx n).failed = []) :
    let t := m.chunkLanded n
    Tab.get? (t.sx n).slots (chSeq x.data) = some { data := setStream x.data n } ∧ (t.sx n).landing = rest ∧ t.mem = m.mem ∧ t.bar0 = m.bar0 ∧
      ∀ c a, Memory.byte (t.core c).bolt a =
        let off := (m.sxf n 0x18 17 0 + chSeq x.data % m.sxSlots n * m.sxf n 0x18 31 20) * 16
        let bs := (setStream x.data n).take (0x30 + 16 * chLen x.data)
        if m.sxf n 0x14 7 0 ≤ c ∧ c ≤ m.sxf n 0x14 15 8 ∧ off ≤ a ∧ a < off + bs.length then bs.getD (a - off) 0 else Memory.byte (m.core c).bolt a := by
  obtain ⟨m1, hm1⟩ : ∃ u, u = m.updSx n fun e => { e with landing := rest } := ⟨_, rfl⟩
  have hsx : m1.sx n = { m.sx n with landing := rest } := by rw [hm1]; exact m.sx_updSx_self n _
  obtain ⟨-, hbolt⟩ := m1.semLand_shows n x.data
  obtain ⟨m2, hm2⟩ : ∃ u, u = m1.semLand n x.data := ⟨_, rfl⟩
  have hgood : m1.landGood n x.data = m2.updSx n fun e =>
      { e with slots := Tab.put e.slots (chSeq x.data) { data := setStream x.data n }, failed := e.failed.filter (· != chSeq x.data) } := by
    have hnone : Tab.get? (m1.sx n).slots (chSeq x.data) = none := by rw [hsx]; exact hslot
    have hsingle : (m1.sx n).failed.contains (chSeq x.data) = false := by rw [hsx]; show (m.sx n).failed.contains _ = false; rw [hfailed]; rfl
    unfold Mod.landGood
    dsimp only
    rw [hnone]
    dsimp only
    rw [hsingle, ← hm2]
    rfl
  have hland : (m2.sx n).landing = rest := by rw [hm2, Mod.semLand_same m1 n x.data (·.sx n), hsx]
  have hmem : m2.mem = m.mem := by rw [hm2, Mod.semLand_same m1 n x.data (·.mem), hm1]; rfl
  have hbar : m2.bar0 = m.bar0 := by rw [hm2, Mod.semLand_same m1 n x.data (·.bar0), hm1]; rfl
  rw [← hm2] at hbolt
  dsimp only
  rw [Mod.chunkLanded_judged hl hst hlo hup hb, hlen, hok, if_pos (by decide), ← hm1, hgood]
  refine ⟨?_, ?_, hmem, hbar, fun c a => ?_⟩
  · rw [Mod.sx_updSx_self, Tab.get?_put, if_pos rfl]
  · rw [Mod.sx_updSx_self]; exact hland
  · have h := hbolt c a
    rw [hm1] at h
    exact h
theorem Mod.chunkLanded_bad (hlen : chLenOk x.data = true) (hok : chOk x.data = false) (hone : m.sxf n 0x10 31 31 = 0) :
    let t := m.chunkLanded n
    t.sxRaw n = 3 ∧ (t.sx n).slots = (m.sx n).slots ∧ m.tallied t (bSEM + 0x100 + 8 * 3) 1 ∧ t.sxf n 0x28 8 8 = 1 ∧ t.cores = m.cores ∧ t.mem = m.mem := by
  obtain ⟨m1, hm1⟩ : ∃ u, u = m.updSx n fun e => { e with landing := rest } := ⟨_, rfl⟩
  have hsx : m1.sx n = { m.sx n with landing := rest } := by rw [hm1]; exact m.sx_updSx_self n _
  have hbad : m1.landBad n x.data = (((m1.sxFlag n 8 3).sxFlag n 13 17).sxGo n 3).sxFault n := by
    unfold Mod.landBad
    dsimp only
    rw [hlen, if_pos rfl, if_pos (show m1.sxf n 0x10 31 31 = 0 by rw [hm1]; exact hone)]
  obtain ⟨hflag, hcount⟩ := Mod.sxFlag_shows m1 n 3 (b := 8) (by decide) (by decide)
  have ho1 := Mod.outward_sxFlag m1 n 8 3
  obtain ⟨u, hu⟩ : ∃ u, u = m1.sxFlag n 8 3 := ⟨_, rfl⟩
  rw [← hu] at hflag hcount ho1
  have ho2 := Mod.outward_sxFlag u n 13 17
  have hp := u.sxPart_lt n
  have hkeep : (u.sxFlag n 13 17).sxf n 0x28 8 8 = 1 := by
    have hvec := Mod.outward_prtVector ((u.raise (bSx n + 0x28) 13).semCnt 17) (u.sxPart n)
    refine (hvec.rdf (by simp only [bSx, bPRT, bSEM]; omega) 8 8).trans ?_
    refine (Mod.rdf_wrf_ne _ _ _ _ _ _ (by simp only [bSx]; omega)).trans ?_
    exact (Mod.rdf_raise_apart u _ 13 8 (by decide) (by decide)).trans hflag
  have hcnt : (u.sxFlag n 13 17).rdf (bSEM + 0x100 + 8 * 3) 47 0 = u.rdf (bSEM + 0x100 + 8 * 3) 47 0 := ho2.rdf (fun h => by
    obtain h | h | h := h
    · simp only [bSx] at h; omega
    · omega
    · omega) 47 0
  obtain ⟨v, hv⟩ : ∃ v, v = u.sxFlag n 13 17 := ⟨_, rfl⟩
  rw [← hv] at hkeep hcnt ho2
  have hcores : v.cores = m.cores := (ho2.same (·.cores)).trans ((ho1.same (·.cores)).trans (by rw [hm1]; rfl))
  have hmem : v.mem = m.mem := (ho2.same (·.mem)).trans ((ho1.same (·.mem)).trans (by rw [hm1]; rfl))
  have hslots : (v.sx n).slots = (m.sx n).slots := by
    have h1 : v.sx n = u.sx n := ho2.same (·.sx n)
    have h2 : u.sx n = m1.sx n := ho1.same (·.sx n)
    rw [h1, h2, hsx]
  have hfire {α : Type} (f : Mod → α) (hf : ∀ (w : Mod) q, f { w with pat := q } = f w) : f ((v.sxGo n 3).sxFault n) = f (v.sxGo n 3) := by
    unfold Mod.sxFault Mod.sxFire Mod.fire
    split
    · rfl
    · exact hf _ _
  dsimp only
  rw [Mod.chunkLanded_judged hl hst hlo hup hb, hlen, hok, if_neg (by decide), ← hm1, hbad, ← hu, ← hv]
  refine ⟨?_, ?_, ?_, ?_, ?_, ?_⟩
  · exact (hfire (·.sxRaw n) fun _ _ => rfl).trans (Mod.rdf_wrf_self v _ 2 0 3 (by decide))
  · exact (congrArg SemEntry.slots (hfire (·.sx n) fun _ _ => rfl)).trans hslots
  · unfold Mod.tallied at hcount ⊢
    rw [hfire (·.rdf (bSEM + 0x100 + 8 * 3) 47 0) fun _ _ => rfl]
    refine (Mod.rdf_wrf_ne v _ _ _ _ _ (by simp only [bSx]; omega)).trans ?_
    rw [hcnt, hcount, hm1]
    rfl
  · exact (hfire (·.sxf n 0x28 8 8) fun _ _ => rfl).trans ((Mod.rdf_wrf_apart v _ 2 0 3 8 8 (by decide) (.inr (by decide))).trans hkeep)
  · exact (hfire (·.cores) fun _ _ => rfl).trans hcores
  · exact (hfire (·.mem) fun _ _ => rfl).trans hmem
end

/-! ## PASS entries -/

/-- The copy of a chunk for destination `k` of an entry. -/
def Mod.semCopy (m : Mod) (n : Nat) (d : List Byte) (cut : Option (Nat × Nat)) (k : Nat) : Mod :=
  match m.semDest n k with
  | none => m
  | some dest => if 64 ≤ m.semDepth n k ∨ (k = 1 ∧ m.firstLp2 dest) then m.sxFlag n (10 + k) 13 else m.semSendTo n k dest d cut
theorem Mod.semCopies_eq (m : Mod) (n : Nat) (d : List Byte) (cut : Option (Nat × Nat)) :
    m.semCopies n d cut = (m.semCopy n d cut 0).semCopy n d cut 1 := rfl
theorem Mod.semCopy_none {m : Mod} {n k : Nat} {d : List Byte} {cut : Option (Nat × Nat)} (h : m.semDest n k = none) : m.semCopy n d cut k = m := by
  unfold Mod.semCopy; rw [h]
theorem Mod.semCopy_sends {m : Mod} {n k dest : Nat} {d : List Byte} {cut : Option (Nat × Nat)} (h : m.semDest n k = some dest) (hd : m.semDepth n k < 64)
    (hk : k ≠ 1) : m.semCopy n d cut k = m.semSendTo n k dest d cut := by
  unfold Mod.semCopy
  rw [h]
  exact if_neg (by rintro (h | ⟨h, -⟩) <;> omega)
theorem Mod.passForward_sends {m : Mod} {n dest g dl : Nat} {x : SemIn} {rest : List SemIn} (hw : m.oneWay n dest g dl) (hp : (m.sx n).passing = x :: rest) :
    m.passForward n = (m.updSx n fun e => { e with passing := rest, passed := e.passed ++ [x] }).enqueue g
      { msg := { dest := dest, src := m.dev, vc := 1, data := setStream x.data (m.sxf n 0x00 11 0) }, dl := dl, seam := some (n, 0), more := x.cut.isSome, cut := x.cut } := by
  obtain ⟨h0, h1, hdepth, htopo, hdev, hself, hroute, hlinks⟩ := hw
  have hroute' : m.semRoute dest = some (g, dl) := by
    unfold Mod.semRoute
    rw [if_neg (by simp [htopo, hdev, hself]), hroute]
    dsimp only
    rw [hlinks]
    rfl
  have hvalid : ([0, 1].filter fun k => (m.semDest n k).isSome) = [0] := by simp [h0, h1]
  have hfull : m.semFull n = false := by
    unfold Mod.semFull
    rw [hvalid]
    simp [hdepth]
  have hcuts : m.passCuts n = true := by
    unfold Mod.passCuts
    simp [h0, h1, hroute']
  obtain ⟨m1, hm1⟩ : ∃ u, u = m.updSx n fun e => { e with passing := rest, passed := e.passed ++ [x] } := ⟨_, rfl⟩
  have hd0 : m1.semDest n 0 = some dest := by rw [hm1]; exact h0
  have hdepth1 : m1.semDepth n 0 < 64 := by rw [hm1]; exact hdepth
  have hroute1 : m1.semRoute dest = some (g, dl) := by rw [hm1]; exact hroute'
  have hsend (d : List Byte) (cut : Option (Nat × Nat)) : m1.semCopies n d cut =
      m1.enqueue g { msg := { dest := dest, src := m.dev, vc := 1, data := d }, dl := dl, seam := some (n, 0), more := cut.isSome, cut := cut } := by
    have hto : m1.semSendTo n 0 dest d cut =
        m1.enqueue g { msg := { dest := dest, src := m.dev, vc := 1, data := d }, dl := dl, seam := some (n, 0), more := cut.isSome, cut := cut } := by
      unfold Mod.semSendTo
      rw [hroute1, hm1]
      rfl
    have hd1 : (m1.semSendTo n 0 dest d cut).semDest n 1 = none := by rw [hto, hm1]; exact h1
    rw [Mod.semCopies_eq, Mod.semCopy_sends hd0 hdepth1 (by decide), Mod.semCopy_none hd1, hto]
  unfold Mod.passForward
  rw [hp]
  dsimp only
  rw [if_neg (by simp [hfull, hcuts]), ← hm1, hsend, hm1]
  rfl
theorem Mod.outQueue_enqueue (m : Mod) (g : Nat) (x : OutMsg) : (m.enqueue g x).outQueue g = m.outQueue g ++ [x] := by
  show Tab.get [] (Tab.upd [] m.lnk.groups g (· ++ [x])) g = _
  rw [Tab.get_upd, if_pos rfl]
  rfl
theorem Mod.passLastByte_judged {m : Mod} {n : Nat} {x : SemIn} {rest : List SemIn} (hx : x.inMsg = none) (hp : (m.sx n).passed = x :: rest)
    (hmore : x.more = false) (hlen : chLenOk x.data = true) : m.passLastByte n =
      if chOk x.data then m.updSx n fun e => { e with passed := rest } else (m.updSx n fun e => { e with passed := rest }).semCnt 15 := by
  unfold Mod.passLastByte
  rw [hp]
  dsimp only
  rw [hmore, if_neg Bool.false_ne_true, Mod.semFree_none _ hx, hlen]
  cases chOk x.data <;> rfl
/-- Settles O24, place by place: waiting, landing, passing, passed. -/
theorem chunkLandingAndPass : Obligations.ChunkLandingAndPass := by
  unfold Obligations.ChunkLandingAndPass
  intro s n x rest hp hx
  refine ⟨fun hw hf hst hlo hhi hslot hr hup => ?_, fun hl hst hlo hup hb => ⟨fun hlen hok hslot hfailed => ?_, fun hlen hok hone => ?_⟩,
    fun dest g dl hpass hway => ?_, fun hpass hmore hlen => ?_⟩
  · obtain ⟨t, ht, hsx, honly⟩ := Mod.waitingAdmit_lands hx hw hf ⟨hst, hlo, hhi, hslot⟩ hr hup
    refine completes_run (f := fun m => m.waitingAdmit n.val) rfl hp ?_
    rw [ht]
    exact ⟨hsx, by unfold Mod.onlySem at honly ⊢; rw [← honly]⟩
  · exact completes_run (f := fun m => m.chunkLanded n.val) rfl hp (Mod.chunkLanded_good hl hst hlo hup hb hlen hok hslot hfailed)
  · exact completes_run (f := fun m => m.chunkLanded n.val) rfl hp (Mod.chunkLanded_bad hl hst hlo hup hb hlen hok hone)
  · refine completes_run (f := fun m => m.passForward n.val) rfl hp ?_
    rw [Mod.passForward_sends hway hpass]
    exact ⟨s.m.sx_updSx_self n fun e => { e with passing := rest, passed := e.passed ++ [x] }, rfl, Mod.outQueue_enqueue _ g _⟩
  · refine completes_run (f := fun m => m.passLastByte n.val) rfl hp ?_
    rw [Mod.passLastByte_judged hx hpass hmore hlen]
    have hsx := s.m.sx_updSx_self n fun e => { e with passed := rest }
    cases chOk x.data with
    | true => exact ⟨hsx, fun _ => rfl, fun h => absurd h.symm (by decide)⟩
    | false => exact ⟨hsx, fun h => absurd h (by decide), fun _ => Mod.tallied_inc (s.m.updSx n fun e => { e with passed := rest }) _⟩

end Sys2Proof.Machine
end

section
/-! Mailboxes: a command in its turn is executed and answered (R529 to R536, R565, R587, R623, R631). -/

namespace Sys2Proof.Machine

/-! ## Responses -/

theorem fld_two {n : Nat} (w : BitVec n) : fld w 1 0 = fld w 0 0 + 2 * fld w 1 1 := by
  simp only [fld, bitsN, Nat.shiftRight_zero, Nat.shiftRight_one]
  omega
/-- The status of a response lies in its bytes 12 and 13. -/
theorem respBytes_status (seq code ver part status : Nat) (pay : List Byte) :
    ofLe (((respBytes seq code ver part status pay).drop 12).take 2) = status % 2 ^ 16 := by
  have h (a b c d : List Byte) (body : List Byte) (ha : a.length = 4) (hb : b.length = 4) (hc : c.length = 4) (hd : d.length = 4) :
      ((a ++ b ++ c ++ d ++ body).drop 12).take 2 = d.take 2 := by
    have hlen : (a ++ b ++ c).length = 12 := by simp [ha, hb, hc]
    rw [List.append_assoc (a ++ b ++ c), ← hlen, List.drop_left, List.take_append_of_le_length (by omega)]
  unfold respBytes
  dsimp only
  rw [h _ _ _ _ _ (toLe_length _ _) (toLe_length _ _) (toLe_length _ _) (toLe_length _ _)]
  simp only [toLe, List.take_succ_cons, List.take_zero, ofLe, BitVec.toNat_ofNat]
  omega
theorem Mod.answered_within {m t : Mod} {c : Cmd} {st : Nat} {pay : List Byte} (h : m.answered t c st pay) (v : NonVol) (p : Power) :
    m.answered { t with nv := v, pwr := p } c st pay := h
/-- What writing a response leaves: the port's own registers and buffer alone change. -/
theorem Mod.responded_writeResp (m : Mod) (h : Nat) (r : List Byte) (hq : m.fit.queue = []) :
    m.responded (m.writeResp h r) h r ∧ (∀ hi lo, hi < 64 → 1 < lo → (m.writeResp h r).rdf (bMBX h + 8) hi lo = m.rdf (bMBX h + 8) hi lo) ∧
      ((m.writeResp h r).host h).stored = (m.host h).stored ∧ (ofLe ((r.drop 12).take 2) ≠ 0 → m.tallied (m.writeResp h r) (bMBX h + 0x48) 1) := by
  obtain ⟨m1, hm1⟩ : ∃ u, u = m.updHost h fun k => { k with resp := Memory.setBytes k.resp 0 r } := ⟨_, rfl⟩
  obtain ⟨m2, hm2⟩ : ∃ u, u = ((m1.wrf (bMBX h + 8) 1 1 0).raise (bMBX h + 8) 0).inc (bMBX h + 0x40) := ⟨_, rfl⟩
  obtain ⟨m3, hm3⟩ : ∃ u, u = if ofLe ((r.drop 12).take 2) = 0 then m2 else m2.inc (bMBX h + 0x48) := ⟨_, rfl⟩
  have heq : m.writeResp h r = m3.toHost h (.msix 0) := by rw [hm3, hm2, hm1]; rfl
  have h8 (hi lo : Nat) : m3.rdf (bMBX h + 8) hi lo = ((m1.wrf (bMBX h + 8) 1 1 0).raise (bMBX h + 8) 0).rdf (bMBX h + 8) hi lo := by
    have h2 : m2.rdf (bMBX h + 8) hi lo = ((m1.wrf (bMBX h + 8) 1 1 0).raise (bMBX h + 8) 0).rdf (bMBX h + 8) hi lo := by
      rw [hm2]; exact Mod.rdf_wrf_ne _ _ _ _ _ _ (by omega)
    rw [hm3, ← h2]
    split
    · rfl
    · exact Mod.rdf_wrf_ne _ _ _ _ _ _ (by omega)
  have h40 : m3.rdf (bMBX h + 0x40) 47 0 = m2.rdf (bMBX h + 0x40) 47 0 := by
    rw [hm3]
    split
    · rfl
    · exact Mod.rdf_wrf_ne _ _ _ _ _ _ (by omega)
  have hfar (a : Nat) (h1 : a ≠ bMBX h + 8) (h2 : a ≠ bMBX h + 0x40) : m2.rd a = m.rd a := by
    rw [hm2, hm1]
    exact (Mod.rd_wrf_ne _ _ _ _ h2).trans ((Mod.rd_wrf_ne _ _ _ _ h1).trans (Mod.rd_wrf_ne _ _ _ _ h1))
  have hbar (hosts : Tab HostPort) : m3 = { m with bar0 := m3.bar0, hosts := m3.hosts } := by
    rw [hm3, hm2, hm1]; split <;> rfl
  have hhosts : m3.hosts = m1.hosts := by rw [hm3, hm2]; split <;> rfl
  have hhost (o : Nat) : (m3.toHost h (.msix 0)).host o =
      if h = o then { m.host h with resp := Memory.setBytes (m.host h).resp 0 r, out := (m.host h).out ++ [.msix 0] } else m.host o := by
    have hh : m3.host o = m1.host o := Mod.host_congr hhosts o
    have hself : m3.host h = m1.host h := Mod.host_congr hhosts h
    rw [Mod.toHost, Mod.host_updHost, hh, hself, hm1, Mod.host_updHost, Mod.host_updHost, if_pos rfl]
    split <;> rfl
  have hone : m3.rdf (bMBX h + 8) 1 0 = 1 := by
    have hbits := fld_two (m3.rd (bMBX h + 8))
    have h0 : fld (m3.rd (bMBX h + 8)) 0 0 = 1 := (h8 0 0).trans (Mod.rdf_raise_self _ _ 0 (by decide))
    have h1 : fld (m3.rd (bMBX h + 8)) 1 1 = 0 :=
      (h8 1 1).trans ((Mod.rdf_raise_apart _ _ 0 1 (by decide) (by decide)).trans (Mod.rdf_wrf_self _ _ 1 1 0 (by decide)))
    rw [Mod.rdf, hbits, h0, h1]
  rw [heq]
  refine ⟨⟨fun i hi => ?_, hone, ?_, ?_, fun o ho => ?_, fun a h1 h2 h3 => ?_, ?_, ?_⟩, fun hi lo hhi hlo => ?_, ?_, fun hst => ?_⟩
  · rw [hhost, if_pos rfl]
    show Memory.byte (Memory.setBytes (m.host h).resp 0 r) i = _
    rw [Memory.byte_setBytes, if_pos ⟨Nat.zero_le i, by omega⟩, Nat.sub_zero]
  · refine h40.trans ?_
    have hcount := Mod.tallied_inc ((m1.wrf (bMBX h + 8) 1 1 0).raise (bMBX h + 8) 0) (bMBX h + 0x40)
    have hwas : ((m1.wrf (bMBX h + 8) 1 1 0).raise (bMBX h + 8) 0).rdf (bMBX h + 0x40) 47 0 = m.rdf (bMBX h + 0x40) 47 0 := by
      rw [hm1]
      exact (Mod.rdf_wrf_ne _ _ _ _ _ _ (by omega)).trans (Mod.rdf_wrf_ne _ _ _ _ _ _ (by omega))
    rw [hm2]
    unfold Mod.tallied at hcount
    rw [hcount, hwas]
  · rw [hhost, if_pos rfl]
  · rw [hhost, if_neg (Ne.symm ho)]
  · have hrd : m3.rd a = m2.rd a := by
      rw [hm3]
      split
      · rfl
      · exact Mod.rd_wrf_ne _ _ _ _ h3
    exact hrd.trans (hfar a h1 h2)
  · have hfit : (m3.toHost h (.msix 0)).fit = m.fit := by rw [hbar m.hosts]; rfl
    rw [hfit, ← hq]
  · rw [hbar m.hosts]; rfl
  · exact (h8 hi lo).trans ((Mod.rdf_wrf_apart _ _ 0 0 1 hi lo hhi (.inr (by omega))).trans
      ((Mod.rdf_wrf_apart _ _ 1 1 0 hi lo hhi (.inr hlo)).trans (by rw [hm1]; rfl)))
  · rw [hhost, if_pos rfl]
  · have hcount := Mod.tallied_inc m2 (bMBX h + 0x48)
    have hwas : m2.rdf (bMBX h + 0x48) 47 0 = m.rdf (bMBX h + 0x48) 47 0 := by simp only [Mod.rdf, hfar _ (show bMBX h + 0x48 ≠ bMBX h + 8 by omega) (by omega)]
    unfold Mod.tallied at hcount ⊢
    rw [← hwas, ← hcount, hm3, if_neg hst]
    rfl
/-- An executed command's answer, from the state that the command left. -/
theorem Mod.answered_answerCmd (m : Mod) (c : Cmd) (st : Nat) (pay : List Byte) :
    m.answered (({ m with fit := { m.fit with queue := [] } } : Mod).answerCmd c st pay) c st pay := by
  obtain ⟨m0, hm0⟩ : ∃ u : Mod, u = { m with fit := { m.fit with queue := [] } } := ⟨_, rfl⟩
  obtain ⟨r, hr⟩ : ∃ r, r = respBytes c.seq c.code c.ver c.part st pay := ⟨_, rfl⟩
  obtain ⟨m1, hm1⟩ : ∃ u, u = (m0.wrf (bMBX c.port + 8) 47 32 (m0.rdf (bMBX c.port + 8) 47 32 + 1)).updHost c.port fun k => { k with stored := some r } := ⟨_, rfl⟩
  have hq : m1.fit.queue = [] := by rw [hm1, hm0]; rfl
  obtain ⟨⟨hbytes, hdone, hcount, hout, hothers, hregs, hfit, hrest⟩, hseq, hstored, herr⟩ := Mod.responded_writeResp m1 c.port r hq
  have heq : m0.answerCmd c st pay = m1.writeResp c.port r := by rw [hm1, hr]; rfl
  have hmh (o : Nat) : m1.host o = if c.port = o then { m.host c.port with stored := some r } else m.host o := by
    rw [hm1, Mod.host_updHost, hm0]; rfl
  have hrd (a : Nat) (ha : a ≠ bMBX c.port + 8) : m1.rd a = m.rd a := by rw [hm1, hm0]; exact Mod.rd_wrf_ne _ _ _ _ ha
  have hrdf (a hi lo : Nat) (ha : a ≠ bMBX c.port + 8) : m1.rdf a hi lo = m.rdf a hi lo := by simp only [Mod.rdf, hrd a ha]
  rw [← hm0, heq]
  unfold Mod.answered
  rw [← hr]
  refine ⟨⟨hbytes, hdone, ?_, ?_, fun o ho => ?_, fun a h1 h2 h3 => ?_, ?_, ?_⟩, ?_, ?_, fun hst => ?_⟩
  · unfold Mod.tallied at hcount ⊢
    rw [hcount, hrdf _ _ _ (by omega)]
  · rw [hout, hmh, if_pos rfl]
  · rw [hothers o ho, hmh, if_neg (Ne.symm ho)]
  · rw [hregs a h1 h2 h3, hrd a h1]
  · rw [hfit, hm1, hm0]; rfl
  · have hback : ({ m1 with hosts := m.hosts, bar0 := m.bar0, fit := m.fit } : Mod) = m := by rw [hm1, hm0]; rfl
    calc _ = { ({ m1.writeResp c.port r with hosts := m1.hosts, bar0 := m1.bar0, fit := m1.fit, nv := m1.nv, pwr := m1.pwr } : Mod) with
                hosts := m.hosts, bar0 := m.bar0, fit := m.fit, nv := m.nv, pwr := m.pwr } := rfl
      _ = { m1 with hosts := m.hosts, bar0 := m.bar0, fit := m.fit, nv := m.nv, pwr := m.pwr } := by rw [hrest]
      _ = { ({ m1 with hosts := m.hosts, bar0 := m.bar0, fit := m.fit } : Mod) with nv := m.nv, pwr := m.pwr } := rfl
      _ = m := by rw [hback]
  · rw [hstored, hmh, if_pos rfl]
  · rw [hseq 47 32 (by decide) (by decide), hm1, hm0]
    exact Mod.rdf_wrf_self _ _ 47 32 _ (by decide)
  · have h := herr (by rw [hr, respBytes_status]; exact hst)
    unfold Mod.tallied at h ⊢
    rw [h, hrdf _ _ _ (by omega)]
/-- The version in force and what else lies below EXPSEQ is not an answer's to change. -/
theorem Mod.rdf_answerCmd (m : Mod) (c : Cmd) (st : Nat) (pay : List Byte) (hq : m.fit.queue = []) {hi lo : Nat} (hhi : hi < 32) (hlo : 1 < lo) :
    (m.answerCmd c st pay).rdf (bMBX c.port + 8) hi lo = m.rdf (bMBX c.port + 8) hi lo := by
  obtain ⟨-, hkeep, -, -⟩ := Mod.responded_writeResp ((m.wrf (bMBX c.port + 8) 47 32 (m.rdf (bMBX c.port + 8) 47 32 + 1)).updHost c.port fun k =>
    { k with stored := some (respBytes c.seq c.code c.ver c.part st pay) }) c.port (respBytes c.seq c.code c.ver c.part st pay) hq
  exact (hkeep hi lo (by omega) hlo).trans (Mod.rdf_wrf_apart m _ 47 32 _ hi lo (by omega) (.inl hhi))

/-! ## A command in its turn -/

theorem Mod.doeAll_idle {m : Mod} (h : m.fit.queue = []) : m.doeAll = m := by
  unfold Mod.doeAll
  rw [h]
  show m.doePump 1 = m
  unfold Mod.doePump
  rw [h]
theorem Mod.queue_answerCmd (m : Mod) (c : Cmd) (st : Nat) (pay : List Byte) (h : m.fit.queue = []) : (m.answerCmd c st pay).fit.queue = [] := by
  have hq := (Mod.responded_writeResp ((m.wrf (bMBX c.port + 8) 47 32 (m.rdf (bMBX c.port + 8) 47 32 + 1)).updHost c.port fun k =>
    { k with stored := some (respBytes c.seq c.code c.ver c.part st pay) }) c.port (respBytes c.seq c.code c.ver c.part st pay) h).1
  obtain ⟨-, -, -, -, -, -, hfit, -⟩ := hq
  exact congrArg Fitter.queue hfit
/-- The code of a request is its first byte. -/
theorem Mod.readCmd_code (m : Mod) (h seq : Nat) (d : List Byte) : (m.readCmd h seq d).1.code = (d.headD 0).toNat := by
  have hcode : ofLe ((d.drop 0).take 4) % 256 = (d.headD 0).toNat := by
    cases d with
    | nil => rfl
    | cons b bs =>
      have := b.isLt
      simp only [List.drop_zero, List.take_succ_cons, ofLe, List.headD_cons]
      omega
  rw [← hcode]
  unfold Mod.readCmd
  dsimp only
  split
  · rfl
  · split_ifs <;> rfl
section
variable {m : Mod} {c : Cmd} {d : List Byte} {mine : Nat → Bool} {form : Cmd → Bool} {f : Cmd → Mod → Reply} (h : m.asked c d) (hm : mine c.code = true)
include h hm
/-- The command at the head of the queue is this one. -/
theorem Mod.mbxServe_asked : m.mbxServe mine form f =
    if !form c then (m.taken.answerCmd c 0x0006 []).doeAll
    else match f c m.taken with
      | .now st pay m1 => (({ m1 with fit := { m1.fit with queue := [] } } : Mod).answerCmd c st pay).doeAll
      | .later m1 => m1 := by
  obtain ⟨hport, hpow, hserves, hqueue, hseq, hread, hissue⟩ := h
  have hcode : (d.headD 0).toNat = c.code := by rw [← m.readCmd_code c.port c.seq d, hread]
  unfold Mod.mbxServe
  rw [hqueue]
  dsimp only
  rw [if_neg (by rw [hserves, hcode, hm]; decide)]
  have hread' : ({ m with fit := { m.fit with queue := [] } } : Mod).readCmd c.port c.seq d = (c, none) := hread
  have hseq' : ({ m with fit := { m.fit with queue := [] } } : Mod).rdf (bMBX c.port + 8) 47 32 = c.seq := hseq
  simp only [hread', hseq', ne_eq, not_true_eq_false, if_false]
  cases hform : form c with
  | false => rfl
  | true =>
    have hmay : ({ m with fit := { m.fit with queue := [] } } : Mod).mayIssue c = true := hissue
    rw [if_neg (by decide), if_neg (by rw [hmay]; decide), if_neg (by decide)]
    rfl
theorem Mod.mbxServe_malformed (hform : form c = false) : m.taken.answered (m.mbxServe mine form f) c 6 [] := by
  rw [Mod.mbxServe_asked h hm, hform, if_pos (by decide), Mod.doeAll_idle (Mod.queue_answerCmd _ _ _ _ rfl)]
  exact m.taken.answered_answerCmd c 6 []
theorem Mod.mbxServe_now {st : Nat} {pay : List Byte} {m1 : Mod} (hform : form c = true) (hf : f c m.taken = .now st pay m1) :
    m.mbxServe mine form f = ({ m1 with fit := { m1.fit with queue := [] } } : Mod).answerCmd c st pay := by
  rw [Mod.mbxServe_asked h hm, hform, if_neg (by decide), hf]
  exact Mod.doeAll_idle (Mod.queue_answerCmd _ _ _ _ rfl)
theorem Mod.mbxServe_later {m1 : Mod} (hform : form c = true) (hf : f c m.taken = .later m1) : m.mbxServe mine form f = m1 := by
  rw [Mod.mbxServe_asked h hm, hform, if_neg (by decide), hf]
end
/-- A command of the mailbox that is answered at once. -/
theorem completes_answered {i : Instr} {s : State} {c : Cmd} {d : List Byte} {mine : Nat → Bool} {form : Cmd → Bool} {f : Cmd → Mod → Reply} {st : Nat} {pay : List Byte}
    {m1 : Mod} (hi : exec i s = s.run fun m => m.mbxServe mine form f) (h : s.m.asked c d) (hm : mine c.code = true) (hform : form c = true)
    (hf : f c s.m.taken = .now st pay m1) : completes i s fun t => m1.answered t c st pay := by
  refine completes_run hi h.2.1 ?_
  rw [Mod.mbxServe_now h hm hform hf]
  exact Mod.answered_within (m1.answered_answerCmd c st pay) _ _

end Sys2Proof.Machine
end

section
/-! Mailbox commands that inform and serve (R533 to R535, R565, R587, R623, R631). -/

namespace Sys2Proof.Machine

/-! ## The glove of a grant -/

/-- A cap that is tagged where its fields let it be. -/
def Cap.asTagged (x : Cap) : Cap := { x with tag := x.taggable }
theorem Cap.tag_asTagged (x : Cap) : x.asTagged.tag = x.asTagged.taggable := rfl
theorem Cap.bits_asTagged (x : Cap) : x.asTagged.bits = x.bits := rfl
/-- The bits of the glove that a grant writes. -/
def Cmd.gloveBits (c : Cmd) : Nat :=
  2 * 2 ^ 124 + ((if (c.f 1 1).testBit 0 then pRD else 0) + (if (c.f 1 1).testBit 1 then pWR else 0) + (if (c.f 1 1).testBit 2 then pLC else 0)) * 2 ^ 112 +
    bitsN (c.f 4 4) 17 0 * 2 ^ 94 + bitsN (c.f 4 4) 29 18 * 2 ^ 82 + c.f 0x10 8 * 2 ^ 48 + c.f 8 8
/-- The glove that a grant writes. -/
def Cmd.glove (c : Cmd) : Cap := Cap.asTagged { bits := BitVec.ofNat 128 c.gloveBits }
theorem glove_perms_le (r : Nat) : (if r.testBit 0 then pRD else 0) + (if r.testBit 1 then pWR else 0) + (if r.testBit 2 then pLC else 0) ≤ 11 := by
  have h0 : (if r.testBit 0 then pRD else 0) ≤ 1 := by split <;> decide
  have h1 : (if r.testBit 1 then pWR else 0) ≤ 2 := by split <;> decide
  have h2 : (if r.testBit 2 then pLC else 0) ≤ 8 := by split <;> decide
  omega
/-- The fields of a glove's bits. -/
theorem glove_fields {p m v l o : Nat} (hp : p ≤ 11) (hm : m < 2 ^ 18) (hv : v < 2 ^ 12) (hl : l < 2 ^ 34) (ho : o < 2 ^ 48) {x : BitVec 128}
    (hx : x = BitVec.ofNat 128 (2 * 2 ^ 124 + p * 2 ^ 112 + m * 2 ^ 94 + v * 2 ^ 82 + l * 2 ^ 48 + o)) :
    fld x 127 124 = 2 ∧ fld x 123 112 = p ∧ bitsN x.toNat 111 94 = m ∧ bitsN x.toNat 93 82 = v ∧ bitsN x.toNat 81 48 = l ∧ bitsN x.toNat 47 0 = o := by
  have hnat : x.toNat = 2 * 2 ^ 124 + p * 2 ^ 112 + m * 2 ^ 94 + v * 2 ^ 82 + l * 2 ^ 48 + o := by
    rw [hx, BitVec.toNat_ofNat]
    exact Nat.mod_eq_of_lt (by omega)
  simp only [fld, hnat]
  simp only [bitsN, Nat.shiftRight_eq_div_pow]
  refine ⟨?_, ?_, ?_, ?_, ?_, ?_⟩ <;> omega
theorem Cmd.glove_fields (c : Cmd) (hl : c.f 0x10 8 < 2 ^ 34) (ho : c.f 8 8 < 2 ^ 48) :
    c.glove.type = 2 ∧ c.glove.perms = (if (c.f 1 1).testBit 0 then pRD else 0) + (if (c.f 1 1).testBit 1 then pWR else 0) +
      (if (c.f 1 1).testBit 2 then pLC else 0) ∧ bitsN c.glove.bits.toNat 111 94 = bitsN (c.f 4 4) 17 0 ∧
      bitsN c.glove.bits.toNat 93 82 = bitsN (c.f 4 4) 29 18 ∧ bitsN c.glove.bits.toNat 81 48 = c.f 0x10 8 ∧ bitsN c.glove.bits.toNat 47 0 = c.f 8 8 ∧
      c.glove.tag = c.glove.taggable := by
  have hbits : c.glove.bits = BitVec.ofNat 128 c.gloveBits := Cap.bits_asTagged _
  rw [Cmd.gloveBits] at hbits
  obtain ⟨htype, hperms, hmod, hdev, hlen, hoff⟩ :=
    Machine.glove_fields (glove_perms_le (c.f 1 1)) (bitsN_lt (c.f 4 4) 17 0) (bitsN_lt (c.f 4 4) 29 18) hl ho hbits
  exact ⟨htype, hperms, hmod, hdev, hlen, hoff, Cap.tag_asTagged _⟩

/-! ## Snapshots -/

/-- A counter is captured where no counter lies, and apart from every other. -/
theorem snapOf_apart {a b y z : Nat} (ha : snapOf a = some y) (hb : snapOf b = some z) : y ≠ b ∧ (y = z → a = b) ∧ y ≠ bMON + 0x30000 ∧ a ≠ bMON + 0x30000 ∧
    (bMON ≤ a ∧ a < bMON + 0x30000) ∧ bMON ≤ y ∧ y < bMON + 0x30000 := by
  unfold snapOf at ha hb
  dsimp only at ha hb
  split_ifs at ha <;> split_ifs at hb <;> simp only [Option.some.injEq] at ha hb <;> omega
/-- Capturing one entry of BAR0. -/
def Mod.capture (m : Mod) (e : Nat × W64) : Mod := match snapOf e.1 with | some s => m.wr s e.2 | none => m
theorem Mod.onlyBar_capture (m : Mod) (e : Nat × W64) : m.onlyBar (m.capture e) := by
  unfold Mod.capture; split
  · exact Mod.onlyBar_wr m _ _
  · exact Mod.onlyBar_refl m
theorem Mod.rd_capture_ne (m : Mod) {e : Nat × W64} {b : Nat} (h : snapOf e.1 ≠ some b) : (m.capture e).rd b = m.rd b := by
  unfold Mod.capture; split
  next s hs => exact Mod.rd_wr_ne m _ fun hb => h (hb ▸ hs)
  next => rfl
theorem Mod.rd_captures_ne (es : Tab W64) (m : Mod) {b : Nat} (h : ∀ e, e ∈ es → snapOf e.1 ≠ some b) : (es.foldl Mod.capture m).rd b = m.rd b := by
  induction es generalizing m with
  | nil => rfl
  | cons e es ih =>
    rw [List.foldl_cons, ih _ fun e' he' => h e' (List.mem_cons_of_mem e he'), Mod.rd_capture_ne m (h e List.mem_cons_self)]
/-- Every counter that has counted stands in its SNP register. -/
theorem Mod.rd_captures (es : Tab W64) (m : Mod) (hs : Tab.sorted es = true) {a y : Nat} {x : W64} (hx : Tab.get? es a = some x) (hy : snapOf a = some y) :
    (es.foldl Mod.capture m).rd y = x := by
  induction es generalizing m with
  | nil => exact absurd hx (by simp [Tab.get?])
  | cons e es ih =>
    obtain ⟨k, w⟩ := e
    obtain ⟨habove, hsorted⟩ := (Tab.sorted_cons k w es).mp hs
    rw [List.foldl_cons]
    by_cases hk : k = a
    · subst hk
      have hw : w = x := by simpa [Tab.get?] using hx
      have hlater : ∀ e, e ∈ es → snapOf e.1 ≠ some y := fun e he hz => by
        have hlt : k < e.1 := habove e he
        have := (snapOf_apart hy hz).2.1 rfl
        omega
      rw [Mod.rd_captures_ne es _ hlater, Mod.capture, hy]
      exact (Mod.rd_wr_self m y w).trans hw
    · exact ih _ hsorted (by rwa [Tab.get?, if_neg hk] at hx)
theorem Mod.snapshot_eq (m : Mod) : m.snapshot = (m.bar0.foldl Mod.capture m).wrf (bMON + 0x30000) 31 0 ((m.bar0.foldl Mod.capture m).rdf (bMON + 0x30000) 31 0 + 1) := rfl
theorem snapOf_ne_count (a : Nat) : snapOf a ≠ some (bMON + 0x30000) := fun h => (snapOf_apart h h).2.2.1 rfl
theorem Mod.rdf_snapshot_count (m : Mod) : m.snapshot.rdf (bMON + 0x30000) 31 0 = (m.rdf (bMON + 0x30000) 31 0 + 1) % 2 ^ 32 := by
  rw [Mod.snapshot_eq, Mod.rdf_wrf_self _ _ 31 0 _ (by decide)]
  simp only [Mod.rdf, Mod.rd_captures_ne m.bar0 m fun e _ => snapOf_ne_count e.1]
theorem Mod.rd_snapshot {m : Mod} (hs : Tab.sorted m.bar0 = true) {a y : Nat} {x : W64} (hx : Tab.get? m.bar0 a = some x) (hy : snapOf a = some y) :
    m.snapshot.rd y = x ∧ m.snapshot.rd a = x := by
  obtain ⟨-, -, hyc, hac, -, -⟩ := snapOf_apart hy hy
  rw [Mod.snapshot_eq, Mod.rd_wrf_ne _ _ _ _ hyc, Mod.rd_wrf_ne _ _ _ _ hac]
  refine ⟨Mod.rd_captures m.bar0 m hs hx hy, ?_⟩
  rw [Mod.rd_captures_ne m.bar0 m fun e _ he => (snapOf_apart he hy).1 rfl]
  simp only [Mod.rd, barVal, regVal, hx, Option.getD_some]

/-! ## Answers of the single commands -/

/-- A state that an answer leaves, where the command itself tells of it. -/
theorem completes_answered_and {i : Instr} {s : State} {c : Cmd} {d : List Byte} {mine : Nat → Bool} {form : Cmd → Bool} {f : Cmd → Mod → Reply} {st : Nat}
    {pay : List Byte} {m1 : Mod} {Q : Mod → Prop} (hi : exec i s = s.run fun m => m.mbxServe mine form f) (h : s.m.asked c d) (hm : mine c.code = true)
    (hform : form c = true) (hf : f c s.m.taken = .now st pay m1) (hQ : ∀ t, m1.answered t c st pay → Q t) : completes i s Q :=
  (completes_answered hi h hm hform hf).mono hQ
/-- Beside the mailbox's own registers an answer changes none. -/
theorem Mod.answered.rd {m t : Mod} {c : Cmd} {st : Nat} {pay : List Byte} (h : m.answered t c st pay) {a : Nat} (h1 : a ≠ bMBX c.port + 8)
    (h2 : a ≠ bMBX c.port + 0x40) (h3 : a ≠ bMBX c.port + 0x48) : t.rd a = m.rd a := by
  obtain ⟨⟨-, -, -, -, -, hregs, -, -⟩, -, -, -⟩ := h
  exact hregs a h1 h2 h3
theorem Mod.answered.mon {m t : Mod} {c : Cmd} {st : Nat} {pay : List Byte} (h : m.answered t c st pay) (hc : c.port < 2) {a : Nat} (ha : bMON ≤ a)
    (hb : a ≤ bMON + 0x30000) : t.rd a = m.rd a := by
  obtain hp | hp : c.port = 0 ∨ c.port = 1 := by omega
  all_goals refine h.rd ?_ ?_ ?_ <;> simp only [bMBX, bMON, portStride, hp] at * <;> omega
/-- What HELLO answers. -/
def Mod.helloReply (m : Mod) (c : Cmd) : Reply :=
  let recov := m.fit.phase == .recovery
  let v := min (c.f 1 1) (if recov then 2 else 3)
  if v < c.f 0 1 ∨ c.f 0 1 = 0 then .now 0x0002 [] m
  else .now 0 (toLe 1 v ++ toLe 1 (if recov then 0xFF else m.fit.steward) ++ toLe 2 (if recov then 0 else m.ownedMask c.port) ++ toLe 4 0)
    (m.wrf (bMBX c.port + 8) 17 16 v)
theorem Mod.helloReply_settles (m : Mod) (c : Cmd) {v : Nat} (hv : v = min (c.f 1 1) (if m.fit.phase = .recovery then 2 else 3)) (h1 : c.f 0 1 ≤ v)
    (h0 : c.f 0 1 ≠ 0) : m.helloReply c = .now 0 (toLe 1 v ++ toLe 1 (if m.fit.phase = .recovery then 0xFF else m.fit.steward) ++
      toLe 2 (if m.fit.phase = .recovery then 0 else m.ownedMask c.port) ++ toLe 4 0) (m.wrf (bMBX c.port + 8) 17 16 v) := by
  unfold Mod.helloReply
  simp only [beq_iff_eq, ← hv]
  exact if_neg (by omega)
theorem Mod.mbxHello_settles {m : Mod} {c : Cmd} {d : List Byte} (h : m.asked c d) (hc : c.code = 0x01) (hz : allZero c 2 6 = true) {v : Nat}
    (hv : v = min (c.f 1 1) (if m.fit.phase = .recovery then 2 else 3)) (h1 : c.f 0 1 ≤ v) (h0 : c.f 0 1 ≠ 0) :
    m.mbxHello.rdf (bMBX c.port + 8) 17 16 = v ∧ (m.taken.wrf (bMBX c.port + 8) 17 16 v).answered m.mbxHello c 0 (toLe 1 v ++
      toLe 1 (if m.fit.phase = .recovery then 0xFF else m.fit.steward) ++ toLe 2 (if m.fit.phase = .recovery then 0 else m.ownedMask c.port) ++ toLe 4 0) := by
  have hreply := Mod.mbxServe_now (mine := fun c => c == 1 || (cmdRow c).isNone) (form := fun c => allZero c 2 6) (f := fun c m => m.helloReply c) h
    (by rw [hc]; rfl) hz (Mod.helloReply_settles m.taken c hv h1 h0)
  have hlt : v < 4 := by rw [hv]; split <;> omega
  rw [show m.mbxHello = _ from hreply]
  refine ⟨?_, Mod.answered_answerCmd _ c 0 _⟩
  rw [Mod.rdf_answerCmd _ c 0 _ rfl (by decide) (by decide)]
  exact (Mod.rdf_wrf_self _ _ 17 16 v (by decide)).trans (Nat.mod_eq_of_lt hlt)
/-- What GLOVE_GRANT answers. -/
def Mod.gloveReply (m : Mod) (c : Cmd) : Reply :=
  if !m.owns c.port c.part then .now 0x0005 [] m
  else if c.f 0 1 < 3 ∨ c.f 0x10 8 = 0 ∨ 2 ^ 34 ≤ c.f 0x10 8 ∨ !(m.part c.part).holds (m.rdf (bPAT c.part + 0x18) 45 12 * 2 ^ 12) 4096 then .now 0x0106 [] m
  else .now 0 [] (m.wrCap (m.rdf (bPAT c.part + 0x18) 45 12 * 2 ^ 12 + 16 * c.f 0 1) c.glove)
/-- The fields of GLOVE_GRANT's own form. -/
def Cmd.gloveForm (c : Cmd) : Bool := decide (c.f 1 1 < 8) && allZero c 2 2 && decide (c.f 4 4 < 2 ^ 30) && decide (c.f 8 8 < 2 ^ 48)
theorem Mod.mbxGloveGrant_eq (m : Mod) : m.mbxGloveGrant = m.mbxServe (· == 0x30) Cmd.gloveForm fun c m => m.gloveReply c := rfl
section
variable {m : Mod} {c : Cmd} (hown : m.owns c.port c.part = true)
include hown
theorem Mod.gloveReply_refused (h : ¬ (3 ≤ c.f 0 1 ∧ c.f 0x10 8 ≠ 0 ∧ c.f 0x10 8 < 2 ^ 34 ∧
    (m.part c.part).holds (m.rdf (bPAT c.part + 0x18) 45 12 * 2 ^ 12) 4096 = true)) : m.gloveReply c = .now 0x0106 [] m := by
  have hcond : c.f 0 1 < 3 ∨ c.f 0x10 8 = 0 ∨ 2 ^ 34 ≤ c.f 0x10 8 ∨ (!(m.part c.part).holds (m.rdf (bPAT c.part + 0x18) 45 12 * 2 ^ 12) 4096) = true := by
    by_contra hno
    simp only [not_or, Bool.not_eq_true', Bool.not_eq_false] at hno
    obtain ⟨hsl, hlen, hmax, hin⟩ := hno
    exact h ⟨by omega, hlen, by omega, hin⟩
  unfold Mod.gloveReply
  rw [if_neg (by simp [hown]), if_pos hcond]
theorem Mod.gloveReply_granted (hs : 3 ≤ c.f 0 1) (hl : c.f 0x10 8 ≠ 0) (hm : c.f 0x10 8 < 2 ^ 34)
    (hin : (m.part c.part).holds (m.rdf (bPAT c.part + 0x18) 45 12 * 2 ^ 12) 4096 = true) :
    m.gloveReply c = .now 0 [] (m.wrCap (m.rdf (bPAT c.part + 0x18) 45 12 * 2 ^ 12 + 16 * c.f 0 1) c.glove) := by
  have hcond : ¬ (c.f 0 1 < 3 ∨ c.f 0x10 8 = 0 ∨ 2 ^ 34 ≤ c.f 0x10 8 ∨
      (!(m.part c.part).holds (m.rdf (bPAT c.part + 0x18) 45 12 * 2 ^ 12) 4096) = true) := by
    rintro (h | h | h | h)
    · omega
    · exact hl h
    · omega
    · rw [hin] at h; exact Bool.false_ne_true h
  unfold Mod.gloveReply
  rw [if_neg (by simp [hown]), if_neg hcond]
end
theorem Cmd.gloveForm_of {c : Cmd} (hr : c.f 1 1 < 8) (hz : allZero c 2 2 = true) (hm : c.f 4 4 < 2 ^ 30) (ho : c.f 8 8 < 2 ^ 48) : c.gloveForm = true := by
  simp only [Cmd.gloveForm, hr, hz, hm, ho, decide_true, Bool.and_self]
theorem Mod.answered_gloveGrant {s : State} {c : Cmd} {d : List Byte} {st : Nat} {m1 : Mod} (h : s.m.asked c d) (hc : c.code = 0x30) (hf : c.gloveForm = true)
    (hreply : s.m.taken.gloveReply c = .now st [] m1) : completes .gloveGrant s fun t => m1.answered t c st [] :=
  completes_answered (mine := (· == 0x30)) (form := Cmd.gloveForm) (f := fun c m => m.gloveReply c)
    (show exec .gloveGrant s = s.run fun m => m.mbxServe (· == 0x30) Cmd.gloveForm fun c m => m.gloveReply c from rfl) h (by rw [hc]; rfl) hf hreply
/-! ## Attestation reports -/

/-- A response leaves the report that a port keeps. -/
theorem Mod.report_writeResp (m : Mod) (h : Nat) (r : List Byte) : ((m.writeResp h r).host h).report = (m.host h).report := by
  obtain ⟨m1, hm1⟩ : ∃ u, u = m.updHost h fun k => { k with resp := Memory.setBytes k.resp 0 r } := ⟨_, rfl⟩
  obtain ⟨m2, hm2⟩ : ∃ u, u = ((m1.wrf (bMBX h + 8) 1 1 0).raise (bMBX h + 8) 0).inc (bMBX h + 0x40) := ⟨_, rfl⟩
  obtain ⟨m3, hm3⟩ : ∃ u, u = if ofLe ((r.drop 12).take 2) = 0 then m2 else m2.inc (bMBX h + 0x48) := ⟨_, rfl⟩
  have heq : m.writeResp h r = m3.toHost h (.msix 0) := by rw [hm3, hm2, hm1]; rfl
  have hhosts : m3.hosts = m1.hosts := by rw [hm3, hm2]; split <;> rfl
  rw [heq, Mod.toHost, Mod.host_updHost, if_pos rfl]
  show (m3.host h).report = _
  rw [Mod.host_congr hhosts h, hm1, Mod.host_updHost, if_pos rfl]
theorem Mod.report_answerCmd (m : Mod) (c : Cmd) (st : Nat) (pay : List Byte) : ((m.answerCmd c st pay).host c.port).report = (m.host c.port).report := by
  unfold Mod.answerCmd
  dsimp only
  rw [Mod.report_writeResp, Mod.host_updHost, if_pos rfl]
  rfl
/-- What ATTEST sends of a report. -/
def Cmd.reportPart (c : Cmd) (r : List Byte) : List Byte := toLe 4 r.length ++ (r.drop (c.f 0x20 4)).take 4076
/-- What ATTEST answers. -/
def Mod.attestReply (m : Mod) (c : Cmd) : Reply :=
  if c.f 0x20 4 = 0 then
    .now 0 (c.reportPart (m.report (c.pay.take 32)).1) ((m.report (c.pay.take 32)).2.updHost c.port fun k => { k with report := some (m.report (c.pay.take 32)).1 })
  else
    match (m.host c.port).report with
    | some r => if c.f 0x20 4 < r.length then .now 0 (c.reportPart r) m else .now 0x0304 (toLe 4 0) m
    | none => .now 0x0304 (toLe 4 0) m
theorem Mod.mbxAttest_eq (m : Mod) : m.mbxAttest = m.mbxServe (· == 0x50) (fun c => allZero c 0x24 4) fun c m => m.attestReply c := rfl
section
variable {m : Mod} {c : Cmd}
theorem Mod.attestReply_first (h : c.f 0x20 4 = 0) : m.attestReply c = .now 0 (c.reportPart (m.report (c.pay.take 32)).1)
    ((m.report (c.pay.take 32)).2.updHost c.port fun k => { k with report := some (m.report (c.pay.take 32)).1 }) := if_pos h
theorem Mod.attestReply_next {r : List Byte} (h0 : 0 < c.f 0x20 4) (hr : (m.host c.port).report = some r) (h : c.f 0x20 4 < r.length) :
    m.attestReply c = .now 0 (c.reportPart r) m := by
  unfold Mod.attestReply
  rw [if_neg (by omega), hr]
  exact if_pos h
theorem Mod.attestReply_beyond (h0 : 0 < c.f 0x20 4) (h : ∀ r, (m.host c.port).report = some r → r.length ≤ c.f 0x20 4) :
    m.attestReply c = .now 0x0304 (toLe 4 0) m := by
  unfold Mod.attestReply
  rw [if_neg (by omega)]
  cases hr : (m.host c.port).report with
  | none => rfl
  | some r => exact if_neg (by have := h r hr; omega)
theorem Mod.mbxAttest_first {d : List Byte} (h : m.asked c d) (hc : c.code = 0x50) (hz : allZero c 0x24 4 = true) (h0 : c.f 0x20 4 = 0) :
    (m.mbxAttest.host c.port).report = some (m.taken.report (c.pay.take 32)).1 ∧
      ((m.taken.report (c.pay.take 32)).2.updHost c.port fun k => { k with report := some (m.taken.report (c.pay.take 32)).1 }).answered m.mbxAttest c 0
        (c.reportPart (m.taken.report (c.pay.take 32)).1) := by
  have hreply := Mod.mbxServe_now (mine := (· == 0x50)) (form := fun c => allZero c 0x24 4) (f := fun c m => m.attestReply c) h (by rw [hc]; rfl) hz
    (Mod.attestReply_first (m := m.taken) h0)
  obtain ⟨r, hr⟩ : ∃ r, r = (m.taken.report (c.pay.take 32)).1 := ⟨_, rfl⟩
  obtain ⟨u, hu⟩ : ∃ u, u = (m.taken.report (c.pay.take 32)).2 := ⟨_, rfl⟩
  rw [← hr, ← hu] at hreply ⊢
  rw [Mod.mbxAttest_eq, hreply]
  refine ⟨?_, Mod.answered_answerCmd _ c 0 _⟩
  rw [Mod.report_answerCmd]
  show ((u.updHost c.port fun k => { k with report := some r }).host c.port).report = some r
  rw [Mod.host_updHost, if_pos rfl]
end

/-! ## The settlement -/

/-- Settles O49, command by command. -/
theorem mailboxServices : Obligations.MailboxServices := by
  unfold Obligations.MailboxServices
  intro s c d h
  obtain ⟨hport, -, -, -, -, -, -⟩ := id h
  refine ⟨fun hc hz => ⟨fun hv => ?_, fun hv h0 => ?_⟩, fun hc => ?_, fun hc => ?_, fun hc => ?_, fun hc => ⟨fun ht => ?_, fun t0 ht => ?_⟩, fun hc => ?_,
    fun hc hr hz hm ho => ⟨fun hown => ?_, fun hown hfit => ?_, fun hown hfit => ?_⟩, fun hc => ?_, fun hc hz => ⟨fun ho => ?_, fun r ho hlt hrep => ?_,
      fun ho hrep => ?_⟩, fun hc => ?_⟩
  · refine completes_answered rfl h (by rw [hc]; rfl) hz ?_
    simp only [beq_iff_eq]
    exact if_pos hv
  · exact completes_run (f := fun m => m.mbxHello) rfl h.2.1 (Mod.mbxHello_settles h hc hz rfl hv h0)
  · exact completes_answered rfl h (by rw [hc]; rfl) rfl rfl
  · refine completes_answered rfl h (by rw [hc]; rfl) rfl ?_
    simp only [upto, List.range_succ, List.range_zero, List.nil_append, List.cons_append, List.flatMap_cons, List.flatMap_nil, List.append_nil, List.append_assoc]
    rfl
  · exact completes_answered rfl h (by rw [hc]; rfl) rfl rfl
  · refine completes_answered rfl h (by rw [hc]; rfl) rfl ?_
    have ht' : s.m.taken.fit.time = none := ht
    dsimp only
    rw [ht']
    rfl
  · have ht' : s.m.taken.fit.time = some t0 := ht
    refine completes_answered_and (m1 := s.m.taken.freeW.2) (st := 0) (pay := toLe 8 (t0 + s.m.taken.freeW.1.toNat) ++ toLe 8 s.m.taken.clockSrc) rfl h
      (by rw [hc]; rfl) rfl ?_ fun t ht => ⟨_, ht⟩
    dsimp only
    rw [ht']
  · exact completes_answered rfl h (by rw [hc]; rfl) rfl rfl
  · refine Mod.answered_gloveGrant h hc (Cmd.gloveForm_of hr hz hm ho) ?_
    exact if_pos (by rw [show s.m.taken.owns c.port c.part = false from hown]; rfl)
  · exact Mod.answered_gloveGrant h hc (Cmd.gloveForm_of hr hz hm ho) (Mod.gloveReply_refused (m := s.m.taken) hown hfit)
  · obtain ⟨hsl, hl, hmax, hin⟩ := hfit
    exact (Mod.answered_gloveGrant h hc (Cmd.gloveForm_of hr hz hm ho) (Mod.gloveReply_granted (m := s.m.taken) hown hsl hl hmax hin)).mono
      fun t ht => ⟨c.glove, ht, c.glove_fields hmax ho⟩
  · refine completes_answered_and (m1 := s.m.taken.snapshot) (st := 0) (pay := toLe 8 (s.m.taken.snapshot.rdf (bMON + 0x30000) 31 0)) rfl h
      (by rw [hc]; rfl) rfl rfl fun t ht => ?_
    have hcount : s.m.taken.snapshot.rdf (bMON + 0x30000) 31 0 = (s.m.rdf (bMON + 0x30000) 31 0 + 1) % 2 ^ 32 := Mod.rdf_snapshot_count s.m.taken
    have hmon := fun {a : Nat} (ha : bMON ≤ a) (hb : a ≤ bMON + 0x30000) => ht.mon hport ha hb
    rw [hcount] at ht
    refine ⟨ht, ?_, fun hs a x y hx hy => ?_⟩
    · rw [← hcount]
      simp only [Mod.rdf, hmon (show bMON ≤ bMON + 0x30000 by omega) (Nat.le_refl _)]
    · obtain ⟨-, -, -, -, ⟨ha1, ha2⟩, hy1, hy2⟩ := snapOf_apart hy hy
      rw [hmon hy1 (Nat.le_of_lt hy2), hmon ha1 (Nat.le_of_lt ha2)]
      exact Mod.rd_snapshot (m := s.m.taken) hs hx hy
  · refine completes_run (f := fun m => m.mbxAttest) rfl h.2.1 ⟨_, _, rfl, Mod.mbxAttest_first h hc hz ho⟩
  · exact completes_answered (f := fun c m => m.attestReply c) rfl h (by rw [hc]; rfl) hz (Mod.attestReply_next (m := s.m.taken) ho hrep hlt)
  · exact completes_answered (f := fun c m => m.attestReply c) rfl h (by rw [hc]; rfl) hz (Mod.attestReply_beyond (m := s.m.taken) ho hrep)
  · exact completes_answered rfl h (by rw [hc]; rfl) rfl rfl

end Sys2Proof.Machine
end

section
/-! Mailbox commands that stage and apply (R522, R523, R528, R537 to R543). -/

namespace Sys2Proof.Machine

/-! ## A request that its checks refuse -/

/-- A request whose bytes fail a check is answered with the check's status. -/
theorem Mod.mbxServe_bad {m : Mod} {c : Cmd} {d : List Byte} {mine : Nat → Bool} {form : Cmd → Bool} {f : Cmd → Mod → Reply} {h seq st : Nat}
    (hserves : m.serves = true) (hqueue : m.fit.queue = [.mbx h seq d]) (hseq : m.rdf (bMBX h + 8) 47 32 = seq) (hm : mine (d.headD 0).toNat = true)
    (hread : m.readCmd h seq d = (c, some st)) : m.taken.answered (m.mbxServe mine form f) c st [] := by
  have hread' : ({ m with fit := { m.fit with queue := [] } } : Mod).readCmd h seq d = (c, some st) := hread
  have hseq' : ({ m with fit := { m.fit with queue := [] } } : Mod).rdf (bMBX h + 8) 47 32 = seq := hseq
  have hval : m.mbxServe mine form f = (m.taken.answerCmd c st []).doeAll := by
    unfold Mod.mbxServe
    rw [hqueue]
    dsimp only
    rw [if_neg (by rw [hserves, hm]; decide)]
    simp only [hread', hseq', ne_eq, not_true_eq_false, if_false]
    rfl
  rw [hval, Mod.doeAll_idle (Mod.queue_answerCmd _ _ _ _ rfl)]
  exact m.taken.answered_answerCmd c st []
/-- A CFG_STAGE whose payload is no whole number of items fails on its length. -/
theorem Mod.readCmd_uncut {m : Mod} {h seq : Nat} {d : List Byte} (hcode : d.headD 0 = 0x20) (hrun : m.fit.phase ≠ .recovery)
    (hver : 2 ≤ m.rdf (bMBX h + 8) 17 16) (hcut : cutItems 257 ((d.drop 16).take (ofLe ((d.drop 4).take 4) % 2 ^ 13)) = none) :
    ∃ c, m.readCmd h seq d = (c, some 3) ∧ c.port = h ∧ c.seq = seq ∧ c.ver = m.rdf (bMBX h + 8) 17 16 ∧ c.code = 0x20 := by
  have hc : ofLe ((d.drop 0).take 4) % 256 = 0x20 := by
    have := m.readCmd_code h seq d
    cases d with
    | nil => exact absurd hcode (by decide)
    | cons b bs =>
      have hb : b = 0x20 := hcode
      simp only [List.drop_zero, List.take_succ_cons, ofLe, hb]
      show (32 + 256 * _) % 256 = 32
      omega
  have hlt : m.rdf (bMBX h + 8) 17 16 < 4 := fld_lt _ 17 16
  have hphase : (m.fit.phase == .recovery) = false := by simpa using hrun
  have hrow : cmdRow 0x20 = some { code := 0x20, least := 2, len := 16, open' := true, resp := 8 } := rfl
  refine ⟨{ port := h, seq := seq, ver := m.rdf (bMBX h + 8) 17 16, code := 0x20, part := ofLe ((d.drop 8).take 4) % 16 }, ?_, rfl, rfl, rfl, rfl⟩
  unfold Mod.readCmd
  dsimp only
  rw [hc, hphase]
  simp only [Bool.false_and, Bool.false_eq_true, if_false, hrow]
  rw [if_neg (by omega), if_pos]
  simp only [hcut, Option.isNone_none, and_self, or_true]

/-! ## Staging -/

theorem Mod.stageFor_room {m : Mod} {h : Nat} {x : StageItem} (hroom : (m.host h).set.any x.same = true ∨ (m.host h).set.length < 4096) :
    m.stageFor h x = (0, m.updHost h fun k => { k with set := putItem (m.host h).set x }) := by
  have hput : m.stage h x = m.updHost h fun k => { k with set := putItem (m.host h).set x } :=
    congrArg (fun k => ({ m with hosts := Tab.put m.hosts h k } : Mod)) (if_pos hroom)
  unfold Mod.stageFor
  rw [← hput]
  exact if_pos hroom
theorem Mod.stageFor_full {m : Mod} {h : Nat} {x : StageItem} (hsame : (m.host h).set.any x.same = false) (hfull : 4096 ≤ (m.host h).set.length) :
    m.stageFor h x = (0x0202, m) := if_neg (by rintro (h | h) <;> simp_all; omega)
/-- A command that stages one item. -/
theorem completes_stages {i : Instr} {s : State} {c : Cmd} {d : List Byte} {mine : Nat → Bool} {form : Cmd → Bool} {f : Cmd → Mod → Reply} {x : StageItem}
    (hi : exec i s = s.run fun m => m.mbxServe mine form f) (h : s.m.asked c d) (hm : mine c.code = true) (hform : form c = true)
    (hf : f c s.m.taken = .now (s.m.taken.stageFor c.port x).1 [] (s.m.taken.stageFor c.port x).2) :
    (((s.m.host c.port).set.any x.same = true ∨ (s.m.host c.port).set.length < 4096) → completes i s fun t =>
      (s.m.taken.updHost c.port fun k => { k with set := putItem (s.m.host c.port).set x }).answered t c 0 []) ∧
    ((s.m.host c.port).set.any x.same = false → 4096 ≤ (s.m.host c.port).set.length → completes i s fun t => s.m.taken.answered t c 0x0202 []) := by
  refine ⟨fun hroom => ?_, fun hsame hfull => ?_⟩
  · exact completes_answered hi h hm hform (by rw [hf, Mod.stageFor_room (m := s.m.taken) hroom]; rfl)
  · exact completes_answered hi h hm hform (by rw [hf, Mod.stageFor_full (m := s.m.taken) hsame hfull])

/-! ## Adoption -/

/-- What no step of a fold changes, the fold leaves. -/
theorem Mod.foldl_same {α β : Type} (q : Mod → α) (f : Mod → β → Mod) (hf : ∀ m i, q (f m i) = q m) (xs : List β) (m : Mod) : q (xs.foldl f m) = q m :=
  foldl_keeps (fun m t : Mod => q t = q m) (fun _ => rfl) (fun h g => g.trans h) f hf xs m
theorem Mod.parts_prtVector (m : Mod) (p : Nat) : (m.prtVector p).parts = m.parts := by
  unfold Mod.prtVector
  split
  · rfl
  · exact (Mod.foldl_same Mod.parts (fun (m : Mod) (v : Nat) => m.toHost _ (.msixVf v)) (fun _ _ => rfl) _ _).trans rfl
/-- Clearing the vectors of a partition's functions. -/
def Mod.unmapVfs (m : Mod) (p : Nat) : Mod :=
  (upto 2).foldl (fun (m : Mod) q => (upto 8).foldl (fun (m : Mod) v =>
    if m.rdf (bMBX q + 0x18) (5 * v + 4) (5 * v) = 16 + p then m.wrf (bMBX q + 0x18) (5 * v + 4) (5 * v) 0 else m) m) m
theorem Mod.parts_unmapVfs (m : Mod) (p : Nat) : (m.unmapVfs p).parts = m.parts := by
  unfold Mod.unmapVfs
  refine Mod.foldl_same Mod.parts _ (fun m q => Mod.foldl_same Mod.parts _ (fun m v => ?_) (upto 8) m) (upto 2) m
  split <;> rfl
/-- Who adopts a partition owns it, under the new digest. -/
theorem Mod.part_adopt (m : Mod) (h p : Nat) (digest : List Byte) : (m.adopt h p digest).part p = { m.part p with owner := h, digest := digest } := by
  obtain ⟨m1, hm1⟩ : ∃ u, u = m.updPart p fun q => { q with owner := h, digest := digest } := ⟨_, rfl⟩
  obtain ⟨m2, hm2⟩ : ∃ u, u = (upto 16).foldl (fun (m : Mod) i => m.wr (bPRT p + 0x100 + 8 * i) 0) m1 := ⟨_, rfl⟩
  obtain ⟨m3, hm3⟩ : ∃ u, u = m2.unmapVfs p := ⟨_, rfl⟩
  have heq : m.adopt h p digest = (m3.updHost (m.part p).owner fun k => { k with set := k.set.filter fun x => !m3.itemOf (m3.host (m.part p).owner).set p x }).prtVector p := by
    rw [hm3, hm2, hm1]; rfl
  have h2 : m2.parts = m1.parts := by rw [hm2]; exact Mod.foldl_same Mod.parts (fun (m : Mod) (i : Nat) => m.wr (bPRT p + 0x100 + 8 * i) 0) (fun _ _ => rfl) _ m1
  have hparts : (m.adopt h p digest).parts = m1.parts := by
    rw [heq, Mod.parts_prtVector, ← h2, ← m2.parts_unmapVfs p, ← hm3]
    rfl
  rw [Mod.part_congr hparts, hm1, Mod.part_updPart, if_pos rfl]
/-- The secret that a digest stands for is known. -/
def Cmd.knows (c : Cmd) (digest : List Byte) : Prop :=
  (padTo 32 digest).all (· == 0) = false ∧ shake256 ((c.pay.drop 8).take 32) 32 = padTo 32 digest
/-- What PART_ADOPT answers where it fails. -/
def Mod.adoptFail (m : Mod) (st : Nat) : Reply := .now st (if st < 0x100 then [] else m.genBytes ++ toLe 4 0) m
/-- The state that an adoption leaves. -/
def Mod.adopted (m : Mod) (c : Cmd) : Mod :=
  let m1 := m.applySet [] c.port false
  if c.f 0 1 = 0xFF then { m1 with fit := { m1.fit with steward := c.port, stewardKey := (c.pay.drop 0x28).take 32 } }
  else m1.adopt c.port (c.f 0 1) ((c.pay.drop 0x28).take 32)
/-- What PART_ADOPT answers. -/
def Mod.adoptReply (m : Mod) (c : Cmd) : Reply :=
  let digest := if c.f 0 1 = 0xFF then padTo 32 m.fit.stewardKey else padTo 32 (m.part (c.f 0 1)).digest
  if (if c.f 0 1 = 0xFF then m.fit.steward == c.port else m.owns c.port (c.f 0 1)) then m.adoptFail 0x0005
  else if c.f 0 1 ≠ 0xFF ∧ (m.part (c.f 0 1)).st = .free then m.adoptFail 0x0101
  else if digest.all (· == 0) ∨ shake256 ((c.pay.drop 8).take 32) 32 ≠ digest then m.adoptFail 0x0105
  else .now 0 ((m.adopted c).genBytes ++ toLe 4 0) (m.adopted c)
theorem Mod.mbxPartAdopt_eq (m : Mod) : m.mbxPartAdopt =
    m.mbxServe (· == 0x12) (fun c => (decide (c.f 0 1 < 16) || c.f 0 1 == 0xFF) && allZero c 1 7) fun c m => m.adoptReply c := rfl
theorem Cmd.knows_iff (c : Cmd) (digest : List Byte) :
    c.knows digest ↔ ¬ ((padTo 32 digest).all (· == 0) = true ∨ shake256 ((c.pay.drop 8).take 32) 32 ≠ padTo 32 digest) := by
  rw [not_or, not_not, Bool.not_eq_true]; rfl
section
variable {m : Mod} {c : Cmd}
theorem Mod.adoptReply_part (hp : c.f 0 1 < 16) : m.adoptReply c =
    if m.owns c.port (c.f 0 1) = true then m.adoptFail 0x0005 else if (m.part (c.f 0 1)).st = .free then m.adoptFail 0x0101
    else if (padTo 32 (m.part (c.f 0 1)).digest).all (· == 0) = true ∨ shake256 ((c.pay.drop 8).take 32) 32 ≠ padTo 32 (m.part (c.f 0 1)).digest then m.adoptFail 0x0105
    else .now 0 ((m.adopted c).genBytes ++ toLe 4 0) (m.adopted c) := by
  have hne : c.f 0 1 ≠ 0xFF := by omega
  unfold Mod.adoptReply
  dsimp only
  simp only [ne_eq, hne, not_false_eq_true, true_and, if_false]
theorem Mod.adoptReply_steward (hp : c.f 0 1 = 0xFF) : m.adoptReply c =
    if m.fit.steward = c.port then m.adoptFail 0x0005
    else if (padTo 32 m.fit.stewardKey).all (· == 0) = true ∨ shake256 ((c.pay.drop 8).take 32) 32 ≠ padTo 32 m.fit.stewardKey then m.adoptFail 0x0105
    else .now 0 ((m.adopted c).genBytes ++ toLe 4 0) (m.adopted c) := by
  unfold Mod.adoptReply
  dsimp only
  simp only [hp, if_true, beq_iff_eq, ne_eq, not_true_eq_false, false_and, if_false]
theorem Mod.adopted_part (hp : c.f 0 1 < 16) : m.adopted c = (m.applySet [] c.port false).adopt c.port (c.f 0 1) ((c.pay.drop 0x28).take 32) :=
  if_neg (by omega)
theorem Mod.adopted_steward (hp : c.f 0 1 = 0xFF) : m.adopted c = { m.applySet [] c.port false with
    fit := { (m.applySet [] c.port false).fit with steward := c.port, stewardKey := (c.pay.drop 0x28).take 32 } } := if_pos hp
end

/-! ## The drains of an apply -/

theorem Mod.fit_askSpool (m : Mod) (la : Nat) (write : Bool) : (m.askSpool la write).fit = m.fit :=
  (congrArg Mod.fit (m.traffic_askSpool la write).rest : _)
theorem Mod.fit_drainPanel (m : Mod) (n w : Nat) : (m.drainPanel n w).fit = m.fit :=
  Mod.foldl_same Mod.fit _ (fun m _ => m.fit_askSpool _ _) _ m
theorem Mod.fit_finishLandings (m : Mod) (set : List StageItem) : (m.finishLandings set).fit = m.fit := by
  unfold Mod.finishLandings
  refine Mod.foldl_same Mod.fit _ (fun m n => ?_) _ m
  split
  · rfl
  · exact Mod.foldl_same Mod.fit (fun (m : Mod) (x : SemIn) => m.semLand n x.data) (fun m x => Mod.semLand_same m n x.data (·.fit)) _ m
/-- Making room for the ways of scratch that a set asks of a panel. -/
def Mod.drainWays (set : List StageItem) (m : Mod) (n : Nat) : Mod :=
  if m.afterf set (bPNC n) 3 0 = m.rdf (bPNC n) 3 0 then m else (m.drainPanel n (m.afterf set (bPNC n) 3 0)).wrf (bPNC n + 8) 8 8 1
theorem Mod.fit_drainWays (set : List StageItem) (m : Mod) (n : Nat) : (m.drainWays set n).fit = m.fit := by
  unfold Mod.drainWays
  split
  · rfl
  · exact m.fit_drainPanel n _
/-- The drains of an apply are no business of the fitter's state. -/
theorem Mod.fit_drains (m : Mod) (set : List StageItem) : (m.drains set).fit = m.fit := by
  obtain ⟨m1, hm1⟩ : ∃ u, u = (upto 4).foldl (Mod.drainWays set) m := ⟨_, rfl⟩
  have heq : m.drains set = (if m1.changes set bSPLMAP then m1.zeroSpools else m1).finishLandings set := by rw [hm1]; rfl
  have h1 : m1.fit = m.fit := by rw [hm1]; exact Mod.foldl_same Mod.fit _ (Mod.fit_drainWays set) _ m
  rw [heq, Mod.fit_finishLandings, ← h1]
  split <;> rfl

/-! ## The switch -/

/-- The request that an apply's job answers. -/
def ApplyJob.cmd (j : ApplyJob) : Cmd := { port := j.port, seq := j.seq, ver := j.ver, code := 0x22, part := j.part }
/-- The module with the job of an apply taken. -/
def Mod.jobTaken (m : Mod) : Mod := { m with fit := { m.fit with job := none } }
section
variable {m : Mod} {j : ApplyJob} (hjob : m.fit.job = some j) (hmute : j.mute = false) (hup : (m.core 256).halted = false) (hq : m.fit.queue = [])
include hjob hmute hup hq
theorem Mod.switchJob_fails {f : Fail} (hf : m.jobTaken.checkSet j.port j.ver j.set = some f) {u : Mod}
    (hu : u = m.jobTaken.drainEnds.updHost j.port fun k => { k with set := k.set.foldl putItem j.set }) (flashFails : Bool) :
    u.answered (m.switchJob flashFails) j.cmd f.1 (u.applyBytes (some f)) := by
  have heq : m.switchJob flashFails = (({ u with fit := { u.fit with queue := m.fit.queue } } : Mod).answerCmd j.cmd f.1 (u.applyBytes (some f))).doeAll := by
    unfold Mod.switchJob
    rw [hjob]
    dsimp only
    rw [if_neg (by simp [hup]), show ({ m with fit := { m.fit with job := none } } : Mod) = m.jobTaken from rfl, hf]
    dsimp only
    rw [hmute, hu]
    rfl
  rw [heq, hq, Mod.doeAll_idle (Mod.queue_answerCmd _ _ _ _ rfl)]
  exact u.answered_answerCmd j.cmd f.1 _
theorem Mod.switchJob_settles (hf : m.jobTaken.checkSet j.port j.ver j.set = none) {u : Mod} (hu : u = (m.jobTaken.applySet j.set j.port true).drainEnds)
    (flashFails : Bool) : u.answered (m.switchJob flashFails) j.cmd (if j.save && flashFails then 0x0204 else 0) (u.applyBytes none) := by
  have heq : m.switchJob flashFails = (({ u with fit := { u.fit with queue := m.fit.queue } } : Mod).answerCmd j.cmd
      (if j.save && flashFails then 0x0204 else 0) (u.applyBytes none)).doeAll := by
    unfold Mod.switchJob
    rw [hjob]
    dsimp only
    rw [if_neg (by simp [hup]), show ({ m with fit := { m.fit with job := none } } : Mod) = m.jobTaken from rfl, hf]
    dsimp only
    rw [hmute, hu]
    rfl
  rw [heq, hq, Mod.doeAll_idle (Mod.queue_answerCmd _ _ _ _ rfl)]
  exact u.answered_answerCmd j.cmd _ _
omit hmute hq in
theorem Mod.savedBy_job (flashFails : Bool) : m.savedBy flashFails =
    if (m.jobTaken.checkSet j.port j.ver j.set).isNone && (j.save && !flashFails) then
      Tab.put m.nv.saved j.port (m.mergeSaved (Tab.get [] m.nv.saved j.port) j.set) else m.nv.saved := by
  unfold Mod.savedBy
  rw [hjob]
  dsimp only
  rw [show ({ m with fit := { m.fit with job := none } } : Mod) = m.jobTaken from rfl, hup]
  cases (m.jobTaken.checkSet j.port j.ver j.set).isNone <;> cases j.save <;> cases flashFails <;> rfl
end

/-! ## The settlement -/

/-- CFG_APPLY of a set that its check passes: the set is taken and the drains begin. -/
theorem completes_cfgApply {s : State} {c : Cmd} {d : List Byte} (h : s.m.asked c d) (hc : c.code = 0x22) (h2 : c.f 0 4 < 2) (hz : allZero c 4 4 = true)
    (hf : s.m.taken.checkHost c = none) : completes .cfgApply s fun t => (t.host c.port).set = [] ∧ (t.host c.port).overfull = false ∧ t.fit.queue = [] ∧
      t.fit.job = some { port := c.port, seq := c.seq, ver := c.ver, part := c.part, set := (s.m.host c.port).set, save := c.f 0 1 == 1 } := by
  obtain ⟨u, hu⟩ : ∃ u, u = s.m.taken.drains (s.m.host c.port).set := ⟨_, rfl⟩
  have hfit : u.fit = s.m.taken.fit := by rw [hu, Mod.fit_drains]
  obtain ⟨u1, hu1⟩ : ∃ v, v = u.updHost c.port fun k => { k with set := [], overfull := false } := ⟨_, rfl⟩
  have hlater := Mod.mbxServe_later (mine := (· == 0x22)) (form := fun c => decide (c.f 0 4 < 2) && allZero c 4 4)
    (f := fun c m => match m.checkHost c with
      | some f => .now f.1 (m.applyBytes (some f)) m
      | none =>
        let set := (m.host c.port).set
        let m1 := (m.drains set).updHost c.port fun k => { k with set := [], overfull := false }
        .later { m1 with fit := { m1.fit with job := some { port := c.port, seq := c.seq, ver := c.ver, part := c.part, set := set, save := c.f 0 1 == 1 } } })
    (m1 := { u1 with fit := { u1.fit with job := some { port := c.port, seq := c.seq, ver := c.ver, part := c.part, set := (s.m.host c.port).set, save := c.f 0 1 == 1 } } })
    h (by rw [hc]; rfl) (by rw [hz, decide_eq_true h2]; rfl) (by dsimp only; rw [hf, hu1, hu]; rfl)
  refine completes_run (f := fun m => m.mbxCfgApply) rfl h.2.1 ?_
  rw [show s.m.mbxCfgApply = _ from hlater]
  have hhost : u1.host c.port = { u.host c.port with set := [], overfull := false } := by rw [hu1, Mod.host_updHost, if_pos rfl]
  refine ⟨congrArg HostPort.set hhost, congrArg HostPort.overfull hhost, ?_, rfl⟩
  show u1.fit.queue = []
  rw [hu1]
  exact congrArg Fitter.queue hfit
/-- The configuration commands that reach the fitter in their turn. -/
theorem completes_cfgReg {s : State} {c : Cmd} {d : List Byte} (h : s.m.asked c d) (hc : c.code = 0x06) (ha : c.f 0 4 < 2 ^ 26) (hz : allZero c 4 4 = true) :
    completes .cfgReg s fun t => match s.m.taken.applyNow c.port c.ver [.reg (c.f 0 4) (w64 (c.f 8 8))] c.port false with
      | .inl f => s.m.taken.answered t c f.1 (s.m.taken.genBytes ++ toLe 4 0)
      | .inr m1 => m1.answered t c 0 (m1.genBytes ++ toLe 4 0) := by
  have hform : (decide (c.f 0 4 < 2 ^ 26) && allZero c 4 4) = true := by rw [hz, decide_eq_true ha]; rfl
  cases happ : s.m.taken.applyNow c.port c.ver [.reg (c.f 0 4) (w64 (c.f 8 8))] c.port false with
  | inl f => exact completes_answered rfl h (by rw [hc]; rfl) hform (by rw [happ])
  | inr m1 => exact completes_answered rfl h (by rw [hc]; rfl) hform (by rw [happ])
theorem completes_cfgStage {s : State} {c : Cmd} {d : List Byte} (h : s.m.asked c d) (hc : c.code = 0x20) {l : List (List Byte)} (hl : cutItems 257 c.pay = some l)
    (hread : (l.all fun b => (readItem b).isSome) = true) :
    (((l.filterMap readItem).foldl putItem (s.m.host c.port).set).length ≤ 4096 → completes .cfgStage s fun t =>
      (s.m.taken.updHost c.port fun k => { k with set := (l.filterMap readItem).foldl putItem (s.m.host c.port).set }).answered t c 0
        (toLe 8 ((l.filterMap readItem).foldl putItem (s.m.host c.port).set).length)) ∧
    (4096 < ((l.filterMap readItem).foldl putItem (s.m.host c.port).set).length → completes .cfgStage s fun t =>
      s.m.taken.answered t c 0x0202 (toLe 8 (s.m.host c.port).set.length)) := by
  have hform : (((cutItems 257 c.pay).getD []).all fun b => (readItem b).isSome) = true := by rw [hl]; exact hread
  refine ⟨fun hroom => ?_, fun hfull => ?_⟩
  · refine completes_answered rfl h (by rw [hc]; rfl) hform ?_
    dsimp only
    rw [hl]
    exact if_neg (Nat.not_lt.mpr hroom)
  · refine completes_answered rfl h (by rw [hc]; rfl) hform ?_
    dsimp only
    rw [hl]
    exact if_pos hfull
section
variable {s : State} {c : Cmd} {d : List Byte} (h : s.m.asked c d) (hc : c.code = 0x12) (hz : allZero c 1 7 = true)
include h hc hz
/-- What PART_ADOPT answers, of a partition or of the stewardship. -/
theorem completes_partAdopt (hp : c.f 0 1 < 16 ∨ c.f 0 1 = 0xFF) {st : Nat} {pay : List Byte} {m1 : Mod} (hf : s.m.taken.adoptReply c = .now st pay m1) :
    completes .partAdopt s fun t => m1.answered t c st pay :=
  completes_answered (f := fun c m => m.adoptReply c) (form := fun c => (decide (c.f 0 1 < 16) || c.f 0 1 == 0xFF) && allZero c 1 7) (mine := (· == 0x12)) rfl h
    (by rw [hc]; rfl) (by simpa [hz] using hp) hf
theorem completes_partAdopt_part (hp : c.f 0 1 < 16) :
    (s.m.owns c.port (c.f 0 1) = true → completes .partAdopt s fun t => s.m.taken.answered t c 5 []) ∧
    ((s.m.part (c.f 0 1)).st = .free → completes .partAdopt s fun t => s.m.taken.answered t c 0x0101 (s.m.taken.genBytes ++ toLe 4 0)) ∧
    (s.m.owns c.port (c.f 0 1) = false → (s.m.part (c.f 0 1)).st ≠ .free → ¬ c.knows (s.m.part (c.f 0 1)).digest → completes .partAdopt s fun t =>
      s.m.taken.answered t c 0x0105 (s.m.taken.genBytes ++ toLe 4 0)) ∧
    (s.m.owns c.port (c.f 0 1) = false → (s.m.part (c.f 0 1)).st ≠ .free → c.knows (s.m.part (c.f 0 1)).digest → completes .partAdopt s fun t =>
      (s.m.taken.adopted c).answered t c 0 ((s.m.taken.adopted c).genBytes ++ toLe 4 0)) := by
  have hreply : s.m.taken.adoptReply c = if s.m.owns c.port (c.f 0 1) = true then s.m.taken.adoptFail 0x0005
      else if (s.m.part (c.f 0 1)).st = .free then s.m.taken.adoptFail 0x0101
      else if (padTo 32 (s.m.part (c.f 0 1)).digest).all (· == 0) = true ∨ shake256 ((c.pay.drop 8).take 32) 32 ≠ padTo 32 (s.m.part (c.f 0 1)).digest then
        s.m.taken.adoptFail 0x0105
      else .now 0 ((s.m.taken.adopted c).genBytes ++ toLe 4 0) (s.m.taken.adopted c) := Mod.adoptReply_part (m := s.m.taken) hp
  refine ⟨fun hown => ?_, fun hfree => ?_, fun hown hdef hno => ?_, fun hown hdef hknow => ?_⟩ <;> refine completes_partAdopt h hc hz (.inl hp) (hreply.trans ?_)
  · exact if_pos hown
  · have hown : s.m.owns c.port (c.f 0 1) = false := by unfold Mod.owns; rw [hfree]; rfl
    exact (if_neg (by rw [hown]; decide)).trans (if_pos hfree)
  · exact (if_neg (by rw [hown]; decide)).trans ((if_neg hdef).trans (if_pos (by_contra fun hc => hno ((c.knows_iff _).mpr hc))))
  · exact (if_neg (by rw [hown]; decide)).trans ((if_neg hdef).trans (if_neg ((c.knows_iff _).mp hknow)))
theorem completes_partAdopt_steward (hp : c.f 0 1 = 0xFF) :
    (s.m.fit.steward = c.port → completes .partAdopt s fun t => s.m.taken.answered t c 5 []) ∧
    (s.m.fit.steward ≠ c.port → ¬ c.knows s.m.fit.stewardKey → completes .partAdopt s fun t =>
      s.m.taken.answered t c 0x0105 (s.m.taken.genBytes ++ toLe 4 0)) ∧
    (s.m.fit.steward ≠ c.port → c.knows s.m.fit.stewardKey → completes .partAdopt s fun t =>
      (s.m.taken.adopted c).answered t c 0 ((s.m.taken.adopted c).genBytes ++ toLe 4 0)) := by
  have hreply : s.m.taken.adoptReply c = if s.m.fit.steward = c.port then s.m.taken.adoptFail 0x0005
      else if (padTo 32 s.m.fit.stewardKey).all (· == 0) = true ∨ shake256 ((c.pay.drop 8).take 32) 32 ≠ padTo 32 s.m.fit.stewardKey then s.m.taken.adoptFail 0x0105
      else .now 0 ((s.m.taken.adopted c).genBytes ++ toLe 4 0) (s.m.taken.adopted c) := Mod.adoptReply_steward (m := s.m.taken) hp
  refine ⟨fun hown => ?_, fun hother hno => ?_, fun hother hknow => ?_⟩ <;> refine completes_partAdopt h hc hz (.inr hp) (hreply.trans ?_)
  · exact if_pos hown
  · exact (if_neg hother).trans (if_pos (by_contra fun hc => hno ((c.knows_iff _).mpr hc)))
  · exact (if_neg hother).trans (if_neg ((c.knows_iff _).mp hknow))
end
theorem Mod.answered.parts {m t : Mod} {c : Cmd} {st : Nat} {pay : List Byte} (h : m.answered t c st pay) : t.parts = m.parts := by
  obtain ⟨⟨-, -, -, -, -, -, -, hrest⟩, -, -, -⟩ := h
  exact (congrArg Mod.parts hrest :)
/-- Settles O50, command by command. -/
theorem mailboxConfiguration : Obligations.MailboxConfiguration := by
  unfold Obligations.MailboxConfiguration
  intro s
  refine ⟨fun h d hpow hserves hphase hqueue hcode hver hcut => ?_, fun c d h => ⟨fun hc ha hz => completes_cfgReg h hc ha hz, fun hc hf => ?_,
    fun hc hp hz => ⟨fun hfree => ?_, fun hdef => ?_⟩, fun hc hz => ⟨fun hp => ?_, fun hp => ?_⟩, fun hc => ⟨fun l hl hbad => ?_,
      fun l hl hread => completes_cfgStage h hc hl hread⟩,
    fun hc => ⟨fun hf => ?_, fun f hf => ?_⟩, fun hc h2 hz => ⟨fun f hf => ?_, fun hf => completes_cfgApply h hc h2 hz hf⟩, fun hc => ?_⟩,
    fun j flashFails hpow hjob hmute hport hup hq => ⟨fun f hf => ?_, fun hf => ?_⟩⟩
  · obtain ⟨c, hread, hp, hs, hv, hc⟩ := Mod.readCmd_uncut (seq := s.m.rdf (bMBX h.val + 8) 47 32) hcode hphase hver hcut
    exact completes_run (f := fun m => m.mbxCfgStage) rfl hpow
      ⟨c, hp, hs, hv, hc, Mod.answered_within (Mod.mbxServe_bad hserves hqueue rfl (by rw [hcode]; rfl) hread) _ _⟩
  · exact completes_stages (mine := (· == 0x10)) (form := Cmd.partForm) rfl h (by rw [hc]; rfl) hf rfl
  · refine completes_answered rfl h (by rw [hc]; rfl) (by simpa [hz] using hp) ?_
    exact if_pos hfree
  · refine completes_stages rfl h (by rw [hc]; rfl) (by simpa [hz] using hp) ?_
    exact if_neg hdef
  · obtain ⟨howned, hfree, hunknown, hknown⟩ := completes_partAdopt_part h hc hz hp
    refine ⟨howned, hfree, hunknown, fun hown hdef hknow => ?_⟩
    rw [Mod.adopted_part hp] at hknown
    refine (hknown hown hdef hknow).mono fun t ht => ?_
    have hpart := (Mod.part_congr ht.parts (c.f 0 1)).trans (Mod.part_adopt _ c.port (c.f 0 1) ((c.pay.drop 0x28).take 32))
    exact ⟨congrArg Part.owner hpart, congrArg Part.digest hpart, ht⟩
  · obtain ⟨howned, hunknown, hknown⟩ := completes_partAdopt_steward h hc hz hp
    refine ⟨howned, hunknown, fun hother hknow => ?_⟩
    rw [Mod.adopted_steward hp] at hknown
    refine (hknown hother hknow).mono fun t ht => ?_
    obtain ⟨⟨-, -, -, -, -, -, hfit, -⟩, hstored, -, -⟩ := ht
    exact ⟨congrArg Fitter.steward hfit, congrArg Fitter.stewardKey hfit, hstored⟩
  · refine completes_run (f := fun m => m.mbxCfgStage) rfl h.2.1 (Mod.answered_within (Mod.mbxServe_malformed h (by rw [hc]; rfl) ?_) _ _)
    rw [hl]
    show (l.all fun b => (readItem b).isSome) = false
    rw [List.any_eq_true] at hbad
    obtain ⟨b, hb, hnone⟩ := hbad
    refine List.all_eq_false.mpr ⟨b, hb, ?_⟩
    rw [Option.isNone_iff_eq_none.mp hnone]
    decide
  · exact completes_answered rfl h (by rw [hc]; rfl) rfl (by rw [hf])
  · exact completes_answered rfl h (by rw [hc]; rfl) rfl (by rw [hf])
  · exact completes_answered rfl h (by rw [hc]; rfl) (by rw [hz, decide_eq_true h2]; rfl) (by rw [hf])
  · exact completes_answered rfl h (by rw [hc]; rfl) rfl rfl
  · refine completes_wide (f := fun m => m.applySwitch flashFails) rfl hpow ⟨?_, ?_⟩
    · show ({ s.m.nv with saved := s.m.savedBy flashFails } : NonVol) = s.m.nv
      rw [Mod.savedBy_job hjob hup, show s.m.jobTaken.checkSet j.port j.ver j.set = some f from hf]
      rfl
    · exact Mod.answered_within (Mod.switchJob_fails hjob hmute hup hq hf rfl flashFails) _ _
  · refine completes_wide (f := fun m => m.applySwitch flashFails) rfl hpow ⟨?_, ?_⟩
    · exact Mod.answered_within (Mod.switchJob_settles hjob hmute hup hq hf rfl flashFails) _ _
    · show s.m.savedBy flashFails = _
      rw [Mod.savedBy_job hjob hup, show s.m.jobTaken.checkSet j.port j.ver j.set = none from hf]
      rfl

end Sys2Proof.Machine
end

section
/-! Images: bytes of flash, and pushes under running firmware and in recovery (R550, R551, R555, R556). -/

namespace Sys2Proof.Machine

/-! ## Flash -/

theorem NonVol.byte_put (bs : List Byte) (v : NonVol) (a b : Nat) :
    (v.put a bs).byte b = if a ≤ b ∧ b < a + bs.length then bs.getD (b - a) 0 else v.byte b := by
  induction bs generalizing v a with
  | nil => rw [if_neg (by simp only [List.length_nil]; omega)]; rfl
  | cons x xs ih =>
    rw [NonVol.put, ih]
    have hone : NonVol.byte { v with flash := Tab.setD 0xFF#8 v.flash a x } b = if a = b then x else v.byte b := Tab.get_setD _ _ _ _ _
    rw [hone]
    by_cases hab : a = b
    · subst hab
      rw [if_neg (by omega), if_pos rfl, if_pos ⟨Nat.le_refl a, by simp only [List.length_cons]; omega⟩, Nat.sub_self]; rfl
    · rw [if_neg hab, List.length_cons]
      by_cases hin : a + 1 ≤ b ∧ b < a + 1 + xs.length
      · rw [if_pos hin, if_pos (by omega), show b - a = b - (a + 1) + 1 by omega, List.getD_cons_succ]
      · rw [if_neg hin, if_neg (by omega)]
/-- A sector that is erased reads 0xFF. -/
theorem NonVol.byte_erase (v : NonVol) (lo hi a : Nat) :
    NonVol.byte { v with flash := Tab.clear v.flash lo hi } a = if lo ≤ a ∧ a < hi then 0xFF else v.byte a := by
  simp only [NonVol.byte, Tab.get, Tab.get?_clear]
  split <;> rfl

/-! ## What an answer leaves of memories, fuses and power -/

theorem Mod.pushed_answerCmd (m : Mod) (c : Cmd) (st : Nat) (pay : List Byte) : (m.answerCmd c st pay).nv = m.nv ∧ (m.answerCmd c st pay).pwr = m.pwr := by
  unfold Mod.answerCmd Mod.writeResp
  dsimp only
  split <;> exact ⟨rfl, rfl⟩
/-- The answer to a push of firmware, from the state that the push left. -/
def Mod.tells (m t : Mod) (c : Cmd) (st k : Nat) : Prop :=
  ((t.host c.port).stored = some (respBytes c.seq c.code c.ver c.part st (toLe 8 k)) ∧ t.rdf (bMBX c.port + 8) 47 32 = (c.seq + 1) % 2 ^ 16 ∧ t.fit.queue = []) ∧
    t.nv = m.nv ∧ t.pwr = m.pwr ∧ t.sram = m.sram ∧ t.cores = m.cores ∧ t.fit = { m.fit with queue := [] }
/-- What FW_PUSH answers. -/
def Mod.pushReply (m : Mod) (c : Cmd) (flashFails : Bool) (unblown : BitVec 7) : Reply :=
  if m.fit.phase = .recovery then m.pushSram flashFails unblown.toNat (c.f 0 4) (c.f 4 4 == 1) (c.pay.drop 8)
  else m.pushFlash flashFails (c.f 0 4) (c.f 4 4 == 1) (c.pay.drop 8)
theorem completes_fwPush {s : State} {c : Cmd} {d : List Byte} {flashFails : Bool} {unblown : BitVec 7} (h : s.m.asked c d) (hc : c.code = 0x51) (h2 : c.f 4 4 < 2)
    {st k : Nat} {m1 : Mod} (hf : s.m.taken.pushReply c flashFails unblown = .now st (toLe 8 k) m1)
    (hseq : m1.rdf (bMBX c.port + 8) 47 32 = s.m.rdf (bMBX c.port + 8) 47 32) : completes (.fwPush flashFails unblown) s fun t => m1.tells t c st k := by
  have hnow := Mod.mbxServe_now (mine := (· == 0x51)) (form := fun c => decide (c.f 4 4 < 2)) (f := fun c m => m.pushReply c flashFails unblown) h (by rw [hc]; rfl)
    (decide_eq_true h2) hf
  refine completes_wide (f := fun m => m.mbxFwPush flashFails unblown) rfl h.2.1 ?_
  rw [show s.m.mbxFwPush flashFails unblown = _ from hnow]
  obtain ⟨⟨-, -, -, -, -, -, hfit, hrest⟩, hstored, hexp, -⟩ := m1.answered_answerCmd c st (toLe 8 k)
  obtain ⟨hnv, hpwr⟩ := ({ m1 with fit := { m1.fit with queue := [] } } : Mod).pushed_answerCmd c st (toLe 8 k)
  obtain ⟨-, -, -, -, hasked, -, -⟩ := h
  exact ⟨⟨hstored, hexp.trans (by rw [hseq, hasked]), congrArg Fitter.queue hfit⟩, hnv, hpwr, (congrArg Mod.sram hrest :), (congrArg Mod.cores hrest :), hfit⟩

/-! ## Pushes under running firmware -/

section
variable {m : Mod} {flashFails last : Bool} {off : Nat} {data : List Byte}
/-- The bytes of a push come in order: at its start, or where the last ended. -/
def Mod.inTurn (m : Mod) (off : Nat) : Prop := off = if off = 0 then 0 else m.fit.pushed
theorem Mod.pushFlash_astray (h : ¬ m.inTurn off) : m.pushFlash flashFails off last data = .now 0x0301 (toLe 8 m.fit.pushed) m := by
  have h0 : off ≠ 0 := fun h0 => h (by rw [Mod.inTurn, if_pos h0]; exact h0)
  have hp : off ≠ m.fit.pushed := fun hp => h (by rw [Mod.inTurn, if_neg h0]; exact hp)
  unfold Mod.pushFlash
  dsimp only
  rw [if_neg h0, if_pos hp]
theorem Mod.pushFlash_beyond (h : m.inTurn off) (h0 : off ≠ 0) (hn : 0x400000 < off + data.length) :
    m.pushFlash flashFails off last data = .now 0x0302 (toLe 8 m.fit.pushed) m := by
  rw [Mod.inTurn, if_neg h0] at h
  unfold Mod.pushFlash
  dsimp only
  rw [if_neg h0, if_neg (not_not.mpr h), if_pos hn]
/-- What a push finds in flash: at its start its slot's header is erased. -/
def Mod.pushOnto (m : Mod) (off : Nat) : NonVol :=
  if off = 0 then { m.nv with flash := Tab.clear m.nv.flash (slotBase m.otherSlot) (slotBase m.otherSlot + 0x1000) } else m.nv
/-- The flash that a push leaves. -/
def Mod.pushedFlash (m : Mod) (flashFails : Bool) (off : Nat) (data : List Byte) : NonVol :=
  if flashFails then m.pushOnto off else (m.pushOnto off).put (slotBase m.otherSlot + off) data
theorem Mod.pushFlash_takes (h : m.inTurn off) (hn : off + data.length ≤ 0x400000) {v : NonVol} (hv : v = m.pushedFlash flashFails off data) :
    m.pushFlash flashFails off last data = .now (if last && !v.accepts (v.image m.otherSlot) then 0x0303 else 0) (toLe 8 (off + data.length))
      { m with nv := v, fit := { m.fit with pushed := off + data.length } } := by
  rw [hv]
  unfold Mod.pushFlash Mod.pushedFlash Mod.pushOnto
  dsimp only
  by_cases h0 : off = 0
  · simp only [if_pos h0]
    rw [if_neg (not_not.mpr h0), if_neg (by omega)]
    rfl
  · rw [Mod.inTurn, if_neg h0] at h
    simp only [if_neg h0]
    rw [if_neg (not_not.mpr h), if_neg (by omega)]
    rfl
theorem Mod.pushedFlash_fuses (m : Mod) (flashFails : Bool) (off : Nat) (data : List Byte) :
    (m.pushedFlash flashFails off data).svn = m.nv.svn ∧ (m.pushedFlash flashFails off data).saved = m.nv.saved := by
  have honto : (m.pushOnto off).svn = m.nv.svn ∧ (m.pushOnto off).saved = m.nv.saved := by unfold Mod.pushOnto; split <;> exact ⟨rfl, rfl⟩
  obtain ⟨hsvn, -, hsaved⟩ := (m.pushOnto off).put_fuses (slotBase m.otherSlot + off) data
  unfold Mod.pushedFlash
  split
  · exact honto
  · exact ⟨hsvn.trans honto.1, hsaved.trans honto.2⟩
theorem Mod.byte_pushedFlash (m : Mod) (flashFails : Bool) (off : Nat) (data : List Byte) (a : Nat) : (m.pushedFlash flashFails off data).byte a =
    if flashFails = false ∧ slotBase m.otherSlot + off ≤ a ∧ a < slotBase m.otherSlot + (off + data.length) then data.getD (a - (slotBase m.otherSlot + off)) 0
    else if off = 0 ∧ slotBase m.otherSlot ≤ a ∧ a < slotBase m.otherSlot + 0x1000 then 0xFF else m.nv.byte a := by
  have honto : (m.pushOnto off).byte a = if off = 0 ∧ slotBase m.otherSlot ≤ a ∧ a < slotBase m.otherSlot + 0x1000 then 0xFF else m.nv.byte a := by
    unfold Mod.pushOnto
    by_cases h0 : off = 0
    · rw [if_pos h0, NonVol.byte_erase]
      exact if_congr (by simp only [h0, true_and]) rfl rfl
    · rw [if_neg h0, if_neg (by simp only [h0, false_and, not_false_eq_true])]
  rw [← honto]
  unfold Mod.pushedFlash
  cases flashFails with
  | true => exact (if_neg fun h => Bool.noConfusion h.1).symm
  | false =>
    show ((m.pushOnto off).put _ data).byte a = _
    rw [NonVol.byte_put]
    exact if_congr (by simp only [true_and, Nat.add_assoc]) rfl rfl
end

/-! ## Pushes in recovery -/

section
variable {m : Mod} {flashFails last : Bool} {unblown off : Nat} {data : List Byte}
theorem Mod.pushSram_astray (h : ¬ m.inTurn off) : m.pushSram flashFails unblown off last data = .now 0x0301 (toLe 8 m.fit.pushed) m := by
  have h0 : off ≠ 0 := fun h0 => h (by rw [Mod.inTurn, if_pos h0]; exact h0)
  have hp : off ≠ m.fit.pushed := fun hp => h (by rw [Mod.inTurn, if_neg h0]; exact hp)
  unfold Mod.pushSram
  dsimp only
  rw [if_neg h0, if_pos hp]
theorem Mod.pushSram_beyond (h : m.inTurn off) (h0 : off ≠ 0) (hn : 0x400000 < off + data.length) :
    m.pushSram flashFails unblown off last data = .now 0x0302 (toLe 8 m.fit.pushed) m := by
  rw [Mod.inTurn, if_neg h0] at h
  unfold Mod.pushSram
  dsimp only
  rw [if_neg h0, if_neg (not_not.mpr h), if_pos hn]
/-- The bytes of an image that stands in SRAM. -/
def ramImage (ram : Tab Byte) (n : Nat) : Image0 := imageOf (fun a k => Memory.bytes ram a k) n
/-- SRAM with a push's bytes. -/
def Mod.pushedSram (m : Mod) (off : Nat) (data : List Byte) : Tab Byte := Memory.setBytes (if off = 0 then [] else m.sram) off data
/-- Flash once an image of `n` bytes in SRAM has been kept in slot A. -/
def NonVol.keep (v : NonVol) (flashFails : Bool) (ram : Tab Byte) (n : Nat) : NonVol := if flashFails then v else v.put (slotBase 0) (Memory.bytes ram 0 n)
theorem Mod.pushSram_takes (h : m.inTurn off) (hn : off + data.length ≤ 0x400000) {ram : Tab Byte} (hram : ram = m.pushedSram off data) {m1 : Mod}
    (hm1 : m1 = { m with sram := ram, fit := { m.fit with pushed := off + data.length } }) : m.pushSram flashFails unblown off last data =
      if last = false then .now 0 (toLe 8 (off + data.length)) m1
      else if m.nv.accepts (ramImage ram (off + data.length)) = false then .now 0x0303 (toLe 8 (off + data.length)) m1
      else .now 0 (toLe 8 (off + data.length)) (({ m1 with nv := m.nv.keep flashFails ram (off + data.length) } : Mod).bootImage
        (ramImage ram (off + data.length)) 2 unblown) := by
  rw [hm1, hram]
  unfold Mod.pushSram Mod.pushedSram
  dsimp only
  by_cases h0 : off = 0
  · simp only [if_pos h0, Bool.not_eq_true']
    rw [if_neg (not_not.mpr h0), if_neg (by omega)]
    rfl
  · rw [Mod.inTurn, if_neg h0] at h
    simp only [if_neg h0, Bool.not_eq_true']
    rw [if_neg (not_not.mpr h), if_neg (by omega)]
    rfl
theorem NonVol.svn_keep (v : NonVol) (flashFails : Bool) (ram : Tab Byte) (n : Nat) : (v.keep flashFails ram n).svn = v.svn := by
  unfold NonVol.keep
  split
  · rfl
  · exact (v.put_fuses _ _).1
theorem NonVol.byte_keep (v : NonVol) (flashFails : Bool) (ram : Tab Byte) (n a : Nat) :
    (v.keep flashFails ram n).byte a = if flashFails = false ∧ a < n then Memory.byte ram a else v.byte a := by
  unfold NonVol.keep
  cases flashFails with
  | true => exact (if_neg fun h => Bool.noConfusion h.1).symm
  | false =>
    show (v.put (slotBase 0) (Memory.bytes ram 0 n)).byte a = _
    rw [NonVol.byte_put, Memory.bytes_length]
    have hbase : slotBase 0 = 0 := rfl
    by_cases ha : a < n
    · rw [if_pos ⟨by omega, by omega⟩, if_pos ⟨rfl, ha⟩, hbase, Nat.sub_zero, Memory.bytes_getD _ _ _ _ ha, Nat.zero_add]
    · rw [if_neg (by omega), if_neg (by simp only [ha, and_false, not_false_eq_true])]
end

/-! ## The boot of an image -/

/-- What the boot of an image leaves: the firmware runs, the fitter's core at ENTRY, the sequencer at RUN, and the SVN fuses blown as far as they could. -/
theorem Mod.bootImage_shows (m : Mod) (x : Image0) (slot unblown : Nat) : (m.bootImage x slot unblown).nv = { m.nv with svn := max m.nv.svn (x.svn - unblown) } ∧
    (m.bootImage x slot unblown).pwr = { m.pwr with seq := 3 } ∧ (m.bootImage x slot unblown).sram = Memory.setBytes [] 0 x.body ∧
    (m.bootImage x slot unblown).fit = { m.fit with
      phase := .running, step := .booted, slot := slot, svn := x.svn, version := x.version, m1 := x.m1, pushed := 0
      steward := if (m.host 0).linked then 0 else 1 } ∧
    ((m.bootImage x slot unblown).core 256).bank.pc = w64 (x.f 0x14 4) ∧ (m.bootImage x slot unblown).rdf bPWR 3 0 = 3 ∧
    ∀ a, a ≠ bPWR → (m.bootImage x slot unblown).rd a = m.rd a := by
  refine ⟨rfl, rfl, rfl, rfl, ?_, ?_, fun a ha => ?_⟩
  · obtain ⟨u, hu⟩ : ∃ u : Mod, u = { m with
      sram := Memory.setBytes [] 0 x.body
      nv := { m.nv with svn := max m.nv.svn (x.svn - unblown) }
      fit := { m.fit with
        phase := .running, step := .booted, slot := slot, svn := x.svn, version := x.version, m1 := x.m1, pushed := 0
        steward := if (m.host 0).linked then 0 else 1 } } := ⟨_, rfl⟩
    have heq : m.bootImage x slot unblown = (u.updCore 256 fun k => k.bootAt (x.f 0x14 4)).setSeq 3 := by rw [hu]; rfl
    rw [heq]
    show ((u.updCore 256 fun k => k.bootAt (x.f 0x14 4)).core 256).bank.pc = _
    rw [Mod.core_updCore_self]
    rfl
  · exact Mod.rdf_wrf_self _ bPWR 3 0 3 (by decide)
  · exact Mod.rd_wrf_ne _ _ _ _ ha

/-! ## The settlement -/

section
variable {s : State} {c : Cmd} {d : List Byte} {flashFails : Bool} {unblown : BitVec 7} (h : s.m.asked c d) (hc : c.code = 0x51) (h2 : c.f 4 4 < 2)
include h hc h2
/-- Bytes out of their order, or beyond the slot, change nothing. -/
theorem completes_fwPush_astray (ht : ¬ s.m.inTurn (c.f 0 4)) : completes (.fwPush flashFails unblown) s fun t => s.m.taken.tells t c 0x0301 s.m.fit.pushed := by
  refine completes_fwPush h hc h2 ?_ rfl
  unfold Mod.pushReply
  split
  · exact Mod.pushSram_astray (m := s.m.taken) ht
  · exact Mod.pushFlash_astray (m := s.m.taken) ht
theorem completes_fwPush_beyond (ht : s.m.inTurn (c.f 0 4)) (h0 : c.f 0 4 ≠ 0) (hn : 0x400000 < c.f 0 4 + (c.pay.drop 8).length) :
    completes (.fwPush flashFails unblown) s fun t => s.m.taken.tells t c 0x0302 s.m.fit.pushed := by
  refine completes_fwPush h hc h2 ?_ rfl
  unfold Mod.pushReply
  split
  · exact Mod.pushSram_beyond (m := s.m.taken) ht h0 hn
  · exact Mod.pushFlash_beyond (m := s.m.taken) ht h0 hn
/-- Under running firmware the bytes go to the slot that did not boot. -/
theorem completes_fwPush_running (hrun : s.m.fit.phase = .running) (ht : s.m.inTurn (c.f 0 4)) (hn : c.f 0 4 + (c.pay.drop 8).length ≤ 0x400000) {v : NonVol}
    (hv : v = s.m.pushedFlash flashFails (c.f 0 4) (c.pay.drop 8)) : completes (.fwPush flashFails unblown) s fun t =>
      ({ s.m.taken with nv := v, fit := { s.m.taken.fit with pushed := c.f 0 4 + (c.pay.drop 8).length } } : Mod).tells t c
        (if (c.f 4 4 == 1) && !v.accepts (v.image s.m.otherSlot) then 0x0303 else 0) (c.f 0 4 + (c.pay.drop 8).length) := by
  refine completes_fwPush h hc h2 ?_ rfl
  have hphase : ¬ s.m.taken.fit.phase = .recovery := by rw [show s.m.taken.fit.phase = .running from hrun]; decide
  exact (if_neg hphase).trans (Mod.pushFlash_takes (m := s.m.taken) ht hn hv)
/-- In recovery they go to SRAM. -/
theorem completes_fwPush_recovery (hrec : s.m.fit.phase = .recovery) (ht : s.m.inTurn (c.f 0 4)) (hn : c.f 0 4 + (c.pay.drop 8).length ≤ 0x400000)
    {ram : Tab Byte} (hram : ram = s.m.pushedSram (c.f 0 4) (c.pay.drop 8)) {m1 : Mod}
    (hm1 : m1 = { s.m.taken with sram := ram, fit := { s.m.taken.fit with pushed := c.f 0 4 + (c.pay.drop 8).length } }) :
    (¬ c.f 4 4 = 1 → completes (.fwPush flashFails unblown) s fun t => m1.tells t c 0 (c.f 0 4 + (c.pay.drop 8).length)) ∧
    (c.f 4 4 = 1 → s.m.nv.accepts (ramImage ram (c.f 0 4 + (c.pay.drop 8).length)) = false → completes (.fwPush flashFails unblown) s fun t =>
      m1.tells t c 0x0303 (c.f 0 4 + (c.pay.drop 8).length)) ∧
    (c.f 4 4 = 1 → s.m.nv.accepts (ramImage ram (c.f 0 4 + (c.pay.drop 8).length)) = true → completes (.fwPush flashFails unblown) s fun t =>
      (({ m1 with nv := s.m.nv.keep flashFails ram (c.f 0 4 + (c.pay.drop 8).length) } : Mod).bootImage (ramImage ram (c.f 0 4 + (c.pay.drop 8).length)) 2
        unblown.toNat).tells t c 0 (c.f 0 4 + (c.pay.drop 8).length)) := by
  have hreply : s.m.taken.pushReply c flashFails unblown = _ := (if_pos hrec).trans (Mod.pushSram_takes (m := s.m.taken) ht hn hram hm1)
  have hregs : m1.rdf (bMBX c.port + 8) 47 32 = s.m.rdf (bMBX c.port + 8) 47 32 := by rw [hm1]; rfl
  refine ⟨fun hlast => ?_, fun hlast hbad => ?_, fun hlast hok => ?_⟩
  · exact completes_fwPush h hc h2 (hreply.trans (if_pos (beq_eq_false_iff_ne.mpr hlast))) hregs
  · exact completes_fwPush h hc h2 (hreply.trans ((if_neg (by rw [hlast]; decide)).trans (if_pos hbad))) hregs
  · refine completes_fwPush h hc h2 (hreply.trans ((if_neg (by rw [hlast]; decide)).trans (if_neg (ne_false_of_eq_true hok)))) ?_
    obtain ⟨-, -, -, -, -, -, hrd⟩ := ({ m1 with nv := s.m.nv.keep flashFails ram (c.f 0 4 + (c.pay.drop 8).length) } : Mod).bootImage_shows
      (ramImage ram (c.f 0 4 + (c.pay.drop 8).length)) 2 unblown.toNat
    have hapart : bMBX c.port + 8 ≠ bPWR := by simp only [bMBX, bPWR, portStride]; omega
    rw [← hregs]
    exact congrArg (fld · 47 32) (hrd _ hapart)
end
/-- Settles O52, offset by offset: what flash or SRAM takes, and what the answer tells. -/
theorem pushedImages : Obligations.PushedImages := by
  unfold Obligations.PushedImages
  intro s c d flashFails unblown h hc h2
  refine ⟨fun ht => ?_, fun ht h0 hn => ?_, fun hrun ht hn => ?_, fun hrec ht hn => ⟨fun hlast => ?_, fun hlast hbad => ?_, fun hlast hok => ?_⟩⟩
  · refine (completes_fwPush_astray h hc h2 ht).mono fun t ⟨htold, hnv, hpwr, hsram, hcores, hfit⟩ => ?_
    exact ⟨htold, hnv, hsram, (congrArg Fitter.pushed hfit :)⟩
  · exact (completes_fwPush_beyond h hc h2 ht h0 hn).mono fun t ⟨htold, hnv, hpwr, hsram, hcores, hfit⟩ => ⟨htold, hnv, hsram⟩
  · obtain ⟨v, hv⟩ : ∃ v, v = s.m.pushedFlash flashFails (c.f 0 4) (c.pay.drop 8) := ⟨_, rfl⟩
    obtain ⟨hsvn, hsaved⟩ := s.m.pushedFlash_fuses flashFails (c.f 0 4) (c.pay.drop 8)
    have hbyte := s.m.byte_pushedFlash flashFails (c.f 0 4) (c.pay.drop 8)
    rw [← hv] at hsvn hsaved hbyte
    refine (completes_fwPush_running h hc h2 hrun ht hn hv).mono fun t ⟨htold, hnv, hpwr, hsram, hcores, hfit⟩ => ?_
    have hnv' : t.nv = v := hnv
    rw [hnv']
    refine ⟨congrArg Fitter.pushed hfit, hsvn, hsaved, hsram, hbyte, fun hlast hbad => ?_, fun hok => ?_⟩
    · rwa [if_pos (by rw [hlast, hbad]; rfl)] at htold
    · rwa [if_neg (by rcases hok with h | h <;> simp [h])] at htold
  all_goals
    obtain ⟨hmore, hbadImage, hboots⟩ := completes_fwPush_recovery (flashFails := flashFails) (unblown := unblown) h hc h2 hrec ht hn rfl rfl
  · exact (hmore hlast).mono fun t ⟨htold, hnv, hpwr, hsram, hcores, hfit⟩ =>
      ⟨htold, hsram, hnv, congrArg Fitter.pushed hfit, (congrArg Fitter.phase hfit).trans hrec⟩
  · exact (hbadImage hlast hbad).mono fun t ⟨htold, hnv, hpwr, hsram, hcores, hfit⟩ => ⟨htold, hnv, (congrArg Fitter.phase hfit).trans hrec⟩
  · refine (hboots hlast hok).mono fun t ⟨htold, hnv, hpwr, hsram, hcores, hfit⟩ => ?_
    obtain ⟨hbnv, hbpwr, hbsram, hbfit, hbpc, -, -⟩ := Mod.bootImage_shows
      ({ s.m.taken with
        sram := s.m.pushedSram (c.f 0 4) (c.pay.drop 8), fit := { s.m.taken.fit with pushed := c.f 0 4 + (c.pay.drop 8).length }
        nv := s.m.nv.keep flashFails (s.m.pushedSram (c.f 0 4) (c.pay.drop 8)) (c.f 0 4 + (c.pay.drop 8).length) } : Mod)
      (ramImage (s.m.pushedSram (c.f 0 4) (c.pay.drop 8)) (c.f 0 4 + (c.pay.drop 8).length)) 2 unblown.toNat
    have hnv' := hnv.trans hbnv
    have hfit' := hfit.trans (congrArg (fun f : Fitter => { f with queue := [] }) hbfit)
    refine ⟨htold, congrArg Fitter.phase hfit', congrArg Fitter.step hfit', congrArg Fitter.slot hfit', hpwr.trans hbpwr, ?_, ?_, fun a => ?_⟩
    · rw [hnv']
      show max (NonVol.keep s.m.nv flashFails _ _).svn _ = _
      rw [NonVol.svn_keep]
      rfl
    · have hcore : t.core 256 = _ := congrArg (fun q => Tab.get ({} : Core) q 256) hcores
      exact (congrArg (fun k : Core => k.bank.pc) hcore).trans hbpc
    · rw [hnv']
      exact NonVol.byte_keep s.m.nv flashFails _ _ a

end Sys2Proof.Machine
end

section
/-! The wait for warmth is an event of power, and events of power interrupt the fitter (R270, R610): the refutation of the statement on the boot sequence. -/

namespace Sys2Proof.Machine

/-- What a command of the whole machine shows holds of what it leaves. -/
theorem completes.of_wide {i : Instr} {s : State} {P : Mod → Prop} {f : Mod → Mod} (h : completes i s P) (hi : exec i s = s.wide f)
    (hpow : s.m.powered = true) : P (f s.m) := by
  obtain ⟨t, ht, -, hp⟩ := h
  rw [hi, State.wide_powered s f hpow] at ht
  cases ht
  exact hp
/-- The firmware has booted, and a spool group reads below 0 °C. -/
def coldStart : Mod :=
  ({ fit := { phase := .running, step := .booted }, pwr := { groups := 6, seq := 3, standby := true, converter := true, enable := true } } : Mod).wr
    (bPWR + 0x200 + 8 * 4) (w64 (2 ^ 15))
/-- The fitter's interrupt 23 pends once training waits. -/
theorem coldStart_interrupts : coldStart.spoolTraining.fit.irq = [23] ∧ coldStart.fit.irq = [] := by decide +kernel
/-- Refutes O51: where training waits in COLD, the event of power makes the fitter's interrupt 23 pend, so that more than the step of its state changes. -/
theorem not_bootSequence : ¬ Obligations.BootSequence := by
  unfold Obligations.BootSequence
  intro h
  have hpow : coldStart.powered = true := by decide +kernel
  obtain ⟨-, -, hruns⟩ := h { m := coldStart } hpow
  obtain ⟨-, hcold, -⟩ := hruns (by decide +kernel)
  obtain ⟨hfit, -⟩ := (hcold (by decide +kernel) (by decide +kernel)).of_wide rfl hpow
  obtain ⟨hafter, hbefore⟩ := coldStart_interrupts
  have hirq : coldStart.spoolTraining.fit.irq = coldStart.fit.irq := (congrArg Fitter.irq hfit :)
  rw [hafter, hbefore] at hirq
  exact absurd hirq (by decide)

end Sys2Proof.Machine
end

section
/-! Resets of the host ports (R512, R514, R515): what ends with a port's link, and what of its mailbox returns to reset. -/

namespace Sys2Proof.Machine

/-! ## Registers beyond those of the caches -/

/-- The ports, and the registers of the second of them and all above, are as they were. -/
def Mod.far (m t : Mod) : Prop := t.hosts = m.hosts ∧ ∀ a, portStride ≤ a → t.rd a = m.rd a
theorem Mod.far_refl (m : Mod) : m.far m := ⟨rfl, fun _ _ => rfl⟩
theorem Mod.far_trans {m t u : Mod} (h : m.far t) (g : t.far u) : m.far u := ⟨g.1.trans h.1, fun a ha => (g.2 a ha).trans (h.2 a ha)⟩
theorem Mod.far_after {m t u : Mod} (g : t.far u) (h : m.far t) : m.far u := Mod.far_trans h g
theorem Mod.far_foldl {β : Type} (f : Mod → β → Mod) (h : ∀ (m : Mod) x, m.far (f m x)) (xs : List β) (m : Mod) : m.far (xs.foldl f m) :=
  foldl_keeps Mod.far Mod.far_refl Mod.far_trans f h xs m
theorem Mod.far_of_bar {m t : Mod} (h : t.bar0 = m.bar0) (hh : t.hosts = m.hosts) : m.far t := ⟨hh, fun a _ => by simp only [Mod.rd, h]⟩
theorem Mod.far_wr (m : Mod) {a : Nat} (v : W64) (ha : a < portStride) : m.far (m.wr a v) := ⟨rfl, fun _ hb => Mod.rd_wr_ne m v (by omega)⟩
theorem Mod.far_askRange (m : Mod) (pa : Nat) (write partialW : Bool) (k : Nat) : m.far (m.askRange pa write partialW k) := by
  have := m.place_spool_lt pa
  unfold Mod.askRange
  dsimp only
  split
  · exact Mod.far_wr m _ (by simp only [bSPL, portStride]; omega)
  · exact Mod.far_of_bar rfl rfl
theorem Mod.far_askWrite (m : Mod) (la lo hi : Nat) : m.far (m.askWrite la lo hi) := by
  unfold Mod.askWrite
  split
  · exact Mod.far_askRange m _ _ _ _
  · refine Mod.far_foldl _ (fun m b => ?_) _ m
    dsimp only
    split_ifs
    · exact Mod.far_refl m
    · exact Mod.far_askRange m _ _ _ _
    · exact Mod.far_askRange m _ _ _ _
theorem Mod.far_pncPut (m : Mod) (la age : Nat) (dirty : Bool) : m.far (m.pncPut la age dirty) := by
  have := m.homePanel_lt la
  unfold Mod.pncPut
  dsimp only
  split
  · exact Mod.far_of_bar rfl rfl
  · split
    · split
      · exact Mod.far_after (Mod.far_askRange _ _ _ _ _) (Mod.far_after (Mod.far_wr _ _ (by simp only [bPNC, portStride]; omega)) (Mod.far_of_bar rfl rfl))
      · exact Mod.far_of_bar rfl rfl
    · exact Mod.far_of_bar rfl rfl
theorem Mod.far_poisonLine (m : Mod) (la : Nat) : m.far (m.poisonLine la) := by
  have := m.linePanel_lt la
  exact Mod.far_after (Mod.far_wr _ _ (by simp only [bPNC, portStride]; omega)) (Mod.far_of_bar rfl rfl)
theorem Mod.far_lostLine (m : Mod) (c la : Nat) : m.far (m.lostLine c la) := by
  unfold Mod.lostLine
  split
  · exact Mod.far_after (Mod.far_poisonLine _ la) (Mod.far_of_bar rfl rfl)
  · exact Mod.far_refl m
theorem Mod.far_takeBack (m : Mod) (c la : Nat) : m.far (m.takeBack c la) := by
  unfold Mod.takeBack
  dsimp only
  split
  · exact Mod.far_after (Mod.far_pncPut _ la 1 true) (Mod.far_after (Mod.far_of_bar rfl rfl) (Mod.far_lostLine m c la))
  · exact Mod.far_after (Mod.far_of_bar rfl rfl) (Mod.far_lostLine m c la)
theorem Mod.far_setDir (m : Mod) (la : Nat) (x : DirEntry) : m.far (m.setDir la x) := by
  unfold Mod.setDir
  repeat' split
  all_goals exact Mod.far_of_bar rfl rfl
theorem Mod.far_dropCopies (m : Mod) (la : Nat) : m.far (m.dropCopies la) := by
  unfold Mod.dropCopies
  split
  · exact Mod.far_refl m
  · exact Mod.far_after (Mod.far_setDir _ _ _) (Mod.far_foldl _ (fun m c => Mod.far_takeBack m c la) _ m)
theorem Mod.far_wrMem (m : Mod) (pa : Nat) (bs : List Byte) : m.far (m.wrMem pa bs) := by
  have hset (m : Mod) (pa : Nat) (bs : List Byte) :
      m.far (({ m with mem := Memory.setBytes m.mem pa bs }.clearTags pa bs.length).cleanLines pa bs.length) := by
    obtain ⟨u, hu⟩ : ∃ u, u = ({ m with mem := Memory.setBytes m.mem pa bs } : Mod).clearTags pa bs.length := ⟨_, rfl⟩
    have htags : m.far u := by
      rw [hu]
      unfold Mod.clearTags
      split <;> exact Mod.far_of_bar rfl rfl
    rw [← hu]
    refine Mod.far_after ?_ htags
    unfold Mod.cleanLines
    dsimp only
    split
    · exact Mod.far_of_bar rfl rfl
    · exact Mod.far_refl u
  unfold Mod.wrMem
  dsimp only
  split
  · refine Mod.far_foldl _ (fun m i => ?_) _ m
    unfold Mod.wrLine
    split
    · have := m.place_spool_lt (max pa ((pa / 128 + i) * 128))
      exact Mod.far_wr m _ (by simp only [bSPL, portStride]; omega)
    · exact hset m _ _
  · exact hset m pa bs
theorem Mod.far_ncWrite (m : Mod) (pa : Nat) (bs : List Byte) (alloc : Bool) : m.far (m.ncWrite pa bs alloc) := by
  unfold Mod.ncWrite
  split
  · refine Mod.far_after (Mod.far_wrMem _ pa bs) (Mod.far_foldl _ (fun m la => ?_) _ m)
    dsimp only
    split_ifs
    · exact Mod.far_dropCopies m la
    · exact Mod.far_after (Mod.far_pncPut _ _ _ _) (Mod.far_dropCopies m la)
    · exact Mod.far_after (Mod.far_askWrite _ _ _ _) (Mod.far_dropCopies m la)
  · exact Mod.far_wrMem m pa bs

/-! ## Descriptors that end -/

/-- What the end of a descriptor leaves of the ports: the fitter's state, partitions, links, and the state of both mailboxes. -/
structure Mod.heeds (m t : Mod) : Prop where
  fit : t.fit = m.fit
  parts : t.parts = m.parts
  hosts : ∀ o, { t.host o with out := (m.host o).out } = m.host o
  boxes : ∀ h : HostId, t.rd (bMBX h.val + 8) = m.rd (bMBX h.val + 8)

theorem Mod.heeds_refl (m : Mod) : m.heeds m := ⟨rfl, rfl, fun _ => rfl, fun _ => rfl⟩
theorem Mod.heeds_trans {m t u : Mod} (h : m.heeds t) (g : t.heeds u) : m.heeds u :=
  ⟨g.fit.trans h.fit, g.parts.trans h.parts, fun o => by rw [← h.hosts o, ← g.hosts o], fun d => (g.boxes d).trans (h.boxes d)⟩
theorem Mod.heeds_after {m t u : Mod} (g : t.heeds u) (h : m.heeds t) : m.heeds u := Mod.heeds_trans h g
theorem Mod.heeds_foldl {β : Type} (f : Mod → β → Mod) (h : ∀ (m : Mod) x, m.heeds (f m x)) (xs : List β) (m : Mod) : m.heeds (xs.foldl f m) :=
  foldl_keeps Mod.heeds Mod.heeds_refl Mod.heeds_trans f h xs m
theorem Mod.heeds.linked {m t : Mod} (h : m.heeds t) (o : Nat) : (t.host o).linked = (m.host o).linked := (congrArg HostPort.linked (h.hosts o) :)
theorem Mod.box_cases (h : HostId) : bMBX h.val + 8 = 8 ∨ portStride ≤ bMBX h.val + 8 := by
  have := h.isLt
  simp only [bMBX, portStride]; omega
/-- What changes neither a register nor a port nor the fitter nor a partition. -/
theorem Mod.heeds_of_eq {m t : Mod} (hf : t.fit = m.fit) (hp : t.parts = m.parts) (hh : t.hosts = m.hosts) (hb : t.bar0 = m.bar0) : m.heeds t :=
  ⟨hf, hp, fun o => by rw [Mod.host_congr hh], fun h => by simp only [Mod.rd, hb]⟩
theorem Mod.chores.kept {m t : Mod} (h : m.chores t) : t.fit = m.fit ∧ t.parts = m.parts ∧ t.shuttles = m.shuttles := by
  obtain ⟨hrest, -, -, -, -⟩ := h
  exact ⟨(congrArg Mod.fit hrest :), (congrArg Mod.parts hrest :), (congrArg Mod.shuttles hrest :)⟩
theorem Mod.heeds_updCore (m : Mod) (c : Nat) (f : Core → Core) : m.heeds (m.updCore c f) := Mod.heeds_of_eq rfl rfl rfl rfl
theorem Mod.far_scramble (m : Mod) (pa n : Nat) : m.far (m.scramble pa n) := by
  obtain ⟨u, hu⟩ : ∃ u, u = (m.freeBytes n).2 := ⟨_, rfl⟩
  have hfree : m.far u := by rw [hu]; exact Mod.far_of_bar rfl rfl
  have heq : m.scramble pa n = u.ncWrite pa (m.freeBytes n).1 := by rw [hu]; rfl
  rw [heq]
  exact Mod.far_after (Mod.far_ncWrite u pa _ true) hfree
theorem Mod.heeds_scramble (m : Mod) (pa n : Nat) : m.heeds (m.scramble pa n) := by
  have hchores := m.chores_scramble pa n
  have hfar := m.far_scramble pa n
  obtain ⟨hfit, hparts, -⟩ := hchores.kept
  refine ⟨hfit, hparts, fun o => ?_, fun h => ?_⟩
  · rw [Mod.host_congr hfar.1]
  · rcases Mod.box_cases h with hb | hb
    · exact hchores.regs _ (by rw [hb]; decide)
    · exact hfar.2 _ hb
/-- The destination of a descriptor that ends is undefined; that is all. -/
theorem Mod.heeds_scrambleDst (m : Mod) (s : Nat) (d : ShtDesc) : m.heeds (m.scrambleDst s d) ∧ (m.scrambleDst s d).shuttles = m.shuttles := by
  have keeps {β : Type} (f : Mod → β → Mod) (hf : ∀ m x, m.heeds (f m x) ∧ (f m x).shuttles = m.shuttles) (xs : List β) (m : Mod) :
      m.heeds (xs.foldl f m) ∧ (xs.foldl f m).shuttles = m.shuttles :=
    foldl_keeps (fun m t : Mod => m.heeds t ∧ t.shuttles = m.shuttles) (fun m => ⟨Mod.heeds_refl m, rfl⟩)
      (fun h g => ⟨Mod.heeds_trans h.1 g.1, g.2.trans h.2⟩) f hf xs m
  unfold Mod.scrambleDst
  refine keeps _ (fun m r => ?_) _ m
  dsimp only
  split
  · obtain ⟨u, hu⟩ : ∃ u, u = (m.freeBytes d.len).2 := ⟨_, rfl⟩
    rw [← hu]
    have hfree : m.heeds u ∧ u.shuttles = m.shuttles := by rw [hu]; exact ⟨Mod.heeds_of_eq rfl rfl rfl rfl, rfl⟩
    exact ⟨Mod.heeds_after (u.heeds_updCore _ _) hfree.1, hfree.2⟩
  · refine keeps _ (fun m p => ?_) _ m
    split
    · exact ⟨m.heeds_scramble _ _, (m.chores_scramble _ _).kept.2.2⟩
    · exact ⟨Mod.heeds_refl m, rfl⟩
  · exact ⟨Mod.heeds_refl m, rfl⟩
theorem Mod.heeds_wr (m : Mod) {a : Nat} (v : W64) (ha : a % 0x10000 ≠ 8) : m.heeds (m.wr a v) := by
  refine ⟨rfl, rfl, fun _ => rfl, fun h => Mod.rd_wr_ne m v fun e => ha ?_⟩
  rw [← e]
  simp only [bMBX, portStride]; omega
theorem Mod.heeds_shtEnd (m : Mod) (s : Nat) (d : ShtDesc) (status : Nat) : m.heeds (m.shtEnd s d status) ∧
    ∀ u, (m.shtEnd s d status).sht u = if u = s then { m.sht s with running := (m.sht s).running.filter (·.id != d.id) } else m.sht u := by
  obtain ⟨m1, hm1⟩ : ∃ u, u = m.updSht s fun q => { q with running := q.running.filter (·.id != d.id) } := ⟨_, rfl⟩
  obtain ⟨m2, hm2⟩ : ∃ u, u = (m1.fire d.piece.part (d.f 4 15 0) (.shuttle s)).shtCnt s 1 1 := ⟨_, rfl⟩
  have heq : m.shtEnd s d status = if m2.rdf (bPERR d.piece.part) 63 63 = 1 then m2
      else ((m2.wr (bPERR d.piece.part) (w64 (2 ^ 63 + s * 2 ^ 56 + status * 2 ^ 48 + d.addr % 2 ^ 48))).wr (bPERR d.piece.part + 8) (w64 d.core)).prtVector
        d.piece.part := by rw [hm2, hm1]; rfl
  have hfire : m1.heeds (m1.fire d.piece.part (d.f 4 15 0) (.shuttle s)) := by
    unfold Mod.fire
    split
    · exact Mod.heeds_refl m1
    · exact Mod.heeds_of_eq rfl rfl rfl rfl
  have hcnt : m1.heeds m2 := by
    rw [hm2]
    exact Mod.heeds_after (Mod.heeds_wr _ _ (by simp only [bSHT]; omega)) hfire
  have hfirst : m.heeds m2 := Mod.heeds_after hcnt (by rw [hm1]; exact Mod.heeds_of_eq rfl rfl rfl rfl)
  have hsht2 : m2.shuttles = m1.shuttles := by
    rw [hm2]
    show (m1.fire d.piece.part (d.f 4 15 0) (.shuttle s)).shuttles = m1.shuttles
    unfold Mod.fire
    split <;> rfl
  have hsht (u : Nat) : m1.sht u = if u = s then { m.sht s with running := (m.sht s).running.filter (·.id != d.id) } else m.sht u := by
    rw [hm1]
    exact (Tab.get_put _ _ _ _ _).trans (if_congr eq_comm rfl rfl)
  rw [heq]
  split
  · exact ⟨hfirst, fun u => (Mod.sht_congr hsht2 u).trans (hsht u)⟩
  · obtain ⟨m3, hm3⟩ : ∃ u, u = (m2.wr (bPERR d.piece.part) (w64 (2 ^ 63 + s * 2 ^ 56 + status * 2 ^ 48 + d.addr % 2 ^ 48))).wr (bPERR d.piece.part + 8) (w64 d.core) := ⟨_, rfl⟩
    have h3 : m.heeds m3 := by
      rw [hm3]
      refine Mod.heeds_after (Mod.heeds_wr _ _ ?_) (Mod.heeds_after (Mod.heeds_wr _ _ ?_) hfirst) <;> simp only [bPERR, bPRT] <;> omega
    have hout := m3.outward_prtVector d.piece.part
    rw [← hm3]
    refine ⟨Mod.heeds_after ⟨hout.same (·.fit), hout.same (·.parts), hout.hosts, fun h => hout.regs _ ?_⟩ h3, fun u => ?_⟩
    · have := h.isLt
      simp only [bMBX, bPRT, portStride]; omega
    · rw [hout.same (·.sht u), hm3]
      exact (Mod.sht_congr hsht2 u).trans (hsht u)
/-- Of a shuttle's running descriptors those that end are gone, and no other comes. -/
theorem Mod.heeds_shtEnds (s : Nat) (ds : List ShtDesc) (m : Mod) :
    let t := ds.foldl (fun (m : Mod) d => (m.scrambleDst s d).shtEnd s d 0x06) m
    m.heeds t ∧ (∀ u, u ≠ s → t.sht u = m.sht u) ∧ ∀ x, x ∈ (t.sht s).running → x ∈ (m.sht s).running ∧ ∀ d ∈ ds, x.id ≠ d.id := by
  induction ds generalizing m with
  | nil => exact ⟨Mod.heeds_refl m, fun _ _ => rfl, fun x hx => ⟨hx, by simp⟩⟩
  | cons d ds ih =>
    obtain ⟨hscr, hsht⟩ := m.heeds_scrambleDst s d
    obtain ⟨m1, hm1⟩ : ∃ u, u = m.scrambleDst s d := ⟨_, rfl⟩
    rw [← hm1] at hscr hsht
    obtain ⟨hend, hends⟩ := m1.heeds_shtEnd s d 0x06
    obtain ⟨hmore, hapart, hrun⟩ := ih (m1.shtEnd s d 0x06)
    rw [List.foldl_cons, ← hm1]
    refine ⟨Mod.heeds_after hmore (Mod.heeds_after hend hscr), fun u hu => ?_, fun x hx => ?_⟩
    · rw [hapart u hu, hends u, if_neg hu, Mod.sht_congr hsht]
    · obtain ⟨hin, hids⟩ := hrun x hx
      rw [hends s, if_pos rfl, Mod.sht_congr hsht] at hin
      obtain ⟨hold, hne⟩ := List.mem_filter.mp hin
      refine ⟨hold, fun e he => ?_⟩
      rcases List.mem_cons.mp he with rfl | he
      · simpa using hne
      · exact hids e he
/-- The running descriptors that a test accepts are gone from every shuttle. -/
theorem Mod.heeds_endHostKind (m : Mod) (f : ShtDesc → Bool) :
    m.heeds (m.endHostKind f) ∧ ∀ u d, u < 8 → d ∈ ((m.endHostKind f).sht u).running → f d = false := by
  have all (xs : List Nat) (m : Mod) :
      let t := xs.foldl (fun (m : Mod) s => ((m.sht s).running.filter f).foldl (fun (m : Mod) d => (m.scrambleDst s d).shtEnd s d 0x06) m) m
      m.heeds t ∧ ∀ u d, d ∈ (t.sht u).running → d ∈ (m.sht u).running ∧ (u ∈ xs → f d = false) := by
    induction xs generalizing m with
    | nil => exact ⟨Mod.heeds_refl m, fun u d hd => ⟨hd, by simp⟩⟩
    | cons s xs ih =>
      obtain ⟨hone, hapart, hrun⟩ := Mod.heeds_shtEnds s ((m.sht s).running.filter f) m
      obtain ⟨m1, hm1⟩ : ∃ u, u = ((m.sht s).running.filter f).foldl (fun (m : Mod) d => (m.scrambleDst s d).shtEnd s d 0x06) m := ⟨_, rfl⟩
      rw [← hm1] at hone hapart hrun
      obtain ⟨hmore, hall⟩ := ih m1
      rw [List.foldl_cons, ← hm1]
      refine ⟨Mod.heeds_after hmore hone, fun u d hd => ?_⟩
      obtain ⟨hin, hout⟩ := hall u d hd
      by_cases hu : u = s
      · subst hu
        obtain ⟨hold, hids⟩ := hrun d hin
        refine ⟨hold, fun _ => ?_⟩
        by_contra hf
        exact hids d (List.mem_filter.mpr ⟨hold, by simpa using hf⟩) rfl
      · rw [hapart u hu] at hin
        exact ⟨hin, fun hmem => hout ((List.mem_cons.mp hmem).resolve_left hu)⟩
  obtain ⟨hheeds, hall⟩ := all (upto 8) m
  exact ⟨hheeds, fun u d hu hd => (hall u d hd).2 (mem_upto.mpr hu)⟩

/-! ## A port's mailbox after a reset -/

/-- What of a port's mailbox has returned to reset. -/
def Mod.portCleared (m t : Mod) (h : HostId) : Prop :=
  (t.host h.val).set = [] ∧ t.rdf (bMBX h.val + 8) 47 32 = 0 ∧ t.rdf (bMBX h.val + 8) 17 16 = 1 ∧ t.parts = m.parts ∧
    (∀ q d, FitReq.mbx h.val q d ∉ t.fit.queue) ∧ (∀ j, m.fit.job = some j → j.port = h.val → t.fit.job = some { j with mute := true })
theorem Mod.portCleared.heeded {m t u : Mod} {h : HostId} (hc : m.portCleared t h) (hu : t.heeds u) : m.portCleared u h := by
  obtain ⟨hset, hseq, hver, hparts, hqueue, hjob⟩ := hc
  have hhost : (u.host h.val).set = (t.host h.val).set := (congrArg HostPort.set (hu.hosts h.val) :)
  have hbox := hu.boxes h
  simp only [Mod.rdf] at hseq hver
  simp only [Mod.portCleared, Mod.rdf, hhost, hbox, hu.parts, hu.fit]
  exact ⟨hset, hseq, hver, hparts, hqueue, hjob⟩
theorem Mod.portReset_shows (m : Mod) (h : HostId) : m.portCleared (m.portReset h.val) h ∧ (m.portReset h.val).shuttles = m.shuttles ∧
    ((m.portReset h.val).host h.val).linked = (m.host h.val).linked := by
  obtain ⟨m1, hm1⟩ : ∃ u, u = (m.wrf (bMBX h.val + 8) 47 32 0).wrf (bMBX h.val + 8) 17 16 1 := ⟨_, rfl⟩
  obtain ⟨m2, hm2⟩ : ∃ u, u = if (m.fit.queue.any fun q => match q with | .mbx p .. => p == h.val | .doe .. => false) then m1.wrf (bMBX h.val + 8) 1 1 0 else m1 :=
    ⟨_, rfl⟩
  obtain ⟨m3, hm3⟩ : ∃ u, u = m2.updHost h.val fun k => { k with set := [], overfull := false, stored := none, report := none } := ⟨_, rfl⟩
  have heq : m.portReset h.val = { m3 with fit := { m3.fit with
      queue := m3.fit.queue.filter fun q => match q with | .mbx p .. => p != h.val | .doe .. => true
      job := m3.fit.job.map fun j => if j.port = h.val then { j with mute := true } else j } } := by rw [hm3, hm2, hm1]; rfl
  have hkept : m2.fit = m.fit ∧ m2.parts = m.parts ∧ m2.shuttles = m.shuttles ∧ m2.hosts = m.hosts := by
    rw [hm2, hm1]; split <;> exact ⟨rfl, rfl, rfl, rfl⟩
  obtain ⟨hfit, hparts, hsht, hhosts⟩ := hkept
  have hrdf {hi lo : Nat} (hhi : hi < 64) (hlo : 1 < lo) : m3.rdf (bMBX h.val + 8) hi lo = m1.rdf (bMBX h.val + 8) hi lo := by
    have hm : m3.rdf (bMBX h.val + 8) hi lo = m2.rdf (bMBX h.val + 8) hi lo := by rw [hm3]; rfl
    rw [hm, hm2]
    split
    · exact Mod.rdf_wrf_apart m1 _ 1 1 0 hi lo hhi (.inr hlo)
    · rfl
  have hhost : m3.host h.val = { m2.host h.val with set := [], overfull := false, stored := none, report := none } := by
    rw [hm3, Mod.host_updHost, if_pos rfl]
  have hf3 : m3.fit = m.fit := by rw [hm3]; exact hfit
  rw [heq]
  refine ⟨⟨congrArg HostPort.set hhost, ?_, ?_, ?_, fun q d hq => ?_, fun j hj hp => ?_⟩, ?_, ?_⟩
  · refine (hrdf (by decide) (by decide)).trans ?_
    rw [hm1]
    exact (Mod.rdf_wrf_apart _ _ 17 16 1 47 32 (by decide) (.inr (by decide))).trans (Mod.rdf_wrf_self m _ 47 32 0 (by decide))
  · refine (hrdf (by decide) (by decide)).trans ?_
    rw [hm1]
    exact Mod.rdf_wrf_self _ _ 17 16 1 (by decide)
  · show m3.parts = m.parts
    rw [hm3]; exact hparts
  · obtain ⟨-, hne⟩ := List.mem_filter.mp hq
    simp at hne
  · show m3.fit.job.map _ = _
    rw [hf3, hj, Option.map_some, if_pos hp]
  · show m3.shuttles = m.shuttles
    rw [hm3]; exact hsht
  · show (m3.host h.val).linked = _
    rw [hhost]
    exact (congrArg HostPort.linked (Mod.host_congr hhosts h.val) :)
/-! ## DOE -/

theorem Mod.doePump_idle {m : Mod} (h : m.fit.queue = []) (k : Nat) : m.doePump k = m := by
  cases k with
  | zero => rfl
  | succ k => unfold Mod.doePump; rw [h]
/-- The one request that waits is served: with nothing where its length is wrong, and else with the report. -/
theorem Mod.doeRequest_serves {m : Mod} {h : HostId} {d : List Byte} (hup : (m.host h.val).linked = true) (hrun : m.fit.phase = .running) (hserves : m.serves = true)
    (hq : m.fit.queue = []) : m.doeRequest h d =
      if d.length ≠ 32 then m.toHost h.val (.doe []) else (m.report d).2.toHost h.val (.doe (padTo (cdiv (m.report d).1.length 4 * 4) (m.report d).1)) := by
  obtain ⟨u, hu⟩ : ∃ u : Mod, u = { m with fit := { m.fit with queue := [.doe h.val d] } } := ⟨_, rfl⟩
  have hback : ({ u with fit := { u.fit with queue := [] } } : Mod) = m := by
    rw [hu]
    show ({ m with fit := { m.fit with queue := [] } } : Mod) = m
    rw [← hq]
  have hqueue : u.fit.queue = [.doe h.val d] := by rw [hu]
  have heq : m.doeRequest h d = u.doePump (1 + 1) := by
    have hall : m.doeRequest h d = ({ m with fit := { m.fit with queue := m.fit.queue ++ [.doe h.val d] } } : Mod).doeAll := if_neg (by simp [hup, hrun])
    rw [hall, hq, List.nil_append, ← hu]
    unfold Mod.doeAll
    rw [hqueue]
    rfl
  have hsv : u.serves = true := by rw [hu]; exact hserves
  have hph : u.fit.phase = .running := by rw [hu]; exact hrun
  rw [heq, Mod.doePump, hqueue]
  dsimp only
  rw [if_neg (by rw [hsv, hph]; decide), hback]
  split
  · exact Mod.doePump_idle (m := m.toHost h.val _) hq _
  · exact Mod.doePump_idle (m := (m.report d).2.toHost h.val _) hq _
/-- A request that the fitter does not serve yet waits. -/
theorem Mod.doeRequest_waits {m : Mod} {h : HostId} {d : List Byte} (hup : (m.host h.val).linked = true) (hrun : m.fit.phase = .running) (hserves : m.serves = false) :
    m.doeRequest h d = { m with fit := { m.fit with queue := m.fit.queue ++ [.doe h.val d] } } := by
  have stands (m : Mod) (k : Nat) (hs : m.serves = false) : m.doePump k = m := by
    cases k with
    | zero => rfl
    | succ k =>
      unfold Mod.doePump
      split
      · exact if_pos (.inl (by rw [hs]; decide))
      · rfl
  have hall : m.doeRequest h d = ({ m with fit := { m.fit with queue := m.fit.queue ++ [.doe h.val d] } } : Mod).doeAll := if_neg (by simp [hup, hrun])
  rw [hall]
  exact stands _ _ hserves

/-! ## The settlement -/

theorem Mod.calMiarm_shows {m : Mod} (h : HostId) {v : W64} (hv : bit v 0 = true) {arm : Nat} (harm : arm = portStride * h.val + bCAL + 0x108) {ev : Nat}
    (hev : ev = m.rdf (bCAL + 0x80) 5 0 &&& m.rdf (portStride * h.val + bCAL + 0x100) 5 0) :
    if ev = 0 then (m.calMiarm h v).rdf arm 0 0 = 1 ∧ ((m.calMiarm h v).host h.val).out = (m.host h.val).out
    else (m.calMiarm h v).rdf arm 0 0 = 0 ∧ ((m.calMiarm h v).host h.val).out = (m.host h.val).out ++ [.msix 0] := by
  obtain ⟨m1, hm1⟩ : ∃ u, u = m.wrf arm 0 0 1 := ⟨_, rfl⟩
  have heq : m.calMiarm h v = m1.calVector h.val := by rw [hm1, harm]; exact if_pos hv
  have harmed : m1.rdf arm 0 0 = 1 := by rw [hm1]; exact Mod.rdf_wrf_self m arm 0 0 1 (by decide)
  have hevent : m1.rdf (bCAL + 0x80) 5 0 &&& m1.rdf (portStride * h.val + bCAL + 0x100) 5 0 = ev := by
    rw [hm1, Mod.rdf_wrf_ne m _ _ _ _ _ (by omega), Mod.rdf_wrf_ne m _ _ _ _ _ (by omega), hev]
  have hvec : m1.calVector h.val = if m1.rdf arm 0 0 = 0 ∨ ev = 0 then m1 else (m1.wrf arm 0 0 0).toHost h.val (.msix 0) := by
    rw [← hevent, harm]; rfl
  have hhost : m1.host h.val = m.host h.val := by rw [hm1]; rfl
  rw [heq, hvec, harmed]
  split
  next h0 =>
    rw [if_pos (.inr h0)]
    exact ⟨harmed, by rw [hhost]⟩
  next h0 =>
    rw [if_neg (by rintro (h | h); exact absurd h (by decide); exact h0 h)]
    refine ⟨Mod.rdf_wrf_self m1 arm 0 0 0 (by decide), ?_⟩
    rw [Mod.toHost, Mod.host_updHost, if_pos rfl]
    show (m1.host h.val).out ++ _ = _
    rw [hhost]
/-- With the link down the mailbox has returned to reset, and the descriptors of the host's kind have ended. -/
theorem Mod.portLinkDown_shows {m : Mod} {h : HostId} (hup : (m.host h.val).linked = true) : m.portCleared (m.portLinkDown h) h ∧
    ((m.portLinkDown h).host h.val).linked = false ∧ ∀ u d, u < 8 → d ∈ ((m.portLinkDown h).sht u).running → m.owns h.val d.piece.part = true →
      d.dkind ≠ 2 ∧ (d.skind = 2 → d.hasSrc = false) := by
  obtain ⟨hcleared, -, -⟩ := m.portReset_shows h
  obtain ⟨u, hu⟩ : ∃ u, u = (m.portReset h.val).updHost h.val fun k => { k with linked := false } := ⟨_, rfl⟩
  obtain ⟨f, hf⟩ : ∃ f, f = fun d : ShtDesc => m.owns h.val d.piece.part && ((d.skind == 2 && d.hasSrc) || d.dkind == 2) := ⟨_, rfl⟩
  have heq : m.portLinkDown h = u.endHostKind f := by
    rw [hu, hf]
    exact if_neg (by rw [hup]; decide)
  have hhost : u.host h.val = { (m.portReset h.val).host h.val with linked := false } := by rw [hu, Mod.host_updHost, if_pos rfl]
  have hcl : m.portCleared u h := by
    obtain ⟨hset, hseq, hver, hparts, hqueue, hjob⟩ := hcleared
    refine ⟨by rw [hhost]; exact hset, ?_, ?_, ?_, ?_, ?_⟩
    all_goals rw [hu]; assumption
  obtain ⟨hheeds, hgone⟩ := u.heeds_endHostKind f
  rw [heq]
  refine ⟨hcl.heeded hheeds, ?_, fun k d hk hd hown => ?_⟩
  · rw [hheeds.linked h.val, hhost]
  · have hfd := hgone k d hk hd
    rw [hf] at hfd
    simp only [hown, Bool.true_and, Bool.or_eq_false_iff, Bool.and_eq_false_imp, beq_iff_eq, beq_eq_false_iff_ne] at hfd
    exact ⟨hfd.2, hfd.1⟩
/-- The answer to a DOE request of the right length. -/
theorem Mod.doeRequest_reports {m : Mod} {h : HostId} {d r : List Byte} {u : Mod} (hu : u = (m.report d).2) :
    ((u.toHost h.val (.doe r)).host h.val).out = (m.host h.val).out ++ [.doe r] ∧ u.fit = m.fit ∧ u.bar0 = m.bar0 := by
  have hkept : u.hosts = m.hosts ∧ u.fit = m.fit ∧ u.bar0 = m.bar0 := by rw [hu]; exact ⟨rfl, rfl, rfl⟩
  obtain ⟨hhosts, hfit, hbar⟩ := hkept
  refine ⟨?_, hfit, hbar⟩
  rw [Mod.toHost, Mod.host_updHost, if_pos rfl, Mod.host_congr hhosts]
/-- Settles O46, event by event of a port. -/
theorem hostPorts : Obligations.HostPorts := by
  unfold Obligations.HostPorts
  intro s h
  refine ⟨fun hup => ⟨?_, ?_, ?_⟩, fun hdown i hi => ?_, fun v p hup hp => ?_, fun v hp => ?_, fun gen width hdown => ⟨fun hc hg h3 h6 hw => ?_, fun hno => ?_⟩,
    fun d hup hrun => ⟨fun hserves hq hlen => ?_, fun hserves hq hlen => ?_, fun hserves => ?_⟩, ?_, fun v hup hv => ?_⟩
  · obtain ⟨hcleared, hsht, hlinked⟩ := s.m.portReset_shows h
    refine completes_host (f := fun m => m.hotReset h) rfl ?_
    rw [show s.m.hotReset h = s.m.portReset h.val from if_pos hup]
    exact ⟨hcleared, hlinked.trans hup, hsht⟩
  · obtain ⟨hcleared, hsht, hlinked⟩ := s.m.portReset_shows h
    refine completes_host (f := fun m => m.pfFlr h) rfl ?_
    rw [show s.m.pfFlr h = s.m.portReset h.val from if_pos hup]
    exact ⟨hcleared, hlinked.trans hup, hsht⟩
  · refine completes_host (f := fun m => m.portLinkDown h) rfl ?_
    obtain ⟨hcleared, hlinked, hgone⟩ := Mod.portLinkDown_shows hup
    exact ⟨hcleared, hlinked, hgone⟩
  · simp only [List.mem_cons, List.not_mem_nil, or_false] at hi
    have hno : ¬ (s.m.host h.val).linked = true := by rw [hdown]; decide
    rcases hi with rfl | rfl | rfl
    · exact completes_host (f := fun m => m.hotReset h) rfl (by rw [show s.m.hotReset h = s.m from if_neg hno])
    · exact completes_host (f := fun m => m.pfFlr h) rfl (by rw [show s.m.pfFlr h = s.m from if_neg hno])
    · exact completes_host (f := fun m => m.portLinkDown h) rfl (by rw [show s.m.portLinkDown h = s.m from if_pos (by rw [hdown]; rfl)])
  · have heq : s.m.vfFlr h v = (s.m.wr (bPRT p + 0x180) 0).wr (bPRT p + 0x18) 0 := by
      unfold Mod.vfFlr
      rw [if_neg (by rw [hup]; decide), hp]
    refine completes_host (f := fun m => m.vfFlr h v) rfl ?_
    rw [heq]
    refine ⟨?_, ?_, rfl, fun a h1 h2 => ?_⟩
    · exact (Mod.rd_wr_ne _ _ (by omega)).trans (Mod.rd_wr_self _ _ _)
    · exact Mod.rd_wr_self _ _ _
    · exact (Mod.rd_wr_ne _ _ h2).trans (Mod.rd_wr_ne _ _ h1)
  · refine completes_host (f := fun m => m.vfFlr h v) rfl ?_
    have heq : s.m.vfFlr h v = s.m := by
      unfold Mod.vfFlr
      rw [hp]
      exact ite_self _
    rw [heq]
  · have heq : s.m.portLinkUp h gen width = s.m.updHost h.val fun k => { k with linked := true, gen := gen, width := width } := by
      refine if_neg ?_
      have hw' : [1, 2, 4, 8].contains width = true := by simpa using hw
      simp only [hdown, hc, hw', h3, h6, and_self, Bool.not_true, Bool.false_eq_true, not_true_eq_false, decide_true, false_or, or_false, or_self]
      omega
    refine completes_host (f := fun m => m.portLinkUp h gen width) rfl ?_
    rw [heq]
    have hhost : (s.m.updHost h.val fun k => { k with linked := true, gen := gen, width := width }).host h.val =
        { s.m.host h.val with linked := true, gen := gen, width := width } := by rw [Mod.host_updHost, if_pos rfl]
    exact ⟨hhost, rfl⟩
  · have heq : s.m.portLinkUp h gen width = s.m := by
      refine if_pos ?_
      rcases hno with hno | hno | hno | hno
      · exact .inr (.inl (by rw [hno]; rfl))
      · exact .inr (.inr (.inr (.inl (by simp; omega))))
      · exact .inr (.inr (.inr (.inl (by simp; omega))))
      · exact .inr (.inr (.inr (.inr (by simpa using hno))))
    exact completes_host (f := fun m => m.portLinkUp h gen width) rfl (by rw [heq])
  · refine completes_host (f := fun m => m.doeRequest h d) rfl ?_
    rw [Mod.doeRequest_serves hup hrun hserves hq, if_neg (not_not.mpr hlen)]
    obtain ⟨r, hr⟩ : ∃ r, r = (s.m.report d).1 := ⟨_, rfl⟩
    obtain ⟨u, hu⟩ : ∃ u, u = (s.m.report d).2 := ⟨_, rfl⟩
    obtain ⟨hout, hfit, hbar⟩ := Mod.doeRequest_reports (h := h) (r := padTo (cdiv r.length 4 * 4) r) hu
    rw [← hr, ← hu]
    exact ⟨hout, (congrArg Fitter.queue hfit).trans hq, hbar⟩
  · refine completes_host (f := fun m => m.doeRequest h d) rfl ?_
    rw [Mod.doeRequest_serves hup hrun hserves hq, if_pos hlen]
    show ((s.m.toHost h.val _).host h.val).out = _
    rw [Mod.toHost, Mod.host_updHost, if_pos rfl]
  · refine completes_host (f := fun m => m.doeRequest h d) rfl ?_
    rw [Mod.doeRequest_waits hup hrun hserves]
    exact ⟨rfl, rfl⟩
  · refine completes_host (f := fun m => m.doeAbort h) rfl ⟨fun d hd => ?_, rfl⟩
    obtain ⟨-, hne⟩ := List.mem_filter.mp hd
    simp at hne
  · refine completes_host (f := fun m => m.fromHost h fun m => m.calMiarm h v) rfl ?_
    rw [show s.m.fromHost h (fun m => m.calMiarm h v) = s.m.calMiarm h v from if_pos hup]
    exact Mod.calMiarm_shows h hv rfl rfl

end Sys2Proof.Machine
end

section
/-! A host's accesses to BAR0 and BAR2 (R11 to R13, R517 to R520, R537, R544, R627). -/

namespace Sys2Proof.Machine

/-! ## Partition pages -/

theorem bPRT_def (p : Nat) : bPRT p = 0x100000 + 0x10000 * p := rfl
/-- Every register of a partition's page is its own. -/
theorem scopeOf_inPage {p b : Nat} (hp : p < 16) (h1 : bPRT p ≤ b) (h2 : b < bPRT p + 0x10000) : scopeOf b = .part p :=
  scopeOf_page hp (by rw [bPRT_def] at h1 h2; omega)
/-! ## A write of BAR0 -/

section
variable {m : Mod} {h : HostId} {vf : Option (Fin 8)} {off size : Nat} {v : W64}
theorem Mod.barWrite_down (hno : ¬ (m.host h.val).linked = true) : m.barWrite h vf off size v = m := if_pos (.inl (by simpa using hno))
theorem Mod.barWrite_unmapped (ha : m.barAddr h.val vf off = none) : m.barWrite h vf off size v = m := by
  unfold Mod.barWrite
  rw [ha]
  exact ite_self _
/-- The request buffer of a port. -/
def reqBuffer (a : Nat) : Prop := 0x1000 ≤ a % portStride ∧ a % portStride < 0x2000
/-- COR_XINT of the cores in a partition's page. -/
def xintPage (a : Nat) : Prop :=
  0x100000 ≤ a % portStride ∧ a % portStride < 0x200000 ∧ 0x4000 ≤ a % portStride % 0x10000 ∧ a % portStride % 0x10000 < 0x4800
variable (hup : (m.host h.val).linked = true) (hwf : wellFormed off size) {a : Nat} (ha : m.barAddr h.val vf off = some a)
include hup hwf ha
theorem Mod.barWrite_request (hr : reqBuffer a) : m.barWrite h vf off size v =
    m.updHost h.val fun k => { k with req := Memory.setBytes k.req (a % portStride - 0x1000) (toLe size v.toNat) } := by
  unfold Mod.barWrite
  rw [if_neg (not_refused hup hwf), ha]
  exact if_pos hr
theorem Mod.barWrite_words (hr : ¬ reqBuffer a) (hx : ¬ xintPage a) : m.barWrite h vf off size v = if size = 8 then m.word8 h a v else m.word4 h a v := by
  unfold Mod.barWrite
  rw [if_neg (not_refused hup hwf), ha]
  exact (if_neg hr).trans (if_neg hx)
end
/-- A whole register of 8 bytes. -/
theorem Mod.word8_row {m : Mod} {h : HostId} {a : Nat} {v : W64} {r : RegRow} (hr : barRow a = some r) (hw : r.width = 8) : m.word8 h a v = m.regWrite h a v := by
  unfold Mod.word8
  rw [hr]
  exact if_neg (by rw [hw]; decide)
theorem Mod.word4_row {m : Mod} {h : HostId} {a : Nat} {v : W64} {r : RegRow} (hr : barRow a = some r) (hw : r.width = 4) :
    m.word4 h a v = m.regWrite h a (w64 (fld v 31 0)) := by
  unfold Mod.word4
  rw [hr]
  exact if_pos hw
theorem Mod.regWrite_plain {m : Mod} {h : HostId} {a : Nat} {v : W64} {r : RegRow} (hr : barRow a = some r) (hst : r.staged = [])
    (hmay : m.mayWrite h.val a v = true) : m.regWrite h a v = m.barPlain h a v := by
  unfold Mod.regWrite
  rw [hr]
  dsimp only
  rw [hmay, hst, if_neg (by simp)]
  rfl
theorem Mod.regWrite_stages {m : Mod} {h : HostId} {a : Nat} {v : W64} {r : RegRow} (hr : barRow a = some r) (hst : r.staged ≠ []) (hfit : needsFitter a = false)
    (hmay : m.mayWrite h.val a v = true) : m.regWrite h a v = m.stage h.val (.reg a v) := by
  unfold Mod.regWrite
  rw [hr]
  dsimp only
  rw [hmay, hfit, if_neg (by simp), if_pos (by simpa using hst)]
  rfl
/-- A write of a register of an own page that acts. -/
theorem Mod.barPlain_page {m : Mod} {h : HostId} {p a : Nat} {v : W64} (hp : p < 16) (h1 : bPRT p ≤ a) (h2 : a < bPRT p + 0x10000) :
    m.barPlain h a v = m.pageWrite p (a - bPRT p) v := by
  have hlow : ¬ a < bPRT 0 := by rw [bPRT_def] at *; omega
  unfold Mod.barPlain
  rw [scopeOf_inPage hp h1 h2]
  exact if_neg hlow
theorem Mod.mayWrite_page {m : Mod} {h p a : Nat} {v : W64} (hp : p < 16) (h1 : bPRT p ≤ a) (h2 : a < bPRT p + 0x10000) (hown : m.owns h p = true) :
    m.mayWrite h a v = true := by
  unfold Mod.mayWrite
  rw [scopeOf_inPage hp h1 h2]
  exact hown

/-! ## Rows of a partition's page -/

/-- No register lies where COR_XINT of the cores stands. -/
theorem barRow_xintPage {a : Nat} (h : a < portStride) (hx : xintPage a) : barRow a = none := by
  obtain ⟨h1, h2, h3, h4⟩ := hx
  rw [mod_portStride h] at h1 h2 h3 h4
  by_contra hsome
  obtain ⟨r, hr⟩ := Option.ne_none_iff_exists'.mp hsome
  obtain ⟨hmem, i, j, hplace, hi, hj⟩ := barRow_place hr
  have hrows : blockRows a = xltRows := by
    have hmod : a % 0x4000000 = a := Nat.mod_eq_of_lt h
    unfold blockRows
    dsimp only
    rw [hmod, if_neg (by omega), if_neg (by omega), if_neg (by omega), if_neg (by omega), if_neg (by omega), if_neg (by omega), if_pos (by omega),
      if_neg (by omega), if_neg (by omega)]
  have hlow : ∀ r ∈ xltRows, r.s1 = 0x10000 ∧ r.base % 0x10000 + r.s2 * r.n2 < 0x4000 := by decide
  rw [hrows] at hmem
  obtain ⟨hs1, htop⟩ := hlow r hmem
  have hstep : r.s2 * j ≤ r.s2 * r.n2 := Nat.mul_le_mul_left _ (Nat.le_of_lt hj)
  rw [hs1] at hplace
  omega
/-- A register of a partition's page is neither the request buffer nor COR_XINT. -/
theorem pageRow_apart {off a : Nat} (p : PartId) (ha : a = bPRT p.val + off) (h : off < 0x4000) : ¬ reqBuffer a ∧ ¬ xintPage a := by
  have hp := p.isLt
  have hmod : a % portStride = a := mod_portStride (by rw [ha, bPRT_def]; omega)
  unfold reqBuffer xintPage
  rw [hmod, ha, bPRT_def]
  omega
/-- PRT_IEN. -/
theorem barRow_ien : ∀ p : PartId, barRow (bPRT p.val + 0x18) = some { base := 0x100018, n1 := 16, s1 := 0x10000, fields := [⟨8, 0, .rw, 0, 0, 0⟩] } := by decide
/-- FLQ_STAT. -/
theorem barRow_flqStat : ∀ p : PartId, barRow (bXLT p.val + 0xA0) =
    some { base := 0x1020A0, n1 := 16, s1 := 0x10000, fields := [⟨26, 16, .ro, 0, 0, 0⟩, ⟨2, 2, .w1c, 0, 0, 0⟩, ⟨1, 1, .ro, 0, 0, 0⟩, ⟨0, 0, .w1c, 0, 0, 0⟩] } := by
  decide
theorem rowWrite_barRow {a : Nat} {r : RegRow} (hr : barRow a = some r) (old new : W64) : rowWrite (blockRows a) a old new = r.write old new := by
  unfold rowWrite
  rw [show findRow (blockRows a) a = some r from hr]
/-- A register of an own page that is written whole. -/
theorem Mod.word8_page {m : Mod} {h : HostId} {p : PartId} {a : Nat} {v : W64} {r : RegRow} (hown : m.owns h.val p.val = true) (h1 : bPRT p.val ≤ a)
    (h2 : a < bPRT p.val + 0x10000) (hr : barRow a = some r) (hw : r.width = 8) (hst : r.staged = []) :
    m.word8 h a v = m.pageWrite p.val (a - bPRT p.val) v := by
  rw [Mod.word8_row hr hw, Mod.regWrite_plain hr hst (Mod.mayWrite_page p.isLt h1 h2 hown), Mod.barPlain_page p.isLt h1 h2]
/-- A write of PRT_IEN takes, and may send the vector. -/
theorem Mod.pageWrite_ien (m : Mod) (p : PartId) (v : W64) : (m.pageWrite p.val 0x18 v).rdf (bPRT p.val + 0x18) 8 0 = fld v 8 0 ∧
    ∀ x, x ≠ bPRT p.val + 0x18 → x ≠ bPRT p.val + 0x28 → (m.pageWrite p.val 0x18 v).rd x = m.rd x := by
  obtain ⟨u, hu⟩ : ∃ u, u = m.wr (bPRT p.val + 0x18) (setFld (m.rd (bPRT p.val + 0x18)) 8 0 (fld v 8 0)) := ⟨_, rfl⟩
  have heq : m.pageWrite p.val 0x18 v = u.prtVector p.val := by
    rw [hu]
    unfold Mod.pageWrite
    dsimp only
    rw [rowWrite_barRow (barRow_ien p)]
    rfl
  have hout := u.outward_prtVector p.val
  rw [heq]
  refine ⟨?_, fun x h18 h28 => ?_⟩
  · rw [hout.rdf (by omega), hu]
    exact (Mod.rdf_wrf_self m _ 8 0 (fld v 8 0) (by decide)).trans (Nat.mod_eq_of_lt (fld_lt v 8 0))
  · rw [hout.regs x h28, hu]
    exact Mod.rd_wr_ne m _ h18
/-- A bit of a word in which the ones of another have been cleared. -/
theorem fld_clearing (x v : W64) {i : Nat} (hi : i < 64) : fld (x &&& ~~~v) i i = if bit v i then 0 else fld x i i := by
  have hbit (y : W64) : fld y i i = b2n (y.getLsbD i) := bitsN_one y.toNat i
  rw [hbit, hbit, BitVec.getLsbD_and, BitVec.getLsbD_not, bit]
  cases v.getLsbD i <;> simp [hi, b2n]
/-- A write of FLQ_STAT clears the bits where it has ones. -/
theorem Mod.pageWrite_flqStat (m : Mod) (p : PartId) (v : W64) {a : Nat} (ha : a = bXLT p.val + 0xA0) :
    (m.pageWrite p.val 0x20A0 v).rdf a 0 0 = (if bit v 0 then 0 else m.rdf a 0 0) ∧ (m.pageWrite p.val 0x20A0 v).rdf a 2 2 = (if bit v 2 then 0 else m.rdf a 2 2) ∧
      (m.pageWrite p.val 0x20A0 v).rdf a 1 1 = m.rdf a 1 1 ∧ (m.pageWrite p.val 0x20A0 v).rdf a 26 16 = m.rdf a 26 16 := by
  obtain ⟨w, hw⟩ : ∃ w, w = m.rd a := ⟨_, rfl⟩
  have hrd : (m.pageWrite p.val 0x20A0 v).rd a = setFld (setFld w 2 2 (fld (w &&& ~~~v) 2 2)) 0 0 (fld (setFld w 2 2 (fld (w &&& ~~~v) 2 2) &&& ~~~v) 0 0) := by
    have heq : m.pageWrite p.val 0x20A0 v = m.wr a (rowWrite (blockRows a) a (m.rd a) v) := by rw [ha]; rfl
    rw [heq, Mod.rd_wr_self, ha, rowWrite_barRow (barRow_flqStat p), ← ha, ← hw]
    rfl
  obtain ⟨y, hy⟩ : ∃ y, y = setFld w 2 2 (fld (w &&& ~~~v) 2 2) := ⟨_, rfl⟩
  have hy2 : fld y 2 2 = if bit v 2 then 0 else fld w 2 2 := by
    rw [hy, fld_setFld _ _ _ _ (by decide), Nat.mod_eq_of_lt (fld_lt _ 2 2), fld_clearing w v (by decide)]
  have hyw {hi lo : Nat} (hhi : hi < 64) (hd : hi < 2 ∨ 2 < lo) : fld y hi lo = fld w hi lo := by rw [hy]; exact fld_setFld_apart _ _ _ _ _ _ hhi hd
  simp only [Mod.rdf, hrd, ← hw, ← hy]
  refine ⟨?_, ?_, ?_, ?_⟩
  · rw [fld_setFld _ _ _ _ (by decide), Nat.mod_eq_of_lt (fld_lt _ 0 0), fld_clearing y v (by decide), hyw (by decide) (.inl (by decide))]
  · rw [fld_setFld_apart _ _ _ _ _ _ (by decide) (.inr (by decide)), hy2]
  · rw [fld_setFld_apart _ _ _ _ _ _ (by decide) (.inr (by decide)), hyw (by decide) (.inl (by decide))]
  · rw [fld_setFld_apart _ _ _ _ _ _ (by decide) (.inr (by decide)), hyw (by decide) (.inr (by decide))]

/-! ## BAR2 -/

/-- Traffic makes no fence. -/
theorem Mod.traffic.rangeFenced {m t : Mod} (h : m.traffic t) (pa n : Nat) : t.rangeFenced pa n = m.rangeFenced pa n := by
  have hmap : t.rd bSPLMAP = m.rd bSPLMAP := h.regs _ (.inr (.inl rfl))
  have hen : t.enabled = m.enabled := congrArg (fun w : W64 => (upto 24).filter fun s => w.getLsbD s) hmap
  have hline (a : Nat) : t.lineFenced a = m.lineFenced a := by
    unfold Mod.lineFenced Mod.isSpool Mod.spoolN Mod.place
    rw [hen, h.fenced]
  unfold Mod.rangeFenced
  rw [funext fun i => hline ((pa / 128 + i) * 128)]
/-- A non-caching write of memory that no fence bars: its bytes, and nothing of the ports. -/
theorem Mod.wrote_ncWrite {m : Mod} {pa : Nat} {bs : List Byte} (h : m.rangeFenced pa bs.length = false) :
    m.wrote (m.ncWrite pa bs) pa bs ∧ (m.ncWrite pa bs).hosts = m.hosts := by
  obtain ⟨t, ht, heq⟩ := m.ncWrite_eq pa bs true
  refine ⟨fun a => ?_, (m.far_ncWrite pa bs true).1⟩
  obtain ⟨hmem, -⟩ := ht.fields
  rw [show m.ncWrite pa bs = t.wrMem pa bs from heq, Mod.wrote_wrMem t pa bs (by rw [ht.rangeFenced, h]) a, hmem]
section
variable {m : Mod} {h : HostId} {x n : Nat} (hup : (m.host h.val).linked = true) {pa : Nat} (hpa : pa = m.rdf (bMBX h.val + 0x10) 45 36 * 2 ^ 36 + x)
include hup hpa
/-- What a read of the physical function does. -/
theorem Mod.bar2Access_read (h0 : 0 < n) (hn : n ≤ 4096) (hx : x + n ≤ 2 ^ 36) : m.bar2Access h none x n none =
    if m.bar2Reach h.val none pa n = true then (m.ncRead pa n).2.toHost h.val (.answer (some (m.ncRead pa n).1))
    else (m.inc (bMBX h.val + 0x40 + 8 * 2)).toHost h.val (.answer none) := by
  have hok : ¬ (!(m.host h.val).linked ∨ n = 0 ∨ 4096 < n ∨ ((none : Option (List Byte)).isSome ∧ 512 < n) ∨ 2 ^ 36 < x + n) := by
    rintro (hd | hd | hd | ⟨hd, -⟩ | hd)
    · rw [hup] at hd; exact Bool.noConfusion hd
    · omega
    · omega
    · exact Bool.noConfusion hd
    · omega
  unfold Mod.bar2Access Mod.bar2Addr
  dsimp only
  rw [if_neg hok, ← hpa]
  cases hr : m.bar2Reach h.val none pa n with
  | true => rw [if_neg (by simp), if_pos rfl]
  | false => rw [if_pos (.inl rfl), if_neg (by decide)]; rfl
/-- What a write does. -/
theorem Mod.bar2Access_write {bs : List Byte} (h0 : 0 < bs.length) (hn : bs.length ≤ 512) (hx : x + bs.length ≤ 2 ^ 36) :
    m.bar2Access h none x n (some bs) =
      if m.bar2Reach h.val none pa bs.length = true ∧ m.isHeld = false then m.ncWrite pa bs else m.inc (bMBX h.val + 0x40 + 8 * 2) := by
  have hok : ¬ (!(m.host h.val).linked ∨ bs.length = 0 ∨ 4096 < bs.length ∨ ((some bs).isSome ∧ 512 < bs.length) ∨ 2 ^ 36 < x + bs.length) := by
    rintro (hd | hd | hd | ⟨-, hd⟩ | hd)
    · rw [hup] at hd; exact Bool.noConfusion hd
    · omega
    · omega
    · omega
    · omega
  unfold Mod.bar2Access Mod.bar2Addr
  dsimp only
  rw [if_neg hok, ← hpa]
  cases hr : m.bar2Reach h.val none pa bs.length with
  | false => exact (if_pos (.inl rfl)).trans (if_neg fun h => Bool.noConfusion h.1).symm
  | true =>
    cases hh : m.isHeld with
    | true => exact (if_pos (.inr ⟨rfl, rfl⟩)).trans (if_neg fun h => Bool.noConfusion h.2).symm
    | false => exact (if_neg (by rintro (h | h); exact Bool.noConfusion h; exact Bool.noConfusion h.1)).trans (if_pos ⟨rfl, rfl⟩).symm
theorem Mod.bar2Access_answers (h0 : 0 < n) (hn : n ≤ 4096) (hx : x + n ≤ 2 ^ 36) (hreach : m.bar2Reach h.val none pa n = true) (hu : m.coh.upsets = []) :
    ((m.bar2Access h none x n none).host h.val).out = (m.host h.val).out ++ [.answer (some (m.rdMem pa n))] ∧ (m.bar2Access h none x n none).mem = m.mem := by
  obtain ⟨hmem, -, -, -, -, hhosts, -⟩ := (Mod.traffic_ncRead hu pa n 1).fields
  obtain ⟨u, hu⟩ : ∃ u, u = (m.ncRead pa n).2 := ⟨_, rfl⟩
  rw [Mod.bar2Access_read hup hpa h0 hn hx, if_pos hreach]
  rw [← hu] at hmem hhosts ⊢
  refine ⟨?_, hmem⟩
  rw [← Mod.host_congr hhosts h.val]
  exact Mod.out_toHost u h.val _
theorem Mod.bar2Access_unsupported (h0 : 0 < n) (hn : n ≤ 4096) (hx : x + n ≤ 2 ^ 36) (hno : m.bar2Reach h.val none pa n = false) :
    (m.tallied (m.bar2Access h none x n none) (bMBX h.val + 0x50) 1 ∧ (m.bar2Access h none x n none).mem = m.mem) ∧
      ((m.bar2Access h none x n none).host h.val).out = (m.host h.val).out ++ [.answer none] := by
  rw [Mod.bar2Access_read hup hpa h0 hn hx, if_neg (by rw [hno]; decide)]
  exact ⟨⟨Mod.tallied_inc m _, rfl⟩, Mod.out_toHost (m.inc _) h.val _⟩
theorem Mod.bar2Access_writes {bs : List Byte} (h0 : 0 < bs.length) (hn : bs.length ≤ 512) (hx : x + bs.length ≤ 2 ^ 36)
    (hreach : m.bar2Reach h.val none pa bs.length = true) (hheld : m.isHeld = false) (hfence : m.rangeFenced pa bs.length = false) :
    m.wrote (m.bar2Access h none x n (some bs)) pa bs ∧ (m.bar2Access h none x n (some bs)).hosts = m.hosts := by
  rw [Mod.bar2Access_write hup hpa h0 hn hx, if_pos ⟨hreach, hheld⟩]
  exact Mod.wrote_ncWrite hfence
theorem Mod.bar2Access_drops {bs : List Byte} (h0 : 0 < bs.length) (hn : bs.length ≤ 512) (hx : x + bs.length ≤ 2 ^ 36)
    (hno : m.bar2Reach h.val none pa bs.length = false ∨ m.isHeld = true) :
    (m.tallied (m.bar2Access h none x n (some bs)) (bMBX h.val + 0x50) 1 ∧ (m.bar2Access h none x n (some bs)).mem = m.mem) ∧
      (m.bar2Access h none x n (some bs)).hosts = m.hosts := by
  rw [Mod.bar2Access_write hup hpa h0 hn hx,
    if_neg fun hok => hno.elim (fun hno => absurd (hok.1.symm.trans hno) (by decide)) fun hno => absurd (hok.2.symm.trans hno) (by decide)]
  exact ⟨⟨Mod.tallied_inc m _, rfl⟩, rfl⟩
end

/-! ## The settlement -/

section
variable {m : Mod} {h : HostId} {x : StageItem}
theorem Mod.stage_room (hroom : (m.host h.val).set.any x.same = true ∨ (m.host h.val).set.length < 4096) :
    m.stage h.val x = m.updHost h.val fun k => { k with set := putItem k.set x } :=
  congrArg (fun k => ({ m with hosts := Tab.put m.hosts h.val k } : Mod)) (if_pos hroom)
theorem Mod.stage_full (hsame : (m.host h.val).set.any x.same = false) (hfull : 4096 ≤ (m.host h.val).set.length) :
    m.stage h.val x = m.updHost h.val fun k => { k with overfull := true } :=
  congrArg (fun k => ({ m with hosts := Tab.put m.hosts h.val k } : Mod)) (if_neg (by rintro (h | h); exact absurd (h.symm.trans hsame) (by decide); omega))
end
/-- A write of a register with staged fields becomes an item. -/
theorem Mod.stageItemWrite_stages {m : Mod} {h : HostId} {a : Nat} {v : W64} {r : RegRow} (hup : (m.host h.val).linked = true) (hr : barRow a = some r)
    (h4 : 0x40000 ≤ a) (hlt : a < portStride) (hst : r.staged ≠ []) (hw : (r.width = 8 ∧ a % 8 = 0) ∨ (r.width = 4 ∧ a % 4 = 0)) (hfit : needsFitter a = false)
    (hmay : m.mayWrite h.val a (if r.width = 4 then w64 (fld v 31 0) else v) = true) :
    m.stageItemWrite h none a v = m.stage h.val (.reg a (if r.width = 4 then w64 (fld v 31 0) else v)) := by
  have haddr : m.barAddr h.val none a = some a := m.barAddr_shared h4 hlt
  have hreq : ¬ reqBuffer a := by unfold reqBuffer; rw [mod_portStride hlt]; omega
  have hxint : ¬ xintPage a := fun hx => by rw [barRow_xintPage hlt hx] at hr; cases hr
  have hbar : m.stageItemWrite h none a v = m.barWrite h none a r.width v := by
    unfold Mod.stageItemWrite
    rw [haddr]
    dsimp only
    rw [hr]
    exact if_neg (by simpa using hst)
  rw [hbar]
  rcases hw with ⟨hw, hal⟩ | ⟨hw, hal⟩
  · rw [hw, if_neg (by decide)] at hmay ⊢
    rw [Mod.barWrite_words hup ⟨.inr rfl, hal⟩ haddr hreq hxint, if_pos rfl, Mod.word8_row hr hw]
    exact Mod.regWrite_stages hr hst hfit hmay
  · rw [hw, if_pos rfl] at hmay ⊢
    rw [Mod.barWrite_words hup ⟨.inl rfl, hal⟩ haddr hreq hxint, if_neg (by decide), Mod.word4_row hr hw]
    exact Mod.regWrite_stages hr hst hfit hmay
/-- A write of PRT_IEN by its owner, at the offset of either function. -/
theorem Mod.barWrite_ien {m : Mod} {h : HostId} {vf : Option (Fin 8)} {off a : Nat} {p : PartId} (hup : (m.host h.val).linked = true)
    (hown : m.owns h.val p.val = true) (haddr : m.barAddr h.val vf off = some a) {v : W64} (hal : off % 8 = 0) (ha : a = bPRT p.val + 0x18) :
    (m.barWrite h vf off 8 v).rdf (bPRT p.val + 0x18) 8 0 = fld v 8 0 ∧
      ∀ x, x ≠ bPRT p.val + 0x18 → x ≠ bPRT p.val + 0x28 → (m.barWrite h vf off 8 v).rd x = m.rd x := by
  obtain ⟨hreq, hxint⟩ := pageRow_apart (off := 0x18) p ha (by decide)
  rw [Mod.barWrite_words hup ⟨.inr rfl, hal⟩ haddr hreq hxint, if_pos rfl,
    Mod.word8_page hown (by omega) (by omega) (by rw [ha]; exact barRow_ien p) rfl rfl, show a - bPRT p.val = 0x18 by omega]
  exact m.pageWrite_ien p v
/-- Settles O45, access by access. -/
theorem hostAccess : Obligations.HostAccess := by
  unfold Obligations.HostAccess
  intro s h off v
  have hoff : off.toNat < portStride := off.isLt
  have hpage (p : PartId) : bPRT p.val = 0x100000 + 0x10000 * p.val := rfl
  refine ⟨fun vf size hno => ?_, fun vn size hp => ?_, fun p size hown h1 h2 => ?_, fun size hup hsize hal h1 h2 => ?_,
    fun p hup hown => ⟨fun ha => ?_, fun vn hvf ha => ?_, fun ha => ?_⟩, fun r hup hr h4 hst hw hfit hmay => ⟨fun hroom => ?_, fun hsame hfull => ?_⟩,
    fun x hup => ⟨fun n h0 hn hx => ⟨fun hreach hu => ?_, fun hno => ?_⟩, fun n bs h0 hn hx => ⟨fun hreach hheld hfence => ?_, fun hno => ?_⟩⟩⟩
  · refine completes_host (f := fun m => m.barWrite h vf off.toNat size.val v) rfl ?_
    have hidle : s.m.barWrite h vf off.toNat size.val v = s.m := by
      rcases hno with hno | ⟨h4, h8⟩ | hno
      · exact Mod.barWrite_down hno
      · exact Mod.barWrite_malformed v fun hwf => hwf.1.elim h4 h8
      · exact Mod.barWrite_malformed v fun hwf => hno hwf.2
    rw [hidle]
  · refine completes_host (f := fun m => m.barWrite h (some vn) off.toNat size.val v) rfl ?_
    have ha : s.m.barAddr h.val (some vn) off.toNat = none := by
      unfold Mod.barAddr
      dsimp only
      rw [hp]
      exact ite_self _
    rw [Mod.barWrite_unmapped ha]
  · refine completes_host (f := fun m => m.barWrite h none off.toNat size.val v) rfl ?_
    rw [Mod.barWrite_foreignPage p.isLt hown v (by rw [hpage] at h1 h2; omega)]
  · refine completes_host (f := fun m => m.barWrite h none off.toNat size.val v) rfl ?_
    have ha : s.m.barAddr h.val none off.toNat = some (portStride * h.val + off.toNat) := if_pos (.inl (by omega))
    have hmod : (portStride * h.val + off.toNat) % portStride = off.toNat := by rw [Nat.mul_add_mod]; exact Nat.mod_eq_of_lt hoff
    rw [Mod.barWrite_request hup ⟨hsize, hal⟩ ha (by unfold reqBuffer; rw [hmod]; exact ⟨h1, h2⟩), hmod]
    refine ⟨rfl, fun x => ?_⟩
    have hhost : (s.m.updHost h.val fun k => { k with req := Memory.setBytes k.req (off.toNat - 0x1000) (toLe size.val v.toNat) }).host h.val =
        { s.m.host h.val with req := Memory.setBytes (s.m.host h.val).req (off.toNat - 0x1000) (toLe size.val v.toNat) } := by
      rw [Mod.host_updHost, if_pos rfl]
    have hreq : Memory.byte (Memory.setBytes (s.m.host h.val).req (off.toNat - 0x1000) (toLe size.val v.toNat)) x = _ := Memory.byte_setBytes _ _ _ _
    rw [toLe_length] at hreq
    exact (congrArg (fun k : HostPort => Memory.byte k.req x) hhost).trans hreq
  · refine completes_host (f := fun m => m.barWrite h none off.toNat 8 v) rfl ?_
    exact Mod.barWrite_ien hup hown (s.m.barAddr_shared (by rw [ha, hpage]; omega) hoff) (by rw [ha, hpage]; omega) ha
  · refine completes_host (f := fun m => m.barWrite h (some vn) off.toNat 8 v) rfl ?_
    have haddr : s.m.barAddr h.val (some vn) off.toNat = some (bPRT p.val + off.toNat) := by
      unfold Mod.barAddr
      dsimp only
      rw [hvf]
      exact if_pos (by omega)
    exact Mod.barWrite_ien hup hown haddr (by omega) (by rw [ha])
  · refine completes_host (f := fun m => m.barWrite h none off.toNat 8 v) rfl ?_
    have hxlt : bXLT p.val + 0xA0 = bPRT p.val + 0x20A0 := by simp only [bXLT]
    obtain ⟨hreq, hxint⟩ := pageRow_apart (off := 0x20A0) p (ha.trans hxlt) (by decide)
    have haddr : s.m.barAddr h.val none off.toNat = some off.toNat := s.m.barAddr_shared (by rw [ha, hxlt, hpage]; omega) hoff
    have hword : s.m.word8 h off.toNat v = s.m.pageWrite p.val 0x20A0 v := by
      rw [Mod.word8_page hown (by omega) (by omega) (by rw [ha]; exact barRow_flqStat p) rfl rfl, show off.toNat - bPRT p.val = 0x20A0 by omega]
    rw [Mod.barWrite_words hup ⟨.inr rfl, by rw [ha, hxlt, hpage]; omega⟩ haddr hreq hxint, if_pos rfl, hword]
    exact s.m.pageWrite_flqStat p v ha
  · refine completes_host (f := fun m => m.stageItemWrite h none off.toNat v) rfl ?_
    rw [Mod.stageItemWrite_stages hup hr h4 hoff hst hw hfit hmay, Mod.stage_room hroom]
    obtain ⟨x, hx⟩ : ∃ x, x = StageItem.reg off.toNat (if r.width = 4 then w64 (fld v 31 0) else v) := ⟨_, rfl⟩
    have hhost : (s.m.updHost h.val fun k => { k with set := putItem k.set x }).host h.val = { s.m.host h.val with set := putItem (s.m.host h.val).set x } := by
      rw [Mod.host_updHost, if_pos rfl]
    rw [← hx]
    exact ⟨(congrArg HostPort.set hhost :), (congrArg HostPort.overfull hhost :), rfl⟩
  · refine completes_host (f := fun m => m.stageItemWrite h none off.toNat v) rfl ?_
    rw [Mod.stageItemWrite_stages hup hr h4 hoff hst hw hfit hmay, Mod.stage_full hsame hfull]
    have hhost : (s.m.updHost h.val fun k => { k with overfull := true }).host h.val = { s.m.host h.val with overfull := true } := by
      rw [Mod.host_updHost, if_pos rfl]
    exact ⟨(congrArg HostPort.set hhost :), (congrArg HostPort.overfull hhost :), rfl⟩
  · exact completes_host (f := fun m => m.bar2Access h none x.toNat n none) rfl (Mod.bar2Access_answers hup rfl h0 hn hx hreach hu)
  · exact completes_host (f := fun m => m.bar2Access h none x.toNat n none) rfl (Mod.bar2Access_unsupported hup rfl h0 hn hx hno)
  · exact completes_host (f := fun m => m.bar2Access h none x.toNat n (some bs)) rfl (Mod.bar2Access_writes hup rfl h0 hn hx hreach hheld hfence)
  · exact completes_host (f := fun m => m.bar2Access h none x.toNat n (some bs)) rfl (Mod.bar2Access_drops hup rfl h0 hn hx hno)

end Sys2Proof.Machine
end

section
/-! Temperature samples, monitors, live tracks and CAL_VSEL (R392, R393, R405, R574, R581, R582, R594). -/

namespace Sys2Proof.Machine

/-! ## Temperature samples -/

theorem nextStep_lt (step : Nat) (t : Int) : nextStep step t < 4 := by
  unfold nextStep
  repeat' split
  all_goals decide
theorem Mod.tempSample_shows (m : Mod) (v : SpoolId) (raw : BitVec 16) {x : Int} (hx : x = m.reading (4 + v.val) raw) :
    (m.tempSample v raw).rdf (bSPL v.val) 17 16 = nextStep (m.rdf (bSPL v.val) 17 16) x ∧
      (m.tempSample v raw).rdf (bSPL v.val) 9 9 = (if 420 < x then 1 else 0) ∧ (m.tempSample v raw).spl = m.spl ∧ (m.tempSample v raw).mem = m.mem := by
  obtain ⟨b, hb⟩ : ∃ b, b = bSPL v.val := ⟨_, rfl⟩
  obtain ⟨m0, hm0⟩ : ∃ u, u = (m.sense (4 + v.val) raw).wrf b 31 24 (BitVec.ofInt 8 (x / 4)).toNat := ⟨_, rfl⟩
  obtain ⟨m1, hm1⟩ : ∃ u, u = (m0.wrf b 17 16 (nextStep (m.rdf b 17 16) x)).wrf b 9 9 (b2n (decide (420 < x))) := ⟨_, rfl⟩
  have heq : m.tempSample v raw = if decide (420 < x) = true ∧ (!(m.rdf b 9 9 == 1)) = true then (m1.pwrEvent 2).sbEvent 2 else m1 := by
    rw [hm1, hm0, hb, hx]; rfl
  have hstep : m1.rdf b 17 16 = nextStep (m.rdf b 17 16) x := by
    rw [hm1, Mod.rdf_wrf_apart _ _ 9 9 _ 17 16 (by decide) (.inr (by decide)), Mod.rdf_wrf_self _ _ 17 16 _ (by decide)]
    exact Nat.mod_eq_of_lt (nextStep_lt _ _)
  have hhot : m1.rdf b 9 9 = if 420 < x then 1 else 0 := by
    rw [hm1, Mod.rdf_wrf_self _ _ 9 9 _ (by decide)]
    by_cases h : 420 < x <;> simp [h, b2n]
  have hkept : m1.spl = m.spl ∧ m1.mem = m.mem := by rw [hm1, hm0]; exact ⟨rfl, rfl⟩
  have hevent (hi lo : Nat) : ((m1.pwrEvent 2).sbEvent 2).rdf b hi lo = m1.rdf b hi lo := by
    rw [Mod.sbEvent_same _ 2 (·.rdf b hi lo)]
    have h1 : b ≠ bPWR + 0x38 := by rw [hb]; simp only [bSPL, bPWR]; omega
    have h2 : b ≠ bPWR + 0x80 + 8 * 2 := by rw [hb]; simp only [bSPL, bPWR]; omega
    exact (Mod.rdf_wrf_ne (m1.raise (bPWR + 0x38) 2) _ _ _ _ _ h2).trans (Mod.rdf_wrf_ne m1 _ _ _ _ _ h1)
  rw [← hb, heq]
  split
  · refine ⟨(hevent 17 16).trans hstep, (hevent 9 9).trans hhot, ?_, ?_⟩
    · rw [Mod.sbEvent_same _ 2 (·.spl)]; exact hkept.1
    · rw [Mod.sbEvent_same _ 2 (·.mem)]; exact hkept.2
  · exact ⟨hstep, hhot, hkept⟩

/-! ## Live tracks -/

section
variable {m : Mod} {q : CalQ} {up down : Nat}
/-- Sides that differ by no more than 1 move nothing. -/
theorem Mod.trackMove_still (h1 : up ≤ down + 1) (h2 : down ≤ up + 1) : m.trackMove q up down = m := if_pos (by omega)
theorem Mod.trackOf_setTrack (t : Int) : ({ m with cal := { m.cal with track := Tab.setD 0 m.cal.track q.key t } } : Mod).trackOf q = t :=
  (Tab.get_setD _ _ _ _ _).trans (if_pos rfl)
theorem Mod.trackMove_up (h : up + 1 < down) (hlow : -q.trackLim ≤ m.trackOf q) (hlim : m.trackOf q < q.trackLim) :
    (m.trackMove q up down).trackOf q = m.trackOf q + 1 := by
  unfold Mod.trackMove
  dsimp only
  rw [if_neg (by omega), if_pos (show up < down by omega), if_neg (by omega), Mod.trackOf_setTrack]
theorem Mod.trackMove_down (h : down + 1 < up) (hhigh : m.trackOf q ≤ q.trackLim) (hlim : -q.trackLim < m.trackOf q) :
    (m.trackMove q up down).trackOf q = m.trackOf q - 1 := by
  unfold Mod.trackMove
  dsimp only
  rw [if_neg (by omega), if_neg (show ¬ up < down by omega), if_neg (by omega), Mod.trackOf_setTrack]
  omega
end
/-- The lane's phase, and that its tracking is on and does not pause. -/
def Mod.tracks (m : Mod) (x : TrackLane) (q : CalQ) : Prop :=
  match x with
  | .spool w v c p => m.rdf (bCAL + 0x08) 8 8 = 1 ∧ v.val ∉ m.spl.monitor ∧ q = CalQ.spool w false v.val c.toNat p.val
  | .link l n => m.rdf (bCAL + 0x08) 16 16 = 1 ∧ m.cal.lmon = false ∧ m.linkState l.val = 6 ∧ q = .link 3 l.val n.val
/-- A round whose voltage windows agree moves the phase's track alone. -/
theorem Mod.trackRound_phase {m : Mod} {x : TrackLane} {q : CalQ} (h : m.tracks x q) {d : Fin 4 → Nat} (hd : d 2 = d 3) :
    m.trackRound x d = m.trackMove q (d 0) (d 1) := by
  cases x with
  | spool w v c p =>
    obtain ⟨hon, hfree, hq⟩ := h
    have hidle : m.spl.monitor.contains v.val = false := by simpa using hfree
    have hrun : m.trackRound (.spool w v c p) d =
        (m.trackMove (.spool w false v.val c.toNat p.val) (d 0) (d 1)).trackMove (.spool w true v.val c.toNat p.val) (d 2) (d 3) :=
      if_neg (by rw [hon, hidle]; simp)
    rw [hrun, hq, Mod.trackMove_still (by omega) (by omega)]
  | link l n =>
    obtain ⟨hon, hfree, hstate, hq⟩ := h
    rw [hq]
    exact if_neg (by rw [hon, hfree, hstate]; simp)

/-! ## CAL_VSEL -/

/-- A captured word as the sum of its pairs. -/
theorem captured_eq (c : Nat → Nat × Nat) : ((upto 4).map fun j => ((c j).1 * 2 ^ 8 + (c j).2) * 2 ^ (16 * j)).sum =
    ((c 0).1 * 2 ^ 8 + (c 0).2) + ((c 1).1 * 2 ^ 8 + (c 1).2) * 2 ^ 16 + ((c 2).1 * 2 ^ 8 + (c 2).2) * 2 ^ 32 + ((c 3).1 * 2 ^ 8 + (c 3).2) * 2 ^ 48 := by
  obtain ⟨g, hg⟩ : ∃ g : Nat → Nat, ∀ j, g j = ((c j).1 * 2 ^ 8 + (c j).2) * 2 ^ (16 * j) := ⟨_, fun _ => rfl⟩
  have h4 : ((upto 4).map g).sum = g 0 + g 1 + g 2 + g 3 := by
    rw [show upto 4 = [0, 1, 2, 3] from rfl]
    simp only [List.map_cons, List.map_nil, List.sum_cons, List.sum_nil]
    omega
  rw [← funext hg, h4, hg, hg, hg, hg, Nat.mul_zero, Nat.pow_zero, Nat.mul_one]
/-- The pairs of six bits that a captured word holds. -/
theorem fld_captured {c : Nat → Nat × Nat} (h : ∀ j, (c j).1 < 64 ∧ (c j).2 < 64) {w : W64}
    (hw : w = w64 ((upto 4).map fun j => ((c j).1 * 2 ^ 8 + (c j).2) * 2 ^ (16 * j)).sum) {j : Nat} (hj : j < 4) :
    fld w (16 * j + 5) (16 * j) = (c j).2 ∧ fld w (16 * j + 13) (16 * j + 8) = (c j).1 := by
  obtain ⟨⟨h0, h0'⟩, ⟨h1, h1'⟩, ⟨h2, h2'⟩, ⟨h3, h3'⟩⟩ := And.intro (h 0) (And.intro (h 1) (And.intro (h 2) (h 3)))
  obtain ⟨x, hx⟩ : ∃ x, x = w.toNat := ⟨_, rfl⟩
  have hnat : x = ((c 0).1 * 2 ^ 8 + (c 0).2) + ((c 1).1 * 2 ^ 8 + (c 1).2) * 2 ^ 16 + ((c 2).1 * 2 ^ 8 + (c 2).2) * 2 ^ 32 +
      ((c 3).1 * 2 ^ 8 + (c 3).2) * 2 ^ 48 := by
    rw [hx, hw, captured_eq, w64, BitVec.toNat_ofNat]
    exact Nat.mod_eq_of_lt (by omega)
  simp only [fld, ← hx, bitsN, Nat.shiftRight_eq_div_pow]
  obtain rfl | rfl | rfl | rfl : j = 0 ∨ j = 1 ∨ j = 2 ∨ j = 3 := by omega
  all_goals refine ⟨?_, ?_⟩ <;> norm_num <;> omega
/-- Each write of a row of registers stays. -/
theorem Mod.rd_foldl_wr (m : Mod) (b : Nat) (f : Nat → W64) (k : Nat) {i : Nat} (hi : i < k) :
    ((upto k).foldl (fun (m : Mod) i => m.wr (b + 8 * i) (f i)) m).rd (b + 8 * i) = f i := by
  induction k with
  | zero => omega
  | succ k ih =>
    rw [show upto (k + 1) = upto k ++ [k] from List.range_succ, List.foldl_append, List.foldl_cons, List.foldl_nil]
    by_cases hk : i = k
    · rw [hk]; exact Mod.rd_wr_self _ _ _
    · rw [Mod.rd_wr_ne _ _ (by omega)]
      exact ih (by omega)
/-- The value of a quantity that a selection names. -/
def Mod.calVal (m : Mod) (v : W64) (q : CalQ) : Int :=
  match fld v 17 16 with
  | 0 => q.factory
  | 1 => m.userOfs q
  | 2 => m.trackOf q
  | _ => m.effective q
/-- The voltage and phase of a pin of the selected channel, as captured. -/
def Mod.calPin (m : Mod) (v : W64) (p : Nat) : Nat × Nat :=
  if p < 18 then ((BitVec.ofInt 6 (m.calVal v (.spool (fld v 15 14 == 1) true (fld v 13 8) (fld v 7 0) p))).toNat,
    (BitVec.ofInt 6 (m.calVal v (.spool (fld v 15 14 == 1) false (fld v 13 8) (fld v 7 0) p))).toNat)
  else (0, 0)
/-- The word of four pins. -/
def Mod.calWord (m : Mod) (v : W64) (i : Nat) : Nat :=
  ((upto 4).map fun j => ((m.calPin v (4 * i + j)).1 * 2 ^ 8 + (m.calPin v (4 * i + j)).2) * 2 ^ (16 * j)).sum
theorem getD_map_upto (g : Nat → Nat) {i : Nat} (hi : i < 5) : ((upto 5).map g).getD i 0 = g i := by
  simp [upto, List.getD, hi]
theorem Mod.calPin_lt (m : Mod) (v : W64) (p : Nat) : (m.calPin v p).1 < 64 ∧ (m.calPin v p).2 < 64 := by
  unfold Mod.calPin
  split
  · exact ⟨BitVec.isLt _, BitVec.isLt _⟩
  · exact ⟨by decide, by decide⟩
theorem Mod.fld_calWord (m : Mod) (v : W64) (i : Nat) {j : Nat} (hj : j < 4) :
    fld (w64 (m.calWord v i)) (16 * j + 5) (16 * j) = (m.calPin v (4 * i + j)).2 ∧
      fld (w64 (m.calWord v i)) (16 * j + 13) (16 * j + 8) = (m.calPin v (4 * i + j)).1 := by
  exact fld_captured (c := fun j => m.calPin v (4 * i + j)) (fun j => m.calPin_lt v _) rfl hj
theorem Mod.calVsel_shows {m : Mod} {h : HostId} {v : W64} (hk : fld v 15 14 < 2) (hn : fld v 13 8 < 24) {i : Nat} (hi : i < 5) :
    (m.calVsel h v).rd (portStride * h.val + bCAL + 0x118 + 8 * i) = w64 (m.calWord v i) := by
  obtain ⟨b, hb⟩ : ∃ b, b = portStride * h.val + bCAL := ⟨_, rfl⟩
  obtain ⟨m1, hm1⟩ : ∃ u, u = m.wr (b + 0x110) (rowWrite calRows (b + 0x110) (m.rd (b + 0x110)) v) := ⟨_, rfl⟩
  obtain ⟨ws, hws⟩ : ∃ ws, ws = (upto 5).map (m.calWord v) := ⟨_, rfl⟩
  have hword (i : Nat) : m.calWord v i = ((upto 4).map fun j =>
      if 4 * i + j < 18 then ((BitVec.ofInt 6 (m.calVal v (.spool (fld v 15 14 == 1) true (fld v 13 8) (fld v 7 0) (4 * i + j)))).toNat * 2 ^ 8 +
        (BitVec.ofInt 6 (m.calVal v (.spool (fld v 15 14 == 1) false (fld v 13 8) (fld v 7 0) (4 * i + j)))).toNat) * 2 ^ (16 * j) else 0).sum := by
    refine congrArg List.sum (congrArg (fun g => (upto 4).map g) (funext fun j => ?_))
    unfold Mod.calPin
    split
    · rfl
    · exact Nat.zero_mul _
  have heq : m.calVsel h v = (upto 5).foldl (fun (m : Mod) i => m.wr (b + 0x118 + 8 * i) (w64 (ws.getD i 0))) m1 := by
    rw [hws, funext hword, hm1, hb]
    unfold Mod.calVsel
    dsimp only
    rw [if_neg (by omega), if_pos hk]
    rfl
  have hget : ws.getD i 0 = m.calWord v i := by
    rw [hws]
    exact getD_map_upto _ hi
  rw [heq, ← hb, Mod.rd_foldl_wr m1 (b + 0x118) (fun i => w64 (ws.getD i 0)) 5 hi, hget]

/-! ## The settlement -/

theorem completes_trackRound {s : State} {x : TrackLane} {q : CalQ} {d0 d1 d2 d3 : W32} {P : Mod → Prop} (hpow : s.m.powered = true) (hx : s.m.tracks x q)
    (h23 : d2 = d3) (hp : P { s.m.trackMove q d0.toNat d1.toNat with nv := s.m.nv, pwr := s.m.pwr }) : completes (.trackRound x d0 d1 d2 d3) s P := by
  refine completes_run (f := fun m => m.trackRound x fun i => ([d0, d1, d2, d3].getD i.val 0).toNat) rfl hpow ?_
  rw [Mod.trackRound_phase hx (show ([d0, d1, d2, d3].getD 2 0).toNat = ([d0, d1, d2, d3].getD 3 0).toNat from congrArg BitVec.toNat h23)]
  exact hp
/-- Settles O38, unit by unit. -/
theorem samplesAndTracks : Obligations.SamplesAndTracks := by
  unfold Obligations.SamplesAndTracks
  intro s
  refine ⟨fun hpow => ⟨fun v raw => ?_, fun v n => ⟨fun hin => ?_, fun hout => ?_⟩, fun n => ⟨fun hin => ?_, fun hout => ?_⟩,
    fun x d0 d1 d2 d3 q hx h23 hlow hhigh => ⟨fun hd hlim => ?_, fun hd hlim => ?_, fun h1 h2 => ?_⟩⟩,
    fun h v => ⟨fun u hr hv => ?_, fun hr hv => ?_, fun i j hup hk hn hi hj hpin => ?_⟩⟩
  · exact completes_wide (f := fun m => m.tempSample v raw) rfl hpow (s.m.tempSample_shows v raw rfl)
  · refine completes_run (f := fun m => m.monitorDone v n) rfl hpow ?_
    rw [show s.m.monitorDone v n = _ from if_pos (by simpa using hin)]
    refine ⟨Mod.rd_wr_self _ _ _, fun hmem => ?_⟩
    obtain ⟨-, hne⟩ := List.mem_filter.mp hmem
    simp at hne
  · refine completes_run (f := fun m => m.monitorDone v n) rfl hpow ?_
    rw [show s.m.monitorDone v n = s.m from if_neg (by simpa using hout)]
  · refine completes_run (f := fun m => m.lmonDone n) rfl hpow ?_
    rw [show s.m.lmonDone n = _ from if_pos hin]
    exact ⟨Mod.rd_wr_self _ _ _, rfl⟩
  · refine completes_run (f := fun m => m.lmonDone n) rfl hpow ?_
    rw [show s.m.lmonDone n = s.m from if_neg (by rw [hout]; decide)]
  · exact completes_trackRound hpow (q := q) (by cases x <;> exact hx) h23 (Mod.trackMove_up hd hlow hlim)
  · exact completes_trackRound hpow (q := q) (by cases x <;> exact hx) h23 (Mod.trackMove_down hd hhigh hlim)
  · exact completes_trackRound hpow (q := q) (by cases x <;> exact hx) h23 (by rw [Mod.trackMove_still h1 h2])
  · refine completes_hostReg (f := fun m => m.monselWrite u v) rfl hr ?_
    rw [show s.m.monselWrite u v = _ from if_pos hv]
    exact ⟨List.mem_cons_self, Mod.rd_wr_self _ _ _, rfl⟩
  · refine completes_hostReg (f := fun m => m.lmselWrite v) rfl hr ?_
    rw [show s.m.lmselWrite v = _ from if_pos hv]
    exact ⟨rfl, Mod.rd_wr_self _ _ _, rfl⟩
  · refine completes_host (f := fun m => m.fromHost h fun m => m.calVsel h v) rfl ?_
    rw [show s.m.fromHost h (fun m => m.calVsel h v) = s.m.calVsel h v from if_pos hup]
    obtain ⟨hlow, hhigh⟩ := s.m.fld_calWord v i hj
    have hword := Mod.calVsel_shows (m := s.m) (h := h) hk hn hi
    rw [← hword] at hlow hhigh
    have hpair : s.m.calPin v (4 * i + j) = _ := if_pos hpin
    rw [hpair] at hlow hhigh
    exact ⟨hlow, hhigh⟩

end Sys2Proof.Machine
end

section
/-! Links (R436 to R450): their registers, and what a failure or a fence leaves. -/

namespace Sys2Proof.Machine

/-! ## Registers that work leaves alone -/

/-- Only registers of BAR0 that `own` names have changed. -/
def Mod.alters (own : Nat → Prop) (m t : Mod) : Prop := ∀ a, ¬ own a → t.rd a = m.rd a
theorem Mod.alters_refl (own : Nat → Prop) (m : Mod) : m.alters own m := fun _ _ => rfl
theorem Mod.alters_trans {own : Nat → Prop} {m t u : Mod} (h : m.alters own t) (g : t.alters own u) : m.alters own u :=
  fun a ha => (g a ha).trans (h a ha)
/-- The last piece of work first. -/
theorem Mod.alters_after {own : Nat → Prop} {m t u : Mod} (g : t.alters own u) (h : m.alters own t) : m.alters own u := Mod.alters_trans h g
theorem Mod.alters_of_bar0 {own : Nat → Prop} {m t : Mod} (h : t.bar0 = m.bar0) : m.alters own t := fun a _ => congrArg (barVal · a) h
theorem Mod.alters_wrf {own : Nat → Prop} (m : Mod) {a : Nat} (hi lo v : Nat) (ha : own a) : m.alters own (m.wrf a hi lo v) :=
  fun _ hb => Mod.rd_wrf_ne m _ _ _ fun e => hb (e ▸ ha)
theorem Mod.alters_ite {own : Nat → Prop} {m t u : Mod} {p : Prop} [Decidable p] (ht : m.alters own t) (hu : m.alters own u) :
    m.alters own (if p then t else u) := by
  split <;> assumption
theorem Mod.alters.mono {own all : Nat → Prop} {m t : Mod} (h : m.alters own t) (hall : ∀ a, own a → all a) : m.alters all t :=
  fun a ha => h a fun ho => ha (hall a ho)
theorem Mod.alters.rdf {own : Nat → Prop} {m t : Mod} (h : m.alters own t) {a : Nat} (ha : ¬ own a) (hi lo : Nat) : t.rdf a hi lo = m.rdf a hi lo := by
  simp only [Mod.rdf, h a ha]

/-! ## The record of a link -/

theorem Mod.link_updLink_self (m : Mod) (l : Nat) (f : Link → Link) : (m.updLink l f).link l = f (m.link l) := by
  unfold Mod.updLink Mod.link
  rw [Tab.get_put, if_pos rfl]
theorem Mod.link_updLink_ne (m : Mod) {l o : Nat} (f : Link → Link) (h : o ≠ l) : (m.updLink l f).link o = m.link o := by
  unfold Mod.updLink Mod.link
  rw [Tab.get_put, if_neg (Ne.symm h)]

/-! ## What touches no register -/

theorem Mod.bar0_freeMsg (m : Mod) (x : InMsg) : (m.freeMsg x).bar0 = m.bar0 := by
  unfold Mod.freeMsg
  split
  · split <;> rfl
  · rfl
theorem Mod.bar0_cutDrop (m : Mod) (l cls : Nat) : (m.cutDrop l cls).bar0 = m.bar0 := by
  unfold Mod.cutDrop
  exact Mod.foldl_same (·.bar0) _ (fun m x => Mod.bar0_freeMsg m x) _ _
theorem Mod.bar0_undoLanding (m : Mod) (d : List Byte) : (m.undoLanding d).bar0 = m.bar0 := by
  unfold Mod.undoLanding
  dsimp only
  split
  · rfl
  · refine Mod.foldl_same (·.bar0) _ (fun _ _ => ?_) _ _
    rfl
theorem Mod.bar0_dropPart (m : Mod) (l cls : Nat) : (m.dropPart l cls).bar0 = m.bar0 := by
  unfold Mod.dropPart
  split
  · rfl
  · next x _ =>
    have h := Mod.bar0_freeMsg (m.updLink l fun k => { k with parts := Tab.del k.parts cls }) { link := some l, cls := cls, flits := x.flits }
    dsimp only
    split
    · exact (Mod.bar0_cutDrop _ _ _).trans h
    · split
      · exact (Mod.bar0_undoLanding _ _).trans h
      · exact h
theorem Mod.bar0_dropParts (m : Mod) (l : Nat) : (m.dropParts l).bar0 = m.bar0 := by
  unfold Mod.dropParts
  exact Mod.foldl_same (·.bar0) _ (fun m _ => Mod.bar0_dropPart m l _) _ _
theorem Mod.bar0_switchLink (m : Mod) (l : Nat) : (m.switchLink l).bar0 = m.bar0 := by
  unfold Mod.switchLink
  split <;> rfl

/-! ## Leaving a state -/

/-- The registers of link `l`, of the ports' counts and of the module events that a link which leaves UP may write beside its own status. -/
def leavingRegs (l a : Nat) : Prop :=
  a = bLink l + 0x10 ∨ a = bLink l + 0x38 ∨ (∃ p i, i < 8 ∧ a = bPort p + 0x40 + 8 * i) ∨ calEventRegs 3 a
theorem Mod.alters_pcnt {l : Nat} (m : Mod) (o n : Nat) {i : Nat} (hi : i < 8) : m.alters (leavingRegs l) (m.pcnt o i n) :=
  Mod.alters_wrf m _ _ _ (.inr (.inr (.inl ⟨o / 6, i, hi, rfl⟩)))
theorem Mod.alters_lerr3 (m : Mod) (l n : Nat) : m.alters (leavingRegs l) (m.lerr l 3 3 n) :=
  Mod.alters_after (t := (m.raise (bLink l + 0x10) 3).incBy (bLink l + 0x20 + 8 * 3) n) (Mod.alters_of_bar0 rfl)
    (Mod.alters_after (Mod.alters_wrf _ _ _ _ (.inr (.inl rfl))) (Mod.alters_wrf m _ _ _ (.inl rfl)))
theorem Mod.alters_answerUnreach {l : Nat} (m : Mod) (x : Msg) : m.alters (leavingRegs l) (m.answerUnreach x) := by
  unfold Mod.answerUnreach
  split
  · dsimp only
    split
    · exact Mod.alters_of_bar0 rfl
    · split
      · next g dl _ =>
        exact Mod.alters_ite (Mod.alters_wrf m _ _ _ (.inr (.inr (.inl ⟨g / 2, 5, by omega, rfl⟩)))) (Mod.alters_of_bar0 rfl)
      · exact Mod.alters_refl _ m
  · exact Mod.alters_refl _ m
theorem Mod.alters_foldl {own : Nat → Prop} {β : Type} (f : Mod → β → Mod) (h : ∀ (m : Mod) x, m.alters own (f m x)) (xs : List β) (m : Mod) :
    m.alters own (xs.foldl f m) :=
  foldl_keeps (Mod.alters own) (Mod.alters_refl own) Mod.alters_trans f h xs m
theorem Mod.alters_loseLeft {l : Nat} (m : Mod) (g : Nat) : m.alters (leavingRegs l) (m.loseLeft g) := by
  unfold Mod.loseLeft
  refine Mod.alters_foldl _ (fun m o => ?_) _ _
  refine Mod.alters_after (Mod.alters_foldl _ (fun m x => ?_) _ _) (Mod.alters_of_bar0 rfl)
  exact Mod.alters_after (Mod.alters_answerUnreach _ _) (Mod.alters_pcnt m o 1 (i := 6) (by decide))
theorem Mod.alters_losePartial (m : Mod) (g l : Nat) : m.alters (leavingRegs l) (m.losePartial g l) := by
  unfold Mod.losePartial
  refine Mod.alters_after (Mod.alters_foldl _ (fun m x => ?_) _ _) (Mod.alters_of_bar0 rfl)
  have h : m.alters (leavingRegs l) ((m.pcnt l 6 1).answerUnreach x.msg) :=
    Mod.alters_after (Mod.alters_answerUnreach _ _) (Mod.alters_pcnt m l 1 (i := 6) (by decide))
  dsimp only
  split
  · exact Mod.alters_after (Mod.alters_of_bar0 (Mod.bar0_freeMsg _ _)) h
  · exact h
theorem Mod.alters_handOver (m : Mod) (l : Nat) : m.alters (leavingRegs l) (m.handOver l) := by
  unfold Mod.handOver
  split
  · exact Mod.alters_refl _ m
  · dsimp only
    exact Mod.alters_ite (Mod.alters_of_bar0 rfl) (Mod.alters_after (Mod.alters_lerr3 _ _ _) (Mod.alters_of_bar0 rfl))
theorem Mod.alters_calEvent3 (m : Mod) (l : Nat) : m.alters (leavingRegs l) (m.calEvent 3) :=
  Mod.alters.mono (fun a ha => (Mod.outward_calEvent m 3).regs a ha) fun _ h => .inr (.inr (.inr h))

/-- A link that has left UP shows its new state, and of the registers that a failure speaks of nothing else has changed. -/
theorem Mod.leaveUp_shows (m : Mod) (l : Nat) {st : Nat} (hst : st < 16) :
    m.alters (fun a => a = bLink l ∨ leavingRegs l a) (m.leaveUp l st) ∧ ∀ (_ : ¬ leavingRegs l (bLink l)), (m.leaveUp l st).linkState l = st := by
  unfold Mod.leaveUp
  dsimp only
  obtain ⟨m0, hm0⟩ : ∃ u, u = (m.dropParts l).forgetLink l := ⟨_, rfl⟩
  obtain ⟨f, hf⟩ : ∃ f : Link → Link, f = fun k => { k with
    left := k.replay, replay := [], resend := none, credits := [], owed := [], ctrl := [], ctrlSent := 0, ctrlOut := 0, nak := false, closing := false,
    session := {}, auth := {} } := ⟨_, rfl⟩
  rw [← hm0, ← hf]
  obtain ⟨m1, hm1⟩ : ∃ u, u = ((m0.updLink l f).linkGo l st).wrf (bLink l) 6 4 0 := ⟨_, rfl⟩
  obtain ⟨m2, hm2⟩ : ∃ u, u = (m1.calEvent 3).switchLink l := ⟨_, rfl⟩
  rw [← hm1, ← hm2]
  have hbar : m0.bar0 = m.bar0 := by rw [hm0]; exact Mod.bar0_dropParts m l
  have h1 : m.alters (fun a => a = bLink l ∨ leavingRegs l a) m1 := by
    rw [hm1]
    exact Mod.alters_after (Mod.alters_wrf _ _ _ _ (.inl rfl)) (Mod.alters_after (Mod.alters_wrf _ _ _ _ (.inl rfl))
      (Mod.alters_after (Mod.alters_of_bar0 rfl) (Mod.alters_of_bar0 hbar)))
  have hstate : m1.linkState l = st := by
    rw [hm1]
    unfold Mod.linkState
    rw [Mod.rdf_wrf_apart _ _ _ _ _ _ _ (by decide) (.inl (by decide))]
    exact (Mod.rdf_wrf_self _ _ _ _ _ (by decide)).trans (Nat.mod_eq_of_lt (by simpa using hst))
  have h2 : m1.alters (leavingRegs l) m2 := by
    rw [hm2]
    exact Mod.alters_after (Mod.alters_of_bar0 (Mod.bar0_switchLink _ _)) (Mod.alters_calEvent3 m1 l)
  have finish (t : Mod) (h : m2.alters (leavingRegs l) t) :
      m.alters (fun a => a = bLink l ∨ leavingRegs l a) t ∧ ∀ (_ : ¬ leavingRegs l (bLink l)), t.linkState l = st := by
    have h12 := Mod.alters_trans h2 h
    exact ⟨Mod.alters_after (h12.mono fun _ ha => .inr ha) h1, fun hn => (h12.rdf hn 3 0).trans hstate⟩
  split
  · refine finish _ (Mod.alters_after (Mod.alters_handOver _ l) (Mod.alters_after (Mod.alters_of_bar0 rfl) ?_))
    exact Mod.alters_ite (Mod.alters_of_bar0 rfl) (Mod.alters_after (Mod.alters_lerr3 _ _ _) (Mod.alters_of_bar0 rfl))
  · exact finish _ (Mod.alters_after (Mod.alters_losePartial _ _ l) (Mod.alters_loseLeft m2 _))

/-- The status registers of links, and the counts of failures and fences, are none that leaving a state may write. -/
theorem bLink_apart {l : Nat} (hl : l < 36) {o : Nat} (ho : o < 36) : ¬ leavingRegs l (bLink o) := by
  rintro (h | h | ⟨p, i, hi, h⟩ | h)
  · simp only [bLink, bPort, bLNK] at h; omega
  · simp only [bLink, bPort, bLNK] at h; omega
  · simp only [bLink, bPort, bLNK] at h; omega
  · simp only [calEventRegs, bLink, bPort, bLNK, portStride, bCAL] at h; omega
theorem linkCounts_apart {l : Nat} (hl : l < 36) {i : Nat} (hi : i < 2) : ¬ leavingRegs l (bLink l + 0x20 + 8 * i) := by
  rintro (h | h | ⟨p, j, hj, h⟩ | h)
  · omega
  · omega
  · simp only [bLink, bPort, bLNK] at h; omega
  · simp only [calEventRegs, bLink, bPort, bLNK, portStride, bCAL] at h; omega
theorem bLink_ne {l o : Nat} (hl : l < 36) (ho : o < 36) (h : o ≠ l) : bLink o ≠ bLink l := by
  simp only [bLink, bPort, bLNK]; omega

end Sys2Proof.Machine
end

section
/-! A failure or a fence of a link (R444), and what the header of a flit brings (R445 to R448). -/

namespace Sys2Proof.Machine

/-! ## Failures and fences -/

theorem Mod.lerr_shows (m : Mod) (l i : Nat) (hi : i < 8) :
    m.alters (fun a => a = bLink l + 0x10 ∨ a = bLink l + 0x20 + 8 * i) (m.lerr l i i 1) ∧ (m.lerr l i i 1).rdf (bLink l + 0x10) i i = 1 ∧
    m.tallied (m.lerr l i i 1) (bLink l + 0x20 + 8 * i) 1 := by
  obtain ⟨u, hu⟩ : ∃ u, u = m.raise (bLink l + 0x10) i := ⟨_, rfl⟩
  have ht : m.lerr l i i 1 = (u.incBy (bLink l + 0x20 + 8 * i) 1).fitterIrq 21 := by rw [hu]; rfl
  have hum : m.alters (fun a => a = bLink l + 0x10 ∨ a = bLink l + 0x20 + 8 * i) u := by rw [hu]; exact Mod.alters_wrf m _ _ _ (.inl rfl)
  have hbit : u.rdf (bLink l + 0x10) i i = 1 := by rw [hu]; exact Mod.rdf_raise_self m _ _ (by omega)
  have hcnt : u.rdf (bLink l + 0x20 + 8 * i) 47 0 = m.rdf (bLink l + 0x20 + 8 * i) 47 0 := by
    rw [hu]; exact Mod.rdf_wrf_ne m _ _ _ _ _ (by omega)
  rw [ht]
  refine ⟨?_, ?_, ?_⟩
  · exact Mod.alters_after (t := u.incBy (bLink l + 0x20 + 8 * i) 1) (Mod.alters_of_bar0 rfl) (Mod.alters_after (Mod.alters_wrf u _ _ _ (.inr rfl)) hum)
  · exact (Mod.rdf_wrf_ne u _ _ _ _ _ (by omega)).trans hbit
  · have h := Mod.tallied_incBy u (bLink l + 0x20 + 8 * i) 1
    unfold Mod.tallied at h ⊢
    rw [hcnt] at h
    exact h
/-- A link that fails or is fenced tells its reason and is counted, and no other link's state changes. -/
theorem Mod.linkFail_fell (m : Mod) (l : LinkId) {reason st : Nat} (hr : reason < 256) (hst : st = if 0x10 ≤ reason then 8 else 7) :
    m.linkFell (m.linkFail l.val reason) l st reason := by
  obtain ⟨m1, hm1⟩ : ∃ u, u = (if m.linkState l.val = 6 then m.leaveUp l.val st
    else ((m.updLink l.val fun k => { k with ctrl := [], ctrlSent := 0, ctrlOut := 0, session := {}, auth := {} }).linkGo l.val st).wrf (bLink l.val) 6 4 0) := ⟨_, rfl⟩
  have hlt : st < 16 := by rw [hst]; split <;> decide
  obtain ⟨halt, hstate⟩ : m.alters (fun a => a = bLink l.val ∨ leavingRegs l.val a) m1 ∧ m1.linkState l.val = st := by
    rw [hm1]
    split
    · obtain ⟨h, hs⟩ := m.leaveUp_shows l.val hlt
      exact ⟨h, hs (bLink_apart l.isLt l.isLt)⟩
    · refine ⟨Mod.alters_after (Mod.alters_wrf _ _ _ _ (.inl rfl)) (Mod.alters_after (Mod.alters_wrf _ _ _ _ (.inl rfl)) (Mod.alters_of_bar0 rfl)), ?_⟩
      unfold Mod.linkState
      rw [Mod.rdf_wrf_apart _ _ _ _ _ _ _ (by decide) (.inl (by decide))]
      exact (Mod.rdf_wrf_self _ _ _ _ _ (by decide)).trans (Nat.mod_eq_of_lt (by simpa using hlt))
  obtain ⟨m2, hm2⟩ : ∃ u, u = m1.wrf (bLink l.val) 15 8 reason := ⟨_, rfl⟩
  have halt2 : m.alters (fun a => a = bLink l.val ∨ leavingRegs l.val a) m2 := by
    rw [hm2]; exact Mod.alters_after (Mod.alters_wrf _ _ _ _ (.inl rfl)) halt
  have hstate2 : m2.linkState l.val = st := by
    rw [hm2]; exact (Mod.rdf_wrf_apart _ _ _ _ _ _ _ (by decide) (.inl (by decide))).trans hstate
  have hreason : m2.rdf (bLink l.val) 15 8 = reason := by
    rw [hm2, Mod.rdf_wrf_self _ _ _ _ _ (by decide)]
    exact Nat.mod_eq_of_lt (by simpa using hr)
  obtain ⟨i, hi, hsti⟩ : ∃ i, i < 2 ∧ st = i + 7 := by
    rw [hst]; split
    · exact ⟨1, by decide, rfl⟩
    · exact ⟨0, by decide, rfl⟩
  have heq : m.linkFail l.val reason = m2.lerr l.val i i 1 := by
    unfold Mod.linkFail
    dsimp only
    rw [← hst, ← hm1, ← hm2]
    obtain rfl | rfl : i = 0 ∨ i = 1 := by omega
    · exact if_neg (by omega)
    · exact if_pos hsti
  obtain ⟨halt3, hbit, hcnt⟩ := m2.lerr_shows l.val i (by omega)
  have hl := l.isLt
  have hown (o : Nat) (ho : o < 36) : ¬ (bLink o = bLink l.val + 0x10 ∨ bLink o = bLink l.val + 0x20 + 8 * i) := by
    simp only [bLink, bPort, bLNK]; omega
  have hi7 : st - 7 = i := by omega
  rw [heq]
  unfold Mod.linkFell
  rw [hi7]
  refine ⟨(halt3.rdf (hown _ hl) 3 0).trans hstate2, (halt3.rdf (hown _ hl) 15 8).trans hreason, hbit, ?_, fun o ho => ?_⟩
  · have h := halt2.rdf (a := bLink l.val + 0x20 + 8 * i) (by
      rintro (h | h)
      · omega
      · exact linkCounts_apart hl hi h) 47 0
    unfold Mod.tallied at hcnt ⊢
    rw [hcnt, h]
  · refine (halt3.rdf (hown _ o.isLt) 3 0).trans (halt2.rdf ?_ 3 0)
    rintro (h | h)
    · exact bLink_ne hl o.isLt (fun e => ho (Fin.ext e)) h
    · exact bLink_apart hl o.isLt h
/-- The fall of a link is told of the module as it was before work that left the links' status and counts alone. -/
theorem Mod.linkFell.after {m u t : Mod} {l : LinkId} {st reason : Nat} (h : u.linkFell t l st reason) (hst : st = 7 ∨ st = 8)
    (hlink : ∀ o x, o < 36 → x < 0x40 → u.rd (bLink o + x) = m.rd (bLink o + x)) : m.linkFell t l st reason := by
  obtain ⟨h1, h2, h3, h4, h5⟩ := h
  refine ⟨h1, h2, h3, ?_, fun o ho => (h5 o ho).trans ?_⟩
  case refine_2 =>
    have h0 := hlink o.val 0 o.isLt (by decide)
    rw [Nat.add_zero] at h0
    unfold Mod.linkState Mod.rdf
    rw [h0]
  unfold Mod.tallied Mod.rdf at h4 ⊢
  rw [h4, show bLink l.val + 0x20 + 8 * (st - 7) = bLink l.val + (0x20 + 8 * (st - 7)) from Nat.add_assoc _ _ _,
    hlink l.val (0x20 + 8 * (st - 7)) l.isLt (by omega)]

/-! ## The header of a flit -/

/-- What an arriving flit leaves alone: everything but BAR0 and the links, and of BAR0 all but the port's counts of codewords and the selectable counters. -/
structure Mod.heard (m t : Mod) (p : Nat) : Prop where
  rest : { t with bar0 := m.bar0, lnk := m.lnk } = m
  lnk : { t.lnk with links := m.lnk.links } = m.lnk
  regs : ∀ a, a < bMON → a ≠ bPort p + 0x48 → a ≠ bPort p + 0x50 → a ≠ bPort p + 0x58 → t.rd a = m.rd a
/-- The codeword is counted, and its corrected symbols. -/
def Mod.codewordCame (m : Mod) (l : Nat) (fec : FecOut) : Mod :=
  if 0 < fec.val then ((m.pcnt l 1 1).pcnt l 2 1).evPort (l / 6) 0x04 1 none else m.pcnt l 1 1
theorem Mod.pcnt_tallied (m : Mod) (l i n : Nat) : m.tallied (m.pcnt l i n) (bPort (l / 6) + 0x40 + 8 * i) n := Mod.tallied_incBy m _ _
theorem Mod.rd_pcnt_ne (m : Mod) {l i n a : Nat} (h : a ≠ bPort (l / 6) + 0x40 + 8 * i) : (m.pcnt l i n).rd a = m.rd a := Mod.rd_incBy_ne m n h
theorem bPort_lt {p x : Nat} (hp : p < 6) (hx : x < 0x1000) : bPort p + x < bMON := by
  simp only [bPort, bLNK, bMON]; omega
theorem Mod.codewordCame_shows (m : Mod) {l : Nat} (hl : l < 36) (fec : FecOut) :
    m.onlyBar (m.codewordCame l fec) ∧
    (∀ a, a < bMON → a ≠ bPort (l / 6) + 0x48 → a ≠ bPort (l / 6) + 0x50 → (m.codewordCame l fec).rd a = m.rd a) ∧
    m.tallied (m.codewordCame l fec) (bPort (l / 6) + 0x48) 1 ∧ (0 < fec.val → m.tallied (m.codewordCame l fec) (bPort (l / 6) + 0x50) 1) := by
  have h1 : ∀ a, a ≠ bPort (l / 6) + 0x48 → (m.pcnt l 1 1).rd a = m.rd a := fun a ha => Mod.rd_pcnt_ne m (by omega)
  unfold Mod.codewordCame
  split
  · next hf =>
    obtain ⟨u, hu⟩ : ∃ u, u = (m.pcnt l 1 1).pcnt l 2 1 := ⟨_, rfl⟩
    have hrd : ∀ a, a ≠ bPort (l / 6) + 0x48 → a ≠ bPort (l / 6) + 0x50 → u.rd a = m.rd a := fun a ha hb => by
      rw [hu]; exact (Mod.rd_pcnt_ne _ (by omega)).trans (h1 a ha)
    have hbar : m.onlyBar u := by rw [hu]; exact ⟨rfl⟩
    have hc1 : m.tallied u (bPort (l / 6) + 0x48) 1 := by
      have h := m.pcnt_tallied l 1 1
      have hk : u.rd (bPort (l / 6) + 0x48) = (m.pcnt l 1 1).rd (bPort (l / 6) + 0x48) := by
        rw [hu]; exact Mod.rd_pcnt_ne _ (by omega)
      exact (congrArg (fun w => fld w 47 0) hk).trans h
    have hc2 : m.tallied u (bPort (l / 6) + 0x50) 1 := by
      have h := (m.pcnt l 1 1).pcnt_tallied l 2 1
      have hk : (m.pcnt l 1 1).rd (bPort (l / 6) + 0x50) = m.rd (bPort (l / 6) + 0x50) := h1 _ (by omega)
      rw [← hu] at h
      exact h.trans (congrArg (fun w => (fld w 47 0 + 1) % 2 ^ 48) hk)
    rw [← hu]
    have hev : ∀ a, a < bMON → (u.evPort (l / 6) 0x04 1 none).rd a = u.rd a := fun a ha => Mod.rd_evPort u _ _ _ _ _ ha
    refine ⟨Mod.onlyBar_trans hbar (Mod.onlyBar_evPort u _ _ _ _), fun a ha hb hc => (hev a ha).trans (hrd a hb hc), ?_, fun _ => ?_⟩
    · exact (congrArg (fun w => fld w 47 0) (hev _ (bPort_lt (by omega) (by decide)))).trans hc1
    · exact (congrArg (fun w => fld w 47 0) (hev _ (bPort_lt (by omega) (by decide)))).trans hc2
  · next hf => exact ⟨⟨rfl⟩, fun a _ hb _ => h1 a hb, m.pcnt_tallied l 1 1, fun h => absurd h hf⟩

theorem Mod.flitGood_good {m : Mod} {l : Nat} {fec : FecOut} {good : Bool} {h : FlitHdr} (hf : fec.val ≤ 15) (hg : good = true) :
    m.flitGood l fec good h = (some h, (m.codewordCame l fec).takeHeader l h) := by
  unfold Mod.flitGood
  exact if_neg (by rw [hg]; simp only [Bool.not_true, Bool.false_eq_true, or_false]; omega)
theorem Mod.flitGood_bad {m : Mod} {l : Nat} {fec : FecOut} {good : Bool} {h : FlitHdr} (hb : 15 < fec.val ∨ good = false) :
    m.flitGood l fec good h = (none, ((m.pcnt l 1 1).pcnt l 3 1).updLink l fun k => { k with nak := true, naked := true }) := by
  unfold Mod.flitGood
  exact if_pos (by simpa using hb)
/-- The module after a flit that is discarded. -/
theorem Mod.flitBad_shows (m : Mod) (l : Nat) :
    let t := ((m.pcnt l 1 1).pcnt l 3 1).updLink l fun k => { k with nak := true, naked := true }
    t.link l = { m.link l with nak := true, naked := true } ∧ m.tallied t (bPort (l / 6) + 0x48) 1 ∧ m.tallied t (bPort (l / 6) + 0x58) 1 ∧
      m.heard t (l / 6) := by
  obtain ⟨u, hu⟩ : ∃ u, u = (m.pcnt l 1 1).pcnt l 3 1 := ⟨_, rfl⟩
  have h1 : ∀ a, a ≠ bPort (l / 6) + 0x48 → (m.pcnt l 1 1).rd a = m.rd a := fun a ha => Mod.rd_pcnt_ne m (by omega)
  have hrd : ∀ a, a ≠ bPort (l / 6) + 0x48 → a ≠ bPort (l / 6) + 0x58 → u.rd a = m.rd a := fun a ha hb => by
    rw [hu]; exact (Mod.rd_pcnt_ne _ (by omega)).trans (h1 a ha)
  have hc1 : m.tallied u (bPort (l / 6) + 0x48) 1 := by
    have hk : u.rd (bPort (l / 6) + 0x48) = (m.pcnt l 1 1).rd (bPort (l / 6) + 0x48) := by
      rw [hu]; exact Mod.rd_pcnt_ne _ (by omega)
    exact (congrArg (fun w => fld w 47 0) hk).trans (m.pcnt_tallied l 1 1)
  have hc3 : m.tallied u (bPort (l / 6) + 0x58) 1 := by
    have h := (m.pcnt l 1 1).pcnt_tallied l 3 1
    have hk : (m.pcnt l 1 1).rd (bPort (l / 6) + 0x58) = m.rd (bPort (l / 6) + 0x58) := h1 _ (by omega)
    rw [← hu] at h
    exact h.trans (congrArg (fun w => (fld w 47 0 + 1) % 2 ^ 48) hk)
  have hrest : ({ u with bar0 := m.bar0 } : Mod) = m := by rw [hu]; rfl
  have hlnk : u.lnk = m.lnk := by rw [hu]; rfl
  dsimp only
  rw [← hu]
  refine ⟨?_, hc1, hc3, ⟨?_, ?_, fun a _ hb _ hd => hrd a hb hd⟩⟩
  · rw [Mod.link_updLink_self, Mod.link, hlnk]; rfl
  · exact (congrArg (fun x : Mod => { x with lnk := m.lnk }) hrest :)
  · exact (congrArg (fun x : LnkState => { x with links := m.lnk.links }) hlnk :)

end Sys2Proof.Machine
end

section
/-! What a link reads of the configuration and of its partner's flits (R436 to R441, R445, R457). -/

namespace Sys2Proof.Machine

/-! ## The registers of the links' configuration -/

/-- The registers that the links' settings, states and topology stand in. -/
def linkCfg (a : Nat) : Prop :=
  a = bCFGSTAT ∨ bLNK ≤ a ∧ a < bLNK + 0x1000 ∨ (∃ p x, p < 6 ∧ x < 0x40 ∧ a = bPort p + x) ∨ ∃ o x, o < 36 ∧ x < 0x40 ∧ a = bLink o + x
/-- Two modules agree in them. -/
def Mod.linked (m t : Mod) : Prop := ∀ a, linkCfg a → t.rd a = m.rd a

section
variable {m t : Mod} (h : m.linked t)
include h
theorem Mod.linked.topoWord : t.rd (bLNK + 0x008) = m.rd (bLNK + 0x008) := h _ (.inr (.inl ⟨by omega, by omega⟩))
theorem Mod.linked.devWord : t.rd bLNK = m.rd bLNK := h _ (.inr (.inl ⟨by omega, by omega⟩))
theorem Mod.linked.topo : t.topo = m.topo := by simp only [Mod.topo, Mod.rdf, h.topoWord]
theorem Mod.linked.dev : t.dev = m.dev := by simp only [Mod.dev, Mod.rdf, h.devWord]
theorem Mod.linked.dims : t.dims = m.dims := by simp only [Mod.dims, h.topo]
theorem Mod.linked.sizeOf (d : Nat) : t.sizeOf d = m.sizeOf d := by simp only [Mod.sizeOf, Mod.rdf, h.topoWord]
theorem Mod.linked.coord (id d : Nat) : t.coord id d = m.coord id d := by simp only [Mod.coord, h.topo]
theorem Mod.linked.groupOfLink (l : Nat) : t.groupOfLink l = m.groupOfLink l := by simp only [Mod.groupOfLink, h.topo]
theorem Mod.linked.groupLinks (g : Nat) : t.groupLinks g = m.groupLinks g := by simp only [Mod.groupLinks, h.topo]
theorem Mod.linked.dimOf (g : Nat) : t.dimOf g = m.dimOf g := by simp only [Mod.dimOf, h.topo]
theorem Mod.linked.plusOf (g : Nat) : t.plusOf g = m.plusOf g := by simp only [Mod.plusOf, h.topo]
theorem Mod.linked.devOk (id : Nat) : t.devOk id = m.devOk id := by simp only [Mod.devOk, h.dims, h.coord, h.sizeOf]
theorem Mod.linked.route (dest : Nat) (came : Option (Nat × Nat)) : t.route dest came = m.route dest came := by
  unfold Mod.route Mod.groupOf
  simp only [h.dims, h.coord, h.sizeOf, h.dev, h.topo]
theorem Mod.linked.neighbour (g : Nat) : t.neighbour g = m.neighbour g := by
  simp only [Mod.neighbour, h.dimOf, h.sizeOf, h.coord, h.dev, h.plusOf, h.topo]
theorem Mod.linked.port {p x : Nat} (hp : p < 6) (hx : x < 0x40) : t.rd (bPort p + x) = m.rd (bPort p + x) := h _ (.inr (.inr (.inl ⟨p, x, hp, hx, rfl⟩)))
theorem Mod.linked.port0 {p : Nat} (hp : p < 6) : t.rd (bPort p) = m.rd (bPort p) := by
  have h0 := h.port (x := 0) hp (by decide)
  rwa [Nat.add_zero] at h0
theorem Mod.linked.link {o x : Nat} (ho : o < 36) (hx : x < 0x40) : t.rd (bLink o + x) = m.rd (bLink o + x) := h _ (.inr (.inr (.inr ⟨o, x, ho, hx, rfl⟩)))
theorem Mod.linked.status {o : Nat} (ho : o < 36) : t.rd (bLink o) = m.rd (bLink o) := by
  have h0 := h.link (x := 0) ho (by decide)
  rwa [Nat.add_zero] at h0
theorem Mod.linked.linkState {o : Nat} (ho : o < 36) : t.linkState o = m.linkState o := by simp only [Mod.linkState, Mod.rdf, h.status ho]
theorem Mod.linked.outputsOk : t.outputsOk = m.outputsOk := by simp only [Mod.outputsOk, Mod.rdf, h.topo, h _ (.inl rfl)]
theorem Mod.linked.wired (l : Nat) (x : Hello) : t.wired l x = m.wired l x := by
  simp only [Mod.wired, h.neighbour, h.groupOfLink, h.topoWord, h.topo]
theorem Mod.linked.protocol {l : Nat} (hl : l < 36) (x : Hello) : t.protocol l x = m.protocol l x := by
  have hp : l / 6 < 6 := by omega
  have hany (v : Nat) : (((upto 6).map (6 * (l / 6) + ·)).any fun o => o != l && t.linkState o == 6 && t.rdf (bLink o) 5 4 != v) =
      (((upto 6).map (6 * (l / 6) + ·)).any fun o => o != l && m.linkState o == 6 && m.rdf (bLink o) 5 4 != v) := by
    refine Bool.eq_iff_iff.mpr ?_
    simp only [List.any_eq_true]
    refine exists_congr fun o => and_congr_right fun ho => ?_
    obtain ⟨j, hj, rfl⟩ := List.mem_map.mp ho
    have hj6 : j < 6 := mem_upto.mp hj
    have ho36 : 6 * (l / 6) + j < 36 := by omega
    simp only [h.linkState ho36, Mod.rdf, h.status ho36]
  unfold Mod.protocol
  simp only [Mod.rdf, h.port0 hp] at hany ⊢
  simp only [hany] <;> rfl
theorem Mod.linked.credAlloc {l cls : Nat} (hl : l < 36) (hc : cls < 12) : t.credAlloc l cls = m.credAlloc l cls := by
  have hreg : t.rd (bPort (l / 6) + 0x10 + 8 * (cls / 6)) = m.rd (bPort (l / 6) + 0x10 + 8 * (cls / 6)) := by
    rw [Nat.add_assoc]
    exact h.port (by omega) (by omega)
  simp only [Mod.credAlloc, Mod.rdf, hreg]
theorem Mod.linked.sealed {l : Nat} (hl : l < 36) : t.sealed l = m.sealed l := by simp only [Mod.sealed, Mod.rdf, h.status hl]
theorem Mod.linked.payload {l : Nat} (hl : l < 36) : t.payload l = m.payload l := by simp only [Mod.payload, h.sealed hl]
end

/-! ## A flit whose header is taken -/

/-- An arriving flit leaves the links' configuration alone. -/
theorem Mod.heard.linked {m t : Mod} {p : Nat} (h : m.heard t p) (hp : p < 6) : m.linked t := fun a ha => by
  rcases ha with rfl | ⟨hlo, hhi⟩ | ⟨q, x, hq, hx, rfl⟩ | ⟨o, x, ho, hx, rfl⟩
  · exact h.regs _ (by decide) (by simp only [bCFGSTAT, bPort, bLNK]; omega) (by simp only [bCFGSTAT, bPort, bLNK]; omega)
      (by simp only [bCFGSTAT, bPort, bLNK]; omega)
  · exact h.regs a (by simp only [bLNK, bMON] at *; omega) (by simp only [bPort, bLNK] at *; omega) (by simp only [bPort, bLNK] at *; omega)
      (by simp only [bPort, bLNK] at *; omega)
  · exact h.regs _ (bPort_lt hq (by omega)) (by simp only [bPort, bLNK]; omega) (by simp only [bPort, bLNK]; omega) (by simp only [bPort, bLNK]; omega)
  · exact h.regs _ (by simp only [bLink, bPort, bLNK, bMON]; omega) (by simp only [bLink, bPort, bLNK]; omega) (by simp only [bLink, bPort, bLNK]; omega)
      (by simp only [bLink, bPort, bLNK]; omega)
theorem Mod.heard.same {α : Type} {m t : Mod} {p : Nat} (h : m.heard t p) (f : Mod → α)
    (hf : ∀ (u : Mod) b q, f { u with bar0 := b, lnk := q } = f u := by intros; rfl) : f t = f m := by
  rw [← hf t m.bar0 m.lnk, h.rest]
/-- A flit that is taken: the codeword is counted, and the link takes acknowledgements and credits. -/
theorem Mod.taken_shows (m : Mod) {l : Nat} (hl : l < 36) (fec : FecOut) (x : FlitHdr) :
    let t := (m.codewordCame l fec).takeHeader l x
    t.lnk = (m.takeHeader l x).lnk ∧ m.heard t (l / 6) ∧ m.tallied t (bPort (l / 6) + 0x48) 1 ∧
      (0 < fec.val → m.tallied t (bPort (l / 6) + 0x50) 1) := by
  obtain ⟨hbar, hrd, hc1, hc2⟩ := m.codewordCame_shows hl fec
  obtain ⟨u, hu⟩ : ∃ u, u = m.codewordCame l fec := ⟨_, rfl⟩
  rw [← hu] at hbar hrd hc1 hc2
  have hlnk : u.lnk = m.lnk := hbar.same (·.lnk)
  have htaken : (u.takeHeader l x).lnk = (m.takeHeader l x).lnk := by
    unfold Mod.takeHeader Mod.updLink Mod.link
    rw [hlnk]
  dsimp only
  rw [← hu]
  refine ⟨htaken, ⟨?_, ?_, fun a ha hb hc _ => hrd a ha hb hc⟩, hc1, hc2⟩
  · exact Eq.trans (b := { u with bar0 := m.bar0, lnk := m.lnk }) rfl ((congrArg (fun y : Mod => { y with lnk := m.lnk }) hbar.rest :))
  · rw [htaken]; rfl

end Sys2Proof.Machine
end

section
/-! States of a link (R442 to R444): DETECT to AUTH, time-outs, RETRAIN and REARM. -/

namespace Sys2Proof.Machine

/-! ## Going from state to state -/

theorem Mod.linkGo_went (m : Mod) (l : LinkId) {st : Nat} (hst : st < 16) : m.linkWent (m.linkGo l.val st) l st :=
  ⟨(Mod.rdf_wrf_self m _ _ _ _ (by decide)).trans (Nat.mod_eq_of_lt hst), fun _ ha => Mod.rd_wrf_ne m _ _ _ ha⟩
theorem Mod.linkFell.frame {m t : Mod} {l : LinkId} {st reason : Nat} (h : m.linkFell t l st reason) (nv : NonVol) (pwr : Power) :
    m.linkFell { t with nv := nv, pwr := pwr } l st reason := h
theorem Mod.linkWent.frame {m t : Mod} {l : LinkId} {st : Nat} (h : m.linkWent t l st) (nv : NonVol) (pwr : Power) :
    m.linkWent { t with nv := nv, pwr := pwr } l st := h
theorem completes_fell {i : Instr} {s : State} {f : Mod → Mod} {l : LinkId} {st reason : Nat} (hi : exec i s = s.run f) (hpow : s.m.powered = true)
    (h : s.m.linkFell (f s.m) l st reason) : completes i s fun t => s.m.linkFell t l st reason :=
  completes_run hi hpow (h.frame _ _)
/-- A command that does nothing leaves the module as it was. -/
theorem completes_still {i : Instr} {s : State} {f : Mod → Mod} (hi : exec i s = s.run f) (hpow : s.m.powered = true) (h : f s.m = s.m) :
    completes i s fun t => t = s.m :=
  completes_run hi hpow (by rw [h])
/-- Deleting the tracks of a link deletes each of them, whatever stood there. -/
theorem get_foldl_del {d : Int} (key : Nat → Nat) (k : Nat) {n : Nat} (hn : n < k) (t : Tab Int) :
    Tab.get d ((upto k).foldl (fun t n => Tab.del t (key n)) t) (key n) = d := by
  induction k with
  | zero => omega
  | succ k ih =>
    rw [show upto (k + 1) = upto k ++ [k] from List.range_succ, List.foldl_append, List.foldl_cons, List.foldl_nil]
    unfold Tab.get
    rw [Tab.get?_del]
    split
    · rfl
    · next hne =>
      refine ih (Nat.lt_of_le_of_ne (Nat.le_of_lt_succ hn) fun e => hne (by rw [e]))
theorem Mod.signalDetected_shows {m : Mod} {l : LinkId} (h : m.linkState l.val = 1) :
    m.linkWent (m.signalDetected l) l 2 ∧ (m.signalDetected l).lnk = m.lnk ∧ ∀ n : Fin 8, (m.signalDetected l).trackOf (.link 3 l.val n.val) = 0 := by
  obtain ⟨u, hu⟩ : ∃ u, u = (m.linkGo l.val 2).clearTracks l.val := ⟨_, rfl⟩
  have heq : m.signalDetected l = u.switchLink l.val := by rw [hu]; exact if_pos h
  have hbar : (u.switchLink l.val).bar0 = u.bar0 := Mod.bar0_switchLink u _
  have hkeep : (u.switchLink l.val).lnk = u.lnk ∧ (u.switchLink l.val).cal.track = u.cal.track := by
    unfold Mod.switchLink; split <;> exact ⟨rfl, rfl⟩
  have hgo : m.linkWent u l 2 := by rw [hu]; exact m.linkGo_went l (by decide)
  have htrack (n : Fin 8) : u.trackOf (.link 3 l.val n.val) = 0 := by
    rw [hu]; exact get_foldl_del (fun n => (CalQ.link 3 l.val n).key) 8 n.isLt m.cal.track
  rw [heq]
  obtain ⟨hstate, hregs⟩ := hgo
  refine ⟨⟨?_, fun a ha => ?_⟩, hkeep.1.trans (by rw [hu]; rfl), fun n => ?_⟩
  · exact (congrArg (fun b => fld (barVal b (bLink l.val)) 3 0) hbar).trans hstate
  · exact (congrArg (fun b => barVal b a) hbar).trans (hregs a ha)
  · exact (congrArg (fun t => Tab.get 0 t (CalQ.link 3 l.val n.val).key) hkeep.2).trans (htrack n)
theorem Mod.lockAchieved_shows {m : Mod} {l : LinkId} (h : m.linkState l.val = 3) :
    m.linkWent (m.lockAchieved l) l 4 ∧ ∃ x, ((m.lockAchieved l).link l.val).ctrl = [.hello x] ∧ x.dev.toNat = m.dev % 2 ^ 18 := by
  obtain ⟨r, hr⟩ : ∃ r, r = m.drbg 32 := ⟨_, rfl⟩
  obtain ⟨x, hx⟩ : ∃ x, x = r.2.ownHello l.val r.1 := ⟨_, rfl⟩
  obtain ⟨f, hf⟩ : ∃ f : Link → Link, f = fun k => { k with auth := { own := [helloRaw x] }, ctrl := [.hello x], ctrlSent := 0, ctrlOut := 0, credits := [] } :=
    ⟨_, rfl⟩
  have heq : m.lockAchieved l = (r.2.updLink l.val f).linkGo l.val 4 := by
    rw [hf, hx, hr]
    exact if_neg (by omega)
  have hbar : (r.2.updLink l.val f).bar0 = m.bar0 := by rw [hr]; rfl
  obtain ⟨hstate, hregs⟩ := (r.2.updLink l.val f).linkGo_went l (st := 4) (by decide)
  rw [heq]
  refine ⟨⟨hstate, fun a ha => (hregs a ha).trans (congrArg (fun b => barVal b a) hbar)⟩, x, ?_, ?_⟩
  · have hlink : ((r.2.updLink l.val f).linkGo l.val 4).link l.val = f (r.2.link l.val) := r.2.link_updLink_self l.val f
    rw [hlink, hf]
  · rw [hx, hr]
    exact BitVec.toNat_ofNat _ _

/-! ## REARM and the credit watchdog -/

theorem Mod.linkEnabled_linkGo (m : Mod) (l : LinkId) (st : Nat) : (m.linkGo l.val st).linkEnabled l.val = m.linkEnabled l.val := by
  have hregs : ∀ a, a ≠ bLink l.val → (m.linkGo l.val st).rd a = m.rd a := fun a ha => Mod.rd_wrf_ne m _ _ _ ha
  have htopo : (m.linkGo l.val st).rd (bLNK + 0x008) = m.rd (bLNK + 0x008) := hregs _ (by simp only [bLink, bPort, bLNK]; omega)
  have hport : (m.linkGo l.val st).rd (bPort (l.val / 6)) = m.rd (bPort (l.val / 6)) := hregs _ (by simp only [bLink, bPort, bLNK]; omega)
  obtain ⟨u, hu⟩ : ∃ u, u = m.linkGo l.val st := ⟨_, rfl⟩
  rw [← hu] at htopo hport ⊢
  have ht : u.topo = m.topo := by simp only [Mod.topo, Mod.rdf, htopo]
  have hdims : u.dims = m.dims := by simp only [Mod.dims, ht]
  have hgroup (o : Nat) : u.groupOfLink o = m.groupOfLink o := by simp only [Mod.groupOfLink, ht]
  have hdim (g : Nat) : u.dimOf g = m.dimOf g := by simp only [Mod.dimOf, ht]
  have hsize (d : Nat) : u.sizeOf d = m.sizeOf d := by simp only [Mod.sizeOf, Mod.rdf, htopo]
  simp only [Mod.linkEnabled, hport, ht, hdims, hgroup, hdim, hsize]
theorem Mod.linkRearm_went {m : Mod} {l : LinkId} (h : m.linkState l.val = 8 ∨ m.linkState l.val = 7 ∨ m.linkState l.val = 0) :
    m.linkWent (m.linkRearm l) l (if m.linkEnabled l.val then 1 else 0) := by
  obtain ⟨u, hu⟩ : ∃ u, u = m.linkGo l.val 0 := ⟨_, rfl⟩
  obtain ⟨hstate, hregs⟩ : m.linkWent u l 0 := by rw [hu]; exact m.linkGo_went l (by decide)
  have hen : u.linkEnabled l.val = m.linkEnabled l.val := by rw [hu]; exact m.linkEnabled_linkGo l 0
  have heq : m.linkRearm l = if m.linkEnabled l.val then u.linkGo l.val 1 else u := by
    unfold Mod.linkRearm Mod.linkDetect
    rw [if_pos h, ← hu, hen]
    exact if_congr (and_iff_right hstate) rfl rfl
  rw [heq]
  split
  · obtain ⟨hs, hr⟩ := u.linkGo_went l (st := 1) (by decide)
    exact ⟨hs, fun a ha => (hr a ha).trans (hregs a ha)⟩
  · exact ⟨hstate, hregs⟩
theorem Mod.creditWatchdog_shows {m : Mod} {l : LinkId} {cls : Fin 12} (hck : m.lnk.clock = true) (hst : m.linkState l.val = 6)
    (hs : m.classStalled l.val cls.val = true) :
    (m.creditWatchdog l cls).rdf (bLink l.val + 0x10) 2 2 = 1 ∧ m.tallied (m.creditWatchdog l cls) (bLink l.val + 0x20 + 16) 1 ∧
      (m.creditWatchdog l cls).linkState l.val = 6 ∧ (m.creditWatchdog l cls).lnk = m.lnk := by
  have heq : m.creditWatchdog l cls = m.lerr l.val 2 2 1 := if_pos ⟨hck, hst, hs⟩
  obtain ⟨halt, hbit, hcnt⟩ := m.lerr_shows l.val 2 (by decide)
  rw [heq]
  exact ⟨hbit, hcnt, (halt.rdf (by omega) 3 0).trans hst, rfl⟩

/-! ## The commands of a link's states -/

section
variable {s : State} {l : LinkId}
theorem linkSteps (hpow : s.m.powered = true) :
    (s.m.linkState l.val = 1 → completes (.signalDetected l) s fun t => s.m.linkWent t l 2 ∧ t.lnk = s.m.lnk ∧ ∀ n : Fin 8, t.trackOf (.link 3 l.val n.val) = 0) ∧
    (s.m.linkState l.val = 2 → completes (.trainConverged l) s fun t => s.m.linkWent t l 3 ∧ t.lnk = s.m.lnk) ∧
    (s.m.linkState l.val = 3 → completes (.lockAchieved l) s fun t =>
      s.m.linkWent t l 4 ∧ ∃ x, (t.link l.val).ctrl = [.hello x] ∧ x.dev.toNat = s.m.dev % 2 ^ 18) ∧
    (s.m.lnk.clock = true → s.m.linkState l.val = 7 → completes (.failedRetry l) s fun t => s.m.linkWent t l 1 ∧ t.lnk = s.m.lnk) := by
  refine ⟨fun h => ?_, fun h => ?_, fun h => ?_, fun hck h => ?_⟩
  · obtain ⟨hwent, hlnk, htrack⟩ := Mod.signalDetected_shows h
    exact completes_run (f := fun m => m.signalDetected l) rfl hpow ⟨hwent.frame _ _, hlnk, htrack⟩
  · refine completes_run (f := fun m => m.trainConverged l) rfl hpow ?_
    rw [show s.m.trainConverged l = s.m.linkGo l.val 3 from if_pos h]
    exact ⟨(s.m.linkGo_went l (by decide)).frame _ _, rfl⟩
  · obtain ⟨hwent, hhello⟩ := Mod.lockAchieved_shows h
    exact completes_run (f := fun m => m.lockAchieved l) rfl hpow ⟨hwent.frame _ _, hhello⟩
  · refine completes_run (f := fun m => m.failedRetry l) rfl hpow ?_
    rw [show s.m.failedRetry l = s.m.linkGo l.val 1 from if_pos ⟨hck, h⟩]
    exact ⟨(s.m.linkGo_went l (by decide)).frame _ _, rfl⟩
theorem linkTimeouts (hpow : s.m.powered = true) (hck : s.m.lnk.clock = true) :
    (s.m.linkState l.val = 2 → completes (.trainTimeout l) s fun t => s.m.linkFell t l 7 0x01) ∧
    (s.m.linkState l.val = 3 → completes (.lockTimeout l) s fun t => s.m.linkFell t l 7 0x02) ∧
    (s.m.linkState l.val = 4 → completes (.authTimeout l) s fun t => s.m.linkFell t l 7 0x03) ∧
    (s.m.linkState l.val = 6 → completes (.linkWatchdog l) s fun t => s.m.linkFell t l 7 0x04) := by
  refine ⟨fun h => ?_, fun h => ?_, fun h => ?_, fun h => ?_⟩
  · refine completes_fell (f := fun m => m.trainTimeout l) rfl hpow ?_
    rw [show s.m.trainTimeout l = s.m.linkFail l.val 0x01 from if_pos ⟨hck, h⟩]
    exact s.m.linkFail_fell l (by decide) rfl
  · refine completes_fell (f := fun m => m.lockTimeout l) rfl hpow ?_
    rw [show s.m.lockTimeout l = s.m.linkFail l.val 0x02 from if_pos ⟨hck, h⟩]
    exact s.m.linkFail_fell l (by decide) rfl
  · refine completes_fell (f := fun m => m.authTimeout l) rfl hpow ?_
    rw [show s.m.authTimeout l = s.m.linkFail l.val 0x03 from if_pos ⟨hck, h⟩]
    exact s.m.linkFail_fell l (by decide) rfl
  · refine completes_fell (f := fun m => m.linkWatchdog l) rfl hpow ?_
    rw [show s.m.linkWatchdog l = s.m.linkFail l.val 0x04 from if_pos ⟨hck, h⟩]
    exact s.m.linkFail_fell l (by decide) rfl
theorem linkStateElse (hpow : s.m.powered = true) {i : Instr} (h : (s.m.linkState l.val ≠ 1 ∧ i = Instr.signalDetected l) ∨
    (s.m.linkState l.val ≠ 2 ∧ (i = .trainConverged l ∨ i = .trainTimeout l)) ∨ (s.m.linkState l.val ≠ 3 ∧ (i = .lockAchieved l ∨ i = .lockTimeout l)) ∨
    (s.m.linkState l.val ≠ 4 ∧ i = .authTimeout l) ∨ (s.m.linkState l.val ≠ 6 ∧ i = .linkWatchdog l) ∨ (s.m.linkState l.val ≠ 7 ∧ i = .failedRetry l)) :
    completes i s fun t => t = s.m := by
  obtain ⟨hn, rfl⟩ | ⟨hn, rfl | rfl⟩ | ⟨hn, rfl | rfl⟩ | ⟨hn, rfl⟩ | ⟨hn, rfl⟩ | ⟨hn, rfl⟩ := h
  · exact completes_still (f := fun m => m.signalDetected l) rfl hpow (if_neg hn)
  · exact completes_still (f := fun m => m.trainConverged l) rfl hpow (if_neg hn)
  · exact completes_still (f := fun m => m.trainTimeout l) rfl hpow (if_neg fun h => hn h.2)
  · exact completes_still (f := fun m => m.lockAchieved l) rfl hpow (if_pos hn)
  · exact completes_still (f := fun m => m.lockTimeout l) rfl hpow (if_neg fun h => hn h.2)
  · exact completes_still (f := fun m => m.authTimeout l) rfl hpow (if_neg fun h => hn h.2)
  · exact completes_still (f := fun m => m.linkWatchdog l) rfl hpow (if_neg fun h => hn h.2)
  · exact completes_still (f := fun m => m.failedRetry l) rfl hpow (if_neg fun h => hn h.2)
theorem linkCommands {h : HostId} (hr : s.m.reachedBy h (bLink l.val + 0x08)) :
    (s.m.linkState l.val = 6 → completes (.retrain h l) s fun t => s.m.linkFell t l 7 0x07) ∧
    (s.m.linkState l.val ≠ 6 → completes (.retrain h l) s fun t => t = s.m) ∧
    ((s.m.linkState l.val = 8 ∨ s.m.linkState l.val = 7 ∨ s.m.linkState l.val = 0) →
      completes (.rearm h l) s fun t => s.m.linkWent t l (if s.m.linkEnabled l.val then 1 else 0)) ∧
    (s.m.linkState l.val ≠ 8 → s.m.linkState l.val ≠ 7 → s.m.linkState l.val ≠ 0 → completes (.rearm h l) s fun t => t = s.m) := by
  refine ⟨fun hst => ?_, fun hst => ?_, fun hst => ?_, fun h8 h7 h0 => ?_⟩
  · refine completes_hostReg (f := fun m => m.linkRetrain l) rfl hr ?_
    rw [show s.m.linkRetrain l = s.m.linkFail l.val 0x07 from if_pos hst]
    exact (s.m.linkFail_fell l (by decide) rfl).frame _ _
  · refine completes_hostReg (f := fun m => m.linkRetrain l) rfl hr ?_
    rw [show s.m.linkRetrain l = s.m from if_neg hst]
  · exact completes_hostReg (f := fun m => m.linkRearm l) rfl hr ((Mod.linkRearm_went hst).frame _ _)
  · refine completes_hostReg (f := fun m => m.linkRearm l) rfl hr ?_
    rw [show s.m.linkRearm l = s.m from if_neg (by omega)]
end

end Sys2Proof.Machine
end

section
/-! Authentication of a link (R460, R461): control flits in their order, and what fences it. -/

namespace Sys2Proof.Machine

/-! ## Control flits -/

/-- The module once link `l` has taken the header of a flit. -/
def Mod.hears (m : Mod) (l : Nat) (fec : FecOut) (x : FlitHdr) : Mod := (m.codewordCame l fec).takeHeader l x

section
variable {m : Mod} {l : Nat} {w : CtrlWire} {formed : Bool} {f : Mod → Mod}
theorem Mod.ctrlIn_unread (hst : ¬ (m.linkState l < 4 ∨ 6 < m.linkState l)) (h : ¬ ctrlRead w) :
    m.ctrlIn l w formed f = ((m.pcnt l 1 1).pcnt l 3 1).updLink l fun k => { k with nak := true, naked := true } := by
  have hb : 15 < w.fec.val ∨ w.crc = false := by
    by_cases hf : 15 < w.fec.val
    · exact .inl hf
    · exact .inr (Bool.eq_false_iff.mpr fun hc => h ⟨Nat.le_of_not_lt hf, hc⟩)
  unfold Mod.ctrlIn
  dsimp only
  rw [if_neg hst, Mod.flitGood_bad hb]
theorem Mod.ctrlIn_read (hst : ¬ (m.linkState l < 4 ∨ 6 < m.linkState l)) (h : ctrlRead w) : m.ctrlIn l w formed f =
    if (ctrlHead w).kind = 2 ∧ (ctrlHead w).sound 616 = true ∧ formed = true then f (m.hears l w.fec (ctrlHead w))
    else (m.hears l w.fec (ctrlHead w)).linkFail l 0x16 := by
  unfold Mod.ctrlIn
  dsimp only
  rw [if_neg hst, Mod.flitGood_good h.1 h.2]
  rfl
end

/-- What a link that hears a flit keeps: the links' configuration, its part in authentication, and its queue of control messages. -/
theorem Mod.hears_shows (m : Mod) (l : LinkId) (fec : FecOut) (x : FlitHdr) : m.linked (m.hears l.val fec x) ∧
    (m.hears l.val fec x).link l.val = (m.takeHeader l.val x).link l.val ∧ m.heard (m.hears l.val fec x) (l.val / 6) := by
  obtain ⟨hlnk, hheard, -, -⟩ := m.taken_shows l.isLt fec x
  have hl := l.isLt
  exact ⟨hheard.linked (by omega), congrArg (fun k : LnkState => Tab.get ({} : Link) k.links l.val) hlnk, hheard⟩
theorem Mod.link_takeHeader (m : Mod) (l : Nat) (x : FlitHdr) :
    ((m.takeHeader l x).link l).auth = (m.link l).auth ∧ ((m.takeHeader l x).link l).ctrl = (m.link l).ctrl := by
  unfold Mod.takeHeader
  rw [Mod.link_updLink_self]
  exact ⟨rfl, rfl⟩
/-- A fence after a flit is told of the module as it was before the flit. -/
theorem Mod.linked.fences {m u : Mod} (h : m.linked u) (l : LinkId) {reason : Nat} (hr : 0x10 ≤ reason) (hlt : reason < 256) :
    m.linkFell (u.linkFail l.val reason) l 8 reason :=
  (u.linkFail_fell l hlt (if_pos hr).symm).after (.inr rfl) fun _ _ ho hx => h.link ho hx

/-! ## The steps -/

section
variable {u : Mod} {l : LinkId}
theorem Mod.protocol_lt {m : Mod} {l v : Nat} {x : Hello} (h : m.protocol l x = some v) : v < 4 := by
  have hsome {p : Prop} [Decidable p] {o : Option Nat} {a : Nat} (ho : (if p then some a else o) = some v) (ha : a < 4) (hr : o = some v → v < 4) : v < 4 := by
    split at ho
    · exact Option.some.inj ho ▸ ha
    · exact hr ho
  unfold Mod.protocol at h
  dsimp only at h
  split at h
  · next w hw =>
    have hv : w = v := by
      split at h
      · cases h
      · exact Option.some.inj h
    subst hv
    exact hsome hw (by decide) fun h => hsome h (by decide) (by intro h; cases h)
  · cases h
theorem Mod.takeHello_good {x : Hello} {v : Nat} {need : Bool} (hneed : need = (u.rdf (bPort (l.val / 6)) 16 16 == 1)) (hw : u.wired l.val x = true)
    (hp : u.protocol l.val x = some v) (henc : ((need || x.encRequired) && (v == 2 || !x.encOffered)) = false) :
    ((u.takeHello l x).link l.val).auth.step = 1 ∧ (u.takeHello l x).linkState l.val = u.linkState l.val ∧ (u.takeHello l x).rdf (bLink l.val) 5 4 = v ∧
      (u.takeHello l x).rdf (bLink l.val) 41 24 = x.dev.toNat ∧ (u.takeHello l x).rdf (bLink l.val) 6 6 = (if need || x.encRequired then 1 else 0) ∧
      ∃ key chain, ((u.takeHello l x).link l.val).ctrl = (u.link l.val).ctrl ++ [.keys key chain] := by
  obtain ⟨r, hr⟩ : ∃ r, r = u.drbg 64 := ⟨_, rfl⟩
  obtain ⟨key, hkey⟩ : ∃ k, k = Config.mlkemKey r.1 := ⟨_, rfl⟩
  obtain ⟨chain, hchain⟩ : ∃ k, k = r.2.identChain ++ aliasKey r.2.fit.m1 := ⟨_, rfl⟩
  obtain ⟨enc, he⟩ : ∃ e, e = (need || x.encRequired) := ⟨_, rfl⟩
  obtain ⟨w, hwd⟩ : ∃ w, w = setFld (setFld (r.2.rd (bLink l.val)) 50 48 x.port.val) 47 45 (x.index.val + (if r.2.topo = 2 ∧ x.half then 3 else 0)) := ⟨_, rfl⟩
  obtain ⟨stat, hstat⟩ : ∃ w', w' = setFld (setFld (setFld w 41 24 x.dev.toNat) 5 4 v) 6 6 (b2n enc) := ⟨_, rfl⟩
  obtain ⟨f, hf⟩ : ∃ f : Link → Link, f = fun k => { k with
    auth := { k.auth with step := 1, partner := [helloRaw x], own := k.auth.own ++ [key ++ chain], seed := r.1, enc := enc }
    ctrl := k.ctrl ++ [.keys key chain] } := ⟨_, rfl⟩
  have heq : u.takeHello l x = (r.2.updLink l.val f).wr (bLink l.val) stat := by
    unfold Mod.takeHello
    rw [if_neg (by rw [hw]; decide), hp]
    dsimp only
    rw [← hneed, if_neg (by rw [henc]; decide), hf, hstat, he, hwd, hchain, hkey, hr]
    rfl
  have hlink : ((r.2.updLink l.val f).wr (bLink l.val) stat).link l.val = f (u.link l.val) := by
    rw [hr]; exact (u.drbg 64).2.link_updLink_self l.val f
  have hreg : ((r.2.updLink l.val f).wr (bLink l.val) stat).rd (bLink l.val) = stat := Mod.rd_wr_self _ _ _
  rw [heq, hlink]
  unfold Mod.linkState Mod.rdf
  rw [hreg, hstat]
  refine ⟨by rw [hf], ?_, ?_, ?_, ?_, key, chain, by rw [hf]⟩
  · rw [fld_setFld_apart _ _ _ _ _ _ (by decide) (by decide), fld_setFld_apart _ _ _ _ _ _ (by decide) (by decide),
      fld_setFld_apart _ _ _ _ _ _ (by decide) (by decide), hwd, fld_setFld_apart _ _ _ _ _ _ (by decide) (by decide),
      fld_setFld_apart _ _ _ _ _ _ (by decide) (by decide), hr]
    rfl
  · rw [fld_setFld_apart _ _ _ _ _ _ (by decide) (by decide), fld_setFld _ _ _ _ (by decide)]
    exact Nat.mod_eq_of_lt (Mod.protocol_lt hp)
  · rw [fld_setFld_apart _ _ _ _ _ _ (by decide) (by decide), fld_setFld_apart _ _ _ _ _ _ (by decide) (by decide), fld_setFld _ _ _ _ (by decide)]
    exact Nat.mod_eq_of_lt x.dev.isLt
  · rw [fld_setFld _ _ _ _ (by decide), ← he]
    cases enc <;> rfl
theorem Mod.takeHello_unwired {x : Hello} (hw : u.wired l.val x = false) : u.takeHello l x = u.linkFail l.val 0x10 := if_pos (by rw [hw]; rfl)
theorem Mod.takeHello_unspoken {x : Hello} (hw : u.wired l.val x = true) (hp : u.protocol l.val x = none) : u.takeHello l x = u.linkFail l.val 0x13 := by
  unfold Mod.takeHello
  rw [if_neg (by rw [hw]; decide), hp]
theorem Mod.takeHello_unsealed {x : Hello} {v : Nat} {need : Bool} (hneed : need = (u.rdf (bPort (l.val / 6)) 16 16 == 1)) (hw : u.wired l.val x = true)
    (hp : u.protocol l.val x = some v) (henc : ((need || x.encRequired) && (v == 2 || !x.encOffered)) = true) : u.takeHello l x = u.linkFail l.val 0x12 := by
  unfold Mod.takeHello
  rw [if_neg (by rw [hw]; decide), hp]
  dsimp only
  rw [← hneed, if_pos henc]
end

/-- The commands by which control messages come, with what each makes of a control flit. -/
theorem ctrlRow {l : LinkId} {w : CtrlWire} {i : Instr} (h : (∃ x, i = .authHello (l, w) x) ∨ (∃ key chain, i = .authKeys (l, w) key chain) ∨
    (∃ d, i = .authEncapsulation (l, w) d) ∨ (∃ g, i = .authSignature (l, w) g) ∨ (∃ o n, i = .handover (l, w) o n) ∨ i = .mark (l, w)) :
    ∃ formed f, ∀ s : State, exec i s = s.run fun m => m.ctrlIn l.val w formed f := by
  obtain ⟨x, rfl⟩ | ⟨key, chain, rfl⟩ | ⟨d, rfl⟩ | ⟨g, rfl⟩ | ⟨o, n, rfl⟩ | rfl := h
  · exact ⟨_, _, fun _ => rfl⟩
  · exact ⟨_, _, fun _ => rfl⟩
  · exact ⟨_, _, fun _ => rfl⟩
  · exact ⟨_, _, fun _ => rfl⟩
  · exact ⟨_, _, fun _ => rfl⟩
  · exact ⟨_, _, fun _ => rfl⟩

section
variable {s : State} {l : LinkId} {w : CtrlWire}
theorem notBelow {n : Nat} (h : n = 4) : ¬ (n < 4 ∨ 6 < n) := by omega
theorem ctrl_unread {i : Instr} {formed : Bool} {f : Mod → Mod} (hi : exec i s = s.run fun m => m.ctrlIn l.val w formed f) (hpow : s.m.powered = true)
    (hst : s.m.linkState l.val = 4) (hr : ¬ ctrlRead w) : completes i s fun t => t.link l.val = { s.m.link l.val with nak := true, naked := true } ∧
      t.linkState l.val = 4 ∧ s.m.tallied t (bPort (l.val / 6) + 0x58) 1 := by
  obtain ⟨hlink, -, hcnt, hheard⟩ := s.m.flitBad_shows l.val
  refine completes_run hi hpow ?_
  rw [Mod.ctrlIn_unread (notBelow hst) hr]
  have hl := l.isLt
  exact ⟨hlink, ((hheard.linked (by omega)).linkState l.isLt).trans hst, hcnt⟩
theorem ctrl_unsound {i : Instr} {formed : Bool} {f : Mod → Mod} (hi : exec i s = s.run fun m => m.ctrlIn l.val w formed f) (hpow : s.m.powered = true)
    (hst : s.m.linkState l.val = 4) (hr : ctrlRead w) (hs : ¬ (ctrlSound w ∧ formed = true)) : completes i s fun t => s.m.linkFell t l 8 0x16 := by
  refine completes_fell hi hpow ?_
  rw [Mod.ctrlIn_read (notBelow hst) hr, if_neg fun h => hs ⟨⟨h.1, h.2.1⟩, h.2.2⟩]
  exact (s.m.hears_shows l w.fec (ctrlHead w)).1.fences l (by decide) (by decide)
/-- A control flit of AUTH that comes at another step, or is malformed, fences the link. -/
theorem auth_unsound {i : Instr} {step : Nat} {formed : Bool} {f : Mod → Mod} (hi : exec i s = s.run fun m => m.authStep l.val step w formed f)
    (hpow : s.m.powered = true) (hst : s.m.linkState l.val = 4) (hr : ctrlRead w) (hs : (s.m.link l.val).auth.step ≠ step ∨ formed = false) :
    completes i s fun t => s.m.linkFell t l 8 0x16 := by
  obtain ⟨hlinked, hlink, -⟩ := s.m.hears_shows l w.fec (ctrlHead w)
  refine completes_fell hi hpow ?_
  unfold Mod.authStep
  rw [Mod.ctrlIn_read (notBelow hst) hr]
  have hfence := hlinked.fences l (reason := 0x16) (by decide) (by decide)
  split
  · next h =>
    have hstep : (s.m.link l.val).auth.step ≠ step := hs.resolve_right (by rw [h.2.2]; decide)
    rw [if_neg fun hn => hstep (by rw [← hn.2, hlink, (s.m.link_takeHeader l.val _).1])]
    exact hfence
  · exact hfence
/-- A control flit of AUTH that comes at its step does what it says. -/
theorem auth_step {i : Instr} {step : Nat} {formed : Bool} {f : Mod → Mod} {P : Mod → Prop} (hi : exec i s = s.run fun m => m.authStep l.val step w formed f)
    (hpow : s.m.powered = true) (hst : s.m.linkState l.val = 4) (hr : ctrlRead w) (hs : ctrlSound w) (hstep : (s.m.link l.val).auth.step = step)
    (hformed : formed = true) (hp : P { f (s.m.hears l.val w.fec (ctrlHead w)) with nv := s.m.nv, pwr := s.m.pwr }) : completes i s P := by
  obtain ⟨hlinked, hlink, -⟩ := s.m.hears_shows l w.fec (ctrlHead w)
  refine completes_run hi hpow ?_
  unfold Mod.authStep
  rw [Mod.ctrlIn_read (notBelow hst) hr, if_pos ⟨hs.1, hs.2, hformed⟩,
    if_pos ⟨(hlinked.linkState l.isLt).trans hst, by rw [hlink, (s.m.link_takeHeader l.val _).1, hstep]⟩]
  exact hp
end

end Sys2Proof.Machine
end

section
/-! The steps of AUTH that follow HELLO (R460, R461), and O40. -/

namespace Sys2Proof.Machine

section
variable {s : State} {l : LinkId} {w : CtrlWire}
/-- What a module that has heard a control flit still shows of link `l`. -/
theorem hears_kept (s : State) (l : LinkId) (w : CtrlWire) : ∃ u, u = s.m.hears l.val w.fec (ctrlHead w) ∧ s.m.linked u ∧
    (u.link l.val).auth = (s.m.link l.val).auth ∧ (u.link l.val).ctrl = (s.m.link l.val).ctrl := by
  obtain ⟨hlinked, hlink, -⟩ := s.m.hears_shows l w.fec (ctrlHead w)
  obtain ⟨hauth, hctrl⟩ := s.m.link_takeHeader l.val (ctrlHead w)
  exact ⟨_, rfl, hlinked, by rw [hlink, hauth], by rw [hlink, hctrl]⟩

theorem helloArrives (hpow : s.m.powered = true) (hst : s.m.linkState l.val = 4) (hr : ctrlRead w) (hs : ctrlSound w) (x : Hello) :
    let k := s.m.link l.val
    let need := s.m.rdf (bPort (l.val / 6)) 16 16 == 1
    let fences (reason : Nat) : Prop := completes (.authHello (l, w) x) s fun t => s.m.linkFell t l 8 reason
    (k.auth.step ≠ 0 → fences 0x16) ∧ (k.auth.step = 0 → s.m.wired l.val x = false → fences 0x10) ∧
    (k.auth.step = 0 → s.m.wired l.val x = true → s.m.protocol l.val x = none → fences 0x13) ∧
    (∀ v, k.auth.step = 0 → s.m.wired l.val x = true → s.m.protocol l.val x = some v →
      (((need || x.encRequired) && (v == 2 || !x.encOffered)) = true → fences 0x12) ∧
      (((need || x.encRequired) && (v == 2 || !x.encOffered)) = false → completes (.authHello (l, w) x) s fun t => (t.link l.val).auth.step = 1 ∧
        t.linkState l.val = 4 ∧ t.rdf (bLink l.val) 5 4 = v ∧ t.rdf (bLink l.val) 41 24 = x.dev.toNat ∧
        t.rdf (bLink l.val) 6 6 = (if need || x.encRequired then 1 else 0) ∧ ∃ key chain, (t.link l.val).ctrl = k.ctrl ++ [.keys key chain])) := by
  obtain ⟨u, hu, hlinked, hauth, hctrl⟩ := hears_kept s l w
  have hl := l.isLt
  have hport : u.rdf (bPort (l.val / 6)) 16 16 = s.m.rdf (bPort (l.val / 6)) 16 16 := congrArg (fun v => fld v 16 16) (hlinked.port0 (by omega))
  have hrow : exec (.authHello (l, w) x) s = s.run fun m => m.authStep l.val 0 w true fun m => m.takeHello l x := rfl
  have hneed : (s.m.rdf (bPort (l.val / 6)) 16 16 == 1) = (u.rdf (bPort (l.val / 6)) 16 16 == 1) := by rw [hport]
  have fence {reason : Nat} (h : u.takeHello l x = u.linkFail l.val reason) (h1 : 0x10 ≤ reason) (h2 : reason < 256)
      (h0 : (s.m.link l.val).auth.step = 0) : completes (.authHello (l, w) x) s fun t => s.m.linkFell t l 8 reason := by
    refine auth_step hrow hpow hst hr hs h0 rfl ?_
    rw [← hu, h]
    exact (hlinked.fences l h1 h2).frame _ _
  refine ⟨fun h0 => auth_unsound hrow hpow hst hr (.inl h0), fun h0 hw => ?_, fun h0 hw hp => ?_, fun v h0 hw hp => ⟨fun he => ?_, fun he => ?_⟩⟩
  · exact fence (Mod.takeHello_unwired ((hlinked.wired _ _).trans hw)) (by decide) (by decide) h0
  · exact fence (Mod.takeHello_unspoken ((hlinked.wired _ _).trans hw) ((hlinked.protocol l.isLt _).trans hp)) (by decide) (by decide) h0
  · exact fence (Mod.takeHello_unsealed hneed ((hlinked.wired _ _).trans hw) ((hlinked.protocol l.isLt _).trans hp) he) (by decide) (by decide) h0
  · obtain ⟨h1, h2, h3, h4, h5, key, chain, h6⟩ := Mod.takeHello_good hneed ((hlinked.wired _ _).trans hw) ((hlinked.protocol l.isLt _).trans hp) he
    refine auth_step hrow hpow hst hr hs h0 rfl ?_
    rw [← hu]
    exact ⟨h1, h2.trans ((hlinked.linkState l.isLt).trans hst), h3, h4, h5, key, chain, h6.trans (by rw [hctrl])⟩

theorem keysArrive (hpow : s.m.powered = true) (hst : s.m.linkState l.val = 4) (hr : ctrlRead w) (hs : ctrlSound w) (key chain : List Byte) :
    let k := s.m.link l.val
    let ident := Config.chainKey ((List.range 8).map fun i => s.m.rd (bLNK + 0x040 + 8 * i)) chain
    let fences (reason : Nat) : Prop := completes (.authKeys (l, w) key chain) s fun t => s.m.linkFell t l 8 reason
    ((k.auth.step ≠ 1 ∨ key.length ≠ 1184) → fences 0x16) ∧ (k.auth.step = 1 → key.length = 1184 → ident = none → fences 0x11) ∧
    (∀ v, k.auth.step = 1 → key.length = 1184 → ident = some v → completes (.authKeys (l, w) key chain) s fun t => (t.link l.val).auth.step = 2 ∧
      t.linkState l.val = 4 ∧ (t.link l.val).auth.identity = v ∧ (t.link l.val).auth.itsKey = key ∧ ∃ ct, (t.link l.val).ctrl = k.ctrl ++ [.encap ct]) := by
  obtain ⟨u, hu, hlinked, hauth, hctrl⟩ := hears_kept s l w
  obtain ⟨f, hf⟩ : ∃ f : Mod → Mod, f = fun m => match Config.chainKey ((upto 8).map fun i => m.rd (bLNK + 0x040 + 8 * i)) chain with
    | none => m.linkFail l.val 0x11
    | some ident =>
      let r := m.drbg 32
      let e := Config.mlkemEncap key r.1
      r.2.updLink l.val fun k => { k with
        auth := { k.auth with step := 2, partner := k.auth.partner ++ [key ++ chain], own := k.auth.own ++ [e.1], itsKey := key, itsSecret := e.2, identity := ident }
        ctrl := k.ctrl ++ [.encap e.1] } := ⟨_, rfl⟩
  have hrow : exec (.authKeys (l, w) key chain) s = s.run fun m => m.authStep l.val 1 w (key.length == 1184) f := by rw [hf]; rfl
  have hroots : ((upto 8).map fun i => u.rd (bLNK + 0x040 + 8 * i)) = (List.range 8).map fun i => s.m.rd (bLNK + 0x040 + 8 * i) :=
    List.map_congr_left fun i hi => hlinked _ (.inr (.inl (by have := mem_upto.mp hi; omega)))
  refine ⟨fun h => auth_unsound hrow hpow hst hr (h.imp id fun hn => by simpa using hn), fun h1 hlen hn => ?_, fun v h1 hlen hv => ?_⟩
  · refine auth_step hrow hpow hst hr hs h1 (by simpa using hlen) ?_
    have heq : f u = u.linkFail l.val 0x11 := by rw [hf]; dsimp only; rw [hroots, hn]
    rw [← hu, heq]
    exact (hlinked.fences l (by decide) (by decide)).frame _ _
  · refine auth_step hrow hpow hst hr hs h1 (by simpa using hlen) ?_
    obtain ⟨r, hrn⟩ : ∃ r, r = u.drbg 32 := ⟨_, rfl⟩
    obtain ⟨e, he⟩ : ∃ e, e = Config.mlkemEncap key r.1 := ⟨_, rfl⟩
    obtain ⟨g, hg⟩ : ∃ g : Link → Link, g = fun k => { k with
      auth := { k.auth with step := 2, partner := k.auth.partner ++ [key ++ chain], own := k.auth.own ++ [e.1], itsKey := key, itsSecret := e.2, identity := v }
      ctrl := k.ctrl ++ [.encap e.1] } := ⟨_, rfl⟩
    have heq : f u = r.2.updLink l.val g := by rw [hf]; dsimp only; rw [hroots, hv, hg, he, hrn]
    have hlink : (r.2.updLink l.val g).link l.val = g (u.link l.val) := by rw [hrn]; exact (u.drbg 32).2.link_updLink_self l.val g
    have hstate : (r.2.updLink l.val g).linkState l.val = 4 := by rw [hrn]; exact (hlinked.linkState l.isLt).trans hst
    rw [← hu, heq]
    refine ⟨?_, hstate, ?_, ?_, e.1, ?_⟩
    · exact (congrArg (fun q : Link => q.auth.step) hlink).trans (by rw [hg])
    · exact (congrArg (fun q : Link => q.auth.identity) hlink).trans (by rw [hg])
    · exact (congrArg (fun q : Link => q.auth.itsKey) hlink).trans (by rw [hg])
    · exact (congrArg (fun q : Link => q.ctrl) hlink).trans (by rw [hg]; dsimp only; rw [hctrl])

theorem encapsulationArrives (hpow : s.m.powered = true) (hst : s.m.linkState l.val = 4) (hr : ctrlRead w) (hs : ctrlSound w) (d : List Byte) :
    let k := s.m.link l.val
    ((k.auth.step ≠ 2 ∨ d.length ≠ 1088) → completes (.authEncapsulation (l, w) d) s fun t => s.m.linkFell t l 8 0x16) ∧
    (k.auth.step = 2 → d.length = 1088 → completes (.authEncapsulation (l, w) d) s fun t => (t.link l.val).auth.step = 3 ∧
      t.linkState l.val = 4 ∧ (t.link l.val).auth.mySecret = Config.mlkemDecap k.auth.seed d ∧ ∃ g, (t.link l.val).ctrl = k.ctrl ++ [.signature g]) := by
  obtain ⟨u, hu, hlinked, hauth, hctrl⟩ := hears_kept s l w
  obtain ⟨g, hg⟩ : ∃ g : Link → Link, g = fun k => { k with
    auth := { k.auth with step := 3, partner := k.auth.partner ++ [d], mySecret := Config.mlkemDecap k.auth.seed d } } := ⟨_, rfl⟩
  obtain ⟨q, hq⟩ : ∃ q : Mod → Mod, q = fun m =>
    (m.updLink l.val g |>.drbg 32).2.updLink l.val fun k => { k with ctrl := k.ctrl ++ [.signature (Config.mldsaSign (aliasSeed (m.updLink l.val g).fit.m1) []
      (m.updLink l.val g |>.drbg 32).1 ((m.updLink l.val g).authDigest l.val))] } := ⟨_, rfl⟩
  have hrow : exec (.authEncapsulation (l, w) d) s = s.run fun m => m.authStep l.val 2 w (d.length == 1088) q := by rw [hq, hg]; rfl
  refine ⟨fun h => auth_unsound hrow hpow hst hr (h.imp id fun hn => by simpa using hn), fun h2 hlen => ?_⟩
  refine auth_step hrow hpow hst hr hs h2 (by simpa using hlen) ?_
  obtain ⟨sig, hsig⟩ : ∃ x, x = Config.mldsaSign (aliasSeed (u.updLink l.val g).fit.m1) [] (u.updLink l.val g |>.drbg 32).1
    ((u.updLink l.val g).authDigest l.val) := ⟨_, rfl⟩
  obtain ⟨r, hrn⟩ : ∃ r, r = (u.updLink l.val g |>.drbg 32).2 := ⟨_, rfl⟩
  have heq : q u = r.updLink l.val fun k => { k with ctrl := k.ctrl ++ [.signature sig] } := by rw [hq]; dsimp only; rw [← hsig, ← hrn]
  have hlinkr : r.link l.val = g (u.link l.val) := by rw [hrn]; exact u.link_updLink_self l.val g
  have hlink : (r.updLink l.val fun k => { k with ctrl := k.ctrl ++ [.signature sig] }).link l.val =
      { g (u.link l.val) with ctrl := (g (u.link l.val)).ctrl ++ [.signature sig] } := by rw [Mod.link_updLink_self, hlinkr]
  have hstate : (r.updLink l.val fun k => { k with ctrl := k.ctrl ++ [.signature sig] }).linkState l.val = 4 := by
    rw [hrn]; exact (hlinked.linkState l.isLt).trans hst
  rw [← hu, heq]
  refine ⟨?_, hstate, ?_, sig, ?_⟩
  · exact (congrArg (fun q : Link => q.auth.step) hlink).trans (by rw [hg])
  · exact (congrArg (fun q : Link => q.auth.mySecret) hlink).trans (by rw [hg]; dsimp only; rw [hauth])
  · exact (congrArg (fun q : Link => q.ctrl) hlink).trans (by rw [hg]; dsimp only; rw [hctrl])

/-- The digest of the steps rests on the link's record and on the two device IDs. -/
theorem Mod.linked.authDigest {m u : Mod} (h : m.linked u) (l : LinkId) (ha : (u.link l.val).auth = (m.link l.val).auth) : u.authDigest l.val = m.authDigest l.val := by
  have hside : u.sideA l.val = m.sideA l.val := by unfold Mod.sideA Mod.rdf; rw [h.dev, h.status l.isLt]
  simp only [Mod.authDigest, ha, hside]
theorem Mod.linkStart_held {m : Mod} {l : LinkId} (h : m.linkState l.val = 5) :
    (m.linkStart l.val).linkState l.val = (if m.outputsOk then 6 else 5) ∧ ((m.linkStart l.val).link l.val).auth = (m.link l.val).auth := by
  unfold Mod.linkStart
  by_cases ho : m.outputsOk = true
  · rw [if_pos ⟨h, ho⟩, if_pos ho]
    unfold Mod.linkUp
    refine ⟨Mod.rdf_wrf_self _ _ _ _ _ (by decide), (congrArg (fun k : Link => k.auth) (Mod.link_updLink_self m l.val fun k => { k with
      occ := [], owed := (upto 12).map fun c => (c, m.credAlloc l.val c), txSeq := 0, rxSeq := 4095, replay := [], resend := none, nak := false, naked := false,
      left := [], report := none, closing := false }) :)⟩
  · rw [if_neg fun hn => ho hn.2, if_neg ho]
    exact ⟨h, rfl⟩
theorem signatureArrives (hpow : s.m.powered = true) (hst : s.m.linkState l.val = 4) (hr : ctrlRead w) (hs : ctrlSound w) (g : List Byte) :
    let k := s.m.link l.val
    ((k.auth.step ≠ 3 ∨ g.length ≠ 3309) → completes (.authSignature (l, w) g) s fun t => s.m.linkFell t l 8 0x16) ∧
    (k.auth.step = 3 → g.length = 3309 → Config.mldsaVerify k.auth.identity [] (s.m.authDigest l.val) g = false →
      completes (.authSignature (l, w) g) s fun t => s.m.linkFell t l 8 0x11) ∧
    (k.auth.step = 3 → g.length = 3309 → Config.mldsaVerify k.auth.identity [] (s.m.authDigest l.val) g = true →
      completes (.authSignature (l, w) g) s fun t => t.linkState l.val = (if s.m.outputsOk then 6 else 5) ∧ (t.link l.val).auth.step = 4) := by
  obtain ⟨u, hu, hlinked, hauth, hctrl⟩ := hears_kept s l w
  obtain ⟨ses, hses⟩ : ∃ ses : Mod → Session, ses = fun m =>
    let a := (m.link l.val).auth
    let h := m.authDigest l.val
    let isA := m.sideA l.val
    let s := shake256 ((if isA then a.mySecret ++ a.itsSecret else a.itsSecret ++ a.mySecret) ++ h) 72
    let ab := s.take 32
    let ba := (s.drop 32).take 32
    let sab := (s.drop 64).take 4
    let sba := (s.drop 68).take 4
    if isA then { txKey := ab, rxKey := ba, txSalt := sab, rxSalt := sba } else { txKey := ba, rxKey := ab, txSalt := sba, rxSalt := sab } := ⟨_, rfl⟩
  obtain ⟨q, hq⟩ : ∃ q : Mod → Mod, q = fun m =>
    if !Config.mldsaVerify (m.link l.val).auth.identity [] (m.authDigest l.val) g then m.linkFail l.val 0x11
    else ((m.updLink l.val fun k => { k with session := ses m, auth := { k.auth with step := 4 } }).linkGo l.val 5).linkStart l.val := ⟨_, rfl⟩
  have hrow : exec (.authSignature (l, w) g) s = s.run fun m => m.authStep l.val 3 w (g.length == 3309) q := by rw [hq, hses]; rfl
  have hdigest := hlinked.authDigest l hauth
  refine ⟨fun h => auth_unsound hrow hpow hst hr (h.imp id fun hn => by simpa using hn), fun h3 hlen hv => ?_, fun h3 hlen hv => ?_⟩
  · refine auth_step hrow hpow hst hr hs h3 (by simpa using hlen) ?_
    have heq : q u = u.linkFail l.val 0x11 := by rw [hq]; dsimp only; rw [hauth, hdigest, hv]; exact if_pos rfl
    rw [← hu, heq]
    exact (hlinked.fences l (by decide) (by decide)).frame _ _
  · refine auth_step hrow hpow hst hr hs h3 (by simpa using hlen) ?_
    obtain ⟨v, hvn⟩ : ∃ v, v = (u.updLink l.val fun k => { k with session := ses u, auth := { k.auth with step := 4 } }).linkGo l.val 5 := ⟨_, rfl⟩
    have heq : q u = v.linkStart l.val := by rw [hq, hvn]; dsimp only; rw [hauth, hdigest, hv]; exact if_neg (by decide)
    have hstate : v.linkState l.val = 5 := by rw [hvn]; exact Mod.rdf_wrf_self _ _ _ _ _ (by decide)
    have hok : v.outputsOk = s.m.outputsOk := by
      rw [← hlinked.outputsOk]
      have hregs : ∀ a, a ≠ bLink l.val → v.rd a = u.rd a := fun a ha => by rw [hvn]; exact Mod.rd_wrf_ne _ _ _ _ ha
      unfold Mod.outputsOk Mod.topo Mod.rdf
      rw [hregs _ (by simp only [bLink, bPort, bLNK, bCFGSTAT]; omega), hregs _ (by simp only [bLink, bPort, bLNK]; omega)]
    have hlink : (v.link l.val).auth.step = 4 := by
      rw [hvn]
      exact congrArg (fun k : Link => k.auth.step) (u.link_updLink_self l.val fun k => { k with session := ses u, auth := { k.auth with step := 4 } })
    obtain ⟨h1, h2⟩ := Mod.linkStart_held hstate
    rw [← hu, heq]
    exact ⟨h1.trans (by rw [hok]), (congrArg Auth.step h2).trans hlink⟩
end

/-- Settles O40: a link's states by their commands, then authentication step by step. -/
theorem linkStatesAndKeys : Obligations.LinkStatesAndKeys := by
  unfold Obligations.LinkStatesAndKeys
  refine ⟨fun s l h => ⟨fun hpow => ?_, fun hr => linkCommands hr⟩, fun s l w hpow hst => ?_⟩
  · obtain ⟨h1, h2, h3, h4⟩ := linkSteps (s := s) (l := l) hpow
    refine ⟨h1, h2, h3, h4, fun hck => (linkTimeouts hpow hck).1, fun hck => (linkTimeouts hpow hck).2.1, fun hck => (linkTimeouts hpow hck).2.2.1,
      fun hck => (linkTimeouts hpow hck).2.2.2, fun cls hck hst hstall => ?_, fun i hi => linkStateElse hpow hi⟩
    exact completes_run (f := fun m => m.creditWatchdog l cls) rfl hpow (Mod.creditWatchdog_shows hck hst hstall)
  · refine ⟨fun hn i hi => ?_, fun hr hn i hi => ?_, fun hr hs => ⟨helloArrives hpow hst hr hs, keysArrive hpow hst hr hs,
      encapsulationArrives hpow hst hr hs, signatureArrives hpow hst hr hs⟩⟩
    · obtain ⟨formed, f, hf⟩ := ctrlRow hi
      exact ctrl_unread (hf s) hpow hst hn
    · obtain ⟨formed, f, hf⟩ := ctrlRow hi
      exact ctrl_unsound (hf s) hpow hst hr fun h => hn h.1

end Sys2Proof.Machine
end

section
/-! Flits that come on an UP link (R446, R448, R451, R459). -/

namespace Sys2Proof.Machine

/-! ## What a DATA flit comes to -/

/-- The 640 bytes of a flit whose CRC is good. -/
def flitRead (d : List Byte) : Prop := d.length = 640 ∧ ofLe (d.drop 632) = crc64 (d.take 632)
theorem Mod.flitCheck_bad {m : Mod} {l : Nat} {fec : FecOut} {d : List Byte} (h : 15 < fec.val ∨ d.length ≠ 640 ∨ ofLe (d.drop 632) ≠ crc64 (d.take 632)) :
    m.flitCheck l fec d = (none, ((m.pcnt l 1 1).pcnt l 3 1).updLink l fun k => { k with nak := true, naked := true }) := by
  refine Mod.flitGood_bad (h.imp id fun hb => ?_)
  by_cases hlen : d.length = 640
  · rw [beq_eq_false_iff_ne.mpr (hb.resolve_left fun hn => hn hlen), Bool.and_false]
  · rw [beq_eq_false_iff_ne.mpr hlen, Bool.false_and]
theorem Mod.flitCheck_good {m : Mod} {l : Nat} {fec : FecOut} {d : List Byte} (hf : fec.val ≤ 15) (h : flitRead d) :
    m.flitCheck l fec d = (some (readHdr d), m.hears l fec (readHdr d)) :=
  Mod.flitGood_good hf (by rw [beq_iff_eq.mpr h.1, beq_iff_eq.mpr h.2]; rfl)
theorem linkCfg_lt {a : Nat} (h : linkCfg a) : a < bMON := by
  rcases h with rfl | ⟨hlo, hhi⟩ | ⟨q, x, hq, hx, rfl⟩ | ⟨o, x, ho, hx, rfl⟩
  · decide
  · simp only [bLNK, bMON] at *; omega
  · exact bPort_lt hq (by omega)
  · simp only [bLink, bPort, bLNK, bMON]; omega
theorem Mod.linked_trans {m t u : Mod} (h : m.linked t) (g : t.linked u) : m.linked u := fun a ha => (g a ha).trans (h a ha)
theorem Mod.linked_of_bar0 {m t : Mod} (h : t.bar0 = m.bar0) : m.linked t := fun a _ => congrArg (barVal · a) h
theorem Mod.linked_evPort (m : Mod) (p code n : Nat) (filt : Option Nat) : m.linked (m.evPort p code n filt) :=
  fun a ha => Mod.rd_evPort m _ _ _ _ _ (linkCfg_lt ha)

section
variable {m u : Mod} {l : LinkId} {fec : FecOut} {d : List Byte} {x : FlitHdr}
variable (hst : m.linkState l.val = 6) (hf : fec.val ≤ 15) (hd : flitRead d) (hx : x = readHdr d) (hu : u = m.hears l.val fec x) (hkind : x.kind = 1)
include hst hf hd hx hu hkind
/-- A DATA flit out of order is discarded; the first of a gap asks for a NAK. -/
theorem Mod.dataFlit_gap (hseq : x.fseq ≠ ((u.link l.val).rxSeq + 1) % 4096) : m.dataFlit l fec d =
    if fseqAfter x.fseq (u.link l.val).rxSeq = true ∧ (!(u.link l.val).naked) = true then
      (u.evPort (l.val / 6) 0x02 1 (some x.vc)).updLink l.val (fun k => { k with nak := true, naked := true }) else u.evPort (l.val / 6) 0x02 1 (some x.vc) := by
  unfold Mod.dataFlit
  dsimp only
  rw [if_neg (by omega), Mod.flitCheck_good hf hd, ← hx, ← hu]
  dsimp only
  rw [if_neg (by omega), if_neg (by omega), if_pos hseq]
/-- One beyond the credits that this side has returned fences the link. -/
theorem Mod.dataFlit_over (hseq : x.fseq = ((u.link l.val).rxSeq + 1) % 4096) (hvc : x.vc < 6)
    (hover : u.credAlloc l.val (2 * x.vc + x.dl) ≤ Tab.get 0 (u.link l.val).occ (2 * x.vc + x.dl) + Tab.get 0 (u.link l.val).owed (2 * x.vc + x.dl)) :
    m.dataFlit l fec d = (u.evPort (l.val / 6) 0x02 1 (some x.vc)).linkFail l.val 0x14 := by
  unfold Mod.dataFlit
  dsimp only
  rw [if_neg (by omega), Mod.flitCheck_good hf hd, ← hx, ← hu]
  dsimp only
  rw [if_neg (by omega), if_neg (by omega), if_neg (by omega), if_pos ⟨hvc, hover⟩]
/-- One in order, in the clear, is delivered. -/
theorem Mod.dataFlit_in (hseq : x.fseq = ((u.link l.val).rxSeq + 1) % 4096) (hclear : u.sealed l.val = false) (hsound : x.sound 616 = true)
    (hroom : Tab.get 0 (u.link l.val).occ (2 * x.vc + x.dl) + Tab.get 0 (u.link l.val).owed (2 * x.vc + x.dl) < u.credAlloc l.val (2 * x.vc + x.dl)) :
    ∃ f : Link → Link, (∀ k, f k = { k with rxSeq := x.fseq, naked := false, occ := Tab.upd 0 k.occ (2 * x.vc + x.dl) (· + 1), session := (f k).session }) ∧
      m.dataFlit l fec d = ((u.evPort (l.val / 6) 0x02 1 (some x.vc)).updLink l.val f).flitIn l.val x ((d.drop 16).take 616) := by
  have hvc : x.vc < 6 := by
    simp only [FlitHdr.sound, Bool.and_eq_true, decide_eq_true_eq] at hsound
    exact hsound.1.1.1.2
  have hpay : u.payload l.val = 616 := by unfold Mod.payload; rw [hclear]; rfl
  refine ⟨fun k => { k with
    rxSeq := x.fseq, naked := false, occ := if x.vc < 6 then Tab.upd 0 k.occ (2 * x.vc + x.dl) (· + 1) else k.occ
    session := { k.session with rxCount := k.session.rxCount + 1, rxKey := nextKey k.session.rxKey (k.session.rxCount + 1) } },
    fun k => by dsimp only; rw [if_pos hvc], ?_⟩
  unfold Mod.dataFlit
  dsimp only
  rw [if_neg (by omega), Mod.flitCheck_good hf hd, ← hx, ← hu]
  dsimp only
  rw [if_neg (by omega), if_neg (by omega), if_neg (by omega), if_neg fun h => absurd h.2 (by omega), hclear, hpay]
  exact if_pos hsound
end
theorem Mod.idleFlit_good {m : Mod} {l : LinkId} {fec : FecOut} {d : List Byte} (hst : m.linkState l.val = 6) (hf : fec.val ≤ 15) (hd : flitRead d) :
    m.idleFlit l fec d = m.hears l.val fec (readHdr d) := by
  unfold Mod.idleFlit
  dsimp only
  rw [if_neg (by omega), Mod.flitCheck_good hf hd]
theorem Mod.flit_bad {m : Mod} {l : LinkId} {fec : FecOut} {d : List Byte} (hst : m.linkState l.val = 6)
    (h : 15 < fec.val ∨ d.length ≠ 640 ∨ ofLe (d.drop 632) ≠ crc64 (d.take 632)) :
    m.dataFlit l fec d = ((m.pcnt l.val 1 1).pcnt l.val 3 1).updLink l.val (fun k => { k with nak := true, naked := true }) ∧
    m.idleFlit l fec d = ((m.pcnt l.val 1 1).pcnt l.val 3 1).updLink l.val (fun k => { k with nak := true, naked := true }) := by
  constructor
  · unfold Mod.dataFlit
    dsimp only
    rw [if_neg (by omega), Mod.flitCheck_bad h]
  · unfold Mod.idleFlit
    dsimp only
    rw [if_neg (by omega), Mod.flitCheck_bad h]

/-! ## A first flit is delivered -/

/-- What taking a header leaves of a link's record. -/
theorem Mod.link_heard (m : Mod) (l : Nat) (x : FlitHdr) :
    let q := (m.takeHeader l x).link l
    q.rxSeq = (m.link l).rxSeq ∧ q.naked = (m.link l).naked ∧ q.occ = (m.link l).occ ∧ q.owed = (m.link l).owed ∧ q.parts = (m.link l).parts ∧
      q.replay = (m.link l).replay.filter fun f => fseqAfter f.seq x.ack := by
  unfold Mod.takeHeader
  rw [Mod.link_updLink_self]
  exact ⟨rfl, rfl, rfl, rfl, rfl, rfl⟩
theorem Mod.freeMsg_one (m : Mod) (l cls : Nat) : m.freeMsg { link := some l, cls := cls, flits := 1 } =
    m.updLink l fun k => { k with occ := Tab.upd 0 k.occ cls (· - 1), owed := Tab.upd 0 k.owed cls (· + 1) } := rfl
/-- A flit taken from the receive buffer leaves what is held there as it was, and one credit more to return. -/
theorem flit_taken (t o : Tab Nat) (cls : Nat) : (∀ j, Tab.get 0 (Tab.upd 0 (Tab.upd 0 t cls (· + 1)) cls (· - 1)) j = Tab.get 0 t j) ∧
    Tab.get 0 (Tab.upd 0 o cls (· + 1)) cls = Tab.get 0 o cls + 1 := by
  refine ⟨fun j => ?_, ?_⟩
  · rw [Tab.get_upd, Tab.get_upd, Tab.get_upd]
    split
    · next h => rw [if_pos rfl, h]; exact Nat.add_sub_cancel _ _
    · rfl
  · rw [Tab.get_upd, if_pos rfl]

section
variable {n : Mod} {l : Nat} {x : FlitHdr} {pay : List Byte}
theorem Mod.flitIn_first (hsom : x.som = true) (hparts : Tab.get? (n.link l).parts (2 * x.vc + x.dl) = none) :
    n.flitIn l x pay = n.partIn l x.vc x.dl { dest := x.dest, src := x.src, data := pay.take (8 * x.len), flits := 1 } x.eom := by
  unfold Mod.flitIn Mod.dropPart
  dsimp only
  rw [if_pos hsom, hparts]
theorem Mod.partIn_own {vc dl : Nat} {p : PartMsg} {eom : Bool} (hok : n.devOk p.dest = true) (hdest : p.dest = n.dev) (hvc : vc ≠ 1) :
    n.partIn l vc dl p eom = (n.stays l vc dl { p with flits := 0 } eom).freeMsg { link := some l, cls := 2 * vc + dl, flits := p.flits } := by
  unfold Mod.partIn
  dsimp only
  rw [hok, if_neg (by decide), if_neg (not_not.mpr hdest), if_neg fun h => hvc h.1]
theorem Mod.partIn_other {vc dl : Nat} {p : PartMsg} {eom : Bool} (hok : n.devOk p.dest = true) (hdest : p.dest ≠ n.dev) (hvc : vc ≠ 1) :
    n.partIn l vc dl p eom = n.transit l vc dl p eom := by
  unfold Mod.partIn
  dsimp only
  rw [hok, if_neg (by decide), if_pos hdest, if_neg fun h => hvc h.1]
/-- A whole message of one flit that comes for this module arrives at its consumer. -/
theorem Mod.partIn_arrives {vc dl : Nat} {p : PartMsg} (hok : n.devOk p.dest = true) (hdest : p.dest = n.dev) (hvc : 2 ≤ vc) (hp : p.flits = 1) :
    n.partIn l vc dl p true = ((n.updLink l fun k => { k with parts := Tab.del k.parts (2 * vc + dl) }).arrive
      { msg := { dest := p.dest, src := p.src, vc := vc, data := p.data }, link := some l, cls := 2 * vc + dl, flits := 0 }).updLink l
      fun k => { k with occ := Tab.upd 0 k.occ (2 * vc + dl) (· - 1), owed := Tab.upd 0 k.owed (2 * vc + dl) (· + 1) } := by
  rw [Mod.partIn_own hok hdest (by omega), hp, Mod.freeMsg_one]
  unfold Mod.stays
  dsimp only
  rw [if_neg (by decide), if_neg (by omega)]
theorem Mod.partIn_fitter {dl : Nat} {p : PartMsg} (hok : n.devOk p.dest = true) (hdest : p.dest = n.dev) (hp : p.flits = 1) :
    ∃ k : Mod, k = n.updLink l (fun k => { k with parts := Tab.del k.parts (2 * 0 + dl) }) ∧ n.partIn l 0 dl p true =
      ({ k with lnk := { k.lnk with fitIn := k.lnk.fitIn ++ [{ dest := p.dest, src := p.src, vc := 0, data := p.data }] } } : Mod).updLink l
      fun k => { k with occ := Tab.upd 0 k.occ (2 * 0 + dl) (· - 1), owed := Tab.upd 0 k.owed (2 * 0 + dl) (· + 1) } := by
  refine ⟨_, rfl, ?_⟩
  rw [Mod.partIn_own hok hdest (by decide), hp, Mod.freeMsg_one]
  unfold Mod.stays
  dsimp only
  rw [if_neg (by decide), if_pos ⟨rfl, hdest⟩]
theorem Mod.transit_sends {vc dl g dl' : Nat} {p : PartMsg} {eom : Bool} (hroute : n.route p.dest (some (n.dimOf (n.groupOfLink l), dl)) = some (g, dl'))
    (hup : (n.upLinks g).isEmpty = false) :
    n.transit l vc dl p eom = ((n.updLink l fun k =>
        { k with parts := if eom then Tab.del k.parts (2 * vc + dl) else Tab.put k.parts (2 * vc + dl) { p with out := true, flits := 0 } }).enqueue g
      { msg := { dest := p.dest, src := p.src, vc := vc, data := p.data }, dl := dl',
        held := some { msg := { dest := p.dest, src := p.src, vc := vc, data := p.data }, link := some l, cls := 2 * vc + dl, flits := p.flits }, more := !eom,
        cut := if eom then none else some (l, 2 * vc + dl) }).evPort (l / 6) 0x06 1 (some vc) := by
  unfold Mod.transit
  dsimp only
  rw [hroute]
  dsimp only
  rw [if_neg (by rw [hup]; decide)]
end

/-! ## Groups and their links -/

theorem Mod.route_lt {m : Mod} {dest g dl : Nat} {came : Option (Nat × Nat)} (h : m.route dest came = some (g, dl)) : g < 12 := by
  unfold Mod.route at h
  split at h
  · cases h
  · next d hd =>
    dsimp only at h
    have hlt : d < m.dims := mem_upto.mp (List.mem_of_find?_eq_some hd)
    obtain ⟨rfl, -⟩ := Prod.mk.inj (Option.some.inj h)
    unfold Mod.dims at hlt
    unfold Mod.groupOf
    split at hlt
    · next h1 => rw [if_neg (by omega)]; split <;> omega
    · split at hlt
      · next h2 => rw [if_pos h2]; split <;> omega
      · omega
theorem Mod.groupLinks_lt {m : Mod} {g o : Nat} (hg : g < 12) (ho : o ∈ m.groupLinks g) : o < 36 := by
  unfold Mod.groupLinks at ho
  split at ho
  · obtain ⟨j, hj, rfl⟩ := List.mem_map.mp ho
    have := mem_upto.mp hj
    omega
  · obtain ⟨j, hj, rfl⟩ := List.mem_map.mp ho
    have := mem_upto.mp hj
    omega
theorem Mod.linked.upLinks {m t : Mod} (h : m.linked t) {g : Nat} (hg : g < 12) : t.upLinks g = m.upLinks g := by
  unfold Mod.upLinks
  rw [h.groupLinks]
  exact List.filter_congr fun o ho => by rw [h.linkState (Mod.groupLinks_lt hg ho)]

end Sys2Proof.Machine
end

section
/-! IDLE and DATA flits at an UP link, command by command (R446, R448, R451, R457, R459). -/

namespace Sys2Proof.Machine

/-- A unit's command whose result is named. -/
theorem completes_at {i : Instr} {s : State} {f : Mod → Mod} {t : Mod} {P : Mod → Prop} (hi : exec i s = s.run f) (h : s.m.powered = true) (ht : f s.m = t)
    (hp : P { t with nv := s.m.nv, pwr := s.m.pwr }) : completes i s P := completes_run hi h (by rw [ht]; exact hp)

section
variable {s : State} {l : LinkId} {fec : FecOut} {d : List Byte}

theorem flitsDiscarded (hpow : s.m.powered = true) (hst : s.m.linkState l.val = 6)
    (h : 15 < fec.val ∨ d.length ≠ 640 ∨ ofLe (d.drop 632) ≠ crc64 (d.take 632)) {i : Instr} (hi : i ∈ [Instr.dataFlit l fec d, .idleFlit l fec d]) :
    completes i s fun t => t.link l.val = { s.m.link l.val with nak := true, naked := true } ∧ s.m.tallied t (bPort (l.val / 6) + 0x40 + 8 * 1) 1 ∧
      s.m.tallied t (bPort (l.val / 6) + 0x40 + 8 * 3) 1 ∧ t.lnk.arrived = s.m.lnk.arrived := by
  obtain ⟨hdata, hidle⟩ := Mod.flit_bad (fec := fec) hst h
  obtain ⟨hlink, hc1, hc3, hheard⟩ := s.m.flitBad_shows l.val
  have harr := congrArg LnkState.arrived hheard.lnk
  obtain ⟨t, ht⟩ : ∃ t, t = ((s.m.pcnt l.val 1 1).pcnt l.val 3 1).updLink l.val fun k => { k with nak := true, naked := true } := ⟨_, rfl⟩
  rw [← ht] at hdata hidle hlink hc1 hc3 harr
  simp only [List.mem_cons, List.not_mem_nil, or_false] at hi
  obtain rfl | rfl := hi
  · exact completes_at (f := fun m => m.dataFlit l fec d) rfl hpow hdata ⟨hlink, hc1, hc3, harr⟩
  · exact completes_at (f := fun m => m.idleFlit l fec d) rfl hpow hidle ⟨hlink, hc1, hc3, harr⟩

/-- What a link that has heard a flit shows of its record and of the messages that have arrived. -/
theorem flit_kept (s : State) (l : LinkId) (fec : FecOut) (x : FlitHdr) : ∃ u, u = s.m.hears l.val fec x ∧ s.m.linked u ∧
    u.lnk = (s.m.takeHeader l.val x).lnk ∧ u.link l.val = (s.m.takeHeader l.val x).link l.val ∧
    s.m.tallied u (bPort (l.val / 6) + 0x48) 1 ∧ (0 < fec.val → s.m.tallied u (bPort (l.val / 6) + 0x50) 1) ∧ u.mem = s.m.mem := by
  obtain ⟨hlinked, hlink, hheard⟩ := s.m.hears_shows l fec x
  obtain ⟨hlnk, -, hc1, hc2⟩ := s.m.taken_shows l.isLt fec x
  exact ⟨_, rfl, hlinked, hlnk, hlink, hc1, hc2, hheard.same (·.mem)⟩

theorem idleTaken (hpow : s.m.powered = true) (hst : s.m.linkState l.val = 6) (hf : fec.val ≤ 15) (hd : flitRead d) :
    let x := readHdr d
    let q := (s.m.takeHeader l.val x).link l.val
    completes (.idleFlit l fec d) s fun t => t.link l.val = q ∧ q.replay = (s.m.link l.val).replay.filter (fun f => fseqAfter f.seq x.ack) ∧
      s.m.tallied t (bPort (l.val / 6) + 0x40 + 8 * 1) 1 ∧ (0 < fec.val → s.m.tallied t (bPort (l.val / 6) + 0x40 + 8 * 2) 1) ∧
      t.lnk.arrived = s.m.lnk.arrived := by
  obtain ⟨u, hu, -, hlnk, hlink, hc1, hc2, -⟩ := flit_kept s l fec (readHdr d)
  obtain ⟨-, -, -, -, -, hrep⟩ := s.m.link_heard l.val (readHdr d)
  have harr : u.lnk.arrived = s.m.lnk.arrived := by rw [hlnk]; rfl
  exact completes_at (f := fun m => m.idleFlit l fec d) rfl hpow ((Mod.idleFlit_good hst hf hd).trans hu.symm) ⟨hlink, hrep, hc1, hc2, harr⟩

section
variable {x : FlitHdr} (hpow : s.m.powered = true) (hst : s.m.linkState l.val = 6) (hf : fec.val ≤ 15) (hd : flitRead d) (hx : x = readHdr d) (hkind : x.kind = 1)
include hpow hst hf hd hx hkind

theorem dataOutOfOrder (hseq : x.fseq ≠ ((s.m.link l.val).rxSeq + 1) % 4096) : completes (.dataFlit l fec d) s fun t =>
    (t.link l.val).rxSeq = (s.m.link l.val).rxSeq ∧ t.lnk.arrived = s.m.lnk.arrived ∧
      (fseqAfter x.fseq (s.m.link l.val).rxSeq = true → (s.m.link l.val).naked = false → (t.link l.val).nak = true ∧ (t.link l.val).naked = true) := by
  obtain ⟨u, hu, -, hlnk, hlink, -⟩ := flit_kept s l fec x
  obtain ⟨hrx, hnaked, -⟩ := s.m.link_heard l.val x
  rw [← hlink] at hrx hnaked
  have hgap := Mod.dataFlit_gap hst hf hd hx hu hkind (by rw [hrx]; exact hseq)
  obtain ⟨v, hv⟩ : ∃ v, v = u.evPort (l.val / 6) 0x02 1 (some x.vc) := ⟨_, rfl⟩
  have hvl : v.lnk = u.lnk := by rw [hv]; exact (Mod.onlyBar_evPort u _ _ _ _).same (·.lnk)
  have hvk : v.link l.val = u.link l.val := congrArg (fun k : LnkState => Tab.get ({} : Link) k.links l.val) hvl
  have harr : v.lnk.arrived = s.m.lnk.arrived := by rw [hvl, hlnk]; rfl
  rw [← hv, hrx, hnaked] at hgap
  by_cases hn : fseqAfter x.fseq (s.m.link l.val).rxSeq = true ∧ (!(s.m.link l.val).naked) = true
  · rw [if_pos hn] at hgap
    have hk := v.link_updLink_self l.val fun k => { k with nak := true, naked := true }
    refine completes_at (f := fun m => m.dataFlit l fec d) rfl hpow hgap ⟨?_, harr, fun _ _ => ⟨?_, ?_⟩⟩
    · exact (congrArg Link.rxSeq hk).trans ((congrArg Link.rxSeq hvk).trans hrx)
    · exact congrArg Link.nak hk
    · exact congrArg Link.naked hk
  · rw [if_neg hn] at hgap
    refine completes_at (f := fun m => m.dataFlit l fec d) rfl hpow hgap ⟨(congrArg Link.rxSeq hvk).trans hrx, harr, fun h1 h2 => ?_⟩
    exact absurd ⟨h1, by rw [h2]; rfl⟩ hn

theorem dataBeyond (hseq : x.fseq = ((s.m.link l.val).rxSeq + 1) % 4096) (hvc : x.vc < 6) (hdl : x.dl < 2)
    (hover : s.m.credAlloc l.val (2 * x.vc + x.dl) ≤ Tab.get 0 (s.m.link l.val).occ (2 * x.vc + x.dl) + Tab.get 0 (s.m.link l.val).owed (2 * x.vc + x.dl)) :
    completes (.dataFlit l fec d) s fun t => s.m.linkFell t l 8 0x14 := by
  obtain ⟨u, hu, hlinked, hlnk, hlink, -⟩ := flit_kept s l fec x
  obtain ⟨hrx, -, hocc, howed, -⟩ := s.m.link_heard l.val x
  rw [← hlink] at hrx hocc howed
  refine completes_fell (f := fun m => m.dataFlit l fec d) rfl hpow ?_
  rw [Mod.dataFlit_over hst hf hd hx hu hkind (by rw [hrx]; exact hseq) hvc (by rw [hlinked.credAlloc l.isLt (by omega), hocc, howed]; exact hover)]
  exact (Mod.linked_trans hlinked (Mod.linked_evPort u _ _ _ _)).fences l (by decide) (by decide)

/-- A DATA flit in order and in the clear reaches the receive buffer with its credit taken. -/
theorem data_enters (hseq : x.fseq = ((s.m.link l.val).rxSeq + 1) % 4096) (hclear : s.m.sealed l.val = false) (hsound : x.sound 616 = true) (hdl : x.dl < 2)
    (hsom : x.som = true) (hroom : Tab.get 0 (s.m.link l.val).occ (2 * x.vc + x.dl) + Tab.get 0 (s.m.link l.val).owed (2 * x.vc + x.dl) <
      s.m.credAlloc l.val (2 * x.vc + x.dl)) (hparts : Tab.get? (s.m.link l.val).parts (2 * x.vc + x.dl) = none) :
    ∃ n, s.m.dataFlit l fec d = n.partIn l.val x.vc x.dl { dest := x.dest, src := x.src, data := ((d.drop 16).take 616).take (8 * x.len), flits := 1 } x.eom ∧
      s.m.linked n ∧ n.lnk = { s.m.lnk with links := n.lnk.links } ∧ (n.link l.val).rxSeq = x.fseq ∧ (n.link l.val).naked = false ∧
      (n.link l.val).occ = Tab.upd 0 (s.m.link l.val).occ (2 * x.vc + x.dl) (· + 1) ∧ (n.link l.val).owed = (s.m.link l.val).owed := by
  obtain ⟨u, hu, hlinked, hlnk, hlink, -⟩ := flit_kept s l fec x
  obtain ⟨hrx, -, hocc, howed, hprt, -⟩ := s.m.link_heard l.val x
  rw [← hlink] at hrx hocc howed hprt
  have hvc : x.vc < 6 := by
    simp only [FlitHdr.sound, Bool.and_eq_true, decide_eq_true_eq] at hsound
    exact hsound.1.1.1.2
  obtain ⟨f, hfk, hin⟩ := Mod.dataFlit_in hst hf hd hx hu hkind (by rw [hrx]; exact hseq) ((hlinked.sealed l.isLt).trans hclear) hsound
    (by rw [hlinked.credAlloc l.isLt (by omega), hocc, howed]; exact hroom)
  obtain ⟨v, hv⟩ : ∃ v, v = u.evPort (l.val / 6) 0x02 1 (some x.vc) := ⟨_, rfl⟩
  have hvl : v.lnk = u.lnk := by rw [hv]; exact (Mod.onlyBar_evPort u _ _ _ _).same (·.lnk)
  have hvk : v.link l.val = u.link l.val := congrArg (fun k : LnkState => Tab.get ({} : Link) k.links l.val) hvl
  have hlv : s.m.linked v := by rw [hv]; exact Mod.linked_trans hlinked (Mod.linked_evPort u _ _ _ _)
  rw [← hv] at hin
  obtain ⟨n, hn⟩ : ∃ n, n = v.updLink l.val f := ⟨_, rfl⟩
  have hk : n.link l.val = f (u.link l.val) := by rw [hn, Mod.link_updLink_self, hvk]
  have hval := hfk (u.link l.val)
  rw [← hk] at hval
  have hnp : (n.link l.val).parts = (s.m.link l.val).parts := by rw [hval]; exact hprt
  rw [← hn, Mod.flitIn_first hsom (by rw [hnp]; exact hparts)] at hin
  have hnl : n.lnk = { s.m.lnk with links := n.lnk.links } := by
    rw [hn]
    have h1 : v.lnk = { s.m.lnk with links := v.lnk.links } := by rw [hvl, hlnk]; rfl
    exact (congrArg (fun q : LnkState => { q with links := (v.updLink l.val f).lnk.links }) h1 :)
  have hnr : s.m.linked n := by rw [hn]; exact Mod.linked_trans hlv (Mod.linked_of_bar0 rfl)
  refine ⟨n, hin, hnr, hnl, ?_, ?_, ?_, ?_⟩
  · rw [hval]
  · rw [hval]
  · rw [hval]; dsimp only; rw [hocc]
  · rw [hval]; dsimp only; rw [howed]
end
end

end Sys2Proof.Machine
end

section
/-! Where a whole message of a DATA flit goes (R451, R457, R459), and what a codeword slot sends (R448, R452, R455). -/

namespace Sys2Proof.Machine

section
variable {s : State} {l : LinkId} {fec : FecOut} {d : List Byte} {x : FlitHdr}
variable (hpow : s.m.powered = true) (hst : s.m.linkState l.val = 6) (hf : fec.val ≤ 15) (hd : flitRead d) (hx : x = readHdr d) (hkind : x.kind = 1)
  (hseq : x.fseq = ((s.m.link l.val).rxSeq + 1) % 4096) (hclear : s.m.sealed l.val = false) (hsound : x.sound 616 = true) (hdl : x.dl < 2) (hsom : x.som = true)
  (hroom : Tab.get 0 (s.m.link l.val).occ (2 * x.vc + x.dl) + Tab.get 0 (s.m.link l.val).owed (2 * x.vc + x.dl) < s.m.credAlloc l.val (2 * x.vc + x.dl))
  (hparts : Tab.get? (s.m.link l.val).parts (2 * x.vc + x.dl) = none) (hok : s.m.devOk x.dest = true)
include hpow hst hf hd hx hkind hseq hclear hsound hdl hsom hroom hparts hok

theorem dataArrives (hdest : x.dest = s.m.dev) (heom : x.eom = true) (hvc : 2 ≤ x.vc) : completes (.dataFlit l fec d) s fun t =>
    (t.link l.val).rxSeq = x.fseq ∧ (t.link l.val).naked = false ∧ (∀ j, Tab.get 0 (t.link l.val).occ j = Tab.get 0 (s.m.link l.val).occ j) ∧
      Tab.get 0 (t.link l.val).owed (2 * x.vc + x.dl) = Tab.get 0 (s.m.link l.val).owed (2 * x.vc + x.dl) + 1 ∧
      t.lnk.arrived = s.m.lnk.arrived ++ [
        { msg := { dest := x.dest, src := x.src, vc := x.vc, data := ((d.drop 16).take 616).take (8 * x.len) }
          link := some l.val, cls := 2 * x.vc + x.dl, flits := 0 }] := by
  obtain ⟨n, hin, hlinked, hlnk, hrx, hnaked, hocc, howed⟩ := data_enters hpow hst hf hd hx hkind hseq hclear hsound hdl hsom hroom hparts
  obtain ⟨b, hb⟩ : ∃ b, b = (n.updLink l.val fun k => { k with parts := Tab.del k.parts (2 * x.vc + x.dl) }).arrive
    { msg := { dest := x.dest, src := x.src, vc := x.vc, data := ((d.drop 16).take 616).take (8 * x.len) }, link := some l.val, cls := 2 * x.vc + x.dl, flits := 0 } := ⟨_, rfl⟩
  rw [heom, Mod.partIn_arrives (p := { dest := x.dest, src := x.src, data := ((d.drop 16).take 616).take (8 * x.len), flits := 1 })
    ((hlinked.devOk _).trans hok) (hdest.trans hlinked.dev.symm) hvc rfl, ← hb] at hin
  have hbk : b.link l.val = { n.link l.val with parts := Tab.del (n.link l.val).parts (2 * x.vc + x.dl) } := by
    rw [hb]; exact n.link_updLink_self l.val fun k => { k with parts := Tab.del k.parts (2 * x.vc + x.dl) }
  have hk := b.link_updLink_self l.val fun k =>
    { k with occ := Tab.upd 0 k.occ (2 * x.vc + x.dl) (· - 1), owed := Tab.upd 0 k.owed (2 * x.vc + x.dl) (· + 1) }
  rw [hbk] at hk
  obtain ⟨hsame, hmore⟩ := flit_taken (s.m.link l.val).occ (s.m.link l.val).owed (2 * x.vc + x.dl)
  refine completes_at (f := fun m => m.dataFlit l fec d) rfl hpow hin ⟨?_, ?_, fun j => ?_, ?_, ?_⟩
  · exact (congrArg Link.rxSeq hk).trans hrx
  · exact (congrArg Link.naked hk).trans hnaked
  · exact (congrArg (fun k : Link => Tab.get 0 k.occ j) hk).trans (by dsimp only; rw [hocc]; exact hsame j)
  · exact (congrArg (fun k : Link => Tab.get 0 k.owed (2 * x.vc + x.dl)) hk).trans (by dsimp only; rw [howed]; exact hmore)
  · have harr : n.lnk.arrived = s.m.lnk.arrived := by rw [hlnk]
    rw [← harr, hb]
    rfl
theorem dataForFitter (hdest : x.dest = s.m.dev) (heom : x.eom = true) (hvc : x.vc = 0) : completes (.dataFlit l fec d) s fun t =>
    (t.link l.val).rxSeq = x.fseq ∧ t.lnk.fitIn = s.m.lnk.fitIn ++ [{ dest := x.dest, src := x.src, vc := x.vc, data := ((d.drop 16).take 616).take (8 * x.len) }] ∧
      t.lnk.arrived = s.m.lnk.arrived := by
  obtain ⟨n, hin, hlinked, hlnk, hrx, -⟩ := data_enters hpow hst hf hd hx hkind hseq hclear hsound hdl hsom hroom hparts
  rw [hvc] at hin ⊢
  obtain ⟨a, ha, hpart⟩ := Mod.partIn_fitter (l := l.val) (dl := x.dl)
    (p := { dest := x.dest, src := x.src, data := ((d.drop 16).take 616).take (8 * x.len), flits := 1 }) ((hlinked.devOk _).trans hok) (hdest.trans hlinked.dev.symm) rfl
  rw [heom, hpart] at hin
  obtain ⟨b, hb⟩ : ∃ b : Mod, b = { a with lnk := { a.lnk with fitIn := a.lnk.fitIn ++
    [{ dest := x.dest, src := x.src, vc := 0, data := ((d.drop 16).take 616).take (8 * x.len) }] } } := ⟨_, rfl⟩
  rw [← hb] at hin
  have hak : (a.link l.val).rxSeq = (n.link l.val).rxSeq := by rw [ha, Mod.link_updLink_self]
  have hbk : (b.link l.val).rxSeq = (n.link l.val).rxSeq := by rw [hb]; exact hak
  have hk := b.link_updLink_self l.val fun k => { k with occ := Tab.upd 0 k.occ (2 * 0 + x.dl) (· - 1), owed := Tab.upd 0 k.owed (2 * 0 + x.dl) (· + 1) }
  have hnow : n.lnk.fitIn = s.m.lnk.fitIn ∧ n.lnk.arrived = s.m.lnk.arrived := by rw [hlnk]; exact ⟨rfl, rfl⟩
  refine completes_at (f := fun m => m.dataFlit l fec d) rfl hpow hin ⟨?_, ?_, ?_⟩
  · exact (congrArg Link.rxSeq hk).trans (hbk.trans hrx)
  · rw [← hnow.1, hb, ha]; rfl
  · rw [← hnow.2, hb, ha]; rfl
theorem dataForwarded {g' dl' : Nat} (hdest : x.dest ≠ s.m.dev) (hvc : x.vc ≠ 1)
    (hroute : s.m.route x.dest (some (s.m.dimOf (s.m.groupOfLink l.val), x.dl)) = some (g', dl')) (hup : (s.m.upLinks g').isEmpty = false) :
    completes (.dataFlit l fec d) s fun t => (t.link l.val).rxSeq = x.fseq ∧ t.lnk.arrived = s.m.lnk.arrived ∧ t.outQueue g' = s.m.outQueue g' ++
      [{ msg := { dest := x.dest, src := x.src, vc := x.vc, data := ((d.drop 16).take 616).take (8 * x.len) }, dl := dl',
         held := some
           { msg := { dest := x.dest, src := x.src, vc := x.vc, data := ((d.drop 16).take 616).take (8 * x.len) }
             link := some l.val, cls := 2 * x.vc + x.dl, flits := 1 },
         more := !x.eom, cut := if x.eom then none else some (l.val, 2 * x.vc + x.dl) }] := by
  obtain ⟨n, hin, hlinked, hlnk, hrx, -⟩ := data_enters hpow hst hf hd hx hkind hseq hclear hsound hdl hsom hroom hparts
  have hrn : n.route x.dest (some (n.dimOf (n.groupOfLink l.val), x.dl)) = some (g', dl') := by
    rw [hlinked.route, hlinked.dimOf, hlinked.groupOfLink]; exact hroute
  have hupn : (n.upLinks g').isEmpty = false := by rw [hlinked.upLinks (Mod.route_lt hroute)]; exact hup
  rw [Mod.partIn_other (p := { dest := x.dest, src := x.src, data := ((d.drop 16).take 616).take (8 * x.len), flits := 1 })
    ((hlinked.devOk _).trans hok) (fun e => hdest (e.trans hlinked.dev)) hvc, Mod.transit_sends hrn hupn] at hin
  obtain ⟨q, hq⟩ : ∃ q : PartMsg, q = { dest := x.dest, src := x.src, data := ((d.drop 16).take 616).take (8 * x.len), out := true, flits := 0 } := ⟨_, rfl⟩
  obtain ⟨a, ha⟩ : ∃ a, a = n.updLink l.val fun k =>
    { k with parts := if x.eom then Tab.del k.parts (2 * x.vc + x.dl) else Tab.put k.parts (2 * x.vc + x.dl) q } := ⟨_, rfl⟩
  obtain ⟨y, hy⟩ : ∃ y : OutMsg, y =
       { msg := { dest := x.dest, src := x.src, vc := x.vc, data := ((d.drop 16).take 616).take (8 * x.len) }, dl := dl',
         held := some
           { msg := { dest := x.dest, src := x.src, vc := x.vc, data := ((d.drop 16).take 616).take (8 * x.len) }
             link := some l.val, cls := 2 * x.vc + x.dl, flits := 1 },
         more := !x.eom, cut := if x.eom then none else some (l.val, 2 * x.vc + x.dl) } := ⟨_, rfl⟩
  have hin' : s.m.dataFlit l fec d = (a.enqueue g' y).evPort (l.val / 6) 0x06 1 (some x.vc) := by rw [hin, ha, hy, hq]
  obtain ⟨t, ht⟩ : ∃ t, t = (a.enqueue g' y).evPort (l.val / 6) 0x06 1 (some x.vc) := ⟨_, rfl⟩
  have htl : t.lnk = (a.enqueue g' y).lnk := by rw [ht]; exact (Mod.onlyBar_evPort _ _ _ _ _).same (·.lnk)
  have harx : (a.link l.val).rxSeq = (n.link l.val).rxSeq := by
    rw [ha, Mod.link_updLink_self]
  have hnow : a.lnk.arrived = s.m.lnk.arrived ∧ a.outQueue g' = s.m.outQueue g' := by
    have h1 : a.lnk.arrived = n.lnk.arrived ∧ a.outQueue g' = n.outQueue g' := by rw [ha]; exact ⟨rfl, rfl⟩
    have h2 : n.lnk.arrived = s.m.lnk.arrived ∧ n.outQueue g' = s.m.outQueue g' := by
      unfold Mod.outQueue; rw [hlnk]; exact ⟨rfl, rfl⟩
    exact ⟨h1.1.trans h2.1, h1.2.trans h2.2⟩
  refine completes_at (f := fun m => m.dataFlit l fec d) rfl hpow (hin'.trans ht.symm) ⟨?_, ?_, ?_⟩
  · exact (congrArg (fun k : LnkState => (Tab.get ({} : Link) k.links l.val).rxSeq) htl).trans (harx.trans hrx)
  · exact (congrArg LnkState.arrived htl).trans hnow.1
  · refine (congrArg (fun k : LnkState => Tab.get [] k.groups g') htl).trans ?_
    have hq := Mod.outQueue_enqueue a g' y
    rw [hnow.2, hy] at hq
    rw [hy]
    exact hq
end

end Sys2Proof.Machine
end

section
/-! What a codeword slot sends (R448, R452, R455), HANDOVER and MARK (R449, R469), and O41. -/

namespace Sys2Proof.Machine

/-! ## Sending -/

/-- A module on its way to its partner: of link `l` only what it owes, what it has sent and its counts of flits have changed. -/
theorem Mod.linked_of_counts {m t : Mod} {p : Nat} (hp : p < 6) (h : m.alters (fun a => ∃ i, i < 8 ∧ a = bPort p + 0x40 + 8 * i) t) : m.linked t := fun a ha =>
  h a fun ⟨i, hi, e⟩ => by
    subst e
    rcases ha with e | ⟨hlo, hhi⟩ | ⟨q, x, hq, hx, e⟩ | ⟨o, x, ho, hx, e⟩
    · simp only [bCFGSTAT, bPort, bLNK] at e; omega
    · simp only [bPort, bLNK] at hlo hhi; omega
    · simp only [bPort, bLNK] at e; omega
    · simp only [bLink, bPort, bLNK] at e; omega
theorem Mod.putFlit_shows (m : Mod) (l : Nat) (f : SentFlit) :
    (∃ o y, (m.putFlit l f).link l = { m.link l with owed := o, nak := false, last := y }) ∧ (m.putFlit l f).lnk.groups = m.lnk.groups ∧
      (m.putFlit l f).lnk.arrived = m.lnk.arrived ∧ m.alters (fun a => a = bPort (l / 6) + 0x40 + 8 * 0) (m.putFlit l f) ∧
      m.tallied (m.putFlit l f) (bPort (l / 6) + 0x40 + 8 * 0) 1 := by
  obtain ⟨h, hh⟩ : ∃ h : FlitHdr, h = { kind := 1, vc := f.vc, dl := f.dl, som := f.som, eom := f.eom, fseq := f.seq, len := f.len / 8, dest := f.dest, src := f.src } := ⟨_, rfl⟩
  obtain ⟨u, hu⟩ : ∃ u, u = (m.stamp l h).2 := ⟨_, rfl⟩
  obtain ⟨o, ho⟩ : ∃ o, u.link l = { m.link l with owed := o, nak := false } := ⟨_, by rw [hu]; exact m.link_updLink_self l _⟩
  have hkeep : u.lnk.groups = m.lnk.groups ∧ u.lnk.arrived = m.lnk.arrived ∧ u.bar0 = m.bar0 := by rw [hu]; exact ⟨rfl, rfl, rfl⟩
  obtain ⟨y, hy⟩ : ∃ y, m.putFlit l f = (u.updLink l fun k => { k with last := y }).pcnt l 0 1 := ⟨_, by rw [hu, hh]; rfl⟩
  obtain ⟨v, hv⟩ : ∃ v, v = u.updLink l fun k => { k with last := y } := ⟨_, rfl⟩
  have hvk : v.link l = { m.link l with owed := o, nak := false, last := y } := by rw [hv, Mod.link_updLink_self, ho]
  have hvm : v.lnk.groups = m.lnk.groups ∧ v.lnk.arrived = m.lnk.arrived ∧ v.bar0 = m.bar0 := by rw [hv]; exact hkeep
  have hbar : m.alters (fun a => a = bPort (l / 6) + 0x40 + 8 * 0) v := Mod.alters_of_bar0 hvm.2.2
  rw [hy, ← hv]
  refine ⟨⟨o, y, hvk⟩, hvm.1, hvm.2.1, Mod.alters_after (Mod.alters_wrf v _ _ _ rfl) hbar, ?_⟩
  have h := v.pcnt_tallied l 0 1
  unfold Mod.tallied Mod.rdf Mod.rd at h ⊢
  rw [hvm.2.2] at h
  exact h
theorem Mod.serveBuffers_idle {m : Mod} {l : Nat} (ha : m.lnk.arrived = []) (hp : (m.link l).parts = []) : m.serveBuffers l = m := by
  unfold Mod.serveBuffers
  rw [ha]
  exact (congrArg (fun ps : Tab PartMsg => (ps.filter fun p => !p.2.out && p.2.flits != 0).foldl (fun (m : Mod) p => m.partIn l (p.1 / 2) (p.1 % 2) p.2 false) m) hp :)

section
variable {m : Mod} {l : LinkId} (hst : m.linkState l.val = 6) (ha : m.lnk.arrived = []) (hp : (m.link l.val).parts = [])
include hst ha hp
theorem Mod.codewordSlot_ctrl {c : Ctrl} {rest : List Ctrl} (hc : (m.link l.val).ctrl = c :: rest) (ho : (m.link l.val).ctrlOut < 4) :
    m.codewordSlot l = m.sendCtrl l.val c rest := by
  unfold Mod.codewordSlot
  dsimp only
  rw [if_neg (by omega), Mod.serveBuffers_idle ha hp, if_pos ho, hc]
theorem Mod.codewordSlot_data (hc : (m.link l.val).ctrl = [] ∨ 4 ≤ (m.link l.val).ctrlOut) : m.codewordSlot l =
    match (m.link l.val).resend with
    | some i =>
      match (m.link l.val).replay[i]? with
      | none => (m.updLink l.val fun k => { k with resend := none }).sendIdle l.val
      | some f => m.sendAgain l.val i f
    | none => if 128 ≤ (m.link l.val).replay.length then m.sendIdle l.val else m.sendNew l.val := by
  have hnone : (if (m.link l.val).ctrlOut < 4 then (m.link l.val).ctrl else []) = [] := by
    split
    · exact hc.resolve_right (by omega)
    · rfl
  unfold Mod.codewordSlot
  dsimp only
  rw [if_neg (by omega), Mod.serveBuffers_idle ha hp, hnone]
  dsimp only
  exact if_neg (by omega)
end

theorem Mod.sendCtrl_shows (m : Mod) (l : Nat) {c : Ctrl} {rest : List Ctrl} (hc : (m.link l).ctrl = c :: rest) (hm : c ≠ .mark) :
    ((m.sendCtrl l c rest).link l).ctrl = (if (m.link l).ctrlSent + 1 < c.flits then c :: rest else rest) ∧
      ((m.sendCtrl l c rest).link l).ctrlOut = (m.link l).ctrlOut + 1 ∧ (∃ h, ((m.sendCtrl l c rest).link l).last = some (.ctrl h c)) ∧
      ((m.sendCtrl l c rest).link l).replay = (m.link l).replay ∧ m.tallied (m.sendCtrl l c rest) (bPort (l / 6) + 0x40 + 8 * 0) 1 := by
  obtain ⟨r, hr⟩ : ∃ r, r = m.stamp l { kind := 2 } := ⟨_, rfl⟩
  obtain ⟨o, ho⟩ : ∃ o, r.2.link l = { m.link l with owed := o, nak := false } := ⟨_, by rw [hr]; exact m.link_updLink_self l _⟩
  obtain ⟨f, hf⟩ : ∃ f : Link → Link, f = fun k =>
    let n := k.ctrlSent + 1
    { k with last := some (.ctrl r.1.bytes c), ctrlOut := k.ctrlOut + 1, ctrl := if n < c.flits then k.ctrl else rest, ctrlSent := if n < c.flits then n else 0 } := ⟨_, rfl⟩
  have heq : m.sendCtrl l c rest = (r.2.updLink l f).pcnt l 0 1 := by
    rw [hf, hr]; exact if_neg hm
  have hk : ((r.2.updLink l f).pcnt l 0 1).link l = f (r.2.link l) := r.2.link_updLink_self l f
  have hbar : (r.2.updLink l f).bar0 = m.bar0 := by rw [hr]; rfl
  rw [heq, hk, ho, hf]
  refine ⟨?_, rfl, ⟨_, rfl⟩, rfl, ?_⟩
  · dsimp only; rw [hc]
  · have h := (r.2.updLink l f).pcnt_tallied l 0 1
    rw [hf] at h hbar
    unfold Mod.tallied Mod.rdf Mod.rd at h ⊢
    rw [hbar] at h
    exact h
theorem Mod.sendIdle_shows (m : Mod) (l : Nat) : ((m.sendIdle l).link l).replay = (m.link l).replay ∧ ((m.sendIdle l).link l).txSeq = (m.link l).txSeq ∧
    m.tallied (m.sendIdle l) (bPort (l / 6) + 0x40 + 8 * 0) 1 := by
  obtain ⟨r, hr⟩ : ∃ r, r = m.stamp l {} := ⟨_, rfl⟩
  obtain ⟨o, ho⟩ : ∃ o, r.2.link l = { m.link l with owed := o, nak := false } := ⟨_, by rw [hr]; exact m.link_updLink_self l _⟩
  obtain ⟨y, hy⟩ : ∃ y, m.sendIdle l = (r.2.updLink l fun k => { k with last := y }).pcnt l 0 1 := ⟨_, by rw [hr]; rfl⟩
  have hk : ((r.2.updLink l fun k => { k with last := y }).pcnt l 0 1).link l = { r.2.link l with last := y } :=
    r.2.link_updLink_self l fun k => { k with last := y }
  have hbar : (r.2.updLink l fun k => { k with last := y }).bar0 = m.bar0 := by rw [hr]; rfl
  rw [hy, hk, ho]
  refine ⟨rfl, rfl, ?_⟩
  have h := (r.2.updLink l fun k => { k with last := y }).pcnt_tallied l 0 1
  unfold Mod.tallied Mod.rdf Mod.rd at h ⊢
  rw [hbar] at h
  exact h


end Sys2Proof.Machine
end

section
/-! What a link sends again and anew (R448, R455), HANDOVER and MARK (R449, R469), and O41. -/

namespace Sys2Proof.Machine

/-! ## Sending again and anew -/

theorem Mod.sendAgain_shows (m : Mod) (l : LinkId) (i : Nat) (f : SentFlit) : ∃ t, m.linked t ∧
    (t.link l.val).replay = (m.link l.val).replay.set i { f with resent := f.resent + 1 } ∧
    (t.link l.val).resend = (if i + 1 < (m.link l.val).replay.length then some (i + 1) else none) ∧ m.tallied t (bPort (l.val / 6) + 0x40 + 8 * 4) 1 ∧
    m.sendAgain l.val i f = if 8 ≤ f.resent + 1 then t.linkFail l.val 0x05 else t := by
  have hl := l.isLt
  obtain ⟨f1, hf1⟩ : ∃ f1 : SentFlit, f1 = { f with resent := f.resent + 1 } := ⟨_, rfl⟩
  obtain ⟨u, hu⟩ : ∃ u, u = m.updLink l.val fun k =>
    { k with replay := k.replay.set i f1, resend := if i + 1 < k.replay.length then some (i + 1) else none } := ⟨_, rfl⟩
  have huk : u.link l.val = { m.link l.val with
      replay := (m.link l.val).replay.set i f1, resend := if i + 1 < (m.link l.val).replay.length then some (i + 1) else none } := by
    rw [hu, Mod.link_updLink_self]
  have hum : u.bar0 = m.bar0 := by rw [hu]; rfl
  obtain ⟨⟨o, y, hk⟩, -, -, halt, -⟩ := u.putFlit_shows l.val f1
  obtain ⟨v, hv⟩ : ∃ v, v = u.putFlit l.val f1 := ⟨_, rfl⟩
  obtain ⟨w, hw⟩ : ∃ w, w = v.pcnt l.val 4 1 := ⟨_, rfl⟩
  obtain ⟨t, ht⟩ : ∃ t, t = w.evPort (l.val / 6) 0x03 1 (some f.vc) := ⟨_, rfl⟩
  rw [← hv] at hk halt
  have hcounts : m.alters (fun a => ∃ i, i < 8 ∧ a = bPort (l.val / 6) + 0x40 + 8 * i) w := by
    rw [hw]
    exact Mod.alters_after (Mod.alters_wrf v _ _ _ ⟨4, by decide, rfl⟩)
      (Mod.alters_after (halt.mono fun a ha => ⟨0, by decide, ha⟩) (Mod.alters_of_bar0 hum))
  have hwt : t.lnk = v.lnk := by rw [ht, hw]; exact (Mod.onlyBar_evPort _ _ _ _ _).same (·.lnk)
  have htk : t.link l.val = v.link l.val := congrArg (fun k : LnkState => Tab.get ({} : Link) k.links l.val) hwt
  have hcnt : m.tallied t (bPort (l.val / 6) + 0x40 + 8 * 4) 1 := by
    have h := v.pcnt_tallied l.val 4 1
    rw [← hw] at h
    have h1 : t.rd (bPort (l.val / 6) + 0x40 + 8 * 4) = w.rd (bPort (l.val / 6) + 0x40 + 8 * 4) := by
      rw [ht]; exact Mod.rd_evPort w _ _ _ _ _ (by rw [Nat.add_assoc]; exact bPort_lt (by omega) (by decide))
    have h2 : v.rd (bPort (l.val / 6) + 0x40 + 8 * 4) = m.rd (bPort (l.val / 6) + 0x40 + 8 * 4) :=
      (halt _ (by omega)).trans (congrArg (barVal · _) hum)
    unfold Mod.tallied Mod.rdf at h ⊢
    rw [h1, h, h2]
  refine ⟨t, ?_, ?_, ?_, hcnt, ?_⟩
  · rw [ht]; exact Mod.linked_trans (Mod.linked_of_counts (by omega) hcounts) (Mod.linked_evPort w _ _ _ _)
  · rw [htk, hk, huk, hf1]
  · rw [htk, hk, huk]
  · rw [ht, hw, hv, hu, hf1]; rfl
/-- The round's record plays no part in what a link may send. -/
theorem Mod.readyOn_round (m : Mod) (r : Tab Nat) (l v : Nat) : ({ m with lnk := { m.lnk with round := r } } : Mod).readyOn l v = m.readyOn l v := rfl
theorem Mod.sendNew_sends {m : Mod} {l v i : Nat} (hp : (m.roundPick l).1 = some v) (hr : m.readyOn l v = some i) :
    ∃ r, m.sendNew l = ({ m with lnk := { m.lnk with round := r } } : Mod).sendNext l i := by
  obtain ⟨p, hpick⟩ : ∃ p, p = m.roundPick l := ⟨_, rfl⟩
  rw [← hpick] at hp
  refine ⟨Tab.upd 0 p.2 (8 * (l / 6) + v) (· + 1), ?_⟩
  unfold Mod.sendNew
  dsimp only
  rw [← hpick, hp]
  dsimp only
  rw [Mod.readyOn_round, hr]
/-- A message of one flit leaves its queue, and its flit is kept until it is acknowledged. -/
theorem Mod.sendNext_whole {m : Mod} {l i : Nat} {x : OutMsg} (hx : (m.outQueue (m.groupOfLink l))[i]? = some x) (hsent : x.sent = 0) (hheld : x.held = none)
    (hmore : x.more = false) (hlen : x.msg.data.length ≤ m.payload l) :
    ∃ (f : SentFlit) (F : Link → Link), (f.seq = (m.link l).txSeq ∧ f.data = x.msg.data ∧ f.som = true ∧ f.eom = true ∧ f.dest = x.msg.dest) ∧
      (∀ k, (F k).txSeq = (k.txSeq + 1) % 4096 ∧ (F k).replay = k.replay ++ [f]) ∧
      m.sendNext l i = ((({ m with lnk := { m.lnk with groups := Tab.put m.lnk.groups (m.groupOfLink l) ((m.outQueue (m.groupOfLink l)).eraseIdx i) } } : Mod).updLink
        l F).putFlit l f).evPort (l / 6) 0x01 1 (some x.msg.vc) := by
  have hxd : (Tab.get [] m.lnk.groups (m.groupOfLink l)).getD i {} = x := by
    rw [List.getD_eq_getElem?_getD]; exact congrArg (fun o : Option OutMsg => o.getD {}) hx
  have hlast : (!x.more && decide (x.msg.data.length ≤ x.sent + m.payload l)) = true := by
    rw [hmore, hsent, Nat.zero_add, decide_eq_true hlen]; rfl
  obtain ⟨f, hf⟩ : ∃ f : SentFlit, f = {
    seq := (m.link l).txSeq, vc := x.msg.vc, dl := x.dl, som := x.sent == 0, eom := true, dest := x.msg.dest, src := x.msg.src,
    data := (x.msg.data.drop x.sent).take (m.payload l), len := (((x.msg.data.drop x.sent).take (m.payload l)).length + 7) / 8 * 8,
    count := (m.link l).session.txCount, key := (m.link l).session.txKey, whole := some { x with held := none, seam := none } } := ⟨_, rfl⟩
  refine ⟨f, fun k => { k with
    txSeq := (k.txSeq + 1) % 4096, replay := k.replay ++ [f]
    credits := Tab.setD 0 k.credits (2 * x.msg.vc + x.dl) (Tab.get 0 k.credits (2 * x.msg.vc + x.dl) - 1)
    session := { k.session with txCount := k.session.txCount + 1, txKey := nextKey k.session.txKey (k.session.txCount + 1) } }, ?_, fun k => ⟨rfl, rfl⟩, ?_⟩
  · rw [hf]
    refine ⟨rfl, ?_, ?_, rfl, rfl⟩
    · dsimp only; rw [hsent, List.drop_zero, List.take_of_length_le hlen]
    · dsimp only; rw [hsent]; rfl
  · unfold Mod.sendNext
    dsimp only
    rw [hxd, hlast, hheld, if_pos rfl, if_pos rfl, ← hf]
    rfl

section
variable {s : State} {l : LinkId} (hpow : s.m.powered = true) (hst : s.m.linkState l.val = 6) (ha : s.m.lnk.arrived = []) (hp : (s.m.link l.val).parts = [])
include hpow hst ha hp
theorem slotSendsControl {c : Ctrl} {rest : List Ctrl} (hc : (s.m.link l.val).ctrl = c :: rest) (ho : (s.m.link l.val).ctrlOut < 4) (hm : c ≠ .mark) :
    completes (.codewordSlot l) s fun t =>
      (t.link l.val).ctrl = (if (s.m.link l.val).ctrlSent + 1 < c.flits then c :: rest else rest) ∧ (t.link l.val).ctrlOut = (s.m.link l.val).ctrlOut + 1 ∧
      (∃ h, (t.link l.val).last = some (.ctrl h c)) ∧ (t.link l.val).replay = (s.m.link l.val).replay ∧ s.m.tallied t (bPort (l.val / 6) + 0x40 + 8 * 0) 1 :=
  completes_at (f := fun m => m.codewordSlot l) rfl hpow (Mod.codewordSlot_ctrl hst ha hp hc ho) (s.m.sendCtrl_shows l.val hc hm)
theorem slotResends (hc : (s.m.link l.val).ctrl = [] ∨ 4 ≤ (s.m.link l.val).ctrlOut) {i : Nat} {f : SentFlit} (hr : (s.m.link l.val).resend = some i)
    (hf : (s.m.link l.val).replay[i]? = some f) :
    (f.resent < 7 → completes (.codewordSlot l) s fun t => (t.link l.val).replay = (s.m.link l.val).replay.set i { f with resent := f.resent + 1 } ∧
      (t.link l.val).resend = (if i + 1 < (s.m.link l.val).replay.length then some (i + 1) else none) ∧ s.m.tallied t (bPort (l.val / 6) + 0x40 + 8 * 4) 1) ∧
    (7 ≤ f.resent → completes (.codewordSlot l) s fun t => s.m.linkFell t l 7 0x05) := by
  have heq := Mod.codewordSlot_data hst ha hp hc
  rw [hr] at heq
  dsimp only at heq
  rw [hf] at heq
  dsimp only at heq
  obtain ⟨t, hlinked, hrep, hres, hcnt, hsend⟩ := s.m.sendAgain_shows l i f
  rw [hsend] at heq
  refine ⟨fun hlt => ?_, fun hge => ?_⟩
  · rw [if_neg (by omega)] at heq
    exact completes_at (f := fun m => m.codewordSlot l) rfl hpow heq ⟨hrep, hres, hcnt⟩
  · rw [if_pos (by omega)] at heq
    have hfell := (t.linkFail_fell l (reason := 0x05) (by decide) rfl).after (.inl rfl) fun _ _ ho hx => hlinked.link ho hx
    exact completes_at (f := fun m => m.codewordSlot l) rfl hpow heq (hfell.frame _ _)
theorem slotSendsNew (hc : (s.m.link l.val).ctrl = [] ∨ 4 ≤ (s.m.link l.val).ctrlOut) {v i : Nat} {x : OutMsg} (hr : (s.m.link l.val).resend = none)
    (hlen : (s.m.link l.val).replay.length < 128) (hpick : (s.m.roundPick l.val).1 = some v) (hready : s.m.readyOn l.val v = some i)
    (hx : (s.m.outQueue (s.m.groupOfLink l.val))[i]? = some x) (hsent : x.sent = 0) (hheld : x.held = none) (hmore : x.more = false)
    (hdata : x.msg.data.length ≤ s.m.payload l.val) : completes (.codewordSlot l) s fun t =>
      t.outQueue (s.m.groupOfLink l.val) = (s.m.outQueue (s.m.groupOfLink l.val)).eraseIdx i ∧ (t.link l.val).txSeq = ((s.m.link l.val).txSeq + 1) % 4096 ∧
      ∃ f, (t.link l.val).replay = (s.m.link l.val).replay ++ [f] ∧ f.seq = (s.m.link l.val).txSeq ∧ f.data = x.msg.data ∧ f.som = true ∧ f.eom = true ∧
        f.dest = x.msg.dest := by
  have heq := Mod.codewordSlot_data hst ha hp hc
  obtain ⟨r, hnew⟩ := Mod.sendNew_sends hpick hready
  obtain ⟨m1, hm1⟩ : ∃ m1 : Mod, m1 = { s.m with lnk := { s.m.lnk with round := r } } := ⟨_, rfl⟩
  have hq1 : m1.outQueue (m1.groupOfLink l.val) = s.m.outQueue (s.m.groupOfLink l.val) := by rw [hm1]; rfl
  have hl1 : m1.link l.val = s.m.link l.val := by rw [hm1]; rfl
  have hg1 : m1.groupOfLink l.val = s.m.groupOfLink l.val := by rw [hm1]; rfl
  obtain ⟨f, F, ⟨hseq, hfd, hsom, heom, hdest⟩, hF, hsend⟩ := Mod.sendNext_whole (m := m1) (l := l.val) (by rw [hq1]; exact hx) hsent hheld hmore
    (by rw [hm1]; exact hdata)
  rw [hq1, hg1] at hsend
  rw [hr] at heq
  dsimp only at heq
  rw [if_neg (by omega), hnew, ← hm1, hsend] at heq
  obtain ⟨m2, hm2⟩ : ∃ m2 : Mod, m2 = { m1 with
    lnk := { m1.lnk with groups := Tab.put m1.lnk.groups (s.m.groupOfLink l.val) ((s.m.outQueue (s.m.groupOfLink l.val)).eraseIdx i) } } := ⟨_, rfl⟩
  obtain ⟨m3, hm3⟩ : ∃ m3, m3 = m2.updLink l.val F := ⟨_, rfl⟩
  obtain ⟨t, ht⟩ : ∃ t, t = (m3.putFlit l.val f).evPort (l.val / 6) 0x01 1 (some x.msg.vc) := ⟨_, rfl⟩
  rw [← hm2, ← hm3, ← ht] at heq
  have hq2 : m2.outQueue (s.m.groupOfLink l.val) = (s.m.outQueue (s.m.groupOfLink l.val)).eraseIdx i := by
    rw [hm2]; exact Tab.get_put_self _ _ _ _
  have hq3 : m3.outQueue (s.m.groupOfLink l.val) = m2.outQueue (s.m.groupOfLink l.val) := by rw [hm3]; rfl
  have hk3 : m3.link l.val = F (s.m.link l.val) := by
    rw [hm3, Mod.link_updLink_self, ← hl1, hm2]; rfl
  obtain ⟨⟨o, y, hk⟩, hgroups, -⟩ := m3.putFlit_shows l.val f
  have htl : t.lnk = (m3.putFlit l.val f).lnk := by rw [ht]; exact (Mod.onlyBar_evPort _ _ _ _ _).same (·.lnk)
  have htk : t.link l.val = (m3.putFlit l.val f).link l.val := congrArg (fun k : LnkState => Tab.get ({} : Link) k.links l.val) htl
  rw [hk, hk3] at htk
  obtain ⟨hF1, hF2⟩ := hF (s.m.link l.val)
  refine completes_at (f := fun m => m.codewordSlot l) rfl hpow heq ⟨?_, ?_, f, ?_, by rw [hseq, hl1], hfd, hsom, heom, hdest⟩
  · refine (congrArg (fun k : LnkState => Tab.get [] k.groups (s.m.groupOfLink l.val)) htl).trans ?_
    exact (congrArg (fun k : Tab (List OutMsg) => Tab.get [] k (s.m.groupOfLink l.val)) hgroups).trans (hq3.trans hq2)
  · exact (congrArg Link.txSeq htk).trans hF1
  · exact (congrArg Link.replay htk).trans hF2
theorem slotWaits (hc : (s.m.link l.val).ctrl = [] ∨ 4 ≤ (s.m.link l.val).ctrlOut) (hr : (s.m.link l.val).resend = none)
    (hlen : 128 ≤ (s.m.link l.val).replay.length) : completes (.codewordSlot l) s fun t => (t.link l.val).replay = (s.m.link l.val).replay ∧
      (t.link l.val).txSeq = (s.m.link l.val).txSeq ∧ s.m.tallied t (bPort (l.val / 6) + 0x40 + 8 * 0) 1 := by
  have heq := Mod.codewordSlot_data hst ha hp hc
  rw [hr] at heq
  dsimp only at heq
  rw [if_pos hlen] at heq
  exact completes_at (f := fun m => m.codewordSlot l) rfl hpow heq (s.m.sendIdle_shows l.val)
end

/-! ## HANDOVER and MARK -/

theorem Mod.handOver_requeues {m : Mod} {l last : Nat} (h : (m.link l).report = some last) : ∃ t, m.handOver l = t ∧
    t.outQueue (m.groupOfLink l) = (wholesAfter (m.link l).left last).map (fun x => { x with link := none, sent := 0 }) ++ m.outQueue (m.groupOfLink l) ∧
    (t.link l).left = [] ∧ (t.link l).report = none := by
  obtain ⟨xs, hxs⟩ : ∃ xs, xs = wholesAfter (m.link l).left last := ⟨_, rfl⟩
  obtain ⟨u, hu⟩ : ∃ u, u = m.updLink l fun k => { k with left := [], report := none } := ⟨_, rfl⟩
  have huk : u.link l = { m.link l with left := [], report := none } := by rw [hu]; exact Mod.link_updLink_self m l _
  obtain ⟨v, hv⟩ : ∃ v, v = u.requeue (m.groupOfLink l) xs := ⟨_, rfl⟩
  have heq : m.handOver l = if xs.isEmpty then v else v.lerr l 3 3 xs.length := by
    unfold Mod.handOver
    rw [h]
    dsimp only
    rw [← hxs, ← hu, ← hv]
  have hqu : u.outQueue (m.groupOfLink l) = m.outQueue (m.groupOfLink l) := by rw [hu]; rfl
  have hqv : v.outQueue (m.groupOfLink l) = xs.map (fun x => { x with link := none, sent := 0 }) ++ m.outQueue (m.groupOfLink l) := by
    rw [← hqu, hv]
    exact (Tab.get_upd _ _ _ _ _).trans (if_pos rfl)
  have hvk : v.link l = u.link l := by rw [hv]; rfl
  rw [heq, ← hxs]
  refine ⟨_, rfl, ?_⟩
  split
  · exact ⟨hqv, by rw [hvk, huk], by rw [hvk, huk]⟩
  · refine ⟨hqv, ?_, ?_⟩
    · exact (congrArg Link.left (hvk.trans huk) :)
    · exact (congrArg Link.report (hvk.trans huk) :)
theorem Mod.dropParts_none {m : Mod} {l : Nat} (h : (m.link l).parts = []) : m.dropParts l = m := by
  unfold Mod.dropParts
  rw [h]
  rfl

section
variable {s : State} {l : LinkId} {w : CtrlWire} (hpow : s.m.powered = true) (hst : s.m.linkState l.val = 6) (hr : ctrlRead w) (hs : ctrlSound w)
include hpow hst hr hs
theorem handoverComes {lost : LinkId} {last : Fin 4096} (hne : lost ≠ l) (hg : s.m.groupOfLink lost.val = s.m.groupOfLink l.val)
    (hdown : s.m.linkState lost.val ≠ 6) (hparts : (s.m.link lost.val).parts = []) : completes (.handover (l, w) lost last) s fun t =>
      t.outQueue (s.m.groupOfLink l.val) = (wholesAfter (s.m.link lost.val).left last.val).map (fun x => { x with link := none, sent := 0 }) ++
        s.m.outQueue (s.m.groupOfLink l.val) ∧ (t.link lost.val).left = [] ∧ (t.link lost.val).report = none := by
  obtain ⟨u, hu, hlinked, hlnk, -⟩ := flit_kept s l w.fec (ctrlHead w)
  have hvne : lost.val ≠ l.val := fun e => hne (Fin.ext e)
  have hulost : u.link lost.val = s.m.link lost.val :=
    (congrArg (fun k : LnkState => Tab.get ({} : Link) k.links lost.val) hlnk).trans (s.m.link_updLink_ne _ hvne)
  have hq (g : Nat) : u.outQueue g = s.m.outQueue g := by unfold Mod.outQueue; rw [hlnk]; rfl
  obtain ⟨v, hv⟩ : ∃ v, v = u.updLink lost.val fun k => { k with report := some last.val } := ⟨_, rfl⟩
  have hvk : v.link lost.val = { s.m.link lost.val with report := some last.val } := by rw [hv, Mod.link_updLink_self, hulost]
  have hgv : v.groupOfLink lost.val = s.m.groupOfLink l.val := by rw [hv]; exact (hlinked.groupOfLink _).trans hg
  obtain ⟨t, ht, hqueue, hleft, hrep⟩ := Mod.handOver_requeues (m := v) (l := lost.val) (last := last.val) (by rw [hvk])
  have heq : s.m.handover l w lost last = t := by
    unfold Mod.handover
    rw [Mod.ctrlIn_read (by omega) hr, if_pos ⟨hs.1, hs.2, rfl⟩, ← hu]
    have hgo : ¬ (u.linkState l.val ≠ 6 ∨ u.groupOfLink lost.val ≠ u.groupOfLink l.val ∨ lost = l) := by
      rw [hlinked.linkState l.isLt, hlinked.groupOfLink, hlinked.groupOfLink, hst, hg]
      simp [hne]
    have hvs : v.linkState lost.val ≠ 6 := by rw [hv]; exact fun e => hdown ((hlinked.linkState lost.isLt).symm.trans e)
    rw [if_neg hgo, Mod.dropParts_none (by rw [hulost]; exact hparts), ← hv]
    exact (if_neg hvs).trans ht
  rw [hgv, hvk] at hqueue
  have hqv : v.outQueue (s.m.groupOfLink l.val) = s.m.outQueue (s.m.groupOfLink l.val) := by rw [hv]; exact hq _
  rw [hqv] at hqueue
  exact completes_at (f := fun m => m.handover l w lost last) rfl hpow heq ⟨hqueue, hleft, hrep⟩
theorem markComes : completes (.mark (l, w)) s fun t => t.lnk = (s.m.takeHeader l.val (ctrlHead w)).lnk ∧
    s.m.tallied t (bPort (l.val / 6) + 0x40 + 8 * 1) 1 ∧ t.mem = s.m.mem := by
  obtain ⟨u, hu, hlinked, hlnk, -, hc1, -, hmem⟩ := flit_kept s l w.fec (ctrlHead w)
  have heq : s.m.markFlit l w = u := by
    unfold Mod.markFlit
    rw [Mod.ctrlIn_read (by omega) hr, if_pos ⟨hs.1, hs.2, rfl⟩, ← hu]
    exact if_neg (not_not.mpr ((hlinked.linkState l.isLt).trans hst))
  exact completes_at (f := fun m => m.markFlit l w) rfl hpow heq ⟨hlnk, hc1, hmem⟩
end

/-! ## The settlement -/

theorem readHdr_dl (d : List Byte) : (readHdr d).dl < 2 := bitsN_lt _ _ _
/-- Settles O41: what comes on an UP link, what it sends, and what HANDOVER and MARK do. -/
theorem linkFlits : Obligations.LinkFlits := by
  unfold Obligations.LinkFlits
  intro s l hpow hst
  refine ⟨fun fec d h i hi => flitsDiscarded hpow hst h hi, fun fec d hf hlen hcrc => ?_, fun ha hp => ⟨fun c rest hc ho hm =>
    slotSendsControl hpow hst ha hp hc ho hm, fun hc => ⟨fun i f hr hf => slotResends hpow hst ha hp hc hr hf,
    fun v i x hr hlen hpick hready hx hsent hheld hmore hdata => slotSendsNew hpow hst ha hp hc hr hlen hpick hready hx hsent hheld hmore hdata,
    fun hr hlen => slotWaits hpow hst ha hp hc hr hlen⟩⟩, fun w hr hs => ⟨fun lost last hne hg hdown hparts => handoverComes hpow hst hr hs hne hg hdown hparts,
    markComes hpow hst hr hs⟩⟩
  have hd : flitRead d := ⟨hlen, hcrc⟩
  refine ⟨idleTaken hpow hst hf hd, fun hkind hseq => dataOutOfOrder hpow hst hf hd rfl hkind hseq,
    fun hkind hseq hvc hover => dataBeyond hpow hst hf hd rfl hkind hseq hvc (readHdr_dl d) hover,
    fun hkind hseq hclear hsound hsom hroom hparts hok => ⟨fun hdest heom hvc => ?_, fun hdest heom hvc => ?_, fun g' dl' hdest hvc hroute hup => ?_⟩⟩
  · exact dataArrives hpow hst hf hd rfl hkind hseq hclear hsound (readHdr_dl d) hsom hroom hparts hok hdest heom hvc
  · exact dataForFitter hpow hst hf hd rfl hkind hseq hclear hsound (readHdr_dl d) hsom hroom hparts hok hdest heom hvc
  · exact dataForwarded hpow hst hf hd rfl hkind hseq hclear hsound (readHdr_dl d) hsom hroom hparts hok hdest hvc hroute hup

end Sys2Proof.Machine
end

section
/-! Remote requests and their responses (R424, R425, R454, R463 to R468). -/

namespace Sys2Proof.Machine

/-! ## Messages of local units -/

/-- A message to a device that a route leads to waits in its group's queue. -/
theorem Mod.sendMsg_goes {m : Mod} {x : Msg} {dest g dl : Nat} (hw : m.wayTo dest g dl) (hx : x.dest = dest) : m.sendMsg x = m.enqueue g { msg := x, dl := dl } := by
  obtain ⟨htopo, hok, hne, hroute, hup⟩ := hw
  unfold Mod.sendMsg Mod.forwardMsg
  rw [hx, if_neg (by simp [htopo, hok]), if_neg hne, hroute]
  dsimp only
  rw [if_neg (by rw [hup]; decide)]
theorem Mod.linked.wayTo {m t : Mod} (h : m.linked t) {dest g dl : Nat} (hw : m.wayTo dest g dl) : t.wayTo dest g dl := by
  obtain ⟨htopo, hok, hne, hroute, hup⟩ := hw
  exact ⟨by rw [h.topo]; exact htopo, (h.devOk _).trans hok, fun e => hne (e.trans h.dev), (h.route _ _).trans hroute,
    by rw [h.upLinks (Mod.route_lt hroute)]; exact hup⟩
/-- An answer to a remote request, told of the module before the work that it answers. -/
theorem Mod.sendMsg_answers {m u : Mod} (h : m.linked u) (hl : u.lnk = m.lnk) {dest g dl : Nat} (hw : m.wayTo dest g dl) (tag status : Nat) (poison : Bool)
    (bs : List Byte) :
    ∃ t, u.sendMsg { dest := dest, src := u.dev, vc := 4, data := respHdr tag status poison ++ bs } = t ∧
      t.outQueue g = m.outQueue g ++ [{ msg := { dest := dest, src := m.dev, vc := 4, data := respHdr tag status poison ++ bs }, dl := dl }] ∧
      t.mem = u.mem ∧ t.bar0 = u.bar0 := by
  refine ⟨_, Mod.sendMsg_goes (h.wayTo hw) rfl, ?_, rfl, rfl⟩
  rw [Mod.outQueue_enqueue, h.dev]
  unfold Mod.outQueue
  rw [hl]

/-! ## The check, and what is served -/

/-- The counts of served and refused requests of a partition. -/
theorem windowCount_apart {p x a : Nat} (hp : p < 16) (hx : x < 0x10000) (h : linkCfg a) : a ≠ bPRT p + x := by
  intro e
  subst e
  rcases h with e | ⟨hlo, hhi⟩ | ⟨q, y, hq, hy, e⟩ | ⟨o, y, ho, hy, e⟩
  · simp only [bCFGSTAT, bPRT] at e; omega
  · simp only [bPRT, bLNK] at hlo hhi; omega
  · simp only [bPort, bPRT, bLNK] at e; omega
  · simp only [bLink, bPort, bPRT, bLNK] at e; omega
theorem Mod.linked_inc {m : Mod} {p x : Nat} (hp : p < 16) (hx : x < 0x10000) : m.linked (m.inc (bPRT p + x)) :=
  fun _ ha => Mod.rd_incBy_ne m 1 (windowCount_apart hp hx ha)
theorem Mod.traffic.linked {m t : Mod} (h : m.traffic t) : m.linked t := fun a ha => h.regs a (by
  rcases ha with rfl | ⟨hlo, hhi⟩ | ⟨q, y, hq, hy, rfl⟩ | ⟨o, y, ho, hy, rfl⟩
  · exact .inl (by decide)
  · simp only [bLNK] at hlo hhi; exact .inr (.inr (by simp only [bLNK, bMON]; omega))
  · exact .inr (.inr (by simp only [bPort, bLNK, bMON]; omega))
  · exact .inr (.inr (by simp only [bLink, bPort, bLNK, bMON]; omega)))
theorem Mod.traffic.windowCount {m t : Mod} (h : m.traffic t) {p x : Nat} (hp : p < 16) (hx : x < 0x10000) : t.rd (bPRT p + x) = m.rd (bPRT p + x) :=
  h.regs _ (.inr (.inr (by simp only [bPRT, bLNK, bMON]; omega)))
theorem Mod.poisoned_inc {m : Mod} {a : Nat} (h : a ≠ bSPLMAP) (pa n : Nat) : (m.inc a).poisoned pa n = m.poisoned pa n := by
  have hmap : (m.inc a).rd bSPLMAP = m.rd bSPLMAP := Mod.rd_incBy_ne m 1 (Ne.symm h)
  have hen : (m.inc a).enabled = m.enabled := congrArg (fun w : W64 => (upto 24).filter fun s => w.getLsbD s) hmap
  have hline (b : Nat) : (m.inc a).lineFenced b = m.lineFenced b := by
    unfold Mod.lineFenced Mod.isSpool Mod.spoolN Mod.place
    rw [hen]
    rfl
  unfold Mod.poisoned
  simp only [hline]
  rfl
theorem Mod.isSpool_inc {m : Mod} {a : Nat} (h : a ≠ bSPLMAP) (pa : Nat) : (m.inc a).isSpool pa = m.isSpool pa := by
  have hmap : (m.inc a).rd bSPLMAP = m.rd bSPLMAP := Mod.rd_incBy_ne m 1 (Ne.symm h)
  unfold Mod.isSpool Mod.spoolN Mod.enabled
  rw [hmap]
theorem Mod.rangeFenced_inc {m : Mod} {a : Nat} (h : a ≠ bSPLMAP) (pa n : Nat) : (m.inc a).rangeFenced pa n = m.rangeFenced pa n := by
  have hmap : (m.inc a).rd bSPLMAP = m.rd bSPLMAP := Mod.rd_incBy_ne m 1 (Ne.symm h)
  have hen : (m.inc a).enabled = m.enabled := congrArg (fun w : W64 => (upto 24).filter fun s => w.getLsbD s) hmap
  have hline (b : Nat) : (m.inc a).lineFenced b = m.lineFenced b := by
    unfold Mod.lineFenced Mod.isSpool Mod.spoolN Mod.place
    rw [hen]
    rfl
  unfold Mod.rangeFenced
  rw [funext fun i => hline ((pa / 128 + i) * 128)]
theorem windowCount_ne (p x : Nat) : bPRT p + x ≠ bSPLMAP := by simp only [bPRT, bSPLMAP]; omega
theorem readReq_part (d : List Byte) : (readReq d).win / 256 < 16 := by
  have h : (readReq d).win < 2 ^ 12 := bitsN_lt _ _ _
  omega

section
variable {m : Mod} {src : BitVec 18} {v5 : Bool} {d : List Byte} {x : ReqHdr} (hx : x = readReq d) (htake : m.takeMsg (if v5 then 5 else 3) d = (none, m))
  (hsound : x.sound d = true)
include hx htake hsound
theorem Mod.remoteRequest_refused {ops : Nat → Bool} (hops : ops x.op = true) {st : Nat} (hw : m.windowCheck src.toNat x = .inl st) :
    m.remoteRequest ops src v5 d =
      (m.inc (bPRT (x.win / 256) + 0x3110)).sendMsg { dest := src.toNat, src := m.dev, vc := 4, data := respHdr x.tag st false } := by
  unfold Mod.remoteRequest
  dsimp only
  rw [← hx, hops, if_neg (by decide), htake]
  dsimp only
  rw [hsound, if_neg (by decide), hw]
theorem Mod.remoteRequest_served {ops : Nat → Bool} (hops : ops x.op = true) {pa : Nat} (hw : m.windowCheck src.toNat x = .inr pa) :
    m.remoteRequest ops src v5 d = m.serveRemote src.toNat x ((d.drop 32).take x.len) pa := by
  unfold Mod.remoteRequest
  dsimp only
  rw [← hx, hops, if_neg (by decide), htake]
  dsimp only
  rw [hsound, if_neg (by decide), hw]
end
/-- A sound request carries the bytes that it speaks of. -/
theorem ReqHdr.sound.carries {x : ReqHdr} {d : List Byte} (h : x.sound d = true) (hop : x.op ≠ 1) : ((d.drop 32).take x.len).length = x.len := by
  simp only [ReqHdr.sound, Bool.and_eq_true, decide_eq_true_eq] at h
  obtain ⟨⟨⟨⟨-, hlen⟩, -⟩, -⟩, -⟩ := h
  have hdata : x.dataLen = x.len := if_neg hop
  rw [List.length_take, List.length_drop]
  omega

theorem Mod.clearTags_keeps (m : Mod) (pa n : Nat) : (m.clearTags pa n).lnk = m.lnk ∧ (m.clearTags pa n).bar0 = m.bar0 := by
  unfold Mod.clearTags
  split <;> exact ⟨rfl, rfl⟩
theorem Mod.cleanLines_keeps (m : Mod) (pa n : Nat) : (m.cleanLines pa n).lnk = m.lnk ∧ (m.cleanLines pa n).bar0 = m.bar0 := by
  unfold Mod.cleanLines
  dsimp only
  split <;> exact ⟨rfl, rfl⟩
section
variable {m : Mod} {src g dl pa : Nat} {x : ReqHdr} (hwin : x.win / 256 < 16) (hway : m.wayTo src g dl) {data : List Byte}
include hwin hway
theorem Mod.serveRemote_read (hop : x.op = 1) (hcalm : m.coh.upsets = []) : ∃ t, m.serveRemote src x data pa = t ∧
    t.outQueue g = m.outQueue g ++ [{ msg := { dest := src, src := m.dev, vc := 4, data := respHdr x.tag 0 (m.poisoned pa x.len) ++ m.rdMem pa x.len }, dl := dl }] ∧
    m.tallied t (bPRT (x.win / 256) + 0x3108) 1 ∧ t.mem = m.mem := by
  obtain ⟨m1, hm1⟩ : ∃ u, u = m.inc (bPRT (x.win / 256) + 0x3108) := ⟨_, rfl⟩
  obtain ⟨r, hr⟩ : ∃ r, r = m1.ncRead pa x.len := ⟨_, rfl⟩
  have htr : m1.traffic r.2 := by
    rw [hr]; exact Mod.traffic_ncRead (by rw [hm1]; exact hcalm) _ _ _
  have hl1 : m.linked m1 := by rw [hm1]; exact Mod.linked_inc hwin (by decide)
  have hbytes : r.1 = m.rdMem pa x.len := by rw [hr, hm1]; rfl
  have hpois : m1.poisoned pa x.len = m.poisoned pa x.len := by rw [hm1]; exact Mod.poisoned_inc (windowCount_ne _ _) _ _
  have hcnt : m.tallied m1 (bPRT (x.win / 256) + 0x3108) 1 := by rw [hm1]; exact Mod.tallied_inc m _
  have hlnk : r.2.lnk = m.lnk := by
    have h := congrArg (fun u : Mod => u.lnk) htr.rest
    rw [show m.lnk = m1.lnk by rw [hm1]; rfl]
    exact h
  have hmem : r.2.mem = m.mem := htr.fields.1.trans (by rw [hm1]; rfl)
  obtain ⟨t, ht, hq, htm, htb⟩ := Mod.sendMsg_answers (Mod.linked_trans hl1 htr.linked) hlnk hway x.tag 0 (m1.poisoned pa x.len) r.1
  refine ⟨t, ?_, ?_, ?_, htm.trans hmem⟩
  · rw [← ht, hr, hm1]
    unfold Mod.serveRemote
    dsimp only
    rw [if_neg (by omega)]
    simp only [hop]
  · rw [hq, hpois, hbytes]
  · have h1 : t.rd (bPRT (x.win / 256) + 0x3108) = m1.rd (bPRT (x.win / 256) + 0x3108) := (congrArg (barVal · _) htb).trans (htr.windowCount hwin (by decide))
    exact (congrArg (fun w => fld w 47 0) h1).trans hcnt
theorem Mod.serveRemote_write (hop : x.op = 2) (hlen : data.length = x.len) (hf : m.rangeFenced pa x.len = false) : ∃ t, m.serveRemote src x data pa = t ∧
    t.outQueue g = m.outQueue g ++ [{ msg := { dest := src, src := m.dev, vc := 4, data := respHdr x.tag 0 false ++ [] }, dl := dl }] ∧ m.wrote t pa data := by
  obtain ⟨m1, hm1⟩ : ∃ u, u = m.inc (bPRT (x.win / 256) + 0x3108) := ⟨_, rfl⟩
  have hl1 : m.linked m1 := by rw [hm1]; exact Mod.linked_inc hwin (by decide)
  have hf1 : m1.rangeFenced pa data.length = false := by rw [hm1, Mod.rangeFenced_inc (windowCount_ne _ _), hlen]; exact hf
  obtain ⟨u, hu, heq⟩ := m1.ncWrite_eq pa data true
  obtain ⟨hwrote, -⟩ := Mod.wrote_ncWrite hf1
  have huf : u.rangeFenced pa data.length = false := (hu.rangeFenced _ _).trans hf1
  obtain ⟨w, hw⟩ : ∃ w, w = m1.ncWrite pa data := ⟨_, rfl⟩
  have hwu : w = ({ u with mem := Memory.setBytes u.mem pa data }.clearTags pa data.length).cleanLines pa data.length := by
    rw [hw, heq]; exact if_neg (by rw [huf]; decide)
  have hwk : w.lnk = u.lnk ∧ w.bar0 = u.bar0 := by
    obtain ⟨h1, h2⟩ := ({ u with mem := Memory.setBytes u.mem pa data }.clearTags pa data.length).cleanLines_keeps pa data.length
    obtain ⟨h3, h4⟩ := ({ u with mem := Memory.setBytes u.mem pa data } : Mod).clearTags_keeps pa data.length
    rw [hwu]
    exact ⟨h1.trans h3, h2.trans h4⟩
  have hul : u.lnk = m.lnk := by
    have h := congrArg (fun u : Mod => u.lnk) hu.rest
    rw [show m.lnk = m1.lnk by rw [hm1]; rfl]
    exact h
  have hlw : m.linked w := Mod.linked_trans (Mod.linked_trans hl1 hu.linked) (Mod.linked_of_bar0 hwk.2)
  rw [← hw] at hwrote
  obtain ⟨t, ht, hq, htm, htb⟩ := Mod.sendMsg_answers hlw (hwk.1.trans hul) hway x.tag 0 false []
  refine ⟨t, ?_, hq, fun a => ?_⟩
  · rw [← ht, hw, hm1]
    unfold Mod.serveRemote
    dsimp only
    rw [if_neg (by omega)]
    simp only [hop]
  · rw [htm, hwrote a]
    have hm : m1.mem = m.mem := by rw [hm1]; rfl
    rw [hm]
theorem Mod.serveRemote_add (hop : x.op = 3) (hs : m.isSpool pa = true) :
    m.tallied (m.serveRemote src x data pa) (bPRT (x.win / 256) + 0x3108) 1 ∧ (m.serveRemote src x data pa).mem = m.mem ∧
      (m.serveRemote src x data pa).spl.adds = m.spl.adds ++ [{ pa := pa, ty := x.rtype, data := data, reply := some (src, x.tag) }] := by
  obtain ⟨m1, hm1⟩ : ∃ u, u = m.inc (bPRT (x.win / 256) + 0x3108) := ⟨_, rfl⟩
  have heq : m.serveRemote src x data pa =
      { m1 with spl := { m1.spl with adds := m1.spl.adds ++ [{ pa := pa, ty := x.rtype, data := data, reply := some (src, x.tag) }] } } := by
    unfold Mod.serveRemote
    dsimp only
    rw [hs, if_neg (by simp), hm1]
    simp only [hop]
  have hcnt : m.tallied m1 (bPRT (x.win / 256) + 0x3108) 1 := by rw [hm1]; exact Mod.tallied_inc m _
  have hk : m1.mem = m.mem ∧ m1.spl = m.spl := by rw [hm1]; exact ⟨rfl, rfl⟩
  rw [heq]
  exact ⟨hcnt, hk.1, by rw [hk.2]⟩
theorem Mod.serveRemote_lineAdd (hop : x.op = 4) (hs : m.isSpool pa = true) :
    m.tallied (m.serveRemote src x data pa) (bPRT (x.win / 256) + 0x3108) 1 ∧ (m.serveRemote src x data pa).mem = m.mem ∧
      (m.serveRemote src x data pa).spl.adds.length = m.spl.adds.length + x.len / 64 := by
  obtain ⟨m1, hm1⟩ : ∃ u, u = m.inc (bPRT (x.win / 256) + 0x3108) := ⟨_, rfl⟩
  obtain ⟨f, hf⟩ : ∃ f : Nat → AddReq, f = fun i => { pa := pa + 64 * i, ty := x.rtype, data := (data.drop (64 * i)).take 64, reply := some (src, x.tag) } := ⟨_, rfl⟩
  have heq : m.serveRemote src x data pa = { m1 with spl := { m1.spl with adds := m1.spl.adds ++ (upto (x.len / 64)).map f } } := by
    unfold Mod.serveRemote
    dsimp only
    rw [hs, if_neg (by simp), hm1, hf]
    simp only [hop]
  have hcnt : m.tallied m1 (bPRT (x.win / 256) + 0x3108) 1 := by rw [hm1]; exact Mod.tallied_inc m _
  have hk : m1.mem = m.mem ∧ m1.spl = m.spl := by rw [hm1]; exact ⟨rfl, rfl⟩
  rw [heq]
  refine ⟨hcnt, hk.1, ?_⟩
  dsimp only
  rw [hk.2, List.length_append, List.length_map, upto, List.length_range]
end

end Sys2Proof.Machine
end

section
/-! Responses to remote requests (R425, R454, R467), and O42. -/

namespace Sys2Proof.Machine

/-! ## Responses -/

theorem Mod.poisonStation_keeps {m : Mod} {c : Nat} {s : Station} (h : s.undo.isSome = true) :
    (m.poisonStation c s).lnk = m.lnk ∧ (m.poisonStation c s).mem = m.mem := by
  obtain ⟨u, hu⟩ := Option.isSome_iff_exists.mp h
  unfold Mod.poisonStation
  rw [hu]
  exact ⟨rfl, rfl⟩
/-- A response touches neither memory nor the links, whoever waits for it. -/
theorem Mod.deliverResp_keeps (m : Mod) (tag : Nat) (r : RemReq) (ok poison : Bool) (bs : List Byte) :
    (m.deliverResp tag r ok poison bs).lnk = m.lnk ∧ (m.deliverResp tag r ok poison bs).mem = m.mem := by
  unfold Mod.deliverResp
  dsimp only
  split
  · split
    · split
      · exact ⟨rfl, rfl⟩
      · split
        · exact ⟨rfl, rfl⟩
        · exact ⟨rfl, rfl⟩
    · exact ⟨rfl, rfl⟩
  · split
    · exact ⟨rfl, rfl⟩
    · split
      · exact ⟨rfl, rfl⟩
      · exact ⟨rfl, rfl⟩
  · split
    · exact ⟨rfl, rfl⟩
    · split
      · next h => exact Mod.poisonStation_keeps h.2.2.1
      · exact ⟨rfl, rfl⟩
  · split
    · exact ⟨rfl, rfl⟩
    · exact ⟨rfl, rfl⟩
  · exact ⟨rfl, rfl⟩
  · split
    · exact ⟨rfl, rfl⟩
    · exact ⟨rfl, rfl⟩
/-- Bytes put one after another are read back one by one. -/
theorem get?_foldl_put (f : Nat → Byte) (b k : Nat) {i : Nat} (hi : i < k) (t : Tab Byte) :
    Tab.get? ((upto k).foldl (fun t i => Tab.put t (b + i) (f i)) t) (b + i) = some (f i) := by
  induction k with
  | zero => omega
  | succ k ih =>
    rw [show upto (k + 1) = upto k ++ [k] from List.range_succ, List.foldl_append, List.foldl_cons, List.foldl_nil, Tab.get?_put]
    by_cases h : i = k
    · rw [h, if_pos rfl]
    · rw [if_neg (by omega)]
      exact ih (by omega)
theorem Mod.deliverResp_buf {m : Mod} {tag : Nat} {r : RemReq} {bs : List Byte} {u : RemUnit} (hu : r.unit = u) (hb : ∃ cr, u = .buf cr)
    (hw : (m.core r.core).wait = .remote tag) :
    ((m.deliverResp tag r true false bs).core r.core).wait = .none ∧
      ∀ i, i < r.len → Tab.get? ((m.deliverResp tag r true false bs).core r.core).rbuf (r.va + i) = some (bs.getD i 0) := by
  obtain ⟨cr, rfl⟩ := hb
  have heq : m.deliverResp tag r true false bs = m.updCore r.core fun k => { k with
      wait := .none, rbuf := (upto r.len).foldl (fun t i => Tab.put t (r.va + i) (bs.getD i 0)) k.rbuf, refused := k.refused } := by
    unfold Mod.deliverResp
    dsimp only
    rw [hu]
    dsimp only
    rw [if_neg (not_not.mpr hw), if_neg fun h => absurd h.2 (by decide)]
    rfl
  rw [heq, Mod.core_updCore_self]
  exact ⟨rfl, fun i hi => get?_foldl_put (fun i => bs.getD i 0) r.va r.len hi _⟩
theorem Mod.deliverResp_posted {m : Mod} {tag : Nat} {r : RemReq} {ok poison : Bool} {bs : List Byte} (hu : r.unit = .posted) :
    m.deliverResp tag r ok poison bs = if ok then m else m.inc (bXLT r.part + 0x40 + 8 * 4) := by
  unfold Mod.deliverResp
  dsimp only
  rw [hu]

section
variable {m : Mod} {d : List Byte} (htake : m.takeMsg 4 d = (none, m))
include htake
theorem Mod.remoteResponse_unsound (hs : m.respSound d = false) : m.remoteResponse d = m.inc (bLNK + 0x080) := by
  unfold Mod.remoteResponse
  dsimp only
  rw [htake]
  dsimp only
  rw [hs]
  rfl
theorem Mod.remoteResponse_found (hs : m.respSound d = true) {r : RemReq} (hr : Tab.get? m.lnk.remotes (bitsN (ofLe (d.take 4)) 23 0) = some r) :
    ∃ m2 : Mod, m2 = { m with lnk := { m.lnk with remotes := Tab.del m.lnk.remotes (bitsN (ofLe (d.take 4)) 23 0) } } ∧
      m.remoteResponse d = if bitsN (ofLe ((d.drop 4).take 4)) 7 0 = 0 then
        m2.deliverResp (bitsN (ofLe (d.take 4)) 23 0) r true (bitsN (ofLe ((d.drop 4).take 4)) 8 8 == 1) ((d.drop 16).take r.len)
      else (m2.freeBytes r.len).2.deliverResp (bitsN (ofLe (d.take 4)) 23 0) r false false (m2.freeBytes r.len).1 := by
  refine ⟨_, rfl, ?_⟩
  unfold Mod.remoteResponse
  dsimp only
  rw [htake]
  dsimp only
  rw [hs, if_neg (by decide), hr]
  dsimp only
  exact if_congr beq_iff_eq rfl rfl
end

/-! ## The commands -/

section
variable {s : State}
theorem responseUnsound (hpow : s.m.powered = true) {d : List Byte} (htake : s.m.takeMsg 4 d = (none, s.m)) (hs : s.m.respSound d = false) :
    completes (.remoteResponse d) s fun t => s.m.tallied t (bLNK + 0x080) 1 ∧ t.lnk = s.m.lnk ∧ t.mem = s.m.mem :=
  completes_at (f := fun m => m.remoteResponse d) rfl hpow (Mod.remoteResponse_unsound htake hs) ⟨Mod.tallied_inc s.m _, rfl, rfl⟩
theorem responseComes (hpow : s.m.powered = true) {d : List Byte} {r : RemReq} (htake : s.m.takeMsg 4 d = (none, s.m)) (hs : s.m.respSound d = true)
    (hr : Tab.get? s.m.lnk.remotes (bitsN (ofLe (d.take 4)) 23 0) = some r) :
    let tag := bitsN (ofLe (d.take 4)) 23 0
    let ok := bitsN (ofLe ((d.drop 4).take 4)) 7 0 = 0
    completes (.remoteResponse d) s fun t => t.lnk.remotes = Tab.del s.m.lnk.remotes tag ∧ t.mem = s.m.mem ∧
      (∀ cr, r.unit = .buf cr → (s.m.core r.core).wait = .remote tag → ok → bitsN (ofLe ((d.drop 4).take 4)) 8 8 = 0 → (t.core r.core).wait = .none ∧
        ∀ i, i < r.len → Tab.get? (t.core r.core).rbuf (r.va + i) = some (((d.drop 16).take r.len).getD i 0)) ∧
      (r.unit = .posted → ok → t.bar0 = s.m.bar0) ∧ (r.unit = .posted → ¬ ok → s.m.tallied t (bXLT r.part + 0x40 + 32) 1) := by
  obtain ⟨m2, hm2, heq⟩ := Mod.remoteResponse_found htake hs hr
  have hk : m2.lnk.remotes = Tab.del s.m.lnk.remotes (bitsN (ofLe (d.take 4)) 23 0) ∧ m2.mem = s.m.mem ∧ m2.bar0 = s.m.bar0 := by rw [hm2]; exact ⟨rfl, rfl, rfl⟩
  have hcore (c : Nat) : m2.core c = s.m.core c := by rw [hm2]; rfl
  obtain ⟨tag, htag⟩ : ∃ tag, tag = bitsN (ofLe (d.take 4)) 23 0 := ⟨_, rfl⟩
  dsimp only
  rw [← htag] at heq hk ⊢
  by_cases hok : bitsN (ofLe ((d.drop 4).take 4)) 7 0 = 0
  · rw [if_pos hok] at heq
    obtain ⟨p, hp⟩ : ∃ p, p = (bitsN (ofLe ((d.drop 4).take 4)) 8 8 == 1) := ⟨_, rfl⟩
    rw [← hp] at heq
    obtain ⟨hlnk, hmem⟩ := m2.deliverResp_keeps tag r true p ((d.drop 16).take r.len)
    have hbuf (cr : Option Nat) (hu : r.unit = .buf cr) (hw : (s.m.core r.core).wait = .remote tag) (hp0 : p = false) :=
      Mod.deliverResp_buf (m := m2) (bs := (d.drop 16).take r.len) hu ⟨cr, rfl⟩ (by rw [hcore]; exact hw)
    have hpost (hu : r.unit = .posted) : m2.deliverResp tag r true p ((d.drop 16).take r.len) = m2 := (Mod.deliverResp_posted hu).trans (if_pos rfl)
    obtain ⟨t, ht⟩ : ∃ t, t = m2.deliverResp tag r true p ((d.drop 16).take r.len) := ⟨_, rfl⟩
    rw [← ht] at heq hlnk hmem hpost
    refine completes_at (f := fun m => m.remoteResponse d) rfl hpow heq ⟨?_, hmem.trans hk.2.1, fun cr hu hw _ h8 => ?_, fun hu _ => ?_, fun _ hn => absurd hok hn⟩
    · exact (congrArg LnkState.remotes hlnk).trans hk.1
    · have hp0 : p = false := by rw [hp, h8]; rfl
      obtain ⟨h1, h2⟩ := hbuf cr hu hw hp0
      rw [hp0] at ht
      rw [← ht] at h1 h2
      exact ⟨h1, h2⟩
    · exact (congrArg Mod.bar0 (hpost hu)).trans hk.2.2
  · rw [if_neg hok] at heq
    obtain ⟨f, hf⟩ : ∃ f, f = m2.freeBytes r.len := ⟨_, rfl⟩
    have hfk : f.2.lnk = m2.lnk ∧ f.2.mem = m2.mem ∧ f.2.bar0 = m2.bar0 := by rw [hf]; exact ⟨rfl, rfl, rfl⟩
    rw [← hf] at heq
    obtain ⟨hlnk, hmem⟩ := f.2.deliverResp_keeps tag r false false f.1
    have hpost (hu : r.unit = .posted) : f.2.deliverResp tag r false false f.1 = f.2.inc (bXLT r.part + 0x40 + 8 * 4) :=
      (Mod.deliverResp_posted hu).trans (if_neg (by decide))
    obtain ⟨t, ht⟩ : ∃ t, t = f.2.deliverResp tag r false false f.1 := ⟨_, rfl⟩
    rw [← ht] at heq hlnk hmem hpost
    refine completes_at (f := fun m => m.remoteResponse d) rfl hpow heq ⟨?_, hmem.trans (hfk.2.1.trans hk.2.1), fun _ _ _ h => absurd h hok,
      fun _ h => absurd h hok, fun hu _ => ?_⟩
    · exact (congrArg LnkState.remotes (hlnk.trans hfk.1)).trans hk.1
    · have hcnt := Mod.tallied_inc f.2 (bXLT r.part + 0x40 + 8 * 4)
      have hb : f.2.bar0 = s.m.bar0 := hfk.2.2.trans hk.2.2
      rw [← hpost hu] at hcnt
      unfold Mod.tallied Mod.rdf Mod.rd at hcnt ⊢
      rw [hb] at hcnt
      exact hcnt

variable {src : BitVec 18} {v5 : Bool} {d : List Byte} {x : ReqHdr} (hpow : s.m.powered = true) (hx : x = readReq d)
  (htake : s.m.takeMsg (if v5 then 5 else 3) d = (none, s.m)) (hsound : x.sound d = true) {g dl : Nat} (hway : s.m.wayTo src.toNat g dl)
include hpow hx htake hsound hway
theorem requestRefused {i : Instr} (hi : (x.op, i) ∈ [(1, Instr.remoteRead src v5 d), (2, .remoteWrite src v5 d), (3, .remoteAdd src v5 d),
    (4, .remoteLineadd src v5 d)])
    {st : Nat} (hw : s.m.windowCheck src.toNat x = .inl st) : completes i s fun t =>
      t.outQueue g = s.m.outQueue g ++ [{ msg := { dest := src.toNat, src := s.m.dev, vc := 4, data := respHdr x.tag st false ++ [] }, dl := dl }] ∧
      s.m.tallied t (bPRT (x.win / 256) + 0x3110) 1 ∧ t.mem = s.m.mem := by
  have hp : x.win / 256 < 16 := by rw [hx]; exact readReq_part d
  obtain ⟨m1, hm1⟩ : ∃ u, u = s.m.inc (bPRT (x.win / 256) + 0x3110) := ⟨_, rfl⟩
  have hl1 : s.m.linked m1 := by rw [hm1]; exact Mod.linked_inc hp (by decide)
  have hk : m1.lnk = s.m.lnk ∧ m1.mem = s.m.mem := by rw [hm1]; exact ⟨rfl, rfl⟩
  have hcnt : s.m.tallied m1 (bPRT (x.win / 256) + 0x3110) 1 := by rw [hm1]; exact Mod.tallied_inc s.m _
  obtain ⟨t, ht, hq, hmem, hbar⟩ := Mod.sendMsg_answers hl1 hk.1 hway x.tag st false []
  have hrow {ops : Nat → Bool} (hops : ops x.op = true) : s.m.remoteRequest ops src v5 d = t := by
    rw [Mod.remoteRequest_refused hx htake hsound hops hw, ← ht, ← hm1, hl1.dev, List.append_nil]
  have hshow : t.outQueue g = s.m.outQueue g ++ [{ msg := { dest := src.toNat, src := s.m.dev, vc := 4, data := respHdr x.tag st false ++ [] }, dl := dl }] ∧
      s.m.tallied t (bPRT (x.win / 256) + 0x3110) 1 ∧ t.mem = s.m.mem :=
    ⟨hq, (congrArg (fun b => fld (barVal b (bPRT (x.win / 256) + 0x3110)) 47 0) hbar).trans hcnt, hmem.trans hk.2⟩
  simp only [List.mem_cons, Prod.mk.injEq, List.not_mem_nil, or_false] at hi
  obtain ⟨hop, rfl⟩ | ⟨hop, rfl⟩ | ⟨hop, rfl⟩ | ⟨hop, rfl⟩ := hi
  · exact completes_at (f := fun m => m.remoteRead src v5 d) rfl hpow (hrow (by rw [hop]; rfl)) hshow
  · exact completes_at (f := fun m => m.remoteWrite src v5 d) rfl hpow (hrow (by rw [hop]; rfl)) hshow
  · exact completes_at (f := fun m => m.remoteAdd src v5 d) rfl hpow (hrow (by rw [hop]; rfl)) hshow
  · exact completes_at (f := fun m => m.remoteLineAdd src v5 d) rfl hpow (hrow (by rw [hop]; rfl)) hshow
theorem requestServed {pa : Nat} (hw : s.m.windowCheck src.toNat x = .inr pa) :
    let answers (t : Mod) (status : Nat) (poison : Bool) (bs : List Byte) : Prop := t.outQueue g = s.m.outQueue g ++
      [{ msg := { dest := src.toNat, src := s.m.dev, vc := 4, data := respHdr x.tag status poison ++ bs }, dl := dl }]
    (x.op = 1 → s.m.coh.upsets = [] → completes (.remoteRead src v5 d) s fun t => answers t 0 (s.m.poisoned pa x.len) (s.m.rdMem pa x.len) ∧
      s.m.tallied t (bPRT (x.win / 256) + 0x3108) 1 ∧ t.mem = s.m.mem) ∧
    (x.op = 2 → s.m.rangeFenced pa x.len = false → completes (.remoteWrite src v5 d) s fun t => answers t 0 false [] ∧ s.m.wrote t pa ((d.drop 32).take x.len)) ∧
    (x.op = 3 → s.m.isSpool pa = true → completes (.remoteAdd src v5 d) s fun t => s.m.tallied t (bPRT (x.win / 256) + 0x3108) 1 ∧ t.mem = s.m.mem ∧
      t.spl.adds = s.m.spl.adds ++ [{ pa := pa, ty := x.rtype, data := (d.drop 32).take x.len, reply := some (src.toNat, x.tag) }]) ∧
    (x.op = 4 → s.m.isSpool pa = true → completes (.remoteLineadd src v5 d) s fun t => s.m.tallied t (bPRT (x.win / 256) + 0x3108) 1 ∧ t.mem = s.m.mem ∧
      t.spl.adds.length = s.m.spl.adds.length + x.len / 64) := by
  have hp : x.win / 256 < 16 := by rw [hx]; exact readReq_part d
  have hrow {ops : Nat → Bool} (hops : ops x.op = true) := Mod.remoteRequest_served hx htake hsound hops hw
  refine ⟨fun hop hcalm => ?_, fun hop hf => ?_, fun hop hs => ?_, fun hop hs => ?_⟩
  · obtain ⟨t, ht, hq, hcnt, hmem⟩ := Mod.serveRemote_read (pa := pa) (data := (d.drop 32).take x.len) hp hway hop hcalm
    exact completes_at (f := fun m => m.remoteRead src v5 d) rfl hpow ((hrow (by rw [hop]; rfl)).trans ht) ⟨hq, hcnt, hmem⟩
  · obtain ⟨t, ht, hq, hwrote⟩ := Mod.serveRemote_write hp hway hop (ReqHdr.sound.carries hsound (by omega)) hf
    exact completes_at (f := fun m => m.remoteWrite src v5 d) rfl hpow ((hrow (by rw [hop]; rfl)).trans ht) ⟨hq, hwrote⟩
  · have h := Mod.serveRemote_add (pa := pa) (data := (d.drop 32).take x.len) hp hway hop hs
    obtain ⟨t, ht⟩ : ∃ t, t = s.m.serveRemote src.toNat x ((d.drop 32).take x.len) pa := ⟨_, rfl⟩
    rw [← ht] at h
    exact completes_at (f := fun m => m.remoteAdd src v5 d) rfl hpow ((hrow (by rw [hop]; rfl)).trans ht.symm) h
  · have h := Mod.serveRemote_lineAdd (pa := pa) (data := (d.drop 32).take x.len) hp hway hop hs
    obtain ⟨t, ht⟩ : ∃ t, t = s.m.serveRemote src.toNat x ((d.drop 32).take x.len) pa := ⟨_, rfl⟩
    rw [← ht] at h
    exact completes_at (f := fun m => m.remoteLineAdd src v5 d) rfl hpow ((hrow (by rw [hop]; rfl)).trans ht.symm) h
end

/-- Settles O42: requests by their operation, and responses by who waits. -/
theorem remoteRequests : Obligations.RemoteRequests := by
  unfold Obligations.RemoteRequests
  intro s src v5 d hpow
  refine ⟨fun htake hsound g dl hway => ⟨fun i st hi hw => ?_, fun pa hw => ?_⟩, fun htake hs => responseUnsound hpow htake hs,
    fun r htake hs hr => responseComes hpow htake hs hr⟩
  · exact requestRefused hpow rfl htake hsound hway hi hw
  · exact requestServed hpow rfl htake hsound hway hw

end Sys2Proof.Machine
end

section
/-! What the traffic of agents that cache nothing leaves of translations and of the registers of partitions, seams and collectives (R348, R419). -/

namespace Sys2Proof.Machine

/-! ## Translations that cores hold -/

/-- No core's own translations have changed, and no error has struck an array. -/
structure Mod.sameTlbs (m t : Mod) : Prop where
  tlb : ∀ d, (t.core d).mem.tlb = (m.core d).mem.tlb
  upsets : t.coh.upsets = m.coh.upsets
theorem Mod.sameTlbs_refl (m : Mod) : m.sameTlbs m := ⟨fun _ => rfl, rfl⟩
theorem Mod.sameTlbs_after {m t u : Mod} (g : t.sameTlbs u) (h : m.sameTlbs t) : m.sameTlbs u :=
  ⟨fun d => (g.tlb d).trans (h.tlb d), g.upsets.trans h.upsets⟩
theorem Mod.sameTlbs_of_cores {m t : Mod} (h : t.cores = m.cores) (hu : t.coh.upsets = m.coh.upsets) : m.sameTlbs t :=
  ⟨fun d => congrArg (fun x => (Tab.get {} x d : Core).mem.tlb) h, hu⟩
theorem Mod.sameTlbs_of_onlyBar {m t : Mod} (h : m.onlyBar t) : m.sameTlbs t :=
  Mod.sameTlbs_of_cores (congrArg (·.cores) h.rest) (congrArg (·.coh.upsets) h.rest)
theorem Mod.sameTlbs_ite {m t u : Mod} {p : Prop} [Decidable p] (ht : m.sameTlbs t) (hu : m.sameTlbs u) : m.sameTlbs (if p then t else u) := by
  split
  · exact ht
  · exact hu
theorem Mod.sameTlbs_updMem (m : Mod) (c : Nat) {f : CoreMem → CoreMem} (hf : ∀ k, (f k).tlb = k.tlb) : m.sameTlbs (m.updMem c f) := by
  refine ⟨fun d => ?_, rfl⟩
  by_cases h : d = c
  · rw [h, Mod.updMem, Mod.core_updCore_self]; exact hf _
  · rw [Mod.updMem, Mod.core_updCore_ne m _ h]
theorem CoreMem.tlb_setState (k : CoreMem) (la : Nat) (st : Mesi) : (k.setState la st).tlb = k.tlb := by
  have hdrop : (k.dropL1 la).tlb = k.tlb := by unfold CoreMem.dropL1; split <;> rfl
  unfold CoreMem.setState
  split
  · rfl
  · dsimp only
    split_ifs
    · exact hdrop
    · exact hdrop
    · rfl
theorem Mod.sameTlbs_lostLine (m : Mod) (c la : Nat) : m.sameTlbs (m.lostLine c la) := by
  unfold Mod.lostLine
  have h := Mod.sameTlbs_updMem m c (f := fun k => { k with lostM := k.lostM.filter (· != la) }) fun _ => rfl
  exact Mod.sameTlbs_ite ⟨h.tlb, h.upsets⟩ (Mod.sameTlbs_refl m)
theorem Mod.sameTlbs_pncLook (m : Mod) (la : Nat) : m.sameTlbs (m.pncLook la) := by
  unfold Mod.pncLook
  have h (t : Mod) (p code n filt) : t.sameTlbs (t.evPanel p code n filt) := Mod.sameTlbs_of_onlyBar (Mod.onlyBar_evPanel t p code n filt)
  exact Mod.sameTlbs_ite (Mod.sameTlbs_after (h _ _ _ _ _) (Mod.sameTlbs_of_cores rfl rfl)) (h _ _ _ _ _)
theorem Mod.sameTlbs_askRange (m : Mod) (pa : Nat) (write partialW : Bool) (k : Nat) : m.sameTlbs (m.askRange pa write partialW k) := by
  unfold Mod.askRange
  exact Mod.sameTlbs_ite (Mod.sameTlbs_of_cores rfl rfl) (Mod.sameTlbs_of_cores rfl rfl)
theorem Mod.sameTlbs_pncPut (m : Mod) (la age : Nat) (dirty : Bool) : m.sameTlbs (m.pncPut la age dirty) := by
  unfold Mod.pncPut
  dsimp only
  split
  · exact Mod.sameTlbs_of_cores rfl rfl
  · split
    · exact Mod.sameTlbs_ite (Mod.sameTlbs_after (Mod.sameTlbs_askRange _ _ _ _ _) (Mod.sameTlbs_of_cores rfl rfl)) (Mod.sameTlbs_of_cores rfl rfl)
    · exact Mod.sameTlbs_of_cores rfl rfl
theorem Mod.sameTlbs_setDir (m : Mod) (la : Nat) (e : DirEntry) : m.sameTlbs (m.setDir la e) := by
  unfold Mod.setDir
  repeat' split
  all_goals exact Mod.sameTlbs_of_cores rfl rfl
theorem Mod.sameTlbs_ncRead {m : Mod} (hu : m.coh.upsets = []) (pa n age : Nat) : m.sameTlbs (m.ncRead pa n age).2 := by
  have fold : ∀ (f : Mod → Nat → Mod), (∀ (m : Mod) la, m.coh.upsets = [] → m.sameTlbs (f m la)) → ∀ (xs : List Nat) (m : Mod), m.coh.upsets = [] →
      m.sameTlbs (xs.foldl f m) := by
    intro f hf xs
    induction xs with
    | nil => exact fun m _ => Mod.sameTlbs_refl m
    | cons x xs ih => exact fun m hu => Mod.sameTlbs_after (ih (f m x) ((hf m x hu).upsets.trans hu)) (hf m x hu)
  unfold Mod.ncRead
  refine Mod.sameTlbs_ite (fold _ (fun m la hu => ?_) _ m hu) (fold _ (fun m la hu => ?_) _ m hu)
  · dsimp only
    rw [Mod.meetErr_none _ _ _ _ hu]
    have h0 := Mod.sameTlbs_pncLook m la
    obtain ⟨m0, hm0⟩ : ∃ u, u = m.pncLook la := ⟨_, rfl⟩
    rw [← hm0] at h0 ⊢
    have hput (t : Mod) (age : Nat) (dirty : Bool) (h : m.sameTlbs t) : m.sameTlbs (t.pncPut la age dirty) := Mod.sameTlbs_after (Mod.sameTlbs_pncPut t la age dirty) h
    have h1 : m.sameTlbs (if m0.busy la = true then m0 else match (m0.dirAt la).st with
        | .x o => match ((m0.lostLine o la).core o).mem.state la with
          | .m => ((m0.lostLine o la).updMem o fun k => k.setState la .e).pncPut la 1 true
          | .i => (if ((m0.lostLine o la).core o).mem.wbDirty la = true then (m0.lostLine o la).pncPut la 1 true else m0.lostLine o la).setDir la {}
          | _ => m0.lostLine o la
        | _ => m0) := by
      refine Mod.sameTlbs_ite h0 ?_
      split
      · have h2 := fun o => Mod.sameTlbs_after (Mod.sameTlbs_lostLine m0 o la) h0
        split
        · exact hput _ _ _ (Mod.sameTlbs_after (Mod.sameTlbs_updMem _ _ fun k => k.tlb_setState la .e) (h2 _))
        · exact Mod.sameTlbs_after (Mod.sameTlbs_setDir _ _ _) (Mod.sameTlbs_ite (hput _ _ _ (h2 _)) (h2 _))
        · exact h2 _
      · exact h0
    exact Mod.sameTlbs_ite h1 (Mod.sameTlbs_ite (Mod.sameTlbs_after (Mod.sameTlbs_askRange _ _ _ _ _) h1)
      (hput _ _ _ (Mod.sameTlbs_after (Mod.sameTlbs_askRange _ _ false _ _) h1)))
  · rw [Mod.meetErr_none _ _ _ _ hu, ite_self]; exact Mod.sameTlbs_refl m

/-! ## Registers above those of the links -/

/-- Registers of partitions, seams and collectives stay as they were, and so do the events and counts of the monitors. -/
def Mod.sameAbove (m t : Mod) : Prop := ∀ a, bLNK ≤ a → t.rd a = m.rd a
theorem Mod.sameAbove_refl (m : Mod) : m.sameAbove m := fun _ _ => rfl
theorem Mod.sameAbove_trans {m t u : Mod} (h : m.sameAbove t) (g : t.sameAbove u) : m.sameAbove u := fun a ha => (g a ha).trans (h a ha)
theorem Mod.sameAbove_of_bar0 {m t : Mod} (h : t.bar0 = m.bar0) : m.sameAbove t := fun a _ => congrArg (barVal · a) h
theorem Mod.sameAbove_foldl {β : Type} (f : Mod → β → Mod) (h : ∀ (m : Mod) x, m.sameAbove (f m x)) (xs : List β) (m : Mod) : m.sameAbove (xs.foldl f m) :=
  foldl_keeps Mod.sameAbove Mod.sameAbove_refl Mod.sameAbove_trans f h xs m
theorem Mod.sameAbove_wr (m : Mod) {a : Nat} (v : W64) (h : a < bLNK) : m.sameAbove (m.wr a v) := fun _ hb => Mod.rd_wr_ne m v (by omega)
theorem Mod.sameAbove_askRange (m : Mod) (pa : Nat) (write partialW : Bool) (k : Nat) : m.sameAbove (m.askRange pa write partialW k) := by
  unfold Mod.askRange
  dsimp only
  split_ifs
  · exact Mod.sameAbove_wr m _ (by have := m.place_spool_lt pa; simp only [bSPL, bLNK]; omega)
  · exact Mod.sameAbove_of_bar0 rfl
theorem Mod.sameAbove_pncPut (m : Mod) (la age : Nat) (dirty : Bool) : m.sameAbove (m.pncPut la age dirty) := by
  unfold Mod.pncPut
  dsimp only
  split
  · exact Mod.sameAbove_of_bar0 rfl
  · split
    · split_ifs
      · refine Mod.sameAbove_trans (Mod.sameAbove_wr _ _ ?_) (Mod.sameAbove_askRange _ _ _ _ _)
        have := m.homePanel_lt la
        simp only [bPNC, bLNK]; omega
      · exact Mod.sameAbove_of_bar0 rfl
    · exact Mod.sameAbove_of_bar0 rfl
theorem Mod.sameAbove_setDir (m : Mod) (la : Nat) (e : DirEntry) : m.sameAbove (m.setDir la e) := by
  unfold Mod.setDir
  repeat' split
  all_goals exact Mod.sameAbove_of_bar0 rfl
theorem Mod.sameAbove_lostLine (m : Mod) (c la : Nat) : m.sameAbove (m.lostLine c la) := by
  unfold Mod.lostLine
  split_ifs
  · refine Mod.sameAbove_trans (Mod.sameAbove_of_bar0 rfl) (Mod.sameAbove_wr _ _ ?_)
    have := Mod.linePanel_lt (m.updMem c fun k => { k with lostM := k.lostM.filter (· != la) }) la
    simp only [bPNC, bLNK]; omega
  · exact Mod.sameAbove_refl m
theorem Mod.sameAbove_takeBack (m : Mod) (c la : Nat) : m.sameAbove (m.takeBack c la) := by
  unfold Mod.takeBack
  dsimp only
  have h : m.sameAbove ((m.lostLine c la).updMem c fun k => k.setState la .i) := Mod.sameAbove_trans (Mod.sameAbove_lostLine m c la) (Mod.sameAbove_of_bar0 rfl)
  split_ifs
  · exact Mod.sameAbove_trans h (Mod.sameAbove_pncPut _ la 1 true)
  · exact h
theorem Mod.sameAbove_dropCopies (m : Mod) (la : Nat) : m.sameAbove (m.dropCopies la) := by
  unfold Mod.dropCopies
  split_ifs
  · exact Mod.sameAbove_refl m
  · exact Mod.sameAbove_trans (Mod.sameAbove_foldl _ (fun m c => Mod.sameAbove_takeBack m c la) _ m) (Mod.sameAbove_setDir _ la {})
theorem Mod.sameAbove_askWrite (m : Mod) (la lo hi : Nat) : m.sameAbove (m.askWrite la lo hi) := by
  unfold Mod.askWrite
  split_ifs
  · exact Mod.sameAbove_askRange m _ true _ _
  · refine Mod.sameAbove_foldl _ (fun m b => ?_) _ m
    dsimp only
    split_ifs
    · exact Mod.sameAbove_refl m
    · exact Mod.sameAbove_askRange m _ _ _ _
    · exact Mod.sameAbove_askRange m _ _ _ _
theorem Mod.sameAbove_wrLine (m : Mod) (pa : Nat) (bs : List Byte) : m.sameAbove (m.wrLine pa bs) := by
  unfold Mod.wrLine
  split
  · exact Mod.sameAbove_wr m _ (by have := m.place_spool_lt pa; simp only [bSPL, bLNK]; omega)
  · exact Mod.sameAbove_of_bar0 ((Mod.cleanLines_keeps _ _ _).2.trans (Mod.clearTags_keeps _ _ _).2)
theorem Mod.sameAbove_wrMem (m : Mod) (pa : Nat) (bs : List Byte) : m.sameAbove (m.wrMem pa bs) := by
  unfold Mod.wrMem
  dsimp only
  split
  · exact Mod.sameAbove_foldl _ (fun m i => Mod.sameAbove_wrLine m _ _) _ m
  · exact Mod.sameAbove_of_bar0 ((Mod.cleanLines_keeps _ _ _).2.trans (Mod.clearTags_keeps _ _ _).2)
/-- A write of an agent that caches nothing counts nothing above the registers of the links. -/
theorem Mod.sameAbove_ncWrite (m : Mod) (pa : Nat) (bs : List Byte) (alloc : Bool) : m.sameAbove (m.ncWrite pa bs alloc) := by
  unfold Mod.ncWrite
  split
  · refine Mod.sameAbove_trans (Mod.sameAbove_foldl _ (fun m la => ?_) _ m) (Mod.sameAbove_wrMem _ pa bs)
    dsimp only
    split_ifs
    · exact Mod.sameAbove_dropCopies m la
    · exact Mod.sameAbove_trans (Mod.sameAbove_dropCopies m la) (Mod.sameAbove_pncPut _ la 1 true)
    · exact Mod.sameAbove_trans (Mod.sameAbove_dropCopies m la) (Mod.sameAbove_askWrite _ la _ _)
  · exact Mod.sameAbove_wrMem m pa bs

end Sys2Proof.Machine
end

section
/-! The fault queue: posts, joins, replies; and shoot-downs (R420, R421, R426 to R433). -/

namespace Sys2Proof.Machine

/-! ## Bytes that a write leaves -/

/-- Bytes read where each is known. -/
theorem Mod.rdMem_of_bytes {t : Mod} {pa n : Nat} {bs : List Byte} (hn : bs.length = n) (h : ∀ i, i < n → Memory.byte t.mem (pa + i) = bs.getD i 0) :
    t.rdMem pa n = bs := by
  subst hn
  refine List.ext_getElem (Memory.bytes_length _ _ _) fun i h1 h2 => ?_
  have hb : (t.rdMem pa bs.length).getD i 0 = Memory.byte t.mem (pa + i) := Memory.bytes_getD t.mem pa bs.length i h2
  rw [List.getD_eq_getElem _ _ h1] at hb
  rw [hb, h i h2, List.getD_eq_getElem _ _ h2]
/-- A write's first bytes, read where later writes do not lie. -/
theorem Mod.wrote.rdMem_take {m t : Mod} {pa : Nat} {bs : List Byte} (h : m.wrote t pa bs) {n : Nat} (hn : n ≤ bs.length) : t.rdMem pa n = bs.take n := by
  refine Mod.rdMem_of_bytes (by rw [List.length_take]; omega) fun i hi => ?_
  rw [h, if_pos (by omega), Nat.add_sub_cancel_left]
  simp [List.getD_eq_getElem?_getD, List.getElem?_take, hi]
theorem Mod.wrote.rdMem_apart {m t : Mod} {pa : Nat} {bs : List Byte} (h : m.wrote t pa bs) {q n : Nat} (ha : q + n ≤ pa ∨ pa + bs.length ≤ q) :
    t.rdMem q n = m.rdMem q n := by
  refine Mod.rdMem_of_bytes (Memory.bytes_length _ _ _) fun i hi => ?_
  rw [h, if_neg (by omega)]
  exact (Memory.bytes_getD m.mem q n i hi).symm
theorem Mod.rangeFenced_none {m : Mod} (h : m.spl.fenced = []) (pa n : Nat) : m.rangeFenced pa n = false := by
  simp [Mod.rangeFenced, Mod.lineFenced, h]

/-! ## Posts -/

theorem Mod.fire_keeps (m : Mod) (p n : Nat) (src : FireSrc) : (m.fire p n src).bar0 = m.bar0 ∧ (m.fire p n src).mem = m.mem ∧ (m.fire p n src).xlt = m.xlt := by
  unfold Mod.fire
  split <;> exact ⟨rfl, rfl, rfl⟩
/-- The registers of the queue as a post leaves them (R429): tail, event and count. -/
theorem Mod.queued_shows (u : Mod) (p n tail : Nat) : ∃ t,
    ((((u.wrf (bXLT p + 0x88) 31 0 (tail + 1)).fire p n (.queue p)).raise (bXLT p + 0xA0) 0).flqCnt p 0).prtVector p = t ∧
      t.rdf (bXLT p + 0x88) 31 0 = (tail + 1) % 2 ^ 32 ∧ t.rdf (bXLT p + 0xA0) 0 0 = 1 ∧ u.tallied t (bXLT p + 0xC0) 1 ∧ t.mem = u.mem ∧ t.xlt = u.xlt := by
  obtain ⟨u1, h1⟩ : ∃ v, v = u.wrf (bXLT p + 0x88) 31 0 (tail + 1) := ⟨_, rfl⟩
  obtain ⟨u2, h2⟩ : ∃ v, v = u1.fire p n (.queue p) := ⟨_, rfl⟩
  obtain ⟨u3, h3⟩ : ∃ v, v = u2.raise (bXLT p + 0xA0) 0 := ⟨_, rfl⟩
  obtain ⟨u4, h4⟩ : ∃ v, v = u3.inc (bXLT p + 0xC0) := ⟨_, rfl⟩
  obtain ⟨hf, hfm, hfx⟩ := u1.fire_keeps p n (.queue p)
  rw [← h2] at hf hfm hfx
  have ho := u4.outward_prtVector p
  have h5 (a : Nat) (ha : a ≠ bPRT p + 0x28) (hi lo : Nat) : (u4.prtVector p).rdf a hi lo = u4.rdf a hi lo := ho.rdf ha hi lo
  have r4 (a : Nat) (ha : a ≠ bXLT p + 0xC0) (hi lo : Nat) : u4.rdf a hi lo = u3.rdf a hi lo := by rw [h4]; exact congrArg (fld · hi lo) (Mod.rd_incBy_ne u3 1 ha)
  have r3 (a : Nat) (ha : a ≠ bXLT p + 0xA0) (hi lo : Nat) : u3.rdf a hi lo = u2.rdf a hi lo := by rw [h3]; exact congrArg (fld · hi lo) (Mod.rd_wrf_ne u2 _ _ _ ha)
  have r2 (a hi lo : Nat) : u2.rdf a hi lo = u1.rdf a hi lo := congrArg (fun b => fld (barVal b a) hi lo) hf
  have r1 (a : Nat) (ha : a ≠ bXLT p + 0x88) (hi lo : Nat) : u1.rdf a hi lo = u.rdf a hi lo := by rw [h1]; exact congrArg (fld · hi lo) (Mod.rd_wrf_ne u _ _ _ ha)
  refine ⟨u4.prtVector p, by rw [h4, h3, h2, h1]; rfl, ?_, ?_, ?_, ?_, ?_⟩
  · rw [h5 _ (by simp only [bXLT]; omega), r4 _ (by omega), r3 _ (by omega), r2, h1]
    exact Mod.rdf_wrf_self _ _ _ _ _ (by decide)
  · rw [h5 _ (by simp only [bXLT]; omega), r4 _ (by omega), h3]
    exact Mod.rdf_raise_self _ _ _ (by decide)
  · have hc := Mod.tallied_inc u3 (bXLT p + 0xC0)
    rw [← h4] at hc
    unfold Mod.tallied at hc ⊢
    rw [h5 _ (by simp only [bXLT]; omega), hc, r3 _ (by omega), r2, r1 _ (by omega)]
  · rw [ho.same (·.mem), h4, show (u3.inc (bXLT p + 0xC0)).mem = u3.mem from rfl, h3, show (u2.raise (bXLT p + 0xA0) 0).mem = u2.mem from rfl, hfm, h1]; rfl
  · rw [ho.same (·.xlt), h4, show (u3.inc (bXLT p + 0xC0)).xlt = u3.xlt from rfl, h3, show (u2.raise (bXLT p + 0xA0) 0).xlt = u2.xlt from rfl, hfx, h1]; rfl
/-- The slot that a post fills (R427). -/
def FaultReq.asSlot (f : FaultReq) (seq : Nat) : FltSlot :=
  { va := f.va, seq := seq, accs := accBits f.acc ||| f.accs, causes := f.cause, level := f.level, waiters := f.unit :: f.joined }
/-- A post outside fenced spools (R427, R429). -/
theorem Mod.flqPost_shows {m : Mod} {f : FaultReq} {slot : Nat} (hslot : slot < 1024) (hf : m.spl.fenced = []) : ∃ t, m.flqPost f slot = t ∧
    let p := f.part
    let tail := m.rdf (bXLT p + 0x88) 31 0
    t.rdf (bXLT p + 0x88) 31 0 = (tail + 1) % 2 ^ 32 ∧ t.rdf (bXLT p + 0xA0) 0 0 = 1 ∧ m.tallied t (bXLT p + 0xC0) 1 ∧
      t.rdMem (m.flqBase p + 32 * slot) 12 = toLe 8 (f.va % 2 ^ 48) ++ toLe 4 tail ∧
      t.rdMem (m.flqBase p + 0x8000 + 4 * (tail % 1024)) 4 = toLe 4 (slot + tail % 2 ^ 22 * 2 ^ 10) ∧
      t.xlt = { m.xlt with slots := Tab.put m.xlt.slots (1024 * p + slot) (f.asSlot tail) } := by
  dsimp only
  obtain ⟨x, hx⟩ : ∃ x, x = f.asSlot (m.rdf (bXLT f.part + 0x88) 31 0) := ⟨_, rfl⟩
  obtain ⟨rest, hrest⟩ : ∃ r, r = toLe 4 x.word0C ++ toLe 4 f.word10 ++ toLe 4 0 ++ toLe 8 (f.pte % 2 ^ 46) := ⟨_, rfl⟩
  obtain ⟨bytes, hbytes⟩ : ∃ b, b = (toLe 8 (f.va % 2 ^ 48) ++ toLe 4 (m.rdf (bXLT f.part + 0x88) 31 0)) ++ rest := ⟨_, rfl⟩
  have hlen : bytes.length = 32 := by rw [hbytes, hrest]; simp
  obtain ⟨word, hword⟩ : ∃ w, w = toLe 4 (slot + m.rdf (bXLT f.part + 0x88) 31 0 % 2 ^ 22 * 2 ^ 10) := ⟨_, rfl⟩
  have hwlen : word.length = 4 := by rw [hword]; simp
  obtain ⟨m1, hm1⟩ : ∃ u, u = { m with xlt := { m.xlt with slots := Tab.put m.xlt.slots (1024 * f.part + slot) x } } := ⟨_, rfl⟩
  have hbase : m1.flqBase f.part = m.flqBase f.part := by rw [hm1]; rfl
  obtain ⟨a1, ha1⟩ : ∃ u, u = m1.ncWrite (m.flqBase f.part + 32 * slot) bytes := ⟨_, rfl⟩
  obtain ⟨a2, ha2⟩ : ∃ u, u = a1.ncWrite (m.flqBase f.part + 0x8000 + 4 * (m.rdf (bXLT f.part + 0x88) 31 0 % 1024)) word := ⟨_, rfl⟩
  have hc1 : m1.chores a1 := by rw [ha1]; exact Mod.chores_ncWrite _ _ _ _
  have hc2 : a1.chores a2 := by rw [ha2]; exact Mod.chores_ncWrite _ _ _ _
  have hf1 : m1.spl.fenced = [] := by rw [hm1]; exact hf
  have hw1 : m1.wrote a1 (m.flqBase f.part + 32 * slot) bytes := by rw [ha1]; exact (Mod.wrote_ncWrite (Mod.rangeFenced_none hf1 _ _)).1
  have hw2 : a1.wrote a2 (m.flqBase f.part + 0x8000 + 4 * (m.rdf (bXLT f.part + 0x88) 31 0 % 1024)) word := by
    rw [ha2]; exact (Mod.wrote_ncWrite (Mod.rangeFenced_none (hc1.fenced.trans hf1) _ _)).1
  have hr : m1.sameAbove a2 := Mod.sameAbove_trans (t := a1) (by rw [ha1]; exact Mod.sameAbove_ncWrite _ _ _ _) (by rw [ha2]; exact Mod.sameAbove_ncWrite _ _ _ _)
  obtain ⟨t, ht, htail, hev, hcnt, hmem, hxlt⟩ := a2.queued_shows f.part (a2.rdf (bXLT f.part + 0x80) 15 0) (m.rdf (bXLT f.part + 0x88) 31 0)
  refine ⟨t, ?_, htail, hev, ?_, ?_, ?_, ?_⟩
  · rw [← ht, ha2, ha1, hword, hbytes, hrest, ← hbase, hm1, hx]
    unfold Mod.flqPost
    simp only [List.append_assoc]
    rfl
  · have h1 : a2.rd (bXLT f.part + 0xC0) = m.rd (bXLT f.part + 0xC0) := (hr _ (by simp only [bXLT, bPRT, bLNK]; omega)).trans (by rw [hm1]; rfl)
    unfold Mod.tallied at hcnt ⊢
    rw [hcnt, Mod.rdf, h1]; rfl
  · rw [Mod.rdMem, hmem]
    refine (hw2.rdMem_apart (.inl (by omega))).trans ((hw1.rdMem_take (by omega)).trans ?_)
    rw [hbytes]
    exact List.take_left' (by simp)
  · rw [Mod.rdMem, hmem]
    refine (hw2.rdMem_take (by omega)).trans ?_
    rw [List.take_of_length_le (by omega), hword]
  · rw [hxlt, hc2.same (·.xlt), hc1.same (·.xlt), hm1, hx]

end Sys2Proof.Machine
end

section
/-! Arrival of faults, replies, waiters and shoot-downs (R420 to R434). -/

namespace Sys2Proof.Machine

/-! ## Arrivals -/

theorem Mod.flqRoom_congr {m t : Mod} (hb : t.bar0 = m.bar0) (hs : t.xlt.slots = m.xlt.slots) (p : Nat) : t.flqRoom p = m.flqRoom p := by
  have hr (a hi lo : Nat) : t.rdf a hi lo = m.rdf a hi lo := congrArg (fun b => fld (barVal b a) hi lo) hb
  have hq : t.flqSlots p = m.flqSlots p := by unfold Mod.flqSlots; rw [hs]
  unfold Mod.flqRoom
  rw [hq, hr, hr]
section
variable {m : Mod} {k : Nat} {f : FaultReq} (hk : m.xlt.flying[k]? = some f)
include hk
theorem Mod.faultArrival_joins {i : Nat} {x : FltSlot} (h : (m.flqSlots f.part).find? (fun e => e.2.va / 2 ^ 16 == f.va / 2 ^ 16) = some (i, x)) :
    ∃ t, m.faultArrival k = t ∧ t.xlt.flying = m.xlt.flying.eraseIdx k ∧ m.tallied t (bXLT f.part + 0xC0 + 8) 1 ∧
      Tab.get? t.xlt.slots (1024 * f.part + i) =
        some { x with accs := x.accs ||| accBits f.acc, causes := x.causes ||| f.cause, waiters := x.waiters ++ [f.unit] } := by
  obtain ⟨y, hy⟩ : ∃ y : FltSlot, y = { x with accs := x.accs ||| accBits f.acc, causes := x.causes ||| f.cause, waiters := x.waiters ++ [f.unit] } := ⟨_, rfl⟩
  obtain ⟨m1, hm1⟩ : ∃ u : Mod, u = { m with xlt := { m.xlt with
    flying := dropAt m.xlt.flying k, slots := Tab.put m.xlt.slots (1024 * f.part + i) y } } := ⟨_, rfl⟩
  obtain ⟨m2, hm2⟩ : ∃ u, u = m1.ncWrite (m1.flqBase f.part + 32 * i + 0x0C) (toLe 4 y.word0C) := ⟨_, rfl⟩
  have hc : m1.chores m2 := by rw [hm2]; exact Mod.chores_ncWrite _ _ _ _
  have hr : m1.sameAbove m2 := by rw [hm2]; exact Mod.sameAbove_ncWrite _ _ _ _
  have hx : (m2.flqCnt f.part 1).xlt = m1.xlt := hc.same (·.xlt)
  refine ⟨m2.flqCnt f.part 1, ?_, ?_, ?_, ?_⟩
  · rw [hm2, hm1, hy]
    unfold Mod.faultArrival
    obtain ⟨room, hroom⟩ : ∃ r, r = Mod.flqRoom := ⟨_, rfl⟩
    rw [← hroom, hk]
    dsimp only
    rw [show (({ m with xlt := { m.xlt with flying := dropAt m.xlt.flying k } } : Mod).flqSlots f.part) = m.flqSlots f.part from rfl, h]
  · rw [hx, hm1]; rfl
  · have h1 : m2.rdf (bXLT f.part + 0xC0 + 8) 47 0 = m.rdf (bXLT f.part + 0xC0 + 8) 47 0 :=
      congrArg (fld · 47 0) ((hr _ (by simp only [bXLT, bPRT, bLNK]; omega)).trans (by rw [hm1]; rfl))
    have h2 := Mod.tallied_inc m2 (bXLT f.part + 0xC0 + 8)
    unfold Mod.tallied at h2 ⊢
    rw [h1] at h2
    exact h2
  · rw [hx, hm1, ← hy]; exact Tab.get?_put_self _ _ _

variable (hnew : (m.flqSlots f.part).find? (fun e => e.2.va / 2 ^ 16 == f.va / 2 ^ 16) = none) (hparked : ∀ g, g ∈ m.xlt.parked → g.part ≠ f.part)
include hnew hparked
theorem Mod.faultArrival_alone {m0 : Mod} (hm0 : m0 = { m with xlt := { m.xlt with flying := dropAt m.xlt.flying k } }) :
    (∀ slot, m.flqRoom f.part = some slot → m.faultArrival k = if m.heldBack (.queue f.part) then m else m0.flqPost f slot) ∧
      (m.flqRoom f.part = none → m.faultArrival k = ({ m0 with xlt := { m0.xlt with parked := m0.xlt.parked ++ [f] } }).flqCnt f.part 2) := by
  have hno : firstIx (fun g => g.part == f.part && g.va / 2 ^ 16 == f.va / 2 ^ 16) m.xlt.parked = none := by
    refine List.findIdx?_eq_none_iff.mpr fun g hg => ?_
    rw [beq_false_of_ne (hparked g hg), Bool.false_and]
  have hroom : m0.flqRoom f.part = m.flqRoom f.part := by rw [hm0]; exact Mod.flqRoom_congr rfl rfl _
  unfold Mod.faultArrival
  rw [← hroom]
  obtain ⟨room, hR⟩ : ∃ r, r = Mod.flqRoom := ⟨_, rfl⟩
  rw [← hR, hk]
  dsimp only
  rw [show (({ m with xlt := { m.xlt with flying := dropAt m.xlt.flying k } } : Mod).flqSlots f.part) = m.flqSlots f.part from rfl, hnew]
  dsimp only
  rw [hno, ← hm0]
  dsimp only
  refine ⟨fun slot h => ?_, fun h => ?_⟩
  · rw [h, show m0.heldBack (.queue f.part) = m.heldBack (.queue f.part) by rw [hm0]; rfl]
  · rw [h, hm0]
theorem Mod.faultArrival_posts {slot : Nat} (hroom : m.flqRoom f.part = some slot) (hheld : m.heldBack (.queue f.part) = false) (hf : m.spl.fenced = []) :
    ∃ t, m.faultArrival k = t ∧ t.xlt.flying = m.xlt.flying.eraseIdx k ∧
      let p := f.part
      let tail := m.rdf (bXLT p + 0x88) 31 0
      t.rdf (bXLT p + 0x88) 31 0 = (tail + 1) % 2 ^ 32 ∧ t.rdf (bXLT p + 0xA0) 0 0 = 1 ∧ m.tallied t (bXLT p + 0xC0) 1 ∧
        t.rdMem (m.flqBase p + 32 * slot) 12 = toLe 8 (f.va % 2 ^ 48) ++ toLe 4 tail ∧
        t.rdMem (m.flqBase p + 0x8000 + 4 * (tail % 1024)) 4 = toLe 4 (slot + tail % 2 ^ 22 * 2 ^ 10) ∧
        ∃ x, Tab.get? t.xlt.slots (1024 * p + slot) = some x ∧ x.va = f.va ∧ x.seq = tail ∧ x.waiters = f.unit :: f.joined := by
  have hslot : slot < 1024 := by
    unfold Mod.flqRoom at hroom
    dsimp only at hroom
    split at hroom
    · exact mem_upto.mp (List.mem_of_find?_eq_some hroom)
    · cases hroom
  obtain ⟨m0, hm0⟩ : ∃ u : Mod, u = { m with xlt := { m.xlt with flying := dropAt m.xlt.flying k } } := ⟨_, rfl⟩
  obtain ⟨t, ht, htail, hev, hcnt, hmem, hring, hxlt⟩ := Mod.flqPost_shows (m := m0) (f := f) hslot (by rw [hm0]; exact hf)
  have h0 : m0.bar0 = m.bar0 := by rw [hm0]
  have hx0 : m0.xlt = { m.xlt with flying := dropAt m.xlt.flying k } := by rw [hm0]
  have hr (a hi lo : Nat) : m0.rdf a hi lo = m.rdf a hi lo := congrArg (fun b => fld (barVal b a) hi lo) h0
  have hb : m0.flqBase f.part = m.flqBase f.part := by unfold Mod.flqBase; rw [hr]
  rw [hr] at htail hmem hring hxlt
  rw [hb] at hmem hring
  refine ⟨t, ?_, by rw [hxlt, hx0]; rfl, htail, hev, ?_, hmem, hring, f.asSlot _, ?_, rfl, rfl, rfl⟩
  · rw [← ht, (Mod.faultArrival_alone hk hnew hparked hm0).1 slot hroom, hheld, if_neg (by decide)]
  · unfold Mod.tallied at hcnt ⊢
    rw [hcnt, hr]
  · rw [hxlt]; exact Tab.get?_put_self _ _ _
theorem Mod.faultArrival_parks (hroom : m.flqRoom f.part = none) : ∃ t, m.faultArrival k = t ∧ t.xlt.flying = m.xlt.flying.eraseIdx k ∧
    t.xlt.parked = m.xlt.parked ++ [f] ∧ m.tallied t (bXLT f.part + 0xC0 + 16) 1 ∧ t.mem = m.mem := by
  obtain ⟨m1, hm1⟩ : ∃ u : Mod, u = { m with xlt := { m.xlt with flying := dropAt m.xlt.flying k, parked := m.xlt.parked ++ [f] } } := ⟨_, rfl⟩
  have hc := Mod.tallied_inc m1 (bXLT f.part + 0xC0 + 16)
  have hx : (m1.flqCnt f.part 2).xlt = m1.xlt := rfl
  have hm : (m1.flqCnt f.part 2).mem = m1.mem := rfl
  refine ⟨m1.flqCnt f.part 2, ?_, by rw [hx, hm1]; rfl, by rw [hx, hm1], ?_, by rw [hm, hm1]⟩
  · rw [(Mod.faultArrival_alone hk hnew hparked rfl).2 hroom, hm1]
  · rw [hm1] at hc ⊢
    exact hc
end

/-! ## Replies -/

theorem Mod.flqUnpark_none {m : Mod} (h : m.xlt.parked = []) (p n : Nat) : m.flqUnpark p n = m := by
  have hm : { m with xlt := { m.xlt with parked := [] } } = m := by rw [← h]
  rw [← hm]
  cases n <;> rfl
theorem Mod.flqReply_accepts {m : Mod} {p : Nat} {v : W64} {y : FltSlot} (hy : Tab.get? m.xlt.slots (1024 * p + fld v 41 32) = some y) (hseq : y.seq = fld v 31 0)
    (hcode : fld v 63 62 < 2) (hparked : m.xlt.parked = []) :
    (m.flqReply p v).xlt.slots = Tab.del m.xlt.slots (1024 * p + fld v 41 32) ∧ m.tallied (m.flqReply p v) (bXLT p + 0xC0 + 32) 1 ∧
      (m.flqReply p v).xlt.releases = m.xlt.releases ++ [{ part := p, code := fld v 63 62, waiters := y.waiters }] := by
  obtain ⟨r, hr⟩ : ∃ r : Release, r = { part := p, code := fld v 63 62, waiters := y.waiters } := ⟨_, rfl⟩
  obtain ⟨m1, hm1⟩ : ∃ u : Mod, u = { m with xlt := { m.xlt with
    slots := Tab.del m.xlt.slots (1024 * p + fld v 41 32), releases := m.xlt.releases ++ [r] } } := ⟨_, rfl⟩
  have heq : m.flqReply p v = m1.flqCnt p 4 := by
    unfold Mod.flqReply
    dsimp only
    rw [hy]
    dsimp only
    rw [if_neg (by omega), ← hr, ← hm1]
    exact Mod.flqUnpark_none (show (m1.flqCnt p 4).xlt.parked = [] by rw [hm1]; exact hparked) p 1024
  have hc := Mod.tallied_inc m1 (bXLT p + 0xC0 + 32)
  rw [heq, ← hr]
  refine ⟨by rw [show (m1.flqCnt p 4).xlt = m1.xlt from rfl, hm1], ?_, by rw [show (m1.flqCnt p 4).xlt = m1.xlt from rfl, hm1]⟩
  rw [hm1] at hc ⊢
  exact hc
theorem Mod.flqReply_refuses {m : Mod} {p : Nat} {v : W64} (h : Tab.get? m.xlt.slots (1024 * p + fld v 41 32) = none ∨
      ∃ y, Tab.get? m.xlt.slots (1024 * p + fld v 41 32) = some y ∧ (y.seq ≠ fld v 31 0 ∨ 2 ≤ fld v 63 62)) :
    (m.flqReply p v).xlt = m.xlt ∧ (m.flqReply p v).rdf (bXLT p + 0xA0) 2 2 = 1 ∧ m.tallied (m.flqReply p v) (bXLT p + 0xC0 + 24) 1 := by
  have heq : m.flqReply p v = ((m.raise (bXLT p + 0xA0) 2).flqCnt p 3).prtVector p := by
    unfold Mod.flqReply
    dsimp only
    rcases h with h | ⟨y, h, hbad⟩
    · rw [h]
    · rw [h]; exact if_pos hbad
  obtain ⟨m1, hm1⟩ : ∃ u, u = m.raise (bXLT p + 0xA0) 2 := ⟨_, rfl⟩
  obtain ⟨m2, hm2⟩ : ∃ u, u = m1.inc (bXLT p + 0xC0 + 24) := ⟨_, rfl⟩
  rw [heq, ← hm1, show m1.flqCnt p 3 = m2 from hm2.symm]
  have ho := m2.outward_prtVector p
  refine ⟨?_, ?_, ?_⟩
  · rw [ho.same (·.xlt), hm2, show (m1.inc (bXLT p + 0xC0 + 24)).xlt = m1.xlt from rfl, hm1]; rfl
  · rw [ho.rdf (by simp only [bXLT]; omega), hm2, Mod.rdf, Mod.inc, Mod.rd_incBy_ne m1 1 (by omega), hm1]
    exact Mod.rdf_raise_self _ _ _ (by decide)
  · have hc := Mod.tallied_inc m1 (bXLT p + 0xC0 + 24)
    rw [← hm2] at hc
    unfold Mod.tallied at hc ⊢
    rw [ho.rdf (by simp only [bXLT]; omega), hc, hm1]
    rw [Mod.rdf, Mod.raise, Mod.rd_wrf_ne m _ _ _ (by omega)]; rfl

end Sys2Proof.Machine
end

section
/-! Walks of a core, what they install and how they fail; waiters released; shoot-downs (R412 to R434). -/

namespace Sys2Proof.Machine

/-! ## Ways -/

/-- Raised ages leave each key at its place. -/
theorem Tab.get?_raised {α : Type} (t : Tab (Way α)) (base n k b : Nat) :
    (Tab.get? (t.map fun p => if base ≤ p.1 ∧ p.1 < base + n then (p.1, { p.2 with age := p.2.age + k }) else p) b).map (·.key) = (Tab.get? t b).map (·.key) := by
  have hmap : (t.map fun p => if base ≤ p.1 ∧ p.1 < base + n then (p.1, { p.2 with age := p.2.age + k }) else p) =
      Tab.mapV t fun i w => if base ≤ i ∧ i < base + n then { w with age := w.age + k } else w := by
    unfold Tab.mapV
    refine List.map_congr_left fun p _ => ?_
    dsimp only
    split <;> rfl
  rw [hmap, Tab.get?_mapV, Option.map_map]
  refine congrArg (Option.map · _) (funext fun w => ?_)
  dsimp only [Function.comp]
  split <;> rfl
theorem pickWay_get? {α : Type} (t : Tab (Way α)) (base n b : Nat) : (Tab.get? (pickWay t base n).2 b).map (·.key) = (Tab.get? t b).map (·.key) := by
  unfold pickWay
  split
  · rfl
  · exact Tab.get?_raised t base n _ b
theorem pickWay_within {α : Type} (t : Tab (Way α)) {base n : Nat} (hn : 0 < n) : ∃ i, i < n ∧ (pickWay t base n).1 = base + i := by
  unfold pickWay
  split
  · next i h => exact ⟨i, mem_upto.mp (List.mem_of_find?_eq_some h), rfl⟩
  · dsimp only
    refine ⟨_, ?_, rfl⟩
    cases h : (upto n).find? _ with
    | none => exact hn
    | some i => exact mem_upto.mp (List.mem_of_find?_eq_some h)
/-- What has been inserted is found. -/
theorem findWay_insWay {α : Type} {t : Tab (Way α)} {base n key : Nat} (age : Nat) (v : α) (hn : 0 < n) (h : findWay t base n key = none) :
    (findWay (insWay t base n key age v).1 base n key).map (fun w => w.2.val) = some v := by
  obtain ⟨i, hi, hpick⟩ := pickWay_within t (base := base) hn
  have hno : ∀ j, j < n → j ≠ i → ∀ w, Tab.get? (insWay t base n key age v).1 (base + j) = some w → w.key ≠ key := by
    intro j hj hne w hw hkey
    unfold insWay at hw
    dsimp only at hw
    rw [hpick, Tab.get?_put, if_neg (by omega)] at hw
    have hk := pickWay_get? t base n (base + j)
    rw [hw] at hk
    obtain ⟨w', hw', hk'⟩ := Option.map_eq_some_iff.mp hk.symm
    unfold findWay at h
    have hj' := List.findSome?_eq_none_iff.mp h j (mem_upto.mpr hj)
    rw [hw'] at hj'
    dsimp only at hj'
    rw [if_pos (hk'.trans hkey)] at hj'
    cases hj'
  have hself : Tab.get? (insWay t base n key age v).1 (base + i) = some { key := key, age := age, val := v } := by
    unfold insWay
    dsimp only
    rw [hpick]
    exact Tab.get?_put_self _ _ _
  cases hf : findWay (insWay t base n key age v).1 base n key with
  | none =>
    unfold findWay at hf
    have := List.findSome?_eq_none_iff.mp hf i (mem_upto.mpr hi)
    rw [hself] at this
    simp at this
  | some q =>
    unfold findWay at hf
    obtain ⟨j, hj, hq⟩ := List.exists_of_findSome?_eq_some hf
    by_cases hij : j = i
    · subst hij
      rw [hself] at hq
      simp only [if_true] at hq
      cases hq
      rfl
    · split at hq
      · next w hw =>
        rw [if_neg (hno j (mem_upto.mp hj) hij w hw)] at hq
        cases hq
      · cases hq

/-! ## Walks -/

theorem Mod.stlbInstall_keeps (m : Mod) (panel : Nat) (l : Leaf) : { m.stlbInstall panel l with xlt := m.xlt } = m := by
  unfold Mod.stlbInstall
  dsimp only
  split <;> rfl
/-- A core takes a leaf into its own translations, where it has none of the page. -/
theorem Mod.l1Install_shows (m : Mod) (c : Nat) (l : Leaf) (h : findWay (m.core c).mem.tlb 0 64 (tlbKey l.part l.level l.vpn) = none) :
    (findWay ((m.l1Install c l).core c).mem.tlb 0 64 (tlbKey l.part l.level l.vpn)).map (fun w => w.2.val) = some l := by
  unfold Mod.l1Install
  rw [Mod.updMem, Mod.core_updCore_self]
  dsimp only
  rw [h]
  exact findWay_insWay 1 l (by decide) h
/-- A walk for a core: its reads and counts, and then the leaf or the failure. -/
theorem Mod.walkDo_eq {m : Mod} (hu : m.coh.upsets = []) (panel p c va : Nat) : ∃ u m3, (u = m ∨ u = m.inc (bXLT p + 0x40)) ∧ u.traffic m3 ∧ u.sameTlbs m3 ∧
    m.walkDo panel p (some c) va = (m.walk p va, match m.walk p va with
      | .leaf l _ => (m3.stlbInstall panel l).l1Install c l
      | .fail .. => m3.inc (bXLT p + 0x48)) := by
  obtain ⟨reads, hreads⟩ : ∃ r, r = walkReads m p va 4 0 (m.rdf (bXLT p) 45 15 * 2 ^ 15) := ⟨_, rfl⟩
  obtain ⟨u, hu'⟩ : ∃ u, u = if reads.isEmpty then m else m.inc (bXLT p + 0x40) := ⟨_, rfl⟩
  obtain ⟨m1, hm1⟩ : ∃ v, v = if reads.isEmpty then m else (m.inc (bXLT p + 0x40)).evPanel panel 0x0A 1 (some p) := ⟨_, rfl⟩
  have h1 : u.traffic m1 ∧ u.sameTlbs m1 := by
    rw [hu', hm1]
    split
    · exact ⟨Mod.traffic_refl m, Mod.sameTlbs_refl m⟩
    · exact ⟨Mod.traffic_evPanel _ _ _ _ _, Mod.sameTlbs_of_onlyBar (Mod.onlyBar_evPanel _ _ _ _ _)⟩
  have hucalm : u.coh.upsets = [] := by rw [hu']; split <;> exact hu
  have fold : ∀ (xs : List Nat) (v : Mod), v.coh.upsets = [] → v.traffic (xs.foldl (fun (m : Mod) a => (m.ncRead a 8).2) v) ∧
      v.sameTlbs (xs.foldl (fun (m : Mod) a => (m.ncRead a 8).2) v) := by
    intro xs
    induction xs with
    | nil => exact fun v _ => ⟨Mod.traffic_refl v, Mod.sameTlbs_refl v⟩
    | cons x xs ih =>
      intro v hv
      have hx := Mod.traffic_ncRead hv x 8 1
      obtain ⟨g1, g2⟩ := ih _ (hx.upsets.trans hv)
      exact ⟨Mod.traffic_trans hx g1, Mod.sameTlbs_after g2 (Mod.sameTlbs_ncRead hv x 8 1)⟩
  obtain ⟨m2, hm2⟩ : ∃ v, v = reads.foldl (fun (m : Mod) a => (m.ncRead a 8).2) m1 := ⟨_, rfl⟩
  have h2 : u.traffic m2 ∧ u.sameTlbs m2 := by
    obtain ⟨g1, g2⟩ := fold reads m1 (h1.1.upsets.trans hucalm)
    rw [hm2]
    exact ⟨Mod.traffic_trans h1.1 g1, Mod.sameTlbs_after g2 h1.2⟩
  refine ⟨u, (m2.evCore c 0x06 1).evCore c 0x07 1, ?_, ?_, ?_, ?_⟩
  · rw [hu']
    split
    · exact .inl rfl
    · exact .inr rfl
  · exact Mod.traffic_after (Mod.traffic_evCore _ _ _ _) (Mod.traffic_after (Mod.traffic_evCore _ _ _ _) h2.1)
  · have hev (v : Mod) (code : Nat) : v.sameTlbs (v.evCore c code 1) := Mod.sameTlbs_of_onlyBar (Mod.onlyBar_evCore v c code 1)
    exact Mod.sameTlbs_after (hev _ _) (Mod.sameTlbs_after (hev _ _) h2.2)
  · rw [hm2, hm1, hreads]
    unfold Mod.walkDo
    dsimp only
    cases m.walk p va <;> rfl
/-- No core does more than wait no longer, and memory stays. -/
structure Mod.wakes (m t : Mod) : Prop where
  mem : t.mem = m.mem
  cores : ∀ d, t.core d = m.core d ∨ t.core d = { m.core d with wait := .none }
theorem Mod.wakes_refl (m : Mod) : m.wakes m := ⟨rfl, fun _ => .inl rfl⟩
theorem Mod.wakes_trans {m t u : Mod} (h : m.wakes t) (g : t.wakes u) : m.wakes u := by
  refine ⟨g.mem.trans h.mem, fun d => ?_⟩
  rcases h.cores d with h | h <;> rcases g.cores d with g | g <;> rw [g, h]
  · exact .inl rfl
  · exact .inr rfl
  · exact .inr rfl
  · exact .inr rfl
theorem Mod.wakes.idle {m t : Mod} (h : m.wakes t) {d : Nat} (hd : (m.core d).wait = .none) : (t.core d).wait = .none := by
  rcases h.cores d with h | h <;> rw [h]
  exact hd
theorem Mod.wakes.keeps {m t : Mod} (h : m.wakes t) (d : Nat) : (t.core d).bank = (m.core d).bank ∧ (t.core d).mem = (m.core d).mem := by
  rcases h.cores d with h | h <;> rw [h] <;> exact ⟨rfl, rfl⟩
theorem Mod.wakes_walkEnds (m : Mod) (l : Leaf) (pte p : Nat) (w : Nat × Nat × Acc) : m.wakes (m.walkEnds (.leaf l pte) p w) := by
  refine ⟨rfl, fun d => ?_⟩
  unfold Mod.walkEnds
  dsimp only
  by_cases h : d = w.1
  · rw [h, Mod.core_updCore_self]; exact .inr rfl
  · rw [Mod.core_updCore_ne m _ h]; exact .inl rfl
/-- After walks of a granule that found a leaf, the cores that waited for it wait no more. -/
theorem Mod.walkEnds_leaf (l : Leaf) (pte p : Nat) (ws : List (Nat × Nat × Acc)) : ∀ m : Mod,
    m.wakes (ws.foldl (fun (m : Mod) w => m.walkEnds (.leaf l pte) p w) m) ∧
      ∀ w, w ∈ ws → ((ws.foldl (fun (m : Mod) w => m.walkEnds (.leaf l pte) p w) m).core w.1).wait = .none := by
  induction ws with
  | nil => exact fun m => ⟨Mod.wakes_refl m, fun w hw => absurd hw List.not_mem_nil⟩
  | cons x xs ih =>
    intro m
    obtain ⟨hk, hn⟩ := ih (m.walkEnds (.leaf l pte) p x)
    refine ⟨Mod.wakes_trans (Mod.wakes_walkEnds m l pte p x) hk, fun w hw => ?_⟩
    rcases List.mem_cons.mp hw with rfl | hw
    · exact hk.idle (congrArg Core.wait (Mod.core_updCore_self m _ _) :)
    · exact hn w hw
theorem Mod.mem_walkers {m : Mod} {c p va : Nat} {acc : Acc} (hw : (m.core c).wait = .walk va acc) (hp : m.partOf c = some p) :
    (c, va, acc) ∈ m.walkers (panelOf c) p va := by
  unfold Mod.walkers
  refine List.mem_filterMap.mpr ⟨c, List.mem_map.mpr ⟨c % 64, mem_upto.mpr (Nat.mod_lt _ (by decide)), ?_⟩, ?_⟩
  · simp only [panelOf]; omega
  · rw [hw]; exact if_pos ⟨rfl, hp⟩

section
variable {m : Mod} {c : CoreId} {p va : Nat} {acc : Acc} (hw : (m.core c.val).wait = .walk va acc) (hp : m.partOf c.val = some p) (hu : m.coh.upsets = [])
include hw hp hu
theorem Mod.walkCore_eq : ∃ u m3, (u = m ∨ u = m.inc (bXLT p + 0x40)) ∧ u.traffic m3 ∧ u.sameTlbs m3 ∧
    m.walkCore c = (m.walkers (panelOf c.val) p va).foldl (fun (m' : Mod) w => m'.walkEnds (m.walk p va) p w) (match m.walk p va with
      | .leaf l _ => (m3.stlbInstall (panelOf c.val) l).l1Install c.val l
      | .fail .. => m3.inc (bXLT p + 0x48)) := by
  obtain ⟨u, m3, hcase, ht, hs, heq⟩ := Mod.walkDo_eq hu (panelOf c.val) p c.val va
  refine ⟨u, m3, hcase, ht, hs, ?_⟩
  unfold Mod.walkCore
  rw [hw, hp]
  dsimp only
  rw [heq]
theorem Mod.walkCore_leaf {l : Leaf} {pte : Nat} (hr : m.walk p va = .leaf l pte) : (∀ w, w ∈ m.walkers (panelOf c.val) p va → ((m.walkCore c).core w.1).wait = .none) ∧
    ((m.walkCore c).core c.val).wait = .none ∧ ((m.walkCore c).core c.val).bank = (m.core c.val).bank ∧ (m.walkCore c).mem = m.mem ∧
    (findWay (m.core c.val).mem.tlb 0 64 (tlbKey l.part l.level l.vpn) = none →
      (findWay ((m.walkCore c).core c.val).mem.tlb 0 64 (tlbKey l.part l.level l.vpn)).map (fun w => w.2.val) = some l) := by
  obtain ⟨u, m3, hcase, ht, hs, heq⟩ := Mod.walkCore_eq hw hp hu
  rw [hr] at heq
  dsimp only at heq
  obtain ⟨a, ha⟩ : ∃ a, a = m3.stlbInstall (panelOf c.val) l := ⟨_, rfl⟩
  obtain ⟨b, hb⟩ : ∃ b, b = a.l1Install c.val l := ⟨_, rfl⟩
  rw [← ha, ← hb] at heq
  have hum : u.mem = m.mem ∧ u.cores = m.cores := by rcases hcase with rfl | rfl <;> exact ⟨rfl, rfl⟩
  have huc : u.core c.val = m.core c.val := congrArg (fun x => (Tab.get {} x c.val : Core)) hum.2
  have ham : a.mem = m3.mem ∧ a.cores = m3.cores := by
    have h := m3.stlbInstall_keeps (panelOf c.val) l
    rw [← ha] at h
    exact ⟨(congrArg (·.mem) h :), (congrArg (·.cores) h :)⟩
  have hac : a.core c.val = m3.core c.val := congrArg (fun x => (Tab.get {} x c.val : Core)) ham.2
  have hbm : b.mem = a.mem := by rw [hb]; rfl
  have hbc : (b.core c.val).bank = (a.core c.val).bank := by
    rw [hb, Mod.l1Install, Mod.updMem, Mod.core_updCore_self]
  obtain ⟨hk, hn⟩ := Mod.walkEnds_leaf l pte p (m.walkers (panelOf c.val) p va) b
  rw [← heq] at hk hn
  refine ⟨hn, hn _ (Mod.mem_walkers hw hp), ?_, ?_, fun hno => ?_⟩
  · rw [(hk.keeps c.val).1, hbc, hac, ← huc]
    exact (congrArg Core.bank (ht.cores c.val) :)
  · rw [hk.mem, hbm, ham.1, ht.fields.1, hum.1]
  · have htlb : (a.core c.val).mem.tlb = (m.core c.val).mem.tlb := by rw [hac, hs.tlb, huc]
    rw [(hk.keeps c.val).2, hb]
    exact Mod.l1Install_shows a c.val l (by rw [htlb]; exact hno)
theorem Mod.walkCore_fail {cause level pte : Nat} (hr : m.walk p va = .fail cause level pte) (hx : (m.core c.val).excDepth = 0)
    (hone : m.walkers (panelOf c.val) p va = [(c.val, va, acc)]) : (m.walkCore c).mem = m.mem ∧
    (m.rdf (bXLT p + 0x80) 63 63 = 1 → ((m.walkCore c).core c.val).wait = .fault va acc level ∧ ∃ f, (m.walkCore c).xlt.flying = m.xlt.flying ++ [f] ∧ f.part = p ∧
      f.va = va ∧ f.cause = cause ∧ f.level = level ∧ f.pte = pte ∧ f.unit = .core c.val) ∧
    (m.rdf (bXLT p + 0x80) 63 63 = 0 → ((m.walkCore c).core c.val).trap = some 2 ∧ ((m.walkCore c).core c.val).creg 0x3A8 = w64 (va % 2 ^ 48) ∧
      ((m.walkCore c).core c.val).creg 0x3A0 = w64 (accBits acc * 2 ^ 16 + level * 2 ^ 12 + cause * 2 ^ 8 + 0x0A)) := by
  have hp16 := Mod.partOf_lt hp
  obtain ⟨u, m3, hcase, ht, -, heq⟩ := Mod.walkCore_eq hw hp hu
  rw [hr, hone] at heq
  obtain ⟨a, ha⟩ : ∃ a, a = m3.inc (bXLT p + 0x48) := ⟨_, rfl⟩
  dsimp only at heq
  rw [← ha] at heq
  replace heq : m.walkCore c = a.stop c.val (.fault { part := p, va := va, acc := acc, cause := cause, level := level, pte := pte }) := heq
  have hum : u.mem = m.mem ∧ u.cores = m.cores ∧ u.xlt = m.xlt ∧ u.rdf (bXLT p + 0x80) 63 63 = m.rdf (bXLT p + 0x80) 63 63 := by
    rcases hcase with rfl | rfl
    · exact ⟨rfl, rfl, rfl, rfl⟩
    · exact ⟨rfl, rfl, rfl, congrArg (fld · 63 63) (Mod.rd_incBy_ne m 1 (by omega))⟩
  have huc : u.core c.val = m.core c.val := congrArg (fun x => (Tab.get {} x c.val : Core)) hum.2.1
  have ham : a.mem = m.mem ∧ a.xlt = m.xlt := by
    rw [ha]
    refine ⟨ht.fields.1.trans hum.1, ?_⟩
    exact (congrArg (·.xlt) ht.rest : m3.xlt = u.xlt).trans hum.2.2.1
  have hac : (a.core c.val).excDepth = 0 := by
    have h1 : a.core c.val = m3.core c.val := by rw [ha]; rfl
    have h2 : (m3.core c.val).excDepth = (u.core c.val).excDepth := (congrArg Core.excDepth (ht.cores c.val) :)
    rw [h1, h2, huc, hx]
  have har : a.rdf (bXLT p + 0x80) 63 63 = m.rdf (bXLT p + 0x80) 63 63 := by
    rw [← hum.2.2.2, ha, Mod.rdf, Mod.inc, Mod.rd_incBy_ne m3 1 (by omega)]
    exact congrArg (fld · 63 63) (ht.regs _ (.inr (.inr (by simp only [bXLT, bPRT, bLNK, bMON]; omega))))
  rw [heq]
  unfold Mod.stop
  dsimp only
  rw [har, hac]
  refine ⟨?_, fun h1 => ?_, fun h0 => ?_⟩
  · unfold xltStop
    dsimp only
    split
    · exact ham.1
    · exact ham.1
  · rw [if_neg (by rw [h1]; decide)]
    exact ⟨(congrArg Core.wait (Mod.core_updCore_self a c.val fun k => { k with wait := .fault va acc level }) :), _,
        (congrArg (fun x : XltState => x.flying ++ _) ham.2 :), rfl, rfl, rfl, rfl, rfl, rfl⟩
  · rw [if_pos (.inl h0)]
    unfold xltStop
    dsimp only
    rw [Mod.setTrap, Mod.core_updCore_self]
    refine ⟨rfl, Core.creg_setCreg_self _ _ _, ?_⟩
    refine (Core.creg_setCreg _ _ _ _).trans ?_
    refine (if_neg (show (0x3A8 : Nat) ≠ 0x3A0 by decide)).trans ?_
    exact Core.creg_setCreg_self _ _ _
end

end Sys2Proof.Machine
end

section
/-! Waiters released, shoot-downs, and the statement about translations (R412 to R434). -/

namespace Sys2Proof.Machine

/-! ## Waiters -/

/-- The release of one core that waits for its fault. -/
theorem Mod.waitersReleased_core {m : Mod} {k p code c va level : Nat} {acc : Acc}
    (hr : m.xlt.releases[k]? = some { part := p, code := code, waiters := [.core c] }) (hw : (m.core c).wait = .fault va acc level) :
    ∃ t, m.waitersReleased k = t ∧ t.xlt.releases = m.xlt.releases.eraseIdx k ∧ (t.core c).wait = .none ∧ (t.core c).bank = (m.core c).bank ∧
      (code = 0 → (t.core c).trap = (m.core c).trap) ∧ (code ≠ 0 → (t.core c).trap = some 2 ∧
        (t.core c).creg 0x3A0 = w64 (accBits acc * 2 ^ 16 + level * 2 ^ 12 + 0x09) ∧ (t.core c).creg 0x3A8 = w64 (va % 2 ^ 48)) := by
  obtain ⟨m0, hm0⟩ : ∃ u : Mod, u = { m with xlt := { m.xlt with releases := dropAt m.xlt.releases k } } := ⟨_, rfl⟩
  have hrel : m0.xlt.releases = m.xlt.releases.eraseIdx k := by rw [hm0]; rfl
  have hcore : m0.core c = m.core c := by rw [hm0]; rfl
  have heq : m.waitersReleased k = m0.releaseUnit code (.core c) := by
    unfold Mod.waitersReleased
    rw [hr, hm0]
    rfl
  have hunit : m0.releaseUnit code (.core c) = if code = 0 then
      (m0.tlbForget (panelOf c) ((m0.partOf c).getD 0) (some c) va).updCore c fun k => { k with wait := .none } else m0.stop c (xltStop 0x09 acc level 0 va) := by
    unfold Mod.releaseUnit
    dsimp only
    rw [hcore, hw]
  by_cases hcode : code = 0
  · obtain ⟨u, hu⟩ : ∃ u, u = m0.tlbForget (panelOf c) ((m0.partOf c).getD 0) (some c) va := ⟨_, rfl⟩
    have huk : u.xlt.releases = m0.xlt.releases ∧ (u.core c).bank = (m0.core c).bank ∧ (u.core c).trap = (m0.core c).trap := by
      rw [hu]
      unfold Mod.tlbForget
      dsimp only
      rw [Mod.updMem, Mod.core_updCore_self]
      exact ⟨rfl, rfl, rfl⟩
    refine ⟨u.updCore c fun k => { k with wait := .none }, by rw [heq, hunit, if_pos hcode, hu], huk.1.trans hrel, ?_, ?_, fun _ => ?_, fun h => absurd hcode h⟩
    · rw [Mod.core_updCore_self]
    · rw [Mod.core_updCore_self, ← hcore]; exact huk.2.1
    · rw [Mod.core_updCore_self, ← hcore]; exact huk.2.2
  · refine ⟨m0.stop c (xltStop 0x09 acc level 0 va), by rw [heq, hunit, if_neg hcode], hrel, ?_, ?_, fun h => absurd h hcode, fun _ => ?_⟩
    all_goals
      unfold xltStop Mod.stop
      dsimp only
      rw [Mod.setTrap, Mod.core_updCore_self]
    · rw [hcore]; rfl
    · refine ⟨rfl, ?_, Core.creg_setCreg_self _ _ _⟩
      refine (Core.creg_setCreg _ _ _ _).trans ?_
      refine (if_neg (show (0x3A8 : Nat) ≠ 0x3A0 by decide)).trans ?_
      exact (Core.creg_setCreg_self _ _ _).trans (by rw [Nat.zero_mul, Nat.add_zero])

/-! ## Shoot-downs -/

/-- The shoot-down that a written value asks for (R420). -/
def shootOf (v : W64) (p : Nat) (c : Option Nat) : Shoot := { part := p, all := bit v 62, size := fld v 49 48, va := fld v 47 16 * 2 ^ 16, core := c }
theorem Mod.shootStart_free {m : Mod} {p : Nat} {c : Option Nat} (v : W64) (h : m.shootBusy p c = false) :
    m.shootStart p c v = { m with xlt := { m.xlt with shoots := m.xlt.shoots ++ [shootOf v p c] } } := by
  unfold Mod.shootStart
  exact if_neg (by rw [show (m.xlt.shoots.any fun s => s.part == p && s.core == c) = m.shootBusy p c from rfl, h]; decide)
theorem Mod.shootStart_busy {m : Mod} {p : Nat} {c : Option Nat} (v : W64) (h : m.shootBusy p c = true) : m.shootStart p c v = m.inc (bXLT p + 0x40 + 8 * 3) :=
  if_pos h
theorem Mod.shootComplete_drops {m : Mod} {k : Nat} {x : Shoot} (hx : m.xlt.shoots[k]? = some x)
    (hcores : ∀ c, c ∈ (m.part x.part).cores → (m.core c).holdsRange x.range.1 x.range.2 = false ∧ m.postedOut c = false ∧ (m.spl.adds.any (·.core == c)) = false)
    (hrows : m.rowsInFlight x.part = false)
    (hsaved : (m.pat.saved.any fun q => q.piece.part == x.part && unitsHold q.units.stations q.units.fin x.range.1 x.range.2) = false) :
    ∃ t, m.shootComplete k = t ∧ t.xlt.shoots = m.xlt.shoots.eraseIdx k ∧ t.xlt.tlb = (m.xlt.tlb.filter fun e => !x.drops e.2.val) ∧
      (∀ c, (t.core c).mem.tlb = (m.core c).mem.tlb.filter fun e => !x.drops e.2.val) ∧ m.tallied t (bXLT x.part + 0x40 + 8 * 2) 1 ∧ t.mem = m.mem := by
  have hquiet : ((m.part x.part).cores.any fun c => (m.core c).holdsRange x.range.1 x.range.2 || m.postedOut c || m.spl.adds.any (·.core == c)) = false := by
    refine List.any_eq_false.mpr fun c hc => ?_
    obtain ⟨h1, h2, h3⟩ := hcores c hc
    rw [h1, h2, h3]
    decide
  obtain ⟨m2, hm2⟩ : ∃ u : Mod, u = { m with
    xlt := { m.xlt with shoots := dropAt m.xlt.shoots k, tlb := Tab.keep m.xlt.tlb fun _ w => !x.drops w.val }
    cores := Tab.mapV m.cores fun _ c => { c with mem := { c.mem with tlb := Tab.keep c.mem.tlb fun _ w => !x.drops w.val } } } := ⟨_, rfl⟩
  have hc := Mod.tallied_inc m2 (bXLT x.part + 0x40 + 8 * 2)
  have hk : (m2.inc (bXLT x.part + 0x40 + 8 * 2)).xlt = m2.xlt ∧ (m2.inc (bXLT x.part + 0x40 + 8 * 2)).cores = m2.cores ∧
    (m2.inc (bXLT x.part + 0x40 + 8 * 2)).mem = m2.mem := ⟨rfl, rfl, rfl⟩
  refine ⟨m2.inc (bXLT x.part + 0x40 + 8 * 2), ?_, ?_, ?_, fun c => ?_, ?_, ?_⟩
  · unfold Mod.shootComplete
    rw [hx]
    dsimp only
    rw [hquiet, hrows, hsaved, hm2]
    rfl
  · rw [hk.1, hm2]; rfl
  · rw [hk.1, hm2]; rfl
  · rw [Mod.core, hk.2.1, hm2]
    unfold Tab.get Mod.core
    rw [Tab.get?_mapV]
    unfold Tab.get
    cases Tab.get? m.cores c with
    | none => rfl
    | some q => rfl
  · unfold Mod.tallied at hc ⊢
    rw [hc, hm2]; rfl
  · rw [hk.2.2, hm2]

/-! ## The statement -/

/-- Settles O39: walks as reads of tables that are traffic alone; the fault queue by what a post, a join, a reply and a release write; shoot-downs by what they
keep. -/
theorem translationFaults : Obligations.TranslationFaults := by
  unfold Obligations.TranslationFaults
  refine ⟨fun s hpow => ⟨?_, ?_, ?_, ?_⟩, fun s v => ⟨?_, ?_, ?_⟩⟩
  · intro c p va acc hw hp hu
    refine ⟨fun l pte hr => completes_run rfl hpow ?_, fun cause level pte hr hx hone => completes_run rfl hpow ?_⟩
    · exact Mod.walkCore_leaf hw hp hu hr
    · exact Mod.walkCore_fail hw hp hu hr hx hone
  · intro k f hk
    refine ⟨fun i x h => completes_run rfl hpow ?_, fun hnew hparked => ⟨fun slot hroom hheld hf => completes_run rfl hpow ?_, fun hroom => completes_run rfl hpow ?_⟩⟩
    · obtain ⟨t, ht, hgone, hcnt, hslot⟩ := Mod.faultArrival_joins hk h
      rw [ht]
      exact ⟨hgone, hcnt, hslot⟩
    · obtain ⟨t, ht, hpost⟩ := Mod.faultArrival_posts hk hnew hparked hroom hheld hf
      rw [ht]
      exact hpost
    · obtain ⟨t, ht, hgone, hlast, hcnt, hmem⟩ := Mod.faultArrival_parks hk hnew hparked hroom
      rw [ht]
      exact ⟨hgone, hlast, hcnt, hmem⟩
  · intro h p v hr
    refine ⟨fun y hy hseq hcode hparked => completes_hostReg rfl hr ?_, fun hbad => completes_hostReg rfl hr ?_⟩
    · exact Mod.flqReply_accepts hy hseq hcode hparked
    · exact Mod.flqReply_refuses hbad
  · intro k p code c va acc level hr hw
    refine completes_run rfl hpow ?_
    obtain ⟨t, ht, hall⟩ := Mod.waitersReleased_core hr hw
    rw [ht]
    exact hall
  · intro h p hr
    refine ⟨fun hfree => completes_hostReg rfl hr ?_, fun hbusy => completes_hostReg rfl hr ?_⟩
    · rw [Mod.shootStart_free v hfree]; rfl
    · rw [Mod.shootStart_busy v hbusy]; exact ⟨rfl, Mod.tallied_inc s.m _⟩
  · intro c p hpow hc hp
    have heq (m : Mod) (h : m.partOf c.val = some p) : m.corShoot c v = m.shootStart p (some c.val) v := by
      unfold Mod.corShoot
      rw [h]
      exact if_pos hc
    refine ⟨fun hfree => completes_run rfl hpow ?_, fun hbusy => completes_run rfl hpow ?_⟩
    · rw [heq s.m hp, Mod.shootStart_free v hfree]; rfl
    · rw [heq s.m hp, Mod.shootStart_busy v hbusy]; exact ⟨rfl, Mod.tallied_inc s.m _⟩
  · intro k x hpow hx hcores hrows hsaved
    refine completes_run rfl hpow ?_
    obtain ⟨t, ht, hall⟩ := Mod.shootComplete_drops hx hcores hrows hsaved
    rw [ht]
    exact hall

end Sys2Proof.Machine
end

section
/-! A fire whose panel and partition have no number of the module's (R319, R320, R622): the count of notches that find no piece is a register that its way to the
lead engine counts in as well. -/

namespace Sys2Proof.Machine

/-- Core 0 in a partition of number 0x31, with a fire of a shuttle of number 8 on its way. An event counter of the panel that would hold such a shuttle, and
which counts what leaves the panel, lies where such a partition would have its count of notches without a piece. -/
def strayFire : Mod :=
  { parts := [(0x31, { st := .running, cores := [0], spools := [(0, 1)] })]
    bar0 := [(0x411018, 0x10B)]
    pat := { fires := [{ part := 0x31, notch := 0, src := .shuttle 8 }] }
    pwr := { groups := 6, seq := 3, standby := true, converter := true, enable := true } }
/-- The count goes up for the way, and for the notch. -/
theorem strayFire_counts : (strayFire.rdf (bPAT 0x31 + 0x80 + 8 * 3) 47 0, (strayFire.within fun m => m.notchDelivery 0).rdf (bPAT 0x31 + 0x80 + 8 * 3) 47 0) =
    (0, 2) := by
  decide +kernel
/-- Refutes O29: partitions of fires and shuttles that fire are numbers of any size, and the way of a fire to its lead engine counts where its partition's notches
without a piece are counted, so that the count goes up by 2. -/
theorem not_notchesAndCountDowns : ¬ Obligations.NotchesAndCountDowns := by
  unfold Obligations.NotchesAndCountDowns
  intro h
  obtain ⟨hfires, -⟩ := h { m := strayFire } 0 (by decide +kernel) rfl
  obtain ⟨hbind, -⟩ := hfires { part := 0x31, notch := 0, src := .shuttle 8 } rfl (by decide +kernel) (by decide +kernel)
  obtain ⟨hunbound, -⟩ := hbind (by decide +kernel)
  obtain ⟨t, ht, -, -, hcount, -⟩ := hunbound (by decide +kernel)
  obtain ⟨hbefore, hafter⟩ := Prod.mk.inj strayFire_counts
  have hm : t.m = strayFire.within fun m => m.notchDelivery 0 := by
    have hrun : exec (.notchDelivery 0) { m := strayFire } = .next { m := strayFire.within fun m => m.notchDelivery 0 } :=
      State.run_powered { m := strayFire } (fun m => m.notchDelivery 0) (by decide +kernel)
    rw [hrun] at ht
    cases ht
    rfl
  unfold Mod.tallied at hcount
  rw [hm, hafter, hbefore] at hcount
  exact absurd hcount (by decide)

end Sys2Proof.Machine
end

section
/-! The matrix unit of a core: requests at the weight port, the queues of its patches, and an MZERO that reaches one (R90, R103, R108, R112, R116). -/

namespace Sys2Proof

/-- An entry of a table after a write is the one written or one of before. -/
theorem Tab.put_keeps {α : Type} {t : Tab α} {p : Nat × α} (a : Nat) (v : α) (h : p ∈ t) : p ∈ Tab.put t a v ∨ (p.1 = a ∧ Tab.get? t a = some p.2) := by
  induction t with
  | nil => cases h
  | cons x t ih =>
    obtain ⟨k, w⟩ := x
    rcases lt_trichotomy k a with hlt | heq | hgt
    · rw [Tab.put, if_neg hlt.ne, if_neg hlt.not_gt, Tab.get?, if_neg hlt.ne]
      rcases List.mem_cons.mp h with rfl | h
      · exact .inl (List.mem_cons_self ..)
      · exact (ih h).imp (List.mem_cons_of_mem _) id
    · subst heq
      rw [Tab.put, if_pos rfl, Tab.get?, if_pos rfl]
      rcases List.mem_cons.mp h with rfl | h
      · exact .inr ⟨rfl, rfl⟩
      · exact .inl (List.mem_cons_of_mem _ h)
    · rw [Tab.put, if_neg hgt.ne', if_pos hgt]
      exact .inl (List.mem_cons_of_mem _ h)
theorem Tab.mem_of_get? {α : Type} {t : Tab α} {a : Nat} {v : α} (h : Tab.get? t a = some v) : (a, v) ∈ t := by
  induction t with
  | nil => cases h
  | cons x t ih =>
    obtain ⟨k, w⟩ := x
    rw [Tab.get?] at h
    split at h
    next hk => cases h; rw [hk]; exact List.mem_cons_self ..
    next => exact List.mem_cons_of_mem _ (ih h)

end Sys2Proof

namespace Sys2Proof.Machine

/-! ## Requests at the weight port (R103, R107) -/

/-- The core with other patches and another queue at the weight port. -/
def Core.ported (k : Core) (patches : Tab Patch) (port : List PortReq) : Core := { k with mat := { k.mat with patches := patches, port := port } }
theorem Core.patch_setPatch_self (k : Core) (p : Nat) (x : Patch) : (k.setPatch p x).patch p = x := by simp [Core.patch, Core.setPatch]
/-- Asking for a tile changes of a patch its request and its shadow set alone. -/
theorem Core.askLoad_setPatch (k : Core) (p : Nat) (x : Patch) : ∃ a sh prt, (k.setPatch p x).askLoad p =
    k.ported (Tab.put k.mat.patches p { x with asked := a, shadow := sh }) prt := by
  have hno : k.setPatch p x = k.ported (Tab.put k.mat.patches p { x with asked := x.asked, shadow := x.shadow }) k.mat.port := rfl
  unfold Core.askLoad
  simp only [Core.patch_setPatch_self]
  cases x.asked with
  | true => exact ⟨_, _, _, hno⟩
  | false =>
    rw [if_neg Bool.false_ne_true]
    cases nextLoad (k.setPatch p x).mode x.queue with
    | none => exact ⟨_, _, _, hno⟩
    | some ij =>
      obtain ⟨i, j⟩ := ij
      dsimp only
      refine iteInduction (motive := fun q => ∃ a sh prt, q = k.ported (Tab.put k.mat.patches p { x with asked := a, shadow := sh }) prt)
        (fun _ => ⟨_, _, _, hno⟩) fun _ => ?_
      simp only [Core.setPatch, Tab.put_put_same]
      exact ⟨true, if i.pre then x.shadow else none, _, rfl⟩
/-- A patch whose shadow set holds a tile of an MTILE asks for none. -/
theorem Core.askLoad_held {k : Core} {p : Nat} {l : Loaded} (hs : (k.patch p).shadow = some l) (hp : l.pre = false) : k.askLoad p = k := by
  unfold Core.askLoad
  simp only [hs, hp, Bool.false_and, Bool.not_false, if_true]
  split
  · rfl
  · split <;> rfl
/-- The core with an instruction at the end of a patch's queue (R90, R112). -/
def Core.queued (k : Core) (p : Nat) (x : MatInstr) : Core :=
  ({ (k.setPatch p { k.patch p with queue := (k.patch p).queue ++ [x] }) with seq := k.seq + 1 } : Core).askLoad p
theorem Mod.enqueueMat_eq (m : Mod) (c p : Nat) (x : MatInstr) : m.enqueueMat c p x = m.updCore c (·.queued p x) := rfl
theorem Core.queued_spec (k : Core) (p : Nat) (x : MatInstr) : ∃ a sh prt, k.queued p x = ({ k with seq := k.seq + 1 } : Core).ported
    (Tab.put k.mat.patches p { k.patch p with queue := (k.patch p).queue ++ [x], asked := a, shadow := sh }) prt :=
  Core.askLoad_setPatch { k with seq := k.seq + 1 } p { k.patch p with queue := (k.patch p).queue ++ [x] }

/-! ## MZERO in a queue (R108, R112, R116) -/

theorem Core.readyZero_none {k : Core} (h : k.noZeros) : k.readyZero = none := by
  unfold Core.readyZero
  rw [List.findSome?_eq_none_iff]
  intro e he
  have hq := List.all_eq_true.mp h e he
  split
  · rfl
  · rw [Option.map_eq_none_iff, List.find?_eq_none]
    intro x hx
    have := List.all_eq_true.mp hq x hx
    cases hz : x.zero with
    | none => simp
    | some r => rw [hz] at this; cases this
theorem Core.settleZeros_none {k : Core} (h : k.noZeros) (n : Nat) : k.settleZeros n = k := by
  cases n with
  | zero => rfl
  | succ n =>
    rw [Core.settleZeros, Core.readyZero_none h]
    split <;> rfl
/-- No MZERO waits in any queue of a core whose patch has taken a queue without one. -/
theorem Core.noZeros_put {k q : Core} {p : Nat} {x : Patch} (h : k.noZeros) (hq : q.mat.patches = Tab.put k.mat.patches p x)
    (hx : x.queue.all (·.zero.isNone) = true) : q.noZeros := by
  unfold Core.noZeros
  rw [hq]
  refine List.all_eq_true.mpr fun e he => ?_
  rcases Tab.mem_put he with rfl | he
  · exact hx
  · exact List.all_eq_true.mp h e he
theorem Core.noZeros.patch {k : Core} (h : k.noZeros) (p : Nat) : (k.patch p).queue.all (·.zero.isNone) = true := by
  unfold Core.patch Tab.get
  cases hg : Tab.get? k.mat.patches p with
  | none => rfl
  | some x => exact List.all_eq_true.mp h _ (Tab.mem_of_get? hg)

/-- Which unfinished instructions a core has, once one has joined the queue of a patch: that one, and those of before. -/
theorem Core.items_put {k : Core} {p : Nat} {y : MatInstr} {n : Nat} {prt : List PortReq} {x : Patch} (hx : x.queue = (k.patch p).queue ++ [y]) (it : Item) :
    (it ∈ (({ k with seq := n } : Core).ported (Tab.put k.mat.patches p x) prt).items → it ∈ k.items ∨ it.seq = y.seq) ∧
      (it ∈ k.items → it ∈ (({ k with seq := n } : Core).ported (Tab.put k.mat.patches p x) prt).items) := by
  have hold : ∀ z ∈ (k.patch p).queue, ∃ e ∈ k.mat.patches, z ∈ e.2.queue := by
    unfold Core.patch Tab.get
    cases hg : Tab.get? k.mat.patches p with
    | none => intro z hz; cases hz
    | some w => exact fun z hz => ⟨_, Tab.mem_of_get? hg, hz⟩
  have hput : (p, x) ∈ Tab.put k.mat.patches p x := Tab.mem_of_get? (Tab.get?_put_self ..)
  simp only [Core.items, Core.ported, List.mem_append, List.mem_flatMap, List.mem_map]
  constructor
  · rintro ((h | ⟨e, he, z, hz, rfl⟩) | h)
    · exact .inl (.inl (.inl h))
    · rcases Tab.mem_put he with rfl | he
      · rw [hx] at hz
        rcases List.mem_append.mp hz with hz | hz
        · obtain ⟨e, he, hz⟩ := hold z hz
          exact .inl (.inl (.inr ⟨e, he, z, hz, rfl⟩))
        · exact .inr (congrArg MatInstr.seq (List.mem_singleton.mp hz))
      · exact .inl (.inl (.inr ⟨e, he, z, hz, rfl⟩))
    · exact .inl (.inr h)
  · rintro ((h | ⟨e, he, z, hz, rfl⟩) | h)
    · exact .inl (.inl h)
    · rcases Tab.put_keeps p x he with he | ⟨-, he⟩
      · exact .inl (.inr ⟨e, he, z, hz, rfl⟩)
      · have hz : z ∈ x.queue := by
          rw [hx, Core.patch, Tab.get, he]
          exact List.mem_append_left _ hz
        exact .inl (.inr ⟨_, hput, z, hz, rfl⟩)
    · exact .inr h
/-- An instruction that has just joined a queue is in no earlier one's way, itself least. -/
theorem Core.blocked_put {k : Core} {p : Nat} {y : MatInstr} {n : Nat} {prt : List PortReq} {x : Patch} (hx : x.queue = (k.patch p).queue ++ [y]) (f : Foot)
    (isMat : Bool) : (({ k with seq := n } : Core).ported (Tab.put k.mat.patches p x) prt).blocked y.seq f isMat = k.blocked y.seq f isMat := by
  rw [Bool.eq_iff_iff]
  unfold Core.blocked
  rw [List.any_eq_true, List.any_eq_true]
  constructor
  · rintro ⟨it, hit, h⟩
    rcases (Core.items_put hx it).1 hit with hit | hseq
    · exact ⟨it, hit, h⟩
    · simp [hseq] at h
  · rintro ⟨it, hit, h⟩
    exact ⟨it, (Core.items_put hx it).2 hit, h⟩

/-- The patch and the MZERO at the end of its queue, of a core without another. -/
def Core.oneZero (k : Core) (p : Nat) (x : Patch) (y : MatInstr) (r : Nat × Nat) : Prop :=
  (p, x) ∈ k.mat.patches ∧ (∀ e ∈ k.mat.patches, e = (p, x) ∨ e.2.queue.all (·.zero.isNone) = true) ∧ x.nanStop = false ∧ y.zero = some r ∧
    ∃ q, x.queue = q ++ [y] ∧ q.all (·.zero.isNone) = true

/-- The MZERO's turn comes where nothing earlier is in its way. -/
theorem Core.readyZero_one {k : Core} {p : Nat} {x : Patch} {y : MatInstr} {r : Nat × Nat} (h : k.oneZero p x y r) :
    k.readyZero = if k.blocked y.seq { writes := [fAcc r.1 r.2] } false then none else some (p, y) := by
  obtain ⟨hmem, hall, hnan, hy, q, hq, hqz⟩ := h
  have hfoot : y.foot 0 = { writes := [fAcc r.1 r.2] } := by simp [MatInstr.foot, hy]
  have hfind : x.queue.find? (fun z => z.zero.isSome && !k.blocked z.seq (z.foot 0) false) =
      if k.blocked y.seq { writes := [fAcc r.1 r.2] } false then none else some y := by
    have hnone : q.find? (fun z => z.zero.isSome && !k.blocked z.seq (z.foot 0) false) = none := by
      rw [List.find?_eq_none]
      intro z hz
      have := List.all_eq_true.mp hqz z hz
      simp [Option.isNone_iff_eq_none.mp this]
    rw [hq, List.find?_append, hnone, Option.none_or, List.find?_cons, hfoot, hy]
    cases k.blocked y.seq { writes := [fAcc r.1 r.2] } false <;> rfl
  have hone : ∀ e ∈ k.mat.patches, (if e.2.nanStop then none
      else (e.2.queue.find? fun z => z.zero.isSome && !k.blocked z.seq (z.foot 0) false).map fun z => (e.1, z)) =
        if e = (p, x) then (if k.blocked y.seq { writes := [fAcc r.1 r.2] } false then none else some (p, y)) else none := by
    intro e he
    by_cases hex : e = (p, x)
    · subst hex
      rw [hnan, hfind]
      cases k.blocked y.seq { writes := [fAcc r.1 r.2] } false <;> simp
    · have hz := (hall e he).resolve_left hex
      have hnone : e.2.queue.find? (fun z => z.zero.isSome && !k.blocked z.seq (z.foot 0) false) = none := by
        rw [List.find?_eq_none]
        intro z hz'
        have := List.all_eq_true.mp hz z hz'
        simp [Option.isNone_iff_eq_none.mp this]
      rw [hnone, if_neg hex]
      simp
  unfold Core.readyZero
  cases hb : k.blocked y.seq { writes := [fAcc r.1 r.2] } false with
  | true =>
    rw [if_pos rfl, List.findSome?_eq_none_iff]
    intro e he
    rw [hone e he, hb]
    simp
  | false =>
    rw [if_neg Bool.false_ne_true]
    cases hf : k.mat.patches.findSome? fun e => if e.2.nanStop then none
        else (e.2.queue.find? fun z => z.zero.isSome && !k.blocked z.seq (z.foot 0) false).map fun z => (e.1, z) with
    | none =>
      have := List.findSome?_eq_none_iff.mp hf _ hmem
      rw [hone _ hmem, hb] at this
      simp at this
    | some v =>
      obtain ⟨e, he, hv⟩ := List.exists_of_findSome?_eq_some hf
      rw [hone e he, hb] at hv
      split at hv
      · simpa using hv.symm
      · cases hv
/-- A lone MZERO that must wait stays. -/
theorem Core.settleZeros_waits {k : Core} {p : Nat} {x : Patch} {y : MatInstr} {r : Nat × Nat} (h : k.oneZero p x y r)
    (hb : k.blocked y.seq { writes := [fAcc r.1 r.2] } false = true) (n : Nat) : k.settleZeros n = k := by
  cases n with
  | zero => rfl
  | succ n =>
    rw [Core.settleZeros, Core.readyZero_one h, hb]
    split <;> rfl
/-- The core whose lone MZERO, `y` of patch `p`, has had its turn. -/
def Core.zeroed (k : Core) (p : Nat) (x : Patch) (y : MatInstr) (r : Nat × Nat) : Core :=
  { k with mat := { k.mat with patches := Tab.put k.mat.patches p { x with queue := x.queue.filter fun z => z.seq != y.seq }
                               acc := Tab.clear k.mat.acc r.1 (r.1 + r.2) } }
theorem Core.settleZeros_one {k : Core} {p : Nat} {x : Patch} {y : MatInstr} {r : Nat × Nat} (h : k.oneZero p x y r) (hx : Tab.get? k.mat.patches p = some x)
    (hheld : k.unitsHeld = false) (hb : k.blocked y.seq { writes := [fAcc r.1 r.2] } false = false) (hz : (k.zeroed p x y r).noZeros) (n : Nat) :
    k.settleZeros (n + 1) = k.zeroed p x y r := by
  obtain ⟨-, -, -, hy, -⟩ := id h
  have hg : Tab.get {} k.mat.patches p = x := by rw [Tab.get, hx]; rfl
  rw [Core.settleZeros, if_neg (ne_true_of_eq_false hheld), Core.readyZero_one h, hb]
  simp only [Bool.false_eq_true, if_false, hg, hy, Option.getD_some]
  exact Core.settleZeros_none hz n

end Sys2Proof.Machine
end

section
/-! Matrix instructions (R90, R92, R93, R107, R112, R116, R117). -/

namespace Sys2Proof.Machine

/-! ## What the body of a matrix instruction reads, and what its command leaves -/

theorem Core.creg_congr {k q : Core} (h : q.ctl = k.ctl) (a : Nat) : q.creg a = k.creg a := by simp only [Core.creg, h]
theorem Core.mode_congr {k q : Core} (h : q.ctl = k.ctl) : q.mode = k.mode := Core.cregf_congr h 0x1000 1 0
theorem Core.patch_congr {k q : Core} (h : q.mat = k.mat) (p : Nat) : q.patch p = k.patch p := by simp only [Core.patch, h]
theorem Core.slotGen_congr {k q : Core} (h : q.mat = k.mat) (s : Nat) : q.slotGen s = k.slotGen s := by simp only [Core.slotGen, h]
/-- What the body of an instruction finds of its core is what stood there, but for caches and the notes by which loads are undone. -/
structure Core.same (k q : Core) : Prop where
  bank : q.bank = k.bank
  mat : q.mat = k.mat
  ctl : q.ctl = k.ctl
  seq : q.seq = k.seq
  held : q.unitsHeld = k.unitsHeld
  blocked : ∀ n f isMat, q.blocked n f isMat = k.blocked n f isMat
/-- What loads would undo bears on no instruction's place in the order. -/
theorem Core.items_beginBody (k : Core) (mem : CoreMem) : ({ k.beginBody with mem := mem } : Core).items = k.items := by
  simp only [Core.items, Core.beginBody, List.map_map]
  congr 2
  refine List.map_congr_left fun x _ => ?_
  simp only [Function.comp_apply]
  split <;> rfl
theorem Mod.atIssue.same {m : Mod} {c : CoreId} (h : m.atIssue c) : (m.core c.val).same ((m.fetched c).core c.val) := by
  obtain ⟨hcore, -, -⟩ := h.fetched
  refine ⟨h.fetched_bank, by rw [hcore]; rfl, by rw [hcore]; rfl, by rw [hcore]; rfl, by rw [hcore]; rfl, fun n f isMat => ?_⟩
  rw [hcore]
  unfold Core.blocked
  rw [Core.items_beginBody]
  rfl
theorem Bank.replaced_zero (b : Bank) : b.replaced 0 [] = b := by
  simp only [Bank.replaced, List.nil_append, List.drop_zero, List.length_nil, Nat.sub_zero, Nat.add_zero]
/-- A core whose matrix instruction has taken `n` operands, with its registers, its matrix unit and its count of instructions after it. -/
def Core.worked (k : Core) (n : Nat) (ctl : Tab W64) (mat : MatUnit) (seq : Nat) : Core :=
  { k with bank := k.bank.replaced n [], ctl := ctl, mat := mat, seq := seq }
/-- An instruction of the matrix unit: it takes its operands, and leaves of its core's registers and matrix unit what its body says. -/
theorem completes_worked {i : Instr} {s : State} {c : CoreId} {major func st n seq : Nat} {ctl : Tab W64} {mat : MatUnit} {body : Mod → Body} {t0 : Mod}
    (hi : exec i s = s.run fun m => m.issue c.val major func body) (hr : s.m.standsReady c) (hc : c.val ≠ 256)
    (hb : body (s.m.fetched c) = .ok (t0, .next, st)) (hcore : t0.core c.val = ((s.m.fetched c).core c.val).worked n ctl mat seq)
    (hapart : (s.m.fetched c).apart t0 c) : completes i s fun t => s.m.unit t c (·.took n []) ∧ (t.core c).ctl = ctl ∧ (t.core c).mat = mat := by
  obtain ⟨hfc, hfa, -⟩ := hr.atIssue.fetched
  have hbank := hr.atIssue.fetched_bank
  have ht0 : s.m.apart t0 c := Mod.apart_trans hfa hapart
  obtain ⟨-, -, -, -, -, hnv, hpwr, -⟩ := id ht0
  refine completes_next hi hr.atIssue (fun h => absurd h hc) hb ?_ ?_ hnv hpwr fun t htb htc => ?_
  · rw [hcore]; exact (congrArg Bank.loop hbank).trans hr.loop_none
  · rw [hcore, hfc]; exact hr.atIssue.refused
  · rw [hcore] at htc
    have htbank : (t.core c.val).bank = (s.m.core c.val).bank.took n [] := by
      rw [htc]
      show { ((s.m.fetched c).core c.val).bank.replaced n [] with pc := w64 (((s.m.fetched c).core c.val).bank.pc.toNat + 4) } = _
      rw [hbank, w64_toNat_add_four]; rfl
    rw [hfc] at htc
    exact ⟨⟨htbank, by rw [htc]; rfl, by rw [htc]; rfl, by rw [htc]; rfl, by rw [htc]; rfl, by rw [htc]; rfl, by rw [htc]; rfl,
      Mod.apart_trans ht0 htb.apart⟩, by rw [htc]; rfl, by rw [htc]; rfl⟩
/-- A check of R117 that fails raises the matrix issue exception, and nothing of the instruction comes about. -/
theorem completes_matStop {i : Instr} {s : State} {c : CoreId} {major func cause ma patch slot : Nat} {body : Mod → Body}
    (hi : exec i s = s.run fun m => m.issue c.val major func body) (hr : s.m.standsReady c) (hc : c.val ≠ 256)
    (hb : body (s.m.fetched c) = .error (matStop cause ma patch slot)) :
    completes i s fun t => s.m.raised t c 3 0x1010 (w64 (slot * 2 ^ 20 + patch * 2 ^ 16 + ma * 2 ^ 8 + cause)) := by
  refine completes_run hi hr.atIssue.powered ?_
  rw [Mod.issue_stopped hr.atIssue (fun h => absurd h hc) hb]
  have h := s.m.setTrap_raised c 3 0x1010 (w64 (slot * 2 ^ 20 + patch * 2 ^ 16 + ma * 2 ^ 8 + cause))
  obtain ⟨-, -, -, -, hapart⟩ := id h
  exact (Mod.apart_within hapart).symm ▸ h
/-- The operands of a matrix instruction, read and taken. -/
theorem Mod.standsReady.peeks {m : Mod} {c : CoreId} {top : List W64} {n : Nat} (hr : m.standsReady c) (ho : m.holdsOps c top 0) (hn : top.length = n) :
    (m.fetched c).peek c.val n = .ok (top, m.fetched c) := by
  subst hn
  exact Mod.peek_held (hr.atIssue.fetched_holdsOps ho)
theorem Mod.standsReady.repls {m : Mod} {c : CoreId} {top : List W64} {n : Nat} (hr : m.standsReady c) (ho : m.holdsOps c top 0) (hn : top.length = n) :
    (m.fetched c).repl c.val n [] = .ok ((m.fetched c).updBank c.val (·.replaced n [])) := by
  subst hn
  exact Mod.repl_held (hr.atIssue.fetched_holdsOps ho) (Nat.zero_le _)

/-- The matrix unit with an instruction at the end of a patch's queue, whatever the weight port has been asked. -/
def MatUnit.joined (u : MatUnit) (p : Nat) (x : MatInstr) (a : Bool) (sh : Option Loaded) (prt : List PortReq) : MatUnit :=
  { u with patches := Tab.put u.patches p { Tab.get {} u.patches p with queue := (Tab.get {} u.patches p).queue ++ [x], asked := a, shadow := sh }, port := prt }
/-- An instruction that enters a patch's queue: what its command leaves. -/
theorem completes_queued {i : Instr} {s : State} {c : CoreId} {major func st p n : Nat} {x : MatInstr} {body : Mod → Body}
    (hi : exec i s = s.run fun m => m.issue c.val major func body) (hr : s.m.standsReady c) (hc : c.val ≠ 256)
    (hb : body (s.m.fetched c) = .ok (((s.m.fetched c).updBank c.val (·.replaced n [])).enqueueMat c.val p x, .next, st)) :
    completes i s fun t => s.m.unit t c (·.took n []) ∧ ((t.core c).patch p).queue = ((s.m.core c).patch p).queue ++ [x] ∧
      (∀ q, q ≠ p → (t.core c).patch q = (s.m.core c).patch q) ∧ (t.core c).mat.acc = (s.m.core c).mat.acc ∧ (t.core c).ctl = (s.m.core c).ctl := by
  have same := hr.atIssue.same
  have hcore : (((s.m.fetched c).updBank c.val (·.replaced n [])).enqueueMat c.val p x).core c.val =
      ({ (s.m.fetched c).core c.val with bank := ((s.m.fetched c).core c.val).bank.replaced n [] } : Core).queued p x := by
    rw [Mod.enqueueMat_eq, Mod.core_updCore_self, Mod.core_updBank_self]
  obtain ⟨a, sh, prt, e⟩ :=
    ({ (s.m.fetched c).core c.val with bank := ((s.m.fetched c).core c.val).bank.replaced n [] } : Core).queued_spec p x
  rw [e] at hcore
  refine (completes_worked (ctl := (s.m.core c.val).ctl) (mat := (s.m.core c.val).mat.joined p x a sh prt) hi hr hc hb
    (hcore.trans (by rw [← same.ctl, ← same.mat]; rfl)) ?_).mono fun t ht => ?_
  · exact Mod.apart_trans (Mod.apart_setCore _ c _) (Mod.apart_setCore _ c _)
  · obtain ⟨hunit, hctl, hmat⟩ := ht
    refine ⟨hunit, ?_, fun q hq => ?_, by rw [hmat]; rfl, hctl⟩
    · simp only [Core.patch, hmat, MatUnit.joined, Tab.get_put_self]
    · simp only [Core.patch, hmat, MatUnit.joined, Tab.get_put_ne _ _ _ (Ne.symm hq)]

/-! ## Each instruction -/

section
variable {s : State} {c : CoreId} {f : BitVec 26}

theorem Mod.patches_any {k : Core} {f : Nat × Patch → Bool} (h : (k.mat.patches.all fun q => !f q) = true) : k.mat.patches.any f = false := by
  rw [List.any_eq_false]
  intro e he
  simpa using List.all_eq_true.mp h e he
theorem completes_mcfg (hr : s.m.standsReady c) (hc : c.val ≠ 256) (hheld : (s.m.core c).unitsHeld = false) (hf : fld f 23 0 = 0)
    (hidle : ((s.m.core c).mat.patches.all fun q => !q.2.busy) = true) : completes (.mcfg c f) s fun t => s.m.unit t c (·.took 0 []) ∧
      (t.core c).mode = fld f 25 24 ∧ (∀ i, ((t.core c).patch i).shadow = none) ∧ (∀ a, a ≠ 0x1000 → (t.core c).creg a = (s.m.core c).creg a) ∧
      (t.core c).mat.acc = (s.m.core c).mat.acc := by
  have same := hr.atIssue.same
  have hb : bodyMcfg c.val f (s.m.fetched c) = .ok ((s.m.fetched c).updCore c.val fun k =>
      { (k.setCregf 0x1000 1 0 (fld f 25 24)) with
        mat := { k.mat with patches := Tab.mapV k.mat.patches fun _ p => { p with shadow := none } } }, .next, 1) := by
    simp only [bodyMcfg, hf, beq_self_eq_true, legal_true, bind, Except.bind, same.held, same.mat, hheld, Mod.patches_any hidle, Bool.or_false,
      Bool.false_eq_true, if_false]
  refine (completes_worked (n := 0) (ctl := ((s.m.core c.val).setCregf 0x1000 1 0 (fld f 25 24)).ctl) (seq := ((s.m.fetched c).core c.val).seq)
    (mat := { (s.m.core c.val).mat with patches := Tab.mapV (s.m.core c.val).mat.patches fun _ p => { p with shadow := none } }) rfl hr hc hb ?_
    (Mod.apart_setCore _ c _)).mono fun t ht => ?_
  · rw [Mod.core_updCore_self]
    simp only [Core.worked, Core.setCregf, Core.setCreg, Core.creg, same.ctl, same.mat, Bank.replaced_zero]
  · obtain ⟨hunit, hctl, hmat⟩ := ht
    refine ⟨hunit, ?_, fun i => ?_, fun a ha => ?_, by rw [hmat]⟩
    · rw [Core.mode_congr hctl, Core.mode, Core.cregf_setCregf_self _ _ _ _ _ (by decide)]
      exact Nat.mod_eq_of_lt (fld_lt f 25 24)
    · simp only [Core.patch, hmat, Tab.get, Tab.get?_mapV]
      cases Tab.get? (s.m.core c.val).mat.patches i <;> rfl
    · rw [Core.creg_congr hctl, Core.creg_setCregf_ne _ _ _ _ ha]
theorem completes_mshape {x : W64} (hr : s.m.standsReady c) (hc : c.val ≠ 256) (hheld : (s.m.core c).unitsHeld = false) (ho : s.m.holdsOps c [x] 0)
    (hf1 : fld f 25 22 = 0) (hf2 : fld f 18 0 = 0) : completes (.mshape c f) s fun t => s.m.unit t c (·.took 1 []) ∧
      (t.core c).creg (0x1040 + 8 * fld f 21 19) = (x.setWidth 47).setWidth 64 ∧
      ∀ a, a ≠ 0x1040 + 8 * fld f 21 19 → (t.core c).creg a = (s.m.core c).creg a := by
  have same := hr.atIssue.same
  have hpeek : (s.m.fetched c).peek c.val 1 = .ok ([x], s.m.fetched c) := hr.peeks ho rfl
  have hrepl : (s.m.fetched c).repl c.val 1 [] = .ok ((s.m.fetched c).updBank c.val (·.replaced 1 [])) := hr.repls ho rfl
  have hb : bodyMshape c.val f (s.m.fetched c) = .ok (((s.m.fetched c).updBank c.val (·.replaced 1 [])).updCore c.val fun k =>
      (k.setCreg (0x1040 + 8 * fld f 21 19) (x &&& maskB 64 46 0)).bumpSlot (fld f 21 19), .next, 1) := by
    simp only [bodyMshape, hf1, hf2, beq_self_eq_true, Bool.and_self, legal_true, bind, Except.bind, same.held, hheld, Bool.false_eq_true, if_false, Mod.pop,
      hpeek, hrepl, List.headD_cons]
  refine (completes_worked (n := 1) (ctl := ((s.m.core c.val).setCreg (0x1040 + 8 * fld f 21 19) (x &&& maskB 64 46 0)).ctl)
    (mat := ((s.m.core c.val).bumpSlot (fld f 21 19)).mat) (seq := ((s.m.fetched c).core c.val).seq) rfl hr hc hb ?_
    (Mod.apart_trans (Mod.apart_setCore _ c _) (Mod.apart_setCore _ c _))).mono fun t ht => ?_
  · rw [Mod.core_updCore_self, Mod.core_updBank_self]
    simp only [Core.worked, Core.setCreg, Core.bumpSlot, Core.slotGen, same.ctl, same.mat]
  · obtain ⟨hunit, hctl, -⟩ := ht
    refine ⟨hunit, ?_, fun a ha => ?_⟩
    · rw [Core.creg_congr hctl, Core.creg_setCreg_self]
      apply BitVec.eq_of_getLsbD_eq
      intro i hi
      simp only [BitVec.getLsbD_and, getLsbD_maskB, BitVec.getLsbD_setWidth]
      by_cases h47 : i < 47
      · simp [hi, h47, show i ≤ 46 by omega]
      · simp [h47, show ¬ i ≤ 46 by omega]
    · rw [Core.creg_congr hctl, Core.creg_setCreg, if_neg (Ne.symm ha)]
theorem completes_mwait (hr : s.m.standsReady c) (hc : c.val ≠ 256) (hheld : (s.m.core c).unitsHeld = false) (hf : fld f 9 0 = 0)
    (hidle : ((s.m.core c).mat.patches.all fun q => !(bit f (10 + q.1) && q.2.busy)) = true) :
    completes (.mwait c f) s fun t => s.m.went t c (·.took 0 []) := by
  have same := hr.atIssue.same
  have hb : bodyMwait c.val f (s.m.fetched c) = .ok (s.m.fetched c, .next, 1) := by
    simp only [bodyMwait, hf, beq_self_eq_true, legal_true, bind, Except.bind, same.held, same.mat, hheld, Mod.patches_any hidle, Bool.or_false,
      Bool.false_eq_true, if_false]
  refine (completes_went_beside (g := id) rfl hr (fun h => absurd h hc) hb ?_ (Mod.apart_refl _ c) hr.loop_none rfl).mono fun t ht => ht.1
  simp only [Core.acted, id, List.append_nil]

/-- The instruction that MTILE copies its slot into. -/
def Core.tileOf (k : Core) (f : BitVec 26) (x y : W64) : MatInstr :=
  { shape := k.creg (0x1040 + 8 * fld f 21 19), slot := fld f 21 19, slotGen := k.slotGen (fld f 21 19), wofs := y.toNat, aofs := x.toNat,
    acc := bit f 18, asrc := bit f 17, vreg := fld f 16 12, abase := fld f 11 3, pc := k.bank.pc.toNat, seq := k.seq }
/-- The one that MPRE does. -/
def Core.preOf (k : Core) (f : BitVec 26) (y : W64) : MatInstr :=
  { pre := true, shape := k.creg (0x1040 + 8 * fld f 21 19), slot := fld f 21 19, slotGen := k.slotGen (fld f 21 19), wofs := y.toNat,
    pc := k.bank.pc.toNat, seq := k.seq }
/-- The body of MTILE, its operands read. -/
theorem bodyMtile_eq {x y : W64} (hr : s.m.standsReady c) (hheld : (s.m.core c).unitsHeld = false) (ho : s.m.holdsOps c [x, y] 0) (hf : fld f 2 0 = 0) :
    bodyMtile c.val f (s.m.fetched c) =
      match tileFail (s.m.core c).mode (fld f 25 22) (shapeOf ((s.m.core c).tileOf f x y).shape) ((s.m.core c).tileOf f x y) with
      | some cause => .error (matStop cause 0x32 (fld f 25 22) (fld f 21 19))
      | none => if decide (8 ≤ ((s.m.core c).patch (fld f 25 22)).queue.length) then .error .hold
        else .ok (((s.m.fetched c).updBank c.val (·.replaced 2 [])).enqueueMat c.val (fld f 25 22) ((s.m.core c).tileOf f x y), .next, 1) := by
  have same := hr.atIssue.same
  have hpeek : (s.m.fetched c).peek c.val 2 = .ok ([x, y], s.m.fetched c) := hr.peeks ho rfl
  have hrepl : (s.m.fetched c).repl c.val 2 [] = .ok ((s.m.fetched c).updBank c.val (·.replaced 2 [])) := hr.repls ho rfl
  simp only [bodyMtile, hf, beq_self_eq_true, legal_true, bind, Except.bind, hpeek, hrepl, same.held, hheld, Core.creg_congr same.ctl,
    Core.mode_congr same.ctl, Core.patch_congr same.mat, Core.slotGen_congr same.mat, same.bank, same.seq, Bool.false_or, Core.tileOf, List.headD_cons,
    List.getD_cons_succ, List.getD_cons_zero] <;> rfl
theorem bodyMpre_eq {y : W64} (hr : s.m.standsReady c) (hheld : (s.m.core c).unitsHeld = false) (ho : s.m.holdsOps c [y] 0) (hf : fld f 18 0 = 0) :
    bodyMpre c.val f (s.m.fetched c) =
      match loadFail (s.m.core c).mode (fld f 25 22) (shapeOf ((s.m.core c).preOf f y).shape) y.toNat with
      | some cause => .error (matStop cause 0x33 (fld f 25 22) (fld f 21 19))
      | none => if decide (8 ≤ ((s.m.core c).patch (fld f 25 22)).queue.length) then .error .hold
        else .ok (((s.m.fetched c).updBank c.val (·.replaced 1 [])).enqueueMat c.val (fld f 25 22) ((s.m.core c).preOf f y), .next, 1) := by
  have same := hr.atIssue.same
  have hpeek : (s.m.fetched c).peek c.val 1 = .ok ([y], s.m.fetched c) := hr.peeks ho rfl
  have hrepl : (s.m.fetched c).repl c.val 1 [] = .ok ((s.m.fetched c).updBank c.val (·.replaced 1 [])) := hr.repls ho rfl
  simp only [bodyMpre, hf, beq_self_eq_true, legal_true, bind, Except.bind, hpeek, hrepl, same.held, hheld, Core.creg_congr same.ctl,
    Core.mode_congr same.ctl, Core.patch_congr same.mat, Core.slotGen_congr same.mat, same.bank, same.seq, Bool.false_or, Core.preOf, List.headD_cons] <;> rfl

/-- The MZERO of `n` accumulator words from `lo` on. -/
def Core.zeroOf (k : Core) (lo n : Nat) : MatInstr := { zero := some (lo, n), pc := k.bank.pc.toNat, seq := k.seq }
/-- The first word and the count of words of an MZERO. -/
def zeroLo (f : BitVec 26) : Nat := 16384 * fld f 25 24 + 128 * fld f 23 17
def zeroLen (f : BitVec 26) : Nat := 128 * (fld f 16 10 + 1)
/-- The core with the MZERO in its queue, whatever the weight port has been asked. -/
def Core.zeroJoined (k : Core) (p lo n : Nat) (a : Bool) (sh : Option Loaded) (prt : List PortReq) : Core :=
  { k with seq := k.seq + 1, mat := k.mat.joined p (k.zeroOf lo n) a sh prt }
/-- That queue's patch. -/
def Core.zeroPatch (k : Core) (p lo n : Nat) (a : Bool) (sh : Option Loaded) : Patch :=
  { k.patch p with queue := (k.patch p).queue ++ [k.zeroOf lo n], asked := a, shadow := sh }
theorem Core.oneZero_joined {k : Core} {p lo n : Nat} {a : Bool} {sh : Option Loaded} {prt : List PortReq} (hz : k.noZeros)
    (hn : (k.patch p).nanStop = false) : (k.zeroJoined p lo n a sh prt).oneZero p (k.zeroPatch p lo n a sh) (k.zeroOf lo n) (lo, n) := by
  refine ⟨Tab.mem_of_get? (Tab.get?_put_self ..), fun e he => ?_, hn, rfl, _, rfl, hz.patch p⟩
  exact (Tab.mem_put he).imp id fun he => List.all_eq_true.mp hz e he
theorem Core.blocked_joined (k : Core) (p lo n : Nat) (a : Bool) (sh : Option Loaded) (prt : List PortReq) (ft : Foot) :
    (k.zeroJoined p lo n a sh prt).blocked k.seq ft false = k.blocked k.seq ft false := Core.blocked_put (y := k.zeroOf lo n) rfl ft false
/-- What MZERO does to its core. -/
theorem bodyMzero_joins (hr : s.m.standsReady c) (hheld : (s.m.core c).unitsHeld = false) (hf : fld f 9 0 = 0) (hrow : fld f 23 17 + fld f 16 10 + 1 ≤ 128)
    (hlen : ((s.m.core c).patch (windowOf (s.m.core c).mode (zeroLo f))).queue.length < 8) : ∃ t0 a sh prt, bodyMzero c.val f (s.m.fetched c) = .ok (t0, .next, 1) ∧
      (s.m.fetched c).apart t0 c ∧ t0.core c.val =
        (((s.m.fetched c).core c.val).zeroJoined (windowOf (s.m.core c).mode (zeroLo f)) (zeroLo f) (zeroLen f) a sh prt).settleZeros zeroMax := by
  have same := hr.atIssue.same
  obtain ⟨a, sh, prt, e⟩ := ((s.m.fetched c).core c.val).queued_spec (windowOf (s.m.core c).mode (zeroLo f))
    (((s.m.fetched c).core c.val).zeroOf (zeroLo f) (zeroLen f))
  refine ⟨((s.m.fetched c).enqueueMat c.val (windowOf (s.m.core c).mode (zeroLo f))
    (((s.m.fetched c).core c.val).zeroOf (zeroLo f) (zeroLen f))).updCore c.val (·.settleZeros zeroMax), a, sh, prt, ?_,
    Mod.apart_trans (Mod.apart_setCore _ c _) (Mod.apart_setCore _ c _), ?_⟩
  · simp only [bodyMzero, hf, beq_self_eq_true, legal_true, bind, Except.bind, if_neg (show ¬ 128 < fld f 23 17 + (fld f 16 10 + 1) by omega), same.held, hheld,
      Core.mode_congr same.ctl, Core.patch_congr same.mat, Bool.false_or]
    rw [show 16384 * fld f 25 24 + 128 * fld f 23 17 = zeroLo f from rfl, if_neg (by rw [decide_eq_true_eq]; omega)]
    rfl
  · rw [Mod.core_updCore_self, Mod.enqueueMat_eq, Mod.core_updCore_self, e]
    rfl
/-- MZERO where nothing earlier is in its way: its words are zero at once. -/
theorem completes_mzero (hr : s.m.standsReady c) (hc : c.val ≠ 256) (hheld : (s.m.core c).unitsHeld = false) (hf : fld f 9 0 = 0)
    (hrow : fld f 23 17 + fld f 16 10 + 1 ≤ 128) (hz : (s.m.core c).noZeros)
    (hlen : ((s.m.core c).patch (windowOf (s.m.core c).mode (zeroLo f))).queue.length < 8)
    (hnan : ((s.m.core c).patch (windowOf (s.m.core c).mode (zeroLo f))).nanStop = false)
    (hfree : (s.m.core c).blocked (s.m.core c).seq { writes := [fAcc (zeroLo f) (zeroLen f)] } false = false)
    (hseq : ∀ x ∈ ((s.m.core c).patch (windowOf (s.m.core c).mode (zeroLo f))).queue, x.seq < (s.m.core c).seq) :
    completes (.mzero c f) s fun t => s.m.unit t c (·.took 0 []) ∧
      (∀ w, Tab.get 0 (t.core c).mat.acc w = if zeroLo f ≤ w ∧ w < zeroLo f + zeroLen f then 0 else Tab.get 0 (s.m.core c).mat.acc w) ∧
      ∀ q, ((t.core c).patch q).queue = ((s.m.core c).patch q).queue := by
  have same := hr.atIssue.same
  obtain ⟨t0, a, sh, prt, hb, hapart, hcore⟩ := bodyMzero_joins hr hheld hf hrow hlen
  obtain ⟨p, hp⟩ : ∃ p, p = windowOf (s.m.core c).mode (zeroLo f) := ⟨_, rfl⟩
  rw [← hp] at hcore hlen hnan hseq
  obtain ⟨k, hk⟩ : ∃ k, k = (s.m.fetched c).core c.val := ⟨_, rfl⟩
  rw [← hk] at hcore same
  have hzk : k.noZeros := by unfold Core.noZeros; rw [same.mat]; exact hz
  have hone := Core.oneZero_joined (lo := zeroLo f) (n := zeroLen f) (a := a) (sh := sh) (prt := prt) hzk (by rw [Core.patch_congr same.mat]; exact hnan)
  have hqueue : ((k.patch p).queue ++ [k.zeroOf (zeroLo f) (zeroLen f)]).filter (fun z => z.seq != (k.zeroOf (zeroLo f) (zeroLen f)).seq) = (k.patch p).queue := by
    have hkeep : ∀ z ∈ (k.patch p).queue, (z.seq != (k.zeroOf (zeroLo f) (zeroLen f)).seq) = true := fun z hz => by
      rw [Core.patch_congr same.mat] at hz
      rw [show (k.zeroOf (zeroLo f) (zeroLen f)).seq = (s.m.core c.val).seq from same.seq]
      exact bne_iff_ne.mpr (hseq z hz).ne
    rw [List.filter_append, List.filter_eq_self.mpr hkeep]
    simp [Core.zeroOf]
  have hsettled := Core.settleZeros_one hone (Tab.get?_put_self ..) (same.held.trans hheld)
    ((Core.blocked_joined k p _ _ a sh prt _).trans (by rw [same.blocked, same.seq]; exact hfree))
    (Core.noZeros_put hzk (Tab.put_put_same _ _ _ _) (by simp only [Core.zeroPatch]; rw [hqueue]; exact hzk.patch p)) 128
  rw [show 128 + 1 = zeroMax from rfl] at hsettled
  rw [hsettled] at hcore
  refine (completes_worked (n := 0) (ctl := k.ctl) (seq := k.seq + 1)
    (mat := ((k.zeroJoined p (zeroLo f) (zeroLen f) a sh prt).zeroed p (k.zeroPatch p (zeroLo f) (zeroLen f) a sh) (k.zeroOf (zeroLo f) (zeroLen f))
        (zeroLo f, zeroLen f)).mat) rfl hr hc hb ?_
    hapart).mono fun t ht => ?_
  · rw [hcore, ← hk]
    simp only [Core.worked, Bank.replaced_zero]
    rfl
  · obtain ⟨hunit, -, hmat⟩ := ht
    refine ⟨hunit, fun w => ?_, fun q => ?_⟩
    · rw [hmat, ← same.mat]
      simp only [Core.zeroed, Tab.get, Tab.get?_clear]
      split <;> rfl
    · rw [← Core.patch_congr same.mat]
      by_cases hq : q = p
      · subst hq
        simp only [Core.patch, hmat, Core.zeroed, Tab.get_put_self]
        exact hqueue
      · simp only [Core.patch, hmat, Core.zeroed, Core.zeroJoined, MatUnit.joined, Tab.get_put_ne _ _ _ (Ne.symm hq)]
/-- MZERO that must wait stays in its queue. -/
theorem completes_mzero_waits (hr : s.m.standsReady c) (hc : c.val ≠ 256) (hheld : (s.m.core c).unitsHeld = false) (hf : fld f 9 0 = 0)
    (hrow : fld f 23 17 + fld f 16 10 + 1 ≤ 128) (hz : (s.m.core c).noZeros)
    (hlen : ((s.m.core c).patch (windowOf (s.m.core c).mode (zeroLo f))).queue.length < 8)
    (hnan : ((s.m.core c).patch (windowOf (s.m.core c).mode (zeroLo f))).nanStop = false)
    (hblocked : (s.m.core c).blocked (s.m.core c).seq { writes := [fAcc (zeroLo f) (zeroLen f)] } false = true) :
    completes (.mzero c f) s fun t => s.m.unit t c (·.took 0 []) ∧ (t.core c).mat.acc = (s.m.core c).mat.acc ∧
      ((t.core c).patch (windowOf (s.m.core c).mode (zeroLo f))).queue =
        ((s.m.core c).patch (windowOf (s.m.core c).mode (zeroLo f))).queue ++ [(s.m.core c).zeroOf (zeroLo f) (zeroLen f)] ∧
      ∀ q, q ≠ windowOf (s.m.core c).mode (zeroLo f) → (t.core c).patch q = (s.m.core c).patch q := by
  have same := hr.atIssue.same
  obtain ⟨t0, a, sh, prt, hb, hapart, hcore⟩ := bodyMzero_joins hr hheld hf hrow hlen
  obtain ⟨p, hp⟩ : ∃ p, p = windowOf (s.m.core c).mode (zeroLo f) := ⟨_, rfl⟩
  rw [← hp] at hcore hnan ⊢
  obtain ⟨k, hk⟩ : ∃ k, k = (s.m.fetched c).core c.val := ⟨_, rfl⟩
  rw [← hk] at hcore same
  have hone := Core.oneZero_joined (k := k) (lo := zeroLo f) (n := zeroLen f) (a := a) (sh := sh) (prt := prt)
    (by unfold Core.noZeros; rw [same.mat]; exact hz) (by rw [Core.patch_congr same.mat]; exact hnan)
  rw [Core.settleZeros_waits hone ((Core.blocked_joined k p _ _ a sh prt _).trans (by rw [same.blocked, same.seq]; exact hblocked))] at hcore
  refine (completes_worked (n := 0) (ctl := k.ctl) (seq := k.seq + 1) (mat := k.mat.joined p (k.zeroOf (zeroLo f) (zeroLen f)) a sh prt) rfl hr hc hb ?_
    hapart).mono fun t ht => ?_
  · rw [hcore, ← hk]
    simp only [Core.worked, Bank.replaced_zero]
    rfl
  · obtain ⟨hunit, -, hmat⟩ := ht
    refine ⟨hunit, by rw [hmat, ← same.mat]; rfl, ?_, fun q hq => ?_⟩
    · simp only [Core.patch, hmat, MatUnit.joined, Tab.get_put_self, same.mat, Core.zeroOf, same.bank, same.seq]
    · simp only [Core.patch, hmat, MatUnit.joined, Tab.get_put_ne _ _ _ (Ne.symm hq), same.mat]

end

/-- Settles O20: each body takes its operands and leaves the matrix unit, or the shape slots and the mode, as stated; of the order of MZERO, the lone one in the
queues is ready just where no earlier instruction is in its way. -/
theorem matrixInstructions : Obligations.MatrixInstructions := by
  unfold Obligations.MatrixInstructions
  intro s c f x y hr hc hheld
  refine ⟨fun hf hidle => completes_mcfg hr hc hheld hf hidle, fun ho h1 h2 => completes_mshape hr hc hheld ho h1 h2, fun ho hf => ⟨fun hfail hlen => ?tile,
    fun cause hfail => ?stops⟩, fun ho hf hfail hlen => ?pre, fun hf hidle => completes_mwait hr hc hheld hf hidle, fun hf hrow hz hlen hnan =>
      ⟨fun hfree hseq => completes_mzero hr hc hheld hf hrow hz hlen hnan hfree hseq, fun hb => completes_mzero_waits hr hc hheld hf hrow hz hlen hnan hb⟩⟩
  case tile =>
    refine completes_queued (st := 1) (x := (s.m.core c).tileOf f x y) rfl hr hc ?_
    have h : tileFail (s.m.core c).mode (fld f 25 22) (shapeOf ((s.m.core c).tileOf f x y).shape) ((s.m.core c).tileOf f x y) = none := hfail
    rw [bodyMtile_eq hr hheld ho hf, h]
    exact if_neg (by rw [decide_eq_true_eq]; omega)
  case stops =>
    have h : tileFail (s.m.core c).mode (fld f 25 22) (shapeOf ((s.m.core c).tileOf f x y).shape) ((s.m.core c).tileOf f x y) = some cause := hfail
    exact completes_matStop rfl hr hc (by rw [bodyMtile_eq hr hheld ho hf, h])
  case pre =>
    have h : loadFail (s.m.core c).mode (fld f 25 22) (shapeOf ((s.m.core c).preOf f y).shape) y.toNat = none := hfail
    refine (completes_queued (st := 1) (p := fld f 25 22) (n := 1) (x := (s.m.core c).preOf f y) rfl hr hc ?_).mono fun t ht => ?_
    · rw [bodyMpre_eq hr hheld ho hf, h]
      exact if_neg (by rw [decide_eq_true_eq]; omega)
    · obtain ⟨hunit, hqueue, hothers, hacc, -⟩ := ht
      exact ⟨hunit, hqueue, hothers, hacc⟩

end Sys2Proof.Machine
end

section
/-! The life of a tile: its load at the weight port, its start, its sums, and the check of a basted one (R81, R101, R103, R105, R106, R127, R152 to R154, R341). -/

namespace Sys2Proof.Machine

/-! ## Commands of the units -/

/-- What of a core a command of its units must not touch. -/
structure Core.spares (k q : Core) : Prop where
  bank : q.bank = k.bank
  sb : q.sb = k.sb
  shadow : q.shadow = k.shadow
  trap : q.trap = k.trap
  uc : q.uc = k.uc
  ctlNew : q.ctlNew = k.ctlNew
  bolt : q.bolt = k.bolt
theorem Core.spares_refl (k : Core) : k.spares k := ⟨rfl, rfl, rfl, rfl, rfl, rfl, rfl⟩
theorem Core.spares_trans {k q r : Core} (h : k.spares q) (g : q.spares r) : k.spares r :=
  ⟨g.bank.trans h.bank, g.sb.trans h.sb, g.shadow.trans h.shadow, g.trap.trans h.trap, g.uc.trans h.uc, g.ctlNew.trans h.ctlNew, g.bolt.trans h.bolt⟩
theorem Core.spares_setCreg (k : Core) (a : Nat) (v : W64) : k.spares (k.setCreg a v) := ⟨rfl, rfl, rfl, rfl, rfl, rfl, rfl⟩
theorem Core.spares_addPend (k : Core) (v : Nat) : k.spares (k.addPend v) := by
  unfold Core.addPend
  split <;> exact ⟨rfl, rfl, rfl, rfl, rfl, rfl, rfl⟩
theorem Mod.unit_of_spares {m t : Mod} {c : CoreId} (h : (m.core c.val).spares (t.core c.val)) (ha : m.apart t c) : m.unit t c id :=
  ⟨h.bank, h.sb, h.shadow, h.trap, h.uc, h.ctlNew, h.bolt, ha⟩
/-- A command of a core's units without effect but on that core and on event counters. -/
theorem completes_unit {i : Instr} {s : State} {c : CoreId} {f : Mod → Mod} {P : Mod → Prop} (hi : exec i s = s.run f) (hpow : s.m.powered = true)
    (hu : s.m.unit (f s.m) c id) (hp : P (f s.m)) : completes i s fun t => s.m.unit t c id ∧ P t := by
  obtain ⟨-, -, -, -, -, -, -, ha⟩ := id hu
  refine completes_run hi hpow ?_
  rw [Mod.apart_within ha]
  exact ⟨hu, hp⟩
theorem Mod.apart.noCue {m t : Mod} {c : CoreId} (h : m.apart t c) (hn : m.noCue) : t.noCue := by
  obtain ⟨-, -, -, -, -, -, -, hregs⟩ := h
  unfold Mod.noCue Mod.rdf at *
  rw [hregs _ (by decide)]
  exact hn
/-- One after which the policy on uncorrectable events, which is off, would run. -/
theorem completes_unit_judged {i : Instr} {s : State} {c : CoreId} {f : Mod → Mod} {P : Mod → Prop} (hi : exec i s = s.judged f) (hpow : s.m.powered = true)
    (hcue : s.m.noCue) (hu : s.m.unit (f s.m) c id) (hp : P (f s.m)) : completes i s fun t => s.m.unit t c id ∧ P t := by
  obtain ⟨-, -, -, -, -, -, -, ha⟩ := id hu
  have e : (f s.m).judge = f s.m := Mod.judge_off _ (ha.noCue hcue)
  exact completes_unit (f := fun m => (f m).judge) hi hpow (e.symm ▸ hu) (e.symm ▸ hp)

/-! ## Errors of the bolt (R341) -/

theorem Mod.boltCheck_sound {m : Mod} {c : Nat} (h : (m.core c).boltErr = []) (rs : List (Nat × Nat)) : m.boltCheck c rs = (false, m) := by
  simp only [Mod.boltCheck, h, List.filter_nil, List.isEmpty_nil, if_true]
/-- An uncorrectable granule that a read touches is found. -/
theorem Mod.boltCheck_bad {m : Mod} {c : Nat} {rs : List (Nat × Nat)} {g e : Nat} (h : (g, e) ∈ (m.core c).boltErr) (he : e ≠ 1) (ht : touched rs g = true) :
    (m.boltCheck c rs).1 = true ∧ (∃ b, (m.boltCheck c rs).2.core c = { m.core c with boltErr := b }) ∧
      ∀ a, a < bL2C 0 → (m.boltCheck c rs).2.rd a = m.rd a := by
  have hmem : (g, e) ∈ (m.core c).boltErr.filter fun p => touched rs p.1 := List.mem_filter.mpr ⟨h, ht⟩
  have hne : ((m.core c).boltErr.filter fun p => touched rs p.1).isEmpty = false := by
    rw [Bool.eq_false_iff]
    intro hn
    rw [List.isEmpty_iff.mp hn] at hmem
    cases hmem
  have htwo : 0 < (((m.core c).boltErr.filter fun p => touched rs p.1).filter fun p => p.2 != 1).length :=
    List.length_pos_iff.mpr (List.ne_nil_of_mem (List.mem_filter.mpr ⟨hmem, bne_iff_ne.mpr he⟩))
  have hlt : ∀ a, a < bL2C 0 → ∀ x, a ≠ bL2C c + x := fun a ha x => by simp only [bL2C] at *; omega
  simp only [Mod.boltCheck, hne, Bool.false_eq_true, if_false, htwo, decide_true, if_true, true_and]
  refine ⟨⟨_, Mod.core_updCore_self m c fun k => { k with boltErr := k.boltErr.filter fun p => p.2 != 1 || !touched rs p.1 }⟩, fun a ha => ?_⟩
  rw [Mod.raise, Mod.rd_wrf_ne _ _ _ _ (hlt a ha _), Mod.rd_incBy_ne _ _ (by rw [Nat.add_assoc]; exact hlt a ha _),
    Mod.rd_incBy_ne _ _ (by rw [Nat.add_assoc]; exact hlt a ha _)]
  rfl
theorem Mod.boltErrors_nil (m : Mod) (c : Nat) : m.boltErrors c [] = m := rfl
theorem Mod.boltErrors_bad (m : Mod) (c : Nat) (g : BitVec 18) : m.boltErrors c [(g, true)] =
    m.updCore c fun k => { k with boltErr := Tab.put k.boltErr g.toNat (max (Tab.get 0 k.boltErr g.toNat) 2) } := rfl
theorem Mod.boltErrors_core (m : Mod) (c : CoreId) (bad : BoltErrs) : ∃ b, (m.boltErrors c.val bad).core c.val = { m.core c.val with boltErr := b } ∧
    m.apart (m.boltErrors c.val bad) c := by
  unfold Mod.boltErrors
  split
  · exact ⟨_, rfl, Mod.apart_refl m c⟩
  · exact ⟨_, Mod.core_updCore_self m c.val _, Mod.apart_setCore m c _⟩

/-! ## The weight port (R101, R103, R341) -/

/-- What a patch's shadow set holds once the record's bytes have come. -/
def PortReq.got (r : PortReq) (bs : List Byte) : Loaded := { r.load with bytes := bs }
/-- The core once the port has loaded the bytes of a record into its patch. -/
def Core.holding (k : Core) (r : PortReq) (rest : List PortReq) (bs : List Byte) (bad : Bool) : Core :=
  k.ported (Tab.put k.mat.patches r.patch { k.patch r.patch with
    asked := false, shadow := some (r.got bs), nanStop := (k.patch r.patch).nanStop || bad }) rest
/-- The same, with an uncorrectable granule's UERR pending. -/
def Core.loaded (k : Core) (r : PortReq) (rest : List PortReq) (bs : List Byte) (bad : Bool) : Core :=
  if bad then (k.holding r rest bs bad).addPend 9 else k.holding r rest bs bad
theorem Core.patch_addPend (k : Core) (v p : Nat) : (k.addPend v).patch p = k.patch p := by unfold Core.addPend; split <;> rfl
theorem Core.mat_addPend (k : Core) (v : Nat) : (k.addPend v).mat = k.mat := by unfold Core.addPend; split <;> rfl
theorem Core.mem_pend_addPend (k : Core) (v : Nat) : v ∈ (k.addPend v).pend := by
  unfold Core.addPend
  split
  next h => exact List.contains_iff_mem.mp h
  next => exact List.mem_cons_self ..
theorem Core.loaded_spec (k : Core) (r : PortReq) (rest : List PortReq) (bs : List Byte) (bad : Bool) : k.spares (k.loaded r rest bs bad) ∧
    ((k.loaded r rest bs bad).patch r.patch).shadow = some (r.got bs) ∧ (k.loaded r rest bs bad).mat.port = rest ∧
    (k.loaded r rest bs bad).mat.acc = k.mat.acc ∧ (bad = true → ((k.loaded r rest bs bad).patch r.patch).nanStop = true ∧ 9 ∈ (k.loaded r rest bs bad).pend) := by
  have hsp : k.spares (k.holding r rest bs bad) := ⟨rfl, rfl, rfl, rfl, rfl, rfl, rfl⟩
  have hp : (k.holding r rest bs bad).patch r.patch = { k.patch r.patch with
      asked := false, shadow := some (r.got bs), nanStop := (k.patch r.patch).nanStop || bad } := Tab.get_put_self ..
  unfold Core.loaded
  cases bad with
  | false => exact ⟨hsp, congrArg Patch.shadow hp, rfl, rfl, fun h => absurd h Bool.false_ne_true⟩
  | true =>
    refine ⟨Core.spares_trans hsp (Core.spares_addPend _ 9), congrArg Patch.shadow ((Core.patch_addPend _ 9 _).trans hp),
      congrArg MatUnit.port (Core.mat_addPend _ 9), (congrArg MatUnit.acc (Core.mat_addPend _ 9)).trans rfl, fun _ => ⟨?_, Core.mem_pend_addPend _ 9⟩⟩
    exact (congrArg Patch.nanStop ((Core.patch_addPend _ 9 _).trans hp)).trans (Bool.or_true _)
/-- WEIGHT_PORT_GRANT where the oldest request may be served: after errors that come into the bolt, and the check of the bytes read. -/
theorem rowWeightPortGrant_eq {m : Mod} {c : CoreId} {bad : BoltErrs} {r : PortReq} {rest : List PortReq} (hheld : (m.core c).unitsHeld = false)
    (hport : (m.core c).mat.port = r :: rest) (hpre : r.load.pre = false) (hf : m.coreFenced c = false)
    (hfree : (m.core c).blocked r.load.seq { reads := [fBolt (r.load.wofs + r.load.tile * (shapeOf r.load.shape).recSize (m.core c).mode)
      ((shapeOf r.load.shape).recUsed (m.core c).mode)] } true = false) :
    rowWeightPortGrant c bad m =
      let off := r.load.wofs + r.load.tile * (shapeOf r.load.shape).recSize (m.core c).mode
      let sz := (shapeOf r.load.shape).recUsed (m.core c).mode
      let x := (m.boltErrors c.val bad).boltCheck c.val [(off, sz)]
      x.2.updCore c.val (·.loaded r rest (Memory.bytes (m.core c).bolt off sz) x.1) := by
  obtain ⟨b, hcore, -⟩ := m.boltErrors_core c bad
  obtain ⟨m', hm'⟩ : ∃ m', m' = m.boltErrors c.val bad := ⟨_, rfl⟩
  have hfenced : m'.coreFenced c.val = false := by
    rw [hm']; unfold Mod.boltErrors; split <;> exact hf
  rw [← hm'] at hcore
  have hread : ∀ off n, m'.boltRead c.val off n = (Memory.bytes (m.core c.val).bolt off n, m'.boltCheck c.val [(off, n)]) := fun off n => by
    rw [Mod.boltRead, hfenced, hcore]; rfl
  have hmode : (m'.core c.val).mode = (m.core c.val).mode := Core.mode_congr (by rw [hcore])
  have hblocked : ∀ n f b, (m'.core c.val).blocked n f b = (m.core c.val).blocked n f b := fun n f b => by rw [hcore]; rfl
  have hu : (m'.core c.val).unitsHeld = false := by rw [hcore]; exact hheld
  have hp : (m'.core c.val).mat.port = r :: rest := by rw [hcore]; exact hport
  unfold rowWeightPortGrant
  rw [← hm']
  dsimp only
  rw [hp]
  dsimp only
  rw [hu, hmode, hblocked, hfree, hread]
  simp only [Bool.or_self, Bool.false_eq_true, if_false]
  refine congrArg (Mod.updCore _ _) (funext fun k => ?_)
  obtain ⟨-, hs, -⟩ := k.loaded_spec r rest (Memory.bytes (m.core c).bolt (r.load.wofs + r.load.tile * (shapeOf r.load.shape).recSize (m.core c).mode)
    ((shapeOf r.load.shape).recUsed (m.core c).mode)) (m'.boltCheck c.val [(r.load.wofs + r.load.tile * (shapeOf r.load.shape).recSize (m.core c).mode,
      (shapeOf r.load.shape).recUsed (m.core c).mode)]).1
  rw [← Core.askLoad_held hs hpre, if_neg (ne_true_of_eq_false hpre)]
  rfl

section
variable {s : State} {c : CoreId} {r : PortReq} {rest : List PortReq}

theorem completes_weightPortGrant (hpow : s.m.powered = true) (hcue : s.m.noCue) (hheld : (s.m.core c).unitsHeld = false)
    (hport : (s.m.core c).mat.port = r :: rest) (hpre : r.load.pre = false) (hf : s.m.coreFenced c = false)
    (hfree : (s.m.core c).blocked r.load.seq { reads := [fBolt (r.load.wofs + r.load.tile * (shapeOf r.load.shape).recSize (s.m.core c).mode)
      ((shapeOf r.load.shape).recUsed (s.m.core c).mode)] } true = false) (hsound : (s.m.core c).boltErr = []) :
    completes (.weightPortGrant (c, [])) s fun t => s.m.unit t c id ∧ ((t.core c).patch r.patch).shadow = some (r.got
        (Memory.bytes (s.m.core c).bolt (r.load.wofs + r.load.tile * (shapeOf r.load.shape).recSize (s.m.core c).mode)
          ((shapeOf r.load.shape).recUsed (s.m.core c).mode))) ∧ (t.core c).mat.port = rest ∧ (t.core c).mat.acc = (s.m.core c).mat.acc := by
  have e := rowWeightPortGrant_eq (bad := []) hheld hport hpre hf hfree
  simp only [Mod.boltErrors_nil, Mod.boltCheck_sound hsound] at e
  obtain ⟨hspares, hshadow, hrest, hacc, -⟩ := (s.m.core c.val).loaded_spec r rest (Memory.bytes (s.m.core c).bolt
    (r.load.wofs + r.load.tile * (shapeOf r.load.shape).recSize (s.m.core c).mode) ((shapeOf r.load.shape).recUsed (s.m.core c).mode)) false
  refine completes_unit_judged (f := fun m => rowWeightPortGrant c [] m) rfl hpow hcue ?_ ?_
  · rw [e]
    exact Mod.unit_of_spares (by rw [Mod.core_updCore_self]; exact hspares) (Mod.apart_setCore _ c _)
  · rw [e, Mod.core_updCore_self]
    exact ⟨hshadow, hrest, hacc⟩
theorem completes_weightPortGrant_bad (hpow : s.m.powered = true) (hcue : s.m.noCue) (hheld : (s.m.core c).unitsHeld = false)
    (hport : (s.m.core c).mat.port = r :: rest) (hpre : r.load.pre = false) (hf : s.m.coreFenced c = false)
    (hfree : (s.m.core c).blocked r.load.seq { reads := [fBolt (r.load.wofs + r.load.tile * (shapeOf r.load.shape).recSize (s.m.core c).mode)
      ((shapeOf r.load.shape).recUsed (s.m.core c).mode)] } true = false) {g : BitVec 18}
    (hlo : r.load.wofs + r.load.tile * (shapeOf r.load.shape).recSize (s.m.core c).mode < 16 * g.toNat + 16)
    (hhi : 16 * g.toNat < r.load.wofs + r.load.tile * (shapeOf r.load.shape).recSize (s.m.core c).mode + (shapeOf r.load.shape).recUsed (s.m.core c).mode) :
    completes (.weightPortGrant (c, [(g, true)])) s fun t => (((t.core c).patch r.patch).shadow = some (r.got
        (Memory.bytes (s.m.core c).bolt (r.load.wofs + r.load.tile * (shapeOf r.load.shape).recSize (s.m.core c).mode)
          ((shapeOf r.load.shape).recUsed (s.m.core c).mode))) ∧ (t.core c).mat.port = rest ∧ (t.core c).mat.acc = (s.m.core c).mat.acc) ∧
      ((t.core c).patch r.patch).nanStop = true ∧ 9 ∈ (t.core c).pend := by
  have e := rowWeightPortGrant_eq (bad := [(g, true)]) hheld hport hpre hf hfree
  dsimp only at e
  generalize r.load.wofs + r.load.tile * (shapeOf r.load.shape).recSize (s.m.core c).mode = off at *
  generalize (shapeOf r.load.shape).recUsed (s.m.core c).mode = sz at *
  obtain ⟨errs, herrs⟩ : ∃ x, x = Tab.put (s.m.core c.val).boltErr g.toNat (max (Tab.get 0 (s.m.core c.val).boltErr g.toNat) 2) := ⟨_, rfl⟩
  have herr : (s.m.boltErrors c.val [(g, true)]).core c.val = { s.m.core c.val with boltErr := errs } := by
    rw [Mod.boltErrors_bad, Mod.core_updCore_self, herrs]
  have hmem : (g.toNat, max (Tab.get 0 (s.m.core c.val).boltErr g.toNat) 2) ∈ ((s.m.boltErrors c.val [(g, true)]).core c.val).boltErr := by
    rw [herr, herrs]; exact Tab.mem_of_get? (Tab.get?_put_self ..)
  have htouch : touched [(off, sz)] g.toNat = true := by
    simp only [touched, meet, List.any_cons, List.any_nil, Bool.or_false, Bool.and_eq_true, decide_eq_true_eq]
    omega
  obtain ⟨hbad, ⟨b, hcore⟩, hregs⟩ := Mod.boltCheck_bad hmem (by omega) htouch
  obtain ⟨x, hx⟩ : ∃ x, x = (s.m.boltErrors c.val [(g, true)]).boltCheck c.val [(off, sz)] := ⟨_, rfl⟩
  rw [← hx] at e hbad hcore hregs
  rw [herr] at hcore
  obtain ⟨-, hshadow, hrest, hacc, hstop⟩ := (x.2.core c.val).loaded_spec r rest (Memory.bytes (s.m.core c).bolt off sz) x.1
  have hjudge : (rowWeightPortGrant c [(g, true)] s.m).judge = rowWeightPortGrant c [(g, true)] s.m := by
    refine Mod.judge_off _ ?_
    rw [e]
    unfold Mod.noCue Mod.rdf at *
    rw [show (x.2.updCore c.val (·.loaded r rest (Memory.bytes (s.m.core c).bolt off sz) x.1)).rd (bCAL + 0x10) = x.2.rd (bCAL + 0x10) from rfl,
      hregs _ (by decide)]
    exact hcue
  refine completes_judged rfl hpow ?_
  show _ ∧ _
  rw [hjudge, e]
  rw [show ∀ y : Mod, ({ y with nv := s.m.nv, pwr := s.m.pwr } : Mod).core c.val = y.core c.val from fun _ => rfl, Mod.core_updCore_self]
  exact ⟨⟨hshadow, hrest, hacc.trans (by rw [hcore])⟩, hstop hbad⟩

end

end Sys2Proof.Machine
end

section
/-! A tile starts, is summed and is checked (R81, R105, R106, R127, R152 to R154), and O21. -/

namespace Sys2Proof.Machine

/-! ## A tile starts (R81, R105) -/

/-- Rows read one after another, without an error. -/
theorem foldl_rows (b : Nat → List Byte) (m : Mod) (l : List Nat) (acc : List Byte) :
    l.foldl (fun (a : List Byte × Bool × Mod) i => (a.1 ++ b i, a.2.1 || false, a.2.2)) (acc, false, m) = (acc ++ l.flatMap b, false, m) := by
  induction l generalizing acc with
  | nil => simp
  | cons i l ih => simp only [List.foldl_cons, Bool.or_self, ih, List.flatMap_cons, List.append_assoc]
/-- A baste control with its ENABLE off selects no tile. -/
theorem basteSelected_off {baste : W64} (h : bit baste 0 = false) (count : Nat) : basteSelected baste count = false := by simp [basteSelected, h]
theorem Mod.useCreg_settled {m : Mod} {c : Nat} (h : (m.core c).ctlNew = []) (a : Nat) : m.useCreg c a = (m.core c).creg a := by
  simp [Mod.useCreg, h]
/-- The tile that starts. -/
def Core.starting (k : Core) (x : MatInstr) (j : Nat) (l : Loaded) : TileRun :=
  let s := shapeOf x.shape
  let b := blockDims k.mode s.cls
  let ab := codeBits s.af / 8
  { ins := x, tile := j, weights := l.bytes
    rows := (upto s.m).flatMap fun i => Memory.bytes k.vec.regs (2048 * x.vreg + (i * (s.kpad k.mode * ab) + j / (s.tiles k.mode).2 * b.1 * ab)) (b.1 * ab)
    scales := (upto s.m).flatMap fun i => Memory.bytes k.vec.regs (2048 * s.asv + i * (if s.as = 0 then 0 else s.kpad k.mode / blockOf s.as) +
      j / (s.tiles k.mode).2 * (if s.as = 0 then 0 else b.1 / blockOf s.as)) (if s.as = 0 then 0 else b.1 / blockOf s.as) }
/-- The core whose patch has started a tile without a check by basting. -/
def Core.started (k : Core) (p : Nat) (x : MatInstr) (j : Nat) (l : Loaded) : Core :=
  let k1 := (k.setPatch p { k.patch p with
    active := some l, shadow := none, queue := (k.patch p).queue.map fun y => if y.seq = x.seq then { y with started := y.started + 1 } else y,
    runs := (k.patch p).runs ++ [k.starting x j l], nanStop := (k.patch p).nanStop || false }).askLoad p
  if (shapeOf x.shape).cls = 0 then k1.incCregBy 0x1228 1 else k1
theorem Core.started_spec (k : Core) (p : Nat) (x : MatInstr) (j : Nat) (l : Loaded) : k.spares (k.started p x j l) ∧
    ((k.started p x j l).patch p).active = some l ∧ (k.started p x j l).mat.acc = k.mat.acc ∧
    ((k.started p x j l).patch p).runs = (k.patch p).runs ++ [k.starting x j l] := by
  unfold Core.started
  dsimp only
  obtain ⟨a, sh, prt, e⟩ := k.askLoad_setPatch p { k.patch p with
    active := some l, shadow := none, queue := (k.patch p).queue.map fun y => if y.seq = x.seq then { y with started := y.started + 1 } else y,
    runs := (k.patch p).runs ++ [k.starting x j l], nanStop := (k.patch p).nanStop || false }
  rw [e]
  have hp : ∀ y, (k.ported (Tab.put k.mat.patches p y) prt).patch p = y := fun y => Tab.get_put_self ..
  split
  · exact ⟨⟨rfl, rfl, rfl, rfl, rfl, rfl, rfl⟩, congrArg Patch.active (hp _), rfl, congrArg Patch.runs (hp _)⟩
  · exact ⟨⟨rfl, rfl, rfl, rfl, rfl, rfl, rfl⟩, congrArg Patch.active (hp _), rfl, congrArg Patch.runs (hp _)⟩
theorem rowTileStart_eq {m : Mod} {c : CoreId} {p : PatchId} {x : MatInstr} {j : Nat} {l : Loaded} (hheld : (m.core c).unitsHeld = false)
    (hnew : (m.core c).ctlNew = []) (hnext : nextLoad (m.core c).mode ((m.core c).patch p.val).queue = some (x, j))
    (hshadow : ((m.core c).patch p.val).shadow = some l) (hpre : x.pre = false) (hsrc : x.asrc = false) (hserves : l.serves x j = true)
    (hnan : ((m.core c).patch p.val).nanStop = false) (hfree : (m.core c).blocked x.seq (x.foot (m.core c).mode) true = false)
    (hbaste : bit ((m.core c).creg 0x1200) 0 = false) :
    rowTileStart c p [] m = (m.setCore c.val ((m.core c).started p.val x j l)).evCore c.val 0x09 1 := by
  have hbit : ∀ n, basteSelected (m.useCreg c.val 0x1200) n = false := basteSelected_off (by rw [Mod.useCreg_settled hnew]; exact hbaste)
  unfold rowTileStart
  simp only [Mod.boltErrors_nil, hnext, hshadow, hpre, hserves, hheld, hnan, hfree, hsrc, hbit, Bool.not_true, Bool.or_self, Bool.false_eq_true, if_false,
    Bool.and_false, Bool.false_and, foldl_rows, Bool.not_false, if_true, List.nil_append]
  rfl

theorem completes_tileStart {s : State} {c : CoreId} {p : PatchId} {x : MatInstr} {j : Nat} {l : Loaded} (bad : BoltErrs) (hpow : s.m.powered = true)
    (hcue : s.m.noCue) (hheld : (s.m.core c).unitsHeld = false) (hnew : (s.m.core c).ctlNew = [])
    (hnext : nextLoad (s.m.core c).mode ((s.m.core c).patch p).queue = some (x, j)) (hshadow : ((s.m.core c).patch p).shadow = some l) (hpre : x.pre = false)
    (hsrc : x.asrc = false) (hserves : l.serves x j = true) (hnan : ((s.m.core c).patch p).nanStop = false)
    (hfree : (s.m.core c).blocked x.seq (x.foot (s.m.core c).mode) true = false) (hbaste : bit ((s.m.core c).creg 0x1200) 0 = false) :
    completes (.tileStart (c, bad) p) s fun t => s.m.unit t c id ∧ ((t.core c).patch p).active = some l ∧ (t.core c).mat.acc = (s.m.core c).mat.acc ∧
      ((t.core c).patch p).runs = ((s.m.core c).patch p).runs ++ [(s.m.core c).starting x j l] := by
  obtain ⟨b, hcore, hapart⟩ := s.m.boltErrors_core c bad
  obtain ⟨m, hm⟩ : ∃ m, m = s.m.boltErrors c.val bad := ⟨_, rfl⟩
  rw [← hm] at hcore hapart
  obtain ⟨k, hk⟩ : ∃ k, k = { s.m.core c.val with boltErr := b } := ⟨_, rfl⟩
  rw [← hk] at hcore
  have e : rowTileStart c p bad s.m = (m.setCore c.val (k.started p.val x j l)).evCore c.val 0x09 1 := by
    have he : rowTileStart c p [] m = (m.setCore c.val ((m.core c).started p.val x j l)).evCore c.val 0x09 1 := by
      refine rowTileStart_eq ?_ ?_ ?_ ?_ hpre hsrc hserves ?_ ?_ ?_ <;> rw [hcore, hk]
      · exact hheld
      · exact hnew
      · exact hnext
      · exact hshadow
      · exact hnan
      · exact hfree
      · exact hbaste
    rw [hcore] at he
    rw [← he, hm]
    rfl
  have hcore' : ((m.setCore c.val (k.started p.val x j l)).evCore c.val 0x09 1).core c.val = k.started p.val x j l := by
    rw [Mod.core_evCore, Mod.core_setCore_self]
  obtain ⟨hspares, hactive, hacc, hruns⟩ := k.started_spec p.val x j l
  refine completes_unit_judged (f := fun m => rowTileStart c p bad m) rfl hpow hcue ?_ ?_
  · rw [e]
    refine Mod.unit_of_spares (hcore'.symm ▸ Core.spares_trans ?_ hspares)
      (Mod.apart_trans hapart (Mod.apart_trans (Mod.apart_setCore m c _) (Mod.apart_evCore _ c _ _ _)))
    rw [hk]
    exact ⟨rfl, rfl, rfl, rfl, rfl, rfl, rfl⟩
  · rw [e, hcore', hacc, hruns, hk]
    rw [hk] at hactive
    exact ⟨hactive, rfl, rfl⟩

/-! ## A tile is summed (R95 to R98, R106, R125 to R127) -/

theorem accWord_accPut (t : Tab W32) (w v u : Nat) : accWord (accPut t w v) u = if w = u then v % 2 ^ 32 else accWord t u := by
  unfold accWord accPut
  rw [Tab.get_setD]
  split
  · exact BitVec.toNat_ofNat v 32
  · rfl
/-- Words of the accumulator that a list of elements, each at a word of its own, has taken. -/
theorem foldl_accPut {ι : Type} (w : ι → Nat) (v : ι → Nat → Nat) (step : Tab W32 × List (Nat × Nat) → ι → Tab W32 × List (Nat × Nat))
    (hstep : ∀ a i, (step a i).1 = accPut a.1 (w i) (v i (accWord a.1 (w i)))) (l : List ι) (hl : l.Nodup) (hw : ∀ i ∈ l, ∀ j ∈ l, w i = w j → i = j)
    (a : Tab W32 × List (Nat × Nat)) : (∀ i ∈ l, accWord (l.foldl step a).1 (w i) = v i (accWord a.1 (w i)) % 2 ^ 32) ∧
      ∀ u, (∀ i ∈ l, w i ≠ u) → accWord (l.foldl step a).1 u = accWord a.1 u := by
  induction l generalizing a with
  | nil => exact ⟨fun i hi => absurd hi (List.not_mem_nil), fun _ _ => rfl⟩
  | cons i l ih =>
    obtain ⟨hi, hl⟩ := List.nodup_cons.mp hl
    have hfar : ∀ j ∈ l, w i ≠ w j := fun j hj he => hi (hw i (List.mem_cons_self ..) j (List.mem_cons_of_mem _ hj) he ▸ hj)
    obtain ⟨hin, hout⟩ := ih hl (fun x hx y hy => hw x (List.mem_cons_of_mem _ hx) y (List.mem_cons_of_mem _ hy)) (step a i)
    rw [List.foldl_cons]
    refine ⟨fun j hj => ?_, fun u hu => ?_⟩
    · rcases List.mem_cons.mp hj with rfl | hj
      · rw [hout _ fun x hx => (hfar x hx).symm, hstep, accWord_accPut, if_pos rfl]
      · rw [hin j hj, hstep, accWord_accPut, if_neg (hfar j hj)]
    · rw [hout u fun x hx => hu x (List.mem_cons_of_mem _ hx), hstep, accWord_accPut, if_neg (hu i (List.mem_cons_self ..))]
theorem foldl_foldl_product {α β γ : Type} (f : α → β → γ → α) (l : List β) (k : List γ) (a : α) :
    l.foldl (fun a x => k.foldl (fun a y => f a x y) a) a = (l ×ˢ k).foldl (fun a p => f a p.1 p.2) a := by
  induction l generalizing a with
  | nil => rfl
  | cons x l ih => rw [List.foldl_cons, ih, List.product_cons, List.foldl_append, List.foldl_map]

/-- The word of an element of a tile's results. -/
def TileRun.wordOf (r : TileRun) (mode row n : Nat) : Nat :=
  let s := shapeOf r.ins.shape
  128 * r.ins.abase + (row * s.npad mode + (r.tile % (s.tiles mode).2 * (blockDims mode s.cls).2 + n))
/-- The value of an element before the tile's sums, of the word's own. -/
def TileRun.startOf (r : TileRun) (mode old : Nat) : Nat :=
  if r.tile / ((shapeOf r.ins.shape).tiles mode).2 = 0 ∧ !r.ins.acc then 0 else old
/-- One element's turn, in a tile of results of one word. -/
def TileRun.turn (r : TileRun) (mode : Nat) (a : Tab W32 × List (Nat × Nat)) (row n : Nat) : Tab W32 × List (Nat × Nat) :=
  let s := shapeOf r.ins.shape
  let start := r.startOf mode (accWord a.1 (r.wordOf mode row n))
  let v := r.sum32 s mode row n start
  (accPut a.1 (r.wordOf mode row n) v,
    if (fp32.decode v).isNan && !(fp32.decode start).isNan then a.2 ++ [(row, r.tile % (s.tiles mode).2 * (blockDims mode s.cls).2 + n)] else a.2)
/-- What an element takes, of what its word held. -/
def TileRun.summed (r : TileRun) (mode : Nat) (p : Nat × Nat) (old : Nat) : Nat := r.sum32 (shapeOf r.ins.shape) mode p.1 p.2 (r.startOf mode old)
theorem TileRun.turn_fst (r : TileRun) (mode : Nat) (a : Tab W32 × List (Nat × Nat)) (p : Nat × Nat) :
    (r.turn mode a p.1 p.2).1 = accPut a.1 (r.wordOf mode p.1 p.2) (r.summed mode p (accWord a.1 (r.wordOf mode p.1 p.2))) := rfl
theorem Shape.e_one {s : Shape} (h : s.cls ≠ 2) : s.e = 1 := if_neg h
theorem TileRun.apply_eq (r : TileRun) (mode : Nat) (acc : Tab W32) (hcls : (shapeOf r.ins.shape).cls ≠ 2) :
    r.apply mode acc = (upto (shapeOf r.ins.shape).m).foldl (fun a row => (r.checkedCols (shapeOf r.ins.shape) mode).foldl (fun a n => r.turn mode a row n) a)
      (acc, []) := by
  unfold TileRun.apply
  simp only [hcls, if_false, Shape.e_one hcls, Nat.mul_one]
  rfl
theorem cdiv_pos {a b : Nat} (ha : 0 < a) (hb : 0 < b) : 0 < cdiv a b := Nat.div_pos (by omega) hb
theorem blockDims_pos (mode cls : Nat) (h : cls ≤ 2) : 0 < (blockDims mode cls).2 := by
  unfold blockDims
  interval_cases cls <;> split <;> decide
theorem Shape.cls_le (s : Shape) : s.cls ≤ 2 := by
  unfold Shape.cls
  split <;> (try split) <;> omega
theorem TileRun.wordOf_inj (r : TileRun) (mode : Nat) {row row' n n' : Nat} (hn : n < (blockDims mode (shapeOf r.ins.shape).cls).2)
    (hn' : n' < (blockDims mode (shapeOf r.ins.shape).cls).2) (h : r.wordOf mode row n = r.wordOf mode row' n') : row = row' ∧ n = n' := by
  have hb : 0 < (blockDims mode (shapeOf r.ins.shape).cls).2 := blockDims_pos mode _ (Shape.cls_le _)
  have ht : 0 < ((shapeOf r.ins.shape).tiles mode).2 := cdiv_pos (Nat.succ_pos _) hb
  unfold TileRun.wordOf Shape.npad at h
  dsimp only at h
  generalize (blockDims mode (shapeOf r.ins.shape).cls).2 = b at *
  generalize ((shapeOf r.ins.shape).tiles mode).2 = t at *
  have hlt : r.tile % t < t := Nat.mod_lt _ ht
  generalize r.tile % t = q at *
  have hin : ∀ x, x < b → q * b + x < t * b := fun x hx => by
    have : (q + 1) * b ≤ t * b := Nat.mul_le_mul_right b hlt
    rw [Nat.add_mul] at this
    omega
  have h1 := hin n hn
  have h2 := hin n' hn'
  have h3 : row * (t * b) + (q * b + n) = row' * (t * b) + (q * b + n') := by omega
  have hrow : row = row' := by
    have e := congrArg (· / (t * b)) h3
    simpa [Nat.add_comm _ (_ * (t * b)), Nat.add_mul_div_right _ _ (show 0 < t * b by omega), Nat.div_eq_of_lt h1, Nat.div_eq_of_lt h2,
      Nat.add_div_right, Nat.mul_add_div (show 0 < t * b by omega), Nat.mul_comm row, Nat.mul_comm row'] using e
  subst hrow
  exact ⟨rfl, by omega⟩
theorem TileRun.apply_sums (r : TileRun) (mode : Nat) (acc : Tab W32) (hcls : (shapeOf r.ins.shape).cls ≠ 2) {row n : Nat} (hrow : row < (shapeOf r.ins.shape).m)
    (hn : n < (blockDims mode (shapeOf r.ins.shape).cls).2)
    (hcol : r.tile % ((shapeOf r.ins.shape).tiles mode).2 * (blockDims mode (shapeOf r.ins.shape).cls).2 + n < (shapeOf r.ins.shape).n) :
    accWord (r.apply mode acc).1 (r.wordOf mode row n) =
      r.sum32 (shapeOf r.ins.shape) mode row n (r.startOf mode (accWord acc (r.wordOf mode row n))) % 2 ^ 32 := by
  have hcols : ∀ x ∈ r.checkedCols (shapeOf r.ins.shape) mode, x < (blockDims mode (shapeOf r.ins.shape).cls).2 := fun x hx =>
    mem_upto.mp (List.mem_filter.mp hx).1
  have hmem : (row, n) ∈ upto (shapeOf r.ins.shape).m ×ˢ r.checkedCols (shapeOf r.ins.shape) mode :=
    List.mem_product.mpr ⟨mem_upto.mpr hrow, List.mem_filter.mpr ⟨mem_upto.mpr hn, decide_eq_true hcol⟩⟩
  rw [r.apply_eq mode acc hcls, foldl_foldl_product]
  have hinj : ∀ i ∈ upto (shapeOf r.ins.shape).m ×ˢ r.checkedCols (shapeOf r.ins.shape) mode,
      ∀ j ∈ upto (shapeOf r.ins.shape).m ×ˢ r.checkedCols (shapeOf r.ins.shape) mode, r.wordOf mode i.1 i.2 = r.wordOf mode j.1 j.2 → i = j := by
    intro i hi j hj he
    obtain ⟨h1, h2⟩ := r.wordOf_inj mode (hcols _ (List.mem_product.mp hi).2) (hcols _ (List.mem_product.mp hj).2) he
    exact Prod.ext h1 h2
  have hnodup : (upto (shapeOf r.ins.shape).m ×ˢ r.checkedCols (shapeOf r.ins.shape) mode).Nodup :=
    List.Nodup.product List.nodup_range (List.nodup_range.filter _)
  generalize upto (shapeOf r.ins.shape).m ×ˢ r.checkedCols (shapeOf r.ins.shape) mode = l at *
  exact (foldl_accPut (fun p : Nat × Nat => r.wordOf mode p.1 p.2) (r.summed mode) (fun a p => r.turn mode a p.1 p.2) (r.turn_fst mode) l hnodup hinj
    (acc, [])).1 (row, n) hmem

/-- The queue of a patch of which a tile has been summed. -/
def Patch.sumQueue (pa : Patch) (mode seq : Nat) : List MatInstr :=
  (pa.queue.map fun y => if y.seq = seq then { y with summed := y.summed + 1 } else y).filter
    fun y => y.pre || y.zero.isSome || decide (y.summed < y.total mode)
theorem Patch.sumQueue_noZeros {pa : Patch} (h : pa.queue.all (·.zero.isNone) = true) (mode seq : Nat) :
    (pa.sumQueue mode seq).all (·.zero.isNone) = true := by
  refine List.all_eq_true.mpr fun y hy => ?_
  obtain ⟨z, hz, rfl⟩ := List.mem_map.mp (List.mem_filter.mp hy).1
  have := List.all_eq_true.mp h z hz
  split <;> exact this
/-- The core whose patch's oldest tile has been summed into new accumulators. -/
def Core.tileSummed (k : Core) (p : Nat) (rest : List TileRun) (seq : Nat) (acc : Tab W32) (stop : Bool) : Core :=
  (((({ k with mat := { k.mat with acc := acc } } : Core).setPatch p { k.patch p with
    runs := rest, queue := (k.patch p).sumQueue k.mode seq, nanStop := stop }).askLoad p).settleZeros zeroMax)
theorem Core.tileSummed_spec {k : Core} (hz : k.noZeros) (p : Nat) (rest : List TileRun) (seq : Nat) (acc : Tab W32) (stop : Bool) :
    k.spares (k.tileSummed p rest seq acc stop) ∧ ((k.tileSummed p rest seq acc stop).patch p).runs = rest ∧ (k.tileSummed p rest seq acc stop).ctl = k.ctl ∧
      (k.tileSummed p rest seq acc stop).mat.acc = acc := by
  obtain ⟨x, hx⟩ : ∃ x : Patch, x = { k.patch p with runs := rest, queue := (k.patch p).sumQueue k.mode seq, nanStop := stop } := ⟨_, rfl⟩
  unfold Core.tileSummed
  rw [← hx]
  obtain ⟨a, sh, prt, e⟩ := ({ k with mat := { k.mat with acc := acc } } : Core).askLoad_setPatch p x
  have hno : (({ k with mat := { k.mat with acc := acc } } : Core).ported (Tab.put k.mat.patches p { x with asked := a, shadow := sh }) prt).noZeros :=
    Core.noZeros_put hz rfl (by rw [hx]; exact Patch.sumQueue_noZeros (hz.patch p) _ _)
  rw [e, Core.settleZeros_none hno]
  refine ⟨⟨rfl, rfl, rfl, rfl, rfl, rfl, rfl⟩, ?_, rfl, rfl⟩
  simp only [Core.patch, Core.ported, Tab.get_put_self, hx]
theorem rowTileRowsSummed_eq {m : Mod} {c : CoreId} {p : PatchId} {r : TileRun} {rest : List TileRun} (hnew : (m.core c).ctlNew = [])
    (hruns : ((m.core c).patch p.val).runs = r :: rest) (hoff : bit ((m.core c).creg 0x1000) 8 = false) : rowTileRowsSummed c p m =
      (m.setCore c.val ((m.core c).tileSummed p.val rest r.ins.seq (r.apply (m.core c).mode (m.core c).mat.acc).1
        (((m.core c).patch p.val).nanStop || false))).evCore c.val 0x08 (shapeOf r.ins.shape).m := by
  have hbit : bit (m.useCreg c.val 0x1000) 8 = false := by rw [Mod.useCreg_settled hnew]; exact hoff
  unfold rowTileRowsSummed
  simp only [hruns, hbit, Bool.false_and, Bool.false_eq_true, if_false]
  rfl
theorem completes_tileRowsSummed {s : State} {c : CoreId} {p : PatchId} {r : TileRun} {rest : List TileRun} (hpow : s.m.powered = true)
    (hnew : (s.m.core c).ctlNew = []) (hruns : ((s.m.core c).patch p).runs = r :: rest) (hoff : bit ((s.m.core c).creg 0x1000) 8 = false)
    (hz : (s.m.core c).noZeros) : completes (.tileRowsSummed c p) s fun t => s.m.unit t c id ∧ ((t.core c).patch p).runs = rest ∧
      (t.core c).ctl = (s.m.core c).ctl ∧ (t.core c).mat.acc = (r.apply (s.m.core c).mode (s.m.core c).mat.acc).1 := by
  have e := rowTileRowsSummed_eq hnew hruns hoff
  generalize (r.apply (s.m.core c).mode (s.m.core c).mat.acc).1 = acc at e ⊢
  obtain ⟨k, hk⟩ : ∃ k, k = (s.m.core c.val).tileSummed p.val rest r.ins.seq acc (((s.m.core c).patch p.val).nanStop || false) := ⟨_, rfl⟩
  obtain ⟨hspares, hrest⟩ := Core.tileSummed_spec hz p.val rest r.ins.seq acc (((s.m.core c).patch p.val).nanStop || false)
  rw [← hk] at e hspares hrest
  have hcore : (rowTileRowsSummed c p s.m).core c.val = k := by rw [e, Mod.core_evCore, Mod.core_setCore_self]
  refine completes_unit (f := fun m => rowTileRowsSummed c p m) rfl hpow (Mod.unit_of_spares (by rw [hcore]; exact hspares) ?_) (by rw [hcore]; exact hrest)
  rw [e]
  exact Mod.apart_trans (Mod.apart_setCore _ c _) (Mod.apart_evCore _ c _ _ _)

/-! ## A basted tile is checked (R152 to R154) -/

/-- The core whose buffer's tile, of one checked element, has been compared: without a disagreement. -/
def Core.basteFree (k : Core) : Core := { k with mat := { k.mat with baste := none } }
/-- The mark that a disagreement leaves (R155). -/
def Core.basteMarked (k : Core) (piece place nar ref mag : W64) : Core :=
  if k.cregf 0x1230 0 0 = 1 then k.setCregf 0x1230 1 1 1
  else (((((k.setCreg 0x1238 piece).setCreg 0x1240 place).setCreg 0x1248 nar).setCreg 0x1250 ref).setCreg 0x1258 mag).setCregf 0x1230 0 0 1
/-- Only control registers differ. -/
def Core.onlyCtl (k q : Core) : Prop := ∃ t, q = { k with ctl := t }
theorem Core.onlyCtl_setCreg {k q : Core} (h : k.onlyCtl q) (a : Nat) (v : W64) : k.onlyCtl (q.setCreg a v) := by
  obtain ⟨t, rfl⟩ := h
  exact ⟨_, rfl⟩
theorem Core.onlyCtl.spares {k q : Core} (h : k.onlyCtl q) : k.spares q := by
  obtain ⟨t, rfl⟩ := h
  exact ⟨rfl, rfl, rfl, rfl, rfl, rfl, rfl⟩
theorem Core.onlyCtl.mat {k q : Core} (h : k.onlyCtl q) : q.mat = k.mat := by
  obtain ⟨t, rfl⟩ := h
  rfl
theorem Core.onlyCtl_basteMarked (k : Core) (piece place nar ref mag : W64) : k.onlyCtl (k.basteMarked piece place nar ref mag) := by
  have h0 : k.onlyCtl k := ⟨k.ctl, rfl⟩
  unfold Core.basteMarked
  split
  · exact Core.onlyCtl_setCreg h0 _ _
  · exact Core.onlyCtl_setCreg (Core.onlyCtl_setCreg (Core.onlyCtl_setCreg (Core.onlyCtl_setCreg (Core.onlyCtl_setCreg (Core.onlyCtl_setCreg h0 _ _) _ _) _ _)
      _ _) _ _) _ _
theorem Core.basteMarked_shows (k : Core) (piece place nar ref mag : W64) : (k.basteMarked piece place nar ref mag).cregf 0x1230 0 0 = 1 ∧
    (k.basteMarked piece place nar ref mag).cregf 0x1220 47 0 = k.cregf 0x1220 47 0 := by
  unfold Core.basteMarked
  split
  next h =>
    refine ⟨?_, Core.cregf_setCregf_ne _ _ _ _ _ _ (by decide)⟩
    rw [Core.cregf_setCregf_apart _ _ _ _ _ _ _ (by decide) (by decide), h]
  next =>
    refine ⟨Core.cregf_setCregf_self _ _ _ _ _ (by decide), ?_⟩
    simp [Core.cregf, Core.setCregf, Core.creg_setCreg]
/-- A core on which one disagreement has been found. -/
def Core.basteFound (k : Core) (piece place nar ref mag : W64) (trap : Bool) : Core :=
  let q := (k.basteFree.incCregBy 0x1220 1).basteMarked piece place nar ref mag
  if trap then q.addPend 7 else q
theorem Core.basteFound_spec (k : Core) (piece place nar ref mag : W64) (trap : Bool) : k.spares (k.basteFound piece place nar ref mag trap) ∧
    (k.basteFound piece place nar ref mag trap).mat.baste = none ∧ (k.basteFound piece place nar ref mag trap).mat.acc = k.mat.acc ∧
    (k.basteFound piece place nar ref mag trap).cregf 0x1220 47 0 = (k.cregf 0x1220 47 0 + 1) % 2 ^ 48 ∧
    (k.basteFound piece place nar ref mag trap).cregf 0x1230 0 0 = 1 ∧ (trap = true → 7 ∈ (k.basteFound piece place nar ref mag trap).pend) := by
  obtain ⟨q, hq⟩ : ∃ q, q = k.basteFree.incCregBy 0x1220 1 := ⟨_, rfl⟩
  have hfree : k.spares k.basteFree := ⟨rfl, rfl, rfl, rfl, rfl, rfl, rfl⟩
  have honly : k.basteFree.onlyCtl q := hq ▸ Core.onlyCtl_setCreg ⟨_, rfl⟩ _ _
  have hcount : q.cregf 0x1220 47 0 = (k.cregf 0x1220 47 0 + 1) % 2 ^ 48 := hq ▸ Core.cregf_incCregBy k.basteFree 0x1220 1
  obtain ⟨r, hr⟩ : ∃ r, r = q.basteMarked piece place nar ref mag := ⟨_, rfl⟩
  have hmarked : q.onlyCtl r := hr ▸ q.onlyCtl_basteMarked piece place nar ref mag
  obtain ⟨hmark, hkept⟩ := q.basteMarked_shows piece place nar ref mag
  rw [← hr] at hmark hkept
  have hspares : k.spares r := Core.spares_trans hfree (Core.spares_trans honly.spares hmarked.spares)
  have hmat : r.mat = k.basteFree.mat := hmarked.mat.trans honly.mat
  have hctl : ∀ v, (r.addPend v).ctl = r.ctl := fun v => by unfold Core.addPend; split <;> rfl
  unfold Core.basteFound
  dsimp only
  rw [← hq, ← hr]
  cases trap with
  | false =>
    rw [if_neg Bool.false_ne_true, hmat]
    exact ⟨hspares, rfl, rfl, hkept.trans hcount, hmark, fun h => absurd h Bool.false_ne_true⟩
  | true =>
    rw [if_pos rfl, Core.mat_addPend, hmat, Core.cregf_congr (hctl 7), Core.cregf_congr (hctl 7)]
    exact ⟨Core.spares_trans hspares (Core.spares_addPend r 7), rfl, rfl, hkept.trans hcount, hmark, fun _ => Core.mem_pend_addPend r 7⟩
/-- The bits of the tolerance by width of the weights (R154). -/
def basteTol (btol : W64) (bits : Nat) : Nat := match bits with | 4 => fld btol 4 0 | 8 => fld btol 12 8 | _ => fld btol 20 16
/-- What a disagreement records: row, column, narrow value, reference and magnitude. -/
def Core.basteEntry (k : Core) (bt : Basted) (nar row n : Nat) : Nat × Nat × Nat × Nat × Nat :=
  let g := if bit (k.creg 0x1200) 2 then fp64 else fp32
  (row, n, nar, bt.run.reference g (shapeOf bt.run.ins.shape) bt.mode row n)
/-- The only checked element of a basted tile disagrees with its reference (R154). -/
def Core.basteBad (k : Core) (bt : Basted) (nar row n : Nat) : Bool :=
  let g := if bit (k.creg 0x1200) 2 then fp64 else fp32
  let rf := bt.run.reference g (shapeOf bt.run.ins.shape) bt.mode row n
  disagrees g (basteTol (k.creg 0x1208) (codeBits (shapeOf bt.run.ins.shape).wf)) (fp32.decode nar) (g.decode rf.1) (g.decode rf.2)
/-- The disagreements of a tile of one checked element. -/
theorem basteList_one (f : Nat → Nat × Nat → Option (Nat × Nat × Nat × Nat × Nat)) (n : Nat) (nar : W32) :
    ((upto (if [n].isEmpty then 0 else [nar].length / [n].length)).flatMap fun row => [n].zipIdx.filterMap (f row)) = (f 0 (n, 0)).toList := by
  simp only [List.isEmpty_cons, Bool.false_eq_true, if_false, List.length_singleton, Nat.div_self Nat.one_pos, upto, List.range_one, List.flatMap_cons,
    List.flatMap_nil, List.append_nil, List.zipIdx_singleton]
  cases h : f 0 (n, 0) <;> simp [h]
/-- What the place of a mark tells of a tile (R155). -/
def Basted.place (bt : Basted) (row n : Nat) : Nat :=
  let r := bt.run
  let sh := shapeOf r.ins.shape
  let tl := (sh.tiles bt.mode).2
  bt.patch * 2 ^ 40 + r.tile / tl * 2 ^ 30 + r.tile % tl * 2 ^ 20 + row * 2 ^ 10 + (r.tile % tl * (blockDims bt.mode sh.cls).2 + n)
/-- The core after a comparison that found the disagreements `bad`, one at most. -/
def Core.basteAfter (k : Core) (bt : Basted) (cfg : W64) : Option (Nat × Nat × Nat × Nat × Nat) → Core
  | none => k.basteFree
  | some (row, n, nar, ref, mag) => k.basteFound (w64 (bt.piece % 2 ^ 16 * 2 ^ 48 + bt.run.ins.pc % 2 ^ 48)) (w64 (bt.place row n))
      (w64 (fp64.round false (fp32.decode nar))) (w64 (fp64.round false ((if bit cfg 2 then fp64 else fp32).decode ref)))
      (w64 (fp64.round false ((if bit cfg 2 then fp64 else fp32).decode mag))) (bit cfg 3)
theorem rowBasteCheck_eq {m : Mod} {c : CoreId} {bt : Basted} {n : Nat} {nar : W32} (hnew : (m.core c).ctlNew = []) (hbaste : (m.core c).mat.baste = some bt)
    (hcols : bt.run.checkedCols (shapeOf bt.run.ins.shape) bt.mode = [n]) (hnar : bt.narrow = [nar]) :
    ∃ cost, rowBasteCheck c m = (m.setCore c.val ((m.core c).basteAfter bt ((m.core c).creg 0x1200)
      (if (m.core c).basteBad bt nar.toNat 0 n then some ((m.core c).basteEntry bt nar.toNat 0 n) else none))).evCore c.val 0x0B cost := by
  unfold rowBasteCheck
  simp only [hbaste, hcols, hnar, Mod.useCreg_settled hnew, basteList_one]
  refine ⟨_, congrArg (fun k => (m.setCore c.val k).evCore c.val 0x0B _) ?_⟩
  rw [show [nar].getD (0 * [n].length + 0) 0 = nar from rfl]
  generalize hD : disagrees _ _ _ _ _ = bad
  rw [show (m.core c).basteBad bt nar.toNat 0 n = bad from hD]
  cases bad <;> rfl

theorem completes_basteCheck {s : State} {c : CoreId} {bt : Basted} {n : Nat} {nar : W32} (hpow : s.m.powered = true) (hnew : (s.m.core c).ctlNew = [])
    (hbaste : (s.m.core c).mat.baste = some bt) (hcols : bt.run.checkedCols (shapeOf bt.run.ins.shape) bt.mode = [n]) (hnar : bt.narrow = [nar]) :
    completes (.basteCheck c) s fun t => s.m.unit t c id ∧ (t.core c).mat.baste = none ∧ (t.core c).mat.acc = (s.m.core c).mat.acc ∧
      ((s.m.core c).basteBad bt nar.toNat 0 n = false → (t.core c).ctl = (s.m.core c).ctl) ∧
      ((s.m.core c).basteBad bt nar.toNat 0 n = true → s.m.counted t c 0x1220 1 ∧ (t.core c).cregf 0x1230 0 0 = 1 ∧
        (bit ((s.m.core c).creg 0x1200) 3 = true → 7 ∈ (t.core c).pend)) := by
  obtain ⟨cost, e⟩ := rowBasteCheck_eq hnew hbaste hcols hnar
  generalize hbad : (s.m.core c).basteBad bt nar.toNat 0 n = bad at e
  obtain ⟨k, hk⟩ : ∃ k, k = (s.m.core c).basteAfter bt ((s.m.core c).creg 0x1200) (if bad then some ((s.m.core c).basteEntry bt nar.toNat 0 n) else none) :=
    ⟨_, rfl⟩
  rw [← hk] at e
  have hcore : (rowBasteCheck c s.m).core c.val = k := by rw [e, Mod.core_evCore, Mod.core_setCore_self]
  have hspec : (s.m.core c.val).spares k ∧ k.mat.baste = none ∧ k.mat.acc = (s.m.core c).mat.acc ∧ (bad = false → k.ctl = (s.m.core c).ctl) ∧
      (bad = true → k.cregf 0x1220 47 0 = ((s.m.core c).cregf 0x1220 47 0 + 1) % 2 ^ 48 ∧ k.cregf 0x1230 0 0 = 1 ∧
        (bit ((s.m.core c).creg 0x1200) 3 = true → 7 ∈ k.pend)) := by
    cases bad with
    | false =>
      rw [hk]
      exact ⟨⟨rfl, rfl, rfl, rfl, rfl, rfl, rfl⟩, rfl, rfl, fun _ => rfl, fun h => absurd h Bool.false_ne_true⟩
    | true =>
      obtain ⟨hspares, hnone, hacc, hcount, hmark, hpend⟩ := (s.m.core c.val).basteFound_spec (w64 (bt.piece % 2 ^ 16 * 2 ^ 48 + bt.run.ins.pc % 2 ^ 48))
        (w64 (bt.place 0 n)) (w64 (fp64.round false (fp32.decode nar.toNat)))
        (w64 (fp64.round false ((if bit ((s.m.core c).creg 0x1200) 2 then fp64 else fp32).decode ((s.m.core c).basteEntry bt nar.toNat 0 n).2.2.2.1)))
        (w64 (fp64.round false ((if bit ((s.m.core c).creg 0x1200) 2 then fp64 else fp32).decode ((s.m.core c).basteEntry bt nar.toNat 0 n).2.2.2.2)))
        (bit ((s.m.core c).creg 0x1200) 3)
      rw [hk]
      exact ⟨hspares, hnone, hacc, fun h => absurd h.symm Bool.false_ne_true, fun _ => ⟨hcount, hmark, hpend⟩⟩
  obtain ⟨hspares, hspec⟩ := hspec
  refine completes_unit (f := fun m => rowBasteCheck c m) rfl hpow (Mod.unit_of_spares (by rw [hcore]; exact hspares) ?_) ?_
  · rw [e]
    exact Mod.apart_trans (Mod.apart_setCore _ c _) (Mod.apart_evCore _ c _ _ _)
  · unfold Mod.counted
    rw [hcore]
    exact hspec

/-- Settles O21: each command leaves of its core what its case says; where a patch's tile has been summed, every element's word is its own. -/
theorem tileLife : Obligations.TileLife := by
  unfold Obligations.TileLife
  intro s c p hpow hcue hheld hnew
  refine ⟨fun r rest hport hpre hfenced hfree => ⟨fun hsound => completes_weightPortGrant hpow hcue hheld hport hpre hfenced hfree hsound,
    fun g hlo hhi => completes_weightPortGrant_bad hpow hcue hheld hport hpre hfenced hfree hlo hhi⟩, ?start, ?sum, ?baste⟩
  case start =>
    intro x j l hnext hshadow hpre hsrc hserves hnan hfree hoff sh b ab bad
    refine (completes_tileStart bad hpow hcue hheld hnew hnext hshadow hpre hsrc hserves hnan hfree hoff).mono fun t ht => ?_
    obtain ⟨hunit, hactive, hacc, hruns⟩ := ht
    exact ⟨hunit, hactive, hacc, _, hruns, rfl, rfl, rfl, rfl⟩
  case sum =>
    intro r rest hruns hoff hz
    refine (completes_tileRowsSummed hpow hnew hruns hoff hz).mono fun t ht => ?_
    obtain ⟨hunit, hrest, hctl, hacc⟩ := ht
    refine ⟨hunit, hrest, hctl, fun hcls row n hrow hn hcol => ?_⟩
    rw [hacc]
    refine (r.apply_sums (s.m.core c).mode (s.m.core c).mat.acc hcls hrow hn hcol).trans ?_
    simp only [TileRun.startOf, Bool.not_eq_true']
    rfl
  case baste =>
    intro bt n nar hbaste hcols hnar
    exact completes_basteCheck hpow hnew hbaste hcols hnar

end Sys2Proof.Machine
end

section
/-! Messages of the coherence protocol as they are sent, and the ways of the caches and of the directory (R344, R346, R351, R353, R357). -/

namespace Sys2Proof.Machine

/-! ## Messages sent -/

/-- Messages have been sent, and nothing else has happened but events counted at selectable counters. -/
structure Mod.says (m t : Mod) (xs : List CMsg) : Prop where
  eq : ∃ b, t = { m with coh := { m.coh with msgs := m.coh.msgs ++ xs }, bar0 := b }
  regs : ∀ a, a < bMON → t.rd a = m.rd a
theorem Mod.says_nil (m : Mod) : m.says m [] := ⟨⟨m.bar0, by simp⟩, fun _ _ => rfl⟩
theorem Mod.says_trans {m t u : Mod} {xs ys : List CMsg} (h : m.says t xs) (g : t.says u ys) : m.says u (xs ++ ys) := by
  obtain ⟨⟨b, rfl⟩, hr⟩ := h
  obtain ⟨⟨d, rfl⟩, gr⟩ := g
  exact ⟨⟨d, by simp⟩, fun a ha => (gr a ha).trans (hr a ha)⟩
theorem Mod.onlyBar_crosses (m : Mod) (src dst part : Option Nat) : m.onlyBar (m.crosses src dst part) ∧ ∀ a, a < bMON → (m.crosses src dst part).rd a = m.rd a := by
  unfold Mod.crosses
  repeat' split
  · exact ⟨Mod.onlyBar_refl m, fun _ _ => rfl⟩
  · exact ⟨Mod.onlyBar_evPanel m _ _ _ _, fun a ha => Mod.rd_evPanel m _ _ _ a _ ha⟩
  · exact ⟨Mod.onlyBar_refl m, fun _ _ => rfl⟩
theorem Mod.onlyBar_cohCrosses (m : Mod) (agent la : Nat) (toHome : Bool) :
    m.onlyBar (m.cohCrosses agent la toHome) ∧ ∀ a, a < bMON → (m.cohCrosses agent la toHome).rd a = m.rd a := by
  unfold Mod.cohCrosses
  dsimp only
  split <;> exact Mod.onlyBar_crosses m _ _ _
theorem Mod.onlyBar.eq {m t : Mod} (h : m.onlyBar t) : t = { m with bar0 := t.bar0 } :=
  calc t = { ({ t with bar0 := m.bar0 } : Mod) with bar0 := t.bar0 } := rfl
    _ = { m with bar0 := t.bar0 } := by rw [h.rest]
theorem Mod.says_csend (m : Mod) (x : CMsg) : m.says (m.csend x) [x] := by
  obtain ⟨h, hr⟩ := ({ m with coh := { m.coh with msgs := m.coh.msgs ++ [x] } } : Mod).onlyBar_cohCrosses x.agent x.la x.kind.toHome
  exact ⟨⟨_, h.eq⟩, hr⟩
theorem Mod.says_foldl {α : Type} (f : α → CMsg) (xs : List α) (m : Mod) : m.says (xs.foldl (fun m a => m.csend (f a)) m) (xs.map f) := by
  induction xs generalizing m with
  | nil => exact m.says_nil
  | cons a xs ih => exact Mod.says_trans (m.says_csend (f a)) (ih _)

section
variable {m t : Mod} {xs : List CMsg}

theorem Mod.says.msgs (h : m.says t xs) : t.coh.msgs = m.coh.msgs ++ xs := by obtain ⟨⟨b, rfl⟩, -⟩ := h; rfl
theorem Mod.says.cores (h : m.says t xs) : t.cores = m.cores := by obtain ⟨⟨b, rfl⟩, -⟩ := h; rfl
theorem Mod.says.core (h : m.says t xs) (d : Nat) : t.core d = m.core d := by obtain ⟨⟨b, rfl⟩, -⟩ := h; rfl
theorem Mod.says.mem (h : m.says t xs) : t.mem = m.mem := by obtain ⟨⟨b, rfl⟩, -⟩ := h; rfl
theorem Mod.says.dir (h : m.says t xs) : t.coh.dir = m.coh.dir := by obtain ⟨⟨b, rfl⟩, -⟩ := h; rfl
theorem Mod.says.pnc (h : m.says t xs) : t.coh.pnc = m.coh.pnc := by obtain ⟨⟨b, rfl⟩, -⟩ := h; rfl
theorem Mod.says.starve (h : m.says t xs) : t.coh.starve = m.coh.starve := by obtain ⟨⟨b, rfl⟩, -⟩ := h; rfl
theorem Mod.says.asks (h : m.says t xs) : t.coh.asks = m.coh.asks := by obtain ⟨⟨b, rfl⟩, -⟩ := h; rfl
theorem Mod.says.tallied (h : m.says t xs) {a n : Nat} (ha : a < bMON) {u : Mod} (hu : u.tallied m a n) : u.tallied t a n := by
  unfold Mod.tallied Mod.rdf at *
  rw [h.regs a ha]
  exact hu

end

/-- The offers of a core that its writeback buffer holds and that are not yet sent. -/
def CoreMem.unsent (k : CoreMem) : List CMsg := ((k.wb.take 8).filter fun e => !e.sent).map fun e =>
  ({ kind := if e.dirty then .putm else .putc, la := e.la, agent := 0, dirty := e.dirty, poison := e.poison } : CMsg)
/-- The buffer once they are. -/
def CoreMem.offered (k : CoreMem) : CoreMem := { k with wb := (k.wb.take 8).map (fun e => { e with sent := true }) ++ k.wb.drop 8 }
/-- Offers on their way. -/
theorem Mod.sendOffers_spec (m : Mod) (c : Nat) : ∃ t, m.says t (((m.core c).mem.unsent).map fun x => { x with agent := c }) ∧
    m.sendOffers c = t.updMem c CoreMem.offered := by
  have h := Mod.says_foldl (fun e : WbEntry => ({ kind := if e.dirty then .putm else .putc, la := e.la, agent := c, dirty := e.dirty, poison := e.poison } : CMsg))
    (((m.core c).mem.wb.take 8).filter fun e => !e.sent) m
  refine ⟨_, ?_, rfl⟩
  rw [CoreMem.unsent, List.map_map]
  exact h
theorem Mod.core_updMem_self (m : Mod) (c : Nat) (f : CoreMem → CoreMem) : (m.updMem c f).core c = { m.core c with mem := f (m.core c).mem } :=
  Mod.core_updCore_self m c _
theorem Mod.core_updMem_ne (m : Mod) {c d : Nat} (f : CoreMem → CoreMem) (h : d ≠ c) : (m.updMem c f).core d = m.core d := Mod.core_updCore_ne m _ h

/-! ## Ways -/

/-- What a search of a set finds at its `j`th way. -/
def wayAt {α : Type} (t : Tab (Way α)) (base key j : Nat) : Option (Nat × Way α) :=
  match Tab.get? t (base + j) with
  | some w => if w.key = key then some (base + j, w) else none
  | none => none
theorem findWay_eq {α : Type} (t : Tab (Way α)) (base n key : Nat) : findWay t base n key = (upto n).findSome? (wayAt t base key) := rfl
theorem wayAt_some {α : Type} {t : Tab (Way α)} {base key j : Nat} {r : Nat × Way α} (h : wayAt t base key j = some r) :
    r.1 = base + j ∧ Tab.get? t (base + j) = some r.2 ∧ r.2.key = key := by
  unfold wayAt at h
  split at h
  next w hw =>
    split at h
    next hk => cases h; exact ⟨rfl, hw, hk⟩
    next => cases h
  next => cases h
theorem findWay_some {α : Type} {t : Tab (Way α)} {base n key : Nat} {r : Nat × Way α} (h : findWay t base n key = some r) :
    Tab.get? t r.1 = some r.2 ∧ r.2.key = key ∧ base ≤ r.1 ∧ r.1 < base + n := by
  rw [findWay_eq] at h
  obtain ⟨j, hj, hr⟩ := List.exists_of_findSome?_eq_some h
  obtain ⟨h1, h2, h3⟩ := wayAt_some hr
  have := mem_upto.mp hj
  exact ⟨h1 ▸ h2, h3, by omega, by omega⟩
/-- A way found is found again with other contents. -/
theorem findWay_put {α : Type} {t : Tab (Way α)} {base n key i : Nat} {w w' : Way α} (h : findWay t base n key = some (i, w)) (hw : w'.key = key) :
    findWay (Tab.put t i w') base n key = some (i, w') := by
  rw [findWay_eq, List.findSome?_eq_some_iff] at h ⊢
  obtain ⟨l1, j, l2, hl, hj, hno⟩ := h
  obtain ⟨hi, -, -⟩ := wayAt_some hj
  dsimp only at hi
  subst hi
  refine ⟨l1, j, l2, hl, by simp [wayAt, hw], fun x hx => ?_⟩
  have hxj : x ≠ j := by
    rintro rfl
    have hnd : (upto n).Nodup := List.nodup_range
    rw [hl, List.nodup_append] at hnd
    exact hnd.2.2 x hx x (List.mem_cons_self ..) rfl
  have := hno x hx
  unfold wayAt at this ⊢
  rw [Tab.get?_put, if_neg (by omega)]
  exact this
/-- A way alone with its key is gone once it is freed. -/
theorem findWay_del {α : Type} {t : Tab (Way α)} {base n key i : Nat} (h : ∀ j w, Tab.get? t j = some w → w.key = key → j = i) :
    findWay (Tab.del t i) base n key = none := by
  rw [findWay_eq, List.findSome?_eq_none_iff]
  intro j _
  unfold wayAt
  rw [Tab.get?_del]
  split
  next w hw =>
    split at hw
    next => cases hw
    next hij => exact if_neg fun hk => hij (h _ w hw hk).symm
  next => rfl

/-! ## The L2 (R346, R349, R353) -/

theorem CoreMem.state_congr {k q : CoreMem} (h : q.l2 = k.l2) (la : Nat) : q.state la = k.state la := by unfold CoreMem.state; rw [h]
theorem CoreMem.dropL1_keeps (k : CoreMem) (la : Nat) : { k.dropL1 la with l1d := k.l1d } = k := by
  unfold CoreMem.dropL1
  split <;> rfl
theorem CoreMem.foldl_dropL1_keeps {α : Type} (f : α → Nat) (xs : List α) (k : CoreMem) :
    { xs.foldl (fun k p => k.dropL1 (f p)) k with l1d := k.l1d } = k := by
  induction xs generalizing k with
  | nil => rfl
  | cons p xs ih =>
    rw [List.foldl_cons]
    have h := ih (k.dropL1 (f p))
    calc ({ xs.foldl (fun k p => k.dropL1 (f p)) (k.dropL1 (f p)) with l1d := k.l1d } : CoreMem) =
          { ({ xs.foldl (fun k p => k.dropL1 (f p)) (k.dropL1 (f p)) with l1d := (k.dropL1 (f p)).l1d } : CoreMem) with l1d := k.l1d } := rfl
      _ = { k.dropL1 (f p) with l1d := k.l1d } := by rw [h]
      _ = k := k.dropL1_keeps (f p)
/-- A line installed stands in its state; misses stay. -/
theorem CoreMem.install_spec (k : CoreMem) (la : Nat) (st : Mesi) (age : Nat) : (k.install la st age).state la = st ∧ (k.install la st age).misses = k.misses := by
  unfold CoreMem.install
  cases h : findWay k.l2 (l2Base la) 8 (la / 4) with
  | some r =>
    obtain ⟨i, w⟩ := r
    obtain ⟨-, hk, -⟩ := findWay_some h
    refine ⟨?_, rfl⟩
    unfold CoreMem.state
    dsimp only
    rw [findWay_put h]
    · exact Tab.get_put_self ..
    · exact hk
  | none =>
    have hfound := findWay_insWay age ({ sub := [(la % 4, st)] } : L2Line) (show 0 < 8 by decide) h
    have hstate : ∀ q : CoreMem, q.l2 = (insWay k.l2 (l2Base la) 8 (la / 4) age ({ sub := [(la % 4, st)] } : L2Line)).1 → q.state la = st := by
      intro q hq
      unfold CoreMem.state
      rw [hq]
      split
      next i w hw =>
        rw [hw] at hfound
        have hval : w.val = { sub := [(la % 4, st)] } := Option.some.inj hfound
        rw [hval]
        simp [Tab.get, Tab.get?]
      next hw => rw [hw] at hfound; cases hfound
    dsimp only
    split
    next => exact ⟨hstate _ rfl, rfl⟩
    next v _ =>
      have hkeep := CoreMem.foldl_dropL1_keeps (fun p : Nat × Mesi => v.key * 4 + p.1) v.val.sub
        { k with l2 := (insWay k.l2 (l2Base la) 8 (la / 4) age ({ sub := [(la % 4, st)] } : L2Line)).1 }
      exact ⟨hstate _ (congrArg CoreMem.l2 hkeep :), (congrArg CoreMem.misses hkeep :)⟩
/-- A line held stands in the state set. -/
theorem CoreMem.state_setState {k : CoreMem} {la : Nat} {st : Mesi} (hd : k.distinct) (h : k.state la ≠ .i) : (k.setState la st).state la = st := by
  unfold CoreMem.setState
  unfold CoreMem.state at h
  cases hf : findWay k.l2 (l2Base la) 8 (la / 4) with
  | none => rw [hf] at h; exact absurd rfl h
  | some r =>
    obtain ⟨i, w⟩ := r
    obtain ⟨hget, hk, -⟩ := findWay_some hf
    dsimp only at hget hk ⊢
    split
    next hst =>
      have hl2 : (k.dropL1 la).l2 = k.l2 := (congrArg CoreMem.l2 (k.dropL1_keeps la) :)
      split
      next =>
        unfold CoreMem.state
        dsimp only
        rw [hl2, findWay_del fun j v hj hv => hd j i v w hj hget (hv.trans hk.symm), hst]
      next =>
        unfold CoreMem.state
        dsimp only
        rw [hl2, findWay_put hf, hst]
        · simp [Tab.get, Tab.get?_del]
        · exact hk
    next =>
      unfold CoreMem.state
      dsimp only
      rw [findWay_put hf]
      · exact Tab.get_put_self ..
      · exact hk

end Sys2Proof.Machine
end

section
/-! Messages at an L2: grants, NAKs and retries, answered offers, and demands of the home (R353 to R358, R363), and O33. -/

namespace Sys2Proof.Machine

/-- The module with the message at a place taken. -/
def Mod.untold (m : Mod) (k : Nat) : Mod := { m with coh := { m.coh with msgs := m.coh.msgs.eraseIdx k } }
theorem Mod.takeC_eq {m : Mod} {k : Nat} {kind : CKind} {x : CMsg} (f : CMsg → Mod → Mod) (hx : m.coh.msgs[k]? = some x) (hk : x.kind = kind)
    (hr : m.reachable x = true) : m.takeC k kind f = f x (m.untold k) := by
  unfold Mod.takeC
  rw [hx]
  exact if_pos ⟨hk, hr⟩
theorem Mod.reachable_agent {m : Mod} {x : CMsg} (hk : x.kind.toHome = false) (ha : m.agentUp x.agent = true) : m.reachable x = true := by
  unfold Mod.reachable
  rw [hk]
  exact ha
/-- What follows the taking of a message. -/
theorem Mod.says.sent {m t : Mod} {k : Nat} {xs : List CMsg} (h : (m.untold k).says t xs) : m.sent t k xs := h.msgs

/-! ## Grants (R353) -/

section
variable {s : State} {k : Nat} {x : CMsg}

/-- A grant is installed, and GACK sent. -/
theorem Mod.cohInstall_spec {m : Mod} {kind : CKind} (st : Mesi) (hx : m.coh.msgs[k]? = some x) (hk : x.kind = kind) (hh : kind.toHome = false)
    (ha : m.agentUp x.agent = true) : ((m.cohInstall k kind st).core x.agent).mem.state x.la = st ∧
      ((m.cohInstall k kind st).core x.agent).mem.misses = (m.core x.agent).mem.misses.filter (·.la != x.la) ∧
      (m.cohInstall k kind st).coh.msgs.getLast? = some { kind := .gack, la := x.la, agent := x.agent } ∧ (m.cohInstall k kind st).mem = m.mem ∧
      ∀ d, d ≠ x.agent → (m.cohInstall k kind st).core d = m.core d := by
  obtain ⟨m1, hm1⟩ : ∃ u, u = (m.untold k).updMem x.agent fun q =>
    { (q.install x.la st (if x.prefetch then 2 else 1)) with misses := q.misses.filter (·.la != x.la) } := ⟨_, rfl⟩
  obtain ⟨m2, h2, e2⟩ := m1.sendOffers_spec x.agent
  have e : m.cohInstall k kind st = (m1.sendOffers x.agent).csend { kind := .gack, la := x.la, agent := x.agent } := by
    rw [Mod.cohInstall, Mod.takeC_eq _ hx hk (Mod.reachable_agent (hk ▸ hh) ha), hm1]
  have h3 := (m1.sendOffers x.agent).says_csend { kind := .gack, la := x.la, agent := x.agent }
  obtain ⟨hstate, -⟩ := (m.core x.agent).mem.install_spec x.la st (if x.prefetch then 2 else 1)
  have hself : ((m.cohInstall k kind st).core x.agent).mem = CoreMem.offered { ((m.core x.agent).mem.install x.la st (if x.prefetch then 2 else 1)) with
      misses := (m.core x.agent).mem.misses.filter (·.la != x.la) } := by
    rw [e, h3.core, e2, Mod.core_updMem_self, h2.core, hm1, Mod.core_updMem_self]
    rfl
  refine ⟨?_, by rw [hself]; rfl, ?_, ?_, fun d hd => ?_⟩
  · rw [hself]
    exact (CoreMem.state_congr rfl _).trans hstate
  · rw [e, h3.msgs, List.getLast?_append_of_ne_nil _ (List.cons_ne_nil _ _)]
    rfl
  · rw [e, h3.mem, e2]
    exact h2.mem.trans (by rw [hm1]; rfl)
  · rw [e, h3.core, e2, Mod.core_updMem_ne _ _ hd, h2.core, hm1, Mod.core_updMem_ne _ _ hd]
    rfl

/-! ## NAKs and retries (R355, R363) -/

/-- An L2 whose request or offer has been NAKed. -/
def CoreMem.nacked (q : CoreMem) (x : CMsg) : CoreMem :=
  if 3 ≤ x.req then { q with wb := q.wb.map fun w => if w.la = x.la ∧ w.sent then { w with naks := w.naks + 1, naked := true } else w }
  else { q with misses := (q.misses.filter fun y => !(y.la == x.la && y.prefetch)).map fun y => if y.la = x.la then { y with naks := y.naks + 1, naked := true } else y }
theorem Mod.core_within (m : Mod) (nv : NonVol) (pwr : Power) (d : Nat) : ({ m with nv := nv, pwr := pwr } : Mod).core d = m.core d := rfl
theorem Mod.cohNak_core {m : Mod} (hx : m.coh.msgs[k]? = some x) (hk : x.kind = .nak) (ha : m.agentUp x.agent = true) (hlt : x.agent < 256) :
    m.cohNak k = ((m.untold k).inc (bL2C x.agent + 0x40 + 8 * 5)).updMem x.agent (·.nacked x) := by
  rw [Mod.cohNak, Mod.takeC_eq _ hx hk (Mod.reachable_agent (hk ▸ rfl) ha), if_neg (by omega)]
  rfl
theorem completes_nak (hpow : s.m.powered = true) (hx : s.m.coh.msgs[k]? = some x) (hk : x.kind = .nak) (ha : s.m.agentUp x.agent = true) (hlt : x.agent < 256) :
    completes (.nak k) s fun t => (t.core x.agent).mem = (s.m.core x.agent).mem.nacked x ∧ s.m.tallied t (bL2C x.agent + 0x40 + 8 * 5) 1 ∧ s.m.sent t k [] := by
  refine completes_run rfl hpow ?_
  rw [Mod.cohNak_core hx hk ha hlt]
  refine ⟨?_, ?_, (List.append_nil _).symm⟩
  · rw [Mod.core_within, Mod.core_updMem_self]
    rfl
  · exact Mod.tallied_inc (s.m.untold k) (bL2C x.agent + 0x40 + 8 * 5)
/-- A NAK of a non-caching agent's only request. -/
theorem completes_nak_asks {a : NcAsk} (hpow : s.m.powered = true) (hx : s.m.coh.msgs[k]? = some x) (hk : x.kind = .nak) (ha : s.m.agentUp x.agent = true)
    (hlt : 256 ≤ x.agent) (hasks : s.m.coh.asks = [a]) (h1 : a.agent = x.agent) (h2 : a.la = x.la) (h3 : a.write = (x.req == 6)) :
    completes (.nak k) s fun t => t.coh.asks = [{ a with naks := a.naks + 1, naked := true }] ∧ s.m.sent t k [] := by
  have hof : (s.m.untold k).askOf x.agent x.la (x.req == 6) = some a := by
    show s.m.coh.asks.find? _ = _
    rw [hasks]
    simp [h1, h2, h3]
  refine completes_run rfl hpow ?_
  rw [Mod.cohNak, Mod.takeC_eq _ hx hk (Mod.reachable_agent (hk ▸ rfl) ha), if_pos hlt]
  dsimp only
  rw [hof]
  refine ⟨?_, (List.append_nil _).symm⟩
  show (s.m.coh.asks.filter _) ++ _ = _
  rw [hasks]
  simp [h1, h2, h3]

/-- A request of an L2 that is to be sent again, marked STARVE or not. -/
def Miss.retried (y : Miss) (c : Nat) : CMsg :=
  { kind := match y.req with | 0 => .gets | 1 => .getx | _ => .upg, la := y.la, agent := c, starve := decide (4 ≤ y.naks), prefetch := y.prefetch }
/-- A count of a core's retries marked STARVE changes a register alone. -/
theorem Mod.starved_eq (m : Mod) (p : Prop) [Decidable p] (a : Nat) : ∃ b, (if p then m.inc a else m) = { m with bar0 := b } := by
  split
  · exact ⟨_, rfl⟩
  · exact ⟨m.bar0, rfl⟩

end

section
variable {s : State}

/-- The state in which an L2 sends its NAKed miss or offer again. -/
theorem Mod.nakRetry_spec {m : Mod} {c : Nat} (b : Tab W64) (f : CoreMem → CoreMem) (x : CMsg) :
    ((({ m with bar0 := b } : Mod).updMem c f).csend x).coh.msgs = m.coh.msgs ++ [x] ∧
      (((({ m with bar0 := b } : Mod).updMem c f).csend x).core c).mem = f (m.core c).mem ∧ ((({ m with bar0 := b } : Mod).updMem c f).csend x).mem = m.mem := by
  have h := (({ m with bar0 := b } : Mod).updMem c f).says_csend x
  exact ⟨h.msgs, by rw [h.core, Mod.core_updMem_self]; rfl, h.mem⟩
theorem completes_nakRetry_miss {c : Fin 273} {y : Miss} (hpow : s.m.powered = true) (ha : s.m.agentUp c.val = true) (hc : c.val < 256)
    (hq : (s.m.core c.val).mem.misses = [y]) (hy : y.naked = true) (hfree : y.naks < 4 ∨ s.m.starving c.val y.la = false) :
    completes (.nakRetry c y.la) s fun t => t.coh.msgs = s.m.coh.msgs ++ [y.retried c.val] ∧
      (t.core c.val).mem.misses = [{ y with naked := false }] ∧ t.mem = s.m.mem := by
  refine completes_run rfl hpow ?_
  have hfind : ((s.m.core c.val).mem.misses.find? fun z => z.la == y.la && z.naked) = some y := by rw [hq]; simp [hy]
  have hgo : ¬ (4 ≤ y.naks ∧ s.m.starving c.val y.la = true) := by
    rintro ⟨h1, h2⟩
    rcases hfree with h | h
    · omega
    · rw [h] at h2; cases h2
  have e : ∃ b, s.m.nakRetry c y.la = (({ s.m with bar0 := b } : Mod).updMem c.val fun q =>
      { q with misses := q.misses.map fun z => if z.la = y.la then { z with naked := false } else z }).csend (y.retried c.val) := by
    obtain ⟨b, hb⟩ := s.m.starved_eq (4 ≤ y.naks ∧ c.val < 256) (bL2C c.val + 0x40 + 8 * 6)
    refine ⟨b, ?_⟩
    rw [← hb, Mod.nakRetry]
    simp only [ha, Bool.true_eq_false, if_false, if_neg (show ¬ 256 ≤ c.val by omega), hfind, if_neg hgo]
    rfl
  obtain ⟨b, e⟩ := e
  rw [e]
  obtain ⟨h1, h2, h3⟩ := Mod.nakRetry_spec (m := s.m) (c := c.val) b (fun q =>
    { q with misses := q.misses.map fun z => if z.la = y.la then { z with naked := false } else z }) (y.retried c.val)
  refine ⟨h1, ?_, h3⟩
  rw [Mod.core_within, h2]
  simp [hq]
/-- A NAKed offer that is sent again. -/
def WbEntry.retried (w : WbEntry) (c : Nat) : CMsg :=
  { kind := if w.dirty then .putm else .putc, la := w.la, agent := c, starve := decide (4 ≤ w.naks), dirty := w.dirty, poison := w.poison }
theorem completes_nakRetry_offer {c : Fin 273} {w : WbEntry} (hpow : s.m.powered = true) (ha : s.m.agentUp c.val = true) (hc : c.val < 256)
    (hm : (s.m.core c.val).mem.misses = []) (hq : (s.m.core c.val).mem.wb = [w]) (hw : w.naked = true)
    (hfree : w.naks < 4 ∨ s.m.starving c.val w.la = false) : completes (.nakRetry c w.la) s fun t =>
      t.coh.msgs = s.m.coh.msgs ++ [w.retried c.val] ∧ (t.core c.val).mem.wb = [{ w with naked := false }] ∧ t.mem = s.m.mem := by
  refine completes_run rfl hpow ?_
  have hfind : ((s.m.core c.val).mem.wb.find? fun z => z.la == w.la && z.naked) = some w := by rw [hq]; simp [hw]
  have hgo : ¬ (4 ≤ w.naks ∧ s.m.starving c.val w.la = true) := by
    rintro ⟨h1, h2⟩
    rcases hfree with h | h
    · omega
    · rw [h] at h2; cases h2
  have e : ∃ b, s.m.nakRetry c w.la = (({ s.m with bar0 := b } : Mod).updMem c.val fun q =>
      { q with wb := q.wb.map fun z => if z.la = w.la then { z with naked := false } else z }).csend (w.retried c.val) := by
    obtain ⟨b, hb⟩ := s.m.starved_eq (4 ≤ w.naks ∧ c.val < 256) (bL2C c.val + 0x40 + 8 * 6)
    refine ⟨b, ?_⟩
    rw [← hb, Mod.nakRetry]
    simp only [ha, Bool.true_eq_false, if_false, if_neg (show ¬ 256 ≤ c.val by omega), hm, List.find?_nil, hfind, if_neg hgo]
    rfl
  obtain ⟨b, e⟩ := e
  rw [e]
  obtain ⟨h1, h2, h3⟩ := Mod.nakRetry_spec (m := s.m) (c := c.val) b (fun q =>
    { q with wb := q.wb.map fun z => if z.la = w.la then { z with naked := false } else z }) (w.retried c.val)
  refine ⟨h1, ?_, h3⟩
  rw [Mod.core_within, h2]
  simp [hq]
theorem completes_nakRetry_ask {c : Fin 273} {a : NcAsk} (hpow : s.m.powered = true) (ha : s.m.agentUp c.val = true) (hc : 256 ≤ c.val)
    (hq : s.m.coh.asks = [a]) (hagent : a.agent = c.val) (hn : a.naked = true) (hfree : a.naks < 4 ∨ s.m.starving c.val a.la = false) :
    completes (.nakRetry c a.la) s fun t => t.coh.asks = [{ a with naked := false, idle := false }] ∧ t.coh.msgs = s.m.coh.msgs ∧ t.mem = s.m.mem := by
  refine completes_run rfl hpow ?_
  have hfind : (s.m.coh.asks.find? fun z => z.agent == c.val && z.la == a.la && z.naked) = some a := by rw [hq]; simp [hn, hagent]
  have hgo : ¬ (4 ≤ a.naks ∧ s.m.starving c.val a.la = true) := by
    rintro ⟨h1, h2⟩
    rcases hfree with h | h
    · omega
    · rw [h] at h2; cases h2
  have e : s.m.nakRetry c a.la = s.m.setAsk c.val a.la a.write (some { a with naked := false, idle := false }) := by
    rw [Mod.nakRetry]
    simp only [ha, Bool.true_eq_false, if_false, if_pos hc, hfind, if_neg hgo]
  rw [e]
  refine ⟨?_, rfl, rfl⟩
  show (s.m.coh.asks.filter _) ++ _ = _
  rw [hq]
  simp [hagent]

/-! ## Offers (R357) -/

/-- An answered offer's entry is free. -/
theorem Mod.cohPutEnd_spec {m : Mod} {k : Nat} {kind : CKind} {x : CMsg} {w : WbEntry} {rest : List WbEntry} (hx : m.coh.msgs[k]? = some x) (hk : x.kind = kind)
    (hh : kind.toHome = false) (ha : m.agentUp x.agent = true) (hq : (m.core x.agent).mem.wb = w :: rest) (hla : w.la = x.la) (hs : w.sent = true) :
    ((m.cohPutEnd k kind).core x.agent).mem.wb = rest ∧ m.sent (m.cohPutEnd k kind) k [] := by
  have hix : firstIx (fun w => w.la == x.la && w.sent) (m.core x.agent).mem.wb = some 0 := by
    rw [hq, firstIx, List.findIdx?_cons]
    simp [hla, hs]
  rw [Mod.cohPutEnd, Mod.takeC_eq _ hx hk (Mod.reachable_agent (hk ▸ hh) ha)]
  refine ⟨?_, (List.append_nil _).symm⟩
  rw [Mod.core_updMem_self]
  show (match firstIx (fun w => w.la == x.la && w.sent) (m.core x.agent).mem.wb with | some i => dropAt (m.core x.agent).mem.wb i | none => (m.core x.agent).mem.wb) =
    rest
  rw [hix]
  show (m.core x.agent).mem.wb.eraseIdx 0 = rest
  rw [hq]
  rfl
/-- The only waiting offer is sent where the buffer has an entry for it. -/
theorem completes_offerBufferFree {c : Fin 256} {w : WbEntry} {rest : List WbEntry} (hpow : s.m.powered = true) (ha : s.m.agentUp c.val = true)
    (hq : (s.m.core c.val).mem.wb = w :: rest) (hs : w.sent = false) (hlen : rest.length < 8) (hrest : (rest.all (·.sent)) = true) :
    completes (.offerBufferFree c) s fun t => t.coh.msgs = s.m.coh.msgs ++
      [{ kind := if w.dirty then .putm else .putc, la := w.la, agent := c.val, dirty := w.dirty, poison := w.poison }] ∧
        (t.core c.val).mem.wb = { w with sent := true } :: rest := by
  obtain ⟨u, hu, e⟩ := s.m.sendOffers_spec c.val
  have hsent : ∀ y ∈ rest, y.sent = true := fun y hy => List.all_eq_true.mp hrest y hy
  have htake : (w :: rest).take 8 = w :: rest := List.take_of_length_le (by simp only [List.length_cons]; omega)
  have hdrop : (w :: rest).drop 8 = [] := List.drop_eq_nil_of_le (by simp only [List.length_cons]; omega)
  have hnone : rest.filter (fun y => !y.sent) = [] := List.filter_eq_nil_iff.mpr fun y hy => by simp [hsent y hy]
  refine completes_run rfl hpow ?_
  rw [Mod.offerFree, if_pos ha, e]
  constructor
  · refine hu.msgs.trans ?_
    simp [CoreMem.unsent, hq, htake, hs, hnone]
  · rw [Mod.core_within, Mod.core_updMem_self, hu.core]
    simp only [CoreMem.offered, hq, htake, hdrop, List.append_nil, List.map_cons]
    refine congrArg _ ((List.map_congr_left fun y hy => ?_).trans (List.map_id rest))
    rw [id, ← hsent y hy]

/-! ## Demands (R353, R354, R364) -/

/-- A demand on a holder without an error: what is kept, and what is answered. -/
theorem Mod.cohDemand_eq {m : Mod} {k : Nat} {kind : CKind} {x : CMsg} (keep : Option Mesi) (always : Bool) (hx : m.coh.msgs[k]? = some x) (hk : x.kind = kind)
    (hh : kind.toHome = false) (ha : m.agentUp x.agent = true) (hu : m.coh.upsets = []) (hlost : x.la ∉ (m.core x.agent).mem.lostM) :
    m.cohDemand k kind 0 keep always =
      if (m.core x.agent).mem.state x.la = .i then
        match (m.core x.agent).mem.wb.find? fun w => w.la == x.la with
        | some w => (m.untold k).answer x (always || w.dirty) w.dirty (Tab.get false m.poison (2 * x.la)) true
        | none => (m.untold k).answer x false false false true
      else ((m.untold k).updMem x.agent fun q => q.setState x.la (keep.getD .i)).answer x
        (always || decide ((m.core x.agent).mem.state x.la = .m)) (decide ((m.core x.agent).mem.state x.la = .m)) (Tab.get false m.poison (2 * x.la)) false := by
  have herr : (m.untold k).l2Error x.agent x.la 0 = m.untold k := by
    rw [Mod.l2Error]
    exact if_pos (Or.inl rfl)
  have hmeet : (m.untold k).meetErr 2 x.agent x.la = m.untold k := Mod.meetErr_none _ _ _ _ hu
  have hcore : (m.untold k).core x.agent = m.core x.agent := rfl
  have hno : ¬ (m.core x.agent).mem.lostM.contains x.la = true := fun h => hlost (List.contains_iff_mem.mp h)
  rw [Mod.cohDemand, Mod.takeC_eq _ hx hk (Mod.reachable_agent (hk ▸ hh) ha)]
  simp only [herr, hmeet, hcore, if_neg hno]
  rfl

/-- A holder's answer to its home. -/
def CMsg.reply (x : CMsg) (data dirty poison gone : Bool) : CMsg :=
  { kind := if data then .ackd else .ack, la := x.la, agent := x.agent, dirty := dirty, poison := poison, gone := gone }
/-- What a holder's answer to a demand is, by the state in which it holds the line: `does` of the statement. -/
theorem completes_demand {k : Nat} {x : CMsg} {i : Instr} {kind : CKind} {keep : Option Mesi} {always : Bool}
    (hi : exec i s = s.judged fun m => m.cohDemand k kind 0 keep always) (hpow : s.m.powered = true) (hcue : s.m.noCue) (hx : s.m.coh.msgs[k]? = some x)
    (ha : s.m.agentUp x.agent = true) (hu : s.m.coh.upsets = []) (hd : (s.m.core x.agent).mem.distinct) (hlost : x.la ∉ (s.m.core x.agent).mem.lostM)
    (hk : x.kind = kind) (hh : kind.toHome = false) :
    ((s.m.core x.agent).mem.state x.la ≠ .i → completes i s fun t => (t.core x.agent).mem.state x.la = keep.getD .i ∧ t.mem = s.m.mem ∧
      s.m.sent t k [x.reply (always || decide ((s.m.core x.agent).mem.state x.la = .m)) (decide ((s.m.core x.agent).mem.state x.la = .m))
        (Tab.get false s.m.poison (2 * x.la)) false]) ∧
    ((s.m.core x.agent).mem.state x.la = .i →
      (∀ w, ((s.m.core x.agent).mem.wb.find? fun w => w.la == x.la) = some w → completes i s fun t => t.cores = s.m.cores ∧
        s.m.sent t k [x.reply (always || w.dirty) w.dirty (Tab.get false s.m.poison (2 * x.la)) true]) ∧
      (((s.m.core x.agent).mem.wb.find? fun w => w.la == x.la) = none → completes i s fun t => t.cores = s.m.cores ∧
        s.m.sent t k [x.reply false false false true])) := by
  have e := Mod.cohDemand_eq keep always hx hk hh ha hu hlost
  have key : ∀ {u t : Mod} {y : CMsg} {P : Mod → Prop}, u.says t [y] → (∀ a, u.rd a = s.m.rd a) → s.m.cohDemand k kind 0 keep always = t →
      P { t with nv := s.m.nv, pwr := s.m.pwr } → completes i s P := by
    intro u t y P hs hreg he hp
    have hj : (s.m.cohDemand k kind 0 keep always).judge = t := by
      rw [he]
      refine Mod.judge_off t ?_
      unfold Mod.noCue Mod.rdf at *
      rw [hs.regs _ (by decide), hreg]
      exact hcue
    exact completes_judged hi hpow (by rw [hj]; exact hp)
  refine ⟨fun hst => ?_, fun hst => ⟨fun w hw => ?_, fun hw => ?_⟩⟩
  · rw [if_neg hst] at e
    have hs := ((s.m.untold k).updMem x.agent fun q => q.setState x.la (keep.getD .i)).says_csend
      (x.reply (always || decide ((s.m.core x.agent).mem.state x.la = .m)) (decide ((s.m.core x.agent).mem.state x.la = .m))
        (Tab.get false s.m.poison (2 * x.la)) false)
    refine key hs (fun _ => rfl) e ⟨?_, hs.mem, hs.msgs⟩
    rw [Mod.core_within]
    refine (congrArg (fun q : Core => q.mem.state x.la) (hs.core x.agent)).trans ?_
    rw [Mod.core_updMem_self]
    exact CoreMem.state_setState hd hst
  · rw [if_pos hst, hw] at e
    have hs := (s.m.untold k).says_csend (x.reply (always || w.dirty) w.dirty (Tab.get false s.m.poison (2 * x.la)) true)
    exact key hs (fun _ => rfl) e ⟨hs.cores, hs.msgs⟩
  · rw [if_pos hst, hw] at e
    have hs := (s.m.untold k).says_csend (x.reply false false false true)
    exact key hs (fun _ => rfl) e ⟨hs.cores, hs.msgs⟩

end

theorem CoreMem.nacked_miss {q : CoreMem} {x : CMsg} {y : Miss} (hr : x.req < 3) (hq : q.misses = [y]) (hla : y.la = x.la) :
    (q.nacked x).misses = if y.prefetch then [] else [{ y with naks := y.naks + 1, naked := true }] := by
  unfold CoreMem.nacked
  rw [if_neg (by omega)]
  cases hp : y.prefetch <;> simp [hq, hla, hp]
theorem CoreMem.nacked_offer {q : CoreMem} {x : CMsg} {w : WbEntry} (hr : 3 ≤ x.req) (hq : q.wb = [w]) (hla : w.la = x.la) (hs : w.sent = true) :
    (q.nacked x).wb = [{ w with naks := w.naks + 1, naked := true }] := by
  unfold CoreMem.nacked
  rw [if_pos hr]
  simp [hq, hla, hs]

/-- Settles O33: what each message does at its L2 is that of the operation it calls, the message taken; a held line's state is found again where it was set. -/
theorem cacheMessages : Obligations.CacheMessages := by
  unfold Obligations.CacheMessages
  refine ⟨fun s k hpow => ⟨fun x hx ha => ⟨?_, ?_, ?_, ?_, ?_, ?_, ?_⟩, fun c ha => ⟨?_, ?_, ?_⟩, ?_⟩, ?_⟩
  · exact fun hk => completes_run rfl hpow (Mod.cohInstall_spec .s hx hk rfl ha)
  · exact fun hk => completes_run rfl hpow (Mod.cohInstall_spec .e hx hk rfl ha)
  · exact fun hk => completes_run rfl hpow (Mod.cohInstall_spec .m hx hk rfl ha)
  · exact fun hk => completes_run rfl hpow (Mod.cohInstall_spec .m hx hk rfl ha)
  · refine fun hk hlt => ⟨fun y hr hq hla => ?_, fun w hr hq hla hs => ?_⟩
    · exact (completes_nak hpow hx hk ha hlt).mono fun t ht => ⟨by rw [ht.1]; exact CoreMem.nacked_miss hr hq hla, ht.2⟩
    · exact (completes_nak hpow hx hk ha hlt).mono fun t ht => ⟨by rw [ht.1]; exact CoreMem.nacked_offer hr hq hla hs, ht.2⟩
  · exact fun a hk hlt hasks h1 h2 h3 => completes_nak_asks hpow hx hk ha hlt hasks h1 h2 h3
  · intro w rest hq hla hs
    exact ⟨fun hk => completes_run rfl hpow (Mod.cohPutEnd_spec hx hk rfl ha hq hla hs), fun hk => completes_run rfl hpow (Mod.cohPutEnd_spec hx hk rfl ha hq hla hs)⟩
  · exact fun y hc hq hy hfree => completes_nakRetry_miss hpow ha hc hq hy hfree
  · exact fun w hc hm hq hw hfree => completes_nakRetry_offer hpow ha hc hm hq hw hfree
  · exact fun a hc hq hagent hn hfree => completes_nakRetry_ask hpow ha hc hq hagent hn hfree
  · exact fun c w rest ha hq hs hlen hrest => completes_offerBufferFree hpow ha hq hs hlen hrest
  · intro s k x hpow hcue hx ha hu hd hlost
    exact ⟨fun hk => completes_demand (keep := none) (always := false) (i := .inv k 0) rfl hpow hcue hx ha hu hd hlost hk rfl,
      fun hk => completes_demand (keep := none) (always := false) (i := .recall k 0) rfl hpow hcue hx ha hu hd hlost hk rfl,
      fun hk => completes_demand (keep := some .s) (always := true) (i := .fwds k 0) rfl hpow hcue hx ha hu hd hlost hk rfl,
      fun hk => completes_demand (keep := none) (always := true) (i := .fwdx k 0) rfl hpow hcue hx ha hu hd hlost hk rfl,
      fun hk => completes_demand (keep := some .e) (always := true) (i := .fwdr k 0) rfl hpow hcue hx ha hu hd hlost hk rfl⟩

end Sys2Proof.Machine
end

section
/-! The home slice of a line: what reads of its data leave alone, entries of the directory in B, grants and demands (R350 to R352, R359 to R361, R364). -/

namespace Sys2Proof.Machine

/-! ## What the panel cache does beside the directory -/

/-- Registers on which the places of lines depend: the spool map, the scratch ways, and what lies below the panel caches' blocks. -/
def mapReg (a : Nat) : Prop := a < bPNC 0 ∨ a = bSPLMAP ∨ ∃ p, p < 4 ∧ a = bPNC p
/-- The panel cache, spools, counts, poison and memory may have changed; the directory, messages, what is queued, and the places of lines have not. -/
structure Mod.fills (m t : Mod) : Prop where
  dir : t.coh.dir = m.coh.dir
  msgs : t.coh.msgs = m.coh.msgs
  starve : t.coh.starve = m.coh.starve
  regs : ∀ a, mapReg a → t.rd a = m.rd a
theorem Mod.fills_refl (m : Mod) : m.fills m := ⟨rfl, rfl, rfl, fun _ _ => rfl⟩
theorem Mod.fills_trans {m t u : Mod} (h : m.fills t) (g : t.fills u) : m.fills u :=
  ⟨g.dir.trans h.dir, g.msgs.trans h.msgs, g.starve.trans h.starve, fun a ha => (g.regs a ha).trans (h.regs a ha)⟩
theorem Mod.fills_wr (m : Mod) {a : Nat} (v : W64) (ha : ¬ mapReg a) : m.fills (m.wr a v) :=
  ⟨rfl, rfl, rfl, fun _ hb => Mod.rd_wr_ne m v fun e => ha (e ▸ hb)⟩
theorem Mod.fills_of_onlyBar {m t : Mod} (h : m.onlyBar t) (hr : ∀ a, a < bMON → t.rd a = m.rd a) : m.fills t := by
  have hlt : ∀ a, mapReg a → a < bMON := fun a ha => by
    rcases ha with h | h | ⟨p, hp, h⟩ <;> simp only [bPNC, bSPLMAP, bMON] at * <;> omega
  rw [h.eq]
  exact ⟨rfl, rfl, rfl, fun a ha => by rw [← h.eq]; exact hr a (hlt a ha)⟩
theorem Mod.fills_evPanel (m : Mod) (p code n : Nat) (filt : Option Nat) : m.fills (m.evPanel p code n filt) :=
  Mod.fills_of_onlyBar (Mod.onlyBar_evPanel m p code n filt) fun a ha => Mod.rd_evPanel m p code n a filt ha
theorem not_mapReg_pnc {p a : Nat} (hp : p < 4) (hlow : bPNC p < a) (hhigh : a < bPNC p + 0x1000) : ¬ mapReg a := by
  rintro (h | h | ⟨q, hq, h⟩) <;> simp only [bPNC, bSPLMAP] at * <;> omega
theorem not_mapReg_spl {s a : Nat} (hs : s < 24) (hlow : bSPL s < a) (hhigh : a < bSPL s + 0x1000) : ¬ mapReg a := by
  rintro (h | h | ⟨q, hq, h⟩) <;> simp only [bPNC, bSPL, bSPLMAP] at * <;> omega
theorem Mod.fills_askRange (m : Mod) (pa : Nat) (write partialW : Bool) (k : Nat) : m.fills (m.askRange pa write partialW k) := by
  unfold Mod.askRange
  dsimp only
  split
  · exact Mod.fills_wr m _ (not_mapReg_spl (m.place_spool_lt pa) (by omega) (by omega))
  · exact ⟨rfl, rfl, rfl, fun _ _ => rfl⟩
theorem Mod.fills_pnc (m : Mod) (pnc : Tab (Way PncLine)) : m.fills { m with coh := { m.coh with pnc := pnc } } := ⟨rfl, rfl, rfl, fun _ _ => rfl⟩
theorem Mod.fills_pncPut (m : Mod) (la age : Nat) (dirty : Bool) : m.fills (m.pncPut la age dirty) := by
  unfold Mod.pncPut
  dsimp only
  split
  · exact Mod.fills_pnc m _
  · split
    · split
      · refine Mod.fills_trans (Mod.fills_pnc m _) (Mod.fills_trans (Mod.fills_wr _ _ ?_) (Mod.fills_askRange _ _ _ _ _))
        exact not_mapReg_pnc (m.homePanel_lt la) (by omega) (by omega)
      · exact Mod.fills_pnc m _
    · exact Mod.fills_pnc m _
theorem Mod.fills_pncDrop (m : Mod) (la : Nat) : m.fills (m.pncDrop la) := by
  unfold Mod.pncDrop
  split
  · exact Mod.fills_pnc m _
  · exact Mod.fills_refl m
theorem Mod.fills_pncFlag (m : Mod) {p b : Nat} (hp : p < 4) (hb : b < 8) : m.fills (m.pncFlag p b) :=
  Mod.fills_trans (Mod.fills_wr m _ (not_mapReg_pnc hp (by omega) (by omega))) (Mod.fills_wr _ _ (not_mapReg_pnc hp (by omega) (by omega)))
theorem Mod.fills_poisonLine (m : Mod) (la : Nat) : m.fills (m.poisonLine la) :=
  Mod.fills_trans (t := m.setPoison la true) ⟨rfl, rfl, rfl, fun _ _ => rfl⟩ (Mod.fills_wr _ _ (not_mapReg_pnc (m.linePanel_lt la) (by omega) (by omega)))
theorem Mod.fills_pncError (m : Mod) (la : Nat) (e : ErrCode) : m.fills (m.pncError la e) := by
  have hp := m.homePanel_lt la
  unfold Mod.pncError
  dsimp only
  split
  · exact Mod.fills_refl m
  · split
    · exact Mod.fills_refl m
    · exact Mod.fills_pncFlag m hp (by omega)
    · split
      · exact Mod.fills_trans (Mod.fills_pncFlag m hp (by omega)) (Mod.fills_poisonLine _ la)
      · exact Mod.fills_trans (Mod.fills_pncDrop m la) (Mod.fills_pncFlag _ hp (by omega))
    · have hd : m.fills ((m.pncDrop la).pncFlag (m.homePanel la) 2) := Mod.fills_trans (Mod.fills_pncDrop m la) (Mod.fills_pncFlag _ hp (by omega))
      split
      · exact Mod.fills_trans hd ⟨rfl, rfl, rfl, fun _ _ => rfl⟩
      · exact hd
theorem Mod.fills_meetErr_pnc (m : Mod) (c la : Nat) : m.fills (m.meetErr 3 c la) := by
  unfold Mod.meetErr
  dsimp only
  split
  · refine Mod.fills_trans ?_ (foldl_keeps Mod.fills Mod.fills_refl Mod.fills_trans _ (fun m (u : Upset) => ?_) _ _)
    · exact ⟨rfl, rfl, rfl, fun _ _ => rfl⟩
    · exact Mod.fills_pncError m la u.kind
  · exact Mod.fills_refl m
theorem Mod.fills_pncLook (m : Mod) (la : Nat) : m.fills (m.pncLook la) := by
  unfold Mod.pncLook
  dsimp only
  split
  · exact Mod.fills_trans (Mod.fills_pnc m _) (Mod.fills_evPanel _ _ _ _ _)
  · exact Mod.fills_evPanel m _ _ _ _
theorem Mod.fills_homeData (m : Mod) (la : Nat) (e : ErrCode) (age : Nat) : m.fills (m.homeData la e age) := by
  unfold Mod.homeData
  dsimp only
  have h := Mod.fills_trans (Mod.fills_trans (Mod.fills_pncError m la e) (Mod.fills_meetErr_pnc _ 0 la)) (Mod.fills_pncLook _ la)
  split
  · exact h
  · exact Mod.fills_trans h (Mod.fills_trans (Mod.fills_askRange _ _ _ _ _) (Mod.fills_pncPut _ la age false))

/-! ## Where lines lie -/

theorem Mod.homePanel_congr {m t : Mod} (h : t.rd bSPLMAP = m.rd bSPLMAP) (la : Nat) : t.homePanel la = m.homePanel la := by
  unfold Mod.homePanel Mod.place Mod.enabled
  rw [h]
theorem Mod.dirBase_congr {m t : Mod} (h : t.rd bSPLMAP = m.rd bSPLMAP) (la : Nat) : t.dirBase la = m.dirBase la := by
  unfold Mod.dirBase
  rw [Mod.homePanel_congr h]
theorem Mod.dirAt_congr {m t : Mod} (hd : t.coh.dir = m.coh.dir) (h : t.rd bSPLMAP = m.rd bSPLMAP) (la : Nat) : t.dirAt la = m.dirAt la := by
  unfold Mod.dirAt
  rw [hd, Mod.dirBase_congr h]
theorem Mod.fills.dirAt {m t : Mod} (h : m.fills t) (la : Nat) : t.dirAt la = m.dirAt la := Mod.dirAt_congr h.dir (h.regs _ (.inr (.inl rfl))) la
theorem Mod.says.dirAt {m t : Mod} {xs : List CMsg} (h : m.says t xs) (la : Nat) : t.dirAt la = m.dirAt la :=
  Mod.dirAt_congr h.dir (h.regs _ (by decide)) la
/-- The scratch ways of a panel leave the panel cache one way at least. -/
theorem Mod.pncWays_pos (m : Mod) (la : Nat) : 0 < m.pncWays la := by
  have h : m.ways (m.homePanel la) < 16 := by
    unfold Mod.ways
    split
    · decide
    · exact fld_lt _ 3 0
  unfold Mod.pncWays
  omega
theorem Mod.pncHas_congr {m t : Mod} (h : m.fills t) {la : Nat} (hp : (findWay t.coh.pnc (m.pncBase la) (m.pncWays la) la).isSome = true) : t.pncHas la = true := by
  have hpanel : t.homePanel la = m.homePanel la := Mod.homePanel_congr (h.regs _ (.inr (.inl rfl))) la
  have hbase : t.pncBase la = m.pncBase la := by unfold Mod.pncBase; rw [hpanel]
  have hways : t.pncWays la = m.pncWays la := by
    unfold Mod.pncWays Mod.ways Mod.panelFenced Mod.rdf
    rw [hpanel, h.regs (bCAL + 0x60) (.inl (by decide)), h.regs (bPNC (m.homePanel la)) (.inr (.inr ⟨_, m.homePanel_lt la, rfl⟩))]
  unfold Mod.pncHas
  rw [hbase, hways]
  exact hp
/-- The panel cache holds what has been put there. -/
theorem Mod.pncHas_pncPut (m : Mod) (la age : Nat) (dirty : Bool) : (m.pncPut la age dirty).pncHas la = true := by
  refine Mod.pncHas_congr (Mod.fills_pncPut m la age dirty) ?_
  unfold Mod.pncPut
  dsimp only
  cases h : findWay m.coh.pnc (m.pncBase la) (m.pncWays la) la with
  | some r =>
    obtain ⟨-, hk, -⟩ := findWay_some h
    dsimp only
    rw [findWay_put h]
    · rfl
    · exact hk
  | none =>
    have hfound := findWay_insWay age ({ dirty := dirty } : PncLine) (m.pncWays_pos la) h
    have hsome : (findWay (insWay m.coh.pnc (m.pncBase la) (m.pncWays la) la age ({ dirty := dirty } : PncLine)).1 (m.pncBase la) (m.pncWays la) la).isSome =
        true := by
      rw [Option.map_eq_some_iff] at hfound
      obtain ⟨a, ha, -⟩ := hfound
      rw [ha]; rfl
    have hask : ∀ (u : Mod) pa w p k, (u.askRange pa w p k).coh.pnc = u.coh.pnc := fun u pa w p k => by
      unfold Mod.askRange; dsimp only; split <;> rfl
    dsimp only
    split
    · split
      · rw [Mod.askSpool, hask]; exact hsome
      · exact hsome
    · exact hsome

/-! ## Entries of the directory (R350, R351) -/

/-- An entry that is not an idle one in U is found as it was stored. -/
theorem Mod.dirAt_setDir (m : Mod) (la : Nat) {e : DirEntry} (h : ¬ (e.st = .u ∧ e.txn = none)) : (m.setDir la e).dirAt la = e := by
  have hbase : ∀ d, ({ m with coh := { m.coh with dir := d } } : Mod).dirBase la = m.dirBase la := fun _ => rfl
  unfold Mod.setDir
  cases hf : findWay m.coh.dir (m.dirBase la) 16 la with
  | some r =>
    obtain ⟨-, hk, -⟩ := findWay_some hf
    dsimp only
    rw [if_neg h]
    unfold Mod.dirAt
    rw [hbase]
    dsimp only
    rw [findWay_put hf]
    exact hk
  | none =>
    have hfound := findWay_insWay 1 e (show 0 < 16 by decide) hf
    dsimp only
    rw [if_neg h]
    unfold Mod.dirAt
    rw [hbase]
    dsimp only
    split
    next w hw =>
      rw [show findWay (insWay m.coh.dir (m.dirBase la) 16 la 1 e).1 (m.dirBase la) 16 la = _ from hw] at hfound
      exact Option.some.inj hfound
    next hw =>
      rw [show findWay (insWay m.coh.dir (m.dirBase la) 16 la 1 e).1 (m.dirBase la) 16 la = _ from hw] at hfound
      cases hfound
/-- Storing an entry changes the directory alone. -/
theorem Mod.setDir_keeps (m : Mod) (la : Nat) (e : DirEntry) : ∃ d, m.setDir la e = { m with coh := { m.coh with dir := d } } := by
  unfold Mod.setDir
  repeat' split
  · exact ⟨_, rfl⟩
  · exact ⟨_, rfl⟩
  · exact ⟨m.coh.dir, rfl⟩
  · exact ⟨_, rfl⟩
theorem Mod.dirAt_startTxn (m : Mod) (la : Nat) (t : DirTxn) : (m.startTxn la t).dirAt la = { m.dirAt la with txn := some t } :=
  m.dirAt_setDir la fun h => by cases h.2
theorem Mod.startTxn_msgs (m : Mod) (la : Nat) (t : DirTxn) : (m.startTxn la t).coh.msgs = m.coh.msgs := by
  unfold Mod.startTxn
  obtain ⟨d, hd⟩ := m.setDir_keeps la { m.dirAt la with txn := some t }
  rw [hd]
/-- A grant: what it sends, and the entry in B until GACK. -/
theorem Mod.grantL2_spec (m : Mod) (la : Nat) (t : DirTxn) (kind : CKind) (next : DirSt) (pre : Bool) :
    (m.grantL2 la t kind next pre).coh.msgs = m.coh.msgs ++ [{ kind := kind, la := la, agent := t.agent, prefetch := pre }] ∧
      ((m.grantL2 la t kind next pre).dirAt la).txn = some { t with granted := true, acks := 0, next := next } := by
  have h := (m.startTxn la { t with granted := true, acks := 0, next := next }).says_csend { kind := kind, la := la, agent := t.agent, prefetch := pre }
  refine ⟨h.msgs.trans (by rw [Mod.startTxn_msgs]), ?_⟩
  exact (congrArg DirEntry.txn (h.dirAt la)).trans (by rw [Mod.dirAt_startTxn])
/-- Demands on holders, whose answers are awaited. -/
theorem Mod.askHolders_spec (m : Mod) (la : Nat) (t : DirTxn) (kind : CKind) (hs : List Nat) :
    (m.askHolders la t kind hs).coh.msgs = m.coh.msgs ++ (hs.map fun h => { kind := kind, la := la, agent := h }) ∧
      ((m.askHolders la t kind hs).dirAt la).txn = some { t with acks := hs.length } := by
  have h := Mod.says_foldl (fun h => ({ kind := kind, la := la, agent := h } : CMsg)) hs (m.startTxn la { t with acks := hs.length })
  refine ⟨h.msgs.trans (by rw [Mod.startTxn_msgs]), ?_⟩
  exact (congrArg DirEntry.txn (h.dirAt la)).trans (by rw [Mod.dirAt_startTxn])
/-- An entry in B serves nothing that is queued. -/
theorem Mod.leaveB_busy {m : Mod} {la : Nat} (h : (m.dirAt la).txn.isSome = true) (n : Nat) : m.leaveB la n = m := by
  cases n with
  | zero => rfl
  | succ n => rw [Mod.leaveB]; exact if_pos h
/-- Where none is queued for a line its entry stays as it is. -/
theorem Mod.leaveB_none {m : Mod} {la : Nat} (h : m.coh.starve = []) (n : Nat) : m.leaveB la n = m := by
  cases n with
  | zero => rfl
  | succ n =>
    rw [Mod.leaveB, h]
    split <;> rfl

end Sys2Proof.Machine
end

section
/-! Requests, answers and ends of transactions at a line's home (R350 to R352, R354, R355), and O31. -/

namespace Sys2Proof.Machine

theorem Mod.reachable_home {m : Mod} {x : CMsg} (hk : x.kind.toHome = true) (hp : m.panelUp (m.homePanel x.la) = true) : m.reachable x = true := by
  unfold Mod.reachable
  rw [hk]
  exact hp

/-! ## Requests at an entry that is not in B (R350 to R352) -/

section
variable {m : Mod} {k : Nat} {x : CMsg}

/-- A caching request that reaches its slice. -/
theorem Mod.cohRequest_eq {kind : CKind} (e : ErrCode) (hx : m.coh.msgs[k]? = some x) (hk : x.kind = kind) (hh : kind.toHome = true)
    (hp : m.panelUp (m.homePanel x.la) = true) (hb : m.busy x.la = true ∨ m.recallVictim x.la = none) :
    m.cohRequest k kind e = (m.untold k).homeRequest x [] e := by
  rw [Mod.cohRequest, Mod.takeC_eq _ hx hk (Mod.reachable_home (hk ▸ hh) hp)]
  have hbusy : (m.untold k).busy x.la = m.busy x.la := rfl
  rw [hbusy]
  cases h : m.busy x.la with
  | true => exact if_pos rfl
  | false =>
    rw [if_neg Bool.false_ne_true]
    rw [show m.recallVictim x.la = none from hb.resolve_left (by rw [h]; exact Bool.false_ne_true)]
/-- A request of an agent that caches nothing forgets its NAKs. -/
def Mod.unasked (m : Mod) (x : CMsg) : Mod := if 256 ≤ x.agent then m.setAsk x.agent x.la (decide (x.kind = .wr)) none else m
theorem Mod.fills_unasked (m : Mod) (x : CMsg) : m.fills (m.unasked x) := by
  unfold Mod.unasked
  split
  · exact ⟨rfl, rfl, rfl, fun _ _ => rfl⟩
  · exact Mod.fills_refl m
/-- Served at once. -/
theorem Mod.homeRequest_idle (e : ErrCode) (hb : m.busy x.la = false) (hq : m.coh.starve = []) (w : List (Nat × Byte)) :
    m.homeRequest x w e = ((m.unasked x).serveReq x.kind x.la x.agent x.prefetch w e).leaveB x.la agentsN := by
  unfold Mod.homeRequest
  dsimp only
  rw [hb, hq]
  rw [if_neg (by simp), if_neg (by simp)]
  rfl
/-- What a request leaves that is served at once: what the home makes of it. -/
theorem Mod.atHome.serves {kind : CKind} (e : ErrCode) (h : m.atHome k kind x) (hh : kind.toHome = true)
    (hs : ∀ (u : Mod) la a w, u.serveReq kind la a false w e = u.homeServe kind la a false w e) : ∃ u, (m.untold k).fills u ∧
      m.cohRequest k kind e = (u.homeServe kind x.la x.agent false [] e).leaveB x.la agentsN := by
  obtain ⟨hp, -, hx, hk, -, hpre, hb, hq, hv⟩ := h
  refine ⟨(m.untold k).unasked x, Mod.fills_unasked _ x, ?_⟩
  rw [Mod.cohRequest_eq e hx hk hh hp (.inr hv), Mod.homeRequest_idle e (m := m.untold k) hb hq, hk, hpre, hs]

/-- What a grant leaves, sent by the home. -/
theorem Mod.grant_shows {u : Mod} (hu : (m.untold k).fills u) (la : Nat) (t : DirTxn) (kind : CKind) (next : DirSt) (n : Nat) :
    m.sent ((u.grantL2 la t kind next false).leaveB la n) k [{ kind := kind, la := la, agent := t.agent }] ∧
      ∃ q, (((u.grantL2 la t kind next false).leaveB la n).dirAt la).txn = some q ∧ q.granted = true ∧ q.agent = t.agent ∧ q.next = next := by
  obtain ⟨hmsgs, htxn⟩ := u.grantL2_spec la t kind next false
  rw [Mod.leaveB_busy (by rw [htxn]; rfl)]
  exact ⟨hmsgs.trans (by rw [hu.msgs]; rfl), _, htxn, rfl, rfl, rfl⟩
/-- What demands on holders leave. -/
theorem Mod.asks_shows {u : Mod} (hu : (m.untold k).fills u) (la : Nat) (t : DirTxn) (kind : CKind) (hs : List Nat) (n : Nat) (hg : t.granted = false) :
    m.sent ((u.askHolders la t kind hs).leaveB la n) k (hs.map fun h => { kind := kind, la := la, agent := h }) ∧
      ∃ q, (((u.askHolders la t kind hs).leaveB la n).dirAt la).txn = some q ∧ q.granted = false ∧ q.agent = t.agent ∧ q.acks = hs.length := by
  obtain ⟨hmsgs, htxn⟩ := u.askHolders_spec la t kind hs
  rw [Mod.leaveB_busy (by rw [htxn]; rfl)]
  exact ⟨hmsgs.trans (by rw [hu.msgs]; rfl), _, htxn, hg, rfl, rfl⟩

end

section
variable {s : State} {k : Nat} {x : CMsg}

/-- A grant by a command that serves a request. -/
def Mod.granted (m t : Mod) (k : Nat) (x : CMsg) (kind : CKind) (next : DirSt) : Prop :=
  m.sent t k [{ kind := kind, la := x.la, agent := x.agent }] ∧ ∃ q, (t.dirAt x.la).txn = some q ∧ q.granted = true ∧ q.agent = x.agent ∧ q.next = next
/-- Demands by one. -/
def Mod.demanded (m t : Mod) (k : Nat) (x : CMsg) (kind : CKind) (hs : List Nat) : Prop :=
  m.sent t k (hs.map fun h => { kind := kind, la := x.la, agent := h }) ∧
    ∃ q, (t.dirAt x.la).txn = some q ∧ q.granted = false ∧ q.agent = x.agent ∧ q.acks = hs.length

theorem completes_gets (e : Fin 4) (hpow : s.m.powered = true) (h : s.m.atHome k .gets x) :
    ((s.m.dirAt x.la).st = .u → completes (.gets k e) s fun t => s.m.granted t k x .dataE (.x x.agent)) ∧
    (∀ sh, (s.m.dirAt x.la).st = .s sh → completes (.gets k e) s fun t => s.m.granted t k x .dataS (.s (sh.add x.agent))) ∧
    (∀ o, (s.m.dirAt x.la).st = .x o → completes (.gets k e) s fun t => s.m.demanded t k x .fwds [o]) := by
  obtain ⟨u, hu, eq⟩ := h.serves e rfl fun _ _ _ _ => rfl
  have hd : u.dirAt x.la = s.m.dirAt x.la := hu.dirAt x.la
  refine ⟨fun hst => ?_, fun sh hst => ?_, fun o hst => ?_⟩
  all_goals
    refine completes_run rfl hpow ?_
    rw [Mod.cohGets, eq]
    unfold Mod.homeServe
    rw [hd, hst]
  · exact Mod.grant_shows (Mod.fills_trans hu (Mod.fills_homeData u x.la e 1)) x.la { req := .gets, agent := x.agent } .dataE (.x x.agent) agentsN
  · exact Mod.grant_shows (Mod.fills_trans hu (Mod.fills_homeData u x.la e 1)) x.la { req := .gets, agent := x.agent } .dataS (.s (sh.add x.agent)) agentsN
  · exact Mod.asks_shows hu x.la { req := .gets, agent := x.agent, fwd := true, next := .s ((({} : Sharers).add o).add x.agent) } .fwds [o] agentsN rfl
theorem completes_getx (e : Fin 4) (hpow : s.m.powered = true) (h : s.m.atHome k .getx x) :
    ((s.m.dirAt x.la).st = .u → completes (.getx k e) s fun t => s.m.granted t k x .dataM (.x x.agent)) ∧
    (∀ sh, (s.m.dirAt x.la).st = .s sh → sh.cores ≠ [] → completes (.getx k e) s fun t => s.m.demanded t k x .inv sh.cores) ∧
    (∀ o, (s.m.dirAt x.la).st = .x o → completes (.getx k e) s fun t => s.m.demanded t k x .fwdx [o]) := by
  obtain ⟨u, hu, eq⟩ := h.serves e rfl fun _ _ _ _ => rfl
  have hd : u.dirAt x.la = s.m.dirAt x.la := hu.dirAt x.la
  refine ⟨fun hst => ?_, fun sh hst hne => ?_, fun o hst => ?_⟩
  all_goals
    refine completes_run rfl hpow ?_
    rw [Mod.cohGetx, eq]
    unfold Mod.homeServe
    rw [hd, hst]
  · exact Mod.grant_shows (Mod.fills_trans hu (Mod.fills_homeData u x.la e 1)) x.la { req := .getx, agent := x.agent, fill := true } .dataM (.x x.agent) agentsN
  · dsimp only
    rw [if_neg (by rw [List.isEmpty_iff]; exact hne)]
    exact Mod.asks_shows hu x.la { req := .getx, agent := x.agent, fill := true } .inv sh.cores agentsN rfl
  · exact Mod.asks_shows hu x.la { req := .getx, agent := x.agent, fwd := true } .fwdx [o] agentsN rfl
theorem completes_upg (e : Fin 4) (hpow : s.m.powered = true) (h : s.m.atHome k .upg x) (sh : Sharers) (hst : (s.m.dirAt x.la).st = .s sh) :
    (sh.cores = [x.agent] → completes (.upg k e) s fun t => s.m.granted t k x .grant (.x x.agent)) ∧
    (sh.cores.filter (· != x.agent) ≠ [] → completes (.upg k e) s fun t => s.m.demanded t k x .inv (sh.cores.filter (· != x.agent))) := by
  obtain ⟨u, hu, eq⟩ := h.serves e rfl fun _ _ _ _ => rfl
  have hd : u.dirAt x.la = s.m.dirAt x.la := hu.dirAt x.la
  refine ⟨fun hone => ?_, fun hne => ?_⟩
  all_goals
    refine completes_run rfl hpow ?_
    rw [Mod.cohUpg, eq]
    unfold Mod.homeServe
    rw [hd, hst]
    dsimp only
  · rw [hone, if_pos (by simp)]
    have hfill : (!([x.agent].contains x.agent)) = false := by simp
    rw [hfill]
    exact Mod.grant_shows hu x.la { req := .upg, agent := x.agent } .grant (.x x.agent) agentsN
  · rw [if_neg (by rw [List.isEmpty_iff]; exact hne)]
    exact Mod.asks_shows hu x.la { req := .upg, agent := x.agent, fill := !sh.cores.contains x.agent } .inv _ agentsN rfl
/-- GACK ends the transaction. -/
theorem completes_gack {q : DirTxn} (hpow : s.m.powered = true) (hp : s.m.panelUp (s.m.homePanel x.la) = true) (hx : s.m.coh.msgs[k]? = some x)
    (hk : x.kind = .gack) (hq : (s.m.dirAt x.la).txn = some q) (hg : q.granted = true) (ha : q.agent = x.agent) (hn : q.next ≠ .u) (hs : s.m.coh.starve = []) :
    completes (.gack k) s fun t => t.dirAt x.la = { st := q.next } ∧ s.m.sent t k [] ∧ t.mem = s.m.mem := by
  have hd : (s.m.untold k).dirAt x.la = s.m.dirAt x.la := rfl
  have hat := (s.m.untold k).dirAt_setDir x.la (e := { st := q.next }) fun h => hn h.1
  obtain ⟨d, hdir⟩ := (s.m.untold k).setDir_keeps x.la { st := q.next }
  refine completes_run rfl hpow ?_
  rw [Mod.cohGack, Mod.takeC_eq _ hx hk (Mod.reachable_home (hk ▸ rfl) hp), hd, hq]
  dsimp only
  rw [if_pos ⟨hg, ha⟩, Mod.leaveB_none (by rw [hdir]; exact hs)]
  refine ⟨hat, ?_, ?_⟩
  · rw [hdir]; exact (List.append_nil _).symm
  · rw [hdir]; rfl

end

/-! ## Requests that find their line in B, or others queued for it (R352, R355) -/

section
variable {m : Mod} {k : Nat} {x : CMsg}

/-- The request queued in front of its slice. -/
def CMsg.waiting (x : CMsg) : StarveReq := { slice := sliceOf x.la, agent := x.agent, la := x.la, req := x.kind, dirty := x.dirty, poison := x.poison }
/-- The NAK that answers a request. -/
def CMsg.refusal (x : CMsg) (req : Nat) : CMsg := { kind := .nak, la := x.la, agent := x.agent, req := req, prefetch := x.prefetch }
theorem Mod.pnc_count_lt (m : Mod) (la : Nat) {j : Nat} (hj : j < 8) : bPNC (m.homePanel la) + 0x40 + 8 * j < bMON := by
  have hp := m.homePanel_lt la
  simp only [bPNC, bMON]
  omega
/-- One marked STARVE is queued. -/
theorem Mod.homeRequest_queued (e : ErrCode) (hs : x.starve = true) (hb : m.busy x.la = true ∨ (m.coh.starve.any fun q => q.la == x.la) = true) :
    (m.homeRequest x [] e).coh.msgs = m.coh.msgs ∧ (m.homeRequest x [] e).coh.starve = m.coh.starve ++ [x.waiting] ∧
      m.tallied (m.homeRequest x [] e) (bPNC (m.homePanel x.la) + 0x40 + 8 * 5) 1 := by
  unfold Mod.homeRequest
  dsimp only
  rw [if_pos ⟨hs, hb⟩]
  split
  all_goals exact ⟨rfl, rfl, Mod.tallied_inc _ _⟩
/-- What a slice leaves that sends a message and counts it at the panel cache. -/
theorem Mod.counted_reply {u : Mod} (y : CMsg) {j : Nat} (hj : j < 8) (hu : u.coh.dir = m.coh.dir) (hmsgs : u.coh.msgs = m.coh.msgs) (hbar : u.bar0 = m.bar0)
    (la p n : Nat) (f : Option Nat) : ∃ t, ((u.csend y).inc (bPNC (m.homePanel la) + 0x40 + 8 * j)).evPanel p 0x06 n f = t ∧
      t.coh.msgs = m.coh.msgs ++ [y] ∧ t.coh.dir = m.coh.dir ∧ m.tallied t (bPNC (m.homePanel la) + 0x40 + 8 * j) 1 := by
  obtain ⟨a, ha⟩ : ∃ a, a = bPNC (m.homePanel la) + 0x40 + 8 * j := ⟨_, rfl⟩
  have hc : a < bMON := ha ▸ m.pnc_count_lt la hj
  rw [← ha]
  have hsay := u.says_csend y
  have hev := Mod.onlyBar_evPanel ((u.csend y).inc a) p 0x06 n f
  have hcount := Mod.tallied_inc (u.csend y) a
  refine ⟨_, hev.eq, hsay.msgs.trans (by rw [hmsgs]), hsay.dir.trans hu, ?_⟩
  rw [← hev.eq]
  unfold Mod.tallied Mod.rdf at hcount ⊢
  rw [Mod.rd_evPanel _ _ _ _ _ _ hc, hcount, hsay.regs a hc]
  unfold Mod.rd
  rw [hbar]
/-- Any other is NAKed. -/
theorem Mod.homeRequest_naked (e : ErrCode) {req : Nat} (hs : x.starve = false) (hb : m.busy x.la = true ∨ (m.coh.starve.any fun q => q.la == x.la) = true)
    (hreq : (x.kind = .gets ∧ req = 0) ∨ (x.kind = .getx ∧ req = 1) ∨ (x.kind = .upg ∧ req = 2) ∨ (x.kind = .putm ∧ req = 3) ∨ (x.kind = .putc ∧ req = 4)) :
    (m.homeRequest x [] e).coh.msgs = m.coh.msgs ++ [x.refusal req] ∧ (m.homeRequest x [] e).coh.dir = m.coh.dir ∧
      m.tallied (m.homeRequest x [] e) (bPNC (m.homePanel x.la) + 0x40 + 8 * 4) 1 := by
  have hh : ∃ u : Mod, u.coh.dir = m.coh.dir ∧ u.coh.msgs = m.coh.msgs ∧ u.bar0 = m.bar0 ∧ m.homeRequest x [] e =
      ((u.csend (x.refusal req)).inc (bPNC (m.homePanel x.la) + 0x40 + 8 * 4)).evPanel (m.homePanel x.la) 0x06 1 (m.grantOf (x.la * 128)) := by
    unfold Mod.homeRequest
    dsimp only
    rw [if_neg (by rw [hs]; exact fun h => Bool.false_ne_true h.1), if_pos hb]
    rcases hreq with ⟨hk, rfl⟩ | ⟨hk, rfl⟩ | ⟨hk, rfl⟩ | ⟨hk, rfl⟩ | ⟨hk, rfl⟩
    all_goals
      rw [hk]
      exact ⟨_, by split <;> rfl, by split <;> rfl, by split <;> rfl, rfl⟩
  obtain ⟨u, hdir, hmsgs, hbar, eq⟩ := hh
  obtain ⟨t, ht, hshow, hkeep, hcount⟩ := Mod.counted_reply (x.refusal req) (j := 4) (by decide) hdir hmsgs hbar x.la (m.homePanel x.la) 1 (m.grantOf (x.la * 128))
  rw [eq, ht]
  exact ⟨hshow, hkeep, hcount⟩

end

/-! ## Answers of holders (R352, R354) -/

section
variable {m : Mod} {k : Nat} {x : CMsg}

/-- A transaction once a holder has answered. -/
def DirTxn.answered (q : DirTxn) (x : CMsg) (kind : CKind) : DirTxn :=
  { q with acks := q.acks - 1, fill := q.fill || (q.fwd && kind == .ack), next := if x.gone then q.next.remove x.agent else q.next }
/-- Data that an answer brings for the panel cache. -/
def DirTxn.passes (q : DirTxn) : Bool := q.fwd && (q.req == .getx || q.req == .upg)
theorem Mod.pncHas_poisonLine (m : Mod) (la lb : Nat) (h : m.pncHas la = true) : (m.poisonLine lb).pncHas la = true :=
  Mod.pncHas_congr (Mod.fills_poisonLine m lb) h
theorem Mod.pncHas_startTxn (m : Mod) (la lb : Nat) (q : DirTxn) : (m.startTxn lb q).pncHas la = m.pncHas la := by
  unfold Mod.startTxn
  obtain ⟨d, hd⟩ := m.setDir_keeps lb { m.dirAt lb with txn := some q }
  rw [hd]
  rfl
/-- What an answer brings, and the transaction that it goes to. -/
theorem Mod.cohAnswer_eq {kind : CKind} {q : DirTxn} (e : ErrCode) (hx : m.coh.msgs[k]? = some x) (hk : x.kind = kind) (hh : kind.toHome = true)
    (hp : m.panelUp (m.homePanel x.la) = true) (hq : (m.dirAt x.la).txn = some q) :
    ∃ u, (m.untold k).fills u ∧ (kind = .ackd → x.dirty = true → q.passes = false → u.pncHas x.la = true) ∧
      m.cohAnswer k kind e = if 1 < q.acks then u.startTxn x.la (q.answered x kind)
        else (u.finishTxn x.la (q.answered x kind) e).leaveB x.la agentsN := by
  have hd : ((m.untold k).dirAt x.la).txn = some q := hq
  rw [Mod.cohAnswer, Mod.takeC_eq _ hx hk (Mod.reachable_home (hk ▸ hh) hp), hd]
  dsimp only
  refine ⟨_, ?_, ?_, rfl⟩
  · split
    · have hput : (m.untold k).fills (if (x.dirty && !(some q).any fun t => t.fwd && (t.req == .getx || t.req == .upg)) = true then
          (m.untold k).pncPut x.la 1 true else m.untold k) := by
        split
        · exact Mod.fills_pncPut _ _ _ _
        · exact Mod.fills_refl _
      split
      · exact Mod.fills_trans hput (Mod.fills_poisonLine _ _)
      · exact hput
    · exact Mod.fills_refl _
  · intro hkind hdirty hpass
    rw [if_pos hkind, if_pos (show (x.dirty && !(some q).any fun t => t.fwd && (t.req == .getx || t.req == .upg)) = true by
      rw [hdirty, show ((some q).any fun t => t.fwd && (t.req == .getx || t.req == .upg)) = false from hpass]; rfl)]
    have hhas := (m.untold k).pncHas_pncPut x.la 1 true
    split
    · exact Mod.pncHas_poisonLine _ _ _ hhas
    · exact hhas

end

end Sys2Proof.Machine
end

section
/-! Transactions at a line's home that are refused, queued or that go on with an answer (R352, R354, R355), and O31. -/

namespace Sys2Proof.Machine

section
variable {s : State} {k : Nat} {x : CMsg}

/-- A request or an offer, the command that brings it to its home, and its code in a NAK. -/
def CMsg.brings (x : CMsg) (k : Nat) (e : Fin 4) (i : Instr) (req : Nat) : Prop :=
  (x.kind = .gets ∧ i = .gets k e ∧ req = 0) ∨ (x.kind = .getx ∧ i = .getx k e ∧ req = 1) ∨ (x.kind = .upg ∧ i = .upg k e ∧ req = 2) ∨
    (x.kind = .putm ∧ i = .putm k e ∧ req = 3) ∨ (x.kind = .putc ∧ i = .putc k e ∧ req = 4)
/-- It reaches its slice. -/
theorem completes_brings {e : Fin 4} {i : Instr} {req : Nat} {Q : Mod → Prop} (hpow : s.m.powered = true) (hx : s.m.coh.msgs[k]? = some x)
    (hp : s.m.panelUp (s.m.homePanel x.la) = true) (hi : x.brings k e i req) (hb : s.m.busy x.la = true ∨ s.m.recallVictim x.la = none)
    (hQ : Q { (s.m.untold k).homeRequest x [] e with nv := s.m.nv, pwr := s.m.pwr }) : completes i s Q := by
  have put : ∀ kind : CKind, x.kind = kind → kind.toHome = true → s.m.cohPut k kind e = (s.m.untold k).homeRequest x [] e := fun kind hk hh => by
    rw [Mod.cohPut, Mod.takeC_eq _ hx hk (Mod.reachable_home (hk ▸ hh) hp)]
  rcases hi with ⟨hk, rfl, -⟩ | ⟨hk, rfl, -⟩ | ⟨hk, rfl, -⟩ | ⟨hk, rfl, -⟩ | ⟨hk, rfl, -⟩ <;> refine completes_run rfl hpow ?_
  · rw [Mod.cohGets, Mod.cohRequest_eq e hx hk rfl hp hb]; exact hQ
  · rw [Mod.cohGetx, Mod.cohRequest_eq e hx hk rfl hp hb]; exact hQ
  · rw [Mod.cohUpg, Mod.cohRequest_eq e hx hk rfl hp hb]; exact hQ
  · rw [Mod.cohPutm, put _ hk rfl]; exact hQ
  · rw [Mod.cohPutc, put _ hk rfl]; exact hQ
/-- At a line in B, or one that others are queued for, it is NAKed, or queued where it is marked STARVE. -/
theorem completes_refused {e : Fin 4} {i : Instr} {req : Nat} (hpow : s.m.powered = true) (hx : s.m.coh.msgs[k]? = some x)
    (hp : s.m.panelUp (s.m.homePanel x.la) = true) (hi : x.brings k e i req)
    (hb : s.m.busy x.la = true ∨ ((s.m.coh.starve.any fun q => q.la == x.la) = true ∧ s.m.recallVictim x.la = none)) :
    (x.starve = false → completes i s fun t => s.m.sent t k [x.refusal req] ∧ s.m.tallied t (bPNC (s.m.homePanel x.la) + 0x40 + 8 * 4) 1 ∧
      t.coh.dir = s.m.coh.dir) ∧
    (x.starve = true → completes i s fun t => s.m.sent t k [] ∧ s.m.tallied t (bPNC (s.m.homePanel x.la) + 0x40 + 8 * 5) 1 ∧
      t.coh.starve = s.m.coh.starve ++ [x.waiting]) := by
  have hfree : s.m.busy x.la = true ∨ s.m.recallVictim x.la = none := hb.imp id And.right
  have hwait : (s.m.untold k).busy x.la = true ∨ ((s.m.untold k).coh.starve.any fun q => q.la == x.la) = true := hb.imp id And.left
  refine ⟨fun hs => completes_brings hpow hx hp hi hfree ?_, fun hs => completes_brings hpow hx hp hi hfree ?_⟩
  · have hreq : (x.kind = .gets ∧ req = 0) ∨ (x.kind = .getx ∧ req = 1) ∨ (x.kind = .upg ∧ req = 2) ∨ (x.kind = .putm ∧ req = 3) ∨ (x.kind = .putc ∧ req = 4) := by
      unfold CMsg.brings at hi; tauto
    obtain ⟨hmsgs, hdir, hcount⟩ := Mod.homeRequest_naked (m := s.m.untold k) e hs hwait hreq
    exact ⟨hmsgs, hcount, hdir⟩
  · obtain ⟨hmsgs, hstarve, hcount⟩ := Mod.homeRequest_queued (m := s.m.untold k) e hs hwait
    exact ⟨hmsgs.trans (List.append_nil _).symm, hcount, hstarve⟩

/-- An answer reaches its home. -/
theorem completes_answer {kind : CKind} {i : Instr} {q : DirTxn} {Q : Mod → Prop} (e : Fin 4) (hpow : s.m.powered = true) (hx : s.m.coh.msgs[k]? = some x)
    (hp : s.m.panelUp (s.m.homePanel x.la) = true) (hq : (s.m.dirAt x.la).txn = some q) (hk : x.kind = kind)
    (hi : (kind = .ack ∧ i = .ack k e) ∨ (kind = .ackd ∧ i = .ackd k e))
    (hQ : ∀ u, (s.m.untold k).fills u → (kind = .ackd → x.dirty = true → q.passes = false → u.pncHas x.la = true) →
      Q { (if 1 < q.acks then u.startTxn x.la (q.answered x kind) else (u.finishTxn x.la (q.answered x kind) e).leaveB x.la agentsN) with
        nv := s.m.nv, pwr := s.m.pwr }) : completes i s Q := by
  have hh : kind.toHome = true := by rcases hi with ⟨rfl, -⟩ | ⟨rfl, -⟩ <;> rfl
  obtain ⟨u, hu, hhas, eq⟩ := Mod.cohAnswer_eq (m := s.m) e hx hk hh hp hq
  rcases hi with ⟨rfl, rfl⟩ | ⟨rfl, rfl⟩ <;> refine completes_run rfl hpow ?_
  · rw [Mod.cohAck, eq]; exact hQ u hu hhas
  · rw [Mod.cohAckd, eq]; exact hQ u hu hhas
/-- One short of the last is counted off. -/
theorem completes_counted {kind : CKind} {i : Instr} {q : DirTxn} (e : Fin 4) (hpow : s.m.powered = true) (hx : s.m.coh.msgs[k]? = some x)
    (hp : s.m.panelUp (s.m.homePanel x.la) = true) (hq : (s.m.dirAt x.la).txn = some q) (hk : x.kind = kind)
    (hi : (kind = .ack ∧ i = .ack k e) ∨ (kind = .ackd ∧ i = .ackd k e)) (hn : 2 ≤ q.acks) :
    completes i s fun t => (t.dirAt x.la).txn = some (q.answered x kind) ∧ s.m.sent t k [] ∧
      (kind = .ackd → x.dirty = true → q.passes = false → t.pncHas x.la = true) := by
  refine completes_answer e hpow hx hp hq hk hi fun u hu hhas => ?_
  rw [if_pos (by omega)]
  refine ⟨congrArg DirEntry.txn (u.dirAt_startTxn x.la (q.answered x kind)), ?_,
      fun h1 h2 h3 => (u.pncHas_startTxn x.la x.la (q.answered x kind)).trans (hhas h1 h2 h3)⟩
  exact (Mod.startTxn_msgs ..).trans (hu.msgs.trans (List.append_nil _).symm)
/-- The last one lets the transaction go on with a grant. -/
theorem completes_last {kind : CKind} {i : Instr} {q : DirTxn} {grant : CKind} {next : DirSt} {pre : Bool} (e : Fin 4) (hpow : s.m.powered = true)
    (hx : s.m.coh.msgs[k]? = some x) (hp : s.m.panelUp (s.m.homePanel x.la) = true) (hq : (s.m.dirAt x.la).txn = some q) (hk : x.kind = kind)
    (hi : (kind = .ack ∧ i = .ack k e) ∨ (kind = .ackd ∧ i = .ackd k e)) (hn : q.acks ≤ 1)
    (hgrant : ∀ u : Mod, ∃ v, u.fills v ∧ u.finishTxn x.la (q.answered x kind) e = v.grantL2 x.la (q.answered x kind) grant next pre) :
    completes i s fun t => s.m.sent t k [{ kind := grant, la := x.la, agent := q.agent, prefetch := pre }] ∧
      (t.dirAt x.la).txn = some { q.answered x kind with granted := true, acks := 0, next := next } := by
  refine completes_answer e hpow hx hp hq hk hi fun u hu _ => ?_
  obtain ⟨v, hv, eq⟩ := hgrant u
  obtain ⟨hmsgs, htxn⟩ := v.grantL2_spec x.la (q.answered x kind) grant next pre
  rw [if_neg (by omega), eq, Mod.leaveB_busy (by rw [htxn]; rfl)]
  exact ⟨hmsgs.trans (by rw [hv.msgs, hu.msgs]; rfl), htxn⟩
/-- The home's own data, where a transaction needs them. -/
theorem Mod.fills_own (u : Mod) (la : Nat) (e : ErrCode) (fill pre : Bool) : u.fills (if fill then u.homeData la e (if pre then 2 else 1) else u) := by
  split
  · exact Mod.fills_homeData u la e _
  · exact Mod.fills_refl u

end

/-- Settles O31. -/
theorem homeNodes : Obligations.HomeNodes := by
  refine ⟨fun s k e x hpow => ⟨completes_gets e hpow, completes_getx e hpow, completes_upg e hpow, fun q => completes_gack hpow⟩, ?_⟩
  refine fun s k e x hpow hx hp => ⟨fun i req hi hb => completes_refused hpow hx hp hi hb, fun q hq _ => ⟨fun hn => ⟨fun hk => ?_, fun hk => ?_⟩, 
      fun hn => ⟨?_, ?_, ?_⟩⟩⟩
  · refine (completes_counted e hpow hx hp hq hk (.inl ⟨rfl, rfl⟩) hn).mono fun t ⟨htxn, hsent, _⟩ => ⟨htxn.trans ?_, hsent⟩
    simp [DirTxn.answered]
  · refine (completes_counted e hpow hx hp hq hk (.inr ⟨rfl, rfl⟩) hn).mono fun t ⟨htxn, hsent, hhas⟩ => ⟨htxn.trans ?_, hsent, fun hd hpass => hhas rfl hd ?_⟩
    · simp [DirTxn.answered]
    · rw [DirTxn.passes, Bool.eq_false_iff]
      simpa using hpass
  · intro hk hreq hfill hfwd
    refine (completes_last (grant := .grant) (next := .x q.agent) (pre := false) e hpow hx hp hq hk (.inl ⟨rfl, rfl⟩) hn fun u => ?_).mono
      fun t ⟨hs, ht⟩ => ⟨hs, ht.trans ?_⟩
    · refine ⟨u, Mod.fills_refl u, ?_⟩
      simp [Mod.finishTxn, DirTxn.answered, hreq, hfill, hfwd]
    · simp [DirTxn.answered, hfill, hfwd]
  · intro hk hreq
    refine (completes_last (grant := .dataM) (next := .x q.agent) (pre := false) e hpow hx hp hq hk (.inr ⟨rfl, rfl⟩) hn fun u => ?_).mono
      fun t ⟨hs, ht⟩ => ⟨hs, ht.trans ?_⟩
    · refine ⟨_, u.fills_own x.la e q.fill q.pre, ?_⟩
      simp [Mod.finishTxn, DirTxn.answered, hreq]
    · simp [DirTxn.answered]
  · intro hk hreq
    refine (completes_last (grant := .dataS) (next := if x.gone then q.next.remove x.agent else q.next) (pre := q.pre) e hpow hx hp hq hk
        (.inr ⟨rfl, rfl⟩) hn fun u => ?_).mono
      fun t ⟨hs, ht⟩ => ⟨hs, ht.trans ?_⟩
    · refine ⟨_, u.fills_own x.la e q.fill q.pre, ?_⟩
      simp [Mod.finishTxn, DirTxn.answered, hreq]
    · simp [DirTxn.answered]

end Sys2Proof.Machine
end

section
/-! What the reads and writes of a shuttle touch beside memory and copies: nothing of any shuttle, its counts or its error registers (R348, R371 to R379). -/

namespace Sys2Proof.Machine

/-! ## What a shuttle's traffic leaves alone -/

/-- Registers that reads and writes without a copy leave alone: policies, counts of shuttles, the spool map, and of every partition SHT_PERR and PAT_. -/
def shtReg (a : Nat) : Prop := a < bPNC 0 ∨ (bSHT 0 ≤ a ∧ a < bL2C 0) ∨ a = bSPLMAP ∨ ∃ p, a = bPERR p ∨ ∃ x, x < 0x1000 ∧ a = bPAT p + x
/-- Memory, copies, poison, cores, and other registers may have changed; shuttles, what they await, notches fired and their own registers have not. -/
structure Mod.hauls (m t : Mod) : Prop where
  shuttles : t.shuttles = m.shuttles
  lnk : t.lnk = m.lnk
  adds : t.spl.adds = m.spl.adds
  fenced : t.spl.fenced = m.spl.fenced
  pat : t.pat = m.pat
  upsets : t.coh.upsets = m.coh.upsets
  regs : ∀ a, shtReg a → t.rd a = m.rd a
theorem Mod.hauls_refl (m : Mod) : m.hauls m := ⟨rfl, rfl, rfl, rfl, rfl, rfl, fun _ _ => rfl⟩
theorem Mod.hauls_trans {m t u : Mod} (h : m.hauls t) (g : t.hauls u) : m.hauls u :=
  ⟨g.shuttles.trans h.shuttles, g.lnk.trans h.lnk, g.adds.trans h.adds, g.fenced.trans h.fenced, g.pat.trans h.pat, g.upsets.trans h.upsets,
    fun a ha => (g.regs a ha).trans (h.regs a ha)⟩
/-- The last piece of work first. -/
theorem Mod.hauls_after {m t u : Mod} (g : t.hauls u) (h : m.hauls t) : m.hauls u := Mod.hauls_trans h g
theorem Mod.hauls_ite {m t u : Mod} {p : Prop} [Decidable p] (ht : m.hauls t) (hu : m.hauls u) : m.hauls (if p then t else u) := by
  split
  · exact ht
  · exact hu
theorem Mod.hauls_foldl {β : Type} (f : Mod → β → Mod) (h : ∀ (m : Mod) x, m.hauls (f m x)) (xs : List β) (m : Mod) : m.hauls (xs.foldl f m) :=
  foldl_keeps Mod.hauls Mod.hauls_refl Mod.hauls_trans f h xs m
theorem Mod.hauls_of_onlyBar {m t : Mod} (h : m.onlyBar t) (hr : ∀ a, shtReg a → t.rd a = m.rd a) : m.hauls t := by
  rw [h.eq]
  exact ⟨rfl, rfl, rfl, rfl, rfl, rfl, fun a ha => by rw [← h.eq]; exact hr a ha⟩
theorem Mod.hauls_wr (m : Mod) {a : Nat} (v : W64) (ha : ¬ shtReg a) : m.hauls (m.wr a v) :=
  ⟨rfl, rfl, rfl, rfl, rfl, rfl, fun _ hb => Mod.rd_wr_ne m v fun e => ha (e ▸ hb)⟩
theorem not_shtReg_pnc {p a : Nat} (hp : p < 4) (hlow : bPNC p < a) (hhigh : a < bPNC p + 0x1000) : ¬ shtReg a := by
  rintro (h | h | h | ⟨q, h | ⟨x, hx, h⟩⟩) <;> simp only [bPNC, bSHT, bL2C, bSPLMAP, bPERR, bPAT, bPRT] at * <;> omega
theorem not_shtReg_spl {s a : Nat} (hs : s < 24) (hlow : bSPL s < a) (hhigh : a < bSPL s + 0x1000) : ¬ shtReg a := by
  rintro (h | h | h | ⟨q, h | ⟨x, hx, h⟩⟩) <;> simp only [bPNC, bSHT, bL2C, bSPL, bSPLMAP, bPERR, bPAT, bPRT] at * <;> omega
theorem not_shtReg_xlt {p y : Nat} (hy : y < 0x1000) : ¬ shtReg (bXLT p + y) := by
  rintro (h | h | h | ⟨q, h | ⟨x, hx, h⟩⟩) <;> simp only [bPNC, bSHT, bL2C, bXLT, bSPLMAP, bPERR, bPAT, bPRT] at * <;> omega
/-- Events of a panel. -/
theorem Mod.hauls_evPanel (m : Mod) {p : Nat} (hp : p < 4) (code n : Nat) (filt : Option Nat) : m.hauls (m.evPanel p code n filt) := by
  refine Mod.hauls_of_onlyBar (Mod.onlyBar_evPanel m p code n filt) fun a ha => ?_
  have away : ∀ (m : Mod) i, i < 16 →
      (m.ev1 (bMON + 0x10000 + 0x400 * p + 8 * i) (bMON + 0x10000 + 0x400 * p + 0x80 + 8 * i) code n filt).rd a = m.rd a := by
    intro m i hi
    refine Mod.rd_ev1 m _ _ _ _ _ _ ?_ ?_ <;> rcases ha with h | h | h | ⟨q, h | ⟨x, hx, h⟩⟩ <;> simp only [bPNC, bSHT, bL2C, bSPLMAP, bPERR, bPAT, bPRT, bMON] at * <;> omega
  unfold Mod.evPanel Mod.evAt
  refine List.foldlRecOn (motive := fun t : Mod => t.rd a = m.rd a) (upto 16) _ rfl fun t ht i hi => ?_
  exact (away t i (mem_upto.mp hi)).trans ht

/-! ## Caches and the directory -/

theorem Mod.hauls_updCore (m : Mod) (c : Nat) (f : Core → Core) : m.hauls (m.updCore c f) := ⟨rfl, rfl, rfl, rfl, rfl, rfl, fun _ _ => rfl⟩
theorem Mod.hauls_coh (m : Mod) (q : CohState) (hq : q.upsets = m.coh.upsets) : m.hauls { m with coh := q } := ⟨rfl, rfl, rfl, rfl, rfl, hq, fun _ _ => rfl⟩
theorem Mod.hauls_setDir (m : Mod) (la : Nat) (e : DirEntry) : m.hauls (m.setDir la e) := by
  obtain ⟨d, hd⟩ := m.setDir_keeps la e
  rw [hd]
  exact Mod.hauls_coh m _ rfl
theorem Mod.hauls_askRange (m : Mod) (pa : Nat) (write partialW : Bool) (k : Nat) : m.hauls (m.askRange pa write partialW k) := by
  unfold Mod.askRange
  dsimp only
  split
  · exact Mod.hauls_wr m _ (not_shtReg_spl (m.place_spool_lt pa) (by omega) (by omega))
  · exact ⟨rfl, rfl, rfl, rfl, rfl, rfl, fun _ _ => rfl⟩
theorem Mod.hauls_askWrite (m : Mod) (la lo hi : Nat) : m.hauls (m.askWrite la lo hi) := by
  refine Mod.hauls_ite (Mod.hauls_askRange m _ _ _ _) (Mod.hauls_foldl _ (fun m b => ?_) _ m)
  exact Mod.hauls_ite (Mod.hauls_refl m) (Mod.hauls_ite (Mod.hauls_askRange m _ _ _ _) (Mod.hauls_askRange m _ _ _ _))
theorem Mod.hauls_pncPut (m : Mod) (la age : Nat) (dirty : Bool) : m.hauls (m.pncPut la age dirty) := by
  unfold Mod.pncPut
  dsimp only
  split
  · exact Mod.hauls_coh m _ rfl
  · split
    · refine Mod.hauls_ite (Mod.hauls_after (Mod.hauls_askRange _ _ _ _ _) (Mod.hauls_after (Mod.hauls_wr _ _ ?_) (Mod.hauls_coh m _ rfl))) (Mod.hauls_coh m _ rfl)
      exact not_shtReg_pnc (m.homePanel_lt la) (by omega) (by omega)
    · exact Mod.hauls_coh m _ rfl
theorem Mod.hauls_pncLook (m : Mod) (la : Nat) : m.hauls (m.pncLook la) :=
  Mod.hauls_ite (Mod.hauls_after (Mod.hauls_evPanel _ (m.homePanel_lt la) _ _ _) (Mod.hauls_coh m _ rfl)) (Mod.hauls_evPanel m (m.homePanel_lt la) _ _ _)
theorem Mod.hauls_poisonLine (m : Mod) (la : Nat) : m.hauls (m.poisonLine la) :=
  Mod.hauls_trans (t := m.setPoison la true) ⟨rfl, rfl, rfl, rfl, rfl, rfl, fun _ _ => rfl⟩
    (Mod.hauls_wr _ _ (not_shtReg_pnc (m.linePanel_lt la) (by omega) (by omega)))
theorem Mod.hauls_lostLine (m : Mod) (c la : Nat) : m.hauls (m.lostLine c la) :=
  Mod.hauls_ite (Mod.hauls_trans (Mod.hauls_updCore m c _) (Mod.hauls_poisonLine _ la)) (Mod.hauls_refl m)
theorem Mod.hauls_takeBack (m : Mod) (c la : Nat) : m.hauls (m.takeBack c la) := by
  have h := Mod.hauls_trans (Mod.hauls_lostLine m c la) (Mod.hauls_updCore (m.lostLine c la) c fun k => { k with mem := k.mem.setState la .i })
  exact Mod.hauls_ite (Mod.hauls_trans h (Mod.hauls_pncPut _ la 1 true)) h
theorem Mod.hauls_dropCopies (m : Mod) (la : Nat) : m.hauls (m.dropCopies la) :=
  Mod.hauls_ite (Mod.hauls_refl m) (Mod.hauls_trans (Mod.hauls_foldl _ (fun m c => Mod.hauls_takeBack m c la) _ m) (Mod.hauls_setDir _ la {}))

/-! ## Reads and writes without a copy (R348) -/

/-- A fold of steps, each of which needs that no error waits in an array. -/
theorem Mod.hauls_fold {β : Type} (f : Mod → β → Mod) (hf : ∀ (m : Mod) x, m.coh.upsets = [] → m.hauls (f m x)) (xs : List β) :
    ∀ m : Mod, m.coh.upsets = [] → m.hauls (xs.foldl f m) := by
  induction xs with
  | nil => exact fun m _ => Mod.hauls_refl m
  | cons x xs ih =>
    exact fun m hu => Mod.hauls_trans (hf m x hu) (ih (f m x) ((hf m x hu).upsets.trans hu))
theorem Mod.hauls_ncRead {m : Mod} (hu : m.coh.upsets = []) (pa n age : Nat) : m.hauls (m.ncRead pa n age).2 := by
  unfold Mod.ncRead
  refine Mod.hauls_ite (Mod.hauls_fold _ (fun m la hu => ?_) _ m hu) (Mod.hauls_fold _ (fun m la hu => ?_) _ m hu)
  · dsimp only
    rw [Mod.meetErr_none _ _ _ _ hu]
    have h0 := Mod.hauls_pncLook m la
    obtain ⟨m0, hm0⟩ : ∃ v, v = m.pncLook la := ⟨_, rfl⟩
    rw [← hm0] at h0 ⊢
    have h1 : m.hauls (if m0.busy la = true then m0 else match (m0.dirAt la).st with
        | .x o => match ((m0.lostLine o la).core o).mem.state la with
          | .m => ((m0.lostLine o la).updMem o fun k => k.setState la .e).pncPut la 1 true
          | .i => (if ((m0.lostLine o la).core o).mem.wbDirty la = true then (m0.lostLine o la).pncPut la 1 true else m0.lostLine o la).setDir la {}
          | _ => m0.lostLine o la
        | _ => m0) := by
      refine Mod.hauls_ite h0 ?_
      split
      · have h2 := fun o => Mod.hauls_after (Mod.hauls_lostLine m0 o la) h0
        split
        · exact Mod.hauls_after (Mod.hauls_pncPut _ _ _ _) (Mod.hauls_after (Mod.hauls_updCore _ _ _) (h2 _))
        · exact Mod.hauls_after (Mod.hauls_setDir _ _ _) (Mod.hauls_ite (Mod.hauls_after (Mod.hauls_pncPut _ _ _ _) (h2 _)) (h2 _))
        · exact h2 _
      · exact h0
    exact Mod.hauls_ite h1 (Mod.hauls_ite (Mod.hauls_after (Mod.hauls_askRange _ _ _ _ _) h1)
      (Mod.hauls_after (Mod.hauls_pncPut _ _ _ _) (Mod.hauls_after (Mod.hauls_askRange _ _ _ _ _) h1)))
  · rw [Mod.meetErr_none _ _ _ _ hu, ite_self]
    exact Mod.hauls_refl m
theorem Mod.hauls_clears (m : Mod) (mem : Tab Byte) (pa n qa k : Nat) : m.hauls (({ m with mem := mem }.clearTags pa n).cleanLines qa k) := by
  have h : m.hauls ({ m with mem := mem }.clearTags pa n) := by
    unfold Mod.clearTags
    split <;> exact ⟨rfl, rfl, rfl, rfl, rfl, rfl, fun _ _ => rfl⟩
  refine Mod.hauls_after ?_ h
  unfold Mod.cleanLines
  dsimp only
  split <;> exact ⟨rfl, rfl, rfl, rfl, rfl, rfl, fun _ _ => rfl⟩
theorem Mod.hauls_wrLine (m : Mod) (pa : Nat) (bs : List Byte) : m.hauls (m.wrLine pa bs) :=
  Mod.hauls_ite (Mod.hauls_wr m _ (not_shtReg_spl (m.place_spool_lt pa) (by omega) (by omega))) (Mod.hauls_clears m _ _ _ _ _)
theorem Mod.hauls_wrMem (m : Mod) (pa : Nat) (bs : List Byte) : m.hauls (m.wrMem pa bs) :=
  Mod.hauls_ite (Mod.hauls_foldl _ (fun m _ => Mod.hauls_wrLine m _ _) _ m) (Mod.hauls_clears m _ _ _ _ _)
theorem Mod.hauls_ncWrite (m : Mod) (pa : Nat) (bs : List Byte) (alloc : Bool) : m.hauls (m.ncWrite pa bs alloc) := by
  refine Mod.hauls_ite (Mod.hauls_trans (Mod.hauls_foldl _ (fun m la => ?_) _ m) (Mod.hauls_wrMem _ pa bs)) (Mod.hauls_wrMem m pa bs)
  have h := Mod.hauls_dropCopies m la
  exact Mod.hauls_ite h (Mod.hauls_ite (Mod.hauls_trans h (Mod.hauls_pncPut _ _ _ _)) (Mod.hauls_trans h (Mod.hauls_askWrite _ _ _ _)))
theorem Mod.hauls_scramble (m : Mod) (pa n : Nat) : m.hauls (m.scramble pa n) :=
  Mod.hauls_trans (t := (m.freeBytes n).2) ⟨rfl, rfl, rfl, rfl, rfl, rfl, fun _ _ => rfl⟩ (Mod.hauls_ncWrite _ pa _ _)
/-- Transfers between panels. -/
theorem Mod.hauls_crosses (m : Mod) {a : Nat} (ha : a < 4) (dst part : Option Nat) : m.hauls (m.crosses (some a) dst part) := by
  unfold Mod.crosses
  cases dst with
  | none => exact Mod.hauls_refl m
  | some b => exact Mod.hauls_ite (Mod.hauls_refl m) (Mod.hauls_evPanel m ha _ _ _)

/-! ## Reads that leave memory as it is -/

/-- A shuttle has read: memory stays too. -/
structure Mod.peruses (m t : Mod) : Prop where
  hauls : m.hauls t
  mem : t.mem = m.mem
theorem Mod.peruses_refl (m : Mod) : m.peruses m := ⟨Mod.hauls_refl m, rfl⟩
theorem Mod.peruses_trans {m t u : Mod} (h : m.peruses t) (g : t.peruses u) : m.peruses u := ⟨Mod.hauls_trans h.hauls g.hauls, g.mem.trans h.mem⟩
theorem Mod.peruses.upsets {m t : Mod} (h : m.peruses t) (hu : m.coh.upsets = []) : t.coh.upsets = [] := h.hauls.upsets.trans hu
theorem Mod.peruses_ncRead {m : Mod} (hu : m.coh.upsets = []) (pa n age : Nat) : m.peruses (m.ncRead pa n age).2 :=
  ⟨Mod.hauls_ncRead hu pa n age, (Mod.traffic_ncRead hu pa n age).fields.1⟩
theorem Mod.peruses_of_onlyBar {m t : Mod} (h : m.onlyBar t) (g : m.hauls t) : m.peruses t := ⟨g, by rw [h.eq]⟩
theorem Mod.peruses_inc_xlt (m : Mod) (p : Nat) {x : Nat} (hx : x < 0x1000) : m.peruses (m.inc (bXLT p + x)) := ⟨Mod.hauls_wr m _ (not_shtReg_xlt hx), rfl⟩
theorem Mod.peruses_stlbInstall (m : Mod) (panel : Nat) (l : Leaf) : m.peruses (m.stlbInstall panel l) := by
  unfold Mod.stlbInstall
  dsimp only
  split <;> exact ⟨⟨rfl, rfl, rfl, rfl, rfl, rfl, fun _ _ => rfl⟩, rfl⟩
theorem Mod.peruses_fold {β : Type} (f : Mod → β → Mod) (hf : ∀ (m : Mod) x, m.coh.upsets = [] → m.peruses (f m x)) (xs : List β) :
    ∀ m : Mod, m.coh.upsets = [] → m.peruses (xs.foldl f m) := by
  induction xs with
  | nil => exact fun m _ => Mod.peruses_refl m
  | cons x xs ih =>
    exact fun m hu => Mod.peruses_trans (hf m x hu) (ih (f m x) ((hf m x hu).upsets hu))

/-! ## Translation for a shuttle (R373, R411, R418) -/

theorem Mod.peruses_walkDo {m : Mod} (hu : m.coh.upsets = []) {panel : Nat} (hp : panel < 4) (p va : Nat) : m.peruses (m.walkDo panel p none va).2 := by
  obtain ⟨reads, hreads⟩ : ∃ r, r = walkReads m p va 4 0 (m.rdf (bXLT p) 45 15 * 2 ^ 15) := ⟨_, rfl⟩
  have h1 : m.peruses (if reads.isEmpty then m else (m.inc (bXLT p + 0x40)).evPanel panel 0x0A 1 (some p)) := by
    split
    · exact Mod.peruses_refl m
    · exact Mod.peruses_trans (m.peruses_inc_xlt p (by decide)) (Mod.peruses_of_onlyBar (Mod.onlyBar_evPanel _ _ _ _ _) (Mod.hauls_evPanel _ hp _ _ _))
  have h2 := Mod.peruses_trans h1 (Mod.peruses_fold (fun (m : Mod) a => (m.ncRead a 8).2) (fun m a hu => Mod.peruses_ncRead hu a 8 1) reads _ (h1.upsets hu))
  unfold Mod.walkDo
  rw [← hreads]
  dsimp only
  cases m.walk p va with
  | leaf l pte => exact Mod.peruses_trans h2 (Mod.peruses_stlbInstall _ _ _)
  | fail c l pte => exact Mod.peruses_trans h2 (Mod.peruses_inc_xlt _ p (by decide))
theorem Mod.peruses_shtWarm {m : Mod} (hu : m.coh.upsets = []) {s : Nat} (hs : s < 8) (p va : Nat) : m.peruses (m.shtWarm s p va) := by
  unfold Mod.shtWarm
  split
  · exact Mod.peruses_refl m
  · exact Mod.peruses_walkDo hu (by omega) p va
theorem Mod.peruses_shtXlat {m t : Mod} {s p va n : Nat} {pgtab : Bool} {acc : Acc} {pl : Place} (hu : m.coh.upsets = []) (hs : s < 8)
    (h : m.shtXlat s p pgtab acc va n = .ok (pl, t)) : m.peruses t := by
  have hw := Mod.peruses_shtWarm hu hs p va
  unfold Mod.shtXlat at h
  dsimp only at h
  split at h
  · obtain ⟨q, -, h⟩ := bind_ok h
    cases h
    exact Mod.peruses_trans hw (Mod.peruses_stlbInstall _ _ _)
  · split at h
    · obtain ⟨q, -, h⟩ := bind_ok h
      cases h
      exact hw
    · cases h
theorem Mod.peruses_shtPages {s p : Nat} {pgtab : Bool} {acc : Acc} (hs : s < 8) (k : Nat) : ∀ {m t : Mod} {va n : Nat} {ps : List (Place × Nat)},
    m.coh.upsets = [] → m.shtPages s p pgtab acc k va n = .ok (ps, t) → m.peruses t := by
  induction k with
  | zero => intro m t va n ps _ h; cases h; exact Mod.peruses_refl m
  | succ k ih =>
    intro m t va n ps hu h
    unfold Mod.shtPages at h
    split at h
    · cases h; exact Mod.peruses_refl m
    · obtain ⟨⟨pl, m1⟩, hx, h⟩ := bind_ok h
      obtain ⟨⟨qs, m2⟩, hy, h⟩ := bind_ok h
      cases h
      have h1 := Mod.peruses_shtXlat hu hs hx
      exact Mod.peruses_trans h1 (ih (h1.upsets hu) hy)
theorem Mod.peruses_shtRange {m t : Mod} {s p va n : Nat} {cap : Cap} {acc : Acc} {ps : List (Place × Nat)} (hu : m.coh.upsets = []) (hs : s < 8)
    (h : m.shtRange s p cap acc va n = .ok (ps, t)) : m.peruses t := Mod.peruses_shtPages hs _ hu h
theorem Mod.peruses_srcPieces {m t : Mod} {s r : Nat} {d : ShtDesc} {ps : List (Place × Nat)} (hu : m.coh.upsets = []) (hs : s < 8)
    (h : m.srcPieces s d r = .ok (ps, t)) : m.peruses t := by
  unfold Mod.srcPieces at h
  split at h
  · exact Mod.peruses_shtRange hu hs h
  · cases h; exact Mod.peruses_refl m
theorem Mod.peruses_dstPieces {m t : Mod} {s r : Nat} {d : ShtDesc} {ps : List (Place × Nat)} (hu : m.coh.upsets = []) (hs : s < 8)
    (h : m.dstPieces s d r = .ok (ps, t)) : m.peruses t := by
  unfold Mod.dstPieces at h
  split at h
  · obtain ⟨⟨qs, m1⟩, hx, h⟩ := bind_ok h
    dsimp only at h
    split at h <;> cases h
    exact Mod.peruses_shtRange hu hs hx
  · cases h; exact Mod.peruses_refl m
theorem Mod.peruses_allPieces {s : Nat} {d : ShtDesc} (hs : s < 8) (k : Nat) : ∀ {m t : Mod} {rows}, m.coh.upsets = [] →
    m.allPieces s d k = .ok (rows, t) → m.peruses t ∧ rows.length = k := by
  induction k with
  | zero => intro m t rows _ h; cases h; exact ⟨Mod.peruses_refl m, rfl⟩
  | succ k ih =>
    intro m t rows hu h
    unfold Mod.allPieces at h
    obtain ⟨⟨a, m1⟩, hx, h⟩ := bind_ok h
    obtain ⟨⟨b, m2⟩, hy, h⟩ := bind_ok h
    obtain ⟨⟨rest, m3⟩, hz, h⟩ := bind_ok h
    cases h
    have h1 := Mod.peruses_srcPieces hu hs hx
    have h2 := Mod.peruses_trans h1 (Mod.peruses_dstPieces (h1.upsets hu) hs hy)
    obtain ⟨h3, hlen⟩ := ih (h2.upsets hu) hz
    exact ⟨Mod.peruses_trans h2 h3, by rw [List.length_cons, hlen]⟩
/-- What a shuttle gathers it reads. -/
theorem Mod.peruses_gatherPieces {m : Mod} (hu : m.coh.upsets = []) (d : ShtDesc) (off : Nat) (ps : List (Place × Nat)) : m.peruses (m.gatherPieces d off ps).2.2 := by
  unfold Mod.gatherPieces
  refine List.foldlRecOn (motive := fun a : List Byte × Bool × Mod => m.peruses a.2.2) ps _ (Mod.peruses_refl m) fun a ha p _ => ?_
  split
  · exact Mod.peruses_trans ha (Mod.peruses_ncRead (ha.upsets hu) _ _ _)
  · exact ha

end Sys2Proof.Machine
end

section
/-! A descriptor starts or fails (R371 to R378), and O34. -/

namespace Sys2Proof.Machine

/-! ## Queues of a shuttle -/

theorem Mod.sht_updSht (m : Mod) (s : Nat) (f : Shuttle → Shuttle) : (m.updSht s f).sht s = f (m.sht s) := by
  unfold Mod.updSht Mod.sht Tab.get
  rw [Tab.get?_put, if_pos rfl]
  rfl
theorem Mod.hauls.sht {m t : Mod} (h : m.hauls t) (s : Nat) : t.sht s = m.sht s := by unfold Mod.sht; rw [h.shuttles]
theorem Mod.hauls.awaits {m t : Mod} (h : m.hauls t) (s : Nat) (d : ShtDesc) : t.shtAwaits s d = m.shtAwaits s d := by
  unfold Mod.shtAwaits
  rw [h.lnk, h.adds]
theorem shtReg_sht {s x : Nat} (hs : s < 8) (hx : x < 0x100) : shtReg (bSHT s + x) := .inr (.inl (by simp only [bSHT, bL2C]; omega))
theorem shtReg_perr (p : Nat) : shtReg (bPERR p) := .inr (.inr (.inr ⟨p, .inl rfl⟩))
theorem sht_ne_prt {s p x y : Nat} (hs : s < 8) (hx : x < 0x100) : bSHT s + x ≠ bPRT p + y := by simp only [bSHT, bPRT]; omega
theorem sht_ne_perr {s p x : Nat} (y : Nat) (hs : s < 8) (hx : x < 0x100) : bSHT s + x ≠ bPERR p + y := by simp only [bSHT, bPERR, bPRT]; omega
/-- A partition's vector is sent to its host alone. -/
theorem Mod.prtVector_keeps (m : Mod) (p : Nat) : ∃ b h, m.prtVector p = { m with bar0 := b, hosts := h } ∧
    ∀ a, a ≠ bPRT p + 0x28 → (m.prtVector p).rd a = m.rd a := by
  have send : ∀ (xs : List Nat) (h : Nat) (m : Mod), ∃ g, xs.foldl (fun (m : Mod) v => m.toHost h (.msixVf v)) m = { m with hosts := g } := by
    intro xs
    induction xs with
    | nil => exact fun h m => ⟨m.hosts, rfl⟩
    | cons x xs ih =>
      intro h m
      obtain ⟨g, hg⟩ := ih h (m.toHost h (.msixVf x))
      exact ⟨g, hg⟩
  unfold Mod.prtVector
  split
  · exact ⟨m.bar0, m.hosts, rfl, fun _ _ => rfl⟩
  · dsimp only
    obtain ⟨g, hg⟩ := send (m.vfsOf (m.part p).owner p) (m.part p).owner ((m.wrf (bPRT p + 0x28) 0 0 0).toHost (m.part p).owner (.msix (1 + p)))
    rw [hg]
    exact ⟨_, g, rfl, fun a ha => Mod.rd_wrf_ne m _ _ _ ha⟩
theorem Mod.sht_fire (m : Mod) (p n : Nat) (src : FireSrc) (s : Nat) : (m.fire p n src).sht s = m.sht s := by
  unfold Mod.fire
  split <;> rfl
/-- A notch fires. -/
theorem Mod.fire_notch (m : Mod) (p : Nat) {n : Nat} (src : FireSrc) (h : n ≠ 0xFFFF) :
    (m.fire p n src).pat.fires = m.pat.fires ++ [{ part := p, notch := n, src := src }] := by
  unfold Mod.fire
  rw [if_neg h]

section
variable {m : Mod} {s : Nat} (hs : s < 8)
include hs

/-- What a failure of a descriptor leaves (R376). -/
structure Mod.failed (m t : Mod) (s : Nat) (d : ShtDesc) (st : Nat) : Prop where
  sht : t.sht s = { m.sht s with running := (m.sht s).running.filter (·.id != d.id) }
  mem : t.mem = m.mem
  count : m.tallied t (bSHT s + 0x48) 1
  fires : d.f 4 15 0 ≠ 0xFFFF → t.pat.fires = m.pat.fires ++ [{ part := d.piece.part, notch := d.f 4 15 0, src := .shuttle s }]
  perr : m.rdf (bPERR d.piece.part) 63 63 = 0 →
    t.rd (bPERR d.piece.part) = w64 (2 ^ 63 + s * 2 ^ 56 + st * 2 ^ 48 + d.addr % 2 ^ 48) ∧ t.rd (bPERR d.piece.part + 8) = w64 d.core
theorem Mod.shtEnd_failed (m : Mod) (d : ShtDesc) (st : Nat) : m.failed (m.shtEnd s d st) s d st := by
  obtain ⟨p, hp⟩ : ∃ p, p = d.piece.part := ⟨_, rfl⟩
  obtain ⟨u, hu⟩ : ∃ u, u = (m.updSht s fun q => { q with running := q.running.filter (·.id != d.id) }).fire p (d.f 4 15 0) (.shuttle s) := ⟨_, rfl⟩
  have hub : u.bar0 = m.bar0 := by rw [hu]; exact (Mod.fire_keeps _ _ _ _).1
  have hur : ∀ a, u.rd a = m.rd a := fun a => by unfold Mod.rd; rw [hub]
  have hsht : u.sht s = { m.sht s with running := (m.sht s).running.filter (·.id != d.id) } := by
    rw [hu, Mod.sht_fire, Mod.sht_updSht]
  have hmem : u.mem = m.mem := by rw [hu]; exact (Mod.fire_keeps _ _ _ _).2.1
  have hfires : d.f 4 15 0 ≠ 0xFFFF → u.pat.fires = m.pat.fires ++ [{ part := p, notch := d.f 4 15 0, src := .shuttle s }] := fun h => by
    rw [hu]; exact Mod.fire_notch _ p _ h
  have hcount : m.tallied (u.inc (bSHT s + 0x48)) (bSHT s + 0x48) 1 := by
    have h := u.tallied_inc (bSHT s + 0x48)
    unfold Mod.tallied Mod.rdf at *
    rw [hur] at h
    exact h
  have hbit : ∀ a, a ≠ bSHT s + 0x48 → (u.inc (bSHT s + 0x48)).rd a = m.rd a := fun a ha => (Mod.rd_incBy_ne u 1 ha).trans (hur a)
  have eq : m.shtEnd s d st = if (u.inc (bSHT s + 0x48)).rdf (bPERR p) 63 63 = 1 then u.inc (bSHT s + 0x48)
      else (((u.inc (bSHT s + 0x48)).wr (bPERR p) (w64 (2 ^ 63 + s * 2 ^ 56 + st * 2 ^ 48 + d.addr % 2 ^ 48))).wr (bPERR p + 8) (w64 d.core)).prtVector p := by
    rw [hu, hp]; rfl
  rw [eq]
  split
  next h1 =>
    refine ⟨hsht, hmem, hcount, hp ▸ hfires, fun h0 => absurd h1 ?_⟩
    unfold Mod.rdf at h0 ⊢
    rw [hbit (bPERR p) (Ne.symm (sht_ne_perr (x := 0x48) 0 hs (by decide))), hp, h0]
    decide
  next h1 =>
    obtain ⟨w, hw⟩ : ∃ w, w = ((u.inc (bSHT s + 0x48)).wr (bPERR p) (w64 (2 ^ 63 + s * 2 ^ 56 + st * 2 ^ 48 + d.addr % 2 ^ 48))).wr (bPERR p + 8) (w64 d.core) :=
      ⟨_, rfl⟩
    obtain ⟨b, g, hv, hrd⟩ := w.prtVector_keeps p
    rw [← hw]
    refine ⟨?_, ?_, ?_, ?_, fun _ => ⟨?_, ?_⟩⟩
    · rw [hv, hw]; exact hsht
    · rw [hv, hw]; exact hmem
    · have h2 : (w.prtVector p).rd (bSHT s + 0x48) = (u.inc (bSHT s + 0x48)).rd (bSHT s + 0x48) := by
        rw [hrd _ (sht_ne_prt hs (by decide)), hw, Mod.rd_wr_ne _ _ (sht_ne_perr 8 hs (by decide)),
          Mod.rd_wr_ne _ _ (show bSHT s + 0x48 ≠ bPERR p from sht_ne_perr 0 hs (by decide))]
      unfold Mod.tallied Mod.rdf at hcount ⊢
      rw [h2]
      exact hcount
    · rw [hv, hw, ← hp]; exact hfires
    · rw [← hp, hrd _ (by simp only [bPERR]; omega), hw, Mod.rd_wr_ne _ _ (by omega), Mod.rd_wr_self]
    · rw [← hp, hrd _ (by simp only [bPERR]; omega), hw, Mod.rd_wr_self]
/-- A failure after what a shuttle has done beside. -/
theorem Mod.hauls.failed {t u : Mod} {d : ShtDesc} {st : Nat} (h : m.hauls t) (g : t.failed u s d st) :
    u.sht s = { m.sht s with running := (m.sht s).running.filter (·.id != d.id) } ∧ m.tallied u (bSHT s + 0x48) 1 ∧
      (d.f 4 15 0 ≠ 0xFFFF → u.pat.fires = m.pat.fires ++ [{ part := d.piece.part, notch := d.f 4 15 0, src := .shuttle s }]) ∧
      (m.rdf (bPERR d.piece.part) 63 63 = 0 → u.rd (bPERR d.piece.part) = w64 (2 ^ 63 + s * 2 ^ 56 + st * 2 ^ 48 + d.addr % 2 ^ 48) ∧
        u.rd (bPERR d.piece.part + 8) = w64 d.core) := by
  refine ⟨by rw [g.sht, h.sht], ?_, fun hn => by rw [g.fires hn, h.pat], fun h0 => g.perr ?_⟩
  · have hc := g.count
    unfold Mod.tallied Mod.rdf at *
    rw [hc, h.regs _ (shtReg_sht hs (by decide))]
  · unfold Mod.rdf at *
    rw [h.regs _ (shtReg_perr _)]
    exact h0

end

/-! ## The start of a descriptor (R374, R376) -/

theorem filter_front {old : List ShtDesc} {d : ShtDesc} (h : ∀ x, x ∈ old → x.id ≠ d.id) : (old ++ [d]).filter (·.id != d.id) = old := by
  rw [List.filter_append, List.filter_eq_self.mpr fun x hx => by simpa using h x hx]
  simp
theorem map_front {old : List ShtDesc} {d : ShtDesc} (h : ∀ x, x ∈ old → x.id ≠ d.id) (f : ShtDesc → ShtDesc) :
    (old ++ [d]).map (fun x => if x.id = d.id then f x else x) = old ++ [f d] := by
  rw [List.map_append, List.map_congr_left fun x hx => if_neg (h x hx), List.map_id']
  simp

/-- A request of a remote place changes links alone. -/
theorem Mod.remoteSend_keeps (m : Mod) (r : RemReq) (vc op rtype dev win off : Nat) (data : List Byte) :
    ∃ b l n, (m.remoteSend r vc op rtype dev win off data).2 = { m with bar0 := b, lnk := l, nextId := n } := by
  have arrive : ∀ (m : Mod) x, ∃ b l, m.arrive x = { m with bar0 := b, lnk := l } := fun m x => ⟨m.bar0, _, rfl⟩
  have forward : ∀ (m : Mod) x, ∃ b l, m.forwardMsg x none = { m with bar0 := b, lnk := l } := by
    intro m x
    unfold Mod.forwardMsg
    dsimp only
    repeat' split
    all_goals exact ⟨_, _, rfl⟩
  have send : ∀ (m : Mod) x, ∃ b l, m.sendMsg x = { m with bar0 := b, lnk := l } := by
    intro m x
    unfold Mod.sendMsg
    dsimp only
    split
    · split <;> exact ⟨_, _, rfl⟩
    · exact forward m x
  unfold Mod.remoteSend
  dsimp only
  obtain ⟨b, l, h⟩ := send { m with nextId := m.nextId + 1, lnk := { m.lnk with remotes := Tab.put m.lnk.remotes (m.nextId % 2 ^ 24) r } }
    { dest := dev, src := ({ m with nextId := m.nextId + 1, lnk := { m.lnk with remotes := Tab.put m.lnk.remotes (m.nextId % 2 ^ 24) r } } : Mod).dev, vc := vc,
      data := reqHdr op rtype (m.nextId % 2 ^ 24) win off r.len ++ data }
  exact ⟨b, l, _, h⟩
theorem Mod.askPieces_keeps (m : Mod) (s : Nat) (d : ShtDesc) (off : Nat) (ps : List (Place × Nat)) :
    (m.askPieces s d off ps).shuttles = m.shuttles ∧ (m.askPieces s d off ps).mem = m.mem := by
  have asks : ∀ (g : Mod → Nat × Nat → Mod) (hg : ∀ m c, (g m c).shuttles = m.shuttles ∧ (g m c).mem = m.mem) (cs : List (Nat × Nat)) (m : Mod),
      (cs.foldl g m).shuttles = m.shuttles ∧ (cs.foldl g m).mem = m.mem := fun g hg cs m =>
    foldl_keeps (fun m t : Mod => t.shuttles = m.shuttles ∧ t.mem = m.mem) (fun _ => ⟨rfl, rfl⟩) (fun h g => ⟨g.1.trans h.1, g.2.trans h.2⟩) g hg cs m
  unfold Mod.askPieces
  refine List.foldlRecOn (motive := fun a : Mod × Nat => a.1.shuttles = m.shuttles ∧ a.1.mem = m.mem) ps _ ⟨rfl, rfl⟩ fun a ha p _ => ?_
  split
  next dev win o _ =>
    have hg : ∀ (m : Mod) (c : Nat × Nat), (m.remoteSend { unit := .shuttle s d.id (off + a.2 + c.1), part := d.piece.part, len := c.2, core := d.core }
        5 1 0 dev win (o + c.1) []).2.shuttles = m.shuttles ∧
        (m.remoteSend { unit := .shuttle s d.id (off + a.2 + c.1), part := d.piece.part, len := c.2, core := d.core } 5 1 0 dev win (o + c.1) []).2.mem = m.mem := by
      intro m c
      obtain ⟨b, l, n, h⟩ := m.remoteSend_keeps { unit := .shuttle s d.id (off + a.2 + c.1), part := d.piece.part, len := c.2, core := d.core } 5 1 0 dev win (o + c.1) []
      rw [h]
      exact ⟨rfl, rfl⟩
    obtain ⟨h1, h2⟩ := asks _ hg (cutRemote o p.2) a.1
    exact ⟨h1.trans ha.1, h2.trans ha.2⟩
  next => exact ha

/-- The commands that start a descriptor of an OP. -/
def ShtDesc.startedBy (d : ShtDesc) (u : ShuttleId) (i : Instr) : Prop :=
  (i = .copy u ∧ (d.op = 1 ∨ d.op = 0 ∨ 6 < d.op)) ∨ (i = .stride u ∧ d.op = 2) ∨ (i = .gather u ∧ d.op = 3) ∨ (i = .scatter u ∧ d.op = 4) ∨
    (i = .fill u ∧ d.op = 5) ∨ (i = .redadd u ∧ d.op = 6)
/-- The module with the descriptor at the head of a queue running. -/
def Mod.headRuns (m : Mod) (s : Nat) (d : ShtDesc) (rest : List ShtDesc) : Mod := m.updSht s fun q => { q with queue := rest, running := q.running ++ [d] }

section
variable {s : State} {u : ShuttleId} {d : ShtDesc} {rest : List ShtDesc} {i : Instr}

theorem completes_starts {Q : Mod → Prop} (hpow : s.m.powered = true) (hup : s.m.panelUp (u.val / 2) = true) (hheld : s.m.heldBack (.shuttle u.val) = false)
    (hq : (s.m.sht u.val).queue = d :: rest) (hroom : (s.m.sht u.val).running.length < 8) (hfence : d.fence = true → (s.m.sht u.val).running = [])
    (hi : d.startedBy u i) (hQ : Q { (s.m.headRuns u.val d rest).shtCheck u.val d with nv := s.m.nv, pwr := s.m.pwr }) : completes i s Q := by
  have start : ∀ ops : Nat → Bool, ops d.op = true →
      (s.m.onPanel (u.val / 2) fun m => m.shtStart u.val ops) = (s.m.headRuns u.val d rest).shtCheck u.val d := by
    intro ops hop
    have hno : ¬ (!ops d.op ∨ 8 ≤ (s.m.sht u.val).running.length ∨ (d.fence ∧ !(s.m.sht u.val).running.isEmpty) ∨ s.m.heldBack (.shuttle u.val)) := by
      rintro (h | h | ⟨h1, h2⟩ | h)
      · rw [hop] at h; exact Bool.false_ne_true h
      · omega
      · rw [hfence h1] at h2; exact Bool.false_ne_true h2
      · rw [hheld] at h; exact Bool.false_ne_true h
    unfold Mod.onPanel Mod.shtStart
    rw [if_pos hup]
    dsimp only
    rw [hq]
    exact if_neg hno
  rcases hi with ⟨rfl, ho⟩ | ⟨rfl, ho⟩ | ⟨rfl, ho⟩ | ⟨rfl, ho⟩ | ⟨rfl, ho⟩ | ⟨rfl, ho⟩ <;> refine completes_run rfl hpow ?_
  · have h := start (fun op => op == 1 || op == 0 || decide (6 < op)) (by simpa [or_assoc] using ho)
    exact h ▸ hQ
  · have h := start (· == 2) (by simpa using ho)
    exact h ▸ hQ
  · have h := start (· == 3) (by simpa using ho)
    exact h ▸ hQ
  · have h := start (· == 4) (by simpa using ho)
    exact h ▸ hQ
  · have h := start (· == 5) (by simpa using ho)
    exact h ▸ hQ
  · have h := start (· == 6) (by simpa using ho)
    exact h ▸ hQ

end

/-- The checks that come after the index list: the descriptor runs, or ends. -/
def Mod.shtGo (m : Mod) (s : Nat) (d y : ShtDesc) : Mod :=
  match m.shtFail2 d.piece.part y with
  | some st => m.shtEnd s y st
  | none => m.updDesc s d.id fun _ => { y with checked := true }

section
variable {m : Mod} {s : Nat} {d y : ShtDesc} {rest : List ShtDesc}
theorem Mod.headRuns_sht : (m.headRuns s d rest).sht s = { queue := rest, running := (m.sht s).running ++ [d] } := m.sht_updSht s _
/-- A running descriptor whose checks pass. -/
theorem Mod.updDesc_front {t : Mod} (hold : ∀ x, x ∈ (m.sht s).running → x.id ≠ d.id) (ht : (m.headRuns s d rest).hauls t) (f : ShtDesc → ShtDesc) :
    (t.updDesc s d.id f).sht s = { queue := rest, running := (m.sht s).running ++ [f d] } := by
  unfold Mod.updDesc
  rw [Mod.sht_updSht, ht.sht, Mod.headRuns_sht]
  dsimp only
  rw [map_front hold]
/-- One that fails. -/
theorem Mod.headRuns_fails {t : Mod} {st : Nat} (hs : s < 8) (hold : ∀ x, x ∈ (m.sht s).running → x.id ≠ d.id) (ht : (m.headRuns s d rest).peruses t)
    (hid : y.id = d.id) (hpart : y.piece = d.piece) (hbytes : y.bytes = d.bytes) (haddr : y.addr = d.addr) (hcore : y.core = d.core) :
    let v := t.shtEnd s y st
    v.sht s = { queue := rest, running := (m.sht s).running } ∧ v.mem = m.mem ∧ m.tallied v (bSHT s + 0x48) 1 ∧
      (d.f 4 15 0 ≠ 0xFFFF → v.pat.fires = m.pat.fires ++ [{ part := d.piece.part, notch := d.f 4 15 0, src := .shuttle s }]) ∧
      (m.rdf (bPERR d.piece.part) 63 63 = 0 → v.rd (bPERR d.piece.part) = w64 (2 ^ 63 + s * 2 ^ 56 + st * 2 ^ 48 + d.addr % 2 ^ 48) ∧
        v.rd (bPERR d.piece.part + 8) = w64 d.core) := by
  intro v
  have hend := Mod.shtEnd_failed hs t y st
  obtain ⟨hsht, hcount, hfires, hperr⟩ := ht.hauls.failed hs hend
  have hf : y.f 4 15 0 = d.f 4 15 0 := by unfold ShtDesc.f; rw [hbytes]
  refine ⟨hsht.trans ?_, hend.mem.trans ht.mem, hcount, ?_, ?_⟩
  · rw [Mod.headRuns_sht, hid]
    dsimp only
    rw [filter_front hold]
  · rw [← hf, ← hpart]; exact hfires
  · rw [← hpart, ← haddr, ← hcore]; exact hperr

/-! ## What the checks of a descriptor do (R373, R376) -/

theorem Mod.shtCheck_fails {st : Nat} (h : d.fail1 = some st) : m.shtCheck s d = m.shtEnd s d st := by
  unfold Mod.shtCheck
  rw [h]
theorem Mod.shtCheck_plain (h : d.fail1 = none) (hx : d.hasIdx = false) : m.shtCheck s d = m.shtGo s d d := by
  unfold Mod.shtCheck
  rw [h]
  dsimp only
  rw [hx]
  exact if_pos rfl
variable {ps : List (Place × Nat)} {m2 : Mod}
theorem Mod.shtCheck_list (h : d.fail1 = none) (hx : d.hasIdx = true)
    (hr : m.shtRange s d.piece.part d.icap .read (d.w 0x30) (d.isize * d.rows) = .ok (ps, m2)) :
    m.shtCheck s d = if anyFar ps ∧ !d.idxAsked then (m2.updDesc s d.id fun x => { x with idxAsked := true }).askPieces s d 0 ps
      else if m2.shtAwaits s d then m2
      else if (m2.gatherPieces d 0 ps).2.1 then (m2.gatherPieces d 0 ps).2.2.shtEnd s d 0x10
      else (m2.gatherPieces d 0 ps).2.2.shtGo s d { d with idx := d.indices (m2.gatherPieces d 0 ps).1, rdata := [] } := by
  unfold Mod.shtCheck
  rw [h]
  dsimp only
  rw [hx, if_neg (by decide), hr]
  rfl
end

/-- Settles O34. -/
theorem shuttleStart : Obligations.ShuttleStart := by
  intro s u d rest i hpow hup hheld hu hq hroom hfence hold p old m1 runs ends hi
  have starts : ∀ {Q : Mod → Prop}, Q { (s.m.headRuns u.val d rest).shtCheck u.val d with nv := s.m.nv, pwr := s.m.pwr } → completes i s Q :=
    fun hQ => completes_starts hpow hup hheld hq hroom hfence hi hQ
  have hs : u.val < 8 := u.isLt
  have goes : ∀ (t : Mod) (y : ShtDesc), (s.m.headRuns u.val d rest).peruses t → y.id = d.id → y.piece = d.piece → y.bytes = d.bytes → y.addr = d.addr →
      y.core = d.core → (s.m.headRuns u.val d rest).shtCheck u.val d = t.shtGo u.val d y →
      (∀ st, t.shtFail2 p y = some st → ends st) ∧ (t.shtFail2 p y = none → runs y) := by
    intro t y ht hid hpiece hbytes haddr hcore eq
    refine ⟨fun st hf => starts ?_, fun hf => starts ?_⟩
    · rw [eq, Mod.shtGo, show t.shtFail2 d.piece.part y = some st from hf]
      exact Mod.headRuns_fails hs hold ht hid hpiece hbytes haddr hcore
    · rw [eq, Mod.shtGo, show t.shtFail2 d.piece.part y = none from hf]
      exact ⟨Mod.updDesc_front hold ht.hauls _, ht.mem⟩
  refine ⟨fun st hf => starts ?_, fun hf hx => ?_, fun ps m2 hf hx hr => ⟨fun bs m3 hnear hwait hg => ?_, fun bs m3 hnear hwait hg => starts ?_,
      fun hfar hask => starts ?_⟩⟩
  · rw [Mod.shtCheck_fails hf]
    exact Mod.headRuns_fails hs hold (Mod.peruses_refl _) rfl rfl rfl rfl rfl
  · exact goes (s.m.headRuns u.val d rest) d (Mod.peruses_refl _) rfl rfl rfl rfl rfl (Mod.shtCheck_plain hf hx)
  · have h2 := Mod.peruses_shtRange (m := s.m.headRuns u.val d rest) hu hs hr
    have h3 := Mod.peruses_trans h2 (Mod.peruses_gatherPieces (h2.upsets hu) d 0 ps)
    have eq := Mod.shtCheck_list (m := s.m.headRuns u.val d rest) hf hx hr
    rw [if_neg (by rw [hnear]; exact fun h => Bool.false_ne_true h.1), if_neg (by rw [hwait]; decide), hg, if_neg Bool.false_ne_true] at eq
    rw [hg] at h3
    exact (goes m3 { d with idx := d.indices bs, rdata := [] } h3 rfl rfl rfl rfl rfl eq).symm
  · have h2 := Mod.peruses_shtRange (m := s.m.headRuns u.val d rest) hu hs hr
    have h3 := Mod.peruses_trans h2 (Mod.peruses_gatherPieces (h2.upsets hu) d 0 ps)
    have eq := Mod.shtCheck_list (m := s.m.headRuns u.val d rest) hf hx hr
    rw [if_neg (by rw [hnear]; exact fun h => Bool.false_ne_true h.1), if_neg (by rw [hwait]; decide), hg, if_pos rfl] at eq
    rw [hg] at h3
    rw [eq]
    exact Mod.headRuns_fails hs hold h3 rfl rfl rfl rfl rfl
  · have h2 := Mod.peruses_shtRange (m := s.m.headRuns u.val d rest) hu hs hr
    have eq := Mod.shtCheck_list (m := s.m.headRuns u.val d rest) hf hx hr
    rw [if_pos ⟨hfar, by rw [hask]; rfl⟩] at eq
    obtain ⟨hsht, hmem⟩ := (m2.updDesc u.val d.id fun x => { x with idxAsked := true }).askPieces_keeps u.val d 0 ps
    have hd := Mod.updDesc_front hold h2.hauls fun x => { x with idxAsked := true }
    have hshow : (((m2.updDesc u.val d.id fun x => { x with idxAsked := true }).askPieces u.val d 0 ps).sht u.val) =
        { queue := rest, running := (s.m.sht u.val).running ++ [{ d with idxAsked := true }] } := by
      rw [← hd]
      unfold Mod.sht
      rw [hsht]
    rw [eq]
    refine ⟨congrArg Shuttle.queue hshow, hmem.trans h2.mem, _, congrArg Shuttle.running hshow, rfl, rfl, rfl⟩

end Sys2Proof.Machine
end

section
/-! A descriptor is done, or ends late (R372, R376, R378, R514), and O35. -/

namespace Sys2Proof.Machine

/-! ## Completion (R378) -/

theorem Mod.hauls.rangeFenced {m t : Mod} (h : m.hauls t) (pa n : Nat) : t.rangeFenced pa n = m.rangeFenced pa n := by
  have hen : t.enabled = m.enabled := by unfold Mod.enabled; rw [h.regs _ (.inr (.inr (.inl rfl)))]
  have hline (b : Nat) : t.lineFenced b = m.lineFenced b := by
    unfold Mod.lineFenced Mod.isSpool Mod.spoolN Mod.place
    rw [hen, h.fenced]
  unfold Mod.rangeFenced
  rw [funext fun i => hline ((pa / 128 + i) * 128)]
/-- What a completion leaves, apart from the bytes. -/
structure Mod.finished (m t : Mod) (s : Nat) (d : ShtDesc) : Prop where
  sht : t.sht s = { m.sht s with running := (m.sht s).running.filter (·.id != d.id) }
  mem : t.mem = m.mem
  core : ∀ c, t.core c = m.core c
  count : m.tallied t (bSHT s + 0x40) 1
  fires : d.f 4 31 16 ≠ 0xFFFF → t.pat.fires = m.pat.fires ++ [{ part := d.piece.part, notch := d.f 4 31 16, src := .shuttle s }]
  regs : ∀ a, a < bPNC 0 → t.rd a = m.rd a
theorem Mod.rd_shtCnt (m : Mod) {s i n a : Nat} (h : a ≠ bSHT s + 0x40 + 8 * i) : (m.shtCnt s i n).rd a = m.rd a := Mod.rd_incBy_ne m n h
theorem Mod.shtComplete_finished {s : Nat} (hs : s < 8) (m : Mod) (d : ShtDesc) : m.finished (m.shtComplete s d) s d := by
  obtain ⟨u, hu⟩ : ∃ u, u = (m.updSht s fun q => { q with running := q.running.filter (·.id != d.id) }).fire d.piece.part (d.f 4 31 16) (.shuttle s) := ⟨_, rfl⟩
  obtain ⟨n, hn⟩ : ∃ n, n = d.rows * cdiv d.len 128 := ⟨_, rfl⟩
  have hub : u.bar0 = m.bar0 := by rw [hu]; exact (Mod.fire_keeps _ _ _ _).1
  have hur : ∀ a, u.rd a = m.rd a := fun a => by unfold Mod.rd; rw [hub]
  have hsht : u.sht s = { m.sht s with running := (m.sht s).running.filter (·.id != d.id) } := by rw [hu, Mod.sht_fire, Mod.sht_updSht]
  have hmem : u.mem = m.mem := by rw [hu]; exact (Mod.fire_keeps _ _ _ _).2.1
  have hcore : ∀ c, u.core c = m.core c := fun c => by rw [hu]; unfold Mod.fire; split <;> rfl
  have hfires : d.f 4 31 16 ≠ 0xFFFF → u.pat.fires = m.pat.fires ++ [{ part := d.piece.part, notch := d.f 4 31 16, src := .shuttle s }] := fun h => by
    rw [hu]; exact Mod.fire_notch _ _ _ h
  have hcount : m.tallied (u.shtCnt s 0 1) (bSHT s + 0x40) 1 := by
    have h := u.tallied_inc (bSHT s + 0x40)
    unfold Mod.tallied Mod.rdf at *
    rw [hur] at h
    exact h
  have hev := Mod.onlyBar_evPanel ((u.shtCnt s 0 1).shtCnt s 2 n) (s / 2) 0x09 n (some d.piece.part)
  have hrd : ∀ a, a < bMON → (((u.shtCnt s 0 1).shtCnt s 2 n).evPanel (s / 2) 0x09 n (some d.piece.part)).rd a = ((u.shtCnt s 0 1).shtCnt s 2 n).rd a :=
    fun a ha => Mod.rd_evPanel _ _ _ _ _ _ ha
  have eq : m.shtComplete s d = ((u.shtCnt s 0 1).shtCnt s 2 n).evPanel (s / 2) 0x09 n (some d.piece.part) := by rw [hu, hn]; rfl
  rw [eq]
  refine ⟨?_, ?_, fun c => ?_, ?_, fun h => ?_, fun a ha => ?_⟩
  · rw [hev.eq]; exact hsht
  · rw [hev.eq]; exact hmem
  · rw [hev.eq]; exact hcore c
  · unfold Mod.tallied Mod.rdf at hcount ⊢
    rw [hrd _ (by simp only [bSHT, bMON]; omega), Mod.rd_shtCnt _ (by omega)]
    exact hcount
  · rw [hev.eq]; exact hfires h
  · have h1 : a < bMON := by simp only [bPNC, bMON] at *; omega
    have h2 : ∀ i, a ≠ bSHT s + 0x40 + 8 * i := fun i => by simp only [bPNC, bSHT] at *; omega
    rw [hrd a h1, Mod.rd_shtCnt _ (h2 2), Mod.rd_shtCnt _ (h2 0), hur]
/-- A completion after the bytes have moved, counted with the tags they took along. -/
theorem Mod.hauls.finished {m w t : Mod} {s n : Nat} {d : ShtDesc} (hs : s < 8) (h : m.hauls w) (g : (w.shtCnt s 4 n).finished t s d) :
    (t.sht s).running = (m.sht s).running.filter (·.id != d.id) ∧ m.tallied t (bSHT s + 0x40) 1 ∧
      (d.f 4 31 16 ≠ 0xFFFF → t.pat.fires = m.pat.fires ++ [{ part := d.piece.part, notch := d.f 4 31 16, src := .shuttle s }]) ∧
      (m.noCue → t.noCue) := by
  refine ⟨?_, ?_, fun hn => ?_, fun hc => ?_⟩
  · rw [g.sht]
    exact congrArg (fun q : Shuttle => q.running.filter (·.id != d.id)) (h.sht s)
  · have hc := g.count
    unfold Mod.tallied Mod.rdf at *
    rw [hc, Mod.rd_shtCnt _ (by omega), h.regs _ (shtReg_sht hs (by decide))]
  · rw [g.fires hn]
    exact congrArg (· ++ _) (congrArg PatState.fires h.pat)
  · have ha : bCAL + 0x10 < bPNC 0 := by decide
    unfold Mod.noCue Mod.rdf at *
    rw [g.regs _ ha, Mod.rd_shtCnt _ (by simp only [bCAL, bSHT]; omega), h.regs _ (.inl ha)]
    exact hc

/-! ## Rows (R372, R379) -/

theorem Mod.hauls.tags {m t : Mod} (h : m.hauls t) (q : Tab Bool) : m.hauls { t with tags := q } :=
  ⟨h.shuttles, h.lnk, h.adds, h.fenced, h.pat, h.upsets, h.regs⟩
theorem Mod.hauls_scrambleDst (m : Mod) (s : Nat) (d : ShtDesc) : m.hauls (m.scrambleDst s d) := by
  refine Mod.hauls_foldl _ (fun m r => ?_) _ m
  dsimp only
  split
  · exact Mod.hauls_trans (t := (m.freeBytes d.len).2) ⟨rfl, rfl, rfl, rfl, rfl, rfl, fun _ _ => rfl⟩ (Mod.hauls_updCore _ _ _)
  · refine Mod.hauls_foldl _ (fun m p => ?_) _ m
    split
    · exact Mod.hauls_scramble m _ _
    · exact Mod.hauls_refl m
  · exact Mod.hauls_refl m
theorem Mod.peruses_rowCrosses (m : Mod) {s : Nat} (hs : s < 8) (part : Nat) (l : List (Place × Nat)) : m.peruses (m.rowCrosses s part l) := by
  have cross : ∀ (m : Mod) {a : Nat} (ha : a < 4) b c, m.peruses (m.crosses (some a) b c) := fun m a ha b c =>
    Mod.peruses_of_onlyBar (m.onlyBar_crosses _ _ _).1 (Mod.hauls_crosses m ha b c)
  refine foldl_keeps Mod.peruses Mod.peruses_refl Mod.peruses_trans _ (fun m p => ?_) l m
  split
  · split
    · refine foldl_keeps Mod.peruses Mod.peruses_refl Mod.peruses_trans _ (fun m la => ?_) _ m
      exact Mod.peruses_trans (cross m (by omega) _ _) (cross _ (m.homePanel_lt la) _ _)
    · exact Mod.peruses_refl m
  · exact Mod.peruses_refl m
/-- Bytes of a row that lies in local memory, and its tags, are written. -/
theorem Mod.putRow_local {m : Mod} {s r b n : Nat} {d : ShtDesc} {bs : List Byte} (tags : List Nat) (hk : d.dkind = 0) (hop : d.op ≠ 6) (hn : bs.length = n)
    (hf : m.rangeFenced b n = false) : m.hauls (m.putRow s d r [(.loc b, n)] bs tags) ∧ m.wrote (m.putRow s d r [(.loc b, n)] bs tags) b bs := by
  have tag : ∀ (g : Mod → Nat → Mod) (hg : ∀ m t, ∃ q, g m t = { m with tags := q }) (l : List Nat) (m : Mod), ∃ q, l.foldl g m = { m with tags := q } := by
    intro g hg l
    induction l with
    | nil => exact fun m => ⟨m.tags, rfl⟩
    | cons x l ih =>
      intro m
      obtain ⟨q, hq⟩ := hg m x
      obtain ⟨q', hq'⟩ := ih (g m x)
      exact ⟨q', by rw [List.foldl_cons, hq', hq]⟩
  have hbs : (bs.drop 0).take n = bs := by rw [List.drop_zero, ← hn, List.take_length]
  obtain ⟨q, hq⟩ : ∃ q, m.putRow s d r [(.loc b, n)] bs tags = { m.ncWrite b bs (!d.stream) with tags := q } := by
    unfold Mod.putRow
    split
    next h => rw [hk] at h; cases h
    next h => rw [hk] at h; cases h
    next =>
      dsimp only [List.foldl_cons, List.foldl_nil]
      rw [if_neg hop, hbs]
      exact tag _ (fun m t => ⟨_, rfl⟩) _ _
  obtain ⟨t, ht, heq⟩ := m.ncWrite_eq b bs (!d.stream)
  have hw := Mod.hauls_ncWrite m b bs (!d.stream)
  have hwrote := Mod.wrote_wrMem t b bs (by rw [ht.rangeFenced, hn, hf])
  rw [← heq] at hwrote
  rw [hq]
  obtain ⟨w, hwdef⟩ : ∃ w, w = m.ncWrite b bs (!d.stream) := ⟨_, rfl⟩
  rw [← hwdef] at hw hwrote ⊢
  exact ⟨hw.tags q, fun a => (hwrote a).trans (by rw [ht.fields.1])⟩

/-! ## The commands -/

section
variable {s : State} {u : ShuttleId} {k : Nat} {d : ShtDesc} {bad : BoltErrs} {host : List Byte}

/-- A descriptor whose rows have moved is done. -/
theorem Mod.shtDone_moves {m m1 m2 : Mod} {rows} (hk : (m.sht u.val).running[k]? = some d) (hs1 : d.skind ≠ 1) (hfault : d.fault = none) (hlate : d.late = none)
    (hheld : m.heldBack (.shuttle u.val) = false) (hc : d.checked = true) (hm : d.moved = false) (hr : m.allPieces u.val d d.rows = .ok (rows, m1))
    (hop : d.op ≠ 6) (hnear : (rows.any fun x => anyFar x.1) = false) (hw : m1.shtAwaits u.val d = false) (hmove : m1.moveRows u.val d host rows 0 = some m2)
    (hw2 : m2.shtAwaits u.val d = false) : m.shtDone u k host bad = m2.shtComplete u.val d := by
  unfold Mod.shtDone
  rw [hk]
  dsimp only
  rw [if_neg hs1, if_neg (by rw [hfault, hlate, hheld]; decide), hc, if_neg (by decide), hm, if_neg (by decide), hr]
  dsimp only
  rw [if_neg (fun h => hop h.1), hnear, if_neg (fun h => Bool.false_ne_true h.1), if_neg (by rw [hw]; decide), hmove]
  dsimp only
  rw [if_neg (by rw [hw2]; decide)]
theorem completes_done {Q : Mod → Prop} (hpow : s.m.powered = true) (hup : s.m.panelUp (u.val / 2) = true) {t : Mod}
    (ht : s.m.shtDone u k host bad = t) (hcue : t.noCue) (hQ : Q { t with nv := s.m.nv, pwr := s.m.pwr }) :
    completes (.shuttleDescriptorDone (u, bad) k host) s Q := by
  refine completes_judged rfl hpow ?_
  have eq : (s.m.onPanel (u.val / 2) fun m => m.shtDone u k host bad) = t := (if_pos hup).trans ht
  show Q { (s.m.onPanel (u.val / 2) fun m => m.shtDone u k host bad).judge with nv := s.m.nv, pwr := s.m.pwr }
  rw [eq, Mod.judge_off t hcue]
  exact hQ
theorem completes_fails {i : Instr} {st : Nat} {Q : Mod → Prop} (hpow : s.m.powered = true) (hup : s.m.panelUp (u.val / 2) = true) {f : Mod → Mod}
    (hi : exec i s = s.run fun m => m.onPanel (u.val / 2) f) (hf : f s.m = (s.m.scrambleDst u.val d).shtEnd u.val d st)
    (hQ : ∀ t : Mod, (s.m.scrambleDst u.val d).failed t u.val d st → Q { t with nv := s.m.nv, pwr := s.m.pwr }) : completes i s Q := by
  refine completes_run hi hpow ?_
  unfold Mod.onPanel
  rw [if_pos hup, hf]
  exact hQ _ (Mod.shtEnd_failed u.isLt _ d st)

end

/-- The bytes that a FILL repeats. -/
def ShtDesc.pattern (d : ShtDesc) : List Byte := (upto d.len).map fun i => (toLe 8 (d.w 0x08)).getD (i % 8) 0
theorem ShtDesc.rowD_plain {d : ShtDesc} (h : d.op = 1 ∨ d.op = 5) (r : Nat) : (d.rowD r).toNat = d.w 0x10 := by
  unfold ShtDesc.rowD
  rcases h with h | h <;> rw [h] <;> rfl
/-- A FILL of a bolt. -/
theorem completes_fill {s : State} {u : ShuttleId} {k : Nat} {d : ShtDesc} {bad : BoltErrs} (hpow : s.m.powered = true) (hup : s.m.panelUp (u.val / 2) = true)
    (hheld : s.m.heldBack (.shuttle u.val) = false) (hcue : s.m.noCue) (hk : (s.m.sht u.val).running[k]? = some d) (hfault : d.fault = none)
    (hlate : d.late = none) (hc : d.checked = true) (hm : d.moved = false) (hw : s.m.shtAwaits u.val d = false) (hop : d.op = 5) (hs : d.skind = 0)
    (hd : d.dkind = 1) (hrows : d.rows = 1) : completes (.shuttleDescriptorDone (u, bad) k []) s fun t =>
      ((t.sht u.val).running = (s.m.sht u.val).running.filter (·.id != d.id) ∧ s.m.tallied t (bSHT u.val + 0x40) 1 ∧
        (d.f 4 31 16 ≠ 0xFFFF → t.pat.fires = s.m.pat.fires ++ [{ part := d.piece.part, notch := d.f 4 31 16, src := .shuttle u.val }])) ∧ t.mem = s.m.mem ∧
      ∀ a, Memory.byte (t.core (d.f 0 7 0)).bolt a = if d.w 0x10 ≤ a ∧ a < d.w 0x10 + d.len then (toLe 8 (d.w 0x08)).getD ((a - d.w 0x10) % 8) 0
        else Memory.byte (s.m.core (d.f 0 7 0)).bolt a := by
  obtain ⟨w, hwdef⟩ : ∃ w, w = s.m.updCore (d.f 0 7 0) fun q => q.boltWrite (d.w 0x10) d.pattern := ⟨_, rfl⟩
  have hhaul : s.m.hauls w := hwdef ▸ Mod.hauls_updCore _ _ _
  have hall : s.m.allPieces u.val d d.rows = .ok ([([], [])], s.m) := by
    have hsrc : ∀ r, s.m.srcPieces u.val d r = .ok ([], s.m) := fun r => by
      unfold Mod.srcPieces ShtDesc.hasSrc
      rw [hop]
      rfl
    have hdst : ∀ r, s.m.dstPieces u.val d r = .ok ([], s.m) := fun r => by
      unfold Mod.dstPieces
      rw [hd]
      rfl
    rw [hrows]
    unfold Mod.allPieces
    dsimp only
    simp only [hsrc, hdst, bind, Except.bind, Mod.allPieces]
  obtain ⟨n, hmove⟩ : ∃ n, s.m.moveRows u.val d [] [([], [])] 0 = some (w.shtCnt u.val 4 n) := by
    have hbytes : s.m.rowBytes d 0 [] [] = (d.pattern, false, s.m) := by
      unfold Mod.rowBytes
      rw [if_pos hop]
      rfl
    have hput : ∀ tags, s.m.putRow u.val d 0 [] d.pattern tags = w := fun tags => by
      unfold Mod.putRow
      rw [hd, ShtDesc.rowD_plain (.inr hop), hwdef]
      rfl
    unfold Mod.moveRows
    rw [hbytes]
    dsimp only
    rw [if_neg Bool.false_ne_true, hput]
    exact ⟨_, rfl⟩
  have hfin := Mod.shtComplete_finished u.isLt (w.shtCnt u.val 4 n) d
  obtain ⟨hgone, hcount, hfires, hno⟩ := hhaul.finished u.isLt hfin
  have hdone := Mod.shtDone_moves (bad := bad) (host := []) hk (by rw [hs]; decide) hfault hlate hheld hc hm hall (by rw [hop]; decide) rfl hw hmove
    ((hhaul.awaits u.val d).trans hw)
  refine completes_done hpow hup hdone (hno hcue) ⟨⟨hgone, hcount, hfires⟩, hfin.mem.trans (by rw [hwdef]; rfl), fun a => ?_⟩
  have hcore : ((w.shtCnt u.val 4 n).shtComplete u.val d).core (d.f 0 7 0) = (s.m.core (d.f 0 7 0)).boltWrite (d.w 0x10) d.pattern := by
    refine (hfin.core _).trans (Eq.trans (b := w.core (d.f 0 7 0)) rfl ?_)
    rw [hwdef]
    exact Mod.core_updCore_self _ _ _
  have hlen : d.pattern.length = d.len := by simp [ShtDesc.pattern, upto]
  refine (congrArg (fun q : Core => Memory.byte q.bolt a) hcore).trans ?_
  unfold Core.boltWrite
  rw [Memory.byte_setBytes, hlen]
  split
  next h =>
    rw [ShtDesc.pattern, List.getD_eq_getElem?_getD, List.getElem?_map, upto, List.getElem?_range (by omega)]
    rfl
  next => rfl
/-- A COPY between ranges that each lie in one piece of local memory. -/
theorem completes_copy {s : State} {u : ShuttleId} {k : Nat} {d : ShtDesc} {bad : BoltErrs} {a b : Nat} {m1 : Mod} (hpow : s.m.powered = true)
    (hup : s.m.panelUp (u.val / 2) = true) (hheld : s.m.heldBack (.shuttle u.val) = false) (hcue : s.m.noCue) (hu : s.m.coh.upsets = [])
    (hk : (s.m.sht u.val).running[k]? = some d) (hfault : d.fault = none) (hlate : d.late = none) (hc : d.checked = true) (hm : d.moved = false)
    (hw : s.m.shtAwaits u.val d = false) (hop : d.op = 1) (hs : d.skind = 0) (hd : d.dkind = 0)
    (hall : s.m.allPieces u.val d d.rows = .ok ([([(.loc a, d.len)], [(.loc b, d.len)])], m1)) (hclean : m1.poisoned a d.len = false)
    (hfence : s.m.rangeFenced b d.len = false) : completes (.shuttleDescriptorDone (u, bad) k []) s fun t =>
      ((t.sht u.val).running = (s.m.sht u.val).running.filter (·.id != d.id) ∧ s.m.tallied t (bSHT u.val + 0x40) 1 ∧
        (d.f 4 31 16 ≠ 0xFFFF → t.pat.fires = s.m.pat.fires ++ [{ part := d.piece.part, notch := d.f 4 31 16, src := .shuttle u.val }])) ∧
      s.m.wrote t b (s.m.rdMem a d.len) := by
  obtain ⟨h1, -⟩ := Mod.peruses_allPieces u.isLt _ hu hall
  obtain ⟨bs, hbs⟩ : ∃ bs, bs = s.m.rdMem a d.len := ⟨_, rfl⟩
  have hlen : bs.length = d.len := by rw [hbs]; exact Memory.bytes_length _ _ _
  have hread : m1.rdMem a d.len = bs := by rw [hbs]; unfold Mod.rdMem; rw [h1.mem]
  obtain ⟨m2, hm2⟩ : ∃ v, v = (m1.ncRead a d.len (if d.stream then 3 else 1)).2 := ⟨_, rfl⟩
  have h2 : s.m.peruses m2 := Mod.peruses_trans h1 (hm2 ▸ Mod.peruses_ncRead (h1.upsets hu) a d.len _)
  have hbytes : m1.rowBytes d 0 [(.loc a, d.len)] [] = (bs, false, m2) := by
    unfold Mod.rowBytes Mod.gatherPieces
    rw [if_neg (by rw [hop]; decide), hs]
    dsimp only [List.foldl_cons, List.foldl_nil]
    rw [hclean, ← hm2, List.nil_append, show (m1.ncRead a d.len (if d.stream then 3 else 1)).1 = m1.rdMem a d.len from rfl, hread]
    rfl
  obtain ⟨w, n, hmove, hhaul, hwrote⟩ : ∃ w n, m1.moveRows u.val d [] [([(.loc a, d.len)], [(.loc b, d.len)])] 0 = some (w.shtCnt u.val 4 n) ∧ s.m.hauls w ∧
      s.m.wrote w b bs := by
    unfold Mod.moveRows
    rw [hbytes]
    dsimp only
    rw [if_neg Bool.false_ne_true]
    obtain ⟨tags, htags⟩ : ∃ x, x = if d.copiesTags = true then m1.rowTags d 0 [(.loc a, d.len)] else [] := ⟨_, rfl⟩
    rw [← htags]
    have hput := Mod.putRow_local (m := m2) (s := u.val) (r := 0) tags hd (by rw [hop]; decide) hlen (by rw [h2.hauls.rangeFenced, hfence])
    have hcross := Mod.peruses_rowCrosses (m2.putRow u.val d 0 [(.loc b, d.len)] bs tags) u.isLt d.piece.part ([(.loc a, d.len)] ++ [(.loc b, d.len)])
    refine ⟨_, _, rfl, Mod.hauls_trans h2.hauls (Mod.hauls_trans hput.1 hcross.hauls), fun x => ?_⟩
    rw [hcross.mem, hput.2 x, h2.mem]
  have hfin := Mod.shtComplete_finished u.isLt (w.shtCnt u.val 4 n) d
  obtain ⟨hgone, hcount, hfires, hno⟩ := hhaul.finished u.isLt hfin
  have hdone := Mod.shtDone_moves (bad := bad) (host := []) hk (by rw [hs]; decide) hfault hlate hheld hc hm hall (by rw [hop]; decide) rfl
    ((h1.hauls.awaits u.val d).trans hw) hmove ((hhaul.awaits u.val d).trans hw)
  refine completes_done hpow hup hdone (hno hcue) ⟨⟨hgone, hcount, hfires⟩, fun x => ?_⟩
  rw [← hbs]
  exact (congrArg (fun q => Memory.byte q x) hfin.mem).trans (hwrote x)

/-- Settles O35. -/
theorem shuttleEnd : Obligations.ShuttleEnd := by
  intro s u k d hpow hup hheld hcue hu hk p gone done ends
  have fails : ∀ {i : Instr} {st : Nat} {f : Mod → Mod}, exec i s = s.run (fun m => m.onPanel (u.val / 2) f) →
      f s.m = (s.m.scrambleDst u.val d).shtEnd u.val d st → completes i s (ends st) := by
    intro i st f hi hf
    refine completes_fails hpow hup hi hf fun t ht => ?_
    obtain ⟨hsht, hcount, -, hperr⟩ := (Mod.hauls_scrambleDst s.m u.val d).failed u.isLt ht
    exact ⟨congrArg Shuttle.running hsht, hcount, fun h0 => (hperr h0).1⟩
  refine ⟨fun hfault hlate hc hm hw => ⟨fun bad hop hs hd hrows => completes_fill hpow hup hheld hcue hk hfault hlate hc hm hw hop hs hd hrows,
    fun bad a b m1 hop hs hd hall hclean hfence => completes_copy hpow hup hheld hcue hu hk hfault hlate hc hm hw hop hs hd hall hclean hfence⟩,
    fun st h hlate => fails rfl ?_, fun hlate hc hkind => fails rfl ?_, fun hclock hc hkind hsrc hm => fails rfl ?_⟩
  · unfold Mod.shtFailed
    rw [hk]
    dsimp only
    rw [hlate]
  · unfold Mod.shtFailed
    rw [hk]
    dsimp only
    rw [hlate]
    exact if_pos ⟨rfl, hc, hkind⟩
  · unfold Mod.completionTimeout
    rw [hk]
    exact if_pos ⟨hclock, hc, hkind, hsrc, by rw [hm]; rfl⟩

end Sys2Proof.Machine
end

section
/-! State words of pieces as they are written and read (R323), and the work of a core's units around a switched-out piece (R334, R335). -/

namespace Sys2Proof.Machine

/-! ## State words (R323) -/

theorem Mod.pieceState_congr {m t : Mod} (x : PatSlot) (i : Nat) (hm : t.mem = m.mem) (hw : t.pat.words = m.pat.words) : t.pieceState x i = m.pieceState x i := by
  unfold Mod.pieceState Mod.stateWord Mod.rdLe Mod.rdMem
  rw [hm, hw]
theorem stateOf_lt (state count : Nat) : stateOf state count < 2 ^ 19 := by unfold stateOf; omega
theorem fld_stateOf (state count : Nat) : fld (w64 (stateOf state count)) 18 16 = state % 8 := by
  rw [fld_w64 _ _ _ (by decide)]
  unfold bitsN stateOf
  omega
/-- A word of the state area that the engine wrote itself. -/
theorem Mod.pieceState_own {t : Mod} {x : PatSlot} {i n : Nat} (hn : n < 2 ^ 64) (hbytes : t.rdMem (x.stateBase + 8 * i) 8 = toLe 8 n)
    (hown : Tab.get? t.pat.words (x.stateBase + 8 * i) = some (w64 n)) : t.pieceState x i = fld (w64 n) 18 16 := by
  have hw : w64 (t.rdLe (x.stateBase + 8 * i) 8) = w64 n := by
    unfold Mod.rdLe
    rw [hbytes, ofLe_toLe _ _ (by norm_num; exact hn)]
  unfold Mod.pieceState Mod.stateWord
  dsimp only
  rw [hown, hw]
  dsimp only
  rw [if_pos rfl]
/-- What the write of a state word does. -/
structure Mod.marks (m t : Mod) (x : PatSlot) (i state : Nat) : Prop where
  pat : ∃ w, t.pat = { m.pat with words := w }
  chores : m.chores t
  regs : ∀ a, shtReg a → t.rd a = m.rd a
  word : m.rangeFenced (x.stateBase + 8 * i) 8 = false → t.pieceState x i = state % 8 ∧
    ∀ a, ¬ (x.stateBase + 8 * i ≤ a ∧ a < x.stateBase + 8 * i + 8) → Memory.byte t.mem a = Memory.byte m.mem a
theorem Mod.wrote_ncWrite_any {m : Mod} {pa : Nat} {bs : List Byte} (h : m.rangeFenced pa bs.length = false) (alloc : Bool) : m.wrote (m.ncWrite pa bs alloc) pa bs := by
  obtain ⟨t, ht, heq⟩ := m.ncWrite_eq pa bs alloc
  intro a
  have hw := Mod.wrote_wrMem t pa bs (by rw [ht.rangeFenced, h]) a
  rwa [← heq, ht.fields.1] at hw
theorem Mod.setPiece_marks (m : Mod) (x : PatSlot) (i state count : Nat) : m.marks (m.setPiece x i state count) x i state := by
  obtain ⟨n, hn⟩ : ∃ n, n = stateOf state count := ⟨_, rfl⟩
  obtain ⟨t, ht⟩ : ∃ t, t = m.ncWrite (x.stateBase + 8 * i) (toLe 8 n) true := ⟨_, rfl⟩
  have hh : m.hauls t := ht ▸ Mod.hauls_ncWrite m _ _ _
  have eq : m.setPiece x i state count = { t with pat := { t.pat with words := Tab.put t.pat.words (x.stateBase + 8 * i) (w64 n) } } := by rw [ht, hn]; rfl
  refine ⟨⟨Tab.put t.pat.words (x.stateBase + 8 * i) (w64 n), ?_⟩, Mod.chores_setPiece m x i state count, fun a ha => ?_, fun hf => ?_⟩
  · rw [eq, hh.pat]
  · rw [eq]; exact hh.regs a ha
  · have hw : m.wrote t (x.stateBase + 8 * i) (toLe 8 n) := ht ▸ Mod.wrote_ncWrite_any (by rw [toLe_length]; exact hf) true
    rw [eq]
    refine ⟨?_, fun a ha => (hw a).trans (if_neg (by rw [toLe_length]; exact ha))⟩
    rw [Mod.pieceState_own (n := n) (by rw [hn]; have := stateOf_lt state count; omega) ?_ ?_, hn, fld_stateOf]
    · refine Mod.rdMem_of_bytes (toLe_length _ _) fun j hj => ?_
      rw [show ({ t with pat := { t.pat with words := Tab.put t.pat.words (x.stateBase + 8 * i) (w64 n) } } : Mod).mem = t.mem from rfl, hw,
        if_pos (by rw [toLe_length]; omega), Nat.add_sub_cancel_left]
    · exact Tab.get?_put_self _ _ _
section
variable {m t : Mod} {x : PatSlot} {i state : Nat} (h : m.marks t x i state)
include h
theorem Mod.marks.pool (g : Nat) : t.pool g = m.pool g := by
  obtain ⟨w, hw⟩ := h.pat
  unfold Mod.pool
  rw [hw]
theorem Mod.marks.slot (p s : Nat) : t.pat? p s = m.pat? p s := by
  obtain ⟨w, hw⟩ := h.pat
  unfold Mod.pat?
  rw [hw]
theorem Mod.marks.saved : t.pat.saved = m.pat.saved := by
  obtain ⟨w, hw⟩ := h.pat
  rw [hw]
theorem Mod.marks.poolWait : t.pat.poolWait = m.pat.poolWait := by
  obtain ⟨w, hw⟩ := h.pat
  rw [hw]
theorem Mod.marks.core (d : Nat) : t.core d = { m.core d with mem := (t.core d).mem } := h.chores.core_eq d
theorem Mod.marks.tallied {a n : Nat} {u : Mod} (ha : shtReg a) (g : t.tallied u a n) : m.tallied u a n := by
  unfold Mod.tallied Mod.rdf at *
  rw [g, h.regs a ha]
end
theorem shtReg_pat (p : Nat) {x : Nat} (hx : x < 0x1000) : shtReg (bPAT p + x) := .inr (.inr (.inr ⟨p, .inr ⟨x, hx, rfl⟩⟩))

/-! ## A slot, and what is done beside memory -/

theorem Mod.pat?_updPat {m : Mod} {p s : Nat} {x : PatSlot} (h : m.pat? p s = some x) (f : PatSlot → PatSlot) : (m.updPat p s f).pat? p s = some (f x) := by
  unfold Mod.updPat
  rw [h]
  exact Tab.get?_put_self _ _ _
theorem Mod.updPat_keeps (m : Mod) (p s : Nat) (f : PatSlot → PatSlot) : ∃ q, m.updPat p s f = { m with pat := { m.pat with slots := q } } := by
  unfold Mod.updPat
  split
  · exact ⟨_, rfl⟩
  · exact ⟨m.pat.slots, rfl⟩

/-! ## The units of a switched-out piece go on (R108, R335) -/

/-- Work on a core's units: memory, pieces and patterns stay, and of the core its bank, piece and state. -/
structure Mod.refits (m t : Mod) (c : Nat) : Prop where
  mem : t.mem = m.mem
  pat : t.pat = m.pat
  bank : (t.core c).bank = (m.core c).bank
  piece : (t.core c).piece = (m.core c).piece
  run : (t.core c).run = (m.core c).run
section
variable (c : Nat)
theorem Mod.refits_refl (m : Mod) : m.refits m c := ⟨rfl, rfl, rfl, rfl, rfl⟩
variable {c}
theorem Mod.refits_trans {m t u : Mod} (h : m.refits t c) (g : t.refits u c) : m.refits u c :=
  ⟨g.mem.trans h.mem, g.pat.trans h.pat, g.bank.trans h.bank, g.piece.trans h.piece, g.run.trans h.run⟩
theorem Mod.refits_after {m t u : Mod} (g : t.refits u c) (h : m.refits t c) : m.refits u c := Mod.refits_trans h g
theorem Mod.refits_foldl {β : Type} (f : Mod → β → Mod) (h : ∀ (m : Mod) x, m.refits (f m x) c) (xs : List β) (m : Mod) : m.refits (xs.foldl f m) c :=
  foldl_keeps (fun m t => m.refits t c) (Mod.refits_refl c) Mod.refits_trans f h xs m
theorem Mod.refits_updCore (m : Mod) (f : Core → Core) (hb : (f (m.core c)).bank = (m.core c).bank) (hp : (f (m.core c)).piece = (m.core c).piece)
    (hr : (f (m.core c)).run = (m.core c).run) : m.refits (m.updCore c f) c := by
  refine ⟨rfl, rfl, ?_, ?_, ?_⟩ <;> rw [Mod.core_updCore_self] <;> assumption
/-- What names neither memory, patterns nor cores. -/
theorem Mod.refits_of_eq {m t : Mod} (hm : t.mem = m.mem) (hp : t.pat = m.pat) (hc : t.cores = m.cores) : m.refits t c := by
  have h : t.core c = m.core c := by unfold Mod.core; rw [hc]
  exact ⟨hm, hp, by rw [h], by rw [h], by rw [h]⟩
theorem Mod.refits_boltCheck (m : Mod) (rs : List (Nat × Nat)) : m.refits (m.boltCheck c rs).2 c := by
  unfold Mod.boltCheck
  dsimp only
  split
  · exact Mod.refits_refl c m
  · refine Mod.refits_trans (Mod.refits_updCore m (fun k => { k with boltErr := k.boltErr.filter fun p => p.2 != 1 || !touched rs p.1 }) rfl rfl rfl) ?_
    split <;> exact Mod.refits_of_eq rfl rfl rfl
theorem Mod.refits_readPass (m : Mod) (p : FinPass) : m.refits (m.readPass c p).2 c := by
  unfold Mod.readPass
  dsimp only
  split <;> exact Mod.refits_of_eq rfl rfl rfl
theorem Mod.refits_runPass (m : Mod) (p : FinPass) : m.refits (m.runPass c p) c := by
  unfold Mod.runPass
  dsimp only
  refine Mod.refits_trans (Mod.refits_trans (Mod.refits_boltCheck m p.boltRuns) (Mod.refits_readPass _ p)) (Mod.refits_updCore _ _ ?_ ?_ ?_)
  all_goals
    split
    · unfold Core.addPend
      split <;> rfl
    · rfl
theorem Core.settleZeros_keeps (n : Nat) : ∀ k : Core, { k.settleZeros n with mat := k.mat } = k := by
  induction n with
  | zero => exact fun k => rfl
  | succ n ih =>
    intro k
    unfold Core.settleZeros
    split
    · rfl
    · split
      next p x _ =>
        have h := ih { k with mat := { k.mat with
          patches := Tab.put k.mat.patches p { Tab.get {} k.mat.patches p with queue := (Tab.get {} k.mat.patches p).queue.filter fun y => y.seq != x.seq }
          acc := Tab.clear k.mat.acc (x.zero.getD (0, 0)).1 ((x.zero.getD (0, 0)).1 + (x.zero.getD (0, 0)).2) } }
        exact congrArg (fun q : Core => { q with mat := k.mat }) h
      next => rfl
theorem Mod.refits_resumeUnits (m : Mod) : m.refits (m.resumeUnits c) c := by
  have settle : ∀ m : Mod, m.refits (m.updCore c fun k => k.settleZeros zeroMax) c := fun m =>
    Mod.refits_updCore m _ (congrArg Core.bank (Core.settleZeros_keeps zeroMax (m.core c)) :) (congrArg Core.piece (Core.settleZeros_keeps zeroMax (m.core c)) :)
      (congrArg Core.run (Core.settleZeros_keeps zeroMax (m.core c)) :)
  unfold Mod.resumeUnits
  dsimp only
  split
  · exact settle m
  · split
    · exact Mod.refits_trans (Mod.refits_runPass m _) (settle _)
    · exact settle m
theorem Mod.refits_loadUnits (m : Mod) (a : Nat) (loaded : List Nat) : m.refits (m.loadUnits c a loaded) c := by
  have pick : ∀ (live : Bool) (m : Mod) (off n : Nat), m.refits (if live then (m.rdMem (a + off) n, m) else m.freeBytes n).2 c := fun live m off n => by
    split
    · exact Mod.refits_refl c m
    · exact Mod.refits_of_eq rfl rfl rfl
  have step : ∀ (m : Mod) (r : List Byte × Mod) (f : Core → Core), m.refits r.2 c → (∀ k, (f k).bank = k.bank ∧ (f k).piece = k.piece ∧ (f k).run = k.run) →
      m.refits (r.2.updCore c f) c := fun m r f hr hf =>
    Mod.refits_trans hr (Mod.refits_updCore r.2 f (hf _).1 (hf _).2.1 (hf _).2.2)
  unfold Mod.loadUnits
  dsimp only
  refine Mod.refits_after (Mod.refits_foldl _ (fun m b => ?_) _ _) (Mod.refits_after (Mod.refits_foldl _ (fun m v => ?_) _ _) (Mod.refits_after
    (Mod.refits_foldl _ (fun m j => ?_) _ _) (Mod.refits_foldl _ (fun m j => ?_) _ m)))
  · exact step m _ _ (pick _ m (0x12000 + 65536 * b) 65536) fun _ => ⟨rfl, rfl, rfl⟩
  · exact step m _ _ (pick _ m (0x2000 + 2048 * v) 2048) fun _ => ⟨rfl, rfl, rfl⟩
  · split
    · exact Mod.refits_updCore m _ rfl rfl rfl
    · exact step m _ _ (pick _ m (0x1800 + 128 * j) 128) fun _ => ⟨rfl, rfl, rfl⟩
  · exact step m _ _ (pick _ m (0x1000 + 256 * j) 256) fun _ => ⟨rfl, rfl, rfl⟩
theorem Mod.refits_tlbForget (m : Mod) (panel part va : Nat) : m.refits (m.tlbForget panel part (some c) va) c := by
  unfold Mod.tlbForget
  exact Mod.refits_trans (t := { m with xlt := { m.xlt with tlb := Tab.keep m.xlt.tlb fun i w => !(i / 2048 == panel &&
    (w.val.part == part && w.val.vpn == va >>> pageBits w.val.level)) } }) (Mod.refits_of_eq rfl rfl rfl) (Mod.refits_updCore _ _ rfl rfl rfl)
theorem Mod.refits_setTrap (m : Mod) (v : Nat) (regs : List (Nat × W64)) : m.refits (m.setTrap c v regs) c := by
  have keep : ∀ (rs : List (Nat × W64)) (k : Core), ∃ q, rs.foldl (fun k r => k.setCreg r.1 r.2) k = { k with ctl := q } := by
    intro rs
    induction rs with
    | nil => exact fun k => ⟨k.ctl, rfl⟩
    | cons r rs ih =>
      intro k
      obtain ⟨q, hq⟩ := ih (k.setCreg r.1 r.2)
      exact ⟨q, hq⟩
  obtain ⟨q, hq⟩ := keep regs (m.core c)
  refine Mod.refits_updCore m _ ?_ ?_ ?_
  all_goals dsimp only; rw [hq]
end

end Sys2Proof.Machine
end

section
/-! A free core takes a ready piece, pools have space, held deliveries go on, and a save completes (R324 to R331, R335). -/

namespace Sys2Proof.Machine

/-! ## Dispatch (R325 to R328, R335) -/

/-- The module with a piece taken from its panel's pool. -/
def Mod.unpooled (m : Mod) (g : Nat) (r : Ready) : Mod := { m with pat := { m.pat with pools := Tab.upd [] m.pat.pools g (·.erase r) } }
theorem Mod.pool_unpooled (m : Mod) (g : Nat) (r : Ready) : (m.unpooled g r).pool g = (m.pool g).erase r := by
  unfold Mod.unpooled Mod.pool Tab.upd
  exact Tab.get_put_self _ _ _ _
/-- What a dispatch does after the piece has started. -/
theorem Mod.fetched_keeps (m : Mod) (id : PieceId) (x : PatSlot) (g p : Nat) :
    ∃ b q, (m.fetchList id x).evPanel g 0x01 1 (some p) = { m with bar0 := b, pat := { m.pat with slots := q } } := by
  obtain ⟨q, hq⟩ := m.updPat_keeps id.part id.slot fun y => { y with lists := Tab.put y.lists id.ix (m.succs x id.ix) }
  have hev : ∀ u : Mod, ∃ b, u.evPanel g 0x01 1 (some p) = { u with bar0 := b } := fun u => ⟨_, (Mod.onlyBar_evPanel u g 0x01 1 (some p)).eq⟩
  obtain ⟨b, hb⟩ := hev (m.fetchList id x)
  refine ⟨b, q, hb.trans ?_⟩
  unfold Mod.fetchList
  rw [hq]

section
variable {m : Mod} {c : CoreId} {p : Nat} {r : Ready} {x : PatSlot} (hp : m.partOf c.val = some p) (hrun : (m.core c.val).run = .free)
  (hhalt : (m.core c.val).halted = false) (hstop : (m.core c.val).stopped = false) (hst : (m.part p).st = .running) (hwild : m.wild p c.val = false)
  (hlow : ∀ i, i < c.val % 64 → m.takes p (64 * panelOf c.val + i) = false) (hbest : m.best p c.val = some r) (hslot : m.pat? p r.piece.slot = some x)
include hp hrun hhalt hstop hst hwild hlow hbest hslot
/-- The piece that a core takes is the best of its partition. -/
theorem Mod.dispatch_takes {t : Mod} (ht : (match m.pat.saved.find? fun s => s.piece == r.piece with
    | some s => (((m.unpooled (panelOf c.val) r).restorePiece s x c.val).fetchList r.piece x).evPanel (panelOf c.val) 0x01 1 (some p)
    | none => if m.capsBad p x r.piece.ix then ((m.unpooled (panelOf c.val) r).failPiece r.piece).fireFault p
        else (((m.unpooled (panelOf c.val) r).startPiece r.piece x c.val).fetchList r.piece x).evPanel (panelOf c.val) 0x01 1 (some p)) = t) :
    m.dispatch c = t := by
  have htakes : m.takes p c.val = true := by
    unfold Mod.takes
    rw [hp, hrun, hhalt, hstop, hbest]
    simp
  have hothers : ((upto (c.val % 64)).any fun i => m.takes p (64 * panelOf c.val + i)) = false := by
    rw [List.any_eq_false]
    intro i hi
    rw [hlow i (mem_upto.mp hi)]
    exact Bool.false_ne_true
  unfold Mod.dispatch
  rw [hp]
  dsimp only
  rw [hwild, if_neg Bool.false_ne_true]
  dsimp only
  rw [htakes, hothers, hst, if_neg (by simp), hbest]
  dsimp only
  rw [hslot]
  exact ht
end

/-- The units of a switched-out piece are read back and go on; a piece whose fault was refused goes on with XLTX. -/
def Mod.goesOn (m : Mod) (c a : Nat) (loaded : List Nat) (s : Saved) (panel part : Nat) : Mod :=
  let t := ((m.loadUnits c a loaded).resumeUnits c).tlbForget panel part (some c) s.va
  if s.reply = some 1 then
    match xltStop 0x09 s.acc s.level 0 s.va with
    | .trap v r => t.setTrap c v r
    | _ => t
  else t
theorem Mod.refits_goesOn {c : Nat} (m : Mod) (a : Nat) (loaded : List Nat) (s : Saved) (panel part : Nat) : m.refits (m.goesOn c a loaded s panel part) c := by
  have h := Mod.refits_after (Mod.refits_tlbForget _ panel part s.va) (Mod.refits_after (Mod.refits_resumeUnits _) (Mod.refits_loadUnits (c := c) m a loaded))
  unfold Mod.goesOn
  dsimp only
  split
  · split
    · exact Mod.refits_after (Mod.refits_setTrap _ _ _) h
    · exact h
  · exact h

section
variable {m : Mod} {c : Nat} {r : Ready} {x : PatSlot} {p : Nat} (hpart : r.piece.part = p) (hf : m.rangeFenced (x.stateBase + 8 * r.piece.ix) 8 = false)
include hpart hf
/-- A piece that starts (R326, R328). -/
theorem Mod.startPiece_starts {t : Mod} (g : Nat)
    (ht : (((m.unpooled g r).startPiece r.piece x c).fetchList r.piece x).evPanel g 0x01 1 (some p) = t) : t.pool g = (m.pool g).erase r ∧
      (t.core c).piece = some r.piece ∧ (t.core c).run = (if m.recSeat x r.piece.ix then .seated else .running) ∧
      t.pieceState x r.piece.ix = (if m.recSeat x r.piece.ix then 5 else 2) ∧ (t.core c).bank = m.startBank p c x r.piece.ix (m.core c).bank.vl := by
  obtain ⟨b, q, hkeep⟩ := ((m.unpooled g r).startPiece r.piece x c).fetched_keeps r.piece x g p
  obtain ⟨st, hst⟩ : ∃ st, st = (if m.recSeat x r.piece.ix then 5 else 2) := ⟨_, rfl⟩
  obtain ⟨v, hv⟩ : ∃ v, v = (m.unpooled g r).setPieceState x r.piece.ix st := ⟨_, rfl⟩
  have hmark : (m.unpooled g r).marks v x r.piece.ix st := hv ▸ Mod.setPiece_marks _ _ _ _ _
  obtain ⟨f, hstart, hf'⟩ : ∃ f : Core → Core, (m.unpooled g r).startPiece r.piece x c = v.updCore c f ∧ ∀ k, (f k).bank = m.startBank p c x r.piece.ix k.bank.vl ∧
      (f k).piece = some r.piece ∧ (f k).run = (if m.recSeat x r.piece.ix then .seated else .running) := by
    have hm1 : (m.unpooled g r).setPieceState x r.piece.ix (if (m.unpooled g r).recSeat x r.piece.ix then 5 else 2) = v := by rw [hv, hst]; rfl
    unfold Mod.startPiece
    dsimp only
    rw [hm1, hpart]
    refine ⟨_, rfl, fun k => ⟨?_, rfl, rfl⟩⟩
    split <;> rfl
  obtain ⟨hbank, hpiece, hrun⟩ := hf' (v.core c)
  rw [show (v.core c).bank = (m.core c).bank by rw [hmark.core c]; rfl] at hbank
  have hstate : v.pieceState x r.piece.ix = st := by
    rw [(hmark.word hf).1, hst]
    split <;> rfl
  rw [← ht, hkeep, hstart]
  refine ⟨?_, ?_, ?_, ?_, ?_⟩
  · exact (hmark.pool g).trans (m.pool_unpooled g r)
  · exact (congrArg Core.piece (Mod.core_updCore_self v c f)).trans hpiece
  · exact (congrArg Core.run (Mod.core_updCore_self v c f)).trans hrun
  · exact (Mod.pieceState_congr x _ rfl rfl).trans (hstate.trans hst)
  · exact (congrArg Core.bank (Mod.core_updCore_self v c f)).trans hbank
/-- A switched-out piece that goes on (R335). -/
theorem Mod.restorePiece_goesOn {t : Mod} {s : Saved} (g : Nat) (hs : s.piece = r.piece)
    (ht : (((m.unpooled g r).restorePiece s x c).fetchList r.piece x).evPanel g 0x01 1 (some p) = t) : t.pool g = (m.pool g).erase r ∧
      t.pieceState x r.piece.ix = 2 ∧ (t.core c).bank = (m.getImage (m.saveBase p s.slot)).bank ∧ (t.core c).piece = some r.piece ∧ (t.core c).run = .running ∧
      t.pat.saved = m.pat.saved.erase s := by
  obtain ⟨b, q, hkeep⟩ := ((m.unpooled g r).restorePiece s x c).fetched_keeps r.piece x g p
  obtain ⟨v, hv⟩ : ∃ v, v = (m.unpooled g r).setPieceState x r.piece.ix 2 := ⟨_, rfl⟩
  have hmark : (m.unpooled g r).marks v x r.piece.ix 2 := hv ▸ Mod.setPiece_marks _ _ _ _ _
  obtain ⟨f, u, hu, hf', hrest⟩ : ∃ (f : Core → Core) (u : Mod), u = (v.updSaved fun l => l.erase s).updCore c f ∧
      (∀ k, (f k).bank = (m.getImage (m.saveBase p s.slot)).bank ∧ (f k).piece = some r.piece ∧ (f k).run = .running) ∧
      u.refits ((m.unpooled g r).restorePiece s x c) c := by
    have heq : ∃ f : Core → Core, (m.unpooled g r).restorePiece s x c =
        ((v.updSaved fun l => l.erase s).updCore c f).goesOn c (m.saveBase p s.slot) (s.units.fin.slots.map (·.1)) s (panelOf c) p ∧
        ∀ k, (f k).bank = (m.getImage (m.saveBase p s.slot)).bank ∧ (f k).piece = some r.piece ∧ (f k).run = .running := by
      unfold Mod.restorePiece Mod.goesOn
      rw [hs, ← hv, hpart]
      exact ⟨_, rfl, fun k => ⟨rfl, rfl, rfl⟩⟩
    obtain ⟨f, heq, hf'⟩ := heq
    exact ⟨f, _, rfl, hf', heq ▸ Mod.refits_goesOn _ _ _ s _ _⟩
  have hcore := Mod.core_updCore_self (v.updSaved fun l => l.erase s) c f
  rw [← hu] at hcore
  have hpat : ((m.unpooled g r).restorePiece s x c).pat = (v.updSaved fun l => l.erase s).pat := hrest.pat.trans (by rw [hu]; rfl)
  have hmem : ((m.unpooled g r).restorePiece s x c).mem = v.mem := hrest.mem.trans (by rw [hu]; rfl)
  have hwords : ((m.unpooled g r).restorePiece s x c).pat.words = v.pat.words := by rw [hpat]; rfl
  rw [← ht, hkeep]
  refine ⟨?_, ?_, ?_, ?_, ?_, ?_⟩
  · exact (congrArg (fun q : PatState => Tab.get [] q.pools g) hpat).trans ((hmark.pool g).trans (m.pool_unpooled g r))
  · exact (Mod.pieceState_congr x _ hmem hwords).trans ((hmark.word hf).1)
  · exact hrest.bank.trans ((congrArg Core.bank hcore).trans (hf' _).1)
  · exact hrest.piece.trans ((congrArg Core.piece hcore).trans (hf' _).2.1)
  · exact hrest.run.trans ((congrArg Core.run hcore).trans (hf' _).2.2)
  · exact (congrArg PatState.saved hpat).trans (congrArg (·.erase s) hmark.saved)
/-- A piece that fails at its dispatch (R327). -/
theorem Mod.failPiece_fails {t : Mod} (g : Nat) (hslot : m.pat? p r.piece.slot = some x)
    (ht : ((m.unpooled g r).failPiece r.piece).fireFault p = t) : t.pool g = (m.pool g).erase r ∧ t.pieceState x r.piece.ix = 7 ∧
      t.pat? p r.piece.slot = some { x with left := x.left - 1, cancelled := x.cancelled + 1, aborted := true } ∧ (t.core c).run = (m.core c).run ∧
      (t.core c).bank = (m.core c).bank ∧ m.tallied t (bPAT p + 0x80 + 8 * 7) 1 := by
  obtain ⟨v, hv⟩ : ∃ v, v = (m.unpooled g r).setPieceState x r.piece.ix 7 := ⟨_, rfl⟩
  have hmark : (m.unpooled g r).marks v x r.piece.ix 7 := hv ▸ Mod.setPiece_marks _ _ _ _ _
  obtain ⟨f, hf'⟩ : ∃ f : PatSlot → PatSlot, f = fun y => { y with left := y.left - 1, cancelled := y.cancelled + 1, aborted := true } := ⟨_, rfl⟩
  have hfail : (m.unpooled g r).failPiece r.piece = v.updPat p r.piece.slot f := by
    unfold Mod.failPiece
    rw [hpart, show (m.unpooled g r).pat? p r.piece.slot = some x from hslot, hv, hf']
  obtain ⟨q, hq⟩ := v.updPat_keeps p r.piece.slot f
  have hvslot : (v.updPat p r.piece.slot f).pat? p r.piece.slot = some (f x) := Mod.pat?_updPat ((hmark.slot _ _).trans hslot) f
  obtain ⟨u, hu⟩ : ∃ u, u = (v.updPat p r.piece.slot f).fire p ((v.updPat p r.piece.slot f).rdf (bPAT p + 0x28) 15 0) := ⟨_, rfl⟩
  obtain ⟨fs, hufire⟩ : ∃ fs, u = { v with pat := { v.pat with slots := q, fires := fs } } := by
    rw [hu, hq]
    unfold Mod.fire
    split
    · exact ⟨v.pat.fires, rfl⟩
    · exact ⟨_, rfl⟩
  have huslot : u.pat? p r.piece.slot = some (f x) := by
    rw [hu]
    unfold Mod.fire
    split <;> exact hvslot
  obtain ⟨w, hw⟩ : ∃ w, w = (u.raise (bPAT p + 0x68) 2).inc (bPAT p + 0x80 + 8 * 7) := ⟨_, rfl⟩
  obtain ⟨b, h, hvec, hrd⟩ := w.prtVector_keeps p
  have hend : t = w.prtVector p := by rw [← ht, hfail, hw, hu]; rfl
  have hcore : t.core c = v.core c := by rw [hend, hvec, hw, hufire]; rfl
  refine ⟨?_, ?_, ?_, ?_, ?_, ?_⟩
  · rw [hend, hvec, hw, hufire]
    exact (hmark.pool g).trans (m.pool_unpooled g r)
  · rw [hend, hvec, hw, hufire]
    exact (Mod.pieceState_congr x _ rfl rfl).trans (hmark.word hf).1
  · rw [hend, hvec, hw]
    exact huslot.trans (by rw [hf'])
  · rw [hcore, hmark.core c]; rfl
  · rw [hcore, hmark.core c]; rfl
  · have hc := Mod.tallied_inc (u.raise (bPAT p + 0x68) 2) (bPAT p + 0x80 + 8 * 7)
    have hur : u.rd (bPAT p + 0x80 + 8 * 7) = m.rd (bPAT p + 0x80 + 8 * 7) := by
      rw [hufire]
      exact hmark.regs _ (by rw [Nat.add_assoc]; exact shtReg_pat p (by decide))
    rw [← hw] at hc
    unfold Mod.tallied Mod.rdf at *
    rw [hend, hrd _ (by simp only [bPAT]; omega), hc]
    unfold Mod.raise
    rw [Mod.rd_wrf_ne _ _ _ _ (by omega), hur]
end

/-! ## Pools, held deliveries and saves (R324, R331, R335) -/

section
variable {s : State}
theorem completes_poolSpace {g : PanelId} {r : Ready} {rest : List Ready} (hpow : s.m.powered = true) (hup : s.m.panelUp g.val = true)
    (hwait : Tab.get [] s.m.pat.poolWait g.val = r :: rest) (hroom : (s.m.pool g.val).length < 4096) :
    completes (.poolSpaceFree g) s fun t => t.pool g.val = s.m.pool g.val ++ [r] ∧ Tab.get [] t.pat.poolWait g.val = rest ∧ t.mem = s.m.mem := by
  have eq : (s.m.onPanel g.val fun m => m.poolSpace g) =
      { s.m with pat := { s.m.pat with pools := Tab.upd [] s.m.pat.pools g.val (· ++ [r]), poolWait := Tab.put s.m.pat.poolWait g.val rest } } := by
    unfold Mod.onPanel Mod.poolSpace
    rw [if_pos hup]
    dsimp only
    rw [hwait]
    exact if_pos hroom
  refine completes_run rfl hpow ?_
  rw [eq]
  exact ⟨Tab.get_put_self _ _ _ _, Tab.get_put_self _ _ _ _, rfl⟩
/-- A binding entry does not read the engine. -/
theorem Mod.bindEntry_pat (m : Mod) (q : PatState) (p n : Nat) : (({ m with pat := q } : Mod).bindEntry p n).1 = (m.bindEntry p n).1 := by
  unfold Mod.bindEntry
  dsimp only
  split
  next h =>
    have h' : (m.part p).holds (m.rdf (bPAT p + 0x10) 45 12 * 2 ^ 12 + 8 * n) 8 = true := h
    rw [if_pos h']
    rfl
  next h =>
    have h' : ¬ (m.part p).holds (m.rdf (bPAT p + 0x10) 45 12 * 2 ^ 12 + 8 * n) 8 = true := h
    rw [if_neg h']
    rfl
/-- A held delivery is tried again. -/
theorem completes_resume {k : Nat} {d : HeldDelivery} (hpow : s.m.powered = true) (hk : s.m.pat.held[k]? = some d) (hseat : d.seat < 3) (hup : s.m.leadUp d.piece.part = true) :
    let v := (s.m.core d.core).cregf 0x0A0 (16 * d.seat + 15) (16 * d.seat)
    let seated := (s.m.core d.core).run = .seated ∧ (s.m.core d.core).piece = some d.piece
    (¬ seated → bitsN (s.m.bindEntry d.piece.part d.notch).1 63 63 = 0 → completes (.seatDeliveryResume k) s fun t =>
      s.m.tallied t (bPAT d.piece.part + 0x80 + 8 * 3) 1 ∧ t.pat.held = s.m.pat.held.eraseIdx k) ∧
    (seated → v < 65535 → completes (.seatDeliveryResume k) s fun t =>
      (t.core d.core).cregf 0x0A0 (16 * d.seat + 15) (16 * d.seat) = v + 1 ∧ t.pat.held = s.m.pat.held.eraseIdx k) ∧
    (seated → v = 65535 → completes (.seatDeliveryResume k) s fun t => t = s.m) := by
  intro v seated
  obtain ⟨m1, hm1⟩ : ∃ u, u = ({ s.m with pat := { s.m.pat with held := s.m.pat.held.eraseIdx k } } : Mod) := ⟨_, rfl⟩
  have eq : s.m.seatResume k = if ¬ seated then m1.bound d.piece.part d.notch false else if v = 65535 then s.m else m1.seatDeliver d.notch d.src d.core d.seat := by
    unfold Mod.seatResume
    rw [hk]
    dsimp only
    rw [hup, if_neg (by decide)]
    by_cases h : seated
    · rw [if_neg (by rintro (h1 | h1); exact h1 h.1; exact h1 h.2), if_neg (not_not.mpr h), hm1]
      rfl
    · rw [if_pos (by by_contra h1; exact h (by tauto)), if_pos h, hm1]
      rfl
  refine ⟨fun hno hbit => completes_run rfl hpow ?_, fun hyes hv => completes_run rfl hpow ?_, fun hyes hv => completes_run rfl hpow ?_⟩
  · have hbind : bitsN (m1.bindEntry d.piece.part d.notch).1 63 63 = 0 := by
      have hsame : (m1.bindEntry d.piece.part d.notch).1 = (s.m.bindEntry d.piece.part d.notch).1 := by
        rw [hm1]
        exact s.m.bindEntry_pat _ _ _
      rw [hsame]
      exact hbit
    have hkeep : (m1.bindEntry d.piece.part d.notch).2.bar0 = s.m.bar0 ∧ (m1.bindEntry d.piece.part d.notch).2.pat = m1.pat := by
      have hbar : m1.bar0 = s.m.bar0 := by rw [hm1]
      unfold Mod.bindEntry
      dsimp only
      split <;> exact ⟨hbar, rfl⟩
    obtain ⟨u, hu⟩ : ∃ u, u = (m1.bindEntry d.piece.part d.notch).2 := ⟨_, rfl⟩
    rw [← hu] at hkeep
    have hb : m1.bound d.piece.part d.notch false = u.patCnt d.piece.part 3 1 := by
      unfold Mod.bound
      dsimp only
      rw [if_neg (by rw [hbind]; decide), if_neg Bool.false_ne_true, hu]
    rw [eq, if_pos hno, hb]
    refine ⟨?_, (congrArg PatState.held hkeep.2).trans (by rw [hm1])⟩
    have hc := Mod.tallied_inc u (bPAT d.piece.part + 0x80 + 8 * 3)
    unfold Mod.tallied Mod.rdf Mod.rd at *
    rw [hkeep.1] at hc
    exact hc
  · have hd : m1.seatDeliver d.notch d.src d.core d.seat = m1.setCore d.core ((s.m.core d.core).setCregf 0x0A0 (16 * d.seat + 15) (16 * d.seat) (v + 1)) := by
      unfold Mod.seatDeliver
      dsimp only
      rw [if_neg (by rw [hm1]; exact Nat.ne_of_lt hv), hm1]
      rfl
    rw [eq, if_neg (not_not.mpr hyes), if_neg (Nat.ne_of_lt hv), hd]
    refine ⟨?_, by rw [hm1]; rfl⟩
    refine (congrArg (fun q : Core => q.cregf 0x0A0 (16 * d.seat + 15) (16 * d.seat)) (Mod.core_setCore_self m1 d.core _)).trans ?_
    rw [Core.cregf_setCregf_self _ _ _ _ _ (by omega), show 16 * d.seat + 15 + 1 - 16 * d.seat = 16 by omega, Nat.mod_eq_of_lt (by omega)]
  · rw [eq, if_neg (not_not.mpr hyes), if_pos hv]
/-- A save that completes before the reply to its fault. -/
theorem completes_saved {k : Nat} {v : Saved} (hpow : s.m.powered = true) (hk : s.m.pat.saved[k]? = some v) (hst : v.stored = false)
    (hup : s.m.panelUp v.panel = true) (hr : v.reply = none) :
    completes (.saveComplete k) s fun t => t = { s.m with pat := { s.m.pat with saved := s.m.pat.saved.set k { v with stored := true } } } := by
  refine completes_run rfl hpow ?_
  unfold Mod.saveComplete
  rw [hk]
  dsimp only
  rw [if_neg (by rw [hst, hup]; decide), hr]
  rfl
/-- One that completes after it. -/
theorem completes_savedReady {k : Nat} {v : Saved} {x : PatSlot} (hpow : s.m.powered = true) (hk : s.m.pat.saved[k]? = some v) (hst : v.stored = false)
    (hup : s.m.panelUp v.panel = true) (hr : v.reply.isSome = true) (hslot : s.m.pat? v.piece.part v.piece.slot = some x)
    (hroom : (s.m.pool v.panel).length < 4096) (hwait : Tab.get [] s.m.pat.poolWait v.panel = []) :
    completes (.saveComplete k) s fun t => t.pool v.panel = s.m.pool v.panel ++ [{ piece := v.piece, prio := s.m.recPrio x v.piece.ix }] ∧
      t.pat.saved = s.m.pat.saved.set k { v with stored := true } ∧ (s.m.spl.fenced = [] → t.pieceState x v.piece.ix = 1) := by
  obtain ⟨m1, hm1⟩ : ∃ u, u = s.m.updSaved fun l => l.set k { v with stored := true } := ⟨_, rfl⟩
  obtain ⟨w, hw⟩ : ∃ w, w = m1.setPieceState x v.piece.ix 1 := ⟨_, rfl⟩
  have hmark : m1.marks w x v.piece.ix 1 := hw ▸ Mod.setPiece_marks _ _ _ _ _
  have hpool : w.pool v.panel = s.m.pool v.panel := (hmark.pool _).trans (by rw [hm1]; rfl)
  have eq : s.m.saveComplete k = { w with pat := { w.pat with pools := Tab.upd [] w.pat.pools v.panel (· ++ [{ piece := v.piece, prio := s.m.recPrio x v.piece.ix }]) } } := by
    unfold Mod.saveComplete
    rw [hk]
    dsimp only
    rw [if_neg (by rw [hst, hup]; decide), if_pos hr, ← hm1]
    unfold Mod.readySaved
    rw [show m1.pat? v.piece.part v.piece.slot = some x by rw [hm1]; exact hslot]
    dsimp only
    rw [← hw, show m1.recPrio x v.piece.ix = s.m.recPrio x v.piece.ix by rw [hm1]; rfl]
    unfold Mod.ready
    rw [if_pos ⟨by rw [hpool]; exact hroom, by rw [hmark.poolWait, hm1]; exact List.isEmpty_iff.mpr hwait⟩]
  refine completes_run rfl hpow ?_
  rw [eq]
  refine ⟨?_, hmark.saved.trans (by rw [hm1]; rfl), fun hf => ?_⟩
  · rw [← hpool]
    exact Tab.get_put_self _ _ _ _
  · refine (Mod.pieceState_congr x _ rfl rfl).trans (hmark.word ?_).1
    have hline : ∀ a, m1.lineFenced a = false := fun a => by
      unfold Mod.lineFenced
      rw [show m1.spl.fenced = [] by rw [hm1]; exact hf]
      simp
    unfold Mod.rangeFenced
    simp [hline]
end

end Sys2Proof.Machine
end

section
/-! A faulting piece is switched out (R333 to R335), and O30. -/

namespace Sys2Proof.Machine

/-! ## The save area (R334) -/

/-- Writes beside a range of memory, where no spool is fenced: the range, the engine and the cores' banks stay. -/
structure Mod.stows (lo hi : Nat) (m t : Mod) : Prop where
  hauls : m.hauls t
  spares : m.spares t
  bytes : m.spl.fenced = [] → ∀ a, lo ≤ a → a < hi → Memory.byte t.mem a = Memory.byte m.mem a
section
variable {lo hi : Nat}
theorem Mod.stows_refl (m : Mod) : m.stows lo hi m := ⟨Mod.hauls_refl m, Mod.spares_refl m, fun _ _ _ _ => rfl⟩
theorem Mod.stows_trans {m t u : Mod} (h : m.stows lo hi t) (g : t.stows lo hi u) : m.stows lo hi u :=
  ⟨Mod.hauls_trans h.hauls g.hauls, Mod.spares_trans h.spares g.spares, fun hf a h1 h2 => (g.bytes (h.hauls.fenced.trans hf) a h1 h2).trans (h.bytes hf a h1 h2)⟩
theorem Mod.stows_ncWrite (m : Mod) (pa : Nat) (bs : List Byte) (h : hi ≤ pa) : m.stows lo hi (m.ncWrite pa bs) := by
  refine ⟨Mod.hauls_ncWrite m pa bs true, Mod.spares_ncWrite m pa bs true, fun hf a _ h2 => ?_⟩
  exact (Mod.wrote_ncWrite_any (Mod.rangeFenced_none hf _ _) true a).trans (if_neg fun h1 => by omega)
theorem Mod.stows_scramble (m : Mod) (pa n : Nat) (h : hi ≤ pa) : m.stows lo hi (m.scramble pa n) :=
  Mod.stows_trans (t := (m.freeBytes n).2) ⟨⟨rfl, rfl, rfl, rfl, rfl, rfl, fun _ _ => rfl⟩, Mod.spares_of_eq rfl rfl rfl rfl, fun _ _ _ _ => rfl⟩
    (Mod.stows_ncWrite _ pa _ h)
theorem Mod.stows_foldl {β : Type} (f : Mod → β → Mod) (h : ∀ (m : Mod) x, m.stows lo hi (f m x)) (xs : List β) (m : Mod) : m.stows lo hi (xs.foldl f m) :=
  foldl_keeps (Mod.stows lo hi) Mod.stows_refl Mod.stows_trans f h xs m
/-- The parts of the units lie above the image. -/
theorem Mod.stows_saveUnits (m : Mod) (c a : Nat) (h : hi ≤ a + 0x1000) : m.stows lo hi (m.saveUnits c a) := by
  have part : ∀ (m : Mod) (live : Bool) (pa : Nat) (bs : List Byte), hi ≤ pa → m.stows lo hi (if live then m.ncWrite pa bs else m) := fun m live pa bs hpa => by
    split
    · exact Mod.stows_ncWrite m pa bs hpa
    · exact Mod.stows_refl m
  unfold Mod.saveUnits
  dsimp only
  refine Mod.stows_trans (Mod.stows_trans (Mod.stows_trans (Mod.stows_foldl _ (fun m j => ?_) _ m) (Mod.stows_foldl _ (fun m j => ?_) _ _))
    (Mod.stows_foldl _ (fun m r => ?_) _ _)) (Mod.stows_foldl _ (fun m b => ?_) _ _)
  all_goals exact part m _ _ _ (by omega)
end
theorem Image.bytes_length (i : Image) : i.bytes.length = 640 := by
  simp [Image.bytes, List.length_flatMap, toLe_length, upto]
/-- An image is written with the tags of its caps. -/
theorem Mod.putImage_writes (m : Mod) (a : Nat) (i : Image) : m.hauls (m.putImage a i) ∧ m.spares (m.putImage a i) ∧
    (m.spl.fenced = [] → ∀ x, a ≤ x → x < a + 640 → Memory.byte (m.putImage a i).mem x = i.bytes.getD (x - a) 0) := by
  obtain ⟨t, ht⟩ : ∃ t, t = m.ncWrite a i.bytes := ⟨_, rfl⟩
  have hput : ∃ q, m.putImage a i = { t with tags := q } := by
    unfold Mod.putImage
    dsimp only
    rw [← ht]
    refine List.foldlRecOn (motive := fun u : Mod => ∃ q, u = { t with tags := q }) (upto 8) _ ⟨t.tags, rfl⟩ fun u hu k _ => ?_
    obtain ⟨q, rfl⟩ := hu
    split
    · exact ⟨_, rfl⟩
    · exact ⟨q, rfl⟩
  obtain ⟨q, hq⟩ := hput
  have hh : m.hauls t := ht ▸ Mod.hauls_ncWrite m a i.bytes true
  have hs : m.spares t := ht ▸ Mod.spares_ncWrite m a i.bytes true
  rw [hq]
  refine ⟨hh.tags q, ⟨hs.cores, hs.parts, hs.nv, hs.pwr⟩, fun hf x h1 h2 => ?_⟩
  have hw : m.wrote t a i.bytes := ht ▸ Mod.wrote_ncWrite_any (Mod.rangeFenced_none hf _ _) true
  exact (hw x).trans (if_pos ⟨h1, by rw [Image.bytes_length]; exact h2⟩)

/-! ## The switch-out (R333, R334) -/

/-- The core once its piece has left. -/
def Core.emptied (k : Core) : Core :=
  { k with run := .free, piece := none, wait := .none, due := none, rbuf := [], mat := { k.mat with patches := [], port := [], baste := none }
           fin := { k.fin with queue := [], running := none }, vec := { k.vec with stations := [] } }
/-- What the engine keeps of a core whose piece, not pinned, has left. -/
def Core.savedAs (k : Core) (c : Nat) (id : PieceId) (slot va level : Nat) (acc : Acc) : Saved :=
  { piece := id, slot := slot, panel := panelOf c, core := c, pin := false, va := va, acc := acc, level := level, units := k.saveState }
/-- Events of a core lie beside the counts of a partition's engine. -/
theorem Mod.rd_evCore_switches (m : Mod) (c code n p : Nat) : (m.evCore c code n).rd (bPAT p + 0x80 + 8 * 8) = m.rd (bPAT p + 0x80 + 8 * 8) := by
  unfold Mod.evCore
  split
  next hc =>
    unfold Mod.evAt
    refine List.foldlRecOn (motive := fun t : Mod => t.rd (bPAT p + 0x80 + 8 * 8) = m.rd (bPAT p + 0x80 + 8 * 8)) (upto 8) _ rfl fun t ht i hi => ?_
    have := mem_upto.mp hi
    exact (Mod.rd_ev1 t _ _ _ _ _ _ (by simp only [bPAT, bPRT, bMON]; omega) (by simp only [bPAT, bPRT, bMON]; omega)).trans ht
  next => rfl

section
variable {s : State} {c : CoreId} {va level slot : Nat} {acc : Acc} {id : PieceId} {x : PatSlot}
/-- A piece that waits on a fault leaves its core. -/
theorem completes_switchOut (hpow : s.m.powered = true) (hwait : (s.m.core c.val).wait = .fault va acc level) (hpiece : (s.m.core c.val).piece = some id)
    (hrun : (s.m.core c.val).run = .running) (hslot : s.m.pat? id.part id.slot = some x) (hsave : s.m.freeSave id.part = some slot)
    (hpin : s.m.recPin x id.ix = false) (hstat : (s.m.core c.val).vec.stations = []) (hpatch : (s.m.core c.val).mat.patches = [])
    (hfin : (s.m.core c.val).fin.running = none) (hload : (s.m.core c.val).openLoad = none) (hup : s.m.panelUp (panelOf c.val) = true)
    (hf : s.m.spl.fenced = []) (hdis : x.stateBase + 8 * id.ix + 8 ≤ s.m.saveBase id.part slot ∨ s.m.saveBase id.part slot + 0x52000 ≤ x.stateBase + 8 * id.ix) :
    completes (.switchOut c) s fun t =>
      t.rdMem (s.m.saveBase id.part slot) 640 = { (s.m.core c.val).bank with prog := (s.m.core c.val).progNow }.image.bytes ∧ t.pieceState x id.ix = 3 ∧
      (t.core c.val).run = .free ∧ (t.core c.val).piece = none ∧ (t.core c.val).wait = .none ∧ s.m.tallied t (bPAT id.part + 0x80 + 8 * 8) 1 ∧
      (∃ v, t.pat.saved = s.m.pat.saved ++ [v] ∧ v.piece = id ∧ v.slot = slot ∧ v.stored = false ∧ v.reply = none ∧ v.va = va) ∧
      ∀ d, d ≠ c.val → (t.core d).bank = (s.m.core d).bank ∧ (t.core d).piece = (s.m.core d).piece := by
  obtain ⟨a, ha⟩ : ∃ a, a = s.m.saveBase id.part slot := ⟨_, rfl⟩
  obtain ⟨img, himg⟩ : ∃ i, i = { (s.m.core c.val).bank with prog := (s.m.core c.val).progNow }.image := ⟨_, rfl⟩
  rw [← ha] at hdis
  obtain ⟨m1, hm1⟩ : ∃ u, u = s.m.putImage a img := ⟨_, rfl⟩
  obtain ⟨m2, hm2⟩ : ∃ u, u = (m1.scramble (a + 0x500) 0xB00).saveUnits c.val a := ⟨_, rfl⟩
  obtain ⟨hh1, hs1, hb1⟩ := Mod.putImage_writes s.m a img
  rw [← hm1] at hh1 hs1 hb1
  have h2 : m1.stows a (a + 640) m2 := hm2 ▸ Mod.stows_trans (Mod.stows_scramble m1 _ _ (by omega)) (Mod.stows_saveUnits _ c.val a (by omega))
  have hh2 := Mod.hauls_trans hh1 h2.hauls
  have hs2 := Mod.spares_trans hs1 h2.spares
  obtain ⟨m3, hm3⟩ : ∃ u, u = m2.updCore c.val Core.emptied := ⟨_, rfl⟩
  obtain ⟨m4, hm4⟩ : ∃ u, u = m3.setPieceState x id.ix 3 := ⟨_, rfl⟩
  have hmark : m3.marks m4 x id.ix 3 := hm4 ▸ Mod.setPiece_marks _ _ _ _ _
  have hf3 : m3.spl.fenced = [] := by rw [hm3]; exact hh2.fenced.trans hf
  obtain ⟨hstate, hbytes⟩ := hmark.word (Mod.rangeFenced_none hf3 _ _)
  obtain ⟨v, hv⟩ : ∃ v, v = (s.m.core c.val).savedAs c.val id slot va level acc := ⟨_, rfl⟩
  obtain ⟨m5, hm5⟩ : ∃ u, u = (m4.updSaved (· ++ [v])).moveWaiters c.val id := ⟨_, rfl⟩
  have eq : s.m.switchOut c = (m5.patCnt id.part 8 1).evCore c.val 0x10 1 := by
    have hstop : s.m.stopPass c.val = s.m := by
      unfold Mod.stopPass
      rw [hfin]
    unfold Mod.switchOut
    dsimp only
    rw [hwait, hpiece]
    dsimp only
    rw [hslot, hsave]
    dsimp only
    rw [hstop, hrun, hpin, hload, hup, hstat, hpatch, if_neg (by simp), ← ha, ← himg, ← hm1, ← hm2, hm5, hm4, hm3, hv]
    rfl
  have hev := (Mod.onlyBar_evCore (m5.patCnt id.part 8 1) c.val 0x10 1).eq
  obtain ⟨t, ht⟩ : ∃ t, t = (m5.patCnt id.part 8 1).evCore c.val 0x10 1 := ⟨_, rfl⟩
  rw [← ht] at hev eq
  have hcore : ∀ d, t.core d = m4.core d := fun d => by rw [hev, hm5]; rfl
  have hmem : t.mem = m4.mem := by rw [hev, hm5]; rfl
  have hpat : t.pat = { m4.pat with saved := m4.pat.saved ++ [v] } := by rw [hev, hm5]; rfl
  have hself : m3.core c.val = (m2.core c.val).emptied := by rw [hm3]; exact Mod.core_updCore_self _ _ _
  refine completes_run rfl hpow ?_
  rw [eq]
  refine ⟨?_, ?_, ?_, ?_, ?_, ?_, ⟨v, ?_, ?_⟩, fun d hd => ?_⟩
  · refine Mod.rdMem_of_bytes (Image.bytes_length _) fun i hi => ?_
    have e1 : Memory.byte t.mem (a + i) = Memory.byte m2.mem (a + i) := by
      rw [hmem, hbytes _ (by omega), hm3]
      rfl
    rw [← ha, ← himg]
    exact e1.trans ((h2.bytes (hh1.fenced.trans hf) _ (by omega) (by omega)).trans ((hb1 hf _ (by omega) (by omega)).trans (by rw [Nat.add_sub_cancel_left])))
  · exact (Mod.pieceState_congr x _ hmem (by rw [hpat])).trans hstate
  · exact (congrArg Core.run (hcore _)).trans (by rw [hmark.core, hself]; rfl)
  · exact (congrArg Core.piece (hcore _)).trans (by rw [hmark.core, hself]; rfl)
  · exact (congrArg Core.wait (hcore _)).trans (by rw [hmark.core, hself]; rfl)
  · have hreg : m5.rd (bPAT id.part + 0x80 + 8 * 8) = s.m.rd (bPAT id.part + 0x80 + 8 * 8) := by
      have hsr : shtReg (bPAT id.part + 0x80 + 8 * 8) := by rw [Nat.add_assoc]; exact shtReg_pat _ (by decide)
      have e5 : m5.rd (bPAT id.part + 0x80 + 8 * 8) = m4.rd (bPAT id.part + 0x80 + 8 * 8) := by rw [hm5]; rfl
      rw [e5, hmark.regs _ hsr, hm3]
      exact hh2.regs _ hsr
    have hc := Mod.tallied_inc m5 (bPAT id.part + 0x80 + 8 * 8)
    have he : t.rd (bPAT id.part + 0x80 + 8 * 8) = (m5.inc (bPAT id.part + 0x80 + 8 * 8)).rd (bPAT id.part + 0x80 + 8 * 8) := by
      rw [ht]
      exact Mod.rd_evCore_switches _ _ _ _ _
    unfold Mod.tallied Mod.rdf at *
    rw [hreg] at hc
    exact (congrArg (fun w => fld w 47 0) he).trans hc
  · refine (congrArg PatState.saved hpat).trans ?_
    have h3 : m3.pat.saved = s.m.pat.saved := by rw [hm3]; exact congrArg PatState.saved hh2.pat
    exact congrArg (· ++ [v]) (hmark.saved.trans h3)
  · rw [hv]
    exact ⟨rfl, rfl, rfl, rfl, rfl⟩
  · have h3 : m3.core d = m2.core d := by rw [hm3]; exact Mod.core_updCore_ne _ _ hd
    have e : t.core d = { s.m.core d with mem := (t.core d).mem } := by
      rw [hcore d, hmark.core d, h3, hs2.core_eq d]
    have hb : (t.core d).bank = (s.m.core d).bank := (congrArg Core.bank e).trans rfl
    have hp : (t.core d).piece = (s.m.core d).piece := (congrArg Core.piece e).trans rfl
    exact ⟨hb, hp⟩
end

/-- A dispatch on a panel in force leaves what the engine makes of it. -/
theorem completes_dispatch {s : State} {c : CoreId} {t : Mod} {Q : Mod → Prop} (hpow : s.m.powered = true) (hup : s.m.panelUp (panelOf c.val) = true)
    (ht : s.m.dispatch c = t) (hQ : Q { t with nv := s.m.nv, pwr := s.m.pwr }) : completes (.dispatch c) s Q := by
  refine completes_run rfl hpow ?_
  unfold Mod.onPanel
  rw [if_pos hup]
  dsimp only
  rw [ht]
  exact hQ

/-- What the bank of R326 holds, field by field. -/
theorem startBank_starts {m : Mod} {b : Bank} {p c i vl : Nat} {x : PatSlot} (hb : b = m.startBank p c x i vl) :
    b.pc = w64 ((b.cap 0).base + m.recf x i 0 31 0) ∧ b.cap 0 = m.capEntry p (m.recf x i 8 23 16) ∧
      b.ops = [w64 (m.rdLe (x.recBase + x.recSize * i + 0x18) 8)] ∧ b.depth = 1 ∧ b.rets = [] ∧
      b.rsp = w64 ((m.capEntry p x.stkx).base + c * x.slice + x.slice) ∧ b.sp = w64 ((m.capEntry p x.stkx).base + c * x.slice + 128 * x.ostk) ∧
      b.vl = vl ∧ (b.cap 6).tag = false ∧ (b.cap 7).tag = false := by
  subst hb
  exact ⟨rfl, rfl, rfl, rfl, rfl, rfl, rfl, rfl, rfl, rfl⟩

/-- Settles O30. -/
theorem seatsAndSwitches : Obligations.SeatsAndSwitches := by
  refine ⟨fun s hpow => ⟨fun g r rest hup hwait hroom => completes_poolSpace hpow hup hwait hroom, fun c p r x hup hp hrun hhalt hstop hst hwild hlow hbest hslot hpart hf => ?_,
    fun k d hk hseat hup => completes_resume hpow hk hseat hup⟩,
    fun s hpow => ⟨fun c va acc level id x slot hwait hpiece hrun hslot hsave hpin hstat hpatch hfin hload hup hf => fun hdis =>
      completes_switchOut hpow hwait hpiece hrun hslot hsave hpin hstat hpatch hfin hload hup hf hdis,
      fun k v hk hst hup => ⟨completes_saved hpow hk hst hup, fun x hr hslot hroom hwait => completes_savedReady hpow hk hst hup hr hslot hroom hwait⟩⟩⟩
  obtain ⟨m1, hm1⟩ : ∃ m1, (((s.m.unpooled (panelOf c.val) r).startPiece r.piece x c.val).fetchList r.piece x).evPanel (panelOf c.val) 0x01 1 (some p) = m1 := ⟨_, rfl⟩
  obtain ⟨m2, hm2⟩ : ∃ m2, ((s.m.unpooled (panelOf c.val) r).failPiece r.piece).fireFault p = m2 := ⟨_, rfl⟩
  have takes := fun t => Mod.dispatch_takes (t := t) hp hrun hhalt hstop hst hwild hlow hbest hslot
  rw [hm1, hm2] at takes
  refine ⟨fun hnew => ⟨fun hok => ?_, fun hbad => ?_⟩, fun v hv => ?_⟩
  · obtain ⟨hpool, hpiece, hr, hstate, hbank⟩ := Mod.startPiece_starts hpart hf _ hm1
    refine completes_dispatch hpow hup (takes m1 (by rw [hnew]; exact if_neg (by rw [hok]; exact Bool.false_ne_true))) ?_
    exact ⟨hpool, hpiece, hr, hstate, startBank_starts hbank⟩
  · obtain ⟨hpool, hstate, hs, hr, hb, hcount⟩ := Mod.failPiece_fails hpart hf _ hslot hm2
    refine completes_dispatch hpow hup (takes m2 (by rw [hnew]; exact if_pos hbad)) ?_
    exact ⟨hpool, hstate, hs, hr.trans hrun, hb, hcount⟩
  · have hid : v.piece = r.piece := by simpa using List.find?_some hv
    obtain ⟨t, ht⟩ : ∃ t, (((s.m.unpooled (panelOf c.val) r).restorePiece v x c.val).fetchList r.piece x).evPanel (panelOf c.val) 0x01 1 (some p) = t :=
      ⟨_, rfl⟩
    refine completes_dispatch hpow hup (takes t (by rw [hv]; exact ht)) ?_
    have h := Mod.restorePiece_goesOn hpart hf _ hid ht
    exact h

end Sys2Proof.Machine
end
